-- ==== Sys2Proof/Word.lean ====
section
/-! DEFINITION. The word types of the device: bytes, register words (R13) and the 32-lane vectors of a tile (R156). -/

namespace Sys2Proof

/-- A byte of memory, of a stream or of one lane of a tile. -/
abbrev Byte := BitVec 8
/-- A half-word. -/
abbrev W16 := BitVec 16
/-- A register word (R13), also a control core's register (R181). -/
abbrev W32 := BitVec 32
/-- A 64-bit check value (R505). -/
abbrev W64 := BitVec 64
/-- A vector of 32 lanes of one byte (R156). -/
abbrev Vec := Vector Byte 32
/-- One of the two dies of a package. -/
abbrev DieId := Fin 2

end Sys2Proof
end

