-- ==== Sys2Proof/Syntax.lean ====
section
/-! DEFINITION. The commands that the device takes: one constructor of `Instr` per row of the opcode table, and the records
that some of them carry. A command that something outside the device gives (a request, a frame, a sample of a pin) carries
`dt`, the supervisor time in 2^-16 ns since the last command that moved time. A command that stands for something the device
does when it is due carries no time: it moves time to the instant at which it is due (Machine/Ops.lean). -/

namespace Sys2Proof

/-- Who executes an opcode that tiles and control cores share (R182). -/
inductive Exec
  /-- tile index r x 48 + c of a die -/
  | tile (d : DieId) (t : Fin 1536)
  /-- a control core of a die -/
  | core (d : DieId) (c : Fin 8)
  deriving DecidableEq, Repr

/-- What SECDED finds in an access (R119, R179, R473). -/
inductive Ecc
  | clean
  | corrected
  | uncorrected
  deriving DecidableEq, Repr

/-- An error that SECDED finds in what a MOVE reads (R119, R473). -/
structure MemErr where
  /-- a granule of M-tile scratch; else a block of DRAM -/
  scratch : Bool := false
  /-- the granule's SCRATCH address of R493 by 32, or the block's address by 64 -/
  unit : Nat
  ecc : Ecc := .uncorrected
  deriving DecidableEq, Repr

/-- Where a Silcel request came from (R409). -/
structure Src where
  /-- source address: 32 bits for IPv4, 128 for IPv6 -/
  addr : Nat := 0
  ipv6 : Bool := false
  port : W16 := 0
  /-- the receiving sub-port of the die -/
  subport : Fin 8 := 0
  deriving DecidableEq, Repr

/-- A Silcel message: the header of R410 field by field, the payload and the tag (empty where the datagram carries none). -/
structure Msg where
  version : Byte := 1
  opcode : Byte := 0
  flags : Byte := 0
  die : Byte := 0
  tid : W16 := 0
  epoch : Byte := 0
  key : Byte := 0
  alive : W32 := 0
  lifetime : W16 := 1
  length : W16 := 0
  deadlineS : W32 := 0
  deadlineNs : W32 := 0
  status : W16 := 0
  detail : W16 := 0
  reserved : W32 := 0
  payload : List Byte := []
  tag : List Byte := []
  deriving DecidableEq, Repr

/-- An SCTE 104 operation (R224): a splice request with its type 1 to 5, splice_null, a time signal with its segmentation descriptor,
any other, and a message that fails its length or range checks. -/
inductive Scte104
  | spliceRequest (type : Nat)
  | spliceNull
  | timeSignal
  | other
  | malformed
  deriving DecidableEq, Repr

/-- The kinds of reserve run (R468). -/
inductive RunKind
  | refresh
  | thermal
  | hammer
  deriving DecidableEq, Repr

/-- Who writes a register: a host by a message, or a control core (R416, R513). -/
inductive Writer
  | host
  | core (c : Fin 8)
  deriving DecidableEq, Repr

/-- The active samples of one line of a picture: luma and the two chroma components. -/
structure PicLine where
  y : List Nat := []
  cb : List Nat := []
  cr : List Nat := []
  deriving DecidableEq, Repr, Inhabited

/-- The audio that a line carries of one ST 299 group (R452): the samples' place in their frame, by the control packet's frame
sequence number, the control packet's asynchronous flag, and the words of the group's channels, sample by sample. -/
structure LineAudio where
  group : Nat
  first : Nat
  async : Bool
  words : List (List W32)
  /-- the ratio that the group's converter measures, input rate over output rate in 2^-24, where it is asynchronous -/
  ratio : W32 := 0
  deriving DecidableEq, Repr

/-- The format that an ST 352 identifier declares, in the terms of the SDI_FORMAT record (R84, R319); `rate` is a code of R42. -/
structure SdiSeen where
  sampling : Nat
  depth : Nat
  scan : Nat
  width : Nat
  height : Nat
  link : Nat
  rate : Nat
  deriving DecidableEq, Repr

/-- A line that an SDI receiver has decoded (R318). -/
structure SdiLine where
  /-- the line, counted from the epoch, that its line number stands for -/
  line : Int
  /-- its TRS stood in place -/
  trs : Bool := true
  /-- its line number was right -/
  number : Bool := true
  /-- its CRC check passed -/
  crc : Bool := true
  /-- the ST 352 identifier it carried -/
  id : Option W32 := none
  /-- the format that its identifier declares -/
  seen : Option SdiSeen := none
  /-- its TRS timing and line count: active samples of a line, active lines and lines of a frame -/
  timing : Nat × Nat × Nat := (0, 0, 0)
  /-- its ST 291 ancillary packets -/
  anc : List Byte := []
  /-- its active samples -/
  samples : PicLine := {}
  /-- embedded audio -/
  audio : List LineAudio := []
  /-- ST 12-2 timecode -/
  timecode : Option W32 := none
  /-- colour primaries and transfer characteristics that its identifier declares -/
  colour : Option (Byte × Byte) := none
  deriving DecidableEq, Repr

/-- What the parameter sets of a coded video sequence declare (R271). -/
structure SeqParams where
  /-- as EN_CFG.PROFILE -/
  profile : Nat := 0
  level : Nat := 0
  tier : Nat := 0
  width : Nat := 0
  height : Nat := 0
  /-- 0 4:2:0, 1 4:2:2, 2 4:4:4 -/
  chroma : Nat := 0
  depth : Nat := 8
  /-- pictures its decoded picture buffer needs -/
  dpb : Nat := 1
  /-- rate code of R42, 0 for a rate not listed -/
  rate : Nat := 0
  deriving DecidableEq, Repr, Inhabited

/-- A coded access unit, as far as decoding turns on it (R271, R272). -/
structure AccessUnit where
  /-- picture order count -/
  poc : Int := 0
  /-- nuh_layer_id -/
  layer : Nat := 0
  /-- the unit starts a coded video sequence: an IRAP picture with parameter sets, with what they declare -/
  params : Option SeqParams := none
  /-- the reference pictures it names -/
  refs : List Int := []
  /-- used for reference -/
  isRef : Bool := false
  /-- a long-term reference -/
  long : Bool := false
  /-- pictures that its reference marking keeps, and those of them that it makes long-term references -/
  keep : List Int := []
  longs : List Int := []
  /-- it is to be output -/
  output : Bool := true
  /-- slices in all and slices that have arrived -/
  slices : Nat × Nat := (1, 1)
  /-- bins of the picture -/
  bins : Nat := 0
  /-- the data of a slice is in error -/
  error : Bool := false
  /-- its NAL units -/
  nals : List (List Byte) := []
  deriving DecidableEq, Repr, Inhabited

/-- A kind of item that can be repaired or withdrawn (R587, R589). -/
inductive ItemKind | tile | bank | bundle | l2 | dram | lane | ethernet | core | dmaChannel | checkUnit | scaler | audioPort | converter | region | control | supervisor
  deriving DecidableEq, Repr

/-- An item under test or repair: its kind and its instance (R587, R589). -/
structure Item where
  /-- What it is. -/
  kind : ItemKind
  /-- Which one. -/
  inst : Nat
  /-- The part of it that a repair replaces: entry, bundle, way, or bank and row. -/
  sub : Nat
  deriving DecidableEq, Repr

/-- A failure that a test reports (R585): the item, the failing address in its block's units, the failing bit of the test word,
the byte expected and the byte read. -/
structure BistFail where
  item : Item
  addr : Nat := 0
  bit : Nat := 0
  expected : Nat := 0
  got : Nat := 0
  deriving DecidableEq, Repr

/-- A command to the device: one constructor per row of the opcode table. -/
inductive Instr
  /-- LINE_PULSE (R46): A cadence reaches a position with FRACTION 0 and emits its line pulse; every scheduled action placed at that line runs. -/
  | linePulse (d : DieId) (c : Fin 8)
  /-- SLACK_REGION_END (R133): A slack region ends, and the deferred program pauses at the bundle boundary, keeping its state. -/
  | slackRegionEnd (d : DieId) (t : Fin 1536)
  /-- DEFERRED_DEADLINE (R134): A deferred unit's deadline passes with its work incomplete; the unit is abandoned, a fill slice replaces it and a SLACK breach is reported. -/
  | deferredDeadline (d : DieId) (n : Fin 256)
  /-- NO_INPUT (R269): No input frame completes within 2 consumer frames, so the frame store repeats its last frame and sets NO_INPUT. -/
  | noInput (d : DieId) (n : Fin 1024)
  /-- COMMIT_APPLY (R299): An accepted layer commit applies whole in the first picture due at least 16 lines after it was accepted. -/
  | commitApply (d : DieId) (n : Fin 256)
  /-- RECOMPUTE_DONE (R306): The recompute of a flattened plane completes at a frame boundary, and the new plane applies. -/
  | recomputeDone (d : DieId) (n : Fin 256) (l : Fin 8)
  /-- RATE_CHANGE_APPLY (R250): A pending rate or QP change takes effect in its picture, or at its random access point or pool frame boundary. -/
  | rateChangeApply (d : DieId) (pool : Bool) (n : Fin 256)
  /-- RWL_APPLY (R108): An accepted rw/L write whose chapter states no other point takes effect at the next frame boundary of the field's cadence. -/
  | rwlApply (d : DieId) (c : Fin 8)
  /-- MEMBER_UNDERRUN (R335): A line of a lane or flow member is not complete by the end of line L + W, so the member underruns and is concealed. -/
  | memberUnderrun (d : DieId) (flow : Bool) (member : Fin 1025)
  /-- DELAY_EXPIRY (R524): A delayed thread's expiry line is reached, and the thread becomes ready. -/
  | delayExpiry (d : DieId) (th : Fin 4096)
  /-- THREAD_WAIT_TIMEOUT (R525): A thread's WAIT timeout expires before its counter reaches 0, so the thread is ready with s1 = 1. -/
  | threadWaitTimeout (d : DieId) (th : Fin 4096)
  /-- THREAD_START (R521): A dispatched thread starts on its core from a stall or a context after the dispatch delay. -/
  | threadStart (d : DieId) (c : Fin 8)
  /-- SPILL_LOAD_DONE (R522): The context of a spilled thread has been read from DRAM into a stall. -/
  | spillLoadDone (d : DieId) (th : Fin 4096) (ecc : Ecc)
  /-- THREAD_BUDGET_EXHAUSTED (R526): An activation uses its BUDGET of core cycles, so the thread is SUSPENDED. -/
  | threadBudgetExhausted (d : DieId) (th : Fin 4096)
  /-- THREAD_SWITCH_END (R528): 10 µs after the switch boundary, a thread of the old plan that has made no kernel call is ended. -/
  | threadSwitchEnd (d : DieId) (th : Fin 4096)
  /-- REF_SYNC_SAMPLE (R54): A reference line sync arrives on REF_IN and gives one servo sample; the format is detected and a mismatch is judged. -/
  | refSyncSample (dt : Nat) (tri : Bool) (lines num den line : Nat) (valid : Bool)
  /-- REFERENCE_LOSS (R48): The loss time of the reference passes with no accepted sample, and the servo enters HOLDOVER. -/
  | referenceLoss (d : DieId) (backup : Bool)
  /-- HOLD_LIMIT_EXPIRY (R51): HOLDOVER has lasted HOLD_LIMIT, so the servo enters FREERUN and posts TB_FREERUN. -/
  | holdLimitExpiry (d : DieId) (backup : Bool)
  /-- STEP_APPLY (R59): At the step point, station time jumps by the step, each cadence completes its frame and opens a gap. -/
  | stepApply (d : DieId)
  /-- DIE0_TIMING_LOST (R62): 16 consecutive timing words are missing on die 1, so it moves to its backup PTP or to HOLDOVER. -/
  | die0TimingLost 
  /-- COMPARE_FIRE (R64): A compare unit reaches its target, raises its event and releases a thread or starts a DMA program. -/
  | compareFire (d : DieId) (u : Fin 64)
  /-- CMP_WRITE (R74): A write to a compare unit is judged and applied, and arming with a past target follows R65. -/
  | cmpWrite (d : DieId) (wr : Writer) (u : Fin 64) (word : Fin 4) (value : W32)
  /-- TB_SNAP (R68): TB_CTRL.SNAP latches station time and every cadence position in one vat cycle. -/
  | tbSnap (d : DieId) (wr : Writer)
  /-- STEP_GO (R58): TB_CTRL.STEP_GO authorises a pending step under policy 2. -/
  | stepGo (d : DieId) (wr : Writer)
  /-- ADMIT (R97): PL_CTRL.ADMIT starts admission of the image at PL_SRC. -/
  | admitPlan (d : DieId) (wr : Writer)
  /-- ADMISSION_DONE (R90): Admission finishes its checks and the image is pending or refused with a reason code. -/
  | admissionDone (dt : Nat)
  /-- SWITCH (R97): PL_CTRL.SWITCH requests the switch of the pending image at the time in PL_SWITCH_T0 and T1. -/
  | switch (d : DieId) (wr : Writer)
  /-- CANCEL (R113): PL_CTRL.CANCEL discards the pending image or held switch. -/
  | cancel (d : DieId) (wr : Writer)
  /-- LIBRARY (R107): PL_CTRL.LIBRARY starts the check of the library entry named in PL_LIB. -/
  | library (d : DieId) (wr : Writer)
  /-- LIBRARY_CHECK_DONE (R107): The check of a library entry finishes, and the entry becomes pending or is refused. -/
  | libraryCheckDone (dt : Nat)
  /-- PLAN_SWITCH (R98): A requested switch takes effect at a cadence's first frame boundary at or after the switch time. -/
  | planSwitch (d : DieId) (c : Fin 8)
  /-- BROWNOUT_APPLY (R104): After SUPPLY_WARN, a cadence applies the brownout alternative at its next frame boundary. -/
  | brownoutApply (d : DieId) (c : Fin 8)
  /-- BROWNOUT_REMOVE (R104): After recovery, a cadence removes the brownout alternative at its first frame boundary. -/
  | brownoutRemove (d : DieId) (c : Fin 8)
  /-- NOP (R158): The ALU slot does nothing. -/
  | nop (e : Exec) (ecc : Ecc)
  /-- ADD (R158): Per lane, d = a + b mod 256, with the carry out in k. -/
  | add (e : Exec) (vd va vb : Fin 32) (p : Fin 4)
  /-- ADC (R158): Per lane, d = a + b + k mod 256, with the carry out in k. -/
  | adc (e : Exec) (vd va vb : Fin 32) (p : Fin 4)
  /-- SUB (R158): Per lane, d = a − b mod 256, with the borrow in k. -/
  | sub (e : Exec) (vd va vb : Fin 32) (p : Fin 4)
  /-- SBB (R158): Per lane, d = a − b − k mod 256, with the borrow in k. -/
  | sbb (e : Exec) (vd va vb : Fin 32) (p : Fin 4)
  /-- ADDI (R158): Per lane, d = a + IMM, with the carry out in k. -/
  | addi (e : Exec) (vd va : Fin 32) (imm : Byte) (p : Fin 4)
  /-- SUBI (R158): Per lane, d = a − IMM, with the borrow in k. -/
  | subi (e : Exec) (vd va : Fin 32) (imm : Byte) (p : Fin 4)
  /-- ADDUS (R158): Per lane, unsigned saturating addition. -/
  | addus (d : DieId) (t : Fin 1536) (vd va vb : Fin 32) (p : Fin 4)
  /-- SUBUS (R158): Per lane, unsigned saturating subtraction. -/
  | subus (d : DieId) (t : Fin 1536) (vd va vb : Fin 32) (p : Fin 4)
  /-- ADDSS (R158): Per lane, signed addition clamped to −128 to 127. -/
  | addss (d : DieId) (t : Fin 1536) (vd va vb : Fin 32) (p : Fin 4)
  /-- SUBSS (R158): Per lane, signed subtraction clamped to −128 to 127. -/
  | subss (d : DieId) (t : Fin 1536) (vd va vb : Fin 32) (p : Fin 4)
  /-- AND (R158): Per lane, d = a AND b. -/
  | and (e : Exec) (vd va vb : Fin 32) (p : Fin 4)
  /-- OR (R158): Per lane, d = a OR b. -/
  | or (e : Exec) (vd va vb : Fin 32) (p : Fin 4)
  /-- XOR (R158): Per lane, d = a XOR b. -/
  | xor (e : Exec) (vd va vb : Fin 32) (p : Fin 4)
  /-- ANDI (R158): Per lane, d = a AND IMM. -/
  | andi (e : Exec) (vd va : Fin 32) (imm : Byte) (p : Fin 4)
  /-- ORI (R158): Per lane, d = a OR IMM. -/
  | ori (e : Exec) (vd va : Fin 32) (imm : Byte) (p : Fin 4)
  /-- XORI (R158): Per lane, d = a XOR IMM. -/
  | xori (e : Exec) (vd va : Fin 32) (imm : Byte) (p : Fin 4)
  /-- ANDN (R158): Per lane, d = a AND NOT b. -/
  | andn (e : Exec) (vd va vb : Fin 32) (p : Fin 4)
  /-- SHLI (R158): Per lane, logical left shift by IMM. -/
  | shli (e : Exec) (vd va : Fin 32) (imm : Byte) (p : Fin 4)
  /-- SHRI (R158): Per lane, logical right shift by IMM. -/
  | shri (e : Exec) (vd va : Fin 32) (imm : Byte) (p : Fin 4)
  /-- SARI (R158): Per lane, arithmetic right shift by IMM. -/
  | sari (e : Exec) (vd va : Fin 32) (imm : Byte) (p : Fin 4)
  /-- FSHR (R158): Per lane, low 8 bits of (a × 256 + b) shifted right by IMM. -/
  | fshr (d : DieId) (t : Fin 1536) (vd va vb : Fin 32) (imm : Byte) (p : Fin 4)
  /-- FSHL (R158): Per lane, bits [15:8] of (a × 256 + b) shifted left by IMM. -/
  | fshl (d : DieId) (t : Fin 1536) (vd va vb : Fin 32) (imm : Byte) (p : Fin 4)
  /-- MINU (R158): Per lane, unsigned minimum. -/
  | minu (e : Exec) (vd va vb : Fin 32) (p : Fin 4)
  /-- MAXU (R158): Per lane, unsigned maximum. -/
  | maxu (e : Exec) (vd va vb : Fin 32) (p : Fin 4)
  /-- MINS (R158): Per lane, signed minimum. -/
  | mins (e : Exec) (vd va vb : Fin 32) (p : Fin 4)
  /-- MAXS (R158): Per lane, signed maximum. -/
  | maxs (e : Exec) (vd va vb : Fin 32) (p : Fin 4)
  /-- AVGU (R158): Per lane, rounded unsigned average. -/
  | avgu (d : DieId) (t : Fin 1536) (vd va vb : Fin 32) (p : Fin 4)
  /-- ABSD (R158): Per lane, absolute difference. -/
  | absd (d : DieId) (t : Fin 1536) (vd va vb : Fin 32) (p : Fin 4)
  /-- CEQ (R158): Per lane, writes a = b into predicate VD. -/
  | ceq (e : Exec) (vd va vb : Fin 32) (p : Fin 4)
  /-- CLTU (R158): Per lane, writes unsigned a < b into predicate VD. -/
  | cltu (e : Exec) (vd va vb : Fin 32) (p : Fin 4)
  /-- CLTS (R158): Per lane, writes signed a < b into predicate VD. -/
  | clts (e : Exec) (vd va vb : Fin 32) (p : Fin 4)
  /-- CEQI (R158): Per lane, writes a = IMM into predicate VD. -/
  | ceqi (e : Exec) (vd va : Fin 32) (imm : Byte) (p : Fin 4)
  /-- CLTUI (R158): Per lane, writes a < IMM into predicate VD. -/
  | cltui (e : Exec) (vd va : Fin 32) (imm : Byte) (p : Fin 4)
  /-- KTOP (R158): Copies k into predicate VD. -/
  | ktop (d : DieId) (t : Fin 1536) (vd : Fin 32) (p : Fin 4)
  /-- PTOK (R158): Copies predicate VA into k. -/
  | ptok (d : DieId) (t : Fin 1536) (va : Fin 32) (p : Fin 4)
  /-- SEL (R158): Per lane, selects a where the PRED predicate is 1, else b. -/
  | sel (d : DieId) (t : Fin 1536) (vd va vb : Fin 32) (p : Fin 4)
  /-- MOV (R158): Copies a into d. -/
  | mov (e : Exec) (vd va : Fin 32) (p : Fin 4)
  /-- MOVI (R158): Writes IMM into every acting lane of d. -/
  | movi (e : Exec) (vd : Fin 32) (imm : Byte) (p : Fin 4)
  /-- SHUF (R158): Permutes the lanes of a by the indices in b. -/
  | shuf (d : DieId) (t : Fin 1536) (vd va vb : Fin 32) (p : Fin 4)
  /-- BCAST (R158): Broadcasts lane IMM of a into every lane. -/
  | bcast (d : DieId) (t : Fin 1536) (vd va : Fin 32) (imm : Byte) (p : Fin 4)
  /-- RUP2 (R158): Unpacks 2-bit residuals into lanes. -/
  | rup2 (d : DieId) (t : Fin 1536) (vd va : Fin 32) (imm : Byte) (p : Fin 4)
  /-- RUP4 (R158): Unpacks 4-bit residuals into lanes. -/
  | rup4 (d : DieId) (t : Fin 1536) (vd va : Fin 32) (imm : Byte) (p : Fin 4)
  /-- RPK2 (R158): Packs 2-bit residuals into eight bytes of d. -/
  | rpk2 (d : DieId) (t : Fin 1536) (vd va : Fin 32) (imm : Byte) (p : Fin 4)
  /-- RPK4 (R158): Packs 4-bit residuals into sixteen bytes of d. -/
  | rpk4 (d : DieId) (t : Fin 1536) (vd va : Fin 32) (imm : Byte) (p : Fin 4)
  /-- JOINL (R158): Forms the low byte of a joined sample from the m plane and the residual. -/
  | joinl (d : DieId) (t : Fin 1536) (vd va vb : Fin 32) (imm : Byte) (p : Fin 4)
  /-- JOINH (R158): Forms the high byte of a joined sample from the m plane. -/
  | joinh (d : DieId) (t : Fin 1536) (vd va : Fin 32) (imm : Byte) (p : Fin 4)
  /-- SAD (R161): Adds the sum of absolute differences of the acting lanes to accumulator d[VD]. -/
  | sad (d : DieId) (t : Fin 1536) (vd va vb : Fin 32) (p : Fin 4)
  /-- SADZ (R161): Sets accumulator d[VD] to the sum of absolute differences. -/
  | sadz (d : DieId) (t : Fin 1536) (vd va vb : Fin 32) (p : Fin 4)
  /-- SATD4 (R162): Adds the Hadamard SATD of two 4 × 4 blocks to d[VD]. -/
  | satd4 (d : DieId) (t : Fin 1536) (vd va vb : Fin 32)
  /-- SATD8 (R162): Adds the Hadamard SATD of one 8 × 8 block to d[VD]. -/
  | satd8 (d : DieId) (t : Fin 1536) (vd va vb : Fin 32)
  /-- BEST3 (R163): Inserts a cost and index into the ordered best list of three. -/
  | best3 (d : DieId) (t : Fin 1536) (va : Fin 32) (imm : Byte)
  /-- DADD (R161): Adds a 16-bit value from lane 0 of a and b to d[VD]. -/
  | dadd (d : DieId) (t : Fin 1536) (vd va vb : Fin 32)
  /-- DRD_S (R161): Reads byte IMM of accumulators d0 to d15 into lanes of a vector. -/
  | drdS (d : DieId) (t : Fin 1536) (vd : Fin 32) (imm : Byte) (p : Fin 4)
  /-- BRD (R161): Reads the best-list costs and indices into lanes of a vector. -/
  | brd (d : DieId) (t : Fin 1536) (vd : Fin 32) (imm : Byte) (p : Fin 4)
  /-- DCLR (R161): Clears d0 to d15 and empties the best list. -/
  | dclr (d : DieId) (t : Fin 1536)
  /-- MULU (R164): Sets accumulator m to the shifted unsigned product. -/
  | mulu (d : DieId) (t : Fin 1536) (vd va vb : Fin 32) (imm : Byte) (p : Fin 4)
  /-- MACU (R164): Adds the shifted unsigned product to accumulator m. -/
  | macu (d : DieId) (t : Fin 1536) (vd va vb : Fin 32) (imm : Byte) (p : Fin 4)
  /-- MACS (R164): Adds the shifted signed product to accumulator m. -/
  | macs (d : DieId) (t : Fin 1536) (vd va vb : Fin 32) (imm : Byte) (p : Fin 4)
  /-- MACSU (R164): Adds the shifted signed-by-unsigned product to accumulator m. -/
  | macsu (d : DieId) (t : Fin 1536) (vd va vb : Fin 32) (imm : Byte) (p : Fin 4)
  /-- MACBS (R164): Adds a times a broadcast signed lane of b to accumulator m. -/
  | macbs (d : DieId) (t : Fin 1536) (vd va vb : Fin 32) (imm : Byte) (p : Fin 4)
  /-- MEXT (R164): Extracts a rounded, shifted and optionally clamped byte of an accumulator. -/
  | mext (d : DieId) (t : Fin 1536) (vd va : Fin 32) (imm : Byte) (p : Fin 4)
  /-- MLD (R164): Loads an accumulator from a sign-extended 16-bit group. -/
  | mld (d : DieId) (t : Fin 1536) (vd va vb : Fin 32) (p : Fin 4)
  /-- MCLR (R164): Clears one accumulator or both. -/
  | mclr (d : DieId) (t : Fin 1536) (vd : Fin 32) (p : Fin 4)
  /-- MADD (R164): Adds m1 to m0. -/
  | madd (d : DieId) (t : Fin 1536) (p : Fin 4)
  /-- BINC (R165): Codes one or two context-coded bins. -/
  | binc (d : DieId) (t : Fin 1536) (va vb : Fin 32) (imm : Byte)
  /-- BINB (R165): Codes one or two bypass bins. -/
  | binb (d : DieId) (t : Fin 1536) (va : Fin 32) (imm : Byte)
  /-- BINT (R165): Codes the terminating bin. -/
  | bint (d : DieId) (t : Fin 1536) (va : Fin 32)
  /-- CINIT (R165): Initialises 32 contexts from init values at the slice QP. -/
  | cinit (d : DieId) (t : Fin 1536) (va vb : Fin 32) (imm : Byte)
  /-- CBASE (R165): Sets the context base. -/
  | cbase (d : DieId) (t : Fin 1536) (va vb : Fin 32)
  /-- CSNAP (R165): Stores all contexts in the snapshot store. -/
  | csnap (d : DieId) (t : Fin 1536)
  /-- CREST (R165): Restores all contexts from the snapshot store. -/
  | crest (d : DieId) (t : Fin 1536)
  /-- CSTART (R165): Resets the arithmetic coder in HEVC or VVC mode. -/
  | cstart (d : DieId) (t : Fin 1536) (imm : Byte)
  /-- CFLUSH (R165): Runs the encoder flush into the FIFO, optionally with byte alignment. -/
  | cflush (d : DieId) (t : Fin 1536) (imm : Byte)
  /-- FLVL (R165): Reads the FIFO level and the bins coded since CSTART. -/
  | flvl (d : DieId) (t : Fin 1536) (vd : Fin 32) (p : Fin 4)
  /-- PUTB (R165): Writes uncoded bits to the FIFO. -/
  | putb (d : DieId) (t : Fin 1536) (va : Fin 32) (imm : Byte)
  /-- RNOP (R153): The ROUTE slot does nothing. -/
  | rnop (d : DieId) (t : Fin 1536)
  /-- RT (R153): Drives out-edges from two sources and receives one in-edge into a vector register. -/
  | rt (d : DieId) (t : Fin 1536) (srca : Fin 8) (dsta : BitVec 4) (srcb : Fin 8) (dstb : BitVec 4) (lv : Fin 32) (rin : Fin 8) (rv : Fin 32)
  /-- MNOP (R168): The MEM slot does nothing. -/
  | mnop (d : DieId) (t : Fin 1536)
  /-- LD (R168): Loads 32 bytes at a granule address. -/
  | ld (d : DieId) (t : Fin 1536) (v : Fin 32) (ar : Fin 16) (post : Bool) (imm : BitVec 16) (ecc : Ecc)
  /-- ST (R168): Stores 32 bytes at a granule address. -/
  | st (d : DieId) (t : Fin 1536) (v : Fin 32) (ar : Fin 16) (post : Bool) (imm : BitVec 16)
  /-- LDU (R168): Loads 32 bytes at any byte address. -/
  | ldu (d : DieId) (t : Fin 1536) (v : Fin 32) (ar : Fin 16) (post : Bool) (imm : BitVec 16) (ecc : Ecc)
  /-- STU (R168): Stores 32 bytes at any byte address. -/
  | stu (d : DieId) (t : Fin 1536) (v : Fin 32) (ar : Fin 16) (post : Bool) (imm : BitVec 16)
  /-- STP (R168): Stores the lanes whose predicate bit is 1. -/
  | stp (d : DieId) (t : Fin 1536) (v : Fin 32) (ar : Fin 16) (post : Bool) (pr : Fin 4) (imm : BitVec 14)
  /-- LDB (R168): Broadcasts one scratch byte into every lane. -/
  | ldb (d : DieId) (t : Fin 1536) (v : Fin 32) (ar : Fin 16) (post : Bool) (imm : BitVec 16) (ecc : Ecc)
  /-- ASET (R168): Sets an address register. -/
  | aset (d : DieId) (t : Fin 1536) (v : Fin 32) (ar : Fin 16) (imm : BitVec 16)
  /-- AADD (R168): Adds an offset to an address register. -/
  | aadd (d : DieId) (t : Fin 1536) (ar : Fin 16) (imm : BitVec 16)
  /-- ALDV (R168): Loads an address register from a lane of a 20-bit word group. -/
  | aldv (d : DieId) (t : Fin 1536) (v : Fin 32) (ar : Fin 16) (l : Fin 32)
  /-- STBF (R168): Writes every FIFO byte to scratch. -/
  | stbf (d : DieId) (t : Fin 1536) (ar : Fin 16) (post : Bool)
  /-- DRD (R168): Issues a 64-byte DRAM read into two scratch entries in a PORT slot. -/
  | drd (d : DieId) (t : Fin 1536) (q : Fin 8) (incq : Bool) (ar : Fin 16) (inca : Bool)
  /-- DWR (R168): Issues a 64-byte DRAM write from two scratch entries in a PORT slot. -/
  | dwr (d : DieId) (t : Fin 1536) (q : Fin 8) (incq : Bool) (ar : Fin 16) (inca : Bool) (ecc : Ecc × Ecc)
  /-- QLDV (R168): Loads a DRAM address register from a lane of a word group. -/
  | qldv (d : DieId) (t : Fin 1536) (v : Fin 32) (q : Fin 8) (l : Fin 32)
  /-- QADD (R168): Adds 64-byte steps to a DRAM address register. -/
  | qadd (d : DieId) (t : Fin 1536) (q : Fin 8) (imm : BitVec 16)
  /-- DRAM_READ_COMPLETE (R137): A DRAM read completes into scratch; a read later than 320 ns leaves scratch unchanged and is a DRAM_LATE breach. -/
  | dramReadComplete (d : DieId) (dt : Nat) (t : Fin 1536) (ecc : Ecc)
  /-- DRAM_WRITE_DRAIN (R471): A queued write reaches the array, releasing any read of the same address that waits on it. -/
  | dramWriteDrain (d : DieId) (r : Fin 16)
  /-- CNOP (R171): The CTL slot does nothing. -/
  | cnop (d : DieId) (t : Fin 1536)
  /-- LOOP (R172): Runs the next LEN bundles COUNT times. -/
  | loop (d : DieId) (t : Fin 1536) (len : Fin 256) (count : W16)
  /-- DLOOP (R173): Runs a data-dependent count of iterations clipped to BOUND, with idle bundles filling to BOUND. -/
  | dloop (d : DieId) (t : Fin 1536) (len : Fin 256) (v : Fin 32) (bound : Fin 8192)
  /-- IFP (R174): Issues the next N bundles as idle bundles when lane 0 of predicate P is 0. -/
  | ifp (d : DieId) (t : Fin 1536) (p : Fin 4) (n : Fin 256)
  /-- END (R171): Ends the program after this bundle, and idle bundles follow. -/
  | endProg (d : DieId) (t : Fin 1536)
  /-- WAITF (R175): Holds the tile in a slack region until flag F is 1, then clears it. -/
  | waitf (d : DieId) (t : Fin 1536) (f : Fin 16)
  /-- WAITF_RESUME (R175): The flag awaited by WAITF becomes 1, and the tile issues the next bundle. -/
  | waitfResume (d : DieId) (t : Fin 1536)
  /-- SETF (R171): Sets a tile flag. -/
  | setf (d : DieId) (t : Fin 1536) (f : Fin 16)
  /-- CLRF (R171): Clears a tile flag. -/
  | clrf (d : DieId) (t : Fin 1536) (f : Fin 16)
  /-- KICK (R171): Raises the start event of a DMA channel. -/
  | kick (d : DieId) (t : Fin 1536) (ch : Fin 128)
  /-- POST (R171): Decrements the dependence counter of a control thread. -/
  | post (d : DieId) (t : Fin 1536) (th : Fin 4096)
  /-- POS (R171): Writes the window's line number into lane 0 of two vector registers. -/
  | pos (d : DieId) (t : Fin 1536) (v : Fin 32)
  /-- LDW (R183): A control core loads a word. -/
  | ldw (d : DieId) (c : Fin 8) (rd ra : Fin 32) (imm : W16) (ecc : Ecc)
  /-- LDHU (R183): A control core loads a zero-extended half-word. -/
  | ldhu (d : DieId) (c : Fin 8) (rd ra : Fin 32) (imm : W16) (ecc : Ecc)
  /-- LDBU (R183): A control core loads a zero-extended byte. -/
  | ldbu (d : DieId) (c : Fin 8) (rd ra : Fin 32) (imm : W16) (ecc : Ecc)
  /-- STW (R183): A control core stores a word, including register stores under R513. -/
  | stw (d : DieId) (c : Fin 8) (rd ra : Fin 32) (imm : W16) (ecc : Ecc)
  /-- STH (R183): A control core stores a half-word. -/
  | sth (d : DieId) (c : Fin 8) (rd ra : Fin 32) (imm : W16) (ecc : Ecc)
  /-- STB (R183): A control core stores a byte. -/
  | stb (d : DieId) (c : Fin 8) (rd ra : Fin 32) (imm : W16) (ecc : Ecc)
  /-- LUI (R183): Loads an immediate into the upper half of a register. -/
  | lui (d : DieId) (c : Fin 8) (rd : Fin 32) (imm : W16)
  /-- ADDIW (R183): Adds a sign-extended immediate. -/
  | addiw (d : DieId) (c : Fin 8) (rd ra : Fin 32) (imm : W16)
  /-- BEQ (R183): Branches if two registers are equal. -/
  | beq (d : DieId) (c : Fin 8) (rd ra : Fin 32) (imm : W16)
  /-- BNE (R183): Branches if two registers differ. -/
  | bne (d : DieId) (c : Fin 8) (rd ra : Fin 32) (imm : W16)
  /-- BLTU (R183): Branches if unsigned less than. -/
  | bltu (d : DieId) (c : Fin 8) (rd ra : Fin 32) (imm : W16)
  /-- BLT (R183): Branches if signed less than. -/
  | blt (d : DieId) (c : Fin 8) (rd ra : Fin 32) (imm : W16)
  /-- JAL (R183): Jumps and links by a relative offset. -/
  | jal (d : DieId) (c : Fin 8) (rd : Fin 32) (off : BitVec 21)
  /-- JALR (R183): Jumps and links to a register plus immediate. -/
  | jalr (d : DieId) (c : Fin 8) (rd ra : Fin 32) (imm : W16)
  /-- MUL (R183): Writes the low 32 bits of a product. -/
  | mul (d : DieId) (c : Fin 8) (rd ra rb : Fin 32)
  /-- MULHU (R183): Writes the high 32 bits of an unsigned product. -/
  | mulhu (d : DieId) (c : Fin 8) (rd ra rb : Fin 32)
  /-- DIVU (R183): Unsigned division, with 0xFFFF_FFFF for a zero divisor. -/
  | divu (d : DieId) (c : Fin 8) (rd ra rb : Fin 32)
  /-- REMU (R183): Unsigned remainder, with the dividend for a zero divisor. -/
  | remu (d : DieId) (c : Fin 8) (rd ra rb : Fin 32)
  /-- CLEAN (R184): Writes the dirty lines of a range in the core's L1 and the L2 back to DRAM. -/
  | clean (d : DieId) (c : Fin 8) (ra rb : Fin 32)
  /-- INVAL (R184): Writes back and then discards the lines of a range from the core's L1 and the L2. -/
  | inval (d : DieId) (c : Fin 8) (ra rb : Fin 32)
  /-- SYNC (R184): Waits until every earlier store, CLEAN and INVAL of the core has drained. -/
  | sync (d : DieId) (c : Fin 8)
  /-- SYNC_DONE (R184): The writes that a SYNC waits for have drained, and the core resumes. -/
  | syncDone (d : DieId) (c : Fin 8)
  /-- ILLEGAL_INSTRUCTION (R182): A core word with a non-core ALU opcode or CTL opcode 0x36 to 0x3F raises the illegal-instruction trap and stops the thread. -/
  | illegalInstruction (d : DieId) (c : Fin 8) (w : W32)
  /-- KERNEL_END (R523): The END kernel call ends the thread's activation. -/
  | kernelEnd (d : DieId) (c : Fin 8)
  /-- YIELD (R523): The YIELD kernel call makes the thread ready again with the current line. -/
  | yield (d : DieId) (c : Fin 8)
  /-- DELAY (R523): The DELAY kernel call puts the thread on the delay list. -/
  | delay (d : DieId) (c : Fin 8)
  /-- KERNEL_WAIT (R525): The WAIT kernel call completes at once or waits on the thread's dependence counter. -/
  | kernelWait (d : DieId) (c : Fin 8)
  /-- KERNEL_POST (R523): The POST kernel call cleans a range, syncs and decrements another thread's counter. -/
  | kernelPost (d : DieId) (c : Fin 8)
  /-- PA_RELEASE (R518): A write of PA_RELEASE releases a thread. -/
  | paRelease (d : DieId) (wr : Writer) (t : Fin 4096)
  /-- PA_RESTART (R527): A write of PA_RESTART restarts a stopped thread with its counter reloaded. -/
  | paRestart (d : DieId) (wr : Writer) (t : Fin 4096)
  /-- MOVE (R492): A DMA channel moves rows of bytes between its source and destination, reshaping and feeding a check unit. -/
  | move (d : DieId) (ch : Fin 128) (ecc : Ecc) (errs : List MemErr)
  /-- DMA_LOOP (R498): A DMA LOOP runs its body an immediate or queue-derived number of times with address steps. -/
  | dmaLoop (d : DieId) (ch : Fin 128) (ecc : Ecc)
  /-- WAIT_LINE (R498): A DMA WAIT on the next line pulse of line LINE. -/
  | waitLine (d : DieId) (ch : Fin 128) (ecc : Ecc)
  /-- WAIT_PACE (R499): A DMA WAIT until the PACE state of its target is open. -/
  | waitPace (d : DieId) (ch : Fin 128) (ecc : Ecc)
  /-- WAIT_FILL (R498): A DMA WAIT until its target holds at least BYTES. -/
  | waitFill (d : DieId) (ch : Fin 128) (ecc : Ecc)
  /-- WAIT_START (R498): A DMA WAIT for a pending start event, which it consumes. -/
  | waitStart (d : DieId) (ch : Fin 128) (ecc : Ecc)
  /-- DMA_WAIT_DONE (R498): The condition of a DMA WAIT is met and the channel continues. -/
  | dmaWaitDone (d : DieId) (ch : Fin 128)
  /-- DMA_WAIT_TIMEOUT (R498): A DMA WAIT times out; it continues with SKIP, or the channel stops with cause WAIT. -/
  | dmaWaitTimeout (d : DieId) (ch : Fin 128)
  /-- SIGNAL (R501): After the earlier MOVEs complete, the channel takes a check value, sets a flag, posts, starts a channel and ends. -/
  | signal (d : DieId) (ch : Fin 128) (ecc : Ecc)
  /-- DMA_ACCESS_DONE (R496): An outstanding DMA access completes, or a queue gains the room a waiting write needs. -/
  | dmaAccessDone (d : DieId) (ch : Fin 128) (errs : List MemErr)
  /-- DMA_TIMEOUT (R496): A DMA access has not completed 2 µs after issue, so the channel stops with cause TIMEOUT. -/
  | dmaTimeout (d : DieId) (ch : Fin 128)
  /-- DMA_START (R490): A write of DM_CHn_CTRL.START gives a start event to the channel. -/
  | dmaStart (d : DieId) (wr : Writer) (ch : Fin 128)
  /-- DMA_RESTART (R504): A write of DM_CHn_CTRL.RESTART returns a stopped channel to idle and resets its check units. -/
  | dmaRestart (d : DieId) (wr : Writer) (ch : Fin 128)
  /-- FORCE_RAP (R198): A write of EN_CTRL.FORCE_RAP requests a random access point at least 16 lines later. -/
  | forceRap (d : DieId) (wr : Writer) (n : Fin 256) (value : W32)
  /-- RATE_WRITE (R249): A write of RC_RATE, RC_MAXRATE, RC_QP or RC_POOLp_RATE within bounds makes a rate change pending. -/
  | rateWrite (d : DieId) (wr : Writer) (field : Fin 4) (n : Fin 256) (value : W32)
  /-- SCTE104_MESSAGE (R225): A SCTE 104 message in the VANC is translated into a SCTE 35 section or discarded. -/
  | scte104Message (d : DieId) (n : Fin 256) (dt : Nat) (op : Scte104) (preMs : Nat) (header body : List Byte)
  /-- COMMIT (R299): A write of CH_COMMIT checks each named layer and accepts or refuses its pending values. -/
  | commit (d : DieId) (wr : Writer) (n : Fin 256) (value : W32)
  /-- CABLE_CHANGE (R332): The amplitude detector holds its new value for the debounce time, and CABLE changes. -/
  | cableChange (d : DieId) (k : Fin 512) (dt : Nat) (cable : Bool)
  /-- UNLOCK (R333): A receiver loses its recovered clock, four TRS or frame alignment, and stops delivering. -/
  | unlock (d : DieId) (k : Fin 512) (dt : Nat)
  /-- ACQUIRE (R329): A receiver starts acquisition, trying its stored preset or scanning its presets. -/
  | acquire (d : DieId) (k : Fin 512) (dt : Nat) (foms : List Byte)
  /-- LOCK (R333): Acquisition reaches lock and word or frame alignment. -/
  | lock (d : DieId) (k : Fin 512) (dt : Nat)
  /-- ACQUIRE_TIMEOUT (R333): An attempt has not reached lock within 400 µs, and the next attempt starts while CABLE is 1. -/
  | acquireTimeout (d : DieId) (k : Fin 512) (foms : List Byte)
  /-- READAPT (R329): A write of LN_CTRL.READAPT drops lock and acquires again. -/
  | readapt (d : DieId) (wr : Writer) (k : Fin 512) (value : W32)
  /-- LN_PWR_WRITE (R330): A write of LN_PWR changes a direction's power state and starts any wake. -/
  | lnPwrWrite (d : DieId) (wr : Writer) (k : Fin 512) (value : W32)
  /-- WAKE_DONE (R330): A lane direction completes its wake into the new state. -/
  | wakeDone (d : DieId) (k : Fin 512) (tx : Bool) (dt : Nat)
  /-- SDI_LINE (R318): A received SDI line is decoded, checked and placed in staging with its ancillary and audio data. -/
  | sdiLine (d : DieId) (k : Fin 512) (dt : Nat) (l : SdiLine)
  /-- NATIVE_FRAME (R324): A native frame is received, aligned, checked and delivered to its stream or discarded. -/
  | nativeFrame (d : DieId) (k : Fin 512) (dt : Nat) (control payload : List Bool) (full : Bool) (frame : Int) (line : Nat)
  /-- LINK_CONTROL_FRAME (R326): A native transmitter sends a link-control frame every 65,536 frames. -/
  | linkControlFrame (d : DieId) (k : Fin 512) (dt : Nat)
  /-- XPT_WRITE (R341): A write of LN_XPT.SOURCE makes a direct-route source change pending. -/
  | xptWrite (d : DieId) (wr : Writer) (k : Fin 512) (value : W32)
  /-- XPT_APPLIED (R341): The pending source change applies at the switching line or frame start of the new source. -/
  | xptApplied (d : DieId) (k : Fin 512) (dt : Nat)
  /-- PLL_UNLOCK (R348): A lane-block PLL loses lock. -/
  | pllUnlock (d : DieId) (b : Fin 32) (pllB : Bool) (dt : Nat)
  /-- SUBPORT_UP (R354): A sub-port reaches lane alignment and FEC codeword lock. -/
  | subportUp (d : DieId) (sp : Fin 8) (dt : Nat) (eyeLow : Bool)
  /-- SUBPORT_DOWN (R354): A sub-port loses alignment or codeword lock, and its departures are discarded. -/
  | subportDown (d : DieId) (sp : Fin 8) (dt : Nat)
  /-- RX_FRAME (R355): A received Ethernet frame is classified and dropped, forwarded, passed to PTP, to a flow or to the control queue. -/
  | rxFrame (d : DieId) (sp : Fin 8) (dt : Nat) (bytes : List Byte) (fcs : Bool) (corr uncorr taken : Nat)
  /-- PATH_DOWN (R366): A path has had no packet for 100 ms and is reported down. -/
  | pathDown (d : DieId) (f : Fin 1024) (path : Fin 2)
  /-- ANNOUNCE_TIMEOUT (R48): The ST 2059-2 announce receipt timeout expires and counts as loss of the reference. -/
  | announceTimeout (d : DieId)
  /-- DELAY_REQ (R377): The PTP engine sends a Delay_Req at the interval the master states. -/
  | delayReq (d : DieId)
  /-- MEMBERSHIP_REPORT (R358): An IGMPv3 or MLDv2 report falls due: the second unsolicited report, or the reply to a query. -/
  | membershipReport (d : DieId) (sp : Fin 8) (dt : Nat)
  /-- EGRESS_SELECT (R388): The sub-port is free and the scheduler starts the head frame of an eligible queue. -/
  | egressSelect (d : DieId) (sp : Fin 8) (dt : Nat)
  /-- SHAPER_RATE_WRITE (R393): A write of a shaper's RATE takes effect at once, keeping any debt. -/
  | shaperRateWrite (d : DieId) (wr : Writer) (sh : Fin 1024) (value : W32)
  /-- GATE_SELECT (R398): A write of TQ_GATE_SEL selects another gate list to start at a future boundary. -/
  | gateSelect (d : DieId) (wr : Writer) (sp : Fin 8) (value : W32)
  /-- GATE_LIST_START (R397): A selected gate list starts at its first future cycle boundary, recording skipped cycles. -/
  | gateListStart (d : DieId) (sp : Fin 8)
  /-- GATE_ENTRY (R396): A gate-list entry's interval ends and the next entry's gate states apply. -/
  | gateEntry (d : DieId) (sp : Fin 8)
  /-- PING (R420): A PING request is checked and answered with variant, epoch, nonce and station time. -/
  | ping (r : DieId) (dt : Nat) (src : Src) (m : Msg)
  /-- HELLO (R421): A HELLO opens a slot or sets a new epoch when its nonce matches. -/
  | hello (r : DieId) (dt : Nat) (src : Src) (m : Msg)
  /-- READ (R413): A READ returns COUNT register words of one block. -/
  | read (r : DieId) (dt : Nat) (src : Src) (m : Msg)
  /-- WRITE (R414): A WRITE checks every word and applies them all in address order, or none. -/
  | write (r : DieId) (dt : Nat) (src : Src) (m : Msg)
  /-- MODIFY (R413): A MODIFY reads and writes one register under a mask in one step. -/
  | modify (r : DieId) (dt : Nat) (src : Src) (m : Msg)
  /-- IMAGE_OPEN (R433): IMAGE_OPEN starts a transfer to the plan buffer, the flash or the token buffer. -/
  | imageOpen (r : DieId) (dt : Nat) (src : Src) (m : Msg)
  /-- IMAGE_DATA (R433): IMAGE_DATA writes bytes into the open transfer. -/
  | imageData (r : DieId) (dt : Nat) (src : Src) (m : Msg)
  /-- IMAGE_CLOSE (R433): IMAGE_CLOSE compares the CRC and, for the flash, queues the flash write. -/
  | imageClose (r : DieId) (dt : Nat) (src : Src) (m : Msg)
  /-- FLASH_WRITE_DONE (R433): A queued flash write ends, and the transfer closes. -/
  | flashWriteDone (d : DieId)
  /-- TRANSFER_ABANDON (R433): A transfer with no request for 10 s is abandoned. -/
  | transferAbandon (d : DieId)
  /-- SUBSCRIBE (R434): SUBSCRIBE records a subscription for event posts. -/
  | subscribe (r : DieId) (dt : Nat) (src : Src) (m : Msg)
  /-- UNSUBSCRIBE (R434): UNSUBSCRIBE ends the slot's subscription. -/
  | unsubscribe (r : DieId) (dt : Nat) (src : Src) (m : Msg)
  /-- SUBSCRIPTION_EXPIRY (R434): A subscription ends after 10 s without an accepted request on its slot. -/
  | subscriptionExpiry (d : DieId)
  /-- EVENT (R434): The device sends an EVENT message with gathered post entries within 1 ms of their events. -/
  | event (d : DieId)
  /-- RESET_POWER_ON (R622): RESET kind 0 cycles the regulators as a power-on, 100 µs after the reply. -/
  | resetPowerOn (r : DieId) (dt : Nat) (src : Src) (m : Msg)
  /-- RESET_HOST_FULL (R622): RESET kind 4 performs a host full reset of the package. -/
  | resetHostFull (r : DieId) (dt : Nat) (src : Src) (m : Msg)
  /-- RESET_DIE (R622): RESET kind 5 resets the named die. -/
  | resetDie (r : DieId) (dt : Nat) (src : Src) (m : Msg)
  /-- RESET_PLAN (R625): RESET kind 6 stops the running plan at each cadence's next line pulse and enters Idle. -/
  | resetPlan (r : DieId) (dt : Nat) (src : Src) (m : Msg)
  /-- RESET_LANE (R626): RESET kind 7 returns one lane to its declared state and discards its preset. -/
  | resetLane (r : DieId) (dt : Nat) (src : Src) (m : Msg)
  /-- RELAY_REPLY (R429): The reply to a request relayed to the other die returns over the milk-run link and is sent. -/
  | relayReply (d : DieId)
  /-- REQUEST_EXPIRED (R427): A request whose execution has not started within its lifetime is abandoned and refused with EXPIRED. -/
  | requestExpired (d : DieId)
  /-- QUARANTINE_END (R424): A quarantined TID's QUAR time ends and the TID is free. -/
  | quarantineEnd (d : DieId)
  /-- CLOCK_LOSS (R446): A slave port's WCLK or BCLK shows no edge for 2 periods, so it declares CLOCK_LOSS and drives SDOUT low. -/
  | clockLoss (d : DieId) (p : Fin 16) (dt : Nat)
  /-- CLOCK_BACK (R446): 64 consecutive good sample periods end the clock loss. -/
  | clockBack (d : DieId) (p : Fin 16)
  /-- AUDIO_UNDERRUN (R449): An audio member's sample is missing at the end of its line plus W, so the member mutes. -/
  | audioUnderrun (d : DieId) (g : Fin 256) (m : Fin 16)
  /-- ASRC_LOCK (R450): A tracking converter's ratio has held within 1 ppm for 1 s and it sets LOCK. -/
  | asrcLock (d : DieId) (a : Fin 32)
  /-- DRAM_TEMP_SAMPLE (R474): A DRAM layer sensor is sampled; hot mode, sensor fault and OVER_LIMIT are judged. -/
  | dramTempSample (d : DieId) (dt : Nat) (layer : Fin 4) (temp : BitVec 16)
  /-- REFRESH_INTERVAL (R475): A refresh interval of a region ends; D rises, cool mode returns and a forced refresh follows at the ceiling. -/
  | refreshInterval (d : DieId) (r : Fin 16)
  /-- RESERVE_RUN (R478): A REFRESH, THERMAL or HAMMER run reaches its slots and serves the first pending item of its order. -/
  | reserveRun (d : DieId) (r : Fin 16) (k : RunKind)
  /-- ROTATION_SLOT (R534): A rotation slot falls due and carries a record of its assigned class. -/
  | rotationSlot (d : DieId) (dt : Nat)
  /-- TIMING_RECORD (R61): A TIMING record is received; die 1 corrects and follows die 0's station time. -/
  | timingRecord (d : DieId) (dt : Nat) (ok : Bool)
  /-- CHECK_RECORD (R548): A CHECK record's slice values are compared as matched or diverged. -/
  | checkRecord (d : DieId) (dt : Nat) (ok : Bool)
  /-- CONTROL_RECORD (R534): A CONTROL record delivers and acknowledges fragments of forwarded messages and herdbook records. -/
  | controlRecord (d : DieId) (dt : Nat) (ok : Bool)
  /-- PLAN_RECORD (R91): A PLAN record delivers plan, snapshot or boot data to the other die. -/
  | planRecord (d : DieId) (dt : Nat) (ok : Bool)
  /-- IDLE_RECORD (R533): An IDLE record is received and counts as a valid record. -/
  | idleRecord (d : DieId) (dt : Nat) (ok : Bool)
  /-- CONTROL_RESEND (R534): A CONTROL fragment not acknowledged within 4 CONTROL slots is sent again or lost. -/
  | controlResend (d : DieId)
  /-- UNCHECKED (R548): The peer's check record has not arrived within 64 lines, and the slice counts as unchecked. -/
  | unchecked (d : DieId)
  /-- LINK_TRAINED (R532): Milk-run link training completes and measures the delay. -/
  | linkTrained (d : DieId) (dt : Nat) (delay : Nat)
  /-- MR_LINK_DOWN (R532): A lane loses block lock or no valid record arrives for 256 ns, so the link is down and retrains. -/
  | mrLinkDown (d : DieId) (dt : Nat)
  /-- RENEW (R541): A RENEW item is received; the standby sets its view and acknowledges. -/
  | renew (d : DieId) (dt : Nat) (ok : Bool)
  /-- ACK (R541): An ACK item moves the holder's expiry. -/
  | ack (d : DieId) (dt : Nat) (ok : Bool)
  /-- HANDOVER_ITEM (R543): A HANDOVER item tells the standby to take the pail at line H. -/
  | handoverItem (d : DieId) (dt : Nat) (ok : Bool)
  /-- HEARTBEAT (R537): A HEARTBEAT item shows the whey line is up. -/
  | heartbeat (d : DieId) (dt : Nat) (ok : Bool)
  /-- HEARTBEAT_SEND (R537): Each die sends a heartbeat on the whey line every 10 µs. -/
  | heartbeatSend (d : DieId)
  /-- WHEY_LOST (R537): 3 consecutive heartbeats are missing and the whey line is lost. -/
  | wheyLost (d : DieId)
  /-- LEASE_EXPIRY (R541): The holder reaches its expiry without a handover and becomes EXPIRED. -/
  | leaseExpiry (d : DieId) (p : Fin 8)
  /-- PAIL_TAKE (R541): A standby without a later RENEW by view + GUARD takes the pail and resends its kept units. -/
  | pailTake (d : DieId) (p : Fin 8)
  /-- HANDOVER (R543): A write of MR_CTRL.HANDOVER to the holder starts a handover. -/
  | handover (d : DieId) (wr : Writer) (p : Fin 8)
  /-- HANDOVER_LINE (R543): At line H, the old holder stops and the standby that received the item becomes HOLDER. -/
  | handoverLine (d : DieId) (p : Fin 8)
  /-- SEIZE (R544): A write of MR_CTRL.SEIZE makes the die HOLDER without acknowledgement. -/
  | seize (d : DieId) (wr : Writer) (p : Fin 8)
  /-- RESYNC_START (R553): A die that runs the plan with the link up and no role becomes RESYNCING and starts rejoining at picture G. -/
  | resyncStart (d : DieId) (p : Fin 8)
  /-- BOOT_ROM (R563): After a reset, the boot ROM loads fuses, verifies firmware and releases die 1, or enters recovery. -/
  | bootRom (d : DieId) (dt : Nat) (size : Option Nat) (die1Ok : Bool)
  /-- BIST_DONE (R581): Start-up BIST ends, with failed items repaired or made unavailable. -/
  | bistDone (d : DieId) (dt : Nat) (fails later : List BistFail) (refclk : List Nat)
  /-- DRAM_TRAINED (R632): DRAM training and lane enumeration complete during bring-up. -/
  | dramTrained (d : DieId) (dt : Nat) (failed : List Nat)
  /-- KEY_ADD (R568): A KEY_ADD token programs an owner slot. -/
  | keyAdd 
  /-- KEY_REVOKE (R568): A KEY_REVOKE token burns REVOKED of an owner slot. -/
  | keyRevoke 
  /-- MAC_INSTALL (R570): A MAC_INSTALL token unwraps and programs the next Silcel key generation. -/
  | macInstall 
  /-- MAC_REVOKE (R568): A MAC_REVOKE token burns REVOKED of the current Silcel key generation. -/
  | macRevoke 
  /-- TEST (R572): A TEST token grants test authorisation for its scope and lifetime. -/
  | test 
  /-- HB_CLEAR (R573): An HB_CLEAR token allows one herdbook clear within 10 s. -/
  | hbClear 
  /-- BURN_DONE (R560): A fuse burn ends, completed or stopped by a supply warning. -/
  | burnDone (d : DieId) (bad : Option Nat)
  /-- QUOTE (R575): SC_CTRL.QUOTE freezes the quote values and starts signing. -/
  | quote (d : DieId) (wr : Writer)
  /-- QUOTE_DONE (R575): The quote is signed and QUOTE_READY is set. -/
  | quoteDone (d : DieId) (dt : Nat)
  /-- COMMIT_FW (R567): SC_CTRL.COMMIT_FW burns the firmware counter up to the running ROLLBACK. -/
  | commitFw (d : DieId) (wr : Writer)
  /-- COMMIT_PLAN (R567): SC_CTRL.COMMIT_PLAN burns the plan counter up to the running ROLLBACK. -/
  | commitPlan (d : DieId) (wr : Writer)
  /-- TEST_END (R572): SC_CTRL.TEST_END ends test authorisation, and every perturbation stops. -/
  | testEnd (d : DieId) (wr : Writer)
  /-- TEST_EXPIRY (R572): Test authorisation reaches LIFETIME seconds and ends. -/
  | testExpiry 
  /-- HB_CLEAR_EXPIRY (R573): 10 s pass after an accepted HB_CLEAR token without a clear, and the grant lapses. -/
  | hbClearExpiry 
  /-- SWAP (R566): SC_CTRL.SWAP starts verification of the other firmware slot. -/
  | swap (d : DieId) (wr : Writer)
  /-- SWAP_DONE (R566): The swap verification ends and the slot is marked preferred, or refused. -/
  | swapDone (dt : Nat)
  /-- FUSE_REPAIR (R588): ST_CTRL.FUSE_REPAIR starts burning the soft repairs as fuse repairs. -/
  | fuseRepair (d : DieId) (wr : Writer)
  /-- ONLINE_SLICE_START (R590): An online BIST slice starts on an idle item when its block's energy allows. -/
  | onlineSliceStart (d : DieId) (dt : Nat) (item : Item) (room : Bool)
  /-- ONLINE_SLICE_DONE (R592): An online BIST slice ends, passing or recording a failure. -/
  | onlineSliceDone (d : DieId) (dt : Nat) (item : Item) (fail : Option BistFail)
  /-- PERT_ARM (R593): A write of a perturbation unit's ARM arms it under an active authorisation. -/
  | pertArm (d : DieId) (wr : Writer) (u : Fin 16) (value : W32)
  /-- PERT_START (R595): A perturbation unit reaches its start position and its effect begins. -/
  | pertStart (d : DieId) (u : Fin 16)
  /-- PERT_END (R595): A perturbation unit's DURATION ends and its effect stops. -/
  | pertEnd (d : DieId) (u : Fin 16)
  /-- HB_RECORD_PROGRAMMED (R600): A pending herdbook record is programmed into flash or its slot fails its program check. -/
  | hbRecordProgrammed (dt : Nat) (ok : Bool)
  /-- HB_SNAP (R602): HB_CTRL.SNAP copies 64 records from HB_SNAP_SEQ into the window. -/
  | hbSnap (wr : Writer)
  /-- CLEAR (R603): HB_CTRL.CLEAR writes a CLEARED record and erases every older sector. -/
  | clear (wr : Writer)
  /-- LIFE_FUSE (R599): Each 1,024 operating hours, die 0 burns a life fuse and writes AGE records. -/
  | lifeFuse 
  /-- SUPPLY_WARN (R614): VIN falls below the warning level, and the herdbook is committed and the brownout alternative is scheduled. -/
  | supplyWarn (d : DieId) (dt : Nat)
  /-- SUPPLY_OK (R615): VIN stays above the warning level plus 40 mV for 1 µs, and recovery is declared. -/
  | supplyOk (d : DieId) (dt : Nat)
  /-- OV_WARN (R617): VIN rises above the over-voltage warning level. -/
  | ovWarn (d : DieId) (dt : Nat)
  /-- OV_OK (R617): The over-voltage warning clears. -/
  | ovOk (d : DieId) (dt : Nat)
  /-- OVERVOLT_SHUTDOWN (R619): VIN reaches 6.00 V and every regulator switches off at once. -/
  | overvoltShutdown (dt : Nat)
  /-- BROWN_OUT (R618): VIN falls through the reset level, the domains are cut, the herdbook commit completes and a brown-out reset follows. -/
  | brownOut (dt kept : Nat)
  /-- POWER_ON (R621): VIN rises from below 1.80 V and the package starts a power-on reset. -/
  | powerOn (dt : Nat)
  /-- PIN_RESET (R621): RST_N is held low for at least 1 µs and the package resets. -/
  | pinReset (dt : Nat)
  /-- RESET_RELEASE (R621): RST_N high and VIN above 2.70 V for 10 ms end a package reset. -/
  | resetRelease (dt : Nat)
  /-- REG_LIMIT (R610): A regulator first reaches its current limit. -/
  | regLimit (d : DieId) (dt : Nat) (domain : Fin 6) (on : Bool)
  /-- REGULATOR_RESET (R610): A regulator's current limit has held for 10 ms, and the die resets with kind DIE. -/
  | regulatorReset (d : DieId)
  /-- VIN_SAMPLE (R613): The supervisor samples VIN every 10 µs. -/
  | vinSample (d : DieId) (dt : Nat) (mv : Int) (energy : List Nat)
  /-- WARN_CFG_WRITE (R620): A write of PW_WARN_CFG compares VIN with the new level at once. -/
  | warnCfgWrite (d : DieId) (wr : Writer) (value : W32)
  /-- WATCHDOG_KICK (R623): PW_CTRL.KICK restarts the watchdog. -/
  | watchdogKick (d : DieId) (wr : Writer)
  /-- WATCHDOG_EXPIRY (R623): The watchdog expires; the herdbook is committed, outputs hold and the die resets. -/
  | watchdogExpiry (d : DieId)
  /-- DIE_RESTART (R624): A reset die finishes its bring-up, receives its plan sections again and restarts its fragments. -/
  | dieRestart (d : DieId) (dt : Nat)
  /-- PW_SNAP (R634): PW_CTRL.SNAP latches the energy counters and restarts PW_VIN_MIN. -/
  | pwSnap (d : DieId) (wr : Writer)
  /-- STATE_IDLE (R630): PW_CTRL.STATE = 1 returns the package from Standby to Idle. -/
  | stateIdle (d : DieId) (wr : Writer)
  /-- STATE_STANDBY (R629): PW_CTRL.STATE = 2 moves the package from Idle to Standby. -/
  | stateStandby (d : DieId) (wr : Writer)
  /-- STATE_DRY (R629): PW_CTRL.STATE = 3 moves the package to Dry. -/
  | stateDry (d : DieId) (wr : Writer)
  /-- WAKE (R630): WAKE_N held low for 1 ms returns Standby or Dry to Idle. -/
  | wake (dt : Nat)
  /-- STATE_CHANGE_DONE (R628): A change of low-power state completes. -/
  | stateChangeDone (dt : Nat)
  /-- KEY_CHANGE (R639): A key's state has held for KEY_DB scans, and a key-down or key-up event is queued. -/
  | keyChange 
  /-- ENCODER_EVENT (R643): Steps counted on an encoder in a 1 ms scan are queued as one event. -/
  | encoderEvent 
  /-- TOUCH_CHANGE (R639): A touch pad's count passes its threshold for 3 samples, and touch on or off is queued. -/
  | touchChange 
  /-- TOUCH_STUCK (R642): A pad on for longer than 60 s is reported STUCK and off. -/
  | touchStuck 
  /-- MODULE_CHANGE (R639): A module-present level holds for MOD_DB ms, and module in or out is queued. -/
  | moduleChange 
  /-- EVQ_POP (R644): A read of PN_EVQ1 removes the head event of the panel queue. -/
  | evqPop 
  /-- DUTY_APPLY (R645): A written tally duty takes effect at the start of the next PWM period. -/
  | dutyApply (dt : Nat) (n : Fin 32)
  /-- TJ_SAMPLE (R661): A logic or supervisor sensor is sampled; TJ_HIGH, TJ_OK and sensor faults are judged. -/
  | tjSample (d : DieId) (dt : Nat) (sensor : Fin 9) (temp : BitVec 16)
  /-- THERMAL_SHUTDOWN (R662): 3 consecutive samples above 115 °C make the die drop its pail lands, commit and switch off. -/
  | thermalShutdown (d : DieId) (sent : Bool)
  /-- THERMAL_RESTART (R662): The supervisor sensor has read below 95 °C for 10 s, and the die restarts as a die reset. -/
  | thermalRestart (d : DieId)
  /-- AGE_TICK (R664): Each second of operation adds its acceleration factor to SY_AGE. -/
  | ageTick (d : DieId) (dt : Nat)
  /-- SAMPLE_PERIOD (R445): A sample period of a serial audio port passes: the selected receive slots are written to staging, the transmit slots are driven, and a tracking converter measures its ratio. -/
  | samplePeriod (d : DieId) (p : Fin 16) (dt : Nat) (ok : Bool) (ratio : W32) (rx : List W32)
  /-- PANEL_SCAN (R639): The 1 ms panel scan samples keys, touch pads and module levels: it counts ghost candidates, tracks touch baselines and discards bad touch samples even when no filtered change completes. -/
  | panelScan (dt : Nat) (keys : BitVec 64) (touch : List Int) (mods : BitVec 8)
  /-- ENCODER_SAMPLE (R641): Both encoder phases are sampled every 10 µs; an invalid sample is discarded and counted in PN_ENC_ERR, and a valid phase change counts towards a step. -/
  | encoderSample (dt : Nat) (e : Fin 4) (a b : Bool)
  /-- SECTOR_ERASED (R603): The erase of a herdbook flash sector ends; HB_OLDEST moves on, and at the end of a clear CLEARING is released. -/
  | sectorErased (dt : Nat)
  /-- TOKEN (R569): A write of SC_CTRL.TOKEN checks the token in the buffer, sets SC_TOKEN_RESULT, and draws a new nonce whether the token is accepted or refused. -/
  | token (d : DieId) (wr : Writer)
  /-- DATAGRAM_REFUSED (R428): A received Silcel datagram with a wrong length or header, an opcode not listed, or a RESET of kind 1 to 3 is discarded or refused. -/
  | datagramRefused (r : DieId) (dt : Nat) (src : Src) (m : Msg)
  /-- PACKET_POSITION (R400): A send-flow packet or TS datagram reaches its station position: a paced ST 2110-21 packet, an audio packet time or a planned TS datagram, and it is built and queued. -/
  | packetPosition (d : DieId) (f : Fin 1024)
  /-- NATIVE_TX_FRAME (R326): A native-mode transmitter reaches its next frame slot and sends a data frame, or a filler frame when its buffer holds less than one frame, counting LN_FILL_INS. -/
  | nativeTxFrame (d : DieId) (k : Fin 512) (dt : Nat)
  /-- STREAM_SLOT (R535): A non-rotation slot of the milk-run link delivers cross-die stream data into the receiving die's staging. -/
  | streamSlot (d : DieId) (dt : Nat) (line : Int) (ok : Bool) (samples : PicLine)
  /-- PLL_LOCK (R348): A lane-block PLL gains lock on its REFCLK, and its A_LOCK or B_LOCK bit is set. -/
  | pllLock (d : DieId) (b : Fin 32) (pllB : Bool) (dt : Nat)
  /-- POWER_OVER (R109): A block's energy over 1 s exceeds its declared draw by more than 5 %, and the device counts, records and posts a POWER_OVER breach. -/
  | powerOver (d : DieId) (dt : Nat) (block : Fin 6) (mw : Nat)
  deriving DecidableEq, Repr

end Sys2Proof
end

