-- ==== Sys2Proof/Decode.lean ====
section
/-! DEFINITION. Commands from words. The spec's command table gives no row any bits (98_reader.md: no row has a fixed part or a
field), so no word spells a command (log entry 58). -/

namespace Sys2Proof

/-- The command that a word of `nbits` bits spells by the table's bits: none, as no row of the table has any. -/
def decodeTableWord (_nbits _w : Nat) : Option Instr := none

end Sys2Proof
end

