-- ==== Sys2Proof/Machine/Codec.lean ====
section
/-! DEFINITION. What a coded picture is made of (R186 to R223): vectors, coding units, coded rows and the contents of NAL units, as
plain data. The bytes that a codec's syntax gives to these contents lie outside spec/ (log entry 34). -/

namespace Sys2Proof.Machine

/-- A plane of samples, line by line. -/
abbrev Plane := List (List Nat)

/-- A vector, in sixteenths of a luma sample. -/
structure Mv where
  x : Int
  y : Int
  deriving DecidableEq, Repr

/-- A prediction from one reference: the vector and the index of the reference, 0 the most recent. -/
structure Motion where
  mv : Mv
  ref : Nat
  deriving DecidableEq, Repr

/-- A rectangle of luma samples of a picture. -/
structure Rect where
  x : Nat
  y : Nat
  w : Nat
  h : Nat
  deriving DecidableEq, Repr

/-- The tools that R189 and R190 list by name. -/
inductive Tool
  | asymmetricParts | transformSkip | strongIntraSmoothing | merge | amvp | temporalMv | signHiding | scalingLists | deblocking | sao
  | weightedPrediction | longTerm | pcm | transquantBypass | tiles | wavefront | rangeExtensions
  | mtt | dualTree | multiRefLine | cclm | isp | mip | mmvd | amvr | smvd | affine | sbTmvp | gpm | ciip | bcw | bdof | dmvr | prof
  | explicitMts | lfnst | dependentQuant | lmcs | alf | ccAlf | subpictures | refResampling
  deriving DecidableEq, Repr

/-- How a coding unit is predicted, in the order that ties follow (R211). -/
inductive CuKind
  | skip | merge | inter | intra
  deriving DecidableEq, Repr

/-- One way to code a coding unit. -/
structure CuCand where
  kind : CuKind
  /-- mode number or merge index -/
  index : Nat
  /-- one of the three most probable intra modes -/
  probable : Bool
  /-- the tools that it uses -/
  uses : List Tool
  /-- SATD, and whether it was measured on the 8-bit plane -/
  satd : Nat
  satd8 : Bool
  /-- sum of squared errors on the joined planes -/
  sse : Nat
  /-- bins estimated from the fixed tables -/
  rate : Nat
  /-- context-coded bins and bypass bins -/
  ctxBins : Nat
  bypassBins : Nat
  /-- vectors and references; none for intra -/
  motion : List Motion
  /-- the reconstruction before the loop filters: luma, Cb, Cr -/
  recon : List Plane
  /-- its syntax elements -/
  syntax_ : List Nat
  deriving DecidableEq, Repr

/-- A coding unit as decided. -/
structure Cu where
  rect : Rect
  cand : CuCand
  deriving DecidableEq, Repr

/-- A coded CTU: its coding units, or the fill coding of R216. -/
structure Ctu where
  rect : Rect
  fill : Bool
  /-- bins of its split flags -/
  splits : Nat
  cus : List Cu
  deriving DecidableEq, Repr

/-- What is known of a coding unit when its candidate codings are formed: the input and the channel's state (R211). -/
structure CuQuery where
  vvc : Bool
  /-- PRESET 0, the one with the greater effort -/
  broadcast : Bool
  depth : Nat
  chroma : Nat
  qp : Nat
  intra : Bool
  rect : Rect
  /-- the input samples of the unit: luma, Cb, Cr -/
  source : List Plane
  /-- the vectors that search found for its CTU, best first -/
  found : List Motion
  /-- reference pictures, most recent first, and the motion field of the first -/
  refs : List (List Plane)
  col : List (List Motion)
  /-- units of the same slice that are coded before it -/
  before : List Cu
  deriving DecidableEq, Repr

/-- A slice header's contents. -/
structure SliceHead where
  vvc : Bool
  /-- 0 neither IDR, CRA nor GDR, 1 IDR_N_LP, 2 CRA, 3 GDR -/
  nal : Nat
  poc : Nat
  intra : Bool
  qp : Nat
  /-- raster address of the first CTU, and CTUs -/
  ctu : Nat
  ctus : Nat
  /-- order counts of the references, most recent first -/
  refs : List Nat
  /-- SAO, and ALF in VVC, are on in the slice -/
  sao : Bool
  alf : Bool
  deriving DecidableEq, Repr

/-- What the parameter sets declare (R189 to R191, R195, R199, R200, R221, R230, R231). -/
structure ParamSets where
  vvc : Bool
  profile : Nat
  level : Nat
  tier : Bool
  chroma : Nat
  depth : Nat
  width : Nat
  height : Nat
  ctu : Nat
  refs : Nat
  /-- each tool with whether it is signalled on -/
  tools : List (Tool × Bool)
  /-- loop filters reach across slices and tiles -/
  across : Bool
  /-- widths of the tile columns in CTUs -/
  tileCols : List Nat
  fieldSeq : Bool
  /-- colour primaries, transfer, matrix, full range -/
  colour : Nat × Nat × Nat × Bool
  /-- HRD at access-unit level: cbr_flag, rate in kb/s, size of the coded picture buffer in bits -/
  hrd : Option (Bool × Nat × Nat)
  deriving DecidableEq, Repr

/-- The prefix SEI messages. -/
inductive Sei
  /-- initial removal delay, 90 kHz units -/
  | bufferingPeriod (delay : Nat)
  /-- pictures since the buffering period began; the field's parity: 0 a frame, 1 the first field, 2 the second -/
  | pictureTiming (since parity : Nat)
  /-- pictures until the sweep is complete -/
  | recoveryPoint (pictures : Nat)
  | masteringDisplay (words : List W32)
  | contentLight (word : W32)
  | timeCode (word : W32)
  deriving DecidableEq, Repr

/-- The contents of a NAL unit other than a slice. -/
inductive Nal
  | accessUnitDelimiter (vvc intra : Bool)
  | parameterSets (p : ParamSets)
  | prefixSei (vvc : Bool) (l : List Sei)
  /-- the ALF APS of a picture, by its order count and costs -/
  | alfAps (poc : Nat) (costs : List Nat)
  deriving DecidableEq, Repr

/-- What the codec's decoding process makes of an access unit: the planes luma, Cb, Cr, and the motion of each 16 x 16 block in raster
order. -/
structure DecodedPic where
  planes : List Plane
  motion : List (List Motion)
  deriving DecidableEq, Repr, Inhabited

/-- An SCTE 35 section's contents (R224, R225): PTS of the splice, none where it is immediate. -/
inductive SpliceCmd
  | insert (out immediate : Bool) (pts : Option Nat)
  | cancel
  | null
  | timeSignal (immediate : Bool) (pts : Option Nat)
  deriving DecidableEq, Repr

end Sys2Proof.Machine
end

