-- ==== Sys2Proof/Config.lean ====
section
/-! DEFINITION. What the spec leaves open, as constants with no body: no proof can see a value of theirs, and whatever is
proved of the model holds for every choice of them. Each names the rule that leaves it open and its log entry. -/

namespace Sys2Proof.Config

/-- Free values: the n-th value that the model draws where the spec gives no value (log entry 11). -/
opaque freeNat : Nat → Nat

/-- What a byte of an image transfer holds that no IMAGE_DATA has written, by its offset (R433, log entry 54). -/
opaque imageByte : Nat → Byte

/-! ### The entropy coder (R165): the arithmetic-coding clauses of HEVC and VVC are outside spec/ (log entry 6) -/

/-- Coding one context-coded bin: mode, coder state, context, bin; the new coder state, the new context, the bits it puts out. -/
opaque codeContextBin : Bool → Nat → W32 → Bool → Nat × W32 × List Bool
/-- Coding one bypass bin: mode, coder state, bin; the new coder state and the bits it puts out. -/
opaque codeBypassBin : Bool → Nat → Bool → Nat × List Bool
/-- Coding the terminating bin: mode, coder state, bin; the new coder state and the bits it puts out. -/
opaque codeTerminate : Bool → Nat → Bool → Nat × List Bool
/-- The encoder flush: mode, coder state; the new coder state and the bits it puts out. -/
opaque coderFlush : Bool → Nat → Nat × List Bool
/-- The coder state that CSTART sets in a mode. -/
opaque coderStart : Bool → Nat
/-- The context that CINIT forms: mode, init value, slice QP. -/
opaque contextInit : Bool → Byte → Byte → W32

/-! ### Core cycles that R185 does not list (log entry 14) -/

/-- Core cycles of an instruction that R185 lists no time for, by its CTL opcode. -/
opaque coreCycles : Nat → Nat
/-- Core cycles of a division, at most 34 (R185), by its operands. -/
opaque divCycles : Nat → Nat → Nat
/-- Core cycles that the write-back of so many dirty lines takes (R185). -/
opaque writeBackCycles : Nat → Nat

/-! ### Entry queues of send flows (R496, R499): no rule of spec/ gives their room or their marks (log entry 16) -/

/-- Bytes that the entry queue of a send flow of a die has room for. -/
opaque entryRoom : Nat → Nat → Nat
/-- The high mark of the entry queue of a send flow of a die. -/
opaque entryHigh : Nat → Nat → Nat
/-- The low mark of the entry queue of a send flow of a die. -/
opaque entryLow : Nat → Nat → Nat

/-! ### Audio (R449, R450, R455): the rounding inside a ramp and the converters' filter are not stated (log entry 30) -/

/-- A 24-bit sample at step 1 to 63 of a 64-sample linear ramp (R449, R455). -/
opaque audioRamp : Nat → Nat → Nat
/-- A converter's filter takes the words of one input sample: its state, ratio, words; its new state (R450). -/
opaque convertStep : Nat → Nat → List W32 → Nat
/-- The member, as 16 x group + member, that one of the converters 16 to 31 serves; no record of R84 binds them (R450). -/
opaque converterMember : Nat → Nat
/-- The ratio of such a converter, measured of a native stream or a network flow at a station time, which no message carries (R450). -/
opaque memberRatio : Nat → Nat → W32
/-- An output sample of a converter: its state, ratio, output grid position, channel; 24 bits (R450). -/
opaque convertOut : Nat → Nat → Int → Nat → Nat

/-! ### Encoding (R186 to R246): the syntax, the filters and the fixed tables of the codecs are outside spec/ (log entry 34) -/

open Machine in
/-- The codec's luma interpolation filter on the 8-bit plane (R209): VVC, the phases across and down in sixteenths, the 8 x 8 samples
around the position. -/
opaque lumaFilter : Bool → Nat → Nat → List Nat → Nat
open Machine in
/-- The bits of a vector, estimated from the fixed tables (R208, R210): VVC, vector. -/
opaque vectorBits : Bool → Mv → Nat
open Machine in
/-- The codings of a unit that the codec's syntax offers, with what each costs and gives (R189, R190, R210). -/
opaque cuCands : CuQuery → List CuCand
/-- The bins of a split: VVC, split, width and height. -/
opaque splitBins : Bool → Nat → Nat → Nat → Nat
/-- The nine angular modes that REDUCED tries (R212): VVC. -/
opaque nineAngular : Bool → List Nat
open Machine in
/-- The loop filters within a slice (R189, R190, R200): its header, its CTUs, its reconstruction. -/
opaque loopFilter : SliceHead → List Ctu → List Plane → List Plane
open Machine in
/-- The bits that a CTU adds to its slice, with emulation prevention: header, the CTUs before it in the slice, the CTU. -/
opaque codeCtu : SliceHead → List Ctu → Ctu → List Bool
open Machine in
/-- The NAL unit header and the slice header. -/
opaque sliceHead : SliceHead → List Byte
open Machine in
/-- The NAL units, without start codes, of the contents of one. -/
opaque nalBytes : Nal → List (List Byte)
/-- The model size of a row at a QP from its cost, none where no row has been searched yet (R239): VVC, QP, cost. -/
opaque modelSize : Bool → Nat → Option Nat → Nat
/-- The QP that stands for the previous picture's row 0 before a channel's first picture (R239): channel. -/
opaque firstQp : Nat → Nat
/-- ZROW of a row shape (R235): EN_CFG, EN_SIZE, row, intra. -/
opaque zrow : List Nat → Nat
/-- The largest prefix of a channel's pictures, in bits (R235): EN_CFG, EN_SIZE, intra. -/
opaque prefixMax : List Nat → Nat
open Machine in
/-- The splice_info_section of a command (R224): the command, the SCTE 104 message it translates. -/
opaque spliceSection : SpliceCmd → List Byte → List Byte

/-! ### Decoding (R271 to R277, R365): the syntax and the reconstruction of the codecs are outside spec/ (log entry 42) -/

/-- What the NAL units of an access unit say that decoding turns on, with the number of NAL units that are missing: VVC, NAL
units, missing. -/
opaque parseUnit : Bool → List (List Byte) → Nat → AccessUnit
open Machine in
/-- What an access unit decodes to: parameter sets, the unit, and the planes that its reference entries stand for, of which none is
the mid-grey picture's. -/
opaque decodePicture : SeqParams → AccessUnit → List (List Plane) → DecodedPic
open Machine in
/-- The CTUs whose slice is missing, whose data is in error, or that a number of bins does not reach (R276): parameter sets, unit,
bins. -/
opaque lostCtus : SeqParams → AccessUnit → Nat → List Rect

/-- The colorimetry and the transfer that the format parameters of an ST 2110-20 or -22 flow state, by its record; none where they state
none (R222, log entry 39). -/
opaque flowColour : List Byte → Option (Nat × Nat)

/-! ### Composition (R285, R300; log entry 43) -/

/-- A picture line of a multi-link input from its members' lines (SMPTE ST 425-5, ST 2082-10): line, members' lines. -/
opaque joinLinks : Nat → List PicLine → PicLine
/-- The source rows that a layer reads per channel line fit the DRAM slots that the plan reserves for it: die, channel, layer,
pending values. -/
opaque layerSlotsFit : List Nat → Bool

/-! ### The cross-die stream (R22, R535): the plan declares it, but no record has its fields (log entry 47) -/

/-- 0 its cadence, 1 the staging input of the receiving die, 2 width, 3 height, 4 sampling, 5 depth, 6 the encode channel whose picture
the sending die puts into it. -/
opaque xstream : Nat → Nat

/-! ### The milk-run link (R533): no rule lays out the bodies of CONTROL and PLAN records (log entry 47) -/

/-- The body of a CONTROL or PLAN record: its order. -/
opaque linkBody : Nat → Nat

/-! ### Fields of packets that no rule gives (R356, R368; log entry 45) -/

/-- The Identification field of an IPv4 packet of a send flow: flow, packets built. -/
opaque ipId : Nat → Nat → Nat
/-- The flow label of an IPv6 packet of a send flow. -/
opaque flowLabel : Nat → Nat
/-- The UDP source port and other free octets of frames of control threads: their order. -/
opaque ctrlId : Nat → Nat
/-- The video PID of a received TS flow (R371). -/
opaque videoPid : Nat → Nat
/-- The transport_stream_id of a TS flow. -/
opaque tsId : Nat → Nat

/-! ### Cryptography (R80, R430, R568 to R575): FIPS 202, 203 and 205 and SP 800-185 are outside spec/ (log entry 49) -/

/-- The owner's signature over a message verifies: context string, public key, message, signature. -/
opaque slhVerify : List Byte → List Byte → List Byte → List Byte → Bool
/-- The Dalzon root key held in ROM (R563). -/
opaque rootKey : List Byte
/-- SHAKE256, 32 bytes. -/
opaque shake256 : List Byte → List Byte
/-- KMAC256: key, message, output bits, customisation string. -/
opaque kmac256 : List Byte → List Byte → Nat → List Byte → List Byte
/-- The shared secret that decapsulating a ciphertext gives: unique secret, ciphertext (R570). -/
opaque kemDecaps : Nat → List Byte → List Byte
/-- Word i of the encapsulation key that a unique secret gives (R570). -/
opaque kemKey : Nat → Nat → W32
/-- Word i of the identity public key that a unique secret gives (R574). -/
opaque idKey : Nat → Nat → W32
/-- The 128 bytes that an identity certificate certifies, of which no rule gives the order: MAGIC, serial, DIE_ID, CODE, identity public
key, digest of SC_KEM on die 0 (R574). -/
opaque certBody : Nat → Nat → Nat → Nat → List Byte → List Byte → List Byte
/-- Dalzon's signature under its manufacturing key: context string, message (R574). -/
opaque dalzonSign : List Byte → List Byte → List Byte
/-- The signature of a quote: context string, unique secret, what the signer draws, the signed bytes (R575). -/
opaque quoteSign : List Byte → Nat → Nat → List Byte → List Byte
/-- The version of the boot ROM (R575). -/
opaque romVersion : Nat

/-- 2^(r/160) in units of 2^-32, for r from 1 to 159: the rounding of AF is not stated (R664, log entry 51). -/
opaque ageFactor : Nat → Nat

/-! ### The DMA-programs section (R489): the spec gives neither the counts of its records nor the place of the program words
(log entry 53) -/

/-- The channel records and the stream-queue records that a section holds. -/
opaque dmaCounts : List Byte → Nat × Nat
/-- The program words that a section gives, each with its place in the program store. -/
opaque dmaWords : List Byte → List (Nat × Nat)

/-! ### What admission judges by figures that spec/ does not give (log entry 53) -/

/-- The limits of a level of a codec standard: VVC, level, tier, profile: largest luma picture size, luma sample rate and bit rate
in kb/s; none where the standard has no such level and tier (R187). -/
opaque levelLimit : Bool → Nat → Nat → Nat → Option (Nat × Nat × Nat)
/-- The bin-count conformance bound of a picture of a level: VVC, level, tier, profile (R273). -/
opaque levelBins : Bool → Nat → Nat → Nat → Nat
/-- The latest departure of a packet of an ST 2110-20 flow after its position that the models of ST 2110-21 leave a sender type: SENDER,
packets of a frame, frame in ps; in ps (R400). -/
opaque senderSlack : Nat → Nat → Nat → Nat
/-- The source timing that the compiler gave a scaled staging layer is 3 lines early (R298): sections, channel, layer. -/
opaque scaledEarly : List (List Byte) → Nat → Nat → Bool
/-- The recompute of a flattened run fits the churn slack within FLAT_FRAMES (R306): sections, channel. -/
opaque flattenFits : List (List Byte) → Nat → Bool
/-- A range of DRAM lies within a die's claims (R493), of which the plan gives only the size: the sections of the plan, first byte and
byte after the range. -/
opaque dramClaimed : List (List Byte) → Nat → Nat → Bool

end Sys2Proof.Config
end

