-- ==== Sys2Proof/Machine/Store.lean ====
section
/-! DEFINITION. Sparse data held as a list of (key, value) pairs in one canonical form: keys strictly rising, and no entry
equal to what an unlisted key reads as. Equal stores are equal lists. Every memory and table of the model that is too large
to list whole (DRAM, scratch, the register space, flow tables) is kept this way. -/

namespace Sys2Proof.Machine

/-- A sparse map from natural numbers. -/
abbrev Map (α : Type) := List (Nat × α)

variable {α : Type}

/-- Reads key `k`; `d` gives what an unlisted key reads as. -/
def mget (d : Nat → α) : Map α → Nat → α
  | [], k => d k
  | (k', v) :: m, k => if k = k' then v else mget d m k

/-- Puts an entry in front of the first one with a greater key. -/
def minsert (k : Nat) (v : α) : Map α → Map α
  | [] => [(k, v)]
  | e :: m => if k < e.1 then (k, v) :: e :: m else e :: minsert k v m

/-- Writes key `k`, keeping the canonical form. -/
def mput [DecidableEq α] (d : Nat → α) (m : Map α) (k : Nat) (v : α) : Map α :=
  let rest := m.filter fun e => e.1 != k
  if v = d k then rest else minsert k v rest

/-- Every key of the map lies above `b`. -/
def mabove (b : Nat) (m : Map α) : Bool := m.all fun e => decide (b < e.1)

/-- The canonical form. -/
def mwf [DecidableEq α] (d : Nat → α) : Map α → Bool
  | [] => true
  | (k, v) :: m => decide (v ≠ d k) && mabove k m && mwf d m

/-- Reads a map whose unlisted keys read as `none`. -/
def oget (m : Map (Option α)) (k : Nat) : Option α := mget (fun _ => none) m k

/-- A key's value rewritten by `f`. -/
def mmod [DecidableEq α] (d : Nat → α) (m : Map α) (k : Nat) (f : α → α) : Map α := mput d m k (f (mget d m k))

/-! ### Bytes -/

/-- Memory of bytes. An unlisted byte reads 0 (log entry 4, DESIGN CHOICE). -/
abbrev Mem := Map Byte

/-- What a byte of memory that nothing has written reads as. -/
def memDefault (_ : Nat) : Byte := 0

/-- Reads one byte of a memory. -/
def rdByte (m : Mem) (a : Nat) : Byte := mget memDefault m a

/-- Writes one byte of a memory. -/
def wrByte (m : Mem) (a : Nat) (b : Byte) : Mem := mput memDefault m a b

/-- Reads `n` bytes from address `a` on. -/
def rdBytes (m : Mem) (a : Nat) : Nat → List Byte
  | 0 => []
  | n + 1 => rdByte m a :: rdBytes m (a + 1) n

/-- Writes a list of bytes from address `a` on. -/
def wrBytes (m : Mem) (a : Nat) : List Byte → Mem
  | [] => m
  | b :: bs => wrBytes (wrByte m a b) (a + 1) bs

/-- The bytes of a transfer buffer; a byte that nothing has written is none. -/
abbrev Buf := Map (Option Byte)

/-- Writes a list of bytes into a buffer from offset `a` on. -/
def bufWrite (m : Buf) (a : Nat) : List Byte → Buf
  | [] => m
  | b :: bs => bufWrite (mput (fun _ => none) m a (some b)) (a + 1) bs

/-- The number that bytes spell, least significant first. -/
def leNat : List Byte → Nat
  | [] => 0
  | b :: bs => b.toNat + 256 * leNat bs

/-- The number that bytes spell, most significant first. -/
def beNat (bs : List Byte) : Nat := leNat bs.reverse

/-- `n` bytes of a number, least significant first. -/
def natLE (n v : Nat) : List Byte := (List.range n).map fun i => BitVec.ofNat 8 (v / 256 ^ i)

/-- `n` bytes of a number, most significant first. -/
def natBE (n v : Nat) : List Byte := (natLE n v).reverse

/-- The bits `hi` to `lo` of a number. -/
def bits (v hi lo : Nat) : Nat := v / 2 ^ lo % 2 ^ (hi - lo + 1)

/-- Bit `i` of a number. -/
def bit (v i : Nat) : Bool := v / 2 ^ i % 2 == 1

/-- 1 for true, 0 for false. -/
def b2n (b : Bool) : Nat := if b then 1 else 0

/-- The two's-complement value of the low `w` bits of a number. -/
def sgn (w v : Nat) : Int := if v % 2 ^ w < 2 ^ (w - 1) then ((v % 2 ^ w : Nat) : Int) else ((v % 2 ^ w : Nat) : Int) - 2 ^ w

/-- The low `w` bits of an integer in two's complement. -/
def unsgn (w : Nat) (v : Int) : Nat := (v % (2 ^ w : Int)).toNat

/-- Division rounded up. -/
def cdiv (a b : Nat) : Nat := (a + b - 1) / b

end Sys2Proof.Machine
end

