-- ==== Sys2Proof/Machine/RegMap.lean ====
section
/-! DEFINITION. The register space of one die (R435), register by register as the chapters of spec/ give it: where
each register lies, which fields it has, of which type (R11) and with which reset value; and one name per field, through
which the rest of the model reads and writes it. A field whose reset the spec gives as "plan", "fused", "boot" or "bist"
stands here with value 0: what loads it (a plan switch, the boot ROM, start-up BIST) writes it (log entry 3). -/

namespace Sys2Proof.Machine

/-- The field types of R11. -/
inductive FType | ro | rw | rwL | wo | w1c
  deriving DecidableEq, Repr

/-- Where the reset value of a field comes from: the spec's number, or what the spec calls plan, fused, boot or bist. -/
inductive FReset | val (n : Nat) | plan | fused | boot | bist
  deriving DecidableEq, Repr

/-- What must claim a register's window before it may be accessed (R417, NOT_CLAIMED), and the other whole-window rules. -/
inductive Claim
  | free | en | pool | dc | fs | ln | sp | rxf | txf | gate | sq | sh | wq | pol | aup | asrc | aug | aum | dm | dsq | ck | mr | sc0 | hb | pn
  deriving DecidableEq, Repr

/-- A field of a register: its bits, its type and its reset value. -/
structure FieldDesc where
  hi : Nat
  lo : Nat
  ty : FType
  rst : FReset
  deriving DecidableEq, Repr

/-- A register, or a family of registers at `base + i * stride + j * stride2`. -/
structure RegDesc where
  base : Nat
  stride : Nat
  count : Nat
  stride2 : Nat
  count2 : Nat
  claim : Claim
  fields : List FieldDesc
  deriving DecidableEq, Repr

/-- A named field: the address of its register's first instance, the strides, and its bits. -/
structure Fld where
  base : Nat
  stride : Nat
  stride2 : Nat
  hi : Nat
  lo : Nat
  deriving DecidableEq, Repr

/-- The address of instance (i, j) of a field's register. -/
def fldAddr (f : Fld) (i j : Nat) : Nat := f.base + i * f.stride + j * f.stride2

/-- The indices at which an address meets a register family, if it does. -/
def regIndex (r : RegDesc) (a : Nat) : Option (Nat × Nat) :=
  if a < r.base then none else
  let o := a - r.base
  let i := if r.stride = 0 then 0 else o / r.stride
  let p := o - i * r.stride
  let j := if r.stride2 = 0 then 0 else p / r.stride2
  if i < r.count ∧ j < r.count2 ∧ i * r.stride + j * r.stride2 = o then some (i, j) else none

/-- Registers of block SY (00_scope.md). -/
def tblSY : List RegDesc := [
  -- SY_VARIANT (R4)
  ⟨0x4, 0x0, 1, 0x0, 1, .free, [⟨7, 0, .ro, .fused⟩, ⟨9, 8, .ro, .fused⟩, ⟨10, 10, .ro, .fused⟩, ⟨11, 11, .ro, .fused⟩, ⟨12, 12, .ro, .fused⟩, ⟨14, 13, .ro, .fused⟩, ⟨15, 15, .ro, .fused⟩, ⟨25, 16, .ro, .fused⟩, ⟨27, 26, .ro, .fused⟩]⟩,
  -- SY_FLASH_SIZE (R10)
  ⟨0x8, 0x0, 1, 0x0, 1, .free, [⟨15, 0, .ro, .boot⟩, ⟨16, 16, .ro, .boot⟩]⟩,
  -- SY_TJ_STATUS (R668)
  ⟨0x100, 0x0, 1, 0x0, 1, .free, [⟨0, 0, .ro, .val 0⟩, ⟨1, 1, .ro, .val 0⟩, ⟨2, 2, .ro, .val 0⟩, ⟨5, 3, .ro, .val 0⟩, ⟨6, 6, .ro, .val 0⟩]⟩,
  -- SY_TJ_EVENTS (R668)
  ⟨0x104, 0x0, 1, 0x0, 1, .free, [⟨0, 0, .w1c, .val 0⟩, ⟨1, 1, .w1c, .val 0⟩, ⟨2, 2, .w1c, .val 0⟩, ⟨3, 3, .w1c, .val 0⟩, ⟨4, 4, .w1c, .val 0⟩]⟩,
  -- SY_AGE (R667)
  ⟨0x108, 0x0, 1, 0x0, 1, .free, [⟨31, 0, .ro, .val 0⟩]⟩,
  -- SY_TJ_DROPS (R667)
  ⟨0x10c, 0x0, 1, 0x0, 1, .free, [⟨31, 0, .ro, .val 0⟩]⟩,
  -- SY_TJ (R667)
  ⟨0x110, 0x4, 8, 0x0, 1, .free, [⟨15, 0, .ro, .val 0⟩]⟩,
  -- SY_TJ_SUP (R667)
  ⟨0x130, 0x0, 1, 0x0, 1, .free, [⟨15, 0, .ro, .val 0⟩]⟩,
  -- SY_TJ_PEAK (R667)
  ⟨0x134, 0x0, 1, 0x0, 1, .free, [⟨15, 0, .ro, .val 0⟩]⟩
]

/-- Registers of block PW (21_power_reset.md). -/
def tblPW : List RegDesc := [
  -- PW_STATUS (R636)
  ⟨0x10000, 0x0, 1, 0x0, 1, .free, [⟨1, 0, .ro, .val 1⟩, ⟨2, 2, .ro, .val 0⟩, ⟨3, 3, .ro, .val 0⟩, ⟨4, 4, .ro, .val 0⟩]⟩,
  -- PW_EVENTS (R636)
  ⟨0x10004, 0x0, 1, 0x0, 1, .free, [⟨0, 0, .w1c, .val 0⟩, ⟨1, 1, .w1c, .val 0⟩, ⟨2, 2, .w1c, .val 0⟩, ⟨3, 3, .w1c, .val 0⟩, ⟨4, 4, .w1c, .val 0⟩, ⟨5, 5, .w1c, .val 0⟩]⟩,
  -- PW_CTRL (R636)
  ⟨0x10008, 0x0, 1, 0x0, 1, .free, [⟨1, 0, .wo, .val 0⟩, ⟨2, 2, .wo, .val 0⟩, ⟨3, 3, .wo, .val 0⟩]⟩,
  -- PW_LAST_RESET (R637)
  ⟨0x1000c, 0x0, 1, 0x0, 1, .free, [⟨2, 0, .ro, .val 0⟩, ⟨3, 3, .ro, .val 0⟩, ⟨4, 4, .ro, .val 0⟩, ⟨5, 5, .ro, .val 0⟩, ⟨8, 6, .ro, .val 0⟩]⟩,
  -- PW_EPOCH (R627)
  ⟨0x10010, 0x0, 1, 0x0, 1, .free, [⟨31, 0, .ro, .val 0⟩]⟩,
  -- PW_LOST (R631)
  ⟨0x10014, 0x0, 1, 0x0, 1, .free, [⟨13, 0, .w1c, .val 0⟩]⟩,
  -- PW_LOST_REGIONS (R635)
  ⟨0x10018, 0x0, 1, 0x0, 1, .free, [⟨15, 0, .w1c, .val 0⟩]⟩,
  -- PW_WARN_CFG (R635)
  ⟨0x1001c, 0x0, 1, 0x0, 1, .free, [⟨3, 0, .rw, .val 5⟩]⟩,
  -- PW_VIN (R635)
  ⟨0x10020, 0x0, 1, 0x0, 1, .free, [⟨15, 0, .ro, .val 0⟩]⟩,
  -- PW_VIN_MIN (R635)
  ⟨0x10024, 0x0, 1, 0x0, 1, .free, [⟨15, 0, .ro, .val 0⟩]⟩,
  -- PW_DIP (R635)
  ⟨0x10028, 0x0, 1, 0x0, 1, .free, [⟨31, 0, .ro, .val 0⟩]⟩,
  -- PW_WARNS (R635)
  ⟨0x1002c, 0x0, 1, 0x0, 1, .free, [⟨31, 0, .ro, .val 0⟩]⟩,
  -- PW_WDOG (R635)
  ⟨0x10030, 0x0, 1, 0x0, 1, .free, [⟨9, 0, .rw, .val 250⟩]⟩,
  -- PW_VIN_DROPS (R635)
  ⟨0x10034, 0x0, 1, 0x0, 1, .free, [⟨31, 0, .ro, .val 0⟩]⟩,
  -- PW_E_LO (R635)
  ⟨0x10040, 0x8, 7, 0x0, 1, .free, [⟨31, 0, .ro, .val 0⟩]⟩,
  -- PW_E_HI (R635)
  ⟨0x10044, 0x8, 7, 0x0, 1, .free, [⟨31, 0, .ro, .val 0⟩]⟩
]

/-- Registers of block TB (02_station_time.md). -/
def tblTB : List RegDesc := [
  -- TB_MODE (R70)
  ⟨0x20000, 0x0, 1, 0x0, 1, .free, [⟨2, 0, .rwL, .val 2⟩, ⟨3, 3, .rwL, .val 0⟩, ⟨4, 4, .rw, .val 0⟩, ⟨7, 5, .rwL, .val 0⟩, ⟨10, 8, .rwL, .val 0⟩, ⟨12, 11, .rwL, .val 1⟩, ⟨13, 13, .rwL, .val 0⟩, ⟨16, 14, .rwL, .val 0⟩]⟩,
  -- TB_STATUS (R71)
  ⟨0x20004, 0x0, 1, 0x0, 1, .free, [⟨2, 0, .ro, .val 0⟩, ⟨3, 3, .ro, .val 1⟩, ⟨4, 4, .ro, .val 0⟩, ⟨7, 5, .ro, .val 0⟩, ⟨8, 8, .ro, .val 0⟩, ⟨9, 9, .ro, .val 0⟩, ⟨10, 10, .ro, .val 0⟩, ⟨14, 11, .ro, .val 0⟩, ⟨17, 15, .ro, .val 0⟩]⟩,
  -- TB_EVENTS (R71)
  ⟨0x20008, 0x0, 1, 0x0, 1, .free, [⟨0, 0, .w1c, .val 0⟩, ⟨1, 1, .w1c, .val 0⟩, ⟨2, 2, .w1c, .val 0⟩, ⟨3, 3, .w1c, .val 0⟩, ⟨4, 4, .w1c, .val 0⟩, ⟨5, 5, .w1c, .val 0⟩, ⟨6, 6, .w1c, .val 0⟩, ⟨7, 7, .w1c, .val 0⟩, ⟨8, 8, .w1c, .val 0⟩, ⟨9, 9, .w1c, .val 0⟩, ⟨10, 10, .w1c, .val 0⟩]⟩,
  -- TB_CTRL (R69)
  ⟨0x2000c, 0x0, 1, 0x0, 1, .free, [⟨0, 0, .wo, .val 0⟩, ⟨1, 1, .wo, .val 0⟩]⟩,
  -- TB_THRESH (R69)
  ⟨0x20010, 0x0, 1, 0x0, 1, .free, [⟨13, 0, .rwL, .val 100⟩, ⟨20, 14, .rwL, .val 5⟩]⟩,
  -- TB_HOLD (R69)
  ⟨0x20014, 0x0, 1, 0x0, 1, .free, [⟨15, 0, .rwL, .val 60⟩, ⟨31, 16, .rwL, .val 1000⟩]⟩,
  -- TB_REF_OFFSET (R56)
  ⟨0x20018, 0x0, 1, 0x0, 1, .free, [⟨31, 0, .rwL, .val 0⟩]⟩,
  -- TB_REF_FORMAT (R69)
  ⟨0x2001c, 0x0, 1, 0x0, 1, .free, [⟨1, 0, .ro, .val 0⟩, ⟨5, 2, .ro, .val 0⟩, ⟨6, 6, .ro, .val 0⟩]⟩,
  -- TB_NOW_W (R69)
  ⟨0x20020, 0x4, 4, 0x0, 1, .free, [⟨31, 0, .ro, .val 0⟩]⟩,
  -- TB_PHASE (R69)
  ⟨0x20030, 0x0, 1, 0x0, 1, .free, [⟨31, 0, .ro, .val 0⟩]⟩,
  -- TB_FREQ (R69)
  ⟨0x20034, 0x0, 1, 0x0, 1, .free, [⟨31, 0, .ro, .val 0⟩]⟩,
  -- TB_HOLD_TIME (R69)
  ⟨0x20038, 0x0, 1, 0x0, 1, .free, [⟨31, 0, .ro, .val 0⟩]⟩,
  -- TB_REJECTS (R69)
  ⟨0x2003c, 0x0, 1, 0x0, 1, .free, [⟨31, 0, .ro, .val 0⟩]⟩,
  -- TB_STEP_LO (R69)
  ⟨0x20040, 0x0, 1, 0x0, 1, .free, [⟨31, 0, .ro, .val 0⟩]⟩,
  -- TB_STEP_HI (R69)
  ⟨0x20044, 0x0, 1, 0x0, 1, .free, [⟨31, 0, .ro, .val 0⟩]⟩,
  -- TB_CAD_CFG (R73)
  ⟨0x20100, 0x20, 8, 0x0, 1, .free, [⟨3, 0, .ro, .val 0⟩, ⟨4, 4, .ro, .val 0⟩, ⟨17, 5, .ro, .val 0⟩]⟩,
  -- TB_CAD_OFFSET (R73)
  ⟨0x20104, 0x20, 8, 0x0, 1, .free, [⟨31, 0, .ro, .val 0⟩]⟩,
  -- TB_CAD_FRAME_HI (R73)
  ⟨0x20108, 0x20, 8, 0x0, 1, .free, [⟨31, 0, .ro, .val 0⟩]⟩,
  -- TB_CAD_FRAME_LO (R73)
  ⟨0x2010c, 0x20, 8, 0x0, 1, .free, [⟨31, 0, .ro, .val 0⟩]⟩,
  -- TB_CAD_LINEPOS (R73)
  ⟨0x20110, 0x20, 8, 0x0, 1, .free, [⟨28, 0, .ro, .val 0⟩]⟩,
  -- TB_CAD_STEPGAP (R73)
  ⟨0x20114, 0x20, 8, 0x0, 1, .free, [⟨31, 0, .ro, .val 0⟩]⟩,
  -- TB_CAD_PULSES (R73)
  ⟨0x20118, 0x20, 8, 0x0, 1, .free, [⟨31, 0, .ro, .val 0⟩]⟩,
  -- TB_CMP_CTRL (R74)
  ⟨0x20400, 0x10, 64, 0x0, 1, .free, [⟨0, 0, .rwL, .val 0⟩, ⟨1, 1, .rwL, .val 0⟩, ⟨4, 2, .rwL, .val 0⟩, ⟨5, 5, .rwL, .val 0⟩, ⟨6, 6, .w1c, .val 0⟩, ⟨7, 7, .w1c, .val 0⟩, ⟨9, 8, .rwL, .val 0⟩, ⟨21, 10, .rwL, .val 0⟩]⟩,
  -- TB_CMP_T0 (R74)
  ⟨0x20404, 0x10, 64, 0x0, 1, .free, [⟨31, 0, .rwL, .val 0⟩]⟩,
  -- TB_CMP_T1 (R74)
  ⟨0x20408, 0x10, 64, 0x0, 1, .free, [⟨31, 0, .rwL, .val 0⟩]⟩,
  -- TB_CMP_PERIOD (R74)
  ⟨0x2040c, 0x10, 64, 0x0, 1, .free, [⟨31, 0, .rwL, .val 0⟩]⟩
]

/-- Registers of block PL (03_plans.md). -/
def tblPL : List RegDesc := [
  -- PL_STATUS (R112)
  ⟨0x30000, 0x0, 1, 0x0, 1, .free, [⟨2, 0, .ro, .val 0⟩, ⟨3, 3, .ro, .val 0⟩, ⟨4, 4, .ro, .val 0⟩]⟩,
  -- PL_RUN_ID (R111)
  ⟨0x30004, 0x0, 1, 0x0, 1, .free, [⟨31, 0, .ro, .val 0⟩]⟩,
  -- PL_PEND_ID (R111)
  ⟨0x30008, 0x0, 1, 0x0, 1, .free, [⟨31, 0, .ro, .val 0⟩]⟩,
  -- PL_RESULT (R112)
  ⟨0x3000c, 0x0, 1, 0x0, 1, .free, [⟨7, 0, .ro, .val 0⟩, ⟨15, 8, .ro, .val 0⟩, ⟨31, 16, .ro, .val 0⟩]⟩,
  -- PL_CTRL (R112)
  ⟨0x30010, 0x0, 1, 0x0, 1, .free, [⟨0, 0, .wo, .val 0⟩, ⟨1, 1, .wo, .val 0⟩, ⟨2, 2, .wo, .val 0⟩, ⟨3, 3, .wo, .val 0⟩]⟩,
  -- PL_SRC (R111)
  ⟨0x30014, 0x0, 1, 0x0, 1, .free, [⟨31, 0, .rw, .val 0⟩]⟩,
  -- PL_SWITCH_T0 (R111)
  ⟨0x30018, 0x0, 1, 0x0, 1, .free, [⟨29, 0, .rw, .val 0⟩]⟩,
  -- PL_SWITCH_T1 (R111)
  ⟨0x3001c, 0x0, 1, 0x0, 1, .free, [⟨31, 0, .rw, .val 0⟩]⟩,
  -- PL_EVENTS (R112)
  ⟨0x30020, 0x0, 1, 0x0, 1, .free, [⟨0, 0, .w1c, .val 0⟩, ⟨1, 1, .w1c, .val 0⟩, ⟨2, 2, .w1c, .val 0⟩, ⟨3, 3, .w1c, .val 0⟩, ⟨4, 4, .w1c, .val 0⟩, ⟨5, 5, .w1c, .val 0⟩, ⟨6, 6, .w1c, .val 0⟩]⟩,
  -- PL_BREACH (R112)
  ⟨0x30024, 0x0, 1, 0x0, 1, .free, [⟨3, 0, .ro, .val 0⟩, ⟨4, 4, .ro, .val 0⟩, ⟨31, 16, .ro, .val 0⟩]⟩,
  -- PL_BREACH_COUNT (R111)
  ⟨0x30028, 0x0, 1, 0x0, 1, .free, [⟨31, 0, .ro, .val 0⟩]⟩,
  -- PL_POWER_DECL (R111)
  ⟨0x3002c, 0x0, 1, 0x0, 1, .free, [⟨31, 0, .ro, .val 0⟩]⟩,
  -- PL_BROWNOUT_DECL (R111)
  ⟨0x30030, 0x0, 1, 0x0, 1, .free, [⟨31, 0, .ro, .val 0⟩]⟩,
  -- PL_FRAGMENTS (R111)
  ⟨0x30034, 0x0, 1, 0x0, 1, .free, [⟨31, 0, .ro, .val 0⟩]⟩,
  -- PL_CLAMPED (R111)
  ⟨0x30038, 0x0, 1, 0x0, 1, .free, [⟨31, 0, .ro, .val 0⟩]⟩,
  -- PL_LIB (R111)
  ⟨0x3003c, 0x0, 1, 0x0, 1, .free, [⟨6, 0, .rw, .val 0⟩]⟩
]

/-- Registers of block VT (04_vat.md). -/
def tblVT : List RegDesc := [
  -- VT_STATUS (R146)
  ⟨0x40000, 0x0, 1, 0x0, 1, .free, [⟨0, 0, .ro, .val 0⟩, ⟨1, 1, .ro, .val 0⟩, ⟨2, 2, .ro, .val 0⟩, ⟨3, 3, .ro, .val 0⟩, ⟨10, 4, .ro, .bist⟩]⟩,
  -- VT_CLOCK (R145)
  ⟨0x40004, 0x0, 1, 0x0, 1, .free, [⟨20, 0, .ro, .val 0⟩]⟩,
  -- VT_EVENTS (R146)
  ⟨0x40008, 0x0, 1, 0x0, 1, .free, [⟨0, 0, .w1c, .val 0⟩, ⟨1, 1, .w1c, .val 0⟩, ⟨2, 2, .w1c, .val 0⟩, ⟨3, 3, .w1c, .val 0⟩, ⟨4, 4, .w1c, .val 0⟩, ⟨5, 5, .w1c, .val 0⟩, ⟨6, 6, .w1c, .val 0⟩, ⟨7, 7, .w1c, .val 0⟩]⟩,
  -- VT_OVERRUNS (R145)
  ⟨0x4000c, 0x0, 1, 0x0, 1, .free, [⟨31, 0, .ro, .val 0⟩]⟩,
  -- VT_ECC_CORR (R145)
  ⟨0x40010, 0x0, 1, 0x0, 1, .free, [⟨31, 0, .ro, .val 0⟩]⟩,
  -- VT_ECC_UNCORR (R145)
  ⟨0x40014, 0x0, 1, 0x0, 1, .free, [⟨31, 0, .ro, .val 0⟩]⟩,
  -- VT_BANK_FAULTS (R145)
  ⟨0x40018, 0x0, 1, 0x0, 1, .free, [⟨31, 0, .ro, .val 0⟩]⟩,
  -- VT_ROUTE_FAULTS (R145)
  ⟨0x4001c, 0x0, 1, 0x0, 1, .free, [⟨31, 0, .ro, .val 0⟩]⟩,
  -- VT_LAST_FAULT (R146)
  ⟨0x40020, 0x0, 1, 0x0, 1, .free, [⟨5, 0, .ro, .val 0⟩, ⟨10, 6, .ro, .val 0⟩, ⟨14, 11, .ro, .val 0⟩, ⟨31, 16, .ro, .val 0⟩]⟩,
  -- VT_CAD_MARGIN (R145)
  ⟨0x40040, 0x4, 8, 0x0, 1, .free, [⟨15, 0, .ro, .val 0⟩]⟩,
  -- VT_MAP_ROW (R147)
  ⟨0x40100, 0x4, 32, 0x0, 1, .free, [⟨5, 0, .ro, .bist⟩, ⟨6, 6, .ro, .bist⟩, ⟨7, 7, .ro, .bist⟩, ⟨13, 8, .ro, .bist⟩, ⟨14, 14, .ro, .bist⟩, ⟨15, 15, .ro, .bist⟩, ⟨16, 16, .ro, .val 0⟩, ⟨17, 17, .ro, .val 0⟩]⟩,
  -- VT_OWNER (R148)
  ⟨0x41000, 0x4, 192, 0x0, 1, .free, [⟨31, 0, .ro, .val 2290649224⟩]⟩
]

/-- Registers of block EN (06_encode.md). -/
def tblEN : List RegDesc := [
  -- EN_CFG (R227)
  ⟨0x80000, 0x100, 256, 0x0, 1, .en, [⟨0, 0, .ro, .plan⟩, ⟨3, 1, .ro, .plan⟩, ⟨5, 4, .ro, .plan⟩, ⟨6, 6, .ro, .plan⟩, ⟨8, 7, .ro, .plan⟩, ⟨10, 9, .ro, .plan⟩, ⟨12, 11, .ro, .plan⟩, ⟨14, 13, .ro, .plan⟩, ⟨22, 15, .ro, .plan⟩, ⟨23, 23, .ro, .plan⟩, ⟨24, 24, .ro, .plan⟩, ⟨25, 25, .ro, .plan⟩, ⟨26, 26, .ro, .plan⟩, ⟨27, 27, .ro, .plan⟩, ⟨28, 28, .ro, .plan⟩]⟩,
  -- EN_SIZE (R226)
  ⟨0x80004, 0x100, 256, 0x0, 1, .en, [⟨15, 0, .ro, .plan⟩, ⟨31, 16, .ro, .plan⟩]⟩,
  -- EN_TIMING (R228)
  ⟨0x80008, 0x100, 256, 0x0, 1, .en, [⟨2, 0, .ro, .plan⟩, ⟨3, 3, .ro, .plan⟩, ⟨16, 4, .ro, .plan⟩, ⟨24, 17, .ro, .plan⟩, ⟨27, 25, .ro, .plan⟩]⟩,
  -- EN_STATUS (R228)
  ⟨0x8000c, 0x100, 256, 0x0, 1, .en, [⟨0, 0, .ro, .val 0⟩, ⟨1, 1, .ro, .val 0⟩, ⟨2, 2, .ro, .val 0⟩, ⟨3, 3, .ro, .val 0⟩, ⟨4, 4, .ro, .val 0⟩]⟩,
  -- EN_EVENTS (R228)
  ⟨0x80010, 0x100, 256, 0x0, 1, .en, [⟨0, 0, .w1c, .val 0⟩, ⟨1, 1, .w1c, .val 0⟩, ⟨2, 2, .w1c, .val 0⟩, ⟨3, 3, .w1c, .val 0⟩, ⟨4, 4, .w1c, .val 0⟩, ⟨5, 5, .w1c, .val 0⟩, ⟨6, 6, .w1c, .val 0⟩]⟩,
  -- EN_CTRL (R226)
  ⟨0x80014, 0x100, 256, 0x0, 1, .en, [⟨0, 0, .wo, .val 0⟩]⟩,
  -- EN_RAP (R226)
  ⟨0x80018, 0x100, 256, 0x0, 1, .en, [⟨15, 0, .rwL, .plan⟩]⟩,
  -- EN_PICTURES (R226)
  ⟨0x8001c, 0x100, 256, 0x0, 1, .en, [⟨31, 0, .ro, .val 0⟩]⟩,
  -- EN_FILLED (R226)
  ⟨0x80020, 0x100, 256, 0x0, 1, .en, [⟨31, 0, .ro, .val 0⟩]⟩,
  -- EN_LAST_FILL (R226)
  ⟨0x80024, 0x100, 256, 0x0, 1, .en, [⟨3, 0, .ro, .val 0⟩, ⟨15, 4, .ro, .val 0⟩, ⟨31, 16, .ro, .val 0⟩]⟩,
  -- EN_SCTE_DONE (R226)
  ⟨0x80028, 0x100, 256, 0x0, 1, .en, [⟨31, 0, .ro, .val 0⟩]⟩,
  -- EN_SCTE_DROP (R226)
  ⟨0x8002c, 0x100, 256, 0x0, 1, .en, [⟨31, 0, .ro, .val 0⟩]⟩,
  -- EN_HDR (R226)
  ⟨0x80030, 0x100, 256, 0x0, 1, .en, [⟨7, 0, .ro, .plan⟩, ⟨15, 8, .ro, .plan⟩, ⟨23, 16, .ro, .plan⟩, ⟨24, 24, .ro, .plan⟩, ⟨25, 25, .ro, .plan⟩, ⟨26, 26, .ro, .plan⟩]⟩,
  -- EN_MDCV (R226)
  ⟨0x80034, 0x100, 256, 0x4, 6, .en, [⟨31, 0, .rwL, .plan⟩]⟩,
  -- EN_CLL (R226)
  ⟨0x8004c, 0x100, 256, 0x0, 1, .en, [⟨15, 0, .rwL, .plan⟩, ⟨31, 16, .rwL, .plan⟩]⟩,
  -- EN_FRAME (R226)
  ⟨0x80050, 0x100, 256, 0x0, 1, .en, [⟨31, 0, .ro, .val 0⟩]⟩,
  -- EN_RSVD (R226)
  ⟨0x80054, 0x100, 256, 0x4, 43, .en, []⟩
]

/-- Registers of block RC (07_rate_control.md). -/
def tblRC : List RegDesc := [
  -- RC_CFG (R254)
  ⟨0x90000, 0x40, 256, 0x0, 1, .en, [⟨1, 0, .ro, .plan⟩, ⟨6, 2, .ro, .plan⟩, ⟨7, 7, .ro, .plan⟩, ⟨11, 8, .ro, .plan⟩, ⟨19, 12, .ro, .plan⟩, ⟨25, 20, .ro, .plan⟩, ⟨31, 26, .ro, .plan⟩]⟩,
  -- RC_RATE (R252)
  ⟨0x90004, 0x40, 256, 0x0, 1, .en, [⟨31, 0, .rwL, .plan⟩]⟩,
  -- RC_MAXRATE (R252)
  ⟨0x90008, 0x40, 256, 0x0, 1, .en, [⟨31, 0, .rwL, .plan⟩]⟩,
  -- RC_CPB (R252)
  ⟨0x9000c, 0x40, 256, 0x0, 1, .en, [⟨31, 0, .ro, .plan⟩]⟩,
  -- RC_START (R252)
  ⟨0x90010, 0x40, 256, 0x0, 1, .en, [⟨31, 0, .ro, .plan⟩]⟩,
  -- RC_TARGET_FULL (R252)
  ⟨0x90014, 0x40, 256, 0x0, 1, .en, [⟨31, 0, .ro, .plan⟩]⟩,
  -- RC_QP (R252)
  ⟨0x90018, 0x40, 256, 0x0, 1, .en, [⟨5, 0, .rwL, .plan⟩, ⟨13, 8, .rwL, .plan⟩]⟩,
  -- RC_CAP (R252)
  ⟨0x9001c, 0x40, 256, 0x0, 1, .en, [⟨31, 0, .ro, .plan⟩]⟩,
  -- RC_BINS (R252)
  ⟨0x90020, 0x40, 256, 0x0, 1, .en, [⟨31, 0, .ro, .plan⟩]⟩,
  -- RC_STATUS (R255)
  ⟨0x90024, 0x40, 256, 0x0, 1, .en, [⟨0, 0, .ro, .val 0⟩, ⟨1, 1, .ro, .val 0⟩, ⟨2, 2, .ro, .val 0⟩, ⟨8, 3, .ro, .val 0⟩]⟩,
  -- RC_EVENTS (R255)
  ⟨0x90028, 0x40, 256, 0x0, 1, .en, [⟨0, 0, .w1c, .val 0⟩, ⟨1, 1, .w1c, .val 0⟩, ⟨2, 2, .w1c, .val 0⟩, ⟨3, 3, .w1c, .val 0⟩, ⟨4, 4, .w1c, .val 0⟩]⟩,
  -- RC_FULLNESS (R252)
  ⟨0x9002c, 0x40, 256, 0x0, 1, .en, [⟨31, 0, .ro, .val 0⟩]⟩,
  -- RC_LAST_SIZE (R252)
  ⟨0x90030, 0x40, 256, 0x0, 1, .en, [⟨31, 0, .ro, .val 0⟩]⟩,
  -- RC_SKIMS (R252)
  ⟨0x90034, 0x40, 256, 0x0, 1, .en, [⟨31, 0, .ro, .val 0⟩]⟩,
  -- RC_FLOOR_ROWS (R252)
  ⟨0x90038, 0x40, 256, 0x0, 1, .en, [⟨31, 0, .ro, .val 0⟩]⟩,
  -- RC_CLIPS (R252)
  ⟨0x9003c, 0x40, 256, 0x0, 1, .en, [⟨31, 0, .ro, .val 0⟩]⟩,
  -- RC_POOL_RATE (R252)
  ⟨0x94000, 0x20, 16, 0x0, 1, .pool, [⟨31, 0, .rwL, .plan⟩]⟩,
  -- RC_POOL_CFG (R252)
  ⟨0x94004, 0x20, 16, 0x0, 1, .pool, [⟨7, 0, .ro, .plan⟩, ⟨10, 8, .ro, .plan⟩]⟩,
  -- RC_POOL_CLAMPS (R252)
  ⟨0x94008, 0x20, 16, 0x0, 1, .pool, [⟨31, 0, .ro, .val 0⟩]⟩,
  -- RC_POOL_RSVD (R252)
  ⟨0x9400c, 0x20, 16, 0x4, 5, .pool, []⟩
]

/-- Registers of block CL (08_cellar.md). -/
def tblCL : List RegDesc := [
  -- CL_STATUS (R279)
  ⟨0xa0000, 0x0, 1, 0x0, 1, .free, [⟨0, 0, .ro, .val 0⟩, ⟨1, 1, .ro, .val 0⟩]⟩,
  -- CL_EVENTS (R279)
  ⟨0xa0004, 0x0, 1, 0x0, 1, .free, [⟨0, 0, .w1c, .val 0⟩, ⟨1, 1, .w1c, .val 0⟩, ⟨2, 2, .w1c, .val 0⟩, ⟨3, 3, .w1c, .val 0⟩, ⟨4, 4, .w1c, .val 0⟩]⟩,
  -- CL_USED (R279)
  ⟨0xa0008, 0x0, 1, 0x0, 1, .free, [⟨12, 0, .ro, .val 0⟩]⟩,
  -- CL_SUBST (R279)
  ⟨0xa000c, 0x0, 1, 0x0, 1, .free, [⟨31, 0, .ro, .val 0⟩]⟩,
  -- CL_GREY (R279)
  ⟨0xa0010, 0x0, 1, 0x0, 1, .free, [⟨31, 0, .ro, .val 0⟩]⟩,
  -- CL_FS_REPEATS (R279)
  ⟨0xa0014, 0x0, 1, 0x0, 1, .free, [⟨31, 0, .ro, .val 0⟩]⟩,
  -- CL_FS_DROPS (R279)
  ⟨0xa0018, 0x0, 1, 0x0, 1, .free, [⟨31, 0, .ro, .val 0⟩]⟩,
  -- CL_DC_CFG (R281)
  ⟨0xa1000, 0x40, 64, 0x0, 1, .dc, [⟨0, 0, .ro, .plan⟩, ⟨3, 1, .ro, .plan⟩, ⟨5, 4, .ro, .plan⟩, ⟨6, 6, .ro, .plan⟩, ⟨14, 7, .ro, .plan⟩, ⟨15, 15, .ro, .plan⟩, ⟨18, 16, .ro, .plan⟩, ⟨23, 19, .ro, .plan⟩, ⟨27, 24, .ro, .plan⟩, ⟨28, 28, .ro, .plan⟩, ⟨29, 29, .ro, .plan⟩]⟩,
  -- CL_DC_STATUS (R281)
  ⟨0xa1004, 0x40, 64, 0x0, 1, .dc, [⟨0, 0, .ro, .val 0⟩, ⟨1, 1, .ro, .val 0⟩, ⟨2, 2, .ro, .val 0⟩, ⟨5, 3, .ro, .val 0⟩, ⟨6, 6, .ro, .val 0⟩, ⟨7, 7, .ro, .val 0⟩]⟩,
  -- CL_DC_EVENTS (R281)
  ⟨0xa1008, 0x40, 64, 0x0, 1, .dc, [⟨0, 0, .w1c, .val 0⟩, ⟨1, 1, .w1c, .val 0⟩, ⟨2, 2, .w1c, .val 0⟩, ⟨3, 3, .w1c, .val 0⟩, ⟨4, 4, .w1c, .val 0⟩, ⟨5, 5, .w1c, .val 0⟩, ⟨6, 6, .w1c, .val 0⟩]⟩,
  -- CL_DC_SIZE (R280)
  ⟨0xa100c, 0x40, 64, 0x0, 1, .dc, [⟨15, 0, .ro, .val 0⟩, ⟨31, 16, .ro, .val 0⟩]⟩,
  -- CL_DC_PICTURES (R280)
  ⟨0xa1010, 0x40, 64, 0x0, 1, .dc, [⟨31, 0, .ro, .val 0⟩]⟩,
  -- CL_DC_CONCEALED (R280)
  ⟨0xa1014, 0x40, 64, 0x0, 1, .dc, [⟨31, 0, .ro, .val 0⟩]⟩,
  -- CL_DC_SUBST (R280)
  ⟨0xa1018, 0x40, 64, 0x0, 1, .dc, [⟨31, 0, .ro, .val 0⟩]⟩,
  -- CL_DC_LATE (R280)
  ⟨0xa101c, 0x40, 64, 0x0, 1, .dc, [⟨31, 0, .ro, .val 0⟩]⟩,
  -- CL_DC_REPEATS (R280)
  ⟨0xa1020, 0x40, 64, 0x0, 1, .dc, [⟨31, 0, .ro, .val 0⟩]⟩,
  -- CL_DC_BINCLIPS (R280)
  ⟨0xa1024, 0x40, 64, 0x0, 1, .dc, [⟨31, 0, .ro, .val 0⟩]⟩,
  -- CL_DC_LAST_POC (R280)
  ⟨0xa1028, 0x40, 64, 0x0, 1, .dc, [⟨31, 0, .ro, .val 0⟩]⟩,
  -- CL_DC_RSVD (R280)
  ⟨0xa102c, 0x40, 64, 0x4, 5, .dc, []⟩,
  -- CL_EC_POOL (R282)
  ⟨0xa2000, 0x10, 256, 0x0, 1, .en, [⟨2, 0, .ro, .plan⟩, ⟨11, 4, .ro, .plan⟩, ⟨23, 12, .ro, .plan⟩]⟩,
  -- CL_EC_MARKS (R282)
  ⟨0xa2004, 0x10, 256, 0x0, 1, .en, [⟨19, 0, .ro, .val 0⟩]⟩,
  -- CL_EC_RSVD (R282)
  ⟨0xa2008, 0x10, 256, 0x4, 2, .en, []⟩,
  -- CL_FS_CFG (R283)
  ⟨0xa4000, 0x10, 1024, 0x0, 1, .fs, [⟨9, 0, .ro, .plan⟩, ⟨11, 10, .ro, .plan⟩, ⟨14, 12, .ro, .plan⟩]⟩,
  -- CL_FS_STATE (R283)
  ⟨0xa4004, 0x10, 1024, 0x0, 1, .fs, [⟨1, 0, .ro, .val 3⟩, ⟨3, 2, .ro, .val 3⟩, ⟨4, 4, .ro, .val 0⟩, ⟨5, 5, .ro, .val 0⟩, ⟨6, 6, .ro, .val 1⟩]⟩,
  -- CL_FS_REPEATS_N (R283)
  ⟨0xa4008, 0x10, 1024, 0x0, 1, .fs, [⟨31, 0, .ro, .val 0⟩]⟩,
  -- CL_FS_DROPS_N (R283)
  ⟨0xa400c, 0x10, 1024, 0x0, 1, .fs, [⟨31, 0, .ro, .val 0⟩]⟩
]

/-- Registers of block CH (09_churn.md). -/
def tblCH : List RegDesc := [
  -- CH_STATUS (R309)
  ⟨0xb0000, 0x0, 1, 0x0, 1, .free, [⟨7, 0, .ro, .val 0⟩, ⟨8, 8, .ro, .val 0⟩, ⟨9, 9, .ro, .val 0⟩]⟩,
  -- CH_DIE_EVENTS (R309)
  ⟨0xb0004, 0x0, 1, 0x0, 1, .free, [⟨0, 0, .w1c, .val 0⟩, ⟨1, 1, .w1c, .val 0⟩, ⟨2, 2, .w1c, .val 0⟩]⟩,
  -- CH_SCALER (R309)
  ⟨0xb0100, 0x4, 128, 0x0, 1, .free, [⟨7, 0, .ro, .val 0⟩, ⟨10, 8, .ro, .val 0⟩, ⟨11, 11, .ro, .val 0⟩, ⟨12, 12, .ro, .val 0⟩, ⟨17, 13, .ro, .val 0⟩, ⟨22, 18, .ro, .val 0⟩]⟩,
  -- CH_CFG (R311)
  ⟨0xc0000, 0x100, 256, 0x0, 1, .en, [⟨2, 0, .ro, .plan⟩, ⟨4, 3, .ro, .plan⟩, ⟨5, 5, .ro, .plan⟩, ⟨8, 6, .ro, .plan⟩, ⟨12, 9, .ro, .plan⟩, ⟨19, 13, .ro, .plan⟩, ⟨22, 20, .ro, .plan⟩, ⟨23, 23, .ro, .plan⟩]⟩,
  -- CH_LAYER_STATE (R311)
  ⟨0xc0004, 0x100, 256, 0x0, 1, .en, [⟨31, 0, .ro, .val 0⟩]⟩,
  -- CH_EVENTS (R310)
  ⟨0xc0008, 0x100, 256, 0x0, 1, .en, [⟨0, 0, .w1c, .val 0⟩, ⟨1, 1, .w1c, .val 0⟩, ⟨2, 2, .w1c, .val 0⟩, ⟨3, 3, .w1c, .val 0⟩]⟩,
  -- CH_COMMIT (R310)
  ⟨0xc000c, 0x100, 256, 0x0, 1, .en, [⟨7, 0, .wo, .val 0⟩]⟩,
  -- CH_BG (R310)
  ⟨0xc0010, 0x100, 256, 0x0, 1, .en, [⟨9, 0, .rwL, .plan⟩, ⟨19, 10, .rwL, .plan⟩, ⟨29, 20, .rwL, .plan⟩]⟩,
  -- CH_STALE (R310)
  ⟨0xc0014, 0x100, 256, 0x0, 1, .en, [⟨31, 0, .ro, .val 0⟩]⟩,
  -- CH_REFUSED (R310)
  ⟨0xc0018, 0x100, 256, 0x0, 1, .en, [⟨31, 0, .ro, .val 0⟩]⟩,
  -- CH_RSVD (R310)
  ⟨0xc001c, 0x100, 256, 0x0, 1, .en, []⟩,
  -- CH_LSRC (R312)
  ⟨0xc0020, 0x100, 256, 0x20, 7, .en, [⟨1, 0, .ro, .plan⟩, ⟨11, 2, .ro, .plan⟩, ⟨12, 12, .ro, .plan⟩, ⟨13, 13, .ro, .plan⟩, ⟨14, 14, .ro, .plan⟩, ⟨15, 15, .ro, .plan⟩, ⟨16, 16, .ro, .plan⟩, ⟨20, 17, .ro, .plan⟩]⟩,
  -- CH_LPOS (R312)
  ⟨0xc0024, 0x100, 256, 0x20, 7, .en, [⟨15, 0, .rwL, .plan⟩, ⟨31, 16, .rwL, .plan⟩]⟩,
  -- CH_LSIZE (R312)
  ⟨0xc0028, 0x100, 256, 0x20, 7, .en, [⟨15, 0, .rwL, .plan⟩, ⟨31, 16, .rwL, .plan⟩]⟩,
  -- CH_LCROP_POS (R312)
  ⟨0xc002c, 0x100, 256, 0x20, 7, .en, [⟨15, 0, .rwL, .plan⟩, ⟨31, 16, .rwL, .plan⟩]⟩,
  -- CH_LCROP_SIZE (R312)
  ⟨0xc0030, 0x100, 256, 0x20, 7, .en, [⟨15, 0, .rwL, .plan⟩, ⟨31, 16, .rwL, .plan⟩]⟩,
  -- CH_LMIX (R312)
  ⟨0xc0034, 0x100, 256, 0x20, 7, .en, [⟨7, 0, .rwL, .plan⟩, ⟨11, 8, .rwL, .plan⟩]⟩,
  -- CH_LCAUSE (R312)
  ⟨0xc0038, 0x100, 256, 0x20, 7, .en, [⟨2, 0, .ro, .val 0⟩, ⟨31, 16, .ro, .val 0⟩]⟩,
  -- CH_LRSVD (R312)
  ⟨0xc003c, 0x100, 256, 0x20, 7, .en, []⟩
]

/-- Registers of block LN (10_lanes.md). -/
def tblLN : List RegDesc := [
  -- LN_CFG (R345)
  ⟨0x100000, 0x200, 512, 0x0, 1, .ln, [⟨0, 0, .ro, .plan⟩, ⟨3, 1, .ro, .plan⟩, ⟨4, 4, .ro, .plan⟩, ⟨5, 5, .ro, .plan⟩, ⟨6, 6, .ro, .plan⟩, ⟨7, 7, .ro, .plan⟩, ⟨10, 8, .ro, .plan⟩, ⟨19, 11, .ro, .plan⟩, ⟨22, 20, .ro, .plan⟩, ⟨25, 23, .ro, .plan⟩, ⟨26, 26, .ro, .plan⟩, ⟨27, 27, .ro, .plan⟩, ⟨28, 28, .ro, .plan⟩]⟩,
  -- LN_PWR (R344)
  ⟨0x100004, 0x200, 512, 0x0, 1, .ln, [⟨1, 0, .rwL, .val 0⟩, ⟨3, 2, .rwL, .val 0⟩]⟩,
  -- LN_STATUS (R346)
  ⟨0x100008, 0x200, 512, 0x0, 1, .ln, [⟨0, 0, .ro, .val 0⟩, ⟨1, 1, .ro, .val 0⟩, ⟨2, 2, .ro, .val 0⟩, ⟨3, 3, .ro, .val 0⟩, ⟨4, 4, .ro, .val 0⟩, ⟨5, 5, .ro, .val 0⟩, ⟨6, 6, .ro, .val 0⟩, ⟨7, 7, .ro, .val 0⟩, ⟨8, 8, .ro, .val 0⟩, ⟨10, 9, .ro, .val 0⟩, ⟨12, 11, .ro, .val 0⟩]⟩,
  -- LN_EVENTS (R346)
  ⟨0x10000c, 0x200, 512, 0x0, 1, .ln, [⟨0, 0, .w1c, .val 0⟩, ⟨1, 1, .w1c, .val 0⟩, ⟨2, 2, .w1c, .val 0⟩, ⟨3, 3, .w1c, .val 0⟩, ⟨4, 4, .w1c, .val 0⟩, ⟨5, 5, .w1c, .val 0⟩, ⟨6, 6, .w1c, .val 0⟩, ⟨7, 7, .w1c, .val 0⟩, ⟨8, 8, .w1c, .val 0⟩, ⟨9, 9, .w1c, .val 0⟩, ⟨10, 10, .w1c, .val 0⟩]⟩,
  -- LN_EQ (R344)
  ⟨0x100010, 0x200, 512, 0x0, 1, .ln, [⟨3, 0, .ro, .val 0⟩, ⟨4, 4, .ro, .val 0⟩, ⟨12, 5, .ro, .val 0⟩, ⟨20, 13, .ro, .val 0⟩, ⟨24, 21, .ro, .val 0⟩, ⟨28, 25, .ro, .val 0⟩]⟩,
  -- LN_XPT (R344)
  ⟨0x100014, 0x200, 512, 0x0, 1, .ln, [⟨8, 0, .rwL, .val 0⟩, ⟨10, 9, .ro, .plan⟩]⟩,
  -- LN_NRATE (R344)
  ⟨0x100018, 0x200, 512, 0x0, 1, .ln, [⟨31, 0, .ro, .plan⟩]⟩,
  -- LN_PAYLOAD_ID (R344)
  ⟨0x10001c, 0x200, 512, 0x0, 1, .ln, [⟨31, 0, .ro, .val 0⟩]⟩,
  -- LN_DEBOUNCE (R344)
  ⟨0x100020, 0x200, 512, 0x0, 1, .ln, [⟨31, 0, .ro, .val 50⟩]⟩,
  -- LN_CRC_ERR (R344)
  ⟨0x100024, 0x200, 512, 0x0, 1, .ln, [⟨31, 0, .ro, .val 0⟩]⟩,
  -- LN_CODE_ERR (R344)
  ⟨0x100028, 0x200, 512, 0x0, 1, .ln, [⟨31, 0, .ro, .val 0⟩]⟩,
  -- LN_CONCEALED (R344)
  ⟨0x10002c, 0x200, 512, 0x0, 1, .ln, [⟨31, 0, .ro, .val 0⟩]⟩,
  -- LN_FILL_DEL (R344)
  ⟨0x100030, 0x200, 512, 0x0, 1, .ln, [⟨31, 0, .ro, .val 0⟩]⟩,
  -- LN_FILL_INS (R344)
  ⟨0x100034, 0x200, 512, 0x0, 1, .ln, [⟨31, 0, .ro, .val 0⟩]⟩,
  -- LN_OVERFLOW (R344)
  ⟨0x100038, 0x200, 512, 0x0, 1, .ln, [⟨31, 0, .ro, .val 0⟩]⟩,
  -- LN_LOCKS (R344)
  ⟨0x10003c, 0x200, 512, 0x0, 1, .ln, [⟨31, 0, .ro, .val 0⟩]⟩,
  -- LN_FOM (R344)
  ⟨0x100040, 0x200, 512, 0x4, 4, .ln, [⟨31, 0, .ro, .val 0⟩]⟩,
  -- LN_CTRL (R344)
  ⟨0x100050, 0x200, 512, 0x0, 1, .ln, [⟨0, 0, .wo, .val 0⟩]⟩,
  -- LN_RSVD (R344)
  ⟨0x100054, 0x200, 512, 0x4, 107, .ln, []⟩,
  -- LN_DIE_STATUS (R347)
  ⟨0x140000, 0x0, 1, 0x0, 1, .free, [⟨9, 0, .ro, .val 0⟩, ⟨19, 10, .ro, .val 0⟩]⟩,
  -- LN_DIE_EVENTS (R347)
  ⟨0x140004, 0x0, 1, 0x0, 1, .free, [⟨0, 0, .w1c, .val 0⟩, ⟨1, 1, .w1c, .val 0⟩, ⟨2, 2, .w1c, .val 0⟩, ⟨3, 3, .w1c, .val 0⟩, ⟨4, 4, .w1c, .val 0⟩]⟩,
  -- LN_POWER (R347)
  ⟨0x140008, 0x0, 1, 0x0, 1, .free, [⟨31, 0, .ro, .val 0⟩]⟩,
  -- LN_POWER_DECL (R347)
  ⟨0x14000c, 0x0, 1, 0x0, 1, .free, [⟨31, 0, .ro, .val 0⟩]⟩,
  -- LN_BLK (R348)
  ⟨0x140100, 0x4, 32, 0x0, 1, .free, [⟨2, 0, .ro, .plan⟩, ⟨3, 3, .ro, .val 0⟩, ⟨4, 4, .ro, .val 0⟩, ⟨5, 5, .ro, .val 0⟩, ⟨6, 6, .ro, .val 0⟩, ⟨9, 7, .ro, .plan⟩, ⟨10, 10, .ro, .val 0⟩, ⟨11, 11, .ro, .val 0⟩, ⟨12, 12, .ro, .val 0⟩, ⟨13, 13, .ro, .val 0⟩]⟩,
  -- LN_GRP_CFG (R349)
  ⟨0x141000, 0x10, 512, 0x0, 1, .free, [⟨2, 0, .ro, .plan⟩, ⟨5, 3, .ro, .plan⟩, ⟨12, 6, .ro, .plan⟩]⟩,
  -- LN_GRP_STATE (R349)
  ⟨0x141004, 0x10, 512, 0x0, 1, .free, [⟨7, 0, .ro, .val 0⟩, ⟨15, 8, .ro, .val 0⟩, ⟨16, 16, .ro, .val 1⟩]⟩,
  -- LN_GRP_UNDERRUNS (R349)
  ⟨0x141008, 0x10, 512, 0x0, 1, .free, [⟨31, 0, .ro, .val 0⟩]⟩,
  -- LN_GRP_REJOINS (R349)
  ⟨0x14100c, 0x10, 512, 0x0, 1, .free, [⟨31, 0, .ro, .val 0⟩]⟩
]

/-- Registers of block NW, part 1 (11_network.md). -/
def tblNW0 : List RegDesc := [
  -- NW_STATUS (R380)
  ⟨0x180000, 0x0, 1, 0x0, 1, .free, [⟨7, 0, .ro, .val 0⟩, ⟨8, 8, .ro, .val 0⟩, ⟨9, 9, .ro, .val 0⟩]⟩,
  -- NW_EVENTS (R380)
  ⟨0x180004, 0x0, 1, 0x0, 1, .free, [⟨0, 0, .w1c, .val 0⟩, ⟨1, 1, .w1c, .val 0⟩, ⟨2, 2, .w1c, .val 0⟩, ⟨3, 3, .w1c, .val 0⟩, ⟨4, 4, .w1c, .val 0⟩, ⟨5, 5, .w1c, .val 0⟩, ⟨6, 6, .w1c, .val 0⟩, ⟨7, 7, .w1c, .val 0⟩, ⟨8, 8, .w1c, .val 0⟩]⟩,
  -- NW_FLOWS (R380)
  ⟨0x180008, 0x0, 1, 0x0, 1, .free, [⟨10, 0, .ro, .val 0⟩, ⟨21, 11, .ro, .val 0⟩]⟩,
  -- NW_FWD (R380)
  ⟨0x18000c, 0x0, 1, 0x0, 1, .free, [⟨10, 0, .ro, .val 0⟩]⟩,
  -- NW_RX_UNMATCHED (R380)
  ⟨0x180010, 0x0, 1, 0x0, 1, .free, [⟨31, 0, .ro, .val 0⟩]⟩,
  -- NW_CTRL_DROP (R380)
  ⟨0x180014, 0x0, 1, 0x0, 1, .free, [⟨31, 0, .ro, .val 0⟩]⟩,
  -- NW_PTP_CFG (R383)
  ⟨0x180100, 0x0, 1, 0x0, 1, .free, [⟨2, 0, .ro, .val 0⟩, ⟨10, 3, .ro, .val 0⟩, ⟨11, 11, .ro, .val 0⟩]⟩,
  -- NW_PTP_STATUS (R383)
  ⟨0x180104, 0x0, 1, 0x0, 1, .free, [⟨0, 0, .ro, .val 0⟩, ⟨1, 1, .ro, .val 0⟩, ⟨9, 2, .ro, .val 0⟩]⟩,
  -- NW_PTP_GM_LO (R383)
  ⟨0x180108, 0x0, 1, 0x0, 1, .free, [⟨31, 0, .ro, .val 0⟩]⟩,
  -- NW_PTP_GM_HI (R383)
  ⟨0x18010c, 0x0, 1, 0x0, 1, .free, [⟨31, 0, .ro, .val 0⟩]⟩,
  -- NW_PTP_SAMPLES (R383)
  ⟨0x180110, 0x0, 1, 0x0, 1, .free, [⟨31, 0, .ro, .val 0⟩]⟩,
  -- NW_PTP_DROPPED (R383)
  ⟨0x180114, 0x0, 1, 0x0, 1, .free, [⟨31, 0, .ro, .val 0⟩]⟩,
  -- NW_PTP_MPD (R383)
  ⟨0x180118, 0x0, 1, 0x0, 1, .free, [⟨31, 0, .ro, .val 0⟩]⟩,
  -- NW_TC_FRAMES (R383)
  ⟨0x18011c, 0x0, 1, 0x0, 1, .free, [⟨31, 0, .ro, .val 0⟩]⟩,
  -- NW_TC_SKIPPED (R383)
  ⟨0x180120, 0x0, 1, 0x0, 1, .free, [⟨31, 0, .ro, .val 0⟩]⟩,
  -- NW_SP_CFG (R381)
  ⟨0x181000, 0x100, 8, 0x0, 1, .sp, [⟨1, 0, .ro, .plan⟩, ⟨2, 2, .ro, .plan⟩, ⟨3, 3, .ro, .plan⟩, ⟨4, 4, .ro, .plan⟩]⟩,
  -- NW_SP_STATUS (R381)
  ⟨0x181004, 0x100, 8, 0x0, 1, .sp, [⟨0, 0, .ro, .val 0⟩, ⟨1, 1, .ro, .val 0⟩, ⟨2, 2, .ro, .val 0⟩]⟩,
  -- NW_SP_EVENTS (R381)
  ⟨0x181008, 0x100, 8, 0x0, 1, .sp, [⟨0, 0, .w1c, .val 0⟩, ⟨1, 1, .w1c, .val 0⟩, ⟨2, 2, .w1c, .val 0⟩, ⟨3, 3, .w1c, .val 0⟩]⟩,
  -- NW_SP_ASYM (R381)
  ⟨0x18100c, 0x100, 8, 0x0, 1, .sp, [⟨31, 0, .rwL, .val 0⟩]⟩,
  -- NW_SP_TXCOMP (R381)
  ⟨0x181010, 0x100, 8, 0x0, 1, .sp, [⟨31, 0, .ro, .plan⟩]⟩,
  -- NW_SP_RXCOMP (R381)
  ⟨0x181014, 0x100, 8, 0x0, 1, .sp, [⟨31, 0, .ro, .plan⟩]⟩,
  -- NW_SP_RX_FRAMES (R381)
  ⟨0x181018, 0x100, 8, 0x0, 1, .sp, [⟨31, 0, .ro, .val 0⟩]⟩,
  -- NW_SP_TX_FRAMES (R381)
  ⟨0x18101c, 0x100, 8, 0x0, 1, .sp, [⟨31, 0, .ro, .val 0⟩]⟩,
  -- NW_SP_RX_FCS_ERR (R381)
  ⟨0x181020, 0x100, 8, 0x0, 1, .sp, [⟨31, 0, .ro, .val 0⟩]⟩,
  -- NW_SP_RX_DROP (R381)
  ⟨0x181024, 0x100, 8, 0x0, 1, .sp, [⟨31, 0, .ro, .val 0⟩]⟩,
  -- NW_SP_FEC_CORR (R381)
  ⟨0x181028, 0x100, 8, 0x0, 1, .sp, [⟨31, 0, .ro, .val 0⟩]⟩,
  -- NW_SP_FEC_UNCORR (R381)
  ⟨0x18102c, 0x100, 8, 0x0, 1, .sp, [⟨31, 0, .ro, .val 0⟩]⟩,
  -- NW_SP_CUT_THROUGH (R381)
  ⟨0x181030, 0x100, 8, 0x0, 1, .sp, [⟨31, 0, .ro, .val 0⟩]⟩,
  -- NW_SP_CUT_STOMP (R381)
  ⟨0x181034, 0x100, 8, 0x0, 1, .sp, [⟨31, 0, .ro, .val 0⟩]⟩,
  -- NW_SP_TX_DISCARD (R381)
  ⟨0x181038, 0x100, 8, 0x0, 1, .sp, [⟨31, 0, .ro, .val 0⟩]⟩
]

/-- Registers of block NW, part 2 (11_network.md). -/
def tblNW1 : List RegDesc := [
  -- NW_SP_RSVD (R381)
  ⟨0x18103c, 0x100, 8, 0x4, 49, .sp, []⟩,
  -- NW_RX_CFG (R384)
  ⟨0x184000, 0x20, 1024, 0x0, 1, .rxf, [⟨2, 0, .ro, .plan⟩, ⟨3, 3, .ro, .plan⟩, ⟨12, 4, .ro, .plan⟩, ⟨15, 13, .ro, .plan⟩, ⟨18, 16, .ro, .plan⟩, ⟨19, 19, .ro, .plan⟩]⟩,
  -- NW_RX_STATE (R384)
  ⟨0x184004, 0x20, 1024, 0x0, 1, .rxf, [⟨0, 0, .ro, .val 0⟩, ⟨1, 1, .ro, .val 0⟩, ⟨2, 2, .ro, .val 1⟩, ⟨3, 3, .ro, .val 0⟩, ⟨4, 4, .ro, .val 0⟩]⟩,
  -- NW_RX_EVENTS (R384)
  ⟨0x184008, 0x20, 1024, 0x0, 1, .rxf, [⟨0, 0, .w1c, .val 0⟩, ⟨1, 1, .w1c, .val 0⟩, ⟨2, 2, .w1c, .val 0⟩, ⟨3, 3, .w1c, .val 0⟩, ⟨4, 4, .w1c, .val 0⟩, ⟨5, 5, .w1c, .val 0⟩]⟩,
  -- NW_RX_PACKETS (R384)
  ⟨0x18400c, 0x20, 1024, 0x0, 1, .rxf, [⟨31, 0, .ro, .val 0⟩]⟩,
  -- NW_RX_LOST (R384)
  ⟨0x184010, 0x20, 1024, 0x0, 1, .rxf, [⟨31, 0, .ro, .val 0⟩]⟩,
  -- NW_RX_DUPLICATES (R384)
  ⟨0x184014, 0x20, 1024, 0x0, 1, .rxf, [⟨31, 0, .ro, .val 0⟩]⟩,
  -- NW_RX_LOST0 (R384)
  ⟨0x184018, 0x20, 1024, 0x0, 1, .rxf, [⟨31, 0, .ro, .val 0⟩]⟩,
  -- NW_RX_LOST1 (R384)
  ⟨0x18401c, 0x20, 1024, 0x0, 1, .rxf, [⟨31, 0, .ro, .val 0⟩]⟩,
  -- NW_TX_CFG (R384)
  ⟨0x18c000, 0x10, 1024, 0x0, 1, .txf, [⟨2, 0, .ro, .plan⟩, ⟨3, 3, .ro, .plan⟩, ⟨4, 4, .ro, .plan⟩, ⟨12, 5, .ro, .plan⟩, ⟨15, 13, .ro, .plan⟩]⟩,
  -- NW_TX_PACKETS (R384)
  ⟨0x18c004, 0x10, 1024, 0x0, 1, .txf, [⟨31, 0, .ro, .val 0⟩]⟩,
  -- NW_TX_SEQ (R384)
  ⟨0x18c008, 0x10, 1024, 0x0, 1, .txf, [⟨15, 0, .ro, .val 0⟩]⟩,
  -- NW_TX_DISCARDED (R384)
  ⟨0x18c00c, 0x10, 1024, 0x0, 1, .txf, [⟨31, 0, .ro, .val 0⟩]⟩
]

/-- Registers of block NW. -/
def tblNW : List RegDesc := tblNW0 ++ tblNW1

/-- Registers of block TQ (12_traffic.md). -/
def tblTQ : List RegDesc := [
  -- TQ_STATUS (R404)
  ⟨0x190000, 0x0, 1, 0x0, 1, .free, [⟨7, 0, .ro, .val 0⟩, ⟨8, 8, .ro, .val 0⟩]⟩,
  -- TQ_EVENTS (R404)
  ⟨0x190004, 0x0, 1, 0x0, 1, .free, [⟨0, 0, .w1c, .val 0⟩, ⟨1, 1, .w1c, .val 0⟩, ⟨2, 2, .w1c, .val 0⟩, ⟨3, 3, .w1c, .val 0⟩]⟩,
  -- TQ_DROPS (R404)
  ⟨0x190008, 0x0, 1, 0x0, 1, .free, [⟨31, 0, .ro, .val 0⟩]⟩,
  -- TQ_LAST_DROP (R404)
  ⟨0x19000c, 0x0, 1, 0x0, 1, .free, [⟨10, 0, .ro, .val 0⟩, ⟨11, 11, .ro, .val 0⟩, ⟨31, 16, .ro, .val 0⟩]⟩,
  -- TQ_POLICE_DROPS (R404)
  ⟨0x190010, 0x0, 1, 0x0, 1, .free, [⟨31, 0, .ro, .val 0⟩]⟩,
  -- TQ_GATE_CFG (R405)
  ⟨0x190100, 0x20, 8, 0x0, 1, .gate, [⟨1, 0, .ro, .plan⟩, ⟨3, 2, .ro, .val 0⟩, ⟨4, 4, .ro, .plan⟩, ⟨7, 5, .ro, .plan⟩, ⟨16, 8, .ro, .val 511⟩, ⟨17, 17, .ro, .val 0⟩]⟩,
  -- TQ_GATE_SEL (R405)
  ⟨0x190104, 0x20, 8, 0x0, 1, .gate, [⟨1, 0, .rwL, .plan⟩]⟩,
  -- TQ_GATE_BASE_T0 (R405)
  ⟨0x190108, 0x20, 8, 0x0, 1, .gate, [⟨31, 0, .rwL, .plan⟩]⟩,
  -- TQ_GATE_BASE_T1 (R405)
  ⟨0x19010c, 0x20, 8, 0x0, 1, .gate, [⟨31, 0, .rwL, .plan⟩]⟩,
  -- TQ_GATE_LATE (R405)
  ⟨0x190110, 0x20, 8, 0x0, 1, .gate, [⟨31, 0, .ro, .val 0⟩]⟩,
  -- TQ_GATE_CYCLES (R405)
  ⟨0x190114, 0x20, 8, 0x0, 1, .gate, [⟨31, 0, .ro, .val 0⟩]⟩,
  -- TQ_GATE_ENTRY (R405)
  ⟨0x190118, 0x20, 8, 0x0, 1, .gate, [⟨7, 0, .ro, .val 0⟩]⟩,
  -- TQ_GATE_RSVD (R405)
  ⟨0x19011c, 0x20, 8, 0x0, 1, .gate, []⟩,
  -- TQ_Q_CFG (R406)
  ⟨0x190400, 0x10, 64, 0x0, 1, .sq, [⟨0, 0, .ro, .plan⟩, ⟨1, 1, .ro, .plan⟩, ⟨2, 2, .ro, .plan⟩, ⟨12, 3, .ro, .plan⟩]⟩,
  -- TQ_Q_DEPTH (R406)
  ⟨0x190404, 0x10, 64, 0x0, 1, .sq, [⟨24, 0, .ro, .plan⟩]⟩,
  -- TQ_Q_FILL (R406)
  ⟨0x190408, 0x10, 64, 0x0, 1, .sq, [⟨24, 0, .ro, .val 0⟩]⟩,
  -- TQ_Q_DROPS (R406)
  ⟨0x19040c, 0x10, 64, 0x0, 1, .sq, [⟨31, 0, .ro, .val 0⟩]⟩,
  -- TQ_SH_RATE (R407)
  ⟨0x194000, 0x10, 1024, 0x0, 1, .sh, [⟨28, 0, .rwL, .plan⟩]⟩,
  -- TQ_SH_BURST (R407)
  ⟨0x194004, 0x10, 1024, 0x0, 1, .sh, [⟨24, 0, .ro, .plan⟩]⟩,
  -- TQ_SH_CREDIT (R407)
  ⟨0x194008, 0x10, 1024, 0x0, 1, .sh, [⟨31, 0, .ro, .plan⟩]⟩,
  -- TQ_SH_CFG (R407)
  ⟨0x19400c, 0x10, 1024, 0x0, 1, .sh, [⟨0, 0, .ro, .plan⟩, ⟨1, 1, .ro, .plan⟩, ⟨12, 2, .ro, .plan⟩, ⟨13, 13, .ro, .val 0⟩]⟩,
  -- TQ_W_CFG (R408)
  ⟨0x198000, 0x8, 2048, 0x0, 1, .wq, [⟨15, 0, .ro, .plan⟩, ⟨17, 16, .ro, .plan⟩, ⟨27, 18, .ro, .plan⟩, ⟨28, 28, .ro, .plan⟩, ⟨29, 29, .ro, .plan⟩, ⟨30, 30, .ro, .plan⟩]⟩,
  -- TQ_W_FILL (R408)
  ⟨0x198004, 0x8, 2048, 0x0, 1, .wq, [⟨24, 0, .ro, .val 0⟩]⟩,
  -- TQ_POL (R404)
  ⟨0x19c000, 0x4, 4096, 0x0, 1, .pol, [⟨31, 0, .ro, .val 0⟩]⟩
]

/-- Registers of block SM (13_silcel.md). -/
def tblSM : List RegDesc := [
  -- SM_STATUS (R437)
  ⟨0x1a0000, 0x0, 1, 0x0, 1, .free, [⟨3, 0, .ro, .fused⟩, ⟨7, 4, .ro, .fused⟩, ⟨14, 8, .ro, .val 0⟩, ⟨15, 15, .ro, .val 0⟩]⟩,
  -- SM_EVENTS (R437)
  ⟨0x1a0004, 0x0, 1, 0x0, 1, .free, [⟨0, 0, .w1c, .val 0⟩, ⟨1, 1, .w1c, .val 0⟩, ⟨2, 2, .w1c, .val 0⟩, ⟨3, 3, .w1c, .val 0⟩, ⟨4, 4, .w1c, .val 0⟩, ⟨5, 5, .w1c, .val 0⟩, ⟨6, 6, .w1c, .val 0⟩]⟩,
  -- SM_CFG (R437)
  ⟨0x1a0008, 0x0, 1, 0x0, 1, .free, [⟨15, 0, .ro, .val 19276⟩, ⟨21, 16, .rw, .val 4⟩]⟩,
  -- SM_QUAR_FILL (R436)
  ⟨0x1a000c, 0x0, 1, 0x0, 1, .free, [⟨12, 0, .ro, .val 0⟩]⟩,
  -- SM_REQUESTS (R436)
  ⟨0x1a0010, 0x0, 1, 0x0, 1, .free, [⟨31, 0, .ro, .val 0⟩]⟩,
  -- SM_REFUSED (R436)
  ⟨0x1a0014, 0x0, 1, 0x0, 1, .free, [⟨31, 0, .ro, .val 0⟩]⟩,
  -- SM_AUTH_FAIL (R436)
  ⟨0x1a0018, 0x0, 1, 0x0, 1, .free, [⟨31, 0, .ro, .val 0⟩]⟩,
  -- SM_REPEATS (R436)
  ⟨0x1a001c, 0x0, 1, 0x0, 1, .free, [⟨31, 0, .ro, .val 0⟩]⟩,
  -- SM_STALE (R436)
  ⟨0x1a0020, 0x0, 1, 0x0, 1, .free, [⟨31, 0, .ro, .val 0⟩]⟩,
  -- SM_EXPIRED (R436)
  ⟨0x1a0024, 0x0, 1, 0x0, 1, .free, [⟨31, 0, .ro, .val 0⟩]⟩,
  -- SM_POST_DROP (R436)
  ⟨0x1a0028, 0x0, 1, 0x0, 1, .free, [⟨31, 0, .ro, .val 0⟩]⟩,
  -- SM_SLOT_EPOCH (R436)
  ⟨0x1a0040, 0x8, 4, 0x0, 1, .free, [⟨7, 0, .ro, .val 0⟩, ⟨8, 8, .ro, .val 0⟩, ⟨9, 9, .ro, .val 0⟩]⟩,
  -- SM_SLOT_ALIVE (R436)
  ⟨0x1a0044, 0x8, 4, 0x0, 1, .free, [⟨31, 0, .ro, .val 0⟩]⟩,
  -- SM_SUB_CFG (R438)
  ⟨0x1a0100, 0x10, 4, 0x0, 1, .free, [⟨0, 0, .ro, .val 0⟩, ⟨2, 1, .ro, .val 0⟩, ⟨3, 3, .ro, .val 0⟩, ⟨31, 16, .ro, .val 0⟩]⟩,
  -- SM_SUB_BLOCKS (R438)
  ⟨0x1a0104, 0x10, 4, 0x0, 1, .free, [⟨22, 0, .ro, .val 0⟩]⟩,
  -- SM_SUB_POSTS (R438)
  ⟨0x1a0108, 0x10, 4, 0x0, 1, .free, [⟨31, 0, .ro, .val 0⟩]⟩,
  -- SM_SUB_DROPS (R438)
  ⟨0x1a010c, 0x10, 4, 0x0, 1, .free, [⟨31, 0, .ro, .val 0⟩]⟩
]

/-- Registers of block AU (14_audio.md). -/
def tblAU : List RegDesc := [
  -- AU_STATUS (R457)
  ⟨0x1b0000, 0x0, 1, 0x0, 1, .free, [⟨15, 0, .ro, .val 0⟩, ⟨16, 16, .ro, .val 0⟩, ⟨17, 17, .ro, .val 0⟩]⟩,
  -- AU_EVENTS (R457)
  ⟨0x1b0004, 0x0, 1, 0x0, 1, .free, [⟨0, 0, .w1c, .val 0⟩, ⟨1, 1, .w1c, .val 0⟩, ⟨2, 2, .w1c, .val 0⟩, ⟨3, 3, .w1c, .val 0⟩, ⟨4, 4, .w1c, .val 0⟩]⟩,
  -- AU_CONCEALED (R457)
  ⟨0x1b0008, 0x0, 1, 0x0, 1, .free, [⟨31, 0, .ro, .val 0⟩]⟩,
  -- AU_P_CFG (R458)
  ⟨0x1b0100, 0x20, 16, 0x0, 1, .aup, [⟨1, 0, .ro, .plan⟩, ⟨2, 2, .ro, .plan⟩, ⟨5, 3, .ro, .plan⟩, ⟨10, 6, .ro, .plan⟩, ⟨12, 11, .ro, .plan⟩, ⟨14, 13, .ro, .plan⟩, ⟨15, 15, .ro, .plan⟩, ⟨16, 16, .ro, .plan⟩, ⟨17, 17, .ro, .plan⟩, ⟨18, 18, .ro, .plan⟩, ⟨19, 19, .ro, .plan⟩, ⟨22, 20, .ro, .plan⟩]⟩,
  -- AU_P_RXMASK (R458)
  ⟨0x1b0104, 0x20, 16, 0x0, 1, .aup, [⟨31, 0, .ro, .plan⟩]⟩,
  -- AU_P_TXMASK (R458)
  ⟨0x1b0108, 0x20, 16, 0x0, 1, .aup, [⟨31, 0, .ro, .plan⟩]⟩,
  -- AU_P_STATUS (R458)
  ⟨0x1b010c, 0x20, 16, 0x0, 1, .aup, [⟨0, 0, .ro, .val 0⟩, ⟨1, 1, .ro, .val 0⟩, ⟨2, 2, .ro, .val 0⟩, ⟨3, 3, .ro, .val 0⟩, ⟨4, 4, .ro, .val 1⟩, ⟨5, 5, .ro, .val 0⟩, ⟨6, 6, .ro, .val 0⟩]⟩,
  -- AU_P_EVENTS (R458)
  ⟨0x1b0110, 0x20, 16, 0x0, 1, .aup, [⟨0, 0, .w1c, .val 0⟩, ⟨1, 1, .w1c, .val 0⟩, ⟨2, 2, .w1c, .val 0⟩, ⟨3, 3, .w1c, .val 0⟩, ⟨4, 4, .w1c, .val 0⟩, ⟨5, 5, .w1c, .val 0⟩]⟩,
  -- AU_P_WCLK_RATE (R458)
  ⟨0x1b0114, 0x20, 16, 0x0, 1, .aup, [⟨31, 0, .ro, .val 0⟩]⟩,
  -- AU_P_CONCEALED (R458)
  ⟨0x1b0118, 0x20, 16, 0x0, 1, .aup, [⟨31, 0, .ro, .val 0⟩]⟩,
  -- AU_P_RSVD (R458)
  ⟨0x1b011c, 0x20, 16, 0x0, 1, .aup, []⟩,
  -- AU_ASRC_RATIO (R459)
  ⟨0x1b0400, 0x10, 32, 0x0, 1, .asrc, [⟨31, 0, .ro, .plan⟩]⟩,
  -- AU_ASRC_CFG (R459)
  ⟨0x1b0404, 0x10, 32, 0x0, 1, .asrc, [⟨0, 0, .ro, .plan⟩, ⟨1, 1, .ro, .plan⟩, ⟨2, 2, .ro, .val 0⟩, ⟨3, 3, .ro, .val 0⟩, ⟨8, 4, .ro, .plan⟩]⟩,
  -- AU_ASRC_OFFSET (R459)
  ⟨0x1b0408, 0x10, 32, 0x0, 1, .asrc, [⟨31, 0, .ro, .val 0⟩]⟩,
  -- AU_ASRC_RSVD (R459)
  ⟨0x1b040c, 0x10, 32, 0x0, 1, .asrc, []⟩,
  -- AU_GRP_CFG (R459)
  ⟨0x1b1000, 0x10, 256, 0x0, 1, .aug, [⟨2, 0, .ro, .plan⟩, ⟨9, 3, .ro, .plan⟩, ⟨13, 10, .ro, .plan⟩, ⟨14, 14, .ro, .plan⟩]⟩,
  -- AU_GRP_STATE (R459)
  ⟨0x1b1004, 0x10, 256, 0x0, 1, .aug, [⟨15, 0, .ro, .val 0⟩, ⟨16, 16, .ro, .val 1⟩]⟩,
  -- AU_GRP_UNDERRUNS (R459)
  ⟨0x1b1008, 0x10, 256, 0x0, 1, .aug, [⟨31, 0, .ro, .val 0⟩]⟩,
  -- AU_GRP_REJOINS (R459)
  ⟨0x1b100c, 0x10, 256, 0x0, 1, .aug, [⟨31, 0, .ro, .val 0⟩]⟩,
  -- AU_MAP_CFG (R460)
  ⟨0x1b2000, 0x8, 4096, 0x0, 1, .aum, [⟨0, 0, .rwL, .plan⟩, ⟨1, 1, .ro, .plan⟩, ⟨13, 2, .ro, .plan⟩, ⟨16, 14, .ro, .plan⟩]⟩,
  -- AU_MAP_DEST (R460)
  ⟨0x1b2004, 0x8, 4096, 0x0, 1, .aum, [⟨15, 0, .ro, .plan⟩, ⟨21, 16, .ro, .plan⟩]⟩
]

/-- Registers of block MC (15_memory.md). -/
def tblMC : List RegDesc := [
  -- MC_STATUS (R486)
  ⟨0x1c0000, 0x0, 1, 0x0, 1, .free, [⟨15, 0, .ro, .val 0⟩, ⟨16, 16, .ro, .val 0⟩, ⟨17, 17, .ro, .val 0⟩, ⟨18, 18, .ro, .val 0⟩]⟩,
  -- MC_EVENTS (R486)
  ⟨0x1c0004, 0x0, 1, 0x0, 1, .free, [⟨0, 0, .w1c, .val 0⟩, ⟨1, 1, .w1c, .val 0⟩, ⟨2, 2, .w1c, .val 0⟩, ⟨3, 3, .w1c, .val 0⟩, ⟨4, 4, .w1c, .val 0⟩, ⟨5, 5, .w1c, .val 0⟩, ⟨6, 6, .w1c, .val 0⟩, ⟨7, 7, .w1c, .val 0⟩, ⟨8, 8, .w1c, .val 0⟩]⟩,
  -- MC_BREACH (R486)
  ⟨0x1c0008, 0x0, 1, 0x0, 1, .free, [⟨3, 0, .ro, .val 0⟩, ⟨5, 4, .ro, .val 0⟩, ⟨31, 16, .ro, .val 0⟩]⟩,
  -- MC_BREACH_COUNT (R486)
  ⟨0x1c000c, 0x0, 1, 0x0, 1, .free, [⟨31, 0, .ro, .val 0⟩]⟩,
  -- MC_XOR (R464)
  ⟨0x1c0010, 0x4, 5, 0x0, 1, .free, [⟨11, 0, .ro, .val 0⟩, ⟨18, 12, .ro, .val 0⟩]⟩,
  -- MC_OWNER_LO (R486)
  ⟨0x1c0024, 0x0, 1, 0x0, 1, .free, [⟨31, 0, .ro, .val 2290649224⟩]⟩,
  -- MC_OWNER_HI (R486)
  ⟨0x1c0028, 0x0, 1, 0x0, 1, .free, [⟨31, 0, .ro, .val 2290649224⟩]⟩,
  -- MC_HAMMER (R486)
  ⟨0x1c002c, 0x0, 1, 0x0, 1, .free, [⟨14, 0, .ro, .val 2048⟩]⟩,
  -- MC_PASR (R486)
  ⟨0x1c0030, 0x0, 1, 0x0, 1, .free, [⟨15, 0, .rw, .val 65535⟩]⟩,
  -- MC_TEMP (R486)
  ⟨0x1c0040, 0x4, 4, 0x0, 1, .free, [⟨15, 0, .ro, .val 0⟩]⟩,
  -- MC_LATE (R486)
  ⟨0x1c0050, 0x0, 1, 0x0, 1, .free, [⟨31, 0, .ro, .val 0⟩]⟩,
  -- MC_SPACING (R486)
  ⟨0x1c0054, 0x0, 1, 0x0, 1, .free, [⟨31, 0, .ro, .val 0⟩]⟩,
  -- MC_REGION_FAULTS (R486)
  ⟨0x1c0058, 0x0, 1, 0x0, 1, .free, [⟨31, 0, .ro, .val 0⟩]⟩,
  -- MC_ECC_CORR (R486)
  ⟨0x1c005c, 0x0, 1, 0x0, 1, .free, [⟨31, 0, .ro, .val 0⟩]⟩,
  -- MC_ECC_UNCORR (R486)
  ⟨0x1c0060, 0x0, 1, 0x0, 1, .free, [⟨31, 0, .ro, .val 0⟩]⟩,
  -- MC_SENSOR_DROPS (R486)
  ⟨0x1c0064, 0x0, 1, 0x0, 1, .free, [⟨31, 0, .ro, .val 0⟩]⟩,
  -- MC_LAST_FAULT (R486)
  ⟨0x1c0068, 0x0, 1, 0x0, 1, .free, [⟨27, 0, .ro, .val 0⟩, ⟨29, 28, .ro, .val 0⟩]⟩,
  -- MC_REG_STATE (R487)
  ⟨0x1c0100, 0x10, 16, 0x0, 1, .free, [⟨7, 0, .ro, .val 0⟩, ⟨8, 8, .ro, .val 0⟩, ⟨9, 9, .ro, .val 0⟩, ⟨10, 10, .ro, .val 1⟩, ⟨16, 11, .ro, .val 0⟩]⟩,
  -- MC_REG_REFRESHES (R487)
  ⟨0x1c0104, 0x10, 16, 0x0, 1, .free, [⟨31, 0, .ro, .val 0⟩]⟩,
  -- MC_REG_NEIGHBOURS (R487)
  ⟨0x1c0108, 0x10, 16, 0x0, 1, .free, [⟨31, 0, .ro, .val 0⟩]⟩,
  -- MC_REG_MAX (R487)
  ⟨0x1c010c, 0x10, 16, 0x0, 1, .free, [⟨7, 0, .ro, .val 0⟩, ⟨31, 8, .ro, .val 0⟩]⟩
]

/-- Registers of block DM (16_dma_checks.md). -/
def tblDM : List RegDesc := [
  -- DM_STATUS (R510)
  ⟨0x1d0000, 0x0, 1, 0x0, 1, .free, [⟨7, 0, .ro, .val 0⟩, ⟨15, 8, .ro, .val 0⟩]⟩,
  -- DM_EVENTS (R510)
  ⟨0x1d0004, 0x0, 1, 0x0, 1, .free, [⟨0, 0, .w1c, .val 0⟩, ⟨1, 1, .w1c, .val 0⟩, ⟨2, 2, .w1c, .val 0⟩, ⟨3, 3, .w1c, .val 0⟩, ⟨4, 4, .w1c, .val 0⟩, ⟨5, 5, .w1c, .val 0⟩]⟩,
  -- DM_STOPPED (R510)
  ⟨0x1d0010, 0x4, 4, 0x0, 1, .free, [⟨31, 0, .ro, .val 0⟩]⟩,
  -- DM_CH_CFG (R510)
  ⟨0x1d1000, 0x40, 128, 0x0, 1, .dm, [⟨2, 0, .ro, .plan⟩, ⟨3, 3, .ro, .plan⟩, ⟨4, 4, .ro, .plan⟩, ⟨8, 5, .ro, .plan⟩, ⟨24, 9, .ro, .plan⟩]⟩,
  -- DM_CH_STATUS (R510)
  ⟨0x1d1004, 0x40, 128, 0x0, 1, .dm, [⟨1, 0, .ro, .val 0⟩, ⟨4, 2, .ro, .val 0⟩, ⟨12, 5, .ro, .val 0⟩, ⟨13, 13, .ro, .val 0⟩]⟩,
  -- DM_CH_EVENTS (R510)
  ⟨0x1d1008, 0x40, 128, 0x0, 1, .dm, [⟨0, 0, .w1c, .val 0⟩, ⟨1, 1, .w1c, .val 0⟩, ⟨2, 2, .w1c, .val 0⟩, ⟨3, 3, .w1c, .val 0⟩, ⟨4, 4, .w1c, .val 0⟩, ⟨5, 5, .w1c, .val 0⟩]⟩,
  -- DM_CH_CTRL (R510)
  ⟨0x1d100c, 0x40, 128, 0x0, 1, .dm, [⟨0, 0, .wo, .val 0⟩, ⟨1, 1, .wo, .val 0⟩]⟩,
  -- DM_CH_ACTIVATIONS (R510)
  ⟨0x1d1010, 0x40, 128, 0x0, 1, .dm, [⟨31, 0, .ro, .val 0⟩]⟩,
  -- DM_CH_LAST_COUNT (R510)
  ⟨0x1d1014, 0x40, 128, 0x0, 1, .dm, [⟨19, 0, .ro, .val 0⟩]⟩,
  -- DM_CH_FAULT_AT (R510)
  ⟨0x1d1018, 0x40, 128, 0x0, 1, .dm, [⟨15, 0, .ro, .val 0⟩, ⟨31, 16, .ro, .val 0⟩]⟩,
  -- DM_CH_MISSED (R510)
  ⟨0x1d101c, 0x40, 128, 0x0, 1, .dm, [⟨31, 0, .ro, .val 0⟩]⟩,
  -- DM_CH_UNDERRUNS (R510)
  ⟨0x1d1020, 0x40, 128, 0x0, 1, .dm, [⟨31, 0, .ro, .val 0⟩]⟩,
  -- DM_CH_WAIT_SKIPS (R510)
  ⟨0x1d1024, 0x40, 128, 0x0, 1, .dm, [⟨31, 0, .ro, .val 0⟩]⟩,
  -- DM_CH_ECC (R510)
  ⟨0x1d1028, 0x40, 128, 0x0, 1, .dm, [⟨31, 0, .ro, .val 0⟩]⟩,
  -- DM_CH_RSVD (R510)
  ⟨0x1d102c, 0x40, 128, 0x4, 5, .dm, []⟩,
  -- DM_SQ_CFG (R510)
  ⟨0x1d4000, 0x10, 512, 0x0, 1, .dsq, [⟨0, 0, .ro, .plan⟩, ⟨1, 1, .ro, .plan⟩, ⟨26, 2, .ro, .plan⟩]⟩,
  -- DM_SQ_FILL (R510)
  ⟨0x1d4004, 0x10, 512, 0x0, 1, .dsq, [⟨24, 0, .ro, .val 0⟩, ⟨25, 25, .ro, .val 0⟩]⟩,
  -- DM_SQ_HIGH (R510)
  ⟨0x1d4008, 0x10, 512, 0x0, 1, .dsq, [⟨31, 0, .ro, .plan⟩]⟩,
  -- DM_SQ_LOW (R510)
  ⟨0x1d400c, 0x10, 512, 0x0, 1, .dsq, [⟨31, 0, .ro, .plan⟩]⟩
]

/-- Registers of block CK (16_dma_checks.md). -/
def tblCK : List RegDesc := [
  -- CK_STATUS (R510)
  ⟨0x1e0000, 0x0, 1, 0x0, 1, .free, [⟨6, 0, .ro, .val 0⟩]⟩,
  -- CK_EVENTS (R510)
  ⟨0x1e0004, 0x0, 1, 0x0, 1, .free, [⟨0, 0, .w1c, .val 0⟩, ⟨1, 1, .w1c, .val 0⟩, ⟨2, 2, .w1c, .val 0⟩]⟩,
  -- CK_U_CFG (R510)
  ⟨0x1e0100, 0x40, 64, 0x0, 1, .ck, [⟨5, 0, .rw, .val 0⟩, ⟨6, 6, .rw, .val 0⟩, ⟨7, 7, .rw, .val 0⟩, ⟨8, 8, .rw, .val 0⟩, ⟨9, 9, .rw, .val 0⟩, ⟨11, 10, .rw, .val 0⟩, ⟨12, 12, .rw, .val 0⟩, ⟨28, 13, .rw, .val 0⟩, ⟨29, 29, .ro, .val 0⟩]⟩,
  -- CK_U_POLY_LO (R510)
  ⟨0x1e0104, 0x40, 64, 0x0, 1, .ck, [⟨31, 0, .rw, .val 0⟩]⟩,
  -- CK_U_POLY_HI (R510)
  ⟨0x1e0108, 0x40, 64, 0x0, 1, .ck, [⟨31, 0, .rw, .val 0⟩]⟩,
  -- CK_U_INIT_LO (R510)
  ⟨0x1e010c, 0x40, 64, 0x0, 1, .ck, [⟨31, 0, .rw, .val 0⟩]⟩,
  -- CK_U_INIT_HI (R510)
  ⟨0x1e0110, 0x40, 64, 0x0, 1, .ck, [⟨31, 0, .rw, .val 0⟩]⟩,
  -- CK_U_VALUE_LO (R510)
  ⟨0x1e0114, 0x40, 64, 0x0, 1, .ck, [⟨31, 0, .rw, .val 0⟩]⟩,
  -- CK_U_VALUE_HI (R510)
  ⟨0x1e0118, 0x40, 64, 0x0, 1, .ck, [⟨31, 0, .rw, .val 0⟩]⟩,
  -- CK_U_RESULT_LO (R510)
  ⟨0x1e011c, 0x40, 64, 0x0, 1, .ck, [⟨31, 0, .ro, .val 0⟩]⟩,
  -- CK_U_RESULT_HI (R510)
  ⟨0x1e0120, 0x40, 64, 0x0, 1, .ck, [⟨31, 0, .ro, .val 0⟩]⟩,
  -- CK_U_BYTES (R510)
  ⟨0x1e0124, 0x40, 64, 0x0, 1, .ck, [⟨31, 0, .ro, .val 0⟩]⟩,
  -- CK_U_ALIVE_LAST (R510)
  ⟨0x1e0128, 0x40, 64, 0x0, 1, .ck, [⟨31, 0, .ro, .val 0⟩]⟩,
  -- CK_U_GAPS (R510)
  ⟨0x1e012c, 0x40, 64, 0x0, 1, .ck, [⟨31, 0, .ro, .val 0⟩]⟩,
  -- CK_U_REPEATS (R510)
  ⟨0x1e0130, 0x40, 64, 0x0, 1, .ck, [⟨31, 0, .ro, .val 0⟩]⟩,
  -- CK_U_TAKES (R510)
  ⟨0x1e0134, 0x40, 64, 0x0, 1, .ck, [⟨31, 0, .ro, .val 0⟩]⟩,
  -- CK_U_FLAGS (R510)
  ⟨0x1e0138, 0x40, 64, 0x0, 1, .ck, [⟨0, 0, .ro, .val 0⟩, ⟨1, 1, .ro, .val 1⟩]⟩,
  -- CK_U_RSVD (R510)
  ⟨0x1e013c, 0x40, 64, 0x0, 1, .ck, []⟩
]

/-- Registers of block PA (17_parlour.md). -/
def tblPA : List RegDesc := [
  -- PA_STATUS (R529)
  ⟨0x1f0000, 0x0, 1, 0x0, 1, .free, [⟨12, 0, .ro, .val 0⟩, ⟨23, 13, .ro, .val 0⟩]⟩,
  -- PA_EVENTS (R529)
  ⟨0x1f0004, 0x0, 1, 0x0, 1, .free, [⟨0, 0, .w1c, .val 0⟩, ⟨1, 1, .w1c, .val 0⟩, ⟨2, 2, .w1c, .val 0⟩, ⟨3, 3, .w1c, .val 0⟩, ⟨4, 4, .w1c, .val 0⟩]⟩,
  -- PA_LAST_FAULT (R529)
  ⟨0x1f0008, 0x0, 1, 0x0, 1, .free, [⟨11, 0, .ro, .val 0⟩, ⟨14, 12, .ro, .val 0⟩, ⟨31, 16, .ro, .val 0⟩]⟩,
  -- PA_RELEASE (R529)
  ⟨0x1f000c, 0x0, 1, 0x0, 1, .free, [⟨11, 0, .wo, .val 0⟩]⟩,
  -- PA_RESTART (R529)
  ⟨0x1f0010, 0x0, 1, 0x0, 1, .free, [⟨11, 0, .wo, .val 0⟩]⟩,
  -- PA_OVERRUNS (R529)
  ⟨0x1f0014, 0x0, 1, 0x0, 1, .free, [⟨31, 0, .ro, .val 0⟩]⟩,
  -- PA_LATE (R529)
  ⟨0x1f0018, 0x0, 1, 0x0, 1, .free, [⟨31, 0, .ro, .val 0⟩]⟩,
  -- PA_TIMEOUTS (R529)
  ⟨0x1f001c, 0x0, 1, 0x0, 1, .free, [⟨31, 0, .ro, .val 0⟩]⟩,
  -- PA_OVERPOSTS (R529)
  ⟨0x1f0020, 0x0, 1, 0x0, 1, .free, [⟨31, 0, .ro, .val 0⟩]⟩,
  -- PA_CORE_RUN (R530)
  ⟨0x1f0100, 0x20, 8, 0x0, 1, .free, [⟨11, 0, .ro, .val 0⟩, ⟨12, 12, .ro, .val 0⟩]⟩,
  -- PA_CORE_SWITCHES (R530)
  ⟨0x1f0104, 0x20, 8, 0x0, 1, .free, [⟨31, 0, .ro, .val 0⟩]⟩,
  -- PA_CORE_STALL_HITS (R530)
  ⟨0x1f0108, 0x20, 8, 0x0, 1, .free, [⟨31, 0, .ro, .val 0⟩]⟩,
  -- PA_CORE_SPILLS (R530)
  ⟨0x1f010c, 0x20, 8, 0x0, 1, .free, [⟨31, 0, .ro, .val 0⟩]⟩,
  -- PA_CORE_BUSY (R530)
  ⟨0x1f0110, 0x20, 8, 0x0, 1, .free, [⟨31, 0, .ro, .val 0⟩]⟩,
  -- PA_CORE_REFUSED (R530)
  ⟨0x1f0114, 0x20, 8, 0x0, 1, .free, [⟨23, 0, .ro, .val 0⟩, ⟨31, 24, .ro, .val 0⟩]⟩,
  -- PA_CORE_RSVD (R530)
  ⟨0x1f0118, 0x20, 8, 0x4, 2, .free, []⟩,
  -- PA_CORE_WIN (R529)
  ⟨0x1f0400, 0x20, 8, 0x4, 8, .free, [⟨5, 0, .ro, .val 0⟩, ⟨6, 6, .ro, .val 0⟩]⟩,
  -- PA_TH_STATE (R530)
  ⟨0x1f8000, 0x8, 4096, 0x0, 1, .free, [⟨2, 0, .ro, .val 0⟩, ⟨5, 3, .ro, .plan⟩, ⟨10, 6, .ro, .plan⟩, ⟨11, 11, .ro, .plan⟩, ⟨15, 12, .ro, .val 0⟩, ⟨18, 16, .ro, .val 0⟩]⟩,
  -- PA_TH_COUNT (R530)
  ⟨0x1f8004, 0x8, 4096, 0x0, 1, .free, [⟨15, 0, .ro, .plan⟩, ⟨31, 16, .ro, .val 0⟩]⟩
]

/-- Registers of block MR (18_pairing.md). -/
def tblMR : List RegDesc := [
  -- MR_STATUS (R557)
  ⟨0x200000, 0x0, 1, 0x0, 1, .mr, [⟨0, 0, .ro, .val 0⟩, ⟨1, 1, .ro, .val 0⟩, ⟨2, 2, .ro, .val 0⟩, ⟨3, 3, .ro, .val 0⟩, ⟨15, 8, .ro, .val 0⟩, ⟨23, 16, .ro, .val 0⟩]⟩,
  -- MR_EVENTS (R557)
  ⟨0x200004, 0x0, 1, 0x0, 1, .mr, [⟨0, 0, .w1c, .val 0⟩, ⟨1, 1, .w1c, .val 0⟩, ⟨2, 2, .w1c, .val 0⟩, ⟨3, 3, .w1c, .val 0⟩, ⟨4, 4, .w1c, .val 0⟩, ⟨5, 5, .w1c, .val 0⟩, ⟨6, 6, .w1c, .val 0⟩, ⟨7, 7, .w1c, .val 0⟩, ⟨8, 8, .w1c, .val 0⟩]⟩,
  -- MR_CTRL (R557)
  ⟨0x200008, 0x0, 1, 0x0, 1, .mr, [⟨2, 0, .wo, .val 0⟩, ⟨3, 3, .wo, .val 0⟩, ⟨4, 4, .wo, .val 0⟩]⟩,
  -- MR_LINK (R557)
  ⟨0x20000c, 0x0, 1, 0x0, 1, .mr, [⟨9, 0, .ro, .val 0⟩, ⟨13, 10, .ro, .val 0⟩, ⟨29, 14, .ro, .val 0⟩]⟩,
  -- MR_REC_ERR (R556)
  ⟨0x200010, 0x0, 1, 0x0, 1, .mr, [⟨31, 0, .ro, .val 0⟩]⟩,
  -- MR_LINK_DOWNS (R556)
  ⟨0x200014, 0x0, 1, 0x0, 1, .mr, [⟨31, 0, .ro, .val 0⟩]⟩,
  -- MR_WHEY_ERR (R556)
  ⟨0x200018, 0x0, 1, 0x0, 1, .mr, [⟨31, 0, .ro, .val 0⟩]⟩,
  -- MR_MATCHED (R556)
  ⟨0x20001c, 0x0, 1, 0x0, 1, .mr, [⟨31, 0, .ro, .val 0⟩]⟩,
  -- MR_DIVERGED (R556)
  ⟨0x200020, 0x0, 1, 0x0, 1, .mr, [⟨31, 0, .ro, .val 0⟩]⟩,
  -- MR_UNCHECKED (R556)
  ⟨0x200024, 0x0, 1, 0x0, 1, .mr, [⟨31, 0, .ro, .val 0⟩]⟩,
  -- MR_LAST_DIV (R557)
  ⟨0x200028, 0x0, 1, 0x0, 1, .mr, [⟨7, 0, .ro, .val 0⟩, ⟨18, 8, .ro, .val 0⟩, ⟨19, 19, .ro, .val 0⟩, ⟨20, 20, .ro, .val 0⟩, ⟨31, 24, .ro, .val 0⟩]⟩,
  -- MR_PAIL_CFG (R558)
  ⟨0x200100, 0x20, 8, 0x0, 1, .mr, [⟨0, 0, .ro, .plan⟩, ⟨6, 1, .ro, .plan⟩, ⟨11, 7, .ro, .plan⟩, ⟨12, 12, .ro, .plan⟩, ⟨13, 13, .ro, .plan⟩, ⟨14, 14, .ro, .plan⟩]⟩,
  -- MR_PAIL_STATE (R558)
  ⟨0x200104, 0x20, 8, 0x0, 1, .mr, [⟨2, 0, .ro, .val 0⟩, ⟨3, 3, .ro, .val 0⟩, ⟨4, 4, .ro, .val 0⟩, ⟨17, 5, .ro, .val 0⟩, ⟨30, 18, .ro, .val 0⟩]⟩,
  -- MR_PAIL_TAKES (R558)
  ⟨0x200108, 0x20, 8, 0x0, 1, .mr, [⟨31, 0, .ro, .val 0⟩]⟩,
  -- MR_PAIL_HANDOVERS (R558)
  ⟨0x20010c, 0x20, 8, 0x0, 1, .mr, [⟨31, 0, .ro, .val 0⟩]⟩,
  -- MR_PAIL_RESENT (R558)
  ⟨0x200110, 0x20, 8, 0x0, 1, .mr, [⟨31, 0, .ro, .val 0⟩]⟩,
  -- MR_PAIL_TAKE (R558)
  ⟨0x200114, 0x20, 8, 0x0, 1, .mr, [⟨12, 0, .ro, .val 0⟩, ⟨31, 13, .ro, .val 0⟩]⟩,
  -- MR_PAIL_RSVD (R558)
  ⟨0x200118, 0x20, 8, 0x4, 2, .mr, []⟩,
  -- MR_EC (R558)
  ⟨0x200400, 0x4, 256, 0x0, 1, .mr, [⟨0, 0, .ro, .plan⟩, ⟨1, 1, .ro, .val 0⟩, ⟨2, 2, .ro, .val 0⟩, ⟨3, 3, .ro, .val 0⟩, ⟨31, 16, .ro, .val 0⟩]⟩
]

/-- Registers of block SC (19_security.md). -/
def tblSC : List RegDesc := [
  -- SC_STATUS (R579)
  ⟨0x210000, 0x0, 1, 0x0, 1, .free, [⟨3, 0, .ro, .fused⟩, ⟨7, 4, .ro, .fused⟩, ⟨11, 8, .ro, .fused⟩, ⟨12, 12, .ro, .val 0⟩, ⟨13, 13, .ro, .boot⟩, ⟨14, 14, .ro, .boot⟩, ⟨15, 15, .ro, .val 0⟩, ⟨16, 16, .ro, .val 0⟩, ⟨17, 17, .ro, .val 0⟩, ⟨18, 18, .ro, .val 0⟩, ⟨19, 19, .ro, .val 0⟩, ⟨20, 20, .ro, .val 0⟩]⟩,
  -- SC_EVENTS (R578)
  ⟨0x210004, 0x0, 1, 0x0, 1, .free, [⟨0, 0, .w1c, .val 0⟩, ⟨1, 1, .w1c, .val 0⟩, ⟨2, 2, .w1c, .val 0⟩, ⟨3, 3, .w1c, .val 0⟩, ⟨4, 4, .w1c, .val 0⟩, ⟨5, 5, .w1c, .val 0⟩, ⟨6, 6, .w1c, .val 0⟩, ⟨7, 7, .w1c, .val 0⟩]⟩,
  -- SC_CTRL (R578)
  ⟨0x210008, 0x0, 1, 0x0, 1, .free, [⟨0, 0, .wo, .val 0⟩, ⟨1, 1, .wo, .val 0⟩, ⟨2, 2, .wo, .val 0⟩, ⟨3, 3, .wo, .val 0⟩, ⟨4, 4, .wo, .val 0⟩, ⟨5, 5, .wo, .val 0⟩]⟩,
  -- SC_BOOT (R578)
  ⟨0x21000c, 0x0, 1, 0x0, 1, .free, [⟨3, 0, .ro, .boot⟩, ⟨7, 4, .ro, .boot⟩, ⟨8, 8, .ro, .boot⟩, ⟨15, 12, .ro, .val 0⟩]⟩,
  -- SC_TOKEN_RESULT (R578)
  ⟨0x210010, 0x0, 1, 0x0, 1, .free, [⟨3, 0, .ro, .val 0⟩, ⟨15, 8, .ro, .val 0⟩]⟩,
  -- SC_ROLLBACK (R578)
  ⟨0x210014, 0x0, 1, 0x0, 1, .free, [⟨6, 0, .ro, .fused⟩, ⟨15, 8, .ro, .fused⟩]⟩,
  -- SC_FW_VERSION (R578)
  ⟨0x210018, 0x0, 1, 0x0, 1, .free, [⟨31, 0, .ro, .boot⟩]⟩,
  -- SC_TEST_LEFT (R578)
  ⟨0x21001c, 0x0, 1, 0x0, 1, .free, [⟨31, 0, .ro, .val 0⟩]⟩,
  -- SC_SERIAL (R578)
  ⟨0x210020, 0x4, 4, 0x0, 1, .free, [⟨31, 0, .ro, .fused⟩]⟩,
  -- SC_DOC_SEL (R578)
  ⟨0x210030, 0x0, 1, 0x0, 1, .free, [⟨0, 0, .rw, .val 0⟩]⟩,
  -- SC_TOKEN_NONCE (R578)
  ⟨0x210040, 0x4, 8, 0x0, 1, .sc0, [⟨31, 0, .ro, .boot⟩]⟩,
  -- SC_QUOTE_NONCE (R578)
  ⟨0x210060, 0x4, 8, 0x0, 1, .free, [⟨31, 0, .rw, .val 0⟩]⟩,
  -- SC_IDKEY (R578)
  ⟨0x210080, 0x4, 16, 0x0, 1, .free, [⟨31, 0, .ro, .fused⟩]⟩,
  -- SC_OWNER (R578)
  ⟨0x210100, 0x40, 4, 0x4, 16, .sc0, [⟨31, 0, .ro, .fused⟩]⟩,
  -- SC_KEM (R578)
  ⟨0x210400, 0x4, 392, 0x0, 1, .sc0, [⟨31, 0, .ro, .fused⟩]⟩,
  -- SC_DOC (R578)
  ⟨0x212000, 0x4, 14336, 0x0, 1, .free, [⟨31, 0, .ro, .fused⟩]⟩
]

/-- Registers of block ST (20_self_test.md). -/
def tblST : List RegDesc := [
  -- ST_STATUS (R605)
  ⟨0x220000, 0x0, 1, 0x0, 1, .free, [⟨0, 0, .ro, .val 0⟩, ⟨1, 1, .ro, .val 0⟩, ⟨2, 2, .ro, .val 0⟩, ⟨3, 3, .ro, .val 0⟩, ⟨4, 4, .ro, .val 0⟩]⟩,
  -- ST_EVENTS (R605)
  ⟨0x220004, 0x0, 1, 0x0, 1, .free, [⟨0, 0, .w1c, .val 0⟩, ⟨1, 1, .w1c, .val 0⟩, ⟨2, 2, .w1c, .val 0⟩, ⟨3, 3, .w1c, .val 0⟩, ⟨4, 4, .w1c, .val 0⟩, ⟨5, 5, .w1c, .val 0⟩, ⟨6, 6, .w1c, .val 0⟩, ⟨7, 7, .w1c, .val 0⟩]⟩,
  -- ST_CTRL (R605)
  ⟨0x220008, 0x0, 1, 0x0, 1, .free, [⟨0, 0, .wo, .val 0⟩]⟩,
  -- ST_ONLINE (R605)
  ⟨0x22000c, 0x0, 1, 0x0, 1, .free, [⟨0, 0, .rw, .val 1⟩]⟩,
  -- ST_STARTUP_MS (R605)
  ⟨0x220010, 0x0, 1, 0x0, 1, .free, [⟨31, 0, .ro, .val 0⟩]⟩,
  -- ST_SLICES (R605)
  ⟨0x220014, 0x0, 1, 0x0, 1, .free, [⟨31, 0, .ro, .val 0⟩]⟩,
  -- ST_ABANDONED (R605)
  ⟨0x220018, 0x0, 1, 0x0, 1, .free, [⟨31, 0, .ro, .val 0⟩]⟩,
  -- ST_ONLINE_FAILS (R605)
  ⟨0x22001c, 0x0, 1, 0x0, 1, .free, [⟨31, 0, .ro, .val 0⟩]⟩,
  -- ST_FUSE_LEFT (R605)
  ⟨0x220020, 0x0, 1, 0x0, 1, .free, [⟨6, 0, .ro, .fused⟩, ⟨17, 7, .ro, .fused⟩, ⟨20, 18, .ro, .fused⟩]⟩,
  -- ST_RESULT (R605)
  ⟨0x220040, 0x4, 8, 0x0, 1, .free, [⟨1, 0, .ro, .val 0⟩, ⟨15, 2, .ro, .val 0⟩, ⟨31, 16, .ro, .val 0⟩]⟩,
  -- ST_REFCLK (R605)
  ⟨0x220080, 0x4, 8, 0x0, 1, .free, [⟨31, 0, .ro, .val 0⟩]⟩,
  -- ST_FAIL_A (R585)
  ⟨0x220100, 0x10, 16, 0x0, 1, .free, [⟨3, 0, .ro, .val 0⟩, ⟨4, 4, .ro, .val 0⟩, ⟨5, 5, .ro, .val 0⟩, ⟨6, 6, .ro, .val 0⟩, ⟨31, 16, .ro, .val 0⟩]⟩,
  -- ST_FAIL_ADDR (R585)
  ⟨0x220104, 0x10, 16, 0x0, 1, .free, [⟨31, 0, .ro, .val 0⟩]⟩,
  -- ST_FAIL_BIT (R585)
  ⟨0x220108, 0x10, 16, 0x0, 1, .free, [⟨6, 0, .ro, .val 0⟩, ⟨15, 8, .ro, .val 0⟩, ⟨23, 16, .ro, .val 0⟩]⟩,
  -- ST_FAIL_REC (R585)
  ⟨0x22010c, 0x10, 16, 0x0, 1, .free, [⟨31, 0, .ro, .val 0⟩]⟩,
  -- ST_PERT_CTRL (R606)
  ⟨0x220200, 0x20, 16, 0x0, 1, .free, [⟨0, 0, .rw, .val 0⟩, ⟨1, 1, .ro, .val 0⟩, ⟨5, 2, .rw, .val 0⟩, ⟨6, 6, .rw, .val 0⟩, ⟨9, 7, .rw, .val 0⟩]⟩,
  -- ST_PERT_TARGET (R606)
  ⟨0x220204, 0x20, 16, 0x0, 1, .free, [⟨15, 0, .rw, .val 0⟩, ⟨23, 16, .rw, .val 0⟩]⟩,
  -- ST_PERT_AMOUNT (R606)
  ⟨0x220208, 0x20, 16, 0x0, 1, .free, [⟨31, 0, .rw, .val 0⟩]⟩,
  -- ST_PERT_START (R606)
  ⟨0x22020c, 0x20, 16, 0x0, 1, .free, [⟨28, 0, .rw, .val 0⟩]⟩,
  -- ST_PERT_FRAME (R606)
  ⟨0x220210, 0x20, 16, 0x0, 1, .free, [⟨31, 0, .rw, .val 0⟩]⟩,
  -- ST_PERT_DURATION (R606)
  ⟨0x220214, 0x20, 16, 0x0, 1, .free, [⟨15, 0, .rw, .val 0⟩]⟩,
  -- ST_PERT_PERIOD (R606)
  ⟨0x220218, 0x20, 16, 0x0, 1, .free, [⟨15, 0, .rw, .val 0⟩]⟩,
  -- ST_PERT_ACTS (R606)
  ⟨0x22021c, 0x20, 16, 0x0, 1, .free, [⟨31, 0, .ro, .val 0⟩]⟩
]

/-- Registers of block HB (20_self_test.md). -/
def tblHB : List RegDesc := [
  -- HB_STATUS (R607)
  ⟨0x230000, 0x0, 1, 0x0, 1, .hb, [⟨0, 0, .ro, .val 0⟩, ⟨1, 1, .ro, .val 0⟩, ⟨4, 2, .ro, .val 0⟩, ⟨5, 5, .ro, .val 0⟩]⟩,
  -- HB_EVENTS (R607)
  ⟨0x230004, 0x0, 1, 0x0, 1, .hb, [⟨0, 0, .w1c, .val 0⟩, ⟨1, 1, .w1c, .val 0⟩, ⟨2, 2, .w1c, .val 0⟩]⟩,
  -- HB_CTRL (R607)
  ⟨0x230008, 0x0, 1, 0x0, 1, .hb, [⟨0, 0, .wo, .val 0⟩, ⟨1, 1, .wo, .val 0⟩]⟩,
  -- HB_NEWEST (R607)
  ⟨0x23000c, 0x0, 1, 0x0, 1, .hb, [⟨31, 0, .ro, .val 0⟩]⟩,
  -- HB_OLDEST (R607)
  ⟨0x230010, 0x0, 1, 0x0, 1, .hb, [⟨31, 0, .ro, .val 0⟩]⟩,
  -- HB_SNAP_SEQ (R607)
  ⟨0x230014, 0x0, 1, 0x0, 1, .hb, [⟨31, 0, .rw, .val 0⟩]⟩,
  -- HB_SNAP_STATUS (R607)
  ⟨0x230018, 0x0, 1, 0x0, 1, .hb, [⟨5, 0, .ro, .val 0⟩, ⟨12, 6, .ro, .val 0⟩]⟩,
  -- HB_TIME (R607)
  ⟨0x23001c, 0x0, 1, 0x0, 1, .hb, [⟨31, 0, .ro, .val 0⟩]⟩,
  -- HB_CYCLES (R607)
  ⟨0x230020, 0x0, 1, 0x0, 1, .hb, [⟨23, 0, .ro, .val 0⟩]⟩,
  -- HB_LOST (R607)
  ⟨0x230024, 0x0, 1, 0x0, 1, .hb, [⟨31, 0, .ro, .val 0⟩]⟩,
  -- HB_FLASH_ERR (R607)
  ⟨0x230028, 0x0, 1, 0x0, 1, .hb, [⟨31, 0, .ro, .val 0⟩]⟩,
  -- HB_LIFE_FUSES (R607)
  ⟨0x23002c, 0x0, 1, 0x0, 1, .hb, [⟨8, 0, .ro, .fused⟩]⟩,
  -- HB_SNAP (R607)
  ⟨0x231000, 0x4, 512, 0x0, 1, .hb, [⟨31, 0, .ro, .val 0⟩]⟩
]

/-- Registers of block PN (22_panel.md). -/
def tblPN : List RegDesc := [
  -- PN_STATUS (R648)
  ⟨0x240000, 0x0, 1, 0x0, 1, .pn, [⟨8, 0, .ro, .val 0⟩, ⟨9, 9, .ro, .val 0⟩]⟩,
  -- PN_EVENTS (R648)
  ⟨0x240004, 0x0, 1, 0x0, 1, .pn, [⟨0, 0, .w1c, .val 0⟩, ⟨1, 1, .w1c, .val 0⟩, ⟨2, 2, .w1c, .val 0⟩]⟩,
  -- PN_CFG (R648)
  ⟨0x240008, 0x0, 1, 0x0, 1, .pn, [⟨5, 0, .ro, .val 5⟩, ⟨15, 6, .ro, .val 50⟩, ⟨27, 16, .ro, .plan⟩]⟩,
  -- PN_EVQ0 (R644)
  ⟨0x24000c, 0x0, 1, 0x0, 1, .pn, [⟨3, 0, .ro, .val 0⟩, ⟨9, 4, .ro, .val 0⟩, ⟨31, 16, .ro, .val 0⟩]⟩,
  -- PN_EVQ1 (R644)
  ⟨0x240010, 0x0, 1, 0x0, 1, .pn, [⟨12, 0, .ro, .val 0⟩, ⟨31, 13, .ro, .val 0⟩]⟩,
  -- PN_KEYS_LO (R648)
  ⟨0x240014, 0x0, 1, 0x0, 1, .pn, [⟨31, 0, .ro, .val 0⟩]⟩,
  -- PN_KEYS_HI (R648)
  ⟨0x240018, 0x0, 1, 0x0, 1, .pn, [⟨31, 0, .ro, .val 0⟩]⟩,
  -- PN_INPUTS (R648)
  ⟨0x24001c, 0x0, 1, 0x0, 1, .pn, [⟨15, 0, .ro, .val 0⟩, ⟨23, 16, .ro, .val 0⟩]⟩,
  -- PN_ENC (R648)
  ⟨0x240020, 0x4, 4, 0x0, 1, .pn, [⟨15, 0, .ro, .val 0⟩]⟩,
  -- PN_GHOSTS (R648)
  ⟨0x240030, 0x0, 1, 0x0, 1, .pn, [⟨31, 0, .ro, .val 0⟩]⟩,
  -- PN_ENC_ERR (R648)
  ⟨0x240034, 0x0, 1, 0x0, 1, .pn, [⟨31, 0, .ro, .val 0⟩]⟩,
  -- PN_TOUCH_DROPS (R648)
  ⟨0x240038, 0x0, 1, 0x0, 1, .pn, [⟨31, 0, .ro, .val 0⟩]⟩,
  -- PN_EVQ_DROPS (R648)
  ⟨0x24003c, 0x0, 1, 0x0, 1, .pn, [⟨31, 0, .ro, .val 0⟩]⟩,
  -- PN_OUT (R649)
  ⟨0x240100, 0x4, 32, 0x0, 1, .pn, [⟨7, 0, .rw, .val 0⟩, ⟨8, 8, .ro, .plan⟩]⟩
]

/-- The blocks of R435 in the order of its table (SY = 0 to PN = 22): first address, first address after, registers. -/
def regBlocks : List (Nat × Nat × List RegDesc) := [
  (0x0, 0x10000, tblSY),
  (0x10000, 0x20000, tblPW),
  (0x20000, 0x30000, tblTB),
  (0x30000, 0x40000, tblPL),
  (0x40000, 0x80000, tblVT),
  (0x80000, 0x90000, tblEN),
  (0x90000, 0xa0000, tblRC),
  (0xa0000, 0xb0000, tblCL),
  (0xb0000, 0x100000, tblCH),
  (0x100000, 0x180000, tblLN),
  (0x180000, 0x190000, tblNW),
  (0x190000, 0x1a0000, tblTQ),
  (0x1a0000, 0x1b0000, tblSM),
  (0x1b0000, 0x1c0000, tblAU),
  (0x1c0000, 0x1d0000, tblMC),
  (0x1d0000, 0x1e0000, tblDM),
  (0x1e0000, 0x1f0000, tblCK),
  (0x1f0000, 0x200000, tblPA),
  (0x200000, 0x210000, tblMR),
  (0x210000, 0x220000, tblSC),
  (0x220000, 0x230000, tblST),
  (0x230000, 0x240000, tblHB),
  (0x240000, 0x250000, tblPN)]

/-- The block of an address (R435), counted from SY = 0; none outside every range. -/
def blockOf (a : Nat) : Option Nat := (regBlocks.findIdx? fun b => decide (b.1 ≤ a ∧ a < b.2.1))

/-- The register family at an address and its indices. -/
def findReg (a : Nat) : Option (RegDesc × Nat × Nat) :=
  match regBlocks.find? fun b => decide (b.1 ≤ a ∧ a < b.2.1) with
  | none => none
  | some b => b.2.2.findSome? fun r => (regIndex r a).map fun ij => (r, ij.1, ij.2)

/-- The value a field contributes to its register after reset, as far as the spec gives a number. -/
def fieldReset (f : FieldDesc) : Nat :=
  match f.rst with
  | .val n => (n % 2 ^ (f.hi - f.lo + 1)) <<< f.lo
  | _ => 0

/-- What a register holds after reset before anything loads it: the spec's reset values, 0 elsewhere. -/
def regDefault (a : Nat) : W32 :=
  match findReg a with
  | none => 0
  | some (r, _, _) => BitVec.ofNat 32 (r.fields.foldl (fun n f => n ||| fieldReset f) 0)

/-! ### Field names -/

namespace R

def SY_VARIANT_CODE : Fld := ⟨0x4, 0x0, 0x0, 7, 0⟩
def SY_VARIANT_PACKAGE : Fld := ⟨0x4, 0x0, 0x0, 9, 8⟩
def SY_VARIANT_DUAL : Fld := ⟨0x4, 0x0, 0x0, 10, 10⟩
def SY_VARIANT_VVC : Fld := ⟨0x4, 0x0, 0x0, 11, 11⟩
def SY_VARIANT_GRADE : Fld := ⟨0x4, 0x0, 0x0, 12, 12⟩
def SY_VARIANT_INSTEP : Fld := ⟨0x4, 0x0, 0x0, 14, 13⟩
def SY_VARIANT_DIE_ID : Fld := ⟨0x4, 0x0, 0x0, 15, 15⟩
def SY_VARIANT_LANES : Fld := ⟨0x4, 0x0, 0x0, 25, 16⟩
def SY_VARIANT_PORTS : Fld := ⟨0x4, 0x0, 0x0, 27, 26⟩
def SY_FLASH_SIZE_SIZE : Fld := ⟨0x8, 0x0, 0x0, 15, 0⟩
def SY_FLASH_SIZE_ASSUMED : Fld := ⟨0x8, 0x0, 0x0, 16, 16⟩
def SY_TJ_STATUS_TJ_HIGH : Fld := ⟨0x100, 0x0, 0x0, 0, 0⟩
def SY_TJ_STATUS_COLD : Fld := ⟨0x100, 0x0, 0x0, 1, 1⟩
def SY_TJ_STATUS_SENSOR_FAULT : Fld := ⟨0x100, 0x0, 0x0, 2, 2⟩
def SY_TJ_STATUS_HOTTEST : Fld := ⟨0x100, 0x0, 0x0, 5, 3⟩
def SY_TJ_STATUS_LIFE_OVER : Fld := ⟨0x100, 0x0, 0x0, 6, 6⟩
def SY_TJ_EVENTS_TJ_HIGH : Fld := ⟨0x104, 0x0, 0x0, 0, 0⟩
def SY_TJ_EVENTS_TJ_OK : Fld := ⟨0x104, 0x0, 0x0, 1, 1⟩
def SY_TJ_EVENTS_SENSOR_FAULT : Fld := ⟨0x104, 0x0, 0x0, 2, 2⟩
def SY_TJ_EVENTS_COLD : Fld := ⟨0x104, 0x0, 0x0, 3, 3⟩
def SY_TJ_EVENTS_LIFE_OVER : Fld := ⟨0x104, 0x0, 0x0, 4, 4⟩
def SY_AGE : Fld := ⟨0x108, 0x0, 0x0, 31, 0⟩
def SY_TJ_DROPS : Fld := ⟨0x10c, 0x0, 0x0, 31, 0⟩
def SY_TJ_TEMP : Fld := ⟨0x110, 0x4, 0x0, 15, 0⟩
def SY_TJ_SUP_TEMP : Fld := ⟨0x130, 0x0, 0x0, 15, 0⟩
def SY_TJ_PEAK_TEMP : Fld := ⟨0x134, 0x0, 0x0, 15, 0⟩
def PW_STATUS_STATE : Fld := ⟨0x10000, 0x0, 0x0, 1, 0⟩
def PW_STATUS_WARN : Fld := ⟨0x10000, 0x0, 0x0, 2, 2⟩
def PW_STATUS_OV_WARN : Fld := ⟨0x10000, 0x0, 0x0, 3, 3⟩
def PW_STATUS_CHANGING : Fld := ⟨0x10000, 0x0, 0x0, 4, 4⟩
def PW_EVENTS_SUPPLY_WARN : Fld := ⟨0x10004, 0x0, 0x0, 0, 0⟩
def PW_EVENTS_SUPPLY_OK : Fld := ⟨0x10004, 0x0, 0x0, 1, 1⟩
def PW_EVENTS_OV_WARN : Fld := ⟨0x10004, 0x0, 0x0, 2, 2⟩
def PW_EVENTS_OV_OK : Fld := ⟨0x10004, 0x0, 0x0, 3, 3⟩
def PW_EVENTS_STATE : Fld := ⟨0x10004, 0x0, 0x0, 4, 4⟩
def PW_EVENTS_REG_LIMIT : Fld := ⟨0x10004, 0x0, 0x0, 5, 5⟩
def PW_CTRL_STATE : Fld := ⟨0x10008, 0x0, 0x0, 1, 0⟩
def PW_CTRL_SNAP : Fld := ⟨0x10008, 0x0, 0x0, 2, 2⟩
def PW_CTRL_KICK : Fld := ⟨0x10008, 0x0, 0x0, 3, 3⟩
def PW_LAST_RESET_KIND : Fld := ⟨0x1000c, 0x0, 0x0, 2, 0⟩
def PW_LAST_RESET_HOST : Fld := ⟨0x1000c, 0x0, 0x0, 3, 3⟩
def PW_LAST_RESET_OVERVOLT : Fld := ⟨0x1000c, 0x0, 0x0, 4, 4⟩
def PW_LAST_RESET_REGULATOR : Fld := ⟨0x1000c, 0x0, 0x0, 5, 5⟩
def PW_LAST_RESET_DOMAIN : Fld := ⟨0x1000c, 0x0, 0x0, 8, 6⟩
def PW_EPOCH : Fld := ⟨0x10010, 0x0, 0x0, 31, 0⟩
def PW_LOST : Fld := ⟨0x10014, 0x0, 0x0, 13, 0⟩
def PW_LOST_REGIONS : Fld := ⟨0x10018, 0x0, 0x0, 15, 0⟩
def PW_WARN_CFG_LEVEL : Fld := ⟨0x1001c, 0x0, 0x0, 3, 0⟩
def PW_VIN_MV : Fld := ⟨0x10020, 0x0, 0x0, 15, 0⟩
def PW_VIN_MIN_MV : Fld := ⟨0x10024, 0x0, 0x0, 15, 0⟩
def PW_DIP : Fld := ⟨0x10028, 0x0, 0x0, 31, 0⟩
def PW_WARNS : Fld := ⟨0x1002c, 0x0, 0x0, 31, 0⟩
def PW_WDOG_TIMEOUT : Fld := ⟨0x10030, 0x0, 0x0, 9, 0⟩
def PW_VIN_DROPS : Fld := ⟨0x10034, 0x0, 0x0, 31, 0⟩
def PW_E_LO : Fld := ⟨0x10040, 0x8, 0x0, 31, 0⟩
def PW_E_HI : Fld := ⟨0x10044, 0x8, 0x0, 31, 0⟩
def TB_MODE_SOURCE : Fld := ⟨0x20000, 0x0, 0x0, 2, 0⟩
def TB_MODE_BACKUP : Fld := ⟨0x20000, 0x0, 0x0, 3, 3⟩
def TB_MODE_FORMAT : Fld := ⟨0x20000, 0x0, 0x0, 4, 4⟩
def TB_MODE_MASTER_CAD : Fld := ⟨0x20000, 0x0, 0x0, 7, 5⟩
def TB_MODE_REF_CAD : Fld := ⟨0x20000, 0x0, 0x0, 10, 8⟩
def TB_MODE_STEP_POLICY : Fld := ⟨0x20000, 0x0, 0x0, 12, 11⟩
def TB_MODE_PTP_PORT : Fld := ⟨0x20000, 0x0, 0x0, 13, 13⟩
def TB_MODE_REFCLK : Fld := ⟨0x20000, 0x0, 0x0, 16, 14⟩
def TB_STATUS_STATE : Fld := ⟨0x20004, 0x0, 0x0, 2, 0⟩
def TB_STATUS_FREERUN : Fld := ⟨0x20004, 0x0, 0x0, 3, 3⟩
def TB_STATUS_MISMATCH : Fld := ⟨0x20004, 0x0, 0x0, 4, 4⟩
def TB_STATUS_CAUSE : Fld := ⟨0x20004, 0x0, 0x0, 7, 5⟩
def TB_STATUS_STEP_PENDING : Fld := ⟨0x20004, 0x0, 0x0, 8, 8⟩
def TB_STATUS_BACKUP_ACTIVE : Fld := ⟨0x20004, 0x0, 0x0, 9, 9⟩
def TB_STATUS_LINK_TIMING : Fld := ⟨0x20004, 0x0, 0x0, 10, 10⟩
def TB_STATUS_REJECT_RUN : Fld := ⟨0x20004, 0x0, 0x0, 14, 11⟩
def TB_STATUS_BACKUP_STATE : Fld := ⟨0x20004, 0x0, 0x0, 17, 15⟩
def TB_EVENTS_LOCKED : Fld := ⟨0x20008, 0x0, 0x0, 0, 0⟩
def TB_EVENTS_HOLDOVER : Fld := ⟨0x20008, 0x0, 0x0, 1, 1⟩
def TB_EVENTS_FREERUN : Fld := ⟨0x20008, 0x0, 0x0, 2, 2⟩
def TB_EVENTS_MISMATCH : Fld := ⟨0x20008, 0x0, 0x0, 3, 3⟩
def TB_EVENTS_STEP_DONE : Fld := ⟨0x20008, 0x0, 0x0, 4, 4⟩
def TB_EVENTS_STEP_GAP : Fld := ⟨0x20008, 0x0, 0x0, 5, 5⟩
def TB_EVENTS_REJECT_RUN : Fld := ⟨0x20008, 0x0, 0x0, 6, 6⟩
def TB_EVENTS_LINK_TIMING_LOST : Fld := ⟨0x20008, 0x0, 0x0, 7, 7⟩
def TB_EVENTS_CMP_LATE : Fld := ⟨0x20008, 0x0, 0x0, 8, 8⟩
def TB_EVENTS_ACQUIRE : Fld := ⟨0x20008, 0x0, 0x0, 9, 9⟩
def TB_EVENTS_FREE : Fld := ⟨0x20008, 0x0, 0x0, 10, 10⟩
def TB_CTRL_SNAP : Fld := ⟨0x2000c, 0x0, 0x0, 0, 0⟩
def TB_CTRL_STEP_GO : Fld := ⟨0x2000c, 0x0, 0x0, 1, 1⟩
def TB_THRESH_PTP : Fld := ⟨0x20010, 0x0, 0x0, 13, 0⟩
def TB_THRESH_REF_IN : Fld := ⟨0x20010, 0x0, 0x0, 20, 14⟩
def TB_HOLD_HOLD_LIMIT : Fld := ⟨0x20014, 0x0, 0x0, 15, 0⟩
def TB_HOLD_PTP_LOSS : Fld := ⟨0x20014, 0x0, 0x0, 31, 16⟩
def TB_REF_OFFSET : Fld := ⟨0x20018, 0x0, 0x0, 31, 0⟩
def TB_REF_FORMAT_FORMAT : Fld := ⟨0x2001c, 0x0, 0x0, 1, 0⟩
def TB_REF_FORMAT_RATE : Fld := ⟨0x2001c, 0x0, 0x0, 5, 2⟩
def TB_REF_FORMAT_LINE750 : Fld := ⟨0x2001c, 0x0, 0x0, 6, 6⟩
def TB_NOW_W : Fld := ⟨0x20020, 0x4, 0x0, 31, 0⟩
def TB_PHASE : Fld := ⟨0x20030, 0x0, 0x0, 31, 0⟩
def TB_FREQ : Fld := ⟨0x20034, 0x0, 0x0, 31, 0⟩
def TB_HOLD_TIME : Fld := ⟨0x20038, 0x0, 0x0, 31, 0⟩
def TB_REJECTS : Fld := ⟨0x2003c, 0x0, 0x0, 31, 0⟩
def TB_STEP_LO : Fld := ⟨0x20040, 0x0, 0x0, 31, 0⟩
def TB_STEP_HI : Fld := ⟨0x20044, 0x0, 0x0, 31, 0⟩
def TB_CAD_CFG_RATE : Fld := ⟨0x20100, 0x20, 0x0, 3, 0⟩
def TB_CAD_CFG_INTERLACE : Fld := ⟨0x20100, 0x20, 0x0, 4, 4⟩
def TB_CAD_CFG_LINES : Fld := ⟨0x20100, 0x20, 0x0, 17, 5⟩
def TB_CAD_OFFSET : Fld := ⟨0x20104, 0x20, 0x0, 31, 0⟩
def TB_CAD_FRAME_HI : Fld := ⟨0x20108, 0x20, 0x0, 31, 0⟩
def TB_CAD_FRAME_LO : Fld := ⟨0x2010c, 0x20, 0x0, 31, 0⟩
def TB_CAD_LINEPOS : Fld := ⟨0x20110, 0x20, 0x0, 28, 0⟩
def TB_CAD_STEPGAP : Fld := ⟨0x20114, 0x20, 0x0, 31, 0⟩
def TB_CAD_PULSES : Fld := ⟨0x20118, 0x20, 0x0, 31, 0⟩
def TB_CMP_CTRL_ARM : Fld := ⟨0x20400, 0x10, 0x0, 0, 0⟩
def TB_CMP_CTRL_MODE : Fld := ⟨0x20400, 0x10, 0x0, 1, 1⟩
def TB_CMP_CTRL_CAD : Fld := ⟨0x20400, 0x10, 0x0, 4, 2⟩
def TB_CMP_CTRL_PERIODIC : Fld := ⟨0x20400, 0x10, 0x0, 5, 5⟩
def TB_CMP_CTRL_LATE : Fld := ⟨0x20400, 0x10, 0x0, 6, 6⟩
def TB_CMP_CTRL_FIRED : Fld := ⟨0x20400, 0x10, 0x0, 7, 7⟩
def TB_CMP_CTRL_ACTION : Fld := ⟨0x20400, 0x10, 0x0, 9, 8⟩
def TB_CMP_CTRL_TARGET : Fld := ⟨0x20400, 0x10, 0x0, 21, 10⟩
def TB_CMP_T0 : Fld := ⟨0x20404, 0x10, 0x0, 31, 0⟩
def TB_CMP_T1 : Fld := ⟨0x20408, 0x10, 0x0, 31, 0⟩
def TB_CMP_PERIOD : Fld := ⟨0x2040c, 0x10, 0x0, 31, 0⟩
def PL_STATUS_STATE : Fld := ⟨0x30000, 0x0, 0x0, 2, 0⟩
def PL_STATUS_BROWNOUT : Fld := ⟨0x30000, 0x0, 0x0, 3, 3⟩
def PL_STATUS_HELD : Fld := ⟨0x30000, 0x0, 0x0, 4, 4⟩
def PL_RUN_ID : Fld := ⟨0x30004, 0x0, 0x0, 31, 0⟩
def PL_PEND_ID : Fld := ⟨0x30008, 0x0, 0x0, 31, 0⟩
def PL_RESULT_CODE : Fld := ⟨0x3000c, 0x0, 0x0, 7, 0⟩
def PL_RESULT_SECTION : Fld := ⟨0x3000c, 0x0, 0x0, 15, 8⟩
def PL_RESULT_ITEM : Fld := ⟨0x3000c, 0x0, 0x0, 31, 16⟩
def PL_CTRL_ADMIT : Fld := ⟨0x30010, 0x0, 0x0, 0, 0⟩
def PL_CTRL_SWITCH : Fld := ⟨0x30010, 0x0, 0x0, 1, 1⟩
def PL_CTRL_CANCEL : Fld := ⟨0x30010, 0x0, 0x0, 2, 2⟩
def PL_CTRL_LIBRARY : Fld := ⟨0x30010, 0x0, 0x0, 3, 3⟩
def PL_SRC : Fld := ⟨0x30014, 0x0, 0x0, 31, 0⟩
def PL_SWITCH_T0_NS : Fld := ⟨0x30018, 0x0, 0x0, 29, 0⟩
def PL_SWITCH_T1 : Fld := ⟨0x3001c, 0x0, 0x0, 31, 0⟩
def PL_EVENTS_ADMITTED : Fld := ⟨0x30020, 0x0, 0x0, 0, 0⟩
def PL_EVENTS_REFUSED : Fld := ⟨0x30020, 0x0, 0x0, 1, 1⟩
def PL_EVENTS_SWITCHED : Fld := ⟨0x30020, 0x0, 0x0, 2, 2⟩
def PL_EVENTS_BROWNOUT_ON : Fld := ⟨0x30020, 0x0, 0x0, 3, 3⟩
def PL_EVENTS_BROWNOUT_OFF : Fld := ⟨0x30020, 0x0, 0x0, 4, 4⟩
def PL_EVENTS_BREACH : Fld := ⟨0x30020, 0x0, 0x0, 5, 5⟩
def PL_EVENTS_CLAMPED : Fld := ⟨0x30020, 0x0, 0x0, 6, 6⟩
def PL_BREACH_KIND : Fld := ⟨0x30024, 0x0, 0x0, 3, 0⟩
def PL_BREACH_SIDE : Fld := ⟨0x30024, 0x0, 0x0, 4, 4⟩
def PL_BREACH_FRAGMENT : Fld := ⟨0x30024, 0x0, 0x0, 31, 16⟩
def PL_BREACH_COUNT : Fld := ⟨0x30028, 0x0, 0x0, 31, 0⟩
def PL_POWER_DECL : Fld := ⟨0x3002c, 0x0, 0x0, 31, 0⟩
def PL_BROWNOUT_DECL : Fld := ⟨0x30030, 0x0, 0x0, 31, 0⟩
def PL_FRAGMENTS : Fld := ⟨0x30034, 0x0, 0x0, 31, 0⟩
def PL_CLAMPED : Fld := ⟨0x30038, 0x0, 0x0, 31, 0⟩
def PL_LIB_NUMBER : Fld := ⟨0x3003c, 0x0, 0x0, 6, 0⟩
def VT_STATUS_RUNNING : Fld := ⟨0x40000, 0x0, 0x0, 0, 0⟩
def VT_STATUS_CLOCK_LOW : Fld := ⟨0x40000, 0x0, 0x0, 1, 1⟩
def VT_STATUS_DEGRADED : Fld := ⟨0x40000, 0x0, 0x0, 2, 2⟩
def VT_STATUS_REPAIR_PENDING : Fld := ⟨0x40000, 0x0, 0x0, 3, 3⟩
def VT_STATUS_REPAIRS : Fld := ⟨0x40000, 0x0, 0x0, 10, 4⟩
def VT_CLOCK_KHZ : Fld := ⟨0x40004, 0x0, 0x0, 20, 0⟩
def VT_EVENTS_OVERRUN : Fld := ⟨0x40008, 0x0, 0x0, 0, 0⟩
def VT_EVENTS_CLOCK_LOW : Fld := ⟨0x40008, 0x0, 0x0, 1, 1⟩
def VT_EVENTS_ECC_CORR : Fld := ⟨0x40008, 0x0, 0x0, 2, 2⟩
def VT_EVENTS_ECC_UNCORR : Fld := ⟨0x40008, 0x0, 0x0, 3, 3⟩
def VT_EVENTS_BANK_FAULT : Fld := ⟨0x40008, 0x0, 0x0, 4, 4⟩
def VT_EVENTS_ROUTE : Fld := ⟨0x40008, 0x0, 0x0, 5, 5⟩
def VT_EVENTS_SLACK : Fld := ⟨0x40008, 0x0, 0x0, 6, 6⟩
def VT_EVENTS_REPAIR_PENDING : Fld := ⟨0x40008, 0x0, 0x0, 7, 7⟩
def VT_OVERRUNS : Fld := ⟨0x4000c, 0x0, 0x0, 31, 0⟩
def VT_ECC_CORR : Fld := ⟨0x40010, 0x0, 0x0, 31, 0⟩
def VT_ECC_UNCORR : Fld := ⟨0x40014, 0x0, 0x0, 31, 0⟩
def VT_BANK_FAULTS : Fld := ⟨0x40018, 0x0, 0x0, 31, 0⟩
def VT_ROUTE_FAULTS : Fld := ⟨0x4001c, 0x0, 0x0, 31, 0⟩
def VT_LAST_FAULT_COLUMN : Fld := ⟨0x40020, 0x0, 0x0, 5, 0⟩
def VT_LAST_FAULT_ROW : Fld := ⟨0x40020, 0x0, 0x0, 10, 6⟩
def VT_LAST_FAULT_KIND : Fld := ⟨0x40020, 0x0, 0x0, 14, 11⟩
def VT_LAST_FAULT_FRAGMENT : Fld := ⟨0x40020, 0x0, 0x0, 31, 16⟩
def VT_CAD_MARGIN_MARGIN : Fld := ⟨0x40040, 0x4, 0x0, 15, 0⟩
def VT_MAP_ROW_WEST_COL : Fld := ⟨0x40100, 0x4, 0x0, 5, 0⟩
def VT_MAP_ROW_WEST_VALID : Fld := ⟨0x40100, 0x4, 0x0, 6, 6⟩
def VT_MAP_ROW_WEST_FUSE : Fld := ⟨0x40100, 0x4, 0x0, 7, 7⟩
def VT_MAP_ROW_EAST_COL : Fld := ⟨0x40100, 0x4, 0x0, 13, 8⟩
def VT_MAP_ROW_EAST_VALID : Fld := ⟨0x40100, 0x4, 0x0, 14, 14⟩
def VT_MAP_ROW_EAST_FUSE : Fld := ⟨0x40100, 0x4, 0x0, 15, 15⟩
def VT_MAP_ROW_WEST_BAD : Fld := ⟨0x40100, 0x4, 0x0, 16, 16⟩
def VT_MAP_ROW_EAST_BAD : Fld := ⟨0x40100, 0x4, 0x0, 17, 17⟩
def VT_OWNER : Fld := ⟨0x41000, 0x4, 0x0, 31, 0⟩
def EN_CFG_CODEC : Fld := ⟨0x80000, 0x100, 0x0, 0, 0⟩
def EN_CFG_PROFILE : Fld := ⟨0x80000, 0x100, 0x0, 3, 1⟩
def EN_CFG_CHROMA : Fld := ⟨0x80000, 0x100, 0x0, 5, 4⟩
def EN_CFG_DEPTH10 : Fld := ⟨0x80000, 0x100, 0x0, 6, 6⟩
def EN_CFG_CTU : Fld := ⟨0x80000, 0x100, 0x0, 8, 7⟩
def EN_CFG_SLICES : Fld := ⟨0x80000, 0x100, 0x0, 10, 9⟩
def EN_CFG_PRESET : Fld := ⟨0x80000, 0x100, 0x0, 12, 11⟩
def EN_CFG_RAP_MODE : Fld := ⟨0x80000, 0x100, 0x0, 14, 13⟩
def EN_CFG_LEVEL : Fld := ⟨0x80000, 0x100, 0x0, 22, 15⟩
def EN_CFG_TIER : Fld := ⟨0x80000, 0x100, 0x0, 23, 23⟩
def EN_CFG_INSTEP : Fld := ⟨0x80000, 0x100, 0x0, 24, 24⟩
def EN_CFG_INTERLACED : Fld := ⟨0x80000, 0x100, 0x0, 25, 25⟩
def EN_CFG_TIMECODE : Fld := ⟨0x80000, 0x100, 0x0, 26, 26⟩
def EN_CFG_SPLICE_RAP : Fld := ⟨0x80000, 0x100, 0x0, 27, 27⟩
def EN_CFG_RENDITION : Fld := ⟨0x80000, 0x100, 0x0, 28, 28⟩
def EN_SIZE_WIDTH : Fld := ⟨0x80004, 0x100, 0x0, 15, 0⟩
def EN_SIZE_HEIGHT : Fld := ⟨0x80004, 0x100, 0x0, 31, 16⟩
def EN_TIMING_CADENCE : Fld := ⟨0x80008, 0x100, 0x0, 2, 0⟩
def EN_TIMING_DEFERRED : Fld := ⟨0x80008, 0x100, 0x0, 3, 3⟩
def EN_TIMING_DELAY : Fld := ⟨0x80008, 0x100, 0x0, 16, 4⟩
def EN_TIMING_E_LINES : Fld := ⟨0x80008, 0x100, 0x0, 24, 17⟩
def EN_TIMING_REFS : Fld := ⟨0x80008, 0x100, 0x0, 27, 25⟩
def EN_STATUS_RUNNING : Fld := ⟨0x8000c, 0x100, 0x0, 0, 0⟩
def EN_STATUS_RAP_PENDING : Fld := ⟨0x8000c, 0x100, 0x0, 1, 1⟩
def EN_STATUS_HDR_MISMATCH : Fld := ⟨0x8000c, 0x100, 0x0, 2, 2⟩
def EN_STATUS_RAP_DAMAGED : Fld := ⟨0x8000c, 0x100, 0x0, 3, 3⟩
def EN_STATUS_FILLING : Fld := ⟨0x8000c, 0x100, 0x0, 4, 4⟩
def EN_EVENTS_FILLED : Fld := ⟨0x80010, 0x100, 0x0, 0, 0⟩
def EN_EVENTS_RAP_FORCED : Fld := ⟨0x80010, 0x100, 0x0, 1, 1⟩
def EN_EVENTS_HDR_MISMATCH : Fld := ⟨0x80010, 0x100, 0x0, 2, 2⟩
def EN_EVENTS_SCTE_SENT : Fld := ⟨0x80010, 0x100, 0x0, 3, 3⟩
def EN_EVENTS_SCTE_DROPPED : Fld := ⟨0x80010, 0x100, 0x0, 4, 4⟩
def EN_EVENTS_RAP_DAMAGED : Fld := ⟨0x80010, 0x100, 0x0, 5, 5⟩
def EN_EVENTS_DEADLINE : Fld := ⟨0x80010, 0x100, 0x0, 6, 6⟩
def EN_CTRL_FORCE_RAP : Fld := ⟨0x80014, 0x100, 0x0, 0, 0⟩
def EN_RAP_PERIOD : Fld := ⟨0x80018, 0x100, 0x0, 15, 0⟩
def EN_PICTURES : Fld := ⟨0x8001c, 0x100, 0x0, 31, 0⟩
def EN_FILLED : Fld := ⟨0x80020, 0x100, 0x0, 31, 0⟩
def EN_LAST_FILL_CAUSE : Fld := ⟨0x80024, 0x100, 0x0, 3, 0⟩
def EN_LAST_FILL_ROW : Fld := ⟨0x80024, 0x100, 0x0, 15, 4⟩
def EN_LAST_FILL_FRAME : Fld := ⟨0x80024, 0x100, 0x0, 31, 16⟩
def EN_SCTE_DONE : Fld := ⟨0x80028, 0x100, 0x0, 31, 0⟩
def EN_SCTE_DROP : Fld := ⟨0x8002c, 0x100, 0x0, 31, 0⟩
def EN_HDR_PRIM : Fld := ⟨0x80030, 0x100, 0x0, 7, 0⟩
def EN_HDR_TRANSFER : Fld := ⟨0x80030, 0x100, 0x0, 15, 8⟩
def EN_HDR_MATRIX : Fld := ⟨0x80030, 0x100, 0x0, 23, 16⟩
def EN_HDR_FULL : Fld := ⟨0x80030, 0x100, 0x0, 24, 24⟩
def EN_HDR_MDCV_ON : Fld := ⟨0x80030, 0x100, 0x0, 25, 25⟩
def EN_HDR_CLL_ON : Fld := ⟨0x80030, 0x100, 0x0, 26, 26⟩
def EN_MDCV : Fld := ⟨0x80034, 0x100, 0x4, 31, 0⟩
def EN_CLL_MAXCLL : Fld := ⟨0x8004c, 0x100, 0x0, 15, 0⟩
def EN_CLL_MAXFALL : Fld := ⟨0x8004c, 0x100, 0x0, 31, 16⟩
def EN_FRAME : Fld := ⟨0x80050, 0x100, 0x0, 31, 0⟩
def RC_CFG_MODE : Fld := ⟨0x90000, 0x40, 0x0, 1, 0⟩
def RC_CFG_POOL : Fld := ⟨0x90000, 0x40, 0x0, 6, 2⟩
def RC_CFG_RATE_RAP : Fld := ⟨0x90000, 0x40, 0x0, 7, 7⟩
def RC_CFG_REPAY : Fld := ⟨0x90000, 0x40, 0x0, 11, 8⟩
def RC_CFG_BINCAP : Fld := ⟨0x90000, 0x40, 0x0, 19, 12⟩
def RC_CFG_QP_MIN : Fld := ⟨0x90000, 0x40, 0x0, 25, 20⟩
def RC_CFG_QP_MAX : Fld := ⟨0x90000, 0x40, 0x0, 31, 26⟩
def RC_RATE : Fld := ⟨0x90004, 0x40, 0x0, 31, 0⟩
def RC_MAXRATE : Fld := ⟨0x90008, 0x40, 0x0, 31, 0⟩
def RC_CPB : Fld := ⟨0x9000c, 0x40, 0x0, 31, 0⟩
def RC_START : Fld := ⟨0x90010, 0x40, 0x0, 31, 0⟩
def RC_TARGET_FULL : Fld := ⟨0x90014, 0x40, 0x0, 31, 0⟩
def RC_QP_INTRA : Fld := ⟨0x90018, 0x40, 0x0, 5, 0⟩
def RC_QP_INTER : Fld := ⟨0x90018, 0x40, 0x0, 13, 8⟩
def RC_CAP : Fld := ⟨0x9001c, 0x40, 0x0, 31, 0⟩
def RC_BINS : Fld := ⟨0x90020, 0x40, 0x0, 31, 0⟩
def RC_STATUS_SKIM : Fld := ⟨0x90024, 0x40, 0x0, 0, 0⟩
def RC_STATUS_FLOOR : Fld := ⟨0x90024, 0x40, 0x0, 1, 1⟩
def RC_STATUS_RATE_PENDING : Fld := ⟨0x90024, 0x40, 0x0, 2, 2⟩
def RC_STATUS_QP : Fld := ⟨0x90024, 0x40, 0x0, 8, 3⟩
def RC_EVENTS_SKIM : Fld := ⟨0x90028, 0x40, 0x0, 0, 0⟩
def RC_EVENTS_FLOOR : Fld := ⟨0x90028, 0x40, 0x0, 1, 1⟩
def RC_EVENTS_CLIP : Fld := ⟨0x90028, 0x40, 0x0, 2, 2⟩
def RC_EVENTS_RATE_APPLIED : Fld := ⟨0x90028, 0x40, 0x0, 3, 3⟩
def RC_EVENTS_POOL_CLAMP : Fld := ⟨0x90028, 0x40, 0x0, 4, 4⟩
def RC_FULLNESS : Fld := ⟨0x9002c, 0x40, 0x0, 31, 0⟩
def RC_LAST_SIZE : Fld := ⟨0x90030, 0x40, 0x0, 31, 0⟩
def RC_SKIMS : Fld := ⟨0x90034, 0x40, 0x0, 31, 0⟩
def RC_FLOOR_ROWS : Fld := ⟨0x90038, 0x40, 0x0, 31, 0⟩
def RC_CLIPS : Fld := ⟨0x9003c, 0x40, 0x0, 31, 0⟩
def RC_POOL_RATE : Fld := ⟨0x94000, 0x20, 0x0, 31, 0⟩
def RC_POOL_CFG_MEMBERS : Fld := ⟨0x94004, 0x20, 0x0, 7, 0⟩
def RC_POOL_CFG_CADENCE : Fld := ⟨0x94004, 0x20, 0x0, 10, 8⟩
def RC_POOL_CLAMPS : Fld := ⟨0x94008, 0x20, 0x0, 31, 0⟩
def CL_STATUS_CONCEALING : Fld := ⟨0xa0000, 0x0, 0x0, 0, 0⟩
def CL_STATUS_UNSUPPORTED : Fld := ⟨0xa0000, 0x0, 0x0, 1, 1⟩
def CL_EVENTS_SUBST : Fld := ⟨0xa0004, 0x0, 0x0, 0, 0⟩
def CL_EVENTS_GREY : Fld := ⟨0xa0004, 0x0, 0x0, 1, 1⟩
def CL_EVENTS_UNSUPPORTED : Fld := ⟨0xa0004, 0x0, 0x0, 2, 2⟩
def CL_EVENTS_FS_REPEAT : Fld := ⟨0xa0004, 0x0, 0x0, 3, 3⟩
def CL_EVENTS_FS_DROP : Fld := ⟨0xa0004, 0x0, 0x0, 4, 4⟩
def CL_USED_UNITS : Fld := ⟨0xa0008, 0x0, 0x0, 12, 0⟩
def CL_SUBST : Fld := ⟨0xa000c, 0x0, 0x0, 31, 0⟩
def CL_GREY : Fld := ⟨0xa0010, 0x0, 0x0, 31, 0⟩
def CL_FS_REPEATS : Fld := ⟨0xa0014, 0x0, 0x0, 31, 0⟩
def CL_FS_DROPS : Fld := ⟨0xa0018, 0x0, 0x0, 31, 0⟩
def CL_DC_CFG_CODEC : Fld := ⟨0xa1000, 0x40, 0x0, 0, 0⟩
def CL_DC_CFG_PROFILE : Fld := ⟨0xa1000, 0x40, 0x0, 3, 1⟩
def CL_DC_CFG_CHROMA : Fld := ⟨0xa1000, 0x40, 0x0, 5, 4⟩
def CL_DC_CFG_DEPTH10 : Fld := ⟨0xa1000, 0x40, 0x0, 6, 6⟩
def CL_DC_CFG_LEVEL : Fld := ⟨0xa1000, 0x40, 0x0, 14, 7⟩
def CL_DC_CFG_TIER : Fld := ⟨0xa1000, 0x40, 0x0, 15, 15⟩
def CL_DC_CFG_CADENCE : Fld := ⟨0xa1000, 0x40, 0x0, 18, 16⟩
def CL_DC_CFG_SLOTS : Fld := ⟨0xa1000, 0x40, 0x0, 23, 19⟩
def CL_DC_CFG_OUTDLY : Fld := ⟨0xa1000, 0x40, 0x0, 27, 24⟩
def CL_DC_CFG_SOURCE : Fld := ⟨0xa1000, 0x40, 0x0, 28, 28⟩
def CL_DC_CFG_INSTEP : Fld := ⟨0xa1000, 0x40, 0x0, 29, 29⟩
def CL_DC_STATUS_RUNNING : Fld := ⟨0xa1004, 0x40, 0x0, 0, 0⟩
def CL_DC_STATUS_CONCEALING : Fld := ⟨0xa1004, 0x40, 0x0, 1, 1⟩
def CL_DC_STATUS_UNSUPPORTED : Fld := ⟨0xa1004, 0x40, 0x0, 2, 2⟩
def CL_DC_STATUS_CAUSE : Fld := ⟨0xa1004, 0x40, 0x0, 5, 3⟩
def CL_DC_STATUS_NO_INPUT : Fld := ⟨0xa1004, 0x40, 0x0, 6, 6⟩
def CL_DC_STATUS_RATE_MISMATCH : Fld := ⟨0xa1004, 0x40, 0x0, 7, 7⟩
def CL_DC_EVENTS_CONCEAL_START : Fld := ⟨0xa1008, 0x40, 0x0, 0, 0⟩
def CL_DC_EVENTS_CONCEAL_END : Fld := ⟨0xa1008, 0x40, 0x0, 1, 1⟩
def CL_DC_EVENTS_SUBST : Fld := ⟨0xa1008, 0x40, 0x0, 2, 2⟩
def CL_DC_EVENTS_GREY : Fld := ⟨0xa1008, 0x40, 0x0, 3, 3⟩
def CL_DC_EVENTS_UNSUPPORTED : Fld := ⟨0xa1008, 0x40, 0x0, 4, 4⟩
def CL_DC_EVENTS_LATE : Fld := ⟨0xa1008, 0x40, 0x0, 5, 5⟩
def CL_DC_EVENTS_BINCLIP : Fld := ⟨0xa1008, 0x40, 0x0, 6, 6⟩
def CL_DC_SIZE_WIDTH : Fld := ⟨0xa100c, 0x40, 0x0, 15, 0⟩
def CL_DC_SIZE_HEIGHT : Fld := ⟨0xa100c, 0x40, 0x0, 31, 16⟩
def CL_DC_PICTURES : Fld := ⟨0xa1010, 0x40, 0x0, 31, 0⟩
def CL_DC_CONCEALED : Fld := ⟨0xa1014, 0x40, 0x0, 31, 0⟩
def CL_DC_SUBST : Fld := ⟨0xa1018, 0x40, 0x0, 31, 0⟩
def CL_DC_LATE : Fld := ⟨0xa101c, 0x40, 0x0, 31, 0⟩
def CL_DC_REPEATS : Fld := ⟨0xa1020, 0x40, 0x0, 31, 0⟩
def CL_DC_BINCLIPS : Fld := ⟨0xa1024, 0x40, 0x0, 31, 0⟩
def CL_DC_LAST_POC : Fld := ⟨0xa1028, 0x40, 0x0, 31, 0⟩
def CL_EC_POOL_SLOTS : Fld := ⟨0xa2000, 0x10, 0x0, 2, 0⟩
def CL_EC_POOL_SLOT_MIB : Fld := ⟨0xa2000, 0x10, 0x0, 11, 4⟩
def CL_EC_POOL_BASE : Fld := ⟨0xa2000, 0x10, 0x0, 23, 12⟩
def CL_EC_MARKS_MARKS : Fld := ⟨0xa2004, 0x10, 0x0, 19, 0⟩
def CL_FS_CFG_SOURCE : Fld := ⟨0xa4000, 0x10, 0x0, 9, 0⟩
def CL_FS_CFG_KIND : Fld := ⟨0xa4000, 0x10, 0x0, 11, 10⟩
def CL_FS_CFG_CADENCE : Fld := ⟨0xa4000, 0x10, 0x0, 14, 12⟩
def CL_FS_STATE_READ : Fld := ⟨0xa4004, 0x10, 0x0, 1, 0⟩
def CL_FS_STATE_WRITE : Fld := ⟨0xa4004, 0x10, 0x0, 3, 2⟩
def CL_FS_STATE_LOCKED : Fld := ⟨0xa4004, 0x10, 0x0, 4, 4⟩
def CL_FS_STATE_NO_INPUT : Fld := ⟨0xa4004, 0x10, 0x0, 5, 5⟩
def CL_FS_STATE_NEVER_READY : Fld := ⟨0xa4004, 0x10, 0x0, 6, 6⟩
def CL_FS_REPEATS_N : Fld := ⟨0xa4008, 0x10, 0x0, 31, 0⟩
def CL_FS_DROPS_N : Fld := ⟨0xa400c, 0x10, 0x0, 31, 0⟩
def CH_STATUS_SCALERS : Fld := ⟨0xb0000, 0x0, 0x0, 7, 0⟩
def CH_STATUS_STALE : Fld := ⟨0xb0000, 0x0, 0x0, 8, 8⟩
def CH_STATUS_RECOMPUTE : Fld := ⟨0xb0000, 0x0, 0x0, 9, 9⟩
def CH_DIE_EVENTS_STALE : Fld := ⟨0xb0004, 0x0, 0x0, 0, 0⟩
def CH_DIE_EVENTS_REFUSED : Fld := ⟨0xb0004, 0x0, 0x0, 1, 1⟩
def CH_DIE_EVENTS_FLAT_DONE : Fld := ⟨0xb0004, 0x0, 0x0, 2, 2⟩
def CH_SCALER_CHANNEL : Fld := ⟨0xb0100, 0x4, 0x0, 7, 0⟩
def CH_SCALER_LAYER : Fld := ⟨0xb0100, 0x4, 0x0, 10, 8⟩
def CH_SCALER_PAIRED : Fld := ⟨0xb0100, 0x4, 0x0, 11, 11⟩
def CH_SCALER_IN_USE : Fld := ⟨0xb0100, 0x4, 0x0, 12, 12⟩
def CH_SCALER_HSET : Fld := ⟨0xb0100, 0x4, 0x0, 17, 13⟩
def CH_SCALER_VSET : Fld := ⟨0xb0100, 0x4, 0x0, 22, 18⟩
def CH_CFG_LAYERS : Fld := ⟨0xc0000, 0x100, 0x0, 2, 0⟩
def CH_CFG_DEPTH : Fld := ⟨0xc0000, 0x100, 0x0, 4, 3⟩
def CH_CFG_INT444 : Fld := ⟨0xc0000, 0x100, 0x0, 5, 5⟩
def CH_CFG_FLAT_MIN : Fld := ⟨0xc0000, 0x100, 0x0, 8, 6⟩
def CH_CFG_FLAT_FRAMES : Fld := ⟨0xc0000, 0x100, 0x0, 12, 9⟩
def CH_CFG_FLAT_MASK : Fld := ⟨0xc0000, 0x100, 0x0, 19, 13⟩
def CH_CFG_RENDITIONS : Fld := ⟨0xc0000, 0x100, 0x0, 22, 20⟩
def CH_CFG_EIGHT : Fld := ⟨0xc0000, 0x100, 0x0, 23, 23⟩
def CH_LAYER_STATE : Fld := ⟨0xc0004, 0x100, 0x0, 31, 0⟩
def CH_EVENTS_STALE : Fld := ⟨0xc0008, 0x100, 0x0, 0, 0⟩
def CH_EVENTS_REFUSED : Fld := ⟨0xc0008, 0x100, 0x0, 1, 1⟩
def CH_EVENTS_APPLIED : Fld := ⟨0xc0008, 0x100, 0x0, 2, 2⟩
def CH_EVENTS_FLAT_DONE : Fld := ⟨0xc0008, 0x100, 0x0, 3, 3⟩
def CH_COMMIT_LAYERS : Fld := ⟨0xc000c, 0x100, 0x0, 7, 0⟩
def CH_BG_Y : Fld := ⟨0xc0010, 0x100, 0x0, 9, 0⟩
def CH_BG_CB : Fld := ⟨0xc0010, 0x100, 0x0, 19, 10⟩
def CH_BG_CR : Fld := ⟨0xc0010, 0x100, 0x0, 29, 20⟩
def CH_STALE : Fld := ⟨0xc0014, 0x100, 0x0, 31, 0⟩
def CH_REFUSED : Fld := ⟨0xc0018, 0x100, 0x0, 31, 0⟩
def CH_LSRC_SRC : Fld := ⟨0xc0020, 0x100, 0x20, 1, 0⟩
def CH_LSRC_INPUT : Fld := ⟨0xc0020, 0x100, 0x20, 11, 2⟩
def CH_LSRC_VIDEO : Fld := ⟨0xc0020, 0x100, 0x20, 12, 12⟩
def CH_LSRC_STATIC : Fld := ⟨0xc0020, 0x100, 0x20, 13, 13⟩
def CH_LSRC_SCALER : Fld := ⟨0xc0020, 0x100, 0x20, 14, 14⟩
def CH_LSRC_PAIRED : Fld := ⟨0xc0020, 0x100, 0x20, 15, 15⟩
def CH_LSRC_CURD : Fld := ⟨0xc0020, 0x100, 0x20, 16, 16⟩
def CH_LSRC_SURFACES : Fld := ⟨0xc0020, 0x100, 0x20, 20, 17⟩
def CH_LPOS_X : Fld := ⟨0xc0024, 0x100, 0x20, 15, 0⟩
def CH_LPOS_Y : Fld := ⟨0xc0024, 0x100, 0x20, 31, 16⟩
def CH_LSIZE_W : Fld := ⟨0xc0028, 0x100, 0x20, 15, 0⟩
def CH_LSIZE_H : Fld := ⟨0xc0028, 0x100, 0x20, 31, 16⟩
def CH_LCROP_POS_X : Fld := ⟨0xc002c, 0x100, 0x20, 15, 0⟩
def CH_LCROP_POS_Y : Fld := ⟨0xc002c, 0x100, 0x20, 31, 16⟩
def CH_LCROP_SIZE_W : Fld := ⟨0xc0030, 0x100, 0x20, 15, 0⟩
def CH_LCROP_SIZE_H : Fld := ⟨0xc0030, 0x100, 0x20, 31, 16⟩
def CH_LMIX_ALPHA : Fld := ⟨0xc0034, 0x100, 0x20, 7, 0⟩
def CH_LMIX_SURFACE : Fld := ⟨0xc0034, 0x100, 0x20, 11, 8⟩
def CH_LCAUSE_CAUSE : Fld := ⟨0xc0038, 0x100, 0x20, 2, 0⟩
def CH_LCAUSE_FRAME : Fld := ⟨0xc0038, 0x100, 0x20, 31, 16⟩
def LN_CFG_MODE : Fld := ⟨0x100000, 0x200, 0x0, 0, 0⟩
def LN_CFG_RATE : Fld := ⟨0x100000, 0x200, 0x0, 3, 1⟩
def LN_CFG_FRAC : Fld := ⟨0x100000, 0x200, 0x0, 4, 4⟩
def LN_CFG_RX_USED : Fld := ⟨0x100000, 0x200, 0x0, 5, 5⟩
def LN_CFG_TX_USED : Fld := ⟨0x100000, 0x200, 0x0, 6, 6⟩
def LN_CFG_PLL : Fld := ⟨0x100000, 0x200, 0x0, 7, 7⟩
def LN_CFG_DIV : Fld := ⟨0x100000, 0x200, 0x0, 10, 8⟩
def LN_CFG_GROUP : Fld := ⟨0x100000, 0x200, 0x0, 19, 11⟩
def LN_CFG_MEMBER : Fld := ⟨0x100000, 0x200, 0x0, 22, 20⟩
def LN_CFG_CADENCE : Fld := ⟨0x100000, 0x200, 0x0, 25, 23⟩
def LN_CFG_CRC_CONCEAL : Fld := ⟨0x100000, 0x200, 0x0, 26, 26⟩
def LN_CFG_LEVEL_B : Fld := ⟨0x100000, 0x200, 0x0, 27, 27⟩
def LN_CFG_PAIRED : Fld := ⟨0x100000, 0x200, 0x0, 28, 28⟩
def LN_PWR_RX_STATE : Fld := ⟨0x100004, 0x200, 0x0, 1, 0⟩
def LN_PWR_TX_STATE : Fld := ⟨0x100004, 0x200, 0x0, 3, 2⟩
def LN_STATUS_CABLE : Fld := ⟨0x100008, 0x200, 0x0, 0, 0⟩
def LN_STATUS_LOCK : Fld := ⟨0x100008, 0x200, 0x0, 1, 1⟩
def LN_STATUS_FMT_OK : Fld := ⟨0x100008, 0x200, 0x0, 2, 2⟩
def LN_STATUS_EYE_LOW : Fld := ⟨0x100008, 0x200, 0x0, 3, 3⟩
def LN_STATUS_CONCEALING : Fld := ⟨0x100008, 0x200, 0x0, 4, 4⟩
def LN_STATUS_TX_HOLD : Fld := ⟨0x100008, 0x200, 0x0, 5, 5⟩
def LN_STATUS_TX_MUTE : Fld := ⟨0x100008, 0x200, 0x0, 6, 6⟩
def LN_STATUS_WAKING : Fld := ⟨0x100008, 0x200, 0x0, 7, 7⟩
def LN_STATUS_BIST : Fld := ⟨0x100008, 0x200, 0x0, 8, 8⟩
def LN_STATUS_RX_NOW : Fld := ⟨0x100008, 0x200, 0x0, 10, 9⟩
def LN_STATUS_TX_NOW : Fld := ⟨0x100008, 0x200, 0x0, 12, 11⟩
def LN_EVENTS_CABLE_ON : Fld := ⟨0x10000c, 0x200, 0x0, 0, 0⟩
def LN_EVENTS_CABLE_OFF : Fld := ⟨0x10000c, 0x200, 0x0, 1, 1⟩
def LN_EVENTS_LOCK : Fld := ⟨0x10000c, 0x200, 0x0, 2, 2⟩
def LN_EVENTS_UNLOCK : Fld := ⟨0x10000c, 0x200, 0x0, 3, 3⟩
def LN_EVENTS_FMT_CHANGE : Fld := ⟨0x10000c, 0x200, 0x0, 4, 4⟩
def LN_EVENTS_EYE_LOW : Fld := ⟨0x10000c, 0x200, 0x0, 5, 5⟩
def LN_EVENTS_UNDERRUN : Fld := ⟨0x10000c, 0x200, 0x0, 6, 6⟩
def LN_EVENTS_REJOIN : Fld := ⟨0x10000c, 0x200, 0x0, 7, 7⟩
def LN_EVENTS_OVERFLOW : Fld := ⟨0x10000c, 0x200, 0x0, 8, 8⟩
def LN_EVENTS_STUFF_ERR : Fld := ⟨0x10000c, 0x200, 0x0, 9, 9⟩
def LN_EVENTS_XPT_APPLIED : Fld := ⟨0x10000c, 0x200, 0x0, 10, 10⟩
def LN_EQ_PRESET : Fld := ⟨0x100010, 0x200, 0x0, 3, 0⟩
def LN_EQ_VALID : Fld := ⟨0x100010, 0x200, 0x0, 4, 4⟩
def LN_EQ_FOM : Fld := ⟨0x100010, 0x200, 0x0, 12, 5⟩
def LN_EQ_FOM_MIN : Fld := ⟨0x100010, 0x200, 0x0, 20, 13⟩
def LN_EQ_COUNT : Fld := ⟨0x100010, 0x200, 0x0, 24, 21⟩
def LN_EQ_PEER : Fld := ⟨0x100010, 0x200, 0x0, 28, 25⟩
def LN_XPT_SOURCE : Fld := ⟨0x100014, 0x200, 0x0, 8, 0⟩
def LN_XPT_KIND : Fld := ⟨0x100014, 0x200, 0x0, 10, 9⟩
def LN_NRATE_KBPS : Fld := ⟨0x100018, 0x200, 0x0, 31, 0⟩
def LN_PAYLOAD_ID : Fld := ⟨0x10001c, 0x200, 0x0, 31, 0⟩
def LN_DEBOUNCE_MS : Fld := ⟨0x100020, 0x200, 0x0, 31, 0⟩
def LN_CRC_ERR : Fld := ⟨0x100024, 0x200, 0x0, 31, 0⟩
def LN_CODE_ERR : Fld := ⟨0x100028, 0x200, 0x0, 31, 0⟩
def LN_CONCEALED : Fld := ⟨0x10002c, 0x200, 0x0, 31, 0⟩
def LN_FILL_DEL : Fld := ⟨0x100030, 0x200, 0x0, 31, 0⟩
def LN_FILL_INS : Fld := ⟨0x100034, 0x200, 0x0, 31, 0⟩
def LN_OVERFLOW : Fld := ⟨0x100038, 0x200, 0x0, 31, 0⟩
def LN_LOCKS : Fld := ⟨0x10003c, 0x200, 0x0, 31, 0⟩
def LN_FOM : Fld := ⟨0x100040, 0x200, 0x4, 31, 0⟩
def LN_CTRL_READAPT : Fld := ⟨0x100050, 0x200, 0x0, 0, 0⟩
def LN_DIE_STATUS_RX_ON : Fld := ⟨0x140000, 0x0, 0x0, 9, 0⟩
def LN_DIE_STATUS_TX_ON : Fld := ⟨0x140000, 0x0, 0x0, 19, 10⟩
def LN_DIE_EVENTS_UNDERRUN : Fld := ⟨0x140004, 0x0, 0x0, 0, 0⟩
def LN_DIE_EVENTS_REJOIN : Fld := ⟨0x140004, 0x0, 0x0, 1, 1⟩
def LN_DIE_EVENTS_CABLE : Fld := ⟨0x140004, 0x0, 0x0, 2, 2⟩
def LN_DIE_EVENTS_EYE_LOW : Fld := ⟨0x140004, 0x0, 0x0, 3, 3⟩
def LN_DIE_EVENTS_PLL_UNLOCK : Fld := ⟨0x140004, 0x0, 0x0, 4, 4⟩
def LN_POWER : Fld := ⟨0x140008, 0x0, 0x0, 31, 0⟩
def LN_POWER_DECL : Fld := ⟨0x14000c, 0x0, 0x0, 31, 0⟩
def LN_BLK_A_REFCLK : Fld := ⟨0x140100, 0x4, 0x0, 2, 0⟩
def LN_BLK_A_USED : Fld := ⟨0x140100, 0x4, 0x0, 3, 3⟩
def LN_BLK_A_LOCK : Fld := ⟨0x140100, 0x4, 0x0, 4, 4⟩
def LN_BLK_A_STEER : Fld := ⟨0x140100, 0x4, 0x0, 5, 5⟩
def LN_BLK_A_LIMIT : Fld := ⟨0x140100, 0x4, 0x0, 6, 6⟩
def LN_BLK_B_REFCLK : Fld := ⟨0x140100, 0x4, 0x0, 9, 7⟩
def LN_BLK_B_USED : Fld := ⟨0x140100, 0x4, 0x0, 10, 10⟩
def LN_BLK_B_LOCK : Fld := ⟨0x140100, 0x4, 0x0, 11, 11⟩
def LN_BLK_B_STEER : Fld := ⟨0x140100, 0x4, 0x0, 12, 12⟩
def LN_BLK_B_LIMIT : Fld := ⟨0x140100, 0x4, 0x0, 13, 13⟩
def LN_GRP_CFG_MEMBERS : Fld := ⟨0x141000, 0x10, 0x0, 2, 0⟩
def LN_GRP_CFG_CADENCE : Fld := ⟨0x141000, 0x10, 0x0, 5, 3⟩
def LN_GRP_CFG_WINDOW : Fld := ⟨0x141000, 0x10, 0x0, 12, 6⟩
def LN_GRP_STATE_BAD : Fld := ⟨0x141004, 0x10, 0x0, 7, 0⟩
def LN_GRP_STATE_ONE_GOOD : Fld := ⟨0x141004, 0x10, 0x0, 15, 8⟩
def LN_GRP_STATE_NEVER : Fld := ⟨0x141004, 0x10, 0x0, 16, 16⟩
def LN_GRP_UNDERRUNS : Fld := ⟨0x141008, 0x10, 0x0, 31, 0⟩
def LN_GRP_REJOINS : Fld := ⟨0x14100c, 0x10, 0x0, 31, 0⟩
def NW_STATUS_LINK : Fld := ⟨0x180000, 0x0, 0x0, 7, 0⟩
def NW_STATUS_CONCEALED : Fld := ⟨0x180000, 0x0, 0x0, 8, 8⟩
def NW_STATUS_PATH_DOWN : Fld := ⟨0x180000, 0x0, 0x0, 9, 9⟩
def NW_EVENTS_LINK_UP : Fld := ⟨0x180004, 0x0, 0x0, 0, 0⟩
def NW_EVENTS_LINK_DOWN : Fld := ⟨0x180004, 0x0, 0x0, 1, 1⟩
def NW_EVENTS_UNDERRUN : Fld := ⟨0x180004, 0x0, 0x0, 2, 2⟩
def NW_EVENTS_REJOIN : Fld := ⟨0x180004, 0x0, 0x0, 3, 3⟩
def NW_EVENTS_PATH_DOWN : Fld := ⟨0x180004, 0x0, 0x0, 4, 4⟩
def NW_EVENTS_PATH_UP : Fld := ⟨0x180004, 0x0, 0x0, 5, 5⟩
def NW_EVENTS_FEC_UNCORR : Fld := ⟨0x180004, 0x0, 0x0, 6, 6⟩
def NW_EVENTS_GM_CHANGE : Fld := ⟨0x180004, 0x0, 0x0, 7, 7⟩
def NW_EVENTS_NO_NEIGHBOUR : Fld := ⟨0x180004, 0x0, 0x0, 8, 8⟩
def NW_FLOWS_RX : Fld := ⟨0x180008, 0x0, 0x0, 10, 0⟩
def NW_FLOWS_TX : Fld := ⟨0x180008, 0x0, 0x0, 21, 11⟩
def NW_FWD_ENTRIES : Fld := ⟨0x18000c, 0x0, 0x0, 10, 0⟩
def NW_RX_UNMATCHED : Fld := ⟨0x180010, 0x0, 0x0, 31, 0⟩
def NW_CTRL_DROP : Fld := ⟨0x180014, 0x0, 0x0, 31, 0⟩
def NW_PTP_CFG_SUBPORT : Fld := ⟨0x180100, 0x0, 0x0, 2, 0⟩
def NW_PTP_CFG_DOMAIN : Fld := ⟨0x180100, 0x0, 0x0, 10, 3⟩
def NW_PTP_CFG_MIXED : Fld := ⟨0x180100, 0x0, 0x0, 11, 11⟩
def NW_PTP_STATUS_MASTER : Fld := ⟨0x180104, 0x0, 0x0, 0, 0⟩
def NW_PTP_STATUS_TWO_STEP : Fld := ⟨0x180104, 0x0, 0x0, 1, 1⟩
def NW_PTP_STATUS_CLASS : Fld := ⟨0x180104, 0x0, 0x0, 9, 2⟩
def NW_PTP_GM_LO : Fld := ⟨0x180108, 0x0, 0x0, 31, 0⟩
def NW_PTP_GM_HI : Fld := ⟨0x18010c, 0x0, 0x0, 31, 0⟩
def NW_PTP_SAMPLES : Fld := ⟨0x180110, 0x0, 0x0, 31, 0⟩
def NW_PTP_DROPPED : Fld := ⟨0x180114, 0x0, 0x0, 31, 0⟩
def NW_PTP_MPD : Fld := ⟨0x180118, 0x0, 0x0, 31, 0⟩
def NW_TC_FRAMES : Fld := ⟨0x18011c, 0x0, 0x0, 31, 0⟩
def NW_TC_SKIPPED : Fld := ⟨0x180120, 0x0, 0x0, 31, 0⟩
def NW_SP_CFG_MODE : Fld := ⟨0x181000, 0x100, 0x0, 1, 0⟩
def NW_SP_CFG_USED : Fld := ⟨0x181000, 0x100, 0x0, 2, 2⟩
def NW_SP_CFG_PTP : Fld := ⟨0x181000, 0x100, 0x0, 3, 3⟩
def NW_SP_CFG_TC : Fld := ⟨0x181000, 0x100, 0x0, 4, 4⟩
def NW_SP_STATUS_LINK : Fld := ⟨0x181004, 0x100, 0x0, 0, 0⟩
def NW_SP_STATUS_ALIGNED : Fld := ⟨0x181004, 0x100, 0x0, 1, 1⟩
def NW_SP_STATUS_EYE_LOW : Fld := ⟨0x181004, 0x100, 0x0, 2, 2⟩
def NW_SP_EVENTS_LINK_UP : Fld := ⟨0x181008, 0x100, 0x0, 0, 0⟩
def NW_SP_EVENTS_LINK_DOWN : Fld := ⟨0x181008, 0x100, 0x0, 1, 1⟩
def NW_SP_EVENTS_FEC_UNCORR : Fld := ⟨0x181008, 0x100, 0x0, 2, 2⟩
def NW_SP_EVENTS_EYE_LOW : Fld := ⟨0x181008, 0x100, 0x0, 3, 3⟩
def NW_SP_ASYM : Fld := ⟨0x18100c, 0x100, 0x0, 31, 0⟩
def NW_SP_TXCOMP : Fld := ⟨0x181010, 0x100, 0x0, 31, 0⟩
def NW_SP_RXCOMP : Fld := ⟨0x181014, 0x100, 0x0, 31, 0⟩
def NW_SP_RX_FRAMES : Fld := ⟨0x181018, 0x100, 0x0, 31, 0⟩
def NW_SP_TX_FRAMES : Fld := ⟨0x18101c, 0x100, 0x0, 31, 0⟩
def NW_SP_RX_FCS_ERR : Fld := ⟨0x181020, 0x100, 0x0, 31, 0⟩
def NW_SP_RX_DROP : Fld := ⟨0x181024, 0x100, 0x0, 31, 0⟩
def NW_SP_FEC_CORR : Fld := ⟨0x181028, 0x100, 0x0, 31, 0⟩
def NW_SP_FEC_UNCORR : Fld := ⟨0x18102c, 0x100, 0x0, 31, 0⟩
def NW_SP_CUT_THROUGH : Fld := ⟨0x181030, 0x100, 0x0, 31, 0⟩
def NW_SP_CUT_STOMP : Fld := ⟨0x181034, 0x100, 0x0, 31, 0⟩
def NW_SP_TX_DISCARD : Fld := ⟨0x181038, 0x100, 0x0, 31, 0⟩
def NW_RX_CFG_KIND : Fld := ⟨0x184000, 0x20, 0x0, 2, 0⟩
def NW_RX_CFG_TWO_PATHS : Fld := ⟨0x184000, 0x20, 0x0, 3, 3⟩
def NW_RX_CFG_GROUP : Fld := ⟨0x184000, 0x20, 0x0, 12, 4⟩
def NW_RX_CFG_MEMBER : Fld := ⟨0x184000, 0x20, 0x0, 15, 13⟩
def NW_RX_CFG_CADENCE : Fld := ⟨0x184000, 0x20, 0x0, 18, 16⟩
def NW_RX_CFG_INSTEP : Fld := ⟨0x184000, 0x20, 0x0, 19, 19⟩
def NW_RX_STATE_BAD : Fld := ⟨0x184004, 0x20, 0x0, 0, 0⟩
def NW_RX_STATE_ONE_GOOD : Fld := ⟨0x184004, 0x20, 0x0, 1, 1⟩
def NW_RX_STATE_NEVER : Fld := ⟨0x184004, 0x20, 0x0, 2, 2⟩
def NW_RX_STATE_PATH0_DOWN : Fld := ⟨0x184004, 0x20, 0x0, 3, 3⟩
def NW_RX_STATE_PATH1_DOWN : Fld := ⟨0x184004, 0x20, 0x0, 4, 4⟩
def NW_RX_EVENTS_UNDERRUN : Fld := ⟨0x184008, 0x20, 0x0, 0, 0⟩
def NW_RX_EVENTS_REJOIN : Fld := ⟨0x184008, 0x20, 0x0, 1, 1⟩
def NW_RX_EVENTS_PATH_DOWN : Fld := ⟨0x184008, 0x20, 0x0, 2, 2⟩
def NW_RX_EVENTS_PATH_UP : Fld := ⟨0x184008, 0x20, 0x0, 3, 3⟩
def NW_RX_EVENTS_TS_MISMATCH : Fld := ⟨0x184008, 0x20, 0x0, 4, 4⟩
def NW_RX_EVENTS_SEQ_GAP : Fld := ⟨0x184008, 0x20, 0x0, 5, 5⟩
def NW_RX_PACKETS : Fld := ⟨0x18400c, 0x20, 0x0, 31, 0⟩
def NW_RX_LOST : Fld := ⟨0x184010, 0x20, 0x0, 31, 0⟩
def NW_RX_DUPLICATES : Fld := ⟨0x184014, 0x20, 0x0, 31, 0⟩
def NW_RX_LOST0 : Fld := ⟨0x184018, 0x20, 0x0, 31, 0⟩
def NW_RX_LOST1 : Fld := ⟨0x18401c, 0x20, 0x0, 31, 0⟩
def NW_TX_CFG_KIND : Fld := ⟨0x18c000, 0x10, 0x0, 2, 0⟩
def NW_TX_CFG_TWO_PATHS : Fld := ⟨0x18c000, 0x10, 0x0, 3, 3⟩
def NW_TX_CFG_INSTEP : Fld := ⟨0x18c000, 0x10, 0x0, 4, 4⟩
def NW_TX_CFG_SOURCE : Fld := ⟨0x18c000, 0x10, 0x0, 12, 5⟩
def NW_TX_CFG_CADENCE : Fld := ⟨0x18c000, 0x10, 0x0, 15, 13⟩
def NW_TX_PACKETS : Fld := ⟨0x18c004, 0x10, 0x0, 31, 0⟩
def NW_TX_SEQ_SEQ : Fld := ⟨0x18c008, 0x10, 0x0, 15, 0⟩
def NW_TX_DISCARDED : Fld := ⟨0x18c00c, 0x10, 0x0, 31, 0⟩
def TQ_STATUS_PENDING : Fld := ⟨0x190000, 0x0, 0x0, 7, 0⟩
def TQ_STATUS_DEBT : Fld := ⟨0x190000, 0x0, 0x0, 8, 8⟩
def TQ_EVENTS_GATE_LATE : Fld := ⟨0x190004, 0x0, 0x0, 0, 0⟩
def TQ_EVENTS_GATE_STARTED : Fld := ⟨0x190004, 0x0, 0x0, 1, 1⟩
def TQ_EVENTS_QUEUE_DROP : Fld := ⟨0x190004, 0x0, 0x0, 2, 2⟩
def TQ_EVENTS_POLICE_DROP : Fld := ⟨0x190004, 0x0, 0x0, 3, 3⟩
def TQ_DROPS : Fld := ⟨0x190008, 0x0, 0x0, 31, 0⟩
def TQ_LAST_DROP_QUEUE : Fld := ⟨0x19000c, 0x0, 0x0, 10, 0⟩
def TQ_LAST_DROP_WEIGHTED : Fld := ⟨0x19000c, 0x0, 0x0, 11, 11⟩
def TQ_LAST_DROP_FRAGMENT : Fld := ⟨0x19000c, 0x0, 0x0, 31, 16⟩
def TQ_POLICE_DROPS : Fld := ⟨0x190010, 0x0, 0x0, 31, 0⟩
def TQ_GATE_CFG_LISTS : Fld := ⟨0x190100, 0x20, 0x0, 1, 0⟩
def TQ_GATE_CFG_ACTIVE : Fld := ⟨0x190100, 0x20, 0x0, 3, 2⟩
def TQ_GATE_CFG_MODE : Fld := ⟨0x190100, 0x20, 0x0, 4, 4⟩
def TQ_GATE_CFG_CADENCE : Fld := ⟨0x190100, 0x20, 0x0, 7, 5⟩
def TQ_GATE_CFG_GATES : Fld := ⟨0x190100, 0x20, 0x0, 16, 8⟩
def TQ_GATE_CFG_PENDING : Fld := ⟨0x190100, 0x20, 0x0, 17, 17⟩
def TQ_GATE_SEL_SEL : Fld := ⟨0x190104, 0x20, 0x0, 1, 0⟩
def TQ_GATE_BASE_T0 : Fld := ⟨0x190108, 0x20, 0x0, 31, 0⟩
def TQ_GATE_BASE_T1 : Fld := ⟨0x19010c, 0x20, 0x0, 31, 0⟩
def TQ_GATE_LATE : Fld := ⟨0x190110, 0x20, 0x0, 31, 0⟩
def TQ_GATE_CYCLES : Fld := ⟨0x190114, 0x20, 0x0, 31, 0⟩
def TQ_GATE_ENTRY_ENTRY : Fld := ⟨0x190118, 0x20, 0x0, 7, 0⟩
def TQ_Q_CFG_USED : Fld := ⟨0x190400, 0x10, 0x0, 0, 0⟩
def TQ_Q_CFG_FORWARD : Fld := ⟨0x190400, 0x10, 0x0, 1, 1⟩
def TQ_Q_CFG_SHAPED : Fld := ⟨0x190400, 0x10, 0x0, 2, 2⟩
def TQ_Q_CFG_SHAPER : Fld := ⟨0x190400, 0x10, 0x0, 12, 3⟩
def TQ_Q_DEPTH_DEPTH : Fld := ⟨0x190404, 0x10, 0x0, 24, 0⟩
def TQ_Q_FILL_FILL : Fld := ⟨0x190408, 0x10, 0x0, 24, 0⟩
def TQ_Q_DROPS : Fld := ⟨0x19040c, 0x10, 0x0, 31, 0⟩
def TQ_SH_RATE_RATE : Fld := ⟨0x194000, 0x10, 0x0, 28, 0⟩
def TQ_SH_BURST_BURST : Fld := ⟨0x194004, 0x10, 0x0, 24, 0⟩
def TQ_SH_CREDIT : Fld := ⟨0x194008, 0x10, 0x0, 31, 0⟩
def TQ_SH_CFG_USED : Fld := ⟨0x19400c, 0x10, 0x0, 0, 0⟩
def TQ_SH_CFG_KIND : Fld := ⟨0x19400c, 0x10, 0x0, 1, 1⟩
def TQ_SH_CFG_QUEUE : Fld := ⟨0x19400c, 0x10, 0x0, 12, 2⟩
def TQ_SH_CFG_DEBT : Fld := ⟨0x19400c, 0x10, 0x0, 13, 13⟩
def TQ_W_CFG_WEIGHT : Fld := ⟨0x198000, 0x8, 0x0, 15, 0⟩
def TQ_W_CFG_SUBPORT : Fld := ⟨0x198000, 0x8, 0x0, 17, 16⟩
def TQ_W_CFG_SHAPER : Fld := ⟨0x198000, 0x8, 0x0, 27, 18⟩
def TQ_W_CFG_SHAPED : Fld := ⟨0x198000, 0x8, 0x0, 28, 28⟩
def TQ_W_CFG_FORWARD : Fld := ⟨0x198000, 0x8, 0x0, 29, 29⟩
def TQ_W_CFG_USED : Fld := ⟨0x198000, 0x8, 0x0, 30, 30⟩
def TQ_W_FILL_FILL : Fld := ⟨0x198004, 0x8, 0x0, 24, 0⟩
def TQ_POL : Fld := ⟨0x19c000, 0x4, 0x0, 31, 0⟩
def SM_STATUS_KEYS : Fld := ⟨0x1a0000, 0x0, 0x0, 3, 0⟩
def SM_STATUS_REVOKED : Fld := ⟨0x1a0000, 0x0, 0x0, 7, 4⟩
def SM_STATUS_OPEN : Fld := ⟨0x1a0000, 0x0, 0x0, 14, 8⟩
def SM_STATUS_XFER : Fld := ⟨0x1a0000, 0x0, 0x0, 15, 15⟩
def SM_EVENTS_AUTH_FAIL : Fld := ⟨0x1a0004, 0x0, 0x0, 0, 0⟩
def SM_EVENTS_REPEAT : Fld := ⟨0x1a0004, 0x0, 0x0, 1, 1⟩
def SM_EVENTS_STALE : Fld := ⟨0x1a0004, 0x0, 0x0, 2, 2⟩
def SM_EVENTS_EXPIRED : Fld := ⟨0x1a0004, 0x0, 0x0, 3, 3⟩
def SM_EVENTS_BUSY : Fld := ⟨0x1a0004, 0x0, 0x0, 4, 4⟩
def SM_EVENTS_POST_DROP : Fld := ⟨0x1a0004, 0x0, 0x0, 5, 5⟩
def SM_EVENTS_EPOCH_SET : Fld := ⟨0x1a0004, 0x0, 0x0, 6, 6⟩
def SM_CFG_PORT : Fld := ⟨0x1a0008, 0x0, 0x0, 15, 0⟩
def SM_CFG_QUAR : Fld := ⟨0x1a0008, 0x0, 0x0, 21, 16⟩
def SM_QUAR_FILL_FILL : Fld := ⟨0x1a000c, 0x0, 0x0, 12, 0⟩
def SM_REQUESTS : Fld := ⟨0x1a0010, 0x0, 0x0, 31, 0⟩
def SM_REFUSED : Fld := ⟨0x1a0014, 0x0, 0x0, 31, 0⟩
def SM_AUTH_FAIL : Fld := ⟨0x1a0018, 0x0, 0x0, 31, 0⟩
def SM_REPEATS : Fld := ⟨0x1a001c, 0x0, 0x0, 31, 0⟩
def SM_STALE : Fld := ⟨0x1a0020, 0x0, 0x0, 31, 0⟩
def SM_EXPIRED : Fld := ⟨0x1a0024, 0x0, 0x0, 31, 0⟩
def SM_POST_DROP : Fld := ⟨0x1a0028, 0x0, 0x0, 31, 0⟩
def SM_SLOT_EPOCH_EPOCH : Fld := ⟨0x1a0040, 0x8, 0x0, 7, 0⟩
def SM_SLOT_EPOCH_VALID : Fld := ⟨0x1a0040, 0x8, 0x0, 8, 8⟩
def SM_SLOT_EPOCH_OPEN : Fld := ⟨0x1a0040, 0x8, 0x0, 9, 9⟩
def SM_SLOT_ALIVE : Fld := ⟨0x1a0044, 0x8, 0x0, 31, 0⟩
def SM_SUB_CFG_ACTIVE : Fld := ⟨0x1a0100, 0x10, 0x0, 0, 0⟩
def SM_SUB_CFG_KEY : Fld := ⟨0x1a0100, 0x10, 0x0, 2, 1⟩
def SM_SUB_CFG_IPV6 : Fld := ⟨0x1a0100, 0x10, 0x0, 3, 3⟩
def SM_SUB_CFG_DEST_PORT : Fld := ⟨0x1a0100, 0x10, 0x0, 31, 16⟩
def SM_SUB_BLOCKS_BLOCKS : Fld := ⟨0x1a0104, 0x10, 0x0, 22, 0⟩
def SM_SUB_POSTS : Fld := ⟨0x1a0108, 0x10, 0x0, 31, 0⟩
def SM_SUB_DROPS : Fld := ⟨0x1a010c, 0x10, 0x0, 31, 0⟩
def AU_STATUS_CLOCK_LOSS : Fld := ⟨0x1b0000, 0x0, 0x0, 15, 0⟩
def AU_STATUS_MUTED : Fld := ⟨0x1b0000, 0x0, 0x0, 16, 16⟩
def AU_STATUS_UNLOCKED : Fld := ⟨0x1b0000, 0x0, 0x0, 17, 17⟩
def AU_EVENTS_UNDERRUN : Fld := ⟨0x1b0004, 0x0, 0x0, 0, 0⟩
def AU_EVENTS_REJOIN : Fld := ⟨0x1b0004, 0x0, 0x0, 1, 1⟩
def AU_EVENTS_CLOCK_LOSS : Fld := ⟨0x1b0004, 0x0, 0x0, 2, 2⟩
def AU_EVENTS_RATE_ERR : Fld := ⟨0x1b0004, 0x0, 0x0, 3, 3⟩
def AU_EVENTS_ACP_MISMATCH : Fld := ⟨0x1b0004, 0x0, 0x0, 4, 4⟩
def AU_CONCEALED : Fld := ⟨0x1b0008, 0x0, 0x0, 31, 0⟩
def AU_P_CFG_FORMAT : Fld := ⟨0x1b0100, 0x20, 0x0, 1, 0⟩
def AU_P_CFG_MASTER : Fld := ⟨0x1b0100, 0x20, 0x0, 2, 2⟩
def AU_P_CFG_RATE : Fld := ⟨0x1b0100, 0x20, 0x0, 5, 3⟩
def AU_P_CFG_SLOTS : Fld := ⟨0x1b0100, 0x20, 0x0, 10, 6⟩
def AU_P_CFG_SLOT_BITS : Fld := ⟨0x1b0100, 0x20, 0x0, 12, 11⟩
def AU_P_CFG_WIDTH : Fld := ⟨0x1b0100, 0x20, 0x0, 14, 13⟩
def AU_P_CFG_TDM_DELAY : Fld := ⟨0x1b0100, 0x20, 0x0, 15, 15⟩
def AU_P_CFG_RX_USED : Fld := ⟨0x1b0100, 0x20, 0x0, 16, 16⟩
def AU_P_CFG_TX_USED : Fld := ⟨0x1b0100, 0x20, 0x0, 17, 17⟩
def AU_P_CFG_SYNC : Fld := ⟨0x1b0100, 0x20, 0x0, 18, 18⟩
def AU_P_CFG_TX_HIZ : Fld := ⟨0x1b0100, 0x20, 0x0, 19, 19⟩
def AU_P_CFG_CADENCE : Fld := ⟨0x1b0100, 0x20, 0x0, 22, 20⟩
def AU_P_RXMASK : Fld := ⟨0x1b0104, 0x20, 0x0, 31, 0⟩
def AU_P_TXMASK : Fld := ⟨0x1b0108, 0x20, 0x0, 31, 0⟩
def AU_P_STATUS_CLOCK_OK : Fld := ⟨0x1b010c, 0x20, 0x0, 0, 0⟩
def AU_P_STATUS_CLOCK_LOSS : Fld := ⟨0x1b010c, 0x20, 0x0, 1, 1⟩
def AU_P_STATUS_MUTED : Fld := ⟨0x1b010c, 0x20, 0x0, 2, 2⟩
def AU_P_STATUS_ONE_GOOD : Fld := ⟨0x1b010c, 0x20, 0x0, 3, 3⟩
def AU_P_STATUS_NEVER : Fld := ⟨0x1b010c, 0x20, 0x0, 4, 4⟩
def AU_P_STATUS_RATE_ERR : Fld := ⟨0x1b010c, 0x20, 0x0, 5, 5⟩
def AU_P_STATUS_TX_HOLD : Fld := ⟨0x1b010c, 0x20, 0x0, 6, 6⟩
def AU_P_EVENTS_CLOCK_LOSS : Fld := ⟨0x1b0110, 0x20, 0x0, 0, 0⟩
def AU_P_EVENTS_CLOCK_BACK : Fld := ⟨0x1b0110, 0x20, 0x0, 1, 1⟩
def AU_P_EVENTS_UNDERRUN : Fld := ⟨0x1b0110, 0x20, 0x0, 2, 2⟩
def AU_P_EVENTS_REJOIN : Fld := ⟨0x1b0110, 0x20, 0x0, 3, 3⟩
def AU_P_EVENTS_RATE_ERR : Fld := ⟨0x1b0110, 0x20, 0x0, 4, 4⟩
def AU_P_EVENTS_OVERFLOW : Fld := ⟨0x1b0110, 0x20, 0x0, 5, 5⟩
def AU_P_WCLK_RATE : Fld := ⟨0x1b0114, 0x20, 0x0, 31, 0⟩
def AU_P_CONCEALED : Fld := ⟨0x1b0118, 0x20, 0x0, 31, 0⟩
def AU_ASRC_RATIO : Fld := ⟨0x1b0400, 0x10, 0x0, 31, 0⟩
def AU_ASRC_CFG_USED : Fld := ⟨0x1b0404, 0x10, 0x0, 0, 0⟩
def AU_ASRC_CFG_TRACKING : Fld := ⟨0x1b0404, 0x10, 0x0, 1, 1⟩
def AU_ASRC_CFG_LOCK : Fld := ⟨0x1b0404, 0x10, 0x0, 2, 2⟩
def AU_ASRC_CFG_RATE_ERR : Fld := ⟨0x1b0404, 0x10, 0x0, 3, 3⟩
def AU_ASRC_CFG_CHANNELS : Fld := ⟨0x1b0404, 0x10, 0x0, 8, 4⟩
def AU_ASRC_OFFSET : Fld := ⟨0x1b0408, 0x10, 0x0, 31, 0⟩
def AU_GRP_CFG_CADENCE : Fld := ⟨0x1b1000, 0x10, 0x0, 2, 0⟩
def AU_GRP_CFG_WINDOW : Fld := ⟨0x1b1000, 0x10, 0x0, 9, 3⟩
def AU_GRP_CFG_MEMBERS : Fld := ⟨0x1b1000, 0x10, 0x0, 13, 10⟩
def AU_GRP_CFG_RATE96 : Fld := ⟨0x1b1000, 0x10, 0x0, 14, 14⟩
def AU_GRP_STATE_BAD : Fld := ⟨0x1b1004, 0x10, 0x0, 15, 0⟩
def AU_GRP_STATE_NEVER : Fld := ⟨0x1b1004, 0x10, 0x0, 16, 16⟩
def AU_GRP_UNDERRUNS : Fld := ⟨0x1b1008, 0x10, 0x0, 31, 0⟩
def AU_GRP_REJOINS : Fld := ⟨0x1b100c, 0x10, 0x0, 31, 0⟩
def AU_MAP_CFG_MUTE : Fld := ⟨0x1b2000, 0x8, 0x0, 0, 0⟩
def AU_MAP_CFG_USED : Fld := ⟨0x1b2000, 0x8, 0x0, 1, 1⟩
def AU_MAP_CFG_SOURCE : Fld := ⟨0x1b2000, 0x8, 0x0, 13, 2⟩
def AU_MAP_CFG_KIND : Fld := ⟨0x1b2000, 0x8, 0x0, 16, 14⟩
def AU_MAP_DEST_INSTANCE : Fld := ⟨0x1b2004, 0x8, 0x0, 15, 0⟩
def AU_MAP_DEST_CHANNEL : Fld := ⟨0x1b2004, 0x8, 0x0, 21, 16⟩
def MC_STATUS_HOT : Fld := ⟨0x1c0000, 0x0, 0x0, 15, 0⟩
def MC_STATUS_SENSOR_FAULT : Fld := ⟨0x1c0000, 0x0, 0x0, 16, 16⟩
def MC_STATUS_OVER_LIMIT : Fld := ⟨0x1c0000, 0x0, 0x0, 17, 17⟩
def MC_STATUS_CATCHUP : Fld := ⟨0x1c0000, 0x0, 0x0, 18, 18⟩
def MC_EVENTS_HOT : Fld := ⟨0x1c0004, 0x0, 0x0, 0, 0⟩
def MC_EVENTS_COOL : Fld := ⟨0x1c0004, 0x0, 0x0, 1, 1⟩
def MC_EVENTS_BREACH : Fld := ⟨0x1c0004, 0x0, 0x0, 2, 2⟩
def MC_EVENTS_SPACING : Fld := ⟨0x1c0004, 0x0, 0x0, 3, 3⟩
def MC_EVENTS_REGION_FAULT : Fld := ⟨0x1c0004, 0x0, 0x0, 4, 4⟩
def MC_EVENTS_ECC_UNCORR : Fld := ⟨0x1c0004, 0x0, 0x0, 5, 5⟩
def MC_EVENTS_LATE : Fld := ⟨0x1c0004, 0x0, 0x0, 6, 6⟩
def MC_EVENTS_SENSOR_FAULT : Fld := ⟨0x1c0004, 0x0, 0x0, 7, 7⟩
def MC_EVENTS_OVER_LIMIT : Fld := ⟨0x1c0004, 0x0, 0x0, 8, 8⟩
def MC_BREACH_REGION : Fld := ⟨0x1c0008, 0x0, 0x0, 3, 0⟩
def MC_BREACH_CAUSE : Fld := ⟨0x1c0008, 0x0, 0x0, 5, 4⟩
def MC_BREACH_FRAME : Fld := ⟨0x1c0008, 0x0, 0x0, 31, 16⟩
def MC_BREACH_COUNT : Fld := ⟨0x1c000c, 0x0, 0x0, 31, 0⟩
def MC_XOR_ROW_SEL : Fld := ⟨0x1c0010, 0x4, 0x0, 11, 0⟩
def MC_XOR_COL_SEL : Fld := ⟨0x1c0010, 0x4, 0x0, 18, 12⟩
def MC_OWNER_LO : Fld := ⟨0x1c0024, 0x0, 0x0, 31, 0⟩
def MC_OWNER_HI : Fld := ⟨0x1c0028, 0x0, 0x0, 31, 0⟩
def MC_HAMMER_THRESH : Fld := ⟨0x1c002c, 0x0, 0x0, 14, 0⟩
def MC_PASR_RETAIN : Fld := ⟨0x1c0030, 0x0, 0x0, 15, 0⟩
def MC_TEMP_TEMP : Fld := ⟨0x1c0040, 0x4, 0x0, 15, 0⟩
def MC_LATE : Fld := ⟨0x1c0050, 0x0, 0x0, 31, 0⟩
def MC_SPACING : Fld := ⟨0x1c0054, 0x0, 0x0, 31, 0⟩
def MC_REGION_FAULTS : Fld := ⟨0x1c0058, 0x0, 0x0, 31, 0⟩
def MC_ECC_CORR : Fld := ⟨0x1c005c, 0x0, 0x0, 31, 0⟩
def MC_ECC_UNCORR : Fld := ⟨0x1c0060, 0x0, 0x0, 31, 0⟩
def MC_SENSOR_DROPS : Fld := ⟨0x1c0064, 0x0, 0x0, 31, 0⟩
def MC_LAST_FAULT_ADDR : Fld := ⟨0x1c0068, 0x0, 0x0, 27, 0⟩
def MC_LAST_FAULT_KIND : Fld := ⟨0x1c0068, 0x0, 0x0, 29, 28⟩
def MC_REG_STATE_DEBT : Fld := ⟨0x1c0100, 0x10, 0x0, 7, 0⟩
def MC_REG_STATE_HOT : Fld := ⟨0x1c0100, 0x10, 0x0, 8, 8⟩
def MC_REG_STATE_CATCHUP : Fld := ⟨0x1c0100, 0x10, 0x0, 9, 9⟩
def MC_REG_STATE_SELF : Fld := ⟨0x1c0100, 0x10, 0x0, 10, 10⟩
def MC_REG_STATE_QUEUE : Fld := ⟨0x1c0100, 0x10, 0x0, 16, 11⟩
def MC_REG_REFRESHES : Fld := ⟨0x1c0104, 0x10, 0x0, 31, 0⟩
def MC_REG_NEIGHBOURS : Fld := ⟨0x1c0108, 0x10, 0x0, 31, 0⟩
def MC_REG_MAX_MAX_DEBT : Fld := ⟨0x1c010c, 0x10, 0x0, 7, 0⟩
def MC_REG_MAX_FORCED : Fld := ⟨0x1c010c, 0x10, 0x0, 31, 8⟩
def DM_STATUS_RUNNING : Fld := ⟨0x1d0000, 0x0, 0x0, 7, 0⟩
def DM_STATUS_STOPPED : Fld := ⟨0x1d0000, 0x0, 0x0, 15, 8⟩
def DM_EVENTS_STOPPED : Fld := ⟨0x1d0004, 0x0, 0x0, 0, 0⟩
def DM_EVENTS_RESTARTED : Fld := ⟨0x1d0004, 0x0, 0x0, 1, 1⟩
def DM_EVENTS_UNDERRUN : Fld := ⟨0x1d0004, 0x0, 0x0, 2, 2⟩
def DM_EVENTS_ECC : Fld := ⟨0x1d0004, 0x0, 0x0, 3, 3⟩
def DM_EVENTS_MISSED : Fld := ⟨0x1d0004, 0x0, 0x0, 4, 4⟩
def DM_EVENTS_WAIT_SKIP : Fld := ⟨0x1d0004, 0x0, 0x0, 5, 5⟩
def DM_STOPPED : Fld := ⟨0x1d0010, 0x4, 0x0, 31, 0⟩
def DM_CH_CFG_CADENCE : Fld := ⟨0x1d1000, 0x40, 0x0, 2, 0⟩
def DM_CH_CFG_USED : Fld := ⟨0x1d1000, 0x40, 0x0, 3, 3⟩
def DM_CH_CFG_RESTART : Fld := ⟨0x1d1000, 0x40, 0x0, 4, 4⟩
def DM_CH_CFG_STARTS : Fld := ⟨0x1d1000, 0x40, 0x0, 8, 5⟩
def DM_CH_CFG_FIRST : Fld := ⟨0x1d1000, 0x40, 0x0, 24, 9⟩
def DM_CH_STATUS_STATE : Fld := ⟨0x1d1004, 0x40, 0x0, 1, 0⟩
def DM_CH_STATUS_CAUSE : Fld := ⟨0x1d1004, 0x40, 0x0, 4, 2⟩
def DM_CH_STATUS_PENDING : Fld := ⟨0x1d1004, 0x40, 0x0, 12, 5⟩
def DM_CH_STATUS_ECC : Fld := ⟨0x1d1004, 0x40, 0x0, 13, 13⟩
def DM_CH_EVENTS_STOPPED : Fld := ⟨0x1d1008, 0x40, 0x0, 0, 0⟩
def DM_CH_EVENTS_RESTARTED : Fld := ⟨0x1d1008, 0x40, 0x0, 1, 1⟩
def DM_CH_EVENTS_UNDERRUN : Fld := ⟨0x1d1008, 0x40, 0x0, 2, 2⟩
def DM_CH_EVENTS_ECC : Fld := ⟨0x1d1008, 0x40, 0x0, 3, 3⟩
def DM_CH_EVENTS_MISSED : Fld := ⟨0x1d1008, 0x40, 0x0, 4, 4⟩
def DM_CH_EVENTS_WAIT_SKIP : Fld := ⟨0x1d1008, 0x40, 0x0, 5, 5⟩
def DM_CH_CTRL_START : Fld := ⟨0x1d100c, 0x40, 0x0, 0, 0⟩
def DM_CH_CTRL_RESTART : Fld := ⟨0x1d100c, 0x40, 0x0, 1, 1⟩
def DM_CH_ACTIVATIONS : Fld := ⟨0x1d1010, 0x40, 0x0, 31, 0⟩
def DM_CH_LAST_COUNT_COUNT : Fld := ⟨0x1d1014, 0x40, 0x0, 19, 0⟩
def DM_CH_FAULT_AT_INDEX : Fld := ⟨0x1d1018, 0x40, 0x0, 15, 0⟩
def DM_CH_FAULT_AT_FRAME : Fld := ⟨0x1d1018, 0x40, 0x0, 31, 16⟩
def DM_CH_MISSED : Fld := ⟨0x1d101c, 0x40, 0x0, 31, 0⟩
def DM_CH_UNDERRUNS : Fld := ⟨0x1d1020, 0x40, 0x0, 31, 0⟩
def DM_CH_WAIT_SKIPS : Fld := ⟨0x1d1024, 0x40, 0x0, 31, 0⟩
def DM_CH_ECC : Fld := ⟨0x1d1028, 0x40, 0x0, 31, 0⟩
def DM_SQ_CFG_USED : Fld := ⟨0x1d4000, 0x10, 0x0, 0, 0⟩
def DM_SQ_CFG_DIRECTION : Fld := ⟨0x1d4000, 0x10, 0x0, 1, 1⟩
def DM_SQ_CFG_DEPTH : Fld := ⟨0x1d4000, 0x10, 0x0, 26, 2⟩
def DM_SQ_FILL_FILL : Fld := ⟨0x1d4004, 0x10, 0x0, 24, 0⟩
def DM_SQ_FILL_PACE : Fld := ⟨0x1d4004, 0x10, 0x0, 25, 25⟩
def DM_SQ_HIGH : Fld := ⟨0x1d4008, 0x10, 0x0, 31, 0⟩
def DM_SQ_LOW : Fld := ⟨0x1d400c, 0x10, 0x0, 31, 0⟩
def CK_STATUS_UNITS : Fld := ⟨0x1e0000, 0x0, 0x0, 6, 0⟩
def CK_EVENTS_GAP : Fld := ⟨0x1e0004, 0x0, 0x0, 0, 0⟩
def CK_EVENTS_REPEAT : Fld := ⟨0x1e0004, 0x0, 0x0, 1, 1⟩
def CK_EVENTS_ERR : Fld := ⟨0x1e0004, 0x0, 0x0, 2, 2⟩
def CK_U_CFG_WIDTH : Fld := ⟨0x1e0100, 0x40, 0x0, 5, 0⟩
def CK_U_CFG_REFIN : Fld := ⟨0x1e0100, 0x40, 0x0, 6, 6⟩
def CK_U_CFG_REFOUT : Fld := ⟨0x1e0100, 0x40, 0x0, 7, 7⟩
def CK_U_CFG_INV : Fld := ⟨0x1e0100, 0x40, 0x0, 8, 8⟩
def CK_U_CFG_ALIVE : Fld := ⟨0x1e0100, 0x40, 0x0, 9, 9⟩
def CK_U_CFG_CBITS : Fld := ⟨0x1e0100, 0x40, 0x0, 11, 10⟩
def CK_U_CFG_BIG : Fld := ⟨0x1e0100, 0x40, 0x0, 12, 12⟩
def CK_U_CFG_AOFFSET : Fld := ⟨0x1e0100, 0x40, 0x0, 28, 13⟩
def CK_U_CFG_BOUND : Fld := ⟨0x1e0100, 0x40, 0x0, 29, 29⟩
def CK_U_POLY_LO : Fld := ⟨0x1e0104, 0x40, 0x0, 31, 0⟩
def CK_U_POLY_HI : Fld := ⟨0x1e0108, 0x40, 0x0, 31, 0⟩
def CK_U_INIT_LO : Fld := ⟨0x1e010c, 0x40, 0x0, 31, 0⟩
def CK_U_INIT_HI : Fld := ⟨0x1e0110, 0x40, 0x0, 31, 0⟩
def CK_U_VALUE_LO : Fld := ⟨0x1e0114, 0x40, 0x0, 31, 0⟩
def CK_U_VALUE_HI : Fld := ⟨0x1e0118, 0x40, 0x0, 31, 0⟩
def CK_U_RESULT_LO : Fld := ⟨0x1e011c, 0x40, 0x0, 31, 0⟩
def CK_U_RESULT_HI : Fld := ⟨0x1e0120, 0x40, 0x0, 31, 0⟩
def CK_U_BYTES : Fld := ⟨0x1e0124, 0x40, 0x0, 31, 0⟩
def CK_U_ALIVE_LAST : Fld := ⟨0x1e0128, 0x40, 0x0, 31, 0⟩
def CK_U_GAPS : Fld := ⟨0x1e012c, 0x40, 0x0, 31, 0⟩
def CK_U_REPEATS : Fld := ⟨0x1e0130, 0x40, 0x0, 31, 0⟩
def CK_U_TAKES : Fld := ⟨0x1e0134, 0x40, 0x0, 31, 0⟩
def CK_U_FLAGS_ERR : Fld := ⟨0x1e0138, 0x40, 0x0, 0, 0⟩
def CK_U_FLAGS_FIRST : Fld := ⟨0x1e0138, 0x40, 0x0, 1, 1⟩
def PA_STATUS_CLAIMED : Fld := ⟨0x1f0000, 0x0, 0x0, 12, 0⟩
def PA_STATUS_RESIDENT : Fld := ⟨0x1f0000, 0x0, 0x0, 23, 13⟩
def PA_EVENTS_OVERRUN : Fld := ⟨0x1f0004, 0x0, 0x0, 0, 0⟩
def PA_EVENTS_STOPPED : Fld := ⟨0x1f0004, 0x0, 0x0, 1, 1⟩
def PA_EVENTS_LATE : Fld := ⟨0x1f0004, 0x0, 0x0, 2, 2⟩
def PA_EVENTS_TIMEOUT : Fld := ⟨0x1f0004, 0x0, 0x0, 3, 3⟩
def PA_EVENTS_OVERPOST : Fld := ⟨0x1f0004, 0x0, 0x0, 4, 4⟩
def PA_LAST_FAULT_THREAD : Fld := ⟨0x1f0008, 0x0, 0x0, 11, 0⟩
def PA_LAST_FAULT_CAUSE : Fld := ⟨0x1f0008, 0x0, 0x0, 14, 12⟩
def PA_LAST_FAULT_FRAME : Fld := ⟨0x1f0008, 0x0, 0x0, 31, 16⟩
def PA_RELEASE_THREAD : Fld := ⟨0x1f000c, 0x0, 0x0, 11, 0⟩
def PA_RESTART_THREAD : Fld := ⟨0x1f0010, 0x0, 0x0, 11, 0⟩
def PA_OVERRUNS : Fld := ⟨0x1f0014, 0x0, 0x0, 31, 0⟩
def PA_LATE : Fld := ⟨0x1f0018, 0x0, 0x0, 31, 0⟩
def PA_TIMEOUTS : Fld := ⟨0x1f001c, 0x0, 0x0, 31, 0⟩
def PA_OVERPOSTS : Fld := ⟨0x1f0020, 0x0, 0x0, 31, 0⟩
def PA_CORE_RUN_RUNNING : Fld := ⟨0x1f0100, 0x20, 0x0, 11, 0⟩
def PA_CORE_RUN_BUSY : Fld := ⟨0x1f0100, 0x20, 0x0, 12, 12⟩
def PA_CORE_SWITCHES : Fld := ⟨0x1f0104, 0x20, 0x0, 31, 0⟩
def PA_CORE_STALL_HITS : Fld := ⟨0x1f0108, 0x20, 0x0, 31, 0⟩
def PA_CORE_SPILLS : Fld := ⟨0x1f010c, 0x20, 0x0, 31, 0⟩
def PA_CORE_BUSY : Fld := ⟨0x1f0110, 0x20, 0x0, 31, 0⟩
def PA_CORE_REFUSED_REF_ADDR : Fld := ⟨0x1f0114, 0x20, 0x0, 23, 0⟩
def PA_CORE_REFUSED_REF_CODE : Fld := ⟨0x1f0114, 0x20, 0x0, 31, 24⟩
def PA_CORE_WIN_BASE : Fld := ⟨0x1f0400, 0x20, 0x4, 5, 0⟩
def PA_CORE_WIN_VALID : Fld := ⟨0x1f0400, 0x20, 0x4, 6, 6⟩
def PA_TH_STATE_STATE : Fld := ⟨0x1f8000, 0x8, 0x0, 2, 0⟩
def PA_TH_STATE_CORE : Fld := ⟨0x1f8000, 0x8, 0x0, 5, 3⟩
def PA_TH_STATE_PRIORITY : Fld := ⟨0x1f8000, 0x8, 0x0, 10, 6⟩
def PA_TH_STATE_RESIDENT : Fld := ⟨0x1f8000, 0x8, 0x0, 11, 11⟩
def PA_TH_STATE_PENDING : Fld := ⟨0x1f8000, 0x8, 0x0, 15, 12⟩
def PA_TH_STATE_CAUSE : Fld := ⟨0x1f8000, 0x8, 0x0, 18, 16⟩
def PA_TH_COUNT_COUNT : Fld := ⟨0x1f8004, 0x8, 0x0, 15, 0⟩
def PA_TH_COUNT_EXPIRY : Fld := ⟨0x1f8004, 0x8, 0x0, 31, 16⟩
def MR_STATUS_LINK_UP : Fld := ⟨0x200000, 0x0, 0x0, 0, 0⟩
def MR_STATUS_WHEY_UP : Fld := ⟨0x200000, 0x0, 0x0, 1, 1⟩
def MR_STATUS_TRAINING : Fld := ⟨0x200000, 0x0, 0x0, 2, 2⟩
def MR_STATUS_XSTREAM_OK : Fld := ⟨0x200000, 0x0, 0x0, 3, 3⟩
def MR_STATUS_HOLDER : Fld := ⟨0x200000, 0x0, 0x0, 15, 8⟩
def MR_STATUS_DIVERGED : Fld := ⟨0x200000, 0x0, 0x0, 23, 16⟩
def MR_EVENTS_LINK_UP : Fld := ⟨0x200004, 0x0, 0x0, 0, 0⟩
def MR_EVENTS_LINK_DOWN : Fld := ⟨0x200004, 0x0, 0x0, 1, 1⟩
def MR_EVENTS_WHEY_LOST : Fld := ⟨0x200004, 0x0, 0x0, 2, 2⟩
def MR_EVENTS_WHEY_BACK : Fld := ⟨0x200004, 0x0, 0x0, 3, 3⟩
def MR_EVENTS_TAKE : Fld := ⟨0x200004, 0x0, 0x0, 4, 4⟩
def MR_EVENTS_EXPIRED : Fld := ⟨0x200004, 0x0, 0x0, 5, 5⟩
def MR_EVENTS_HANDOVER : Fld := ⟨0x200004, 0x0, 0x0, 6, 6⟩
def MR_EVENTS_DIVERGED : Fld := ⟨0x200004, 0x0, 0x0, 7, 7⟩
def MR_EVENTS_REJOINED : Fld := ⟨0x200004, 0x0, 0x0, 8, 8⟩
def MR_CTRL_PAIL : Fld := ⟨0x200008, 0x0, 0x0, 2, 0⟩
def MR_CTRL_HANDOVER : Fld := ⟨0x200008, 0x0, 0x0, 3, 3⟩
def MR_CTRL_SEIZE : Fld := ⟨0x200008, 0x0, 0x0, 4, 4⟩
def MR_LINK_DELAY : Fld := ⟨0x20000c, 0x0, 0x0, 9, 0⟩
def MR_LINK_LOCKED : Fld := ⟨0x20000c, 0x0, 0x0, 13, 10⟩
def MR_LINK_OFFSET : Fld := ⟨0x20000c, 0x0, 0x0, 29, 14⟩
def MR_REC_ERR : Fld := ⟨0x200010, 0x0, 0x0, 31, 0⟩
def MR_LINK_DOWNS : Fld := ⟨0x200014, 0x0, 0x0, 31, 0⟩
def MR_WHEY_ERR : Fld := ⟨0x200018, 0x0, 0x0, 31, 0⟩
def MR_MATCHED : Fld := ⟨0x20001c, 0x0, 0x0, 31, 0⟩
def MR_DIVERGED : Fld := ⟨0x200020, 0x0, 0x0, 31, 0⟩
def MR_UNCHECKED : Fld := ⟨0x200024, 0x0, 0x0, 31, 0⟩
def MR_LAST_DIV_CHANNEL : Fld := ⟨0x200028, 0x0, 0x0, 7, 0⟩
def MR_LAST_DIV_SLICE : Fld := ⟨0x200028, 0x0, 0x0, 18, 8⟩
def MR_LAST_DIV_FAULT_HERE : Fld := ⟨0x200028, 0x0, 0x0, 19, 19⟩
def MR_LAST_DIV_FAULT_PEER : Fld := ⟨0x200028, 0x0, 0x0, 20, 20⟩
def MR_LAST_DIV_FRAME : Fld := ⟨0x200028, 0x0, 0x0, 31, 24⟩
def MR_PAIL_CFG_USED : Fld := ⟨0x200100, 0x20, 0x0, 0, 0⟩
def MR_PAIL_CFG_LEASE : Fld := ⟨0x200100, 0x20, 0x0, 6, 1⟩
def MR_PAIL_CFG_GUARD : Fld := ⟨0x200100, 0x20, 0x0, 11, 7⟩
def MR_PAIL_CFG_INIT_HOLDER : Fld := ⟨0x200100, 0x20, 0x0, 12, 12⟩
def MR_PAIL_CFG_POLICY : Fld := ⟨0x200100, 0x20, 0x0, 13, 13⟩
def MR_PAIL_CFG_RESYNC_FORCE : Fld := ⟨0x200100, 0x20, 0x0, 14, 14⟩
def MR_PAIL_STATE_ROLE : Fld := ⟨0x200104, 0x20, 0x0, 2, 0⟩
def MR_PAIL_STATE_UNCOND : Fld := ⟨0x200104, 0x20, 0x0, 3, 3⟩
def MR_PAIL_STATE_PATH : Fld := ⟨0x200104, 0x20, 0x0, 4, 4⟩
def MR_PAIL_STATE_LIMIT : Fld := ⟨0x200104, 0x20, 0x0, 17, 5⟩
def MR_PAIL_STATE_DRAINED : Fld := ⟨0x200104, 0x20, 0x0, 30, 18⟩
def MR_PAIL_TAKES : Fld := ⟨0x200108, 0x20, 0x0, 31, 0⟩
def MR_PAIL_HANDOVERS : Fld := ⟨0x20010c, 0x20, 0x0, 31, 0⟩
def MR_PAIL_RESENT : Fld := ⟨0x200110, 0x20, 0x0, 31, 0⟩
def MR_PAIL_TAKE_TAKE_LINE : Fld := ⟨0x200114, 0x20, 0x0, 12, 0⟩
def MR_PAIL_TAKE_TAKE_FRAME : Fld := ⟨0x200114, 0x20, 0x0, 31, 13⟩
def MR_EC_INSTEP : Fld := ⟨0x200400, 0x4, 0x0, 0, 0⟩
def MR_EC_DIVERGED : Fld := ⟨0x200400, 0x4, 0x0, 1, 1⟩
def MR_EC_RESYNCING : Fld := ⟨0x200400, 0x4, 0x0, 2, 2⟩
def MR_EC_FAULT_HERE : Fld := ⟨0x200400, 0x4, 0x0, 3, 3⟩
def MR_EC_MISMATCHES : Fld := ⟨0x200400, 0x4, 0x0, 31, 16⟩
def SC_STATUS_OWNER_VALID : Fld := ⟨0x210000, 0x0, 0x0, 3, 0⟩
def SC_STATUS_OWNER_REVOKED : Fld := ⟨0x210000, 0x0, 0x0, 7, 4⟩
def SC_STATUS_OWNER_DAMAGED : Fld := ⟨0x210000, 0x0, 0x0, 11, 8⟩
def SC_STATUS_RECOVERY : Fld := ⟨0x210000, 0x0, 0x0, 12, 12⟩
def SC_STATUS_FW_SLOT : Fld := ⟨0x210000, 0x0, 0x0, 13, 13⟩
def SC_STATUS_FW_UNCOMMITTED : Fld := ⟨0x210000, 0x0, 0x0, 14, 14⟩
def SC_STATUS_PLAN_UNCOMMITTED : Fld := ⟨0x210000, 0x0, 0x0, 15, 15⟩
def SC_STATUS_TEST : Fld := ⟨0x210000, 0x0, 0x0, 16, 16⟩
def SC_STATUS_QUOTE_BUSY : Fld := ⟨0x210000, 0x0, 0x0, 17, 17⟩
def SC_STATUS_QUOTE_READY : Fld := ⟨0x210000, 0x0, 0x0, 18, 18⟩
def SC_STATUS_BURNING : Fld := ⟨0x210000, 0x0, 0x0, 19, 19⟩
def SC_STATUS_HB_CLEAR_OK : Fld := ⟨0x210000, 0x0, 0x0, 20, 20⟩
def SC_EVENTS_TOKEN_OK : Fld := ⟨0x210004, 0x0, 0x0, 0, 0⟩
def SC_EVENTS_TOKEN_REFUSED : Fld := ⟨0x210004, 0x0, 0x0, 1, 1⟩
def SC_EVENTS_QUOTE : Fld := ⟨0x210004, 0x0, 0x0, 2, 2⟩
def SC_EVENTS_SWAP_DONE : Fld := ⟨0x210004, 0x0, 0x0, 3, 3⟩
def SC_EVENTS_SWAP_REFUSED : Fld := ⟨0x210004, 0x0, 0x0, 4, 4⟩
def SC_EVENTS_TEST_START : Fld := ⟨0x210004, 0x0, 0x0, 5, 5⟩
def SC_EVENTS_TEST_END : Fld := ⟨0x210004, 0x0, 0x0, 6, 6⟩
def SC_EVENTS_BURN_STOPPED : Fld := ⟨0x210004, 0x0, 0x0, 7, 7⟩
def SC_CTRL_TOKEN : Fld := ⟨0x210008, 0x0, 0x0, 0, 0⟩
def SC_CTRL_QUOTE : Fld := ⟨0x210008, 0x0, 0x0, 1, 1⟩
def SC_CTRL_COMMIT_FW : Fld := ⟨0x210008, 0x0, 0x0, 2, 2⟩
def SC_CTRL_COMMIT_PLAN : Fld := ⟨0x210008, 0x0, 0x0, 3, 3⟩
def SC_CTRL_TEST_END : Fld := ⟨0x210008, 0x0, 0x0, 4, 4⟩
def SC_CTRL_SWAP : Fld := ⟨0x210008, 0x0, 0x0, 5, 5⟩
def SC_BOOT_CODE : Fld := ⟨0x21000c, 0x0, 0x0, 3, 0⟩
def SC_BOOT_OTHER : Fld := ⟨0x21000c, 0x0, 0x0, 7, 4⟩
def SC_BOOT_FALLBACK : Fld := ⟨0x21000c, 0x0, 0x0, 8, 8⟩
def SC_BOOT_SWAP_CODE : Fld := ⟨0x21000c, 0x0, 0x0, 15, 12⟩
def SC_TOKEN_RESULT_CODE : Fld := ⟨0x210010, 0x0, 0x0, 3, 0⟩
def SC_TOKEN_RESULT_TYPE : Fld := ⟨0x210010, 0x0, 0x0, 15, 8⟩
def SC_ROLLBACK_FW : Fld := ⟨0x210014, 0x0, 0x0, 6, 0⟩
def SC_ROLLBACK_PLAN : Fld := ⟨0x210014, 0x0, 0x0, 15, 8⟩
def SC_FW_VERSION : Fld := ⟨0x210018, 0x0, 0x0, 31, 0⟩
def SC_TEST_LEFT : Fld := ⟨0x21001c, 0x0, 0x0, 31, 0⟩
def SC_SERIAL : Fld := ⟨0x210020, 0x4, 0x0, 31, 0⟩
def SC_DOC_SEL_SEL : Fld := ⟨0x210030, 0x0, 0x0, 0, 0⟩
def SC_TOKEN_NONCE : Fld := ⟨0x210040, 0x4, 0x0, 31, 0⟩
def SC_QUOTE_NONCE : Fld := ⟨0x210060, 0x4, 0x0, 31, 0⟩
def SC_IDKEY : Fld := ⟨0x210080, 0x4, 0x0, 31, 0⟩
def SC_OWNER : Fld := ⟨0x210100, 0x40, 0x4, 31, 0⟩
def SC_KEM : Fld := ⟨0x210400, 0x4, 0x0, 31, 0⟩
def SC_DOC : Fld := ⟨0x212000, 0x4, 0x0, 31, 0⟩
def ST_STATUS_DONE : Fld := ⟨0x220000, 0x0, 0x0, 0, 0⟩
def ST_STATUS_ALL_PASS : Fld := ⟨0x220000, 0x0, 0x0, 1, 1⟩
def ST_STATUS_SLICE_RUNNING : Fld := ⟨0x220000, 0x0, 0x0, 2, 2⟩
def ST_STATUS_PERTURBING : Fld := ⟨0x220000, 0x0, 0x0, 3, 3⟩
def ST_STATUS_FUSING : Fld := ⟨0x220000, 0x0, 0x0, 4, 4⟩
def ST_EVENTS_BIST_FAIL : Fld := ⟨0x220004, 0x0, 0x0, 0, 0⟩
def ST_EVENTS_REPAIRED : Fld := ⟨0x220004, 0x0, 0x0, 1, 1⟩
def ST_EVENTS_ONLINE_FAIL : Fld := ⟨0x220004, 0x0, 0x0, 2, 2⟩
def ST_EVENTS_ABANDONED : Fld := ⟨0x220004, 0x0, 0x0, 3, 3⟩
def ST_EVENTS_PERT_START : Fld := ⟨0x220004, 0x0, 0x0, 4, 4⟩
def ST_EVENTS_PERT_END : Fld := ⟨0x220004, 0x0, 0x0, 5, 5⟩
def ST_EVENTS_FUSE_DONE : Fld := ⟨0x220004, 0x0, 0x0, 6, 6⟩
def ST_EVENTS_FUSE_STOPPED : Fld := ⟨0x220004, 0x0, 0x0, 7, 7⟩
def ST_CTRL_FUSE_REPAIR : Fld := ⟨0x220008, 0x0, 0x0, 0, 0⟩
def ST_ONLINE_ENABLE : Fld := ⟨0x22000c, 0x0, 0x0, 0, 0⟩
def ST_STARTUP_MS : Fld := ⟨0x220010, 0x0, 0x0, 31, 0⟩
def ST_SLICES : Fld := ⟨0x220014, 0x0, 0x0, 31, 0⟩
def ST_ABANDONED : Fld := ⟨0x220018, 0x0, 0x0, 31, 0⟩
def ST_ONLINE_FAILS : Fld := ⟨0x22001c, 0x0, 0x0, 31, 0⟩
def ST_FUSE_LEFT_TILE : Fld := ⟨0x220020, 0x0, 0x0, 6, 0⟩
def ST_FUSE_LEFT_MEM : Fld := ⟨0x220020, 0x0, 0x0, 17, 7⟩
def ST_FUSE_LEFT_L2 : Fld := ⟨0x220020, 0x0, 0x0, 20, 18⟩
def ST_RESULT_CODE : Fld := ⟨0x220040, 0x4, 0x0, 1, 0⟩
def ST_RESULT_FAILED : Fld := ⟨0x220040, 0x4, 0x0, 15, 2⟩
def ST_RESULT_SOFT : Fld := ⟨0x220040, 0x4, 0x0, 31, 16⟩
def ST_REFCLK_KHZ : Fld := ⟨0x220080, 0x4, 0x0, 31, 0⟩
def ST_FAIL_A_BLOCK : Fld := ⟨0x220100, 0x10, 0x0, 3, 0⟩
def ST_FAIL_A_ONLINE : Fld := ⟨0x220100, 0x10, 0x0, 4, 4⟩
def ST_FAIL_A_REPAIRED : Fld := ⟨0x220100, 0x10, 0x0, 5, 5⟩
def ST_FAIL_A_UNAVAILABLE : Fld := ⟨0x220100, 0x10, 0x0, 6, 6⟩
def ST_FAIL_A_INSTANCE : Fld := ⟨0x220100, 0x10, 0x0, 31, 16⟩
def ST_FAIL_ADDR : Fld := ⟨0x220104, 0x10, 0x0, 31, 0⟩
def ST_FAIL_BIT_BIT : Fld := ⟨0x220108, 0x10, 0x0, 6, 0⟩
def ST_FAIL_BIT_EXPECTED : Fld := ⟨0x220108, 0x10, 0x0, 15, 8⟩
def ST_FAIL_BIT_GOT : Fld := ⟨0x220108, 0x10, 0x0, 23, 16⟩
def ST_FAIL_REC : Fld := ⟨0x22010c, 0x10, 0x0, 31, 0⟩
def ST_PERT_CTRL_ARM : Fld := ⟨0x220200, 0x20, 0x0, 0, 0⟩
def ST_PERT_CTRL_ACTIVE : Fld := ⟨0x220200, 0x20, 0x0, 1, 1⟩
def ST_PERT_CTRL_CLASS : Fld := ⟨0x220200, 0x20, 0x0, 5, 2⟩
def ST_PERT_CTRL_PERIODIC : Fld := ⟨0x220200, 0x20, 0x0, 6, 6⟩
def ST_PERT_CTRL_CADENCE : Fld := ⟨0x220200, 0x20, 0x0, 9, 7⟩
def ST_PERT_TARGET_TARGET : Fld := ⟨0x220204, 0x20, 0x0, 15, 0⟩
def ST_PERT_TARGET_SUB : Fld := ⟨0x220204, 0x20, 0x0, 23, 16⟩
def ST_PERT_AMOUNT : Fld := ⟨0x220208, 0x20, 0x0, 31, 0⟩
def ST_PERT_START_POS : Fld := ⟨0x22020c, 0x20, 0x0, 28, 0⟩
def ST_PERT_FRAME : Fld := ⟨0x220210, 0x20, 0x0, 31, 0⟩
def ST_PERT_DURATION : Fld := ⟨0x220214, 0x20, 0x0, 15, 0⟩
def ST_PERT_PERIOD : Fld := ⟨0x220218, 0x20, 0x0, 15, 0⟩
def ST_PERT_ACTS : Fld := ⟨0x22021c, 0x20, 0x0, 31, 0⟩
def HB_STATUS_CLEARING : Fld := ⟨0x230000, 0x0, 0x0, 0, 0⟩
def HB_STATUS_WRAPPED : Fld := ⟨0x230000, 0x0, 0x0, 1, 1⟩
def HB_STATUS_PENDING : Fld := ⟨0x230000, 0x0, 0x0, 4, 2⟩
def HB_STATUS_DIE1_HOLDING : Fld := ⟨0x230000, 0x0, 0x0, 5, 5⟩
def HB_EVENTS_LOST : Fld := ⟨0x230004, 0x0, 0x0, 0, 0⟩
def HB_EVENTS_CLEARED : Fld := ⟨0x230004, 0x0, 0x0, 1, 1⟩
def HB_EVENTS_FLASH_FAULT : Fld := ⟨0x230004, 0x0, 0x0, 2, 2⟩
def HB_CTRL_CLEAR : Fld := ⟨0x230008, 0x0, 0x0, 0, 0⟩
def HB_CTRL_SNAP : Fld := ⟨0x230008, 0x0, 0x0, 1, 1⟩
def HB_NEWEST : Fld := ⟨0x23000c, 0x0, 0x0, 31, 0⟩
def HB_OLDEST : Fld := ⟨0x230010, 0x0, 0x0, 31, 0⟩
def HB_SNAP_SEQ : Fld := ⟨0x230014, 0x0, 0x0, 31, 0⟩
def HB_SNAP_STATUS_FIRST : Fld := ⟨0x230018, 0x0, 0x0, 5, 0⟩
def HB_SNAP_STATUS_COUNT : Fld := ⟨0x230018, 0x0, 0x0, 12, 6⟩
def HB_TIME : Fld := ⟨0x23001c, 0x0, 0x0, 31, 0⟩
def HB_CYCLES_CYCLES : Fld := ⟨0x230020, 0x0, 0x0, 23, 0⟩
def HB_LOST : Fld := ⟨0x230024, 0x0, 0x0, 31, 0⟩
def HB_FLASH_ERR : Fld := ⟨0x230028, 0x0, 0x0, 31, 0⟩
def HB_LIFE_FUSES_FUSES : Fld := ⟨0x23002c, 0x0, 0x0, 8, 0⟩
def HB_SNAP : Fld := ⟨0x231000, 0x4, 0x0, 31, 0⟩
def PN_STATUS_FILL : Fld := ⟨0x240000, 0x0, 0x0, 8, 0⟩
def PN_STATUS_OVERFLOW : Fld := ⟨0x240000, 0x0, 0x0, 9, 9⟩
def PN_EVENTS_OVERFLOW : Fld := ⟨0x240004, 0x0, 0x0, 0, 0⟩
def PN_EVENTS_STUCK : Fld := ⟨0x240004, 0x0, 0x0, 1, 1⟩
def PN_EVENTS_MODULE : Fld := ⟨0x240004, 0x0, 0x0, 2, 2⟩
def PN_CFG_KEY_DB : Fld := ⟨0x240008, 0x0, 0x0, 5, 0⟩
def PN_CFG_MOD_DB : Fld := ⟨0x240008, 0x0, 0x0, 15, 6⟩
def PN_CFG_TOUCH_TH : Fld := ⟨0x240008, 0x0, 0x0, 27, 16⟩
def PN_EVQ0_KIND : Fld := ⟨0x24000c, 0x0, 0x0, 3, 0⟩
def PN_EVQ0_INDEX : Fld := ⟨0x24000c, 0x0, 0x0, 9, 4⟩
def PN_EVQ0_STEPS : Fld := ⟨0x24000c, 0x0, 0x0, 31, 16⟩
def PN_EVQ1_LINE : Fld := ⟨0x240010, 0x0, 0x0, 12, 0⟩
def PN_EVQ1_FRAME : Fld := ⟨0x240010, 0x0, 0x0, 31, 13⟩
def PN_KEYS_LO : Fld := ⟨0x240014, 0x0, 0x0, 31, 0⟩
def PN_KEYS_HI : Fld := ⟨0x240018, 0x0, 0x0, 31, 0⟩
def PN_INPUTS_TOUCH : Fld := ⟨0x24001c, 0x0, 0x0, 15, 0⟩
def PN_INPUTS_MODULES : Fld := ⟨0x24001c, 0x0, 0x0, 23, 16⟩
def PN_ENC_STEPS : Fld := ⟨0x240020, 0x4, 0x0, 15, 0⟩
def PN_GHOSTS : Fld := ⟨0x240030, 0x0, 0x0, 31, 0⟩
def PN_ENC_ERR : Fld := ⟨0x240034, 0x0, 0x0, 31, 0⟩
def PN_TOUCH_DROPS : Fld := ⟨0x240038, 0x0, 0x0, 31, 0⟩
def PN_EVQ_DROPS : Fld := ⟨0x24003c, 0x0, 0x0, 31, 0⟩
def PN_OUT_DUTY : Fld := ⟨0x240100, 0x4, 0x0, 7, 0⟩
def PN_OUT_THREAD : Fld := ⟨0x240100, 0x4, 0x0, 8, 8⟩

end R

end Sys2Proof.Machine
end

