-- ==== Sys2Proof/Machine/State.lean ====
section
/-! DEFINITION. The state of a DZK package as plain data: the register space of each die, and beside it everything the
chapters of spec/ give the device to keep. Every field's docstring ends in brackets with its width, the file and rule of
spec/ that names it, and its value at reset. A register has ONE home: where the register space shows a value that the model
keeps in a field here, the field is the home and reading the register computes the view (Machine/Ops.lean). -/

namespace Sys2Proof.Machine

/-! ### Station time and the line grid (02_station_time.md) -/

/-- The states of the servo (R47). -/
inductive ServoState | free | acquire | locked | holdover | freerun
  deriving DecidableEq, Repr

/-- The code of a servo state in TB_STATUS.STATE (R47). -/
def ServoState.code : ServoState → Nat
  | .free => 0 | .acquire => 1 | .locked => 2 | .holdover => 3 | .freerun => 4

/-- The servo of a die, or the measuring servo of the backup PTP (R47 to R52, R62). Offsets are signed, in 1/16 ns:
the time the reference shows less the time the servo's clock shows. -/
structure Servo where
  /-- The servo's state; TB_STATUS.STATE or BACKUP_STATE shows it [3 bits; 02_station_time.md R47; reset FREE]. -/
  state : ServoState := .free
  /-- The accepted samples since the last entry to the state, newest first, at most 16 [16 x signed 1/16 ns; 02_station_time.md R49; reset none]. -/
  samples : List Int := []
  /-- Consecutive accepted samples inside the lock threshold [count to 16; 02_station_time.md R47; reset 0]. -/
  inside : Nat := 0
  /-- Samples since the entry to LOCKED, up to 16 [count to 16; 02_station_time.md R62; reset 0]. -/
  inLocked : Nat := 0
  /-- Consecutive accepted samples outside the lock threshold [count to 16; 02_station_time.md R47; reset 0]. -/
  outside : Nat := 0
  /-- Consecutive rejected samples; TB_STATUS.REJECT_RUN shows it [4 bits; 02_station_time.md R49; reset 0]. -/
  rejectRun : Nat := 0
  /-- The offset the servo predicts for its next sample [signed 1/16 ns; 02_station_time.md R49; reset 0 DESIGN CHOICE, log entry 5]. -/
  predicted : Int := 0
  /-- Supervisor time of the last accepted sample [time; 02_station_time.md R48; reset 0]. -/
  lastSample : Nat := 0
  /-- Supervisor time at which the last valid frame sync of REF_IN arrived [time; 02_station_time.md R48; reset none]. -/
  lastFrameSync : Option Nat := none
  /-- Supervisor time of the last entry to HOLDOVER [time; 02_station_time.md R51; reset 0]. -/
  holdStart : Nat := 0
  /-- Supervisor instants since the entry to LOCKED at which the frequency began to move or came to rest, newest first, with the frequency there in 1/256 ppb, over two seconds at least [list; 02_station_time.md R50; reset none]. -/
  history : List (Nat × Int) := []
  /-- Frequency offset of the clock the servo steers; TB_FREQ shows it for the station clock [signed 1/256 ppb; 02_station_time.md R50, R52; reset 0]. -/
  freq : Int := 0
  /-- Supervisor time at which freq stood at its value [time; 02_station_time.md R52; reset 0]. -/
  freqAt : Nat := 0
  /-- The frequency that the servo asks for, to which freq moves at 0.1 ppm/s [signed 1/256 ppb; 02_station_time.md R52; reset 0, the nominal rate]. -/
  want : Int := 0
  /-- The step found and not yet applied or withdrawn, in 1/16 ns [signed; 02_station_time.md R49, R58; reset none]. -/
  step : Option Int := none
  /-- STEP_GO has authorised the pending step [1 bit; 02_station_time.md R58; reset 0]. -/
  stepGo : Bool := false
  /-- The backup servo's model clock less station time, in 2^-16 ns [signed; 02_station_time.md R62; reset 0]. -/
  model : Int := 0
  /-- The part of a 2^-16 ns unit that the model clock has drifted beyond model, in 1/(256 x 10^9) [signed; 02_station_time.md R62; reset 0]. -/
  modelPart : Int := 0
  /-- Where the measurement of the reference's frequency began: the reference's time in 2^-16 ns, for REF_IN counted from its last frame sync, and the supervisor time [2 times; 02_station_time.md R57; reset none]. -/
  measure : Option (Int × Nat) := none
  deriving DecidableEq, Repr

/-- What a step leaves a cadence to do (R59): finish its frame on the old grid, then resume on the new one. -/
structure Regrid where
  /-- The step, in 2^-16 ns [signed; 02_station_time.md R59; reset none]. -/
  shift : Int
  /-- The old grid's line number at which the frame in progress ends [signed; 02_station_time.md R59; reset none]. -/
  endLine : Int
  /-- The new grid's line number at which windows resume [signed; 02_station_time.md R59; reset none]. -/
  resume : Int
  deriving DecidableEq, Repr

/-- The running state of one cadence (R42 to R46). -/
structure Cad where
  /-- The line, counted from the epoch, whose pulse is emitted next [signed; 02_station_time.md R46; reset 0]. -/
  next : Int := 0
  /-- The step the cadence is still carrying out [record; 02_station_time.md R59; reset none]. -/
  regrid : Option Regrid := none
  /-- The cadence is inside the gap a step opened [1 bit; 02_station_time.md R59; reset 0]. -/
  inGap : Bool := false
  /-- Station time of the last pulse [time; 02_station_time.md R46; reset 0]. -/
  lastPulse : Nat := 0
  /-- A vat window of the cadence is open [1 bit; 04_vat.md R125, R130; reset 0]. -/
  window : Bool := false
  /-- The last window of the cadence measured below 1,198.8 MHz [1 bit; 04_vat.md R126; reset 0]. -/
  low : Bool := false
  deriving DecidableEq, Repr

/-- The station clock of one die. -/
structure Clock where
  /-- Station time in units of 2^-16 ns since the PTP epoch, the Wide format's value [112 bits; 02_station_time.md R39; reset 0 s (R37)]. -/
  now : Nat := 0
  /-- The part of a 2^-16 ns unit that frequency steering has accumulated, in 1/(256 x 10^9) [signed; 02_station_time.md R52; reset 0]. -/
  residue : Int := 0
  /-- The station servo [record; 02_station_time.md R47; reset see its fields]. -/
  servo : Servo := {}
  /-- Die 1's measuring servo of the backup PTP [record; 02_station_time.md R62; reset see its fields]. -/
  backup : Servo := {}
  /-- Cadences C0 to C7 by number [8 records; 02_station_time.md R42; reset see its fields]. -/
  cads : Map Cad := []
  /-- Supervisor time of the last timing word die 1 received [time; 02_station_time.md R48, R61; reset none]. -/
  lastWord : Option Nat := none
  /-- Die 0's FREERUN and REF_MISMATCH flags as the last timing word carried them [2 bits; 02_station_time.md R61; reset 0]. -/
  peerFlags : Bool × Bool := (false, false)
  /-- The mismatch causes that hold, by code; TB_STATUS.CAUSE shows the lowest [4 bits; 02_station_time.md R57; reset none]. -/
  causes : List Nat := []
  /-- Time spent in HOLDOVER and FREERUN since the last lock, up to the last entry; TB_HOLD_TIME shows its seconds [time; 02_station_time.md R69; reset 0]. -/
  held : Nat := 0
  /-- Supervisor time since which the servo is in HOLDOVER or FREERUN [time; 02_station_time.md R69; reset none]. -/
  heldSince : Option Nat := none
  /-- The format of REF_IN that the running plan found first: TB_REF_FORMAT's format and its 750-line bit [3 bits; 02_station_time.md R57; reset none]. -/
  refBase : Option (Nat × Nat) := none
  deriving DecidableEq, Repr

/-! ### Plans and the admission contract (03_plans.md) -/

/-- One section of a plan as its directory entry names it (R78), with its bytes. -/
structure Sect where
  /-- Directory index of the entry [8 bits; 03_plans.md R78; reset none]. -/
  index : Nat
  /-- TYPE [8 bits; 03_plans.md R78; reset none]. -/
  ty : Nat
  /-- The dies the entry names: bit 0 die 0, bit 1 die 1 [2 bits; 03_plans.md R78; reset none]. -/
  dies : Nat
  /-- CONTINUE [1 bit; 03_plans.md R78, R101; reset none]. -/
  cont : Bool
  /-- FRAGMENT, 0 for a plan-wide section [16 bits; 03_plans.md R78; reset none]. -/
  frag : Nat
  /-- The section's bytes [up to 32 MiB; 03_plans.md R78; reset none]. -/
  body : List Byte
  deriving DecidableEq, Repr

/-- A plan: the header of its image and the sections in force (R76 to R79, R670). -/
structure Plan where
  /-- The 256 header bytes (R77) [256 bytes; 03_plans.md R77; reset none]. -/
  header : List Byte
  /-- The sections of the plan that results (R670) [list; 03_plans.md R78, R670; reset none]. -/
  sects : List Sect
  /-- What PL_RUN_ID reads once the plan runs [32 bits; 03_plans.md R105, R111; reset none]. -/
  id : Nat
  /-- The plan is the result of a partial plan or a library entry [1 bit; 03_plans.md R100, R107; reset none]. -/
  part : Bool
  /-- SHAKE256 of the image, 32 bytes; a library entry keeps that of the image it stands in [256 bits; 19_security.md R575; reset none]. -/
  digest : List Byte
  /-- The fragments that the change names, empty for a full plan [list; 03_plans.md R670; reset none]. -/
  named : List Nat
  /-- Its image came from the Silcel plan buffer [1 bit; 21_power_reset.md R624; reset 0]. -/
  buffered : Bool := false
  deriving DecidableEq, Repr

/-- An admission or library check in progress (R97, R107). -/
structure AdmitJob where
  /-- The image's bytes as they stood when ADMIT was written [up to 32 MiB; 03_plans.md R97; reset none]. -/
  image : List Byte
  /-- The NUMBER of a library entry, for a library check [7 bits; 03_plans.md R107; reset none]. -/
  library : Option Nat
  /-- The image came from the plan buffer (R433) [1 bit; 13_silcel.md R433; reset none]. -/
  fromBuffer : Bool
  /-- The image is the start plan of the boot directory, to be switched as soon as admitted [1 bit; 03_plans.md R97; reset none]. -/
  startPlan : Bool
  /-- Supervisor time at which the check started [time; 03_plans.md R92; reset none]. -/
  since : Nat
  deriving DecidableEq, Repr

/-- A requested switch (R97). -/
structure SwitchReq where
  /-- PL_SWITCH_T0 when SWITCH was written [30 bits; 03_plans.md R97; reset none]. -/
  t0 : Nat
  /-- PL_SWITCH_T1 when SWITCH was written [32 bits; 03_plans.md R97; reset none]. -/
  t1 : Nat
  /-- The switch is held until the brownout alternative is removed; PL_STATUS.HELD shows it [1 bit; 03_plans.md R110; reset none]. -/
  held : Bool
  /-- The cadences, as 8 * die + cadence, that have taken the switch [list; 03_plans.md R97; reset none]. -/
  taken : List Nat
  /-- The fragments that are alike in both plans on both dies, found as the first cadence switches [list; 03_plans.md R98; reset none]. -/
  alike : List Nat := []
  /-- Cadences with a fragment on both dies, each with the frame at whose boundary one die has switched and the other is to [list; 03_plans.md R101; reset none]. -/
  frames : List (Nat × Int) := []
  deriving DecidableEq, Repr

/-- The plans of the package: die 0 admits and switches for both dies (R91). -/
structure Plans where
  /-- The plan that runs [record; 03_plans.md R97; reset none]. -/
  running : Option Plan := none
  /-- The plan admitted and not switched; PL_PEND_ID names it [record; 03_plans.md R97; reset none]. -/
  pend : Option Plan := none
  /-- The switch requested and not complete [record; 03_plans.md R97; reset none]. -/
  request : Option SwitchReq := none
  /-- The admission or library check in progress [record; 03_plans.md R97; reset none]. -/
  job : Option AdmitJob := none
  /-- The brownout alternative is due: SUPPLY_WARN has come and the supply has not recovered [1 bit; 03_plans.md R104; reset 0]. -/
  brownDue : Bool := false
  /-- The cadences, as 8 * die + cadence, on which the brownout alternative is applied; PL_STATUS.BROWNOUT shows whether there is one [list; 03_plans.md R104; reset none]. -/
  brownOn : List Nat := []
  /-- A plan reset stops the running plan at each cadence's next line pulse: the cadences still to stop [list; 21_power_reset.md R625; reset none]. -/
  stopping : List Nat := []
  deriving DecidableEq, Repr

/-! ### The vat: tiles, scratch and routes (04_vat.md, 05_instruction_set.md) -/

/-- The zero vector. -/
def zeroVec : Vec := Vector.replicate 32 0

/-- A result on its way to the register it is written to (R177). `mask` has bit i set where lane i is written. -/
inductive Wr
  /-- a vector register -/
  | v (r : Nat) (x : Vec) (mask : BitVec 32)
  /-- a predicate register -/
  | p (r : Nat) (x mask : BitVec 32)
  /-- the carry register -/
  | k (x mask : BitVec 32)
  /-- a scratch address register -/
  | a (r x : Nat)
  /-- a DRAM address register -/
  | q (r x : Nat)
  /-- a tile flag; a 1 wins over a 0 that lands in the same cycle (R175) -/
  | f (r : Nat) (x : Bool)
  /-- a cost accumulator -/
  | d (r x : Nat)
  /-- the best list -/
  | best (l : List (Nat × Nat))
  /-- an accumulator lane group -/
  | m (r : Nat) (x : Vector W32 32) (mask : BitVec 32)
  /-- the snapshot store -/
  | snap (c : Map W32)
  /-- all contexts, from the snapshot store -/
  | ctx (c : Map W32)
  /-- an in-edge register: 1 north, 2 east, 3 south, 4 west -/
  | edge (dir : Nat) (x : Vec)
  /-- the output FIFO, which loses the bytes that an STBF has written -/
  | fifo (n : Nat)
  deriving DecidableEq, Repr

/-- One level of the loop stack (R152, R172). -/
structure LoopLevel where
  /-- First bundle of the body [11 bits; 05_instruction_set.md R152, R172; reset none]. -/
  first : Nat
  /-- Bundle after the body [12 bits; 05_instruction_set.md R152, R172; reset none]. -/
  after : Nat
  /-- Iterations still to run after this one [16 bits; 05_instruction_set.md R152, R172; reset none]. -/
  left : Nat
  /-- Idle cycles that follow the last iteration of a DLOOP [24 bits; 05_instruction_set.md R173; reset none]. -/
  filler : Nat
  deriving DecidableEq, Repr

/-- The entropy coder of an E-tile (R152, R165, R166). -/
structure Coder where
  /-- Mode: false HEVC, true VVC [1 bit; 05_instruction_set.md R165; reset 0]. -/
  vvc : Bool := false
  /-- The arithmetic coder's internal state, as the codec's clause keeps it [opaque word; 05_instruction_set.md R152, R165; reset 0 DESIGN CHOICE, log entry 2]. -/
  arith : Nat := 0
  /-- Context base [10 bits; 05_instruction_set.md R152; reset 0 DESIGN CHOICE, log entry 2]. -/
  base : Nat := 0
  /-- The 1,024 contexts [1,024 x 32 bits; 05_instruction_set.md R152; reset 0 DESIGN CHOICE, log entry 2]. -/
  ctx : Map W32 := []
  /-- The snapshot store [1,024 x 32 bits; 05_instruction_set.md R152; reset 0 DESIGN CHOICE, log entry 2]. -/
  snap : Map W32 := []
  /-- The output FIFO, oldest byte first, each with the cycle from which it is seen [128 bytes; 05_instruction_set.md R152, R166, R177; reset empty]. -/
  fifo : List (Nat × Byte) := []
  /-- Bits written by PUTB or the coder that do not yet fill a byte, most significant first [7 bits; 05_instruction_set.md R165; reset empty]. -/
  part : List Bool := []
  /-- Consecutive zero bytes at the end of what was written, for emulation prevention [2 bits; 05_instruction_set.md R166; reset 0]. -/
  zeros : Nat := 0
  /-- Bins coded since CSTART [24 bits; 05_instruction_set.md R165; reset 0]. -/
  bins : Nat := 0
  deriving DecidableEq, Repr

/-- A DRAM read that a slot port has issued and that has not completed (R135 to R137). -/
structure PortRead where
  /-- The DRAM address read [34 bits; 05_instruction_set.md R168; reset none]. -/
  addr : Nat
  /-- The scratch address the data goes to [20 bits; 05_instruction_set.md R168; reset none]. -/
  dest : Nat
  /-- The data the read found, by a write that it had to wait for where there is one [64 bytes; 15_memory.md R471; reset none]. -/
  data : List Byte
  /-- The access was not performed (R469), so that its data reads 0 [1 bit; 15_memory.md R469; reset none]. -/
  faulted : Bool
  /-- Supervisor time of issue [time; 04_vat.md R136; reset none]. -/
  issued : Nat
  deriving DecidableEq, Repr

/-- The window program a tile runs, as the tile schedule declares it (R84 kind 0x0201, R117, R128). -/
structure WinProg where
  /-- LIVE_END: first cycle after the live region [16 bits; 03_plans.md R84; reset 0]. -/
  liveEnd : Nat := 0
  /-- LENGTH in cycles [16 bits; 03_plans.md R84; reset 0]. -/
  length : Nat := 0
  /-- FLAGS [1]: a deferred slack region from LIVE_END to LENGTH - 1 [1 bit; 03_plans.md R84; reset 0]. -/
  slack : Bool := false
  /-- The bank map of an M-tile: the accessor of each bank, 0 MEM slot, 1 DRAM slot port, 2 staging writers, 3 DMA port; empty gives every bank to the MEM slot [32 x 2 bits; 04_vat.md R117; reset none]. -/
  banks : List Nat := []
  deriving DecidableEq, Repr

/-- A point in a program at which it can pause and resume (R133). -/
structure ProgPoint where
  /-- The bundle that issues next [11 bits; 04_vat.md R133; reset none]. -/
  bundle : Nat
  /-- The loop stack [4 levels; 04_vat.md R133; reset none]. -/
  loops : List LoopLevel
  /-- Bundles of an IFP range still to skip [8 bits; 04_vat.md R133; reset none]. -/
  skip : Nat
  /-- Idle cycles a DLOOP still owes [24 bits; 04_vat.md R133; reset none]. -/
  idle : Nat
  /-- The flag a WAITF waits for [4 bits; 04_vat.md R133; reset none]. -/
  waiting : Option Nat
  deriving DecidableEq, Repr

/-- One tile of the vat (R152). -/
structure Tile where
  /-- v0 to v31 [32 x 256 bits; 05_instruction_set.md R152; reset 0 DESIGN CHOICE, log entry 2]. -/
  v : Map Vec := []
  /-- p1 to p3; p0 reads all ones [3 x 32 bits; 05_instruction_set.md R152; reset 0 DESIGN CHOICE, log entry 2]. -/
  p : Map (BitVec 32) := []
  /-- k [32 bits; 05_instruction_set.md R152; reset 0 DESIGN CHOICE, log entry 2]. -/
  k : BitVec 32 := 0
  /-- a0 to a15 [16 x 20 bits; 05_instruction_set.md R152; reset 0 DESIGN CHOICE, log entry 2]. -/
  a : Map Nat := []
  /-- q0 to q7 of an M-tile [8 x 34 bits; 05_instruction_set.md R152; reset 0 DESIGN CHOICE, log entry 2]. -/
  q : Map Nat := []
  /-- f0 to f15 [16 bits; 05_instruction_set.md R152; reset 0 DESIGN CHOICE, log entry 2]. -/
  f : Map Bool := []
  /-- d0 to d15 of an S-tile [16 x 24 bits; 05_instruction_set.md R152; reset 0 DESIGN CHOICE, log entry 2]. -/
  d : Map Nat := []
  /-- The entries of the best list of an S-tile that are not empty, cost and index [3 x 32 bits; 05_instruction_set.md R152, R163; reset empty DESIGN CHOICE, log entry 2]. -/
  best : List (Nat × Nat) := []
  /-- m0 and m1 of a T-tile [2 x 32 x 32 bits; 05_instruction_set.md R152; reset 0 DESIGN CHOICE, log entry 2]. -/
  m : Map (Vector W32 32) := []
  /-- The coder of an E-tile [record; 05_instruction_set.md R152; reset see its fields]. -/
  coder : Coder := {}
  /-- The in-edge registers: 1 north, 2 east, 3 south, 4 west [4 x 256 bits; 05_instruction_set.md R155; reset 0 DESIGN CHOICE, log entry 2]. -/
  edges : Map Vec := []
  /-- The scratch memory [64 KiB to 512 KiB; 04_vat.md R115; reset 0 DESIGN CHOICE, log entry 4]. -/
  scratch : Mem := []
  /-- The loop stack, innermost level first [4 levels; 05_instruction_set.md R152; reset empty]. -/
  loops : List LoopLevel := []
  /-- A window program runs: opened and not ended [1 bit; 04_vat.md R125, R128; reset 0]. -/
  running : Bool := false
  /-- The tile's cadence's window is open [1 bit; 04_vat.md R125; reset 0]. -/
  open_ : Bool := false
  /-- The vat cycle of the window [24 bits; 04_vat.md R125; reset 0]. -/
  cycle : Nat := 0
  /-- The bundle that issues next [11 bits; 05_instruction_set.md R149; reset 0]. -/
  bundle : Nat := 0
  /-- Bundles of an IFP range still to issue as idle bundles [8 bits; 05_instruction_set.md R174; reset 0]. -/
  skip : Nat := 0
  /-- Idle cycles a DLOOP still owes [24 bits; 05_instruction_set.md R173; reset 0]. -/
  idle : Nat := 0
  /-- The flag a WAITF waits for [4 bits; 05_instruction_set.md R175; reset none]. -/
  waiting : Option Nat := none
  /-- The bundle of the present cycle has a double-bit error and issues as the idle bundle [1 bit; 05_instruction_set.md R179; reset 0]. -/
  blank : Bool := false
  /-- The deferred program is paused between slack regions [1 bit; 04_vat.md R133; reset 0]. -/
  paused : Bool := false
  /-- The line number of the window [13 bits; 05_instruction_set.md R171; reset 0]. -/
  line : Nat := 0
  /-- Results that have not landed, each with the cycle from which it is seen [list; 05_instruction_set.md R177; reset empty]. -/
  due : List (Nat × Wr) := []
  /-- DRAM reads of the slot port in flight, oldest first [list; 04_vat.md R135; reset empty]. -/
  reads : List PortRead := []
  /-- The window program that the line map gave this window [record; 04_vat.md R127, R128; reset none]. -/
  prog : WinProg := {}
  /-- Where the deferred program paused [record; 04_vat.md R133; reset none]. -/
  saved : Option ProgPoint := none
  deriving DecidableEq, Repr

/-! ### Encoding live channels and rate control (06_encode.md, 07_rate_control.md) -/

/-- One CTU row of a picture from the arrival of its first line until its slice is eligible (R202, R240). -/
structure EncRow where
  /-- Row number [12 bits; 06_encode.md R202; reset none]. -/
  row : Nat
  /-- Line pulses of the cadence until its stage 2 starts [13 bits; 06_encode.md R202; reset none]. -/
  wait : Nat
  /-- Line pulses from there until its E stage ends and its slice is eligible [13 bits; 06_encode.md R202, R214; reset none]. -/
  left : Nat
  /-- Stage 2 has started [1 bit; 06_encode.md R202; reset 0]. -/
  started : Bool := false
  /-- Slice QP [6 bits; 07_rate_control.md R239; reset 0, set at the start of stage 2]. -/
  qp : Nat := 0
  /-- How the row is coded: 0 normally, 1 in skim mode, 2 at floor [2 bits; 07_rate_control.md R241; reset 0, set at the start of stage 2]. -/
  mode : Nat := 0
  /-- The row's allowance in bits [32 bits; 07_rate_control.md R240, R241; reset 0, set at the start of stage 2]. -/
  allow : Nat := 0
  /-- The lowest cause of R217 that hit the row, 0 for none [4 bits; 06_encode.md R217, R220; reset 0]. -/
  fault : Nat := 0
  /-- The CTUs as stage 2 decided them [list; 06_encode.md R202, R210; reset none]. -/
  ctus : List Ctu := []
  /-- The row's slices once its E stage has ended, until they are eligible [list; 06_encode.md R204, R214; reset none]. -/
  coded : Option (List (List Byte)) := none
  deriving DecidableEq, Repr

/-- A picture being coded. -/
structure EncPic where
  /-- Its frame number on the channel's cadence [signed 64 bits; 06_encode.md R195; reset none]. -/
  frame : Int
  /-- Which field of the frame it codes, 0 for a frame picture or the first field [1 bit; 06_encode.md R195; reset none]. -/
  field : Nat
  /-- Picture order count [32 bits; 06_encode.md R195; reset none]. -/
  poc : Nat := 0
  /-- The picture is a random access point of the channel's mode [1 bit; 06_encode.md R197; reset none]. -/
  rap : Bool := false
  /-- The picture is coded intra throughout [1 bit; 06_encode.md R197; reset none]. -/
  intra : Bool := false
  /-- The slot of the encode pool it is reconstructed in [3 bits; 08_cellar.md R263; reset none]. -/
  slot : Nat := 0
  /-- The cap [32 bits; 07_rate_control.md R233; reset none]. -/
  cap : Nat := 0
  /-- The target [32 bits; 07_rate_control.md R238; reset none]. -/
  target : Nat := 0
  /-- b, the nominal bits of the picture [32 bits; 07_rate_control.md R232; reset none]. -/
  nominal : Nat := 0
  /-- Bits spent: the prefix and every row whose E stage has ended [32 bits; 07_rate_control.md R240; reset none]. -/
  spent : Nat := 0
  /-- A row of the picture was skim, a row was at floor [2 bits; 07_rate_control.md R241, R243; reset 0]. -/
  skim : Bool × Bool := (false, false)
  /-- A slice of the picture is a fill slice [1 bit; 06_encode.md R219, R228; reset 0]. -/
  filled : Bool := false
  /-- Rows in a stage, first row first [list; 06_encode.md R202; reset none]. -/
  rows : List EncRow := []
  /-- Rows whose E stage has ended [12 bits; 06_encode.md R202; reset 0]. -/
  ended : Nat := 0
  /-- Rows whose slices have become eligible [12 bits; 06_encode.md R204; reset 0]. -/
  sent : Nat := 0
  /-- Its prefix NAL units, sent before its first slice [list; 06_encode.md R201; reset none]. -/
  prefix_ : List (List Byte) := []
  /-- The filler that follows its last slice [list; 07_rate_control.md R234; reset none]. -/
  filler : List (List Byte) := []
  /-- Slots of the references that it is coded from, most recent first [4 entries; 06_encode.md R196; reset none]. -/
  refs : List Nat := []
  /-- In gradual mode, its place in the refresh cycle [16 bits; 06_encode.md R197; reset none]. -/
  sweep : Option Nat := none
  /-- SATD cost of each row that has been searched [list; 07_rate_control.md R239; reset none]. -/
  costs : List Nat := []
  deriving DecidableEq, Repr

/-- A rate or QP change accepted and not yet applied (R249, R250). -/
structure RateChange where
  /-- The register: 0 RC_RATE, 1 RC_MAXRATE, 2 RC_QP [2 bits; 07_rate_control.md R250; reset none]. -/
  field : Nat
  /-- The value written [32 bits; 07_rate_control.md R250; reset none]. -/
  value : W32
  /-- The change waits for a random access point [1 bit; 07_rate_control.md R250; reset none]. -/
  atRap : Bool
  /-- The first picture in which it may apply, counted by pictures of the cadence [signed; 07_rate_control.md R250; reset none]. -/
  pic : Int
  deriving DecidableEq, Repr

/-- A splice section that waits for the slot after the first slice of its arrival picture (R225). -/
structure Splice where
  /-- The arrival picture, counted by pictures of the cadence [signed; 06_encode.md R225; reset none]. -/
  pic : Int
  /-- The operation that it translates [record; 06_encode.md R224; reset none]. -/
  op : Scte104
  /-- The picture at the splice time, counted by pictures; none where it is immediate [signed; 06_encode.md R225; reset none]. -/
  time : Option Int
  /-- The message [list of bytes; 06_encode.md R224; reset none]. -/
  body : List Byte
  deriving DecidableEq, Repr

/-- What an encode channel keeps beside its registers. -/
structure EncChan where
  /-- Pictures with rows still on their way, oldest first [list; 06_encode.md R202; reset none]. -/
  pics : List EncPic := []
  /-- C, the decoder buffer's fullness before the next picture is removed, in bits [signed; 07_rate_control.md R232; reset 0, set at the channel's start]. -/
  fullness : Int := 0
  /-- C restarts at the next random access point: at the channel's start, and after a rate change [1 bit; 07_rate_control.md R232; reset 1]. -/
  restart : Bool := true
  /-- The remainder of the division that gives b [32 bits; 07_rate_control.md R232; reset 0]. -/
  bRem : Nat := 0
  /-- Picture order count of the next picture [32 bits; 06_encode.md R195; reset 0]. -/
  poc : Nat := 0
  /-- Pictures since the last random access point [32 bits; 06_encode.md R197; reset 0]. -/
  sinceRap : Nat := 0
  /-- PERIOD in force: a write takes effect after the next random access point [16 bits; 06_encode.md R226; reset 0, set by the plan]. -/
  period : Nat := 0
  /-- A forced random access point is due in this picture or the first later one, counted by pictures of the cadence [signed; 06_encode.md R198; reset none]. -/
  rapAt : Option Int := none
  /-- Random access points that splice times ask for, by picture [list; 06_encode.md R225; reset none]. -/
  spliceRaps : List Int := []
  /-- The first picture of the channel is still to be coded, which is a random access point [1 bit; 03_plans.md R98; reset 1]. -/
  first : Bool := true
  /-- Slots of the reference pictures held, newest first [4 entries; 06_encode.md R196, 08_cellar.md R263; reset none]. -/
  refs : List Nat := []
  /-- QP of the last row started and of row 0 of the last picture [2 x 6 bits; 07_rate_control.md R239; reset none]. -/
  lastQp : Option (Nat × Nat) := none
  /-- SATD cost of each row of the last intra picture and of the last inter picture [2 lists; 07_rate_control.md R239; reset none]. -/
  costs : List Nat × List Nat := ([], [])
  /-- SATD sum of the last picture, for the pool [32 bits; 07_rate_control.md R248; reset 0]. -/
  satd : Nat := 0
  /-- The average rate that the pool gave, kb/s [32 bits; 07_rate_control.md R248; reset none]. -/
  poolRate : Option Nat := none
  /-- Rate and QP changes pending [list; 07_rate_control.md R249; reset none]. -/
  changes : List RateChange := []
  /-- Changes that die 1 has passed on and die 0 has not answered, by register [list; 07_rate_control.md R249, R250; reset none]. -/
  asked : List Nat := []
  /-- The values of EN_MDCV0 to EN_MDCV5 and EN_CLL that the last random access point carried [7 x 32 bits; 06_encode.md R221; reset none]. -/
  hdr : List W32 := []
  /-- The timecode of the previous picture [32 bits; 06_encode.md R223; reset none]. -/
  timecode : Option W32 := none
  /-- The timecode that the input carried for the picture now arriving [32 bits; 06_encode.md R223; reset none]. -/
  inputTc : Option W32 := none
  /-- Splice sections that wait, in order of arrival [list; 06_encode.md R225; reset none]. -/
  splices : List Splice := []
  /-- The fragment that owns the channel [16 bits; 06_encode.md R217; reset 0]. -/
  frag : Nat := 0
  deriving DecidableEq, Repr

/-- The encode channels and rate pools of one die. -/
structure Encoders where
  /-- Channels EC0 to EC255 [256 records; 01_device_overview.md R16; reset see its fields]. -/
  chans : Map EncChan := []
  /-- Pool rates accepted and not yet applied: the value and the first frame in which it may apply [16 entries; 07_rate_control.md R250; reset none]. -/
  poolPend : Map (Option (Nat × Int)) := []
  deriving DecidableEq, Repr


/-! ### The cellar: reference pool and decode (08_cellar.md) -/

/-- One slot of a decode pool (R262, R264, R277). Its mark follows from its fields: RECON until it is ready, then LONG, REF_OUT,
REF or OUT. -/
structure DecPic where
  /-- The coded video sequence it belongs to, counted [32 bits; 08_cellar.md R274; reset none]. -/
  seq : Nat
  /-- Picture order count [signed 32 bits; 08_cellar.md R274; reset none]. -/
  poc : Int
  /-- The layer ID (nuh_layer_id) [6 bits; 08_cellar.md R275; reset none]. -/
  layer : Nat
  /-- It is a reference, short-term or long-term [1 bit; 08_cellar.md R262; reset none]. -/
  isRef : Bool
  /-- It is a long-term reference [1 bit; 08_cellar.md R262; reset none]. -/
  long : Bool
  /-- It awaits output [1 bit; 08_cellar.md R262; reset none]. -/
  wait : Bool
  /-- The concealment mark (R277) [1 bit; 08_cellar.md R277; reset none]. -/
  concealed : Bool
  /-- The frame of the cadence at whose boundary the picture is ready for output [signed; 08_cellar.md R272; reset none]. -/
  ready : Int
  /-- The pictures that its reference entries stand for, with substitutes; none for the mid-grey picture [list; 08_cellar.md R275; reset none]. -/
  used : List (Option Int)
  /-- Its slot of the pool, where its planes and motion field stand [5 bits; 08_cellar.md R257, R258; reset none]. -/
  slot : Nat
  deriving DecidableEq, Repr

/-- What a decode channel keeps beside its registers. -/
structure DecChan where
  /-- Access units in the coded picture buffer, in decoding order [list; 08_cellar.md R270; reset none]. -/
  cpb : List AccessUnit := []
  /-- The offset in the coded picture buffer at which the next NAL unit is written [32 bits; 08_cellar.md R270; reset 0 DESIGN CHOICE, log entry 42]. -/
  cpbPos : Nat := 0
  /-- The pictures held [SLOTS records; 08_cellar.md R262; reset none]. -/
  dpb : List DecPic := []
  /-- The coded video sequence being decoded, counted [32 bits; 08_cellar.md R274; reset 0]. -/
  seq : Nat := 0
  /-- The frames at whose boundaries the output of sequences starts [list; 08_cellar.md R274; reset none]. -/
  starts : List (Int × Nat) := []
  /-- The sequence that is being output and the picture order count that is output next [record; 08_cellar.md R274; reset none]. -/
  out : Option (Nat × Int) := none
  /-- The last picture output, which a repeat gives again: its lines, and its mark [record; 08_cellar.md R274; reset none]. -/
  last : Option (List PicLine × Bool) := none
  /-- The stream's coded video sequence is not decoded, waiting for a passing IRAP [1 bit; 08_cellar.md R271; reset 0]. -/
  blocked : Bool := false
  /-- What the parameter sets in force declare [record; 08_cellar.md R271; reset none]. -/
  active : Option SeqParams := none
  /-- Consecutive frame boundaries without an access unit [32 bits; 08_cellar.md R281; reset 0]. -/
  empty : Nat := 0
  /-- Access units counted in LATE as never received whose output boundary has not come [32 bits; 08_cellar.md R274; reset 0]. -/
  owed : Nat := 0
  /-- The marked run: 0 none, 1 a marked picture decoded, 2 a marked picture output [2 bits; 08_cellar.md R277; reset 0]. -/
  run : Nat := 0
  /-- On an in-step channel, the decision for the boundary of a frame: which picture order counts are complete [list; 08_cellar.md R274; reset none]. -/
  decision : Option (Int × List Int) := none
  deriving DecidableEq, Repr

/-- What a frame store keeps beside its registers (R266 to R269). -/
structure FrameStore where
  /-- The slot that holds the newest complete frame [2 bits; 08_cellar.md R267; reset none]. -/
  newest : Option Nat := none
  /-- Slots that hold a complete frame that has not been read [list; 08_cellar.md R268; reset none]. -/
  unread : List Nat := []
  /-- The input frame being written, by its number on the input's cadence [signed; 08_cellar.md R266; reset none]. -/
  cur : Option Int := none
  /-- The input frame that the newest slot holds, by its number [signed; 08_cellar.md R266; reset none]. -/
  ended : Option Int := none
  /-- Input frames completed in each of the last 16 consumer frames, newest first [16 counts; 08_cellar.md R268; reset none]. -/
  history : List Nat := []
  /-- Input frames completed since the last consumer frame boundary [16 bits; 08_cellar.md R268; reset 0]. -/
  completed : Nat := 0
  /-- Consecutive consumer frame boundaries without a completed input frame [16 bits; 08_cellar.md R269; reset 0]. -/
  idle : Nat := 0
  /-- Slots whose frame carries the concealment mark [list; 08_cellar.md R277; reset none]. -/
  marked : List Nat := []
  deriving DecidableEq, Repr

/-- The decode channels and frame stores of one die. The marks of the encode pools are in CL_ECn MARKS. -/
structure Cellar where
  /-- Decode channels DC0 to DC63 [64 records; 01_device_overview.md R16; reset see its fields]. -/
  decs : Map DecChan := []
  /-- Frame stores 0 to 1,023 [1,024 records; 08_cellar.md R266; reset see its fields]. -/
  stores : Map FrameStore := []
  deriving DecidableEq, Repr

/-! ### The churn: layers and scaling (09_churn.md) -/

/-- A commit accepted for one layer and not yet applied (R299, R301). -/
structure LayerCommit where
  /-- Position, size, crop position, crop size and mix as they will apply; for layer 0 the background [5 x 32 bits; 09_churn.md R299; reset none]. -/
  values : List W32
  /-- The first frame of the cadence in whose picture it may apply [signed; 09_churn.md R299; reset none]. -/
  frame : Int
  deriving DecidableEq, Repr

/-- What one layer of an encode channel keeps beside its registers, which hold the pending values (R312). -/
structure Layer where
  /-- The configuration in force: position, size, crop position, crop size, mix; for layer 0 the background [5 x 32 bits; 09_churn.md R299; reset none, set by the plan]. -/
  live : List W32 := []
  /-- The accepted commit [record; 09_churn.md R301; reset none]. -/
  commit : Option LayerCommit := none
  /-- The layer has had a commit applied [1 bit; 09_churn.md R302; reset 0]. -/
  committed : Bool := false
  /-- A complete frame of a staging input has arrived since the fragment started [1 bit; 09_churn.md R302; reset 0]. -/
  seen : Bool := false
  deriving DecidableEq, Repr

/-- The recompute of a flattened run (R306). -/
structure FlatRun where
  /-- Frame at whose boundary the recompute started [signed; 09_churn.md R306; reset none]. -/
  start : Int
  /-- The first frame in whose picture the new plane may apply [signed; 09_churn.md R306; reset none]. -/
  notBefore : Int
  /-- The recompute is complete [1 bit; 09_churn.md R306; reset none]. -/
  done : Bool
  deriving DecidableEq, Repr

/-- What the churn keeps of one encode channel. -/
structure ChurnChan where
  /-- Layers 0 to 7 [8 records; 09_churn.md R284; reset see its fields]. -/
  layers : Map Layer := []
  /-- Recomputes in progress, by the lowest layer of their run [2 records; 09_churn.md R304, R306; reset none]. -/
  flat : Map (Option FlatRun) := []
  /-- The layers that were STALE in the picture before [7 bits; 09_churn.md R303; reset none]. -/
  wasStale : List Nat := []
  /-- The composed picture in the channel's M-tile staging, by line, in the internal format [lines of samples; 09_churn.md R286; reset none]. -/
  out : Map PicLine := []
  deriving DecidableEq, Repr

/-! ### Serial lanes and SDI (10_lanes.md); members of alignment groups (R334 to R336, R364, R448) -/

/-- What is kept of one member of an alignment group: a lane, a receive flow or an audio member. Its positions are lines
counted from the epoch, or samples of the audio grid. -/
structure Member where
  /-- The first position that is expected of it and not complete; none while no running fragment expects one [signed; 10_lanes.md R334; reset none]. -/
  next : Option Int := none
  /-- Ranges of complete positions, half open, newest first [list; 10_lanes.md R334, R336; reset none]. -/
  runs : List (Int × Int) := []
  /-- Complete frames in a row that count towards rejoining [2 bits; 10_lanes.md R336; reset 0]. -/
  good : Nat := 0
  /-- Lock, format or clock failed in the present frame [1 bit; 10_lanes.md R336, 14_audio.md R449; reset 0]. -/
  fault : Bool := false
  /-- While it is concealed, the position up to which that has been counted [signed; 10_lanes.md R335; reset 0]. -/
  counted : Int := 0
  /-- The samples of the last complete line, which a concealed member repeats [one line; 10_lanes.md R335; reset none]. -/
  lastLine : PicLine := {}
  deriving DecidableEq, Repr

/-- What a lane keeps beside its registers. -/
structure Lane where
  /-- The preset last chosen [4 bits; 10_lanes.md R329; reset none]. -/
  stored : Option Nat := none
  /-- Supervisor time at which the acquisition attempt in progress started [time; 10_lanes.md R333; reset none]. -/
  attempt : Option Nat := none
  /-- Consecutive SYNC fields, or TRS, seen in place, up to 4 [3 bits; 10_lanes.md R324, R333; reset 0]. -/
  syncs : Nat := 0
  /-- Consecutive SYNC fields, or TRS, missing, up to 4 [3 bits; 10_lanes.md R324, R333; reset 0]. -/
  misses : Nat := 0
  /-- SEQ last seen of each sub-stream [16 x 4 bits; 10_lanes.md R322, R324; reset none]. -/
  seqIn : Map (Option Nat) := []
  /-- SEQ of the next data frame of each sub-stream sent [16 x 4 bits; 10_lanes.md R322; reset 0]. -/
  seqOut : Map Nat := []
  /-- The line of video being received in native mode, counted from the epoch, and its bytes so far [record; 10_lanes.md R325; reset none]. -/
  lineIn : Option (Int × List Byte) := none
  /-- Payload waiting for the native transmitter: sub-stream, SOF, SOL, bytes [list; 10_lanes.md R325; reset none]. -/
  txQueue : List (Nat × Bool × Bool × List Byte) := []
  /-- Frames sent since the last filler frame and since the last link-control frame [2 counts; 10_lanes.md R326; reset 0]. -/
  txSince : Nat × Nat := (0, 0)
  /-- Wakes in progress of the receiver and of the transmitter: the state they lead to and the supervisor time at which they end [2 records; 10_lanes.md R330; reset none]. -/
  wake : Option (Nat × Nat) × Option (Nat × Nat) := (none, none)
  /-- The last 23 bits that the transmitter's scrambler sent, newest lowest [23 bits; 10_lanes.md R322; reset 0 DESIGN CHOICE, log entry 2]. -/
  txScr : Nat := 0
  /-- The run of equal bits that the transmitter has sent: their value and their number [1 bit and 5 bits; 10_lanes.md R323; reset none]. -/
  txRun : Bool × Nat := (false, 0)
  /-- The last 23 payload bits that the receiver's descrambler took, newest lowest [23 bits; 10_lanes.md R322; reset 0 DESIGN CHOICE, log entry 2]. -/
  rxScr : Nat := 0
  /-- The run of equal bits that the receiver has seen [1 bit and 5 bits; 10_lanes.md R323; reset none]. -/
  rxRun : Bool × Nat := (false, 0)
  /-- What the last line received said of the declared format: that it matches, or that it does not [1 bit; 10_lanes.md R319; reset none]. -/
  fmtSeen : Option Bool := none
  /-- A direct route's source change that is pending [9 bits; 10_lanes.md R341; reset none]. -/
  xptPend : Option Nat := none
  /-- The source in force of a direct route [9 bits; 10_lanes.md R341; reset 0]. -/
  xptNow : Nat := 0
  /-- The lane's entry of the board equalisation table: presets as lists of TX_PRE, TX_MAIN, TX_POST, CTLE, GAIN, DFE, TX_USE [1 to 16 x 7 bytes; 10_lanes.md R327; reset none, set by the plan]. -/
  presets : List (List Nat) := []
  deriving DecidableEq, Repr

/-- The lanes of one die and the staging its inputs are written to. -/
structure Lanes where
  /-- Lanes 0 to 511 of the die [512 records; 10_lanes.md R344; reset see its fields]. -/
  lanes : Map Lane := []
  /-- Members of alignment groups: lanes by their number, receive flows by 512 + flow, the cross-die stream as 1,536 [1,537 records; 10_lanes.md R334, 11_network.md R364; reset see its fields]. -/
  members : Map Member := []
  /-- Input lines in M-tile staging, by 8,192 x lane + line, or 8,192 x (512 + receive flow) + line [lines of samples; 10_lanes.md R318; reset none]. -/
  staging : Map PicLine := []
  /-- The lines that each timed transmitter sent of the last complete frame, by 8,192 x lane + line [lines of samples; 10_lanes.md R321; reset none]. -/
  held : Map PicLine := []
  /-- The ancillary packets that each timed transmitter sent in the lines of the last complete frame, by 8,192 x lane + line [list of bytes; 10_lanes.md R321; reset none]. -/
  heldAnc : Map (List Byte) := []
  deriving DecidableEq, Repr

/-! ### Ethernet flows, control frames and PTP (11_network.md) -/

/-- What a receive flow keeps beside its registers. -/
structure RxFlow where
  /-- The extended sequence number of the packet delivered that is furthest ahead [32 bits; 11_network.md R366; reset none]. -/
  last : Option Nat := none
  /-- The lowest extended sequence number in the record [32 bits; 11_network.md R366; reset 0]. -/
  low : Nat := 0
  /-- The record of the last 4,096 sequence numbers: bit p set where path p has brought the packet [4,096 x 2 bits; 11_network.md R366; reset empty]. -/
  seen : Map Nat := []
  /-- Supervisor times of the last packet of path 0 and of path 1 [2 times; 11_network.md R366; reset 0, set at plan start]. -/
  pathAt : Nat × Nat := (0, 0)
  /-- Pieces of lines that are not complete, by the line counted from the epoch: byte offset and pgroup bytes [list; 11_network.md R363; reset empty]. -/
  segs : List (Int × List (Nat × List Byte)) := []
  /-- Packets of the access unit being gathered: extended sequence number and payload, and their timestamp [list and 32 bits; 11_network.md R371; reset empty]. -/
  pkts : List (Nat × List Byte) × Nat := ([], 0)
  /-- Timestamp of the last completed access unit and the sequence number of its last packet [2 x 32 bits; 11_network.md R371; reset none]. -/
  done_ : Option (Nat × Nat) := none
  /-- The last two marker packets of an ancillary flow: sequence number and frame [2 records; 11_network.md R364; reset none]. -/
  marks : List (Nat × Int) := []
  /-- The continuity counter last seen on the video PID [4 bits; 11_network.md R371; reset none]. -/
  cc : Option Nat := none
  /-- The video PES being gathered and the offsets at which bytes of it are missing [list of bytes and list; 11_network.md R371; reset none]. -/
  pes : Option (List Byte × List Nat) := none
  deriving DecidableEq, Repr

/-- What a send flow keeps beside its registers. -/
structure TxFlow where
  /-- The sequence number of the next packet [32 bits; 11_network.md R360; reset 0, set by the plan]. -/
  seq : Nat := 0
  /-- The frame whose packets are being placed [signed; 12_traffic.md R400; reset 0, set at plan start]. -/
  frame : Int := 0
  /-- The next packet of that frame, or the next datagram since the flow's start [32 bits; 11_network.md R370, 12_traffic.md R400; reset 0]. -/
  k : Nat := 0
  /-- The grid position of the first sample of the next audio packet [signed; 14_audio.md R453; reset 0, set at plan start]. -/
  pos : Int := 0
  /-- The start position of a TS flow, in 2^-16 line of its cadence [signed; 11_network.md R370; reset 0, set at plan start]. -/
  start : Int := 0
  /-- Continuity counters of the next packet, by PID [8,192 x 4 bits; 11_network.md R368; reset 0]. -/
  cc : Map Nat := []
  /-- TS packets that wait for a datagram [list of 188 bytes; 11_network.md R368; reset empty]. -/
  queue : List (List Byte) := []
  /-- Bytes of the video PES in progress that do not fill a TS packet, and whether it has begun none [list of bytes and 1 bit; 11_network.md R368; reset empty]. -/
  part : List Byte × Bool := ([], false)
  /-- Splice sections that wait for the TS packet with the end of the arrival picture's first slice [list of bytes; 06_encode.md R225; reset empty]. -/
  sections : List (List Byte) := []
  /-- Datagrams at which PAT and PMT, and PCR, were last sent [2 x 32 bits; 11_network.md R368; reset none]. -/
  psi : Option Nat × Option Nat := (none, none)
  deriving DecidableEq, Repr

/-- Membership reports that fall due on a sub-port (R358). -/
structure McReport where
  /-- Supervisor time at which it is due at the latest [time; 11_network.md R358; reset none]. -/
  due : Nat
  /-- It answers a query, and may be sent earlier [1 bit; 11_network.md R358; reset none]. -/
  query : Bool
  /-- Its records: record type, group and source address, with 16 zero bytes for any source [list; 11_network.md R358; reset none]. -/
  recs : List (Nat × List Byte × List Byte)
  deriving DecidableEq, Repr

/-- What control threads keep of one sub-port. -/
structure SubPort where
  /-- The control queue, oldest frame first [256 frames; 11_network.md R355; reset empty]. -/
  ctrl : List (List Byte) := []
  /-- The neighbour cache: MAC addresses by IP address, read as a number [list of 6 bytes; 11_network.md R357; reset empty]. -/
  neigh : Map (List Byte) := []
  /-- IP addresses that have been asked for and not answered [list; 11_network.md R357, log entry 45; reset empty]. -/
  asked : List Nat := []
  /-- Membership reports that are to be sent, in the order in which they fall due [list; 11_network.md R358; reset empty]. -/
  reports : List McReport := []
  deriving DecidableEq, Repr

/-- A master that has been heard (R377). -/
structure PtpMaster where
  /-- Its port identity [10 bytes; 11_network.md R377; reset none]. -/
  port : List Byte
  /-- What its Announce messages compare by, most significant first [26 bytes; 11_network.md R377; reset none]. -/
  rank : Nat
  /-- Supervisor times of its last Announce messages, newest first [4 times; 11_network.md R377; reset none]. -/
  heard : List Nat
  /-- The body of its last Announce message [30 bytes; 11_network.md R377; reset none]. -/
  body : List Byte
  /-- Its announce interval, log2 of seconds [signed 8 bits; 11_network.md R377; reset none]. -/
  interval : Int
  /-- Its MAC and IP addresses, for unicast Delay_Req [2 lists of bytes; 11_network.md R377; reset none]. -/
  mac : List Byte
  ip : List Byte
  deriving DecidableEq, Repr

/-- A two-step Sync that waits for its Follow_Up. -/
structure PtpSync where
  /-- Its sequence number [16 bits; 11_network.md R377; reset none]. -/
  seq : Nat
  /-- Its arrival on the servo's clock, in 2^-16 ns [signed; 11_network.md R375; reset none]. -/
  arrival : Int
  /-- Its correction, in 2^-16 ns [signed; 11_network.md R376; reset none]. -/
  corr : Int
  /-- Supervisor time of its arrival [time; 02_station_time.md R57; reset none]. -/
  sup : Nat
  deriving DecidableEq, Repr

/-- The PTP engine of one die (R377). -/
structure Ptp where
  /-- The masters heard [list; 11_network.md R377; reset none]. -/
  foreign : List PtpMaster := []
  /-- The port identity of the selected master [10 bytes; 11_network.md R377; reset none]. -/
  sel : Option (List Byte) := none
  /-- A two-step Sync that waits for its Follow_Up [record; 11_network.md R377; reset none]. -/
  sync : Option PtpSync := none
  /-- The last Sync completed: arrival less origin and correction, in 2^-16 ns [signed; 11_network.md R377; reset none]. -/
  ms : Option Int := none
  /-- The last Delay_Req: sequence, departure on the servo's clock; none once answered [record; 11_network.md R377; reset none]. -/
  req : Option (Nat × Int) := none
  /-- The sequence number of the next Delay_Req [16 bits; 11_network.md R377; reset 0 DESIGN CHOICE, log entry 45]. -/
  reqSeq : Nat := 0
  /-- Supervisor time of the last Delay_Req [time; 11_network.md R377; reset 0]. -/
  reqAt : Nat := 0
  /-- The interval that Delay_Resp states, log2 of seconds [signed 8 bits; 11_network.md R377; reset -3 PRESUMED, log entry 45]. -/
  reqLog : Int := -3
  /-- The mean path delay, in 2^-16 ns [signed; 11_network.md R377; reset none]. -/
  mpd : Option Int := none
  deriving DecidableEq, Repr

/-- The network block of one die. -/
structure Network where
  /-- Receive flows 0 to 1,023 [1,024 records; 11_network.md R359; reset see its fields]. -/
  rx : Map RxFlow := []
  /-- Send flows 0 to 1,023 [1,024 records; 11_network.md R359; reset see its fields]. -/
  tx : Map TxFlow := []
  /-- Sub-ports 4p + s [8 records; 11_network.md R350; reset see its fields]. -/
  ports : Map SubPort := []
  /-- The PTP engine [record; 11_network.md R377; reset see its fields]. -/
  ptp : Ptp := {}
  deriving DecidableEq, Repr


/-! ### Egress queues, shapers, policers and gates (12_traffic.md) -/

/-- A frame that waits in an egress queue. -/
structure Pkt where
  /-- The frame without its FCS [list of bytes; 12_traffic.md R388; reset none]. -/
  body : List Byte
  /-- Its length in bytes, FCS included [14 bits; 11_network.md R353; reset none]. -/
  len : Nat
  /-- Station time of its eligibility position [time; 12_traffic.md R386; reset none]. -/
  at_ : Nat
  /-- The send flow it belongs to [10 bits; 12_traffic.md R401; reset none]. -/
  flow : Option Nat := none
  /-- For a PTP event message that a TC entry forwards: the station time of its arrival, where its PTP header starts, and where its UDP checksum stands [record; 11_network.md R378; reset none]. -/
  tc : Option (Nat × Nat × Option Nat) := none
  /-- Its FCS failed while it was being cut through [1 bit; 11_network.md R374; reset 0]. -/
  bad : Bool := false
  /-- The unit it belongs to: the line of its eligibility, by which units of one flow are told apart [signed; 18_pairing.md R550; reset 0]. -/
  unit : Int := 0
  deriving DecidableEq, Repr

/-- One egress queue. -/
structure EgQueue where
  /-- The frames held, first to leave first; FILL shows their bytes [up to 16 MiB; 12_traffic.md R387; reset empty]. -/
  pkts : List Pkt := []
  /-- Start and finish tags of the head frame of a weighted queue [2 x 64 bits; 12_traffic.md R390; reset none]. -/
  tags : Option (Nat × Nat) := none
  /-- The finish tag of the frame before [64 bits; 12_traffic.md R390; reset 0]. -/
  last : Nat := 0
  deriving DecidableEq, Repr

/-- A token bucket: a shaper or a policer. -/
structure Bucket where
  /-- Credit in units of 1/(65,536 x 10^9) byte; TQ_SHh_CREDIT shows whole bytes [signed; 12_traffic.md R392, R395; reset 0 DESIGN CHOICE, log entry 2; a full plan sets it to the burst]. -/
  credit : Int := 0
  /-- Station time up to which the credit has accrued [time; 12_traffic.md R392; reset 0]. -/
  at_ : Nat := 0
  /-- For the shaper of an encode channel's queue, the shaper's rate and the channel's rate and cap rate as the plan set them [3 x 32 bits; 12_traffic.md R394; reset none]. -/
  ratio : Option (Nat × Nat × Nat) := none
  /-- A rate that the shaper takes at the eligibility position of a picture's first slice: picture of the channel and rate [signed, 29 bits; 12_traffic.md R394; reset none]. -/
  follow : Option (Int × Nat) := none
  deriving DecidableEq, Repr

/-- A gate list that is to start (R397, R398). -/
structure GatePend where
  /-- Which of the plan's lists [2 bits; 12_traffic.md R398; reset none]. -/
  list : Nat
  /-- Its base, in ns or in 2^-16 line since the epoch [signed; 12_traffic.md R397; reset none]. -/
  base : Int
  /-- The cycle boundary at which it starts, in the same units [signed; 12_traffic.md R397; reset none]. -/
  start : Int
  /-- Cycles skipped [32 bits; 12_traffic.md R397; reset none]. -/
  skipped : Nat
  deriving DecidableEq, Repr

/-- The gates of one sub-port, beside their registers. -/
structure GateSt where
  /-- The start of the present cycle of the list in force, in ns or in 2^-16 line; none where no list runs [signed; 12_traffic.md R396; reset none]. -/
  run : Option Int := none
  /-- The base of the list in force [signed; 12_traffic.md R399; reset 0]. -/
  base : Int := 0
  /-- The list that is to start; TQ_GATE PENDING shows whether there is one [record; 12_traffic.md R398; reset none]. -/
  pend : Option GatePend := none
  /-- The cycle boundary at which the list in force restarts after a phase step [signed; 12_traffic.md R399; reset none]. -/
  again : Option Int := none
  deriving DecidableEq, Repr

/-- A unit of an in-step flow that the standby has discarded and keeps (R550). -/
structure Resend where
  /-- The queue it left: 8 x sub-port + queue, or 1,024 x port + queue with the second part set [11 bits and 1 bit; 18_pairing.md R550; reset none]. -/
  queue : Nat × Bool
  /-- Its packet [frame; 18_pairing.md R550; reset none]. -/
  pkt : Pkt
  /-- The line of the pail's cadence, counted from the epoch, in which its first frame started [signed; 18_pairing.md R546; reset none]. -/
  line : Int
  deriving DecidableEq, Repr

/-- A unit of an in-step flow whose frames are leaving, for DRAINED (R546). -/
structure EgUnit where
  /-- Its send flow [10 bits; 18_pairing.md R546; reset none]. -/
  flow : Nat
  /-- The unit of the flow [signed; 18_pairing.md R546; reset none]. -/
  unit : Int
  /-- The line in which its first frame started [signed; 18_pairing.md R546; reset none]. -/
  line : Int
  /-- Station time at which its last frame has left [time; 18_pairing.md R546; reset none]. -/
  done_ : Option Nat
  deriving DecidableEq, Repr

/-- The egress schedulers of one die. -/
structure Traffic where
  /-- Strict queues by 8 x sub-port + queue [64 queues; 12_traffic.md R385; reset empty]. -/
  strict : Map EgQueue := []
  /-- Weighted queues by 1,024 x port + queue [2,048 queues; 12_traffic.md R385; reset empty]. -/
  weighted : Map EgQueue := []
  /-- Virtual time of each sub-port's weighted group [8 x 64 bits; 12_traffic.md R390; reset 0 DESIGN CHOICE, log entry 2]. -/
  virtual : Map Nat := []
  /-- Station time at which each sub-port is free [8 times; 12_traffic.md R388; reset 0]. -/
  busy : Map Nat := []
  /-- Shapers [1,024 buckets; 12_traffic.md R392; reset see its fields]. -/
  shapers : Map Bucket := []
  /-- Policers [4,096 buckets; 12_traffic.md R395; reset see its fields]. -/
  policers : Map Bucket := []
  /-- The resend store of the die [list; 18_pairing.md R550; reset empty]. -/
  resend : List Resend := []
  /-- Units of in-step flows that are leaving [list; 18_pairing.md R546; reset empty]. -/
  units : List EgUnit := []
  /-- Gates by sub-port [8 records; 12_traffic.md R396; reset see its fields]. -/
  gates : Map GateSt := []
  deriving DecidableEq, Repr


/-! ### Silcel messages (13_silcel.md) -/

/-- A key slot of a receiving die, beside SM_SLOTk_EPOCH and SM_SLOTk_ALIVE (R419 to R423). -/
structure SmSlot where
  /-- The values below the highest accepted ALIVE that have been accepted: bit i for ALIVE - 1 - i [64 bits; 13_silcel.md R423; reset 0]. -/
  seen : Nat := 0
  /-- The session nonce, drawn at every reset of the receiving die [32 bits; 13_silcel.md R420; reset 0 DESIGN CHOICE, log entry 9]. -/
  nonce : W32 := 0
  /-- The reply counter that replies and posts carry as ALIVE [32 bits; 13_silcel.md R411; reset 0 DESIGN CHOICE, log entry 2]. -/
  replies : W32 := 0
  /-- Supervisor time of the last accepted request on the slot [time; 13_silcel.md R434; reset 0]. -/
  lastReq : Nat := 0
  deriving DecidableEq, Repr

/-- An open transaction (R424). -/
structure SmTrans where
  /-- Key slot [2 bits; 13_silcel.md R424; reset none]. -/
  key : Nat
  /-- TID [16 bits; 13_silcel.md R424; reset none]. -/
  tid : Nat
  /-- The request [message; 13_silcel.md R411; reset none]. -/
  msg : Msg
  /-- Source address, IPv6 flag, port and receiving sub-port, where the reply goes [record; 13_silcel.md R409; reset none]. -/
  src : Src
  /-- Supervisor time by which execution must have started [time; 13_silcel.md R427; reset none]. -/
  expires : Nat
  /-- Execution has started [1 bit; 13_silcel.md R427; reset none]. -/
  started : Bool
  deriving DecidableEq, Repr

/-- A TID in quarantine (R424, R425). -/
structure SmQuar where
  /-- Key slot [2 bits; 13_silcel.md R424; reset none]. -/
  key : Nat
  /-- TID [16 bits; 13_silcel.md R424; reset none]. -/
  tid : Nat
  /-- Supervisor time at which the quarantine ends [time; 13_silcel.md R424; reset none]. -/
  until_ : Nat
  /-- The STATUS with which the transaction completed [16 bits; 13_silcel.md R425; reset none]. -/
  status : Nat
  deriving DecidableEq, Repr

/-- An image transfer in progress (R433). -/
structure Transfer where
  /-- TARGET: 0 plan buffer, 1 flash, 2 token buffer [2 bits; 13_silcel.md R433; reset none]. -/
  target : Nat
  /-- LENGTH [32 bits; 13_silcel.md R433; reset none]. -/
  length : Nat
  /-- FLASH_OFFSET [32 bits; 13_silcel.md R433; reset none]. -/
  offset : Nat
  /-- The bytes written so far; a byte never written is a free value [up to 4 GiB; 13_silcel.md R433; reset none]. -/
  data : Buf
  /-- Supervisor time of the transfer's last request [time; 13_silcel.md R433; reset none]. -/
  lastReq : Nat
  /-- The flash write has been queued by a matching IMAGE_CLOSE [1 bit; 13_silcel.md R433; reset none]. -/
  writing : Bool
  deriving DecidableEq, Repr

/-- One entry of an event post (R434). -/
structure Post where
  /-- Address of the EVENTS register [32 bits; 13_silcel.md R434; reset none]. -/
  addr : Nat
  /-- The event bit [8 bits; 13_silcel.md R434; reset none]. -/
  bit : Nat
  /-- DETAIL [16 bits; 13_silcel.md R434; reset none]. -/
  detail : Nat
  /-- The event's station time in Wrap form [64 bits; 13_silcel.md R434; reset none]. -/
  stime : Nat
  /-- Supervisor time of the event, from which the 1 ms to send it counts [time; 13_silcel.md R434; reset none]. -/
  at_ : Nat
  deriving DecidableEq, Repr

/-- A subscription, beside its SM_SUBs registers (R434, R438). -/
structure Sub where
  /-- The subscriber's address and receiving sub-port [record; 13_silcel.md R434; reset 0]. -/
  src : Src := {}
  /-- The queue of entries, oldest first [512 entries; 13_silcel.md R434; reset empty]. -/
  queue : List Post := []
  /-- An entry has been dropped since the last message; the next carries DETAIL 1 [1 bit; 13_silcel.md R434; reset 0]. -/
  dropped : Bool := false
  /-- The die that received the request, whose slot it belongs to and whose sub-port sends its posts [1 bit; 13_silcel.md R419; reset 0]. -/
  rx : DieId := 0
  deriving DecidableEq, Repr

/-- Silcel's state of one receiving die (R419). -/
structure Silcel where
  /-- Key slots 0 to 3 [4 records; 13_silcel.md R419; reset see its fields]. -/
  slots : Map SmSlot := []
  /-- Open transactions, oldest first; SM_STATUS.OPEN shows how many [64 entries; 13_silcel.md R426; reset none]. -/
  trans : List SmTrans := []
  /-- Quarantined TIDs; SM_QUAR_FILL shows how many [4,096 entries; 13_silcel.md R426; reset none]. -/
  quar : List SmQuar := []
  /-- The transfer open on the die; SM_STATUS.XFER shows whether there is one [record; 13_silcel.md R433; reset none]. -/
  xfer : Option Transfer := none
  /-- The image that the plan buffer holds: length and bytes [32 MiB; 13_silcel.md R433; reset none]. -/
  planBuf : Option (Nat × Buf) := none
  /-- The image that the token buffer holds [64 KiB; 13_silcel.md R433; reset none]. -/
  tokenBuf : Option (Nat × Buf) := none
  /-- Subscriptions 0 to 3 [4 records; 13_silcel.md R434; reset see its fields]. -/
  subs : Map Sub := []
  /-- Supervisor time of the last authentication failure recorded for the die [time; 13_silcel.md R432; reset none]. -/
  authFailAt : Option Nat := none
  /-- Replies to relayed requests that have come back over the milk-run link and are to be sent [list; 13_silcel.md R429; reset empty]. -/
  returned : List (Msg × Src) := []
  deriving DecidableEq, Repr

/-! ### Audio (14_audio.md) -/

/-- One member of an audio group. -/
structure AuMember where
  /-- What is complete of it [record; 14_audio.md R448; reset see its fields]. -/
  member : Member := {}
  /-- The words of its channels in staging, by grid position, newest first, as far back as an output's delay reaches [4,096 x 32 words; 14_audio.md R441, R454; reset none]. -/
  words : List (Int × List W32) := []
  /-- Spans of grid positions in which it is muted, newest first; an open one lasts until it rejoins [list; 14_audio.md R449; reset none]. -/
  mutes : List (Int × Option Int) := []
  deriving DecidableEq, Repr

/-- What a serial audio port keeps beside its registers, or a converter that serves no port. -/
structure AuPort where
  /-- The grid position that its next sample takes; none where the station time places it [signed; 14_audio.md R448; reset none]. -/
  next : Option Int := none
  /-- Consecutive sample periods with correct clocks since a clock loss [7 bits; 14_audio.md R446; reset 0]. -/
  good : Nat := 0
  /-- WCLK periods measured in the present frame, with the station times of the first and the last edge [record; 14_audio.md R447; reset 0]. -/
  edges : Nat × Nat × Nat := (0, 0, 0)
  /-- The last sample of each transmit slot, which a held output repeats [32 x 24 bits; 14_audio.md R455; reset 0 DESIGN CHOICE, log entry 2]. -/
  last : List Nat := []
  /-- The filter state of the port's converter, in the receive direction and in the transmit direction [two values; 14_audio.md R450; reset 0 DESIGN CHOICE, log entry 30]. -/
  filter : Nat × Nat := (0, 0)
  deriving DecidableEq, Repr

/-- The mute of a map entry, which its MUTE bit moves at a frame boundary. -/
structure AuMute where
  /-- The mute in force [1 bit; 14_audio.md R455; reset 0, set by the plan]. -/
  on : Bool := false
  /-- The grid position at which the ramp to it began [signed; 14_audio.md R455; reset none]. -/
  ramp : Option Int := none
  deriving DecidableEq, Repr

/-- A tracking converter. -/
structure Asrc where
  /-- The nominal ratio, which the plan gives as RATIO [32 bits; 14_audio.md R450; reset 0, set by the plan]. -/
  nominal : Nat := 0
  /-- The ratio that has held within 1 ppm, and the supervisor time since which it has [record; 14_audio.md R450; reset none]. -/
  held : Option (Nat × Nat) := none
  deriving DecidableEq, Repr

/-- The audio of one die. -/
structure Audio where
  /-- Members by 16 x group + member [4,096 records; 14_audio.md R448; reset see its fields]. -/
  members : Map AuMember := []
  /-- Serial ports 0 to 15, and for the converters 16 to 31 their next position and filter [32 records; 14_audio.md R442, R450; reset see its fields]. -/
  ports : Map AuPort := []
  /-- Map entries 0 to 4,095 [4,096 records; 14_audio.md R454; reset see its fields]. -/
  mutes : Map AuMute := []
  /-- Converters 0 to 31 [32 records; 14_audio.md R450; reset see its fields]. -/
  asrcs : Map Asrc := []
  deriving DecidableEq, Repr


/-! ### Stacked memory and its controller (15_memory.md) -/

/-- A write that has been issued and has not reached the array (R471). -/
structure DramWrite where
  /-- Byte address of the first byte [34 bits; 15_memory.md R471; reset none]. -/
  addr : Nat
  /-- The bytes, each with its write enable (R494) [up to 64 bytes; 15_memory.md R471; reset none]. -/
  bytes : List (Option Byte)
  /-- Supervisor time of issue [time; 15_memory.md R471; reset none]. -/
  issued : Nat
  /-- The cores whose stores, CLEAN or INVAL it carries, if it is a write-back [8 bits; 05_instruction_set.md R184; reset none]. -/
  cores : List Nat
  deriving DecidableEq, Repr

/-- The stack of one die and what its controller keeps. -/
structure Dram where
  /-- The array [16 GiB; 15_memory.md R461; reset 0 DESIGN CHOICE, log entry 4]. -/
  cells : Mem := []
  /-- Writes on their way to the array, oldest first [list; 15_memory.md R471; reset none]. -/
  writes : List DramWrite := []
  /-- Per bank (32 x region + bank), the row accessed last and the vat cycle of that access [list; 15_memory.md R472; reset none]. -/
  rows : Map (Option (Nat × Nat)) := []
  /-- Per bank, the row-hammer table: row and count of each entry taken, in entry order [512 x 32 entries; 15_memory.md R479; reset empty]. -/
  hammer : Map (List (Nat × Nat)) := []
  /-- Per region, the pending neighbour refreshes as (bank, row), oldest first; MC_REGr QUEUE shows how many [16 x 32 entries; 15_memory.md R479; reset empty]. -/
  neighbours : Map (List (Nat × Nat)) := []
  /-- Per region, the station time at which its refresh interval ends [16 times; 15_memory.md R475; reset 0]. -/
  interval : Map Nat := []
  /-- Per region, an accepted sample of its layer has read below 83 degrees since it turned hot [16 bits; 15_memory.md R477; reset 0]. -/
  coolNext : Map Bool := []
  /-- Per layer, consecutive discarded samples and, after a sensor fault, consecutive accepted samples below 83 degrees [4 x 2 counts; 15_memory.md R474; reset 0]. -/
  sensor : Map (Nat × Nat) := []
  /-- Per layer, the layer counts as hot by a sensor fault [4 bits; 15_memory.md R474; reset 0]. -/
  sensorHot : Map Bool := []
  /-- Per region, the vat cycle of station time before which slot accesses are not performed, because a forced operation takes the region's cycles [16 numbers; 15_memory.md R480; reset 0]. -/
  forcedUntil : Map Nat := []
  deriving DecidableEq, Repr

/-! ### DMA programs and check-value units (16_dma_checks.md) -/

/-- One level of a DMA loop (R498). -/
structure DmaLoop where
  /-- First word of the body [16 bits; 16_dma_checks.md R498; reset none]. -/
  first : Nat
  /-- Word after the body [17 bits; 16_dma_checks.md R498; reset none]. -/
  after : Nat
  /-- The iteration in progress, from 0 [24 bits; 16_dma_checks.md R498; reset none]. -/
  iter : Nat
  /-- Iterations in all [24 bits; 16_dma_checks.md R498; reset none]. -/
  count : Nat
  /-- SRC_STEP, DST_STEP and AUX_STEP [3 x signed 24 bits; 16_dma_checks.md R498; reset none]. -/
  steps : Int × Int × Int
  deriving DecidableEq, Repr

/-- A WAIT in progress (R498). -/
structure DmaWait where
  /-- COND: 0 LINE, 1 PACE, 2 FILL, 3 START [2 bits; 16_dma_checks.md R498; reset none]. -/
  cond : Nat
  /-- TARGET [10 bits; 16_dma_checks.md R498; reset none]. -/
  target : Nat
  /-- TKIND: true for the entry queue of a send flow [1 bit; 16_dma_checks.md R498; reset none]. -/
  entry : Bool
  /-- LINE [13 bits; 16_dma_checks.md R498; reset none]. -/
  line : Nat
  /-- BYTES [24 bits; 16_dma_checks.md R498; reset none]. -/
  bytes : Nat
  /-- SKIP [1 bit; 16_dma_checks.md R498; reset none]. -/
  skip : Bool
  /-- Line pulses of the cadence left before the timeout [16 bits; 16_dma_checks.md R498; reset none]. -/
  left : Nat
  /-- The line the WAIT LINE waits for has pulsed since it was issued [1 bit; 16_dma_checks.md R498; reset 0]. -/
  seen : Bool := false
  deriving DecidableEq, Repr

/-- The two words of a MOVE, by field (R492). -/
structure MoveWord where
  /-- SHAPE [4 bits; 16_dma_checks.md R492; reset none]. -/
  shape : Nat
  /-- SRC_KIND [4 bits; 16_dma_checks.md R492; reset none]. -/
  srcKind : Nat
  /-- DST_KIND [4 bits; 16_dma_checks.md R492; reset none]. -/
  dstKind : Nat
  /-- SRC with the loop steps added [36 bits; 16_dma_checks.md R492, R498; reset none]. -/
  src : Int
  /-- DST with the loop steps added [36 bits; 16_dma_checks.md R492, R498; reset none]. -/
  dst : Int
  /-- AUX with the loop steps added [36 bits; 16_dma_checks.md R492, R498; reset none]. -/
  aux : Int
  /-- ELEM [4 bits; 16_dma_checks.md R492; reset none]. -/
  elem : Nat
  /-- LENGTH [24 bits; 16_dma_checks.md R492; reset none]. -/
  length : Nat
  /-- ROWS [16 bits; 16_dma_checks.md R492; reset none]. -/
  rows : Nat
  /-- SRC_PITCH [signed 24 bits; 16_dma_checks.md R492; reset none]. -/
  srcPitch : Int
  /-- DST_PITCH [signed 24 bits; 16_dma_checks.md R492; reset none]. -/
  dstPitch : Int
  /-- AUX_PITCH [signed 24 bits; 16_dma_checks.md R492; reset none]. -/
  auxPitch : Int
  /-- CK_EN [1 bit; 16_dma_checks.md R492; reset none]. -/
  ckEn : Bool
  /-- CK [6 bits; 16_dma_checks.md R492; reset none]. -/
  ck : Nat
  /-- END_ENTRY [1 bit; 16_dma_checks.md R492; reset none]. -/
  endEntry : Bool
  deriving DecidableEq, Repr

/-- What a DMA channel keeps beside its registers (R490 to R504). -/
structure DmaChan where
  /-- WORDS of its program [17 bits; 16_dma_checks.md R489; reset 0, set by the plan]. -/
  words : Nat := 0
  /-- BUDGET [20 bits; 16_dma_checks.md R489; reset 0, set by the plan]. -/
  budget : Nat := 0
  /-- UNITS: the check units bound to the channel [64 bits; 16_dma_checks.md R489; reset 0, set by the plan]. -/
  units : Nat := 0
  /-- The fragment that owns the channel [16 bits; 16_dma_checks.md R505; reset 0]. -/
  frag : Nat := 0
  /-- The word that issues next, counted from FIRST [17 bits; 16_dma_checks.md R490; reset 0]. -/
  pc : Nat := 0
  /-- Instructions issued by the activation [20 bits; 16_dma_checks.md R502; reset 0]. -/
  issued : Nat := 0
  /-- The activation's chain depth [4 bits; 16_dma_checks.md R491; reset 0]. -/
  depth : Nat := 0
  /-- The chain depths of the pending start events, oldest first [255 entries; 16_dma_checks.md R490, R491; reset empty]. -/
  pendDepths : List Nat := []
  /-- Loop levels, innermost first [2 levels; 16_dma_checks.md R498; reset empty]. -/
  loops : List DmaLoop := []
  /-- The WAIT in progress [record; 16_dma_checks.md R498; reset none]. -/
  wait : Option DmaWait := none
  /-- Supervisor times of issue of the accesses outstanding, oldest first [16 entries; 16_dma_checks.md R496; reset empty]. -/
  accesses : List Nat := []
  /-- A MOVE whose next row waits for room, with that row's number and the supervisor time since which it waits [record; 16_dma_checks.md R496; reset none]. -/
  blocked : Option (MoveWord × Nat × Nat) := none
  /-- The send flow whose entry the channel has open [10 bits; 16_dma_checks.md R500; reset none]. -/
  openEntry : Option Nat := none
  /-- At a plan switch the channel is to end at its next instruction boundary [1 bit; 16_dma_checks.md R505; reset 0]. -/
  ending : Bool := false
  deriving DecidableEq, Repr

/-- One entry of a send flow (R500). -/
structure Entry where
  /-- The bytes appended so far [list; 16_dma_checks.md R500; reset none]. -/
  bytes : List Byte := []
  /-- END_ENTRY has closed it [1 bit; 16_dma_checks.md R500; reset 0]. -/
  closed : Bool := false
  /-- It is marked bad and is dropped at its position [1 bit; 16_dma_checks.md R497, R500; reset 0]. -/
  bad : Bool := false
  deriving DecidableEq, Repr

/-- The entry queue of a send flow that DMA fills (R499, R500). -/
structure EntryQueue where
  /-- Entries, oldest first; only the last may be open [list; 16_dma_checks.md R500; reset empty]. -/
  entries : List Entry := []
  /-- The open entry passed its position: its further bytes are discarded up to its END_ENTRY [1 bit; 16_dma_checks.md R500; reset 0]. -/
  discard : Bool := false
  /-- The PACE state is open [1 bit; 16_dma_checks.md R499; reset 1, as at plan start]. -/
  pace : Bool := true
  deriving DecidableEq, Repr

/-- The DMA engine of one die. -/
structure Dma where
  /-- The program store [65,536 x 128 bits; 16_dma_checks.md R488; reset 0 DESIGN CHOICE, log entry 2]. -/
  store : Map Nat := []
  /-- Channels 0 to 127 [128 records; 16_dma_checks.md R488; reset see its fields]. -/
  chans : Map DmaChan := []
  /-- The bytes held by stream queues 0 to 511, oldest first; DM_SQq FILL shows how many [512 x up to 16 MiB; 16_dma_checks.md R489; reset empty]. -/
  streams : Map (List Byte) := []
  /-- The entry queues of send flows 0 to 1,023 [1,024 records; 16_dma_checks.md R500; reset see its fields]. -/
  entries : Map EntryQueue := []
  deriving DecidableEq, Repr

/-! ### Control cores and the parlour (17_parlour.md, 05_instruction_set.md R181 to R184) -/

/-- The registers of a control core, or a thread's context (R181, R522). -/
structure CoreRegs where
  /-- s1 to s31; s0 reads 0 [31 x 32 bits; 05_instruction_set.md R181; reset 0 DESIGN CHOICE, log entry 2]. -/
  s : Map W32 := []
  /-- C [1 bit; 05_instruction_set.md R181; reset 0 DESIGN CHOICE, log entry 2]. -/
  c : Bool := false
  /-- The address of the instruction that executes next [32 bits; 05_instruction_set.md R183; reset 0 DESIGN CHOICE, log entry 2]. -/
  pc : W32 := 0
  deriving DecidableEq, Repr

/-- One line of a data cache (R511). -/
structure CacheLine where
  /-- The line's bytes [64 bytes; 17_parlour.md R511; reset none]. -/
  bytes : List Byte
  /-- The line is dirty [1 bit; 17_parlour.md R511; reset none]. -/
  dirty : Bool
  /-- The cores whose stores into the line have not been written back [8 bits; 05_instruction_set.md R184; reset none]. -/
  cores : List Nat := []
  deriving DecidableEq, Repr

/-- One control core (R511, R512, R520, R521). -/
structure CoreSt where
  /-- The core's registers, those of the running thread [record; 05_instruction_set.md R181; reset see its fields]. -/
  regs : CoreRegs := {}
  /-- The thread that runs; PA_COREc RUNNING and BUSY show it [12 bits and 1 bit; 17_parlour.md R530; reset none]. -/
  run : Option Nat := none
  /-- The threads in the two stalls [2 x 12 bits; 17_parlour.md R521; reset none]. -/
  stalls : List Nat := []
  /-- The data L1, by line address divided by 64 [32 KiB; 17_parlour.md R511; reset empty DESIGN CHOICE, log entry 2]. -/
  l1 : Map (Option CacheLine) := []
  /-- A SYNC waits for earlier writes to drain [1 bit; 05_instruction_set.md R184; reset 0]. -/
  syncing : Bool := false
  /-- Supervisor time at which that SYNC was issued [time; 05_instruction_set.md R185; reset none]. -/
  syncAt : Nat := 0
  /-- The thread whose counter a POST call decrements once its SYNC has completed [12 bits; 17_parlour.md R523; reset none]. -/
  postAfter : Option Nat := none
  deriving DecidableEq, Repr

/-- The states of a thread (R519). -/
inductive ThState | idle | ready | running | waiting | delayed | suspended | stopped
  deriving DecidableEq, Repr

/-- The code of a thread state (R519). -/
def ThState.code : ThState → Nat
  | .idle => 0 | .ready => 1 | .running => 2 | .waiting => 3 | .delayed => 4 | .suspended => 5 | .stopped => 6

/-- One thread: its record of the plan (R517) and its running state. -/
structure Thread where
  /-- The plan claims the thread [1 bit; 17_parlour.md R517; reset 0]. -/
  claimed : Bool := false
  /-- The thread's state [3 bits; 17_parlour.md R519; reset IDLE]. -/
  state : ThState := .idle
  /-- CORE [3 bits; 17_parlour.md R517; reset 0, set by the plan]. -/
  core : Nat := 0
  /-- PRIORITY [5 bits; 17_parlour.md R517; reset 0, set by the plan]. -/
  prio : Nat := 0
  /-- ENTRY [32 bits; 17_parlour.md R517; reset 0, set by the plan]. -/
  entry : Nat := 0
  /-- STACK [32 bits; 17_parlour.md R517; reset 0, set by the plan]. -/
  stack : Nat := 0
  /-- FIRST_LINE [16 bits; 17_parlour.md R517; reset 0xFFFF, set by the plan]. -/
  firstLine : Nat := 0xFFFF
  /-- PERIOD [16 bits; 17_parlour.md R517; reset 0, set by the plan]. -/
  period : Nat := 0
  /-- BUDGET [32 bits; 17_parlour.md R517; reset 0, set by the plan]. -/
  budget : Nat := 0
  /-- RELOAD [15 bits; 17_parlour.md R517; reset 0, set by the plan]. -/
  reload : Nat := 0
  /-- RESIDENT [1 bit; 17_parlour.md R517, R522; reset 0, set by the plan]. -/
  resident : Bool := false
  /-- RESTART [1 bit; 17_parlour.md R517, R527; reset 0, set by the plan]. -/
  restart : Bool := false
  /-- The fragment that names the thread [16 bits; 17_parlour.md R528; reset 0]. -/
  frag : Nat := 0
  /-- Pending releases [4 bits; 17_parlour.md R518; reset 0]. -/
  pending : Nat := 0
  /-- The cause of a stop [3 bits; 17_parlour.md R527; reset 0]. -/
  cause : Nat := 0
  /-- The dependence counter [signed 16 bits; 17_parlour.md R525; reset 0, set by the plan]. -/
  count : Int := 0
  /-- Line pulses of the master cadence that a delay or a timeout still waits for; PA_THt EXPIRY shows the line at which it expires [16 bits; 17_parlour.md R524, R530; reset 0]. -/
  expiry : Nat := 0
  /-- The readiness line [signed; 17_parlour.md R520; reset 0]. -/
  readyLine : Int := 0
  /-- The thread's context [256 bytes; 17_parlour.md R522; reset 0 DESIGN CHOICE, log entry 2]. -/
  ctx : CoreRegs := {}
  /-- A spilled thread's context has been read into a stall [1 bit; 17_parlour.md R522; reset 0]. -/
  loaded : Bool := false
  /-- Core cycles the activation has used [32 bits; 17_parlour.md R526; reset 0]. -/
  used : Nat := 0
  /-- The range a WAIT invalidates when it returns, start and length [2 x 32 bits; 17_parlour.md R525; reset 0]. -/
  waitRange : Nat × Nat := (0, 0)
  /-- The thread belongs to the old plan and is to end (R528): supervisor time by which it is ended [time; 17_parlour.md R528; reset none]. -/
  ending : Option Nat := none
  deriving DecidableEq, Repr

/-- The cores, caches and threads of one die. -/
structure Parlour where
  /-- Cores 0 to 7 [8 records; 17_parlour.md R511; reset see its fields]. -/
  cores : Map CoreSt := []
  /-- The shared L2, by line address divided by 64 [4 MiB; 17_parlour.md R511; reset empty DESIGN CHOICE, log entry 2]. -/
  l2 : Map (Option CacheLine) := []
  /-- Threads 0 to 4,095 [4,096 records; 17_parlour.md R517; reset see its fields]. -/
  threads : Map Thread := []
  /-- The kernel has been told where spilled contexts live: SPILL's BASE and SIZE [2 words; 03_plans.md R84; reset 0, set by the plan]. -/
  spill : Nat × Nat := (0, 0)
  deriving DecidableEq, Repr

/-! ### Self-test, repair, perturbation and the herdbook (20_self_test.md) -/

/-- One herdbook record (R597), before it has its place in flash. -/
structure HbRec where
  /-- SEQ [32 bits; 20_self_test.md R597; reset none]. -/
  seq : W32 := 0
  /-- TIME: operating hours and 1/256 hour [32 bits; 20_self_test.md R597; reset none]. -/
  time : W32 := 0
  /-- CYCLES [24 bits; 20_self_test.md R597; reset none]. -/
  cycles : Nat := 0
  /-- FLAGS [8 bits; 20_self_test.md R597; reset none]. -/
  flags : Nat := 0
  /-- CODE [16 bits; 20_self_test.md R597; reset none]. -/
  code : Nat := 0
  /-- SOURCE [16 bits; 20_self_test.md R597; reset none]. -/
  source : Nat := 0
  /-- STIME in Wrap form [64 bits; 20_self_test.md R597; reset none]. -/
  stime : Nat := 0
  /-- DETAIL [64 bits; 20_self_test.md R597; reset none]. -/
  detail : Nat := 0
  deriving DecidableEq, Repr

/-- A slot of the herdbook's flash (R596, R600). -/
inductive HbSlot
  /-- erased -/
  | empty
  /-- a slot that failed its program check, unused until its sector is erased -/
  | skipped
  /-- a record -/
  | held (r : HbRec)
  deriving DecidableEq, Repr

/-- The herdbook, on die 0 (R596 to R603). -/
structure Herdbook where
  /-- The 65,664 slots of its flash sectors [65,664 x 32 bytes; 20_self_test.md R596; reset empty DESIGN CHOICE, log entry 10]. -/
  slots : Map HbSlot := []
  /-- The slot the next record is programmed into [17 bits; 20_self_test.md R596; reset 0]. -/
  next : Nat := 0
  /-- Sectors that hold records and are to be erased, oldest first [list; 20_self_test.md R596, R603; reset none]. -/
  erase : List Nat := []
  /-- The sequence number that the next record takes [32 bits; 20_self_test.md R596; reset 1 DESIGN CHOICE, log entry 10]. -/
  seq : W32 := 1
  /-- Records made and not yet programmed, oldest first; HB_STATUS shows how many [8 entries; 20_self_test.md R600; reset none]. -/
  pend : List HbRec := []
  /-- Records not kept since the last LOST record [32 bits; 20_self_test.md R600; reset 0]. -/
  lost : Nat := 0
  /-- Operating time in units of 1/256 hour [32 bits; 20_self_test.md R599; reset 0 DESIGN CHOICE, log entry 10]. -/
  time : Nat := 0
  /-- The part of 1/256 hour that operation has accumulated, in 2^-16 ns [time; 20_self_test.md R599; reset 0]. -/
  timePart : Nat := 0
  /-- Records that die 1 holds until die 0 has taken them, oldest first [256 entries; 20_self_test.md R601; reset none]. -/
  held : List HbRec := []
  /-- Records that die 1 made while its buffer was full [32 bits; 20_self_test.md R601; reset 0]. -/
  heldLost : Nat := 0
  /-- Die 1 has sent the oldest record that it holds and waits until die 0 has taken it [1 bit; 20_self_test.md R601; reset 0]. -/
  sent : Bool := false
  /-- The record of die 1 that has reached die 0 and that die 0 has not taken [record; 20_self_test.md R601; reset none]. -/
  offered : Option HbRec := none
  /-- The sequence number of the CLEARED record of a clear in progress [32 bits; 20_self_test.md R603; reset none]. -/
  clearing : Option W32 := none
  deriving DecidableEq, Repr

/-- What the self-test of one die keeps (R586 to R595). -/
structure SelfTest where
  /-- Soft repairs in force, in the supervisor domain [list; 20_self_test.md R586; reset none]. -/
  soft : List Item := []
  /-- Repairs burnt into fuses [list; 20_self_test.md R588; reset none DESIGN CHOICE, log entry 3]. -/
  fused : List Item := []
  /-- Items withdrawn until the next start-up BIST [list; 20_self_test.md R584, R592; reset none]. -/
  bad : List Item := []
  /-- Supervisor time at which start-up BIST began its phase 1 on this die; none while it waits for its turn [time; 20_self_test.md R582; reset none]. -/
  bistAt : Option Nat := none
  /-- The next ST_FAILf entry to fill [4 bits; 20_self_test.md R585; reset 0]. -/
  ring : Nat := 0
  /-- The entries whose herdbook record has yet to be taken by die 0, oldest first [list; 20_self_test.md R585, R601; reset none]. -/
  owed : List Nat := []
  /-- Online slices in progress, with the supervisor time of their start [8 entries; 20_self_test.md R590; reset none]. -/
  slices : List (Item × Nat) := []
  /-- Perturbation units: the position on the cadence, in 2^-16 line since the epoch, at which an armed unit starts next or has started, and at which an active one ends [16 x 2 numbers; 20_self_test.md R595; reset none]. -/
  pert : Map (Option (Int × Int)) := []
  /-- Activations of ECC_INJECT that have not yet injected their error, by unit [16 bits; 20_self_test.md R594; reset 0]. -/
  inject : List Nat := []
  deriving DecidableEq, Repr

/-! ### Fuses, images, identity and attestation (19_security.md) -/

/-- An owner slot or a Silcel key generation in fuses (R559, R560). -/
structure KeyFuse where
  /-- The key bits burnt: 64 bytes in an owner slot, 32 in a key generation; none where nothing is burnt [512 or 256 bits; 19_security.md R559; reset empty DESIGN CHOICE, log entry 3]. -/
  key : List Byte := []
  /-- VALID [1 bit; 19_security.md R559; reset 0 DESIGN CHOICE, log entry 3]. -/
  valid : Bool := false
  /-- REVOKED [1 bit; 19_security.md R559; reset 0 DESIGN CHOICE, log entry 3]. -/
  revoked : Bool := false
  /-- DAMAGED: a burn ended before VALID [1 bit; 19_security.md R560; reset 0 DESIGN CHOICE, log entry 3]. -/
  damaged : Bool := false
  deriving DecidableEq, Repr

/-- The fuses of the package but for SY_VARIANT and the repair fuses (R559, R599). -/
structure Fuses where
  /-- The serial of die 0, which is the package serial, and of die 1 [2 x 128 bits; 19_security.md R559; reset 0 DESIGN CHOICE, log entry 3]. -/
  serial : Map Nat := []
  /-- The unique secret of each die [2 x 256 bits; 19_security.md R559; reset 0 DESIGN CHOICE, log entry 3]. -/
  secret : Map Nat := []
  /-- Owner slots 0 to 3 [4 x 514 bits; 19_security.md R559; reset empty DESIGN CHOICE, log entry 3]. -/
  owners : Map KeyFuse := []
  /-- Silcel key generations, by 4 x slot + generation [16 x 258 bits; 19_security.md R559; reset empty DESIGN CHOICE, log entry 3]. -/
  macs : Map KeyFuse := []
  /-- The firmware counter [127 fuses; 19_security.md R559; reset 0 DESIGN CHOICE, log entry 3]. -/
  fw : Nat := 0
  /-- The plan counter [255 fuses; 19_security.md R559; reset 0 DESIGN CHOICE, log entry 3]. -/
  plan : Nat := 0
  /-- Life fuses burnt; HB_LIFE_FUSES shows them [256 fuses; 20_self_test.md R599; reset 0 DESIGN CHOICE, log entry 3]. -/
  life : Nat := 0
  deriving DecidableEq, Repr

/-- The boot directory of the serial flash (R562). No rule lays out its 64 KiB, so it is kept as what it names. -/
structure Directory where
  /-- Flash offset of firmware slot A [32 bits; 19_security.md R562; reset none]. -/
  slotA : Nat
  /-- Flash offset of firmware slot B [32 bits; 19_security.md R562; reset none]. -/
  slotB : Nat
  /-- Slot B is marked preferred [1 bit; 19_security.md R562, R566; reset none]. -/
  preferB : Bool
  /-- Flash offset of the start plan, if the directory names one [32 bits; 21_power_reset.md R632; reset none]. -/
  start : Option Nat
  /-- The IPv6 address of P0.0 in recovery, an IPv4 address as ::ffff:a.b.c.d [128 bits; 19_security.md R565; reset none]. -/
  addr : Nat
  deriving DecidableEq, Repr

/-- The firmware that runs (R563). -/
structure Firmware where
  /-- It was booted from slot B [1 bit; 19_security.md R579; reset none]. -/
  slotB : Bool
  /-- Its version [32 bits; 19_security.md R578; reset none]. -/
  version : Nat
  /-- Its ROLLBACK [32 bits; 19_security.md R563; reset none]. -/
  rollback : Nat
  /-- SHAKE256 of its image, 32 bytes [256 bits; 19_security.md R575; reset none]. -/
  digest : List Byte
  deriving DecidableEq, Repr

/-- A token that has passed its checks and whose action is to be taken (R568, R569). -/
structure Token where
  /-- TYPE [16 bits; 19_security.md R568; reset none]. -/
  ty : Nat
  /-- KEY_SLOT [8 bits; 19_security.md R568; reset none]. -/
  keySlot : Nat
  /-- TARGET [8 bits; 19_security.md R568; reset none]. -/
  target : Nat
  /-- LIFETIME in seconds [32 bits; 19_security.md R568; reset none]. -/
  lifetime : Nat
  /-- SCOPE [32 bits; 19_security.md R568; reset none]. -/
  scope : Nat
  /-- PAYLOAD [up to 1,600 bytes; 19_security.md R568; reset none]. -/
  payload : List Byte
  deriving DecidableEq, Repr

/-- What a burn in progress burns (R560, R567, R588). -/
inductive BurnKind
  /-- an owner slot: its key bits, then VALID -/
  | owner (slot : Nat) (key : List Byte)
  /-- REVOKED of an owner slot -/
  | ownerRevoke (slot : Nat)
  /-- a Silcel key generation: its key bits, then VALID -/
  | mac (slot gen : Nat) (key : List Byte)
  /-- REVOKED of a Silcel key generation -/
  | macRevoke (slot gen : Nat)
  /-- the firmware counter up to a value -/
  | fw (target : Nat)
  /-- the plan counter up to a value -/
  | plan (target : Nat)
  /-- the repair entries of soft repairs, in this order -/
  | repair (items : List Item)
  deriving DecidableEq, Repr

/-- A burn in progress (R560). -/
structure Burn where
  /-- What is burnt [kind; 19_security.md R560; reset none]. -/
  kind : BurnKind
  /-- Fuse bits to burn [count; 19_security.md R560; reset none]. -/
  bits : Nat
  /-- Supervisor time at which it started [time; 19_security.md R560; reset none]. -/
  start : Nat
  /-- Bits that it may still complete because a supply warning came, counted from its start [count; 19_security.md R560; reset none]. -/
  limit : Option Nat
  deriving DecidableEq, Repr

/-- What die 0 sends die 1 at its release (R19, R20, R559): its firmware sections, its Silcel keys and the owner-key state. -/
structure Release where
  /-- The firmware that die 0 has verified [record; 01_device_overview.md R19; reset none]. -/
  fw : Firmware
  /-- Owner slots as die 0's fuses hold them [4 records; 19_security.md R559; reset none]. -/
  owners : Map KeyFuse
  /-- Silcel key generations as die 0's fuses hold them [16 records; 19_security.md R559; reset none]. -/
  macs : Map KeyFuse
  deriving DecidableEq, Repr

/-- The security state of one die (R568 to R576). -/
structure Security where
  /-- The token accepted, on die 0, until its action is taken [record; 19_security.md R569; reset none]. -/
  token : Option Token := none
  /-- The fuse burn in progress: SC_STATUS.BURNING or ST_STATUS.FUSING [record; 19_security.md R560; reset none]. -/
  burn : Option Burn := none
  /-- The 256 bytes of the quote being signed; SC_STATUS.QUOTE_BUSY shows it [256 bytes; 19_security.md R575; reset none]. -/
  signing : Option (List Byte) := none
  /-- The last quote, shown in the document window [50,112 bytes; 19_security.md R575; reset empty]. -/
  quote : List Byte := []
  /-- Test authorisation: SCOPE and the supervisor time at which it ends [record; 19_security.md R572; reset none]. -/
  test : Option (Nat × Nat) := none
  /-- Supervisor time at which the grant of a herdbook clear lapses, on die 0 [time; 19_security.md R573; reset none]. -/
  clearUntil : Option Nat := none
  /-- The key slot whose token granted the clear [2 bits; 20_self_test.md R598; reset 0]. -/
  clearKey : Nat := 0
  /-- A verification for SC_CTRL.SWAP is in progress, on die 0 [1 bit; 19_security.md R566; reset 0]. -/
  swapping : Bool := false
  /-- What has arrived from die 0 for this die's release, on die 1 [record; 19_security.md R559; reset none]. -/
  release : Option Release := none
  deriving DecidableEq, Repr

/-! ### The milk-run link, the whey line and the pail (18_pairing.md) -/

/-- A lease item (R536). -/
structure LeaseItem where
  /-- TYPE: 1 RENEW, 2 ACK, 3 HANDOVER [3 bits; 18_pairing.md R536; reset none]. -/
  ty : Nat
  /-- PAIL [3 bits; 18_pairing.md R536; reset none]. -/
  pail : Nat
  /-- SEQ [8 bits; 18_pairing.md R536; reset none]. -/
  seq : Nat
  /-- LINE [13 bits; 18_pairing.md R536; reset none]. -/
  line : Nat
  /-- DRAINED [13 bits; 18_pairing.md R536; reset none]. -/
  drained : Nat
  deriving DecidableEq, Repr

/-- A check value (R547). -/
structure Chk where
  /-- CHANNEL [8 bits; 18_pairing.md R547; reset none]. -/
  chan : Nat
  /-- FRAME, the number of the frame of which the record carries the low 8 bits [signed; 18_pairing.md R547; reset none]. -/
  frame : Int
  /-- SLICE [11 bits; 18_pairing.md R547; reset none]. -/
  slice : Nat
  /-- FAULT [1 bit; 18_pairing.md R547; reset none]. -/
  fault : Bool
  /-- CRC [32 bits; 18_pairing.md R547; reset none]. -/
  crc : Nat
  /-- The slice is of a random access picture, the slice is its last [2 bits; 18_pairing.md R548; reset none]. -/
  rap : Bool
  last : Bool
  /-- The line of the cadence in which the value was made [signed; 18_pairing.md R548; reset none]. -/
  line : Int
  deriving DecidableEq, Repr

/-- A forwarded control message (R20, R534). A frame of none asks die 0 to choose it (R546). -/
inductive CtlMsg
  /-- a forced random access point of a channel -/
  | rap (n : Nat) (frame : Option Int)
  /-- a rate or QP change of a channel: register and value -/
  | rate (n field : Nat) (v : W32) (frame : Option Int)
  /-- a rate of a pool -/
  | pool (p : Nat) (v : W32) (frame : Option Int)
  /-- a commit of a channel's layers, with their pending values -/
  | commit (n mask : Nat) (values : List (Nat × List W32)) (frame : Option Int)
  /-- die 0's decision of which access units of a decode channel are complete at a frame boundary (R274) -/
  | decide (n : Nat) (frame : Int) (pocs : List Int)
  /-- a herdbook record of die 1 (R601) -/
  | record (r : HbRec)
  /-- die 0 has taken die 1's record, with the sequence number that it has given it -/
  | taken (seq : W32)
  /-- a Silcel request for the other die, and where its reply goes (R429) -/
  | relay (m : Msg) (src : Src)
  /-- the reply to a relayed request -/
  | reply (m : Msg) (src : Src)
  /-- test authorisation: SCOPE and the supervisor time at which it ends; none ends it (R572) -/
  | test (scope : Option (Nat × Nat))
  deriving DecidableEq, Repr

/-- A control message that a die sends in fragments (R534). -/
structure CtlOut where
  /-- Its number among the die's messages [count; 18_pairing.md R534; reset none]. -/
  id : Nat
  /-- The message [record; 18_pairing.md R534; reset none]. -/
  msg : CtlMsg
  /-- Its fragments [count; 18_pairing.md R534; reset none]. -/
  total : Nat
  /-- The next fragment that has not been sent [count; 18_pairing.md R534; reset 0]. -/
  next : Nat := 0
  /-- Fragments sent and not acknowledged: fragment, resends, CONTROL slots since it was sent [list; 18_pairing.md R534; reset empty]. -/
  wait : List (Nat × Nat × Nat) := []
  /-- Fragments that are to be sent again: fragment, resends [list; 18_pairing.md R534; reset empty]. -/
  again : List (Nat × Nat) := []
  deriving DecidableEq, Repr

/-- Something that travels as PLAN traffic (R533). -/
inductive PlanMsg
  /-- a plan's sections for the other die, or the image of a plan returned to die 0 (R91, R624) -/
  | sections (p : Plan)
  /-- at boot, die 1's firmware sections and release data (R20) -/
  | release (r : Release)
  /-- the snapshot of a pail's in-step fragments before picture G (R553 step 3) -/
  | snapshot (p : Nat)
  /-- the closing record of picture G - 1 (R553 step 4): encode channels, send flows, queues with whether they are weighted, and shapers -/
  | closing (p : Nat) (encs : List (Nat × EncChan)) (flows : List (Nat × TxFlow)) (queues : List (Nat × Bool × EgQueue)) (shapers : List (Nat × Bucket))
  deriving DecidableEq, Repr

/-- PLAN traffic that a die sends. -/
structure PlanOut where
  /-- What it is [record; 18_pairing.md R533; reset none]. -/
  msg : PlanMsg
  /-- Records of 24 bytes that it takes [count; 18_pairing.md R533; reset none]. -/
  total : Nat
  /-- Records sent [count; 18_pairing.md R533; reset 0]. -/
  sent : Nat := 0
  deriving DecidableEq, Repr

/-- A record in flight from one die to the other (R533). -/
inductive LinkRec
  | idle
  /-- the sender's time, and its FREERUN and MISMATCH flags -/
  | timing (time : Nat) (flags : Bool × Bool)
  /-- lease items that the receiver has not taken -/
  | lease (items : List LeaseItem)
  | check (recs : List Chk)
  /-- a fragment: message number, fragment, fragments in all; the message; and fragments acknowledged, by message and fragment -/
  | control (frag : Option (Nat × Nat × Nat)) (msg : Option CtlMsg) (acks : List (Nat × Nat))
  /-- a part of PLAN traffic: what it belongs to, its number, and whether it is the last -/
  | plan (msg : PlanMsg) (k : Nat) (last : Bool)
  deriving DecidableEq, Repr

/-- What a die keeps of one pail beside MR_PAILp_STATE. Lines are counted from the epoch on its own grid of the cadence. -/
structure PailSt where
  /-- SEQ of the last RENEW or HANDOVER sent [8 bits; 18_pairing.md R541; reset 0]. -/
  seq : Nat := 0
  /-- The expiry of a holder, the view of a standby; LIMIT shows its line [signed; 18_pairing.md R541; reset 0]. -/
  limit : Int := 0
  /-- The handover line H at which the die is to act [signed; 18_pairing.md R543; reset none]. -/
  ho : Option Int := none
  /-- Line of the last RENEW sent [signed; 18_pairing.md R552; reset none]. -/
  renewed : Option Int := none
  /-- The last line pulse counted [signed; 18_pairing.md R555; reset 0]. -/
  lastLine : Int := 0
  /-- Picture G at which a rejoining die starts [signed; 18_pairing.md R553; reset none]. -/
  goal : Option Int := none
  /-- The snapshot, and the closing record, of the attempt have arrived [2 bits; 18_pairing.md R553; reset 0]. -/
  snap : Bool × Bool := (false, false)
  /-- The frame in which a record of the other die last had FAULT [signed; 18_pairing.md R549; reset none]. -/
  peerFault : Option Int := none
  deriving DecidableEq, Repr

/-- What one die keeps of the link and the whey line. -/
structure Pairing where
  /-- Rotation slots sent since training [count; 18_pairing.md R533; reset 0]. -/
  slots : Nat := 0
  /-- The last 1 us mark of station time for which TIMING was sent [count; 18_pairing.md R534; reset 0]. -/
  mark : Nat := 0
  /-- Lease items, check records, control messages, acknowledgements and PLAN traffic that wait for a slot [5 queues; 18_pairing.md R534; reset empty]. -/
  leaseQ : List LeaseItem := []
  checkQ : List Chk := []
  ctlQ : List CtlOut := []
  acks : List (Nat × Nat) := []
  planQ : List PlanOut := []
  /-- Records received without a gap of the PLAN traffic that arrives [count; 18_pairing.md R533; reset 0]. -/
  planGot : Nat := 0
  /-- The plan whose sections for this die have arrived [record; 03_plans.md R91; reset none]. -/
  sections : Option Plan := none
  /-- The number of the next control message [count; 18_pairing.md R534; reset 0]. -/
  nextId : Nat := 0
  /-- Fragments received of messages that are not complete: message, fragments [list; 18_pairing.md R534; reset empty]. -/
  got : List (Nat × List Nat) := []
  /-- The last messages that were complete, whose fragments are not taken again [list; 18_pairing.md R534; reset empty]. -/
  gotDone : List Nat := []
  /-- Rotation records that have left this die and not arrived, oldest first [list; 18_pairing.md R533; reset empty]. -/
  flight : List LinkRec := []
  /-- Lease items that have left this die by the whey line and not arrived [list; 18_pairing.md R536; reset empty]. -/
  items : List LeaseItem := []
  /-- Heartbeats sent, and of these those that have not arrived [2 counts; 18_pairing.md R537; reset 0]. -/
  beats : Nat × Nat := (0, 0)
  /-- Station time of the next heartbeat [time; 18_pairing.md R537; reset 0]. -/
  beatAt : Nat := 0
  /-- Supervisor time of the last heartbeat received [time; 18_pairing.md R537; reset none]. -/
  heard : Option Nat := none
  /-- Supervisor time of the last item of any type received on either path [time; 18_pairing.md R544; reset 0]. -/
  lastItem : Nat := 0
  /-- This die's check values that no value of the other die has met, and the other die's [2 lists; 18_pairing.md R548; reset empty]. -/
  own : List Chk := []
  theirs : List Chk := []
  /-- Slices counted in the present picture of each channel [256 x 11 bits; 18_pairing.md R547; reset 0]. -/
  slice : Map Nat := []
  /-- Every slice compared so far of the present picture of a channel matches [256 bits; 18_pairing.md R548; reset 0]. -/
  clean : Map Bool := []
  /-- Pails 0 to 7 [8 records; 18_pairing.md R539; reset see its fields]. -/
  pails : Map PailSt := []
  deriving DecidableEq, Repr


/-! ### Supply, resets and low-power states (21_power_reset.md) -/

/-- How far a die has come since its last reset (R621, R632). -/
inductive Phase
  /-- in reset, or its regulators off -/
  | held
  /-- out of reset: the boot ROM is to run -/
  | released
  /-- firmware verified or recovery entered: start-up BIST is to run -/
  | booted
  /-- BIST ended: DRAM training is to run -/
  | tested
  /-- brought up -/
  | ready
  /-- stopped: start-up BIST has failed all eight control cores (20_self_test.md R584) -/
  | stopped
  deriving DecidableEq, Repr

/-- What the supervisor of one die keeps beside the PW registers (R611 to R637). -/
structure Power where
  /-- How far the die has come since its last reset [phase; 21_power_reset.md R632; reset released]. -/
  phase : Phase := .released
  /-- Energy of domains 0 to 6 in µJ; PW_Ed_LO and PW_Ed_HI take them at SNAP in mJ [7 counters; 21_power_reset.md R634; reset 0]. -/
  energy : Map Nat := []
  /-- The regulators at their current limits and since when, in the order in which they reached them [domain and time each;
  21_power_reset.md R610; reset none]. -/
  limit : List (Nat × Nat) := []
  /-- No sample of VIN has been accepted since the last SNAP [1 bit; 21_power_reset.md R635; reset 1]. -/
  minFresh : Bool := true
  /-- Supervisor time of the supply warning that is present [time; 21_power_reset.md R615; reset 0]. -/
  warnAt : Nat := 0
  /-- Supervisor time of the last restart of the watchdog [time; 21_power_reset.md R623; reset 0]. -/
  kickAt : Nat := 0
  /-- Herdbook records not kept across a reset, counted in the supervisor domain until a LOST record reports them [count; 21_power_reset.md R611, R618; reset 0]. -/
  unkept : Nat := 0
  deriving DecidableEq, Repr

/-- What the package's supply and states have beside the dies. -/
structure Supply where
  /-- The low-power state change in progress: its target [2 bits; 21_power_reset.md R636; reset none]. -/
  change : Option Nat := none
  /-- The package is in Dry [1 bit; 21_power_reset.md R628; reset 0]. -/
  dry : Bool := false
  deriving DecidableEq, Repr

/-! ### The operator panel port (22_panel.md) -/

/-- A panel event in its filter or due in the queue (R643, R644). -/
structure PanelEvent where
  /-- KIND [4 bits; 22_panel.md R644; reset none]. -/
  kind : Nat
  /-- INDEX [6 bits; 22_panel.md R644; reset none]. -/
  index : Nat
  /-- STEPS [16 bits signed; 22_panel.md R644; reset none]. -/
  steps : Int
  /-- LINE and FRAME of the master cadence at the scan that completed the filter [13 and 19 bits; 22_panel.md R644; reset none]. -/
  line : Nat
  frame : Nat
  deriving DecidableEq, Repr

/-- One encoder (R639, R641). -/
structure PnEncoder where
  /-- The phase state A + 2 x B that counts [2 bits; 22_panel.md R639; reset 0 DESIGN CHOICE, log entry 48]. -/
  phase : Nat := 0
  /-- The last sample [2 bits; 22_panel.md R639; reset 0 DESIGN CHOICE, log entry 48]. -/
  last : Nat := 0
  /-- Quarters of a quadrature cycle since the last whole step, clockwise positive [signed; 22_panel.md R639; reset 0]. -/
  quarters : Int := 0
  /-- Steps since the encoder's last event [signed; 22_panel.md R643; reset 0]. -/
  steps : Int := 0
  deriving DecidableEq, Repr

/-- One touch pad (R639, R642). -/
structure PnTouch where
  /-- The baseline, in 1/4,096 count [28 bits; 22_panel.md R642; reset 0, replaced by the first sample, DESIGN CHOICE, log entry 48]. -/
  base : Int := 0
  /-- The last sample that was not discarded; none before the first [16 bits; 22_panel.md R642; reset none]. -/
  last : Option Int := none
  /-- Consecutive samples that speak for the other state [2 bits; 22_panel.md R639; reset 0]. -/
  run : Nat := 0
  /-- Samples since the pad turned on [count; 22_panel.md R642; reset 0]. -/
  onFor : Nat := 0
  deriving DecidableEq, Repr

/-- The panel port of die 0 (R638 to R649). -/
structure Panel where
  /-- Per key, consecutive scans whose state differs from the filtered one [64 counts; 22_panel.md R639; reset 0]. -/
  keys : Map Nat := []
  /-- Per key, it was a ghost candidate at the last scan [64 bits; 22_panel.md R640; reset 0]. -/
  ghosts : Map Bool := []
  /-- Encoders 0 to 3 [4 records; 22_panel.md R639; reset see its fields]. -/
  encs : Map PnEncoder := []
  /-- Touch pads 0 to 15 [16 records; 22_panel.md R642; reset see its fields]. -/
  touch : Map PnTouch := []
  /-- Per module input, milliseconds for which its level differs from the filtered one [8 counts; 22_panel.md R639; reset 0]. -/
  mods : Map Nat := []
  /-- Filtered changes that have not yet been put in the queue, in their order (R647) [list; 22_panel.md R643; reset none]. -/
  due : List PanelEvent := []
  /-- The panel queue, oldest first; PN_STATUS shows its fill, PN_EVQ0 and PN_EVQ1 its head [256 x 2 words; 22_panel.md R643; reset empty]. -/
  queue : List PanelEvent := []
  /-- The duty that each tally output puts out in its present period [32 x 8 bits; 22_panel.md R645; reset 0]. -/
  duty : Map Nat := []
  deriving DecidableEq, Repr

/-! ### Temperature and service life (23_package.md) -/

/-- One temperature sensor: logic sensors 0 to 7, 8 the supervisor sensor, 9 to 12 the DRAM layers 0 to 3 (R660, R662). -/
structure TempSensor where
  /-- Consecutive discarded samples [count; 23_package.md R660; reset 0]. -/
  discards : Nat := 0
  /-- Consecutive accepted samples since it was excluded [count; 23_package.md R660; reset 0]. -/
  accepts : Nat := 0
  /-- It takes no part in the rules of R661 and R662 [1 bit; 23_package.md R660; reset 0]. -/
  excluded : Bool := false
  /-- Consecutive accepted samples above 115 degrees [count; 23_package.md R662; reset 0]. -/
  above : Nat := 0
  deriving DecidableEq, Repr

/-- What one die keeps of its temperature (R660 to R668). -/
structure Thermal where
  /-- Its sensors [13 records; 23_package.md R660; reset see its fields]. -/
  sensors : Map TempSensor := []
  /-- The die is shut down by its temperature [1 bit; 23_package.md R662; reset 0]. -/
  shut : Bool := false
  /-- Supervisor time since which the supervisor sensor has read below 95 degrees [time; 23_package.md R662; reset none]. -/
  coolSince : Option Nat := none
  /-- The hottest accepted logic or DRAM-layer sample of the present second, in 1/16 degree [signed; 23_package.md R664; reset none]. -/
  hottest : Option Int := none
  /-- The part of 1/256 equivalent hour that SY_AGE does not show, in 2^-16 ns of AF 1 [time; 23_package.md R664; reset 0]. -/
  agePart : Nat := 0
  /-- A logic sample has been accepted since power-on [1 bit; 23_package.md R667; reset 0]. -/
  peaked : Bool := false
  deriving DecidableEq, Repr

/-! ### The whole package -/

/-- What a die or the package has sent out, or answered to a register write (R417, R418). -/
inductive Out
  /-- a Silcel reply or post, from a sub-port of die `d` to an address -/
  | silcel (d : DieId) (dst : Src) (m : Msg)
  /-- a register write was refused with a code of R418 -/
  | refused (d : DieId) (addr code : Nat)
  /-- an Ethernet frame from a sub-port of die `d`, without its FCS; `stomped` where it ends with the inverted FCS (R374) -/
  | frame (d : DieId) (subport : Nat) (bytes : List Byte) (stomped : Bool)
  /-- a line that a timed SDI transmitter of a lane sends: the line counted from the epoch and the station time of its start, its
  active samples, the words of its embedded audio channels for each audio sample in the line, its ancillary packets, and whether it
  holds (R321) -/
  | sdi (d : DieId) (lane : Nat) (line : Int) (at_ : Nat) (picture : PicLine) (audio : List (List W32)) (anc : List Byte) (hold : Bool)
  /-- a native frame: control word, payload, and the line bits, scrambled and stuffed, that carry them (R322, R323) -/
  | native (d : DieId) (lane : Nat) (control : W32) (payload : List Byte) (wire : List Bool)
  /-- a direct route forwards a line, or a native frame, of its source to a transmitter (R339) -/
  | sdiThrough (d : DieId) (lane source : Nat) (l : SdiLine)
  | nativeThrough (d : DieId) (lane source : Nat) (wire : List Bool)
  /-- the transmit slots of an audio port for one sample period; none where a slot is left at high impedance (R445) -/
  | audio (d : DieId) (port : Nat) (slots : List (Option Nat))
  /-- the timed lane and audio outputs of a die that resets hold their last value until a supervisor time (R552) -/
  | hold (d : DieId) (until_ : Nat)
  /-- an item on the whey line (R536) or a record in a rotation slot of the milk-run link (R533) -/
  | link (d : DieId) (whey : Bool) (bits : Nat)
  deriving DecidableEq, Repr

/-- One die: its register space and what its blocks keep beside it. -/
structure Die where
  /-- The register space by die-relative address; registers at their reset values are not listed [456 register families; 13_silcel.md R435; reset each register's own]. -/
  regs : Map W32 := []
  /-- Station time [record; 02_station_time.md; reset see its fields]. -/
  clk : Clock := {}
  /-- The sections of the running plan that are in force on the die, changed as each cadence switches [list; 03_plans.md R98; reset none]. -/
  live : List Sect := []
  /-- Tiles 0 to 1,535, by r x 48 + c [1,536 records; 04_vat.md R114; reset see its fields]. -/
  tiles : Map Tile := []
  /-- The bundle stores, by 2,048 x tile + bundle [1,536 x 2,048 x 128 bits; 04_vat.md R115; reset 0, the idle bundle, DESIGN CHOICE, log entry 2]. -/
  bundles : Map Nat := []
  /-- Encode channels [record; 06_encode.md; reset see its fields]. -/
  enc : Encoders := {}
  /-- Decode channels and frame stores [record; 08_cellar.md; reset see its fields]. -/
  cellar : Cellar := {}
  /-- Churn channels 0 to 255 [256 records; 09_churn.md R284; reset see its fields]. -/
  churn : Map ChurnChan := []
  /-- Serial lanes [record; 10_lanes.md; reset see its fields]. -/
  lanes : Lanes := {}
  /-- Ethernet flows, control frames and PTP [record; 11_network.md; reset see its fields]. -/
  nw : Network := {}
  /-- Egress queues, shapers, policers and gates [record; 12_traffic.md; reset see its fields]. -/
  tq : Traffic := {}
  /-- Audio [record; 14_audio.md; reset see its fields]. -/
  au : Audio := {}
  /-- Silcel [record; 13_silcel.md; reset see its fields]. -/
  sm : Silcel := {}
  /-- Stacked DRAM [record; 15_memory.md; reset see its fields]. -/
  dram : Dram := {}
  /-- The DMA engine [record; 16_dma_checks.md; reset see its fields]. -/
  dma : Dma := {}
  /-- Control cores and threads [record; 17_parlour.md; reset see its fields]. -/
  par : Parlour := {}
  /-- The milk-run link, the whey line and the pail [record; 18_pairing.md; reset see its fields]. -/
  mr : Pairing := {}
  /-- Self-test and perturbation [record; 20_self_test.md; reset see its fields]. -/
  st : SelfTest := {}
  /-- Security [record; 19_security.md; reset see its fields]. -/
  sc : Security := {}
  /-- Supply and resets [record; 21_power_reset.md; reset see its fields]. -/
  pw : Power := {}
  /-- Temperature [record; 23_package.md; reset see its fields]. -/
  heat : Thermal := {}
  deriving DecidableEq, Repr

/-- What the package has once: the supervisors' clock, the plans, the blocks of die 0 and what joins the dies. -/
structure Pkg where
  /-- Supervisor time, in 2^-16 ns: the clock that steps of station time do not move (R432) [time; 13_silcel.md R432; reset 0 DESIGN CHOICE, log entry 2]. -/
  sup : Nat := 0
  /-- Plans [record; 03_plans.md; reset see its fields]. -/
  plans : Plans := {}
  /-- The serial flash, byte by byte [64 MiB to 4 GiB; 00_scope.md R10; reset 0xFF erased, DESIGN CHOICE, log entry 4]. -/
  flash : Mem := []
  /-- The herdbook [record; 20_self_test.md R596; reset see its fields]. -/
  hb : Herdbook := {}
  /-- Fuses [record; 19_security.md R559; reset see its fields]. -/
  fuses : Fuses := {}
  /-- The boot directory, where its CRC-32C holds [64 KiB of flash; 19_security.md R562; reset none, erased flash, DESIGN CHOICE, log entry 4]. -/
  dir : Option Directory := none
  /-- The firmware that runs [record; 19_security.md R563; reset none]. -/
  fw : Option Firmware := none
  /-- Supply and states [record; 21_power_reset.md; reset see its fields]. -/
  supply : Supply := {}
  /-- The panel port [record; 22_panel.md; reset see its fields]. -/
  panel : Panel := {}
  deriving DecidableEq, Repr

/-- The state of a DZK package. -/
structure State where
  /-- What the package has once [record; reset see its fields]. -/
  pkg : Pkg := {}
  /-- Die 0 [record; 01_device_overview.md R18; reset see its fields]. -/
  die0 : Die := {}
  /-- Die 1 of a dual-die package [record; 00_scope.md R3; reset see its fields]. -/
  die1 : Die := {}
  /-- The model's own counter of free values drawn, no part of the device [count; reset 0 DESIGN CHOICE, log entry 11]. -/
  free : Nat := 0
  /-- What the package has sent, oldest first, the model's record of its outputs [list; reset empty]. -/
  outbox : List Out := []
  /-- The commands that wait, first in first out [list; reset empty]. -/
  pending : List Instr := []
  deriving DecidableEq, Repr

/-- Why a command stops the model. -/
inductive Fault
  /-- The command names an instance that the package does not have: die 1 of a single-die package (R3). Raised by every
  command that names die 1 on such a package. Safe: nothing is computed. -/
  | noInstance
  deriving DecidableEq, Repr

/-- Why the model gives a command no meaning. -/
inductive Refusal
  /-- The command has no meaning in the model. Raised by exec's arms alone. Safe: nothing is computed. -/
  | notModelled (mnemonic : String)
  /-- The command is not one the device can meet: a field outside the range its instruction states, which admission refuses
  (R151), or a message whose opcode is another row's. Raised by every meaning whose command is not well-formed. Safe. -/
  | illFormed
  deriving DecidableEq, Repr

/-- SY_VARIANT of a die of the DZK-D4V (R4, R5): code 0x11, package D, dual, VVC, full grade, in-step optional, 512 lanes,
2 ports (log entry 1). -/
def variantD4V (d : Nat) : W32 :=
  BitVec.ofNat 32 (0x11 + 1 * 2 ^ 10 + 1 * 2 ^ 11 + 1 * 2 ^ 13 + d * 2 ^ 15 + 512 * 2 ^ 16 + 2 * 2 ^ 26)

/-- Die 0 after a power-on reset. -/
def Die.reset0 : Die := { regs := [(0x4, variantD4V 0)] }
/-- Die 1 after a power-on reset: TB_MODE.SOURCE is 3, the milk-run link (R70). -/
def Die.reset1 : Die := { regs := [(0x4, variantD4V 1), (0x20000, 0x803)], pw := { phase := .held } }

/-- The package right after a power-on reset, before the boot ROM has run. -/
def State.reset : State := { die0 := Die.reset0, die1 := Die.reset1 }

end Sys2Proof.Machine
end

