-- ==== Sys2Proof/Machine/Ops.lean ====
section
/-! DEFINITION. The named operations that every block shares: the two dies, the register space, supervisor and station time,
line-grid positions, event bits and their posts, herdbook records and breaches. -/

namespace Sys2Proof.Machine

/-! ### Dies and outcomes -/

/-- One die of the package. -/
def State.die (s : State) (d : DieId) : Die := if d = 0 then s.die0 else s.die1
/-- A die replaced. -/
def State.setDie (s : State) (d : DieId) (x : Die) : State := if d = 0 then { s with die0 := x } else { s with die1 := x }
/-- A die rewritten. -/
def State.upd (s : State) (d : DieId) (f : Die → Die) : State := s.setDie d (f (s.die d))
/-- What the package has once, rewritten. -/
def State.updPkg (s : State) (f : Pkg → Pkg) : State := { s with pkg := f s.pkg }
/-- The other die. -/
def peer (d : DieId) : DieId := if d = 0 then 1 else 0

/-- The meaning's answer. -/
abbrev Result := Host.Outcome State Fault Refusal

/-! ### Registers -/

/-- A register's stored word. -/
def Die.reg (x : Die) (a : Nat) : W32 := mget regDefault x.regs a
/-- Stores a register's word. -/
def Die.setReg (x : Die) (a : Nat) (v : W32) : Die := { x with regs := mput regDefault x.regs a v }
/-- A field of a register instance. -/
def Die.fld (x : Die) (f : Fld) (i : Nat := 0) (j : Nat := 0) : Nat := bits (x.reg (fldAddr f i j)).toNat f.hi f.lo
/-- A word with the bits `hi` to `lo` replaced by `v`. -/
def putBits (w : W32) (hi lo v : Nat) : W32 :=
  BitVec.ofNat 32 (w.toNat - bits w.toNat hi lo * 2 ^ lo + v % 2 ^ (hi - lo + 1) * 2 ^ lo)
/-- Stores a field of a register instance. -/
def Die.setFld (x : Die) (f : Fld) (v : Nat) (i : Nat := 0) (j : Nat := 0) : Die :=
  x.setReg (fldAddr f i j) (putBits (x.reg (fldAddr f i j)) f.hi f.lo v)
/-- The instances below `n` of a register family that hold anything but their reset value. -/
def Die.listed (x : Die) (f : Fld) (n : Nat) : List Nat :=
  x.regs.filterMap fun e => if f.base ≤ e.1 ∧ (e.1 - f.base) % f.stride = 0 ∧ (e.1 - f.base) / f.stride < n then some ((e.1 - f.base) / f.stride) else none
/-- A flag of a register instance. -/
def Die.flag (x : Die) (f : Fld) (i : Nat := 0) (j : Nat := 0) : Bool := x.fld f i j == 1
/-- Raises a counter by `n`, modulo its width. -/
def Die.count (x : Die) (f : Fld) (i : Nat := 0) (n : Nat := 1) : Die := x.setFld f (x.fld f i + n) i

/-- The field of a die of the package. -/
def State.fld (s : State) (d : DieId) (f : Fld) (i : Nat := 0) (j : Nat := 0) : Nat := (s.die d).fld f i j
def State.setFld (s : State) (d : DieId) (f : Fld) (v : Nat) (i : Nat := 0) (j : Nat := 0) : State :=
  s.upd d fun x => x.setFld f v i j
def State.count (s : State) (d : DieId) (f : Fld) (i : Nat := 0) (n : Nat := 1) : State := s.upd d fun x => x.count f i n

/-- The package holds two dies (R4, DUAL). -/
def State.dual (s : State) : Bool := s.die0.flag R.SY_VARIANT_DUAL
/-- The package has the die. -/
def State.has (s : State) (d : DieId) : Bool := d = 0 || s.dual

/-- The meaning of a command that names a die and is well-formed where `ok` says so: its effect `f` on everything but the queue
of commands. -/
def onDie (s : State) (d : DieId) (ok : Bool) (f : State) : Result :=
  if !ok then .refused .illFormed else if s.has d then .next { f with pending := s.pending } else .fault .noInstance

/-! ### Free values -/

/-- The next free value. -/
def State.freeValue (s : State) : Nat := Config.freeNat s.free
/-- The next free value and the state in which it has been drawn. -/
def State.draw (s : State) : Nat × State := (Config.freeNat s.free, { s with free := s.free + 1 })

/-- The `n` bytes of an image that stands in a transfer buffer (R433). -/
def imageBytes (n : Nat) (m : Buf) : List Byte := (List.range n).map fun i => (oget m i).getD (Config.imageByte i)

/-! ### Time -/

/-- One nanosecond in units of time. -/
def nsec : Nat := 65536
def usec : Nat := 1000 * nsec
def msec : Nat := 1000 * usec
def second : Nat := 1000 * msec

/-- A plan runs on the package. -/
def State.planRuns (s : State) : Bool := s.pkg.plans.running.isSome

/-- The source that a die follows (R36): its plan's, or before a plan REF_IN where it carries a valid reference and FREE
otherwise on die 0, DIE0 on die 1 (R37); its backup PTP while that is active (R62). DEDUCED (log entry 62): R37's 'at admission' is the
moment at which the plan starts to run, since an admitted plan may be cancelled and R37 begins 'until a plan runs'. -/
def State.source (s : State) (d : DieId) : Nat :=
  let x := s.die d
  if d ≠ 0 ∧ x.flag R.TB_STATUS_BACKUP_ACTIVE then 1
  else if s.planRuns then x.fld R.TB_MODE_SOURCE
  else if d ≠ 0 then 3
  else if x.fld R.TB_REF_FORMAT_FORMAT = 0 then 0 else 2

/-- The supervisor time in which a frequency moves by one unit of 1/256 ppb at 0.1 ppm/s (R52). -/
def slewUnit : Nat := second / 25600

/-- A servo whose clock runs for `dt` from the supervisor instant `sup` on, and the sum of its frequency over that time: the
frequency moves to the one asked for at 0.1 ppm/s and rests there (R52). -/
def Servo.run (v : Servo) (sup dt : Nat) : Servo × Int :=
  let gap := (v.want - v.freq).natAbs
  if gap = 0 then (v, v.freq * dt)
  else
    let stop := v.freqAt + gap * slewUnit
    if stop ≤ sup + dt then
      ({ v with freq := v.want, freqAt := stop, history := (stop, v.want) :: v.history },
       (v.freq + v.want) * ((stop - sup : Nat) : Int) / 2 + v.want * ((sup + dt - max stop sup : Nat) : Int))
    else
      let n := (sup + dt - v.freqAt) / slewUnit
      let f := if v.freq ≤ v.want then v.freq + n else v.freq - n
      ({ v with freq := f, freqAt := v.freqAt + n * slewUnit }, (v.freq + f) * dt / 2)

/-- A servo asks for another frequency, within 10 ppm of nominal (R52). -/
def Servo.ask (v : Servo) (now : Nat) (want : Int) : Servo :=
  let w := max (-2560000) (min 2560000 want)
  { v with
    want := w
    freqAt := if decide (v.freq < v.want) = decide (v.freq < w) ∧ decide (v.want < v.freq) = decide (w < v.freq) ∧ v.freq ≠ v.want then v.freqAt else now
    history := (now, v.freq) :: v.history.takeWhile fun e => decide (now < e.1 + 2 * second) }

/-- The parts of a unit of 2^-16 ns in which a frequency of 1/256 ppb is summed over time. -/
def freqParts : Int := 256000000000

/-- Station time moved by `dt` of supervisor time from the instant `sup` on, at the servo's frequency, with the part of a unit
kept; the model clock of the backup servo moves at the backup servo's (R52, R62). -/
def Clock.advance (c : Clock) (sup dt : Nat) : Clock :=
  let (v, n) := c.servo.run sup dt
  let (b, m) := c.backup.run sup dt
  let r := c.residue + n
  let q := b.modelPart + (m - n)
  { c with now := ((c.now : Int) + dt + r / freqParts).toNat, residue := r % freqParts, servo := v
           backup := { b with model := b.model + q / freqParts, modelPart := q % freqParts } }

/-- Moves supervisor time and both dies' station time by `dt`, and adds to the operating time (R599). -/
def State.advance (s : State) (dt : Nat) : State :=
  let t := s.pkg.hb.timePart + dt
  let unit := 3600 * second / 256
  { s with
    pkg := { s.pkg with sup := s.pkg.sup + dt, hb := { s.pkg.hb with time := s.pkg.hb.time + t / unit, timePart := t % unit } }
    die0 := { s.die0 with clk := s.die0.clk.advance s.pkg.sup dt }
    die1 := { s.die1 with clk := s.die1.clk.advance s.pkg.sup dt } }

/-- Supervisor time. -/
def State.now (s : State) : Nat := s.pkg.sup
/-- Moves time to the supervisor instant `t`, if that has not passed. -/
def State.advanceTo (s : State) (t : Nat) : State := s.advance (t - s.now)
/-- The supervisor time that passes while station time of a die moves by `dt`: to the second order in the frequency's move. -/
def Clock.supOf (c : Clock) (dt : Nat) : Nat :=
  let first := ((dt : Int) * freqParts / (freqParts + c.servo.freq)).toNat
  ((dt : Int) - (c.servo.run c.servo.freqAt first).2 / freqParts).toNat
/-- Moves time until die `d`'s station time is `t`, if that has not passed; station time of the die is then `t`. -/
def State.advanceStation (s : State) (d : DieId) (t : Nat) : State :=
  let c := (s.die d).clk
  if t ≤ c.now then s
  else (s.advance (c.supOf (t - c.now))).upd d fun x => { x with clk := { x.clk with now := t, residue := 0 } }

/-- Seconds of a station time. -/
def secOf (t : Nat) : Nat := t / second
/-- Nanoseconds of a station time. -/
def nsOf (t : Nat) : Nat := t % second / nsec
/-- Wrap form of a station time (R40): seconds in [63:32], nanoseconds in [29:0]. -/
def wrapOf (t : Nat) : Nat := secOf t % 2 ^ 32 * 2 ^ 32 + nsOf t
/-- The signed difference of two Wrap times in nanoseconds (R41). -/
def wrapDiff (a b : Nat) : Int :=
  sgn 32 (a / 2 ^ 32 + 2 ^ 32 - b / 2 ^ 32 % 2 ^ 32) * 1000000000 + ((a % 2 ^ 30 : Nat) : Int) - ((b % 2 ^ 30 : Nat) : Int)
/-- The signed difference of two 32-bit numbers (R41). -/
def diff32 (a b : Nat) : Int := sgn 32 (a % 2 ^ 32 + 2 ^ 32 - b % 2 ^ 32)

/-! ### The line grid (R42 to R45) -/

/-- Frames per second of a rate code, as a fraction; code 0 is a cadence that is not active (R42). -/
def rateOf : Nat → Option (Nat × Nat)
  | 1 => some (24000, 1001) | 2 => some (24, 1) | 3 => some (25, 1) | 4 => some (30000, 1001) | 5 => some (30, 1)
  | 6 => some (48000, 1001) | 7 => some (48, 1) | 8 => some (50, 1) | 9 => some (60000, 1001) | 10 => some (60, 1)
  | 11 => some (100, 1) | 12 => some (120000, 1001) | 13 => some (120, 1) | _ => none

/-- What defines a cadence's grid: rate N/D, total lines L and offset k in 2^-16 line (R43). -/
structure Grid where
  n : Nat
  d : Nat
  l : Nat
  k : Int
  deriving DecidableEq, Repr

/-- The grid of cadence `c`, where the cadence is active. -/
def Die.grid (x : Die) (c : Nat) : Option Grid :=
  match rateOf (x.fld R.TB_CAD_CFG_RATE c) with
  | some (n, d) => if x.fld R.TB_CAD_CFG_LINES c = 0 then none else some ⟨n, d, x.fld R.TB_CAD_CFG_LINES c, sgn 32 (x.fld R.TB_CAD_OFFSET c)⟩
  | none => none

/-- The position at station time `t` in 2^-16 line since the epoch (R43). -/
def Grid.pos (g : Grid) (t : Nat) : Int := ((t * g.n * g.l / (g.d * 1000000000) : Nat) : Int) - g.k
/-- The frame of a line counted from the epoch. -/
def Grid.frame (g : Grid) (m : Int) : Int := m / g.l
/-- The line within its frame of a line counted from the epoch. -/
def Grid.line (g : Grid) (m : Int) : Nat := (m % g.l).toNat
/-- The instant of a position in 2^-16 line, rounded down to 2^-16 ns (R43, R46). -/
def Grid.instantPos (g : Grid) (p : Int) : Nat := ((p + g.k) * (g.d * 1000000000) / (g.n * g.l)).toNat
/-- The pulse instant of a line counted from the epoch (R46). -/
def Grid.instant (g : Grid) (m : Int) : Nat := g.instantPos (m * 65536)
/-- The line whose pulse has been the last at station time `t` (log entry 18: an instant rounded down belongs to its line). -/
def Grid.lineAt (g : Grid) (t : Nat) : Int :=
  let m := g.pos t / 65536
  if g.instant (m + 1) ≤ t then m + 1 else m
/-- The first line whose pulse is not before station time `t`. -/
def Grid.firstFrom (g : Grid) (t : Nat) : Int := if g.instant (g.lineAt t) = t then g.lineAt t else g.lineAt t + 1
/-- The first frame boundary that is not before a line. -/
def Grid.boundaryFrom (g : Grid) (m : Int) : Int := (m + g.l - 1) / g.l * g.l

/-- LINE and FRACTION of a position as a register word holds them (R44). -/
def Grid.linePos (g : Grid) (p : Int) : Nat := g.line (p / 65536) * 65536 + (p % 65536).toNat

/-- The master cadence of a die (R70). -/
def Die.masterCad (x : Die) : Nat := x.fld R.TB_MODE_MASTER_CAD

/-- The state of cadence `c`. -/
def Die.cad (x : Die) (c : Nat) : Cad := mget (fun _ => {}) x.clk.cads c
/-- Cadence `c` rewritten. -/
def Die.modCad (x : Die) (c : Nat) (f : Cad → Cad) : Die :=
  { x with clk := { x.clk with cads := mmod (fun _ => {}) x.clk.cads c f } }

/-- The time by which a cadence's grid is read: while a step leaves it the rest of a frame of the old grid, the time without the
step (R59). -/
def Die.gridTime (x : Die) (c : Nat) : Nat :=
  match (x.cad c).regrid with
  | some r => if (x.cad c).inGap then x.clk.now else ((x.clk.now : Int) - r.shift).toNat
  | none => x.clk.now

/-- The line in progress of a cadence, counted from the epoch; 0 where the cadence is not active. -/
def Die.lineNow (x : Die) (c : Nat) : Int := match x.grid c with
  | some g => g.lineAt (x.gridTime c)
  | none => 0

/-- Frame and line of a cadence at a die's present station time; 0 where the cadence is not active. -/
def Die.frameLine (x : Die) (c : Nat) : Int × Nat :=
  match x.grid c with
  | some g => (g.frame (x.lineNow c), g.line (x.lineNow c))
  | none => (0, 0)

/-! ### Event bits and their posts (R416, R434) -/

/-- The number of the block that holds an address, in the order of R435's table. -/
def blockIndex (a : Nat) : Nat := (regBlocks.findIdx fun b => decide (b.1 ≤ a ∧ a < b.2.1))

/-- Queues a post entry for every subscription to the register's block. -/
def Die.post (x : Die) (sup a bit detail : Nat) : Die :=
  (List.range 4).foldl (fun x i =>
    if x.flag R.SM_SUB_CFG_ACTIVE i && Machine.bit (x.fld R.SM_SUB_BLOCKS_BLOCKS i) (blockIndex a) then
      let q := mget (fun _ => ({} : Sub)) x.sm.subs i
      if q.queue.length < 512 then
        let q' : Sub := { q with queue := q.queue ++ [⟨a, bit, detail % 65536, wrapOf x.clk.now, sup⟩] }
        { x with sm := { x.sm with subs := mput (fun _ => {}) x.sm.subs i q' } }
      else
        let x' : Die := { x with sm := { x.sm with subs := mput (fun _ => {}) x.sm.subs i { q with dropped := true } } }
        ((x'.count R.SM_SUB_DROPS i).count R.SM_POST_DROP).setFld R.SM_EVENTS_POST_DROP 1
    else x) x

/-- Sets an event bit and posts it. `f` names the bit; `i` the register's instance. -/
def State.event (s : State) (d : DieId) (f : Fld) (i : Nat := 0) (detail : Nat := 0) : State :=
  s.upd d fun x => (x.setFld f 1 i).post s.now (fldAddr f i 0) f.lo detail

/-! ### The herdbook (R597 to R601) -/

/-- Adds a record that die 0 makes to those pending; with `always` it is kept even as an eighth (R600). -/
def State.hbAdd (s : State) (r : HbRec) (always : Bool) : State :=
  let h := s.pkg.hb
  let r' : HbRec := { r with seq := h.seq, time := BitVec.ofNat 32 h.time, cycles := s.die0.fld R.HB_CYCLES_CYCLES }
  if h.pend.length < 7 ∨ (always ∧ h.pend.length < 8) then
    s.updPkg fun p => { p with hb := { h with seq := h.seq + 1, pend := h.pend ++ [r'] } }
  else ((s.updPkg fun p => { p with hb := { h with lost := h.lost + 1 } }).count 0 R.HB_LOST).event 0 R.HB_EVENTS_LOST

/-- A perturbation unit of the die is active. -/
def Die.perturbed (x : Die) : Bool := (List.range 16).any fun u => x.flag R.ST_PERT_CTRL_ACTIVE u

/-- A record made on die `d`: die 0's goes to the pending records, die 1's to the buffer that it holds (R601), one that is always kept
even where the buffer is full (R600). It carries the
PERTURBED flag while a perturbation is active on the die (R595, log entry 46). -/
def State.hbRecord (s : State) (d : DieId) (code source detail : Nat) (pert always : Bool := false) : State :=
  let x := s.die d
  let r : HbRec := { code := code, source := source % 65536, stime := wrapOf x.clk.now, detail := detail % 2 ^ 64
                     flags := d.val + 2 * b2n (pert || x.perturbed) + 4 * x.fld R.SC_STATUS_TEST
                       + 8 * b2n (x.clk.servo.state == .free || x.clk.servo.state == .freerun) }
  if d = 0 then s.hbAdd r always
  else if s.pkg.hb.held.length < 256 ∨ always then s.updPkg fun p => { p with hb := { p.hb with held := p.hb.held ++ [r] } }
  else s.updPkg fun p => { p with hb := { p.hb with heldLost := p.hb.heldLost + 1 } }

/-- DETAIL of R597: frame, line and cadence of the present position, and the chapter's value. -/
def Die.hbDetail (x : Die) (cad value : Nat) : Nat :=
  let f := x.frameLine cad
  unsgn 32 f.1 * 2 ^ 32 + f.2 % 8192 * 2 ^ 19 + cad % 8 * 2 ^ 16 + value % 65536

/-- A record of an event that has a cadence. -/
def State.hbCad (s : State) (d : DieId) (code source cad value : Nat) (pert : Bool := false) : State :=
  s.hbRecord d code source ((s.die d).hbDetail cad value) pert

/-- A record of an event that has none: the master cadence's position (R597). -/
def State.hb (s : State) (d : DieId) (code source value : Nat) (pert : Bool := false) : State :=
  s.hbCad d code source (s.die d).masterCad value pert

/-- The CODE of the record of an event bit: its block and its bit (R597). -/
def codeOf (f : Fld) : Nat := blockIndex f.base * 256 + f.lo

/-- Sets an event bit, posts it and records it, with the present line of cadence `cad` and the frame of the picture that it is
about (R229, R243, R256). -/
def State.eventPic (s : State) (d : DieId) (f : Fld) (i source cad value : Nat) (frame : Int) (pert : Bool := false) : State :=
  let s := s.event d f i value
  let line := ((s.die d).frameLine cad).2
  s.hbRecord d (codeOf f) source (unsgn 32 frame * 2 ^ 32 + line % 8192 * 2 ^ 19 + cad % 8 * 2 ^ 16 + value % 65536) pert

/-- Sets an event bit, posts it and records it, with the present position on cadence `cad`. -/
def State.eventCad (s : State) (d : DieId) (f : Fld) (i source cad value : Nat) (pert : Bool := false) : State :=
  (s.event d f i value).hbCad d (codeOf f) source cad value pert
/-- Sets an event bit, posts it and records it, with the present position on the master cadence. -/
def State.eventRec (s : State) (d : DieId) (f : Fld) (i : Nat := 0) (source : Nat := 0) (value : Nat := 0) (pert : Bool := false) : State :=
  s.eventCad d f i source (s.die d).masterCad value pert

/-! ### Breaches of the contract (R109) -/

/-- The kinds of breach; the device's side fails in the first three. -/
inductive Breach | memory | dramLate | clockLow | route | queue | powerOver | slack
  deriving DecidableEq, Repr

def Breach.code : Breach → Nat
  | .memory => 1 | .dramLate => 2 | .clockLow => 3 | .route => 4 | .queue => 5 | .powerOver => 6 | .slack => 7

/-- SIDE: 0 device, 1 compiler (R112). -/
def Breach.side (b : Breach) : Nat := if b.code ≤ 3 then 0 else 1

/-- The plan that owns the window of a cadence: during a switch the new one where the cadence has taken it (R110). -/
def State.windowPlan (s : State) (d : DieId) (c : Nat) : Option Plan :=
  match s.pkg.plans.request, s.pkg.plans.pend with
  | some r, some p => if r.taken.contains (8 * d.val + c) then some p else s.pkg.plans.running
  | _, _ => s.pkg.plans.running
/-- The register counts the breaches of the plan that owns the window: not once a full plan has started on the die with a fresh
count while the cadence has yet to switch (R110, R111). -/
def State.breachCounts (s : State) (d : DieId) (c : Nat) : Bool :=
  match s.pkg.plans.request, s.pkg.plans.pend with
  | some r, some p => p.part || r.taken.contains (8 * d.val + c) || !(r.taken.any fun k => k / 8 == d.val)
  | _, _ => true

/-- Counts, records and posts a breach, against the plan that owns the window: the post's DETAIL holds the low half of its PLAN_ID
(R110, log entry 19). -/
def State.breach (s : State) (d : DieId) (b : Breach) (frag : Nat) (cad : Option Nat := none) (pert : Bool := false) : State :=
  let c := cad.getD (s.die d).masterCad
  let id := ((s.windowPlan d c).map Plan.id).getD 0
  let s := ((s.setFld d R.PL_BREACH_KIND b.code).setFld d R.PL_BREACH_SIDE b.side).setFld d R.PL_BREACH_FRAGMENT frag
  let s := if s.breachCounts d c then s.count d R.PL_BREACH_COUNT else s
  (s.event d R.PL_EVENTS_BREACH 0 id).hbCad d (codeOf R.PL_EVENTS_BREACH) frag c b.code pert

/-- Puts something into the outbox. -/
def State.send (s : State) (o : Out) : State := { s with outbox := s.outbox ++ [o] }

end Sys2Proof.Machine
end

