-- ==== Sys2Proof/Machine/TileKind.lean ====
section
/-! DEFINITION. The types of the tiles of the array and the size of their scratch (R114, R115). -/

namespace Sys2Proof.Machine

/-- The type of a tile, a function of its logical column (R114). -/
inductive TileType | M | S | T | G | E
  deriving DecidableEq, Repr

/-- The type of the tiles of a logical column (R114). -/
def columnType (c : Nat) : TileType :=
  if c = 0 ∨ c = 12 ∨ c = 24 ∨ c = 36 ∨ c = 47 then .M
  else if c % 12 ≤ 4 then .S else if c % 12 ≤ 7 then .T else if c % 12 ≤ 10 then .G else .E

/-- The type of tile index r x 48 + c. -/
def tileType (i : Nat) : TileType := columnType (i % 48)

/-- Banks of scratch, 16 KiB each (R115). -/
def TileType.banks : TileType → Nat
  | .M => 32 | .S => 16 | .T => 8 | .G => 8 | .E => 4

/-- Scratch bytes (R115). -/
def scratchSize (i : Nat) : Nat := (tileType i).banks * 16384

end Sys2Proof.Machine
end

