-- ==== Sys2Proof/Machine/PlanImage.lean ====
section
/-! DEFINITION. Reading a plan image: bytes, sections and records (R76 to R86, R105, R106), and finding the records of the plan
in force on a die. -/

namespace Sys2Proof.Machine

/-- `n` bytes of a list from `off` on. -/
def subBytes (b : List Byte) (off n : Nat) : List Byte := (b.drop off).take n
/-- The little-endian number in `n` bytes from `off` on (R76). -/
def num (b : List Byte) (off n : Nat) : Nat := leNat (subBytes b off n)
/-- A signed little-endian number. -/
def numS (b : List Byte) (off n : Nat) : Int := sgn (8 * n) (num b off n)
/-- Every byte from `off` on, `n` of them, is 0. -/
def zeros (b : List Byte) (off n : Nat) : Bool := (subBytes b off n).all (· == 0)

/-- One record of a record-framed section (R82): its kind, its INDEX and its body without the header. -/
structure Rec where
  kind : Nat
  idx : Nat
  body : List Byte
  deriving DecidableEq, Repr

/-- Splits a section into records; a framing fault ends the list early. -/
def splitRecs : Nat → List Byte → List Rec
  | 0, _ => []
  | fuel + 1, b =>
    if b.length < 8 then []
    else
      let n := num b 2 2
      if n < 8 ∨ b.length < n then []
      else ⟨num b 0 2, num b 4 2, subBytes b 8 (n - 8)⟩ :: splitRecs fuel (b.drop n)

/-- The records of a section (R82). -/
def Sect.recs (s : Sect) : List Rec := splitRecs (s.body.length / 8) s.body

/-- A section names die `d` (R78). -/
def Sect.on (s : Sect) (d : DieId) : Bool := bit s.dies d.val

/-- Entries of a section of fixed layout, `size` bytes each. -/
def chunks (size : Nat) : Nat → List Byte → List (List Byte)
  | 0, _ => []
  | fuel + 1, b => if b.length < size ∨ size = 0 then [] else b.take size :: chunks size fuel (b.drop size)

/-- The entries of `size` bytes that a section of fixed layout holds. -/
def Sect.entries (s : Sect) (size : Nat) : List (List Byte) := chunks size s.body.length s.body

/-! ### The plan in force on a die -/

/-- The records of one kind in force on a die, each with its section. -/
def Die.recsOf (x : Die) (ty kind : Nat) : List (Sect × Rec) :=
  (x.live.filter fun s => s.ty == ty).flatMap fun s => ((s.recs.filter fun r => r.kind == kind).map fun r => (s, r))
/-- The record of one kind for one INDEX. -/
def Die.recOf (x : Die) (ty kind idx : Nat) : Option (Sect × Rec) := (x.recsOf ty kind).find? fun e => e.2.idx == idx
/-- The body of the record of one kind for one INDEX. -/
def Die.bodyOf (x : Die) (ty kind idx : Nat) : Option (List Byte) := (x.recOf ty kind idx).map fun e => e.2.body
/-- The sections of one type in force on a die. -/
def Die.sectsOf (x : Die) (ty : Nat) : List Sect := x.live.filter fun s => s.ty == ty
/-- The entries of a type of section of fixed layout, each with its section. -/
def Die.entriesOf (x : Die) (ty size : Nat) : List (Sect × List Byte) :=
  (x.sectsOf ty).flatMap fun s => (s.entries size).map fun e => (s, e)

/-! ### Owners of compare units (R67) -/

/-- Sections declare compare unit `u` (R86). -/
def ownsUnit (ss : List Sect) (u : Nat) : Bool := ss.any fun s => s.ty == 0x11 && (s.entries 24).any fun e => num e 0 1 == u
/-- A plan's master cadence on a die (R70, R77). -/
def Plan.master (p : Plan) (d : DieId) : Nat := bits (num p.header (0x30 + 4 * d.val) 4) 7 5
/-- A switch takes compare unit `u` from the plan's owners: the old plan owns it and the new one does not (R67). -/
def cmpLeaves (o p : Plan) (d : DieId) (u : Nat) : Bool :=
  ownsUnit (o.sects.filter fun s => s.on d) u && !ownsUnit (p.sects.filter fun s => s.on d) u

/-! ### Tile schedules (R84, kind 0x0201; R127) -/

/-- One window program entry of a tile schedule. -/
structure ProgEntry where
  first : Nat
  liveEnd : Nat
  length : Nat
  hasBanks : Bool
  slack : Bool
  deriving DecidableEq, Repr

/-- A line-map entry. -/
structure MapEntry where
  firstLine : Nat
  lastLine : Nat
  start : Nat
  count : Nat
  deriving DecidableEq, Repr

/-- A tile schedule. -/
structure TileSched where
  cadence : Nat
  progs : List ProgEntry
  lines : List MapEntry
  indices : List Nat
  /-- bank maps of the programs that have one, in order -/
  banks : List (List Nat)
  bundles : List (List Byte)
  deriving DecidableEq, Repr

/-- `n` rounded up to a multiple of 8. -/
def pad8 (n : Nat) : Nat := (n + 7) / 8 * 8

/-- Reads the body of a TILE record of tile `t`: only an M-tile's has bank maps. -/
def tileSched (t : Nat) (b : List Byte) : TileSched :=
  let np := num b 2 2
  let nl := num b 4 2
  let ni := num b 6 2
  let nb := num b 8 2
  let progs := (chunks 8 np (subBytes b 16 (8 * np))).map fun e =>
    (⟨num e 0 2, num e 2 2, num e 4 2, tileType t == .M && bit (num e 6 1) 0, bit (num e 6 1) 1⟩ : ProgEntry)
  let o1 := 16 + 8 * np
  let lines := (chunks 8 nl (subBytes b o1 (8 * nl))).map fun e => (⟨num e 0 2, num e 2 2, num e 4 2, num e 6 1⟩ : MapEntry)
  let o2 := o1 + 8 * nl
  let o3 := o2 + pad8 ni
  let nm := (progs.filter fun p => p.hasBanks).length
  let o4 := o3 + 8 * nm
  { cadence := num b 0 1, progs := progs, lines := lines, indices := (subBytes b o2 ni).map BitVec.toNat
    banks := (chunks 8 nm (subBytes b o3 (8 * nm))).map fun e => (List.range 32).map fun i => num e 0 8 / 4 ^ i % 4
    bundles := chunks 16 nb (subBytes b o4 (16 * nb)) }

/-- The program index that the line map gives line `l` (R127): the range's cycle restarts at its first line. -/
def TileSched.progAt (t : TileSched) (l : Nat) : Option Nat :=
  match t.lines.find? fun e => decide (e.firstLine ≤ l ∧ l ≤ e.lastLine) with
  | some e => t.indices[e.start + (l - e.firstLine) % e.count]?
  | none => none

/-- The window program of index `i`: the first bundle, and what the tile keeps of it. -/
def TileSched.prog (t : TileSched) (i : Nat) : Option (Nat × WinProg) :=
  t.progs[i]?.map fun p =>
    let k := ((t.progs.take i).filter fun q => q.hasBanks).length
    (p.first, { liveEnd := p.liveEnd, length := p.length, slack := p.slack, banks := if p.hasBanks then t.banks.getD k [] else [] })

/-- The schedule of a tile in the plan in force, with its fragment. -/
def Die.sched (x : Die) (t : Nat) : Option (Nat × TileSched) := (x.recOf 2 0x201 t).map fun e => (e.1.frag, tileSched t e.2.body)
/-- The fragment that owns a tile; 0 if none (R146). -/
def Die.tileFrag (x : Die) (t : Nat) : Nat := ((x.recOf 2 0x201 t).map fun e => e.1.frag).getD 0
/-- The cadence of the partition that holds a tile (R123). -/
def Die.tileCad (x : Die) (t : Nat) : Option Nat := (x.recOf 2 0x201 t).map fun e => num e.2.body 0 1

end Sys2Proof.Machine
end

