-- ==== Sys2Proof/Machine/Shared.lean ====
section
/-! DEFINITION. What several blocks share beside the register space: perturbations in force (R594), and how a fault in a tile
reaches the slices of the fragment that owns it (R217). -/

namespace Sys2Proof.Machine

/-! ### Perturbations (R593 to R595) -/

/-- The AMOUNTs of the active perturbations of a class on a target and sub-item. -/
def Die.pertAmounts (x : Die) (cls target sub : Nat) : List Nat :=
  ((List.range 16).filter fun u => x.flag R.ST_PERT_CTRL_ACTIVE u && x.fld R.ST_PERT_CTRL_CLASS u == cls
    && x.fld R.ST_PERT_TARGET_TARGET u == target && x.fld R.ST_PERT_TARGET_SUB u == sub).map fun u => x.fld R.ST_PERT_AMOUNT u
/-- A perturbation of a class acts on a target and sub-item: a hold or drop covers another (R595). -/
def Die.pertOn (x : Die) (cls target sub : Nat) : Bool := !(x.pertAmounts cls target sub).isEmpty
/-- The sum of the amounts of every active perturbation of a class on a target and sub-item: delays add (R595). -/
def Die.pertSum (x : Die) (cls target sub : Nat) : Nat := (x.pertAmounts cls target sub).foldl (· + ·) 0

/-- What an access meets: the error that is there, or the one that ECC_INJECT puts in at the next access of its activation
(R594, class 5); the unit's injection is then spent. -/
def Die.eccOf (x : Die) (target sub : Nat) (e : Ecc) : Ecc × Die :=
  match x.st.inject.find? fun u => x.flag R.ST_PERT_CTRL_ACTIVE u && x.fld R.ST_PERT_CTRL_CLASS u == 5
      && x.fld R.ST_PERT_TARGET_TARGET u == target && x.fld R.ST_PERT_TARGET_SUB u == sub with
  | some u => (if x.fld R.ST_PERT_AMOUNT u = 2 then .uncorrected else if e = .uncorrected then e else .corrected,
      { x with st := { x.st with inject := x.st.inject.filter fun v => v != u } })
  | none => (e, x)

/-! ### Service requests (R591) -/

/-- A service request on an item aborts an online test of it: the item's state is restored and the slice is counted. -/
def State.serve (s : State) (d : DieId) (k : ItemKind) (i : Nat) : State :=
  let hit (e : Item × Nat) : Bool := e.1.kind == k && e.1.inst == i
  if (s.die d).st.slices.any hit then
    let s := s.upd d fun x =>
      let x := { x with st := { x.st with slices := x.st.slices.filter fun e => !hit e } }
      (x.setFld R.ST_STATUS_SLICE_RUNNING (b2n (!x.st.slices.isEmpty))).count R.ST_ABANDONED
    s.event d R.ST_EVENTS_ABANDONED 0 i
  else s

/-! ### Temperature (R660 to R664) -/

/-- Temperature sensor `i` of a die. -/
def Die.sensor (x : Die) (i : Nat) : TempSensor := mget (fun _ => {}) x.heat.sensors i
/-- Temperature sensor `i` rewritten. -/
def Die.modSensor (x : Die) (i : Nat) (f : TempSensor → TempSensor) : Die :=
  { x with heat := { x.heat with sensors := mmod (fun _ => {}) x.heat.sensors i f } }
/-- An accepted sample that counts: consecutive samples above 115 degrees (R662), and the hottest of the second, in which the
supervisor sensor takes no part (R664). -/
def Die.heatSeen (x : Die) (i : Nat) (v : Int) : Die :=
  let x := x.modSensor i fun t => { t with above := if 1840 < v then t.above + 1 else 0 }
  if i = 8 then x else { x with heat := { x.heat with hottest := some (match x.heat.hottest with | some h => max h v | none => v) } }

/-! ### Tiles -/

/-- Tile `i` of a die. -/
def Die.tile (x : Die) (i : Nat) : Tile := mget (fun _ => {}) x.tiles i
/-- Tile `i` replaced. -/
def Die.setTile (x : Die) (i : Nat) (t : Tile) : Die := { x with tiles := mput (fun _ => {}) x.tiles i t }

/-- The index 32m + row of an M-tile, m being the index of its column in the order 0, 12, 24, 36, 47 (R483). -/
def mIndex (i : Nat) : Nat := (if i % 48 = 47 then 4 else i % 48 / 12) * 32 + i / 48
/-- The tile of an M-tile index. -/
def mTile (m : Nat) : Nat := m % 32 * 48 + (if m / 32 = 4 then 47 else m / 32 * 12)

/-! ### Faults that hit the rows of a fragment (R217) -/

/-- Encode channel `n` of a die. -/
def Die.enc' (x : Die) (n : Nat) : EncChan := mget (fun _ => {}) x.enc.chans n
/-- Encode channel `n` rewritten. -/
def Die.modEnc (x : Die) (n : Nat) (f : EncChan → EncChan) : Die :=
  { x with enc := { x.enc with chans := mmod (fun _ => {}) x.enc.chans n f } }

/-- Line of the frame at which a field's picture starts (R45). -/
def fieldStart (l field : Nat) : Nat := if field = 0 then 0 else l / 2 + 1
/-- The running encode channels on a cadence. -/
def Die.encOn (x : Die) (c : Nat) : List Nat :=
  (x.listed R.EN_STATUS_RUNNING 256).filter fun n => x.flag R.EN_STATUS_RUNNING n && x.fld R.EN_TIMING_CADENCE n == c

/-- A row in a stage keeps the lowest cause that hits it (R217, R220). -/
def EncRow.hit (cause : Nat) (r : EncRow) : EncRow :=
  { r with fault := if r.fault = 0 then cause else min r.fault cause }

/-- A fault hits every row in a stage of the encode channels of a fragment (R217). -/
def Die.hitFragment (x : Die) (frag cause : Nat) : Die :=
  if frag = 0 then x
  else { x with enc := { x.enc with chans := x.enc.chans.map fun e =>
    if e.2.frag = frag then (e.1, { e.2 with pics := e.2.pics.map fun p => { p with rows := p.rows.map (EncRow.hit cause) } }) else e } }

/-- VT_LAST_FAULT for a tile (R146). -/
def Die.lastFault (x : Die) (t kind : Nat) : Die :=
  (((x.setFld R.VT_LAST_FAULT_COLUMN (t % 48)).setFld R.VT_LAST_FAULT_ROW (t / 48)).setFld R.VT_LAST_FAULT_KIND kind).setFld
    R.VT_LAST_FAULT_FRAGMENT (x.tileFrag t)

end Sys2Proof.Machine
end

