-- ==== Sys2Proof/Machine/Member.lean ====
section
/-! DEFINITION. Members of alignment groups (R334 to R336, R364, R448, R449): which positions are complete, which is missing
first, and which frames count towards rejoining. -/

namespace Sys2Proof.Machine

/-- Adds positions `a` up to `b` to ranges of complete positions, joining what meets; ranges far back are forgotten. -/
def runsAdd (a b : Int) (l : List (Int × Int)) : List (Int × Int) :=
  let hit (r : Int × Int) : Bool := decide (r.1 ≤ b ∧ a ≤ r.2)
  (((l.filter hit).map Prod.fst).foldl min a, ((l.filter hit).map Prod.snd).foldl max b) :: (l.filter fun r => !hit r).take 7

/-- The end of the complete positions that start at `k`. -/
def runsFrom (l : List (Int × Int)) (k : Int) : Int := ((l.find? fun r => decide (r.1 ≤ k ∧ k < r.2)).map Prod.snd).getD k
/-- Every position from `a` up to `b` is complete. -/
def runsCover (l : List (Int × Int)) (a b : Int) : Bool := decide (b ≤ a) || decide (b ≤ runsFrom l a)

/-! ### The lines of a frame that carry a picture (R45, R266) -/

/-- Where a picture stands in a frame of `l` lines: its `h` lines from line 0 on, or in two fields of half of them each, of which the
first starts at line 0 and the second where R45 places it. -/
structure Raster where
  l : Nat
  h : Nat
  fields : Bool
  deriving DecidableEq, Repr

/-- Lines of a field, or of a picture that is not in fields. -/
def Raster.half (r : Raster) : Nat := if r.fields then r.h / 2 else r.h
/-- The field and the line in it that line `o` of the frame carries. -/
def Raster.at_ (r : Raster) (o : Nat) : Option (Nat × Nat) :=
  let s := fieldStart r.l 1
  if o < r.half then some (0, o)
  else if r.fields ∧ s ≤ o ∧ o < s + r.half then some (1, o - s) else none
/-- The line of the picture, both fields woven (R297), that line `o` of the frame carries. -/
def Raster.line (r : Raster) (o : Nat) : Option Nat := (r.at_ o).map fun e => if r.fields then 2 * e.2 + e.1 else e.2
/-- The line of the frame that carries line `y` of the woven picture. -/
def Raster.place (r : Raster) (y : Nat) : Nat := if r.fields then fieldStart r.l (y % 2) + y / 2 else y
/-- The line of the frame after the last that carries the picture. -/
def Raster.stop (r : Raster) : Nat := if r.fields then fieldStart r.l 1 + r.half else r.half

/-- The first position from `k` on that is expected (R335). -/
def Raster.from_ (r : Raster) (k : Int) : Int :=
  let o := (k % r.l).toNat
  if (r.at_ o).isSome then k
  else if r.fields ∧ o < fieldStart r.l 1 then k / r.l * r.l + fieldStart r.l 1
  else (k / r.l + 1) * r.l
/-- Active lines of a frame before its line `o`. -/
def Raster.before (r : Raster) (o : Nat) : Nat := min o r.half + (if r.fields then min (o - fieldStart r.l 1) r.half else 0)
/-- Active lines from `a` up to `b`. -/
def Raster.count (r : Raster) (a b : Int) : Nat :=
  if b ≤ a then 0
  else ((b / r.l - a / r.l) * (if r.fields then 2 * r.half else r.half : Nat) + (r.before (b % r.l).toNat - r.before (a % r.l).toNat : Int)).toNat

/-- The first expected line from `k` on that is not complete. -/
def firstMissing (r : Raster) (runs : List (Int × Int)) : Nat → Int → Int
  | 0, k => r.from_ k
  | n + 1, k =>
    let k := r.from_ k
    let e := runsFrom runs k
    if e ≤ k then k else firstMissing r runs n e
/-- Every active line of the frame that starts at `a` is complete, in as far as it lies before `b`. -/
def Raster.whole (r : Raster) (runs : List (Int × Int)) (a b : Int) : Bool :=
  runsCover runs a (min (a + r.half) b) && (!r.fields || runsCover runs (a + fieldStart r.l 1) (min (a + fieldStart r.l 1 + r.half) b))

/-- Lines `a` up to `b` of a member are complete: what is missing first moves on. -/
def Member.add (v : Member) (r : Raster) (a b : Int) : Member :=
  let runs := runsAdd a b v.runs
  { v with runs := runs, next := v.next.map fun n => firstMissing r runs 8 n }

/-- A frame boundary of a concealed member's cadence judges the frame that has ended, in as far as its positions' deadlines have
passed: `ok` says that it was complete. Two complete frames in a row rejoin (R336). -/
def Member.judge (v : Member) (ok : Bool) : Member × Bool :=
  let good := if ok then v.good + 1 else 0
  if 2 ≤ good then ({ v with good := 0, fault := false }, true) else ({ v with good := good, fault := false }, false)

end Sys2Proof.Machine
end

