-- ==== Sys2Proof/Machine/MsgForm.lean ====
section
/-! DEFINITION. The form of a Silcel datagram: its length and header (R410, R428 steps 1 and 2). -/

namespace Sys2Proof

/-- FLAGS [7] RESPONSE. -/
def Msg.response (m : Msg) : Bool := m.flags.getLsbD 7
/-- FLAGS [6] TAG. -/
def Msg.tagged (m : Msg) : Bool := m.flags.getLsbD 6
/-- FLAGS [5] POST. -/
def Msg.post (m : Msg) : Bool := m.flags.getLsbD 5

/-- Step 1: the datagram is 32 + LENGTH bytes long, plus 16 with a tag, and LENGTH is at most 8,192 (R410). -/
def Msg.lengthOk (m : Msg) : Bool :=
  m.payload.length == m.length.toNat && decide (m.length.toNat ≤ 8192) && m.tag.length == (if m.tagged then 16 else 0)

/-- Step 2: VERSION 1, RESPONSE and POST 0, reserved fields 0, DIE 0 or 1, KEY 0 to 3, LIFETIME 1 to 1,000; STATUS and
DETAIL are 0 in a request (R410). -/
def Msg.headerOk (m : Msg) : Bool :=
  m.version == 1 && !m.response && !m.post && m.flags &&& 0x1F#8 == 0 && decide (m.die.toNat ≤ 1) && decide (m.key.toNat ≤ 3)
    && decide (1 ≤ m.lifetime.toNat ∧ m.lifetime.toNat ≤ 1000) && decide (m.deadlineNs.toNat < 2 ^ 30) && m.status == 0
    && m.detail == 0 && m.reserved == 0

end Sys2Proof
end

