-- ==== Sys2Proof/WellFormed.lean ====
section
/-! DEFINITION. Which commands the device can meet. A tile bundle is refused at admission when a field lies outside the range
its instruction states or a type-specific opcode stands on another type of tile (R151); a control core's ALU word has PRED 0
(R182); and a Silcel row of the opcode table is the arrival of a message with that row's opcode (R412). -/

namespace Sys2Proof

open Sys2Proof.Machine (TileType tileType rateOf)

/-- The tile has the type whose hardware the opcode needs. -/
def onType (k : TileType) (t : Fin 1536) : Bool := tileType t.val == k

/-- PRED must be 0 on a control core (R182). -/
def aluForm (e : Exec) (p : Fin 4) : Bool :=
  match e with
  | .tile _ _ => true
  | .core _ _ => p.val == 0

/-- Shift counts: 0 to 7 on a tile, 0 to 31 on a control core (R158, R182). -/
def shiftForm (e : Exec) (imm : Byte) : Bool :=
  match e with
  | .tile _ _ => decide (imm.toNat ≤ 7)
  | .core _ _ => decide (imm.toNat ≤ 31)

/-- A predicate that can be written (R158). -/
def predDest (vd : Fin 32) : Bool := decide (1 ≤ vd.val ∧ vd.val ≤ 3)

/-- A compare writes p1 to p3 on a tile and an s register on a core. -/
def cmpForm (e : Exec) (vd : Fin 32) (p : Fin 4) : Bool :=
  match e with
  | .tile _ _ => predDest vd
  | .core _ _ => p.val == 0

/-- The generic ALU opcodes of the scalar subset (R158, "Core"). -/
def coreOpcode (c : Nat) : Bool :=
  c ≤ 6 || (0x0B ≤ c && c ≤ 0x14) || (0x17 ≤ c && c ≤ 0x1A) || (0x1D ≤ c && c ≤ 0x21) || c == 0x25 || c == 0x26

/-- A core word that raises the illegal-instruction trap: an ALU word with an opcode outside the scalar subset, or CTL opcode
0x36 to 0x3F (R182, R183); or a TRAP whose IMM names no kernel call, which stops the caller too (R523). -/
def illegalWord (w : W32) : Bool :=
  if w.toNat < 2 ^ 31 then !coreOpcode (w.toNat / 2 ^ 25)
  else decide (0x36 ≤ w.toNat / 2 ^ 26) ||
    (w.toNat / 2 ^ 26 == 0x35 && !(decide (1 ≤ w.toNat % 2 ^ 16) && decide (w.toNat % 2 ^ 16 ≤ 5)))

/-- The message carries the opcode. -/
def request (op : Nat) (m : Msg) : Bool := m.opcode.toNat == op

/-- A RESET message of a kind (R622). -/
def resetKind (k : Nat) (m : Msg) : Bool := m.opcode.toNat == 0x60 && (m.payload.headD 0).toNat == k

/-- The opcodes of R412 that a host may send, RESET apart. -/
def listedOpcodes : List Nat := [0x01, 0x02, 0x10, 0x11, 0x12, 0x20, 0x21, 0x22, 0x30, 0x31]

/-- A datagram with a wrong length or header, or one that no other row of the opcode table covers: an opcode not listed,
EVENT, or a RESET of another kind. -/
def otherDatagram (m : Msg) : Bool :=
  !m.lengthOk || !m.headerOk || (!listedOpcodes.contains m.opcode.toNat &&
    !(m.opcode.toNat == 0x60 && [0, 4, 5, 6, 7].contains (m.payload.headD 0).toNat))


/-- Total lines of the signals that REF_IN accepts: black burst of 525 and 625 lines, tri-level sync of 1,125 and 750 (R54). -/
def refLines (fmt : Nat) (line750 : Bool) : Nat := match fmt with
  | 1 => 525 | 2 => 625 | _ => if line750 then 750 else 1125
/-- What the device detects of a signal that it accepts, by its sync (tri-level, or else black burst), total lines and frames per
second: FORMAT, RATE and LINE750 of TB_REF_FORMAT. Black burst comes at its own rate, tri-level at any rate of R42 up to 60 (R54). -/
def refSignal (tri : Bool) (lines num den : Nat) : Option (Nat × Nat × Bool) :=
  match tri, lines, (List.range 11).find? fun r => rateOf r == some (num, den) with
  | false, 525, some 4 => some (1, 4, false)
  | false, 625, some 3 => some (2, 3, false)
  | true, 1125, some r => some (3, r, false)
  | true, 750, some r => some (3, r, true)
  | _, _, _ => none

/-- The command is one that the device can meet. -/
def Instr.wf : Instr → Bool
  | .linePulse _ _ => true
  | .slackRegionEnd _ _ => true
  | .deferredDeadline _ _ => true
  | .noInput _ _ => true
  | .commitApply _ _ => true
  | .recomputeDone _ _ _ => true
  | .rateChangeApply _ _ _ => true
  | .rwlApply _ _ => true
  | .memberUnderrun _ _ _ => true
  | .delayExpiry _ _ => true
  | .threadWaitTimeout _ _ => true
  | .threadStart _ _ => true
  | .spillLoadDone _ _ _ => true
  | .threadBudgetExhausted _ _ => true
  | .threadSwitchEnd _ _ => true
  | .refSyncSample _ tri lines num den line _ => (refSignal tri lines num den).isSome && decide (line < lines)
  | .referenceLoss d backup => !backup || decide (d ≠ 0)
  | .holdLimitExpiry d backup => !backup || decide (d ≠ 0)
  | .stepApply _ => true
  | .die0TimingLost => true
  | .compareFire _ _ => true
  | .cmpWrite _ _ _ _ _ => true
  | .tbSnap _ _ => true
  | .stepGo _ _ => true
  | .admitPlan _ _ => true
  | .admissionDone _ => true
  | .switch _ _ => true
  | .cancel _ _ => true
  | .library _ _ => true
  | .libraryCheckDone _ => true
  | .planSwitch _ _ => true
  | .brownoutApply _ _ => true
  | .brownoutRemove _ _ => true
  | .nop _ _ => true
  | .add e _ _ _ p => aluForm e p
  | .adc e _ _ _ p => aluForm e p
  | .sub e _ _ _ p => aluForm e p
  | .sbb e _ _ _ p => aluForm e p
  | .addi e _ _ _ p => aluForm e p
  | .subi e _ _ _ p => aluForm e p
  | .addus _ _ _ _ _ _ => true
  | .subus _ _ _ _ _ _ => true
  | .addss _ _ _ _ _ _ => true
  | .subss _ _ _ _ _ _ => true
  | .and e _ _ _ p => aluForm e p
  | .or e _ _ _ p => aluForm e p
  | .xor e _ _ _ p => aluForm e p
  | .andi e _ _ _ p => aluForm e p
  | .ori e _ _ _ p => aluForm e p
  | .xori e _ _ _ p => aluForm e p
  | .andn e _ _ _ p => aluForm e p
  | .shli e _ _ imm p => aluForm e p && shiftForm e imm
  | .shri e _ _ imm p => aluForm e p && shiftForm e imm
  | .sari e _ _ imm p => aluForm e p && shiftForm e imm
  | .fshr _ _ _ _ _ imm _ => decide (imm.toNat ≤ 8)
  | .fshl _ _ _ _ _ imm _ => decide (imm.toNat ≤ 8)
  | .minu e _ _ _ p => aluForm e p
  | .maxu e _ _ _ p => aluForm e p
  | .mins e _ _ _ p => aluForm e p
  | .maxs e _ _ _ p => aluForm e p
  | .avgu _ _ _ _ _ _ => true
  | .absd _ _ _ _ _ _ => true
  | .ceq e vd _ _ p => cmpForm e vd p
  | .cltu e vd _ _ p => cmpForm e vd p
  | .clts e vd _ _ p => cmpForm e vd p
  | .ceqi e vd _ _ p => cmpForm e vd p
  | .cltui e vd _ _ p => cmpForm e vd p
  | .ktop _ _ vd _ => predDest vd
  | .ptok _ _ va _ => decide (va.val ≤ 3)
  | .sel _ _ _ _ _ _ => true
  | .mov e _ _ p => aluForm e p
  | .movi e _ _ p => aluForm e p
  | .shuf _ _ _ _ _ _ => true
  | .bcast _ _ _ _ _ _ => true
  | .rup2 _ _ _ _ imm _ => decide (imm.toNat ≤ 3)
  | .rup4 _ _ _ _ imm _ => decide (imm.toNat ≤ 1)
  | .rpk2 _ _ _ _ imm _ => decide (imm.toNat ≤ 3)
  | .rpk4 _ _ _ _ imm _ => decide (imm.toNat ≤ 1)
  | .joinl _ _ _ _ _ imm _ => imm == 2 || imm == 4
  | .joinh _ _ _ _ imm _ => imm == 2 || imm == 4
  | .sad _ t vd _ _ _ => onType .S t && decide (vd.val ≤ 15)
  | .sadz _ t vd _ _ _ => onType .S t && decide (vd.val ≤ 15)
  | .satd4 _ t vd _ _ => onType .S t && decide (vd.val ≤ 15)
  | .satd8 _ t vd va vb => onType .S t && decide (vd.val ≤ 15 ∧ va.val ≤ 30 ∧ vb.val ≤ 30)
  | .best3 _ t va _ => onType .S t && decide (va.val ≤ 15)
  | .dadd _ t vd _ _ => onType .S t && decide (vd.val ≤ 15)
  | .drdS _ t _ imm _ => onType .S t && decide (imm.toNat ≤ 2)
  | .brd _ t _ imm _ => onType .S t && decide (imm.toNat ≤ 2)
  | .dclr _ t => onType .S t
  | .mulu _ t vd _ _ imm _ => onType .T t && decide (vd.val ≤ 1 ∧ imm.toNat ≤ 3)
  | .macu _ t vd _ _ imm _ => onType .T t && decide (vd.val ≤ 1 ∧ imm.toNat ≤ 3)
  | .macs _ t vd _ _ imm _ => onType .T t && decide (vd.val ≤ 1 ∧ imm.toNat ≤ 3)
  | .macsu _ t vd _ _ imm _ => onType .T t && decide (vd.val ≤ 1 ∧ imm.toNat ≤ 3)
  | .macbs _ t vd _ _ imm _ => onType .T t && decide (vd.val ≤ 1 ∧ imm.toNat ≤ 31)
  | .mext _ t _ va _ _ => onType .T t && decide (va.val ≤ 1)
  | .mld _ t vd _ _ _ => onType .T t && decide (vd.val ≤ 1)
  | .mclr _ t vd _ => onType .T t && decide (vd.val ≤ 2)
  | .madd _ t _ => onType .T t
  | .binc _ t _ _ imm => onType .E t && decide (imm.toNat ≤ 31)
  | .binb _ t _ imm => onType .E t && decide (imm.toNat ≤ 31)
  | .bint _ t _ => onType .E t
  | .cinit _ t _ _ imm => onType .E t && decide (imm.toNat ≤ 31)
  | .cbase _ t _ _ => onType .E t
  | .csnap _ t => onType .E t
  | .crest _ t => onType .E t
  | .cstart _ t imm => onType .E t && decide (imm.toNat ≤ 1)
  | .cflush _ t imm => onType .E t && decide (imm.toNat ≤ 1)
  | .flvl _ t _ _ => onType .E t
  | .putb _ t _ imm => onType .E t && (imm &&& 0x78#8) == 0
  | .rnop _ _ => true
  | .rt _ _ srca _ srcb _ _ rin _ => decide (srca.val ≤ 5 ∧ srcb.val ≤ 5 ∧ rin.val ≤ 4)
  | .mnop _ _ => true
  | .ld _ _ _ _ _ _ _ => true
  | .st _ _ _ _ _ _ => true
  | .ldu _ _ _ _ _ _ _ => true
  | .stu _ _ _ _ _ _ => true
  | .stp _ _ _ _ _ _ _ => true
  | .ldb _ _ _ _ _ _ _ => true
  | .aset _ _ _ _ _ => true
  | .aadd _ _ _ _ => true
  | .aldv _ _ _ _ _ => true
  | .stbf _ t _ _ => onType .E t
  | .drd _ t _ _ _ _ => onType .M t
  | .dwr _ t _ _ _ _ _ => onType .M t
  | .qldv _ t _ _ _ => onType .M t
  | .qadd _ t _ _ => onType .M t
  | .dramReadComplete _ _ _ _ => true
  | .dramWriteDrain _ _ => true
  | .cnop _ _ => true
  | .loop _ _ len count => decide (1 ≤ len.val) && decide (1 ≤ count.toNat)
  | .dloop _ _ len _ bound => decide (1 ≤ len.val ∧ 1 ≤ bound.val)
  | .ifp _ _ p n => decide (1 ≤ p.val ∧ 1 ≤ n.val)
  | .endProg _ _ => true
  | .waitf _ _ _ => true
  | .waitfResume _ _ => true
  | .setf _ _ _ => true
  | .clrf _ _ _ => true
  | .kick _ _ _ => true
  | .post _ _ _ => true
  | .pos _ _ _ => true
  | .ldw _ _ _ _ _ _ => true
  | .ldhu _ _ _ _ _ _ => true
  | .ldbu _ _ _ _ _ _ => true
  | .stw _ _ _ _ _ _ => true
  | .sth _ _ _ _ _ _ => true
  | .stb _ _ _ _ _ _ => true
  | .lui _ _ _ _ => true
  | .addiw _ _ _ _ _ => true
  | .beq _ _ _ _ _ => true
  | .bne _ _ _ _ _ => true
  | .bltu _ _ _ _ _ => true
  | .blt _ _ _ _ _ => true
  | .jal _ _ _ _ => true
  | .jalr _ _ _ _ _ => true
  | .mul _ _ _ _ _ => true
  | .mulhu _ _ _ _ _ => true
  | .divu _ _ _ _ _ => true
  | .remu _ _ _ _ _ => true
  | .clean _ _ _ _ => true
  | .inval _ _ _ _ => true
  | .sync _ _ => true
  | .syncDone _ _ => true
  | .illegalInstruction _ _ w => illegalWord w
  | .kernelEnd _ _ => true
  | .yield _ _ => true
  | .delay _ _ => true
  | .kernelWait _ _ => true
  | .kernelPost _ _ => true
  | .paRelease _ _ _ => true
  | .paRestart _ _ _ => true
  | .move _ _ _ _ => true
  | .dmaLoop _ _ _ => true
  | .waitLine _ _ _ => true
  | .waitPace _ _ _ => true
  | .waitFill _ _ _ => true
  | .waitStart _ _ _ => true
  | .dmaWaitDone _ _ => true
  | .dmaWaitTimeout _ _ => true
  | .signal _ _ _ => true
  | .dmaAccessDone _ _ _ => true
  | .dmaTimeout _ _ => true
  | .dmaStart _ _ _ => true
  | .dmaRestart _ _ _ => true
  | .forceRap _ _ _ _ => true
  | .rateWrite _ _ _ _ _ => true
  | .scte104Message _ _ _ _ _ _ _ => true
  | .commit _ _ _ _ => true
  | .cableChange _ _ _ _ => true
  | .unlock _ _ _ => true
  | .acquire _ _ _ _ => true
  | .lock _ _ _ => true
  | .acquireTimeout _ _ _ => true
  | .readapt _ _ _ _ => true
  | .lnPwrWrite _ _ _ _ => true
  | .wakeDone _ _ _ _ => true
  | .sdiLine _ _ _ _ => true
  | .nativeFrame _ _ _ control payload _ _ _ => decide (2080 ≤ control.length + payload.length ∧ control.length + payload.length ≤ 2171)
  | .linkControlFrame _ _ _ => true
  | .xptWrite _ _ _ _ => true
  | .xptApplied _ _ _ => true
  | .pllUnlock _ _ _ _ => true
  | .subportUp _ _ _ _ => true
  | .subportDown _ _ _ => true
  | .rxFrame _ _ _ _ _ _ _ _ => true
  | .pathDown _ _ _ => true
  | .announceTimeout _ => true
  | .delayReq _ => true
  | .membershipReport _ _ _ => true
  | .egressSelect _ _ _ => true
  | .shaperRateWrite _ _ _ _ => true
  | .gateSelect _ _ _ _ => true
  | .gateListStart _ _ => true
  | .gateEntry _ _ => true
  | .ping _ _ _ m => request 0x01 m
  | .hello _ _ _ m => request 0x02 m
  | .read _ _ _ m => request 0x10 m
  | .write _ _ _ m => request 0x11 m
  | .modify _ _ _ m => request 0x12 m
  | .imageOpen _ _ _ m => request 0x20 m
  | .imageData _ _ _ m => request 0x21 m
  | .imageClose _ _ _ m => request 0x22 m
  | .flashWriteDone _ => true
  | .transferAbandon _ => true
  | .subscribe _ _ _ m => request 0x30 m
  | .unsubscribe _ _ _ m => request 0x31 m
  | .subscriptionExpiry _ => true
  | .event _ => true
  | .resetPowerOn _ _ _ m => resetKind 0 m
  | .resetHostFull _ _ _ m => resetKind 4 m
  | .resetDie _ _ _ m => resetKind 5 m
  | .resetPlan _ _ _ m => resetKind 6 m
  | .resetLane _ _ _ m => resetKind 7 m
  | .relayReply _ => true
  | .requestExpired _ => true
  | .quarantineEnd _ => true
  | .clockLoss _ _ _ => true
  | .clockBack _ _ => true
  | .audioUnderrun _ _ _ => true
  | .asrcLock _ _ => true
  | .dramTempSample _ _ _ _ => true
  | .refreshInterval _ _ => true
  | .reserveRun _ _ _ => true
  | .rotationSlot _ _ => true
  | .timingRecord _ _ _ => true
  | .checkRecord _ _ _ => true
  | .controlRecord _ _ _ => true
  | .planRecord _ _ _ => true
  | .idleRecord _ _ _ => true
  | .controlResend _ => true
  | .unchecked _ => true
  | .linkTrained _ _ _ => true
  | .mrLinkDown _ _ => true
  | .renew _ _ _ => true
  | .ack _ _ _ => true
  | .handoverItem _ _ _ => true
  | .heartbeat _ _ _ => true
  | .heartbeatSend _ => true
  | .wheyLost _ => true
  | .leaseExpiry _ _ => true
  | .pailTake _ _ => true
  | .handover _ _ _ => true
  | .handoverLine _ _ => true
  | .seize _ _ _ => true
  | .resyncStart _ _ => true
  | .bootRom _ _ _ _ => true
  | .bistDone _ _ _ _ _ => true
  | .dramTrained _ _ _ => true
  | .keyAdd => true
  | .keyRevoke => true
  | .macInstall => true
  | .macRevoke => true
  | .test => true
  | .hbClear => true
  | .burnDone _ _ => true
  | .quote _ _ => true
  | .quoteDone _ _ => true
  | .commitFw _ _ => true
  | .commitPlan _ _ => true
  | .testEnd _ _ => true
  | .testExpiry => true
  | .hbClearExpiry => true
  | .swap _ _ => true
  | .swapDone _ => true
  | .fuseRepair _ _ => true
  | .onlineSliceStart _ _ _ _ => true
  | .onlineSliceDone _ _ _ _ => true
  | .pertArm _ _ _ _ => true
  | .pertStart _ _ => true
  | .pertEnd _ _ => true
  | .hbRecordProgrammed _ _ => true
  | .hbSnap _ => true
  | .clear _ => true
  | .lifeFuse => true
  | .supplyWarn _ _ => true
  | .supplyOk _ _ => true
  | .ovWarn _ _ => true
  | .ovOk _ _ => true
  | .overvoltShutdown _ => true
  | .brownOut _ _ => true
  | .powerOn _ => true
  | .pinReset _ => true
  | .resetRelease _ => true
  | .regLimit _ _ _ _ => true
  | .regulatorReset _ => true
  | .vinSample _ _ _ _ => true
  | .warnCfgWrite _ _ _ => true
  | .watchdogKick _ _ => true
  | .watchdogExpiry _ => true
  | .dieRestart _ _ => true
  | .pwSnap _ _ => true
  | .stateIdle _ _ => true
  | .stateStandby _ _ => true
  | .stateDry _ _ => true
  | .wake _ => true
  | .stateChangeDone _ => true
  | .keyChange => true
  | .encoderEvent => true
  | .touchChange => true
  | .touchStuck => true
  | .moduleChange => true
  | .evqPop => true
  | .dutyApply _ _ => true
  | .tjSample _ _ _ _ => true
  | .thermalShutdown _ _ => true
  | .thermalRestart _ => true
  | .ageTick _ _ => true
  | .samplePeriod _ _ _ _ _ _ => true
  | .panelScan _ _ _ _ => true
  | .encoderSample _ _ _ _ => true
  | .sectorErased _ => true
  | .token _ _ => true
  | .datagramRefused _ _ _ m => otherDatagram m
  | .packetPosition _ _ => true
  | .nativeTxFrame _ _ _ => true
  | .streamSlot _ _ _ _ _ => true
  | .pllLock _ _ _ _ => true
  | .powerOver _ _ _ _ => true

end Sys2Proof
end

