-- ==== Sys2Proof/Machine/Audio.lean ====
section
/-! DEFINITION. Audio (14_audio.md): the sample grid, serial ports, groups with their underrun and rejoining, converters and
channel maps. -/

namespace Sys2Proof.Machine

/-! ### The grid (R440, R441) -/

/-- Hz of a port's RATE code (R458). -/
def auHz : Nat → Nat
  | 1 => 32000 | 2 => 44100 | 3 => 48000 | 4 => 96000 | 5 => 192000 | _ => 0
/-- The grid rate of an audio group. -/
def Die.auFs (x : Die) (g : Nat) : Nat := if x.flag R.AU_GRP_CFG_RATE96 g then 96000 else 48000
/-- The grid position at station time `t`. -/
def auAt (fs t : Nat) : Int := ((t * fs / second : Nat) : Int)
/-- The first grid position that is not before station time `t`: a frame holds the samples from its boundary's on (R440). -/
def auFrom (fs t : Nat) : Int := ((cdiv (t * fs) second : Nat) : Int)
/-- Station time of a grid position. -/
def auTime (fs : Nat) (k : Int) : Nat := k.toNat * second / fs

/-- The memory word of a sample (R441). -/
def auWord (sample : Nat) (concealed : Bool) : W32 := BitVec.ofNat 32 (sample % 2 ^ 24 * 256 + b2n concealed)
/-- SAMPLE of a word. -/
def auSample (w : W32) : Nat := w.toNat / 256
/-- A word with another SAMPLE. -/
def auPut (w : W32) (sample : Nat) : W32 := BitVec.ofNat 32 (sample % 2 ^ 24 * 256 + w.toNat % 256)
/-- Rounds a 24-bit sample to `n` bits: to nearest, ties upward, saturating (R441). -/
def auRound (n sample : Nat) : Nat :=
  let v := (sgn 24 sample + (if n < 24 then 2 ^ (23 - n) else 0)) / 2 ^ (24 - n)
  unsgn n (min v (2 ^ (n - 1) - 1))
/-- A sample at step `n` of a linear ramp over 64 grid samples from 0 to full level (R449, R455). -/
def auLevel (n : Int) (sample : Nat) : Nat :=
  if n ≤ 0 then 0 else if 64 ≤ n then sample else Config.audioRamp n.toNat sample % 2 ^ 24

/-! ### Members and channels (R448, R454) -/

/-- A member of an audio group as the plan names it. -/
structure AuRef where
  g : Nat
  m : Nat
  kind : Nat
  group : Nat
  inst : Nat
  chans : Nat
  deriving DecidableEq, Repr

/-- Bits of a mask that are set. -/
def popCount (n w : Nat) : Nat := ((List.range w).filter fun i => bit n i).length

/-- The FORMAT bytes of a receive flow's record, or of a send flow's. -/
def Die.rxFormat (x : Die) (f : Nat) : List Byte := ((x.bodyOf 6 0x602 f).map fun b => subBytes b 12 8).getD []
def Die.txFormat (x : Die) (f : Nat) : List Byte := ((x.bodyOf 6 0x603 f).map fun b => subBytes b 24 8).getD []

/-- The channels that a member delivers: the stored slots of a port, the four of an ST 299 group, those of a flow's format
(log entry 31). -/
def Die.auChans (x : Die) (kind inst : Nat) : Nat :=
  if kind = 0 then popCount (x.fld R.AU_P_RXMASK inst) 32 else if kind = 1 then 4 else num (x.rxFormat inst) 0 2

/-- The members of the plan in force, in plan order (R454). -/
def Die.auRefs (x : Die) : List AuRef :=
  (x.recsOf 9 0x901).flatMap fun e =>
    ((chunks 4 (num e.2.body 0 2) (subBytes e.2.body 8 (4 * num e.2.body 0 2))).zipIdx).map fun b =>
      { g := e.2.idx, m := b.2, kind := num b.1 0 1, group := num b.1 1 1, inst := num b.1 2 2
        chans := x.auChans (num b.1 0 1) (num b.1 2 2) }
/-- The member that a source is. -/
def Die.auMemberOf (x : Die) (kind group inst : Nat) : Option AuRef :=
  x.auRefs.find? fun r => r.kind == kind && r.inst == inst && (kind != 1 || r.group == group)
/-- The member and its channel that a channel number of the plan stands for. -/
def auChannel : List AuRef → Nat → Option (AuRef × Nat)
  | [], _ => none
  | r :: l, n => if n < r.chans then some (r, n) else auChannel l (n - r.chans)

def Die.auMember (x : Die) (g m : Nat) : AuMember := mget (fun _ => {}) x.au.members (16 * g + m)
def Die.modAu (x : Die) (g m : Nat) (f : AuMember → AuMember) : Die :=
  { x with au := { x.au with members := mmod (fun _ => {}) x.au.members (16 * g + m) f } }
def Die.auPort (x : Die) (p : Nat) : AuPort := mget (fun _ => {}) x.au.ports p
def Die.modAuPort (x : Die) (p : Nat) (f : AuPort → AuPort) : Die :=
  { x with au := { x.au with ports := mmod (fun _ => {}) x.au.ports p f } }

/-- A member is muted. -/
def Die.auBad (x : Die) (g m : Nat) : Bool := bit (x.fld R.AU_GRP_STATE_BAD g) m
/-- Sets or clears a bit of a field. -/
def Die.setBit (x : Die) (f : Fld) (i b : Nat) (v : Bool) : Die :=
  x.setFld f (x.fld f i - b2n (bit (x.fld f i) b) * 2 ^ b + b2n v * 2 ^ b) i
/-- SOURCE of a member's records: 16 x group + member (log entry 31). -/
def auSource (g m : Nat) : Nat := 16 * g + m

/-- The line in which grid position `k` of a group lies. -/
def Die.auLine (x : Die) (g : Nat) (k : Int) : Int := match x.grid (x.fld R.AU_GRP_CFG_CADENCE g) with
  | some gr => gr.lineAt (auTime (x.auFs g) k)
  | none => 0

/-- The first position from `k` on that is not complete. -/
def Member.nextSample (v : Member) : Member := { v with next := v.next.map fun n => runsFrom v.runs n }

/-- The member at a place of a group. -/
def Die.auRef (x : Die) (g m : Nat) : Option AuRef := x.auRefs.find? fun r => r.g == g && r.m == m
/-- Lines by which IN_DELAY makes a lane's or a flow's audio late (R594). -/
def Die.auLate (x : Die) (g m : Nat) : Nat := match x.auRef g m with
  | some r => if r.kind = 0 then 0 else x.pertSum 0 r.inst (b2n (r.kind != 1))
  | none => 0

/-- Grid position `k` of a member arrives with its words: it is complete if it is in staging inside the window (R448). -/
def Die.auDeliver (x : Die) (g m : Nat) (k : Int) (ws : List W32) : Die :=
  let w := x.fld R.AU_GRP_CFG_WINDOW g
  let now := x.lineNow (x.fld R.AU_GRP_CFG_CADENCE g) + x.auLate g m
  if now ≤ x.auLine g k + w ∧ x.auLine g k ≤ now + w then
    x.modAu g m fun v => { v with
      member := ({ v.member with runs := runsAdd k (k + 1) v.member.runs } : Member).nextSample
      words := ((k, ws) :: v.words).take 4096 }
  else x

/-! ### Converters (R444, R450) -/

/-- The port takes its clocks from the board. -/
def Die.auSlave (x : Die) (p : Nat) : Bool := x.fld R.AU_P_CFG_RATE p != 0 && !x.flag R.AU_P_CFG_MASTER p
/-- The rate of the group that a port belongs to by its receiver, or by the source of its transmitter. -/
def Die.auPortFs (x : Die) (p : Nat) : Nat :=
  match x.auMemberOf 0 0 p with
  | some r => x.auFs r.g
  | none =>
    match (x.listed R.AU_MAP_CFG_USED 4096).find? fun e => x.flag R.AU_MAP_CFG_USED e && x.fld R.AU_MAP_CFG_KIND e == 0 && x.fld R.AU_MAP_DEST_INSTANCE e == p with
    | some e => ((auChannel x.auRefs (x.fld R.AU_MAP_CFG_SOURCE e)).map fun c => x.auFs c.1.g).getD 48000
    | none => 48000
/-- The port's samples pass through its converter (R444). -/
def Die.auConverts (x : Die) (p : Nat) : Bool :=
  auHz (x.fld R.AU_P_CFG_RATE p) != x.auPortFs p || (x.auSlave p && !x.flag R.AU_P_CFG_SYNC p)

def Die.asrc (x : Die) (a : Nat) : Asrc := mget (fun _ => {}) x.au.asrcs a
def Die.modAsrc (x : Die) (a : Nat) (f : Asrc → Asrc) : Die :=
  { x with au := { x.au with asrcs := mmod (fun _ => {}) x.au.asrcs a f } }
/-- The converter tracks. -/
def Die.asrcTracks (x : Die) (a : Nat) : Bool := x.flag R.AU_ASRC_CFG_USED a && x.flag R.AU_ASRC_CFG_TRACKING a
/-- The member that a converter serves: its port's, or of the converters 16 to 31 the one that is bound to it (log entry 30). -/
def Die.asrcMember (x : Die) (a : Nat) : Option AuRef :=
  if a < 16 then x.auMemberOf 0 0 a
  else x.auRefs.find? fun r => r.kind != 0 && 16 * r.g + r.m == Config.converterMember a
/-- The converter through which a member's samples pass: a port's own, or for a member that the plan declares asynchronous one of the
converters 16 to 31 (R444, R450). -/
def Die.auConverter (x : Die) (r : AuRef) : Option Nat :=
  if r.kind = 0 then (if x.auConverts r.inst then some r.inst else none)
  else ((List.range 16).map fun a => 16 + a).find? fun a => x.flag R.AU_ASRC_CFG_USED a && x.asrcMember a == some r

/-! ### Underrun and rejoining (R448, R449) -/

/-- A member mutes at the next sample. -/
def State.auMute (s : State) (d : DieId) (r : AuRef) : State :=
  let x := s.die d
  if x.auBad r.g r.m then s
  else
    let from_ := auAt (x.auFs r.g) x.clk.now + 1
    let cad := x.fld R.AU_GRP_CFG_CADENCE r.g
    let s := s.upd d fun x => (((x.setBit R.AU_GRP_STATE_BAD r.g r.m true).count R.AU_GRP_UNDERRUNS r.g).modAu r.g r.m fun v =>
      { v with member := { v.member with good := 0, counted := from_ }, mutes := ((from_, none) :: v.mutes).take 4 })
    let s := if r.kind = 0 then
        ((s.setFld d R.AU_P_STATUS_MUTED 1 r.inst).setFld d R.AU_P_STATUS_ONE_GOOD 0 r.inst).event d R.AU_P_EVENTS_UNDERRUN r.inst
      else s
    s.eventCad d R.AU_EVENTS_UNDERRUN 0 (auSource r.g r.m) cad 0

/-- The supervisor of a member's samples: when its first missing sample passes the end of its line plus W. -/
def Die.auDue (x : Die) (r : AuRef) : Option Nat :=
  match (x.auMember r.g r.m).member.next, x.grid (x.fld R.AU_GRP_CFG_CADENCE r.g) with
  | some k, some gr => some (gr.instant (x.auLine r.g k + x.fld R.AU_GRP_CFG_WINDOW r.g + 1))
  | _, _ => none

/-- AUDIO_UNDERRUN: the first missing sample of a member passes its deadline. -/
def State.auUnderrun (s : State) (d : DieId) (g m : Nat) : State :=
  match (s.die d).auRef g m with
  | none => s
  | some r =>
    match (s.die d).auDue r with
    | some t => if (s.die d).auBad g m then s else (s.advanceStation d t).auMute d r
    | none => s

/-- The audio that a concealed video member carries mutes with it (R335, R448). -/
def State.auVideoUnderrun (s : State) (d : DieId) (kind inst : Nat) : State :=
  ((s.die d).auRefs.filter fun r => r.kind == kind && r.inst == inst).foldl (fun s r => s.auMute d r) s

/-- A member's clock or ratio lets it rejoin: its port has its clock and no RATE_ERR, its converter is locked (R449, R450). -/
def Die.auFit (x : Die) (r : AuRef) : Bool :=
  (r.kind != 0 || (!x.flag R.AU_P_STATUS_CLOCK_LOSS r.inst && !x.flag R.AU_P_STATUS_RATE_ERR r.inst)) &&
    match (if r.kind = 0 then some r.inst else x.auConverter r) with
    | some a => !(x.asrcTracks a && (!x.flag R.AU_ASRC_CFG_LOCK a || x.flag R.AU_ASRC_CFG_RATE_ERR a))
    | none => true

/-- Muted samples of a member up to the present are counted, of every channel on the die and by periods on its port (R457,
R458). -/
def Die.auCount (x : Die) (r : AuRef) : Die :=
  if !x.auBad r.g r.m then x
  else
    let k := auAt (x.auFs r.g) x.clk.now + 1
    let n := (k - (x.auMember r.g r.m).member.counted).toNat
    let x := (x.count R.AU_CONCEALED 0 (n * r.chans)).modAu r.g r.m fun v => { v with member := { v.member with counted := max k v.member.counted } }
    if r.kind = 0 then x.count R.AU_P_CONCEALED r.inst n else x

/-- A frame boundary of a group's cadence, line `b`, judges each member's frame, and a muted member that has two complete ones
behind it rejoins with a ramp over 64 samples (R449). -/
def State.auBoundary (s : State) (d : DieId) (r : AuRef) (gr : Grid) (b : Int) : State :=
  let x := s.die d
  let fs := x.auFs r.g
  let first := auFrom fs (gr.instant (b - gr.l))
  let start := auFrom fs (gr.instant b)
  let last := min start (auFrom fs (gr.instant (b - x.fld R.AU_GRP_CFG_WINDOW r.g)))
  let v := (x.auMember r.g r.m).member
  let ok := runsCover v.runs first last && !v.fault && x.auFit r
  if x.auBad r.g r.m then
    let (v', back) := v.judge ok
    let s := s.upd d fun x => (x.auCount r).modAu r.g r.m fun u => { u with member := { v' with next := if back then some (runsFrom v'.runs start) else v'.next } }
    if back then
      let s := s.upd d fun x => ((x.setBit R.AU_GRP_STATE_BAD r.g r.m false).count R.AU_GRP_REJOINS r.g).modAu r.g r.m fun u =>
        { u with mutes := match u.mutes with | (a, none) :: l => (a, some start) :: l | l => l }
      let s := if r.kind = 0 then
          ((s.setFld d R.AU_P_STATUS_MUTED 0 r.inst).setFld d R.AU_P_STATUS_ONE_GOOD 0 r.inst).event d R.AU_P_EVENTS_REJOIN r.inst
        else s
      s.eventCad d R.AU_EVENTS_REJOIN 0 (auSource r.g r.m) (x.fld R.AU_GRP_CFG_CADENCE r.g) 0
    else if r.kind = 0 then s.setFld d R.AU_P_STATUS_ONE_GOOD v'.good r.inst else s
  else s.upd d fun x => x.modAu r.g r.m fun u => { u with member := { u.member with fault := false } }

/-- NEVER of a group ends once every member has delivered a complete frame together, and a port's with its own (R458, R459). -/
def Die.auNever (x : Die) (g : Nat) (gr : Grid) (b : Int) : Die :=
  let rs := x.auRefs.filter fun r => r.g == g
  let fs := x.auFs g
  let done (r : AuRef) : Bool := runsCover (x.auMember g r.m).member.runs (auFrom fs (gr.instant (b - gr.l)))
    (min (auFrom fs (gr.instant b)) (auFrom fs (gr.instant (b - x.fld R.AU_GRP_CFG_WINDOW g))))
  let y := rs.foldl (fun y r => if r.kind = 0 ∧ done r then y.setFld R.AU_P_STATUS_NEVER 0 r.inst else y) x
  if rs.all done then y.setFld R.AU_GRP_STATE_NEVER 0 g else y

/-! ### Clocks of ports (R443, R446, R447) -/

/-- The port is used. -/
def Die.auUsed (x : Die) (p : Nat) : Bool := x.fld R.AU_P_CFG_RATE p != 0
/-- SOURCE of a port's records: its member's, or the port's number where it has no receiver in a group. -/
def Die.auPortSource (x : Die) (p : Nat) : Nat := ((x.auMemberOf 0 0 p).map fun r => auSource r.g r.m).getD p

/-- CLOCK_LOSS. -/
def State.auClockLoss (s : State) (d : DieId) (p : Nat) : State :=
  let x := s.die d
  if !x.auSlave p || x.flag R.AU_P_STATUS_CLOCK_LOSS p then s
  else
    let s := (s.setFld d R.AU_P_STATUS_CLOCK_LOSS 1 p).setFld d R.AU_P_STATUS_CLOCK_OK 0 p
    let s := s.upd d fun x => x.modAuPort p fun v => { v with good := 0, next := none }
    let s := match x.auMemberOf 0 0 p with
      | some r => s.upd d fun x => x.modAu r.g r.m fun v => { v with member := { v.member with fault := true } }
      | none => s
    (s.event d R.AU_P_EVENTS_CLOCK_LOSS p).eventCad d R.AU_EVENTS_CLOCK_LOSS 0 (x.auPortSource p) (x.fld R.AU_P_CFG_CADENCE p) p

/-- CLOCK_BACK: the loss ends after 64 consecutive good sample periods. -/
def State.auClockBack (s : State) (d : DieId) (p : Nat) : State :=
  let x := s.die d
  if x.flag R.AU_P_STATUS_CLOCK_LOSS p ∧ 64 ≤ (x.auPort p).good then
    ((s.setFld d R.AU_P_STATUS_CLOCK_LOSS 0 p).setFld d R.AU_P_STATUS_CLOCK_OK 1 p).event d R.AU_P_EVENTS_CLOCK_BACK p
  else s

/-- A slave port's rate over the frame that has ended; a SYNC port outside 50 ppm of nominal sets RATE_ERR (R447). -/
def State.auMeasure (s : State) (d : DieId) (p : Nat) : State :=
  let x := s.die d
  let (n, t0, t1) := (x.auPort p).edges
  let s := s.upd d fun x => x.modAuPort p fun v => { v with edges := (0, 0, 0) }
  if !x.auSlave p ∨ n < 2 ∨ t1 ≤ t0 then s
  else
    let rate := (n - 1) * 16 * second / (t1 - t0)
    let nom := 16 * auHz (x.fld R.AU_P_CFG_RATE p)
    let s := s.setFld d R.AU_P_WCLK_RATE rate p
    let err := x.flag R.AU_P_CFG_SYNC p && decide (50 * nom < (((rate : Int) - nom).natAbs) * 1000000)
    let s := s.setFld d R.AU_P_STATUS_RATE_ERR (b2n err) p
    if err ∧ !x.flag R.AU_P_STATUS_RATE_ERR p then
      (s.event d R.AU_P_EVENTS_RATE_ERR p).eventCad d R.AU_EVENTS_RATE_ERR 0 (x.auPortSource p) (x.fld R.AU_P_CFG_CADENCE p) p
    else s

/-! ### Tracking (R450) -/

/-- A tracking converter's filtered measurement: its offset from nominal, and whether it lies within 1,000 ppm (R450). -/
def State.asrcMeasure (s : State) (d : DieId) (a : Nat) (ratio : W32) : State :=
  let x := s.die d
  if !x.asrcTracks a then s
  else
    let v := x.asrc a
    let diff := (ratio.toNat : Int) - v.nominal
    let out := decide (1000 * v.nominal < diff.natAbs * 1000000)
    let off := if v.nominal = 0 then 0 else diff * 256000000 / v.nominal
    let s := (s.setFld d R.AU_ASRC_RATIO ratio.toNat a).setFld d R.AU_ASRC_OFFSET (unsgn 32 off) a
    let within := match v.held with
      | some (r, _) => decide ((((ratio.toNat : Int) - r).natAbs) * 1000000 ≤ r)
      | none => false
    let s := s.upd d fun x => x.modAsrc a fun v => { v with held := if out then none else if within then v.held else some (ratio.toNat, s.now) }
    let s := s.setFld d R.AU_ASRC_CFG_RATE_ERR (b2n out) a
    if out then
      let s := s.setFld d R.AU_ASRC_CFG_LOCK 0 a
      let s := match x.asrcMember a with | some r => s.auMute d r | none => s
      if x.flag R.AU_ASRC_CFG_RATE_ERR a then s
      else match x.asrcMember a with
        | some r => s.eventCad d R.AU_EVENTS_RATE_ERR 0 (auSource r.g r.m) (x.fld R.AU_GRP_CFG_CADENCE r.g) a
        | none => s.eventCad d R.AU_EVENTS_RATE_ERR 0 a (x.fld R.AU_P_CFG_CADENCE a) a
    else s

/-- ASRC_LOCK: the ratio has held within 1 ppm for 1 s. -/
def State.asrcLock (s : State) (d : DieId) (a : Nat) : State :=
  match ((s.die d).asrc a).held with
  | some (_, t) => if (s.die d).asrcTracks a then (s.advanceTo (t + second)).setFld d R.AU_ASRC_CFG_LOCK 1 a else s
  | none => s

/-! ### Channel maps and outputs (R454, R455) -/

/-- DELAY of a destination in lines; 0 where the plan gives none. -/
def Die.auDelay (x : Die) (kind inst : Nat) : Nat :=
  (((x.recsOf 9 0x902).find? fun e => num e.2.body 0 1 == kind && num e.2.body 2 2 == inst).map fun e => num e.2.body 4 2).getD 0
/-- The cadence of a destination. -/
def Die.auDestCad (x : Die) (kind inst : Nat) : Nat := match kind with
  | 0 => x.fld R.AU_P_CFG_CADENCE inst | 1 => x.fld R.LN_CFG_CADENCE inst
  | 4 => x.fld R.EN_TIMING_CADENCE inst | _ => x.fld R.NW_TX_CFG_CADENCE inst
/-- The map entry of a destination channel. -/
def Die.auMapOf (x : Die) (kind inst ch : Nat) : Option Nat :=
  (x.listed R.AU_MAP_CFG_USED 4096).find? fun e => x.flag R.AU_MAP_CFG_USED e && x.fld R.AU_MAP_CFG_KIND e == kind &&
    x.fld R.AU_MAP_DEST_INSTANCE e == inst && x.fld R.AU_MAP_DEST_CHANNEL e == ch

/-- How a member's sample at position `k` is muted or ramped (R449). -/
def AuMember.level (v : AuMember) (k : Int) : Int :=
  v.mutes.foldl (fun n e => match e with
    | (a, none) => if a ≤ k then 0 else n
    | (a, some b) => if a ≤ k ∧ k < b then 0 else if b ≤ k then min n (k - b) else n) 64
/-- The word of a member's channel at position `k`: concealed where it is muted or not there. -/
def AuMember.word (v : AuMember) (ch : Nat) (k : Int) : W32 :=
  let n := v.level k
  match v.words.find? fun e => e.1 == k with
  | some e => let w := e.2.getD ch 0
    if n ≤ 0 then auWord 0 true else auPut w (auLevel n (auSample w))
  | none => auWord 0 true

/-- The mute of a map entry at position `k`: the step of its ramp, up on release and down on mute (R455). -/
def AuMute.level (v : AuMute) (k : Int) : Int :=
  match v.ramp with
  | some a => let n := max 0 (min 64 (k - a)); if v.on then 64 - n else n
  | none => if v.on then 0 else 64

/-- The word that a map entry delivers at grid time `t` (R454): its source channel's at the destination's fixed delay. A source
muted by R449 sends 0. -/
def Die.auMapWord (x : Die) (e t : Nat) : W32 :=
  let kind := x.fld R.AU_MAP_CFG_KIND e
  let inst := x.fld R.AU_MAP_DEST_INSTANCE e
  match auChannel x.auRefs (x.fld R.AU_MAP_CFG_SOURCE e) with
  | none => 0
  | some (r, ch) =>
    let t' := match x.grid (x.auDestCad kind inst) with
      | some g => g.instantPos (g.pos t - x.auDelay kind inst * 65536)
      | none => t
    let w := (x.auMember r.g r.m).word ch (auAt (x.auFs r.g) t')
    let n := (mget (fun _ => ({} : AuMute)) x.au.mutes e).level (auAt (x.auFs r.g) t)
    auPut w (auLevel n (auSample w))

/-- The word of a destination channel at station time `t`; silence where no entry feeds it. -/
def Die.auOut (x : Die) (kind inst ch t : Nat) : W32 := match x.auMapOf kind inst ch with
  | some e => x.auMapWord e t
  | none => 0

/-- A frame boundary of cadence `c` applies the MUTE bits of the entries whose destinations are on it (R455). -/
def Die.auMutes (x : Die) (c : Nat) : Die :=
  ((x.listed R.AU_MAP_CFG_USED 4096).filter fun e => x.flag R.AU_MAP_CFG_USED e &&
      x.auDestCad (x.fld R.AU_MAP_CFG_KIND e) (x.fld R.AU_MAP_DEST_INSTANCE e) == c).foldl (fun x e =>
    let v := mget (fun _ => ({} : AuMute)) x.au.mutes e
    let want := x.flag R.AU_MAP_CFG_MUTE e
    if v.on == want then x
    else
      let fs := ((auChannel x.auRefs (x.fld R.AU_MAP_CFG_SOURCE e)).map fun r => x.auFs r.1.g).getD 48000
      { x with au := { x.au with mutes := mput (fun _ => {}) x.au.mutes e ⟨want, some (auFrom fs x.clk.now)⟩ } }) x

/-- What a line pulse of cadence `c`, line `m`, does for audio: muted samples are counted, and at a frame boundary rates are
measured, members judged and mutes applied. -/
def State.auPulse (s : State) (d : DieId) (c : Nat) (m : Int) (boundary : Bool) : State :=
  let rs := (s.die d).auRefs.filter fun r => (s.die d).fld R.AU_GRP_CFG_CADENCE r.g == c
  if boundary then
    match (s.die d).grid c with
    | none => s
    | some gr =>
      let s := (List.range 16).foldl (fun s p => if s.fld d R.AU_P_CFG_CADENCE p = c then s.auMeasure d p else s) s
      let s := rs.foldl (fun s r => s.auBoundary d r gr m) s
      let s := rs.foldl (fun s r => s.upd d fun x => x.auNever r.g gr m) s
      s.upd d fun x => x.auMutes c
  else s.upd d fun x => rs.foldl Die.auCount x

/-! ### Sample periods (R445) -/

/-- The words of the selected receive slots, in ascending slot order, with 24 bits from WIDTH bits (R441, R445). -/
def Die.auReceived (x : Die) (p : Nat) (rx : List W32) : List W32 :=
  let w := [16, 20, 24].getD (x.fld R.AU_P_CFG_WIDTH p) 24
  ((List.range (x.fld R.AU_P_CFG_SLOTS p + 1)).filter fun i => bit (x.fld R.AU_P_RXMASK p) i).map fun i =>
    auWord ((rx.getD i 0).toNat % 2 ^ w * 2 ^ (24 - w)) false

/-- The words that a converter's filter puts out at output position `k`: a function of what went in, so that two dies with one
input agree (R24, R450). -/
def converted (filter ratio : Nat) (k : Int) (n : Nat) : List W32 :=
  (List.range n).map fun ch => auWord (Config.convertOut filter ratio k ch % 2 ^ 24) false

/-- Words of a member, sample by sample, pass a converter, which fills the grid positions from its last up to `now`; none while the
converter has no lock (R450, log entry 30). -/
def Die.auConvert (x : Die) (r : AuRef) (a : Nat) (now : Int) (ws : List (List W32)) : Die :=
  if x.auFit r then
    let from_ := max (now - 15 - ws.length) ((x.auPort a).next.getD now)
    let st := ws.foldl (fun st w => Config.convertStep st (x.fld R.AU_ASRC_RATIO a) w) (x.auPort a).filter.1
    ((List.range (now + 1 - from_).toNat).foldl (fun x i =>
      x.auDeliver r.g r.m (from_ + i) (converted st (x.fld R.AU_ASRC_RATIO a) (from_ + i) r.chans)) x).modAuPort a fun v =>
        { v with next := some (now + 1), filter := (st, v.filter.2) }
  else x.modAuPort a fun v => { v with next := none }

/-- The words of audio samples that start at grid position `k` go to a member, past its converter where it is asynchronous; `ratio` is
what that measures (R450, R452, R453). -/
def State.auRun (s : State) (d : DieId) (r : AuRef) (k : Int) (ws : List (List W32)) (ratio : W32) : State :=
  match (s.die d).auConverter r with
  | some a =>
    let s := s.asrcMeasure d a ratio
    s.upd d fun x => x.auConvert r a (auAt (x.auFs r.g) x.clk.now) ws
  | none => s.upd d fun x => ws.zipIdx.foldl (fun x e => x.auDeliver r.g r.m (k + (e.2 : Nat)) e.1) x

/-- The receiver's part of a sample period: its words go to the grid position of the period, or a converter fills the grid
positions since the last. -/
def State.auReceive (s : State) (d : DieId) (p : Nat) (rx : List W32) : State :=
  let x := s.die d
  match x.auMemberOf 0 0 p with
  | none => s
  | some r =>
    let now := auAt (x.auFs r.g) x.clk.now
    if x.auConverts p then s.upd d fun x => x.auConvert r p now [x.auReceived p rx]
    else
      let k := if x.auSlave p ∧ !x.auBad r.g r.m then (x.auPort p).next.getD now else now
      s.upd d fun x => (x.auDeliver r.g r.m k (x.auReceived p rx)).modAuPort p fun v => { v with next := some (k + 1) }

/-- The output of an audio port holds: in the gap of a step (R455, R59). -/
def Die.auHolds (x : Die) (p : Nat) : Bool := (x.cad (x.fld R.AU_P_CFG_CADENCE p)).inGap || x.flag R.AU_P_STATUS_TX_HOLD p

/-- The transmitter's part of a sample period (R445, R446, R455). -/
def State.auTransmit (s : State) (d : DieId) (p : Nat) : State :=
  let x := s.die d
  if !x.flag R.AU_P_CFG_TX_USED p then s
  else
    let n := x.fld R.AU_P_CFG_SLOTS p + 1
    let w := [16, 20, 24].getD (x.fld R.AU_P_CFG_WIDTH p) 24
    let sel (i : Nat) : Bool := bit (x.fld R.AU_P_TXMASK p) i
    let own := (List.range n).map fun i => x.auOut 0 p i x.clk.now
    let st := Config.convertStep (x.auPort p).filter.2 (x.fld R.AU_ASRC_RATIO p) own
    let ws := if x.auConverts p then converted st (x.fld R.AU_ASRC_RATIO p) (auAt (x.auPortFs p) x.clk.now) n else own
    let vals := if x.auHolds p then (List.range n).map fun i => (x.auPort p).last.getD i 0 else ws.map fun v => auRound w (auSample v)
    let s := s.upd d fun x => x.modAuPort p fun v =>
      { v with last := vals, filter := (v.filter.1, if x.auConverts p then st else v.filter.2) }
    s.send (.audio d p ((List.range n).map fun i =>
      if x.flag R.AU_P_STATUS_CLOCK_LOSS p then some 0
      else if sel i then some (vals.getD i 0) else if x.flag R.AU_P_CFG_TX_HIZ p then none else some 0))

/-- SAMPLE_PERIOD. AUDIO_CLOCK takes a slave port's clocks away (R594, class 9). -/
def State.samplePeriod (s : State) (d : DieId) (p : Nat) (ok : Bool) (ratio : W32) (rx : List W32) : State :=
  let x := s.die d
  if !x.auUsed p then s
  else if x.pertOn 9 p 0 ∧ x.auSlave p then s
  else
    let s := s.upd d fun x => x.modAuPort p fun v =>
      { v with edges := (v.edges.1 + 1, if v.edges.1 = 0 then x.clk.now else v.edges.2.1, x.clk.now)
               good := if ok then min 64 (v.good + 1) else 0 }
    if x.flag R.AU_P_STATUS_CLOCK_LOSS p then s.auTransmit d p
    else
      let s := s.setFld d R.AU_P_STATUS_CLOCK_OK (b2n ok) p
      let s := s.asrcMeasure d p ratio
      let s := if x.flag R.AU_P_CFG_RX_USED p then s.auReceive d p rx else s
      s.auTransmit d p

def execClockLoss (d : DieId) (p : Fin 16) (dt : Nat) (s : State) : Result :=
  onDie s d (Instr.wf (.clockLoss d p dt)) ((s.advance dt).auClockLoss d p)
def execClockBack (d : DieId) (p : Fin 16) (s : State) : Result := onDie s d (Instr.wf (.clockBack d p)) (s.auClockBack d p)
def execAudioUnderrun (d : DieId) (g : Fin 256) (m : Fin 16) (s : State) : Result :=
  onDie s d (Instr.wf (.audioUnderrun d g m)) (s.auUnderrun d g m)
def execAsrcLock (d : DieId) (a : Fin 32) (s : State) : Result := onDie s d (Instr.wf (.asrcLock d a)) (s.asrcLock d a)
/-- The next sample period of a clock master, of which WCLK marks sample 0 at each second of station time (R443): in the station time of
its first grid position after the present. A slave's comes after `dt`. -/
def State.sampleAt (s : State) (d : DieId) (p dt : Nat) : State :=
  let x := s.die d
  let hz := auHz (x.fld R.AU_P_CFG_RATE p)
  if !x.auUsed p ∨ x.auSlave p then s.advance dt
  else s.advanceStation d (cdiv ((auAt hz x.clk.now).toNat * second + second) hz)

def execSamplePeriod (d : DieId) (p : Fin 16) (dt : Nat) (ok : Bool) (ratio : W32) (rx : List W32) (s : State) : Result :=
  onDie s d true ((s.sampleAt d p dt).samplePeriod d p ok ratio rx)

end Sys2Proof.Machine
end

