-- ==== Sys2Proof/Machine/Flags.lean ====
section
/-! DEFINITION. The carry, borrow and comparison results of the ALU opcodes (R158), stated once for every width: a lane of a
tile is 8 bits wide and sets a bit of `k` or of a predicate, a control core's register is 32 bits wide and sets `C` or writes
1 or 0 (R182). -/

namespace Sys2Proof.Machine

variable {w : Nat}

/-- Carry out of a + b. -/
def carryAdd (a b : BitVec w) (_ : Bool) : Bool := decide (2 ^ w ≤ a.toNat + b.toNat)
/-- Carry out of a + b + k. -/
def carryAdc (a b : BitVec w) (k : Bool) : Bool := decide (2 ^ w ≤ a.toNat + b.toNat + b2n k)
/-- Borrow of a - b. -/
def borrowSub (a b : BitVec w) (_ : Bool) : Bool := decide (a.toNat < b.toNat)
/-- Borrow of a - b - k. -/
def borrowSbb (a b : BitVec w) (k : Bool) : Bool := decide (a.toNat < b.toNat + b2n k)

/-- CEQ, CEQI. -/
def cmpEq (a b : BitVec w) : Bool := a == b
/-- CLTU, CLTUI, BLTU. -/
def cmpLtu (a b : BitVec w) : Bool := decide (a.toNat < b.toNat)
/-- CLTS, BLT. -/
def cmpLts (a b : BitVec w) : Bool := decide (a.toInt < b.toInt)

end Sys2Proof.Machine
end

