-- ==== Sys2Proof/Machine/Operands.lean ====
section
/-! DEFINITION. The operands of tile instructions and where their results go: vector registers and their lanes, predicates,
word groups (R159), address registers, and the list of results that have not landed yet (R177). Every operand is read at
issue (R150). -/

namespace Sys2Proof.Machine

/-- The default of every vector register. -/
def vDefault (_ : Nat) : Vec := zeroVec
/-- The zero accumulator. -/
def zeroAcc : Vector W32 32 := Vector.replicate 32 0

/-- Vector register `r`. -/
def Tile.vreg (t : Tile) (r : Nat) : Vec := mget vDefault t.v r
/-- Lane `i` of vector register `r`. -/
def Tile.lane (t : Tile) (r i : Nat) : Byte := (t.vreg r)[i % 32]!
/-- Predicate `r`: p0 reads all ones (R152). -/
def Tile.preg (t : Tile) (r : Nat) : BitVec 32 := if r = 0 then BitVec.allOnes 32 else mget (fun _ => 0) t.p r
/-- Scratch address register `r`. -/
def Tile.areg (t : Tile) (r : Nat) : Nat := mget (fun _ => 0) t.a r
/-- DRAM address register `r`. -/
def Tile.qreg (t : Tile) (r : Nat) : Nat := mget (fun _ => 0) t.q r
/-- Flag `r`. -/
def Tile.flag (t : Tile) (r : Nat) : Bool := mget (fun _ => false) t.f r
/-- Cost accumulator `r`. -/
def Tile.dreg (t : Tile) (r : Nat) : Nat := mget (fun _ => 0) t.d r
/-- Accumulator `r`. -/
def Tile.macc (t : Tile) (r : Nat) : Vector W32 32 := mget (fun _ => zeroAcc) t.m r
/-- In-edge register: 1 north, 2 east, 3 south, 4 west (R154, R155). -/
def Tile.edge (t : Tile) (dir : Nat) : Vec := mget vDefault t.edges dir

/-- The value of the word group of `n` registers from `r` on, in lane `i` (R159). DESIGN CHOICE (log entry 64): a group that runs past
v31 goes on at v0; R159 does not say. -/
def Tile.group (t : Tile) (r n i : Nat) : Nat := leNat ((List.range n).map fun j => t.lane ((r + j) % 32) i)

/-- A vector given lane by lane. -/
def vecOf (f : Nat → Byte) : Vec := Vector.ofFn fun i => f i.val
/-- A lane mask given lane by lane. -/
def maskOf (f : Nat → Bool) : BitVec 32 := BitVec.ofNat 32 ((List.range 32).foldl (fun n i => n + b2n (f i) * 2 ^ i) 0)
/-- The vector `x` where the mask is 1 and `old` elsewhere. -/
def blend (mask : BitVec 32) (x old : Vec) : Vec := vecOf fun i => if mask.getLsbD i then x[i]! else old[i]!
/-- The accumulator `x` where the mask is 1 and `old` elsewhere. -/
def blendAcc (mask : BitVec 32) (x old : Vector W32 32) : Vector W32 32 :=
  Vector.ofFn fun i => if mask.getLsbD i.val then x[i.val]! else old[i.val]!
/-- The predicate `x` where the mask is 1 and `old` elsewhere. -/
def blendBits (mask x old : BitVec 32) : BitVec 32 := (x &&& mask) ||| (old &&& ~~~mask)

/-- Writes a result to the register it is for. -/
def Tile.land (t : Tile) : Wr → Tile
  | .v r x mask => { t with v := mput vDefault t.v r (blend mask x (t.vreg r)) }
  | .p r x mask => if r = 0 then t else { t with p := mput (fun _ => 0) t.p r (blendBits mask x (t.preg r)) }
  | .k x mask => { t with k := blendBits mask x t.k }
  | .a r x => { t with a := mput (fun _ => 0) t.a r (x % 2 ^ 20) }
  | .q r x => { t with q := mput (fun _ => 0) t.q r (x % 2 ^ 34 / 64 * 64) }
  | .f r x => { t with f := mput (fun _ => false) t.f r x }
  | .d r x => { t with d := mput (fun _ => 0) t.d r (min x (2 ^ 24 - 1)) }
  | .best l => { t with best := l }
  | .m r x mask => { t with m := mput (fun _ => zeroAcc) t.m r (blendAcc mask x (t.macc r)) }
  | .snap c => { t with coder := { t.coder with snap := c } }
  | .ctx c => { t with coder := { t.coder with ctx := c } }
  | .edge dir x => { t with edges := mput vDefault t.edges dir x }
  | .fifo n => { t with coder := { t.coder with fifo := t.coder.fifo.drop n } }

/-- A 1 written to a flag lands after a 0 that lands in the same cycle (R175). -/
def Wr.late : Wr → Bool
  | .f _ true => true
  | _ => false

/-- Lands every result that is seen from the present cycle on. -/
def Tile.settle (t : Tile) : Tile :=
  let now := (t.due.filter fun e => decide (e.1 ≤ t.cycle)).map Prod.snd
  let t' := { t with due := t.due.filter fun e => decide (t.cycle < e.1) }
  (now.filter Wr.late).foldl Tile.land ((now.filter fun x => !x.late).foldl Tile.land t')

/-- The cycles, in order and each once, at which results that are on their way are seen. -/
def Tile.dueCycles (t : Tile) : List Nat :=
  (t.due.map Prod.fst).foldr (fun c l => (l.takeWhile fun e => decide (e < c)) ++ c :: (l.dropWhile fun e => decide (e < c)).filter (· != c)) []
/-- The tile comes to cycle `n`: what is seen by then lands, cycle by cycle (R177). -/
def Tile.runTo (t : Tile) (n : Nat) : Tile :=
  let t' := (t.dueCycles.filter fun c => decide (c ≤ n)).foldl (fun t c => { t with cycle := max t.cycle c }.settle) t
  { t' with cycle := max t'.cycle n }.settle
/-- A window of `n` cycles ends: what is still on its way is counted from cycle 0 of the next (R125, R177). -/
def Tile.rebase (t : Tile) (n : Nat) : Tile :=
  let t := t.runTo n
  let k := t.cycle
  { t with cycle := 0, due := t.due.map fun e => (e.1 - k, e.2)
           coder := { t.coder with fifo := t.coder.fifo.map fun e => (e.1 - k, e.2) } }
/-- A result of latency `n` (R177). -/
def Tile.later (t : Tile) (n : Nat) (x : Wr) : Tile := { t with due := t.due ++ [(t.cycle + n, x)] }

/-- A vector result in the lanes where predicate `pred` is 1 (R157). -/
def Tile.outV (t : Tile) (n vd pred : Nat) (f : Nat → Byte) : Tile := t.later n (.v vd (vecOf f) (t.preg pred))
/-- A carry result in the lanes where predicate `pred` is 1. -/
def Tile.outK (t : Tile) (pred : Nat) (f : Nat → Bool) : Tile := t.later 1 (.k (maskOf f) (t.preg pred))
/-- A predicate result in the lanes where predicate `pred` is 1. -/
def Tile.outP (t : Tile) (vd pred : Nat) (f : Nat → Bool) : Tile := t.later 1 (.p vd (maskOf f) (t.preg pred))

/-- The bank of a scratch address in a tile with `b` banks (R116). -/
def bankOf (b a : Nat) : Nat := a / 32 % b

/-- The neighbour of tile `i` across out-edge `dir` (1 north, 2 east, 3 south, 4 west); none on the perimeter (R120, R121). -/
def neighbour (i dir : Nat) : Option Nat :=
  match dir with
  | 1 => if i < 48 then none else some (i - 48)
  | 2 => if i % 48 = 47 then none else some (i + 1)
  | 3 => if i + 48 < 1536 then some (i + 48) else none
  | 4 => if i % 48 = 0 then none else some (i - 1)
  | _ => none

/-- The in-edge on which the neighbour across `dir` receives. -/
def opposite : Nat → Nat
  | 1 => 3 | 2 => 4 | 3 => 1 | _ => 2

end Sys2Proof.Machine
end

