-- ==== Sys2Proof/Machine/TileAlu.lean ====
section
/-! DEFINITION. The generic ALU opcodes (R158): the operation of one lane, stated for every width so that a tile's lane (8
bits) and a control core's register (32 bits, R182) share it, and what an opcode does to a tile. -/

namespace Sys2Proof.Machine

/-- The low `w` bits of an integer clamped to the signed range of `w` bits. -/
def clampS (w : Nat) (x : Int) : BitVec w := BitVec.ofInt w (max (-(2 ^ (w - 1) : Int)) (min x (2 ^ (w - 1) - 1)))

/-! ### One lane -/

def opAdd (w : Nat) (a b : BitVec w) (_ : Bool) : BitVec w := a + b
def opAdc (w : Nat) (a b : BitVec w) (k : Bool) : BitVec w := a + b + BitVec.ofNat w (b2n k)
def opSub (w : Nat) (a b : BitVec w) (_ : Bool) : BitVec w := a - b
def opSbb (w : Nat) (a b : BitVec w) (k : Bool) : BitVec w := a - b - BitVec.ofNat w (b2n k)
def opAddus (w : Nat) (a b : BitVec w) (_ : Bool) : BitVec w := BitVec.ofNat w (min (a.toNat + b.toNat) (2 ^ w - 1))
def opSubus (w : Nat) (a b : BitVec w) (_ : Bool) : BitVec w := BitVec.ofNat w (a.toNat - b.toNat)
def opAddss (w : Nat) (a b : BitVec w) (_ : Bool) : BitVec w := clampS w (a.toInt + b.toInt)
def opSubss (w : Nat) (a b : BitVec w) (_ : Bool) : BitVec w := clampS w (a.toInt - b.toInt)
def opAnd (w : Nat) (a b : BitVec w) (_ : Bool) : BitVec w := a &&& b
def opOr (w : Nat) (a b : BitVec w) (_ : Bool) : BitVec w := a ||| b
def opXor (w : Nat) (a b : BitVec w) (_ : Bool) : BitVec w := a ^^^ b
def opAndn (w : Nat) (a b : BitVec w) (_ : Bool) : BitVec w := a &&& ~~~b
def opShl (w : Nat) (a b : BitVec w) (_ : Bool) : BitVec w := a <<< b.toNat
def opShr (w : Nat) (a b : BitVec w) (_ : Bool) : BitVec w := a >>> b.toNat
def opSar (w : Nat) (a b : BitVec w) (_ : Bool) : BitVec w := a.sshiftRight b.toNat
def opMinu (w : Nat) (a b : BitVec w) (_ : Bool) : BitVec w := if a.toNat ≤ b.toNat then a else b
def opMaxu (w : Nat) (a b : BitVec w) (_ : Bool) : BitVec w := if a.toNat ≤ b.toNat then b else a
def opMins (w : Nat) (a b : BitVec w) (_ : Bool) : BitVec w := if a.toInt ≤ b.toInt then a else b
def opMaxs (w : Nat) (a b : BitVec w) (_ : Bool) : BitVec w := if a.toInt ≤ b.toInt then b else a
def opAvgu (w : Nat) (a b : BitVec w) (_ : Bool) : BitVec w := BitVec.ofNat w ((a.toNat + b.toNat + 1) / 2)
def opAbsd (w : Nat) (a b : BitVec w) (_ : Bool) : BitVec w := if a.toNat ≤ b.toNat then b - a else a - b
def opMov (w : Nat) (a _b : BitVec w) (_ : Bool) : BitVec w := a
def opSecond (w : Nat) (_a b : BitVec w) (_ : Bool) : BitVec w := b

/-- FSHR: low 8 bits of ((a x 256 + b) >> n). -/
def laneFshr (n : Nat) (a b : Byte) : Byte := BitVec.ofNat 8 ((a.toNat * 256 + b.toNat) / 2 ^ n)
/-- FSHL: bits [15:8] of (((a x 256 + b) << n) mod 65,536). -/
def laneFshl (n : Nat) (a b : Byte) : Byte := BitVec.ofNat 8 ((a.toNat * 256 + b.toNat) * 2 ^ n % 65536 / 256)
/-- JOINL: ((a << n) OR b) AND 0xFF. -/
def laneJoinl (n : Nat) (a b : Byte) : Byte := (a <<< n) ||| b
/-- JOINH: a >> (8 - n). -/
def laneJoinh (n : Nat) (a : Byte) : Byte := a >>> (8 - n)

/-- The operation of one lane: operands and carry in. -/
abbrev LaneOp := (w : Nat) → BitVec w → BitVec w → Bool → BitVec w
/-- The carry of one lane: operands and carry in. -/
abbrev LaneCarry := (w : Nat) → BitVec w → BitVec w → Bool → Bool
/-- A comparison of one lane. -/
abbrev LaneCmp := (w : Nat) → BitVec w → BitVec w → Bool

/-! ### What an opcode does to a tile -/

/-- d = f a b, lane by lane. -/
def Tile.alu (f : LaneOp) (vd va vb pred : Nat) (t : Tile) : Tile :=
  t.outV 1 vd pred fun i => f 8 (t.lane va i) (t.lane vb i) (t.k.getLsbD i)

/-- d = f a b and k = c a b, lane by lane. -/
def Tile.aluK (f : LaneOp) (c : LaneCarry) (vd va vb pred : Nat) (t : Tile) : Tile :=
  (t.alu f vd va vb pred).outK pred fun i => c 8 (t.lane va i) (t.lane vb i) (t.k.getLsbD i)

/-- d = f a IMM, lane by lane. -/
def Tile.aluI (f : LaneOp) (vd va : Nat) (imm : Byte) (pred : Nat) (t : Tile) : Tile :=
  t.outV 1 vd pred fun i => f 8 (t.lane va i) imm (t.k.getLsbD i)

/-- d = f a IMM and k = c a IMM, lane by lane. -/
def Tile.aluIK (f : LaneOp) (c : LaneCarry) (vd va : Nat) (imm : Byte) (pred : Nat) (t : Tile) : Tile :=
  (t.aluI f vd va imm pred).outK pred fun i => c 8 (t.lane va i) imm (t.k.getLsbD i)

/-- p[VD] = c a b, lane by lane. -/
def Tile.cmp (c : LaneCmp) (vd va vb pred : Nat) (t : Tile) : Tile :=
  t.outP vd pred fun i => c 8 (t.lane va i) (t.lane vb i)

/-- p[VD] = c a IMM, lane by lane. -/
def Tile.cmpI (c : LaneCmp) (vd va : Nat) (imm : Byte) (pred : Nat) (t : Tile) : Tile :=
  t.outP vd pred fun i => c 8 (t.lane va i) imm

/-- KTOP: p[VD] = k. -/
def Tile.ktop (vd pred : Nat) (t : Tile) : Tile := t.later 1 (.p vd t.k (t.preg pred))
/-- PTOK: k = p[VA]. -/
def Tile.ptok (va pred : Nat) (t : Tile) : Tile := t.later 1 (.k (t.preg va) (t.preg pred))
/-- SEL: d = a where p[PRED] is 1, else b, in every lane. -/
def Tile.sel (vd va vb pred : Nat) (t : Tile) : Tile :=
  t.outV 1 vd 0 fun i => if (t.preg pred).getLsbD i then t.lane va i else t.lane vb i
/-- FSHR. -/
def Tile.fshr (vd va vb n pred : Nat) (t : Tile) : Tile := t.outV 1 vd pred fun i => laneFshr n (t.lane va i) (t.lane vb i)
/-- FSHL. -/
def Tile.fshl (vd va vb n pred : Nat) (t : Tile) : Tile := t.outV 1 vd pred fun i => laneFshl n (t.lane va i) (t.lane vb i)
/-- SHUF: d[i] = a[b[i] mod 32], latency 2. -/
def Tile.shuf (vd va vb pred : Nat) (t : Tile) : Tile := t.outV 2 vd pred fun i => t.lane va ((t.lane vb i).toNat % 32)
/-- BCAST: d[i] = a[IMM mod 32], latency 2. -/
def Tile.bcast (vd va imm pred : Nat) (t : Tile) : Tile := t.outV 2 vd pred fun _ => t.lane va (imm % 32)
/-- RUP2: d[i] = (a[8 x IMM + i / 4] >> 2 x (i mod 4)) AND 3. -/
def Tile.rup2 (vd va imm pred : Nat) (t : Tile) : Tile :=
  t.outV 1 vd pred fun i => (t.lane va (8 * imm + i / 4) >>> (2 * (i % 4))) &&& 3#8
/-- RUP4: d[i] = (a[16 x IMM + i / 2] >> 4 x (i mod 2)) AND 15. -/
def Tile.rup4 (vd va imm pred : Nat) (t : Tile) : Tile :=
  t.outV 1 vd pred fun i => (t.lane va (16 * imm + i / 2) >>> (4 * (i % 2))) &&& 15#8
/-- RPK2: byte j packs the 2-bit residuals of lanes 4j to 4j + 3; other lanes keep their values. -/
def Tile.rpk2 (vd va imm pred : Nat) (t : Tile) : Tile :=
  t.later 1 (.v vd
    (vecOf fun i => BitVec.ofNat 8 ((List.range 4).foldl (fun n k => n + ((t.lane va (4 * (i - 8 * imm) + k)).toNat % 4) * 4 ^ k) 0))
    (t.preg pred &&& maskOf fun i => decide (8 * imm ≤ i ∧ i < 8 * imm + 8)))
/-- RPK4: byte j packs the 4-bit residuals of lanes 2j and 2j + 1; other lanes keep their values. -/
def Tile.rpk4 (vd va imm pred : Nat) (t : Tile) : Tile :=
  t.later 1 (.v vd
    (vecOf fun i => BitVec.ofNat 8 ((t.lane va (2 * (i - 16 * imm))).toNat % 16 + ((t.lane va (2 * (i - 16 * imm) + 1)).toNat % 16) * 16))
    (t.preg pred &&& maskOf fun i => decide (16 * imm ≤ i ∧ i < 16 * imm + 16)))
/-- JOINL. -/
def Tile.joinl (vd va vb n pred : Nat) (t : Tile) : Tile := t.outV 1 vd pred fun i => laneJoinl n (t.lane va i) (t.lane vb i)
/-- JOINH. -/
def Tile.joinh (vd va n pred : Nat) (t : Tile) : Tile := t.outV 1 vd pred fun i => laneJoinh n (t.lane va i)

end Sys2Proof.Machine
end

