-- ==== Sys2Proof/Machine/TileExt.lean ====
section
/-! DEFINITION. The type-specific ALU opcodes: the cost trees and the best list of S-tiles (R161 to R163), the multipliers of
T-tiles (R164) and the bin coder of E-tiles (R165, R166). A read-modify-write of an accumulator reads it at issue, as every
operand (R150), and its result is seen after the latency of R177 (DEDUCED, log entry 7). -/

namespace Sys2Proof.Machine

/-- The largest cost: accumulators saturate there (R152) and an empty best-list entry holds it (R163). -/
def costMax : Nat := 2 ^ 24 - 1

/-- |a - b| of two lanes. -/
def absDiff (a b : Byte) : Nat := a.toNat - b.toNat + (b.toNat - a.toNat)

/-- Sum over the lanes where predicate `pred` is 1 of |a - b|. -/
def Tile.sadSum (t : Tile) (va vb pred : Nat) : Nat :=
  (List.range 32).foldl (fun n i => n + if (t.preg pred).getLsbD i then absDiff (t.lane va i) (t.lane vb i) else 0) 0

/-- SAD, latency 2. -/
def Tile.sad (vd va vb pred : Nat) (t : Tile) : Tile := t.later 2 (.d vd (t.dreg vd + t.sadSum va vb pred))
/-- SADZ, latency 2. -/
def Tile.sadz (vd va vb pred : Nat) (t : Tile) : Tile := t.later 2 (.d vd (t.sadSum va vb pred))

/-- The unnormalised Hadamard transform of a list of 2^n numbers, entries +1 and -1. -/
def hadamard : Nat → List Int → List Int
  | 0, l => l
  | n + 1, l =>
    let h := 2 ^ n
    let a := hadamard n (l.take h)
    let b := hadamard n (l.drop h)
    List.zipWith (· + ·) a b ++ List.zipWith (· - ·) a b

/-- H e H' of a 2^n x 2^n block in raster order: the Hadamard transform of the raster list over both dimensions. -/
def hadamard2 (n : Nat) (e : List Int) : List Int := hadamard (2 * n) e

/-- Sum of absolute values. -/
def absSum (l : List Int) : Nat := l.foldl (fun n x => n + x.natAbs) 0

/-- The signed differences of two registers in lanes `from_` to `from_ + n - 1`. -/
def Tile.diffs (t : Tile) (va vb from_ n : Nat) : List Int :=
  (List.range n).map fun i => ((t.lane va (from_ + i)).toNat : Int) - (t.lane vb (from_ + i)).toNat

/-- The SATD of a 4 x 4 block (R162). -/
def satd4Block (e : List Int) : Nat := (absSum (hadamard2 2 e) + 1) / 2
/-- The SATD of an 8 x 8 block (R162). -/
def satd8Block (e : List Int) : Nat := (absSum (hadamard2 3 e) + 2) / 4

/-- SATD4: two 4 x 4 blocks, lanes 0 to 15 and 16 to 31; latency 4. Each addition saturates. -/
def Tile.satd4 (vd va vb : Nat) (t : Tile) : Tile :=
  t.later 4 (.d vd (min (min (t.dreg vd + satd4Block (t.diffs va vb 0 16)) costMax + satd4Block (t.diffs va vb 16 16)) costMax))
/-- SATD8: one 8 x 8 block, rows 0 to 3 in the first registers and 4 to 7 in the next; latency 6. -/
def Tile.satd8 (vd va vb : Nat) (t : Tile) : Tile :=
  t.later 6 (.d vd (t.dreg vd + satd8Block (t.diffs va vb 0 32 ++ t.diffs (va + 1) (vb + 1) 0 32)))

/-- Inserts an entry after every entry of equal cost; the entry pushed beyond the third place is dropped, and an entry of
the empty cost is not inserted (R163). -/
def bestInsert (c i : Nat) (l : List (Nat × Nat)) : List (Nat × Nat) :=
  if costMax ≤ c then l
  else ((l.filter fun e => decide (e.1 ≤ c)) ++ (c, i) :: l.filter fun e => decide (c < e.1)).take 3

/-- Entry `j` of the best list; an empty one has cost 2^24 - 1 and index 255 (R163). -/
def Tile.bestEntry (t : Tile) (j : Nat) : Nat × Nat := t.best.getD j (costMax, 255)

/-- BEST3, latency 2. -/
def Tile.best3 (va imm : Nat) (t : Tile) : Tile := t.later 2 (.best (bestInsert (t.dreg va) imm t.best))
/-- DADD, latency 1. -/
def Tile.dadd (vd va vb : Nat) (t : Tile) : Tile :=
  t.later 1 (.d vd (t.dreg vd + (t.lane va 0).toNat + 256 * (t.lane vb 0).toNat))
/-- DRD of an S-tile: lane j is byte IMM of d[j]; lanes 16 to 31 are 0. -/
def Tile.drdS (vd imm pred : Nat) (t : Tile) : Tile :=
  t.outV 1 vd pred fun j => if j < 16 then BitVec.ofNat 8 (t.dreg j / 256 ^ imm) else 0
/-- BRD. -/
def Tile.brd (vd imm pred : Nat) (t : Tile) : Tile :=
  t.outV 1 vd pred fun j =>
    if j < 3 then BitVec.ofNat 8 ((t.bestEntry j).1 / 256 ^ imm)
    else if j < 6 then BitVec.ofNat 8 (t.bestEntry (j - 3)).2 else 0
/-- DCLR. -/
def Tile.dclr (t : Tile) : Tile := (List.range 16).foldl (fun t r => t.later 1 (.d r 0)) (t.later 1 (.best []))

/-! ### T-tiles -/

/-- One MAC: m = (m or 0) + (product << shift), in the lanes where `pred` is 1; latency 3. -/
def Tile.mac (acc : Bool) (p : Nat → Int) (vd s pred : Nat) (t : Tile) : Tile :=
  t.later 3 (.m vd
    (Vector.ofFn fun i => (if acc then (t.macc vd)[i.val]! else 0) + BitVec.ofInt 32 (p i.val * 2 ^ (8 * s)))
    (t.preg pred))

def Tile.mulu (vd va vb s pred : Nat) (t : Tile) : Tile :=
  t.mac false (fun i => (t.lane va i).toNat * (t.lane vb i).toNat) vd s pred
def Tile.macu (vd va vb s pred : Nat) (t : Tile) : Tile :=
  t.mac true (fun i => (t.lane va i).toNat * (t.lane vb i).toNat) vd s pred
def Tile.macs (vd va vb s pred : Nat) (t : Tile) : Tile :=
  t.mac true (fun i => (t.lane va i).toInt * (t.lane vb i).toInt) vd s pred
def Tile.macsu (vd va vb s pred : Nat) (t : Tile) : Tile :=
  t.mac true (fun i => (t.lane va i).toInt * (t.lane vb i).toNat) vd s pred
/-- MACBS: a times the broadcast lane IMM [4:0] of b, both signed. -/
def Tile.macbs (vd va vb l pred : Nat) (t : Tile) : Tile :=
  t.mac true (fun i => (t.lane va i).toInt * (t.lane vb l).toInt) vd 0 pred

/-- MEXT of one lane: byte IMM [6:5] of the rounded, shifted and, with IMM [7], clamped value. -/
def mextLane (imm : Nat) (x : W32) : Byte :=
  let sh := imm % 32
  let y := (x.toInt + (if sh = 0 then 0 else 2 ^ (sh - 1))) / 2 ^ sh
  let z := if bit imm 7 then max (-32768) (min y 32767) else y
  BitVec.ofNat 8 (unsgn 40 z / 256 ^ bits imm 6 5)
/-- MEXT, latency 2. -/
def Tile.mext (vd va imm pred : Nat) (t : Tile) : Tile := t.outV 2 vd pred fun i => mextLane imm ((t.macc va)[i]!)
/-- MLD: the sign-extended 16-bit group of a (low) and b (high). -/
def Tile.mld (vd va vb pred : Nat) (t : Tile) : Tile :=
  t.later 1 (.m vd (Vector.ofFn fun i => BitVec.ofInt 32 (sgn 16 ((t.lane va i.val).toNat + 256 * (t.lane vb i.val).toNat))) (t.preg pred))
/-- MCLR: VD 0 or 1 clears one accumulator, 2 both. -/
def Tile.mclr (vd pred : Nat) (t : Tile) : Tile :=
  if vd = 2 then (t.later 1 (.m 0 zeroAcc (t.preg pred))).later 1 (.m 1 zeroAcc (t.preg pred))
  else t.later 1 (.m vd zeroAcc (t.preg pred))
/-- MADD: m0 = m0 + m1. -/
def Tile.madd (pred : Nat) (t : Tile) : Tile :=
  t.later 1 (.m 0 (Vector.ofFn fun i => (t.macc 0)[i.val]! + (t.macc 1)[i.val]!) (t.preg pred))

/-! ### E-tiles: the output FIFO -/

/-- FIFO capacity in bytes (R152). -/
def fifoSize : Nat := 128

/-- Puts one byte into the FIFO, seen from cycle `vis` on; a full FIFO discards it. The flag says that it was discarded. -/
def fifoPut (vis : Nat) (b : Byte) (c : Coder × Bool) : Coder × Bool :=
  if c.1.fifo.length < fifoSize then ({ c.1 with fifo := c.1.fifo ++ [(vis, b)] }, c.2) else (c.1, true)

/-- Writes one completed byte, with the emulation-prevention byte of R166 before it where it is due. -/
def emitByte (vis : Nat) (exempt : Bool) (b : Byte) (c : Coder × Bool) : Coder × Bool :=
  let due := !exempt && decide (2 ≤ c.1.zeros) && decide (b.toNat ≤ 3)
  let c1 := if due then fifoPut vis 3#8 ({ c.1 with zeros := 0 }, c.2) else c
  let c2 := fifoPut vis b c1
  ({ c2.1 with zeros := if b = 0 then min 2 (c2.1.zeros + 1) else 0 }, c2.2)

/-- The byte that eight bits spell, most significant first. -/
def byteOfBits (l : List Bool) : Byte := BitVec.ofNat 8 (l.foldl (fun n b => 2 * n + b2n b) 0)

/-- Appends bits to the output; each completed byte is emitted. -/
def emitBits (vis : Nat) (exempt : Bool) : List Bool → Coder × Bool → Coder × Bool
  | [], c => c
  | b :: bs, c =>
    let p := c.1.part ++ [b]
    if p.length = 8 then emitBits vis exempt bs (emitByte vis exempt (byteOfBits p) ({ c.1 with part := [] }, c.2))
    else emitBits vis exempt bs ({ c.1 with part := p }, c.2)

/-- The coder after an instruction put bits out; f14 is set where the FIFO overflowed (R166). -/
def Tile.coded (t : Tile) (c : Coder × Bool) : Tile :=
  let t' := { t with coder := c.1 }
  if c.2 then t'.later 1 (.f 14 true) else t'

/-- The lanes a bin-coding opcode codes: 2 x IMM [3:0], and the next one with IMM [4] (R165). -/
def binLanes (imm : Nat) : List Nat := if bit imm 4 then [2 * (imm % 16), 2 * (imm % 16) + 1] else [2 * (imm % 16)]

/-- Default of a context. -/
def ctxGet (c : Map W32) (i : Nat) : W32 := mget (fun _ => 0) c (i % 1024)

/-- Codes one context-coded bin. -/
def codeCtx (vis i : Nat) (b : Bool) (c : Coder × Bool) : Coder × Bool :=
  let r := Config.codeContextBin c.1.vvc c.1.arith (ctxGet c.1.ctx i) b
  emitBits vis false r.2.2
    ({ c.1 with arith := r.1, ctx := mput (fun _ => 0) c.1.ctx (i % 1024) r.2.1, bins := (c.1.bins + 1) % 2 ^ 24 }, c.2)

/-- Codes one bypass bin. -/
def codeByp (vis : Nat) (b : Bool) (c : Coder × Bool) : Coder × Bool :=
  let r := Config.codeBypassBin c.1.vvc c.1.arith b
  emitBits vis false r.2 ({ c.1 with arith := r.1, bins := (c.1.bins + 1) % 2 ^ 24 }, c.2)

/-- BINC: the second bin uses the context the first has updated. -/
def Tile.binc (va vb imm : Nat) (t : Tile) : Tile :=
  t.coded ((binLanes imm).foldl (fun c l => codeCtx (t.cycle + 2) (t.coder.base + (t.lane vb l).toNat) ((t.lane va l).getLsbD 0) c) (t.coder, false))
/-- BINB. -/
def Tile.binb (va imm : Nat) (t : Tile) : Tile :=
  t.coded ((binLanes imm).foldl (fun c l => codeByp (t.cycle + 2) ((t.lane va l).getLsbD 0) c) (t.coder, false))
/-- BINT. -/
def Tile.bint (va : Nat) (t : Tile) : Tile :=
  let r := Config.codeTerminate t.coder.vvc t.coder.arith ((t.lane va 0).getLsbD 0)
  t.coded (emitBits (t.cycle + 2) false r.2 ({ t.coder with arith := r.1, bins := (t.coder.bins + 1) % 2 ^ 24 }, false))
/-- CINIT: 32 contexts from (base + 32 x IMM [4:0]) on, from init values a[i] at slice QP b[0]. -/
def Tile.cinit (va vb imm : Nat) (t : Tile) : Tile :=
  { t with coder := { t.coder with ctx := (List.range 32).foldl (fun c i =>
      mput (fun _ => 0) c ((t.coder.base + 32 * (imm % 32) + i) % 1024) (Config.contextInit t.coder.vvc (t.lane va i) (t.lane vb 0))) t.coder.ctx } }
/-- CBASE. -/
def Tile.cbase (va vb : Nat) (t : Tile) : Tile :=
  { t with coder := { t.coder with base := ((t.lane va 0).toNat + 256 * (t.lane vb 0).toNat) % 1024 } }
/-- CSNAP, latency 4. -/
def Tile.csnap (t : Tile) : Tile := t.later 4 (.snap t.coder.ctx)
/-- CREST, latency 4: bins coded meanwhile use the contexts as they stood, and the restored ones overwrite them. -/
def Tile.crest (t : Tile) : Tile := t.later 4 (.ctx t.coder.snap)
/-- CSTART. -/
def Tile.cstart (imm : Nat) (t : Tile) : Tile :=
  { t with coder := { t.coder with vvc := bit imm 0, arith := Config.coderStart (bit imm 0), bins := 0 } }
/-- CFLUSH: the encoder flush, and with IMM [0] a 1 bit and 0 bits to the byte boundary; seen after 4 cycles. -/
def Tile.cflush (imm : Nat) (t : Tile) : Tile :=
  let r := Config.coderFlush t.coder.vvc t.coder.arith
  let c := emitBits (t.cycle + 4) false r.2 ({ t.coder with arith := r.1 }, false)
  t.coded (if bit imm 0 then
    let c1 := emitBits (t.cycle + 4) false [true] c
    emitBits (t.cycle + 4) false (List.replicate ((8 - c1.1.part.length) % 8) false) c1
  else c)
/-- FIFO bytes that are seen in the present cycle: from the front up to the first that is not in it yet. DEDUCED (log entry 64): the
FIFO keeps the order in which its bytes are coded, so that a byte of PUTB does not overtake those of a CFLUSH before it (R177). -/
def Tile.fifoSeen (t : Tile) : List Byte := (t.coder.fifo.takeWhile fun e => decide (e.1 ≤ t.cycle)).map Prod.snd
/-- FLVL. -/
def Tile.flvl (vd pred : Nat) (t : Tile) : Tile :=
  t.outV 1 vd pred fun i =>
    if i = 0 then BitVec.ofNat 8 t.fifoSeen.length
    else if i < 4 then BitVec.ofNat 8 (t.coder.bins / 256 ^ (i - 1)) else 0
/-- PUTB: the low IMM [2:0] + 1 bits of a[0], most significant first. -/
def Tile.putb (va imm : Nat) (t : Tile) : Tile :=
  let n := imm % 8 + 1
  t.coded (emitBits (t.cycle + 2) (bit imm 7) ((List.range n).map fun i => bit (t.lane va 0).toNat (n - 1 - i)) (t.coder, false))

end Sys2Proof.Machine
end

