-- ==== Sys2Proof/Machine/TileMem.lean ====
section
/-! DEFINITION. The MEM slot of a tile (R167 to R170): scratch accesses, address registers, bin output, and the scratch side of
the DRAM slot port. -/

namespace Sys2Proof.Machine

/-- What befell an access to scratch, for the counters and records of R118 and R119. -/
inductive TileFault | none | bank | corrected | uncorrected
  deriving DecidableEq, Repr

/-- A signed 16-bit offset. -/
def offs (imm : BitVec 16) : Int := imm.toInt

/-- `a + x` in a 20-bit address register. -/
def addA (a : Nat) (x : Int) : Nat := unsgn 20 (a + x)

/-- The address an access uses: `a + offset`, or `a` itself with P = 1 (R167); taken modulo the scratch size (R169). -/
def Tile.addr (t : Tile) (i ar : Nat) (p : Bool) (off : Int) : Nat :=
  (if p then t.areg ar else addA (t.areg ar) off) % scratchSize i

/-- The granule address of an access. -/
def Tile.gaddr (t : Tile) (i ar : Nat) (p : Bool) (off : Int) : Nat := t.addr i ar p (32 * off) / 32 * 32

/-- With P = 1 the address register steps by the offset, seen from the next cycle on. -/
def Tile.step (t : Tile) (ar : Nat) (p : Bool) (off : Int) : Tile :=
  if p then t.later 1 (.a ar (addA (t.areg ar) off)) else t

/-- The bank of scratch address `a` is given to accessor `who` in this window: always to the MEM slot except in an M-tile,
whose bank map says (R117). -/
def Tile.owns (t : Tile) (i who a : Nat) : Bool :=
  match tileType i with
  | .M => t.prog.banks.getD (bankOf 32 a) 0 == who
  | _ => who == 0

/-- The bytes of an access of `n` bytes at `a`, each with its address wrapped at the scratch size (R169). -/
def wrapAddrs (i a n : Nat) : List Nat := (List.range n).map fun j => (a + j) % scratchSize i

/-- Reads `n` bytes of scratch from `a` on. -/
def Tile.readScratch (t : Tile) (i a n : Nat) : List Byte := (wrapAddrs i a n).map (rdByte t.scratch)

/-- Writes bytes to scratch from `a` on. -/
def Tile.writeScratch (t : Tile) (i a : Nat) (bs : List Byte) : Tile :=
  { t with scratch := ((wrapAddrs i a bs.length).zip bs).foldl (fun m e => wrByte m e.1 e.2) t.scratch }

/-- Every byte of an access of `n` bytes at `a` lies in a bank of the MEM slot (R118). -/
def Tile.memOk (t : Tile) (i a n : Nat) : Bool := (wrapAddrs i a n).all fun x => t.owns i 0 x

/-- What the MEM slot reads: 0 in every byte on a bank fault (R118) and on an uncorrectable error (R119). -/
def Tile.memRead (t : Tile) (i a n : Nat) (ecc : TileFault) : List Byte × TileFault :=
  if !t.memOk i a n then (List.replicate n 0, .bank)
  else match ecc with
    | .uncorrected => (List.replicate n 0, .uncorrected)
    | .corrected => (t.readScratch i a n, .corrected)
    | _ => (t.readScratch i a n, .none)

/-- What the MEM slot writes: nothing on a bank fault (R118). -/
def Tile.memWrite (t : Tile) (i a : Nat) (bs : List Byte) : Tile × TileFault :=
  if t.memOk i a bs.length then (t.writeScratch i a bs, .none) else (t, .bank)

/-- Bytes that are read one entry after another, from the entry of `a` on: an entry that SECDED cannot correct reads 0 (R119). -/
def eccEntries (a : Nat) (ecc : Nat → Bool) (bs : List Byte) : List Byte :=
  bs.zipIdx.map fun e => if ecc ((a + e.2) / 32 - a / 32) then 0 else e.1
/-- The vector that 32 bytes make. -/
def vecOfBytes (bs : List Byte) : Vec := vecOf fun i => bs.getD i 0
/-- The 32 bytes of a vector. -/
def bytesOfVec (x : Vec) : List Byte := (List.range 32).map fun i => x[i]!

/-- A load of 32 bytes at `a` into `v`, latency 3. -/
def Tile.loadAt (t : Tile) (i a v : Nat) (ecc : TileFault) : Tile × TileFault :=
  let r := t.memRead i a 32 ecc
  (t.later 3 (.v v (vecOfBytes r.1) (BitVec.allOnes 32)), r.2)

/-- LD. -/
def Tile.ld (i v ar : Nat) (p : Bool) (off : Int) (ecc : TileFault) (t : Tile) : Tile × TileFault :=
  let r := t.loadAt i (t.gaddr i ar p off) v ecc
  (r.1.step ar p (32 * off), r.2)
/-- ST. -/
def Tile.st (i v ar : Nat) (p : Bool) (off : Int) (t : Tile) : Tile × TileFault :=
  let r := t.memWrite i (t.gaddr i ar p off) (bytesOfVec (t.vreg v))
  (r.1.step ar p (32 * off), r.2)
/-- LDU. -/
def Tile.ldu (i v ar : Nat) (p : Bool) (off : Int) (ecc : TileFault) (t : Tile) : Tile × TileFault :=
  let r := t.loadAt i (t.addr i ar p off) v ecc
  (r.1.step ar p off, r.2)
/-- STU. -/
def Tile.stu (i v ar : Nat) (p : Bool) (off : Int) (t : Tile) : Tile × TileFault :=
  let r := t.memWrite i (t.addr i ar p off) (bytesOfVec (t.vreg v))
  (r.1.step ar p off, r.2)
/-- STP: only the lanes whose predicate bit is 1 are stored. -/
def Tile.stp (i v ar : Nat) (p : Bool) (pr : Nat) (off : Int) (t : Tile) : Tile × TileFault :=
  let a := t.gaddr i ar p off
  let new := (List.range 32).map fun j =>
    if (t.preg pr).getLsbD j then (t.vreg v)[j]! else rdByte t.scratch ((a + j) % scratchSize i)
  let r := t.memWrite i a new
  (r.1.step ar p (32 * off), r.2)
/-- LDB: every lane of v is the byte at the address. -/
def Tile.ldb (i v ar : Nat) (p : Bool) (off : Int) (ecc : TileFault) (t : Tile) : Tile × TileFault :=
  let r := t.memRead i (t.addr i ar p off) 1 ecc
  ((t.later 3 (.v v (vecOf fun _ => r.1.headD 0) (BitVec.allOnes 32))).step ar p off, r.2)
/-- ASET: a = (V x 65,536 + IMM) mod 2^20. -/
def Tile.aset (v ar imm : Nat) (t : Tile) : Tile := t.later 1 (.a ar ((v * 65536 + imm) % 2 ^ 20))
/-- AADD: a = (a + IMM) mod 2^20. -/
def Tile.aadd (ar : Nat) (off : Int) (t : Tile) : Tile := t.later 1 (.a ar (addA (t.areg ar) off))
/-- ALDV: a from lane l of a group of three registers, 20 bits (R168). -/
def Tile.aldv (v ar l : Nat) (t : Tile) : Tile := t.later 1 (.a ar (t.group v 3 l % 2 ^ 20))
/-- QLDV: q from lane l of a group of five registers, 34 bits with the low 6 cleared (R168). -/
def Tile.qldv (v qr l : Nat) (t : Tile) : Tile := t.later 1 (.q qr (t.group v 5 l % 2 ^ 34 / 64 * 64))
/-- QADD: q = (q + 64 x IMM) mod 2^34. -/
def Tile.qadd (qr : Nat) (off : Int) (t : Tile) : Tile := t.later 1 (.q qr (unsgn 34 (t.qreg qr + 64 * off)))

/-- STBF: writes every FIFO byte that is seen, at most 32, at the byte address; with P = 1 the address register steps by the
count (R168). The bytes leave the FIFO at the end of the cycle: an FLVL of the same bundle still counts them (R150). -/
def Tile.stbf (i ar : Nat) (p : Bool) (t : Tile) : Tile × TileFault :=
  let bs := t.fifoSeen.take 32
  let r := t.memWrite i (t.addr i ar true 0) bs
  ((r.1.later 1 (.fifo bs.length)).step ar p bs.length, r.2)

/-- The scratch address of a DRD or DWR: `a` with the low 6 bits taken as 0 (R168). -/
def Tile.portAddr (t : Tile) (i ar : Nat) : Nat := t.areg ar / 64 * 64 % scratchSize i

/-- After DRD or DWR has issued, q and a step by 64 where the instruction says so (R168). -/
def Tile.portStep (t : Tile) (qr ar : Nat) (incq inca : Bool) : Tile :=
  let t := if incq then t.later 1 (.q qr (t.qreg qr + 64)) else t
  if inca then t.later 1 (.a ar (addA (t.areg ar) 64)) else t

end Sys2Proof.Machine
end

