-- ==== Sys2Proof/Machine/Dram.lean ====
section
/-! DEFINITION. The stacked memory and its controller (15_memory.md): address mapping, ordering of writes, spacing, row hammer,
refresh debt and temperature; and the memory rows of the opcode table. -/

namespace Sys2Proof.Machine

/-! ### Addresses (R461 to R464) -/

/-- Region of a DRAM address. -/
def dramRegion (a : Nat) : Nat := bits a 33 30
/-- Row of a DRAM address. -/
def dramRow (a : Nat) : Nat := bits a 29 18
/-- Parity of a number's bits. -/
def parity (v : Nat) : Bool := ((List.range 34).filter fun i => bit v i).length % 2 == 1
/-- Bank bit `i`: a[13 + i] XOR the parity of the bits that MC_XORi selects (R463). -/
def Die.bankBit (x : Die) (a i : Nat) : Bool :=
  xor (bit a (13 + i)) (parity ((bits a 29 18 &&& x.fld R.MC_XOR_ROW_SEL i) + 4096 * (bits a 12 6 &&& x.fld R.MC_XOR_COL_SEL i)))
/-- Bank of a DRAM address, 0 to 31. -/
def Die.dramBank (x : Die) (a : Nat) : Nat := (List.range 5).foldl (fun n i => n + b2n (x.bankBit a i) * 2 ^ i) 0
/-- The bank's index among all the banks of the die. -/
def Die.bankIndex (x : Die) (a : Nat) : Nat := 32 * dramRegion a + x.dramBank a

/-- The owner of a region: 0 to 7 a cadence, 8 FREE (R466, R486). -/
def Die.regionOwner (x : Die) (r : Nat) : Nat :=
  bits (x.fld (if r < 8 then R.MC_OWNER_LO else R.MC_OWNER_HI)) (4 * (r % 8) + 3) (4 * (r % 8))
/-- The fragment that a record naming a region's owner concerns: the owner cadence, or the master cadence for FREE. -/
def Die.regionCad (x : Die) (r : Nat) : Nat := if x.regionOwner r < 8 then x.regionOwner r else x.masterCad

/-- The vat cycle of a station time at the nominal 1,200 MHz (R461). -/
def cycleOf (t : Nat) : Nat := t * 6 / (5 * nsec)
/-- The vat cycle of station time at which a tile stands: its window's pulse and the cycle within the window. -/
def Die.tileStamp (x : Die) (i : Nat) : Nat :=
  cycleOf ((mget (fun _ => ({} : Cad)) x.clk.cads ((x.tileCad i).getD 0)).lastPulse) + (x.tile i).cycle
/-- The present vat cycle. -/
def Die.stampNow (x : Die) : Nat := cycleOf x.clk.now

/-! ### The array and the writes on their way to it (R471) -/

/-- Applies a write to the array. -/
def DramWrite.apply (w : DramWrite) (m : Mem) : Mem :=
  (w.bytes.zipIdx).foldl (fun m e => match e.1 with
    | some b => wrByte m (w.addr + e.2) b
    | none => m) m
/-- What reads return: the array with every earlier write in it. -/
def Dram.view (x : Dram) : Mem := x.writes.foldl (fun m w => w.apply m) x.cells
/-- Reads `n` bytes. -/
def Die.dramRead (x : Die) (a n : Nat) : List Byte := rdBytes x.dram.view a n
/-- Issues a write. -/
def Die.dramWrite (x : Die) (sup a : Nat) (bs : List (Option Byte)) (cores : List Nat := []) : Die :=
  { x with dram := { x.dram with writes := x.dram.writes ++ [⟨a, bs, sup, cores⟩] } }

/-! ### Row hammer (R479, R480) -/

/-- A forced operation takes `n` cycles of a region, and is reported (R480). -/
def State.forced (s : State) (d : DieId) (r cause n : Nat) : State :=
  let x := s.die d
  let cad := x.regionCad r
  let frame := unsgn 16 (x.frameLine cad).1
  let s := s.upd d fun x =>
    let x := { x with dram := { x.dram with forcedUntil := mput (fun _ => 0) x.dram.forcedUntil r (x.stampNow + n) } }
    ((((x.setFld R.MC_REG_MAX_FORCED (min (x.fld R.MC_REG_MAX_FORCED r + 1) (2 ^ 24 - 1)) r).setFld R.MC_BREACH_REGION r).setFld
      R.MC_BREACH_CAUSE cause).setFld R.MC_BREACH_FRAME frame).count R.MC_BREACH_COUNT
  (s.eventCad d R.MC_EVENTS_BREACH 0 r cad cause).breach d .memory 0 (some cad)

/-- The pending neighbour refreshes of a region. -/
def Die.neighbours (x : Die) (r : Nat) : List (Nat × Nat) := mget (fun _ => []) x.dram.neighbours r

/-- Queues a neighbour refresh; one that finds the queue full is performed at once, as a breach where reserve slots should have served
it and as its own work where the controller schedules the region itself (R467, R480). -/
def State.queueNeighbour (s : State) (d : DieId) (r bank row : Nat) : State :=
  if (s.die d).neighbours r |>.length |> fun n => decide (n < 32) then
    s.upd d fun x => { x with dram := { x.dram with neighbours := mput (fun _ => []) x.dram.neighbours r (x.neighbours r ++ [(bank, row)]) } }
  else
    let s := s.count d R.MC_REG_NEIGHBOURS r
    if (s.die d).flag R.MC_REG_STATE_SELF r then s else s.forced d r 2 48

/-- The lowest count of a full table, first index on a tie. -/
def lowest : List (Nat × Nat) → Nat
  | [] => 0
  | e :: l => l.foldl (fun n f => min n f.2) e.2

/-- Replaces the first entry that satisfies `p`. -/
def replaceFirst {α : Type} (p : α → Bool) (y : α) : List α → List α
  | [] => []
  | e :: l => if p e then y :: l else e :: replaceFirst p y l

/-- The table of a bank after an activation of a row, and the row's count (R479). -/
def hammerStep (row : Nat) (t : List (Nat × Nat)) : List (Nat × Nat) × Nat :=
  match t.find? fun e => e.1 == row with
  | some e => (replaceFirst (fun e => e.1 == row) (row, e.2 + 1) t, e.2 + 1)
  | none =>
    if t.length < 32 then (t ++ [(row, 1)], 1)
    else let n := lowest t; (replaceFirst (fun e => e.2 == n) (row, n + 1) t, n + 1)

/-- One activation of a row of a bank: the table, and neighbour refreshes where the count reaches the threshold. -/
def State.activation (s : State) (d : DieId) (a : Nat) : State :=
  let x := s.die d
  let b := x.bankIndex a
  let row := dramRow a
  let r := hammerStep row (mget (fun _ => []) x.dram.hammer b)
  let th := x.fld R.MC_HAMMER_THRESH
  let t := if th ≤ r.2 then replaceFirst (fun e => e.1 == row) (row, 0) r.1 else r.1
  let s := s.upd d fun x => { x with dram := { x.dram with hammer := mput (fun _ => []) x.dram.hammer b t } }
  if th ≤ r.2 then
    let s := if 0 < row then s.queueNeighbour d (b / 32) (b % 32) (row - 1) else s
    if row < 4095 then s.queueNeighbour d (b / 32) (b % 32) (row + 1) else s
  else s

/-- The row accessed last in the bank of an address, and the cycle of that access. -/
def Die.lastRow (x : Die) (a : Nat) : Option (Nat × Nat) := oget x.dram.rows (x.bankIndex a)
/-- An access at cycle `t` would break the spacing rule (R472). -/
def Die.tooClose (x : Die) (a t : Nat) : Bool :=
  match x.lastRow a with
  | some (row, c) => row != dramRow a && decide (t < c + 48)
  | none => false
/-- An access at cycle `t`: its row is the bank's last one, and an access to another row than the last activates it
(DEDUCED, log entry 12). -/
def State.touch (s : State) (d : DieId) (a t : Nat) : State :=
  let x := s.die d
  let act := match x.lastRow a with
    | some (row, _) => row != dramRow a
    | none => true
  let s := s.upd d fun x => { x with dram := { x.dram with rows := mput (fun _ => none) x.dram.rows (x.bankIndex a) (some (dramRow a, t)) } }
  if act then s.activation d a else s
/-- An access of OPEN traffic, which the controller delays until the spacing rule allows it. -/
def State.touchOpen (s : State) (d : DieId) (a : Nat) : State :=
  let x := s.die d
  let t := match x.lastRow a with
    | some (row, c) => if row = dramRow a then x.stampNow else max x.stampNow (c + 48)
    | none => x.stampNow
  s.touch d a t

/-- The 64-byte blocks that hold `n` bytes from `a` on. -/
def dramBlocks (a n : Nat) : List Nat :=
  if n = 0 then [] else (List.range ((a % 64 + n + 63) / 64)).map fun i => a / 64 * 64 + 64 * i
/-- OPEN accesses to every block of a range, in address order. -/
def State.touchRange (s : State) (d : DieId) (a n : Nat) : State := (dramBlocks a n).foldl (fun s b => s.touchOpen d b) s

/-- The masks have changed: each byte stays in its region, bank, row and column, and has the address that the new masks give that
place (R463, R465; DEDUCED, log entry 12). -/
def Die.remask (x was : Die) : Die :=
  if (List.range 5).all fun i => x.fld R.MC_XOR_ROW_SEL i == was.fld R.MC_XOR_ROW_SEL i && x.fld R.MC_XOR_COL_SEL i == was.fld R.MC_XOR_COL_SEL i then x
  else
    let move (a : Nat) : Nat := a / 2 ^ 18 * 2 ^ 18 + (bits a 17 13 ^^^ was.dramBank a ^^^ x.dramBank a) * 2 ^ 13 + a % 2 ^ 13
    { x with dram := { x.dram with cells := x.dram.view.foldl (fun m e => wrByte m (move e.1) e.2) [], writes := [] } }

/-! ### Errors -/

/-- MC_LAST_FAULT (R486). -/
def Die.memFault (x : Die) (a kind : Nat) : Die := (x.setFld R.MC_LAST_FAULT_ADDR (a / 64)).setFld R.MC_LAST_FAULT_KIND kind
/-- An uncorrectable read is counted and recorded (R473); a corrected one is counted. -/
def State.dramEcc (s : State) (d : DieId) (a : Nat) (e : Ecc) (pert : Bool := false) : State :=
  match e with
  | .clean => s
  | .corrected => s.count d R.MC_ECC_CORR
  | .uncorrected =>
    let s := (s.count d R.MC_ECC_UNCORR).upd d fun x => x.memFault a 3
    s.eventCad d R.MC_EVENTS_ECC_UNCORR 0 (dramRegion a) ((s.die d).regionCad (dramRegion a)) 3 pert

/-! ### M-tile accesses (R469, R472) -/

/-- What becomes of an M-tile's access. -/
inductive PortFault | none | region | spacing | forced
  deriving DecidableEq, Repr

/-- Judges an access of M-tile `i` to address `a`: the region of its cadence, the spacing rule, and a forced operation in
progress. -/
def Die.portCheck (x : Die) (i a : Nat) : PortFault :=
  if x.tileCad i ≠ some (x.regionOwner (dramRegion a)) then .region
  else if x.tooClose a (x.tileStamp i) then .spacing
  else if x.tileStamp i < mget (fun _ => 0) x.dram.forcedUntil (dramRegion a) then .forced
  else .none

/-- Counts and records a fault of an M-tile's access, and the owning fragment conceals as for a late read (R469). -/
def State.portFault (s : State) (d : DieId) (i a : Nat) (f : PortFault) : State :=
  let r := dramRegion a
  let cad := (s.die d).regionCad r
  let s := match f with
    | .region => (s.upd d fun x => (x.memFault a 1).count R.MC_REGION_FAULTS).eventCad d R.MC_EVENTS_REGION_FAULT 0 r cad 1
    | .spacing => (s.upd d fun x => (x.memFault a 2).count R.MC_SPACING).eventCad d R.MC_EVENTS_SPACING 0 r cad 2
    | _ => s
  if f = .none then s else s.upd d fun x => x.hitFragment (x.tileFrag i) 3

/-! ### Refresh (R475 to R480) -/

/-- The refresh debt of a region, signed. -/
def Die.debt (x : Die) (r : Nat) : Int := sgn 8 (x.fld R.MC_REG_STATE_DEBT r)
/-- The region is hot. -/
def Die.hot (x : Die) (r : Nat) : Bool := x.flag R.MC_REG_STATE_HOT r
/-- The region is in catch-up. -/
def Die.catchup (x : Die) (r : Nat) : Bool := x.flag R.MC_REG_STATE_CATCHUP r
/-- MC_STATUS [18]: a region is in catch-up. -/
def Die.anyCatchup (x : Die) : Die := x.setFld R.MC_STATUS_CATCHUP (b2n ((List.range 16).any fun r => x.catchup r))
/-- Sets D, MAX_DEBT in hot units, and ends catch-up when no excess is left. -/
def Die.setDebt (x : Die) (r : Nat) (v : Int) : Die :=
  let u := (if x.hot r then v else 2 * v).toNat
  let x := (x.setFld R.MC_REG_STATE_DEBT (unsgn 8 v) r).setFld R.MC_REG_MAX_MAX_DEBT (max (x.fld R.MC_REG_MAX_MAX_DEBT r) u) r
  if v ≤ 4 ∧ x.catchup r then (x.setFld R.MC_REG_STATE_CATCHUP 0 r).anyCatchup else x

/-- The interval of a mode, in 2^-16 ns of station time (R475). -/
def refreshInterval (hot : Bool) : Nat := if hot then 3893 * nsec / 2 else 3893 * nsec
/-- The pull-in limit of a mode. -/
def pullIn (hot : Bool) : Int := if hot then 4 else 8
/-- The ceiling on D (R480). -/
def Die.debtCeiling (x : Die) (r : Nat) : Int := if x.hot r then (if x.catchup r then 20 else 4) else 8
/-- When the region's present interval ends. -/
def Die.intervalEnd (x : Die) (r : Nat) : Nat := mget (fun _ => 0) x.dram.interval r
def Die.setInterval (x : Die) (r t : Nat) : Die := { x with dram := { x.dram with interval := mput (fun _ => 0) x.dram.interval r t } }
/-- One refresh of a region completes. -/
def Die.refresh (x : Die) (r : Nat) : Die := (x.setDebt r (x.debt r - 1)).count R.MC_REG_REFRESHES r

/-- MC_STATUS.HOT of a region. -/
def Die.setHotBit (x : Die) (r : Nat) (b : Bool) : Die :=
  let v := x.fld R.MC_STATUS_HOT
  x.setFld R.MC_STATUS_HOT (v - v / 2 ^ r % 2 * 2 ^ r + b2n b * 2 ^ r)

/-- A region enters hot mode (R476): D is converted, and its intervals count from now. -/
def State.enterHot (s : State) (d : DieId) (r : Nat) : State :=
  if (s.die d).hot r then s else
  let v := (s.die d).debt r
  let w : Int := if 0 ≤ v then 2 * v else max (2 * v) (-4)
  let s := s.upd d fun x =>
    let x := (x.setFld R.MC_REG_STATE_HOT 1 r).setFld R.MC_REG_STATE_CATCHUP (b2n (decide (4 < w))) r
    (((x.setDebt r w).setHotBit r true).anyCatchup).setInterval r (x.clk.now + refreshInterval true)
  s.eventCad d R.MC_EVENTS_HOT 0 r ((s.die d).regionCad r) 0

/-- Division by 2 with a positive number rounded up and a negative one towards 0 (R477). -/
def halveDebt (v : Int) : Int := if 0 ≤ v then (v + 1) / 2 else -((-v) / 2)

/-- A region returns to cool mode (R477). -/
def State.enterCool (s : State) (d : DieId) (r : Nat) : State :=
  let v := halveDebt ((s.die d).debt r)
  let s := s.upd d fun x =>
    let x := ((x.setFld R.MC_REG_STATE_HOT 0 r).setFld R.MC_REG_STATE_CATCHUP 0 r).setDebt r v
    let x := (x.setHotBit r false).anyCatchup
    { x with dram := { x.dram with coolNext := mput (fun _ => false) x.dram.coolNext r false } }
  s.eventCad d R.MC_EVENTS_COOL 0 r ((s.die d).regionCad r) 0

/-- The end of a region's refresh interval (R475, R477, R480). -/
def State.endInterval (s : State) (d : DieId) (r : Nat) : State :=
  let t := (s.die d).intervalEnd r
  let s := s.advanceStation d t
  let s := s.upd d fun x => x.setDebt r (x.debt r + 1)
  let s := if (s.die d).hot r && mget (fun _ => false) (s.die d).dram.coolNext r then s.enterCool d r else s
  let s := s.upd d fun x => x.setInterval r (x.clk.now + refreshInterval (x.hot r))
  let x := s.die d
  if x.debtCeiling r < x.debt r then
    let s := s.upd d fun x => x.refresh r
    if x.flag R.MC_REG_STATE_SELF r then s else s.forced d r 1 192
  else s

/-- A neighbour refresh of a region completes; false where none is pending. -/
def Die.serveNeighbour (x : Die) (r : Nat) : Die × Bool :=
  match x.neighbours r with
  | [] => (x, false)
  | _ :: l => (({ x with dram := { x.dram with neighbours := mput (fun _ => []) x.dram.neighbours r l } }).count R.MC_REG_NEIGHBOURS r, true)

/-- The kinds of reserve run (R468). -/
def Die.reserveRun (x : Die) (r : Nat) (k : RunKind) : Die :=
  match k with
  | .refresh => if -pullIn (x.hot r) < x.debt r then x.refresh r else x
  | .thermal =>
    if x.hot r then
      if 4 < x.debt r then x.refresh r
      else
        let n := x.serveNeighbour r
        if n.2 then n.1 else if -4 < x.debt r then x.refresh r else x
    else (x.serveNeighbour r).1
  | .hammer => (x.serveNeighbour r).1

/-! ### Temperature (R474) -/

/-- The regions of a layer. -/
def layerRegions (l : Nat) : List Nat := (List.range 4).map fun i => 4 * l + i

/-- One sample of a layer's sensor, in 1/16 degree. -/
def State.tempSample (s : State) (d : DieId) (l : Nat) (v : Int) : State :=
  let k := mget (fun _ => (0, 0)) (s.die d).dram.sensor l
  let faulted := mget (fun _ => false) (s.die d).dram.sensorHot l
  let setK (s : State) (k : Nat × Nat) : State := s.upd d fun x => { x with dram := { x.dram with sensor := mput (fun _ => (0, 0)) x.dram.sensor l k } }
  let setF (s : State) (b : Bool) : State := s.upd d fun x =>
    let x := { x with dram := { x.dram with sensorHot := mput (fun _ => false) x.dram.sensorHot l b } }
    x.setFld R.MC_STATUS_SENSOR_FAULT (b2n ((List.range 4).any fun i => mget (fun _ => false) x.dram.sensorHot i))
  if v < -640 ∨ 2400 < v then
    let s := s.count d R.MC_SENSOR_DROPS
    let s := setK s (k.1 + 1, 0)
    if k.1 + 1 = 3 ∧ !faulted then
      let s := (setF s true).eventCad d R.MC_EVENTS_SENSOR_FAULT 0 (4 * l) ((s.die d).regionCad (4 * l)) l
      (layerRegions l).foldl (fun s r => s.enterHot d r) s
    else s
  else
    let s := (s.setFld d R.MC_TEMP_TEMP (unsgn 16 v) l).upd d fun x => x.heatSeen (9 + l) v
    let s := setK s (0, if faulted ∧ v < 1328 then k.2 + 1 else 0)
    let clears := faulted && decide (v < 1328) && decide (3 ≤ k.2 + 1)
    let s := if clears then setF s false else s
    let s := if 1360 < v then (layerRegions l).foldl (fun s r => s.enterHot d r) s else s
    let s := if v < 1328 ∧ (!faulted ∨ clears) then
        s.upd d fun x => (layerRegions l).foldl (fun x r =>
          if x.hot r then { x with dram := { x.dram with coolNext := mput (fun _ => false) x.dram.coolNext r true } } else x) x
      else if 1360 < v then
        s.upd d fun x => (layerRegions l).foldl (fun x r => { x with dram := { x.dram with coolNext := mput (fun _ => false) x.dram.coolNext r false } }) x
      else s
    let hot := decide (1680 < v)
    let s := s.setFld d R.MC_STATUS_OVER_LIMIT
      (b2n (hot || (List.range 4).any fun i => i != l && decide (1680 < sgn 16 (s.fld d R.MC_TEMP_TEMP i))))
    if hot then s.event d R.MC_EVENTS_OVER_LIMIT 0 l else s

/-! ### Completion -/

/-- The oldest write of a region reaches the array. -/
def Dram.drain (x : Dram) (r : Nat) : Dram :=
  match x.writes.find? fun w => dramRegion w.addr == r with
  | some w => { x with cells := w.apply x.cells, writes := x.writes.erase w }
  | none => x

/-- The oldest read of an M-tile's slot port completes (R136, R137). `e` is what SECDED finds. -/
def State.readDone (s : State) (d : DieId) (i : Nat) (e : Ecc) : State :=
  match ((s.die d).tile i).reads with
  | [] => s
  | p :: rest =>
    let s := s.upd d fun x => x.setTile i { x.tile i with reads := rest }
    if p.faulted then s else
    let r := dramRegion p.addr
    let pd := (s.die d).pertSum 4 r 0
    let late := decide (320 * nsec < s.now - p.issued + pd * nsec)
    let pe := (s.die d).eccOf r 1 e
    let inj := pe.1 != e
    let s := (s.setDie d pe.2).dramEcc d p.addr pe.1 inj
    if late then
      let s := (s.count d R.MC_LATE).event d R.MC_EVENTS_LATE 0 r
      let s := s.breach d .dramLate ((s.die d).tileFrag i) ((s.die d).tileCad i) (decide (0 < pd))
      s.upd d fun x => x.hitFragment (x.tileFrag i) 3
    else if pe.1 = .uncorrected then s.upd d fun x => x.hitFragment (x.tileFrag i) 3
    else s.upd d fun x => x.setTile i ((x.tile i).writeScratch i p.dest p.data)

/-! ### The rows of the opcode table -/

/-- DRAM_TEMP_SAMPLE (R474). -/
def execDramTempSample (d : DieId) (dt : Nat) (layer : Fin 4) (temp : BitVec 16) (s : State) : Result :=
  onDie s d true ((s.advance dt).tempSample d layer temp.toInt)
/-- REFRESH_INTERVAL (R475). -/
def execRefreshInterval (d : DieId) (r : Fin 16) (s : State) : Result := onDie s d true (s.endInterval d r)
/-- RESERVE_RUN (R478). -/
def execReserveRun (d : DieId) (r : Fin 16) (k : RunKind) (s : State) : Result :=
  onDie s d true (s.upd d fun x => x.reserveRun r k)
/-- DRAM_WRITE_DRAIN (R471). -/
def execDramWriteDrain (d : DieId) (r : Fin 16) (s : State) : Result :=
  onDie s d true (s.upd d fun x => { x with dram := x.dram.drain r })
/-- DRAM_READ_COMPLETE (R137). -/
def execDramReadComplete (d : DieId) (dt : Nat) (t : Fin 1536) (ecc : Ecc) (s : State) : Result :=
  onDie s d true ((s.advance dt).readDone d t ecc)

end Sys2Proof.Machine
end

