-- ==== Sys2Proof/Machine/Picture.lean ====
section
/-! DEFINITION. Picture lines: ST 2110-20 pgroups (R325, R359), the plane layout of the cellar (R257), and the writer of the
frame stores (R266 to R269). -/

namespace Sys2Proof.Machine

/-! ### Sample formats -/

/-- A picture format: width and height in samples, sampling (0 4:2:2, 1 4:4:4, 2 4:2:0) and depth. -/
structure PicFmt where
  width : Nat
  height : Nat
  sampling : Nat
  depth : Nat
  deriving DecidableEq, Repr

/-- Chroma samples of a line. -/
def PicFmt.cw (f : PicFmt) : Nat := if f.sampling = 1 then f.width else f.width / 2

/-- The bits of bytes, most significant first. -/
def bitsOf (b : List Byte) : List Bool := b.flatMap fun v => (List.range 8).map fun i => bit v.toNat (7 - i)
/-- The number that bits spell, most significant first. -/
def ofBits (l : List Bool) : Nat := l.foldl (fun n b => 2 * n + b2n b) 0
/-- `n` bits of a number, most significant first. -/
def toBits (n v : Nat) : List Bool := (List.range n).map fun i => bit v (n - 1 - i)
/-- Packs bits into bytes, most significant first, padded with 0. -/
def packBits : Nat → List Bool → List Byte
  | 0, _ => []
  | n + 1, l => BitVec.ofNat 8 (ofBits ((List.range 8).map fun i => l.getD i false)) :: packBits n (l.drop 8)

/-- The order of samples in a line of pgroups: 0 Y, 1 Cb, 2 Cr (log entry 32). A 4:2:0 pgroup carries two lines: four luma
samples, which this model takes as those of one double line, and one of each chroma. -/
def PicFmt.order (f : PicFmt) : List Nat := match f.sampling with
  | 1 => [1, 0, 2] | 2 => [0, 0, 0, 0, 1, 2] | _ => [1, 0, 2, 0]
/-- Bytes of a line's pgroups, or of a double line's for 4:2:0. -/
def PicFmt.lineBytes (f : PicFmt) : Nat :=
  let groups := match f.sampling with | 1 => f.width | _ => f.width / 2
  cdiv (groups * f.order.length * f.depth) 8

/-- Reads `depth`-bit samples from bits by turns of `order`. -/
def unpackTurns (depth : Nat) (order : List Nat) : Nat → List Bool → List (Nat × Nat)
  | 0, _ => []
  | n + 1, l => (order.zipIdx.map fun e => (e.1, ofBits ((l.drop (e.2 * depth)).take depth))) ++
      unpackTurns depth order n (l.drop (order.length * depth))
/-- The samples that pgroup bytes spell. -/
def PicFmt.unpack (f : PicFmt) (b : List Byte) : PicLine :=
  let l := unpackTurns f.depth f.order (8 * b.length / (f.order.length * max 1 f.depth)) (bitsOf b)
  let pick (c : Nat) : List Nat := (l.filter fun e => e.1 == c).map Prod.snd
  { y := pick 0, cb := pick 1, cr := pick 2 }
/-- The pgroup bytes of a line's samples. -/
def PicFmt.pack (f : PicFmt) (p : PicLine) : List Byte :=
  let ny := (f.order.filter (· == 0)).length
  let turn (i : Nat) : List Bool := (f.order.zipIdx).flatMap fun e =>
    let before := ((f.order.take e.2).filter (· == 0)).length
    toBits f.depth (match e.1 with
      | 0 => p.y.getD (ny * i + before) 0 | 1 => p.cb.getD i 0 | _ => p.cr.getD i 0)
  packBits f.lineBytes ((List.range (p.y.length / max 1 ny)).flatMap turn)

/-- The lines that one unit of pgroups carries: two for 4:2:0, of which the first has the chroma, else one. -/
def PicFmt.linesOf (f : PicFmt) (p : PicLine) : List PicLine :=
  if f.sampling = 2 then
    let half (odd : Bool) : List Nat := ((p.y.zipIdx).filter fun e => decide (2 ≤ e.2 % 4) == odd).map Prod.fst
    [{ p with y := half false }, { y := half true }]
  else [p]
/-- Lines that one unit of pgroups carries. -/
def PicFmt.unit (f : PicFmt) : Nat := if f.sampling = 2 then 2 else 1
/-- Two lines of a 4:2:0 picture as the double line that their pgroups hold. -/
def PicFmt.join (f : PicFmt) (a b : PicLine) : PicLine :=
  if f.sampling = 2 then
    { a with y := (List.range (a.y.length / 2)).flatMap fun i => [a.y.getD (2 * i) 0, a.y.getD (2 * i + 1) 0, b.y.getD (2 * i) 0, b.y.getD (2 * i + 1) 0] }
  else a

/-! ### Planes in the cellar (R160, R257) -/

/-- A planar block layout: samples across a block. -/
def mBlock : Nat := 16
/-- Bytes of a plane of `w` by `h` samples in blocks of `bw` by 4. -/
def planeBytes (bw w h : Nat) : Nat := cdiv w bw * cdiv h 4 * 64
/-- Residual bits of a depth. -/
def rBits (depth : Nat) : Nat := depth - 8
/-- Samples across a block of residuals. -/
def rBlock (depth : Nat) : Nat := if rBits depth = 4 then 32 else 64
/-- Bytes of an m plane and an r plane together. -/
def compBytes (depth w h : Nat) : Nat := planeBytes mBlock w h + (if rBits depth = 0 then 0 else planeBytes (rBlock depth) w h)

/-- Writes one line of one component at `base` (R257). -/
def writeComp (m : Mem) (base depth w h y : Nat) (l : List Nat) : Mem :=
  let r := rBits depth
  let m := (l.take w).zipIdx.foldl (fun m e =>
    wrByte m (base + (y / 4 * cdiv w mBlock + e.2 / mBlock) * 64 + 16 * (y % 4) + e.2 % mBlock) (BitVec.ofNat 8 (e.1 / 2 ^ r))) m
  if r = 0 then m
  else
    let base := base + planeBytes mBlock w h
    let per := 8 / r
    (chunks per w (l.take w ++ List.replicate (per - 1) 0)).zipIdx.foldl (fun m e =>
      let x := e.2 * per
      wrByte m (base + (y / 4 * cdiv w (rBlock depth) + x / rBlock depth) * 64 + 16 * (y % 4) + x % rBlock depth / per)
        (BitVec.ofNat 8 (e.1.zipIdx.foldl (fun n v => n + v.1 % 2 ^ r * 2 ^ (r * v.2)) 0))) m
where
  /-- Groups of `n` numbers. -/
  chunks (n : Nat) : Nat → List Nat → List (List Nat)
    | 0, _ => []
    | k + 1, l => if l.length < n ∨ n = 0 then [] else l.take n :: chunks n k (l.drop n)

/-- Reads a sample of a component back. -/
def readSample (m : Mem) (base depth w h x y : Nat) : Nat :=
  let r := rBits depth
  let hi := (rdByte m (base + (y / 4 * cdiv w mBlock + x / mBlock) * 64 + 16 * (y % 4) + x % mBlock)).toNat
  if r = 0 then hi
  else
    let per := 8 / r
    let b := rdByte m (base + planeBytes mBlock w h + (y / 4 * cdiv w (rBlock depth) + x / rBlock depth) * 64 + 16 * (y % 4) + x % rBlock depth / per)
    hi * 2 ^ r + b.toNat / 2 ^ (r * (x % per)) % 2 ^ r

/-- Height of the chroma planes. -/
def PicFmt.ch (f : PicFmt) : Nat := if f.sampling = 2 then f.height / 2 else f.height
/-- Where the planes of the two chroma components start in a slot. -/
def PicFmt.cbAt (f : PicFmt) : Nat := compBytes f.depth f.width f.height
def PicFmt.crAt (f : PicFmt) : Nat := f.cbAt + compBytes f.depth f.cw f.ch

/-- Writes a line of a picture into the slot at `base`. -/
def pictureStore (m : Mem) (f : PicFmt) (base y : Nat) (p : PicLine) : Mem :=
  let m := writeComp m base f.depth f.width f.height y p.y
  if f.sampling = 2 ∧ y % 2 = 1 then m
  else
    let cy := if f.sampling = 2 then y / 2 else y
    writeComp (writeComp m (base + f.cbAt) f.depth f.cw f.ch cy p.cb) (base + f.crAt) f.depth f.cw f.ch cy p.cr
/-- Reads a line of a picture from the slot at `base`. -/
def readLine (m : Mem) (f : PicFmt) (base y : Nat) : PicLine :=
  let cy := if f.sampling = 2 then y / 2 else y
  { y := (List.range f.width).map fun x => readSample m base f.depth f.width f.height x y
    cb := (List.range f.cw).map fun x => readSample m (base + f.cbAt) f.depth f.cw f.ch x cy
    cr := (List.range f.cw).map fun x => readSample m (base + f.crAt) f.depth f.cw f.ch x cy }

/-- Byte `o` of a plane of `w` by `h` samples in blocks of `bw` by 4, `per` samples to a byte, holds padding samples alone (R257). -/
def padByte (bw per w h o : Nat) : Bool :=
  let b := o / 64
  decide (w ≤ b % cdiv w bw * bw + o % 16 * per ∨ h ≤ b / cdiv w bw * 4 + o % 64 / 16)
/-- The same of the m and r planes of a component. -/
def padComp (depth w h o : Nat) : Bool :=
  let m := planeBytes mBlock w h
  if o < m then padByte mBlock 1 w h o else padByte (rBlock depth) (8 / max 1 (rBits depth)) w h (o - m)
/-- Byte `o` of a slot holds padding samples alone. -/
def PicFmt.padAt (f : PicFmt) (o : Nat) : Bool :=
  if o < f.cbAt then padComp f.depth f.width f.height o
  else if o < f.crAt then padComp f.depth f.cw f.ch (o - f.cbAt)
  else decide (o < f.crAt + compBytes f.depth f.cw f.ch) && padComp f.depth f.cw f.ch (o - f.crAt)
/-- The padding of a pool of slots of `size` bytes is written as 0 when the pool is allocated (R257); where the plan declares no
picture size, the whole pool is (DESIGN CHOICE, log entry 33). -/
def clearPool (m : Mem) (f : PicFmt) (base size slots : Nat) : Mem :=
  m.filter fun e => !(decide (base ≤ e.1 ∧ e.1 < base + slots * size) && (f.width == 0 || f.padAt ((e.1 - base) % size)))

/-! ### Frame stores (R266 to R269) -/

def Die.store (x : Die) (n : Nat) : FrameStore := mget (fun _ => {}) x.cellar.stores n
def Die.modStore (x : Die) (n : Nat) (f : FrameStore → FrameStore) : Die :=
  { x with cellar := { x.cellar with stores := mmod (fun _ => {}) x.cellar.stores n f } }
/-- The frame stores that an input feeds: KIND 0 a lane within the die, 1 a receive flow, 2 a decode channel. -/
def Die.storesOf (x : Die) (kind src : Nat) : List Nat :=
  ((x.recsOf 0xB 0xB03).filter fun e => num e.2.body 2 1 == kind && num e.2.body 0 2 == src).map fun e => e.2.idx
/-- The DRAM address of a slot of a frame store. -/
def Die.storeBase (x : Die) (n slot : Nat) : Nat :=
  ((x.bodyOf 0xB 0xB03 n).map fun b => num b 4 4 * 2 ^ 22 + slot * num b 8 2 * 2 ^ 20).getD 0

/-- The writer starts an input frame in the slot that is neither being read nor the newest complete one; a frame overwritten
there without having been read is dropped (R267, R268). -/
def State.storeStart (s : State) (d : DieId) (n : Nat) (frame : Int) : State :=
  let x := s.die d
  let v := x.store n
  let slot := (([0, 1, 2] : List Nat).find? fun i => i != x.fld R.CL_FS_STATE_READ n && some i != v.newest).getD 0
  let s := (s.upd d fun x => x.modStore n fun v =>
    { v with cur := some frame, unread := v.unread.erase slot, marked := v.marked.erase slot }).setFld d R.CL_FS_STATE_WRITE slot n
  if v.unread.contains slot then ((s.count d R.CL_FS_DROPS_N n).count d R.CL_FS_DROPS).event d R.CL_EVENTS_FS_DROP 0 n else s

/-- An input frame is complete: its last line is written (R266). -/
def State.storeDone (s : State) (d : DieId) (n : Nat) (conceal : Bool) : State :=
  s.upd d fun x =>
    let slot := x.fld R.CL_FS_STATE_WRITE n
    (((x.modStore n fun v => { v with
        cur := none
        ended := v.cur
        newest := some slot
        unread := slot :: v.unread.erase slot
        completed := v.completed + 1
        marked := if conceal then slot :: v.marked else v.marked }).setFld R.CL_FS_STATE_WRITE 3 n).setFld R.CL_FS_STATE_NEVER_READY 0 n).setFld
      R.CL_FS_STATE_NO_INPUT 0 n

/-- The DRAM array replaced by one in which every write on its way stands (R471). -/
def Die.setCells (x : Die) (m : Mem) : Die := { x with dram := { x.dram with cells := m, writes := [] } }
/-- The bytes of a slot that `h` lines of a picture from line `y` on take, as offsets and lengths: in each plane whole rows of blocks
(R257). -/
def PicFmt.spans (f : PicFmt) (y h : Nat) : List (Nat × Nat) :=
  let rows (at_ row y h : Nat) : Nat × Nat := (at_ + y / 4 * row, (cdiv (y + h) 4 - y / 4) * row)
  let comp (at_ w hh y h : Nat) : List (Nat × Nat) :=
    let m := rows at_ (64 * cdiv w mBlock) y h
    if rBits f.depth = 0 then [m] else [m, rows (at_ + planeBytes mBlock w hh) (64 * cdiv w (rBlock f.depth)) y h]
  let (cy, n) := if f.sampling = 2 then (y / 2, (y + h + 1) / 2 - y / 2) else (y, h)
  comp 0 f.width f.height y h ++ comp f.cbAt f.cw f.ch cy n ++ comp f.crAt f.cw f.ch cy n
/-- Accesses of the cellar and the churn to byte ranges at a base (R472, R479; log entry 12). -/
def State.touchSpans (s : State) (d : DieId) (base : Nat) (l : List (Nat × Nat)) : State :=
  l.foldl (fun s e => s.touchRange d (base + e.1) e.2) s
/-- A line of an input's frame is written to its frame stores; `last` says that it is the frame's last. A line that comes after the
last one of its frame is written into the same slot. -/
def State.storeLine (s : State) (d : DieId) (kind src : Nat) (f : PicFmt) (frame : Int) (y : Nat) (last : Bool) (p : PicLine) : State :=
  ((s.die d).storesOf kind src).foldl (fun s n =>
    let put (s : State) (slot : Nat) : State :=
      (s.touchSpans d ((s.die d).storeBase n slot) (f.spans y 1)).upd d fun x => x.setCells (pictureStore x.dram.view f (x.storeBase n slot) y p)
    let v := (s.die d).store n
    if v.cur ≠ some frame ∧ v.ended = some frame then put s (v.newest.getD 0)
    else
      let s := if v.cur = some frame then s else s.storeStart d n frame
      let s := put s (s.fld d R.CL_FS_STATE_WRITE n)
      if last then s.storeDone d n false else s) s

/-- At the end of an input frame of which lines arrived and the last did not, the lines concealed upstream count as written, so
that the frame is complete (R266, log entry 33). -/
def State.storeFrameEnd (s : State) (d : DieId) (kind src : Nat) (frame : Int) : State :=
  ((s.die d).storesOf kind src).foldl (fun s n => if ((s.die d).store n).cur = some frame then s.storeDone d n false else s) s

/-- FRAME_STORE_READ: a frame boundary of the consumer's cadence (R267 to R269). -/
def State.storeRead (s : State) (d : DieId) (n : Nat) : State :=
  let x := s.die d
  let v := x.store n
  let hist := (v.completed :: v.history).take 16
  let s := s.upd d fun x => (x.modStore n fun v =>
    { v with completed := 0, history := hist, idle := if v.completed = 0 then v.idle + 1 else 0 }).setFld R.CL_FS_STATE_LOCKED
      (b2n (decide (hist.length = 16) && hist.all (· == 1))) n
  match v.newest with
  | none => s
  | some i =>
    if x.fld R.CL_FS_STATE_READ n = i ∧ !v.unread.contains i then
      ((s.count d R.CL_FS_REPEATS_N n).count d R.CL_FS_REPEATS).event d R.CL_EVENTS_FS_REPEAT 0 n
    else (s.setFld d R.CL_FS_STATE_READ i n).upd d fun x => x.modStore n fun v => { v with unread := v.unread.erase i }

end Sys2Proof.Machine
end

