-- ==== Sys2Proof/Machine/Search.lean ====
section
/-! DEFINITION. Motion search (R205 to R209, R212): candidate vectors of a CTU, integer refinement around the best of them and
sub-sample refinement, on the 8-bit plane of luma; and the cost J of R210, compared exactly. Where a rule leaves an order or a
scale open, log entry 34 says what is taken. -/

namespace Sys2Proof.Machine

/-! ### Costs (R210) -/

/-- A cost D + lambda x R. -/
structure Cost where
  d : Nat
  r : Nat
  deriving DecidableEq, Repr

/-- The sum of two costs. -/
def Cost.add (a b : Cost) : Cost := ⟨a.d + b.d, a.r + b.r⟩
/-- A cost is below another: with lambda = k/100 x 2^((QP - 12)/3), k 57 in intra and 68 in inter pictures, both sides of
a.d - b.d < lambda x (b.r - a.r) are cubed, which leaves integers (R210). -/
def Cost.lt (intra : Bool) (qp : Nat) (a b : Cost) : Bool :=
  let p : Int := (a.d : Int) - b.d
  let q : Int := (b.r : Int) - a.r
  let k : Int := if intra then 57 else 68
  decide (p ^ 3 * 10 ^ 6 * 2 ^ 12 < k ^ 3 * 2 ^ qp * q ^ 3)

/-- An entry placed after every entry of equal cost, with `k` places (R163). -/
def placeBest {α : Type} (k : Nat) (lt : Cost → Cost → Bool) (c : Cost) (v : α) (l : List (Cost × α)) : List (Cost × α) :=
  ((l.takeWhile fun e => !lt c e.1) ++ (c, v) :: l.dropWhile fun e => !lt c e.1).take k
/-- The `k` best of a list under a cost, earlier entries first among equals. -/
def bestOf {α : Type} (k : Nat) (lt : Cost → Cost → Bool) (cost : α → Cost) (l : List α) : List (Cost × α) :=
  l.foldl (fun b v => placeBest k lt (cost v) v b) []

/-! ### Planes -/

/-- A sample; outside the plane the nearest edge sample (R206, R259). -/
def Plane.at_ (p : Plane) (x y : Int) : Nat :=
  let l := p.getD (min y.toNat (p.length - 1)) []
  l.getD (min x.toNat (l.length - 1)) 0
/-- The sample positions of a rectangle, line by line. -/
def Rect.cells (r : Rect) : List (Nat × Nat) := (List.range r.h).flatMap fun j => (List.range r.w).map fun i => (r.x + i, r.y + j)
/-- The part of a rectangle inside a picture. -/
def Rect.inside (r : Rect) (w h : Nat) : Rect := { r with w := min r.w (w - r.x), h := min r.h (h - r.y) }

/-- Sum of absolute differences between a block and the block a whole vector away. -/
def sadOf (cur ref : Plane) (r : Rect) (v : Int × Int) : Nat :=
  r.cells.foldl (fun n p => n + ((cur.at_ p.1 p.2 : Int) - ref.at_ (p.1 + v.1) (p.2 + v.2)).natAbs) 0

/-- The prediction of a luma sample on the 8-bit plane. -/
def Plane.predict (vvc : Bool) (ref : Plane) (x y : Nat) (v : Mv) : Nat :=
  let (ix, iy) := ((x : Int) + v.x / 16, (y : Int) + v.y / 16)
  let (fx, fy) := ((v.x % 16).toNat, (v.y % 16).toNat)
  if fx = 0 ∧ fy = 0 then ref.at_ ix iy
  else Config.lumaFilter vvc fx fy ((List.range 8).flatMap fun j => (List.range 8).map fun i => ref.at_ (ix + i - 3) (iy + j - 3))
/-- SATD between a block and its prediction, by 8 x 8 blocks (R162, R209). -/
def satdOf (vvc : Bool) (cur ref : Plane) (r : Rect) (v : Mv) : Nat :=
  (List.range (cdiv r.h 8)).foldl (fun n by_ => (List.range (cdiv r.w 8)).foldl (fun n bx =>
    let b : Rect := ⟨r.x + 8 * bx, r.y + 8 * by_, 8, 8⟩
    n + satd8Block (b.cells.map fun p =>
      if p.1 < r.x + r.w ∧ p.2 < r.y + r.h then (cur.at_ p.1 p.2 : Int) - ref.predict vvc p.1 p.2 v else 0)) n) 0

/-! ### Candidates (R205, R206, R212) -/

/-- The sources of candidate vectors of a CTU: a vector of the neighbour so many CTUs to the right and below, in the picture being
coded, in the most recent reference and in the second one; the frequent vectors of the previous picture; fields are coded. -/
structure Sources where
  here : Int → Int → Option Motion
  temporal : Int → Int → Option Motion
  second : Int → Int → Option Motion
  frequent : List Mv
  fields : Bool

/-- The previous field's vectors, scaled by field distance; for progressive pictures those of the second reference (R205). -/
def Sources.previous (s : Sources) (dx dy : Int) : Option Mv :=
  if s.fields then (s.temporal dx dy).map fun m => ⟨m.mv.x / (m.ref + 1 : Nat), m.mv.y / (m.ref + 1 : Nat)⟩
  else (s.second dx dy).map Motion.mv
/-- The candidate vectors in the order of the table, 16 with BROADCAST and 8 with REDUCED (R205, R212). -/
def Sources.slots (s : Sources) (broadcast : Bool) : List (Option Mv) :=
  let here (dx dy : Int) := (s.here dx dy).map Motion.mv
  let temporal (dx dy : Int) := (s.temporal dx dy).map Motion.mv
  let frequent (i : Nat) := s.frequent[i]?
  if broadcast then
    [some ⟨0, 0⟩, here (-1) 0, here (-2) 0, here (-1) (-1), here 0 (-1), here 1 (-1), here 2 (-1),
     temporal 0 0, temporal 1 0, temporal 0 1, temporal 1 1, frequent 0, frequent 1, frequent 2, s.previous 0 0, s.previous 0 1]
  else [some ⟨0, 0⟩, here (-1) 0, here 0 (-1), temporal 0 0, temporal 1 0, frequent 0, frequent 1, s.previous 0 0]

/-- A component rounded to whole samples and clamped to +-1,024 (R206). -/
def wholeMv (v : Mv) : Int × Int :=
  let f (a : Int) : Int := max (-1024) (min 1024 ((a + 8) / 16))
  (f v.x, f v.y)
/-- The candidates, whole and clamped; a duplicate's slot stays empty (R206). -/
def candidates (l : List (Option Mv)) : List (Option (Int × Int)) :=
  l.foldl (fun out v => out ++ [match v.map wholeMv with
    | some w => if out.contains (some w) then none else some w
    | none => none]) []

/-- The most frequent vectors of a picture's CTUs, the more frequent first and the earlier among equals (R205). -/
def frequentMvs (l : List (Option Motion)) : List Mv :=
  let vs := l.filterMap fun m => m.map Motion.mv
  let kinds := vs.eraseDups
  ((bestOf 3 (fun a b => decide (a.d < b.d)) (fun (v : Mv) => ⟨vs.length - vs.count v, 0⟩) kinds)).map Prod.snd

/-- A candidate lies in the local window of the M-tiles, +-64 samples across and +-32 lines (R207). -/
def inWindow (v : Int × Int) : Bool := decide (v.1.natAbs ≤ 64 ∧ v.2.natAbs ≤ 32)
/-- The patch that a candidate outside the window fetches: (CTU + 24) x (CTU + 24) samples around it; its blocks of 16 x 4 samples
that lie in the picture, as offsets in the luma m plane (R207, R257, R259). -/
def patchBlocks (width height ctu : Nat) (r : Rect) (v : Int × Int) : List Nat :=
  let x0 := (r.x : Int) + v.1 - 12
  let y0 := (r.y : Int) + v.2 - 12
  let size : Int := (ctu : Int) + 24
  let clip (a n : Int) : Nat := (max 0 (min a (n - 1))).toNat
  let (xa, xb) := (clip x0 width / 16, clip (x0 + size - 1) width / 16)
  let (ya, yb) := (clip y0 height / 4, clip (y0 + size - 1) height / 4)
  (List.range (yb - ya + 1)).flatMap fun j => (List.range (xb - xa + 1)).map fun i => ((ya + j) * cdiv width 16 + xa + i) * 64

/-! ### Refinement (R208, R209, R212) -/

/-- How the search of a CTU works: VVC, preset, intra flag of the picture for lambda, slice QP. -/
structure Effort where
  vvc : Bool
  broadcast : Bool
  qp : Nat

/-- SAD plus lambda times the estimated vector bits (R208). -/
def Effort.sadCost (e : Effort) (cur ref : Plane) (r : Rect) (v : Int × Int) : Cost :=
  ⟨sadOf cur ref r v, Config.vectorBits e.vvc ⟨16 * v.1, 16 * v.2⟩⟩
/-- SATD plus lambda times the estimated vector bits (R209). -/
def Effort.satdCost (e : Effort) (cur ref : Plane) (r : Rect) (v : Mv) : Cost := ⟨satdOf e.vvc cur ref r v, Config.vectorBits e.vvc v⟩
def Effort.lt (e : Effort) : Cost → Cost → Bool := Cost.lt false e.qp

/-- A grid of vectors of `2 k + 1` by `2 k + 1` points at a step, line by line. -/
def gridAround (k : Nat) (step : Int) (v : Int × Int) : List (Int × Int) :=
  (List.range (2 * k + 1)).flatMap fun j => (List.range (2 * k + 1)).map fun i => (v.1 + step * ((i : Int) - k), v.2 + step * ((j : Int) - k))
/-- The point and its 8 neighbours at a step, the point first. -/
def neighbours (step : Int) (v : Int × Int) : List (Int × Int) := v :: (gridAround 1 step v).filter fun p => p != v

/-- Integer refinement around one candidate: the grid at a step of 2, then the neighbours of its best point at a step of 1. -/
def Effort.refine (e : Effort) (cur ref : Plane) (r : Rect) (v : Int × Int) : Option (Cost × (Int × Int)) :=
  let cost := e.sadCost cur ref r
  match (bestOf 1 e.lt cost (gridAround (if e.broadcast then 4 else 2) 2 v)).head? with
  | some b => (bestOf 1 e.lt cost (neighbours 1 b.2)).head?
  | none => none
/-- Sub-sample refinement at each successive precision (R209, R212). -/
def Effort.subSample (e : Effort) (cur ref : Plane) (r : Rect) (v : Mv) : Mv :=
  (if e.vvc && e.broadcast then [8, 4, 2, 1] else [8, 4]).foldl (fun (m : Mv) step =>
    ((bestOf 1 e.lt (fun p => e.satdCost cur ref r ⟨p.1, p.2⟩) (neighbours step (m.x, m.y))).head?.map fun b => (⟨b.2.1, b.2.2⟩ : Mv)).getD m) v

/-- The search of a CTU in one reference: its vector, its SATD cost and the candidates that were searched (R205 to R209). -/
def Effort.search (e : Effort) (s : Sources) (cur ref : Plane) (r : Rect) : Mv × Nat × List (Int × Int) :=
  let cands := (candidates (s.slots e.broadcast)).filterMap id
  let best := bestOf (if e.broadcast then 3 else 2) e.lt (e.sadCost cur ref r) cands
  let fine := best.filterMap fun b => e.refine cur ref r b.2
  let whole := ((bestOf 1 e.lt Prod.fst fine).head?.map fun b => b.2.2).getD (0, 0)
  let v := e.subSample cur ref r ⟨16 * whole.1, 16 * whole.2⟩
  (v, satdOf e.vvc cur ref r v, cands)

end Sys2Proof.Machine
end

