-- ==== Sys2Proof/Machine/Decide.lean ====
section
/-! DEFINITION. Mode decision (R189, R190, R197, R199, R200, R210 to R212, R216, R237, R242, R246): the tools, the admissible codings
of a coding unit, the choice among them and the split, CTU by CTU within the bin governor's allowance. -/

namespace Sys2Proof.Machine

/-! ### Tools (R189, R190) -/

/-- A tool that the table of the codec marks yes; `cols` says that the picture has more than one tile column (R199). -/
def Tool.used (vvc cols : Bool) (t : Tool) : Bool :=
  if vvc then match t with
    | .mtt | .multiRefLine | .cclm | .merge | .mmvd | .amvr | .smvd | .temporalMv | .transformSkip | .signHiding | .deblocking | .sao | .alf => true
    | .amvp => true
    | .tiles => cols
    | _ => false
  else match t with
    | .asymmetricParts | .transformSkip | .strongIntraSmoothing | .merge | .amvp | .temporalMv | .signHiding | .deblocking | .sao => true
    | _ => false
/-- A tool that the preset tries (R212). -/
def Tool.tried (vvc cols broadcast : Bool) (t : Tool) : Bool :=
  t.used vvc cols && (broadcast || (t != .transformSkip && t != .asymmetricParts))
/-- Every tool with whether the parameter sets signal it on. -/
def toolFlags (vvc cols : Bool) : List (Tool × Bool) :=
  ([.asymmetricParts, .transformSkip, .strongIntraSmoothing, .merge, .amvp, .temporalMv, .signHiding, .scalingLists, .deblocking, .sao,
    .weightedPrediction, .longTerm, .pcm, .transquantBypass, .tiles, .wavefront, .rangeExtensions, .mtt, .dualTree, .multiRefLine, .cclm,
    .isp, .mip, .mmvd, .amvr, .smvd, .affine, .sbTmvp, .gpm, .ciip, .bcw, .bdof, .dmvr, .prof, .explicitMts, .lfnst, .dependentQuant,
    .lmcs, .alf, .ccAlf, .subpictures, .refResampling] : List Tool).map fun t => (t, t.used vvc cols)

/-! ### The context of a row -/

/-- What holds for the CTUs of a row: the channel, the picture, the slice QP and mode, and the samples. -/
structure RowCtx where
  vvc : Bool
  broadcast : Bool
  cols : Bool
  depth : Nat
  chroma : Nat
  width : Nat
  height : Nat
  ctu : Nat
  qp : Nat
  intra : Bool
  skim : Bool
  /-- In gradual mode, the luma columns coded intra in this picture, and for each reference the columns refreshed in it (R197). -/
  sweep : Option (Nat × Nat × List Nat)
  /-- The input at the coded depth and the references, most recent first: luma, Cb, Cr. -/
  source : List Plane
  refs : List (List Plane)
  /-- The motion field of the most recent reference, by 16 x 16 blocks. -/
  col : List (List Motion)

/-- Chroma samples of a luma length, across and down. -/
def RowCtx.cx (q : RowCtx) (n : Nat) : Nat := if q.chroma = 2 then n else n / 2
def RowCtx.cy (q : RowCtx) (n : Nat) : Nat := if q.chroma = 0 then n / 2 else n
/-- A rectangle of a plane. -/
def Plane.cut (p : Plane) (x y w h : Nat) : Plane := ((p.drop y).take h).map fun l => (l.drop x).take w
/-- A rectangle of a picture's three planes. -/
def RowCtx.cut (q : RowCtx) (ps : List Plane) (r : Rect) : List Plane :=
  ps.zipIdx.map fun e => if e.2 = 0 then Plane.cut e.1 r.x r.y r.w r.h else Plane.cut e.1 (q.cx r.x) (q.cy r.y) (q.cx r.w) (q.cy r.h)

/-- A prediction stays within the refreshed columns of its reference, with the 4 samples that interpolation reaches. -/
def withinSweep (edges : List Nat) (r : Rect) (m : Motion) : Bool :=
  decide ((r.x : Int) + r.w + (m.mv.x + 15) / 16 + 4 ≤ edges.getD m.ref 0)
/-- A coding is admissible: its tools are used and tried, an intra picture and the column of the sweep are intra, and the area
refreshed before refers to refreshed areas alone (R189, R190, R197, R212). -/
def RowCtx.admits (q : RowCtx) (r : Rect) (c : CuCand) : Bool :=
  c.uses.all (Tool.tried q.vvc q.cols q.broadcast)
    && (!q.intra || c.kind == .intra)
    && (c.kind != .intra || q.broadcast || (0 :: 1 :: Config.nineAngular q.vvc).contains c.index)
    && (match q.sweep with
      | some (lo, hi, edges) => c.kind == .intra || (!decide (r.x < hi ∧ lo < r.x + r.w) && (!decide (r.x < lo) || c.motion.all (withinSweep edges r)))
      | none => true)

/-! ### The choice (R210 to R212, R242) -/

/-- The place of a kind on equal cost (R211). -/
def CuKind.rank : CuKind → Nat
  | .skip => 0 | .merge => 1 | .inter => 2 | .intra => 3
/-- Half the cost of skip and merge in skim mode, as twice that of the rest (R242). -/
def RowCtx.weigh (q : RowCtx) (c : CuCand) (d : Nat) : Cost :=
  let k := if q.skim ∧ c.kind ≠ .skip ∧ c.kind ≠ .merge then 2 else 1
  ⟨k * d, k * c.rate⟩
/-- J for pre-selection; a cost on the 8-bit plane is multiplied by 4 beside costs at 10 bits (R210). -/
def RowCtx.preCost (q : RowCtx) (c : CuCand) : Cost := q.weigh c (if c.satd8 ∧ q.depth = 10 then 4 * c.satd else c.satd)
/-- J for the final choice. -/
def RowCtx.cost (q : RowCtx) (c : CuCand) : Cost := q.weigh c c.sse
/-- The intra codings that reach the final choice: with BROADCAST the most probable and the 8 best by SATD, with REDUCED the 3 best
(R212); every other coding does. -/
def RowCtx.preselect (q : RowCtx) (l : List CuCand) : List CuCand :=
  let intra := l.filter fun c => c.kind == .intra
  let best := (bestOf (if q.broadcast then 8 else 3) (Cost.lt q.intra q.qp) q.preCost intra).map Prod.snd
  l.filter fun c => c.kind != .intra || best.contains c || (q.broadcast && c.probable)
/-- One coding wins over another (R210, R211). -/
def RowCtx.wins (q : RowCtx) (a b : CuCand) : Bool :=
  Cost.lt q.intra q.qp (q.cost a) (q.cost b)
    || (!Cost.lt q.intra q.qp (q.cost b) (q.cost a)
      && decide (a.kind.rank < b.kind.rank ∨ (a.kind = b.kind ∧ a.index < b.index)))
/-- Bins of a coding. -/
def CuCand.bins (c : CuCand) : Nat := c.ctxBins + c.bypassBins
/-- The coding of an unsplit unit within an allowance of bins. -/
def RowCtx.unsplit (q : RowCtx) (r : Rect) (found : List Motion) (before : List Cu) (left : Nat) : Option CuCand :=
  let l := (Config.cuCands ⟨q.vvc, q.broadcast, q.depth, q.chroma, q.qp, q.intra, r, q.cut q.source r, found, q.refs, q.col, before⟩).filter fun c =>
    q.admits r c && decide (c.bins ≤ left)
  (q.preselect l).foldl (fun b c => match b with
    | none => some c
    | some k => if q.wins c k then some c else b) none

/-- The ways to split a unit: into quarters, and in VVC in two or three across or down. -/
inductive Split
  | quad | horBinary | verBinary | horTernary | verTernary
  deriving DecidableEq, Repr

def Split.code : Split → Nat
  | .quad => 0 | .horBinary => 1 | .verBinary => 2 | .horTernary => 3 | .verTernary => 4
/-- The parts of a split. -/
def Split.parts (s : Split) (r : Rect) : List Rect :=
  let hor (hs : List Nat) : List Rect := (hs.foldl (fun (e : List Rect × Nat) h => (e.1 ++ [⟨r.x, e.2, r.w, h⟩], e.2 + h)) ([], r.y)).1
  let ver (ws : List Nat) : List Rect := (ws.foldl (fun (e : List Rect × Nat) w => (e.1 ++ [⟨e.2, r.y, w, r.h⟩], e.2 + w)) ([], r.x)).1
  match s with
  | .quad => [⟨r.x, r.y, r.w / 2, r.h / 2⟩, ⟨r.x + r.w / 2, r.y, r.w / 2, r.h / 2⟩, ⟨r.x, r.y + r.h / 2, r.w / 2, r.h / 2⟩,
      ⟨r.x + r.w / 2, r.y + r.h / 2, r.w / 2, r.h / 2⟩]
  | .horBinary => hor [r.h / 2, r.h / 2]
  | .verBinary => ver [r.w / 2, r.w / 2]
  | .horTernary => hor [r.h / 4, r.h / 2, r.h / 4]
  | .verTernary => ver [r.w / 4, r.w / 2, r.w / 4]

/-- The splits of a unit that leave no part smaller than the preset's smallest CU, which is 8 x 8 for a unit across the picture's
edge (R189, R212): quarters of a square that no other split has made, and `mtt` levels of the multi-type tree. -/
def RowCtx.splits (q : RowCtx) (mtt : Nat) (quads : Bool) (r : Rect) : List Split :=
  let least := if q.broadcast ∨ q.width < r.x + r.w ∨ q.height < r.y + r.h then 8 else 16
  (if quads ∧ r.w = r.h then [Split.quad] else []).filter (fun s => (s.parts r).all fun p => decide (least ≤ p.w)) ++
    (if q.vvc ∧ mtt ≠ 0 then [Split.horBinary, .verBinary, .horTernary, .verTernary] else []).filter fun s =>
      (s.parts r).all fun p => decide (least ≤ p.w ∧ least ≤ p.h)

/-- A coded unit or tree: its units, cost and bins. -/
structure Tree where
  cus : List Cu
  cost : Cost
  bins : Nat

/-- The best coding of a unit within `left` bins: unsplit, or by a split that costs less (R210, R211); a unit across the picture's edge
is split. `before` are the units of the slice that are coded before it. -/
def RowCtx.codeUnit (q : RowCtx) (found : List Motion) : Nat → Nat → Bool → Rect → List Cu → Nat → Option Tree
  | 0, _, _, _, _, _ => none
  | fuel + 1, mtt, quads, r, before, left =>
    let inside := decide (r.x + r.w ≤ q.width ∧ r.y + r.h ≤ q.height)
    let whole : Option Tree := if inside then (q.unsplit r found before left).map fun c => ⟨[⟨r, c⟩], q.cost c, c.bins⟩ else none
    (q.splits mtt quads r).foldl (fun best s =>
      let flag := Config.splitBins q.vvc s.code r.w r.h
      let start : Option Tree := if flag ≤ left then some ⟨[], ⟨0, (if q.skim then 2 else 1) * flag⟩, flag⟩ else none
      let tree := ((s.parts r).filter fun p => decide (p.x < q.width ∧ p.y < q.height)).foldl (fun (t : Option Tree) p =>
        t.bind fun t => (q.codeUnit found fuel (if s = .quad then mtt else mtt - 1) (quads && s == .quad) p (before ++ t.cus) (left - t.bins)).map
          fun u => ⟨t.cus ++ u.cus, t.cost.add u.cost, t.bins + u.bins⟩) start
      match tree, best with
      | some t, some b => if Cost.lt q.intra q.qp t.cost b.cost then some t else best
      | some t, none => some t
      | none, b => b) whole

/-! ### CTUs (R199, R216, R237, R246) -/

/-- Bins of a fill CTU: context and terminating bins, and bypass bins (R237). -/
def fillCtuBins (vvc intra : Bool) : Nat × Nat :=
  if vvc then (if intra then (10, 9) else (6, 3)) else if intra then (8, 4) else (4, 3)
/-- ZCTU (R237): 11 bits for each context-coded or terminating bin and 2 for each bypass bin. -/
def zctu (vvc intra : Bool) : Nat := 11 * (fillCtuBins vvc intra).1 + 2 * (fillCtuBins vvc intra).2

/-- Context and terminating bins, and bypass bins, of a coded CTU. -/
def Ctu.binCount (c : Ctu) (vvc intra : Bool) : Nat × Nat :=
  if c.fill then fillCtuBins vvc intra
  else (c.cus.foldl (fun n u => n + u.cand.ctxBins) (1 + c.splits), c.cus.foldl (fun n u => n + u.cand.bypassBins) 0)
/-- The bound of a CTU (R237). -/
def Ctu.bound (c : Ctu) (vvc intra : Bool) : Nat := let b := c.binCount vvc intra; 11 * b.1 + 2 * b.2

/-- Bins allotted to CTU `j` of `n` (R246), held to BINCAP in skim mode (R242). -/
def binAllowance (vvc intra : Bool) (rcBins n j used : Nat) (cap : Option Nat) : Nat :=
  let fill := (fillCtuBins vvc intra).1 + (fillCtuBins vvc intra).2
  let a := max fill ((j + 1) * rcBins / max 1 n - used)
  match cap with | some c => min c a | none => a

/-- The CTUs of each slice of a row of `n`: divided evenly, the earlier slices taking the remainder (R199). -/
def sliceCtus (n k : Nat) : List Nat := (List.range k).map fun i => n / k + b2n (decide (i < n % k))
/-- The slice that CTU `j` belongs to. -/
def sliceStart (n k j : Nat) : Nat :=
  ((sliceCtus n k).foldl (fun (e : Nat × Nat) w => (if e.2 ≤ j then e.2 else e.1, e.2 + w)) (0, 0)).1

/-- The final vector of a CTU: that of its first unit; none where it is intra. -/
def Ctu.motion (c : Ctu) : Option Motion :=
  if c.fill then some ⟨⟨0, 0⟩, 0⟩ else (c.cus.head?.bind fun u => u.cand.motion.head?)

/-- What stage 2 makes of a row: its CTUs, its SATD cost and the candidates searched for each CTU. -/
structure RowResult where
  ctus : List Ctu
  satd : Nat
  searched : List (Rect × List (Int × Int))

/-- Search and mode decision of one row (R205 to R212, R242, R246): `n` CTUs in `k` slices, bins per row, BINCAP where the row is skim,
and the sources of a CTU's candidates from the CTUs before it. -/
def RowCtx.code (q : RowCtx) (row n k rcBins : Nat) (cap : Option Nat) (sources : List Ctu → Nat → Sources) : RowResult :=
  let luma8 (ps : List Plane) : Plane := ((ps.headD []).map fun l => l.map fun v => v / 2 ^ (q.depth - 8))
  let out := (List.range n).foldl (fun (e : RowResult × Nat) j =>
    let (res, used) := e
    let r : Rect := ⟨j * q.ctu, row * q.ctu, q.ctu, q.ctu⟩
    let e : Effort := ⟨q.vvc, q.broadcast, q.qp⟩
    let found : Mv × Nat × List (Int × Int) :=
      if q.intra ∨ q.refs = [] then (⟨0, 0⟩, 0, []) else
        e.search (sources res.ctus j) (luma8 q.source) (luma8 (q.refs.headD [])) (r.inside q.width q.height)
    let before := (res.ctus.drop (sliceStart n k j)).flatMap Ctu.cus
    let left := binAllowance q.vvc q.intra rcBins n j used cap
    let tree := q.codeUnit (if found.2.2 = [] then [] else [⟨found.1, 0⟩]) 8 (if q.broadcast then 2 else 1) true r before (left - 1)
    let c : Ctu := match tree with
      | some t => ⟨r, false, t.bins - t.cus.foldl (fun n u => n + u.cand.bins) 0, t.cus⟩
      | none => ⟨r, true, 0, []⟩
    let bins := let b := c.binCount q.vvc q.intra; b.1 + b.2
    let satd := if q.intra then c.cus.foldl (fun n u => n + u.cand.satd) 0 else found.2.1
    (⟨res.ctus ++ [c], res.satd + satd, res.searched ++ [(r, found.2.2)]⟩, used + bins)) (⟨[], 0, []⟩, 0)
  out.1

end Sys2Proof.Machine
end

