-- ==== Sys2Proof/Machine/Coder.lean ====
section
/-! DEFINITION. The entropy stage and what it leaves (R199 to R201, R216, R218, R237, R244, R257, R258): slices coded within an
allowance, the reconstruction of a row and its motion field. -/

namespace Sys2Proof.Machine

/-! ### Slices (R199, R237, R244) -/

/-- NAL units held within a number of bits: what the spec bounds by ZROW or by the largest prefix (R235). -/
def nalsWithin : Nat → List (List Byte) → List (List Byte)
  | _, [] => []
  | b, l :: ls => l.take (b / 8) :: nalsWithin (b - 8 * l.length) ls
/-- Bits of NAL units. -/
def nalBits (l : List (List Byte)) : Nat := 8 * (l.map List.length).foldl (· + ·) 0

/-- The bytes of the NAL unit header and slice header, at most 63: with the trailing bits a slice takes at most 512 bits beside its
CTUs (R237). -/
def headBytes (h : SliceHead) : List Byte := (Config.sliceHead h).take 63

/-- The course of the E stage through a row: bits so far, whether a clip has met it, the CTUs coded and those of the slice, and the
slice's bits. -/
structure EStage where
  size : Nat
  clip : Bool := false
  ctus : List Ctu := []
  slice : List Ctu := []
  bits : List Bool := []

/-- The fill coding of a CTU (R216). -/
def Ctu.toFill (c : Ctu) : Ctu := ⟨c.rect, true, 0, []⟩
/-- CTU `j` of a row is coded, where the check of R244 passes; else it and every later one are fill CTUs. `n` is the row's CTUs; no
allowance stands for a row of fill CTUs, which needs no check. -/
def EStage.ctu (h : SliceHead) (n : Nat) (allow : Option Nat) (e : EStage) (c : Ctu) : EStage :=
  let zc := zctu h.vvc h.intra
  let fits := match allow with
    | some a => decide (e.size + c.bound h.vvc h.intra + (n - (e.ctus.length + 1)) * zc ≤ a)
    | none => true
  let clip := e.clip || !fits
  let c := if clip then c.toFill else c
  let b := (Config.codeCtu h e.slice c).take (c.bound h.vvc h.intra)
  { size := e.size + b.length, clip := clip, ctus := e.ctus ++ [c], slice := e.slice ++ [c], bits := e.bits ++ b }
/-- Bits as bytes, with a 1 bit and 0 bits to the byte boundary. -/
def sealBits (l : List Bool) : List Byte := packBits (l.length / 8 + 1) (l ++ [true])

/-- The slices of a row within an allowance: the NAL units, one for each slice (R201), the CTUs as coded, and whether a clip met
the row (R244). -/
def codeSlices (heads : List SliceHead) (allow : Option Nat) (ctus : List Ctu) : List (List Byte) × List Ctu × Bool :=
  let extra := (heads.map fun h => 8 * (headBytes h).length + 8).foldl (· + ·) 0
  let r := heads.foldl (fun (o : List (List Byte) × EStage) h =>
    let mine := (ctus.drop o.2.ctus.length).take h.ctus
    let e := mine.foldl (EStage.ctu h ctus.length allow) { o.2 with slice := [], bits := [] }
    (o.1 ++ [headBytes h ++ sealBits e.bits], e)) ([], ({ size := extra } : EStage))
  (r.1, r.2.ctus, r.2.clip)

/-! ### Reconstruction (R200, R216, R218) -/

/-- A sample of component `k` as the units of a slice reconstruct it. -/
def RowCtx.sampleAt (q : RowCtx) (cus : List Cu) (k x y : Nat) : Nat :=
  let at_ (r : Rect) : Nat × Nat × Nat × Nat := if k = 0 then (r.x, r.y, r.w, r.h) else (q.cx r.x, q.cy r.y, q.cx r.w, q.cy r.h)
  match cus.find? fun u => let (ux, uy, uw, uh) := at_ u.rect; decide (ux ≤ x ∧ x < ux + uw ∧ uy ≤ y ∧ y < uy + uh) with
  | some u => let (ux, uy, _, _) := at_ u.rect; (((u.cand.recon.getD k []).getD (y - uy) []).getD (x - ux) 0)
  | none => 0
/-- The samples of a fill CTU: the co-located samples of reference 0, or the mid-level (R216, R218). -/
def RowCtx.fillAt (q : RowCtx) (k x y : Nat) : Nat :=
  if q.intra then 2 ^ (q.depth - 1) else (((q.refs.headD []).getD k []).getD y []).getD x 0

/-- The extent of component `k` of a rectangle: first and count, across and down. -/
def RowCtx.extent (q : RowCtx) (k : Nat) (r : Rect) : Nat × Nat × Nat × Nat :=
  let r := r.inside q.width q.height
  if k = 0 then (r.x, r.w, r.y, r.h) else (q.cx r.x, q.cx r.w, q.cy r.y, q.cy r.h)
/-- The reconstruction of a slice: its units, the loop filters within the slice, and the fill reconstruction of its fill CTUs
(R200, R218, R244). -/
def RowCtx.sliceRecon (q : RowCtx) (h : SliceHead) (ctus : List Ctu) (r : Rect) : List Plane :=
  let cus := ctus.flatMap Ctu.cus
  let plain := (List.range 3).map fun k => let (x, w, y, n) := q.extent k r
    (List.range n).map fun j => (List.range w).map fun i => q.sampleAt cus k (x + i) (y + j)
  let filtered := Config.loopFilter h ctus plain
  (List.range 3).map fun k => let (x, w, y, n) := q.extent k r
    (List.range n).map fun j => (List.range w).map fun i =>
      let inFill := ctus.any fun c => c.fill && (let (cx, cw, _, _) := q.extent k c.rect; decide (cx ≤ x + i ∧ x + i < cx + cw))
      if inFill then q.fillAt k (x + i) (y + j) else ((filtered.getD k []).getD j []).getD i 0
/-- The reconstruction of a row: that of its slices, side by side. -/
def RowCtx.rowRecon (q : RowCtx) (row : Nat) (heads : List SliceHead) (ctus : List Ctu) : List Plane :=
  let parts := heads.map fun h =>
    let first := h.ctu - row * ctus.length
    q.sliceRecon h ((ctus.drop first).take h.ctus) ⟨first * q.ctu, row * q.ctu, h.ctus * q.ctu, q.ctu⟩
  parts.foldl (fun a b => if a.isEmpty then b else List.zipWith (List.zipWith (· ++ ·)) a b) []

/-- Writes a row's reconstruction into the slot at `base` (R257). -/
def storeRecon (m : Mem) (f : PicFmt) (base y0 : Nat) (ps : List Plane) : Mem :=
  (List.range (ps.headD []).length).foldl (fun m j =>
    let c := if f.sampling = 2 then j / 2 else j
    pictureStore m f base (y0 + j) { y := (ps.getD 0 []).getD j [], cb := (ps.getD 1 []).getD c [], cr := (ps.getD 2 []).getD c [] }) m

/-! ### The motion field (R258) -/

/-- Bytes of a picture's planes, after which its motion field stands. -/
def PicFmt.planesBytes (f : PicFmt) : Nat := f.crAt + compBytes f.depth f.cw f.ch
/-- 16 x 16 blocks across a picture. -/
def PicFmt.blocks (f : PicFmt) : Nat := cdiv f.width 16
/-- The 16 bytes of a block: for each of two predictions the vector, in sixteenths, and the reference, 0xFF for none (log entry 34). -/
def motionBytes (l : List Motion) : List Byte :=
  ([0, 1] : List Nat).flatMap fun i => match l[i]? with
    | some m => natLE 2 (unsgn 16 m.mv.x) ++ natLE 2 (unsgn 16 m.mv.y) ++ [BitVec.ofNat 8 m.ref, 0, 0, 0]
    | none => [0, 0, 0, 0, 0xFF, 0, 0, 0]
/-- What the 16 bytes say. -/
def motionOf (b : List Byte) : List Motion :=
  ([0, 1] : List Nat).filterMap fun i =>
    if num b (8 * i + 4) 1 = 0xFF then none else some ⟨⟨sgn 16 (num b (8 * i) 2), sgn 16 (num b (8 * i + 2) 2)⟩, num b (8 * i + 4) 1⟩
/-- Reads a block of the motion field of the slot at `base`. -/
def readMotion (m : Mem) (f : PicFmt) (base bx by_ : Nat) : List Motion :=
  motionOf (rdBytes m (base + f.planesBytes + 16 * (by_ * f.blocks + bx)) 16)
/-- The motion of a sample by the CTUs of its row. -/
def motionIn (intra : Bool) (ctus : List Ctu) (x y : Nat) : List Motion :=
  match ctus.find? fun c => decide (c.rect.x ≤ x ∧ x < c.rect.x + c.rect.w) with
  | none => []
  | some c =>
    if c.fill then (if intra then [] else [⟨⟨0, 0⟩, 0⟩])
    else ((c.cus.find? fun u => decide (u.rect.x ≤ x ∧ x < u.rect.x + u.rect.w ∧ u.rect.y ≤ y ∧ y < u.rect.y + u.rect.h)).map
      fun u => u.cand.motion).getD []
/-- Writes the motion field of a row. -/
def storeMotion (m : Mem) (f : PicFmt) (base y0 h : Nat) (intra : Bool) (ctus : List Ctu) : Mem :=
  (List.range (cdiv (min h (f.height - y0)) 16)).foldl (fun m j => (List.range f.blocks).foldl (fun m i =>
    wrBytes m (base + f.planesBytes + 16 * ((y0 / 16 + j) * f.blocks + i)) (motionBytes (motionIn intra ctus (16 * i) (y0 + 16 * j)))) m) m

end Sys2Proof.Machine
end

