-- ==== Sys2Proof/Machine/Checks.lean ====
section
/-! DEFINITION. Check-value units (R506 to R508). Their registers are their state. -/

namespace Sys2Proof.Machine

/-- The low `w` bits of a number, in reverse order. -/
def reflect (w v : Nat) : Nat := (List.range w).foldl (fun n i => n + b2n (bit v i) * 2 ^ (w - 1 - i)) 0

/-- One bit into a CRC of width `w` with polynomial `p` (R506). -/
def crcBit (w p crc : Nat) (b : Bool) : Nat :=
  let n := crc * 2 % 2 ^ w
  if xor (bit crc (w - 1)) b then n ^^^ p else n
/-- One byte into a CRC. -/
def crcByte (w p : Nat) (refin : Bool) (crc : Nat) (b : Byte) : Nat :=
  let v := if refin then reflect 8 b.toNat else b.toNat
  (List.range 8).foldl (fun c i => crcBit w p c (bit v (7 - i))) crc
/-- Bytes into a CRC. -/
def crcFeed (w p : Nat) (refin : Bool) (crc : Nat) (bs : List Byte) : Nat := bs.foldl (crcByte w p refin) crc
/-- The result of a take. -/
def crcTake (w : Nat) (refout inv : Bool) (crc : Nat) : Nat :=
  let r := if refout then reflect w crc else crc
  if inv then r ^^^ (2 ^ w - 1) else r
/-- CRC-32C of a byte string (R78). -/
def crc32c (bs : List Byte) : Nat := crcTake 32 true true (crcFeed 32 0x1EDC6F41 true 0xFFFFFFFF bs)

/-- A 64-bit value in two register words. -/
def Die.pair (x : Die) (lo hi : Fld) (i : Nat) : Nat := x.fld lo i + 2 ^ 32 * x.fld hi i
def Die.setPair (x : Die) (lo hi : Fld) (i v : Nat) : Die := (x.setFld lo (v % 2 ^ 32) i).setFld hi (v / 2 ^ 32) i

/-- Width of unit `u`. -/
def Die.ckWidth (x : Die) (u : Nat) : Nat := x.fld R.CK_U_CFG_WIDTH u + 1

/-- An event of a unit. -/
def State.ckEvent (s : State) (d : DieId) (f : Fld) (u : Nat) : State := s.event d f 0 u

/-- The alive counter that a row carries, if the row holds it (R507). -/
def Die.ckCounter (x : Die) (u : Nat) (row : List Byte) : Option Nat :=
  let n := 2 ^ x.fld R.CK_U_CFG_CBITS u
  let bs := subBytes row (x.fld R.CK_U_CFG_AOFFSET u) n
  if bs.length = n then some (if x.flag R.CK_U_CFG_BIG u then beNat bs else leNat bs) else none

/-- The alive counter of a row: passes, repeats or leaves a gap; the first row after configuration passes (R507). -/
def State.ckAlive (s : State) (d : DieId) (u : Nat) (row : List Byte) : State :=
  let x := s.die d
  let w := 8 * 2 ^ x.fld R.CK_U_CFG_CBITS u
  let last := x.fld R.CK_U_ALIVE_LAST u
  match x.ckCounter u row with
  | none =>
    if x.flag R.CK_U_FLAGS_FIRST u then s.setFld d R.CK_U_FLAGS_FIRST 0 u
    else (s.count d R.CK_U_GAPS u).ckEvent d R.CK_EVENTS_GAP u
  | some v =>
    let s' := (s.setFld d R.CK_U_ALIVE_LAST v u).setFld d R.CK_U_FLAGS_FIRST 0 u
    if x.flag R.CK_U_FLAGS_FIRST u ∨ v = (last + 1) % 2 ^ w then s'
    else if v = last then (s'.count d R.CK_U_REPEATS u).ckEvent d R.CK_EVENTS_REPEAT u
    else (s'.count d R.CK_U_GAPS u).ckEvent d R.CK_EVENTS_GAP u

/-- Feeds one row to unit `u`; `err` says that a read that fed it met an uncorrectable error (R497). -/
def State.ckFeed (s : State) (d : DieId) (u : Nat) (row : List Byte) (err : Bool) : State :=
  let s := s.upd d fun x =>
    let w := x.ckWidth u
    let v := crcFeed w (x.pair R.CK_U_POLY_LO R.CK_U_POLY_HI u) (x.flag R.CK_U_CFG_REFIN u) (x.pair R.CK_U_VALUE_LO R.CK_U_VALUE_HI u) row
    (x.setPair R.CK_U_VALUE_LO R.CK_U_VALUE_HI u v).count R.CK_U_BYTES u row.length
  let s := if s.fld d R.CK_U_CFG_ALIVE u = 1 then s.ckAlive d u row else s
  if err then (s.setFld d R.CK_U_FLAGS_ERR 1 u).ckEvent d R.CK_EVENTS_ERR u else s

/-- TAKE: the result, and the running value back at INIT; ERR clears (R506, R508). -/
def Die.ckTake (x : Die) (u : Nat) : Die :=
  let r := crcTake (x.ckWidth u) (x.flag R.CK_U_CFG_REFOUT u) (x.flag R.CK_U_CFG_INV u) (x.pair R.CK_U_VALUE_LO R.CK_U_VALUE_HI u)
  (((x.setPair R.CK_U_RESULT_LO R.CK_U_RESULT_HI u r).setPair R.CK_U_VALUE_LO R.CK_U_VALUE_HI u
    (x.pair R.CK_U_INIT_LO R.CK_U_INIT_HI u)).count R.CK_U_TAKES u).setFld R.CK_U_FLAGS_ERR 0 u

/-- The context of a unit: 16 bytes (R508). -/
def Die.ckContext (x : Die) (u : Nat) : List Byte :=
  natLE 8 (x.pair R.CK_U_VALUE_LO R.CK_U_VALUE_HI u) ++ natLE 4 (x.fld R.CK_U_ALIVE_LAST u) ++ natLE 4 (x.fld R.CK_U_BYTES u)
/-- Restores a context; the next row's counter passes (R507). -/
def Die.ckRestore (x : Die) (u : Nat) (bs : List Byte) : Die :=
  (((x.setPair R.CK_U_VALUE_LO R.CK_U_VALUE_HI u (num bs 0 8)).setFld R.CK_U_ALIVE_LAST (num bs 8 4) u).setFld R.CK_U_BYTES
    (num bs 12 4) u).setFld R.CK_U_FLAGS_FIRST 1 u

end Sys2Proof.Machine
end

