-- ==== Sys2Proof/Machine/Parlour.lean ====
section
/-! DEFINITION. The parlour (17_parlour.md): threads, their release, dependence counters, ready lists, dispatch, budgets and
stops. -/

namespace Sys2Proof.Machine

/-- Thread `n` of a die. -/
def Die.th (x : Die) (n : Nat) : Thread := mget (fun _ => {}) x.par.threads n
/-- Thread `n` rewritten. -/
def Die.modTh (x : Die) (n : Nat) (f : Thread → Thread) : Die :=
  { x with par := { x.par with threads := mmod (fun _ => {}) x.par.threads n f } }
/-- Core `c` of a die. -/
def Die.core (x : Die) (c : Nat) : CoreSt := mget (fun _ => {}) x.par.cores c
/-- Core `c` rewritten. -/
def Die.modCore (x : Die) (c : Nat) (f : CoreSt → CoreSt) : Die :=
  { x with par := { x.par with cores := mmod (fun _ => {}) x.par.cores c f } }

/-- The line of the last pulse of a cadence, counted from the epoch. -/
def Die.lastLine (x : Die) (c : Nat) : Int := (x.cad c).next - 1
/-- The line of the master cadence that a readiness line names (R520). -/
def Die.masterLine (x : Die) : Int := x.lastLine x.masterCad

/-- A thread as the plan in force gives it: IDLE, with its counter at RELOAD (R517, R528); unclaimed where no record names it. -/
def Die.planThread (x : Die) (n : Nat) : Thread :=
  match (x.entriesOf 0x0D 32).find? fun e => num e.2 0 2 == n with
  | some (p, e) =>
    { claimed := true, core := num e 2 1, prio := num e 3 1, entry := num e 4 4, stack := num e 8 4, firstLine := num e 12 2
      period := num e 14 2, budget := num e 16 4, reload := num e 20 2, resident := bit (num e 22 1) 0
      restart := bit (num e 22 1) 1, frag := p.frag, count := num e 20 2 }
  | none => {}

/-! ### Core registers (R181) -/

/-- s[r]; s0 reads 0. -/
def CoreRegs.get (g : CoreRegs) (r : Nat) : W32 := if r = 0 then 0 else mget (fun _ => 0) g.s r
/-- s[r] written; a write of s0 is ignored. -/
def CoreRegs.set (g : CoreRegs) (r : Nat) (v : W32) : CoreRegs :=
  if r = 0 then g else { g with s := mput (fun _ => 0) g.s r v }

/-! ### Readiness and dispatch (R520, R521) -/

/-- Thread `n` becomes ready, with the current line as its readiness line. -/
def Die.makeReady (x : Die) (n : Nat) : Die :=
  x.modTh n fun t => { t with state := .ready, readyLine := x.masterLine }

/-- `a` sorts before `b` on a ready list: readiness line, priority, thread number (R520). -/
def Die.before (x : Die) (a b : Nat) : Bool :=
  let s := x.th a
  let t := x.th b
  decide (s.readyLine < t.readyLine ∨ (s.readyLine = t.readyLine ∧ (s.prio < t.prio ∨ (s.prio = t.prio ∧ a < b))))

/-- Inserts a thread into a list sorted by `before`. -/
def Die.insertReady (x : Die) (n : Nat) : List Nat → List Nat
  | [] => [n]
  | m :: l => if x.before n m then n :: m :: l else m :: x.insertReady n l

/-- The ready list of core `c`, first thread first. -/
def Die.readyList (x : Die) (c : Nat) : List Nat :=
  (x.par.threads.filter fun e => e.2.claimed && e.2.core == c && e.2.state == .ready).foldl (fun l e => x.insertReady e.1 l) []

/-- A thread's line map names the line (R518). -/
def Thread.released (t : Thread) (line : Nat) : Bool :=
  t.claimed && t.firstLine != 0xFFFF && (if t.period = 0 then line == t.firstLine
    else decide (t.firstLine ≤ line) && (line - t.firstLine) % t.period == 0)

/-- Inserts a thread into a list sorted by priority and thread number, the readiness line being the same for all. -/
def Die.insertNext (x : Die) (n : Nat) : List Nat → List Nat
  | [] => [n]
  | m :: l =>
    if (x.th n).prio < (x.th m).prio ∨ ((x.th n).prio = (x.th m).prio ∧ n < m) then n :: m :: l else m :: x.insertNext n l
/-- The threads of core `c` that the next line pulse of the master cadence makes ready by release or by delay expiry, in the order in
which they will sort (R520, R521). -/
def Die.upcoming (x : Die) (c : Nat) : List Nat :=
  match x.grid x.masterCad with
  | none => []
  | some g =>
    let line := g.line (x.masterLine + 1)
    let idle (t : Thread) : Bool := t.state == .idle || t.state == .suspended || (t.state == .stopped && t.restart)
    (x.par.threads.filter fun e => e.2.claimed && e.2.core == c &&
      ((idle e.2 && e.2.released line) || (e.2.state == .delayed && e.2.expiry == 1))).foldl (fun l e => x.insertNext e.1 l) []

/-- The stalls hold the two threads that sort first after the running one, those among them that the next line pulse makes ready
(R521). A spilled thread that leaves them without running has its context written back. -/
def Die.restall (x : Die) (c : Nat) : Die :=
  let new := (x.readyList c ++ x.upcoming c).take 2
  let out := (x.core c).stalls.filter fun n => !(new.contains n)
  (out.foldl (fun x n => x.modTh n fun t => if t.resident || t.state == .running then t else { t with loaded := false }) x).modCore c
    fun k => { k with stalls := new }

/-- The thread's context as an activation starts with: at ENTRY, with STACK in s30 (R517, R518). -/
def Thread.fresh (t : Thread) : Thread :=
  { t with ctx := { (t.ctx.set 30 (BitVec.ofNat 32 t.stack)) with pc := BitVec.ofNat 32 t.entry }, used := 0 }

/-- The running thread's context leaves its core. -/
def Die.saveCtx (x : Die) (c : Nat) : Die :=
  match (x.core c).run with
  | some n =>
    let g := (x.core c).regs
    (x.modTh n fun t => { t with ctx := g, loaded := t.resident && t.loaded }).modCore c fun k => { k with run := none, syncing := false }
  | none => x

/-- Takes thread `n` off its core if it runs there, with its context saved. -/
def Die.offCore (x : Die) (n : Nat) : Die :=
  if (x.core (x.th n).core).run = some n then x.saveCtx (x.th n).core else x

/-- An activation of thread `n` starts: ready at ENTRY (R518). -/
def Die.activate (x : Die) (n : Nat) : Die := ((x.modTh n Thread.fresh).makeReady n).restall (x.th n).core

/-- An activation of thread `n` ends (R518). -/
def Die.endActivation (x : Die) (n : Nat) : Die :=
  let x := x.offCore n
  if (x.th n).ending.isSome then (x.modTh n fun _ => x.planThread n).restall (x.th n).core
  else if 0 < (x.th n).pending then (x.modTh n fun t => { t with pending := t.pending - 1 }).activate n
  else (x.modTh n fun t => { t with state := .idle }).restall (x.th n).core

/-- A release of thread `n` (R518, R526, R527). -/
def State.release (s : State) (d : DieId) (n : Nat) : State :=
  let t := (s.die d).th n
  let late := (s.count d R.PA_LATE).eventRec d R.PA_EVENTS_LATE 0 n 0
  if !t.claimed then s
  else match t.state with
    | .idle | .suspended => s.upd d fun x => x.activate n
    | .stopped =>
      if t.restart then s.upd d fun x => (x.modTh n fun t => { t with count := t.reload, cause := 0, pending := 0 }).activate n
      else late
    | _ => if t.pending < 15 then s.upd d fun x => x.modTh n fun t => { t with pending := t.pending + 1 } else late

/-- Thread `n` stops with a cause of R527. -/
def State.stopThread (s : State) (d : DieId) (n cause : Nat) : State :=
  let s := s.upd d fun x => ((x.offCore n).modTh n fun t => { t with state := .stopped, cause := cause }).restall (x.th n).core
  let f := unsgn 16 ((s.die d).frameLine (s.die d).masterCad).1
  let s := ((s.setFld d R.PA_LAST_FAULT_THREAD n).setFld d R.PA_LAST_FAULT_CAUSE cause).setFld d R.PA_LAST_FAULT_FRAME f
  s.eventRec d R.PA_EVENTS_STOPPED 0 n cause

/-! ### Dependence counters (R525) -/

/-- A WAIT completes: the counter gains RELOAD, s1 returns 0 and the thread is ready. The range is invalidated by `inv`. -/
def Die.waitDone (x : Die) (n : Nat) : Die :=
  ((x.modTh n fun t => { t with count := t.count + t.reload, ctx := t.ctx.set 1 0 }).makeReady n).restall (x.th n).core

/-- A decrement of thread `n`'s dependence counter; answers whether a WAIT completed. -/
def State.postCount (s : State) (d : DieId) (n : Nat) : State × Bool :=
  let t := (s.die d).th n
  if !t.claimed then (s, false)
  else if t.count ≤ -32768 then ((s.count d R.PA_OVERPOSTS).eventRec d R.PA_EVENTS_OVERPOST 0 n 0, false)
  else
    let s := s.upd d fun x => x.modTh n fun t => { t with count := t.count - 1 }
    if t.state = .waiting ∧ t.count - 1 ≤ 0 then (s.upd d fun x => x.waitDone n, true) else (s, false)

end Sys2Proof.Machine
end

