-- ==== Sys2Proof/Machine/Cache.lean ====
section
/-! DEFINITION. The caches of the control cores (R184, R511 to R516): the data L1 of each core and the shared L2, coherent among
the cores and with nobody else. What the caches evict, and when, the spec leaves open: a free value decides (log entry 13). -/

namespace Sys2Proof.Machine

/-- The DRAM address of a core address in one of the core's windows (R512); none where the window is not mapped or the
address lies in no window. -/
def Die.window (x : Die) (c a : Nat) : Option Nat :=
  if a < 2 ^ 31 then none
  else
    let w := (a - 2 ^ 31) / 2 ^ 28
    if x.flag R.PA_CORE_WIN_VALID c w then some (x.fld R.PA_CORE_WIN_BASE c w * 2 ^ 28 + a % 2 ^ 28) else none

/-- A line of a core's data L1. -/
def Die.l1 (x : Die) (c l : Nat) : Option CacheLine := oget (x.core c).l1 l
/-- A line of the shared L2. -/
def Die.l2 (x : Die) (l : Nat) : Option CacheLine := oget x.par.l2 l
def Die.setL1 (x : Die) (c l : Nat) (v : Option CacheLine) : Die :=
  x.modCore c fun k => { k with l1 := mput (fun _ => none) k.l1 l v }
def Die.setL2 (x : Die) (l : Nat) (v : Option CacheLine) : Die := { x with par := { x.par with l2 := mput (fun _ => none) x.par.l2 l v } }

/-- The line, clean: no store into it waits for a write-back. -/
def CacheLine.clean (k : CacheLine) : CacheLine := { k with dirty := false, cores := [] }

/-- The cores whose stores stand dirty in the L2's copy of a line. -/
def Die.l2Cores (x : Die) (l : Nat) : List Nat := match x.l2 l with
  | some k => if k.dirty then k.cores else []
  | none => []

/-- A dirty line of core `c`'s L1 is copied to the L2, which then holds it dirty; the L1's copy is clean. -/
def Die.pushL1 (x : Die) (c l : Nat) : Die :=
  match x.l1 c l with
  | some k => if k.dirty then (x.setL1 c l (some k.clean)).setL2 l (some { k with cores := (k.cores ++ x.l2Cores l).eraseDups }) else x
  | none => x

/-- The dirty copies of a line in the other cores' L1s are copied to the L2, so that a load sees every store that another core
has completed (R511). -/
def Die.pushOthers (x : Die) (c l : Nat) : Die := ((List.range 8).filter fun j => j != c).foldl (fun x j => x.pushL1 j l) x

/-- The other cores' copies of a line are dropped when a core stores to it. -/
def Die.dropOthers (x : Die) (c l : Nat) : Die := ((List.range 8).filter fun j => j != c).foldl (fun x j => x.setL1 j l none) x

/-- Writes a line back to DRAM, for the cores whose stores, CLEAN or INVAL the write-back completes. -/
def State.writeLine (s : State) (d : DieId) (cores : List Nat) (l : Nat) (bs : List Byte) : State :=
  (s.touchOpen d (64 * l)).upd d fun x => x.dramWrite s.now (64 * l) (bs.map some) cores

/-- The line's dirty copies in core `c`'s L1 and in the L2 are written back and become clean (R184, CLEAN). -/
def State.cleanLine (s : State) (d : DieId) (c l : Nat) : State :=
  let s := s.upd d fun x => x.pushL1 c l
  match (s.die d).l2 l with
  | some k => if k.dirty then (s.writeLine d (c :: k.cores).eraseDups l k.bytes).upd d fun x => x.setL2 l (some k.clean) else s
  | none => s

/-- CLEAN, then the line leaves core `c`'s L1 and the L2 (R184, INVAL). -/
def State.invalLine (s : State) (d : DieId) (c l : Nat) : State :=
  (s.cleanLine d c l).upd d fun x => (x.setL1 c l none).setL2 l none

/-- The L2 gives a line up: it leaves every L1 too, and is written back where it was dirty. -/
def State.evictL2 (s : State) (d : DieId) (l : Nat) : State :=
  let s := s.upd d fun x => (List.range 8).foldl (fun x j => (x.pushL1 j l).setL1 j l none) x
  match (s.die d).l2 l with
  | some k => (if k.dirty then s.writeLine d k.cores l k.bytes else s).upd d fun x => x.setL2 l none
  | none => s

/-- A free value decides whether a line leaves core `c`'s L1 and whether one leaves the L2, and which; a full cache gives one
up (L1 512 lines, L2 65,536). Line `keep` stays. -/
def State.evict (s : State) (d : DieId) (c keep : Nat) : State :=
  let v := s.draw
  let s := v.2
  let n1 := ((s.die d).core c).l1.filter fun e => e.1 != keep
  let s := if n1 ≠ [] ∧ (v.1 % 4 = 1 ∨ 512 ≤ n1.length) then
      let l := (n1.getD (v.1 / 4 % n1.length) (0, none)).1
      s.upd d fun x => (x.pushL1 c l).setL1 c l none
    else s
  let n2 := (s.die d).par.l2.filter fun e => e.1 != keep
  if n2 ≠ [] ∧ (v.1 % 4 = 2 ∨ 65536 ≤ n2.length) then s.evictL2 d (n2.getD (v.1 / 4 % n2.length) (0, none)).1 else s

/-- Brings a line into core `c`'s L1: the core cycles it takes (R185), and whether the DRAM read met an uncorrectable error. -/
def State.fill (s : State) (d : DieId) (c l : Nat) (e : Ecc) : State × Nat × Bool :=
  if ((s.die d).l1 c l).isSome then (s, 3, false)
  else
    let s := s.upd d fun x => x.pushOthers c l
    match (s.die d).l2 l with
    | some k => ((s.upd d fun x => x.setL1 c l (some k.clean)).evict d c l, 16, false)
    | none =>
      let pe := (s.die d).eccOf (dramRegion (64 * l)) 1 e
      let s := ((s.setDie d pe.2).touchOpen d (64 * l)).dramEcc d (64 * l) pe.1 (pe.1 != e)
      let k : CacheLine := ⟨(s.die d).dramRead (64 * l) 64, false, []⟩
      let v := s.draw
      ((v.2.upd d fun x => (x.setL1 c l (some k)).setL2 l (some k)).evict d c l, 17 + v.1, pe.1 = .uncorrected)

/-- `n` bytes at DRAM address `a` as core `c` sees them, once the line is in its L1. -/
def Die.cached (x : Die) (c a n : Nat) : List Byte :=
  match x.l1 c (a / 64) with
  | some k => subBytes k.bytes (a % 64) n
  | none => x.dramRead a n

/-- Bytes replaced in a line by a store of core `c`. -/
def CacheLine.put (k : CacheLine) (c o : Nat) (bs : List Byte) : CacheLine :=
  ⟨k.bytes.take o ++ bs ++ k.bytes.drop (o + bs.length), true, (c :: k.cores).eraseDups⟩

/-- Stores bytes at DRAM address `a` into the line in core `c`'s L1. -/
def Die.cacheStore (x : Die) (c a : Nat) (bs : List Byte) : Die :=
  match x.l1 c (a / 64) with
  | some k => (x.dropOthers c (a / 64)).setL1 c (a / 64) (some (k.put c (a % 64) bs))
  | none => x

/-- The cached lines that a range of core addresses covers, widened to whole lines (R184). -/
def Die.rangeLines (x : Die) (c start len : Nat) : List Nat :=
  if len = 0 then []
  else
    let lo := start / 64 * 64
    let hi := (start + len + 63) / 64 * 64
    let inRange (l : Nat) : Bool := (List.range 8).any fun w =>
      x.flag R.PA_CORE_WIN_VALID c w && x.fld R.PA_CORE_WIN_BASE c w == l / 2 ^ 22 &&
        (let a := 2 ^ 31 + w * 2 ^ 28 + l % 2 ^ 22 * 64; decide (lo ≤ a ∧ a < hi))
    (((x.core c).l1.map Prod.fst ++ x.par.l2.map Prod.fst).eraseDups).filter inRange

/-- CLEAN over a range. -/
def State.clean (s : State) (d : DieId) (c start len : Nat) : State :=
  ((s.die d).rangeLines c start len).foldl (fun s l => s.cleanLine d c l) s
/-- INVAL over a range. -/
def State.inval (s : State) (d : DieId) (c start len : Nat) : State :=
  ((s.die d).rangeLines c start len).foldl (fun s l => s.invalLine d c l) s
/-- Lines of a range, for its cost (R185). -/
def lineCount (start len : Nat) : Nat := if len = 0 then 0 else (start % 64 + len + 63) / 64

/-- The dirty lines of a range in core `c`'s L1 or the L2, which CLEAN and INVAL write back. -/
def Die.dirtyLines (x : Die) (c start len : Nat) : List Nat :=
  (x.rangeLines c start len).filter fun l =>
    ((x.l1 c l).any fun k => k.dirty) || (x.l2 l).any fun k => k.dirty
/-- Core cycles of CLEAN and INVAL: one for each line of the range, and the write-back of the dirty ones, whose time the spec
leaves open (R185; log entry 14). -/
def Die.cleanCost (x : Die) (c start len : Nat) : Nat :=
  lineCount start len + (let n := (x.dirtyLines c start len).length; if n = 0 then 0 else Config.writeBackCycles n)

/-- The lines that hold stores of core `c` dirty: in its own L1, or in the L2 once they have left it. -/
def Die.unsynced (x : Die) (c : Nat) : List Nat :=
  ((x.core c).l1 ++ x.par.l2).filterMap fun e => match e.2 with
    | some k => if k.dirty && k.cores.contains c then some e.1 else none
    | none => none
/-- SYNC: the core's stores that stand dirty in a cache are written back, since SYNC completes only when every one of them has
reached DRAM (R184; DEDUCED, log entry 13). -/
def State.drain (s : State) (d : DieId) (c : Nat) : State :=
  ((s.die d).unsynced c).eraseDups.foldl (fun s l => s.cleanLine d c l) s
/-- A write that carries stores, a CLEAN or an INVAL of core `c` has not reached DRAM at supervisor time `t`: every write has within
160 ns (R184, SYNC; R471). -/
def Die.coreDraining (x : Die) (c t : Nat) : Bool := x.dram.writes.any fun w => w.cores.contains c && decide (t < w.issued + 160 * nsec)

/-- A decrement of thread `n`'s dependence counter by a tile, a DMA channel or a thread; a WAIT that completes invalidates its
range (R525). -/
def State.post (s : State) (d : DieId) (n : Nat) : State :=
  let t := (s.die d).th n
  let r := s.postCount d n
  if r.2 then r.1.inval d t.core t.waitRange.1 t.waitRange.2 else r.1

end Sys2Proof.Machine
end

