-- ==== Sys2Proof/Machine/TileCtl.lean ====
section
/-! DEFINITION. The CTL slot of a tile (R171 to R175) and the course of a window program: which bundle issues next, loops,
skipped ranges, the end of a program, and the deferred program's pauses (R133). The CTL-slot command closes the bundle's
cycle: it is the last of the four slot commands of a bundle (log entry 8). -/

namespace Sys2Proof.Machine

/-- The tile issues its program's bundle in the present cycle: a window is open, the program has not ended and does not
wait, and the cycle is neither an idle one of a DLOOP, nor inside a skipped range, nor that of a bundle with a double-bit error
(R179). -/
def Tile.issues (t : Tile) : Bool :=
  t.open_ && t.running && t.waiting.isNone && t.idle == 0 && t.skip == 0 && !t.blank

/-- After the last bundle of a body, the loop stack goes back to its start or lets the level go; a DLOOP's idle cycles
follow its last iteration (R172, R173). -/
def loopNext : List LoopLevel → Nat → Nat → Nat × List LoopLevel × Nat
  | [], next, idle => (next, [], idle)
  | l :: ls, next, idle =>
    if next = l.after then
      if 0 < l.left then (l.first, { l with left := l.left - 1 } :: ls, idle)
      else loopNext ls next (idle + l.filler)
    else (next, l :: ls, idle)

/-- The point at which the program stands. -/
def Tile.point (t : Tile) : ProgPoint := ⟨t.bundle, t.loops, t.skip, t.idle, t.waiting⟩

/-- Sets the program to a point. -/
def Tile.goto (t : Tile) (p : ProgPoint) : Tile :=
  { t with bundle := p.bundle, loops := p.loops, skip := p.skip, idle := p.idle, waiting := p.waiting }

/-- Moves to the bundle after the present one. -/
def Tile.advance (t : Tile) : Tile :=
  if 0 < t.idle then { t with idle := t.idle - 1 }
  else
    let r := loopNext t.loops (t.bundle + 1) 0
    { t with bundle := r.1, loops := r.2.1, idle := r.2.2, skip := t.skip - 1 }

/-- At the first cycle of the slack region the deferred program resumes where it paused (R133). -/
def Tile.enterSlack (t : Tile) : Tile :=
  if t.prog.slack && t.cycle == t.prog.liveEnd && t.paused then
    match t.saved with
    | some p => { t.goto p with paused := false, saved := none, running := true }
    | none => { t with paused := false }
  else t

/-- The end of a cycle: the program moves on unless it waits or has ended, the cycle number rises, and the results that are
seen from the new cycle on land. -/
def Tile.close (t : Tile) : Tile :=
  let t := if t.running && t.waiting.isNone then t.advance else t
  ({ t with cycle := t.cycle + 1, blank := false }.settle).enterSlack

/-- LOOP: the next LEN bundles COUNT times. -/
def Tile.loop (len count : Nat) (t : Tile) : Tile :=
  { t with loops := ⟨t.bundle + 1, t.bundle + 1 + len, count - 1, 0⟩ :: t.loops }

/-- The data-dependent count of a DLOOP: lane 0 of the group v, v + 1 (R173). -/
def Tile.dcount (t : Tile) (v : Nat) : Nat := t.group v 2 0

/-- DLOOP: min(count, BOUND) iterations, then idle bundles up to BOUND x LEN cycles; a count above BOUND sets f15 (R173). -/
def Tile.dloop (len v bound : Nat) (t : Tile) : Tile :=
  let n := min (t.dcount v) bound
  let t := if bound < t.dcount v then t.later 1 (.f 15 true) else t
  if n = 0 then
    let r := loopNext t.loops (t.bundle + 1 + len) 0
    { t with bundle := r.1, loops := r.2.1, idle := bound * len + r.2.2 + 1 }
  else { t with loops := ⟨t.bundle + 1, t.bundle + 1 + len, n - 1, (bound - n) * len⟩ :: t.loops }

/-- IFP: the next N bundles issue as idle bundles where lane 0 of predicate P is 0. The present bundle's own advance takes
one off the count, so N + 1 is set. -/
def Tile.ifp (p n : Nat) (t : Tile) : Tile := if (t.preg p).getLsbD 0 then t else { t with skip := n + 1 }

/-- END: the program ends after this bundle. -/
def Tile.end_ (t : Tile) : Tile := { t with running := false }

/-- WAITF: flag F 1 clears it and the next bundle follows; else the tile waits (R175). -/
def Tile.waitf (f : Nat) (t : Tile) : Tile :=
  if t.flag f then t.later 1 (.f f false) else { t with waiting := some f }

/-- The flag awaited is 1: it is cleared, and the next bundle issues in the following cycle (R175). -/
def Tile.waitfResume (t : Tile) : Tile :=
  match t.waiting with
  | some f => if t.flag f then ({ t with waiting := none }.later 1 (.f f false)).close else t
  | none => t

/-- SETF. -/
def Tile.setf (f : Nat) (t : Tile) : Tile := t.later 1 (.f f true)
/-- CLRF. -/
def Tile.clrf (f : Nat) (t : Tile) : Tile := t.later 1 (.f f false)
/-- A flag set by a DMA signal in the present cycle (R175). -/
def Tile.signalFlag (f : Nat) (t : Tile) : Tile := if t.open_ then t.later 1 (.f f true) else t.land (.f f true)

/-- POS: the window's line number into lane 0 of v and v + 1, the group that R159 makes of them (log entry 64 for v31). -/
def Tile.pos (v : Nat) (t : Tile) : Tile :=
  (t.later 1 (.v v (vecOf fun _ => BitVec.ofNat 8 t.line) 1#32)).later 1 (.v ((v + 1) % 32) (vecOf fun _ => BitVec.ofNat 8 (t.line / 256)) 1#32)

/-- The end of a slack region: the deferred program pauses at the bundle boundary and keeps its state (R133). -/
def Tile.slackEnd (t : Tile) : Tile :=
  if t.running then { t with saved := some t.point, paused := true, running := false, waiting := none, idle := 0, skip := 0, loops := [] }
  else t

/-- The unit of work of a deferred program is abandoned: the program starts its next unit at its next slack region (R134). -/
def Tile.abandon (t : Tile) : Tile :=
  { t with paused := false, saved := none, running := t.running && !(t.prog.slack && decide (t.prog.liveEnd ≤ t.cycle))
           waiting := if t.prog.slack && decide (t.prog.liveEnd ≤ t.cycle) then none else t.waiting }

/-- A window opens: the program that the line map gives starts at cycle 0 (R125, R127). A deferred program that was paused stays so
until its slack region, which may start at once (R133). -/
def Tile.openWindow (line first : Nat) (w : WinProg) (t : Tile) : Tile :=
  { t with open_ := true, running := true, cycle := 0, bundle := first, loops := [], skip := 0, idle := 0, waiting := none, blank := false,
           line := line, prog := w }.settle.enterSlack

end Sys2Proof.Machine
end

