-- ==== Sys2Proof/Machine/Vat.lean ====
section
/-! DEFINITION. What the slots of a tile do to the package: the faults of an access and of a route, words that cross an edge,
DRAM accesses of the slot port, and the rows of the opcode table that are a tile's own. A slot command acts only where the
tile issues a bundle in the present cycle (R150). -/

namespace Sys2Proof.Machine

/-- A slot command: it acts where the tile issues. -/
def State.slot (s : State) (d : DieId) (t : Nat) (f : Tile → Tile) : State :=
  s.upd d fun x => if (x.tile t).issues then x.setTile t (f (x.tile t)) else x

/-- Counts and records what befell an access to scratch (R118, R119). -/
def State.tileFault (s : State) (d : DieId) (t : Nat) (f : TileFault) (pert : Bool := false) : State :=
  match f with
  | .none => s
  | .bank =>
    let s := s.upd d fun x => ((x.count R.VT_BANK_FAULTS).lastFault t 3).hitFragment (x.tileFrag t) 6
    s.eventRec d R.VT_EVENTS_BANK_FAULT 0 t 3 pert
  | .corrected => (s.count d R.VT_ECC_CORR).event d R.VT_EVENTS_ECC_CORR 0 t
  | .uncorrected =>
    let s := s.upd d fun x => ((x.count R.VT_ECC_UNCORR).lastFault t 2).hitFragment (x.tileFrag t) 2
    s.eventRec d R.VT_EVENTS_ECC_UNCORR 0 t 2 pert

/-- What SECDED finds, as a scratch access meets it. -/
def eccFault : Ecc → TileFault
  | .clean => .none
  | .corrected => .corrected
  | .uncorrected => .uncorrected

/-- A slot command that accesses scratch. -/
def State.slotMem (s : State) (d : DieId) (t : Nat) (e : Ecc) (f : TileFault → Tile → Tile × TileFault) : State :=
  if ((s.die d).tile t).issues then
    let pe := (s.die d).eccOf t 0 e
    let r := f (eccFault pe.1) ((s.die d).tile t)
    ((s.setDie d pe.2).upd d fun x => x.setTile t r.1).tileFault d t r.2 (pe.1 != e)
  else s

/-- f14 is on its way to 1. -/
def Tile.overflowing (t : Tile) : Bool := t.due.any fun e => e.2 == .f 14 true

/-- A slot command of the bin coder: an overflow of the FIFO hits the fragment's rows (R166, R217). -/
def State.slotCoder (s : State) (d : DieId) (t : Nat) (f : Tile → Tile) : State :=
  let was := ((s.die d).tile t).overflowing
  let s := s.slot d t f
  if !was && ((s.die d).tile t).overflowing then s.upd d fun x => x.hitFragment (x.tileFrag t) 4 else s

/-! ### ROUTE (R153 to R155, R122) -/

/-- The out-edge bit of a direction: [3] north, [2] east, [1] south, [0] west. -/
def drives (dst : BitVec 4) (dir : Nat) : Bool := dst.getLsbD (4 - dir)

/-- The sources that move A and move B direct to one out-edge, in the order of R122, each once. -/
def edgeSources (srca : Nat) (dsta : BitVec 4) (srcb : Nat) (dstb : BitVec 4) (dir : Nat) : List Nat :=
  let a := if srca ≠ 0 ∧ drives dsta dir then [srca] else []
  let b := if srcb ≠ 0 ∧ drives dstb dir ∧ !(a.contains srcb) then [srcb] else []
  match a ++ b with
  | [m, n] => if n < m then [n, m] else [m, n]
  | l => l

/-- The word that a source code of R154 names. -/
def Tile.source (t : Tile) (code lv : Nat) : Vec := if code = 1 then t.vreg lv else t.edge (code - 1)

/-- A word arrives at a tile: in its in-edge register from cycle `vis` on. -/
def Tile.arrive (t : Tile) (vis dir : Nat) (w : Vec) : Tile :=
  if vis ≤ t.cycle then t.land (.edge dir w) else { t with due := t.due ++ [(vis, .edge dir w)] }

/-- One out-edge of an RT: the first source of R122 is carried; a collision is a ROUTE breach. -/
def State.routeEdge (s : State) (d : DieId) (t : Nat) (src : Tile) (l : List Nat) (lv dir : Nat) : State :=
  match l with
  | [] => s
  | n :: rest =>
    let s := match neighbour t dir with
      | some m => s.upd d fun x => x.setTile m ((x.tile m).arrive (src.cycle + 2) (opposite dir) (src.source n lv))
      | none => s
    if rest = [] then s
    else
      let s := s.upd d fun x => (x.count R.VT_ROUTE_FAULTS).lastFault t 4
      (s.event d R.VT_EVENTS_ROUTE 0 t).breach d .route ((s.die d).tileFrag t) ((s.die d).tileCad t)

/-- RT: both moves, then the receive. -/
def State.route (s : State) (d : DieId) (t srca : Nat) (dsta : BitVec 4) (srcb : Nat) (dstb : BitVec 4) (lv rin rv : Nat) : State :=
  let src := (s.die d).tile t
  if src.issues then
    let s := (List.range 4).foldl (fun s i => s.routeEdge d t src (edgeSources srca dsta srcb dstb (i + 1)) lv (i + 1)) s
    if rin = 0 then s
    else s.upd d fun x => x.setTile t ((x.tile t).later 1 (.v rv (src.edge rin) (BitVec.allOnes 32)))
  else s

/-! ### The DRAM slot port (R135 to R137, R168, R469) -/

/-- DRD: the access issues, with its fault if it has one; q and a step. -/
def State.drd (s : State) (d : DieId) (t q : Nat) (incq : Bool) (ar : Nat) (inca : Bool) : State :=
  let x := s.die d
  let v := x.tile t
  if v.issues then
    let a := v.qreg q
    let f := x.portCheck t a
    let p : PortRead := ⟨a, v.portAddr t ar, x.dramRead a 64, f != .none, s.now⟩
    let s := s.upd d fun x => x.setTile t { v.portStep q ar incq inca with reads := v.reads ++ [p] }
    if f = .none then s.touch d a (x.tileStamp t) else s.portFault d t a f
  else s

/-- DWR: 64 bytes of scratch, read in the issue cycle, to DRAM; an entry that is uncorrectable reads 0 (R119). -/
def State.dwr (s : State) (d : DieId) (t q : Nat) (incq : Bool) (ar : Nat) (inca : Bool) (e e' : Ecc) : State :=
  let pe := (s.die d).eccOf t 0 e
  let x := pe.2
  let v := x.tile t
  if v.issues then
    let a := v.qreg q
    let f := x.portCheck t a
    let raw := v.readScratch t (v.portAddr t ar) 64
    let bs := eccEntries 0 (fun k => (if k = 0 then pe.1 else e') == .uncorrected) raw
    let s := ((s.setDie d x).upd d fun x => x.setTile t (v.portStep q ar incq inca)).tileFault d t (eccFault pe.1) (pe.1 != e)
    let s := s.tileFault d t (eccFault e')
    if f = .none then (s.touch d a (x.tileStamp t)).upd d fun x => x.dramWrite s.now a (bs.map some)
    else s.portFault d t a f
  else s

/-! ### The bundle (R150, R179) -/

/-- The bundle store's SECDED, as the bundle is read and before its slots act: a double-bit error makes the whole bundle issue as the
idle bundle, and is counted and recorded (R179). -/
def State.bundleEcc (s : State) (d : DieId) (t : Nat) (e : Ecc) : State :=
  match e with
  | .clean => s
  | .corrected => (s.count d R.VT_ECC_CORR).event d R.VT_EVENTS_ECC_CORR 0 t
  | .uncorrected => (s.upd d fun x => x.setTile t { x.tile t with blank := true }).tileFault d t .uncorrected

/-- The CTL slot closes the cycle of its bundle (log entry 8). -/
def State.ctl (s : State) (d : DieId) (t : Nat) (f : Tile → Tile) : State :=
  s.upd d fun x => if (x.tile t).open_ then x.setTile t (if (x.tile t).issues then f (x.tile t) else x.tile t).close else x

/-! ### The rows of the opcode table: ALU opcodes of tiles alone -/

def execAddus (d : DieId) (t : Fin 1536) (vd va vb : Fin 32) (p : Fin 4) (s : State) : Result :=
  onDie s d (Instr.wf (.addus d t vd va vb p)) (s.slot d t (Tile.alu opAddus vd va vb p))
def execSubus (d : DieId) (t : Fin 1536) (vd va vb : Fin 32) (p : Fin 4) (s : State) : Result :=
  onDie s d (Instr.wf (.subus d t vd va vb p)) (s.slot d t (Tile.alu opSubus vd va vb p))
def execAddss (d : DieId) (t : Fin 1536) (vd va vb : Fin 32) (p : Fin 4) (s : State) : Result :=
  onDie s d (Instr.wf (.addss d t vd va vb p)) (s.slot d t (Tile.alu opAddss vd va vb p))
def execSubss (d : DieId) (t : Fin 1536) (vd va vb : Fin 32) (p : Fin 4) (s : State) : Result :=
  onDie s d (Instr.wf (.subss d t vd va vb p)) (s.slot d t (Tile.alu opSubss vd va vb p))
def execAvgu (d : DieId) (t : Fin 1536) (vd va vb : Fin 32) (p : Fin 4) (s : State) : Result :=
  onDie s d (Instr.wf (.avgu d t vd va vb p)) (s.slot d t (Tile.alu opAvgu vd va vb p))
def execAbsd (d : DieId) (t : Fin 1536) (vd va vb : Fin 32) (p : Fin 4) (s : State) : Result :=
  onDie s d (Instr.wf (.absd d t vd va vb p)) (s.slot d t (Tile.alu opAbsd vd va vb p))
def execFshr (d : DieId) (t : Fin 1536) (vd va vb : Fin 32) (imm : Byte) (p : Fin 4) (s : State) : Result :=
  onDie s d (Instr.wf (.fshr d t vd va vb imm p)) (s.slot d t (Tile.fshr vd va vb imm.toNat p))
def execFshl (d : DieId) (t : Fin 1536) (vd va vb : Fin 32) (imm : Byte) (p : Fin 4) (s : State) : Result :=
  onDie s d (Instr.wf (.fshl d t vd va vb imm p)) (s.slot d t (Tile.fshl vd va vb imm.toNat p))
def execKtop (d : DieId) (t : Fin 1536) (vd : Fin 32) (p : Fin 4) (s : State) : Result :=
  onDie s d (Instr.wf (.ktop d t vd p)) (s.slot d t (Tile.ktop vd p))
def execPtok (d : DieId) (t : Fin 1536) (va : Fin 32) (p : Fin 4) (s : State) : Result :=
  onDie s d (Instr.wf (.ptok d t va p)) (s.slot d t (Tile.ptok va p))
def execSel (d : DieId) (t : Fin 1536) (vd va vb : Fin 32) (p : Fin 4) (s : State) : Result :=
  onDie s d (Instr.wf (.sel d t vd va vb p)) (s.slot d t (Tile.sel vd va vb p))
def execShuf (d : DieId) (t : Fin 1536) (vd va vb : Fin 32) (p : Fin 4) (s : State) : Result :=
  onDie s d (Instr.wf (.shuf d t vd va vb p)) (s.slot d t (Tile.shuf vd va vb p))
def execBcast (d : DieId) (t : Fin 1536) (vd va : Fin 32) (imm : Byte) (p : Fin 4) (s : State) : Result :=
  onDie s d (Instr.wf (.bcast d t vd va imm p)) (s.slot d t (Tile.bcast vd va imm.toNat p))
def execRup2 (d : DieId) (t : Fin 1536) (vd va : Fin 32) (imm : Byte) (p : Fin 4) (s : State) : Result :=
  onDie s d (Instr.wf (.rup2 d t vd va imm p)) (s.slot d t (Tile.rup2 vd va imm.toNat p))
def execRup4 (d : DieId) (t : Fin 1536) (vd va : Fin 32) (imm : Byte) (p : Fin 4) (s : State) : Result :=
  onDie s d (Instr.wf (.rup4 d t vd va imm p)) (s.slot d t (Tile.rup4 vd va imm.toNat p))
def execRpk2 (d : DieId) (t : Fin 1536) (vd va : Fin 32) (imm : Byte) (p : Fin 4) (s : State) : Result :=
  onDie s d (Instr.wf (.rpk2 d t vd va imm p)) (s.slot d t (Tile.rpk2 vd va imm.toNat p))
def execRpk4 (d : DieId) (t : Fin 1536) (vd va : Fin 32) (imm : Byte) (p : Fin 4) (s : State) : Result :=
  onDie s d (Instr.wf (.rpk4 d t vd va imm p)) (s.slot d t (Tile.rpk4 vd va imm.toNat p))
def execJoinl (d : DieId) (t : Fin 1536) (vd va vb : Fin 32) (imm : Byte) (p : Fin 4) (s : State) : Result :=
  onDie s d (Instr.wf (.joinl d t vd va vb imm p)) (s.slot d t (Tile.joinl vd va vb imm.toNat p))
def execJoinh (d : DieId) (t : Fin 1536) (vd va : Fin 32) (imm : Byte) (p : Fin 4) (s : State) : Result :=
  onDie s d (Instr.wf (.joinh d t vd va imm p)) (s.slot d t (Tile.joinh vd va imm.toNat p))

/-! ### S-tiles -/

def execSad (d : DieId) (t : Fin 1536) (vd va vb : Fin 32) (p : Fin 4) (s : State) : Result :=
  onDie s d (Instr.wf (.sad d t vd va vb p)) (s.slot d t (Tile.sad vd va vb p))
def execSadz (d : DieId) (t : Fin 1536) (vd va vb : Fin 32) (p : Fin 4) (s : State) : Result :=
  onDie s d (Instr.wf (.sadz d t vd va vb p)) (s.slot d t (Tile.sadz vd va vb p))
def execSatd4 (d : DieId) (t : Fin 1536) (vd va vb : Fin 32) (s : State) : Result :=
  onDie s d (Instr.wf (.satd4 d t vd va vb)) (s.slot d t (Tile.satd4 vd va vb))
def execSatd8 (d : DieId) (t : Fin 1536) (vd va vb : Fin 32) (s : State) : Result :=
  onDie s d (Instr.wf (.satd8 d t vd va vb)) (s.slot d t (Tile.satd8 vd va vb))
def execBest3 (d : DieId) (t : Fin 1536) (va : Fin 32) (imm : Byte) (s : State) : Result :=
  onDie s d (Instr.wf (.best3 d t va imm)) (s.slot d t (Tile.best3 va imm.toNat))
def execDadd (d : DieId) (t : Fin 1536) (vd va vb : Fin 32) (s : State) : Result :=
  onDie s d (Instr.wf (.dadd d t vd va vb)) (s.slot d t (Tile.dadd vd va vb))
def execDrdS (d : DieId) (t : Fin 1536) (vd : Fin 32) (imm : Byte) (p : Fin 4) (s : State) : Result :=
  onDie s d (Instr.wf (.drdS d t vd imm p)) (s.slot d t (Tile.drdS vd imm.toNat p))
def execBrd (d : DieId) (t : Fin 1536) (vd : Fin 32) (imm : Byte) (p : Fin 4) (s : State) : Result :=
  onDie s d (Instr.wf (.brd d t vd imm p)) (s.slot d t (Tile.brd vd imm.toNat p))
def execDclr (d : DieId) (t : Fin 1536) (s : State) : Result :=
  onDie s d (Instr.wf (.dclr d t)) (s.slot d t Tile.dclr)

/-! ### T-tiles -/

def execMulu (d : DieId) (t : Fin 1536) (vd va vb : Fin 32) (imm : Byte) (p : Fin 4) (s : State) : Result :=
  onDie s d (Instr.wf (.mulu d t vd va vb imm p)) (s.slot d t (Tile.mulu vd va vb imm.toNat p))
def execMacu (d : DieId) (t : Fin 1536) (vd va vb : Fin 32) (imm : Byte) (p : Fin 4) (s : State) : Result :=
  onDie s d (Instr.wf (.macu d t vd va vb imm p)) (s.slot d t (Tile.macu vd va vb imm.toNat p))
def execMacs (d : DieId) (t : Fin 1536) (vd va vb : Fin 32) (imm : Byte) (p : Fin 4) (s : State) : Result :=
  onDie s d (Instr.wf (.macs d t vd va vb imm p)) (s.slot d t (Tile.macs vd va vb imm.toNat p))
def execMacsu (d : DieId) (t : Fin 1536) (vd va vb : Fin 32) (imm : Byte) (p : Fin 4) (s : State) : Result :=
  onDie s d (Instr.wf (.macsu d t vd va vb imm p)) (s.slot d t (Tile.macsu vd va vb imm.toNat p))
def execMacbs (d : DieId) (t : Fin 1536) (vd va vb : Fin 32) (imm : Byte) (p : Fin 4) (s : State) : Result :=
  onDie s d (Instr.wf (.macbs d t vd va vb imm p)) (s.slot d t (Tile.macbs vd va vb imm.toNat p))
def execMext (d : DieId) (t : Fin 1536) (vd va : Fin 32) (imm : Byte) (p : Fin 4) (s : State) : Result :=
  onDie s d (Instr.wf (.mext d t vd va imm p)) (s.slot d t (Tile.mext vd va imm.toNat p))
def execMld (d : DieId) (t : Fin 1536) (vd va vb : Fin 32) (p : Fin 4) (s : State) : Result :=
  onDie s d (Instr.wf (.mld d t vd va vb p)) (s.slot d t (Tile.mld vd va vb p))
def execMclr (d : DieId) (t : Fin 1536) (vd : Fin 32) (p : Fin 4) (s : State) : Result :=
  onDie s d (Instr.wf (.mclr d t vd p)) (s.slot d t (Tile.mclr vd p))
def execMadd (d : DieId) (t : Fin 1536) (p : Fin 4) (s : State) : Result :=
  onDie s d (Instr.wf (.madd d t p)) (s.slot d t (Tile.madd p))

/-! ### E-tiles -/

def execBinc (d : DieId) (t : Fin 1536) (va vb : Fin 32) (imm : Byte) (s : State) : Result :=
  onDie s d (Instr.wf (.binc d t va vb imm)) (s.slotCoder d t (Tile.binc va vb imm.toNat))
def execBinb (d : DieId) (t : Fin 1536) (va : Fin 32) (imm : Byte) (s : State) : Result :=
  onDie s d (Instr.wf (.binb d t va imm)) (s.slotCoder d t (Tile.binb va imm.toNat))
def execBint (d : DieId) (t : Fin 1536) (va : Fin 32) (s : State) : Result :=
  onDie s d (Instr.wf (.bint d t va)) (s.slotCoder d t (Tile.bint va))
def execCinit (d : DieId) (t : Fin 1536) (va vb : Fin 32) (imm : Byte) (s : State) : Result :=
  onDie s d (Instr.wf (.cinit d t va vb imm)) (s.slot d t (Tile.cinit va vb imm.toNat))
def execCbase (d : DieId) (t : Fin 1536) (va vb : Fin 32) (s : State) : Result :=
  onDie s d (Instr.wf (.cbase d t va vb)) (s.slot d t (Tile.cbase va vb))
def execCsnap (d : DieId) (t : Fin 1536) (s : State) : Result :=
  onDie s d (Instr.wf (.csnap d t)) (s.slot d t Tile.csnap)
def execCrest (d : DieId) (t : Fin 1536) (s : State) : Result :=
  onDie s d (Instr.wf (.crest d t)) (s.slot d t Tile.crest)
def execCstart (d : DieId) (t : Fin 1536) (imm : Byte) (s : State) : Result :=
  onDie s d (Instr.wf (.cstart d t imm)) (s.slot d t (Tile.cstart imm.toNat))
def execCflush (d : DieId) (t : Fin 1536) (imm : Byte) (s : State) : Result :=
  onDie s d (Instr.wf (.cflush d t imm)) (s.slotCoder d t (Tile.cflush imm.toNat))
def execFlvl (d : DieId) (t : Fin 1536) (vd : Fin 32) (p : Fin 4) (s : State) : Result :=
  onDie s d (Instr.wf (.flvl d t vd p)) (s.slot d t (Tile.flvl vd p))
def execPutb (d : DieId) (t : Fin 1536) (va : Fin 32) (imm : Byte) (s : State) : Result :=
  onDie s d (Instr.wf (.putb d t va imm)) (s.slotCoder d t (Tile.putb va imm.toNat))

/-! ### ROUTE and MEM -/

/-- RNOP (R153). -/
def execRnop (d : DieId) (t : Fin 1536) (s : State) : Result := onDie s d (Instr.wf (.rnop d t)) s
/-- RT (R153). -/
def execRt (d : DieId) (t : Fin 1536) (srca : Fin 8) (dsta : BitVec 4) (srcb : Fin 8) (dstb : BitVec 4) (lv : Fin 32) (rin : Fin 8)
    (rv : Fin 32) (s : State) : Result :=
  onDie s d (Instr.wf (.rt d t srca dsta srcb dstb lv rin rv)) (s.route d t srca dsta srcb dstb lv rin rv)
/-- MNOP (R168). -/
def execMnop (d : DieId) (t : Fin 1536) (s : State) : Result := onDie s d (Instr.wf (.mnop d t)) s
def execLd (d : DieId) (t : Fin 1536) (v : Fin 32) (ar : Fin 16) (post : Bool) (imm : BitVec 16) (ecc : Ecc) (s : State) : Result :=
  onDie s d (Instr.wf (.ld d t v ar post imm ecc)) (s.slotMem d t ecc fun e x => x.ld t v ar post imm.toInt e)
def execSt (d : DieId) (t : Fin 1536) (v : Fin 32) (ar : Fin 16) (post : Bool) (imm : BitVec 16) (s : State) : Result :=
  onDie s d (Instr.wf (.st d t v ar post imm)) (s.slotMem d t .clean fun _ x => x.st t v ar post imm.toInt)
def execLdu (d : DieId) (t : Fin 1536) (v : Fin 32) (ar : Fin 16) (post : Bool) (imm : BitVec 16) (ecc : Ecc) (s : State) : Result :=
  onDie s d (Instr.wf (.ldu d t v ar post imm ecc)) (s.slotMem d t ecc fun e x => x.ldu t v ar post imm.toInt e)
def execStu (d : DieId) (t : Fin 1536) (v : Fin 32) (ar : Fin 16) (post : Bool) (imm : BitVec 16) (s : State) : Result :=
  onDie s d (Instr.wf (.stu d t v ar post imm)) (s.slotMem d t .clean fun _ x => x.stu t v ar post imm.toInt)
def execStp (d : DieId) (t : Fin 1536) (v : Fin 32) (ar : Fin 16) (post : Bool) (pr : Fin 4) (imm : BitVec 14) (s : State) : Result :=
  onDie s d (Instr.wf (.stp d t v ar post pr imm)) (s.slotMem d t .clean fun _ x => x.stp t v ar post pr imm.toInt)
def execLdb (d : DieId) (t : Fin 1536) (v : Fin 32) (ar : Fin 16) (post : Bool) (imm : BitVec 16) (ecc : Ecc) (s : State) : Result :=
  onDie s d (Instr.wf (.ldb d t v ar post imm ecc)) (s.slotMem d t ecc fun e x => x.ldb t v ar post imm.toInt e)
def execAset (d : DieId) (t : Fin 1536) (v : Fin 32) (ar : Fin 16) (imm : BitVec 16) (s : State) : Result :=
  onDie s d (Instr.wf (.aset d t v ar imm)) (s.slot d t (Tile.aset v ar imm.toNat))
def execAadd (d : DieId) (t : Fin 1536) (ar : Fin 16) (imm : BitVec 16) (s : State) : Result :=
  onDie s d (Instr.wf (.aadd d t ar imm)) (s.slot d t (Tile.aadd ar imm.toInt))
def execAldv (d : DieId) (t : Fin 1536) (v : Fin 32) (ar : Fin 16) (l : Fin 32) (s : State) : Result :=
  onDie s d (Instr.wf (.aldv d t v ar l)) (s.slot d t (Tile.aldv v ar l))
def execStbf (d : DieId) (t : Fin 1536) (ar : Fin 16) (post : Bool) (s : State) : Result :=
  onDie s d (Instr.wf (.stbf d t ar post)) (s.slotMem d t .clean fun _ x => x.stbf t ar post)
def execDrd (d : DieId) (t : Fin 1536) (q : Fin 8) (incq : Bool) (ar : Fin 16) (inca : Bool) (s : State) : Result :=
  onDie s d (Instr.wf (.drd d t q incq ar inca)) (s.drd d t q incq ar inca)
def execDwr (d : DieId) (t : Fin 1536) (q : Fin 8) (incq : Bool) (ar : Fin 16) (inca : Bool) (ecc : Ecc × Ecc) (s : State) : Result :=
  onDie s d (Instr.wf (.dwr d t q incq ar inca ecc)) (s.dwr d t q incq ar inca ecc.1 ecc.2)
def execQldv (d : DieId) (t : Fin 1536) (v : Fin 32) (q : Fin 8) (l : Fin 32) (s : State) : Result :=
  onDie s d (Instr.wf (.qldv d t v q l)) (s.slot d t (Tile.qldv v q l))
def execQadd (d : DieId) (t : Fin 1536) (q : Fin 8) (imm : BitVec 16) (s : State) : Result :=
  onDie s d (Instr.wf (.qadd d t q imm)) (s.slot d t (Tile.qadd q imm.toInt))

/-! ### CTL -/

def execCnop (d : DieId) (t : Fin 1536) (s : State) : Result :=
  onDie s d (Instr.wf (.cnop d t)) (s.ctl d t id)
def execLoop (d : DieId) (t : Fin 1536) (len : Fin 256) (count : W16) (s : State) : Result :=
  onDie s d (Instr.wf (.loop d t len count)) (s.ctl d t (Tile.loop len count.toNat))
def execDloop (d : DieId) (t : Fin 1536) (len : Fin 256) (v : Fin 32) (bound : Fin 8192) (s : State) : Result :=
  onDie s d (Instr.wf (.dloop d t len v bound)) (s.ctl d t (Tile.dloop len v bound))
def execIfp (d : DieId) (t : Fin 1536) (p : Fin 4) (n : Fin 256) (s : State) : Result :=
  onDie s d (Instr.wf (.ifp d t p n)) (s.ctl d t (Tile.ifp p n))
def execEndProg (d : DieId) (t : Fin 1536) (s : State) : Result :=
  onDie s d (Instr.wf (.endProg d t)) (s.ctl d t Tile.end_)
def execWaitf (d : DieId) (t : Fin 1536) (f : Fin 16) (s : State) : Result :=
  onDie s d (Instr.wf (.waitf d t f)) (s.ctl d t (Tile.waitf f))
def execWaitfResume (d : DieId) (t : Fin 1536) (s : State) : Result :=
  onDie s d (Instr.wf (.waitfResume d t)) (s.upd d fun x => x.setTile t (x.tile t).waitfResume)
def execSetf (d : DieId) (t : Fin 1536) (f : Fin 16) (s : State) : Result :=
  onDie s d (Instr.wf (.setf d t f)) (s.ctl d t (Tile.setf f))
def execClrf (d : DieId) (t : Fin 1536) (f : Fin 16) (s : State) : Result :=
  onDie s d (Instr.wf (.clrf d t f)) (s.ctl d t (Tile.clrf f))
/-- POST (R171, R525). -/
def execPost (d : DieId) (t : Fin 1536) (th : Fin 4096) (s : State) : Result :=
  onDie s d (Instr.wf (.post d t th))
    (let s' := if ((s.die d).tile t).issues then s.post d th else s
     s'.ctl d t id)
def execPos (d : DieId) (t : Fin 1536) (v : Fin 32) (s : State) : Result :=
  onDie s d (Instr.wf (.pos d t v)) (s.ctl d t (Tile.pos v))
/-- SLACK_REGION_END (R133): the region from LIVE_END to LENGTH - 1 of the window's program has passed. -/
def execSlackRegionEnd (d : DieId) (t : Fin 1536) (s : State) : Result :=
  onDie s d (Instr.wf (.slackRegionEnd d t))
    (s.upd d fun x =>
      let v := x.tile t
      if v.open_ && v.prog.slack then x.setTile t (v.runTo v.prog.length).slackEnd else x)

end Sys2Proof.Machine
end

