-- ==== Sys2Proof/Machine/CoreIsa.lean ====
section
/-! DEFINITION. Control cores (R181 to R185): the course of an instruction, the ALU opcodes that tiles and cores share, the CTL
opcodes that stay inside the core, the cache instructions and the kernel calls, and what the parlour does on its own. A core's
instruction acts only where a thread runs on the core and no SYNC holds it. -/

namespace Sys2Proof.Machine

/-! ### The course of an instruction -/

/-- An activation has used its BUDGET (R526). -/
def Thread.exhausted (t : Thread) : Bool := t.budget != 0 && decide (t.budget ≤ t.used)
/-- The thread that executes on core `c`: one runs there, no SYNC holds it, and it has not used its budget up: that one is suspended
before its next instruction. -/
def Die.executing (x : Die) (c : Nat) : Option Nat := if (x.core c).syncing then none else (x.core c).run.filter fun n => !(x.th n).exhausted

/-- Core cycles used: they count as busy cycles and against the activation's budget (R526, R530). -/
def Die.spend (x : Die) (c n cycles : Nat) : Die :=
  (x.modTh n fun t => { t with used := t.used + cycles }).count R.PA_CORE_BUSY c cycles

/-- Runs one instruction of core `c`'s thread: `f` is given the thread. An address outside the mapped DRAM windows cannot be
fetched from: the access trap (R512). -/
def State.coreDo (s : State) (d : DieId) (c : Nat) (f : Nat → State → State) : State :=
  match (s.die d).executing c with
  | none => s
  | some n =>
    if ((s.die d).window c ((s.die d).core c).regs.pc.toNat).isNone then s.stopThread d n 3 else f n s

/-- One instruction that changes the core's registers alone. -/
def State.coreStep (s : State) (d : DieId) (c cycles : Nat) (f : CoreRegs → CoreRegs) : State :=
  s.coreDo d c fun n s => s.upd d fun x => (x.modCore c fun k => { k with regs := f k.regs }).spend c n cycles

/-- The next instruction follows. -/
def CoreRegs.next (g : CoreRegs) : CoreRegs := { g with pc := g.pc + 4 }

/-! ### ALU opcodes on a core (R182) -/

def CoreRegs.alu (f : LaneOp) (vd va vb : Nat) (g : CoreRegs) : CoreRegs := (g.set vd (f 32 (g.get va) (g.get vb) g.c)).next
def CoreRegs.aluK (f : LaneOp) (k : LaneCarry) (vd va vb : Nat) (g : CoreRegs) : CoreRegs :=
  { (g.set vd (f 32 (g.get va) (g.get vb) g.c)).next with c := k 32 (g.get va) (g.get vb) g.c }
/-- IMM is zero-extended. -/
def CoreRegs.aluI (f : LaneOp) (vd va : Nat) (imm : Byte) (g : CoreRegs) : CoreRegs :=
  (g.set vd (f 32 (g.get va) (imm.zeroExtend 32) g.c)).next
def CoreRegs.aluIK (f : LaneOp) (k : LaneCarry) (vd va : Nat) (imm : Byte) (g : CoreRegs) : CoreRegs :=
  { (g.set vd (f 32 (g.get va) (imm.zeroExtend 32) g.c)).next with c := k 32 (g.get va) (imm.zeroExtend 32) g.c }
/-- Compares write 1 or 0 into s[VD]. -/
def CoreRegs.cmp (k : LaneCmp) (vd va vb : Nat) (g : CoreRegs) : CoreRegs :=
  (g.set vd (if k 32 (g.get va) (g.get vb) then 1 else 0)).next
def CoreRegs.cmpI (k : LaneCmp) (vd va : Nat) (imm : Byte) (g : CoreRegs) : CoreRegs :=
  (g.set vd (if k 32 (g.get va) (imm.zeroExtend 32) then 1 else 0)).next

/-- An opcode of the scalar subset, on a tile or on a core; one core cycle (R185). -/
def shared (e : Exec) (ok : Bool) (f : Tile → Tile) (g : CoreRegs → CoreRegs) (s : State) : Result :=
  match e with
  | .tile d t => onDie s d ok (s.slot d t f)
  | .core d c => onDie s d ok (s.coreStep d c 1 g)

/-- NOP (R158); on a tile it carries what the bundle store's SECDED found (R179). -/
def execNop (e : Exec) (ecc : Ecc) (s : State) : Result :=
  match e with
  | .tile d t => onDie s d (Instr.wf (.nop e ecc)) (if ((s.die d).tile t).issues then s.bundleEcc d t ecc else s)
  | .core d c => onDie s d (Instr.wf (.nop e ecc)) (s.coreStep d c 1 CoreRegs.next)

/-! ### The rows of the scalar subset (R158) -/

def execAdd (e : Exec) (vd va vb : Fin 32) (p : Fin 4) (s : State) : Result :=
  shared e (Instr.wf (.add e vd va vb p)) (Tile.aluK opAdd (fun _ => carryAdd) vd va vb p) (CoreRegs.aluK opAdd (fun _ => carryAdd) vd va vb) s
def execAdc (e : Exec) (vd va vb : Fin 32) (p : Fin 4) (s : State) : Result :=
  shared e (Instr.wf (.adc e vd va vb p)) (Tile.aluK opAdc (fun _ => carryAdc) vd va vb p) (CoreRegs.aluK opAdc (fun _ => carryAdc) vd va vb) s
def execSub (e : Exec) (vd va vb : Fin 32) (p : Fin 4) (s : State) : Result :=
  shared e (Instr.wf (.sub e vd va vb p)) (Tile.aluK opSub (fun _ => borrowSub) vd va vb p) (CoreRegs.aluK opSub (fun _ => borrowSub) vd va vb) s
def execSbb (e : Exec) (vd va vb : Fin 32) (p : Fin 4) (s : State) : Result :=
  shared e (Instr.wf (.sbb e vd va vb p)) (Tile.aluK opSbb (fun _ => borrowSbb) vd va vb p) (CoreRegs.aluK opSbb (fun _ => borrowSbb) vd va vb) s
def execAnd (e : Exec) (vd va vb : Fin 32) (p : Fin 4) (s : State) : Result :=
  shared e (Instr.wf (.and e vd va vb p)) (Tile.alu opAnd vd va vb p) (CoreRegs.alu opAnd vd va vb) s
def execOr (e : Exec) (vd va vb : Fin 32) (p : Fin 4) (s : State) : Result :=
  shared e (Instr.wf (.or e vd va vb p)) (Tile.alu opOr vd va vb p) (CoreRegs.alu opOr vd va vb) s
def execXor (e : Exec) (vd va vb : Fin 32) (p : Fin 4) (s : State) : Result :=
  shared e (Instr.wf (.xor e vd va vb p)) (Tile.alu opXor vd va vb p) (CoreRegs.alu opXor vd va vb) s
def execAndn (e : Exec) (vd va vb : Fin 32) (p : Fin 4) (s : State) : Result :=
  shared e (Instr.wf (.andn e vd va vb p)) (Tile.alu opAndn vd va vb p) (CoreRegs.alu opAndn vd va vb) s
def execMinu (e : Exec) (vd va vb : Fin 32) (p : Fin 4) (s : State) : Result :=
  shared e (Instr.wf (.minu e vd va vb p)) (Tile.alu opMinu vd va vb p) (CoreRegs.alu opMinu vd va vb) s
def execMaxu (e : Exec) (vd va vb : Fin 32) (p : Fin 4) (s : State) : Result :=
  shared e (Instr.wf (.maxu e vd va vb p)) (Tile.alu opMaxu vd va vb p) (CoreRegs.alu opMaxu vd va vb) s
def execMins (e : Exec) (vd va vb : Fin 32) (p : Fin 4) (s : State) : Result :=
  shared e (Instr.wf (.mins e vd va vb p)) (Tile.alu opMins vd va vb p) (CoreRegs.alu opMins vd va vb) s
def execMaxs (e : Exec) (vd va vb : Fin 32) (p : Fin 4) (s : State) : Result :=
  shared e (Instr.wf (.maxs e vd va vb p)) (Tile.alu opMaxs vd va vb p) (CoreRegs.alu opMaxs vd va vb) s
def execCeq (e : Exec) (vd va vb : Fin 32) (p : Fin 4) (s : State) : Result :=
  shared e (Instr.wf (.ceq e vd va vb p)) (Tile.cmp (fun _ => cmpEq) vd va vb p) (CoreRegs.cmp (fun _ => cmpEq) vd va vb) s
def execCltu (e : Exec) (vd va vb : Fin 32) (p : Fin 4) (s : State) : Result :=
  shared e (Instr.wf (.cltu e vd va vb p)) (Tile.cmp (fun _ => cmpLtu) vd va vb p) (CoreRegs.cmp (fun _ => cmpLtu) vd va vb) s
def execClts (e : Exec) (vd va vb : Fin 32) (p : Fin 4) (s : State) : Result :=
  shared e (Instr.wf (.clts e vd va vb p)) (Tile.cmp (fun _ => cmpLts) vd va vb p) (CoreRegs.cmp (fun _ => cmpLts) vd va vb) s
def execAddi (e : Exec) (vd va : Fin 32) (imm : Byte) (p : Fin 4) (s : State) : Result :=
  shared e (Instr.wf (.addi e vd va imm p)) (Tile.aluIK opAdd (fun _ => carryAdd) vd va imm p) (CoreRegs.aluIK opAdd (fun _ => carryAdd) vd va imm) s
def execSubi (e : Exec) (vd va : Fin 32) (imm : Byte) (p : Fin 4) (s : State) : Result :=
  shared e (Instr.wf (.subi e vd va imm p)) (Tile.aluIK opSub (fun _ => borrowSub) vd va imm p) (CoreRegs.aluIK opSub (fun _ => borrowSub) vd va imm) s
def execAndi (e : Exec) (vd va : Fin 32) (imm : Byte) (p : Fin 4) (s : State) : Result :=
  shared e (Instr.wf (.andi e vd va imm p)) (Tile.aluI opAnd vd va imm p) (CoreRegs.aluI opAnd vd va imm) s
def execOri (e : Exec) (vd va : Fin 32) (imm : Byte) (p : Fin 4) (s : State) : Result :=
  shared e (Instr.wf (.ori e vd va imm p)) (Tile.aluI opOr vd va imm p) (CoreRegs.aluI opOr vd va imm) s
def execXori (e : Exec) (vd va : Fin 32) (imm : Byte) (p : Fin 4) (s : State) : Result :=
  shared e (Instr.wf (.xori e vd va imm p)) (Tile.aluI opXor vd va imm p) (CoreRegs.aluI opXor vd va imm) s
def execShli (e : Exec) (vd va : Fin 32) (imm : Byte) (p : Fin 4) (s : State) : Result :=
  shared e (Instr.wf (.shli e vd va imm p)) (Tile.aluI opShl vd va imm p) (CoreRegs.aluI opShl vd va imm) s
def execShri (e : Exec) (vd va : Fin 32) (imm : Byte) (p : Fin 4) (s : State) : Result :=
  shared e (Instr.wf (.shri e vd va imm p)) (Tile.aluI opShr vd va imm p) (CoreRegs.aluI opShr vd va imm) s
def execSari (e : Exec) (vd va : Fin 32) (imm : Byte) (p : Fin 4) (s : State) : Result :=
  shared e (Instr.wf (.sari e vd va imm p)) (Tile.aluI opSar vd va imm p) (CoreRegs.aluI opSar vd va imm) s
def execCeqi (e : Exec) (vd va : Fin 32) (imm : Byte) (p : Fin 4) (s : State) : Result :=
  shared e (Instr.wf (.ceqi e vd va imm p)) (Tile.cmpI (fun _ => cmpEq) vd va imm p) (CoreRegs.cmpI (fun _ => cmpEq) vd va imm) s
def execCltui (e : Exec) (vd va : Fin 32) (imm : Byte) (p : Fin 4) (s : State) : Result :=
  shared e (Instr.wf (.cltui e vd va imm p)) (Tile.cmpI (fun _ => cmpLtu) vd va imm p) (CoreRegs.cmpI (fun _ => cmpLtu) vd va imm) s
def execMov (e : Exec) (vd va : Fin 32) (p : Fin 4) (s : State) : Result :=
  shared e (Instr.wf (.mov e vd va p)) (Tile.alu opMov vd va va p) (CoreRegs.alu opMov vd va va) s
def execMovi (e : Exec) (vd : Fin 32) (imm : Byte) (p : Fin 4) (s : State) : Result :=
  shared e (Instr.wf (.movi e vd imm p)) (Tile.aluI opSecond vd vd imm p) (CoreRegs.aluI opSecond vd vd imm) s

/-! ### CTL opcodes (R183) -/

/-- A signed 16-bit immediate as a word. -/
def sext16 (imm : W16) : W32 := imm.signExtend 32

def CoreRegs.lui (rd : Nat) (imm : W16) (g : CoreRegs) : CoreRegs := (g.set rd (imm.zeroExtend 32 <<< 16)).next
def CoreRegs.addiw (rd ra : Nat) (imm : W16) (g : CoreRegs) : CoreRegs := (g.set rd (g.get ra + sext16 imm)).next
/-- A branch: the target counts from the branch's own address. -/
def CoreRegs.branch (taken : Bool) (imm : W16) (g : CoreRegs) : CoreRegs :=
  if taken then { g with pc := g.pc + 4 * sext16 imm } else g.next
def CoreRegs.jal (rd : Nat) (off : BitVec 21) (g : CoreRegs) : CoreRegs :=
  { g.set rd (g.pc + 4) with pc := g.pc + 4 * off.signExtend 32 }
/-- The target is read before the link is written. -/
def CoreRegs.jalr (rd ra : Nat) (imm : W16) (g : CoreRegs) : CoreRegs :=
  { g.set rd (g.pc + 4) with pc := (g.get ra + sext16 imm) &&& ~~~3#32 }
def CoreRegs.mul (rd ra rb : Nat) (g : CoreRegs) : CoreRegs := (g.set rd (g.get ra * g.get rb)).next
def CoreRegs.mulhu (rd ra rb : Nat) (g : CoreRegs) : CoreRegs :=
  (g.set rd (BitVec.ofNat 32 ((g.get ra).toNat * (g.get rb).toNat / 2 ^ 32))).next
/-- 0xFFFF_FFFF for a zero divisor. -/
def CoreRegs.divu (rd ra rb : Nat) (g : CoreRegs) : CoreRegs :=
  (g.set rd (if g.get rb = 0 then 0xFFFFFFFF#32 else BitVec.ofNat 32 ((g.get ra).toNat / (g.get rb).toNat))).next
/-- The dividend for a zero divisor. -/
def CoreRegs.remu (rd ra rb : Nat) (g : CoreRegs) : CoreRegs :=
  (g.set rd (if g.get rb = 0 then g.get ra else BitVec.ofNat 32 ((g.get ra).toNat % (g.get rb).toNat))).next

/-- The core's registers. -/
def State.coreRegs (s : State) (d : DieId) (c : Nat) : CoreRegs := ((s.die d).core c).regs

/-- A branch on core `c`: 2 cycles when taken. -/
def State.coreBranch (s : State) (d : DieId) (c op : Nat) (rd ra : Nat) (imm : W16) (k : LaneCmp) : State :=
  let g := s.coreRegs d c
  let taken := k 32 (g.get rd) (g.get ra)
  s.coreStep d c (if taken then 2 else Config.coreCycles op) (CoreRegs.branch taken imm)

def execLui (d : DieId) (c : Fin 8) (rd : Fin 32) (imm : W16) (s : State) : Result :=
  onDie s d (Instr.wf (.lui d c rd imm)) (s.coreStep d c (Config.coreCycles 0x26) (CoreRegs.lui rd imm))
def execAddiw (d : DieId) (c : Fin 8) (rd ra : Fin 32) (imm : W16) (s : State) : Result :=
  onDie s d (Instr.wf (.addiw d c rd ra imm)) (s.coreStep d c (Config.coreCycles 0x27) (CoreRegs.addiw rd ra imm))
def execBeq (d : DieId) (c : Fin 8) (rd ra : Fin 32) (imm : W16) (s : State) : Result :=
  onDie s d (Instr.wf (.beq d c rd ra imm)) (s.coreBranch d c 0x28 rd ra imm fun _ => cmpEq)
def execBne (d : DieId) (c : Fin 8) (rd ra : Fin 32) (imm : W16) (s : State) : Result :=
  onDie s d (Instr.wf (.bne d c rd ra imm)) (s.coreBranch d c 0x29 rd ra imm fun _ a b => !cmpEq a b)
def execBltu (d : DieId) (c : Fin 8) (rd ra : Fin 32) (imm : W16) (s : State) : Result :=
  onDie s d (Instr.wf (.bltu d c rd ra imm)) (s.coreBranch d c 0x2A rd ra imm fun _ => cmpLtu)
def execBlt (d : DieId) (c : Fin 8) (rd ra : Fin 32) (imm : W16) (s : State) : Result :=
  onDie s d (Instr.wf (.blt d c rd ra imm)) (s.coreBranch d c 0x2B rd ra imm fun _ => cmpLts)
def execJal (d : DieId) (c : Fin 8) (rd : Fin 32) (off : BitVec 21) (s : State) : Result :=
  onDie s d (Instr.wf (.jal d c rd off)) (s.coreStep d c 2 (CoreRegs.jal rd off))
def execJalr (d : DieId) (c : Fin 8) (rd ra : Fin 32) (imm : W16) (s : State) : Result :=
  onDie s d (Instr.wf (.jalr d c rd ra imm)) (s.coreStep d c 2 (CoreRegs.jalr rd ra imm))
def execMul (d : DieId) (c : Fin 8) (rd ra rb : Fin 32) (s : State) : Result :=
  onDie s d (Instr.wf (.mul d c rd ra rb)) (s.coreStep d c 3 (CoreRegs.mul rd ra rb))
def execMulhu (d : DieId) (c : Fin 8) (rd ra rb : Fin 32) (s : State) : Result :=
  onDie s d (Instr.wf (.mulhu d c rd ra rb)) (s.coreStep d c 3 (CoreRegs.mulhu rd ra rb))
/-- The core cycles of a division of core `c`'s registers. -/
def State.divCost (s : State) (d : DieId) (c ra rb : Nat) : Nat :=
  min 34 (Config.divCycles ((s.coreRegs d c).get ra).toNat ((s.coreRegs d c).get rb).toNat)
def execDivu (d : DieId) (c : Fin 8) (rd ra rb : Fin 32) (s : State) : Result :=
  onDie s d (Instr.wf (.divu d c rd ra rb)) (s.coreStep d c (s.divCost d c ra rb) (CoreRegs.divu rd ra rb))
def execRemu (d : DieId) (c : Fin 8) (rd ra rb : Fin 32) (s : State) : Result :=
  onDie s d (Instr.wf (.remu d c rd ra rb)) (s.coreStep d c (s.divCost d c ra rb) (CoreRegs.remu rd ra rb))

/-! ### CLEAN, INVAL and SYNC (R184) -/

/-- CLEAN (R184). -/
def State.coreClean (s : State) (d : DieId) (c ra rb : Nat) : State :=
  let g := s.coreRegs d c
  let cost := (s.die d).cleanCost c (g.get ra).toNat (g.get rb).toNat
  (s.coreDo d c fun _ s => s.clean d c (g.get ra).toNat (g.get rb).toNat).coreStep d c cost CoreRegs.next
/-- INVAL (R184). -/
def State.coreInval (s : State) (d : DieId) (c ra rb : Nat) : State :=
  let g := s.coreRegs d c
  let cost := (s.die d).cleanCost c (g.get ra).toNat (g.get rb).toNat
  (s.coreDo d c fun _ s => s.inval d c (g.get ra).toNat (g.get rb).toNat).coreStep d c cost CoreRegs.next
/-- The core holds, from now, until its writes have drained. -/
def State.hold (s : State) (d : DieId) (c : Nat) (post : Option Nat) : State :=
  s.upd d fun x => x.modCore c fun k => { k with syncing := true, syncAt := s.now, postAfter := post }
/-- SYNC: the core's stores are written back, and the core holds where a write of its has not reached DRAM. -/
def State.coreSync (s : State) (d : DieId) (c : Nat) : State :=
  s.coreDo d c fun _ s =>
    let s := (s.upd d fun x => x.modCore c fun k => { k with regs := k.regs.next }).drain d c
    if (s.die d).coreDraining c s.now then s.hold d c none else s
/-- One core cycle in units of time: 0.625 ns (R517's example). -/
def coreCycle : Nat := 40960
/-- The writes that a SYNC, or a POST call's, waits for have drained: the core resumes after the cycles they took (R185), and the
POST is made. -/
def State.syncDone (s : State) (d : DieId) (c : Nat) : State :=
  let k := (s.die d).core c
  if k.syncing && !(s.die d).coreDraining c s.now then
    let took := (s.now - k.syncAt + coreCycle - 1) / coreCycle
    let s := s.upd d fun x =>
      let x := x.modCore c fun k => { k with syncing := false, postAfter := none }
      match k.run with
      | some n => x.spend c n took
      | none => x
    match k.postAfter with
    | some n => s.post d n
    | none => s
  else s

def execClean (d : DieId) (c : Fin 8) (ra rb : Fin 32) (s : State) : Result :=
  onDie s d (Instr.wf (.clean d c ra rb)) (s.coreClean d c ra rb)
def execInval (d : DieId) (c : Fin 8) (ra rb : Fin 32) (s : State) : Result :=
  onDie s d (Instr.wf (.inval d c ra rb)) (s.coreInval d c ra rb)
def execSync (d : DieId) (c : Fin 8) (s : State) : Result := onDie s d (Instr.wf (.sync d c)) (s.coreSync d c)
def execSyncDone (d : DieId) (c : Fin 8) (s : State) : Result := onDie s d (Instr.wf (.syncDone d c)) (s.syncDone d c)

/-! ### Traps and kernel calls (R182, R523 to R525) -/

/-- An illegal word stops the thread: cause 1, or 5 for a TRAP whose IMM names no call. -/
def State.illegal (s : State) (d : DieId) (c : Nat) (w : W32) : State :=
  s.coreDo d c fun n s => s.stopThread d n (if w.toNat / 2 ^ 26 = 0x35 then 5 else 1)

/-- A kernel call of core `c`'s thread: the thread goes on after the TRAP. A thread of the old plan that is to end, ends (R528). -/
def State.kernel (s : State) (d : DieId) (c : Nat) (f : Nat → State → State) : State :=
  s.coreDo d c fun n s =>
    let s := s.upd d fun x => (x.modCore c fun k => { k with regs := k.regs.next }).spend c n (Config.coreCycles 0x35)
    if ((s.die d).th n).ending.isSome then s.upd d fun x => x.endActivation n else f n s

/-- END (R523). -/
def State.kernelEnd (s : State) (d : DieId) (c : Nat) : State := s.kernel d c fun n s => s.upd d fun x => x.endActivation n
/-- YIELD: ready again, with the current line as readiness line. -/
def State.kernelYield (s : State) (d : DieId) (c : Nat) : State :=
  s.kernel d c fun n s => s.upd d fun x => ((x.offCore n).makeReady n).restall c
/-- DELAY: DELAYED until the s1-th following line pulse; a count outside 1 to 65,535 is cause KERNEL. -/
def State.kernelDelay (s : State) (d : DieId) (c : Nat) : State :=
  s.kernel d c fun n s =>
    let v := ((s.coreRegs d c).get 1).toNat
    if 1 ≤ v ∧ v ≤ 65535 then
      s.upd d fun x => ((x.offCore n).modTh n fun t => { t with state := .delayed, expiry := v }).restall c
    else s.stopThread d n 5
/-- WAIT: completes at once where the counter is 0 or below, else the thread waits (R525). -/
def State.kernelWait (s : State) (d : DieId) (c : Nat) : State :=
  s.kernel d c fun n s =>
    let g := s.coreRegs d c
    let v := (g.get 1).toNat
    let t := (s.die d).th n
    if 1 ≤ v ∧ v ≤ 65535 then
      if t.count ≤ 0 then
        let cost := (s.die d).cleanCost c (g.get 2).toNat (g.get 3).toNat
        (s.inval d c (g.get 2).toNat (g.get 3).toNat).upd d fun x =>
          ((x.spend c n cost).modTh n fun t => { t with count := t.count + t.reload }).modCore c fun k => { k with regs := k.regs.set 1 0 }
      else s.upd d fun x => ((x.offCore n).modTh n fun t =>
        { t with state := .waiting, expiry := v, waitRange := ((g.get 2).toNat, (g.get 3).toNat) }).restall c
    else s.stopThread d n 5
/-- POST: CLEAN over the range, SYNC, then a decrement of s1's counter; an unclaimed thread is cause KERNEL. -/
def State.kernelPost (s : State) (d : DieId) (c : Nat) : State :=
  s.kernel d c fun n s =>
    let g := s.coreRegs d c
    let m := (g.get 1).toNat
    if m < 4096 ∧ ((s.die d).th m).claimed then
      let cost := (s.die d).cleanCost c (g.get 2).toNat (g.get 3).toNat
      let s := ((s.clean d c (g.get 2).toNat (g.get 3).toNat).upd d fun x => x.spend c n cost).drain d c
      if (s.die d).coreDraining c s.now then s.hold d c (some m) else s.post d m
    else s.stopThread d n 5

def execIllegalInstruction (d : DieId) (c : Fin 8) (w : W32) (s : State) : Result :=
  onDie s d (Instr.wf (.illegalInstruction d c w)) (s.illegal d c w)
def execKernelEnd (d : DieId) (c : Fin 8) (s : State) : Result := onDie s d (Instr.wf (.kernelEnd d c)) (s.kernelEnd d c)
def execYield (d : DieId) (c : Fin 8) (s : State) : Result := onDie s d (Instr.wf (.yield d c)) (s.kernelYield d c)
def execDelay (d : DieId) (c : Fin 8) (s : State) : Result := onDie s d (Instr.wf (.delay d c)) (s.kernelDelay d c)
def execKernelWait (d : DieId) (c : Fin 8) (s : State) : Result := onDie s d (Instr.wf (.kernelWait d c)) (s.kernelWait d c)
def execKernelPost (d : DieId) (c : Fin 8) (s : State) : Result := onDie s d (Instr.wf (.kernelPost d c)) (s.kernelPost d c)

/-! ### What the parlour does on its own (R520 to R528) -/

/-- THREAD_START: the first thread of core `c`'s ready list starts, where the core is free or its thread sorts after it; from
a stall after 12 core cycles, from the context store after 40. A spilled thread must have been loaded into a stall. -/
def State.threadStart (s : State) (d : DieId) (c : Nat) : State :=
  let x := s.die d
  match x.readyList c with
  | [] => s
  | n :: _ =>
    let free := match (x.core c).run with
      | none => true
      | some m => x.before n m && !(x.core c).syncing
    let t := x.th n
    if free && (t.resident || t.loaded) then
      let hit := (x.core c).stalls.contains n
      let s := s.advance ((if hit then 12 else 40) * coreCycle)
      s.upd d fun x =>
        let x := match (x.core c).run with
          | some m => (x.saveCtx c).modTh m fun t => { t with state := .ready }
          | none => x
        let x := (x.modTh n fun t => { t with state := .running }).modCore c fun k => { k with run := some n, regs := t.ctx }
        let x := (x.restall c).count R.PA_CORE_SWITCHES c
        if hit then x.count R.PA_CORE_STALL_HITS c else x
    else s
/-- SPILL_LOAD_DONE: the context of a spilled thread has been read into a stall; an uncorrectable context word stops it. -/
def State.spillLoaded (s : State) (d : DieId) (n : Nat) (e : Ecc) : State :=
  let x := s.die d
  let t := x.th n
  if t.claimed && !t.resident && !t.loaded && (x.core t.core).stalls.contains n then
    let s := s.count d R.PA_CORE_SPILLS t.core
    let a := x.par.spill.1 + 256 * ((x.par.threads.filter fun k => k.1 < n && k.2.claimed && !k.2.resident).length)
    let s := (s.touchRange d a 256).dramEcc d a e
    if e = .uncorrected then s.stopThread d n 4 else s.upd d fun x => x.modTh n fun t => { t with loaded := true }
  else s
/-- DELAY_EXPIRY (R524). -/
def Die.delayExpiry (x : Die) (n : Nat) : Die :=
  if (x.th n).state = .delayed ∧ (x.th n).expiry = 0 then (x.makeReady n).restall (x.th n).core else x
/-- THREAD_WAIT_TIMEOUT (R525): ready with s1 = 1 and the counter unchanged. -/
def State.waitTimeout (s : State) (d : DieId) (n : Nat) : State :=
  if ((s.die d).th n).state = .waiting ∧ ((s.die d).th n).expiry = 0 then
    let s := s.upd d fun x => ((x.modTh n fun t => { t with ctx := t.ctx.set 1 1 }).makeReady n).restall (x.th n).core
    (s.count d R.PA_TIMEOUTS).eventRec d R.PA_EVENTS_TIMEOUT 0 n 0
  else s
/-- THREAD_BUDGET_EXHAUSTED (R526). -/
def State.budgetOver (s : State) (d : DieId) (n : Nat) : State :=
  let t := (s.die d).th n
  if t.claimed ∧ t.state = .running ∧ t.exhausted then
    let s := s.upd d fun x => ((x.offCore n).modTh n fun t => { t with state := .suspended }).restall t.core
    (s.count d R.PA_OVERRUNS).eventRec d R.PA_EVENTS_OVERRUN 0 n 0
  else s
/-- THREAD_SWITCH_END (R528): 10 us after the switch boundary, a thread of the old plan that has made no kernel call ends. -/
def State.switchEnd (s : State) (d : DieId) (n : Nat) : State :=
  match ((s.die d).th n).ending with
  | some t => (s.advanceTo t).upd d fun x => ((x.offCore n).modTh n fun _ => x.planThread n).restall (x.th n).core
  | none => s

def execThreadStart (d : DieId) (c : Fin 8) (s : State) : Result := onDie s d (Instr.wf (.threadStart d c)) (s.threadStart d c)
def execSpillLoadDone (d : DieId) (th : Fin 4096) (ecc : Ecc) (s : State) : Result :=
  onDie s d (Instr.wf (.spillLoadDone d th ecc)) (s.spillLoaded d th ecc)
def execDelayExpiry (d : DieId) (th : Fin 4096) (s : State) : Result :=
  onDie s d (Instr.wf (.delayExpiry d th)) (s.upd d fun x => x.delayExpiry th)
def execThreadWaitTimeout (d : DieId) (th : Fin 4096) (s : State) : Result :=
  onDie s d (Instr.wf (.threadWaitTimeout d th)) (s.waitTimeout d th)
def execThreadBudgetExhausted (d : DieId) (th : Fin 4096) (s : State) : Result :=
  onDie s d (Instr.wf (.threadBudgetExhausted d th)) (s.budgetOver d th)
def execThreadSwitchEnd (d : DieId) (th : Fin 4096) (s : State) : Result :=
  onDie s d (Instr.wf (.threadSwitchEnd d th)) (s.switchEnd d th)

end Sys2Proof.Machine
end

