-- ==== Sys2Proof/Machine/Dma.lean ====
section
/-! DEFINITION. DMA channels and their programs (R488 to R505): start events, MOVE with its shapes, loops, waits, signals, stops
and restarts. A command that names an instruction acts only where that instruction is the channel's next one. One row of a MOVE
is one access (log entry 17). -/

namespace Sys2Proof.Machine

/-! ### Channels and queues -/

/-- Channel `n` of a die. -/
def Die.chan (x : Die) (n : Nat) : DmaChan := mget (fun _ => {}) x.dma.chans n
def Die.modChan (x : Die) (n : Nat) (f : DmaChan → DmaChan) : Die :=
  { x with dma := { x.dma with chans := mmod (fun _ => {}) x.dma.chans n f } }
/-- STATE of a channel: 0 idle, 1 running, 2 stopped. -/
def Die.chState (x : Die) (n : Nat) : Nat := x.fld R.DM_CH_STATUS_STATE n

/-- The bytes of stream queue `q`. -/
def Die.stream (x : Die) (q : Nat) : List Byte := mget (fun _ => []) x.dma.streams q
/-- The PACE state after a queue's fill becomes `n`: a queue that the channel writes (`out`) closes at HIGH and opens at LOW,
one that it reads opens at HIGH and closes at LOW (R499). -/
def paceOf (out : Bool) (high low n : Nat) (was : Bool) : Bool :=
  if high ≤ n then !out else if n ≤ low then out else was
/-- Sets the bytes of a stream queue, and its PACE state. -/
def Die.setStream (x : Die) (q : Nat) (bs : List Byte) : Die :=
  let p := paceOf (x.flag R.DM_SQ_CFG_DIRECTION q) (x.fld R.DM_SQ_HIGH q) (x.fld R.DM_SQ_LOW q) bs.length (x.flag R.DM_SQ_FILL_PACE q)
  { x with dma := { x.dma with streams := mput (fun _ => []) x.dma.streams q bs } }.setFld R.DM_SQ_FILL_PACE (b2n p) q
/-- Bytes for which stream queue `q` has room. -/
def Die.streamRoom (x : Die) (q : Nat) : Nat := x.fld R.DM_SQ_CFG_DEPTH q - (x.stream q).length

/-- The entry queue of a send flow. -/
def Die.entryQ (x : Die) (f : Nat) : EntryQueue := mget (fun _ => {}) x.dma.entries f
/-- Bytes held by an entry queue. -/
def EntryQueue.fill (q : EntryQueue) : Nat := q.entries.foldl (fun n e => n + e.bytes.length) 0
/-- Sets an entry queue, and its PACE state by the marks of its flow. -/
def Die.setEntryQ (x : Die) (d : DieId) (f : Nat) (q : EntryQueue) : Die :=
  let p := paceOf true (Config.entryHigh d.val f) (Config.entryLow d.val f) q.fill q.pace
  { x with dma := { x.dma with entries := mput (fun _ => {}) x.dma.entries f { q with pace := p } } }

/-- Appends bytes to the open entry of a queue, opening one where none is (R500). -/
def EntryQueue.append (q : EntryQueue) (bs : List Byte) (bad : Bool) : EntryQueue :=
  if q.discard then q
  else match q.entries.getLast? with
    | some e =>
      if e.closed then { q with entries := q.entries ++ [⟨bs, false, bad⟩] }
      else { q with entries := q.entries.dropLast ++ [⟨e.bytes ++ bs, false, e.bad || bad⟩] }
    | none => { q with entries := [⟨bs, false, bad⟩] }
/-- END_ENTRY. -/
def EntryQueue.close (q : EntryQueue) : EntryQueue :=
  if q.discard then { q with discard := false }
  else match q.entries.getLast? with
    | some e => { q with entries := q.entries.dropLast ++ [{ e with closed := true }] }
    | none => q
/-- The entry whose position has come (R500): its bytes where it is closed and good; none where it is dropped. -/
def EntryQueue.take (q : EntryQueue) : EntryQueue × Option (List Byte) :=
  match q.entries with
  | [] => ({ q with discard := true }, none)
  | e :: l =>
    if e.closed then ({ q with entries := l }, if e.bad then none else some e.bytes)
    else ({ q with entries := l, discard := true }, none)

/-- The word of the program store at `w`. -/
def Die.word (x : Die) (w : Nat) : Nat := mget (fun _ => 0) x.dma.store w

/-- A channel of the die whose program writes the entries of flow `f`. -/
def Die.entryChan (x : Die) (f : Nat) : Option Nat :=
  (x.dma.chans.find? fun e => (List.range e.2.words).any fun i =>
    let a := x.fld R.DM_CH_CFG_FIRST e.1 + i
    bits (x.word a) 127 124 == 1 && bits (x.word a) 115 112 == 4 && bits (x.word a) 75 40 % 1024 == f).map Prod.fst

/-- Sets an event of a channel, in its own register and in the die's. -/
def State.dmEvent (s : State) (d : DieId) (die chan : Fld) (n : Nat) : State := (s.event d die 0 n).event d chan n 0

/-- An entry of a flow was dropped at its position: counted on the channel that writes the flow (R500). -/
def State.dmUnderrun (s : State) (d : DieId) (f : Nat) : State :=
  match (s.die d).entryChan f with
  | some n => (s.count d R.DM_CH_UNDERRUNS n).dmEvent d R.DM_EVENTS_UNDERRUN R.DM_CH_EVENTS_UNDERRUN n
  | none => s

/-! ### Activations, starts, stops (R490, R491, R502 to R504) -/

/-- An activation of channel `n` begins at its first word. -/
def Die.dmaBegin (x : Die) (n depth : Nat) : Die :=
  (x.setFld R.DM_CH_STATUS_STATE 1 n).modChan n fun c =>
    { c with pc := 0, issued := 0, depth := depth, loops := [], wait := none, accesses := [], blocked := none }

/-- The sources of a start event, by their bit of STARTS (R489). -/
inductive StartSrc | kick | compare | host | signal
  deriving DecidableEq, Repr
def StartSrc.bit : StartSrc → Nat
  | .kick => 0 | .compare => 1 | .host => 2 | .signal => 3

/-- A start event (R490). -/
def State.dmaStart (s : State) (d : DieId) (n : Nat) (src : StartSrc) (depth : Nat) : State :=
  let s := s.serve d .dmaChannel n
  let x := s.die d
  let missed := (s.count d R.DM_CH_MISSED n).dmEvent d R.DM_EVENTS_MISSED R.DM_CH_EVENTS_MISSED n
  if !(x.flag R.DM_CH_CFG_USED n && bit (x.fld R.DM_CH_CFG_STARTS n) src.bit) then s
  else if x.chState n = 2 then missed
  else if x.chState n = 0 then s.upd d fun x => x.dmaBegin n depth
  else if x.fld R.DM_CH_STATUS_PENDING n < 255 then
    s.upd d fun x => (x.setFld R.DM_CH_STATUS_PENDING (x.fld R.DM_CH_STATUS_PENDING n + 1) n).modChan n fun c =>
      { c with pendDepths := c.pendDepths ++ [depth] }
  else missed

/-- The open entry of a channel that stops or ends is marked bad, so that it is dropped at its position. -/
def Die.dropOpen (x : Die) (d : DieId) (n : Nat) : Die :=
  match (x.chan n).openEntry with
  | some f =>
    let q := x.entryQ f
    let q := match q.entries.getLast? with
      | some e => if e.closed then q else { q with entries := q.entries.dropLast ++ [{ e with bad := true, closed := true }] }
      | none => q
    (x.setEntryQ d f q).modChan n fun c => { c with openEntry := none }
  | none => x

/-- The end of an activation: the next pending one starts at once (R490); a channel of a stopping fragment goes idle, as the plan in
force gives it (R505). -/
def Die.dmaEnd (x : Die) (d : DieId) (n : Nat) : Die :=
  let c := x.chan n
  let x := ((x.count R.DM_CH_ACTIVATIONS n).setFld R.DM_CH_LAST_COUNT_COUNT c.issued n).setFld R.DM_CH_STATUS_STATE 0 n
  if c.ending then
    ((x.dropOpen d n).setFld R.DM_CH_STATUS_PENDING 0 n).modChan n fun c => { words := c.words, budget := c.budget, units := c.units, frag := c.frag }
  else if 0 < x.fld R.DM_CH_STATUS_PENDING n then
    ((x.setFld R.DM_CH_STATUS_PENDING (x.fld R.DM_CH_STATUS_PENDING n - 1) n).modChan n fun c =>
      { c with pendDepths := c.pendDepths.drop 1 }).dmaBegin n (c.pendDepths.headD 0)
  else x.modChan n fun c => { c with loops := [], wait := none, accesses := [], blocked := none }

/-- A channel stops with a cause of R503. -/
def State.dmaStop (s : State) (d : DieId) (n cause : Nat) : State :=
  let s := s.upd d fun x =>
    let c := x.chan n
    let frame := unsgn 16 (x.frameLine (x.fld R.DM_CH_CFG_CADENCE n)).1
    let x := ((x.setFld R.DM_CH_STATUS_STATE 2 n).setFld R.DM_CH_STATUS_CAUSE cause n).setFld R.DM_CH_STATUS_PENDING 0 n
    let x := (x.setFld R.DM_CH_FAULT_AT_INDEX c.pc n).setFld R.DM_CH_FAULT_AT_FRAME frame n
    let x := x.dropOpen d n
    x.modChan n fun c => { c with pendDepths := [], wait := none, blocked := none, accesses := [], loops := [] }
  (s.dmEvent d R.DM_EVENTS_STOPPED R.DM_CH_EVENTS_STOPPED n).hbCad d (codeOf R.DM_EVENTS_STOPPED) n
    (s.fld d R.DM_CH_CFG_CADENCE n) cause

/-- A restart returns a stopped channel to idle and its check units to INIT (R504). -/
def State.dmaRestart (s : State) (d : DieId) (n : Nat) : State :=
  if (s.die d).chState n = 2 then
    let s := s.upd d fun x =>
      let u := (x.chan n).units
      let x := (x.setFld R.DM_CH_STATUS_STATE 0 n).setFld R.DM_CH_STATUS_CAUSE 0 n
      (List.range 64).foldl (fun x i => if bit u i then
        x.setPair R.CK_U_VALUE_LO R.CK_U_VALUE_HI i (x.pair R.CK_U_INIT_LO R.CK_U_INIT_HI i) else x) x
    s.dmEvent d R.DM_EVENTS_RESTARTED R.DM_CH_EVENTS_RESTARTED n
  else s

/-! ### The course of a program -/

/-- After the last word of a body, the next iteration begins or the loop is left. -/
def dmaNext : List DmaLoop → Nat → Nat × List DmaLoop
  | [], next => (next, [])
  | l :: ls, next =>
    if next = l.after then
      if l.iter + 1 < l.count then (l.first, { l with iter := l.iter + 1 } :: ls) else dmaNext ls next
    else (next, l :: ls)

/-- The channel moves on past `n` words. -/
def DmaChan.step (c : DmaChan) (n : Nat) : DmaChan :=
  let r := dmaNext c.loops (c.pc + n)
  { c with pc := r.1, loops := r.2 }

/-- The channel can issue: it runs, and neither a WAIT nor a row of a MOVE holds it. -/
def Die.dmaReady (x : Die) (n : Nat) : Bool :=
  x.chState n == 1 && (x.chan n).wait.isNone && (x.chan n).blocked.isNone

/-- Issues one instruction where the channel's next word has opcode `op` and satisfies `ok` (R498, R501, R502): BUDGET stops the
channel before the instruction, and an uncorrectable program-store word stops it with PROGRAM. -/
def State.dmaIssue (s : State) (d : DieId) (n op : Nat) (ecc : Ecc) (ok : Nat → Bool) (f : Nat → State → State) : State :=
  let x := s.die d
  let c := x.chan n
  let w := x.word (x.fld R.DM_CH_CFG_FIRST n + c.pc)
  if !(x.dmaReady n && bits w 127 124 == op && ok w) then s
  else if ecc = .uncorrected then s.dmaStop d n 4
  else if c.budget ≤ c.issued then s.dmaStop d n 1
  else f w (s.upd d fun x => x.modChan n fun c => { c with issued := c.issued + 1 })

/-! ### MOVE (R492 to R497) -/

/-- A loop's share of an effective address (R498). -/
def loopShare (step : DmaLoop → Int) (l : List DmaLoop) : Int := l.foldl (fun n e => n + e.iter * step e) 0

/-- Reads the two words of a MOVE: word 0, which holds the opcode, is its bits [255:128] (log entry 17). -/
def moveWord (w0 w1 : Nat) (l : List DmaLoop) : MoveWord :=
  let v := w0 * 2 ^ 128 + w1
  { shape := bits v 251 248, srcKind := bits v 247 244, dstKind := bits v 243 240
    src := (bits v 239 204 : Nat) + loopShare (fun e => e.steps.1) l
    dst := (bits v 203 168 : Nat) + loopShare (fun e => e.steps.2.1) l
    aux := (bits v 167 132 : Nat) + loopShare (fun e => e.steps.2.2) l
    elem := bits v 131 128, length := bits v 127 104, rows := bits v 103 88
    srcPitch := sgn 24 (bits v 87 64), dstPitch := sgn 24 (bits v 63 40), auxPitch := sgn 24 (bits v 39 16)
    ckEn := bit v 15, ck := bits v 14 9, endEntry := bit v 8 }

/-- A byte as a read delivers it: none where its DRAM block met an uncorrectable error (R497). -/
abbrev MByte := Option Byte

/-- Combines bytes: none where one of them is. -/
def mall (l : List MByte) (f : List Byte → Byte) : MByte :=
  if l.all Option.isSome then some (f (l.filterMap id)) else none

/-- Groups of `n`. -/
def groups {α : Type} (n : Nat) : Nat → List α → List (List α)
  | 0, _ => []
  | fuel + 1, l => if l.length < n ∨ n = 0 then [] else l.take n :: groups n fuel (l.drop n)
def groupsOf {α : Type} (n : Nat) (l : List α) : List (List α) := groups n l.length l

/-- The 8-bit plane of little-endian 16-bit words that hold samples of 8 + `b` bits. -/
def splitM (b : Nat) (l : List MByte) : List MByte :=
  (groupsOf 2 l).map fun g => mall g fun v => BitVec.ofNat 8 (leNat v % 2 ^ (8 + b) / 2 ^ b)
/-- The packed residuals of the same words (R160). -/
def splitR (b : Nat) (l : List MByte) : List MByte :=
  (groupsOf (2 * (8 / b)) l).map fun g => mall g fun v =>
    BitVec.ofNat 8 ((groupsOf 2 v).zipIdx.foldl (fun n e => n + leNat e.1 % 2 ^ b * 2 ^ (b * e.2)) 0)
/-- 16-bit words from the plane and the packed residuals. -/
def joinWords (b : Nat) (m r : List MByte) : List MByte :=
  m.zipIdx.flatMap fun e =>
    let k := r.getD (e.2 * b / 8) none
    let v (l : List Byte) : Nat := (l.getD 0 0).toNat * 2 ^ b + (l.getD 1 0).toNat / 2 ^ (b * (e.2 % (8 / b))) % 2 ^ b
    [mall [e.1, k] fun l => BitVec.ofNat 8 (v l), mall [e.1, k] fun l => BitVec.ofNat 8 (v l / 256)]
/-- Elements at even or odd places. -/
def unzipEvery (sz : Nat) (odd : Bool) (l : List MByte) : List MByte :=
  ((groupsOf sz l).zipIdx.filter fun e => (e.2 % 2 == 1) == odd).flatMap Prod.fst
/-- Elements of two lists by turns. -/
def zipElems (sz : Nat) (a b : List MByte) : List MByte :=
  ((groupsOf sz a).zip (groupsOf sz b)).flatMap fun e => e.1 ++ e.2

/-- Bytes read per row from SRC and from AUX, and written per row to DST and to AUX (R495). -/
def MoveWord.sizes (m : MoveWord) : Nat × Nat × Nat × Nat :=
  match m.shape with
  | 1 => (m.length, 0, m.length / 2, m.length / 8)
  | 2 => (m.length, 0, m.length / 2, m.length / 4)
  | 3 => (m.length / 2, m.length / 8, m.length, 0)
  | 4 => (m.length / 2, m.length / 4, m.length, 0)
  | 5 => (m.length, 0, (m.length / 2 ^ m.elem + 1) / 2 * 2 ^ m.elem, m.length / 2 ^ m.elem / 2 * 2 ^ m.elem)
  | 6 => (m.length / 2, m.length / 2, m.length, 0)
  | _ => (m.length, 0, m.length, 0)

/-- A row reshaped: what goes to DST and what goes to AUX. -/
def MoveWord.reshape (m : MoveWord) (src aux : List MByte) : List MByte × List MByte :=
  match m.shape with
  | 1 => (splitM 2 src, splitR 2 src)
  | 2 => (splitM 4 src, splitR 4 src)
  | 3 => (joinWords 2 src aux, [])
  | 4 => (joinWords 4 src aux, [])
  | 5 => (unzipEvery (2 ^ m.elem) false src, unzipEvery (2 ^ m.elem) true src)
  | 6 => (zipElems (2 ^ m.elem) src aux, [])
  | 7 => ((groupsOf 2 src).flatMap List.reverse, [])
  | 8 => ((groupsOf 4 src).flatMap List.reverse, [])
  | _ => (src, [])

/-- The M-tile of a SCRATCH address (R493). -/
def scratchTile (a : Int) : Nat := mTile (bits (unsgn 36 a) 26 19)

/-- What SECDED finds in a block of DRAM or a granule of scratch. -/
def eccAt (errs : List MemErr) (scratch : Bool) (u : Nat) : Ecc :=
  ((errs.find? fun e => e.scratch == scratch && e.unit == u).map MemErr.ecc).getD .clean

/-- Reads `n` bytes of one side of a MOVE; `errs` names the errors that SECDED finds: an uncorrectable block of DRAM delivers nothing
(R473), an uncorrectable granule of scratch zeros (R119). -/
def Die.moveRead (x : Die) (kind : Nat) (a : Int) (n : Nat) (errs : List MemErr) : List MByte :=
  let v := unsgn 36 a
  match kind with
  | 1 => ((x.dramRead (v % 2 ^ 34) n).zipIdx).map fun e =>
    if eccAt errs false ((v % 2 ^ 34 + e.2) / 64) = .uncorrected then none else some e.1
  | 2 => (eccEntries (v % 2 ^ 27) (fun k => eccAt errs true (v % 2 ^ 27 / 32 + k) == .uncorrected)
      ((x.tile (scratchTile a)).readScratch (scratchTile a) (v % 2 ^ 19) n)).map some
  | 3 => ((x.stream (v % 512)).take n).map some
  | 6 => (x.ckContext (v % 64)).map some
  | _ => []

/-- The bytes as they were delivered, whether or not an error flag came with them. -/
def Die.moveRaw (x : Die) (kind : Nat) (a : Int) (n : Nat) (errs : List MemErr) : List Byte :=
  (x.moveRead kind a n (errs.filter MemErr.scratch)).filterMap id

/-- The DRAM blocks that a side of a MOVE touches. -/
def moveBlocks (kind : Nat) (a : Int) (n : Nat) : List Nat :=
  let v := unsgn 36 a % 2 ^ 34
  if kind = 1 then dramBlocks v n else []

/-- Counts and records what SECDED found in the granules of scratch that a side of a MOVE reads (R119, R494). -/
def State.moveScratch (s : State) (d : DieId) (kind : Nat) (a : Int) (n : Nat) (errs : List MemErr) : State :=
  let v := unsgn 36 a % 2 ^ 27
  if kind = 2 ∧ 0 < n then
    (List.range ((v % 32 + n + 31) / 32)).foldl (fun s i => s.tileFault d (scratchTile a) (eccFault (eccAt errs true (v / 32 + i)))) s
  else s

/-- A side of a MOVE is held by DMA_HOLD (R594, class 2). -/
def Die.moveHeld (x : Die) (kind : Nat) (a : Int) : Bool :=
  (kind == 2 && x.pertOn 2 (bits (unsgn 36 a) 26 19) 0) || (kind == 3 && x.pertOn 2 (unsgn 36 a % 512) 1)

/-- A row can be moved now: its source holds it, its destination has room, and no hold acts. -/
def Die.moveRoom (x : Die) (d : DieId) (m : MoveWord) : Bool :=
  let z := m.sizes
  (m.srcKind != 3 || decide (z.1 ≤ (x.stream (unsgn 36 m.src % 512)).length)) &&
  (z.2.1 == 0 || m.srcKind != 3 || decide (z.2.1 ≤ (x.stream (unsgn 36 m.aux % 512)).length)) &&
  (m.dstKind != 3 || decide (z.2.2.1 ≤ x.streamRoom (unsgn 36 m.dst % 512))) &&
  (m.dstKind != 4 || (x.entryQ (unsgn 36 m.dst % 1024)).discard ||
    decide ((x.entryQ (unsgn 36 m.dst % 1024)).fill + z.2.2.1 ≤ Config.entryRoom d.val (unsgn 36 m.dst % 1024))) &&
  !x.moveHeld m.srcKind m.src && !x.moveHeld m.dstKind m.dst

/-- Writes one side of a MOVE's row. -/
def State.moveWrite (s : State) (d : DieId) (n kind : Nat) (a : Int) (bs : List MByte) : State :=
  let v := unsgn 36 a
  match kind with
  | 1 => (s.touchRange d (v % 2 ^ 34) bs.length).upd d fun x => x.dramWrite s.now (v % 2 ^ 34) bs
  | 2 => s.upd d fun x =>
      let i := scratchTile a
      x.setTile i ((bs.zipIdx).foldl (fun t e => match e.1 with
        | some b => t.writeScratch i (v % 2 ^ 19 + e.2) [b]
        | none => t) (x.tile i))
  | 3 => s.upd d fun x => x.setStream (v % 512) (x.stream (v % 512) ++ bs.filterMap id)
  | 4 => s.upd d fun x => (x.setEntryQ d (v % 1024) ((x.entryQ (v % 1024)).append (bs.map fun b => b.getD 0) (bs.any Option.isNone))).modChan n fun c =>
      { c with openEntry := some (v % 1024) }
  | 5 => s.ckFeed d (v % 64) (bs.map fun b => b.getD 0) (bs.any Option.isNone)
  | 6 => s.upd d fun x => x.ckRestore (v % 64) (bs.map fun b => b.getD 0)
  | _ => s

/-- A stream queue loses the bytes that were read from it. -/
def Die.moveConsume (x : Die) (kind : Nat) (a : Int) (n : Nat) : Die :=
  if kind = 3 then x.setStream (unsgn 36 a % 512) ((x.stream (unsgn 36 a % 512)).drop n) else x

/-- Moves one row. -/
def State.moveRow (s : State) (d : DieId) (n : Nat) (m : MoveWord) (errs : List MemErr) : State :=
  let z := m.sizes
  let x := s.die d
  let src := x.moveRead m.srcKind m.src z.1 errs
  let aux := x.moveRead m.srcKind m.aux z.2.1 errs
  let bad := (src ++ aux).any Option.isNone
  let raw := x.moveRaw m.srcKind m.src z.1 errs ++ x.moveRaw m.srcKind m.aux z.2.1 errs
  let blocks := moveBlocks m.srcKind m.src z.1 ++ moveBlocks m.srcKind m.aux z.2.1
  let lost := (blocks.filter fun b => eccAt errs false (b / 64) == .uncorrected).length
  let s := blocks.foldl (fun s b => (s.touchOpen d b).dramEcc d b (eccAt errs false (b / 64))) s
  let s := (s.moveScratch d m.srcKind m.src z.1 errs).moveScratch d m.srcKind m.aux z.2.1 errs
  let s := s.upd d fun x => (x.moveConsume m.srcKind m.src z.1).moveConsume m.srcKind m.aux z.2.1
  let s := if bad then
      ((s.setFld d R.DM_CH_STATUS_ECC 1 n).count d R.DM_CH_ECC n lost).dmEvent d R.DM_EVENTS_ECC R.DM_CH_EVENTS_ECC n
    else s
  let s := if m.ckEn then s.ckFeed d m.ck raw bad else s
  let r := m.reshape src aux
  let s := s.moveWrite d n m.dstKind m.dst r.1
  if z.2.2.2 = 0 then s else s.moveWrite d n m.dstKind m.aux r.2

/-- Moves rows from row `i` on while there is room and fewer than 16 accesses are outstanding; the first row that cannot move
waits (R496). -/
def State.moveRows (s : State) (d : DieId) (n : Nat) (m : MoveWord) (errs : List MemErr) : Nat → Nat → State
  | 0, _ =>
    let s := if m.endEntry then s.upd d fun x =>
        (x.setEntryQ d (unsgn 36 m.dst % 1024) (x.entryQ (unsgn 36 m.dst % 1024)).close).modChan n fun c => { c with openEntry := none }
      else s
    s.upd d fun x => if (x.chan n).ending then x.dmaEnd d n else x.modChan n fun c => { c with blocked := none }.step 2
  | k + 1, i =>
    let x := s.die d
    let r := { m with src := m.src + i * m.srcPitch, dst := m.dst + i * m.dstPitch, aux := m.aux + i * m.auxPitch }
    if 16 ≤ (x.chan n).accesses.length || !x.moveRoom d r then
      s.upd d fun x => x.modChan n fun c => { c with blocked := some (m, i, (c.blocked.map fun b => b.2.2).getD s.now) }
    else
      let s := (s.moveRow d n r errs).upd d fun x => x.modChan n fun c => { c with accesses := c.accesses ++ [s.now], blocked := none }
      s.moveRows d n m errs k (i + 1)

/-- MOVE. -/
def State.dmaMove (s : State) (d : DieId) (n : Nat) (ecc : Ecc) (errs : List MemErr) : State :=
  s.dmaIssue d n 1 ecc (fun _ => true) fun w0 s =>
    let x := s.die d
    let m := moveWord w0 (x.word (x.fld R.DM_CH_CFG_FIRST n + (x.chan n).pc + 1)) (x.chan n).loops
    s.moveRows d n m errs m.rows 0

/-! ### LOOP, WAIT and SIGNAL (R498 to R501) -/

/-- LOOP. -/
def State.dmaLoop (s : State) (d : DieId) (n : Nat) (ecc : Ecc) : State :=
  s.dmaIssue d n 2 ecc (fun _ => true) fun w s => s.upd d fun x =>
    let c := x.chan n
    let len := bits w 123 116
    let k := if bits w 115 114 = 1 then (x.stream (bits w 97 89)).length / bits w 113 98 else bits w 113 98
    let l : DmaLoop := ⟨c.pc + 1, c.pc + 1 + len, 0, k, (sgn 24 (bits w 88 65), sgn 24 (bits w 64 41), sgn 24 (bits w 40 17))⟩
    if k = 0 then x.modChan n fun c => c.step (1 + len)
    else x.modChan n fun c => { c with pc := c.pc + 1, loops := l :: c.loops }

/-- WAIT with condition `cond`. -/
def State.dmaWait (s : State) (d : DieId) (n cond : Nat) (ecc : Ecc) : State :=
  s.dmaIssue d n 3 ecc (fun w => bits w 123 121 == cond) fun w s => s.upd d fun x => x.modChan n fun c =>
    { c with wait := some { cond := cond, target := bits w 103 94, entry := bit w 93, line := bits w 92 80, bytes := bits w 79 56
                            skip := bit w 120, left := bits w 119 104 } }

/-- The condition of a WAIT holds. -/
def Die.waitHolds (x : Die) (n : Nat) (w : DmaWait) : Bool :=
  match w.cond with
  | 0 => w.seen
  | 1 => if w.entry then (x.entryQ w.target).pace else x.flag R.DM_SQ_FILL_PACE (w.target % 512)
  | 2 => decide (w.bytes ≤ if w.entry then (x.entryQ w.target).fill else (x.stream (w.target % 512)).length)
  | _ => decide (0 < x.fld R.DM_CH_STATUS_PENDING n)

/-- DMA_WAIT_DONE: the condition holds and the channel continues; START consumes its event. -/
def Die.dmaWaitDone (x : Die) (d : DieId) (n : Nat) : Die :=
  match (x.chan n).wait with
  | some w =>
    if x.chState n == 1 && x.waitHolds n w then
      let x := if w.cond = 3 then
          (x.setFld R.DM_CH_STATUS_PENDING (x.fld R.DM_CH_STATUS_PENDING n - 1) n).modChan n fun c => { c with pendDepths := c.pendDepths.drop 1 }
        else x
      if (x.chan n).ending then x.dmaEnd d n else x.modChan n fun c => { c with wait := none }.step 1
    else x
  | none => x

/-- DMA_WAIT_TIMEOUT: with SKIP the channel continues, else it stops with cause WAIT. -/
def State.dmaWaitTimeout (s : State) (d : DieId) (n : Nat) : State :=
  match ((s.die d).chan n).wait with
  | some w =>
    if (s.die d).chState n = 1 ∧ w.left = 0 then
      if ((s.die d).chan n).ending then s.upd d fun x => x.dmaEnd d n
      else if w.skip then
        ((s.upd d fun x => x.modChan n fun c => { c with wait := none }.step 1).count d R.DM_CH_WAIT_SKIPS n).dmEvent d
          R.DM_EVENTS_WAIT_SKIP R.DM_CH_EVENTS_WAIT_SKIP n
      else s.dmaStop d n 3
    else s
  | none => s

/-- SIGNAL: TAKE, FLAG, POST, START and END, once every earlier access has completed. -/
def State.dmaSignal (s : State) (d : DieId) (n : Nat) (ecc : Ecc) : State :=
  if !((s.die d).chan n).accesses.isEmpty then s
  else s.dmaIssue d n 4 ecc (fun _ => true) fun w s =>
    let s := if bit w 119 then s.upd d fun x => x.ckTake (bits w 118 113) else s
    let s := if bit w 122 then
        let t := bits w 106 102 * 48 + bits w 112 107
        s.upd d fun x => x.setTile t ((x.tile t).signalFlag (bits w 101 98))
      else s
    let s := if bit w 121 then s.post d (bits w 97 86) else s
    let depth := ((s.die d).chan n).depth + 1
    if bit w 120 ∧ depth = 16 then s.dmaStop d n 5
    else
      let s := if bit w 120 then s.dmaStart d (bits w 85 79) .signal depth else s
      if bit w 123 then s.upd d fun x => x.dmaEnd d n else s.upd d fun x => x.modChan n fun c => c.step 1

/-- When the oldest access outstanding, or the row that waits, was issued. -/
def DmaChan.oldest (c : DmaChan) : Option Nat :=
  match c.accesses, c.blocked with
  | t :: _, some (_, _, u) => some (min t u)
  | t :: _, none => some t
  | [], some (_, _, u) => some u
  | [], none => none
/-- DMA_ACCESS_DONE: the oldest access completes, and a row that waits for room moves where it now can; later than 2 us after issue
the channel stops with cause TIMEOUT (R496). -/
def State.dmaAccessDone (s : State) (d : DieId) (n : Nat) (errs : List MemErr) : State :=
  if (s.die d).chState n = 1 then
    if (match ((s.die d).chan n).oldest with | some t => decide (t + 2 * usec < s.now) | none => false) then s.dmaStop d n 2 else
    let s := s.upd d fun x => x.modChan n fun c => { c with accesses := c.accesses.drop 1 }
    match ((s.die d).chan n).blocked with
    | some (m, i, _) => s.moveRows d n m errs (m.rows - i) i
    | none => s
  else s

/-- DMA_TIMEOUT: 2 us after issue the access has not completed, and the channel stops with cause TIMEOUT. -/
def State.dmaTimeout (s : State) (d : DieId) (n : Nat) : State :=
  match ((s.die d).chan n).oldest with
  | some t => if (s.die d).chState n = 1 then (s.advanceTo (t + 2 * usec)).dmaStop d n 2 else s
  | none => s

/-! ### The rows of the opcode table -/

/-- KICK (R171): the start event, and the end of the bundle's cycle. -/
def execKick (d : DieId) (t : Fin 1536) (ch : Fin 128) (s : State) : Result :=
  onDie s d (Instr.wf (.kick d t ch))
    (let s' := if ((s.die d).tile t).issues then s.dmaStart d ch .kick 0 else s
     s'.ctl d t id)
def execMove (d : DieId) (ch : Fin 128) (ecc : Ecc) (errs : List MemErr) (s : State) : Result :=
  onDie s d (Instr.wf (.move d ch ecc errs)) (s.dmaMove d ch ecc errs)
def execDmaLoop (d : DieId) (ch : Fin 128) (ecc : Ecc) (s : State) : Result :=
  onDie s d (Instr.wf (.dmaLoop d ch ecc)) (s.dmaLoop d ch ecc)
def execWaitLine (d : DieId) (ch : Fin 128) (ecc : Ecc) (s : State) : Result :=
  onDie s d (Instr.wf (.waitLine d ch ecc)) (s.dmaWait d ch 0 ecc)
def execWaitPace (d : DieId) (ch : Fin 128) (ecc : Ecc) (s : State) : Result :=
  onDie s d (Instr.wf (.waitPace d ch ecc)) (s.dmaWait d ch 1 ecc)
def execWaitFill (d : DieId) (ch : Fin 128) (ecc : Ecc) (s : State) : Result :=
  onDie s d (Instr.wf (.waitFill d ch ecc)) (s.dmaWait d ch 2 ecc)
def execWaitStart (d : DieId) (ch : Fin 128) (ecc : Ecc) (s : State) : Result :=
  onDie s d (Instr.wf (.waitStart d ch ecc)) (s.dmaWait d ch 3 ecc)
def execDmaWaitDone (d : DieId) (ch : Fin 128) (s : State) : Result :=
  onDie s d (Instr.wf (.dmaWaitDone d ch)) (s.upd d fun x => x.dmaWaitDone d ch)
def execDmaWaitTimeout (d : DieId) (ch : Fin 128) (s : State) : Result :=
  onDie s d (Instr.wf (.dmaWaitTimeout d ch)) (s.dmaWaitTimeout d ch)
def execSignal (d : DieId) (ch : Fin 128) (ecc : Ecc) (s : State) : Result :=
  onDie s d (Instr.wf (.signal d ch ecc)) (s.dmaSignal d ch ecc)
def execDmaAccessDone (d : DieId) (ch : Fin 128) (errs : List MemErr) (s : State) : Result :=
  onDie s d (Instr.wf (.dmaAccessDone d ch errs)) (s.dmaAccessDone d ch errs)
def execDmaTimeout (d : DieId) (ch : Fin 128) (s : State) : Result :=
  onDie s d (Instr.wf (.dmaTimeout d ch)) (s.dmaTimeout d ch)

end Sys2Proof.Machine
end

