-- ==== Sys2Proof/Machine/Traffic.lean ====
section
/-! DEFINITION. Egress (12_traffic.md): queues, the choice of the next frame, shapers, policers and gate lists. -/

namespace Sys2Proof.Machine

/-! ### Queues (R385 to R387) -/

/-- A queue of a die: strict 8 x sub-port + queue, or weighted 1,024 x port + queue. -/
structure QId where
  n : Nat
  weighted : Bool
  deriving DecidableEq, Repr

def Die.queue (x : Die) (q : QId) : EgQueue := mget (fun _ => {}) (if q.weighted then x.tq.weighted else x.tq.strict) q.n
def Die.setQueue (x : Die) (q : QId) (v : EgQueue) : Die :=
  { x with tq := if q.weighted then { x.tq with weighted := mput (fun _ => {}) x.tq.weighted q.n v }
                 else { x.tq with strict := mput (fun _ => {}) x.tq.strict q.n v } }
/-- Bytes held. -/
def EgQueue.fill (q : EgQueue) : Nat := q.pkts.foldl (fun n p => n + p.len) 0
/-- The sub-port that a queue leaves by, as 4p + s. -/
def Die.queueSp (x : Die) (q : QId) : Nat := if q.weighted then q.n / 1024 * 4 + x.fld R.TQ_W_CFG_SUBPORT q.n else q.n / 8
def Die.queueUsed (x : Die) (q : QId) : Bool := if q.weighted then x.flag R.TQ_W_CFG_USED q.n else x.flag R.TQ_Q_CFG_USED q.n
def Die.queueForward (x : Die) (q : QId) : Bool := if q.weighted then x.flag R.TQ_W_CFG_FORWARD q.n else x.flag R.TQ_Q_CFG_FORWARD q.n
/-- The shaper bound to a queue. -/
def Die.queueShaper (x : Die) (q : QId) : Option Nat :=
  if q.weighted then (if x.flag R.TQ_W_CFG_SHAPED q.n then some (x.fld R.TQ_W_CFG_SHAPER q.n) else none)
  else if x.flag R.TQ_Q_CFG_SHAPED q.n then some (x.fld R.TQ_Q_CFG_SHAPER q.n) else none
/-- The depth of a queue: the register's for a strict queue, its record's for a weighted one (R84 kind 0x0701). -/
def Die.queueDepth (x : Die) (q : QId) : Nat :=
  if q.weighted then ((x.bodyOf 7 0x701 (0x8000 + q.n)).map fun b => num b 0 4).getD 0 else x.fld R.TQ_Q_DEPTH_DEPTH q.n
/-- The queue that a QUEUE field of a plan record names. -/
def qidOf (n : Nat) : QId := ⟨n % 0x8000, decide (0x8000 ≤ n)⟩

/-- Virtual time of a sub-port's weighted group. -/
def Die.virtual (x : Die) (sp : Nat) : Nat := mget (fun _ => 0) x.tq.virtual sp
/-- The finish tag of a frame of `l` bytes that starts at `s` (R390). -/
def finishTag (w s l : Nat) : Nat := (s + cdiv ((l + 20) * 65536) (max 1 w)) % 2 ^ 64
/-- The tags of the head frame of a weighted queue as it becomes the head: a newly active queue starts at V (R390, R391). -/
def Die.headTags (x : Die) (q : QId) (fresh : Bool) (v : EgQueue) : EgQueue :=
  match v.pkts with
  | [] => { v with tags := none }
  | p :: _ =>
    let vt := x.virtual (x.queueSp q)
    let s := if fresh ∨ sgn 64 (v.last + 2 ^ 64 - vt) < 0 then vt else v.last
    { v with tags := some (s, finishTag (x.fld R.TQ_W_CFG_WEIGHT q.n) s p.len) }

/-- A packet that does not fit is discarded whole: a breach from a local queue, none from a forwarding queue (R387). -/
def State.queueDrop (s : State) (d : DieId) (q : QId) (frag : Nat) : State :=
  let fwd := (s.die d).queueForward q
  let s := s.count d R.TQ_DROPS
  let s := if q.weighted then s else s.count d R.TQ_Q_DROPS q.n
  let s := ((s.setFld d R.TQ_LAST_DROP_QUEUE q.n).setFld d R.TQ_LAST_DROP_WEIGHTED (b2n q.weighted)).setFld d R.TQ_LAST_DROP_FRAGMENT
    (if fwd then 0 else frag)
  if fwd then s.event d R.TQ_EVENTS_QUEUE_DROP 0 q.n
  else (s.eventRec d R.TQ_EVENTS_QUEUE_DROP 0 q.n frag).breach d .queue frag

/-- Offers a packet to a queue (R386, R387). -/
def State.enqueue (s : State) (d : DieId) (q : QId) (frag : Nat) (p : Pkt) : State :=
  let x := s.die d
  let v := x.queue q
  if !x.queueUsed q ∨ x.queueDepth q < v.fill + p.len then s.queueDrop d q frag
  else
    let v' := { v with pkts := v.pkts ++ [p] }
    s.upd d fun x => x.setQueue q (if q.weighted ∧ v.pkts.isEmpty then x.headTags q true v' else v')

/-! ### Token buckets (R392 to R395) -/

/-- One byte of credit. -/
def creditUnit : Nat := second

def Die.shaper (x : Die) (h : Nat) : Bucket := mget (fun _ => {}) x.tq.shapers h
def Die.modShaper (x : Die) (h : Nat) (f : Bucket → Bucket) : Die :=
  { x with tq := { x.tq with shapers := mmod (fun _ => {}) x.tq.shapers h f } }
/-- Accrual at `rate` kb/s, which is 125 bytes a second each, up to `now`, never above `burst` bytes (R392). -/
def Bucket.accrue (b : Bucket) (rate burst now : Nat) : Bucket :=
  { b with credit := min ((burst * creditUnit : Nat) : Int) (b.credit + (rate * 125 * (now - b.at_) : Nat)), at_ := now }
/-- A shaper with its credit accrued to the present. -/
def Die.shaperNow (x : Die) (h : Nat) : Bucket :=
  (x.shaper h).accrue (x.fld R.TQ_SH_RATE_RATE h) (x.fld R.TQ_SH_BURST_BURST h) x.clk.now
/-- A change of a shaper's rate: the old rate up to now, the new one after; debt stays in bytes (R393). -/
def Die.shaperRate (x : Die) (h rate : Nat) : Die :=
  let b := x.shaperNow h
  (x.modShaper h fun _ => b).setFld R.TQ_SH_RATE_RATE rate h
/-- A frame of `len` bytes takes its credit. -/
def Die.shaperTake (x : Die) (h len : Nat) : Die :=
  let b := x.shaperNow h
  x.modShaper h fun _ => { b with credit := b.credit - ((len + 20) * creditUnit : Nat) }

/-- The policers bound to a receive flow (0), a forwarding entry (1) or a control queue (2): index and record body. -/
def Die.policersOf (x : Die) (kind idx : Nat) : List (Nat × List Byte) :=
  ((x.recsOf 7 0x703).filter fun e => (chunks 4 (num e.2.body 8 2) (subBytes e.2.body 16 (4 * num e.2.body 8 2))).any fun b =>
    num b 0 1 == kind && num b 2 2 == idx).map fun e => (e.2.idx, e.2.body)
/-- A frame of `len` bytes meets the policers of what it is for: it passes where every credit suffices (R395). -/
def State.police (s : State) (d : DieId) (kind idx len : Nat) : State × Bool :=
  ((s.die d).policersOf kind idx).foldl (fun (s, ok) e =>
    if !ok then (s, ok)
    else
      let b := (mget (fun _ => ({} : Bucket)) (s.die d).tq.policers e.1).accrue (num e.2 0 4) (num e.2 4 4) (s.die d).clk.now
      let pass := decide (((len * creditUnit : Nat) : Int) ≤ b.credit)
      let b' := if pass then { b with credit := b.credit - (len * creditUnit : Nat) } else b
      let s := s.upd d fun x => { x with tq := { x.tq with policers := mput (fun _ => {}) x.tq.policers e.1 b' } }
      if pass then (s, true)
      else (((s.count d R.TQ_POL e.1).count d R.TQ_POLICE_DROPS).event d R.TQ_EVENTS_POLICE_DROP 0 e.1, false)) (s, true)

/-! ### Gate lists (R396 to R399) -/

/-- A gate list of the plan in force. -/
structure GateList where
  mode : Nat
  cad : Nat
  t0 : Nat
  t1 : Nat
  cycle : Nat
  /-- gate states and interval of each entry -/
  entries : List (Nat × Nat)
  deriving DecidableEq, Repr

def Die.gateList (x : Die) (sp l : Nat) : Option GateList :=
  (x.bodyOf 8 0x801 (4 * sp + l)).map fun b =>
    { mode := num b 0 1, cad := num b 1 1, t0 := num b 4 4, t1 := num b 8 4, cycle := num b 12 4
      entries := (chunks 8 (num b 2 2) (subBytes b 16 (8 * num b 2 2))).map fun e => (num e 0 2 % 512, num e 4 4) }
def Die.gate (x : Die) (sp : Nat) : GateSt := mget (fun _ => {}) x.tq.gates sp
def Die.modGate (x : Die) (sp : Nat) (f : GateSt → GateSt) : Die :=
  { x with tq := { x.tq with gates := mmod (fun _ => {}) x.tq.gates sp f } }

/-- The present position in a list's units: ns of station time, or 2^-16 line of its cadence. -/
def Die.gateNow (x : Die) (l : GateList) : Int :=
  if l.mode = 0 then (x.clk.now / nsec : Nat) else match x.grid l.cad with
    | some g => g.pos (x.gridTime l.cad)
    | none => 0
/-- The station time of a position in a list's units. -/
def Die.gateInstant (x : Die) (l : GateList) (p : Int) : Nat :=
  if l.mode = 0 then (p * nsec).toNat else match x.grid l.cad with
    | some g => g.instantPos p
    | none => 0
/-- A base as a position: the nearer reading of its seconds or frame (R41). -/
def Die.gateBase (x : Die) (l : GateList) (t0 t1 : Nat) : Int :=
  if l.mode = 0 then ((x.clk.now / nsec : Nat) : Int) + wrapDiff (t1 * 2 ^ 32 + t0 % 2 ^ 30) (wrapOf x.clk.now)
  else match x.grid l.cad with
    | some g =>
      let f := (x.frameLine l.cad).1
      (f + diff32 t1 (unsgn 32 f)) * g.l * 65536 + (t0 % 2 ^ 29 : Nat)
    | none => 0
/-- The first cycle boundary, base + n x cycle with n at least 0, that lies after `now`, and n (R397). -/
def gateStart (base : Int) (cycle : Nat) (now : Int) : Int × Nat :=
  let n := if now < base then 0 else ((now - base) / (max 1 cycle) + 1).toNat
  (base + n * cycle, n)

/-- Selects a list with a base (R397, R398): it starts at its first future boundary; a later selection replaces it. -/
def Die.gateSelect (x : Die) (sp l t0 t1 : Nat) : Die :=
  match x.gateList sp l with
  | none => x
  | some gl =>
    let base := x.gateBase gl t0 t1
    let (start, n) := gateStart base gl.cycle (x.gateNow gl)
    (x.modGate sp fun g => { g with pend := some ⟨l, base, start, n⟩ }).setFld R.TQ_GATE_CFG_PENDING 1 sp

/-- The list in force on a sub-port. -/
def Die.gateActive (x : Die) (sp : Nat) : Option GateList := x.gateList sp (x.fld R.TQ_GATE_CFG_ACTIVE sp)
/-- The instant at which the pending list of a sub-port starts. -/
def Die.gateStartDue (x : Die) (sp : Nat) : Option Nat :=
  match (x.gate sp).pend with
  | some p => (x.gateList sp p.list).map fun l => x.gateInstant l p.start
  | none => none
/-- The instant at which the list in force restarts after a phase step (R399). -/
def Die.gateAgainDue (x : Die) (sp : Nat) : Option Nat :=
  match (x.gate sp).again, x.gateActive sp with
  | some m, some l => some (x.gateInstant l m)
  | _, _ => none
/-- The restart of the list in force comes before the start of the pending list. -/
def Die.gateAgainFirst (x : Die) (sp : Nat) : Bool :=
  match x.gateAgainDue sp, x.gateStartDue sp with
  | some a, some p => decide (a < p)
  | some _, none => true
  | none, _ => false

/-- The list in force restarts at its first cycle boundary after a phase step (R399). -/
def State.gateRestarts (s : State) (d : DieId) (sp : Nat) : State :=
  match ((s.die d).gate sp).again, (s.die d).gateActive sp with
  | some m, some l =>
    let s := s.advanceStation d ((s.die d).gateInstant l m)
    let s := s.upd d fun x => x.modGate sp fun g => { g with run := some m, again := none }
    (s.setFld d R.TQ_GATE_CFG_GATES ((l.entries.map Prod.fst).getD 0 0x1FF) sp).setFld d R.TQ_GATE_ENTRY_ENTRY 0 sp
  | _, _ => s

/-- The pending list of a sub-port is in force; skipped cycles are reported (R397). -/
def State.gatePendStarts (s : State) (d : DieId) (sp : Nat) : State :=
  match ((s.die d).gate sp).pend, (s.die d).gateStartDue sp with
  | some p, some t =>
    let s := s.advanceStation d t
    match (s.die d).gateList sp p.list with
    | none => s
    | some l =>
      let s := s.upd d fun x => x.modGate sp fun g => { g with run := some p.start, base := p.base, pend := none, again := none }
      let s := ((((s.setFld d R.TQ_GATE_CFG_PENDING 0 sp).setFld d R.TQ_GATE_CFG_ACTIVE p.list sp).setFld d R.TQ_GATE_CFG_MODE l.mode sp).setFld
        d R.TQ_GATE_CFG_CADENCE l.cad sp).setFld d R.TQ_GATE_CFG_GATES ((l.entries.map Prod.fst).getD 0 0x1FF) sp
      let s := ((s.setFld d R.TQ_GATE_LATE (min p.skipped (2 ^ 32 - 1)) sp).setFld d R.TQ_GATE_CYCLES 0 sp).setFld d R.TQ_GATE_ENTRY_ENTRY 0 sp
      let s := s.eventRec d R.TQ_EVENTS_GATE_STARTED 0 (4 * sp + p.list) (min p.skipped 65535)
      if p.skipped = 0 then s else s.event d R.TQ_EVENTS_GATE_LATE 0 sp
  | _, _ => s

/-- GATE_LIST_START (R397, R399): the list in force restarts after a phase step, or the pending list starts, whichever is due first. -/
def State.gateStarts (s : State) (d : DieId) (sp : Nat) : State :=
  if (s.die d).gateAgainFirst sp then s.gateRestarts d sp else s.gatePendStarts d sp

/-- Where entry `e` of a list ends, counted from the start of its cycle. -/
def GateList.endOf (l : GateList) (e : Nat) : Nat := ((l.entries.take (e + 1)).map Prod.snd).foldl (· + ·) 0

/-- GATE_ENTRY (R396): the interval of the entry in force ends, and the next entry's gate states apply; after the last entry a
new cycle begins. -/
def State.gateEntry (s : State) (d : DieId) (sp : Nat) : State :=
  let e := s.fld d R.TQ_GATE_ENTRY_ENTRY sp
  match ((s.die d).gate sp).run, (s.die d).gateList sp (s.fld d R.TQ_GATE_CFG_ACTIVE sp) with
  | some start, some l =>
    let s := s.advanceStation d ((s.die d).gateInstant l (start + l.endOf e))
    let wrap := decide (l.entries.length ≤ e + 1)
    let e' := if wrap then 0 else e + 1
    let s := (s.setFld d R.TQ_GATE_ENTRY_ENTRY e' sp).setFld d R.TQ_GATE_CFG_GATES ((l.entries.map Prod.fst).getD e' 0x1FF) sp
    if wrap then (s.count d R.TQ_GATE_CYCLES sp).upd d fun x => x.modGate sp fun g => { g with run := some (start + l.cycle) } else s
  | _, _ => s

/-- The position in a list's units that a step of station time has reached, on the new time (R399). -/
def Die.gateNew (x : Die) (l : GateList) : Int :=
  if l.mode = 0 then (x.clk.now / nsec : Nat) else match x.grid l.cad with
    | some g => g.pos x.clk.now
    | none => 0
/-- The first cycle boundary of a list after a step, and the cycles that the step passes over from `due` on (R399). -/
def Die.gateAfter (x : Die) (l : GateList) (base due : Int) : Int × Nat :=
  let start := (gateStart base l.cycle (x.gateNew l)).1
  (start, if due < start then ((start - due) / (max 1 l.cycle)).toNat else 0)
/-- After a step of station time the list in force restarts at its first boundary on the new time, and until then the gates keep
their states; the cycles that a forward step passes over are added to LATE. A selection that waits starts at its first boundary on
the new time (R399, log entry 62). -/
def Die.gateStepped (x : Die) (sp : Nat) : Die :=
  let g := x.gate sp
  let x := match g.run.map (fun m => (m, true)) |>.orElse (fun _ => g.again.map fun m => (m, false)), x.gateActive sp with
    | some (m, running), some l =>
      let r := x.gateAfter l g.base (if running then m + l.cycle else m)
      (x.modGate sp fun g => { g with run := none, again := some r.1 }).setFld R.TQ_GATE_LATE (min (x.fld R.TQ_GATE_LATE sp + r.2) (2 ^ 32 - 1)) sp
    | _, _ => x
  match g.pend.bind fun p => (x.gateList sp p.list).map fun l => (p, l) with
  | some (p, l) =>
    let r := x.gateAfter l p.base p.start
    x.modGate sp fun g => { g with pend := some { p with start := r.1, skipped := p.skipped + r.2 } }
  | none => x

/-- How long the gate of a bit stays open from the present entry on, in the units of the list; none where it never closes. -/
def openFor (bit_ : Nat) : List (Nat × Nat) → Nat → Option Nat
  | [], _ => none
  | (g, n) :: l, acc => if bit g bit_ then openFor bit_ l (acc + n) else some acc

/-- The station time at which the gate of a bit closes in a list whose cycle starts at `start`, with entry `e` in force or to come. -/
def Die.closesFrom (x : Die) (l : GateList) (start : Int) (b e : Nat) : Option Nat :=
  (openFor b (l.entries.drop e ++ l.entries.take e) 0).map fun n => x.gateInstant l (start + (((l.entries.take e).foldl (fun n v => n + v.2) 0 + n : Nat) : Int))
/-- The station time at which the gate of a bit closes next in the list in force; none where it stays open. After a phase step it
keeps its state up to the restart (R399). -/
def Die.gateCloses (x : Die) (sp b : Nat) : Option Nat :=
  match (x.gate sp).run, (x.gate sp).again, x.gateActive sp with
  | some start, _, some l => x.closesFrom l start b (x.fld R.TQ_GATE_ENTRY_ENTRY sp + 1)
  | none, some m, some l => x.closesFrom l m b 0
  | _, _, _ => none
/-- The same for the pending list, from its start on. -/
def Die.pendCloses (x : Die) (sp b : Nat) : Option Nat :=
  match (x.gate sp).pend.bind fun p => (x.gateList sp p.list).map fun l => (p, l) with
  | some (p, l) => x.closesFrom l p.start b 0
  | none => none

/-! ### Choosing the next frame (R388 to R390) -/

/-- Gb/s of a port's sub-ports by its mode (R350). -/
def Die.spRate (x : Die) (sp : Nat) : Nat := match x.fld R.NW_SP_CFG_MODE sp with | 0 => 400 | 1 => 200 | _ => 100
/-- The time that `n` bytes take on a sub-port. -/
def Die.wireTime (x : Die) (sp n : Nat) : Nat := cdiv (n * 8 * nsec) (x.spRate sp)
/-- The gate of a queue. -/
def gateBit (q : QId) : Nat := if q.weighted then 8 else q.n % 8

/-- A frame of `len` bytes of a queue may start now by its gate: it is open, and the frame and its gap leave before the gate
closes: in the list in force as long as that runs, and in the pending list from its start on (R388, R389, R398). -/
def Die.gateAllows (x : Die) (q : QId) (len : Nat) : Bool :=
  let sp := x.queueSp q
  let b := gateBit q
  let end_ := x.clk.now + x.wireTime sp (len + 20)
  let before (t : Option Nat) : Bool := match t with | some t => decide (end_ ≤ t) | none => true
  bit (x.fld R.TQ_GATE_CFG_GATES sp) b && match x.gateStartDue sp with
    | none => before (x.gateCloses sp b)
    | some p =>
      if (match x.gateCloses sp b with | some t => decide (t < p) | none => false) || decide (end_ ≤ p) then before (x.gateCloses sp b)
      else before (x.pendCloses sp b)

/-- A queue is eligible (R388). -/
def Die.eligible (x : Die) (q : QId) : Bool :=
  match (x.queue q).pkts with
  | [] => false
  | p :: _ => decide (p.at_ ≤ x.clk.now) && x.gateAllows q p.len
      && (match x.queueShaper q with | some h => decide (0 ≤ (x.shaperNow h).credit) | none => true)

/-- The queue whose head frame starts next on a sub-port: the lowest eligible strict queue, else the eligible weighted queue of
least finish tag, the lowest number on a tie (R388, R390). -/
def Die.nextQueue (x : Die) (sp : Nat) : Option QId :=
  match ((List.range 8).map fun q => (⟨8 * sp + q, false⟩ : QId)).find? fun q => x.eligible q with
  | some q => some q
  | none =>
    let ws := (x.tq.weighted.map fun e => (⟨e.1, true⟩ : QId)).filter fun q => x.queueSp q == sp && x.eligible q
    ws.foldl (fun best q => match best with
      | none => some q
      | some b =>
        let f (q : QId) : Nat := (((x.queue q).tags).map Prod.snd).getD 0
        if sgn 64 (f q + 2 ^ 64 - f b) < 0 then some q else best) none

/-! ### Leaving (R354, R378, R401, R546, R550) -/

/-- The die holds a pail at the present line: before its expiry, where it holds with acknowledgement, and before a handover line (R541,
R543). Lines of a gap are not counted (R555). -/
def Die.holdsNow (x : Die) (p : Nat) : Bool :=
  let v := mget (fun _ => ({} : PailSt)) x.mr.pails p
  let m := if (x.cad p).inGap then v.lastLine else x.lineNow p
  x.fld R.MR_PAIL_STATE_ROLE p == 1 && (x.flag R.MR_PAIL_STATE_UNCOND p || decide (m < v.limit)) &&
    (match v.ho with | some h => decide (m < h) | none => true)
/-- The die may transmit what a send flow sends: always but for an in-step flow of whose pail it is not the holder (R360). -/
def Die.mayTransmit (x : Die) (f : Nat) : Bool := !x.flag R.NW_TX_CFG_INSTEP f || x.holdsNow (x.fld R.NW_TX_CFG_CADENCE f)

/-- Ones'-complement arithmetic on 16-bit words. -/
def onesAdd (a b : Nat) : Nat := (a + b) % 65536 + (a + b) / 65536
/-- A checksum after a 16-bit word changes from `m` to `m'` (R378). -/
def csumUpdate (hc m m' : Nat) : Nat := 65535 - onesAdd (onesAdd (65535 - hc) (65535 - m)) m'
/-- Replaces `n` bytes of a list from `off` on. -/
def patch (b : List Byte) (off : Nat) (new : List Byte) : List Byte := b.take off ++ new ++ b.drop (off + new.length)
/-- Adds a residence time to the correctionField of a PTP event message, and its change to a nonzero UDP checksum (R378). -/
def tcCorrect (b : List Byte) (ptp : Nat) (udp : Option Nat) (res : Nat) : List Byte :=
  let old := beNat (subBytes b (ptp + 8) 8)
  let new := (old + res) % 2 ^ 64
  let b := patch b (ptp + 8) (natBE 8 new)
  match udp with
  | none => b
  | some u =>
    let c := beNat (subBytes b u 2)
    if c = 0 then b
    else patch b u (natBE 2 ((List.range 4).foldl (fun c i => csumUpdate c (old / 2 ^ (48 - 16 * i) % 65536) (new / 2 ^ (48 - 16 * i) % 65536)) c))

/-- A frame's first frame, or last, of a unit of an in-step flow: what DRAINED counts by (R546). -/
def Die.unitStarts (x : Die) (p : Pkt) (q : QId) (end_ : Nat) : Die :=
  match p.flow with
  | none => x
  | some f =>
    if !x.flag R.NW_TX_CFG_INSTEP f then x
    else
      let line := x.lineNow (x.fld R.NW_TX_CFG_CADENCE f)
      let more := (x.queue q).pkts.any fun r => r.flow == some f && r.unit == p.unit
      let us := if x.tq.units.any fun u => u.flow == f && u.unit == p.unit then x.tq.units else x.tq.units ++ [⟨f, p.unit, line, none⟩]
      { x with tq := { x.tq with units := us.map fun u => if u.flow == f && u.unit == p.unit && !more then { u with done_ := some end_ } else u } }

/-- The frame is sent, discarded while the link is down, or discarded at the MAC of a standby, which keeps the units of -22 and
TS over RTP flows (R354, R401, R550). -/
def State.transmit (s : State) (d : DieId) (q : QId) (p : Pkt) : State :=
  let x := s.die d
  let sp := x.queueSp q
  if !x.flag R.NW_SP_STATUS_LINK sp then
    let s := s.count d R.NW_SP_TX_DISCARD sp
    match p.flow with
    | some f => s.count d R.NW_TX_DISCARDED f
    | none => s
  else if (p.flow.map fun f => !x.mayTransmit f).getD false then
    match p.flow with
    | some f =>
      let k := x.fld R.NW_TX_CFG_KIND f
      if k = 1 ∨ k = 6 then
        s.upd d fun x => { x with tq := { x.tq with resend := x.tq.resend ++ [⟨(q.n, q.weighted), p, x.lineNow (x.fld R.NW_TX_CFG_CADENCE f)⟩] } }
      else s
    | none => s
  else
    let body := match p.tc with | some (t, off, u) => tcCorrect p.body off u (x.clk.now - t) | none => p.body
    let s := if p.tc.isSome then s.count d R.NW_TC_FRAMES else s
    (s.count d R.NW_SP_TX_FRAMES sp).send (.frame d sp body p.bad)

/-- The head frame of a queue starts (R390, R392). -/
def State.startFrame (s : State) (d : DieId) (q : QId) : State :=
  let x := s.die d
  let v := x.queue q
  match v.pkts with
  | [] => s
  | p :: rest =>
    let sp := x.queueSp q
    let f := (v.tags.map Prod.snd).getD 0
    let end_ := x.clk.now + x.wireTime sp (p.len + 20)
    let x := match x.queueShaper q with | some h => x.shaperTake h p.len | none => x
    let x : Die := if q.weighted then { x with tq := { x.tq with virtual := mput (fun _ => 0) x.tq.virtual sp f } } else x
    let v' : EgQueue := { v with pkts := rest, last := if q.weighted then f else v.last }
    let x := x.setQueue q (if q.weighted then x.headTags q false v' else v')
    let x : Die := { x with tq := { x.tq with busy := mput (fun _ => 0) x.tq.busy sp end_ } }
    (s.setDie d (x.unitStarts p q end_)).transmit d q p

/-- The sub-port sends no frame now. -/
def Die.spFree (x : Die) (sp : Nat) : Bool := decide (mget (fun _ => 0) x.tq.busy sp ≤ x.clk.now)

/-- EGRESS_SELECT: the sub-port is free and starts the head frame of an eligible queue (R388), unless EGRESS_HOLD
holds the scheduler (R594, class 3). -/
def State.egressSelect (s : State) (d : DieId) (sp : Nat) : State :=
  if (s.die d).spFree sp && !(s.die d).pertOn 3 sp 0 then
    match (s.die d).nextQueue sp with
    | some q => s.startFrame d q
    | none => s
  else s

def execEgressSelect (d : DieId) (sp : Fin 8) (dt : Nat) (s : State) : Result :=
  onDie s d (Instr.wf (.egressSelect d sp dt)) ((s.advance dt).egressSelect d sp)
def execGateListStart (d : DieId) (sp : Fin 8) (s : State) : Result :=
  onDie s d (Instr.wf (.gateListStart d sp)) (s.gateStarts d sp)
def execGateEntry (d : DieId) (sp : Fin 8) (s : State) : Result :=
  onDie s d (Instr.wf (.gateEntry d sp)) (s.gateEntry d sp)

end Sys2Proof.Machine
end

