-- ==== Sys2Proof/Machine/Timebase.lean ====
section
/-! DEFINITION. Station time (02_station_time.md): the servo of each die, reference mismatch, steps of station time, the
cadences' grids through a step, and the compare units. -/

namespace Sys2Proof.Machine

/-! ### The servo's states (R47, R50, R51) -/

/-- The servo that a sample or a loss concerns: the station servo, or die 1's measuring servo of its backup PTP (R62). -/
def Die.servo (x : Die) (backup : Bool) : Servo := if backup then x.clk.backup else x.clk.servo
/-- A servo rewritten. -/
def Die.modServo (x : Die) (backup : Bool) (f : Servo → Servo) : Die :=
  { x with clk := if backup then { x.clk with backup := f x.clk.backup } else { x.clk with servo := f x.clk.servo } }

/-- Twice the sum of a frequency over the time from `from_` to the point `p`, an instant and the frequency there: between the points
recorded, newest first, the frequency moves at an even rate (R50, R52). -/
def freqArea (from_ : Nat) (p : Nat × Int) : List (Nat × Int) → Int
  | [] => 0
  | q :: l =>
    if q.1 ≤ from_ then
      let w : Int := (p.1 - from_ : Nat)
      (2 * p.2 + (q.2 - p.2) * w / max 1 ((p.1 - q.1 : Nat) : Int)) * w
    else (p.2 + q.2) * ((p.1 - q.1 : Nat) : Int) + freqArea from_ q l
/-- The mean frequency of the final 1 s of LOCKED (R50). -/
def Servo.meanFreq (v : Servo) (now : Nat) : Int :=
  let start := max (now - second) ((v.history.getLast?.map Prod.fst).getD now)
  if now ≤ start then v.freq else freqArea start (now, v.freq) v.history / (2 * ((now - start : Nat) : Int))

/-- The event bit of an entry to a state (R71). -/
def ServoState.event : ServoState → Fld
  | .free => R.TB_EVENTS_FREE | .acquire => R.TB_EVENTS_ACQUIRE | .locked => R.TB_EVENTS_LOCKED
  | .holdover => R.TB_EVENTS_HOLDOVER | .freerun => R.TB_EVENTS_FREERUN

/-- The servo's clock runs at a held frequency (R50). -/
def ServoState.held : ServoState → Bool
  | .holdover | .freerun => true
  | _ => false

/-- The frequency that a servo asks for as it enters a state: the mean of LOCKED or the present one for HOLDOVER, the nominal rate
for FREE (R50, R52). Station frequency moves to it at R52's rate (log entry 5). -/
def Servo.enterFreq (v : Servo) (now : Nat) : ServoState → Servo
  | .holdover => v.ask now (if v.state = .locked then v.meanFreq now else v.freq)
  | .free => v.ask now 0
  | .acquire | .locked | .freerun => v

/-- The servo as it enters a state at supervisor time `now`: the samples and runs of the old state are dropped (R49). -/
def Servo.enter (v : Servo) (now : Nat) (st : ServoState) : Servo :=
  { v.enterFreq now st with
    state := st, samples := [], inside := 0, outside := 0, inLocked := 0, rejectRun := 0
    history := if st = .locked then [(now, v.freq)] else (v.enterFreq now st).history
    holdStart := if st = .holdover then now else v.holdStart }

/-- The time in HOLDOVER and FREERUN since the last lock, as a state is entered (R69). -/
def Clock.holdTimes (c : Clock) (now : Nat) (st : ServoState) : Clock :=
  let held := if st = .locked then 0 else c.held + (match c.heldSince with | some t => now - t | none => 0)
  { c with held := held, heldSince := if st.held then some now else none }

/-- Seconds that TB_HOLD_TIME shows (R69). -/
def Clock.holdSeconds (c : Clock) (now : Nat) : Nat :=
  (c.held + (match c.heldSince with | some t => now - t | none => 0)) / second

/-- A servo enters a state; an entry of the station servo sets its event bit and is recorded (R47, R71). -/
def State.enter (s : State) (d : DieId) (backup : Bool) (st : ServoState) : State :=
  if ((s.die d).servo backup).state = st then s
  else
    let s := s.upd d fun x => x.modServo backup fun v => v.enter s.now st
    if backup then s
    else (s.upd d fun x => { x with clk := x.clk.holdTimes s.now st }).eventRec d st.event 0 d.val st.code

/-! ### Samples (R48, R49) -/

/-- Outlier and lock thresholds of a source in 1/16 ns (R48). -/
def Die.thresholds (x : Die) (src : Nat) : Nat × Nat :=
  if src = 1 then (16 * x.fld R.TB_THRESH_PTP, 16 * 50)
  else if src = 2 then (16 * x.fld R.TB_THRESH_REF_IN, 16 * 2)
  else (16 * 2, 16 * 1)

/-- Inserts into a list sorted by signed offset. -/
def insertInt (a : Int) : List Int → List Int
  | [] => [a]
  | b :: l => if a ≤ b then a :: b :: l else b :: insertInt a l
/-- The median of 16 samples: the mean of the eighth and ninth in ascending order, rounded towards zero (R49). -/
def median16 (l : List Int) : Int :=
  let o := l.foldr insertInt []
  (o.getD 7 0 + o.getD 8 0).tdiv 2

/-- 1 us in 1/16 ns: the least step (R49). -/
def stepLeast : Int := 16000

/-- The whole part of a square root below 2^24. -/
def isqrt (n : Nat) : Nat :=
  (List.range 24).reverse.foldl (fun r k => if (r + 2 ^ k) * (r + 2 ^ k) ≤ n then r + 2 ^ k else r) 0

/-- The frequency by which die 1 removes an offset of `off` sixteenths of a nanosecond from die 0's time: towards the offset, and so
small that at 0.1 ppm/s it is back at die 0's frequency before the offset is removed; of what this allows, between a half and the
whole is a free value (R23, R52, R61, log entry 5). -/
def followFreq (off : Int) (free : Nat) : Int :=
  let most := min (16 * off.natAbs) (isqrt (409600 * off.natAbs))
  let c : Int := (most - free % (most / 2 + 1) : Nat)
  if 0 ≤ off then c else -c

/-- What a servo's control asks for after a sample of offset `off`, and its prediction: free values within R52 (log entry 5); die 1
under DIE0 follows die 0's frequency and removes the offset, by which it keeps within 1 ns (R23, R61). -/
def State.steer (s : State) (d : DieId) (backup : Bool) (src : Nat) (off : Int) : State :=
  let (n, s) := s.draw
  let (p, s) := s.draw
  let want : Int := if src = 3 then s.die0.clk.servo.freq + followFreq off n else (n : Int) % 5120001 - 2560000
  s.upd d fun x => x.modServo backup fun v => { v.ask s.now want with predicted := (p : Int) - 2 ^ 40 }

/-- Applies what a step leaves to do to one cadence (R59): past the end of its frame of the old grid it continues on the new
grid, with windows from the first frame boundary on. -/
def Cad.settle (g : Grid) (c : Cad) : Cad :=
  match c.regrid with
  | none => c
  | some r =>
    let c : Cad := if !c.inGap ∧ r.endLine ≤ c.next then
        { c with next := g.firstFrom ((g.instant r.endLine : Int) + r.shift).toNat, inGap := true } else c
    if c.inGap ∧ r.resume ≤ c.next then { c with regrid := none, inGap := false } else c

/-- A cadence as a step of `shift` in 2^-16 ns, or a change of its grid, reaches it at station time `now`, which the step has
moved already: its state, and the lines of its gap (R59). `old` is the grid it ran on. -/
def Cad.regridded (old g : Grid) (now : Nat) (shift : Int) (c : Cad) : Cad × Nat :=
  let sum := (match c.regrid with | some r => if c.inGap then 0 else r.shift | none => 0) + shift
  let endLine := ((c.next - 1) / old.l + 1) * old.l
  let end_ := if c.inGap then now else max now ((old.instant endLine : Int) + sum).toNat
  let k := g.firstFrom end_
  let resume := g.boundaryFrom k
  if c.inGap ∨ endLine ≤ c.next then
    ({ c with next := k, regrid := if resume ≤ k then none else some ⟨0, 0, resume⟩, inGap := decide (k < resume) }, (resume - k).toNat)
  else ({ c with regrid := some ⟨sum, endLine, resume⟩ }, (resume - k).toNat)

/-- The station time at which the next pulse of a cadence is due. -/
def Die.pulseDue (x : Die) (c : Nat) : Option Nat :=
  (x.grid c).map fun g =>
    let k := x.cad c
    match k.regrid with
    | some r => if k.inGap then g.instant k.next else ((g.instant k.next : Int) + r.shift).toNat
    | none => g.instant k.next

/-- A cadence's gap is recorded (R59, R73). -/
def State.stepGap (s : State) (d : DieId) (c lines : Nat) : State :=
  let s := s.setFld d R.TB_CAD_STEPGAP lines c
  if lines = 0 then s else s.hbCad d (codeOf R.TB_EVENTS_STEP_GAP) c c (min lines 65535)

/-! ### Compare units (R64 to R67, R74) -/

/-- Unit `u` is armed. -/
def Die.cmpArmed (x : Die) (u : Nat) : Bool := x.flag R.TB_CMP_CTRL_ARM u
/-- The unit compares positions of a cadence. -/
def Die.cmpLine (x : Die) (u : Nat) : Bool := x.flag R.TB_CMP_CTRL_MODE u

/-- The target of a unit in MODE 1 as a position in 2^-16 line, by the nearer reading of its frame (R41). -/
def Die.cmpPos (x : Die) (u : Nat) (g : Grid) : Int :=
  let f := (x.frameLine (x.fld R.TB_CMP_CTRL_CAD u)).1
  let frame := f + diff32 (x.fld R.TB_CMP_T1 u) (unsgn 32 f)
  frame * g.l * 65536 + (x.fld R.TB_CMP_T0 u % 2 ^ 29 : Nat)
/-- The station time of a unit's target; none where its cadence is not active. -/
def Die.cmpDue (x : Die) (u : Nat) : Option Int :=
  if x.cmpLine u then (x.grid (x.fld R.TB_CMP_CTRL_CAD u)).map fun g => (g.instantPos (x.cmpPos u g) : Int)
  else
    let t := x.fld R.TB_CMP_T1 u * 2 ^ 32 + x.fld R.TB_CMP_T0 u % 2 ^ 30
    some (((x.clk.now / nsec : Nat) + wrapDiff t (wrapOf x.clk.now)) * nsec)

/-- A periodic unit's target moved by whole periods to the first that lies after the present station time (R64, R65). -/
def Die.cmpAdvance (x : Die) (u : Nat) : Die :=
  let p := x.fld R.TB_CMP_PERIOD u
  if x.cmpLine u then
    match x.grid (x.fld R.TB_CMP_CTRL_CAD u) with
    | none => x
    | some g =>
      let step : Int := (p % 8192 : Nat) * 65536
      let pos := x.cmpPos u g
      let n := if step = 0 then 0 else max 0 ((g.pos x.clk.now - pos) / step + 1)
      let pos' := if g.instantPos (pos + n * step) ≤ x.clk.now then pos + (n + 1) * step else pos + n * step
      let m := pos' / 65536
      (x.setFld R.TB_CMP_T0 (g.line m * 65536 + (pos' % 65536).toNat) u).setFld R.TB_CMP_T1 (unsgn 32 (g.frame m)) u
  else
    match x.cmpDue u with
    | none => x
    | some t =>
      let step : Int := p * nsec
      let n := if step = 0 then 0 else max 0 (((x.clk.now : Int) - t) / step + 1)
      let w := wrapOf (t + n * step).toNat
      (x.setFld R.TB_CMP_T0 (w % 2 ^ 30) u).setFld R.TB_CMP_T1 (w / 2 ^ 32) u

/-- LATE of a unit (R65, R66, R71). -/
def State.cmpLate (s : State) (d : DieId) (u : Nat) : State :=
  (s.setFld d R.TB_CMP_CTRL_LATE 1 u).event d R.TB_EVENTS_CMP_LATE 0 u

/-- A unit fires: its event, what its ACTION names, and then a single-shot unit disarms and a periodic one moves its target
(R64, R74). -/
def State.cmpFire (s : State) (d : DieId) (u : Nat) (late : Bool) : State :=
  let s := s.setFld d R.TB_CMP_CTRL_FIRED 1 u
  let s := if late then s.cmpLate d u else s
  let s := if s.fld d R.TB_CMP_CTRL_PERIODIC u = 1 then s.upd d fun x => x.cmpAdvance u else s.setFld d R.TB_CMP_CTRL_ARM 0 u
  let t := s.fld d R.TB_CMP_CTRL_TARGET u
  match s.fld d R.TB_CMP_CTRL_ACTION u with
  | 1 => s.release d t
  | 2 => s.dmaStart d (t % 128) .compare 0
  | _ => s

/-- What becomes of a unit that a write has left armed (R65, R74): a past target fires a single-shot unit at once, and moves the
target of a periodic one. -/
def State.cmpWritten (s : State) (d : DieId) (u : Nat) : State :=
  let x := s.die d
  match x.cmpDue u with
  | some t =>
    if x.cmpArmed u ∧ t < x.clk.now then
      if x.flag R.TB_CMP_CTRL_PERIODIC u then (s.upd d fun x => x.cmpAdvance u).cmpLate d u
      else s.cmpFire d u true
    else s
  | none => s

/-- COMPARE_FIRE: station time reaches the target of an armed unit. -/
def State.compareFire (s : State) (d : DieId) (u : Nat) : State :=
  match (s.die d).cmpDue u with
  | some t => if (s.die d).cmpArmed u then (s.advanceStation d t.toNat).cmpFire d u false else s
  | none => s

/-! ### Steps of station time (R58 to R60, R66) -/

/-- Every unit whose target a forward step passes over fires once with LATE (R66). -/
def State.cmpStepped (s : State) (d : DieId) : State :=
  (List.range 64).foldl (fun s u =>
    match (s.die d).cmpDue u with
    | some t => if (s.die d).cmpArmed u ∧ t ≤ (s.die d).clk.now then s.cmpFire d u true else s
    | none => s) s

/-- A WAIT LINE of a channel whose target a forward step to the present station time passes over (R498). -/
def Die.waitStepped (x : Die) (n : Nat) (c : DmaChan) : DmaChan :=
  let cad := x.fld R.DM_CH_CFG_CADENCE n
  match c.wait, (x.grid cad) with
  | some w, some g =>
    let m := (x.cad cad).next + (w.line - (x.cad cad).next) % g.l
    if w.cond = 0 ∧ g.instant m ≤ x.clk.now then { c with wait := some { w with seen := true } } else c
  | _, _ => c
/-- WAIT LINE targets that a forward step passes over complete at the step point (R498). -/
def Die.waitsStepped (x : Die) : Die :=
  { x with dma := { x.dma with chans := x.dma.chans.map fun e => (e.1, x.waitStepped e.1 e.2) } }

/-- Station time of one die jumps by `st` sixteenths of a nanosecond: each cadence finishes its frame on the old grid and opens
its gap, what was measured on the old time moves with it, the gate lists restart, and the step is reported (R59, R66, R399). -/
def State.stepDie (s : State) (d : DieId) (st : Int) : State :=
  let shift := st * 4096
  let s := s.upd d fun x => { x with clk := { x.clk with now := ((x.clk.now : Int) + shift).toNat } }
  let gaps := (List.range 8).filterMap fun c => ((s.die d).grid c).map fun g =>
    (c, Cad.regridded g g (s.die d).clk.now shift ((s.die d).cad c))
  let s := s.upd d fun x => gaps.foldl (fun x e =>
    x.modCad e.1 fun _ => { e.2.1 with lastPulse := ((e.2.1.lastPulse : Int) + shift).toNat }) x
  let s := gaps.foldl (fun s e => s.stepGap d e.1 e.2.2) s
  let s := if gaps.any fun e => decide (0 < e.2.2) then
      s.event d R.TB_EVENTS_STEP_GAP 0 (min 65535 (gaps.foldl (fun n e => max n e.2.2) 0)) else s
  let ns := st.tdiv 16
  let s := (s.setFld d R.TB_STEP_LO (unsgn 32 ns)).setFld d R.TB_STEP_HI (unsgn 32 (ns / 2 ^ 32))
  let s := s.upd d fun x => x.modServo false fun v => { v with step := none, stepGo := false, samples := [] }
  let s := s.eventRec d R.TB_EVENTS_STEP_DONE 0 d.val (min ns.natAbs 65535)
  let s := s.upd d fun x => (List.range 8).foldl Die.gateStepped x
  if 0 < shift then (s.upd d Die.waitsStepped).cmpStepped d else s

/-- The pending step of a die is applied; die 1 following die 0 applies the marked step at the same step point (R61). -/
def State.applyStep (s : State) (d : DieId) : State :=
  match (s.die d).clk.servo.step with
  | none => s
  | some st =>
    let s := s.stepDie d st
    if d = 0 ∧ s.dual ∧ s.source 1 = 3 ∧ s.fld 1 R.TB_STATUS_LINK_TIMING = 1 then s.stepDie 1 st else s

/-- A step decision on 16 samples or more (R49, R58): a step is found, updated or withdrawn; with no plan it is applied at once
(R60). A servo without a step moves on to ACQUIRE. While a step is pending the frequency is the one held when it was found (R58). -/
def State.stepDecision (s : State) (d : DieId) (backup : Bool) : State :=
  let v := (s.die d).servo backup
  let med := median16 v.samples
  if med.natAbs < stepLeast.natAbs then
    let s := s.upd d fun x => x.modServo backup fun v => { v with step := none, stepGo := false }
    if v.state = .acquire then s else s.enter d backup .acquire
  else if backup then s.upd d fun x => x.modServo true fun v => { v with model := v.model + med * 4096, samples := [] }
  else
    let ns := med.tdiv 16
    let s := (s.setFld d R.TB_STEP_LO (unsgn 32 ns)).setFld d R.TB_STEP_HI (unsgn 32 (ns / 2 ^ 32))
    let s := s.upd d fun x => x.modServo false fun v => { (if v.step.isSome then v else v.ask s.now v.freq) with step := some med }
    if s.planRuns then s else s.applyStep d

/-- A sample of a servo: its offset in 1/16 ns from the reference (R47 to R49). -/
def State.servoSample (s : State) (d : DieId) (backup : Bool) (src : Nat) (off : Int) : State :=
  let (out, lock) := (s.die d).thresholds src
  let s := if backup then s else s.setFld d R.TB_PHASE (unsgn 32 (max (-(2 ^ 31)) (min (2 ^ 31 - 1) off)))
  let v := (s.die d).servo backup
  let in_ := decide (off.natAbs ≤ lock)
  if v.state = .locked then
    if out < (off - v.predicted).natAbs then
      let s := s.upd d fun x => x.modServo backup fun v => { v with rejectRun := v.rejectRun + 1, inLocked := min 16 (v.inLocked + 1) }
      let s := if backup then s else s.count d R.TB_REJECTS
      if v.rejectRun + 1 < 9 then s
      else (if backup then s else s.event d R.TB_EVENTS_REJECT_RUN 0 9).enter d backup .holdover
    else
      let s := s.upd d fun x => x.modServo backup fun v =>
        { v with rejectRun := 0, outside := if in_ then 0 else v.outside + 1, lastSample := s.now, inLocked := min 16 (v.inLocked + 1) }
      if !in_ ∧ v.outside + 1 = 16 then s.enter d backup .acquire else s.steer d backup src off
  else
    let s := s.upd d fun x => x.modServo backup fun v =>
      { v with samples := (off :: v.samples).take 16, inside := if in_ then v.inside + 1 else 0, lastSample := s.now }
    let v := (s.die d).servo backup
    let s := if v.samples.length = 16 then s.stepDecision d backup else s
    let v := (s.die d).servo backup
    if v.state = .acquire ∧ v.step = none then
      (if 16 ≤ v.inside then s.enter d backup .locked else s).steer d backup src off
    else s

/-- A reference sample with what REF_SKEW adds to it, in ns, or suppressed by it (R594, class 6). -/
def State.refSample (s : State) (d : DieId) (backup : Bool) (src : Nat) (off : Int) : State :=
  let skews := (s.die d).pertAmounts 6 0 0
  if skews.contains 0x80000000 then s
  else s.servoSample d backup src (off + (skews.map fun v => sgn 32 v).foldl (· + ·) 0 * 16)

/-! ### Reference mismatch (R57) -/

/-- The causes that hold are judged anew, those of `judged`: each that arises sets MISMATCH and is recorded; causes 1 to 3 hold the
servo over. -/
def State.judge (s : State) (d : DieId) (judged causes : List Nat) : State :=
  let old := (s.die d).clk.causes
  let new := causes.filter fun c => !(old.contains c)
  let all := (old.filter fun c => !(judged.contains c)) ++ causes
  let s := s.upd d fun x => { x with clk := { x.clk with causes := all } }
  let s := new.foldl (fun s c => s.eventRec d R.TB_EVENTS_MISMATCH 0 d.val c) s
  let st := (s.die d).clk.servo.state
  if all.any (fun c => c < 4) ∧ (st = .acquire ∨ st = .locked) then s.enter d false .holdover else s

/-- A cause that keeps the servo from following its reference holds (R57). -/
def Die.unfollowed (x : Die) : Bool := x.clk.causes.any fun c => decide (c < 4)

/-- The reference has reached `ref` in 2^-16 ns of its own time at the supervisor instant `t`: over each second or more its
frequency is measured against the timebase, and cause 3 is judged at 10 ppm (R57, log entry 62). -/
def State.refFreq (s : State) (d : DieId) (ref : Int) (t : Nat) : State :=
  let from_ (s : State) : State := s.upd d fun x => x.modServo false fun v => { v with measure := some (ref, t) }
  match (s.die d).clk.servo.measure with
  | none => from_ s
  | some (r0, t0) =>
    if t < t0 + second then s
    else
      let sup : Int := (t - t0 : Nat)
      (from_ s).judge d [3] (if sup < (ref - r0 - sup).natAbs * 100000 then [3] else [])

/-- The reference frame rates of R55's table, by rate code. -/
def refRates : List Nat := [1, 2, 3, 4, 5, 9, 10]
/-- The bound cadence rates that a reference frame rate allows (R55): the same, twice or four times, where R42 lists the result. -/
def rateBound (ref cad : Nat) : Bool :=
  refRates.contains ref && match rateOf ref, rateOf cad with
  | some (n, d), some (n', d') => d == d' && (n' == n || n' == 2 * n || n' == 4 * n)
  | _, _ => false

/-- The reference's grid: its frames and lines, counted from the epoch. -/
def refGrid (fmt rate : Nat) (line750 : Bool) : Option Grid := (rateOf rate).map fun (n, d) => ⟨n, d, refLines fmt line750, 0⟩

/-- The offset of a reference whose frame start has reached REF_IN at the station time `f`: it is placed on the nearest frame
boundary of the grid `g`, TB_REF_OFFSET sixteenths of a nanosecond after it; in 1/16 ns (R56). -/
def Grid.refOffset (g : Grid) (f offset : Int) : Int :=
  let at_ := (f - offset * 4096).toNat
  let k := g.boundaryFrom (g.firstFrom at_)
  let after : Int := g.instant k
  let before : Int := g.instant (k - g.l)
  let b := if (at_ : Int) - before < after - at_ then before else after
  (b - f) / 4096 + offset

/-- The grid on whose boundaries the reference's frames are placed: the cadence that the plan binds to REF_IN (R55), and the
reference's own frames where that is not active, as before a plan (log entry 62). -/
def Die.boundGrid (x : Die) (fmt rate : Nat) (line750 : Bool) : Option Grid :=
  match x.grid (x.fld R.TB_MODE_REF_CAD) with
  | some g => some g
  | none => refGrid fmt rate line750

/-- A frame sync of REF_IN: whole frames of the reference have passed since the last one (R48, R57). -/
def Servo.frameSync (v : Servo) (now period : Nat) : Servo :=
  let n := match v.lastFrameSync with | some t => (now - t + period / 2) / max 1 period | none => 0
  { v with lastFrameSync := some now, measure := v.measure.map fun m => (m.1 - (n * period : Nat), m.2) }

/-- A reference line sync arrives, `line` lines after its frame's start: the format is detected, a mismatch is judged, and without
one the servo takes its sample (R54 to R57). A change of format while a plan runs is cause 1, also where it changes the rate and so
is cause 2 as well; CAUSE then shows 1 (R57, log entry 62). -/
def State.refSync (s : State) (fmt rate : Nat) (line750 : Bool) (line : Nat) : State :=
  let was := s.source 0
  let changed := decide ((s.fld 0 R.TB_REF_FORMAT_FORMAT, s.fld 0 R.TB_REF_FORMAT_RATE, s.fld 0 R.TB_REF_FORMAT_LINE750) ≠ (fmt, rate, b2n line750))
  let s := ((s.setFld 0 R.TB_REF_FORMAT_FORMAT fmt).setFld 0 R.TB_REF_FORMAT_RATE rate).setFld 0 R.TB_REF_FORMAT_LINE750 (b2n line750)
  let s := if changed ∧ s.source 0 = 2 then s.upd 0 fun x => x.modServo false fun v => { v with measure := none } else s
  let period := match rateOf rate with | some (n, den) => second * den / n | none => 0
  let s := if line = 0 then s.upd 0 fun x => x.modServo false fun v => v.frameSync s.now period
    else s.upd 0 fun x => x.modServo false fun v => { v with lastFrameSync := some (v.lastFrameSync.getD s.now) }
  if s.source 0 ≠ 2 then s
  else
    let base := s.die0.clk.refBase.getD (fmt, b2n line750)
    let s := if s.planRuns then s.upd 0 fun x => { x with clk := { x.clk with refBase := some base } } else s
    let rateBad := s.planRuns && (match s.die0.grid (s.die0.fld R.TB_MODE_REF_CAD) with
      | some _ => !rateBound rate (s.die0.fld R.TB_CAD_CFG_RATE (s.die0.fld R.TB_MODE_REF_CAD))
      | none => false)
    let s := if was = 0 then s.upd 0 fun x => x.modServo false fun v => { v with samples := [], inside := 0 } else s
    let s := s.judge 0 [1, 2] ((if s.planRuns ∧ base ≠ (fmt, b2n line750) then [1] else []) ++ (if rateBad then [2] else []))
    let s := if line = 0 then s.refFreq 0 0 s.now else s
    match s.die0.boundGrid fmt rate line750 with
    | some g =>
      if s.die0.unfollowed then s
      else s.refSample 0 false 2 (g.refOffset ((s.die0.clk.now : Int) - (line * period / max 1 (refLines fmt line750) : Nat)) (sgn 32 (s.fld 0 R.TB_REF_OFFSET)))
    | none => s

/-! ### Loss of the reference and the limits of holding it over (R48, R51, R62) -/

/-- A servo loses its reference: ACQUIRE and LOCKED enter HOLDOVER, FREE stays (R47). -/
def State.servoLoss (s : State) (d : DieId) (backup : Bool) : State :=
  let st := ((s.die d).servo backup).state
  if st = .acquire ∨ st = .locked then s.enter d backup .holdover else s

/-- The supervisor time at which two frame periods have passed without a valid frame sync of REF_IN (R48). -/
def State.refInDue (s : State) : Option Nat :=
  match s.die0.clk.servo.lastFrameSync, rateOf (s.fld 0 R.TB_REF_FORMAT_RATE) with
  | some t, some (n, den) => some (t + 2 * second * den / n)
  | _, _ => none
/-- The supervisor time at which the loss time of a servo's reference has passed (R48). -/
def State.lossDue (s : State) (d : DieId) (backup : Bool) : Option Nat :=
  let x := s.die d
  if backup ∨ s.source d = 1 then some ((x.servo backup).lastSample + x.fld R.TB_HOLD_PTP_LOSS * msec)
  else if s.source d = 2 then s.refInDue
  else none
/-- REF_IN, which the servo does not follow, is lost before the servo's own reference is (R54). -/
def State.idleRefLost (s : State) (d : DieId) (backup : Bool) : Bool :=
  d == 0 && !backup && s.source 0 != 2 && match s.refInDue with
    | some t => !(s.die0.clk.servo.state == .acquire || s.die0.clk.servo.state == .locked) || (match s.lossDue 0 false with | some u => decide (t ≤ u) | none => true)
    | none => false
/-- REF_IN carries no signal: TB_REF_FORMAT shows none (R54, R69). -/
def State.refInGone (s : State) : State :=
  s.upd 0 fun x => (x.setReg (fldAddr R.TB_REF_FORMAT_FORMAT 0 0) 0).modServo false fun v => { v with lastFrameSync := none, measure := none }

/-- REFERENCE_LOSS. A REF_IN that is lost carries no valid reference, so that before a plan die 0 follows FREE (R37); die 0 also
detects the loss of a REF_IN that it does not follow (R54). -/
def State.refLoss (s : State) (d : DieId) (backup : Bool) : State :=
  if s.idleRefLost d backup then
    match s.refInDue with
    | some t => (s.advanceTo t).refInGone
    | none => s
  else match s.lossDue d backup with
  | none => s
  | some t =>
    let s := s.advanceTo t
    if !backup ∧ s.source d = 2 then
      let s := s.refInGone
      if s.planRuns then s.servoLoss d false else s.enter d false .free
    else s.servoLoss d backup

/-- HOLD_LIMIT_EXPIRY: HOLDOVER has lasted HOLD_LIMIT (R51). -/
def State.holdExpiry (s : State) (d : DieId) (backup : Bool) : State :=
  let v := (s.die d).servo backup
  if v.state = .holdover then (s.advanceTo (v.holdStart + s.fld d R.TB_HOLD_HOLD_LIMIT * second)).enter d backup .freerun else s

/-- The servo takes another source (R37, R62): its samples and causes are dropped; under FREE it is in FREE, and a lock on the old
source is none on the new one (log entry 21). -/
def State.sourceMoved (s : State) (d : DieId) : State :=
  let s := s.upd d fun x => { (x.modServo false fun v => { v with samples := [], inside := 0, outside := 0, measure := none }) with
    clk := { (x.modServo false fun v => { v with samples := [], inside := 0, outside := 0, measure := none }).clk with causes := [], refBase := none } }
  if s.source d = 0 then
    (s.upd d fun x => x.modServo false fun v => { v.ask s.now 0 with step := none, stepGo := false }).enter d false .free
  else if (s.die d).clk.servo.state = .locked then s.enter d false .acquire else s

/-- A timing word arrives on die 1 (R61): it carries die 0's time and flags, and the time is corrected by the link delay; backup
PTP gives way to DIE0 (R62). -/
def State.timingWord (s : State) (time : Nat) (fl : Bool × Bool) : State :=
  let s := s.upd 1 fun x => { x with clk := { x.clk with lastWord := some s.now, peerFlags := fl } }
  let s := s.setFld 1 R.TB_STATUS_LINK_TIMING 1
  let s := if s.fld 1 R.TB_STATUS_BACKUP_ACTIVE = 1 then (s.setFld 1 R.TB_STATUS_BACKUP_ACTIVE 0).sourceMoved 1 else s
  if s.source 1 = 3 then s.refSample 1 false 3 (((time : Int) - s.die1.clk.now) / 4096 + s.fld 1 R.MR_LINK_DELAY) else s

/-- DIE0_TIMING_LOST: 16 timing words are missing, one each microsecond; die 1 moves to its backup PTP where that has been LOCKED
for the last 16 samples, and to HOLDOVER otherwise (R48, R62). -/
def State.timingLost (s : State) : State :=
  match s.die1.clk.lastWord with
  | none => s
  | some t =>
    let s := s.advanceTo (t + 16 * usec)
    let was := s.source 1
    let s := s.upd 1 fun x => { x with clk := { x.clk with lastWord := none } }
    let s := (s.setFld 1 R.TB_STATUS_LINK_TIMING 0).eventRec 1 R.TB_EVENTS_LINK_TIMING_LOST 0 1 0
    if was ≠ 3 then s
    else if s.fld 1 R.TB_MODE_BACKUP = 1 ∧ s.die1.clk.backup.state = .locked ∧ s.die1.clk.backup.inLocked = 16 then
      (s.setFld 1 R.TB_STATUS_BACKUP_ACTIVE 1).sourceMoved 1
    else s.servoLoss 1 false

/-! ### Commands -/

/-- The positions and station time latched by TB_CTRL.SNAP (R68); what FORMAT shows of them is the read's (R44, R69). -/
def Die.tbSnap (x : Die) : Die :=
  let w := x.clk.now
  let x := (((x.setFld R.TB_NOW_W (w % 65536) 0).setFld R.TB_NOW_W (nsOf w) 1).setFld R.TB_NOW_W (secOf w % 2 ^ 32) 2).setFld
    R.TB_NOW_W (secOf w / 2 ^ 32) 3
  (List.range 8).foldl (fun x c =>
    match x.grid c with
    | none => ((x.setFld R.TB_CAD_FRAME_HI 0 c).setFld R.TB_CAD_FRAME_LO 0 c).setFld R.TB_CAD_LINEPOS 0 c
    | some g =>
      let p := g.pos (x.gridTime c)
      let f := g.frame (p / 65536)
      ((x.setFld R.TB_CAD_FRAME_HI (unsgn 32 (f / 2 ^ 32)) c).setFld R.TB_CAD_FRAME_LO (unsgn 32 f) c).setFld R.TB_CAD_LINEPOS (g.linePos p) c) x

/-- The station time of the next frame boundary of a die's master cadence, at which a step is applied (R58). -/
def Die.stepPoint (x : Die) : Option Nat :=
  (x.grid x.masterCad).map fun g =>
    let c := x.cad x.masterCad
    match c.regrid with
    | some r => if c.inGap then g.instant (g.boundaryFrom c.next) else ((g.instant (g.boundaryFrom c.next) : Int) + r.shift).toNat
    | none => g.instant (g.boundaryFrom c.next)

/-- STEP_APPLY: the pending step is due at the step point (R58, R59). -/
def State.stepApply (s : State) (d : DieId) : State :=
  let v := (s.die d).clk.servo
  let due := s.fld d R.TB_MODE_STEP_POLICY = 1 ∨ v.stepGo
  match v.step with
  | none => s
  | some _ =>
    if !s.planRuns then s.applyStep d
    else if due then
      match (s.die d).stepPoint with
      | some t => (s.advanceStation d t).applyStep d
      | none => s.applyStep d
    else s

/-- REF_SYNC_SAMPLE: an edge arrives at REF_IN, of which a valid one is a line sync of the signal (R48, R54). -/
def State.refEdge (s : State) (tri : Bool) (lines num den line : Nat) (valid : Bool) : State :=
  match refSignal tri lines num den with
  | some (fmt, rate, line750) => if valid then s.refSync fmt rate line750 line else s
  | none => s

def execRefSyncSample (dt : Nat) (tri : Bool) (lines num den line : Nat) (valid : Bool) (s : State) : Result :=
  onDie s 0 (Instr.wf (.refSyncSample dt tri lines num den line valid)) ((s.advance dt).refEdge tri lines num den line valid)
def execReferenceLoss (d : DieId) (backup : Bool) (s : State) : Result :=
  onDie s d (Instr.wf (.referenceLoss d backup)) (s.refLoss d backup)
def execHoldLimitExpiry (d : DieId) (backup : Bool) (s : State) : Result :=
  onDie s d (Instr.wf (.holdLimitExpiry d backup)) (s.holdExpiry d backup)
def execDie0TimingLost (s : State) : Result := onDie s 1 (Instr.wf .die0TimingLost) s.timingLost
def execCompareFire (d : DieId) (u : Fin 64) (s : State) : Result :=
  onDie s d (Instr.wf (.compareFire d u)) (s.compareFire d u.val)

end Sys2Proof.Machine
end

