-- ==== Sys2Proof/Machine/Groups.lean ====
section
/-! DEFINITION. Alignment groups of video inputs (R334 to R337) and flow groups (R364): members that are lanes or receive flows,
their underrun, concealment and rejoining, and the staging their lines are written to. -/

namespace Sys2Proof.Machine

/-- A member of a group: a lane within the die, a receive flow, or, as flow 1,024, the cross-die stream (R535). -/
structure MemRef where
  flow : Bool
  i : Nat
  deriving DecidableEq, Repr
/-- The cross-die stream: its cadence, staging input and format are in no record of R84 (log entry 47). -/
def MemRef.xs (r : MemRef) : Bool := r.flow && r.i == 1024

/-- Its key among the members and in staging. -/
def MemRef.key (r : MemRef) : Nat := if r.flow then 512 + r.i else r.i

def Die.lane (x : Die) (k : Nat) : Lane := mget (fun _ => {}) x.lanes.lanes k
def Die.modLane (x : Die) (k : Nat) (f : Lane → Lane) : Die :=
  { x with lanes := { x.lanes with lanes := mmod (fun _ => {}) x.lanes.lanes k f } }
def Die.mem (x : Die) (r : MemRef) : Member := mget (fun _ => {}) x.lanes.members r.key
def Die.modMem (x : Die) (r : MemRef) (f : Member → Member) : Die :=
  { x with lanes := { x.lanes with members := mmod (fun _ => {}) x.lanes.members r.key f } }

/-- The package lane of a lane of a die. -/
def pkgLane (d : DieId) (k : Nat) : Nat := 512 * d.val + k
/-- The SDI_FORMAT record of a lane. -/
def Die.sdiFormat (x : Die) (d : DieId) (k : Nat) : Option (List Byte) := x.bodyOf 4 0x401 (pkgLane d k)
/-- The picture format that a member carries. -/
def Die.memFmt (x : Die) (d : DieId) (r : MemRef) : PicFmt :=
  if r.xs then ⟨Config.xstream 2, Config.xstream 3, Config.xstream 4, Config.xstream 5⟩
  else if r.flow then
    let b := x.rxFormat r.i
    ⟨num b 0 2, num b 2 2, num b 4 1, num b 5 1⟩
  else match x.sdiFormat d r.i with
    | some b => ⟨num b 4 2, num b 6 2, num b 1 1, num b 2 1⟩
    | none => ⟨0, 0, 0, 10⟩
def Die.memCad (x : Die) (r : MemRef) : Nat := if r.xs then Config.xstream 0 else if r.flow then x.fld R.NW_RX_CFG_CADENCE r.i else x.fld R.LN_CFG_CADENCE r.i
def Die.memGroup (x : Die) (r : MemRef) : Nat := if r.xs then 512 else if r.flow then x.fld R.NW_RX_CFG_GROUP r.i else x.fld R.LN_CFG_GROUP r.i
def Die.memIndex (x : Die) (r : MemRef) : Nat := if r.flow then x.fld R.NW_RX_CFG_MEMBER r.i else x.fld R.LN_CFG_MEMBER r.i
/-- W of the member's group; no record gives a flow group's, which has the default of 2 lines (log entry 40). -/
def Die.memWindow (x : Die) (r : MemRef) : Nat := if r.flow then 2 else x.fld R.LN_GRP_CFG_WINDOW (x.memGroup r)
/-- The member is an ancillary flow, which is judged by frames (R364). -/
def Die.memAnc (x : Die) (r : MemRef) : Bool := r.flow && !r.xs && x.fld R.NW_RX_CFG_KIND r.i == 4
/-- A member carries a picture in two fields: its SCAN is interlaced, or segmented frames, whose segments stand where fields do
(PRESUMED, log entry 32). -/
def Die.memFields (x : Die) (d : DieId) (r : MemRef) : Bool :=
  if r.xs then false else if r.flow then num (x.rxFormat r.i) 6 1 != 0 else ((x.sdiFormat d r.i).map fun b => num b 3 1 != 0).getD false
/-- The lines of a frame of `l` lines that a member's picture has; every line where no format declares them (log entry 40). -/
def Die.memRaster (x : Die) (d : DieId) (r : MemRef) (l : Nat) : Raster :=
  let h := (x.memFmt d r).height
  if x.memAnc r ∨ h = 0 ∨ l < h then ⟨l, l, false⟩ else ⟨l, h, x.memFields d r⟩
/-- The member is concealed. -/
def Die.memBad (x : Die) (r : MemRef) : Bool :=
  if r.xs then !x.flag R.MR_STATUS_XSTREAM_OK else if r.flow then x.flag R.NW_RX_STATE_BAD r.i else bit (x.fld R.LN_GRP_STATE_BAD (x.memGroup r)) (x.memIndex r)
/-- The staging input that the member feeds: its alignment group, or its flow's TARGET (log entry 39). -/
def Die.memInput (x : Die) (r : MemRef) : Nat :=
  if r.xs then Config.xstream 1 else if r.flow then ((x.bodyOf 6 0x602 r.i).map fun b => num b 6 2).getD 0 else x.memGroup r
/-- The members whose lines are video or ancillary data of a cadence. -/
def Die.memsOn (x : Die) (c : Nat) : List MemRef :=
  ((x.lanes.members.map fun e => (⟨decide (512 ≤ e.1), if 512 ≤ e.1 then e.1 - 512 else e.1⟩ : MemRef)).filter fun r =>
    x.memCad r == c && (x.mem r).next.isSome)
/-- The members of a group. -/
def Die.groupOf (x : Die) (flow : Bool) (g : Nat) : List MemRef :=
  ((x.lanes.members.map fun e => (⟨decide (512 ≤ e.1), if 512 ≤ e.1 then e.1 - 512 else e.1⟩ : MemRef)).filter fun r =>
    r.flow == flow && x.memGroup r == g && (x.mem r).next.isSome)

/-! ### Lines in staging -/

/-- The key of a member's line in staging. -/
def stageKey (r : MemRef) (line : Nat) : Nat := 8192 * r.key + line
def Die.stage (x : Die) (r : MemRef) (line : Nat) (p : PicLine) : Die :=
  { x with lanes := { x.lanes with staging := mput (fun _ => {}) x.lanes.staging (stageKey r line) p } }
def Die.staged (x : Die) (r : MemRef) (line : Nat) : PicLine := mget (fun _ => {}) x.lanes.staging (stageKey r line)

/-- A line of a member, at line `o` of its frame, is written to the frame stores that the member feeds (R266). -/
def State.memStore (s : State) (d : DieId) (r : MemRef) (q : Raster) (frame : Int) (o : Nat) (p : PicLine) : State :=
  match q.line o with
  | some y => s.storeLine d (b2n r.flow) r.i ((s.die d).memFmt d r) frame y (decide (q.stop ≤ o + 1)) p
  | none => s
/-- A concealed member's line counts as written once its frame has begun (R266): the lines before the first that arrived are written
with it, and later ones as they pass. -/
def State.memStored (s : State) (d : DieId) (r : MemRef) (q : Raster) (frame : Int) (o : Nat) (p : PicLine) : State :=
  let x := s.die d
  let fresh := (x.storesOf (b2n r.flow) r.i).all fun n => (x.store n).cur != some frame
  let v := x.mem r
  let s := if x.memBad r ∧ fresh ∧ v.lastLine ≠ {} then
      (List.range o).foldl (fun s (j : Nat) => if frame * q.l + (j : Int) < v.counted then s.memStore d r q frame j v.lastLine else s) s
    else s
  s.memStore d r q frame o p

/-- Line `m` of a member, counted from the epoch, has arrived whole: it goes to staging and to the frame stores that the member
feeds, and counts as complete if it came inside the window (R334, R364). While the member is concealed the line that it repeats
stays (R335). IN_DELAY makes it late, IN_DROP discards it (R594). -/
def State.lineIn (s : State) (d : DieId) (r : MemRef) (m : Int) (p : PicLine) : State :=
  let x := s.die d
  match x.grid (x.memCad r) with
  | none => s
  | some g =>
    let q := x.memRaster d r g.l
    let y := g.line m
    let now := x.lineNow (x.memCad r) + x.pertSum 0 r.i (b2n r.flow)
    let w := x.memWindow r
    if (q.at_ y).isNone ∨ x.pertOn 1 r.i (b2n r.flow) then s
    else if now ≤ m + w ∧ m ≤ now + w then
      let s := s.upd d fun x => (x.stage r y p).modMem r fun v =>
        { (v.add q m (m + 1)) with lastLine := if x.memBad r then v.lastLine else p }
      s.memStored d r q (g.frame m) y p
    else s

/-! ### Underrun, concealment, rejoining (R334 to R336) -/

/-- The station time at which the first missing line of a member passes its deadline: the end of line L + W, or for an ancillary
flow that of the frame's last line plus W. -/
def Die.memDue (x : Die) (r : MemRef) : Option Nat :=
  match (x.mem r).next, x.grid (x.memCad r) with
  | some k, some g =>
    let k := if x.memAnc r then (g.frame k + 1) * g.l - 1 else k
    some (g.instant (k + x.memWindow r + 1))
  | _, _ => none

/-- Sets the concealment state of a member in its registers (R349, R384). -/
def Die.setBad (x : Die) (r : MemRef) (v : Bool) : Die :=
  if r.xs then x.setFld R.MR_STATUS_XSTREAM_OK (b2n (!v))
  else if r.flow then (x.setFld R.NW_RX_STATE_BAD (b2n v) r.i).setFld R.NW_RX_STATE_ONE_GOOD 0 r.i
  else ((x.setBit R.LN_GRP_STATE_BAD (x.memGroup r) (x.memIndex r) v).setBit R.LN_GRP_STATE_ONE_GOOD (x.memGroup r) (x.memIndex r) false).setFld
    R.LN_STATUS_CONCEALING (b2n v) r.i

/-- A member underruns: it is concealed from its first missing line on, and the audio it carries mutes (R335). -/
def State.memUnderrun (s : State) (d : DieId) (r : MemRef) : State :=
  let x := s.die d
  let g := x.memGroup r
  let s := s.upd d fun x => (x.setBad r true).modMem r fun v => { v with good := 0, counted := v.next.getD 0 }
  let s := if r.xs then s else if r.flow then (s.event d R.NW_RX_EVENTS_UNDERRUN r.i).eventCad d R.NW_EVENTS_UNDERRUN 0 r.i (x.memCad r) 0
    else ((s.count d R.LN_GRP_UNDERRUNS g).event d R.LN_EVENTS_UNDERRUN r.i).eventCad d R.LN_DIE_EVENTS_UNDERRUN 0 r.i (x.memCad r) 0
  if r.flow then s else s.auVideoUnderrun d 1 r.i

/-- MEMBER_UNDERRUN: the deadline of the first missing line has come. -/
def State.memberUnderrun (s : State) (d : DieId) (r : MemRef) : State :=
  match (s.die d).memDue r with
  | some t => if (s.die d).memBad r then s else (s.advanceStation d t).memUnderrun d r
  | none => s

/-- A member's line passes concealed: staging, and the frame stores whose frame has begun, take its last complete line for it (R266,
R335). -/
def State.concealLine (s : State) (d : DieId) (r : MemRef) (g : Grid) (q : Raster) (k : Int) (p : PicLine) : State :=
  let o := g.line k
  if (q.at_ o).isNone then s
  else
    let s := s.upd d fun x => x.stage r o p
    let x := s.die d
    if (x.storesOf (b2n r.flow) r.i).any fun n => (x.store n).cur == some (g.frame k) then s.memStore d r q (g.frame k) o p else s
/-- Lines of a concealed member up to line `m` are counted, and its last complete line stands for them (R335). -/
def State.conceal (s : State) (d : DieId) (r : MemRef) (g : Grid) (m : Int) : State :=
  let x := s.die d
  if !x.memBad r then s
  else
    let v := x.mem r
    let q := x.memRaster d r g.l
    let s := if r.flow then s else s.count d R.LN_CONCEALED r.i (q.count v.counted m)
    let n := min (m - v.counted).toNat g.l
    let s := (List.range n).foldl (fun s (i : Nat) => s.concealLine d r g q (m - (n : Int) + (i : Int)) v.lastLine) s
    s.upd d fun x => x.modMem r fun v => { v with counted := max m v.counted }

/-- A member's receiver lets its frames count: its lock is held and its format is right (R336). -/
def Die.memFit (x : Die) (r : MemRef) : Bool := r.flow || (x.flag R.LN_STATUS_LOCK r.i && x.flag R.LN_STATUS_FMT_OK r.i)

/-- Every active line of the frame that ends at boundary `b` was complete, in as far as its deadline has passed (log entry 31). -/
def Die.frameWhole (x : Die) (d : DieId) (r : MemRef) (g : Grid) (b : Int) : Bool :=
  (x.memRaster d r g.l).whole (x.mem r).runs (b - g.l) (b - x.memWindow r)

/-- A frame boundary, line `b`, judges a member; one that is concealed rejoins after two complete frames (R336). -/
def State.memBoundary (s : State) (d : DieId) (r : MemRef) (g : Grid) (b : Int) : State :=
  let x := s.die d
  let ok := x.frameWhole d r g b && !(x.mem r).fault && x.memFit r
  if x.memBad r then
    let (v, back) := (x.mem r).judge ok
    let s := s.upd d fun x => x.modMem r fun _ => { v with next := if back then some (firstMissing (x.memRaster d r g.l) v.runs 8 b) else v.next }
    if back then
      let s := s.upd d fun x => x.setBad r false
      if r.xs then s else if r.flow then (s.event d R.NW_RX_EVENTS_REJOIN r.i).eventCad d R.NW_EVENTS_REJOIN 0 r.i (x.memCad r) 0
      else ((s.count d R.LN_GRP_REJOINS (x.memGroup r)).event d R.LN_EVENTS_REJOIN r.i).eventCad d R.LN_DIE_EVENTS_REJOIN 0 r.i (x.memCad r) 0
    else if r.xs then s
    else if r.flow then s.setFld d R.NW_RX_STATE_ONE_GOOD v.good r.i
    else s.upd d fun x => x.setBit R.LN_GRP_STATE_ONE_GOOD (x.memGroup r) (x.memIndex r) (v.good == 1)
  else s.upd d fun x => x.modMem r fun v => { v with fault := false }

/-- Layer `y` of channel `c` is video from staging input `i`. -/
def Die.layerFrom (x : Die) (c y i : Nat) : Bool :=
  decide (0 < y) && x.fld R.CH_LSRC_SRC c (y - 1) == 0 && x.flag R.CH_LSRC_VIDEO c (y - 1) && x.fld R.CH_LSRC_INPUT c (y - 1) == i
/-- The layers that a staging input feeds have had one complete frame (R302, R337). -/
def Die.inputSeen (x : Die) (i : Nat) : Die :=
  let mark (c : Nat) (l : Nat × Layer) : Nat × Layer := if x.layerFrom c l.1 i then (l.1, { l.2 with seen := true }) else l
  { x with churn := x.churn.map fun e => (e.1, { e.2 with layers := e.2.layers.map (mark e.1) }) }

/-- NEVER ends once all members of a group have delivered one complete frame (R337, R349, R384). -/
def Die.memNever (x : Die) (d : DieId) (r : MemRef) (g : Grid) (b : Int) : Die :=
  let all := (x.groupOf r.flow (x.memGroup r)).all fun q => x.frameWhole d q g b
  if all then
    (if r.xs then x else if r.flow then x.setFld R.NW_RX_STATE_NEVER 0 r.i else x.setFld R.LN_GRP_STATE_NEVER 0 (x.memGroup r)).inputSeen (x.memInput r)
  else x

/-- What a line pulse of cadence `c`, line `m`, does for the members on it: MEMBER_REJOIN at a frame boundary, and the
concealment of lines that have passed. -/
def State.memPulse (s : State) (d : DieId) (c : Nat) (g : Grid) (m : Int) : State :=
  let rs := (s.die d).memsOn c
  let s := rs.foldl (fun s r => s.conceal d r g m) s
  if m % g.l = 0 then
    let s := s.upd d fun x => rs.foldl (fun x r => x.memNever d r g m) x
    let s := rs.foldl (fun s r => s.memBoundary d r g m) s
    rs.foldl (fun s r => s.storeFrameEnd d (b2n r.flow) r.i (g.frame m - 1)) s
  else s

def execMemberUnderrun (d : DieId) (flow : Bool) (i : Fin 1025) (s : State) : Result :=
  onDie s d (Instr.wf (.memberUnderrun d flow i)) (s.memberUnderrun d ⟨flow, i⟩)

end Sys2Proof.Machine
end

