-- ==== Sys2Proof/Machine/Cellar.lean ====
section
/-! DEFINITION. Decode channels (R270 to R277): which access units are decoded, references and their substitutes, concealment
marks and output; and what decoded pictures give to frame stores. What the codecs' decoding process makes of a unit is open (log
entry 42). -/

namespace Sys2Proof.Machine

def Die.dec (x : Die) (n : Nat) : DecChan := mget (fun _ => {}) x.cellar.decs n
def Die.modDec (x : Die) (n : Nat) (f : DecChan → DecChan) : Die :=
  { x with cellar := { x.cellar with decs := mmod (fun _ => {}) x.cellar.decs n f } }

/-- The mark of a slot at frame `frame` (R262). -/
def DecPic.mark (p : DecPic) (frame : Int) : Nat :=
  if frame < p.ready then 1 else if p.isRef && p.long then 3 else if p.isRef then (if p.wait then 5 else 2) else if p.wait then 4 else 0

/-- The picture format that parameter sets declare. -/
def paramFmt (p : SeqParams) : PicFmt := ⟨p.width, p.height, [2, 0, 1].getD p.chroma 0, p.depth⟩
/-- The picture format of a decode channel's pictures; no picture before a sequence is active. -/
def Die.decFmt (x : Die) (n : Nat) : PicFmt := ((x.dec n).active.map paramFmt).getD ⟨0, 0, 0, 8⟩
/-- Bytes of a slot of a decode pool. -/
def Die.decSlot (x : Die) (n : Nat) : Nat := ((x.bodyOf 0xB 0xB02 n).map fun b => num b 8 2 * 2 ^ 20).getD 0
/-- The DRAM address of a slot of a decode pool (R258, R260). -/
def Die.decBase (x : Die) (n slot : Nat) : Nat :=
  ((x.bodyOf 0xB 0xB02 n).map fun b => num b 4 4 * 2 ^ 22).getD 0 + slot * x.decSlot n
/-- The planes of a picture in DRAM: luma, Cb, Cr. -/
def planesAt (m : Mem) (f : PicFmt) (base : Nat) : List Plane :=
  let line (j : Nat) : PicLine := readLine m f base j
  let step := if f.sampling = 2 then 2 else 1
  [(List.range f.height).map fun j => (line j).y, (List.range f.ch).map fun j => (line (step * j)).cb, (List.range f.ch).map fun j => (line (step * j)).cr]

/-- Lines of a frame by program and by cycle (R127): the window lengths of a tile over a frame of `l` lines. -/
def TileSched.cycles (t : TileSched) (l : Nat) : Nat :=
  (List.range l).foldl (fun n y => n + (((t.progAt y).bind t.prog).map fun p => p.2.length).getD 0) 0
/-- DC_BINS: 2 bins for each E cycle that the plan gives to the channel over a frame (R273). -/
def Die.dcBins (x : Die) (n : Nat) : Nat :=
  match x.recOf 0xB 0xB02 n, x.grid (x.fld R.CL_DC_CFG_CADENCE n) with
  | some (s, _), some g =>
    2 * (((x.recsOf 2 0x201).filter fun e => e.1.frag == s.frag && tileType e.2.idx == .E).map fun e => (tileSched e.2.idx e.2.body).cycles g.l).foldl (· + ·) 0
  | _, _ => 0

/-- Bytes of the planes of a picture (R257). -/
def PicFmt.planeBytes (f : PicFmt) : Nat := compBytes f.depth f.width f.height + 2 * compBytes f.depth f.cw f.ch
/-- The slot of a frame store in MiB: planes alone (R260). -/
def planeMib (f : PicFmt) : Nat := cdiv f.planeBytes (2 ^ 20)
/-- The slot of a picture size in MiB: its planes and motion field, rounded up (R258, R260). -/
def slotMib (f : PicFmt) : Nat := cdiv (f.planeBytes + cdiv f.width 16 * cdiv f.height 16 * 16) (2 ^ 20)

/-- The cause by which parameter sets break the declaration; 0 where they keep it (R271). No field declares the largest picture,
which is what a slot of the pool holds (log entry 42). -/
def Die.paramCause (x : Die) (n : Nat) (p : SeqParams) : Nat :=
  let mib := ((x.bodyOf 0xB 0xB02 n).map fun b => num b 8 2).getD 0
  if x.flag R.CL_DC_CFG_CODEC n ∧ !x.flag R.SY_VARIANT_VVC then 6
  else if p.profile ≠ x.fld R.CL_DC_CFG_PROFILE n then 1
  else if x.fld R.CL_DC_CFG_LEVEL n < p.level ∨ x.fld R.CL_DC_CFG_TIER n < p.tier then 2
  else if mib < slotMib (paramFmt p) then 3
  else if p.chroma ≠ x.fld R.CL_DC_CFG_CHROMA n ∨ p.depth ≠ 8 + 2 * x.fld R.CL_DC_CFG_DEPTH10 n then 4
  else if x.fld R.CL_DC_CFG_SLOTS n - 1 < p.dpb then 5 else 0

/-- PARAMETER_SET_CHECK (R271): a new coded video sequence is decoded, or is not supported. -/
def State.paramCheck (s : State) (d : DieId) (n : Nat) (frame : Int) (p : SeqParams) : State :=
  let x := s.die d
  let cause := x.paramCause n p
  let s := (s.setFld d R.CL_DC_STATUS_UNSUPPORTED (b2n (cause != 0)) n).setFld d R.CL_DC_STATUS_CAUSE cause n
  if cause ≠ 0 then
    ((s.event d R.CL_EVENTS_UNSUPPORTED 0 n).event d R.CL_DC_EVENTS_UNSUPPORTED n).upd d fun x => x.modDec n fun v => { v with blocked := true }
  else
    let s := s.upd d fun x => x.modDec n fun v => { v with
      blocked := false
      active := some p
      seq := v.seq + 1
      starts := v.starts ++ [(frame + x.fld R.CL_DC_CFG_OUTDLY n, v.seq + 1)]
      dpb := (v.dpb.map fun q => { q with isRef := false }).filter fun q => q.wait }
    ((s.setFld d R.CL_DC_SIZE_WIDTH p.width n).setFld d R.CL_DC_SIZE_HEIGHT p.height n).setFld d R.CL_DC_STATUS_RATE_MISMATCH
      (b2n (p.rate != x.fld R.TB_CAD_CFG_RATE (x.fld R.CL_DC_CFG_CADENCE n))) n

/-- The nearest available reference in output order with a layer ID (R275): the least difference of picture order count, the
earlier one on a tie. -/
def nearestRef (poc : Int) (layer : Nat) (l : List DecPic) : Option DecPic :=
  (l.filter fun p => p.isRef && p.layer == layer).foldl (fun best p => match best with
    | none => some p
    | some b =>
      let db := (b.poc - poc).natAbs
      let dp := (p.poc - poc).natAbs
      if dp < db ∨ (dp = db ∧ p.poc < b.poc) then some p else best) none

/-- A marked picture has been decoded (`out` false) or a picture output (`out` true): the marked run starts or ends (R277). -/
def State.decRun (s : State) (d : DieId) (n : Nat) (out marked : Bool) : State :=
  let x := s.die d
  let run := (x.dec n).run
  let c := x.fld R.CL_DC_CFG_CADENCE n
  let run' := if marked then (if out then 2 else max run 1) else if out ∧ run = 2 then 0 else run
  let s := s.upd d fun x => x.modDec n fun v => { v with run := run' }
  if run = 0 ∧ run' ≠ 0 then s.eventCad d R.CL_DC_EVENTS_CONCEAL_START n n c 0
  else if run ≠ 0 ∧ run' = 0 then s.eventCad d R.CL_DC_EVENTS_CONCEAL_END n n c 0
  else s

/-- A picture that decoding holds a slot for: a reference, one that awaits output, or one in RECON (R262, R264). -/
def DecPic.held (p : DecPic) (frame : Int) : Bool := p.isRef || p.wait || decide (frame < p.ready)
/-- Reference marking of an access unit: what it keeps, and what becomes a long-term reference (R264). -/
def unitMarks (au : AccessUnit) (seq : Nat) (p : DecPic) : DecPic :=
  if p.seq = seq ∧ au.keep.contains p.poc then { p with long := p.long || au.longs.contains p.poc } else { p with isRef := false }
/-- A FREE slot; where the stream needs more pictures than it declares there is none, and slot 0 stands in (log entry 42). -/
def Die.decFree (x : Die) (n : Nat) (l : List DecPic) : Nat :=
  ((List.range (x.fld R.CL_DC_CFG_SLOTS n)).find? fun i => l.all fun p => p.slot != i).getD 0

/-- Mid-grey planes (R275, R276). -/
def PicFmt.greyPlanes (f : PicFmt) : List Plane :=
  let g := 2 ^ (f.depth - 1)
  [List.replicate f.height (List.replicate f.width g), List.replicate f.ch (List.replicate f.cw g), List.replicate f.ch (List.replicate f.cw g)]
/-- Sample (i, j) of component `k` lies in one of the areas, which are given in luma samples. -/
def PicFmt.inAreas (f : PicFmt) (areas : List Rect) (k i j : Nat) : Bool :=
  let sx := if k = 0 ∨ f.sampling = 1 then 1 else 2
  let sy := if k ≠ 0 ∧ f.sampling = 2 then 2 else 1
  areas.any fun r => decide (r.x ≤ i * sx ∧ i * sx < r.x + r.w ∧ r.y ≤ j * sy ∧ j * sy < r.y + r.h)
/-- The planes of a picture of which some areas are concealed from another (R276). -/
def PicFmt.patch (f : PicFmt) (areas : List Rect) (own from_ : List Plane) : List Plane :=
  (List.range 3).map fun k =>
    let (w, h) := if k = 0 then (f.width, f.height) else (f.cw, f.ch)
    (List.range h).map fun j => (List.range w).map fun i =>
      (((if f.inAreas areas k i j then from_ else own).getD k []).getD j []).getD i 0

/-- The samples and the motion of a picture are written into its slot (R257, R258). -/
def Die.decWrite (x : Die) (n slot : Nat) (f : PicFmt) (planes : List Plane) (motion : List (List Motion)) : Die :=
  let base := x.decBase n slot
  let m := storeRecon x.dram.view f base 0 planes
  x.setCells ((List.range (f.blocks * cdiv f.height 16)).foldl (fun m i =>
    wrBytes m (base + f.planesBytes + 16 * i) (motionBytes (motion.getD i []))) m)

/-- An access unit is decoded at the boundary of `frame` (R272, R273, R275, R276, R277). -/
def State.decodeUnit (s : State) (d : DieId) (n : Nat) (frame : Int) (au : AccessUnit) : State :=
  let s := match au.params with | some p => s.paramCheck d n frame p | none => s
  let x := s.die d
  let v := x.dec n
  match v.active with
  | none => s
  | some ps =>
    if v.blocked then s
    else
      let f := paramFmt ps
      let held (poc : Int) : Option DecPic := v.dpb.find? fun p => p.isRef && p.seq == v.seq && p.poc == poc
      let stand (poc : Int) : Option DecPic := (held poc).or (nearestRef poc au.layer v.dpb)
      let planes (o : Option DecPic) : List Plane := match o with | some p => planesAt x.dram.view f (x.decBase n p.slot) | none => f.greyPlanes
      let missing := au.refs.filter fun r => (held r).isNone
      let grey := missing.filter fun r => (nearestRef r au.layer v.dpb).isNone
      let clip := decide (x.dcBins n ≤ au.bins)
      let lost := Config.lostCtus ps au (x.dcBins n)
      let concealed := !missing.isEmpty || (au.refs.any fun r => ((held r).map DecPic.concealed).getD false)
        || decide (au.slices.2 < au.slices.1) || clip || au.error
      let dp := Config.decodePicture ps au (au.refs.map fun r => planes (stand r))
      let late := match v.out with | some (q, poc) => decide (q = v.seq ∧ au.poc < poc) | none => false
      let kept := (v.dpb.map (unitMarks au v.seq)).filter fun p => p.held frame
      let pic : DecPic := { seq := v.seq, poc := au.poc, layer := au.layer, isRef := au.isRef, long := au.long, wait := au.output && !late
                            concealed := concealed, ready := frame + 2, used := au.refs.map fun r => (stand r).map DecPic.poc, slot := x.decFree n kept }
      let s := s.touchRange d (x.decBase n pic.slot) (f.planesBytes + 16 * (f.blocks * cdiv f.height 16))
      let s := (s.upd d fun x => (x.decWrite n pic.slot f (f.patch lost dp.planes (planes (stand (au.refs.headD au.poc)))) dp.motion).modDec n fun v =>
        { v with dpb := kept ++ [pic] }).count d R.CL_DC_PICTURES n
      let s := if missing.isEmpty then s
        else (((s.count d R.CL_DC_SUBST n missing.length).count d R.CL_SUBST 0 missing.length).event d R.CL_EVENTS_SUBST 0 n).event d R.CL_DC_EVENTS_SUBST n
      let s := if grey.isEmpty then s
        else ((s.count d R.CL_GREY 0 grey.length).event d R.CL_EVENTS_GREY 0 n).event d R.CL_DC_EVENTS_GREY n
      let s := if clip then (s.count d R.CL_DC_BINCLIPS n).event d R.CL_DC_EVENTS_BINCLIP n else s
      if concealed then s.decRun d n false true else s

/-- DECODE_ACCESS_UNIT: at a frame boundary, the access units in the coded picture buffer are taken, a late one with the one that
is on time; `only` is die 0's decision for an in-step channel (R272, R274; log entry 42). -/
def State.decTake (s : State) (d : DieId) (n : Nat) (frame : Int) (only : Option (List Int)) : State :=
  let v := (s.die d).dec n
  let here := v.cpb.filter fun a => a.slices.2 != 0 && (match only with | some l => l.contains a.poc | none => true)
  let s := s.upd d fun x => x.modDec n fun v => { v with
    cpb := [], empty := if here.isEmpty then v.empty + 1 else 0
    decision := some (frame, (here.filter fun a => decide (a.slices.1 ≤ a.slices.2)).map AccessUnit.poc)
    owed := if here.isEmpty ∧ v.active.isSome then v.owed + 1 else v.owed }
  let s := s.setFld d R.CL_DC_STATUS_NO_INPUT (b2n (decide (2 ≤ ((s.die d).dec n).empty))) n
  let s := if here.isEmpty ∧ v.active.isSome then (s.count d R.CL_DC_LATE n).event d R.CL_DC_EVENTS_LATE n else s
  here.foldl (fun s a => s.decodeUnit d n frame a) s

/-- Mid-grey (R275). -/
def PicFmt.grey (f : PicFmt) : PicLine :=
  { y := List.replicate f.width (2 ^ (f.depth - 1)), cb := List.replicate f.cw (2 ^ (f.depth - 1)), cr := List.replicate f.cw (2 ^ (f.depth - 1)) }
/-- Line `y` of a decode channel's output picture goes to the frame stores that it feeds (R266, R277). -/
def State.decLine (s : State) (d : DieId) (n : Nat) (frame : Int) (y : Nat) : State :=
  let x := s.die d
  let f := x.decFmt n
  if f.height ≤ y then s
  else
    let v := x.dec n
    let p : PicLine := match v.last with | some (l, _) => l.getD y f.grey | none => f.grey
    let s := s.storeLine d 2 n f frame y false p
    if f.height ≤ y + 1 then (x.storesOf 2 n).foldl (fun s q => s.storeDone d q ((v.last.map Prod.snd).getD false)) s else s

/-- DECODE_OUTPUT (R274): the next picture, or the previous one again. -/
def State.decOutput (s : State) (d : DieId) (n : Nat) (frame : Int) : State :=
  let v := (s.die d).dec n
  let s := match v.starts.find? fun e => decide (e.1 ≤ frame) with
    | some (_, q) =>
      let low : Option Int := ((v.dpb.filter fun (p : DecPic) => p.seq == q && p.wait).map DecPic.poc).min?
      let old (p : DecPic) : DecPic := if p.seq < q then { p with wait := false } else p
      s.upd d fun x => x.modDec n fun v => { v with
        starts := v.starts.filter fun e => decide (frame < e.1)
        out := low.map fun p => (q, p)
        dpb := (v.dpb.map old).filter fun p => p.held frame }
    | none => s
  let v := (s.die d).dec n
  let s := match v.out with
    | none => s
    | some (q, poc) =>
      let hit (p : DecPic) : Bool := p.seq == q && p.poc == poc && p.wait
      let drop (v : DecChan) : List DecPic := (v.dpb.map fun p => if hit p then { p with wait := false } else p).filter fun p => p.held frame
      match v.dpb.find? fun p => hit p && decide (p.ready ≤ frame) with
      | some p =>
        let x := s.die d
        let lines := (List.range (x.decFmt n).height).map fun y => readLine x.dram.view (x.decFmt n) (x.decBase n p.slot) y
        let s := s.touchRange d (x.decBase n p.slot) (x.decFmt n).planesBytes
        let s := ((s.upd d fun x => x.modDec n fun v => { v with out := some (q, poc + 1), last := some (lines, p.concealed), dpb := drop v }).setFld
          d R.CL_DC_LAST_POC (unsgn 32 poc) n).setFld d R.CL_DC_STATUS_CONCEALING (b2n p.concealed) n
        (if p.concealed then s.count d R.CL_DC_CONCEALED n else s).decRun d n true p.concealed
      | none =>
        let s := (s.upd d fun x => x.modDec n fun v => { v with
          out := some (q, poc + 1), last := v.last.map fun (l : List PicLine × Bool) => (l.1, true), dpb := drop v, owed := v.owed - 1 }).count d R.CL_DC_REPEATS n
        let s := if v.owed = 0 then (s.count d R.CL_DC_LATE n).event d R.CL_DC_EVENTS_LATE n else s
        ((s.count d R.CL_DC_CONCEALED n).setFld d R.CL_DC_STATUS_CONCEALING 1 n).decRun d n true true
  s.decLine d n frame 0

/-- A frame boundary of a decode channel. -/
def State.decBoundary (s : State) (d : DieId) (n : Nat) (frame : Int) (only : Option (List Int)) : State :=
  (s.decTake d n frame only).decOutput d n frame

/-- The decode channels of a cadence that run. -/
def Die.decsOn (x : Die) (c : Nat) : List Nat :=
  (List.range 64).filter fun n => x.flag R.CL_DC_STATUS_RUNNING n && x.fld R.CL_DC_CFG_CADENCE n == c
/-- What a line pulse of cadence `c`, line `m`, does for decode channels; `follows` names those that take die 0's decision, whose
boundary comes with it (R274). -/
def State.decPulse (s : State) (d : DieId) (c : Nat) (g : Grid) (m : Int) (follows : Nat → Bool) : State :=
  ((s.die d).decsOn c).foldl (fun s n =>
    if m % g.l = 0 then (if follows n then s else s.decBoundary d n (g.frame m) none) else s.decLine d n (g.frame m) (g.line m)) s

/-- The picture format that a frame store's input carries. -/
def Die.storeFmt (x : Die) (d : DieId) (n : Nat) : PicFmt :=
  match x.bodyOf 0xB 0xB03 n with
  | some e => if num e 2 1 = 2 then x.decFmt (num e 0 2) else x.memFmt d ⟨num e 2 1 == 1, num e 0 2⟩
  | none => ⟨0, 0, 0, 10⟩

/-- NO_INPUT (R269): no input frame has completed within 2 consumer frames. -/
def State.storeNoInput (s : State) (d : DieId) (n : Nat) : State :=
  if ((s.die d).bodyOf 0xB 0xB03 n).isSome ∧ 2 ≤ ((s.die d).store n).idle then s.setFld d R.CL_FS_STATE_NO_INPUT 1 n else s

def execNoInput (d : DieId) (n : Fin 1024) (s : State) : Result := onDie s d (Instr.wf (.noInput d n)) (s.storeNoInput d n)

end Sys2Proof.Machine
end

