-- ==== Sys2Proof/Machine/Mix.lean ====
section
/-! DEFINITION. The arithmetic of the churn: depths, blending, scaling, surfaces and flattened planes (R286 to R297, R305). -/

namespace Sys2Proof.Machine

/-- A sample of depth `d` at depth `e` (R286; the rounding of R188). -/
def toDepth (d e v : Nat) : Nat := if d ≤ e then v * 2 ^ (e - d) else min ((v + 2 ^ (d - e - 1)) / 2 ^ (d - e)) (2 ^ e - 1)

/-- The alpha, 0 to 256, of a pixel alpha and a global alpha (R287). -/
def mixAlpha (ap gl : Nat) : Nat :=
  let a := ap * (gl + gl / 128) / 256
  a + a / 128
/-- A layer sample over the value beneath it (R287). -/
def mixOver (alpha l b : Nat) : Nat := (alpha * l + (256 - alpha) * b + 128) / 256

/-- One step of a flattened plane: q and t with a layer above (R305). -/
def planeStep (alpha l : Nat) (qt : Nat × Nat) : Nat × Nat :=
  (alpha * l + ((256 - alpha) * qt.1 + 128) / 256, ((256 - alpha) * qt.2 + 128) / 256)
/-- A plane over the value beneath it (R305). -/
def planeOver (qt : Nat × Nat) (b : Nat) : Nat := (qt.1 + qt.2 * b + 128) / 256

/-! ### One line of one layer -/

/-- What a layer covers of a line of the picture: where it starts, its alpha by luma position, and its components. -/
structure Cover where
  x : Int
  a : List Nat
  line : PicLine
  deriving DecidableEq, Repr

/-- The alpha and the sample that a cover has at component position `i`, for `sub` luma positions a sample: a chroma sample takes
the alpha of the luma sample at its own or the even position (R287). -/
def Cover.at_ (c : Cover) (sub i : Nat) (l : List Nat) : Option (Nat × Nat) :=
  let p := ((i * sub : Nat) : Int) - c.x
  if 0 ≤ p ∧ p < c.a.length then some (c.a.getD p.toNat 0, l.getD (p.toNat / sub) 0) else none

/-- A run of covers over one component: one layer by R287, a flattened run by R305. -/
def coverComp (sub : Nat) (pick : PicLine → List Nat) (run : List Cover) (base : List Nat) : List Nat :=
  base.zipIdx.map fun e =>
    let hits := run.filterMap fun c => c.at_ sub e.2 (pick c.line)
    match run, hits with
    | [_], [(alpha, l)] => mixOver alpha l e.1
    | _, [] => e.1
    | _, hits => planeOver (hits.foldl (fun qt h => planeStep h.1 h.2 qt) (0, 256)) e.1
/-- A run of covers over a line; `sub` is 2 for internal 4:2:2. -/
def coverLine (sub : Nat) (base : PicLine) (run : List Cover) : PicLine :=
  { y := coverComp 1 PicLine.y run base.y, cb := coverComp sub PicLine.cb run base.cb, cr := coverComp sub PicLine.cr run base.cr }

/-! ### Scalers (R294, R295, R297) -/

/-- The place of output sample `j`: base and phase. -/
def scalePos (ns no j : Nat) : Int × Nat :=
  let step := ns * 65536 / max 1 no
  let pos : Int := ((j * step : Nat) : Int) + ((step : Int) - 65536) / 2
  (pos / 65536, (pos / 1024 % 64).toNat)
/-- A filter result: its taps at `first` on, replicated at the edges, rounded and clamped. -/
def filterAt (depth taps : Nat) (coef : List Int) (phase : Nat) (first : Int) (ns : Nat) (get : Nat → Nat) : Nat :=
  let sum := (List.range taps).foldl (fun (n : Int) t =>
    n + coef.getD (phase * taps + t) 0 * (get (min (max (first + (t : Int)) 0).toNat (ns - 1)) : Nat)) 0
  (min (max ((sum + 128) / 256) 0) (2 ^ depth - 1)).toNat
/-- Line `j` of a component scaled from `ws` by `hs` to `wo` by `ho`, horizontally first (R294). -/
def scaleLine (depth : Nat) (hc vc : List Int) (ws wo hs ho j : Nat) (row : Nat → List Nat) : List Nat :=
  let (vb, vp) := scalePos hs ho j
  (List.range wo).map fun i =>
    let (hb, hp) := scalePos ws wo i
    filterAt depth 6 vc vp (vb - 2) hs fun r => filterAt depth 8 hc hp (hb - 3) ws fun c => (row r).getD c 0

/-- How a source and a channel are scanned: frames alike, a woven interlaced source filtered by fields and averaged (R297), or
field by field. -/
inductive ScanMode | plain | paired | fields
  deriving DecidableEq, Repr

/-- Line `j` of a component with its scan mode. -/
def scaleScan (m : ScanMode) (depth : Nat) (hc vc : List Int) (ws wo hs ho j : Nat) (row : Nat → List Nat) : List Nat :=
  let field (f h j : Nat) : List Nat := scaleLine depth hc vc ws wo (hs / 2) h j fun r => row (2 * r + f)
  match m with
  | .plain => scaleLine depth hc vc ws wo hs ho j row
  | .fields => field (j % 2) (ho / 2) (j / 2)
  | .paired =>
    let b := field 1 ho j
    (field 0 ho j).zipIdx.map fun e => (e.1 + b.getD e.2 0 + 1) / 2

/-! ### Graphic surfaces (R289 to R291) -/

/-- One pixel: Y, Cb, Cr, A. -/
def pixelAt (b : List Byte) (i : Nat) : Nat × Nat × Nat × Nat := (num b (4 * i) 1, num b (4 * i + 1) 1, num b (4 * i + 2) 1, num b (4 * i + 3) 1)
/-- Pixel `i` of a curd-packed tile with header entry `h` and data units `b`. -/
def curdPixel (h : Nat) (b : List Byte) (i : Nat) : Nat × Nat × Nat × Nat := match bits h 33 32 with
  | 0 => (bits h 7 0, bits h 15 8, bits h 23 16, bits h 31 24)
  | 1 => pixelAt b (num b (16 + i / 4) 1 / 4 ^ (i % 4) % 4)
  | 2 => pixelAt b (num b (64 + i / 2) 1 / 16 ^ (i % 2) % 16)
  | _ => pixelAt b i
/-- Bytes of the data units of a tile kind (R291). -/
def curdBytes (kind : Nat) : Nat := [0, 64, 128, 256].getD kind 0

/-- Pixel (x, y) of the surface that a SURFACE record declares; `rd` reads DRAM. -/
def surfacePixel (rd : Nat → Nat → List Byte) (b : List Byte) (x y : Nat) : Nat × Nat × Nat × Nat :=
  let base := num b 8 8
  if num b 1 1 = 0 then pixelAt (rd (base + y * num b 16 4 + 4 * x) 4) 0
  else
    let h := leNat (rd (base + 8 * (y / 4 * cdiv (num b 4 2) 16 + x / 16)) 8)
    curdPixel h (rd (base + 64 * bits h 63 34) (curdBytes (bits h 33 32))) (16 * (y % 4) + x % 16)

/-- A line of `w` pixels of a surface from (cx, cy) on: its pixel alphas, and its components at depth `e` in the internal format
(R289). -/
def surfaceLine (rd : Nat → Nat → List Byte) (b : List Byte) (e : Nat) (int444 : Bool) (cx cy w : Nat) : List Nat × PicLine :=
  let px := (List.range w).map fun i => surfacePixel rd b (cx + i) cy
  let raise (l : List Nat) : List Nat := l.map (toDepth 8 e)
  let half (l : List Nat) : List Nat :=
    (List.range (w / 2)).map fun i =>
      (l.getD (2 * i - 1) 0 + 2 * l.getD (2 * i) 0 + l.getD (min (2 * i + 1) (w - 1)) 0 + 2) / 4
  let chroma (l : List Nat) : List Nat := if int444 then l else half l
  (px.map fun p => p.2.2.2, { y := raise (px.map fun p => p.1), cb := chroma (raise (px.map fun p => p.2.1)),
                               cr := chroma (raise (px.map fun p => p.2.2.1)) })

end Sys2Proof.Machine
end

