-- ==== Sys2Proof/Machine/Churn.lean ====
section
/-! DEFINITION. The churn (09_churn.md): composition of a channel's picture line by line, renditions, commits with their checks,
readiness of layers and flattened runs. -/

namespace Sys2Proof.Machine

def Die.churnOf (x : Die) (n : Nat) : ChurnChan := mget (fun _ => {}) x.churn n
def Die.modChurn (x : Die) (n : Nat) (f : ChurnChan → ChurnChan) : Die := { x with churn := mmod (fun _ => {}) x.churn n f }
def ChurnChan.layer (c : ChurnChan) (l : Nat) : Layer := mget (fun _ => {}) c.layers l
def ChurnChan.modLayer (c : ChurnChan) (l : Nat) (f : Layer → Layer) : ChurnChan := { c with layers := mmod (fun _ => {}) c.layers l f }
def Die.modLayer (x : Die) (n l : Nat) (f : Layer → Layer) : Die := x.modChurn n fun c => c.modLayer l f

/-- The pending values of a layer: position, size, crop position, crop size and mix; the background of layer 0 (R312). -/
def Die.layerRegs (x : Die) (n l : Nat) : List W32 :=
  if l = 0 then [x.reg (fldAddr R.CH_BG_Y n 0)]
  else [R.CH_LPOS_X, R.CH_LSIZE_W, R.CH_LCROP_POS_X, R.CH_LCROP_SIZE_W, R.CH_LMIX_ALPHA].map fun f => x.reg (fldAddr f n (l - 1))

/-- A layer's configuration as numbers. -/
structure LayerCfg where
  x : Int
  y : Int
  w : Nat
  h : Nat
  cx : Nat
  cy : Nat
  cw : Nat
  ch : Nat
  alpha : Nat
  surface : Nat
  deriving DecidableEq, Repr

/-- Low and high half of word `i` of a configuration. -/
def cfgLo (v : List W32) (i : Nat) : Nat := (v.getD i 0).toNat % 65536
def cfgHi (v : List W32) (i : Nat) : Nat := (v.getD i 0).toNat / 65536
/-- A graphic layer has its crop's size (R312); a position's x is even on internal 4:2:2 (R288). -/
def layerCfg (video int444 : Bool) (v : List W32) : LayerCfg :=
  let x := sgn 16 (cfgLo v 0)
  { x := if int444 then x else x / 2 * 2, y := sgn 16 (cfgHi v 0)
    w := if video then cfgLo v 1 else cfgLo v 3, h := if video then cfgHi v 1 else cfgHi v 3
    cx := cfgLo v 2, cy := cfgHi v 2, cw := cfgLo v 3, ch := cfgHi v 3
    alpha := bits (v.getD 4 0).toNat 7 0, surface := bits (v.getD 4 0).toNat 11 8 }

/-- Luma positions to a chroma sample of the internal format (R286). -/
def Die.chSub (x : Die) (n : Nat) : Nat := if x.flag R.CH_CFG_INT444 n then 1 else 2
/-- The composition depth (R286). -/
def Die.chDepth (x : Die) (n : Nat) : Nat := [8, 10, 12, 8].getD (x.fld R.CH_CFG_DEPTH n) 8

/-! ### Sources (R285) -/

/-- The members of a staging input. -/
def Die.inputMembers (x : Die) (i : Nat) : List MemRef :=
  (x.lanes.members.map fun e => (⟨decide (512 ≤ e.1), if 512 ≤ e.1 then e.1 - 512 else e.1⟩ : MemRef)).filter fun r => x.memInput r == i
/-- The line of a member's frame that carries line `y` of its picture, both fields woven (R45, R297). -/
def Die.memPlace (x : Die) (d : DieId) (r : MemRef) (y : Nat) : Nat := match x.grid (x.memCad r) with
  | some g => (x.memRaster d r g.l).place y
  | none => y
/-- Line `y` of a staging input; a multi-link input's from all its members (log entry 43). -/
def Die.inputLine (x : Die) (d : DieId) (i y : Nat) : PicLine := match x.inputMembers i with
  | [r] => x.staged r (x.memPlace d r y)
  | rs => Config.joinLinks y (rs.map fun r => x.staged r (x.memPlace d r y))

/-- The format of a video layer's source. -/
def Die.layerFmt (x : Die) (d : DieId) (n l : Nat) : PicFmt :=
  let i := x.fld R.CH_LSRC_INPUT n (l - 1)
  if x.fld R.CH_LSRC_SRC n (l - 1) = 1 then x.storeFmt d i else match x.inputMembers i with
    | r :: _ => x.memFmt d r
    | [] => ⟨0, 0, 0, 10⟩
/-- Its scan: interlaced or not. -/
def Die.layerInterlaced (x : Die) (d : DieId) (n l : Nat) : Bool :=
  let i := x.fld R.CH_LSRC_INPUT n (l - 1)
  let scan (r : MemRef) : Nat := if r.flow then num (x.rxFormat r.i) 6 1 else ((x.sdiFormat d r.i).map fun b => num b 3 1).getD 0
  let of (r : MemRef) : Bool := !r.xs && scan r == 1
  if x.fld R.CH_LSRC_SRC n (l - 1) = 1 then
    ((x.bodyOf 0xB 0xB03 i).map fun e => num e 2 1 != 2 && of ⟨num e 2 1 == 1, num e 0 2⟩).getD false
  else match x.inputMembers i with | r :: _ => of r | [] => false
/-- Line `y` of a video layer's source. -/
def Die.layerSource (x : Die) (d : DieId) (n l y : Nat) : PicLine :=
  let i := x.fld R.CH_LSRC_INPUT n (l - 1)
  if x.fld R.CH_LSRC_SRC n (l - 1) = 1 then
    (if x.fld R.CL_FS_STATE_READ i < 3 then readLine x.dram.view (x.storeFmt d i) (x.storeBase i (x.fld R.CL_FS_STATE_READ i)) y else {})
  else x.inputLine d i y

/-- The coefficients of a set (R295). -/
def Die.coefficients (x : Die) (set : Nat) : List Int :=
  ((x.bodyOf 0xA 0xA02 set).map fun b => (List.range (64 * num b 0 1)).map fun i => sgn 10 (num b (8 + 2 * i) 2)).getD []
/-- The scaler of a layer, or of a rendition as layer 0. -/
def Die.scalerOf (x : Die) (n l : Nat) : Option Nat :=
  ((x.recsOf 0xA 0xA03).find? fun e => num e.2.body 0 1 == n && num e.2.body 1 1 == l).map fun e => e.2.idx

/-- The scan of a layer in its channel (R297). -/
def Die.layerScan (x : Die) (d : DieId) (n l : Nat) : ScanMode :=
  if !x.layerInterlaced d n l then .plain else if x.flag R.EN_CFG_INTERLACED n then .fields else .paired

/-- Row `j` of a video layer at the composition depth in the internal format: its crop as it is, or scaled (R293, R294). -/
def Die.videoLine (x : Die) (d : DieId) (n l : Nat) (c : LayerCfg) (j : Nat) : PicLine :=
  let f := x.layerFmt d n l
  let sub := x.chSub n
  let fsub := if f.sampling = 1 then 1 else 2
  let e := x.chDepth n
  let raise (v : List Nat) : List Nat := v.map (toDepth f.depth e)
  let chromaRow (r : Nat) : Nat := if f.sampling = 2 then r / 2 else r
  let cut (s k : Nat) (v : List Nat) : List Nat := raise ((v.drop (c.cx / s)).take k)
  match if x.flag R.CH_LSRC_SCALER n (l - 1) then x.scalerOf n l else none with
  | none =>
    let p := x.layerSource d n l (c.cy + j)
    { y := cut 1 c.w p.y, cb := cut fsub (c.w / sub) p.cb, cr := cut fsub (c.w / sub) p.cr }
  | some s =>
    let hc := x.coefficients (x.fld R.CH_SCALER_HSET s)
    let vc := x.coefficients (x.fld R.CH_SCALER_VSET s)
    let m := x.layerScan d n l
    let hs := if f.sampling = 2 then c.ch / 2 else c.ch
    let row (pick : PicLine → List Nat) (r : Nat) : List Nat :=
      cut fsub (c.cw / fsub) (pick (x.layerSource d n l (if f.sampling = 2 then 2 * (chromaRow c.cy + r) else c.cy + r)))
    { y := scaleScan m e hc vc c.cw c.w c.ch c.h j fun r => cut 1 c.cw (x.layerSource d n l (c.cy + r)).y
      cb := scaleScan m e hc vc (c.cw / fsub) (c.w / sub) hs c.h j (row PicLine.cb)
      cr := scaleScan m e hc vc (c.cw / fsub) (c.w / sub) hs c.h j (row PicLine.cr) }

/-- The SURFACE record of a layer's surface (R289). -/
def Die.surfaceRec (x : Die) (n l surface : Nat) : Option (List Byte) :=
  ((x.recsOf 0xA 0xA01).find? fun e => e.2.idx == 8 * n + l && num e.2.body 0 1 == surface).map fun e => e.2.body

/-- CH_LAYER_STATE of a layer (R302, R311): 0 UNUSED, 1 NEVER_READY, 2 READY, 3 STALE. -/
def Die.layerState (x : Die) (n l : Nat) : Nat := if l = 0 then 2 else x.fld R.CH_LAYER_STATE n / 16 ^ l % 8
def Die.setLayerState (x : Die) (n l v : Nat) : Die :=
  x.setFld R.CH_LAYER_STATE (x.fld R.CH_LAYER_STATE n - x.layerState n l * 16 ^ l + v * 16 ^ l) n
def Die.layerPending (x : Die) (n l : Nat) : Bool := x.fld R.CH_LAYER_STATE n / (16 ^ l * 8) % 2 == 1
def Die.setPending (x : Die) (n l : Nat) (v : Bool) : Die :=
  x.setFld R.CH_LAYER_STATE (x.fld R.CH_LAYER_STATE n - b2n (x.layerPending n l) * 8 * 16 ^ l + b2n v * 8 * 16 ^ l) n

/-- What layer `l` covers of picture line `y`: nothing where it is not ready or does not reach (R288, R302). -/
def Die.layerCover (x : Die) (d : DieId) (n l y : Nat) : Option Cover :=
  let video := x.flag R.CH_LSRC_VIDEO n (l - 1)
  let int444 := x.flag R.CH_CFG_INT444 n
  let c := layerCfg video int444 ((x.churnOf n).layer l).live
  let j := (y : Int) - c.y
  if x.layerState n l < 2 ∨ j < 0 ∨ c.h ≤ j then none
  else if video then
    some { x := c.x, a := List.replicate c.w (mixAlpha 255 c.alpha), line := x.videoLine d n l c j.toNat }
  else match x.surfaceRec n l c.surface with
    | some b =>
      let (a, p) := surfaceLine x.dramRead b (x.chDepth n) int444 c.cx (c.cy + j.toNat) c.w
      some { x := c.x, a := a.map fun v => mixAlpha v c.alpha, line := p }
    | none => none

/-! ### Flattened runs (R304) -/

/-- A layer is in a flattened run. -/
def Die.flattened (x : Die) (n l : Nat) : Bool := decide (0 < l) && bit (x.fld R.CH_CFG_FLAT_MASK n) (l - 1)
/-- The lowest layer of the run that holds layer `l`. -/
def Die.runStart (x : Die) (n : Nat) : Nat → Nat
  | 0 => 0
  | l + 1 => if x.flattened n (l + 1) then (if x.flattened n l then x.runStart n l else l + 1) else l + 1
/-- The layers of the run whose lowest layer is `r`. -/
def Die.runLayers (x : Die) (n r : Nat) : List Nat := ([1, 2, 3, 4, 5, 6, 7] : List Nat).filter fun l => x.flattened n l && x.runStart n l == r

/-- The content layers of a channel by runs, from the bottom: a layer alone, or a flattened run. -/
def Die.layerRuns (x : Die) (n : Nat) : List (List Nat) :=
  ((List.range (x.fld R.CH_CFG_LAYERS n)).map (· + 1)).foldl (fun rs l =>
    if x.flattened n l then
      if x.runStart n l = l then rs ++ [[l]] else rs.dropLast ++ [rs.getLastD [] ++ [l]]
    else rs ++ [[l]]) []

/-! ### Composition (R26, R284, R286, R287) -/

/-- Line `y` of the composed picture of a channel, in its internal format. -/
def Die.composeLine (x : Die) (d : DieId) (n y : Nat) : PicLine :=
  let w := x.fld R.EN_SIZE_WIDTH n
  let sub := x.chSub n
  let bg := ((((x.churnOf n).layer 0).live).getD 0 0).toNat
  let e := x.chDepth n
  let base : PicLine := { y := List.replicate w (toDepth 10 e (bits bg 9 0)), cb := List.replicate (w / sub) (toDepth 10 e (bits bg 19 10)),
                          cr := List.replicate (w / sub) (toDepth 10 e (bits bg 29 20)) }
  (x.layerRuns n).foldl (fun p run => match run.filterMap fun l => x.layerCover d n l y with
    | [] => p
    | cs => coverLine sub p cs) base

/-- Lines of the frame that a channel composes: EN_SIZE is the size of a coded picture, which on an interlaced channel is a field (R195;
DEDUCED, log entry 35). -/
def Die.frameHeight (x : Die) (n : Nat) : Nat := x.fld R.EN_SIZE_HEIGHT n * (if x.flag R.EN_CFG_INTERLACED n then 2 else 1)
/-- Where a channel's picture stands in a frame of `l` lines (R45). -/
def Die.encRaster (x : Die) (n l : Nat) : Raster := ⟨l, x.frameHeight n, x.flag R.EN_CFG_INTERLACED n⟩

/-- Line `j` of a rendition: the composed picture of its source channel, scaled in single mode (R307). -/
def Die.renditionLine (x : Die) (d : DieId) (n src j : Nat) : PicLine :=
  let sub := x.chSub src
  let (ws, hs, wo, ho) := (x.fld R.EN_SIZE_WIDTH src, x.frameHeight src, x.fld R.EN_SIZE_WIDTH n, x.frameHeight n)
  let s := ((x.bodyOf 0xA 0xA04 n).map fun b => num b 1 1).getD 0
  let hc := x.coefficients (x.fld R.CH_SCALER_HSET s)
  let vc := x.coefficients (x.fld R.CH_SCALER_VSET s)
  let m := if x.flag R.EN_CFG_INTERLACED n then ScanMode.fields else .plain
  let e := x.chDepth src
  { y := scaleScan m e hc vc ws wo hs ho j fun r => (x.composeLine d src r).y
    cb := scaleScan m e hc vc (ws / sub) (wo / sub) hs ho j fun r => (x.composeLine d src r).cb
    cr := scaleScan m e hc vc (ws / sub) (wo / sub) hs ho j fun r => (x.composeLine d src r).cr }

/-- Line `y` of the picture that a channel's staging holds. -/
def Die.pictureLine (x : Die) (d : DieId) (n y : Nat) : PicLine :=
  match x.bodyOf 0xA 0xA04 n with
  | some b => if x.flag R.EN_CFG_RENDITION n then x.renditionLine d n (num b 0 1) y else x.composeLine d n y
  | none => x.composeLine d n y
/-- Line `i` of the chroma of a 4:2:0 channel from the internal lines of its staging, field by field where it is interlaced
(R286). -/
def Die.codedChroma (x : Die) (n i : Nat) : List Nat × List Nat :=
  let line (y : Nat) : PicLine := mget (fun _ => {}) (x.churnOf n).out y
  let (a, b) := if x.flag R.EN_CFG_INTERLACED n then (line (i / 2 * 4 + i % 2), line (i / 2 * 4 + i % 2 + 2)) else (line (2 * i), line (2 * i + 1))
  let avg (u v : List Nat) : List Nat := u.zipIdx.map fun e => (e.1 + v.getD e.2 0 + 1) / 2
  (avg a.cb b.cb, avg a.cr b.cr)

/-- The widest window among the staging inputs of a channel. -/
def Die.churnWindow (x : Die) (n : Nat) : Nat :=
  ((List.range 7).filter fun l => x.flag R.CH_LSRC_VIDEO n l && x.fld R.CH_LSRC_SRC n l == 0).foldl (fun w l =>
    (x.inputMembers (x.fld R.CH_LSRC_INPUT n l)).foldl (fun w r => max w (x.memWindow r)) w) 0

/-! ### Commits (R299 to R301) -/

/-- The surface that a layer shows, or that a commit is to show (R292). -/
def Layer.shows (v : Layer) : List Nat := if v.committed then [bits (v.live.getD 4 0).toNat 11 8] else []
def Layer.willShow (v : Layer) : List Nat := match v.commit with
  | some c => [bits (c.values.getD 4 0).toNat 11 8]
  | none => []
/-- Bytes of a surface; a curd-packed one's with every tile RAW (R291). -/
def surfaceBytes (b : List Byte) : Nat :=
  if num b 1 1 = 0 then num b 6 2 * num b 16 4 else cdiv (num b 4 2) 16 * cdiv (num b 6 2) 4 * 264
/-- DRAM bytes `a` up to `a + n` touch a surface on display (R292). -/
def Die.onDisplay (x : Die) (a n : Nat) : Bool :=
  (x.recsOf 0xA 0xA01).any fun e =>
    let b := e.2.body
    let v := (x.churnOf (e.2.idx / 8)).layer (e.2.idx % 8)
    (v.shows ++ v.willShow).contains (num b 0 1) && decide (a < num b 8 8 + surfaceBytes b ∧ num b 8 8 < a + n)

/-- The surface that a commit of a layer names is on display, other than as the layer's current surface: it is to be shown already, or
its bytes meet those of a surface on display elsewhere (R292, R300). -/
def Die.surfaceTaken (x : Die) (n l surface : Nat) : Bool :=
  let u := (x.churnOf n).layer l
  !u.shows.contains surface && (u.willShow.contains surface || match x.surfaceRec n l surface with
    | some b => (x.recsOf 0xA 0xA01).any fun e =>
        let o := e.2.body
        let v := (x.churnOf (e.2.idx / 8)).layer (e.2.idx % 8)
        !(e.2.idx == 8 * n + l && u.shows.contains (num o 0 1)) && (v.shows ++ v.willShow).contains (num o 0 1)
          && decide (num b 8 8 < num o 8 8 + surfaceBytes o ∧ num o 8 8 < num b 8 8 + surfaceBytes b)
    | none => false)

/-- The cause for which a layer's pending values are refused; 0 where they pass (R300). -/
def Die.layerCause (x : Die) (d : DieId) (n l : Nat) : Nat :=
  if l = 0 then 0
  else
    let v := x.layerRegs n l
    let video := x.flag R.CH_LSRC_VIDEO n (l - 1)
    let int444 := x.flag R.CH_CFG_INT444 n
    let c := layerCfg video int444 v
    let w : Int := x.fld R.EN_SIZE_WIDTH n
    let visible := (min (c.x + c.w) w - max c.x 0).toNat
    let scaled := x.flag R.CH_LSRC_SCALER n (l - 1)
    if video ∧ scaled ∧ (if x.flag R.CH_LSRC_PAIRED n (l - 1) then 8192 else 16384) < visible * (if int444 then 3 else 2) then 1
    else if video ∧ scaled ∧ (8 * c.cw < c.w ∨ 8 * c.w < c.cw ∨ 8 * c.ch < c.h ∨ 8 * c.h < c.ch ∨ c.w = 0 ∨ c.h = 0) then 2
    else if !Config.layerSlotsFit ([d.val, n, l] ++ v.map BitVec.toNat) then 3
    else if !video ∧ x.surfaceTaken n l c.surface then 4
    else if video ∧ !scaled ∧ (c.w ≠ c.cw ∨ c.h ≠ c.ch ∨ (x.layerFmt d n l).sampling ≠ (if int444 then 1 else 0)
        ∨ x.layerInterlaced d n l ≠ x.flag R.EN_CFG_INTERLACED n) then 5 else 0

/-- A layer is refused at commit. -/
def State.layerRefused (s : State) (d : DieId) (n l cause : Nat) : State :=
  (((s.setFld d R.CH_LCAUSE_CAUSE cause n (l - 1)).count d R.CH_REFUSED n).event d R.CH_EVENTS_REFUSED n l).eventCad d
    R.CH_DIE_EVENTS_REFUSED 0 (8 * n + l) ((s.die d).fld R.EN_TIMING_CADENCE n) cause

/-- A commit of layers of a channel that is to apply from `frame` on (R299 to R301). -/
def State.churnCommit (s : State) (d : DieId) (n mask : Nat) (frame : Int) : State :=
  ((List.range 8).filter fun l => bit mask l && decide (l ≤ s.fld d R.CH_CFG_LAYERS n)).foldl (fun s l =>
    let x := s.die d
    let cause := x.layerCause d n l
    if cause ≠ 0 then s.layerRefused d n l cause
    else
      let commit : LayerCommit := ⟨x.layerRegs n l, frame⟩
      s.upd d fun x =>
        let x := (x.modLayer n l fun v => { v with commit := some commit }).setPending n l true
        let run : FlatRun := ⟨(x.frameLine (x.fld R.EN_TIMING_CADENCE n)).1, frame, false⟩
        if x.flattened n l then
          (x.modChurn n fun c => { c with flat := mput (fun _ => none) c.flat (x.runStart n l) (some run) }).setFld R.CH_STATUS_RECOMPUTE 1
        else x) s

/-- Layer `l` takes its commit (R299). -/
def State.layerApply (s : State) (d : DieId) (n l : Nat) (frame : Int) : State :=
  match ((s.die d).churnOf n).layer l |>.commit with
  | none => s
  | some c =>
    let s := s.upd d fun x =>
      let x := (x.modLayer n l fun v => { v with live := c.values, commit := none, committed := true }).setPending n l false
      if l = 0 then x else x.setFld R.CH_LCAUSE_FRAME (unsgn 16 frame) n (l - 1)
    (s.event d R.CH_EVENTS_APPLIED n l).hbCad d (codeOf R.CH_EVENTS_APPLIED) (8 * n + l) (s.fld d R.EN_TIMING_CADENCE n) 0

/-- The frames of commits that are to apply: layers outside flattened runs, and runs whose new plane is complete. -/
def Die.commitsDue (x : Die) (n : Nat) : List (Int × Nat) :=
  let c := x.churnOf n
  (c.layers.filterMap fun e => match e.2.commit with
    | some k =>
      if x.flattened n e.1 then
        (match oget c.flat (x.runStart n e.1) with | some r => if r.done then some (r.notBefore, e.1) else none | none => some (k.frame, e.1))
      else some (k.frame, e.1)
    | none => none)

/-- The recompute of a run ends and its plane is the one shown. -/
def State.runApplied (s : State) (d : DieId) (n r : Nat) (frame : Int) : State :=
  let s := ((s.die d).runLayers n r).foldl (fun s l => s.layerApply d n l frame) s
  s.upd d fun x => x.modChurn n fun c => { c with flat := mput (fun _ => none) c.flat r none }

/-- COMMIT_APPLY: the boundary of the first frame for which commits of a channel wait. -/
def State.commitApply (s : State) (d : DieId) (n : Nat) : State :=
  let x := s.die d
  match ((x.commitsDue n).map Prod.fst).min?, x.grid (x.fld R.EN_TIMING_CADENCE n) with
  | some frame, some g =>
    let s := s.advanceStation d (g.instant (frame * g.l))
    let now := max frame (((s.die d).frameLine (x.fld R.EN_TIMING_CADENCE n)).1)
    ((x.commitsDue n).filter fun e => decide (e.1 ≤ now)).foldl (fun s e =>
      if (s.die d).flattened n e.2 then
        (if (oget ((s.die d).churnOf n).flat ((s.die d).runStart n e.2)).isSome then s.runApplied d n ((s.die d).runStart n e.2) now
         else s.layerApply d n e.2 now)
      else s.layerApply d n e.2 now) s
  | _, _ => s

/-- RECOMPUTE_DONE: the recompute of the run of layer `l` completes at the next frame boundary; its plane applies there, or with
the picture that its commit waits for (R306). -/
def State.recomputeDone (s : State) (d : DieId) (n l : Nat) : State :=
  let x := s.die d
  let r := x.runStart n l
  let cad := x.fld R.EN_TIMING_CADENCE n
  match oget (x.churnOf n).flat r, x.grid cad with
  | some run, some g =>
    if run.done then s
    else
      let frame := (x.frameLine cad).1 + (if x.clk.now = g.instant ((x.frameLine cad).1 * g.l) then 0 else 1)
      let s := s.advanceStation d (g.instant (frame * g.l))
      let s := s.upd d fun x => x.modChurn n fun c => { c with flat := mput (fun _ => none) c.flat r (some { run with done := true }) }
      let s := s.upd d fun x => x.setFld R.CH_STATUS_RECOMPUTE (b2n (x.churn.any fun e => e.2.flat.any fun f => match f.2 with
        | some r => !r.done | none => false))
      let s := (s.event d R.CH_EVENTS_FLAT_DONE n l).eventCad d R.CH_DIE_EVENTS_FLAT_DONE 0 (8 * n + r) cad 0
      if run.notBefore ≤ frame then s.runApplied d n r frame else s
  | _, _ => s

/-! ### Readiness (R302, R303) -/

/-- The state of a content layer at a frame boundary (R302). -/
def Die.layerReady (x : Die) (n l : Nat) : Nat :=
  let src := x.fld R.CH_LSRC_SRC n (l - 1)
  let i := x.fld R.CH_LSRC_INPUT n (l - 1)
  let v := (x.churnOf n).layer l
  if x.fld R.CH_CFG_LAYERS n < l then 0
  else if src = 0 then (if v.seen then 2 else 1)
  else if src = 1 then (if x.flag R.CL_FS_STATE_NEVER_READY i then 1 else if x.flag R.CL_FS_STATE_NO_INPUT i then 3 else 2)
  else if !v.committed then 1
  else if x.flattened n l ∧ (oget (x.churnOf n).flat (x.runStart n l)).isSome then 3 else 2

/-- LAYER_READINESS of a channel: the states, and the runs of STALE pictures. -/
def State.readiness (s : State) (d : DieId) (n : Nat) : State :=
  let x := s.die d
  let states := ([1, 2, 3, 4, 5, 6, 7] : List Nat).map fun l => (l, x.layerReady n l)
  let stale := (states.filter fun e => e.2 == 3).map Prod.fst
  let was := (x.churnOf n).wasStale
  let cad := x.fld R.EN_TIMING_CADENCE n
  let s := s.upd d fun x => (states.foldl (fun x e => x.setLayerState n e.1 e.2) x).modChurn n fun c => { c with wasStale := stale }
  let s := (stale.filter fun l => !was.contains l).foldl (fun s l =>
    (s.event d R.CH_EVENTS_STALE n l).eventCad d R.CH_DIE_EVENTS_STALE 0 (8 * n + l) cad 1) s
  let s := (was.filter fun l => !stale.contains l).foldl (fun s l => s.hbCad d (codeOf R.CH_DIE_EVENTS_STALE) (8 * n + l) cad 0) s
  let s := if stale.isEmpty then s else s.count d R.CH_STALE n
  s.upd d fun x => x.setFld R.CH_STATUS_STALE (b2n (x.churn.any fun e => !e.2.wasStale.isEmpty))

/-- Lines by which a line is composed after its own: the window of the staging inputs, as far as the CTU row's arrival stage and the
blanking leave room (DESIGN CHOICE, log entry 43). -/
def Die.composeDelay (x : Die) (n l : Nat) : Nat :=
  let src := if x.flag R.EN_CFG_RENDITION n then ((x.bodyOf 0xA 0xA04 n).map fun b => num b 0 1).getD n else n
  min (min (x.churnWindow src) (32 * 2 ^ x.fld R.EN_CFG_CTU src)) (l - 2 - (x.encRaster src l).stop)
/-- The source row after which output row `j` can be scaled: the greatest that its taps reach (R294). -/
def lastTap (ns no j : Nat) : Nat :=
  let step : Nat := ns * 65536 / max 1 no
  min (ns - 1) (((j * step : Nat) + ((step : Int) - 65536) / 2) / 65536 + 3).toNat
/-- The lines of a channel's picture, both fields woven, that line `o` of the frame makes complete: the line itself, or those of a
rendition whose last source line it is (R307). -/
def Die.linesDue (x : Die) (n l o : Nat) : List Nat :=
  let weave (f j : Nat) : Nat := if x.flag R.EN_CFG_INTERLACED n then 2 * j + f else j
  match if x.flag R.EN_CFG_RENDITION n then x.bodyOf 0xA 0xA04 n else none with
  | some b =>
    let src := num b 0 1
    match (x.encRaster src l).at_ o with
    | some (f, k) =>
      let (ns, no) := (x.fld R.EN_SIZE_HEIGHT src, x.fld R.EN_SIZE_HEIGHT n)
      ((List.range no).filter fun j => lastTap ns no j == k).map (weave f)
    | none => []
  | none => (((x.encRaster n l).at_ o).map fun e => weave e.1 e.2).toList

/-- The DRAM bytes that composing line `y` of a channel reads, as addresses and lengths: of the video layers on a frame store the source
rows that fall to the line, of the RAW8 surfaces its row, of the curd-packed ones the entries of its tiles (DEDUCED, log entry 12). -/
def Die.composeReads (x : Die) (d : DieId) (n y : Nat) : List (Nat × Nat) :=
  ((List.range (x.fld R.CH_CFG_LAYERS n)).map (· + 1)).flatMap fun l =>
    let video := x.flag R.CH_LSRC_VIDEO n (l - 1)
    let c := layerCfg video (x.flag R.CH_CFG_INT444 n) ((x.churnOf n).layer l).live
    let i := x.fld R.CH_LSRC_INPUT n (l - 1)
    let j := ((y : Int) - c.y).toNat
    if x.layerState n l < 2 ∨ (y : Int) < c.y ∨ c.h ≤ j then []
    else if video then
      if x.fld R.CH_LSRC_SRC n (l - 1) = 1 ∧ x.fld R.CL_FS_STATE_READ i < 3 then
        ((x.storeFmt d i).spans (c.cy + j * c.ch / c.h) ((j + 1) * c.ch / c.h - j * c.ch / c.h)).map fun e =>
          (x.storeBase i (x.fld R.CL_FS_STATE_READ i) + e.1, e.2)
      else []
    else match x.surfaceRec n l c.surface with
      | some b =>
        let r := c.cy + j
        if num b 1 1 = 0 then [(num b 8 8 + r * num b 16 4 + 4 * c.cx, 4 * c.w)]
        else [(num b 8 8 + 8 * (r / 4 * cdiv (num b 4 2) 16 + c.cx / 16), 8 * (cdiv (c.cx + c.w) 16 - c.cx / 16))]
      | none => []

/-- What a line pulse of cadence `c`, line `m`, does for the churn: readiness at a frame boundary, and the line that has landed
is composed (log entry 43). -/
def State.churnPulse (s : State) (d : DieId) (c : Nat) (g : Grid) (m : Int) : State :=
  ((s.die d).encOn c).foldl (fun s n =>
    let s := if m % g.l = 0 ∧ s.fld d R.EN_CFG_RENDITION n ≠ 1 then s.readiness d n else s
    let x := s.die d
    (x.linesDue n g.l (g.line (m - 1 - x.composeDelay n g.l))).foldl (fun (s : State) y =>
      let s := if x.flag R.EN_CFG_RENDITION n then s else s.touchSpans d 0 (x.composeReads d n y)
      s.upd d fun x => x.modChurn n fun v => { v with out := mput (fun _ => {}) v.out y (x.pictureLine d n y) }) s) s

def execCommitApply (d : DieId) (n : Fin 256) (s : State) : Result :=
  onDie s d (Instr.wf (.commitApply d n)) (s.commitApply d n)
def execRecomputeDone (d : DieId) (n : Fin 256) (l : Fin 8) (s : State) : Result :=
  onDie s d (Instr.wf (.recomputeDone d n l)) (s.recomputeDone d n l)

end Sys2Proof.Machine
end

