-- ==== Sys2Proof/Machine/Panel.lean ====
section
/-! DEFINITION. The operator panel port of die 0 (22_panel.md R638 to R649). -/

namespace Sys2Proof.Machine

/-- The panel rewritten. -/
def State.modPanel (s : State) (f : Panel → Panel) : State := s.updPkg fun p => { p with panel := f p.panel }
/-- The PANEL record of the plan in force (R84). -/
def State.panelRecord (s : State) : Option (List Byte) := s.die0.bodyOf 0x12 0x1201 0

/-- A filtered change is due to be queued, with the line and frame of the master cadence (R644). -/
def State.pnDue (s : State) (kind index : Nat) (steps : Int := 0) : State :=
  let f := s.die0.frameLine s.die0.masterCad
  s.modPanel fun p => { p with due := p.due ++ [⟨kind, index, steps, f.2, unsgn 19 f.1⟩] }

/-! ### Filters (R639 to R642) -/

/-- A key's filtered state. -/
def Die.pnKey (x : Die) (i : Nat) : Bool := if i < 32 then Machine.bit (x.fld R.PN_KEYS_LO) i else Machine.bit (x.fld R.PN_KEYS_HI) (i - 32)
/-- A key's filtered state set. -/
def Die.setPnKey (x : Die) (i : Nat) (v : Bool) : Die :=
  let f := if i < 32 then R.PN_KEYS_LO else R.PN_KEYS_HI
  x.setFld f (bits (putBits (BitVec.ofNat 32 (x.fld f)) (i % 32) (i % 32) (b2n v)).toNat 31 0)
/-- A key going down would complete a rectangle with three keys that are down (R640). -/
def Die.pnGhost (x : Die) (i : Nat) : Bool :=
  let r := i / 8
  let c := i % 8
  (List.range 8).any fun r' => r' != r && (List.range 8).any fun c' =>
    c' != c && x.pnKey (8 * r + c') && x.pnKey (8 * r' + c) && x.pnKey (8 * r' + c')

/-- One key at a scan. -/
def State.pnKeyScan (s : State) (i : Nat) (down : Bool) : State :=
  let x := s.die0
  let p := s.pkg.panel
  let run (s : State) (n : Nat) (ghost : Bool) : State := s.modPanel fun p =>
    { p with keys := mput (fun _ => 0) p.keys i n, ghosts := mput (fun _ => false) p.ghosts i ghost }
  if down = x.pnKey i then run s 0 false
  else if down ∧ x.pnGhost i then
    let s := if mget (fun _ => false) p.ghosts i then s else s.count 0 R.PN_GHOSTS
    run s 0 true
  else
    let n := mget (fun _ => 0) p.keys i + 1
    if x.fld R.PN_CFG_KEY_DB ≤ n then ((run s 0 false).upd 0 fun x => x.setPnKey i down).pnDue (if down then 1 else 2) i
    else run s n false

/-- The steps that an encoder has counted since its last event make one event in a scan (R643). -/
def State.pnEncScan (s : State) (e : Nat) : State :=
  let v := mget (fun _ => {}) s.pkg.panel.encs e
  if v.steps = 0 then s
  else (s.modPanel fun p => { p with encs := mput (fun _ => {}) p.encs e { v with steps := 0 } }).pnDue 3 e v.steps

/-- A bit of PN_INPUTS. -/
def State.pnInput (s : State) (b : Nat) (v : Bool) : State :=
  s.upd 0 fun x => let a := fldAddr R.PN_INPUTS_TOUCH 0 0; x.setReg a (putBits (x.reg a) b b (b2n v))
/-- A pad is on. -/
def State.pnTouched (s : State) (i : Nat) : Bool := bit (s.fld 0 R.PN_INPUTS_TOUCH) i

/-- One touch pad at a sample (R639, R642). With TOUCH_TH 0, before any plan has set it, pads are not judged. -/
def State.pnTouchScan (s : State) (i : Nat) (v : Int) : State :=
  let th : Int := s.fld 0 R.PN_CFG_TOUCH_TH
  let t := mget (fun _ => {}) s.pkg.panel.touch i
  let set (s : State) (t : PnTouch) : State := s.modPanel fun p => { p with touch := mput (fun _ => {}) p.touch i t }
  let jump : Bool := match t.last with | some l => decide (16 * th < v - l ∨ 16 * th < l - v) | none => false
  if th = 0 then s
  else if v < 0 ∨ 65535 < v ∨ jump then s.count 0 R.PN_TOUCH_DROPS
  else
    let t : PnTouch := if t.last.isNone then { t with base := 4096 * v } else t
    let t : PnTouch := { t with last := some v }
    if s.pnTouched i then
      let t : PnTouch := { t with onFor := t.onFor + 1, run := if 4096 * v < t.base + 2048 * th then t.run + 1 else 0 }
      if 60000 < t.onFor then
        ((set s { t with onFor := 0, run := 0, base := 4096 * v }).pnInput i false).pnDue 8 i
      else if 3 ≤ t.run then ((set s { t with onFor := 0, run := 0 }).pnInput i false).pnDue 5 i
      else set s t
    else
      let t : PnTouch := { t with run := if t.base + 4096 * th < 4096 * v then t.run + 1 else 0 }
      if 3 ≤ t.run then ((set s { t with onFor := 0, run := 0 }).pnInput i true).pnDue 4 i
      else set s { t with base := t.base + (4096 * v - t.base) / 4000 }

/-- One module input at a sample. -/
def State.pnModScan (s : State) (i : Nat) (level : Bool) : State :=
  let now := bit (s.fld 0 R.PN_INPUTS_MODULES) i
  let set (s : State) (n : Nat) : State := s.modPanel fun p => { p with mods := mput (fun _ => 0) p.mods i n }
  if level = now then set s 0
  else
    let n := mget (fun _ => 0) s.pkg.panel.mods i + 1
    if s.fld 0 R.PN_CFG_MOD_DB ≤ n then ((set s 0).pnInput (16 + i) level).pnDue (if level then 6 else 7) i
    else set s n

/-- PANEL_SCAN (R639): the 1 ms scan, with the filtered changes in the order key, encoder, touch, module, then by index (R647). -/
def State.panelScan (s : State) (keys : Nat) (touch : List Int) (mods : Nat) : State :=
  if s.die0.pw.phase = .held then s
  else
    let s := (List.range 64).foldl (fun (s : State) i => s.pnKeyScan i (bit keys i)) s
    let s := (List.range 4).foldl (fun (s : State) e => s.pnEncScan e) s
    let s := (List.range 16).foldl (fun (s : State) i => match touch[i]? with | some v => s.pnTouchScan i v | none => s) s
    (List.range 8).foldl (fun (s : State) i => s.pnModScan i (bit mods i)) s

/-- Quarters of a quadrature cycle from one phase state to the next, clockwise positive: 00, 10, 11, 01 as A + 2 x B (R639, log
entry 48). -/
def quarter (old new : Nat) : Int :=
  let at_ (v : Nat) : Nat := [0, 1, 3, 2].getD v 0
  if (at_ old + 1) % 4 = at_ new then 1 else -1

/-- ENCODER_SAMPLE (R639, R641): both phases of an encoder. -/
def State.encoderSample (s : State) (e : Nat) (a b : Bool) : State :=
  let v := mget (fun _ => {}) s.pkg.panel.encs e
  let n := b2n a + 2 * b2n b
  let set (s : State) (v : PnEncoder) : State := s.modPanel fun p => { p with encs := mput (fun _ => {}) p.encs e v }
  if s.die0.pw.phase = .held then s
  else if n = 3 - v.phase then s.count 0 R.PN_ENC_ERR
  else if n ≠ v.phase ∧ n = v.last then
    let q := v.quarters + quarter v.phase n
    let step : Int := if q = 4 then 1 else if q = -4 then -1 else 0
    let s := set s { v with phase := n, quarters := if step = 0 then q else 0, steps := v.steps + step }
    s.setFld 0 R.PN_ENC_STEPS (unsgn 16 ((s.fld 0 R.PN_ENC_STEPS e : Int) + step)) e
  else set s { v with last := n }

/-! ### The queue (R643, R644) -/

/-- The words of an event. -/
def PanelEvent.words (e : PanelEvent) : Nat × Nat :=
  (e.kind + e.index * 16 + unsgn 16 e.steps * 65536, e.line % 8192 + e.frame % 2 ^ 19 * 8192)
/-- The head event's words; 0 while the queue is empty. -/
def State.pnHead (s : State) : Nat × Nat := (s.pkg.panel.queue.head?.map PanelEvent.words).getD (0, 0)

/-- The oldest filtered change, if it is of one of the kinds, enters the queue and posts to the plan's thread; a full queue
discards it (R643). -/
def State.pnQueue (s : State) (kinds : List Nat) : State :=
  match s.pkg.panel.due with
  | e :: rest =>
    if kinds.contains e.kind then
      let s := s.modPanel fun p => { p with due := rest }
      let s := if e.kind = 8 then s.eventRec 0 R.PN_EVENTS_STUCK 0 e.index else s
      let s := if e.kind = 6 ∨ e.kind = 7 then s.eventRec 0 R.PN_EVENTS_MODULE 0 e.index e.kind else s
      if 256 ≤ s.pkg.panel.queue.length then
        ((s.count 0 R.PN_EVQ_DROPS).setFld 0 R.PN_STATUS_OVERFLOW 1).eventRec 0 R.PN_EVENTS_OVERFLOW 0 e.index
      else
        let s := s.modPanel fun p => { p with queue := p.queue ++ [e] }
        match s.panelRecord with
        | some b => s.post 0 (num b 6 2 % 4096)
        | none => s
    else s
  | [] => s

/-- A read of PN_EVQ1 removes the head entry (R644). -/
def State.evqPop (s : State) : State := s.modPanel fun p => { p with queue := p.queue.drop 1 }

/-- DUTY_APPLY (R645): the duty written takes effect at the start of a PWM period. -/
def State.dutyApply (s : State) (n : Nat) : State :=
  s.modPanel fun p => { p with duty := mput (fun _ => 0) p.duty n (s.fld 0 R.PN_OUT_DUTY n) }

def execKeyChange (s : State) : Result := onDie s 0 true (s.pnQueue [1, 2])
def execEncoderEvent (s : State) : Result := onDie s 0 true (s.pnQueue [3])
def execTouchChange (s : State) : Result := onDie s 0 true (s.pnQueue [4, 5])
def execTouchStuck (s : State) : Result := onDie s 0 true (s.pnQueue [8])
def execModuleChange (s : State) : Result := onDie s 0 true (s.pnQueue [6, 7])
def execEvqPop (s : State) : Result := onDie s 0 true s.evqPop
def execDutyApply (dt : Nat) (n : Fin 32) (s : State) : Result := onDie s 0 true ((s.advance dt).dutyApply n)
def execPanelScan (dt : Nat) (keys : BitVec 64) (touch : List Int) (mods : BitVec 8) (s : State) : Result :=
  onDie s 0 true ((s.advance dt).panelScan keys.toNat touch mods.toNat)
def execEncoderSample (dt : Nat) (e : Fin 4) (a b : Bool) (s : State) : Result := onDie s 0 true ((s.advance dt).encoderSample e a b)

end Sys2Proof.Machine
end

