-- ==== Sys2Proof/Machine/Encode.lean ====
section
/-! DEFINITION. Encoding live channels and rate control (06_encode.md, 07_rate_control.md): pictures and their rows on the line
grid, the buffer model, skim and floor, fill slices, random access points, rate changes, pools and splice messages. What the
codecs' own syntax makes of a decision is open (log entry 34). -/

namespace Sys2Proof.Machine

/-! ### The shape of a channel (R199, R202, R203) -/

/-- A slice, or the slices of one row, as it becomes eligible (R204). -/
structure Slice where
  chan : Nat
  frame : Int
  field : Nat
  row : Nat
  /-- prefix NAL units before the first slice of a picture, and filler after the last -/
  pre : List (List Byte)
  filler : List (List Byte)
  first : Bool
  last : Bool
  /-- the row's slices alone -/
  slices : List (List Byte)
  /-- the row is a fill slice -/
  fill : Bool
  /-- the picture is a random access point -/
  rap : Bool
  deriving DecidableEq, Repr

/-- CTU height in lines. -/
def Die.encH (x : Die) (n : Nat) : Nat := 32 * 2 ^ x.fld R.EN_CFG_CTU n
/-- The source channel of a rendition. -/
def Die.rendSource (x : Die) (n : Nat) : Option Nat :=
  if x.flag R.EN_CFG_RENDITION n then (x.bodyOf 0xA 0xA04 n).map fun b => num b 0 1 else none
/-- Lines of the cadence from one CTU row to the next (R202, R203). -/
def Die.encStep (x : Die) (n : Nat) : Nat := match x.rendSource n with
  | some src => cdiv (x.encH n * x.fld R.EN_SIZE_HEIGHT src) (max 1 (x.fld R.EN_SIZE_HEIGHT n))
  | none => x.encH n
/-- Lines from a row's first line to the start of its stage 2. -/
def Die.encWait (x : Die) (n : Nat) : Nat := x.encStep n + (if (x.rendSource n).isSome then 3 else 0)
/-- CTU rows of a picture. -/
def Die.encRows (x : Die) (n : Nat) : Nat := cdiv (x.fld R.EN_SIZE_HEIGHT n) (x.encH n)
/-- CTUs of a row. -/
def Die.encCtus (x : Die) (n : Nat) : Nat := cdiv (x.fld R.EN_SIZE_WIDTH n) (x.encH n)
/-- Slices of a row. -/
def Die.encSlices (x : Die) (n : Nat) : Nat := 2 ^ x.fld R.EN_CFG_SLICES n
def Die.encVvc (x : Die) (n : Nat) : Bool := x.flag R.EN_CFG_CODEC n
/-- The codec's greatest QP (R235). -/
def Die.encMaxQp (x : Die) (n : Nat) : Nat := if x.encVvc n then 63 else 51
/-- ZROW of a row (R235). -/
def Die.encZrow (x : Die) (n row : Nat) (intra : Bool) : Nat :=
  Config.zrow [(x.reg (fldAddr R.EN_CFG_CODEC n 0)).toNat, (x.reg (fldAddr R.EN_SIZE_WIDTH n 0)).toNat, row, b2n intra]
/-- F, the picture floor (R235). -/
def Die.encFloor (x : Die) (n : Nat) (intra : Bool) : Nat :=
  ((List.range (x.encRows n)).map fun r => x.encZrow n r intra).foldl (· + ·) 0
    + Config.prefixMax [(x.reg (fldAddr R.EN_CFG_CODEC n 0)).toNat, (x.reg (fldAddr R.EN_SIZE_WIDTH n 0)).toNat, b2n intra]
/-- ROWMIN (R237). -/
def Die.rowMin (x : Die) (n : Nat) (intra : Bool) : Nat := x.encCtus n * zctu (x.encVvc n) intra + 512 * x.encSlices n

/-- The rate that the buffer model runs at, kb/s: the channel rate in CBR, the cap rate in capped VBR (R232). -/
def Die.encRate (x : Die) (n : Nat) : Nat := if x.fld R.RC_CFG_MODE n = 1 then x.fld R.RC_MAXRATE n else x.fld R.RC_RATE n
/-- Nominal bits of a picture at a rate, with the remainder carried in: bits and the new remainder (R232). -/
def Die.nominal (x : Die) (n rate rem : Nat) : Nat × Nat :=
  match rateOf (x.fld R.TB_CAD_CFG_RATE (x.fld R.EN_TIMING_CADENCE n)) with
  | some (fn, fd) =>
    let den := fn * (if x.flag R.EN_CFG_INTERLACED n then 2 else 1)
    ((rate * 1000 * fd + rem) / den, (rate * 1000 * fd + rem) % den)
  | none => (0, rem)

/-! ### Pictures -/

/-- A picture of a channel rewritten. -/
def EncChan.modPic (c : EncChan) (frame : Int) (field : Nat) (f : EncPic → EncPic) : EncChan :=
  { c with pics := c.pics.map fun p => if p.frame = frame ∧ p.field = field then f p else p }
def EncChan.pic (c : EncChan) (frame : Int) (field : Nat) : Option EncPic := c.pics.find? fun p => p.frame == frame && p.field == field
def EncPic.modRow (p : EncPic) (row : Nat) (f : EncRow → EncRow) : EncPic :=
  { p with rows := p.rows.map fun r => if r.row = row then f r else r }

/-- The mark of slot `i` of an encode pool (R262, R282). -/
def Die.encMark (x : Die) (n i : Nat) : Nat := x.fld R.CL_EC_MARKS_MARKS n / 16 ^ i % 16
def Die.setMark (x : Die) (n i v : Nat) : Die :=
  x.setFld R.CL_EC_MARKS_MARKS (x.fld R.CL_EC_MARKS_MARKS n - x.encMark n i * 16 ^ i + v * 16 ^ i) n

/-- Pictures of a channel to a frame of its cadence: two of an interlaced one (R195). -/
def Die.picsPer (x : Die) (n : Nat) : Nat := if x.flag R.EN_CFG_INTERLACED n then 2 else 1
/-- A picture counted by pictures of the cadence. -/
def Die.picNo (x : Die) (n : Nat) (frame : Int) (field : Nat) : Int := frame * x.picsPer n + field

/-- Picture `pic` is to be a random access point: the channel's first, the period's, a forced one, a repair, or one at
a splice time (R197, R198, R219, R225). -/
def Die.rapDue (x : Die) (n : Nat) (pic : Int) : Bool :=
  let c := x.enc' n
  c.first || (c.period != 0 && decide (c.period ≤ c.sinceRap)) || x.flag R.EN_STATUS_RAP_DAMAGED n
    || (match c.rapAt with | some f => decide (f ≤ pic) | none => false) || c.spliceRaps.any fun f => decide (f ≤ pic)

/-! ### What a picture is coded from (R188, R195 to R197, R257, R258) -/

/-- The format of a channel's coded pictures. -/
def Die.encFmt (x : Die) (n : Nat) : PicFmt :=
  ⟨x.fld R.EN_SIZE_WIDTH n, x.fld R.EN_SIZE_HEIGHT n, [2, 0, 1].getD (x.fld R.EN_CFG_CHROMA n) 0, if x.flag R.EN_CFG_DEPTH10 n then 10 else 8⟩
/-- The DRAM address of a slot of an encode pool (R260, R282). -/
def Die.encBase (x : Die) (n slot : Nat) : Nat := x.fld R.CL_EC_POOL_BASE n * 2 ^ 22 + slot * x.fld R.CL_EC_POOL_SLOT_MIB n * 2 ^ 20
/-- A line of a channel's picture in the frame that the churn holds: a field's lines are every second one (R195). -/
def Die.wovenLine (x : Die) (n field j : Nat) : Nat := if x.flag R.EN_CFG_INTERLACED n then 2 * j + field else j
/-- The composition depth that a channel's input has. -/
def Die.inputDepth (x : Die) (n : Nat) : Nat := x.chDepth ((x.rendSource n).getD n)

/-- The input lines of CTU row `row` at the profile's depth: luma, Cb, Cr; other lines are empty (R188). -/
def Die.encSource (x : Die) (n field row : Nat) : List Plane :=
  let f := x.encFmt n
  let deep (l : List Nat) : List Nat := l.map (toDepth (x.inputDepth n) f.depth)
  let line (j : Nat) : PicLine := mget (fun _ => {}) (x.churnOf n).out (x.wovenLine n field j)
  let h := x.encH n
  let chroma (pick : Nat → List Nat) : Plane := (List.range f.ch).map fun j =>
    if j * (if f.sampling = 2 then 2 else 1) / h = row then deep (pick j) else []
  let c420 := f.sampling = 2
  [(List.range f.height).map fun j => if j / h = row then deep (line j).y else [],
   chroma fun j => if c420 then (x.codedChroma n (x.wovenLine n field j)).1 else (line j).cb,
   chroma fun j => if c420 then (x.codedChroma n (x.wovenLine n field j)).2 else (line j).cr]
/-- A picture of an encode pool. -/
def Die.encRef (x : Die) (n slot : Nat) : List Plane :=
  let f := x.encFmt n
  let line (j : Nat) : PicLine := readLine x.dram.view f (x.encBase n slot) j
  let step := if f.sampling = 2 then 2 else 1
  [(List.range f.height).map fun j => (line j).y, (List.range f.ch).map fun j => (line (step * j)).cb, (List.range f.ch).map fun j => (line (step * j)).cr]
/-- The motion that a CTU of a picture of the pool has, by that of its first block; none outside the picture. -/
def Die.ctuMotion (x : Die) (n slot : Nat) (cx cy : Int) : Option Motion :=
  let f := x.encFmt n
  if 0 ≤ cx ∧ 0 ≤ cy ∧ cx < x.encCtus n ∧ cy < x.encRows n then
    (readMotion x.dram.view f (x.encBase n slot) (cx.toNat * x.encH n / 16) (cy.toNat * x.encH n / 16)).head?
  else none
/-- The sources of the candidate vectors of CTU `j` of a row, the CTUs before it in the row being known (R205). -/
def Die.encSources (x : Die) (n : Nat) (p : EncPic) (row : Nat) (done : List Ctu) (j : Nat) : Sources :=
  let near (slot : Option Nat) (dx dy : Int) : Option Motion := slot.bind fun s => x.ctuMotion n s ((j : Int) + dx) ((row : Int) + dy)
  { here := fun dx dy => if dy = 0 then (if dx < 0 ∧ 0 ≤ (j : Int) + dx then (done[((j : Int) + dx).toNat]?).bind Ctu.motion else none)
      else near (some p.slot) dx dy
    temporal := near p.refs[0]?
    second := near p.refs[1]?
    frequent := match p.refs[0]? with
      | some s => frequentMvs ((List.range (x.encRows n)).flatMap fun r => (List.range (x.encCtus n)).map fun c => x.ctuMotion n s c r)
      | none => []
    fields := x.flag R.EN_CFG_INTERLACED n }

/-- The columns of the intra sweep in a picture of gradual mode, in CTUs: the column coded intra, and those refreshed in each
reference (R197). -/
def Die.sweepOf (x : Die) (n : Nat) (p : EncPic) : Option (Nat × Nat × List Nat) :=
  p.sweep.map fun k =>
    let col := cdiv (x.encCtus n) (max 1 (x.enc' n).period) * x.encH n
    (k * col, (k + 1) * col, (List.range 4).map fun i => (k - i) * col)
/-- The context in which a row is coded. -/
def Die.rowCtx (x : Die) (n : Nat) (p : EncPic) (row qp : Nat) (skim : Bool) : RowCtx :=
  let f := x.encFmt n
  { vvc := x.encVvc n, broadcast := x.fld R.EN_CFG_PRESET n == 0, cols := x.encVvc n && decide (1 < x.encSlices n), depth := f.depth
    chroma := x.fld R.EN_CFG_CHROMA n, width := f.width, height := f.height, ctu := x.encH n, qp := qp, intra := p.intra, skim := skim
    sweep := if p.intra then none else x.sweepOf n p
    source := x.encSource n p.field row, refs := p.refs.map (x.encRef n)
    col := match p.refs[0]? with
      | some s => (List.range (cdiv f.height 16)).flatMap fun r => (List.range f.blocks).map fun c => readMotion x.dram.view f (x.encBase n s) c r
      | none => [] }

/-- The kind of NAL unit of a picture's slices: 1 IDR_N_LP, 2 CRA, 3 GDR, 0 any other (R197). A channel in gradual mode begins with an
IDR picture (DEDUCED, log entry 34). -/
def Die.nalKind (x : Die) (n : Nat) (p : EncPic) : Nat :=
  if !p.rap then 0
  else if p.intra then (if x.fld R.EN_CFG_RAP_MODE n = 1 then 2 else 1) else if x.encVvc n then 3 else 0
/-- The slice headers of a row (R199, R242). -/
def Die.sliceHeads (x : Die) (n : Nat) (p : EncPic) (row qp : Nat) (plain : Bool) : List SliceHead :=
  let k := x.encSlices n
  ((sliceCtus (x.encCtus n) k).foldl (fun (e : List SliceHead × Nat) w =>
    (e.1 ++ [{ vvc := x.encVvc n, nal := x.nalKind n p, poc := p.poc, intra := p.intra, qp := qp, ctu := row * x.encCtus n + e.2, ctus := w
               refs := (List.range p.refs.length).map fun i => p.poc - (i + 1), sao := !plain, alf := !plain && x.encVvc n }], e.2 + w)) ([], 0)).1

/-! ### Prefix NAL units (R189, R190, R195, R197, R200, R201, R221, R223, R230, R231) -/

/-- What a channel's parameter sets declare. -/
def Die.paramSets (x : Die) (n : Nat) : ParamSets :=
  let f := x.encFmt n
  let mode := x.fld R.RC_CFG_MODE n
  let cols := x.encVvc n && decide (1 < x.encSlices n)
  { vvc := x.encVvc n, profile := x.fld R.EN_CFG_PROFILE n, level := x.fld R.EN_CFG_LEVEL n, tier := x.flag R.EN_CFG_TIER n
    chroma := x.fld R.EN_CFG_CHROMA n, depth := f.depth, width := f.width, height := f.height, ctu := x.encH n, refs := x.fld R.EN_TIMING_REFS n
    tools := toolFlags (x.encVvc n) cols, across := false
    tileCols := if cols then sliceCtus (x.encCtus n) (x.encSlices n) else [x.encCtus n]
    fieldSeq := x.flag R.EN_CFG_INTERLACED n
    colour := (x.fld R.EN_HDR_PRIM n, x.fld R.EN_HDR_TRANSFER n, x.fld R.EN_HDR_MATRIX n, x.flag R.EN_HDR_FULL n)
    hrd := if mode = 2 then none else some (mode == 0, x.encRate n, x.fld R.RC_CPB n) }
/-- The SEI messages of a picture (R195, R197, R221, R223, R231): `hdr` holds EN_MDCV0 to EN_MDCV5 and EN_CLL, `delay` the initial
removal delay and `since` the pictures since the buffering period began. -/
def Die.seiOf (x : Die) (n : Nat) (rap intra : Bool) (field delay since : Nat) (hdr : List W32) (tc : Option W32) : List Sei :=
  let hrd := x.fld R.RC_CFG_MODE n != 2
  let fields := x.flag R.EN_CFG_INTERLACED n
  let pq := x.fld R.EN_HDR_TRANSFER n == 16
  let hlg := x.fld R.EN_HDR_TRANSFER n == 18
  (if rap && hrd then [.bufferingPeriod delay] else [])
    ++ (if hrd || fields then [.pictureTiming since (if fields then field + 1 else 0)] else [])
    ++ (if rap && !intra && !x.encVvc n then [.recoveryPoint (x.enc' n).period] else [])
    ++ (if rap && (pq || (hlg && x.flag R.EN_HDR_MDCV_ON n)) then [.masteringDisplay (hdr.take 6)] else [])
    ++ (if rap && (pq || (hlg && x.flag R.EN_HDR_CLL_ON n)) then [.contentLight (hdr.getD 6 0)] else [])
    ++ (match tc with | some t => [.timeCode t] | none => [])
/-- The prefix NAL units of a picture in their order, within the largest prefix (R201, R235). -/
def Die.prefixOf (x : Die) (n : Nat) (p : EncPic) (seis : List Sei) : List (List Byte) :=
  let vvc := x.encVvc n
  nalsWithin (Config.prefixMax [(x.reg (fldAddr R.EN_CFG_CODEC n 0)).toNat, (x.reg (fldAddr R.EN_SIZE_WIDTH n 0)).toNat, b2n p.intra])
    (Config.nalBytes (.accessUnitDelimiter vvc p.intra)
      ++ (if p.rap then Config.nalBytes (.parameterSets (x.paramSets n)) else [])
      ++ (if seis.isEmpty then [] else Config.nalBytes (.prefixSei vvc seis))
      ++ (if vvc then Config.nalBytes (.alfAps p.poc (x.enc' n).costs.2) else []))

/-- A timecode one frame later at `f` frames a second: frames in bits [7:0], seconds, minutes and hours above them, and in bit 31 the
drop-frame flag (R223; PRESUMED, log entry 34). -/
def tcNext (f : Nat) (tc : W32) : W32 :=
  let t := tc.toNat
  let drop := bit t 31
  let fr := bits t 7 0 + 1
  let carry := decide (f ≤ fr)
  let se := bits t 15 8 + b2n carry
  let mi := bits t 23 16 + b2n (decide (60 ≤ se))
  let ho := bits t 28 24 + b2n (decide (60 ≤ mi))
  let skip := if drop ∧ 60 ≤ se ∧ mi % 10 ≠ 0 then f / 15 else 0
  BitVec.ofNat 32 ((if carry then skip else fr) + se % 60 * 2 ^ 8 + mi % 60 * 2 ^ 16 + ho % 24 * 2 ^ 24 + b2n drop * 2 ^ 31)
/-- The timecode of a picture: its input's; else the previous value plus one frame, which the second field of a frame shares with the
first (R223). -/
def Die.picTimecode (x : Die) (n field : Nat) : Option W32 :=
  let c := x.enc' n
  if !x.flag R.EN_CFG_TIMECODE n then none
  else match c.inputTc with
    | some t => some t
    | none => c.timecode.map fun t => if field = 1 then t else
      match rateOf (x.fld R.TB_CAD_CFG_RATE (x.fld R.EN_TIMING_CADENCE n)) with
      | some (fn, fd) => tcNext (cdiv fn fd) t
      | none => t

/-! ### Pictures (R195 to R198, R232, R233, R238, R263) -/

/-- Stage 2 of row 0 starts a picture: what it is, its place in the pool, its references, its cap, its target and its prefix. A forced
point coincides with the repair of a damaged one (R220). -/
def State.encPicture (s : State) (d : DieId) (n : Nat) (frame : Int) (field : Nat) : State :=
  let x := s.die d
  let c := x.enc' n
  let pic := x.picNo n frame field
  let gradual := x.fld R.EN_CFG_RAP_MODE n = 2
  let rap := x.rapDue n pic
  let forced := match c.rapAt with | some f => decide (f ≤ pic) || x.flag R.EN_STATUS_RAP_DAMAGED n | none => false
  let intra := rap && (c.first || !gradual)
  let (b, rem) := x.nominal n (x.encRate n) c.bRem
  let mode := x.fld R.RC_CFG_MODE n
  let full : Int := if rap ∧ c.restart then ((x.fld R.RC_START n * x.encRate n / 90 : Nat) : Int) else c.fullness
  let bt := if mode = 1 then (x.nominal n (c.poolRate.getD (x.fld R.RC_RATE n)) 0).1 else b
  let target := if mode = 2 then 0 else
    max (x.encFloor n intra) (((bt : Int) + (full - x.fld R.RC_TARGET_FULL n) / (max 1 (x.fld R.RC_CFG_REPAY n) : Nat)).toNat)
  let slot := ((List.range (x.fld R.CL_EC_POOL_SLOTS n)).find? fun i => x.encMark n i == 0).getD 0
  let hdr := if rap then (List.range 6).map (fun j => x.reg (fldAddr R.EN_MDCV n j)) ++ [x.reg (fldAddr R.EN_CLL_MAXCLL n 0)] else c.hdr
  let tc := x.picTimecode n field
  let since := if rap then 0 else c.sinceRap
  let x1 := x.modEnc n fun c => { c with period := if rap then x.fld R.EN_RAP_PERIOD n else c.period }
  let p0 : EncPic := { frame := frame, field := field, poc := c.poc, rap := rap, intra := intra, slot := slot
                       cap := if mode = 2 then x.fld R.RC_CAP n else full.toNat, target := target, nominal := b
                       refs := if intra then [] else c.refs, sweep := if gradual then some since else none }
  let delay := if c.restart then x.fld R.RC_START n else full.toNat * 90 / max 1 (x.encRate n)
  let pre := x1.prefixOf n p0 (x1.seiOf n rap intra field delay since hdr tc)
  let s := s.upd d fun x => (((x.setMark n slot 1).modEnc n fun c => { (c.modPic frame field fun p => { p0 with
      spent := nalBits pre, prefix_ := pre, rows := p.rows }) with
    fullness := full, restart := c.restart && !rap, bRem := rem, poc := (c.poc + 1) % 2 ^ 32, sinceRap := since + 1
    period := if rap then x.fld R.EN_RAP_PERIOD n else c.period, rapAt := if forced then none else c.rapAt
    spliceRaps := c.spliceRaps.filter fun f => decide (pic < f), first := false, hdr := hdr, timecode := tc.or c.timecode, inputTc := none }).setFld
      R.EN_STATUS_FILLING 0 n).setReg (fldAddr R.RC_STATUS_SKIM n 0) (putBits (x.reg (fldAddr R.RC_STATUS_SKIM n 0)) 1 0 0)
  let s := if rap then s.setFld d R.EN_STATUS_RAP_DAMAGED 0 n else s
  if forced then (s.setFld d R.EN_STATUS_RAP_PENDING 0 n).event d R.EN_EVENTS_RAP_FORCED n else s

/-! ### Rows (R239 to R246) -/

/-- The target of row `row`: its share of the picture's target by the costs of the last picture of its type (R239). -/
def EncChan.rowTarget (c : EncChan) (p : EncPic) (rows row : Nat) : Nat :=
  let costs := if p.intra then c.costs.1 else c.costs.2
  let sum := costs.foldl (· + ·) 0
  if costs.isEmpty ∨ sum = 0 then p.target / max 1 rows else p.target * costs.getD row 0 / sum

/-- clamp(round(6 log2(est / target)), -lim, lim), exactly: the step is at least k where (est / target)^12 >= 2^(2k - 1) (R239). -/
def qpStep (est target lim : Nat) : Int :=
  (((List.range (2 * lim)).filter fun j => decide (target ^ 12 * 2 ^ (2 * (j + 1)) ≤ est ^ 12 * 2 ^ (2 * lim + 1))).length : Int) - lim
/-- The slice QP of a row coded normally (R239): the previous row's, or for row 0 the previous picture's row 0, plus the step. -/
def Die.rowQp (x : Die) (n : Nat) (p : EncPic) (row target : Nat) : Nat :=
  let c := x.enc' n
  if x.fld R.RC_CFG_MODE n = 2 then (if p.intra then x.fld R.RC_QP_INTRA n else x.fld R.RC_QP_INTER n)
  else
    let prev := (c.lastQp.map fun q => if row = 0 then q.2 else q.1).getD (Config.firstQp n)
    let est := Config.modelSize (x.encVvc n) prev ((if p.intra then c.costs.1 else c.costs.2)[row]?)
    let q := (prev : Int) + qpStep est target (if row = 0 then 6 else 3)
    (max (x.fld R.RC_CFG_QP_MIN n : Int) (min (x.fld R.RC_CFG_QP_MAX n) q)).toNat

/-- The headroom of a row (R240): what the picture's prefix and the rows whose E stage has ended have taken, the allowances of
those in their E stage, and ZROW of the rows after it are reserved. -/
def Die.headroom (x : Die) (n : Nat) (p : EncPic) (row : Nat) : Int :=
  let inE : Nat := ((p.rows.filter fun r => r.started && r.coded.isNone).map EncRow.allow).foldl (· + ·) 0
  let later : Nat := ((List.range (x.encRows n - (row + 1))).map fun i => x.encZrow n (row + 1 + i) p.intra).foldl (· + ·) 0
  (p.cap : Int) - p.spent - inE - later
/-- How row `row` is coded and its allowance: 0 normally, 1 in skim mode, 2 at floor (R240, R241). In constant QP there is no target,
so that neither the target's share nor the skim range bounds a row (DEDUCED, log entry 36). -/
def Die.rowMode (x : Die) (n : Nat) (p : EncPic) (row target : Nat) : Nat × Nat :=
  let h := x.headroom n p row
  let least := x.rowMin n p.intra
  let fixed := x.fld R.RC_CFG_MODE n = 2
  let a := if fixed then h / 2 else min (h / 2) ((least : Int) + 4 * target)
  if a < least then (2, x.encZrow n row p.intra)
  else (if (¬ fixed ∧ a < least + target) ∨ p.skim.1 ∨ p.skim.2 then 1 else 0, a.toNat)

/-- The fetches of a CTU's search: a patch for every candidate outside the local window (R207). -/
def State.patchFetch (s : State) (d : DieId) (n : Nat) (p : EncPic) (e : Rect × List (Int × Int)) : State :=
  let x := s.die d
  match p.refs.head? with
  | none => s
  | some slot => (e.2.filter fun v => !inWindow v).foldl (fun s v =>
      (patchBlocks (x.fld R.EN_SIZE_WIDTH n) (x.fld R.EN_SIZE_HEIGHT n) (x.encH n) e.1 v).foldl (fun s o =>
        s.touch d (x.encBase n slot + o) (s.die d).stampNow) s) s

/-- The accesses that write a row's reconstruction and motion into its slot. -/
def State.reconTouch (s : State) (d : DieId) (n : Nat) (p : EncPic) (row : Nat) : State :=
  let x := s.die d
  let f := x.encFmt n
  let r := row * x.encH n / 16
  s.touchSpans d (x.encBase n p.slot) (f.spans (row * x.encH n) (x.encH n) ++ [(f.planesBytes + 16 * (r * f.blocks), 16 * (f.blocks * (x.encH n / 16)))])

/-- The CTUs of a row as fill CTUs (R216). -/
def Die.fillRow (x : Die) (n row : Nat) : List Ctu :=
  (List.range (x.encCtus n)).map fun j => ⟨⟨j * x.encH n, row * x.encH n, x.encH n, x.encH n⟩, true, 0, []⟩
/-- A row's reconstruction and motion field are written into the picture's slot (R200, R218, R257, R258). -/
def Die.reconRow (x : Die) (n : Nat) (p : EncPic) (row qp : Nat) (plain : Bool) (ctus : List Ctu) : Die :=
  let f := x.encFmt n
  let q := x.rowCtx n p row qp false
  let base := x.encBase n p.slot
  x.setCells (storeMotion (storeRecon x.dram.view f base (row * x.encH n) (q.rowRecon row (x.sliceHeads n p row qp plain) ctus)) f base
    (row * x.encH n) (x.encH n) p.intra ctus)

/-- A slice of a row coded within its allowance, or as fill slices (R216, R217, R235, R244): the NAL units, the CTUs as coded, and
whether a clip met it. -/
def Die.codeRow (x : Die) (n : Nat) (p : EncPic) (r : EncRow) : List (List Byte) × List Ctu × Bool :=
  if r.fault ≠ 0 ∨ r.mode = 2 then
    let o := codeSlices (x.sliceHeads n p r.row (x.encMaxQp n) true) none (x.fillRow n r.row)
    (nalsWithin (x.encZrow n r.row p.intra) o.1, o.2.1, false)
  else codeSlices (x.sliceHeads n p r.row r.qp (r.mode == 1)) (some r.allow) r.ctus

/-- A filler data NAL unit of `n` bytes, 3 at least (R234): type 38 in HEVC, 25 in VVC (log entry 34). -/
def fillerNal (vvc : Bool) (n : Nat) : List Byte :=
  (if vvc then [0x00, 0xC9] else [0x4C, 0x01]) ++ List.replicate (n - 3) 0xFF ++ [0x80]

/-- The E stage of a picture's last row has ended: its size, filler, the buffer model, and its place among the references (R232,
R234, R263). -/
def State.encPicEnd (s : State) (d : DieId) (n : Nat) (frame : Int) (field : Nat) : State :=
  let x := s.die d
  match (x.enc' n).pic frame field with
  | none => s
  | some p =>
    let c := x.enc' n
    let mode := x.fld R.RC_CFG_MODE n
    let excess : Int := c.fullness - p.spent + p.nominal - x.fld R.RC_CPB n
    let filler := if mode = 0 ∧ 0 < excess then [fillerNal (x.encVvc n) (max 3 (cdiv excess.toNat 8))] else []
    let size := p.spent + nalBits filler
    let next := if mode = 1 then min (x.fld R.RC_CPB n : Int) (c.fullness - size + p.nominal) else c.fullness - size + p.nominal
    let refs := if p.rap then [p.slot] else p.slot :: c.refs
    let keep := refs.take (x.fld R.EN_TIMING_REFS n)
    s.upd d fun x =>
      let x := (List.range (x.fld R.CL_EC_POOL_SLOTS n)).foldl (fun x i =>
        if keep.contains i then x.setMark n i 2 else if x.encMark n i = 2 ∨ i = p.slot then x.setMark n i 0 else x) x
      ((((x.modEnc n fun c => { (c.modPic frame field fun p => { p with filler := filler, spent := size }) with
          fullness := next, refs := keep
          costs := if p.intra then (p.costs, if p.rap then [] else c.costs.2) else (if p.rap then [] else c.costs.1, p.costs) }).setFld
        R.RC_FULLNESS (unsgn 32 c.fullness) n).setFld R.RC_LAST_SIZE size n)).count R.EN_PICTURES n

/-- The E stage of a row ends: its slices are coded, its reconstruction is overwritten where fill CTUs took the place of what stage 2
decided, and its exact size counts as spent (R218, R240, R244). A row that a fault hits after that is coded anew as fill slices, and
the difference goes to the buffer model. -/
def State.encCode (s : State) (d : DieId) (n : Nat) (frame : Int) (field row : Nat) : State :=
  let x := s.die d
  match (x.enc' n).pic frame field with
  | none => s
  | some p =>
    match p.rows.find? fun r => r.row == row with
    | none => s
    | some r =>
      let (nals, ctus, clip) := x.codeRow n p r
      let fresh := r.coded.isNone
      let more : Int := (nalBits nals : Int) - ((r.coded.map nalBits).getD 0 : Nat)
      let open_ := decide (p.ended < x.encRows n)
      let s := if ctus = r.ctus then s else (s.reconTouch d n p row).upd d fun x => x.reconRow n p row r.qp true ctus
      let s := s.upd d fun x => x.modEnc n fun c => { (c.modPic frame field fun p => { (p.modRow row fun r => { r with coded := some nals, ctus := ctus }) with
        spent := if open_ then ((p.spent : Int) + more).toNat else p.spent, ended := p.ended + b2n fresh, filled := p.filled || r.fault != 0 }) with
        fullness := if open_ then c.fullness else if x.fld R.RC_CFG_MODE n = 1 then min (x.fld R.RC_CPB n : Int) (c.fullness - more) else c.fullness - more }
      let s := if clip then (s.count d R.RC_CLIPS n).eventPic d R.RC_EVENTS_CLIP n n (x.fld R.EN_TIMING_CADENCE n) row frame else s
      if fresh ∧ x.encRows n ≤ p.ended + 1 then s.encPicEnd d n frame field else s

/-- ROW_STAGE2_START: headroom, allowance and mode of a row (R240, R241), and the counts of skim and floor (R243). -/
def State.encRowStart (s : State) (d : DieId) (n : Nat) (frame : Int) (field row : Nat) : State :=
  let s := if row = 0 then s.encPicture d n frame field else s
  let x := s.die d
  let c := x.enc' n
  match c.pic frame field with
  | none => s
  | some p =>
    let target := c.rowTarget p (x.encRows n) row
    let (mode, allow) := x.rowMode n p row target
    let qp := if mode = 0 then x.rowQp n p row target else x.encMaxQp n
    let s := s.upd d fun x => (x.modEnc n fun c => { (c.modPic frame field fun p => { (p.modRow row fun r =>
        { r with started := true, wait := x.encStep n, qp := qp, mode := mode, allow := allow }) with
          skim := (p.skim.1 || mode == 1, p.skim.2 || mode == 2) }) with
      lastQp := some (qp, if row = 0 then qp else ((c.lastQp.map Prod.snd).getD qp)) }).setFld R.RC_STATUS_QP qp n
    let cad := x.fld R.EN_TIMING_CADENCE n
    if mode = 1 then
      let s := s.setFld d R.RC_STATUS_SKIM 1 n
      if p.skim.1 then s else (s.count d R.RC_SKIMS n).eventPic d R.RC_EVENTS_SKIM n n cad row frame
    else if mode = 2 then ((s.setFld d R.RC_STATUS_FLOOR 1 n).count d R.RC_FLOOR_ROWS n).event d R.RC_EVENTS_FLOOR n row
    else s

/-- A row's stage 2 ends: what search and mode decision have found (R205 to R212, R246) and the reconstruction. Stage 2 takes a CTU row's
lines, all of which its result depends on, so that the model draws it where it ends. A unit of a deferred channel is coded whole there,
and waits for its position (R214; log entry 34). -/
def State.encRowSearch (s : State) (d : DieId) (n : Nat) (frame : Int) (field row : Nat) : State :=
  let x := s.die d
  match (x.enc' n).pic frame field with
  | none => s
  | some p =>
    match p.rows.find? fun r => r.row == row with
    | none => s
    | some r =>
      let q := x.rowCtx n p row r.qp (r.mode == 1)
      let found := q.code row (x.encCtus n) (x.encSlices n) (x.fld R.RC_BINS n) (if r.mode = 1 then some (x.fld R.RC_CFG_BINCAP n) else none)
        (x.encSources n p row)
      let ctus := if r.mode = 2 then x.fillRow n row else found.ctus
      let s := found.searched.foldl (fun s e => s.patchFetch d n p e) s
      let s := (s.reconTouch d n p row).upd d fun x => (x.reconRow n p row r.qp (r.mode != 0) ctus).modEnc n fun c =>
        { (c.modPic frame field fun p => { (p.modRow row fun r => { r with ctus := ctus }) with costs := p.costs ++ [found.satd] }) with
          satd := if x.encRows n ≤ row + 1 then (p.costs ++ [found.satd]).foldl (· + ·) 0 else c.satd }
      if x.flag R.EN_TIMING_DEFERRED n then s.encCode d n frame field row else s

/-- A fill slice is sent for each slice of a row (R216, R217, R219, R229). -/
def State.encFill (s : State) (d : DieId) (n row cause : Nat) (frame : Int) (rap : Bool) : State :=
  let cad := s.fld d R.EN_TIMING_CADENCE n
  let k := (s.die d).encSlices n
  let s := ((((s.count d R.EN_FILLED n k).setFld d R.EN_LAST_FILL_CAUSE cause n).setFld d R.EN_LAST_FILL_ROW row n).setFld
    d R.EN_LAST_FILL_FRAME (unsgn 16 frame) n).setFld d R.EN_STATUS_FILLING 1 n
  let s := (List.range k).foldl (fun s _ => s.eventPic d R.EN_EVENTS_FILLED n n cad row frame) s
  if rap then (s.setFld d R.EN_STATUS_RAP_DAMAGED 1 n).event d R.EN_EVENTS_RAP_DAMAGED n else s

/-- A row comes to its position: the slices that its E stage has coded, or fill slices where a fault has hit the row, are eligible
(R204, R214, R217). -/
def State.encRowEnd (s : State) (d : DieId) (n : Nat) (frame : Int) (field row : Nat) : State × List Slice :=
  let fault : Nat := ((((s.die d).enc' n).pic frame field).bind fun p => (p.rows.find? fun r => r.row == row).map EncRow.fault).getD 0
  let ready : Bool := ((((s.die d).enc' n).pic frame field).bind fun p => (p.rows.find? fun r => r.row == row).bind EncRow.coded).isSome
  let s := if ready ∧ fault = 0 then s else s.encCode d n frame field row
  let x := s.die d
  match (x.enc' n).pic frame field with
  | none => (s, [])
  | some p =>
    match p.rows.find? fun r => r.row == row with
    | none => (s, [])
    | some r =>
      let last := decide (x.encRows n ≤ p.sent + 1)
      let s := s.upd d fun x => x.modEnc n fun c =>
        let c := c.modPic frame field fun p => { p with rows := p.rows.filter fun q => q.row != row, sent := p.sent + 1 }
        if last then { c with pics := c.pics.filter fun q => !(q.frame == frame && q.field == field) } else c
      let s := if r.fault ≠ 0 then s.encFill d n row r.fault frame p.rap else s
      let s := if row = 0 then s.setFld d R.EN_FRAME (unsgn 32 frame) n else s
      (s, [⟨n, frame, field, row, if row = 0 then p.prefix_ else [], if last then p.filler else [], row == 0, last, r.coded.getD [],
            r.fault != 0, p.rap⟩])

/-! ### The line pulse -/

/-- One pulse of a row's cadence. -/
def EncRow.tick (r : EncRow) : EncRow := { r with left := if r.started then r.left - 1 else r.left, wait := r.wait - 1 }

/-- The rows of a channel that satisfy `f`, with their pictures. -/
def EncChan.rowsWhere (c : EncChan) (f : EncRow → Bool) : List (Int × Nat × Nat) :=
  c.pics.flatMap fun p => (p.rows.filter f).map fun r => (p.frame, p.field, r.row)

/-- The rows whose first line is due in staging at line `m`: field and row (R202). -/
def Die.encArrivals (x : Die) (n l : Nat) (m : Int) : List (Nat × Nat) :=
  (List.range (x.picsPer n)).filterMap fun f =>
    let o := (m % l).toNat
    let o' := o - fieldStart l f
    if fieldStart l f ≤ o ∧ o' % x.encStep n = 0 ∧ o' / x.encStep n < x.encRows n then some (f, o' / x.encStep n) else none

/-- A line pulse, line `m` of a grid of `l` lines, for one running channel: rows end, end stage 2, start it, and arrive (R202, R204). -/
def State.encChan (s : State) (d : DieId) (n l : Nat) (m : Int) : State × List Slice :=
  let s := s.upd d fun x => x.modEnc n fun c => { c with pics := c.pics.map fun p => { p with rows := p.rows.map EncRow.tick } }
  let (s, out) := (((s.die d).enc' n).rowsWhere fun r => r.started && r.left == 0).foldl (fun (s, out) e =>
    let (s, o) := s.encRowEnd d n e.1 e.2.1 e.2.2
    (s, out ++ o)) (s, [])
  let done := ((s.die d).enc' n).rowsWhere fun r => r.started && r.wait == 0 && r.ctus.isEmpty && r.coded.isNone
  let s := done.foldl (fun s e => s.encRowSearch d n e.1 e.2.1 e.2.2) s
  let s := (((s.die d).enc' n).rowsWhere fun r => !r.started && r.wait == 0).foldl (fun s e => s.encRowStart d n e.1 e.2.1 e.2.2) s
  let x := s.die d
  let s := (x.encArrivals n l m).foldl (fun s e => s.upd d fun x => x.modEnc n fun c =>
    let row : EncRow := { row := e.2, wait := x.encWait n, left := x.fld R.EN_TIMING_DELAY n - x.encWait n }
    let c := if (c.pic (m / l) e.1).isSome then c else { c with pics := c.pics ++ [{ frame := m / l, field := e.1 }] }
    c.modPic (m / l) e.1 fun p => { p with rows := p.rows ++ [row] }) s
  (s, out)

/-- POOL members: channel and plan weight. -/
def Die.poolMembers (x : Die) (p : Nat) : List (Nat × Nat) :=
  ((x.bodyOf 0xC 0xC01 p).map fun b => (chunks 2 (num b 0 1) (subBytes b 8 (2 * num b 0 1))).map fun e => (num e 0 1, num e 1 1)).getD []
/-- The lock-bounds entry of the register at an address: mask, minimum, maximum, step, signed, fragment (R85). -/
def Die.lockEntries (x : Die) : List (Sect × List Byte) := x.entriesOf 0xF 24
def Die.lockMin (x : Die) (a : Nat) : Nat := ((x.lockEntries.find? fun e => num e.2 0 4 == a).map fun e => num e.2 8 4).getD 0

/-- Divides `n` kb/s among members, each with its room, 1 kb/s at a time in their order: in rounds, until no room or nothing is left
(R248). -/
def dealOut : Nat → Nat → List (Nat × Nat) → List (Nat × Nat)
  | 0, _, l => l.map fun e => (e.1, 0)
  | k + 1, n, l =>
    let open_ := l.filter fun e => e.2 != 0
    if n = 0 ∨ open_ = [] then l.map fun e => (e.1, 0)
    else
      let q := min (n / open_.length) (open_.foldl (fun m e => min m e.2) n)
      if q = 0 then
        let first := (open_.take n).map Prod.fst
        l.map fun e => (e.1, b2n (first.contains e.1))
      else
        let rest := dealOut k (n - q * open_.length) (l.map fun e => (e.1, e.2 - q))
        (l.zip rest).map fun e => (e.1.1, (if e.1.2 = 0 then 0 else q) + e.2.2)
/-- A pool's division (R248): each member's share rounded down, the remainder in order of channel number, the clamps, and what they
leave over or lack dealt among the members that stay clear of them. The answer names the members clamped. -/
def poolDivide (lim : Nat → Nat × Nat) (total : Nat) (ws : List (Nat × Nat)) : List (Nat × Nat) × List Nat :=
  let w := (ws.map Prod.snd).foldl (· + ·) 0
  let base := ws.map fun e => (e.1, if w = 0 then 0 else total * e.2 / w)
  let rest := dealOut 2 (total - (base.map Prod.snd).foldl (· + ·) 0) (base.map fun e => (e.1, 1))
  let r := (base.zip rest).map fun e => (e.1.1, e.1.2 + e.2.2)
  let held := r.map fun e => (e.1, max (lim e.1).1 (min (lim e.1).2 e.2))
  let sum (l : List (Nat × Nat)) : Nat := (l.map Prod.snd).foldl (· + ·) 0
  let hit := ((r.zip held).filter fun e => e.1.2 != e.2.2).map fun e => e.1.1
  let free (e : Nat × Nat) : Bool := !hit.contains e.1
  let up := dealOut 32 (sum r - sum held) (held.map fun e => (e.1, if free e then (lim e.1).2 - e.2 else 0))
  let down := dealOut 32 (sum held - sum r) (held.map fun e => (e.1, if free e then e.2 - (lim e.1).1 else 0))
  ((held.zip (up.zip down)).map fun e => (e.1.1, e.1.2 + e.2.1.2 - e.2.2.2), hit)

/-- POOL_DIVIDE at a frame boundary of the pool's cadence, among its members in order of channel number (R248). -/
def State.poolPulse (s : State) (d : DieId) (p : Nat) : State :=
  let x := s.die d
  let ms := (x.poolMembers p).foldl (fun (l : List (Nat × Nat)) e => (l.filter fun f => decide (f.1 < e.1)) ++ e :: l.filter fun f => decide (e.1 ≤ f.1)) []
  let ws := ms.map fun e => (e.1, (x.enc' e.1).satd * e.2)
  let ws := if (ws.map Prod.snd).foldl (· + ·) 0 = 0 then ms else ws
  let lim (n : Nat) : Nat × Nat := (x.lockMin (fldAddr R.RC_RATE n 0), x.fld R.RC_MAXRATE n)
  let (r, clamped) := poolDivide lim (x.fld R.RC_POOL_RATE p) ws
  let s := r.foldl (fun s e => s.upd d fun x => x.modEnc e.1 fun c => { c with poolRate := some e.2 }) s
  clamped.foldl (fun s n =>
    let s := s.count d R.RC_POOL_CLAMPS p
    if ((r.find? fun e => e.1 == n).map Prod.snd).getD 0 = (lim n).2 then s.event d R.RC_EVENTS_POOL_CLAMP n else s) s

/-- SHAPER_FOLLOW: the shapers of a channel's queues take the rate that waits for this picture (R394). -/
def State.shaperFollow (s : State) (d : DieId) (n : Nat) (pic : Int) : State :=
  (((s.die d).recsOf 6 0x603).filter fun e => (num e.2.body 0 1 == 1 || num e.2.body 0 1 == 5 || num e.2.body 0 1 == 6) && num e.2.body 12 2 == n).foldl
    (fun s e => match (s.die d).queueShaper (qidOf (num e.2.body 16 2)) with
      | none => s
      | some h => match ((s.die d).shaper h).follow with
        | some (f, rate) => if f ≤ pic then s.upd d fun x => (x.shaperRate h rate).modShaper h fun b => { b with follow := none } else s
        | none => s) s

/-- What a line pulse of cadence `c`, line `m`, does for its encode channels and pools. The answer is what became eligible. -/
def State.encPulse (s : State) (d : DieId) (c : Nat) (g : Grid) (m : Int) : State × List Slice :=
  let s := if m % g.l = 0 then
      ((s.die d).listed R.RC_POOL_CFG_MEMBERS 16).foldl (fun s p => if s.fld d R.RC_POOL_CFG_CADENCE p = c then s.poolPulse d p else s) s
    else s
  ((s.die d).encOn c).foldl (fun (s, out) n =>
    let (s, o) := s.encChan d n g.l m
    let s := o.foldl (fun s e => if e.first then s.shaperFollow d n ((s.die d).picNo n e.frame e.field) else s) s
    (s, out ++ o)) (s, [])

/-- Pictures that a step passes over are not coded: C grows by b for each, and the remainder of b goes on (R232, R251). -/
def EncChan.skipped (v : EncChan) (b rem : Nat) (cap : Option Nat) : EncChan :=
  { v with bRem := rem, fullness := match cap with | some m => min (v.fullness + b) (m : Int) | none => v.fullness + b }
/-- `k` frames of a cadence are passed over. -/
def Die.encSkipped (x : Die) (c k : Nat) : Die :=
  (x.encOn c).foldl (fun x n => (List.range (k * x.picsPer n)).foldl (fun x _ =>
    let b := x.nominal n (x.encRate n) (x.enc' n).bRem
    x.modEnc n fun v => v.skipped b.1 b.2 (if x.fld R.RC_CFG_MODE n = 1 then some (x.fld R.RC_CPB n) else none)) x) x

/-! ### Requests and changes (R198, R249, R250) -/

/-- The first frame of a cadence whose first line is due at least 16 lines after the present (R198, R250, R299). -/
def Die.framePlus16 (x : Die) (c : Nat) : Int :=
  match x.grid c with
  | some g => ((g.pos (x.gridTime c) + 16 * 65536) + (g.l * 65536 - 1 : Nat)) / (g.l * 65536 : Nat)
  | none => 0
/-- The first picture of a channel whose first line is due in staging at least 16 lines after the present (R198, R250). -/
def Die.picPlus16 (x : Die) (n : Nat) : Int :=
  let c := x.fld R.EN_TIMING_CADENCE n
  let f := x.framePlus16 c
  match x.grid c with
  | some g =>
    if x.flag R.EN_CFG_INTERLACED n then
      let second := ((f - 1) * g.l + fieldStart g.l 1) * 65536
      if g.pos (x.gridTime c) + 16 * 65536 ≤ second then 2 * f - 1 else 2 * f
    else f
  | none => f

/-- FORCE_RAP takes effect from a picture on; one that is pending stands (R198). -/
def Die.forceRap (x : Die) (n : Nat) (pic : Int) : Die :=
  if x.flag R.EN_STATUS_RAP_PENDING n then x
  else (x.setFld R.EN_STATUS_RAP_PENDING 1 n).modEnc n fun c => { c with rapAt := some pic }

/-- A change of a channel's registers waits for a random access point: RC_RATE in CBR, RC_MAXRATE (R250). -/
def Die.changeAtRap (x : Die) (n field : Nat) : Bool := decide ((field = 0 ∧ x.fld R.RC_CFG_MODE n = 0) ∨ field = 1)
/-- The first picture that has not started stage 2. -/
def Die.nextPic (x : Die) (n : Nat) : Int :=
  let started := ((x.enc' n).pics.filter fun p => p.rows.any EncRow.started || decide (0 < p.ended)).map fun p => x.picNo n p.frame p.field
  (started.max?.getD (x.picNo n (x.frameLine (x.fld R.EN_TIMING_CADENCE n)).1 0 - 1)) + 1
/-- The next random access point that is known: the period's, or a forced one (R197, R198). -/
def Die.knownRap (x : Die) (n : Nat) (from_ : Int) : Option Int :=
  let c := x.enc' n
  let step : Int := c.period
  let due := x.nextPic n + step - c.sinceRap
  let periodic : Option Int := if c.period = 0 then none else some (if from_ ≤ due then due else due + ((from_ - due) + (step - 1)) / step * step)
  match c.rapAt, periodic with
  | some f, some g => some (if from_ ≤ f then min f g else g)
  | some f, none => if from_ ≤ f then some f else none
  | none, g => g
/-- The picture from which on a change may apply: the next one where it waits for a random access point, else the first 16 lines ahead. On
an in-step channel die 0 names a picture that both dies can still meet (R250). -/
def Die.changePic (x : Die) (n field : Nat) : Int :=
  if !x.changeAtRap n field then x.picPlus16 n
  else if x.flag R.EN_CFG_INSTEP n then (x.knownRap n (x.picPlus16 n)).getD (x.picPlus16 n) else x.nextPic n

/-- A rate or QP change is accepted, to apply from a picture on; it replaces an earlier one (R249, R250). -/
def Die.rateAccept (x : Die) (n field : Nat) (v : W32) (pic : Int) : Die :=
  let ch : RateChange := ⟨field, v, x.changeAtRap n field, pic⟩
  let x := (x.modEnc n fun c => { c with changes := (c.changes.filter fun e => e.field != field) ++ [ch], asked := c.asked.erase field }).setFld
    R.RC_STATUS_RATE_PENDING 1 n
  if x.changeAtRap n field ∧ x.flag R.RC_CFG_RATE_RAP n then x.forceRap n (max pic (x.picPlus16 n)) else x
/-- A channel has no change pending. -/
def Die.ratePendingOff (x : Die) (n : Nat) : Die :=
  let c := x.enc' n
  let pooled := x.fld R.RC_CFG_POOL n
  if c.changes.isEmpty ∧ c.asked.isEmpty ∧ (16 ≤ pooled ∨ (mget (fun _ => none) x.enc.poolPend pooled).isNone) then
    x.setFld R.RC_STATUS_RATE_PENDING 0 n
  else x
/-- A pool's rate is accepted: RATE_PENDING of its members stays set until it applies (R249). -/
def Die.poolAccept (x : Die) (p v : Nat) (frame : Int) : Die :=
  let x := { x with enc := { x.enc with poolPend := mput (fun _ => none) x.enc.poolPend p (some (v, frame)) } }
  (x.poolMembers p).foldl (fun x e => (x.setFld R.RC_STATUS_RATE_PENDING 1 e.1).modEnc e.1 fun c => { c with asked := c.asked.erase 3 }) x
/-- Die 1 has asked die 0 to choose the picture of a change of a channel, or with field 3 of its pool (R249, R250). -/
def Die.rateAsk (x : Die) (n field : Nat) : Die :=
  (x.setFld R.RC_STATUS_RATE_PENDING 1 n).modEnc n fun c => { c with asked := field :: c.asked.erase field }
/-- What die 1 asked for is lost with its message (R534). -/
def Die.rateUnask (x : Die) (n field : Nat) : Die := (x.modEnc n fun c => { c with asked := c.asked.erase field }).ratePendingOff n

/-- The shapers of a channel's queues are to follow a new rate: it times the ratio of shaper rate to channel rate, or for RC_MAXRATE to
cap rate, as the plan set them, rounded up (R250, R394). -/
def Die.followRate (x : Die) (n rate : Nat) (cap : Bool) (pic : Int) : Die :=
  ((x.recsOf 6 0x603).filter fun e => (num e.2.body 0 1 == 1 || num e.2.body 0 1 == 5 || num e.2.body 0 1 == 6) && num e.2.body 12 2 == n).foldl
    (fun x e => match x.queueShaper (qidOf (num e.2.body 16 2)) with
      | none => x
      | some h => match (x.shaper h).ratio with
        | some (a, b, m) =>
          let b := if cap then m else b
          if b = 0 then x else x.modShaper h fun k => { k with follow := some (pic, cdiv (rate * a) b) }
        | none => x) x

/-- The picture that starts next, by a change's due: the first not before its own, at a random access point where it waits for one. -/
def Die.changeDue (x : Die) (n : Nat) (ch : RateChange) : Option Int :=
  let f := max (x.nextPic n) ch.pic
  if ch.atRap then (if x.rapDue n f then some f else none) else some f

/-- One change of a channel takes effect. -/
def State.changeApply (s : State) (d : DieId) (n : Nat) (ch : RateChange) (pic : Int) : State :=
  let f := match ch.field with | 0 => R.RC_RATE | 1 => R.RC_MAXRATE | _ => R.RC_QP_INTRA
  let v := if ch.field = 2 then ch.value &&& 0x3F3F#32 else ch.value
  let s := s.upd d fun x =>
    let x := (x.setReg (fldAddr f n 0) v).modEnc n fun c => { c with
      changes := c.changes.filter fun e => e.field != ch.field, restart := c.restart || ch.atRap }
    let x := x.ratePendingOff n
    if ch.field = 2 then x else x.followRate n ch.value.toNat (ch.field == 1) pic
  s.eventPic d R.RC_EVENTS_RATE_APPLIED n n (s.fld d R.EN_TIMING_CADENCE n) 0 (pic / ((s.die d).picsPer n : Int))

/-- RATE_CHANGE_APPLY for a channel: at the first line of the picture in which its changes take effect. -/
def State.rateApply (s : State) (d : DieId) (n : Nat) : State :=
  ((s.die d).enc' n).changes.foldl (fun s ch =>
    let x := s.die d
    match x.changeDue n ch, x.grid (x.fld R.EN_TIMING_CADENCE n) with
    | some f, some g =>
      let k : Int := x.picsPer n
      (s.advanceStation d (g.instant (f / k * g.l + fieldStart g.l (f % k).toNat))).changeApply d n ch f
    | _, _ => s) s
/-- RATE_CHANGE_APPLY for a pool: at its frame boundary; recorded for each member (R249, R256). -/
def State.poolApply (s : State) (d : DieId) (p : Nat) : State :=
  match mget (fun _ => none) (s.die d).enc.poolPend p, (s.die d).grid (s.fld d R.RC_POOL_CFG_CADENCE p) with
  | some (v, frame), some g =>
    let s := (s.advanceStation d (g.instant (frame * g.l))).upd d fun x =>
      ({ x with enc := { x.enc with poolPend := mput (fun _ => none) x.enc.poolPend p none } }).setFld R.RC_POOL_RATE v p
    ((s.die d).poolMembers p).foldl (fun s e =>
      (s.upd d fun x => x.ratePendingOff e.1).eventPic d R.RC_EVENTS_RATE_APPLIED e.1 e.1 (s.fld d R.RC_POOL_CFG_CADENCE p) 0 frame) s
  | _, _ => s

/-! ### Deferred units (R134, R214, R215) -/

/-- A tile of the fragment has deferred work that has not ended. -/
def Die.deferredLeft (x : Die) (frag : Nat) : Bool :=
  x.tiles.any fun e => x.tileFrag e.1 == frag && (e.2.paused || e.2.saved.isSome || (e.2.running && e.2.prog.slack))

/-- The deferred work that the tiles of a fragment have in hand is abandoned (R134). -/
def Die.abandon (x : Die) (frag : Nat) : Die :=
  (x.tiles.filter fun e => x.tileFrag e.1 == frag && e.2.prog.slack).foldl (fun x e => x.setTile e.1 e.2.abandon) x
/-- A tile of a fragment that has deferred work, for VT_LAST_FAULT; the lowest. -/
def Die.slackTile (x : Die) (frag : Nat) : Option Nat :=
  (x.tiles.find? fun e => x.tileFrag e.1 == frag && (e.2.paused || e.2.saved.isSome || (e.2.running && e.2.prog.slack))).map Prod.fst

/-- DEFERRED_DEADLINE: the oldest unit of a deferred channel is at its deadline with its work incomplete; it is abandoned, a fill
slice replaces it, and a SLACK breach is reported (R134, R144, R215). -/
def State.deferredDeadline (s : State) (d : DieId) (n : Nat) : State :=
  let x := s.die d
  let c := x.enc' n
  match (c.pics.flatMap fun p => (p.rows.filter fun r => r.started).map fun r => (p, r)).head? with
  | none => s
  | some (p, r) =>
    if x.flag R.EN_TIMING_DEFERRED n ∧ r.left ≤ 1 ∧ x.deferredLeft c.frag then
      let cad := x.fld R.EN_TIMING_CADENCE n
      let s := match x.pulseDue cad with | some t => s.advanceStation d t | none => s
      let s := s.upd d fun x => (x.modEnc n fun c => c.modPic p.frame p.field fun p => p.modRow r.row (EncRow.hit 5)).abandon c.frag
      let s := match x.slackTile c.frag with
        | some t => (s.upd d fun x => x.lastFault t 5).eventCad d R.VT_EVENTS_SLACK 0 t cad c.frag
        | none => s
      (s.eventCad d R.EN_EVENTS_DEADLINE n n cad r.row).breach d .slack c.frag (some cad)
    else s

/-! ### What the primary input brings (R222, R223 to R225) -/

/-- The encode channels whose primary video input, that of their lowest video layer, has SRC and INPUT of a kind (log entry 39). -/
def Die.primaryBy (x : Die) (p : Nat → Nat → Bool) : List Nat :=
  (x.listed R.EN_STATUS_RUNNING 256).filter fun n =>
    match (List.range 7).find? fun l => decide (x.fld R.CH_LSRC_SRC n l ≤ 1) && x.flag R.CH_LSRC_VIDEO n l with
    | some l => p (x.fld R.CH_LSRC_SRC n l) (x.fld R.CH_LSRC_INPUT n l)
    | none => false
/-- The channels whose primary video input is staging input `i`, at once or through a frame store. -/
def Die.primaryOf (x : Die) (i : Nat) : List Nat :=
  x.primaryBy fun src n => if src = 0 then n == i else match x.bodyOf 0xB 0xB03 n with
    | some b => num b 2 1 != 2 && x.memInput ⟨num b 2 1 == 1, num b 0 2⟩ == i
    | none => false
/-- The channels whose primary video input is decode channel `c`, through a frame store. -/
def Die.primaryDec (x : Die) (c : Nat) : List Nat :=
  x.primaryBy fun src n => src == 1 && match x.bodyOf 0xB 0xB03 n with
    | some b => num b 2 1 == 2 && num b 0 2 == c
    | none => false

/-- HDR_MISMATCH (R222): what the input declares disagrees with the channel, or agrees again; each change is recorded with the row that
the present line belongs to (R229). -/
def State.hdrCheck (s : State) (d : DieId) (channels : List Nat) (prim transfer : Nat) : State :=
  channels.foldl (fun s n =>
    let x := s.die d
    let bad := decide (x.fld R.EN_HDR_PRIM n ≠ prim ∨ x.fld R.EN_HDR_TRANSFER n ≠ transfer)
    let cad := x.fld R.EN_TIMING_CADENCE n
    let row := (x.frameLine cad).2 / max 1 (x.encStep n)
    if bad = (x.fld R.EN_STATUS_HDR_MISMATCH n == 1) then s
    else if bad then (s.setFld d R.EN_STATUS_HDR_MISMATCH 1 n).eventCad d R.EN_EVENTS_HDR_MISMATCH n n cad row
    else (s.setFld d R.EN_STATUS_HDR_MISMATCH 0 n).hbCad d (codeOf R.EN_EVENTS_HDR_MISMATCH) n cad row) s

/-- The timecode of an input reaches the channels whose primary input it is (R223). -/
def Die.timecodeIn (x : Die) (i : Nat) (tc : W32) : Die :=
  (x.primaryOf i).foldl (fun x n => x.modEnc n fun c => { c with inputTc := some tc }) x

/-- The channel feeds a transport stream. -/
def Die.hasTs (x : Die) (n : Nat) : Bool :=
  (x.recsOf 6 0x603).any fun e => (num e.2.body 0 1 == 5 || num e.2.body 0 1 == 6) && num e.2.body 12 2 == n

/-- An operation's section, with the PTS of its splice time; none for what is discarded (R224, R225). Splice types 1 and 2 leave the
network and 3 and 4 return to it, and 2 and 4 are immediate (PRESUMED, log entry 34). -/
def scteCommand (op : Scte104) (pts : Option Nat) : Option SpliceCmd :=
  match op with
  | .spliceRequest 1 => some (.insert true pts.isNone pts)
  | .spliceRequest 2 => some (.insert true true none)
  | .spliceRequest 3 => some (.insert false pts.isNone pts)
  | .spliceRequest 4 => some (.insert false true none)
  | .spliceRequest 5 => some .cancel
  | .spliceRequest _ => none
  | .spliceNull => some .null
  | .timeSignal => some (.timeSignal pts.isNone pts)
  | .other => none
  | .malformed => none
/-- The operation carries a splice time where its pre-roll is above 0 (R225). -/
def scteTimed (op : Scte104) (preMs : Nat) : Bool :=
  preMs != 0 && (op == .spliceRequest 1 || op == .spliceRequest 3 || op == .timeSignal)

/-- SCTE104_MESSAGE (R224, R225): a message in the VANC of the picture that arrives. -/
def State.scte104 (s : State) (d : DieId) (n : Nat) (op : Scte104) (preMs : Nat) (body : List Byte) : State :=
  let x := s.die d
  if !x.flag R.EN_STATUS_RUNNING n then s
  else if (scteCommand op none).isNone ∨ !x.hasTs n then (s.count d R.EN_SCTE_DROP n).event d R.EN_EVENTS_SCTE_DROPPED n
  else
    match x.grid (x.fld R.EN_TIMING_CADENCE n) with
    | none => s
    | some g =>
      let (f, line) := x.frameLine (x.fld R.EN_TIMING_CADENCE n)
      let field := if x.flag R.EN_CFG_INTERLACED n ∧ fieldStart g.l 1 ≤ line then 1 else 0
      let at_ := if scteTimed op preMs then some (g.frame (g.boundaryFrom (g.firstFrom (g.instant (f * g.l) + preMs * msec)))) else none
      s.upd d fun x => x.modEnc n fun c => { c with
        splices := c.splices ++ [⟨x.picNo n f field, op, at_.map fun a => x.picNo n a 0, body⟩]
        spliceRaps := match at_ with | some a => if x.flag R.EN_CFG_SPLICE_RAP n then c.spliceRaps ++ [x.picNo n a 0] else c.spliceRaps | none => c.spliceRaps }

def execDeferredDeadline (d : DieId) (n : Fin 256) (s : State) : Result :=
  onDie s d (Instr.wf (.deferredDeadline d n)) (s.deferredDeadline d n)
def execRateChangeApply (d : DieId) (pool : Bool) (n : Fin 256) (s : State) : Result :=
  onDie s d (Instr.wf (.rateChangeApply d pool n)) (if pool then s.poolApply d n else s.rateApply d n)
def execScte104Message (d : DieId) (n : Fin 256) (dt : Nat) (op : Scte104) (preMs : Nat) (header body : List Byte) (s : State) : Result :=
  onDie s d (Instr.wf (.scte104Message d n dt op preMs header body)) ((s.advance dt).scte104 d n op preMs (header ++ body))

end Sys2Proof.Machine
end

