-- ==== Sys2Proof/Machine/Lanes.lean ====
section
/-! DEFINITION. Serial lanes (10_lanes.md): cable detect, acquisition and lock, power states, SDI lines, native frames, the
crosspoint, timed routes and the PLLs of the lane blocks. -/

namespace Sys2Proof.Machine

/-- A receiver is in On (R330). -/
def Die.rxOn (x : Die) (k : Nat) : Bool := x.fld R.LN_STATUS_RX_NOW k == 2
/-- A transmitter is in On. -/
def Die.txOn (x : Die) (k : Nat) : Bool := x.fld R.LN_STATUS_TX_NOW k == 2
/-- The lane is in native lane mode (R345). -/
def Die.lnNative (x : Die) (k : Nat) : Bool := x.flag R.LN_CFG_MODE k
/-- The cadence of a lane. -/
def Die.lnCad (x : Die) (k : Nat) : Nat := x.fld R.LN_CFG_CADENCE k
/-- Sets a die-wide lane event that the herdbook records with the lane (R349). -/
def State.lnRecord (s : State) (d : DieId) (f : Fld) (k : Nat) : State := s.eventCad d f 0 k ((s.die d).lnCad k) 0

/-! ### Direct routes (R338 to R342) -/

/-- The source of a direct route delivers: its receiver is in On and locked. -/
def Die.sourceUp (x : Die) (k : Nat) : Bool := x.rxOn k && x.flag R.LN_STATUS_LOCK k
/-- The transmitters with a direct route. -/
def Die.directs (x : Die) : List Nat := (x.listed R.LN_XPT_KIND 512).filter fun t => x.fld R.LN_XPT_KIND t == 1
/-- TX_MUTE of a direct route follows the lock of its source (R339). -/
def Die.lnMute (x : Die) (t : Nat) : Die := x.setFld R.LN_STATUS_TX_MUTE (b2n (!x.sourceUp (x.lane t).xptNow)) t
/-- A pending source change applies (R341). -/
def State.xptApply (s : State) (d : DieId) (t : Nat) : State :=
  match ((s.die d).lane t).xptPend with
  | some k => (s.upd d fun x => (x.modLane t fun v => { v with xptNow := k, xptPend := none }).lnMute t).event d R.LN_EVENTS_XPT_APPLIED t
  | none => s
/-- The lock of receiver `k` has changed: the direct routes from it mute or resume, and a change to a source that is not locked
applies at once. -/
def State.lnLockMoved (s : State) (d : DieId) (k : Nat) : State :=
  (s.die d).directs.foldl (fun s t =>
    let s := if ((s.die d).lane t).xptPend = some k ∧ !(s.die d).sourceUp k then s.xptApply d t else s
    if ((s.die d).lane t).xptNow = k then s.upd d fun x => x.lnMute t else s) s
/-- What an accepted write of LN_XPT makes: a change of a direct route's source is pending, or applies at once where the new
source is not locked (R341). -/
def State.xptWritten (s : State) (d : DieId) (t : Nat) : State :=
  let x := s.die d
  let k := x.fld R.LN_XPT_SOURCE t
  if x.fld R.LN_XPT_KIND t ≠ 1 then s
  else
    let s := s.upd d fun x => x.modLane t fun v => { v with xptPend := some k }
    if x.sourceUp k then s else s.xptApply d t
/-- XPT_APPLIED: the switching line, or the frame start, of the new source. -/
def State.xptApplied (s : State) (d : DieId) (t : Nat) : State :=
  if (s.die d).fld R.LN_XPT_KIND t = 1 then s.xptApply d t else s

/-! ### Lock and acquisition (R329, R332, R333) -/

/-- A member's frame in progress does not count towards rejoining (R336). -/
def Die.lnFault (x : Die) (k : Nat) : Die := x.modMem ⟨false, k⟩ fun v => if v.next.isSome then { v with fault := true } else v
/-- The receiver loses lock, or an attempt in progress loses its signal (R333, R343). -/
def State.unlock (s : State) (d : DieId) (k : Nat) : State :=
  let x := s.die d
  if !x.flag R.LN_STATUS_LOCK k && (x.lane k).attempt.isNone then s
  else
    let s := s.upd d fun x => ((((x.setFld R.LN_STATUS_LOCK 0 k).setFld R.LN_STATUS_FMT_OK 0 k).lnFault k).modLane k fun v =>
      { v with attempt := none, syncs := 0, misses := 0, lineIn := none, seqIn := [], fmtSeen := none })
    (s.event d R.LN_EVENTS_UNLOCK k).lnLockMoved d k

/-- CABLE changes after the debounce time (R332). -/
def State.cableChange (s : State) (d : DieId) (k : Nat) (cable : Bool) : State :=
  let x := s.die d
  if x.fld R.LN_STATUS_RX_NOW k = 0 ∨ x.flag R.LN_STATUS_CABLE k = cable then s
  else
    let s := s.setFld d R.LN_STATUS_CABLE (b2n cable) k
    let s := if cable then s else s.upd d fun x => x.modLane k fun v => { v with attempt := none }
    (s.event d (if cable then R.LN_EVENTS_CABLE_ON else R.LN_EVENTS_CABLE_OFF) k).lnRecord d R.LN_DIE_EVENTS_CABLE k

/-- The index of the highest figure of merit, the lowest on a tie (R329). -/
def bestFom : List Nat → Nat × Nat
  | [] => (0, 0)
  | [f] => (0, f)
  | f :: l => let r := bestFom l; if r.2 ≤ f then (0, f) else (r.1 + 1, r.2)

/-- One acquisition attempt chooses its preset (R329): `foms` are the figures of merit that the sampler measures of the presets. -/
def State.acquire (s : State) (d : DieId) (k : Nat) (foms : List Byte) : State :=
  let x := s.die d
  let n := x.fld R.LN_EQ_COUNT k + 1
  let fom (q : Nat) : Nat := (foms.getD q 0).toNat
  let low := x.fld R.LN_EQ_FOM_MIN k
  let p := ((x.lane k).stored).getD 0
  let use (s : State) (q : Nat) : State := s.upd d fun x =>
    (((x.setFld R.LN_EQ_PRESET q k).setFld R.LN_EQ_VALID 1 k).setFld R.LN_EQ_FOM (fom q) k).modLane k fun v =>
      { v with stored := some q, attempt := some s.now }
  if low ≤ fom p then use (s.setFld d R.LN_STATUS_EYE_LOW 0 k) p
  else
    let s := s.upd d fun x => (List.range 16).foldl (fun x q => x.setReg (fldAddr R.LN_FOM k (q / 4))
      (putBits (x.reg (fldAddr R.LN_FOM k (q / 4))) (8 * (q % 4) + 7) (8 * (q % 4)) (if q < n then fom q else 0))) x
    let (b, f) := bestFom ((List.range n).map fom)
    let s := if f < low then ((s.setFld d R.LN_STATUS_EYE_LOW 1 k).event d R.LN_EVENTS_EYE_LOW k).lnRecord d R.LN_DIE_EVENTS_EYE_LOW k
      else s.setFld d R.LN_STATUS_EYE_LOW 0 k
    use s b

/-- ACQUIRE: a receiver in On, without lock, starts an attempt while CABLE is 1 (R333). -/
def State.acquireStart (s : State) (d : DieId) (k : Nat) (foms : List Byte) : State :=
  let x := s.die d
  if x.rxOn k ∧ x.flag R.LN_STATUS_CABLE k ∧ !x.flag R.LN_STATUS_LOCK k ∧ (x.lane k).attempt = none then s.acquire d k foms else s

/-- The attempt in progress reaches lock; a native receiver has no format to be checked and is right at once (log entry 41). -/
def State.lock (s : State) (d : DieId) (k : Nat) : State :=
  let x := s.die d
  if (x.lane k).attempt.isSome ∧ x.rxOn k then
    let s := s.upd d fun x => ((x.setFld R.LN_STATUS_LOCK 1 k).count R.LN_LOCKS k).modLane k fun v =>
      { v with attempt := none, misses := 0, syncs := 4 }
    let s := if x.lnNative k then s.setFld d R.LN_STATUS_FMT_OK 1 k else s
    (s.event d R.LN_EVENTS_LOCK k).lnLockMoved d k
  else s

/-- ACQUIRE_TIMEOUT: an attempt ends after 400 µs, and the next one starts while CABLE is 1. -/
def State.acquireTimeout (s : State) (d : DieId) (k : Nat) (foms : List Byte) : State :=
  match ((s.die d).lane k).attempt with
  | some t => ((s.advanceTo (t + 400 * usec)).upd d fun x => x.modLane k fun v => { v with attempt := none }).acquireStart d k foms
  | none => s

/-- READAPT: lock is dropped; acquisition follows while CABLE is 1. -/
def State.readapt (s : State) (d : DieId) (k : Nat) (value : W32) : State := if bit value.toNat 0 then s.unlock d k else s

/-! ### Power states (R330, R331) -/

/-- A direction of a lane is under online BIST (R346). -/
def Die.laneBist (x : Die) (k : Nat) : Bool := x.st.slices.any fun e => e.1.kind == .lane && e.1.inst == k
def Lane.wakeOf (v : Lane) (tx : Bool) : Option (Nat × Nat) := if tx then v.wake.2 else v.wake.1
def Lane.setWake (v : Lane) (tx : Bool) (w : Option (Nat × Nat)) : Lane :=
  { v with wake := if tx then (v.wake.1, w) else (w, v.wake.2) }
/-- WAKING shows whether a direction is between states. -/
def Die.lnWaking (x : Die) (k : Nat) : Die :=
  x.setFld R.LN_STATUS_WAKING (b2n ((x.lane k).wake.1.isSome || (x.lane k).wake.2.isSome)) k

/-- A direction is in state `v` from now on. -/
def State.lnNow (s : State) (d : DieId) (k : Nat) (tx : Bool) (v : Nat) : State :=
  if tx then s.setFld d R.LN_STATUS_TX_NOW v k
  else
    let s := s.setFld d R.LN_STATUS_RX_NOW v k
    let s := if v = 2 then s else s.upd d fun x => x.lnFault k
    let s := if v = 0 then s.upd d fun x => (((x.setFld R.LN_STATUS_LOCK 0 k).setFld R.LN_STATUS_FMT_OK 0 k).setFld R.LN_STATUS_CABLE 0 k).modLane k
        fun v => { v with attempt := none, lineIn := none, seqIn := [], fmtSeen := none }
      else if v = 1 then s.upd d fun x => x.modLane k fun v => { v with attempt := none } else s
    s.lnLockMoved d k

/-- A direction is told to be in state `want`: a lower state is taken at once, a higher one after its wake (R330). -/
def State.lnPower (s : State) (d : DieId) (k : Nat) (tx bist : Bool) (want : Nat) : State :=
  let now := s.fld d (if tx then R.LN_STATUS_TX_NOW else R.LN_STATUS_RX_NOW) k
  let w : Option (Nat × Nat) :=
    if want ≤ now then none else some (want, s.now + (if now = 1 then 2 else 200) * usec + (if bist then 10 * usec else 0))
  let s := s.upd d fun x => (x.modLane k fun v => v.setWake tx w).lnWaking k
  if want < now then s.lnNow d k tx want else s

/-- What an accepted write of LN_PWR does; a wake aborts an online slice on the lane (R330, R591). -/
def State.lnPwrWritten (s : State) (d : DieId) (k : Nat) : State :=
  let x := s.die d
  let bist := x.laneBist k
  ((s.serve d .lane k).lnPower d k false bist (x.fld R.LN_PWR_RX_STATE k)).lnPower d k true bist (x.fld R.LN_PWR_TX_STATE k)

/-- WAKE_DONE: a direction ends its wake, after `dt` or at the latest when it is due. -/
def State.wakeDone (s : State) (d : DieId) (k : Nat) (tx : Bool) (dt : Nat) : State :=
  match ((s.die d).lane k).wakeOf tx with
  | some (v, t) =>
    ((s.advanceTo (min (s.now + dt) t)).upd d fun x => (x.modLane k fun v => v.setWake tx none).lnWaking k).lnNow d k tx v
  | none => s

/-- The power of a direction in 1/20 mW: its state, the rate and the two figures of R331. -/
def bandOf (kbps : Nat) : Nat :=
  if kbps ≤ 1600000 then 0 else if kbps ≤ 3200000 then 1 else if kbps ≤ 6400000 then 2 else if kbps ≤ 12800000 then 3 else 4
/-- kb/s of an SDI rate code, undivided (R317). -/
def sdiKbps (code : Nat) : Nat := [0, 1485000, 2970000, 5940000, 11880000, 23760000, 0, 0].getD code 0
def dirPower (tx : Bool) (state kbps : Nat) : Nat := match state with
  | 0 => 1
  | 1 => if tx then 60 else 80
  | _ => 20 * (if tx then [10, 13, 18, 25, 36] else [14, 18, 24, 32, 46]).getD (bandOf kbps) 0
def Die.laneKbps (x : Die) (k : Nat) : Nat := if x.lnNative k then x.fld R.LN_NRATE_KBPS k else sdiKbps (x.fld R.LN_CFG_RATE k)
/-- A PLL that a lane with a direction not Off names. -/
def Die.pllDraws (x : Die) (b : Nat) (pllB : Bool) : Bool :=
  (List.range 16).any fun i =>
    let k := 16 * b + i
    x.flag R.LN_CFG_PLL k == pllB && (x.fld R.LN_STATUS_RX_NOW k != 0 || x.fld R.LN_STATUS_TX_NOW k != 0)
/-- What LN_POWER shows, in mW rounded down (log entry 41). -/
def Die.lnPowerNow (x : Die) : Nat :=
  ((List.range 512).foldl (fun n k => n + dirPower false (x.fld R.LN_STATUS_RX_NOW k) (x.laneKbps k) + dirPower true (x.fld R.LN_STATUS_TX_NOW k) (x.laneKbps k))
    ((List.range 32).foldl (fun n b => n + 600 * (b2n (x.pllDraws b false) + b2n (x.pllDraws b true))) 0)) / 20

/-! ### SDI lines (R318 to R320) -/

/-- The audio of a line goes to the members that its ST 299 groups are; a group that is asynchronous and not declared so, or declared so
and not asynchronous, is reported (R452). -/
def State.sdiAudio (s : State) (d : DieId) (k : Nat) (line : Int) (a : LineAudio) : State :=
  let x := s.die d
  match x.auMemberOf 1 a.group k, x.grid (x.lnCad k) with
  | some r, some g =>
    let fs := x.auFs r.g
    let at_ := auFrom fs (g.instant (g.frame line * g.l)) + a.first
    let s := s.auRun d r at_ a.words a.ratio
    if a.async != (x.auConverter r).isSome then s.event d R.AU_EVENTS_ACP_MISMATCH 0 (auSource r.g r.m) else s
  | _, _ => s

/-- The verdict on the declared format (R319): a signal that does not match delivers nothing. -/
def State.sdiFormatSeen (s : State) (d : DieId) (k : Nat) (ok : Bool) : State :=
  let was := ((s.die d).lane k).fmtSeen
  let s := s.upd d fun x => (x.setFld R.LN_STATUS_FMT_OK (b2n ok) k).modLane k fun v => { v with fmtSeen := some ok }
  let s := if ok then s else s.upd d fun x => x.lnFault k
  if was = some ok ∨ (was = none ∧ ok) then s else s.event d R.LN_EVENTS_FMT_CHANGE k

/-- The declared format of a lane's receiver against the signal (R319): the ST 352 identifier where there is one, else the TRS timing
and the line count. A lane without a declaration has none to break (DESIGN CHOICE, log entry 41). -/
def Die.sdiMatches (x : Die) (d : DieId) (k : Nat) (l : SdiLine) : Bool :=
  match x.sdiFormat d k, x.grid (x.lnCad k) with
  | some b, some g => match l.seen with
    | some v => decide (v = ⟨num b 1 1, num b 2 1, num b 3 1, num b 4 2, num b 6 2, num b 8 1, x.fld R.TB_CAD_CFG_RATE (x.lnCad k)⟩)
    | none => decide (l.timing = (num b 4 2, num b 6 2, g.l))
  | _, _ => true

/-- The transmitters in On to which direct routes forward receiver `k` (R339). -/
def Die.forwards (x : Die) (k : Nat) : List Nat := x.directs.filter fun t => (x.lane t).xptNow == k && x.txOn t
/-- What receiver `k` takes leaves the transmitters of its direct routes. -/
def State.forwardLane (s : State) (d : DieId) (k : Nat) (out : Nat → Out) : State :=
  ((s.die d).forwards k).foldl (fun s t => s.send (out t)) s

/-- The stream queue that a lane's ancillary data fills (`dir` 0) or comes from (R325, log entry 41). -/
def Die.ancQueue (x : Die) (d : DieId) (k dir : Nat) : Option Nat :=
  ((x.recsOf 4 0x402).find? fun e => e.2.idx == pkgLane d k && num e.2.body 1 1 == dir && num e.2.body 2 1 == 1).map fun e => num e.2.body 4 2
/-- Bytes go into a stream queue that the device fills; what finds no room is not there (log entry 41). -/
def Die.streamPut (x : Die) (q : Nat) (bs : List Byte) : Die :=
  if x.streamRoom q < bs.length then x else x.setStream q (x.stream q ++ bs)

/-- SDI_LINE: a receiver in On and locked decodes a line. -/
def State.sdiLine (s : State) (d : DieId) (k : Nat) (l : SdiLine) : State :=
  let x := s.die d
  if x.lnNative k ∨ !x.sourceUp k then s
  else
  let s := s.forwardLane d k fun t => .sdiThrough d t k l
  let ok := x.sdiMatches d k l
  if !l.trs then
    let n := (x.lane k).misses + 1
    let s := (s.count d R.LN_CODE_ERR k).upd d fun x => x.modLane k fun v => { v with misses := n }
    if 4 ≤ n then s.unlock d k else s
  else
    let s := s.upd d fun x => x.modLane k fun v => { v with misses := 0 }
    let s := if l.number then s else s.count d R.LN_CODE_ERR k
    let s := match l.id with | some i => s.setFld d R.LN_PAYLOAD_ID i.toNat k | none => s
    let s := s.sdiFormatSeen d k ok
    let s := if l.crc then s else s.count d R.LN_CRC_ERR k
    if !ok ∨ (!l.crc ∧ x.flag R.LN_CFG_CRC_CONCEAL k) ∨ x.pertOn 1 k 0 then s
    else
      let s := s.lineIn d ⟨false, k⟩ l.line l.samples
      let s := match (s.die d).ancQueue d k 0 with | some q => s.upd d fun x => x.streamPut q l.anc | none => s
      let s := l.audio.foldl (fun s a => s.sdiAudio d k l.line a) s
      let i := x.fld R.LN_CFG_GROUP k
      let s := match l.timecode with | some tc => s.upd d fun x => x.timecodeIn i tc | none => s
      match l.colour with | some (p, t) => s.hdrCheck d ((s.die d).primaryOf i) p.toNat t.toNat | none => s

/-! ### Native lane mode (R322 to R326) -/

/-- CRC-8 of a native frame over bits [19:8] of its control word and its payload bits (R322). -/
def nativeCrc (control : W32) (payload : List Byte) : Nat :=
  ((toBits 12 (bits control.toNat 19 8)) ++ bitsOf payload).foldl (crcBit 8 0x07) 0
/-- The control word of a frame. -/
def nativeWord (type : Nat) (sof sol : Bool) (stream seq : Nat) (payload : List Byte) : W32 :=
  let w := 0xE4B * 2 ^ 20 + type * 2 ^ 18 + b2n sof * 2 ^ 17 + b2n sol * 2 ^ 16 + stream % 16 * 2 ^ 12 + seq % 16 * 2 ^ 8
  BitVec.ofNat 32 (w + nativeCrc (BitVec.ofNat 32 w) payload)

/-- The self-synchronous scrambler x^23 + x^18 + 1 (R322): `h` holds the last 23 bits sent, newest lowest. -/
def scramble : Nat → List Bool → Nat × List Bool
  | h, [] => (h, [])
  | h, b :: l =>
    let o := b ^^ bit h 22 ^^ bit h 17
    let r := scramble ((2 * h + b2n o) % 2 ^ 23) l
    (r.1, o :: r.2)
/-- The descrambler: `h` holds the last 23 bits received. -/
def descramble : Nat → List Bool → Nat × List Bool
  | h, [] => (h, [])
  | h, b :: l =>
    let r := descramble ((2 * h + b2n b) % 2 ^ 23) l
    (r.1, (b ^^ bit h 22 ^^ bit h 17) :: r.2)
/-- Bit stuffing (R323): after a run of 24 equal bits its complement, which starts a new run. `run` is the run so far. -/
def stuff : Bool × Nat → List Bool → (Bool × Nat) × List Bool
  | run, [] => (run, [])
  | run, b :: l =>
    let n := if b = run.1 then run.2 + 1 else 1
    if n = 24 then let r := stuff (!b, 1) l; (r.1, b :: (!b) :: r.2)
    else let r := stuff (b, n) l; (r.1, b :: r.2)
/-- Takes the stuffing bits away; none where the bit after 24 equal bits is not their complement. -/
def destuff : Bool × Nat → List Bool → Option ((Bool × Nat) × List Bool)
  | run, [] => some (run, [])
  | run, b :: l =>
    if run.2 = 24 then (if b = run.1 then none else destuff (b, 1) l)
    else (destuff (b, if b = run.1 then run.2 + 1 else 1) l).map fun r => (r.1, b :: r.2)

/-- The line bits of a native frame, most significant bit first, and the lane after it. -/
def Lane.wire (v : Lane) (control : W32) (payload : List Byte) : List Bool × Lane :=
  let a := scramble v.txScr (bitsOf payload)
  let b := stuff v.txRun (toBits 32 control.toNat ++ a.2)
  (b.2, { v with txScr := a.1, txRun := b.1 })
/-- The control word and the payload that line bits carry, and the lane after them; none where stuffing fails in them. -/
def Lane.unwire (v : Lane) (wire : List Bool) : Option ((W32 × List Byte) × Lane) :=
  (destuff v.rxRun wire).map fun r =>
    let a := descramble v.rxScr ((r.2.drop 32).take 2048)
    ((BitVec.ofNat 32 (ofBits (r.2.take 32)), packBits 256 a.2), { v with rxScr := a.1, rxRun := r.1 })

/-- The NATIVE_STREAM record of a sub-stream of a lane, received or sent (R325). -/
def Die.nativeStream (x : Die) (d : DieId) (k stream dir : Nat) : Option (List Byte) :=
  ((x.recsOf 4 0x402).find? fun e => e.2.idx == pkgLane d k && num e.2.body 0 1 == stream && num e.2.body 1 1 == dir).map fun e => e.2.body

/-- The payload of an accepted data frame goes to what its stream is bound to (R325). -/
def State.nativeDeliver (s : State) (d : DieId) (k stream : Nat) (sol : Bool) (line : Int) (payload : List Byte) : State :=
  let x := s.die d
  match x.nativeStream d k stream 0 with
  | none => s
  | some b =>
    if x.pertOn 1 k 0 then s else
    let target := num b 4 2
    if num b 2 1 = 0 then
      let f := x.memFmt d ⟨false, k⟩
      let cur : Option (Int × List Byte) := if sol then some (line, payload) else (x.lane k).lineIn.map fun p => (p.1, p.2 ++ payload)
      match cur with
      | none => s
      | some (m, bs) =>
        if bs.length < f.lineBytes then s.upd d fun x => x.modLane k fun v => { v with lineIn := some (m, bs) }
        else
          let s := s.upd d fun x => x.modLane k fun v => { v with lineIn := none }
          (f.linesOf (f.unpack (bs.take f.lineBytes))).zipIdx.foldl (fun s p => s.lineIn d ⟨false, k⟩ (m + (p.2 : Nat)) p.1) s
    else if num b 2 1 = 2 then
      let (g, m) := (target / 16, target % 16)
      let n := max 1 (((x.auRef g m).map fun r => r.chans).getD 1)
      let ws := (chunks (4 * n) payload.length payload).map fun c => (chunks 4 n c).map fun e => BitVec.ofNat 32 (leNat e)
      match x.auRef g m with
      | some r => s.auRun d r (auAt (x.auFs g) x.clk.now) ws (Config.memberRatio (16 * g + m) x.clk.now)
      | none => s
    else s.upd d fun x => x.streamPut target payload

/-- SEQ of a data frame: a gap is counted, and a line in progress is lost (R324). -/
def State.nativeSeq (s : State) (d : DieId) (k stream seq : Nat) : State :=
  let v := (s.die d).lane k
  let gap := match oget v.seqIn stream with | some q => seq != (q + 1) % 16 | none => false
  let s := s.upd d fun x => x.modLane k fun v => { v with seqIn := mput (fun _ => none) v.seqIn stream (some seq), lineIn := if gap then none else v.lineIn }
  if gap then s.count d R.LN_CODE_ERR k else s

/-- A native receiver takes a frame as destuffed and descrambled. -/
def State.nativeTake (s : State) (d : DieId) (k : Nat) (control : W32) (payload : List Byte) (full : Bool) (line : Int) : State :=
  let x := s.die d
  let w := control.toNat
  if bits w 31 20 ≠ 0xE4B then
    let n := (x.lane k).misses + 1
    let s := s.upd d fun x => x.modLane k fun v => { v with misses := n, lineIn := none }
    if 4 ≤ n then s.unlock d k else s
  else
    let s := s.upd d fun x => x.modLane k fun v => { v with misses := 0 }
    if bits w 7 0 ≠ nativeCrc control payload ∨ bits w 19 18 = 3 then
      (s.count d R.LN_CRC_ERR k).upd d fun x => x.modLane k fun v => { v with lineIn := none }
    else match bits w 19 18 with
      | 1 => s.count d R.LN_FILL_DEL k
      | 2 => s.setFld d R.LN_EQ_PEER ((payload.getD 0 0).toNat) k
      | _ =>
        let s := s.nativeSeq d k (bits w 15 12) (bits w 11 8)
        if full then ((s.count d R.LN_OVERFLOW k).event d R.LN_EVENTS_OVERFLOW k).upd d fun x => x.modLane k fun v => { v with lineIn := none }
        else s.nativeDeliver d k (bits w 15 12) (bit w 16) line payload

/-- The line of the station grid of a lane's cadence, counted from the epoch. -/
def Die.laneLine (x : Die) (k : Nat) (frame : Int) (line : Nat) : Int :=
  match x.grid (x.memCad ⟨false, k⟩) with
  | some g => frame * g.l + line
  | none => line

/-- NATIVE_FRAME: the line bits of a frame as they arrive; `full` says that the elastic buffer is full, `line` the line of the station
grid at which the frame's payload stands. -/
def State.nativeFrame (s : State) (d : DieId) (k : Nat) (wire : List Bool) (full : Bool) (line : Int) : State :=
  let x := s.die d
  if !x.lnNative k ∨ !x.sourceUp k then s
  else
    let s := s.forwardLane d k fun t => .nativeThrough d t k wire
    match (x.lane k).unwire wire with
    | none => (((s.upd d fun x => x.modLane k fun v => { v with rxRun := (false, 0) }).count d R.LN_CODE_ERR k).event d R.LN_EVENTS_STUFF_ERR k).unlock d k
    | some (f, v) => (s.upd d fun x => x.modLane k fun w => { w with rxScr := v.rxScr, rxRun := v.rxRun }).nativeTake d k f.1 f.2 full line

/-- A native transmitter with a timed route runs. -/
def Die.nativeTx (x : Die) (k : Nat) : Bool := x.lnNative k && x.txOn k && x.fld R.LN_XPT_KIND k == 2

/-- The DMA stream queues that a transmitter sends, with a frame's payload in one of them. -/
def Die.nativeQueued (x : Die) (d : DieId) (k : Nat) : Option (Nat × Nat) :=
  (((x.recsOf 4 0x402).filter fun e => e.2.idx == pkgLane d k && num e.2.body 1 1 == 1 && num e.2.body 2 1 % 2 == 1
    && decide (256 ≤ (x.stream (num e.2.body 4 2)).length)).map fun e => (num e.2.body 0 1, num e.2.body 4 2)).head?

/-- The next payload of a transmitter: sub-stream, SOF, SOL and bytes, and the die without it. -/
def Die.nativeNext (x : Die) (d : DieId) (k : Nat) : Option ((Nat × Bool × Bool × List Byte) × Die) :=
  match (x.lane k).txQueue with
  | e :: l => some (e, x.modLane k fun v => { v with txQueue := l })
  | [] => match x.nativeQueued d k with
    | some (st, q) => some ((st, false, false, (x.stream q).take 256), x.setStream q ((x.stream q).drop 256))
    | none => none

/-- Frames sent since the last filler frame and since the last link-control frame. -/
def Die.nativeSent (x : Die) (k : Nat) (filler link : Bool) : Die :=
  x.modLane k fun v => { v with txSince := (if filler then 0 else v.txSince.1 + 1, if link then 0 else v.txSince.2 + 1) }

/-- A native transmitter sends a frame. -/
def State.nativeSend (s : State) (d : DieId) (k : Nat) (control : W32) (payload : List Byte) : State :=
  let w := ((s.die d).lane k).wire control payload
  (s.upd d fun x => x.modLane k fun v => { v with txScr := w.2.txScr, txRun := w.2.txRun }).send (.native d k control payload w.1)

/-- NATIVE_TX_FRAME: a data frame, or a filler frame where less than a frame of payload waits or 1,023 frames had none (R326). -/
def State.nativeTxFrame (s : State) (d : DieId) (k : Nat) : State :=
  let x := s.die d
  let filler := (s.upd d fun x => (x.count R.LN_FILL_INS k).nativeSent k true false).nativeSend d k
    (nativeWord 1 false false 0 0 (List.replicate 256 0)) (List.replicate 256 0)
  if !x.nativeTx k then s
  else if 1023 ≤ (x.lane k).txSince.1 then filler
  else match x.nativeNext d k with
    | none => filler
    | some ((st, sof, sol, bs), x') =>
      let payload := bs ++ List.replicate (256 - bs.length) 0
      let seq := mget (fun _ => 0) (x.lane k).seqOut st
      (s.setDie d ((x'.modLane k fun v => { v with seqOut := mput (fun _ => 0) v.seqOut st ((seq + 1) % 16) }).nativeSent k false false)).nativeSend
        d k (nativeWord 0 sof sol st seq payload) payload

/-- LINK_CONTROL_FRAME: after 65,535 other frames, the index of the transmitter's preset (R326, R328). -/
def State.linkControl (s : State) (d : DieId) (k : Nat) : State :=
  let x := s.die d
  if !x.nativeTx k ∨ (x.lane k).txSince.2 < 65535 then s
  else
    let p := ((x.lane k).presets.findIdx fun p => p.getD 6 0 == 1) % 16
    let payload := BitVec.ofNat 8 p :: List.replicate 255 0
    (s.upd d fun x => x.nativeSent k false true).nativeSend d k (nativeWord 2 false false 0 0 payload) payload

/-! ### Timed routes (R321, R340) -/

/-- Line `y` of the picture that a timed route sends: of the member of staging input SOURCE that has the lane's link number, or of the
frame store's slot being read (R321). -/
def Die.routeLine (x : Die) (d : DieId) (k : Nat) (b : List Byte) (y : Nat) : PicLine :=
  let src := num b 2 2
  if num b 1 1 = 1 then
    let slot := x.fld R.CL_FS_STATE_READ src
    if slot < 3 then readLine x.dram.view (x.storeFmt d src) (x.storeBase src slot) y else {}
  else
    let link (j : Nat) : Nat := ((x.sdiFormat d j).map fun f => num f 8 1).getD 0
    let rs := (x.lanes.members.map fun e => (⟨decide (512 ≤ e.1), if 512 ≤ e.1 then e.1 - 512 else e.1⟩ : MemRef)).filter fun r =>
      x.memInput r == src && (r.flow || link r.i == link k)
    match rs with
    | r :: _ => x.staged r (x.memPlace d r y)
    | [] => {}

/-- The DRAM bytes that a line of such a route is read from. -/
def Die.routeReads (x : Die) (d : DieId) (b : List Byte) (y : Nat) : List (Nat × Nat) :=
  let src := num b 2 2
  let slot := x.fld R.CL_FS_STATE_READ src
  if num b 1 1 = 1 ∧ slot < 3 then ((x.storeFmt d src).spans y 1).map fun e => (x.storeBase src slot + e.1, e.2) else []

/-- Queues a line's pgroups as native frames, the first marked SOL and a picture's first SOF (R325). -/
def Die.nativeLine (x : Die) (d : DieId) (k y : Nat) (p : PicLine) : Die :=
  match ((x.recsOf 4 0x402).find? fun e => e.2.idx == pkgLane d k && num e.2.body 1 1 == 1 && num e.2.body 2 1 == 0) with
  | none => x
  | some e =>
    let f := x.memFmt d ⟨false, k⟩
    let bs := f.pack p
    let parts := chunks 256 (bs.length / 256 + 1) (bs ++ List.replicate (256 * cdiv bs.length 256 - bs.length) 0)
    x.modLane k fun v => { v with txQueue := v.txQueue ++ parts.zipIdx.map fun c => (num e.2.body 0 1, c.2 == 0 && y == 0, c.2 == 0, c.1) }

/-- Queues the audio words of a line for the native streams that send them. -/
def Die.nativeAudio (x : Die) (d : DieId) (k : Nat) (ws : List (List W32)) : Die :=
  match ((x.recsOf 4 0x402).find? fun e => e.2.idx == pkgLane d k && num e.2.body 1 1 == 1 && num e.2.body 2 1 == 2) with
  | none => x
  | some e =>
    let bs := (ws.flatMap fun w => w).flatMap fun w => natLE 4 w.toNat
    if bs.isEmpty then x
    else
      let parts := chunks 256 (bs.length / 256 + 1) (bs ++ List.replicate (256 * cdiv bs.length 256 - bs.length) 0)
      x.modLane k fun v => { v with txQueue := v.txQueue ++ parts.map fun c => (num e.2.body 0 1, false, false, c) }

/-- The channels that map entries send to a destination. -/
def Die.auChansTo (x : Die) (kind inst : Nat) : Nat :=
  ((x.listed R.AU_MAP_CFG_USED 4096).filter fun e => x.flag R.AU_MAP_CFG_USED e && x.fld R.AU_MAP_CFG_KIND e == kind &&
    x.fld R.AU_MAP_DEST_INSTANCE e == inst).foldl (fun n e => max n (x.fld R.AU_MAP_DEST_CHANNEL e + 1)) 0
/-- The embedded audio of line `m`: for each grid sample in the line the words of the lane's channels; silence while it holds. -/
def Die.lineAudio (x : Die) (k : Nat) (g : Grid) (m : Int) (hold : Bool) : List (List W32) :=
  let n := x.auChansTo 1 k
  let fs := if (x.auRefs.any fun r => x.flag R.AU_GRP_CFG_RATE96 r.g) then 96000 else 48000
  if n = 0 then []
  else
    let a := auFrom fs (g.instant m)
    (List.range (auFrom fs (g.instant (m + 1)) - a).toNat).map fun (i : Nat) =>
      (List.range n).map fun ch => if hold then 0 else x.auOut 1 k ch (auTime fs (a + (i : Int)))

/-- A timed route sends line `m`. While it holds, it repeats the last complete frame's picture, and its audio is silence. -/
def State.timedLine (s : State) (d : DieId) (k : Nat) (b : List Byte) (g : Grid) (m : Int) (hold : Bool) : State :=
  let x := s.die d
  if !x.txOn k ∨ x.fld R.LN_XPT_KIND k ≠ 2 then s
  else
    let f := x.memFmt d ⟨false, k⟩
    let at_ := (x.memRaster d ⟨false, k⟩ g.l).at_ (g.line m)
    let key := 8192 * k + g.line m
    let was : PicLine := mget (fun _ => {}) x.lanes.held key
    let p : PicLine := match (x.memRaster d ⟨false, k⟩ g.l).line (g.line m) with
      | some y => if hold then was else x.routeLine d k b y
      | none => {}
    let s := match (x.memRaster d ⟨false, k⟩ g.l).line (g.line m) with
      | some y => if hold then s else s.touchSpans d 0 (x.routeReads d b y)
      | none => s
    let q := if x.lnNative k ∨ hold then none else x.ancQueue d k 1
    let anc : List Byte := match q with | some q => x.stream q | none => if hold then mget (fun _ => []) x.lanes.heldAnc key else []
    let s := s.upd d fun x =>
      let x : Die := match q with | some q => x.setStream q [] | none => x
      ({ x with lanes := { x.lanes with
        held := if hold then x.lanes.held else mput (fun _ => {}) x.lanes.held key p
        heldAnc := if hold then x.lanes.heldAnc else mput (fun _ => []) x.lanes.heldAnc key anc } } : Die).setFld R.LN_STATUS_TX_HOLD (b2n hold) k
    let ws := x.lineAudio k g m hold
    if x.lnNative k then
      s.upd d fun x =>
        let x := match at_ with
          | none => x
          | some (j, y) =>
            if f.sampling ≠ 2 then x.nativeLine d k (j + y) p
            else if y % 2 = 0 then x
            else x.nativeLine d k (j + y - 1) (f.join (mget (fun _ => {}) x.lanes.held (key - 1)) p)
        x.nativeAudio d k ws
    else s.send (.sdi d k m (g.instantPos (m * 65536 + numS b 4 4)) p ws anc hold)

/-- A steered PLL holds at the edge of its range of 250 ppm (R316, R343): its REFCLK is taken as nominal (log entry 41). -/
def Die.steerLimit (x : Die) (k : Nat) : Die :=
  let b := k / 16
  let v := b2n (decide (250000 * 256 ≤ x.clk.servo.freq.natAbs))
  if x.flag R.LN_CFG_PLL k then (if x.flag R.LN_BLK_B_STEER b then x.setFld R.LN_BLK_B_LIMIT v b else x)
  else if x.flag R.LN_BLK_A_STEER b then x.setFld R.LN_BLK_A_LIMIT v b else x

/-- The timed routes of a die on a cadence, by lane within the die. -/
def Die.routesOn (x : Die) (d : DieId) (c : Nat) : List (Nat × List Byte) :=
  ((x.recsOf 4 0x404).filter fun e => e.2.idx / 512 == d.val && num e.2.body 0 1 == c).map fun e => (e.2.idx % 512, e.2.body)

/-- What a line pulse of cadence `c`, line `m`, does for the timed routes on it; `hold` names the lanes that hold beside those of
a cadence in a step's gap (R321). -/
def State.routePulse (s : State) (d : DieId) (c : Nat) (g : Grid) (m : Int) (hold : Nat → Bool) : State :=
  let gap := ((s.die d).cad c).inGap
  ((s.die d).routesOn d c).foldl (fun s r => (s.upd d fun x => x.steerLimit r.1).timedLine d r.1 r.2 g m (gap || hold r.1)) s

/-! ### PLLs (R348) -/

/-- A PLL of a lane block gains or loses lock; the loss is recorded with the block. -/
def State.pllLock (s : State) (d : DieId) (b : Nat) (pllB up : Bool) : State :=
  let used := (s.die d).flag (if pllB then R.LN_BLK_B_USED else R.LN_BLK_A_USED) b
  let f := if pllB then R.LN_BLK_B_LOCK else R.LN_BLK_A_LOCK
  if !used ∨ (s.die d).flag f b = up then s
  else
    let s := s.setFld d f (b2n up) b
    if up then s else s.eventRec d R.LN_DIE_EVENTS_PLL_UNLOCK 0 b

def execCableChange (d : DieId) (k : Fin 512) (dt : Nat) (cable : Bool) (s : State) : Result :=
  onDie s d (Instr.wf (.cableChange d k dt cable)) ((s.advance dt).cableChange d k cable)
def execUnlock (d : DieId) (k : Fin 512) (dt : Nat) (s : State) : Result :=
  onDie s d (Instr.wf (.unlock d k dt)) ((s.advance dt).unlock d k)
def execAcquire (d : DieId) (k : Fin 512) (dt : Nat) (foms : List Byte) (s : State) : Result :=
  onDie s d (Instr.wf (.acquire d k dt foms)) ((s.advance dt).acquireStart d k foms)
def execLock (d : DieId) (k : Fin 512) (dt : Nat) (s : State) : Result :=
  onDie s d (Instr.wf (.lock d k dt)) ((s.advance dt).lock d k)
def execAcquireTimeout (d : DieId) (k : Fin 512) (foms : List Byte) (s : State) : Result :=
  onDie s d (Instr.wf (.acquireTimeout d k foms)) (s.acquireTimeout d k foms)
def execWakeDone (d : DieId) (k : Fin 512) (tx : Bool) (dt : Nat) (s : State) : Result :=
  onDie s d (Instr.wf (.wakeDone d k tx dt)) (s.wakeDone d k tx dt)
def execSdiLine (d : DieId) (k : Fin 512) (dt : Nat) (l : SdiLine) (s : State) : Result :=
  onDie s d (Instr.wf (.sdiLine d k dt l)) ((s.advance dt).sdiLine d k l)
def execNativeFrame (d : DieId) (k : Fin 512) (dt : Nat) (control payload : List Bool) (full : Bool) (frame : Int) (line : Nat) (s : State) : Result :=
  onDie s d (Instr.wf (.nativeFrame d k dt control payload full frame line))
    ((s.advance dt).nativeFrame d k (control ++ payload) full ((s.die d).laneLine k frame line))
def execLinkControlFrame (d : DieId) (k : Fin 512) (dt : Nat) (s : State) : Result :=
  onDie s d (Instr.wf (.linkControlFrame d k dt)) ((s.advance dt).linkControl d k)
def execXptApplied (d : DieId) (k : Fin 512) (dt : Nat) (s : State) : Result :=
  onDie s d (Instr.wf (.xptApplied d k dt)) ((s.advance dt).xptApplied d k)
def execPllUnlock (d : DieId) (b : Fin 32) (pllB : Bool) (dt : Nat) (s : State) : Result :=
  onDie s d (Instr.wf (.pllUnlock d b pllB dt)) ((s.advance dt).pllLock d b pllB false)
def execPllLock (d : DieId) (b : Fin 32) (pllB : Bool) (dt : Nat) (s : State) : Result :=
  onDie s d true ((s.advance dt).pllLock d b pllB true)
def execNativeTxFrame (d : DieId) (k : Fin 512) (dt : Nat) (s : State) : Result :=
  onDie s d true ((s.advance dt).nativeTxFrame d k)

end Sys2Proof.Machine
end

