-- ==== Sys2Proof/Machine/NetFrame.lean ====
section
/-! DEFINITION. Ethernet, IP and UDP (R353 to R358): reading received frames, building sent ones, neighbours, and the reports of
group membership. Layouts that no rule of spec/ gives are those of the standards it names (log entry 45). Addresses are kept as
16 bytes, an IPv4 address as ::ffff:a.b.c.d (R84). -/

namespace Sys2Proof.Machine

/-! ### Sums and addresses -/

/-- The ones'-complement sum of bytes taken as 16-bit words. -/
def onesSum : List Byte → Nat
  | a :: b :: l => onesAdd (a.toNat * 256 + b.toNat) (onesSum l)
  | [a] => a.toNat * 256
  | [] => 0
/-- The big-endian number in `n` bytes from `off` on. -/
def be (b : List Byte) (off n : Nat) : Nat := beNat (subBytes b off n)
/-- `n` bytes of 0. -/
def pad (n : Nat) : List Byte := List.replicate n 0
/-- An IPv4 address in 16 bytes. -/
def mapped (a : List Byte) : List Byte := pad 10 ++ [0xFF, 0xFF] ++ a
/-- An address is an IPv4 address. -/
def isV4 (a : List Byte) : Bool := a.take 12 == pad 10 ++ [0xFF, 0xFF]
/-- The last four bytes of an address. -/
def v4 (a : List Byte) : List Byte := a.drop 12
/-- A multicast address. -/
def isMcast (a : List Byte) : Bool :=
  if isV4 a then decide (224 ≤ be a 12 1 ∧ be a 12 1 < 240) else be a 0 1 == 255
/-- The MAC address of a multicast group (R357, IEEE 802 mapping). -/
def mcastMac (a : List Byte) : List Byte :=
  if isV4 a then [0x01, 0x00, 0x5E, BitVec.ofNat 8 (be a 13 1 % 128)] ++ subBytes a 14 2 else [0x33, 0x33] ++ subBytes a 12 4

/-! ### Received frames -/

/-- A received frame as far as its Ethernet header. -/
structure EthFrame where
  dst : List Byte
  src : List Byte
  /-- VLAN ID, 0 for an untagged frame -/
  vlan : Nat
  etype : Nat
  /-- where the payload starts -/
  at_ : Nat
  deriving DecidableEq, Repr

/-- Reads the Ethernet header of a frame. -/
def ethOf (b : List Byte) : EthFrame :=
  if be b 12 2 = 0x8100 then ⟨b.take 6, subBytes b 6 6, be b 14 2 % 4096, be b 16 2, 18⟩
  else ⟨b.take 6, subBytes b 6 6, 0, be b 12 2, 14⟩

/-- A UDP datagram of a frame. -/
structure Udp where
  src : List Byte
  dst : List Byte
  sport : Nat
  dport : Nat
  /-- it stands in a fragment, in an IPv4 packet with options, or fails a checksum (R356) -/
  bad : Bool
  /-- where its UDP header starts in the frame -/
  at_ : Nat
  payload : List Byte
  deriving DecidableEq, Repr

/-- Reads the UDP datagram of a frame, if it carries one. -/
def udpOf (b : List Byte) (e : EthFrame) : Option Udp :=
  let h := e.at_
  let make (src dst pseudo : List Byte) (u : Nat) (bad zeroOk : Bool) : Udp :=
    let n := be b (u + 4) 2
    let seg := subBytes b u n
    let sum := if be b (u + 6) 2 = 0 then !zeroOk else onesSum (pseudo ++ natBE 4 n ++ [0, 0, 0, 17] ++ seg) != 65535
    ⟨src, dst, be b u 2, be b (u + 2) 2, bad || decide (n < 8 ∨ seg.length < n) || sum, u, seg.drop 8⟩
  if e.etype = 0x0800 ∧ be b h 1 / 16 = 4 ∧ be b (h + 9) 1 = 17 then
    let ihl := be b h 1 % 16 * 4
    let frag := be b (h + 6) 2 % 0x4000 != 0
    some (make (mapped (subBytes b (h + 12) 4)) (mapped (subBytes b (h + 16) 4)) (subBytes b (h + 12) 8) (h + ihl)
      (frag || ihl != 20 || onesSum (subBytes b h 20) != 65535) true)
  else if e.etype = 0x86DD ∧ be b h 1 / 16 = 6 ∧ be b (h + 6) 1 = 17 then
    some (make (subBytes b (h + 8) 16) (subBytes b (h + 24) 16) (subBytes b (h + 8) 32) (h + 40) false false)
  else none

/-- The frame is an IP fragment, or an IPv4 packet with options, towards UDP (R356). -/
def udpFragment (b : List Byte) (e : EthFrame) : Bool := e.etype == 0x86DD && be b (e.at_ + 6) 1 == 44

/-! ### Building frames -/

/-- An Ethernet header, tagged where the VLAN is not 0. -/
def ethHead (dst src : List Byte) (vlan pcp etype : Nat) : List Byte :=
  dst ++ src ++ (if vlan = 0 then [] else natBE 2 0x8100 ++ natBE 2 (pcp * 8192 + vlan)) ++ natBE 2 etype
/-- A frame without its FCS, padded to the least size (R353). -/
def ethPad (b : List Byte) : List Byte := b ++ pad (60 - b.length)

/-- What an IP packet takes from its flow or from the control thread that sends it. -/
structure IpSend where
  src : List Byte
  dst : List Byte
  dscp : Nat
  ttl : Nat
  /-- Identification, or flow label -/
  id : Nat
  deriving DecidableEq, Repr

/-- An IP packet with its header: IPv4 with DF and no options, or IPv6 (R356); `opt` is the router-alert option of a report. -/
def ipPacket (p : IpSend) (proto : Nat) (opt body : List Byte) : List Byte :=
  if isV4 p.dst then
    let h (sum : Nat) : List Byte := natBE 2 ((0x45 + opt.length / 4) * 256 + p.dscp * 4) ++ natBE 2 (20 + opt.length + body.length) ++
      natBE 2 (p.id % 65536) ++ natBE 2 0x4000 ++ natBE 2 (p.ttl * 256 + proto) ++ natBE 2 sum ++ v4 p.src ++ v4 p.dst ++ opt
    h (65535 - onesSum (h 0)) ++ body
  else
    natBE 4 (6 * 2 ^ 28 + p.dscp * 2 ^ 22 + p.id % 2 ^ 20) ++ natBE 2 (opt.length + body.length) ++
      natBE 2 ((if opt.isEmpty then proto else 0) * 256 + p.ttl) ++ p.src ++ p.dst ++ opt ++ body
/-- The EtherType of a packet to an address. -/
def ipType (dst : List Byte) : Nat := if isV4 dst then 0x0800 else 0x86DD
/-- The pseudo header of a checksum. -/
def pseudo (p : IpSend) (proto n : Nat) : List Byte :=
  (if isV4 p.dst then v4 p.src ++ v4 p.dst else p.src ++ p.dst) ++ natBE 4 n ++ natBE 4 proto
/-- A UDP datagram; its checksum is computed, or zero where an IPv4 flow declares it so (R356). -/
def udpSegment (p : IpSend) (sport dport : Nat) (zero : Bool) (body : List Byte) : List Byte :=
  let n := 8 + body.length
  let h (sum : Nat) : List Byte := natBE 2 sport ++ natBE 2 dport ++ natBE 2 n ++ natBE 2 sum ++ body
  let c := 65535 - onesSum (pseudo p 17 n ++ h 0)
  h (if zero ∧ isV4 p.dst then 0 else if c = 0 then 65535 else c)

/-! ### Sub-ports and neighbours (R357) -/

def Die.port (x : Die) (sp : Nat) : SubPort := mget (fun _ => {}) x.nw.ports sp
def Die.modPort (x : Die) (sp : Nat) (f : SubPort → SubPort) : Die :=
  { x with nw := { x.nw with ports := mmod (fun _ => {}) x.nw.ports sp f } }
/-- The SUBPORT record of a sub-port: MAC, VLANS, UNTAGGED, IPV4, IPV6 and the VLAN IDs. -/
def Die.spBody (x : Die) (sp : Nat) : List Byte := (x.bodyOf 6 0x601 sp).getD []
def Die.spMac (x : Die) (sp : Nat) : List Byte := subBytes (x.spBody sp) 0 6
def Die.spV4 (x : Die) (sp : Nat) : List Byte := subBytes (x.spBody sp) 8 4
def Die.spV6 (x : Die) (sp : Nat) : List Byte := subBytes (x.spBody sp) 12 16
/-- The sub-port's address towards an address. -/
def Die.spAddr (x : Die) (sp : Nat) (dst : List Byte) : List Byte := if isV4 dst then mapped (x.spV4 sp) else x.spV6 sp
/-- The sub-port takes frames of a VLAN; 0 is untagged (R355 step 2). -/
def Die.spVlan (x : Die) (sp v : Nat) : Bool :=
  let b := x.spBody sp
  if v = 0 then num b 7 1 == 1 else (List.range (num b 6 1)).any fun i => num b (28 + 2 * i) 2 == v

/-- A frame that a control thread sends leaves at once: no record of R84 names a queue of a control thread (log entry 44). -/
def State.ctrlSend (s : State) (d : DieId) (sp : Nat) (b : List Byte) : State :=
  if s.fld d R.NW_SP_STATUS_LINK sp = 1 then (s.count d R.NW_SP_TX_FRAMES sp).send (.frame d sp (ethPad b) false)
  else s.count d R.NW_SP_TX_DISCARD sp

/-- The MAC address of a neighbour. -/
def Die.neighbour (x : Die) (sp : Nat) (ip : List Byte) : Option (List Byte) :=
  let m : List Byte := mget (fun _ => []) (x.port sp).neigh (beNat ip)
  if m.isEmpty then none else some m
/-- The neighbour cache learns an address. -/
def Die.learn (x : Die) (sp : Nat) (ip mac : List Byte) : Die :=
  x.modPort sp fun p => { p with neigh := mput (fun _ => []) p.neigh (beNat ip) mac, asked := p.asked.erase (beNat ip) }

/-- An ARP packet: operation, sender and target. -/
def arpPacket (op : Nat) (sha spa tha tpa : List Byte) : List Byte :=
  natBE 2 1 ++ natBE 2 0x0800 ++ [6, 4] ++ natBE 2 op ++ sha ++ spa ++ tha ++ tpa
/-- An ICMPv6 message with its checksum. -/
def icmp6 (p : IpSend) (body : List Byte) : List Byte :=
  patch body 2 (natBE 2 (65535 - onesSum (pseudo p 58 body.length ++ body)))

/-- Asks for a neighbour's MAC address, once until it answers. -/
def State.askNeighbour (s : State) (d : DieId) (sp vlan : Nat) (ip : List Byte) : State :=
  let x := s.die d
  if (x.port sp).asked.contains (beNat ip) then s
  else
    let s := s.upd d fun x => x.modPort sp fun p => { p with asked := p.asked ++ [beNat ip] }
    if isV4 ip then
      s.ctrlSend d sp (ethHead (List.replicate 6 0xFF) (x.spMac sp) vlan 0 0x0806 ++ arpPacket 1 (x.spMac sp) (x.spV4 sp) (pad 6) (v4 ip))
    else
      let dst : List Byte := [0xFF, 0x02] ++ pad 9 ++ [1, 0xFF] ++ ip.drop 13
      let p : IpSend := ⟨x.spV6 sp, dst, 0, 255, 0⟩
      s.ctrlSend d sp (ethHead (mcastMac dst) (x.spMac sp) vlan 0 0x86DD ++
        ipPacket p 58 [] (icmp6 p ([135, 0, 0, 0] ++ pad 4 ++ ip ++ [1, 1] ++ x.spMac sp)))

/-- Control threads answer ARP for the sub-port's address and learn from what is sent to it. -/
def State.arpIn (s : State) (d : DieId) (sp : Nat) (e : EthFrame) (b : List Byte) : State :=
  let x := s.die d
  let a := b.drop e.at_
  let sha := subBytes a 8 6
  let spa := subBytes a 14 4
  if subBytes a 24 4 ≠ x.spV4 sp then s
  else
    let s := s.upd d fun x => x.learn sp (mapped spa) sha
    if be a 6 2 = 1 then
      s.ctrlSend d sp (ethHead sha (x.spMac sp) e.vlan 0 0x0806 ++ arpPacket 2 (x.spMac sp) (x.spV4 sp) sha spa)
    else s

/-- Control threads answer ND for the sub-port's address and learn from what they hear. -/
def State.ndIn (s : State) (d : DieId) (sp : Nat) (e : EthFrame) (b : List Byte) : State :=
  let x := s.die d
  let m := b.drop (e.at_ + 40)
  let src := subBytes b (e.at_ + 8) 16
  let target := subBytes m 8 16
  let opt (t : Nat) : Option (List Byte) := if be m 24 1 = t ∧ be m 25 1 = 1 then some (subBytes m 26 6) else none
  if be m 0 1 = 135 ∧ target = x.spV6 sp then
    let s := match opt 1 with | some mac => s.upd d fun x => x.learn sp src mac | none => s
    let dad := src == pad 16
    let dst : List Byte := if dad then [0xFF, 0x02] ++ pad 13 ++ [1] else src
    let p : IpSend := ⟨x.spV6 sp, dst, 0, 255, 0⟩
    s.ctrlSend d sp (ethHead (if dad then mcastMac dst else e.src) (x.spMac sp) e.vlan 0 0x86DD ++
      ipPacket p 58 [] (icmp6 p ([136, 0, 0, 0] ++ natBE 4 (if dad then 0x20000000 else 0x60000000) ++ target ++ [2, 1] ++ x.spMac sp)))
  else if be m 0 1 = 136 then match opt 2 with | some mac => s.upd d fun x => x.learn sp target mac | none => s
  else s

/-! ### Group membership (R358) -/

/-- The paths of a RX_FLOW record: sub-port, VLAN, UDP port, destination and source. -/
structure RxPath where
  sp : Nat
  vlan : Nat
  port : Nat
  dst : List Byte
  src : List Byte
  deriving DecidableEq, Repr
def rxPaths (b : List Byte) : List RxPath :=
  (chunks 40 (num b 1 1) (b.drop 24)).map fun p => ⟨num p 0 1, num p 2 2, num p 4 2, subBytes p 8 16, subBytes p 24 16⟩

/-- The groups of the receive paths on a sub-port among sections of a plan, each once: group and source. -/
def groupsIn (ss : List Sect) (sp : Nat) : List (List Byte × List Byte) :=
  (((ss.filter fun e => e.ty == 6).flatMap fun e => (e.recs.filter fun r => r.kind == 0x602).flatMap fun r => rxPaths r.body).filter fun p =>
    p.sp == sp && isMcast p.dst).foldl (fun l p => if l.contains (p.dst, p.src) then l else l ++ [(p.dst, p.src)]) []

/-- The records of reports: `any` for groups with any source, `only` for groups with a declared source. -/
def reportRecs (any only : Nat) (gs : List (List Byte × List Byte)) : List (Nat × List Byte × List Byte) :=
  gs.map fun g => (if g.2 == pad 16 then any else only, g.1, g.2)

/-- Sends a membership report: IGMPv3 for the IPv4 groups and MLDv2 for the others, EXCLUDE with no source, or INCLUDE. -/
def State.sendReport (s : State) (d : DieId) (sp : Nat) (recs : List (Nat × List Byte × List Byte)) : State :=
  let x := s.die d
  let enc (v : Bool) : List Byte := (recs.filter fun r => isV4 r.2.1 == v).flatMap fun r =>
    let srcs : List Byte := if r.2.2 == pad 16 then [] else if v then v4 r.2.2 else r.2.2
    [BitVec.ofNat 8 r.1, 0] ++ natBE 2 (b2n (!srcs.isEmpty)) ++ (if v then v4 r.2.1 else r.2.1) ++ srcs
  let n (v : Bool) : Nat := (recs.filter fun r => isV4 r.2.1 == v).length
  let s := if n true = 0 then s else
    let body : List Byte := [0x22, 0, 0, 0, 0, 0] ++ natBE 2 (n true) ++ enc true
    let p : IpSend := ⟨mapped (x.spV4 sp), mapped [224, 0, 0, 22], 48, 1, Config.ctrlId s.outbox.length⟩
    s.ctrlSend d sp (ethHead (mcastMac p.dst) (x.spMac sp) 0 0 0x0800 ++ ipPacket p 2 [0x94, 4, 0, 0] (patch body 2 (natBE 2 (65535 - onesSum body))))
  if n false = 0 then s
  else
    let body : List Byte := [143, 0, 0, 0, 0, 0] ++ natBE 2 (n false) ++ enc false
    let p : IpSend := ⟨x.spV6 sp, [0xFF, 0x02] ++ pad 13 ++ [0x16], 48, 1, 0⟩
    s.ctrlSend d sp (ethHead (mcastMac p.dst) (x.spMac sp) 0 0 0x86DD ++ ipPacket p 58 [58, 0, 5, 2, 0, 0, 1, 0] (icmp6 p body))

/-- A plan that names groups is admitted: two unsolicited reports, 1 s apart. -/
def State.joinGroups (s : State) (d : DieId) (ss : List Sect) : State :=
  (List.range 8).foldl (fun s sp =>
    let old := groupsIn (s.die d).live sp
    let recs := reportRecs 4 3 ((groupsIn (ss.filter fun e => e.on d) sp).filter fun g => !old.contains g)
    if recs.isEmpty then s
    else (s.sendReport d sp recs).upd d fun x => x.modPort sp fun p => { p with reports := p.reports ++ [⟨s.now + second, false, recs⟩] }) s
/-- A switch leaves groups unused: a leave report. -/
def State.leaveGroups (s : State) (d : DieId) (old : List Sect) : State :=
  (List.range 8).foldl (fun s sp =>
    let now := groupsIn (s.die d).live sp
    let gone := (groupsIn (old.filter fun e => e.on d) sp).filter fun g => !now.contains g
    let recs : List (Nat × List Byte × List Byte) := gone.map fun g => (if g.2 == pad 16 then 3 else 6, g.1, g.2)
    if recs.isEmpty then s else s.sendReport d sp recs) s

/-- A query is received: a report within its maximum response time. -/
def State.queryIn (s : State) (d : DieId) (sp maxTime : Nat) : State :=
  let recs := reportRecs 2 1 (groupsIn (s.die d).live sp)
  if recs.isEmpty then s
  else s.upd d fun x => x.modPort sp fun p => { p with reports := p.reports ++ [⟨s.now + maxTime, true, recs⟩] }

/-- MEMBERSHIP_REPORT: the report of a sub-port that is due first is sent; the answer to a query may come earlier. -/
def State.reportDue (s : State) (d : DieId) (sp dt : Nat) : State :=
  match ((s.die d).port sp).reports with
  | [] => s
  | r :: l =>
    let first := l.foldl (fun (b r : McReport) => if r.due < b.due then r else b) r
    let t := if first.query then min (s.now + dt) first.due else first.due
    let s := s.advanceTo t
    (s.upd d fun x => x.modPort sp fun p => { p with reports := p.reports.erase first }).sendReport d sp first.recs

/-- A control thread takes a frame from the control queue (R357, R358). -/
def State.ctrlFrame (s : State) (d : DieId) (sp : Nat) (b : List Byte) : State :=
  let e := ethOf b
  if e.etype = 0x0806 then s.arpIn d sp e b
  else if e.etype = 0x86DD ∧ be b (e.at_ + 6) 1 = 58 then s.ndIn d sp e b
  else if e.etype = 0x0800 ∧ be b (e.at_ + 9) 1 = 2 then
    let m := b.drop (e.at_ + be b e.at_ 1 % 16 * 4)
    let c := be m 1 1
    let t := if c < 128 then c else (c % 16 + 16) * 2 ^ (c / 16 % 8 + 3)
    if be m 0 1 = 0x11 then s.queryIn d sp (t * 100 * msec) else s
  else if e.etype = 0x86DD ∧ be b (e.at_ + 6) 1 = 0 ∧ be b (e.at_ + 40) 1 = 58 ∧ be b (e.at_ + 48) 1 = 130 then
    let c := be b (e.at_ + 52) 2
    s.queryIn d sp ((if c < 32768 then c else (c % 4096 + 4096) * 2 ^ (c / 4096 % 8 + 3)) * msec)
  else s

def execMembershipReport (d : DieId) (sp : Fin 8) (dt : Nat) (s : State) : Result :=
  onDie s d (Instr.wf (.membershipReport d sp dt)) (s.reportDue d sp dt)

end Sys2Proof.Machine
end

