-- ==== Sys2Proof/Machine/Ptp.lean ====
section
/-! DEFINITION. The PTP engine of a die (R375 to R377): masters, the best of them, Sync, Delay_Req and Delay_Resp, and the samples
that the servo takes (R48). Message layouts are those of IEEE 1588-2019 and SMPTE ST 2059-2 (log entry 45). -/

namespace Sys2Proof.Machine

def Die.modPtp (x : Die) (f : Ptp → Ptp) : Die := { x with nw := { x.nw with ptp := f x.nw.ptp } }

/-- The servo of the die that PTP feeds: the backup's measuring servo of die 1 while DIE0 is its source (R62). -/
def State.ptpBackup (s : State) (d : DieId) : Bool := d == 1 && s.fld 1 R.TB_MODE_BACKUP == 1 && s.source 1 == 3
/-- A time stamp: the clock that the servo disciplines, at a resolution of 0.5 ns (R375), in 2^-16 ns. -/
def State.ptpNow (s : State) (d : DieId) : Int :=
  (((s.die d).clk.now : Int) + (if s.ptpBackup d then (s.die d).clk.backup.model else 0)) / 32768 * 32768

/-- The origin time stamp of a message: seconds and nanoseconds. -/
def ptpTime (m : List Byte) : Int := ((be m 34 6 * second + be m 40 4 * nsec : Nat) : Int)
/-- The correctionField. -/
def ptpCorr (m : List Byte) : Int := sgn 64 (be m 8 8)

/-- Supervisor time of an interval of log2 seconds. -/
def ptpInterval (l : Int) : Nat := if 0 ≤ l then second * 2 ^ (min l 16).toNat else second / 2 ^ (min (-l) 16).toNat

/-- The value of a PTP message's length range check: the least length of its type (R377, R378). -/
def ptpLeast : Nat → Nat
  | 0 => 44 | 1 => 44 | 2 => 54 | 3 => 54 | 8 => 44 | 9 => 54 | 0xA => 54 | 0xB => 64 | 0xC => 44 | 0xD => 48 | _ => 34
/-- The header of a message passes its checks: version and length. -/
def ptpValid (m : List Byte) : Bool :=
  be m 1 1 % 16 == 2 && decide (ptpLeast (be m 0 1 % 16) ≤ be m 2 2 ∧ be m 2 2 ≤ m.length)

/-! ### Masters (R377) -/

/-- What an Announce message compares by: priorities, class, accuracy, variance, identity, steps removed and the sender. -/
def ptpRank (m : List Byte) : Nat := beNat (subBytes m 47 16 ++ subBytes m 20 10)
/-- A master is qualified: two Announce messages within four intervals. -/
def PtpMaster.qualified (v : PtpMaster) (now : Nat) : Bool :=
  decide (2 ≤ (v.heard.filter fun t => decide (now ≤ t + 4 * ptpInterval v.interval)).length)
/-- The best of the qualified masters. -/
def bestMaster (now : Nat) (l : List PtpMaster) : Option PtpMaster :=
  (l.filter fun v => v.qualified now).foldl (fun b v => match b with | none => some v | some b => if v.rank < b.rank then some v else some b) none
/-- The selected master. -/
def Ptp.master (p : Ptp) : Option PtpMaster := p.sel.bind fun i => p.foreign.find? fun v => v.port == i

/-- A master is selected, or none: its data in the registers, and GM_CHANGE where the grandmaster changes (R377). -/
def State.ptpSelect (s : State) (d : DieId) (v : Option PtpMaster) : State :=
  let x := s.die d
  let gm (v : Option PtpMaster) : Option (List Byte) := v.map fun v => subBytes v.body 19 8
  let was := x.nw.ptp.master
  let p0 := x.nw.ptp.sel
  let s := s.upd d fun x => x.modPtp fun p =>
    { p with sel := v.map fun v => v.port
             sync := if p.sel == v.map (fun v => v.port) then p.sync else none
             req := if p.sel == v.map (fun v => v.port) then p.req else none
             mpd := if p.sel == v.map (fun v => v.port) then p.mpd else none
             ms := if p.sel == v.map (fun v => v.port) then p.ms else none }
  let s := if p0 = v.map (fun v => v.port) then s else s.upd d fun x => x.modServo false fun v => { v with measure := none }
  let b := (v.map fun v => v.body).getD []
  let s := ((s.setFld d R.NW_PTP_STATUS_MASTER (b2n v.isSome)).setFld d R.NW_PTP_STATUS_CLASS (be b 14 1)).setFld d R.NW_PTP_STATUS_TWO_STEP
    (if v.isSome then s.fld d R.NW_PTP_STATUS_TWO_STEP else 0)
  let s := (s.setFld d R.NW_PTP_GM_HI (be b 19 4)).setFld d R.NW_PTP_GM_LO (be b 23 4)
  if v.isSome ∧ gm v ≠ gm was then s.eventRec d R.NW_EVENTS_GM_CHANGE 0 (s.fld d R.NW_PTP_CFG_SUBPORT) 0 else s

/-- An Announce message, from any master. -/
def State.ptpAnnounce (s : State) (d : DieId) (e : EthFrame) (u : Udp) (m : List Byte) : State :=
  if 255 ≤ be m 61 2 then s
  else
    let id := subBytes m 20 10
    let p := (s.die d).nw.ptp
    let heard := s.now :: ((p.foreign.find? fun v => v.port == id).map fun v => v.heard.take 3).getD []
    let v : PtpMaster := ⟨id, ptpRank m, heard, subBytes m 34 30, sgn 8 (be m 33 1), e.src, u.src⟩
    let l := (p.foreign.filter fun w => w.port != id) ++ [v]
    let s := s.upd d fun x => x.modPtp fun p => { p with foreign := l }
    s.ptpSelect d (bestMaster s.now l)

/-- The announce receipt timeout: three announce intervals (ST 2059-2). -/
def Die.announceDue (x : Die) : Option Nat :=
  x.nw.ptp.master.bind fun v => v.heard.head?.map fun t => t + 3 * ptpInterval v.interval
/-- ANNOUNCE_TIMEOUT: the selected master is lost, and its loss counts as loss of the reference (R48). -/
def State.announceTimeout (s : State) (d : DieId) : State :=
  match (s.die d).announceDue, (s.die d).nw.ptp.sel with
  | some t, some id =>
    let s := s.advanceTo t
    let backup := s.ptpBackup d
    let l := (s.die d).nw.ptp.foreign.filter fun v => v.port != id
    let s := (s.upd d fun x => x.modPtp fun p => { p with foreign := l }).ptpSelect d (bestMaster s.now l)
    if backup ∨ s.source d = 1 then s.servoLoss d backup else s
  | _, _ => s

/-! ### Samples (R48, R376) -/

/-- A Sync is complete: `ms` is its arrival less its origin and corrections, `t2` its arrival and `sup` that instant of supervisor
time. The master's frequency is measured (R57), and the Sync gives one sample, with the mean path delay of the latest exchange. -/
def State.ptpSample (s : State) (d : DieId) (t2 : Int) (sup : Nat) (ms : Int) : State :=
  let x := s.die d
  let s := s.upd d fun x => x.modPtp fun p => { p with ms := some ms, sync := none }
  let backup := s.ptpBackup d
  if !backup ∧ s.source d ≠ 1 then s
  else
    let s := if backup then s else s.refFreq d (t2 - ms) sup
    match x.nw.ptp.mpd with
    | none => s
    | some mpd =>
      if !backup ∧ (s.die d).unfollowed then s
      else
        let asym : Int := sgn 32 (x.fld R.NW_SP_ASYM (x.fld R.NW_PTP_CFG_SUBPORT))
        (s.count d R.NW_PTP_SAMPLES).refSample d backup 1 ((asym + mpd - ms) / 4096)

/-- A Sync of the selected master: one-step, or waiting for its Follow_Up. -/
def State.ptpSync (s : State) (d : DieId) (m : List Byte) : State :=
  let two := bit (be m 6 1) 1
  let t2 := s.ptpNow d
  let s := s.setFld d R.NW_PTP_STATUS_TWO_STEP (b2n two)
  if two then s.upd d fun x => x.modPtp fun p => { p with sync := some ⟨be m 30 2, t2, ptpCorr m, s.now⟩ }
  else s.ptpSample d t2 s.now (t2 - ptpTime m - ptpCorr m)
/-- A Follow_Up completes the Sync of its sequence. -/
def State.ptpFollow (s : State) (d : DieId) (m : List Byte) : State :=
  match (s.die d).nw.ptp.sync with
  | some y => if y.seq = be m 30 2 then s.ptpSample d y.arrival y.sup (y.arrival - ptpTime m - y.corr - ptpCorr m) else s
  | none => s

/-- Rounds to the 32-bit range of a register. -/
def sat32 (v : Int) : Nat := unsgn 32 (max (-(2 ^ 31)) (min (2 ^ 31 - 1) v))

/-- A Delay_Resp to this engine's request: the mean path delay, and the interval it states. -/
def State.ptpResp (s : State) (d : DieId) (m : List Byte) : State :=
  let x := s.die d
  let s := s.upd d fun x => x.modPtp fun p => { p with reqLog := sgn 8 (be m 33 1) }
  match x.nw.ptp.req, x.nw.ptp.ms with
  | some (q, t3), some ms =>
    if q ≠ be m 30 2 then s
    else
      let mpd := (ms + (ptpTime m - t3 - ptpCorr m)) / 2
      (s.upd d fun x => x.modPtp fun p => { p with mpd := some mpd, req := none }).setFld d R.NW_PTP_MPD (sat32 (mpd / 4096))
  | _, _ => s

/-- The port identity of the engine: the clock identity of its MAC address and port 1. -/
def Die.ptpIdentity (x : Die) : List Byte :=
  let mac := x.spMac (x.fld R.NW_PTP_CFG_SUBPORT)
  mac.take 3 ++ [0xFF, 0xFE] ++ mac.drop 3 ++ [0, 1]

/-- A frame rate in the synchronisation metadata is the rate code's. -/
def rateIs (code n d : Nat) : Bool := match rateOf code with | some (a, b) => a * d == n * b | none => false

/-- A management message of the selected master: its synchronisation metadata TLV declares a frame rate (R57, cause 4). -/
def State.ptpManage (s : State) (d : DieId) (m : List Byte) : State :=
  let t := m.drop 48
  let code := ((s.die d).bodyOf 6 0x605 0).map fun b => num b 4 1
  if be t 0 2 = 3 ∧ be t 4 3 = 0x6897E8 ∧ be t 7 3 = 1 ∧ s.source d = 1 then
    match code with
    | some c => s.judge d [4] (if c = 0 ∨ rateIs c (be t 10 4) (be t 14 4) then [] else [4])
    | none => s
  else s

/-- A PTP message for the engine (R377): another domain, version or length, or another master than the selected one, is counted
and dropped. -/
def State.ptpIn (s : State) (d : DieId) (e : EthFrame) (u : Udp) : State :=
  let m := u.payload
  let x := s.die d
  let ty := be m 0 1 % 16
  let drop := s.count d R.NW_PTP_DROPPED
  if !ptpValid m ∨ be m 4 1 ≠ x.fld R.NW_PTP_CFG_DOMAIN then drop
  else if ty = 0xB then s.ptpAnnounce d e u m
  else if x.nw.ptp.sel ≠ some (subBytes m 20 10) then drop
  else match ty with
    | 0 => s.ptpSync d m
    | 8 => s.ptpFollow d m
    | 9 => if subBytes m 44 10 = x.ptpIdentity then s.ptpResp d m else s
    | 0xD => s.ptpManage d m
    | _ => s

/-- DELAY_REQ: the engine sends one at its interval while a master is selected, multicast, or unicast in mixed mode. -/
def State.delayReq (s : State) (d : DieId) : State :=
  match (s.die d).nw.ptp.master with
  | none => s
  | some v =>
    let s := s.advanceTo ((s.die d).nw.ptp.reqAt + ptpInterval (s.die d).nw.ptp.reqLog)
    let x := s.die d
    let p := x.nw.ptp
    let sp := x.fld R.NW_PTP_CFG_SUBPORT
    let group : List Byte := if isV4 v.ip then mapped [224, 0, 1, 129] else [0xFF, 0x0E] ++ pad 12 ++ [1, 0x81]
    let dst := if x.flag R.NW_PTP_CFG_MIXED then v.ip else group
    let mac := if x.flag R.NW_PTP_CFG_MIXED then v.mac else mcastMac group
    let msg : List Byte := [1, 2] ++ natBE 2 44 ++ [BitVec.ofNat 8 (x.fld R.NW_PTP_CFG_DOMAIN), 0] ++ (if x.flag R.NW_PTP_CFG_MIXED then [4, 0] else [0, 0]) ++
      pad 12 ++ x.ptpIdentity ++ natBE 2 p.reqSeq ++ [1, 0x7F] ++ pad 10
    let ip : IpSend := ⟨x.spAddr sp dst, dst, 46, 64, Config.ctrlId s.outbox.length⟩
    let t3 := s.ptpNow d
    let s := s.upd d fun x => x.modPtp fun p => { p with req := some (p.reqSeq, t3), reqSeq := (p.reqSeq + 1) % 65536, reqAt := s.now }
    s.ctrlSend d sp (ethHead mac (x.spMac sp) 0 0 (ipType dst) ++ ipPacket ip 17 [] (udpSegment ip 319 319 false msg))

def execAnnounceTimeout (d : DieId) (s : State) : Result := onDie s d (Instr.wf (.announceTimeout d)) (s.announceTimeout d)
def execDelayReq (d : DieId) (s : State) : Result := onDie s d (Instr.wf (.delayReq d)) (s.delayReq d)

end Sys2Proof.Machine
end

