-- ==== Sys2Proof/Machine/NetRx.lean ====
section
/-! DEFINITION. Received frames (R355 to R374, R378): classification, the merge of paths, the essence engines, decode inputs,
forwarding with cut-through, and links. -/

namespace Sys2Proof.Machine

def Die.rx (x : Die) (f : Nat) : RxFlow := mget (fun _ => {}) x.nw.rx f
def Die.modRx (x : Die) (f : Nat) (g : RxFlow → RxFlow) : Die :=
  { x with nw := { x.nw with rx := mmod (fun _ => {}) x.nw.rx f g } }

/-! ### RTP timestamps (R361, R363, R369) -/

/-- floor(T x rate) of the station time T of a position in 2^-16 line, kept exact. -/
def Grid.ticks (g : Grid) (p : Int) (rate : Nat) : Int := (p + g.k) * (g.d * rate) / (65536 * g.n * g.l)
/-- The timestamp of a picture of frame `f`: of its frame start, or of its second field's start. -/
def Grid.stamp (g : Grid) (f : Int) (field : Nat) : Int := g.ticks ((f * g.l + fieldStart g.l field) * 65536) 90000

/-- The frame that a timestamp belongs to, among the frames next to the present one (R363). -/
def Die.frameOfStamp (x : Die) (f ts : Nat) : Option (Int × Nat) :=
  match x.grid (x.fld R.NW_RX_CFG_CADENCE f) with
  | none => none
  | some g =>
    let now := (x.frameLine (x.fld R.NW_RX_CFG_CADENCE f)).1
    let b := (x.bodyOf 6 0x602 f).getD []
    let fields : List Nat := if num b 18 1 = 1 then [0, 1] else [0]
    let cands : List (Int × Nat) := ([now - 1, now, now + 1] : List Int).flatMap fun k => fields.map fun j => (k, j)
    cands.find? fun c => decide ((diff32 ts (unsgn 32 (g.stamp c.1 c.2 + numS b 8 4))).natAbs ≤ 1)

/-- A packet that matches no frame is discarded. -/
def State.stampMiss (s : State) (d : DieId) (f : Nat) : State := s.event d R.NW_RX_EVENTS_TS_MISMATCH f

/-! ### The merge (R366) -/

/-- A record's numbers below `to` leave it: those never delivered are lost, and of a two-path flow those that one path missed. -/
def State.rxForget (s : State) (d : DieId) (f : Nat) : Nat → State
  | 0 => s
  | n + 1 =>
    let v := (s.die d).rx f
    let m := mget (fun _ => 0) v.seen v.low
    let two := (s.die d).flag R.NW_RX_CFG_TWO_PATHS f
    let s := if m = 0 then s.count d R.NW_RX_LOST f else if m = 1 ∧ two then s.count d R.NW_RX_LOST1 f
      else if m = 2 ∧ two then s.count d R.NW_RX_LOST0 f else s
    (s.upd d fun x => x.modRx f fun v => { v with low := v.low + 1, seen := mput (fun _ => 0) v.seen v.low 0 }).rxForget d f n

/-- PATH_MERGE: a packet of path `p` with a 16-bit sequence number. The answer is its extended number where it is delivered. -/
def State.rxMerge (s : State) (d : DieId) (f p seq : Nat) : State × Option Nat :=
  let v := (s.die d).rx f
  let mark (s : State) (q : Nat) : State := s.upd d fun x => x.modRx f fun v =>
    { v with seen := mput (fun _ => 0) v.seen q (mget (fun _ => 0) v.seen q + if bit (mget (fun _ => 0) v.seen q) p then 0 else 2 ^ p) }
  match v.last with
  | none =>
    let q := 65536 + seq
    let s := s.upd d fun x => x.modRx f fun v => { v with last := some q, low := q }
    ((mark s q).count d R.NW_RX_PACKETS f, some q)
  | some l =>
    let diff := sgn 16 (seq + 65536 - l % 65536)
    let q := ((l : Int) + diff).toNat
    if 0 < diff then
      let s := if 1 < diff then s.event d R.NW_RX_EVENTS_SEQ_GAP f else s
      let s := s.rxForget d f (q - 4095 - v.low)
      let s := s.upd d fun x => x.modRx f fun v => { v with last := some q }
      ((mark s q).count d R.NW_RX_PACKETS f, some q)
    else if mget (fun _ => 0) v.seen q ≠ 0 then ((mark s q).count d R.NW_RX_DUPLICATES f, none)
    else if q < v.low ∨ q + 4096 ≤ l then (s, none)
    else ((mark s q).count d R.NW_RX_PACKETS f, some q)

/-- A path that was down has a packet again. -/
def State.pathUp (s : State) (d : DieId) (f p : Nat) : State :=
  let fld := if p = 0 then R.NW_RX_STATE_PATH0_DOWN else R.NW_RX_STATE_PATH1_DOWN
  let s := s.upd d fun x => x.modRx f fun v => { v with pathAt := if p = 0 then (s.now, v.pathAt.2) else (v.pathAt.1, s.now) }
  if s.fld d fld f = 1 then
    ((s.setFld d fld 0 f).event d R.NW_RX_EVENTS_PATH_UP f p).eventCad d R.NW_EVENTS_PATH_UP 0 f (s.fld d R.NW_RX_CFG_CADENCE f) p
  else s

/-- PATH_DOWN: a path of a two-path flow has had no packet for 100 ms. -/
def State.pathDown (s : State) (d : DieId) (f p : Nat) : State :=
  let fld := if p = 0 then R.NW_RX_STATE_PATH0_DOWN else R.NW_RX_STATE_PATH1_DOWN
  let v := (s.die d).rx f
  if (s.die d).flag R.NW_RX_CFG_TWO_PATHS f ∧ s.fld d fld f = 0 then
    let s := s.advanceTo ((if p = 0 then v.pathAt.1 else v.pathAt.2) + 100 * msec)
    ((s.setFld d fld 1 f).event d R.NW_RX_EVENTS_PATH_DOWN f p).eventCad d R.NW_EVENTS_PATH_DOWN 0 f (s.fld d R.NW_RX_CFG_CADENCE f) p
  else s

/-- The colorimetry and transfer that a video flow's format parameters state are compared with its channels' (R222). -/
def State.flowColour (s : State) (d : DieId) (f : Nat) (channels : List Nat) : State :=
  match Config.flowColour (((s.die d).bodyOf 6 0x602 f).getD []) with
  | some (p, t) => s.hdrCheck d channels p t
  | none => s

/-! ### ST 2110-20 (R363, R364) -/

/-- Sample row data headers: length, field, row, offset, and whether another follows. -/
def srdHeads : Nat → List Byte → List (Nat × Nat × Nat × Nat)
  | 0, _ => []
  | n + 1, b =>
    let h := (be b 0 2, be b 2 2 / 32768, be b 2 2 % 32768, be b 4 2 % 32768)
    if 32768 ≤ be b 4 2 then h :: srdHeads n (b.drop 6) else [h]
/-- The pieces of line data of a packet: field, row, pixel offset, bytes. -/
def srdPieces (b : List Byte) : List (Nat × Nat × Nat × List Byte) :=
  let hs := srdHeads 3 (b.drop 2)
  let rec cut (b : List Byte) : List (Nat × Nat × Nat × Nat) → List (Nat × Nat × Nat × List Byte)
    | [] => []
    | h :: l => (h.2.1, h.2.2.1, h.2.2.2, b.take h.1) :: cut (b.drop h.1) l
  cut (b.drop (2 + 6 * hs.length)) hs

/-- A piece of a line arrives; a line whose bytes are all there goes to staging. -/
def State.rxPiece (s : State) (d : DieId) (f : Nat) (fm : PicFmt) (m : Int) (off : Nat) (bs : List Byte) : State :=
  let v := (s.die d).rx f
  let ps := (((v.segs.find? fun e => e.1 == m).map Prod.snd).getD []) ++ [(off, bs)]
  let rest := (v.segs.filter fun e => e.1 != m).take 63
  if (ps.map fun p => p.2.length).foldl (· + ·) 0 < fm.lineBytes then
    s.upd d fun x => x.modRx f fun v => { v with segs := (m, ps) :: rest }
  else
    let s := s.upd d fun x => x.modRx f fun v => { v with segs := rest }
    let line := (ps.foldl (fun b p => patch b p.1 p.2) (pad fm.lineBytes)).take fm.lineBytes
    (fm.linesOf (fm.unpack line)).zipIdx.foldl (fun s p => s.lineIn d ⟨true, f⟩ (m + (p.2 : Nat)) p.1) s

/-- Line `m` of a member comes after its window (R364). -/
def Die.memLate (x : Die) (r : MemRef) (m : Int) : Bool :=
  decide (m + x.memWindow r < x.lineNow (x.memCad r) + x.pertSum 0 r.i (b2n r.flow))

/-- A packet of a -20 flow is placed by its row headers; what comes too late for its line is not, and the packet is lost (R384). -/
def State.rxVideo (s : State) (d : DieId) (f ts : Nat) (b : List Byte) : State :=
  match (s.die d).frameOfStamp f ts, (s.die d).grid (s.fld d R.NW_RX_CFG_CADENCE f) with
  | some (k, _), some g =>
    let fm := (s.die d).memFmt d ⟨true, f⟩
    let s := s.flowColour d f ((s.die d).primaryOf ((s.die d).memInput ⟨true, f⟩))
    let line (p : Nat × Nat × Nat × List Byte) : Int := k * g.l + fieldStart g.l p.1 + p.2.1
    let late := (s.die d).memLate ⟨true, f⟩
    let s := if (srdPieces b).any fun p => late (line p) then s.count d R.NW_RX_LOST f else s
    ((srdPieces b).filter fun p => !late (line p)).foldl (fun s p =>
      s.rxPiece d f fm (line p) (p.2.2.1 * fm.lineBytes / max 1 fm.width) p.2.2.2) s
  | _, _ => s.stampMiss d f

/-! ### ST 2110-40 (R359, R364) -/

/-- A packet of an ancillary flow: its data goes to the DMA queue TARGET, and its frame is complete once its marker packet and all
before it since the last marker are there in time; of an interlaced flow the marker of the second field counts. -/
def State.rxAnc (s : State) (d : DieId) (f q ts : Nat) (marker : Bool) (b : List Byte) : State :=
  match (s.die d).frameOfStamp f ts, (s.die d).grid (s.fld d R.NW_RX_CFG_CADENCE f) with
  | some (k, j), some g =>
    let r : MemRef := ⟨true, f⟩
    let marker := marker && (j == 1 || num ((s.die d).rxFormat f) 6 1 != 1)
    let s := if (s.die d).memLate r ((k + 1) * g.l - 1) then s.count d R.NW_RX_LOST f else s
    let s := s.upd d fun x => x.streamPut (x.memInput r) (subBytes b 8 (be b 2 2))
    let s := if marker then s.upd d fun x => x.modRx f fun v => { v with marks := ((q, k) :: v.marks).take 2 } else s
    match ((s.die d).rx f).marks with
    | (m, fr) :: (p, _) :: _ =>
      let v := (s.die d).rx f
      let whole := (List.range (m - p)).all fun i => mget (fun _ => 0) v.seen (m - i) != 0
      let last := (fr + 1) * g.l - 1
      if whole ∧ (s.die d).lineNow ((s.die d).memCad r) ≤ last + (s.die d).memWindow r then
        s.upd d fun x => x.modMem r fun v => v.add ⟨g.l, g.l, false⟩ (fr * g.l) ((fr + 1) * g.l)
      else s
    | _ => s
  | _, _ => s.stampMiss d f

/-! ### ST 2110-30 and -31 (R453) -/

/-- The word of a sample: linear PCM of DEPTH bits, or an AES3 subframe with its bits (ST 2110-31, log entry 45). -/
def rxWord (aes : Bool) (depth : Nat) (b : List Byte) : W32 :=
  if aes then
    let l := be b 0 1
    BitVec.ofNat 32 (be b 1 3 * 256 + b2n (bit l 0) * 128 + b2n (bit l 1) * 64 + b2n (bit l 2) * 32 + b2n (bit l 5) * 16)
  else auWord (beNat b * 2 ^ (24 - depth)) false
/-- A packet of an audio flow: its samples go to grid positions from its timestamp on. -/
def State.rxAudio (s : State) (d : DieId) (f ts : Nat) (b : List Byte) : State :=
  let x := s.die d
  let aes := x.fld R.NW_RX_CFG_KIND f == 3
  match x.auMemberOf (if aes then 3 else 2) 0 f with
  | none => s
  | some r =>
    let depth := if num (x.rxFormat f) 5 1 = 16 then 16 else 24
    let w := if aes then 4 else depth / 8
    let now := auAt (x.auFs r.g) x.clk.now
    let k := now + diff32 ts (unsgn 32 now)
    let ws := (chunks (w * max 1 r.chans) b.length b).map fun c => (chunks w r.chans c).map (rxWord aes depth)
    s.auRun d r k ws (Config.memberRatio (16 * r.g + r.m) x.clk.now)

/-! ### Decode inputs (R371) -/

/-- The place of a decode channel's coded picture buffer in DRAM and its size in bytes (R84, R270). -/
def Die.cpbPlace (x : Die) (n : Nat) : Nat × Nat :=
  ((x.bodyOf 0xB 0xB02 n).map fun b => (num b 12 4 * 2 ^ 22, num b 16 4)).getD (0, 0)
/-- Bytes go round the coded picture buffer from where the last ended (DESIGN CHOICE, log entry 42). -/
def Die.cpbWrite (x : Die) (n : Nat) (bs : List Byte) : Die :=
  let (base, size) := x.cpbPlace n
  if size < bs.length then x
  else
    let p := (x.dec n).cpbPos % size
    let a := bs.take (size - p)
    (x.setCells (wrBytes (wrBytes x.dram.view (base + p) a) base (bs.drop a.length))).modDec n fun c => { c with cpbPos := (p + bs.length) % size }

/-- An access unit goes into the coded picture buffer of a decode channel, each NAL unit behind a start code. -/
def State.cpbPut (s : State) (d : DieId) (n : Nat) (nals : List (List Byte)) (missing : Nat) : State :=
  if nals.isEmpty ∧ missing = 0 then s
  else
    let au : AccessUnit := { Config.parseUnit (s.fld d R.CL_DC_CFG_CODEC n == 1) nals missing with nals := nals }
    let s := nals.foldl (fun (s : State) b =>
      let x := s.die d
      let (base, size) := x.cpbPlace n
      let p := (x.dec n).cpbPos % max 1 size
      let len := if size < b.length + 3 then 0 else b.length + 3
      ((s.touchRange d (base + p) (min len (size - p))).touchRange d base (len - (size - p))).upd d fun x => x.cpbWrite n ([0, 0, 1] ++ b)) s
    s.upd d fun x => x.modDec n fun c => { c with cpb := c.cpb ++ [au] }

/-- The NAL units of an aggregation packet. -/
def apNals : Nat → List Byte → List (List Byte)
  | 0, _ => []
  | n + 1, b => if b.length < 2 then [] else subBytes b 2 (be b 0 2) :: apNals n (b.drop (2 + be b 0 2))

/-- What rebuilding an access unit from its packets has come to. -/
structure Rebuild where
  nals : List (List Byte) := []
  missing : Nat := 0
  /-- the fragmented NAL unit in progress -/
  open_ : Option (List Byte) := none
  /-- the number expected next -/
  next : Option Nat := none

/-- One packet of an access unit in order (RFC 7798, RFC 9328): a gap makes what it touches incomplete. -/
def Rebuild.step (vvc : Bool) (v : Rebuild) (e : Nat × List Byte) : Rebuild :=
  let gap := match v.next with | some q => decide (q ≠ e.1) | none => false
  let v : Rebuild := if gap then { v with missing := v.missing + 1, open_ := none } else v
  let v : Rebuild := { v with next := some (e.1 + 1) }
  let b := e.2
  let ty := if vvc then be b 1 1 / 8 else be b 0 1 / 2 % 64
  if ty = (if vvc then 28 else 48) then { v with nals := v.nals ++ apNals b.length (b.drop 2) }
  else if ty = (if vvc then 29 else 49) then
    let fu := be b 2 1
    let head : List Byte := if vvc then [b.getD 0 0, BitVec.ofNat 8 (fu % 32 * 8 + be b 1 1 % 8)]
      else [BitVec.ofNat 8 (be b 0 1 / 128 * 128 + fu % 64 * 2 + be b 0 1 % 2), b.getD 1 0]
    let o : Option (List Byte) := if bit fu 7 then some (head ++ b.drop 3) else v.open_.map fun n => n ++ b.drop 3
    if bit fu 6 then
      match o with
      | some n => { v with nals := v.nals ++ [n], open_ := none }
      | none => v
    else { v with open_ := o }
  else { v with nals := v.nals ++ [b] }

/-- Inserts a packet by its number. -/
def insertPkt (e : Nat × List Byte) : List (Nat × List Byte) → List (Nat × List Byte)
  | [] => [e]
  | a :: l => if e.1 < a.1 then e :: a :: l else a :: insertPkt e l

/-- The access unit being gathered ends. -/
def State.rxUnitEnd (s : State) (d : DieId) (f : Nat) : State :=
  let v := (s.die d).rx f
  match v.pkts.1.getLast? with
  | none => s
  | some e =>
    let n := (s.die d).memInput ⟨true, f⟩
    let vvc := s.fld d R.CL_DC_CFG_CODEC n == 1
    let r := v.pkts.1.foldl (Rebuild.step vvc) { next := v.done_.map fun p => p.2 + 1 }
    let s := s.upd d fun x => x.modRx f fun v => { v with pkts := ([], 0), done_ := some (v.pkts.2, e.1) }
    (s.flowColour d f ((s.die d).primaryDec n)).cpbPut d n r.nals (r.missing + b2n r.open_.isSome)

/-- A packet of a -22 flow: packets of one timestamp are gathered, up to the marker or a later timestamp. -/
def State.rxCoded (s : State) (d : DieId) (f q ts : Nat) (marker : Bool) (b : List Byte) : State :=
  let old := match ((s.die d).rx f).done_ with | some p => decide (diff32 ts p.1 ≤ 0) | none => false
  if old then s
  else
    let v := (s.die d).rx f
    let s := if !v.pkts.1.isEmpty ∧ 0 < diff32 ts v.pkts.2 then s.rxUnitEnd d f else s
    let s := s.upd d fun x => x.modRx f fun v => { v with pkts := (insertPkt (q, b) v.pkts.1, ts) }
    if marker then s.rxUnitEnd d f else s

/-! MPEG-2 TS -/

/-- Where start codes stand: offsets of the first byte after 00 00 01, from `i` on. -/
def startCodes : Nat → List Byte → List Nat
  | i, a :: b :: c :: l => if a = 0 ∧ b = 0 ∧ c = 1 then (i + 3) :: startCodes (i + 1) (b :: c :: l) else startCodes (i + 1) (b :: c :: l)
  | _, _ => []
/-- Drops trailing zero bytes. -/
def dropZeros (b : List Byte) : List Byte := (b.reverse.dropWhile (· == 0)).reverse
/-- The NAL units of a byte stream with their first and last offsets; bytes without a start code are one NAL unit. -/
def splitNals (b : List Byte) : List (Nat × Nat × List Byte) :=
  match startCodes 0 b with
  | [] => if b.isEmpty then [] else [(0, b.length, b)]
  | os => (os.zip (os.drop 1 ++ [b.length + 3])).map fun e => (e.1, e.2 - 3, dropZeros (subBytes b e.1 (e.2 - 3 - e.1)))

/-- Splits NAL units into access units at their delimiters. -/
def splitUnits (vvc : Bool) : List (List Byte) → List (List (List Byte))
  | [] => []
  | n :: l =>
    let aud (n : List Byte) : Bool := if vvc then be n 1 1 / 8 == 20 else be n 0 1 / 2 % 64 == 35
    match splitUnits vvc l with
    | [] => [[n]]
    | u :: us => if (u.head?.map aud).getD false then [n] :: u :: us else (n :: u) :: us

/-- A PES of the video PID ends: its NAL units that no break touches go to the coded picture buffer. -/
def State.rxPesEnd (s : State) (d : DieId) (f : Nat) : State :=
  match ((s.die d).rx f).pes with
  | none => s
  | some (b, breaks) =>
    let n := (s.die d).memInput ⟨true, f⟩
    let vvc := s.fld d R.CL_DC_CFG_CODEC n == 1
    let start := 9 + be b 8 1
    let all := splitNals (b.drop start)
    let hit (e : Nat × Nat × List Byte) : Bool := breaks.any fun o => decide (start + e.1 ≤ o ∧ o ≤ start + e.2.1)
    let us := splitUnits vvc ((all.filter fun e => !hit e).map fun e => e.2.2)
    let s := s.upd d fun x => x.modRx f fun v => { v with pes := none }
    us.zipIdx.foldl (fun s e => s.cpbPut d n e.1 (if e.2 + 1 = us.length then (all.filter hit).length else 0)) s

/-- One TS packet of the video PID of the flow's program, which no record of R84 has a field for (log entry 45). -/
def State.rxTs (s : State) (d : DieId) (f pid : Nat) (p : List Byte) : State :=
  if be p 0 1 ≠ 0x47 ∨ be p 1 2 % 8192 ≠ pid then s
  else
    let v := (s.die d).rx f
    let afc := be p 3 1 / 16 % 4
    let cc := be p 3 1 % 16
    let adapt := if 2 ≤ afc then 1 + be p 4 1 else 0
    let disc := decide (2 ≤ afc ∧ 0 < be p 4 1) && bit (be p 5 1) 7
    let body := if afc % 2 = 1 then p.drop (4 + adapt) else []
    let broken := match v.cc with | some c => !disc && afc % 2 == 1 && cc != (c + 1) % 16 | none => false
    if v.cc = some cc ∧ !disc ∧ afc % 2 = 1 then s
    else
      let s := s.upd d fun x => x.modRx f fun v => { v with
        cc := some cc
        pes := if broken then v.pes.map fun e => (e.1, e.2 ++ [e.1.length]) else v.pes }
      if bit (be p 1 1) 6 then
        (s.rxPesEnd d f).upd d fun x => x.modRx f fun v => { v with pes := some (body, []) }
      else
        let s := s.upd d fun x => x.modRx f fun v => { v with pes := v.pes.map fun e => (e.1 ++ body, e.2) }
        match ((s.die d).rx f).pes with
        | some (b, _) => if 0 < be b 4 2 ∧ 6 + be b 4 2 ≤ b.length then s.rxPesEnd d f else s
        | none => s

/-! ### Flows (R355 step 5, R359) -/

/-- A datagram of a receive flow, by the path it came on. -/
def State.rxFlow (s : State) (d : DieId) (f p : Nat) (u : Udp) : State :=
  let s := s.pathUp d f p
  let kind := s.fld d R.NW_RX_CFG_KIND f
  let pid := Config.videoPid f
  let ts (s : State) (b : List Byte) : State := (chunks 188 b.length b).foldl (fun s t => s.rxTs d f pid t) s
  if kind = 5 then ts (s.count d R.NW_RX_PACKETS f) u.payload
  else
    let b := u.payload
    if b.length < 12 ∨ be b 0 1 / 64 ≠ 2 then s
    else
      let (s, q) := s.rxMerge d f p (be b 2 2)
      match q with
      | none => s
      | some q =>
        let head := 12 + 4 * (be b 0 1 % 16) + (if bit (be b 0 1) 4 then 4 + 4 * be b (14 + 4 * (be b 0 1 % 16)) 2 else 0)
        let tail := if bit (be b 0 1) 5 then be b (b.length - 1) 1 else 0
        let body := (b.drop head).take (b.length - head - tail)
        let stamp := be b 4 4
        let marker := bit (be b 1 1) 7
        match kind with
        | 0 => s.rxVideo d f stamp body
        | 1 => s.rxCoded d f q stamp marker body
        | 2 => s.rxAudio d f stamp body
        | 3 => s.rxAudio d f stamp body
        | 4 => s.rxAnc d f q stamp marker body
        | 6 => ts s body
        | _ => s

/-- The receive flow and the path that a datagram matches. -/
def Die.rxMatch (x : Die) (sp : Nat) (e : EthFrame) (u : Udp) : Option (Nat × Nat) :=
  ((x.recsOf 6 0x602).flatMap fun r => (rxPaths r.2.body).zipIdx.map fun p => (r.2.idx, p.2, p.1)).findSome? fun c =>
    let p := c.2.2
    if p.sp = sp ∧ p.vlan = e.vlan ∧ p.port = u.dport ∧ p.dst = u.dst ∧ (p.src = pad 16 ∨ p.src = u.src) then some (c.1, c.2.1) else none

/-! ### Forwarding (R372 to R374, R378) -/

/-- The forwarding entry that a frame meets: index, egress, queue, TC and COPY. -/
def Die.forwardOf (x : Die) (sp : Nat) (e : EthFrame) : Option (Nat × List Byte) :=
  ((x.recsOf 6 0x604).find? fun r => num r.2.body 0 1 == sp && num r.2.body 6 2 == e.vlan && subBytes r.2.body 8 6 == e.dst).map fun r =>
    (r.2.idx, r.2.body)

/-- For a PTP event message: where its PTP header and its UDP checksum stand. The second part says that the header is valid. -/
def ptpEvent (b : List Byte) (e : EthFrame) : Option (Nat × Nat × Bool) :=
  match udpOf b e with
  | some u => if u.dport = 319 ∧ be u.payload 0 1 % 16 ≤ 3 then some (u.at_ + 8, u.at_ + 6, ptpValid u.payload) else none
  | none => none

/-- The length that the scheduler takes of a frame to be cut through: by its IPv4 or IPv6 length field, or 9,216 bytes (R389). -/
def cutLength (b : List Byte) (e : EthFrame) : Nat :=
  if e.etype = 0x0800 then max 64 (e.at_ + be b (e.at_ + 2) 2 + 4)
  else if e.etype = 0x86DD then max 64 (e.at_ + 40 + be b (e.at_ + 4) 2 + 4) else 9216

/-- FORWARD: a frame is cut through, or stored for egress. `bad` says that its FCS fails, which only a cut-through copy survives. -/
def State.forward (s : State) (d : DieId) (sp : Nat) (e : EthFrame) (b : List Byte) (bad : Bool) (idx : Nat) (fw : List Byte) : State :=
  let q := qidOf (num fw 2 2)
  let out := num fw 1 1
  let len := max 64 (b.length + 4)
  let (s, ok) := s.police d 1 idx len
  if !ok then s
  else
    let x := s.die d
    let ev := if bit (num fw 4 1) 0 then ptpEvent b e else none
    let tc := match ev with | some (h, u, true) => some (x.clk.now, h, some u) | _ => none
    let s := match ev with | some (_, _, false) => s.count d R.NW_TC_SKIPPED | _ => s
    let cut := (x.queue q).pkts.isEmpty && x.gateAllows q (cutLength b e) && x.spRate sp == x.spRate out && x.spFree out && x.queueUsed q &&
      !x.pertOn 3 out 0 && (match x.queueShaper q with | some h => decide (0 ≤ (x.shaperNow h).credit) | none => true)
    if cut then
      let s := s.enqueue d q 0 { body := b, len := len, at_ := x.clk.now, tc := tc, bad := bad }
      let s := (s.count d R.NW_SP_CUT_THROUGH out).startFrame d q
      if bad then s.count d R.NW_SP_CUT_STOMP out else s
    else if bad then s
    else s.enqueue d q 0 { body := b, len := len, at_ := x.clk.now, tc := tc }

/-! ### Classification (R355) -/

/-- The frame is for the device: its own MAC address, broadcast, or an IGMP, MLD or ND multicast. -/
def Die.forDevice (x : Die) (sp : Nat) (e : EthFrame) (b : List Byte) : Bool :=
  e.dst == x.spMac sp || e.dst == List.replicate 6 0xFF
    || (e.etype == 0x0800 && isMcast (mapped (subBytes b (e.at_ + 16) 4)) && be b (e.at_ + 9) 1 == 2)
    || (e.etype == 0x86DD && be b (e.at_ + 24) 1 == 255 && (be b (e.at_ + 6) 1 == 58 || (be b (e.at_ + 6) 1 == 0 && be b (e.at_ + 40) 1 == 58)))

/-- Steps 4 to 7. -/
def State.classify (s : State) (d : DieId) (sp : Nat) (e : EthFrame) (b : List Byte) : State :=
  let x := s.die d
  let u := udpOf b e
  let ptp (v : Udp) : Bool := !v.bad && (v.dport == 319 || v.dport == 320) && x.flag R.NW_SP_CFG_PTP sp
      && x.fld R.NW_PTP_CFG_SUBPORT == sp && (isMcast v.dst || v.dst == x.spAddr sp v.dst)
  match u.bind fun v => if ptp v then some v else none with
  | some v => s.ptpIn d e v
  | none =>
    let hit := u.bind fun v => (x.rxMatch sp e v).map fun m => (v, m)
    match hit with
    | some (v, f, p) =>
      if v.bad then s.count d R.NW_SP_RX_DROP sp
      else if x.pertOn 1 f 1 then s
      else
        let (s, ok) := s.police d 0 f (max 64 (b.length + 4))
        if ok then s.rxFlow d f p v else s
    | none =>
      if udpFragment b e then s.count d R.NW_SP_RX_DROP sp
      else if x.forDevice sp e b then
        let (s, ok) := s.police d 2 sp (max 64 (b.length + 4))
        if !ok then s
        else if 256 ≤ (x.port sp).ctrl.length then s.count d R.NW_CTRL_DROP
        else s.upd d fun x => x.modPort sp fun p => { p with ctrl := p.ctrl ++ [b] }
      else s.count d R.NW_RX_UNMATCHED

/-- RX_FRAME: a frame arrives on a sub-port, without its FCS; `fcs` says that that was right, `corr` and `uncorr` are the FEC
codewords corrected and uncorrectable since the last frame, of which an uncorrectable one overlaps this frame. -/
def State.rxFrame (s : State) (d : DieId) (sp : Nat) (b : List Byte) (fcs : Bool) (corr uncorr : Nat) : State :=
  if s.fld d R.NW_SP_STATUS_LINK sp = 0 then s
  else
    let s := s.count d R.NW_SP_FEC_CORR sp corr
    let s := if uncorr = 0 then s
      else ((s.count d R.NW_SP_FEC_UNCORR sp uncorr).event d R.NW_SP_EVENTS_FEC_UNCORR sp).event d R.NW_EVENTS_FEC_UNCORR 0 sp
    let s := s.count d R.NW_SP_RX_FRAMES sp
    let bad := !fcs || uncorr != 0
    let e := ethOf b
    let fw := (s.die d).forwardOf sp e
    let s := if bad then s.count d R.NW_SP_RX_FCS_ERR sp else s
    let drop := decide (b.length < 60 ∨ 9212 < b.length ∨ e.etype = 0x8808) || !(s.die d).spVlan sp e.vlan
    if bad then (match fw with | some (i, w) => if drop then s else s.forward d sp e b true i w | none => s)
    else if drop then s.count d R.NW_SP_RX_DROP sp
    else match fw with
      | some (i, w) =>
        let s := s.forward d sp e b false i w
        if bit (num w 4 1) 1 then s.classify d sp e b else s
      | none => s.classify d sp e b

/-! ### Links (R354) -/

/-- A sub-port's link changes: recorded with the sub-port. -/
def State.linkMove (s : State) (d : DieId) (sp : Nat) (up eyeLow : Bool) : State :=
  if (s.die d).flag R.NW_SP_STATUS_LINK sp = up ∨ s.fld d R.NW_SP_CFG_MODE sp = 3 then s
  else
    let s := ((s.setFld d R.NW_SP_STATUS_LINK (b2n up) sp).setFld d R.NW_SP_STATUS_ALIGNED (b2n up) sp).setFld d R.NW_SP_STATUS_EYE_LOW
      (b2n (up && eyeLow)) sp
    let s := if up && eyeLow then s.event d R.NW_SP_EVENTS_EYE_LOW sp else s
    if up then (s.event d R.NW_SP_EVENTS_LINK_UP sp).eventRec d R.NW_EVENTS_LINK_UP 0 sp 0
    else (s.event d R.NW_SP_EVENTS_LINK_DOWN sp).eventRec d R.NW_EVENTS_LINK_DOWN 0 sp 0

def execSubportUp (d : DieId) (sp : Fin 8) (dt : Nat) (eyeLow : Bool) (s : State) : Result :=
  onDie s d (Instr.wf (.subportUp d sp dt eyeLow)) ((s.advance dt).linkMove d sp true eyeLow)
def execSubportDown (d : DieId) (sp : Fin 8) (dt : Nat) (s : State) : Result :=
  onDie s d (Instr.wf (.subportDown d sp dt)) ((s.advance dt).linkMove d sp false false)
def execPathDown (d : DieId) (f : Fin 1024) (path : Fin 2) (s : State) : Result :=
  onDie s d (Instr.wf (.pathDown d f path)) (s.pathDown d f path)

end Sys2Proof.Machine
end

