-- ==== Sys2Proof/Machine/Herdbook.lean ====
section
/-! DEFINITION. The herdbook (20_self_test.md R596 to R607): programming of pending records, the flash ring, snapshots, the
authorised clear and the life fuses. -/

namespace Sys2Proof.Machine

/-- The CODE of a record-only event of the block of a register (R597). -/
def recCode (f : Fld) (c : Nat) : Nat := blockIndex f.base * 256 + c

/-- Slots of the ring (R596). -/
def hbSlots : Nat := 65664

/-- The slots that hold records, oldest first, with their records. -/
def Herdbook.slotsHeld (h : Herdbook) : List (Nat × HbRec) :=
  let of (p : Nat → Bool) := h.slots.filterMap fun e => if p e.1 then (match e.2 with | .held r => some (e.1, r) | _ => none) else none
  of (fun k => decide (h.next ≤ k)) ++ of (fun k => decide (k < h.next))
/-- The records that the ring holds, oldest first. -/
def Herdbook.recs (h : Herdbook) : List HbRec := h.slotsHeld.map Prod.snd
/-- HB_NEWEST; 0 while there is no record (log entry 10). -/
def Herdbook.newest (h : Herdbook) : Nat := (h.recs.getLast?.map fun r => r.seq.toNat).getD 0
/-- HB_OLDEST. -/
def Herdbook.oldest (h : Herdbook) : Nat := (h.recs.head?.map fun r => r.seq.toNat).getD 0

/-- The herdbook rewritten. -/
def State.modHb (s : State) (f : Herdbook → Herdbook) : State := s.updPkg fun p => { p with hb := f p.hb }

/-- The 32 bytes of a record as eight words (R597, R607). -/
def HbRec.words (r : HbRec) : List W32 :=
  [r.seq, r.time, BitVec.ofNat 32 (r.cycles % 2 ^ 24 + r.flags % 256 * 2 ^ 24), BitVec.ofNat 32 (r.code % 65536 + r.source % 65536 * 65536),
   BitVec.ofNat 32 r.stime, BitVec.ofNat 32 (r.stime / 2 ^ 32), BitVec.ofNat 32 r.detail, BitVec.ofNat 32 (r.detail / 2 ^ 32)]

/-- The supply warning is present on die 0 (R614). -/
def State.warned (s : State) : Bool := s.fld 0 R.PW_STATUS_WARN == 1

/-- The next slot's sector is erased, so a record can be programmed. -/
def Herdbook.canProgram (h : Herdbook) : Bool := !h.erase.contains (h.next / 128)

/-- The slot after the last one programmed. Entering a sector orders the erase of the one after it, where that holds anything:
one sector is always erased (R596). -/
def Herdbook.step (h : Herdbook) : Herdbook :=
  let n := (h.next + 1) % hbSlots
  let ahead := (n / 128 + 1) % 513
  if n % 128 = 0 ∧ h.slots.any (fun e => e.1 / 128 == ahead) ∧ !h.erase.contains ahead then { h with next := n, erase := h.erase ++ [ahead] }
  else { h with next := n }

/-- A clear ends once its record stands and every sector that it erases has been erased (R603). -/
def State.clearDone (s : State) : State :=
  match s.pkg.hb.clearing with
  | some q =>
    if s.pkg.hb.recs.any (fun r => r.seq == q) ∧ s.pkg.hb.erase.isEmpty then
      (s.modHb fun h => { h with clearing := none }).event 0 R.HB_EVENTS_CLEARED
    else s
  | none => s

/-- The sectors that hold records older than the record of a clear, its own sector not counted, oldest first (R603). -/
def Herdbook.clearSectors (h : Herdbook) (q : W32) : List Nat :=
  match h.slotsHeld.find? fun e => e.2.seq == q with
  | some (k, _) =>
    let before := (h.slotsHeld.takeWhile fun e => e.2.seq != q).map fun e => e.1 / 128
    (before.filter fun c => c != k / 128).foldl (fun l c => if l.contains c then l else l ++ [c]) []
  | none => []

/-- The oldest pending record is programmed into the next slot, or that slot fails its program check and is skipped (R600). -/
def State.hbProgram (s : State) (ok : Bool) : State :=
  match s.pkg.hb.pend with
  | [] => s
  | r :: rest =>
    if !s.pkg.hb.canProgram then s
    else if ok then
      let s := s.modHb fun h =>
        let h := { h with slots := mput (fun _ => .empty) h.slots h.next (.held r), pend := rest }
        let h := h.step
        if h.clearing = some r.seq then { h with erase := h.erase ++ (h.clearSectors r.seq).filter fun c => !h.erase.contains c } else h
      let s := if !s.pkg.hb.erase.isEmpty ∧ s.pkg.hb.clearing.isNone then s.setFld 0 R.HB_STATUS_WRAPPED 1 else s
      let s := if s.pkg.hb.lost = 0 then s
        else
          let n := s.pkg.hb.lost
          (s.modHb fun h => { h with lost := 0 }).hb 0 (recCode R.HB_EVENTS_LOST 0x82) 0 (min n 65535)
      s.clearDone
    else
      let k := s.pkg.hb.next
      let s := s.modHb fun h => { h with slots := mput (fun _ => .empty) h.slots k .skipped }.step
      ((s.count 0 R.HB_FLASH_ERR).event 0 R.HB_EVENTS_FLASH_FAULT 0 k).hbRecord 0 (recCode R.HB_EVENTS_LOST 0x83) 0 k

/-- Commits every pending record (R600, R618, R623). -/
def State.hbCommit (s : State) (n : Nat := 16) : State := n.repeat (fun s => s.hbProgram true) s

/-- The erase of the oldest sector to be erased ends; a supply warning suspends it (R596, R600, R603, R604). -/
def State.sectorErased (s : State) : State :=
  match s.pkg.hb.erase with
  | c :: rest =>
    if s.warned then s
    else (s.modHb fun h => { h with slots := h.slots.filter fun e => e.1 / 128 != c, erase := rest }).clearDone
  | [] => s

/-- HB_CTRL.SNAP (R602): the 64 records from HB_SNAP_SEQ on, in one step. -/
def State.hbSnap (s : State) : State :=
  let q : W32 := BitVec.ofNat 32 (s.fld 0 R.HB_SNAP_SEQ)
  let recs := s.pkg.hb.recs
  let at_ (k : Nat) : Option HbRec := recs.find? fun r => r.seq == q + BitVec.ofNat 32 k
  let valid := (List.range 64).filter fun k => (at_ k).isSome
  let s := (List.range 64).foldl (fun (s : State) k =>
    let ws := ((at_ k).map HbRec.words).getD (List.replicate 8 0)
    (List.range 8).foldl (fun (s : State) j => s.setFld 0 R.HB_SNAP (ws.getD j 0).toNat (8 * k + j)) s) s
  (s.setFld 0 R.HB_SNAP_STATUS_FIRST (valid.headD 0)).setFld 0 R.HB_SNAP_STATUS_COUNT valid.length

/-- The code of R418 with which HB_CTRL.CLEAR is refused: STATE without an accepted token (R603). -/
def State.clearCode (s : State) : Nat := if s.fld 0 R.SC_STATUS_HB_CLEAR_OK = 1 then 0 else 16

/-- An accepted clear (R603): the CLEARED record, then the erase of every sector that precedes it. -/
def State.hbClear (s : State) : State :=
  let h := s.pkg.hb
  let own := (h.next + h.pend.length) % hbSlots / 128
  let gone := (h.slotsHeld.filter fun e => e.1 / 128 != own).map Prod.snd
  let lo := (gone.head?.map fun r => r.seq.toNat).getD 0
  let hi := (gone.getLast?.map fun r => r.seq.toNat).getD 0
  let s := (s.setFld 0 R.SC_STATUS_HB_CLEAR_OK 0).upd 0 fun x => { x with sc := { x.sc with clearUntil := none } }
  let s := s.modHb fun h => { h with clearing := some h.seq }
  s.hbRecord 0 (recCode R.HB_EVENTS_LOST 0x81) s.die0.sc.clearKey (hi * 2 ^ 32 + lo) false true

/-- 1,024 operating hours in units of 1/256 hour. -/
def lifeUnit : Nat := 1024 * 256

/-- Supervisor time at which the operating time reaches the next life fuse (R599). -/
def State.lifeDue (s : State) : Nat :=
  let h := s.pkg.hb
  s.now + (((s.pkg.fuses.life + 1) * lifeUnit - h.time) * (3600 * second / 256) - h.timePart)

/-- LIFE_FUSE (R599, R666): the fuse is burnt, and die 0 writes an AGE record for each die; no burn starts while the supply
warning is present (R560). -/
def State.lifeFuse (s : State) : State :=
  if 256 ≤ s.pkg.fuses.life ∨ s.warned then s
  else
    let s := s.advanceTo s.lifeDue
    let s := s.updPkg fun p => { p with fuses := { p.fuses with life := p.fuses.life + 1 } }
    let s := s.hbRecord 0 (recCode R.SY_TJ_EVENTS_TJ_HIGH 0x80) 0 (s.fld 0 R.SY_AGE)
    if s.dual then s.hbRecord 0 (recCode R.SY_TJ_EVENTS_TJ_HIGH 0x80) 1 (s.fld 1 R.SY_AGE) else s

def execHbRecordProgrammed (dt : Nat) (ok : Bool) (s : State) : Result := onDie s 0 true ((s.advance dt).hbProgram ok)
def execSectorErased (dt : Nat) (s : State) : Result := onDie s 0 true ((s.advance dt).sectorErased)
def execLifeFuse (s : State) : Result := onDie s 0 true s.lifeFuse

end Sys2Proof.Machine
end

