-- ==== Sys2Proof/Machine/NetTx.lean ====
section
/-! DEFINITION. Send flows (R360 to R370, R400, R453): packets at their station positions, compressed slices as RTP payloads or as a
transport stream, and what a path adds to them. -/

namespace Sys2Proof.Machine

def Die.tx (x : Die) (f : Nat) : TxFlow := mget (fun _ => {}) x.nw.tx f
def Die.modTx (x : Die) (f : Nat) (g : TxFlow → TxFlow) : Die :=
  { x with nw := { x.nw with tx := mmod (fun _ => {}) x.nw.tx f g } }

/-! ### The TX_FLOW record (R84) -/

def Die.txBody (x : Die) (f : Nat) : List Byte := (x.bodyOf 6 0x603 f).getD []
def Die.txFrag (x : Die) (f : Nat) : Nat := ((x.recOf 6 0x603 f).map fun e => e.1.frag).getD 0
/-- PAYLOAD, the flow's payload limit: UDP payload bytes. -/
def Die.txLimit (x : Die) (f : Nat) : Nat := num (x.txBody f) 18 2
/-- A TS flow. -/
def Die.txIsTs (x : Die) (f : Nat) : Bool := x.fld R.NW_TX_CFG_KIND f == 5 || x.fld R.NW_TX_CFG_KIND f == 6

/-- A path of a send flow. -/
structure TxPath where
  sp : Nat
  dscp : Nat
  pcp : Nat
  ttl : Nat
  vlan : Nat
  sport : Nat
  dport : Nat
  mac : List Byte
  dst : List Byte
  deriving DecidableEq, Repr
def Die.txPaths (x : Die) (f : Nat) : List TxPath :=
  let b := x.txBody f
  (chunks 48 (num b 1 1) (b.drop (if x.txIsTs f then 56 else 32))).map fun p =>
    ⟨num p 0 1, num p 1 1, num p 2 1, num p 3 1, num p 4 2, num p 6 2, num p 8 2, subBytes p 12 6, subBytes p 20 16⟩
/-- The queue of a path: QUEUE's, on the sub-port of the path (R365, log entry 44). -/
def pathQueue (q : QId) (sp : Nat) : QId := if q.weighted then ⟨sp / 4 * 1024 + q.n % 1024, true⟩ else ⟨8 * sp + q.n % 8, false⟩

/-- The MAC address that a path sends to: the plan's, a group's, or a neighbour's (R357). -/
def Die.txMac (x : Die) (p : TxPath) : Option (List Byte) :=
  if isMcast p.dst then some (mcastMac p.dst) else if p.mac ≠ pad 6 then some p.mac else x.neighbour p.sp p.dst

/-! ### Packets (R360, R365) -/

/-- Queues a UDP payload on every path of a flow, eligible at station time `at_`. -/
def State.txQueue (s : State) (d : DieId) (f at_ : Nat) (payload : List Byte) : State :=
  let x := s.die d
  let zero := bit (num (x.txBody f) 15 1) 0
  let id := Config.ipId f (x.fld R.NW_TX_PACKETS f)
  (x.txPaths f).foldl (fun s p =>
    let x := s.die d
    match x.txMac p with
    | none => ((s.count d R.NW_TX_DISCARDED f).event d R.NW_EVENTS_NO_NEIGHBOUR 0 f).askNeighbour d p.sp p.vlan p.dst
    | some mac =>
      let ip : IpSend := ⟨x.spAddr p.sp p.dst, p.dst, p.dscp, p.ttl, if isV4 p.dst then id else Config.flowLabel f⟩
      let b := ethPad (ethHead mac (x.spMac p.sp) p.vlan p.pcp (ipType p.dst) ++ ipPacket ip 17 [] (udpSegment ip p.sport p.dport zero payload))
      s.enqueue d (pathQueue (qidOf (num (x.txBody f) 16 2)) p.sp) (x.txFrag f)
        { body := b, len := b.length + 4, at_ := at_, flow := some f, unit := x.lineNow (x.fld R.NW_TX_CFG_CADENCE f) }) s

/-- PACKET_BUILD: an RTP packet is built and queued, and the sequence number rises. -/
def State.rtpSend (s : State) (d : DieId) (f at_ ts : Nat) (marker : Bool) (payload : List Byte) : State :=
  let b := (s.die d).txBody f
  let seq := ((s.die d).tx f).seq
  let s := s.txQueue d f at_ ([0x80, BitVec.ofNat 8 (b2n marker * 128 + num b 3 1 % 128)] ++ natBE 2 seq ++ natBE 4 ts ++ natBE 4 (num b 4 4) ++ payload)
  ((s.upd d fun x => x.modTx f fun v => { v with seq := (v.seq + 1) % 2 ^ 32 }).count d R.NW_TX_PACKETS f).setFld d R.NW_TX_SEQ_SEQ seq f

/-! ### ST 2110-20 (R359, R363, R400) -/

/-- How a picture of a -20 flow falls into packets. -/
structure Cut where
  fm : PicFmt
  interlaced : Bool
  /-- lines of pgroups: lines, or double lines for 4:2:0 -/
  units : Nat
  /-- bytes of one line of pgroups -/
  bytes : Nat
  /-- bytes of line data in a packet -/
  data : Nat
  block : Bool
  deriving DecidableEq, Repr

def Die.txCut (x : Die) (f : Nat) : Cut :=
  let b := x.txFormat f
  let fm : PicFmt := ⟨num b 0 2, num b 2 2, num b 4 1, num b 5 1⟩
  let block := num b 7 1 == 1
  let pg := max 1 (fm.order.length * fm.depth)
  let group := if pg % 8 = 0 then pg / 8 else if pg * 2 % 8 = 0 then pg / 4 else pg / 2
  let lim := x.txLimit f
  { fm := fm, interlaced := num b 6 1 == 1, units := fm.height / fm.unit, bytes := fm.lineBytes, block := block
    data := max 1 (if block then (lim - 32) / 180 * 180 else (lim - 20) / max 1 group * group) }
/-- NPACKETS. -/
def Cut.packets (c : Cut) : Nat := if c.block then cdiv (c.units * c.bytes) c.data else c.units * cdiv c.bytes c.data
/-- What packet `k` carries: line of pgroups, byte offset, length. -/
def Cut.pieces (c : Cut) (k : Nat) : List (Nat × Nat × Nat) :=
  if c.bytes = 0 then []
  else if c.block then
    let a := k * c.data
    let e := min ((k + 1) * c.data) (c.units * c.bytes)
    (List.range ((e - 1) / c.bytes + 1 - a / c.bytes)).map fun i =>
      let u := a / c.bytes + i
      (u, max a (u * c.bytes) - u * c.bytes, min e ((u + 1) * c.bytes) - max a (u * c.bytes))
  else
    let per := cdiv c.bytes c.data
    [(k / per, k % per * c.data, min c.data (c.bytes - k % per * c.data))]
/-- The field and the row of a line of pgroups, and its line in the frame's grid. -/
def Cut.place (c : Cut) (l u : Nat) : Nat × Nat × Nat :=
  let half := c.units / 2
  if c.interlaced then (let j := u / max 1 half; (j, u % max 1 half * c.fm.unit, fieldStart l j + u % max 1 half * c.fm.unit))
  else (0, u * c.fm.unit, u * c.fm.unit)

/-- The position of packet `k` of frame `fr` by its sender type: type NL over the whole frame, N and W over its active part, each
field of an interlaced picture in its own half. -/
def Die.txAt (x : Die) (f : Nat) (g : Grid) (c : Cut) (fr : Int) (k : Nat) : Nat :=
  let tframe := second * g.d / g.n
  let np := max 1 c.packets
  let b := x.txBody f
  let active := if num b 2 1 = 1 then tframe else tframe * min g.l c.fm.height / g.l
  let second_ := if c.interlaced ∧ num b 2 1 ≠ 1 ∧ np ≤ 2 * k then (tframe - active) / 2 else 0
  g.instant (fr * g.l) + num b 20 4 * nsec + k * active / np + second_

/-- The frame after `fr`: the next of the grid, or where a step of station time has moved it (R59). -/
def Die.nextFrame (x : Die) (cad : Nat) (g : Grid) (fr : Int) : Int :=
  let cur := g.frame (x.cad cad).next
  if fr - 1 ≤ cur ∧ cur ≤ fr + 2 then fr + 1 else cur

/-- A packet of a -20 flow at its position: the line data of its timed route, held as staging keeps it, with fresh timestamps. -/
def State.txVideo (s : State) (d : DieId) (f : Nat) (g : Grid) : State :=
  let x := s.die d
  let v := x.tx f
  let c := x.txCut f
  let src := x.fld R.NW_TX_CFG_SOURCE f
  let route := (x.bodyOf 4 0x404 (pkgLane d src)).getD []
  let unit (u : Nat) : List Byte :=
    let y := (c.place g.l u).2.2
    c.fm.pack (if c.fm.unit = 2 then c.fm.join (x.routeLine d src route y) (x.routeLine d src route (y + 1)) else x.routeLine d src route y)
  let ps := c.pieces v.k
  let field := ((ps.head?.map fun p => (c.place g.l p.1).1)).getD 0
  let lastOfField := decide (v.k + 1 = c.packets) || (c.interlaced && field == 0 &&
    (((c.pieces (v.k + 1)).head?.map fun p => (c.place g.l p.1).1)).getD 0 == 1)
  let heads := ps.zipIdx.flatMap fun e =>
    let p := e.1
    let (j, row, _) := c.place g.l p.1
    natBE 2 p.2.2 ++ natBE 2 (j * 32768 + row) ++ natBE 2 (b2n (decide (e.2 + 1 < ps.length)) * 32768 + p.2.1 * c.fm.width / max 1 c.bytes)
  let data := ps.flatMap fun p => subBytes (unit p.1 ++ pad c.bytes) p.2.1 p.2.2
  let at_ := x.txAt f g c v.frame v.k
  let s := s.rtpSend d f at_ (unsgn 32 (g.stamp v.frame (if c.interlaced then field else 0))) lastOfField
    (natBE 2 (v.seq / 65536) ++ heads ++ data)
  let last := decide (c.packets ≤ v.k + 1)
  s.upd d fun x => x.modTx f fun v =>
    { v with k := if last then 0 else v.k + 1, frame := if last then x.nextFrame (x.fld R.NW_TX_CFG_CADENCE f) g v.frame else v.frame }

/-! ### ST 2110-40 (R359) -/

/-- The start of the picture that an ancillary flow is at: of its frame, or of the field that it has come to where it is interlaced,
plus TRO. -/
def Die.txAncAt (x : Die) (f : Nat) (g : Grid) : Nat :=
  g.instant ((x.tx f).frame * g.l + fieldStart g.l (x.tx f).k) + num (x.txBody f) 20 4 * nsec

/-- The ancillary packet of a picture, at its start plus TRO: the entry that DMA has written for it, or one without ancillary data
(log entry 44). -/
def State.txAnc (s : State) (d : DieId) (f : Nat) (g : Grid) : State :=
  let x := s.die d
  let v := x.tx f
  let at_ := x.txAncAt f g
  let ts := unsgn 32 (g.stamp v.frame v.k)
  let (s, body) := match x.entryChan f with
    | some _ =>
      let (q, e) := (x.entryQ f).take
      let s := s.upd d fun x => x.setEntryQ d f q
      (if e.isSome then s else s.dmUnderrun d f, e)
    | none => (s, some (pad 6))
  let s := match body with
    | some b => s.rtpSend d f at_ ts true (natBE 2 (v.seq / 65536) ++ b)
    | none => s
  let more := num (x.txFormat f) 6 1 == 1 && v.k == 0
  s.upd d fun x => x.modTx f fun v =>
    { v with k := b2n more, frame := if more then v.frame else x.nextFrame (x.fld R.NW_TX_CFG_CADENCE f) g v.frame }

/-! ### ST 2110-30 and -31 (R361, R453) -/

/-- Sampling rate, samples per packet, channels and bits of an audio flow (log entry 31). -/
def Die.txAudioFs (x : Die) (f : Nat) : Nat := if num (x.txFormat f) 4 1 = 1 then 96000 else 48000
def Die.txSamples (x : Die) (f : Nat) : Nat := max 1 (num (x.txFormat f) 2 2)

/-- One sample in a packet: linear PCM, or an AES3 subframe with its bits, parity and frame start (ST 2110-31). -/
def txSample (aes : Bool) (depth ch : Nat) (w : W32) : List Byte :=
  if aes then
    let v := w.toNat
    let low := b2n (bit v 4) * 32 + b2n (ch % 2 == 0) * 16 + b2n (bit v 5) * 4 + b2n (bit v 6) * 2 + b2n (bit v 7)
    let ones := popCount (v / 256 * 8 + low % 8) 32
    BitVec.ofNat 8 (low + ones % 2 * 8) :: natBE 3 (auSample w)
  else natBE (depth / 8) (auRound depth (auSample w))

/-- An audio packet at the end of its samples: silence in the gap of a step (R379). -/
def State.txAudio (s : State) (d : DieId) (f : Nat) : State :=
  let x := s.die d
  let v := x.tx f
  let aes := x.fld R.NW_TX_CFG_KIND f == 3
  let fs := x.txAudioFs f
  let n := x.txSamples f
  let hold := (x.cad (x.fld R.NW_TX_CFG_CADENCE f)).inGap
  let depth := if num (x.txFormat f) 5 1 = 16 then 16 else 24
  let body := (List.range n).flatMap fun (i : Nat) => (List.range (num (x.txFormat f) 0 2)).flatMap fun ch =>
    txSample aes depth ch (if hold then 0 else x.auOut (if aes then 3 else 2) f ch (auTime fs (v.pos + (i : Int))))
  let s := s.rtpSend d f (auTime fs (v.pos + n)) (unsgn 32 v.pos) false body
  s.upd d fun x => x.modTx f fun v =>
    let now := auAt fs x.clk.now
    let next := v.pos + n
    { v with pos := if (next - now).natAbs ≤ 4 * n then next else (now / n + 1) * n }

/-! ### ST 2110-22 (R367) -/

/-- The payloads of one NAL unit: a single NAL unit packet, or fragmentation units at the payload limit. -/
def nalPayloads (vvc : Bool) (lim : Nat) (nal : List Byte) : List (List Byte) :=
  if nal.length ≤ lim then [nal]
  else
    let body := nal.drop 2
    let size := max 1 (lim - 3)
    let parts := groupsOf size body
    parts.zipIdx.map fun e =>
      let ty := if vvc then be nal 1 1 / 8 else be nal 0 1 / 2 % 64
      let flags := b2n (e.2 == 0) * 128 + b2n (e.2 + 1 == parts.length) * 64
      let head : List Byte := if vvc then [nal.getD 0 0, BitVec.ofNat 8 (29 * 8 + be nal 1 1 % 8)]
        else [BitVec.ofNat 8 (be nal 0 1 / 128 * 128 + 49 * 2 + be nal 0 1 % 2), nal.getD 1 0]
      head ++ [BitVec.ofNat 8 (flags + ty)] ++ e.1
/-- The payloads of a slice's queue entry: the prefix NAL units in one aggregation packet where they fit together. -/
def entryPayloads (vvc : Bool) (lim : Nat) (prefix_ nals : List (List Byte)) : List (List Byte) :=
  let size := prefix_.foldl (fun n b => n + 2 + b.length) 2
  let pre : List (List Byte) :=
    if prefix_.length < 2 ∨ lim < size then prefix_.flatMap (nalPayloads vvc lim)
    else
      let head : List Byte := if vvc then [(prefix_.headD []).getD 0 0, BitVec.ofNat 8 (28 * 8 + be (prefix_.headD []) 1 1 % 8)]
        else [BitVec.ofNat 8 (48 * 2 + be (prefix_.headD []) 0 1 % 2), (prefix_.headD []).getD 1 0]
      [head ++ prefix_.flatMap fun b => natBE 2 b.length ++ b]
  pre ++ nals.flatMap (nalPayloads vvc lim)

/-- The NAL unit is a slice. -/
def isSlice (vvc : Bool) (nal : List Byte) : Bool := if vvc then decide (be nal 1 1 / 8 ≤ 11) else decide (be nal 0 1 / 2 % 64 ≤ 31)

/-- The NAL units of a slice's queue entry as a flow sends them, those ahead of the first slice apart: what DMA has put into the flow's
entry, or the channel's own; none where the entry is not closed or is bad at its position (R500). -/
def State.txEntry (s : State) (d : DieId) (f : Nat) (e : Slice) : State × Option (List (List Byte) × List (List Byte)) :=
  match (s.die d).entryChan f with
  | none => (s, some (e.pre, e.slices ++ e.filler))
  | some _ =>
    let (q, b) := ((s.die d).entryQ f).take
    let s := s.upd d fun x => x.setEntryQ d f q
    let vvc := (s.die d).flag R.EN_CFG_CODEC e.chan
    match b with
    | some b =>
      let l := (splitNals b).map fun n => n.2.2
      (s, some (l.takeWhile fun n => !isSlice vvc n, l.dropWhile fun n => !isSlice vvc n))
    | none => (s.dmUnderrun d f, none)

/-- The packets of a slice, all eligible at its position; the last of an access unit carries the marker. -/
def State.txSlice (s : State) (d : DieId) (f : Nat) (g : Grid) (e : Slice) : State :=
  let vvc := (s.die d).flag R.EN_CFG_CODEC e.chan
  let (s, nals) := s.txEntry d f e
  match nals with
  | none => s
  | some l =>
    let ps := entryPayloads vvc ((s.die d).txLimit f - 12) l.1 l.2
    ps.zipIdx.foldl (fun s p =>
      s.rtpSend d f (s.die d).clk.now (unsgn 32 (g.stamp e.frame e.field)) (e.last && decide (p.2 + 1 = ps.length)) p.1) s

/-! ### MPEG-2 TS (R368 to R370) -/

/-- A TS packet: PID, payload start, continuity counter, adaptation field contents and payload, stuffed to 188 bytes. -/
def tsPacket (pid : Nat) (start : Bool) (cc : Nat) (adapt : Option (List Byte)) (body : List Byte) : List Byte :=
  let room := 184 - body.length
  let af : List Byte := match adapt with
    | some a => BitVec.ofNat 8 (room - 1) :: (a ++ List.replicate (room - 1 - a.length) 0xFF)
    | none => if room = 0 then [] else if room = 1 then [0] else BitVec.ofNat 8 (room - 1) :: 0 :: List.replicate (room - 2) 0xFF
  [0x47] ++ natBE 2 (b2n start * 0x4000 + pid % 8192) ++ [BitVec.ofNat 8 ((b2n (!af.isEmpty) * 2 + b2n (!body.isEmpty)) * 16 + cc % 16)] ++ af ++ body
/-- Queues one TS packet of a flow. -/
def Die.tsPut (x : Die) (f pid : Nat) (start : Bool) (body : List Byte) : Die :=
  let cc := mget (fun _ => 0) (x.tx f).cc pid
  x.modTx f fun v => { v with queue := v.queue ++ [tsPacket pid start cc none body], cc := mput (fun _ => 0) v.cc pid ((cc + 1) % 16) }
/-- Queues a payload in as many TS packets as it takes. -/
def Die.tsPuts (x : Die) (f pid : Nat) (start : Bool) (body : List Byte) : Die :=
  (groupsOf 184 body).zipIdx.foldl (fun x e => x.tsPut f pid (start && e.2 == 0) e.1) x

/-- The CRC of a section (polynomial 0x04C11DB7). -/
def sectionCrc (b : List Byte) : List Byte := natBE 4 (crcFeed 32 0x04C11DB7 false 0xFFFFFFFF b)
/-- A section with its length and CRC: table, extension and body. -/
def psiSection (table ext : Nat) (body : List Byte) : List Byte :=
  let b : List Byte := [BitVec.ofNat 8 table] ++ natBE 2 (0xB000 + body.length + 9) ++ natBE 2 ext ++ [0xC1, 0, 0] ++ body
  b ++ sectionCrc b
/-- PAT and PMT of a flow: video, 302M audio with BSSD, and SCTE 35 with CUEI (R368). -/
def Die.tsPsi (x : Die) (f : Nat) : Die :=
  let b := x.txBody f
  let pmt := num b 38 2
  let es (ty pid : Nat) (desc : List Byte) : List Byte := [BitVec.ofNat 8 ty] ++ natBE 2 (0xE000 + pid) ++ natBE 2 (0xF000 + desc.length) ++ desc
  let video := num b 40 2
  let scte := num b 44 2
  let cuei : List Byte := if scte = 0 then [] else [5, 4, 0x43, 0x55, 0x45, 0x49]
  let body := natBE 2 (0xE000 + video) ++ natBE 2 (0xF000 + cuei.length) ++ cuei
    ++ es (if x.flag R.EN_CFG_CODEC (x.fld R.NW_TX_CFG_SOURCE f) then 0x33 else 0x24) video []
    ++ (if num b 42 2 = 0 then [] else es 6 (num b 42 2) [5, 4, 0x42, 0x53, 0x53, 0x44])
    ++ (if scte = 0 then [] else es 0x86 scte [])
  let x := x.tsPuts f 0 true (0 :: psiSection 0 (Config.tsId f) (natBE 2 (num b 36 2) ++ natBE 2 (0xE000 + pmt)))
  x.tsPuts f pmt true (0 :: psiSection 2 (num b 36 2) body)

/-- A PTS in the five bytes of a PES header. -/
def ptsBytes (p : Nat) : List Byte :=
  [BitVec.ofNat 8 (0x21 + p / 2 ^ 30 % 8 * 2)] ++ natBE 2 (p / 2 ^ 15 % 2 ^ 15 * 2 + 1) ++ natBE 2 (p % 2 ^ 15 * 2 + 1)
/-- A PES header with its PTS; a length of 0 leaves it open. -/
def pesHead (id flags len pts : Nat) : List Byte :=
  [0, 0, 1, BitVec.ofNat 8 id] ++ natBE 2 (if len = 0 then 0 else len + 8) ++ [BitVec.ofNat 8 flags, 0x80, 5] ++ ptsBytes pts
/-- The PTS of a time in 90 kHz ticks (R369). -/
def Die.ptsOf (x : Die) (f : Nat) (ticks : Int) : Nat := unsgn 33 (ticks + num (x.txBody f) 48 4)

/-- SMPTE 302M: the header, and for each pair of samples the bits of two subframes, least significant first. -/
def pes302 (n : Nat) (ws : List (List W32)) : List Byte :=
  let sub (w : W32) (first : Bool) : List Bool :=
    ((List.range 24).map fun i => bit (auSample w) i) ++ [bit w.toNat 7, bit w.toNat 6, bit w.toNat 5, first && bit w.toNat 4]
  let bits_ := ws.flatMap fun l => (List.range (n / 2)).flatMap fun i => sub (l.getD (2 * i) 0) true ++ sub (l.getD (2 * i + 1) 0) false
  let data := packBits (bits_.length / 8) bits_
  natBE 4 (data.length * 65536 + (n / 2 - 1) % 4 * 2 ^ 14 + 2 * 16) ++ data

/-- The audio of a picture period for a TS flow, that of a slice's picture: one PES, with the time of its first sample. -/
def Die.tsAudio (x : Die) (f : Nat) (g : Grid) (e : Slice) : Die :=
  let pid := num (x.txBody f) 42 2
  let n := x.auChansTo 4 (x.fld R.NW_TX_CFG_SOURCE f)
  if pid = 0 ∨ n = 0 then x
  else
    let last := decide (x.picsPer e.chan ≤ e.field + 1)
    let a := auFrom 48000 (g.instant (e.frame * g.l + fieldStart g.l e.field))
    let b := auFrom 48000 (g.instant (if last then (e.frame + 1) * g.l else e.frame * g.l + fieldStart g.l (e.field + 1)))
    let ws := (List.range (b - a).toNat).map fun (i : Nat) => (List.range n).map fun ch =>
      x.auOut 4 (x.fld R.NW_TX_CFG_SOURCE f) ch (auTime 48000 (a + (i : Int)))
    let data := pes302 (n + n % 2) ws
    x.tsPuts f pid true (pesHead 0xBD 0x84 data.length (x.ptsOf f (a * 90000 / 48000)) ++ data)

/-- Bytes go into the video PES: full TS packets are queued, and an access unit's last is stuffed. A splice section that waits follows
the packet with the end of the first slice (R225). -/
def Die.tsBytes (x : Die) (f : Nat) (first last : Bool) (stream : List Byte) : Die :=
  let pid := num (x.txBody f) 40 2
  let v := x.tx f
  let bytes := v.part.1 ++ stream
  let start := v.part.2 || first
  let full := bytes.length / 184
  let lead := if v.sections.isEmpty then full else min 1 full
  let x := x.tsPuts f pid start (bytes.take (184 * lead))
  let x := if lead = 0 ∨ v.sections.isEmpty then x
    else (v.sections.foldl (fun x b => x.tsPuts f (num (x.txBody f) 44 2) true b) x).modTx f fun v => { v with sections := [] }
  let x := x.tsPuts f pid (start && lead == 0) ((bytes.take (184 * full)).drop (184 * lead))
  let rest := bytes.drop (184 * full)
  if !last then x.modTx f fun v => { v with part := (rest, start && full == 0) }
  else
    let x := (if rest.isEmpty then x else x.tsPuts f pid (start && full == 0) rest).modTx f fun v => { v with part := ([], false) }
    ((x.tx f).sections.foldl (fun x b => x.tsPuts f (num (x.txBody f) 44 2) true b) x).modTx f fun v => { v with sections := [] }
/-- Splice sections go behind the first slice's last TS packet: at once where that packet is full (R225). -/
def Die.tsSections (x : Die) (f : Nat) (l : List (List Byte)) : Die :=
  if (x.tx f).part.1.isEmpty then l.foldl (fun x b => x.tsPuts f (num (x.txBody f) 44 2) true b) x
  else x.modTx f fun v => { v with sections := v.sections ++ l }

/-- The splice sections of the arrival picture that a slice begins, as a flow sends them, in order (R225): each with its PTS. -/
def Die.tsSplices (x : Die) (f : Nat) (g : Grid) (e : Slice) : List (List Byte) :=
  let k : Int := x.picsPer e.chan
  if !e.first ∨ num (x.txBody f) 44 2 = 0 then []
  else ((x.enc' e.chan).splices.filter fun p => p.pic == x.picNo e.chan e.frame e.field).filterMap fun p =>
    (scteCommand p.op (p.time.map fun n => x.ptsOf f (g.stamp (n / k) (n % k).toNat))).map fun c => 0 :: Config.spliceSection c p.body

/-- The NAL units of a slice's entry go into the video PES: start codes of four bytes before an access unit, of three elsewhere (R368);
what splice sections there are follows its first slice. -/
def Die.tsVideo (x : Die) (f : Nat) (g : Grid) (e : Slice) (nals : List (List Byte) × List (List Byte)) : Die :=
  let head : List Byte := if e.first then pesHead 0xE0 0x84 0 (x.ptsOf f (g.ticks ((e.frame * g.l + fieldStart g.l e.field) * 65536) 90000)) else []
  let code (l : List (List Byte)) (lead : Bool) : List Byte :=
    l.zipIdx.flatMap fun n => (if lead && n.2 == 0 then [0, 0, 0, 1] else [0, 0, 1]) ++ n.1
  let l := nals.1 ++ nals.2
  let n := nals.1.length + 1
  let x' := x.tsBytes f e.first (e.last && decide (l.length ≤ n)) (head ++ code (l.take n) e.first)
  let x' := x'.tsSections f (x.tsSplices f g e)
  if l.length ≤ n then x' else x'.tsBytes f false e.last (code (l.drop n) false)

/-- The splice messages of the pictures up to the one that a slice begins are done: those that left as sections count as sent, and none
waits any more (R225, R226, R228). -/
def State.splicesDone (s : State) (d : DieId) (e : Slice) : State :=
  let x := s.die d
  let n := x.picNo e.chan e.frame e.field
  let ts := (x.recsOf 6 0x603).any fun r => (num r.2.body 0 1 == 5 || num r.2.body 0 1 == 6) && num r.2.body 12 2 == e.chan && num r.2.body 44 2 != 0
  let sent := if ts then ((x.enc' e.chan).splices.filter fun p => p.pic == n).length else 0
  let lost := ((x.enc' e.chan).splices.filter fun p => decide (p.pic ≤ n)).length - sent
  let s := s.upd d fun x => x.modEnc e.chan fun c => { c with splices := c.splices.filter fun p => decide (n < p.pic) }
  let s := if sent = 0 then s else (s.count d R.EN_SCTE_DONE e.chan sent).event d R.EN_EVENTS_SCTE_SENT e.chan
  if lost = 0 then s else (s.count d R.EN_SCTE_DROP e.chan lost).event d R.EN_EVENTS_SCTE_DROPPED e.chan

/-- A slice becomes eligible: every send flow of its channel takes it (R204, R360). -/
def State.txSlices (s : State) (d : DieId) (g : Grid) (e : Slice) : State :=
  let fs := ((s.die d).recsOf 6 0x603).filter fun r => (num r.2.body 0 1 == 1 || num r.2.body 0 1 == 5 || num r.2.body 0 1 == 6)
    && num r.2.body 12 2 == e.chan
  let s := fs.foldl (fun s r =>
    let f := r.2.idx
    if num r.2.body 0 1 = 1 then s.txSlice d f g e
    else
      let (s, nals) := s.txEntry d f e
      let s := match nals with
        | some l => s.upd d fun x => x.tsVideo f g e l
        | none => s.upd d fun x => x.tsSections f (x.tsSplices f g e)
      if e.first then s.upd d fun x => x.tsAudio f g e else s) s
  if e.first then s.splicesDone d e else s

/-- The time of datagram `n` of a TS flow as a fraction of a second (R370): numerator and denominator. -/
def Die.tsTime (x : Die) (f : Nat) (g : Grid) (n : Nat) : Int × Nat :=
  let mux := max 1 (num (x.txBody f) 32 4)
  (((x.tx f).start + g.k) * (g.d * mux * 1000) + ((n * 10528 * 65536 * g.n * g.l : Nat) : Int), 65536 * g.n * g.l * mux * 1000)
/-- floor(t x rate) of a datagram's planned time. -/
def Die.tsTicks (x : Die) (f : Nat) (g : Grid) (n rate : Nat) : Int := let t := x.tsTime f g n; t.1 * rate / (t.2 : Int)

/-- A datagram of a TS flow at its planned position: PAT and PMT every 100 ms, PCR at least every 35 ms, what waits, and null
packets. -/
def State.txDatagram (s : State) (d : DieId) (f : Nat) (g : Grid) : State :=
  let x := s.die d
  let v := x.tx f
  let n := v.k
  let us (a b : Nat) : Int := x.tsTicks f g b 1000000 - x.tsTicks f g a 1000000
  let psi := match v.psi.1 with | some a => decide (100000 < us a (n + 1)) | none => true
  let pcr := match v.psi.2 with | some a => decide (35000 < us a (n + 1)) | none => true
  let x := if psi then (let q := (x.tx f).queue; let y := (x.modTx f fun v => { v with queue := [] }).tsPsi f; y.modTx f fun v => { v with queue := v.queue ++ q }) else x
  let pid := num (x.txBody f) 40 2
  let clock := unsgn 64 (x.tsTicks f g n 27000000) % (2 ^ 33 * 300)
  let af : List Byte := [0x10] ++ natBE 6 (clock / 300 * 2 ^ 15 + 0x7E00 + clock % 300)
  let first : List (List Byte) :=
    if pcr then [tsPacket pid false ((mget (fun _ => 0) (x.tx f).cc pid + 15) % 16) (some af) []] else []
  let q := (x.tx f).queue
  let body := first ++ q.take (7 - first.length)
  let null : List Byte := tsPacket 0x1FFF false 0 none (pad 184)
  let payload := (body ++ List.replicate (7 - body.length) null).flatten
  let x := x.modTx f fun v => { v with
    queue := v.queue.drop (7 - first.length), k := n + 1
    psi := (if psi then some n else v.psi.1, if pcr then some n else v.psi.2) }
  let s := s.setDie d x
  let t := x.tsTime f g n
  let at_ := (t.1 * second / (t.2 : Int)).toNat
  if x.fld R.NW_TX_CFG_KIND f = 6 then s.rtpSend d f at_ (unsgn 32 (x.tsTicks f g n 90000)) false payload
  else (s.txQueue d f at_ payload).count d R.NW_TX_PACKETS f

/-! ### Positions (R360, R370, R400) -/

/-- The station time of the next packet that a flow places by itself; a slice's packets come with its slice. -/
def Die.txDue (x : Die) (f : Nat) : Option Nat :=
  match x.bodyOf 6 0x603 f, x.grid (x.fld R.NW_TX_CFG_CADENCE f) with
  | some b, some g =>
    let v := x.tx f
    match num b 0 1 with
    | 0 => some (x.txAt f g (x.txCut f) v.frame v.k)
    | 2 => some (auTime (x.txAudioFs f) (v.pos + x.txSamples f))
    | 3 => some (auTime (x.txAudioFs f) (v.pos + x.txSamples f))
    | 4 => some (x.txAncAt f g)
    | 1 => none
    | _ => let t := x.tsTime f g v.k; some (t.1 * second / (t.2 : Int)).toNat
  | _, _ => none

/-- PACKET_POSITION: a flow reaches the position of its next packet. -/
def State.packetPosition (s : State) (d : DieId) (f : Nat) : State :=
  match (s.die d).txDue f, (s.die d).grid (s.fld d R.NW_TX_CFG_CADENCE f) with
  | some t, some g =>
    let s := s.advanceStation d t
    match s.fld d R.NW_TX_CFG_KIND f with
    | 0 => s.txVideo d f g
    | 2 => s.txAudio d f
    | 3 => s.txAudio d f
    | 4 => s.txAnc d f g
    | _ => s.txDatagram d f g
  | _, _ => s

def execPacketPosition (d : DieId) (f : Fin 1024) (s : State) : Result := onDie s d true (s.packetPosition d f)

end Sys2Proof.Machine
end

