-- ==== Sys2Proof/Machine/Pairing.lean ====
section
/-! DEFINITION. Two dies (18_pairing.md): rotation slots and records of the milk-run link, the whey line, the pail with its
lease, handover, take and seizure, check values, and rejoining. What a forwarded control message does is in Machine/Link.lean. -/

namespace Sys2Proof.Machine

/-- The elements of a list, each once. -/
def uniq {α : Type} [DecidableEq α] : List α → List α
  | [] => []
  | a :: l => a :: (uniq l).filter fun b => b != a

def Die.modMr (x : Die) (f : Pairing → Pairing) : Die := { x with mr := f x.mr }
def Die.pail (x : Die) (p : Nat) : PailSt := mget (fun _ => {}) x.mr.pails p
def Die.modPail (x : Die) (p : Nat) (f : PailSt → PailSt) : Die :=
  x.modMr fun m => { m with pails := mmod (fun _ => {}) m.pails p f }

/-- The link is up on a die (R532). -/
def Die.linkUp (x : Die) : Bool := x.flag R.MR_STATUS_LINK_UP
/-- The role of a die for a pail (R540): 0 NONE, 1 HOLDER, 2 STANDBY, 3 EXPIRED, 4 RESYNCING. -/
def Die.role (x : Die) (p : Nat) : Nat := x.fld R.MR_PAIL_STATE_ROLE p
/-- The plan gives the cadence a pail. -/
def Die.pailUsed (x : Die) (p : Nat) : Bool := x.flag R.MR_PAIL_CFG_USED p
/-- LEASE in lines, which the register shows less 1 (R558). -/
def Die.lease (x : Die) (p : Nat) : Nat := x.fld R.MR_PAIL_CFG_LEASE p + 1
/-- The in-step encode channels of a cadence. -/
def Die.inStepOn (x : Die) (p : Nat) : List Nat :=
  (x.listed R.MR_EC_INSTEP 256).filter fun n => x.flag R.MR_EC_INSTEP n && x.fld R.EN_TIMING_CADENCE n == p
/-- A channel of the pail is DIVERGED. -/
def Die.diverged (x : Die) (p : Nat) : Bool := (x.inStepOn p).any fun n => x.flag R.MR_EC_DIVERGED n
def Die.showDiverged (x : Die) (p : Nat) : Die := x.setBit R.MR_STATUS_DIVERGED 0 p (x.diverged p)

/-- A role is entered; land PAILp follows MR_STATUS.HOLDER (R540, R545). -/
def Die.setRole (x : Die) (p r : Nat) : Die :=
  (x.setFld R.MR_PAIL_STATE_ROLE r p).setBit R.MR_STATUS_HOLDER 0 p (r == 1)
/-- The expiry or the view of a pail, and the line of it that LIMIT shows. -/
def Die.setLimit (x : Die) (p : Nat) (m : Int) : Die :=
  let x := x.modPail p fun v => { v with limit := m }
  match x.grid p with | some g => x.setFld R.MR_PAIL_STATE_LIMIT (g.line m) p | none => x

/-- The position of a 13-bit line that is nearest to the die's own on the pail's cadence (R536). -/
def Die.nearLine (x : Die) (p line : Nat) : Int :=
  match x.grid p with
  | some g =>
    let m := x.lineNow p
    let n : Int := ((line : Int) - m) % (g.l : Int)
    m + (if (g.l : Int) < 2 * n then n - g.l else n)
  | none => 0

/-! ### Rotation records and whey items as bits (R533, R536) -/

/-- CRC-8 of an item over its bits [47:8]. -/
def itemCrc (w : Nat) : Nat := (toBits 40 w).foldl (crcBit 8 0x07) 0
/-- The 48 bits of an item. -/
def itemBits (ty pail seq line drained : Nat) : Nat :=
  let w := ty * 2 ^ 37 + pail % 8 * 2 ^ 34 + seq % 256 * 2 ^ 26 + line % 8192 * 2 ^ 13 + drained % 8192
  w * 256 + itemCrc w
def LeaseItem.word (i : LeaseItem) : Nat := itemBits i.ty i.pail i.seq i.line i.drained
/-- A frame of the whey line: 0xD5, the item, and two idle bits (R536). -/
def wheyFrame (w : Nat) : Nat := (0xD5 * 2 ^ 48 + w) * 4 + 3

/-- A check record's 64 bits (R547). -/
def Chk.word (c : Chk) : Nat :=
  c.chan % 256 * 2 ^ 56 + unsgn 8 c.frame * 2 ^ 48 + c.slice % 2048 * 2 ^ 37 + b2n c.fault * 2 ^ 36 + c.crc % 2 ^ 32

/-- Wide form of a station time (R39). -/
def wideOf (t : Nat) : Nat := secOf t * 2 ^ 48 + nsOf t * 65536 + t % 65536

/-- The code of a record's class. -/
def LinkRec.cls : LinkRec → Nat
  | .idle => 0 | .timing .. => 1 | .lease _ => 2 | .check _ => 3 | .control .. => 4 | .plan .. => 5
/-- The body of a record: four items, three check records, or a timing word; no rule lays out the others (log entry 47). -/
def LinkRec.body (x : Die) (free : Nat) : LinkRec → Nat
  | .idle => 0
  | .timing t fl =>
    let step := (x.clk.servo.step.map fun s => s.tdiv 16).getD 0
    wideOf t % 2 ^ 112 * 2 ^ 112 + x.clk.servo.state.code * 2 ^ 109 + b2n fl.1 * 2 ^ 108 + b2n fl.2 * 2 ^ 107
      + b2n x.clk.servo.step.isSome * 2 ^ 106 + unsgn 64 step * 2 ^ 42
  | .lease l => (((l.map LeaseItem.word) ++ List.replicate 4 0).take 4).foldl (fun n w => n * 2 ^ 48 + w) 0 * 2 ^ 32
  | .check l => (((l.map Chk.word) ++ List.replicate 3 0).take 3).foldl (fun n w => n * 2 ^ 64 + w) 0 * 2 ^ 32
  | .control .. => Config.linkBody free % 2 ^ 224
  | .plan _ k _ => (k * 24) * 2 ^ 192 + Config.linkBody free % 2 ^ 192
/-- The 256 bits of a record, with its CRC-16 (R533). -/
def recordBits (cls seq body : Nat) : Nat :=
  let w := cls * 2 ^ 236 + seq % 4096 * 2 ^ 224 + body
  w * 65536 + (toBits 240 w).foldl (crcBit 16 0x1021) 0xFFFF

/-! ### Sending (R534, R536, R537) -/

/-- LINK_MUTE holds back rotation records (bit 0) or whey items (bit 1) of a die (R594, class 7). -/
def Die.muted (x : Die) (i : Nat) : Bool := (x.pertAmounts 7 0 0).any fun v => bit v i

/-- Puts an item on the whey line. -/
def State.sendWhey (s : State) (d : DieId) (i : LeaseItem) : State :=
  if (s.die d).muted 1 then s
  else (s.upd d fun x => x.modMr fun m => { m with items := m.items ++ [i] }).send (.link d true (wheyFrame i.word))
/-- Sends a lease item: in LEASE records while the link is up on the sender, on the whey line otherwise (R537). -/
def State.sendItem (s : State) (d : DieId) (i : LeaseItem) : State :=
  let up := (s.die d).linkUp
  let s := s.setFld d R.MR_PAIL_STATE_PATH (b2n (!up)) i.pail
  if up then s.upd d fun x => x.modMr fun m => { m with leaseQ := m.leaseQ ++ [i] } else s.sendWhey d i

/-- Queues a control message for the other die; `bytes` is its size (R534). -/
def State.sendControl (s : State) (d : DieId) (m : CtlMsg) (bytes : Nat := 28) : State :=
  s.upd d fun x => x.modMr fun r => { r with
    nextId := r.nextId + 1, ctlQ := r.ctlQ ++ [{ id := r.nextId, msg := m, total := max 1 (cdiv bytes 28) }] }
/-- Queues PLAN traffic. -/
def State.sendPlan (s : State) (d : DieId) (m : PlanMsg) (bytes : Nat) : State :=
  s.upd d fun x => x.modMr fun r => { r with planQ := r.planQ ++ [{ msg := m, total := max 1 (cdiv bytes 24) }] }

/-- The next fragment that a message sends: one that is to be sent again, or the next. -/
def CtlOut.fragment (m : CtlOut) : Option (Nat × CtlOut) :=
  match m.again with
  | (f, n) :: l => some (f, { m with again := l, wait := m.wait ++ [(f, n, 0)] })
  | [] => if m.next < m.total then some (m.next, { m with next := m.next + 1, wait := m.wait ++ [(m.next, 0, 0)] }) else none
/-- The first message that has a fragment to send: the fragment, the message, and the queue after it. -/
def ctlNext : List CtlOut → Option (Nat × CtlOut × List CtlOut)
  | [] => none
  | m :: l => match m.fragment with
    | some (f, m') => some (f, m', m' :: l)
    | none => (ctlNext l).map fun e => (e.1, e.2.1, m :: e.2.2)

/-- The record of class LEASE, CHECK, CONTROL or PLAN that a die has to send, with the die after it; none where nothing of the
class is pending. -/
def Pairing.takeRec (r : Pairing) : Nat → Option (LinkRec × Pairing)
  | 2 => if r.leaseQ.isEmpty then none else some (.lease (r.leaseQ.take 4), { r with leaseQ := r.leaseQ.drop 4 })
  | 3 => if r.checkQ.isEmpty then none else some (.check (r.checkQ.take 3), { r with checkQ := r.checkQ.drop 3 })
  | 4 => match ctlNext r.ctlQ with
    | some (f, m, q) => some (.control (some (m.id, f, m.total)) (some m.msg) r.acks, { r with ctlQ := q, acks := [] })
    | none => if r.acks.isEmpty then none else some (.control none none r.acks, { r with acks := [] })
  | 5 => match r.planQ with
    | p :: l =>
      let last := decide (p.total ≤ p.sent + 1)
      some (.plan p.msg p.sent last, { r with planQ := if last then l else { p with sent := p.sent + 1 } :: l })
    | [] => none
  | _ => none

/-- A CONTROL slot passes for every fragment that waits for its acknowledgement. -/
def Pairing.slotPassed (r : Pairing) : Pairing :=
  { r with ctlQ := r.ctlQ.map fun m => { m with wait := m.wait.map fun w => (w.1, w.2.1, w.2.2 + 1) } }

/-- The class that slot `n` is assigned to (R534). -/
def slotClass (n : Nat) : Nat := if n % 8 = 0 then 2 else if n % 8 = 4 then 4 else 3

/-- The hand-over of die 1's herdbook records (R601): die 1 sends its next record once die 0 has taken the one before, and die 0 takes
one while fewer than 7 records are pending. -/
def State.hbHandOver (s : State) (d : DieId) : State :=
  let h := s.pkg.hb
  if d = 0 then
    match h.offered with
    | some r =>
      if h.pend.length < 7 then ((s.modHb fun h => { h with offered := none }).hbAdd r false).sendControl 0 (.taken h.seq) else s
    | none => s
  else match h.held with
    | r :: _ => if h.sent then s else (s.modHb fun h => { h with sent := true }).sendControl 1 (.record r) 32
    | [] => s

/-- Boot traffic at the head of a die's PLAN queue. -/
def Pairing.boots (r : Pairing) : Bool := match r.planQ with
  | p :: _ => match p.msg with | .release _ => true | _ => false
  | [] => false
/-- A slot before the link is trained carries boot traffic alone (R19, R20, log entry 63). -/
def State.bootSlot (s : State) (d : DieId) : State :=
  let r := (s.die d).mr
  if !r.boots then s
  else match r.takeRec 5 with
    | some (out, r) =>
      let s := { s with free := s.free + 1 }
      let bits_ := recordBits out.cls r.slots (out.body (s.die d) s.free)
      (s.upd d fun x => x.modMr fun _ => { r with slots := r.slots + 1, flight := r.flight ++ [out] }).send (.link d false bits_)
    | none => s

/-- ROTATION_SLOT: the first slot after each 1 us mark carries TIMING, another the class that it is assigned to; where nothing of
that class is pending, CONTROL, then PLAN, then IDLE (R534). -/
def State.rotationSlot (s : State) (d : DieId) : State :=
  let s := if (s.die d).linkUp then s.hbHandOver d else s
  let x := s.die d
  let r := x.mr
  if !x.linkUp then s.bootSlot d
  else
    let cls := slotClass r.slots
    let r := if cls = 4 then r.slotPassed else r
    let mark := x.clk.now / usec
    let fl := (x.clk.servo.state == .free || x.clk.servo.state == .freerun, !x.clk.causes.isEmpty)
    let (out, r) : LinkRec × Pairing :=
      if r.mark < mark then (.timing x.clk.now fl, { r with mark := mark })
      else match r.takeRec cls with
        | some e => e
        | none => match r.takeRec 4 with
          | some e => e
          | none => (r.takeRec 5).getD (.idle, r)
    let muted := x.muted 0
    let s := { s with free := s.free + 1 }
    let bits_ := recordBits out.cls r.slots (out.body x s.free)
    let s := s.upd d fun x => x.modMr fun _ => { r with slots := r.slots + 1, flight := if muted then r.flight else r.flight ++ [out] }
    if muted then s else s.send (.link d false bits_)

/-- HEARTBEAT_SEND: a heartbeat every 10 us of station time, whether or not the link is up (R537). -/
def State.heartbeatSend (s : State) (d : DieId) : State :=
  if !s.dual then s
  else
    let t := max (s.die d).mr.beatAt (s.die d).clk.now
    let s := s.advanceStation d t
    let m := (s.die d).muted 1
    let n := (s.die d).mr.beats.1
    let s := s.upd d fun x => x.modMr fun r => { r with beatAt := t + 10 * usec, beats := (r.beats.1 + 1, r.beats.2 + b2n (!m)) }
    if m then s else s.send (.link d true (wheyFrame (itemBits 4 0 n 0 0)))

/-! ### Receiving -/

/-- The record that reaches die `d` next. -/
def State.linkHead (s : State) (d : DieId) : Option LinkRec := (s.die (peer d)).mr.flight.head?
/-- The record has arrived: it leaves the wire. -/
def State.linkPop (s : State) (d : DieId) : State := s.upd (peer d) fun x => x.modMr fun r => { r with flight := r.flight.drop 1 }
/-- A record of boot traffic. -/
def LinkRec.boots : LinkRec → Bool
  | .plan (.release _) _ _ => true
  | _ => false
/-- A record of class `cls` reaches die `d`: one whose CRC fails is discarded and counted (R533), and none counts while the
receive side is down, boot traffic apart. `f` is what a good one does. -/
def State.linkRecord (s : State) (d : DieId) (cls : Nat) (ok : Bool) (f : State → LinkRec → State) : State :=
  match s.linkHead d with
  | none => s
  | some r =>
    if r.cls ≠ cls then s
    else
      let s := s.linkPop d
      if !(s.die d).linkUp ∧ !r.boots then s else if !ok then s.count d R.MR_REC_ERR else f s r

/-- TIMING_RECORD: MR_LINK.OFFSET, and on die 1 the timing word (R61, R534). -/
def State.timingRecord (s : State) (d : DieId) (r : LinkRec) : State :=
  match r with
  | .timing t fl =>
    let off : Int := ((t : Int) - (s.die d).clk.now) / 4096 + s.fld d R.MR_LINK_DELAY
    let s := s.setFld d R.MR_LINK_OFFSET (unsgn 16 (max (-32768) (min 32767 off)))
    if d = 1 then s.timingWord t fl else s
  | _ => s

/-- A lease item reaches die `d`: the first of a LEASE record, or one on the whey line. One that fails its check is discarded,
with its record (R533, R536). -/
def State.itemIn (s : State) (d : DieId) (ty : Nat) (ok : Bool) (f : State → LeaseItem → Bool → State) : State :=
  let x := s.die (peer d)
  match x.mr.flight with
  | .lease (i :: l) :: rest =>
    if i.ty = ty then
      let s := s.upd (peer d) fun x => x.modMr fun r => { r with flight := if l.isEmpty ∨ !ok then rest else .lease l :: rest }
      if !(s.die d).linkUp then s else if !ok then s.count d R.MR_REC_ERR else f s i false
    else match x.mr.items with
      | j :: m => if j.ty = ty then
          let s := s.upd (peer d) fun x => x.modMr fun r => { r with items := m }
          if !ok then s.count d R.MR_WHEY_ERR else f s j true
        else s
      | [] => s
  | _ => match x.mr.items with
    | j :: m => if j.ty = ty then
        let s := s.upd (peer d) fun x => x.modMr fun r => { r with items := m }
        if !ok then s.count d R.MR_WHEY_ERR else f s j true
      else s
    | [] => s

/-- An item of any type has been received (R544). -/
def State.itemHeard (s : State) (d : DieId) : State := s.upd d fun x => x.modMr fun r => { r with lastItem := s.now }

/-! ### The pail (R541 to R545) -/

/-- The units of a cadence's flows that are leaving. -/
def Die.unitsOn (x : Die) (p : Nat) : List EgUnit :=
  x.tq.units.filter fun u => x.fld R.NW_TX_CFG_CADENCE u.flow == p && (match u.done_ with | some t => decide (x.clk.now < t) | none => true)
/-- The drained position: every unit started before the line pulse of it has left (R546). -/
def Die.drained (x : Die) (p : Nat) (m : Int) : Int := ((x.unitsOn p).map EgUnit.line).foldl min m
/-- Units that have left are forgotten. -/
def Die.pruneUnits (x : Die) : Die :=
  { x with tq := { x.tq with units := x.tq.units.filter fun u => match u.done_ with | some t => decide (x.clk.now < t) | none => true } }

/-- A RENEW or a HANDOVER of the pail leaves, with the drained position at line `m` (R541, R543). -/
def State.sendPail (s : State) (d : DieId) (p ty : Nat) (m line : Int) : State :=
  match (s.die d).grid p with
  | none => s
  | some g =>
    let x := s.die d
    let dr := g.line (x.drained p m)
    let seq := ((x.pail p).seq + 1) % 256
    let s := s.upd d fun x => (x.pruneUnits.modPail p fun v => { v with seq := seq, renewed := if ty = 1 then some m else v.renewed }).setFld
      R.MR_PAIL_STATE_DRAINED dr p
    s.sendItem d ⟨ty, p, seq, g.line line, dr⟩

/-- The holder of a pail renews at line `m`: before its expiry, or while it holds without acknowledgement, and not from a
handover line on (R541, R543). -/
def State.renewSend (s : State) (d : DieId) (p : Nat) (m : Int) : State :=
  let x := s.die d
  let v := x.pail p
  let past := match v.ho with | some h => decide (h ≤ m) | none => false
  if x.role p = 1 ∧ v.renewed ≠ some m ∧ !past ∧ (m < v.limit ∨ x.flag R.MR_PAIL_STATE_UNCOND p) then s.sendPail d p 1 m m else s

/-- Units that a drained position covers are freed (R550). -/
def Die.freeUnits (x : Die) (p : Nat) (m : Int) : Die :=
  let mine (r : Resend) : Bool := (r.pkt.flow.map fun f => x.fld R.NW_TX_CFG_CADENCE f == p).getD false
  { x with tq := { x.tq with resend := x.tq.resend.filter fun r => !(mine r && decide (r.line < m)) } }

/-- A record of a pail's event, with the pail, the frame number and the line (R555). -/
def State.pailEvent (s : State) (d : DieId) (f : Fld) (p value : Nat) : State := s.eventCad d f 0 p p value

/-- RENEW: the standby sets its view and acknowledges; a die that had expired is standby again, or rejoins where a channel has
diverged; a rejoining die takes only the view (R541, R553 to R555). -/
def State.renewIn (s : State) (d : DieId) (i : LeaseItem) (whey : Bool) : State :=
  let x := s.die d
  let s := s.itemHeard d
  let role := x.role i.pail
  if role < 2 then s
  else
    let s := s.upd d fun x =>
      let x := x.setLimit i.pail (x.nearLine i.pail i.line + x.lease i.pail)
      let x := (x.setFld R.MR_PAIL_STATE_PATH (b2n whey) i.pail).setFld R.MR_PAIL_STATE_DRAINED i.drained i.pail
      let x := x.freeUnits i.pail (x.nearLine i.pail i.drained)
      if role = 3 then
        if x.diverged i.pail then (x.inStepOn i.pail).foldl (fun x n => x.setFld R.MR_EC_RESYNCING 1 n) (x.setRole i.pail 4)
        else x.setRole i.pail 2
      else x
    if (s.die d).role i.pail = 2 then s.sendItem d ⟨2, i.pail, i.seq, i.line, 0⟩ else s

/-- ACK: the holder's expiry is the line acknowledged plus LEASE (R541). -/
def State.ackIn (s : State) (d : DieId) (i : LeaseItem) (whey : Bool) : State :=
  let s := s.itemHeard d
  if (s.die d).role i.pail = 1 then
    s.upd d fun x => ((x.setLimit i.pail (x.nearLine i.pail i.line + x.lease i.pail)).setFld R.MR_PAIL_STATE_UNCOND 0 i.pail).setFld
      R.MR_PAIL_STATE_PATH (b2n whey) i.pail
  else s

/-- HANDOVER_ITEM: the standby is to become HOLDER at H (R543). -/
def State.handoverIn (s : State) (d : DieId) (i : LeaseItem) (whey : Bool) : State :=
  let s := s.itemHeard d
  if (s.die d).role i.pail = 2 then
    s.upd d fun x =>
      let x := x.modPail i.pail fun v => { v with ho := some (x.nearLine i.pail i.line) }
      let x := (x.setFld R.MR_PAIL_STATE_PATH (b2n whey) i.pail).setFld R.MR_PAIL_STATE_DRAINED i.drained i.pail
      x.freeUnits i.pail (x.nearLine i.pail i.drained)
  else s

/-- The units that a die keeps for a pail go back to the front of their queues, in the order its scheduler started them (R550). -/
def Die.resendUnits (x : Die) (p : Nat) : Die :=
  let mine (r : Resend) : Bool := (r.pkt.flow.map fun f => x.fld R.NW_TX_CFG_CADENCE f == p).getD false
  let kept := x.tq.resend.filter mine
  let units := uniq (kept.map fun r => (r.pkt.flow, r.pkt.unit))
  let x : Die := { x with tq := { x.tq with resend := x.tq.resend.filter fun r => !mine r } }
  let x := (uniq (kept.map fun r => r.queue)).foldl (fun (x : Die) (q : Nat × Bool) =>
    let id : QId := ⟨q.1, q.2⟩
    let v := x.queue id
    let v' : EgQueue := { v with pkts := ((kept.filter fun r => r.queue == q).map Resend.pkt) ++ v.pkts }
    x.setQueue id (if q.2 then x.headTags id v.pkts.isEmpty v' else v')) x
  x.count R.MR_PAIL_RESENT p units.length

/-- A die becomes HOLDER at line `m`, without acknowledgement where it took or seized the pail (R541, R543, R544): it sends the
units that it keeps first, and renews from that line. -/
def State.holdPail (s : State) (d : DieId) (p : Nat) (m : Int) (uncond : Bool) : State :=
  let s := s.upd d fun x => (((x.setRole p 1).setFld R.MR_PAIL_STATE_UNCOND (b2n uncond) p).setLimit p (m + x.lease p)).resendUnits p
  let s := s.upd d fun x => x.modPail p fun v => { v with ho := none }
  s.sendPail d p 1 m m

/-- A take or a seizure (value 1) at line `m`. -/
def State.takePail (s : State) (d : DieId) (p : Nat) (m : Int) (value : Nat) : State :=
  match (s.die d).grid p with
  | none => s
  | some g =>
    let s := s.holdPail d p m true
    let s := ((s.count d R.MR_PAIL_TAKES p).setFld d R.MR_PAIL_TAKE_TAKE_LINE (g.line m) p).setFld d R.MR_PAIL_TAKE_TAKE_FRAME (unsgn 19 (g.frame m)) p
    s.pailEvent d R.MR_EVENTS_TAKE p value

/-- Station time of a line of a pail's cadence on the die's own grid (R539, R555). -/
def Die.pailInstant (x : Die) (p : Nat) (m : Int) : Option Nat := (x.grid p).map fun g => g.instant m

/-- LEASE_EXPIRY: the holder comes to its expiry without a handover (R541). -/
def State.leaseExpiry (s : State) (d : DieId) (p : Nat) : State :=
  let v := (s.die d).pail p
  match (s.die d).pailInstant p v.limit with
  | some t =>
    if (s.die d).role p = 1 ∧ s.fld d R.MR_PAIL_STATE_UNCOND p = 0 ∧ v.ho.isNone then
      ((s.advanceStation d t).upd d fun x => x.setRole p 3).pailEvent d R.MR_EVENTS_EXPIRED p 0
    else s
  | none => s

/-- PAIL_TAKE: no later RENEW has come by the line pulse of line view + GUARD (R541). -/
def State.pailTake (s : State) (d : DieId) (p : Nat) : State :=
  let v := (s.die d).pail p
  let m := v.limit + s.fld d R.MR_PAIL_CFG_GUARD p
  match (s.die d).pailInstant p m with
  | some t => if (s.die d).role p = 2 ∧ v.ho.isNone then (s.advanceStation d t).takePail d p m 0 else s
  | none => s

/-- HANDOVER may start: 0, or the code STATE of the refusal (R543). -/
def State.handoverCode (s : State) (d : DieId) (p : Nat) : Nat :=
  if (s.die d).role p = 1 ∧ (s.die (peer d)).role p = 2 then 0 else 16
/-- The holder starts a handover: H is two lines after the next line pulse (R543). -/
def State.handoverStart (s : State) (d : DieId) (p : Nat) : State :=
  if ((s.die d).pail p).ho.isSome then s
  else
    let h := ((s.die d).cad p).next + 2
    (s.upd d fun x => x.modPail p fun v => { v with ho := some h }).sendPail d p 3 ((s.die d).lineNow p) h

/-- HANDOVER_LINE: at H the old holder stops and is standby, and a standby that has received the item is HOLDER (R543). -/
def State.handoverLine (s : State) (d : DieId) (p : Nat) : State :=
  match ((s.die d).pail p).ho with
  | none => s
  | some h =>
    match (s.die d).pailInstant p h with
    | none => s
    | some t =>
      let s := s.advanceStation d t
      let role := (s.die d).role p
      let s := if role = 1 then s.upd d fun x => ((x.setRole p 2).setLimit p (h + x.lease p)).modPail p fun v => { v with ho := none }
        else if role = 2 then s.holdPail d p h false
        else s.upd d fun x => x.modPail p fun v => { v with ho := none }
      if role = 1 ∨ role = 2 then (s.count d R.MR_PAIL_HANDOVERS p).pailEvent d R.MR_EVENTS_HANDOVER p (b2n (role == 2)) else s

/-- SEIZE may happen: 0, or the code STATE of the refusal (R544). -/
def State.seizeCode (s : State) (d : DieId) (p : Nat) : Nat :=
  if (s.die d).pailUsed p ∧ (s.die d).mr.lastItem + 100 * msec ≤ s.now then 0 else 16
def State.seizePail (s : State) (d : DieId) (p : Nat) : State := s.takePail d p ((s.die d).lineNow p) 1

/-- The timed outputs of a cadence hold: its pail's role is EXPIRED or RESYNCING (R552, R553). -/
def Die.pailHolds (x : Die) (c : Nat) : Bool := x.pailUsed c && decide (3 ≤ x.role c)

/-! ### Check values (R547 to R549) -/

/-- A local condition touches the slices of a channel: a concealed input member, a STALE layer, a concealed decode picture, a DMA
stop of the fragment (R547). What touches a rendition's layers are those of its source channel. -/
def Die.sliceFault (x : Die) (chan : Nat) : Bool :=
  let n := if x.flag R.EN_CFG_RENDITION chan then ((x.bodyOf 0xA 0xA04 chan).map fun b => num b 0 1).getD chan else chan
  let staging (l : Nat) : Bool := x.fld R.CH_LSRC_SRC n l == 0 && x.flag R.CH_LSRC_VIDEO n l
    && (x.inputMembers (x.fld R.CH_LSRC_INPUT n l)).any fun r => x.memBad r
  let store (l : Nat) : Bool := x.fld R.CH_LSRC_SRC n l == 1 && x.flag R.CH_LSRC_VIDEO n l
    && ((x.store (x.fld R.CH_LSRC_INPUT n l)).marked).contains (x.fld R.CL_FS_STATE_READ (x.fld R.CH_LSRC_INPUT n l))
  ((List.range (x.fld R.CH_CFG_LAYERS n)).any fun l => staging l || store l || x.layerState n (l + 1) == 3)
    || x.dma.chans.any fun e => e.2.frag == (x.enc' chan).frag && x.fld R.DM_CH_STATUS_STATE e.1 == 2

/-- A slice differs: MR_DIVERGED and MR_LAST_DIV, and the channel is DIVERGED from it on (R548). -/
def State.sliceDiverged (s : State) (d : DieId) (own peer_ : Chk) : State :=
  let n := own.chan
  let s := (((((s.count d R.MR_DIVERGED).setFld d R.MR_LAST_DIV_CHANNEL n).setFld d R.MR_LAST_DIV_SLICE own.slice).setFld d R.MR_LAST_DIV_FAULT_HERE
    (b2n own.fault)).setFld d R.MR_LAST_DIV_FAULT_PEER (b2n peer_.fault)).setFld d R.MR_LAST_DIV_FRAME (unsgn 8 own.frame)
  let s := (s.setFld d R.MR_EC_MISMATCHES (min 65535 (s.fld d R.MR_EC_MISMATCHES n + 1)) n).setFld d R.MR_EC_DIVERGED 1 n
  let p := s.fld d R.EN_TIMING_CADENCE n
  ((s.upd d fun x => x.showDiverged p).event d R.MR_EVENTS_DIVERGED 0 n).hbRecord d (codeOf R.MR_EVENTS_DIVERGED) p
    (unsgn 32 own.frame * 2 ^ 32 + ((s.die d).hbDetail p own.slice) % 2 ^ 32)

/-- Every channel of a rejoining pail has matched: the die is STANDBY (R553 step 6). -/
def State.rejoined (s : State) (d : DieId) (p : Nat) : State :=
  if (s.die d).role p = 4 ∧ ((s.die d).inStepOn p).all (fun n => s.fld d R.MR_EC_RESYNCING n == 0) then
    ((s.upd d fun x => (x.setRole p 2).modPail p fun v => { v with goal := none, snap := (false, false) }).upd (peer d) fun x =>
      x.modPail p fun v => { v with goal := none }).pailEvent d R.MR_EVENTS_REJOINED p 0
  else s

/-- The last slice of a picture has been compared; `clean` says that all its slices match. A random access picture that matches
ends DIVERGED, and for a rejoining die picture G ends the attempt (R548, R553). -/
def State.pictureCompared (s : State) (d : DieId) (c : Chk) (clean : Bool) : State :=
  let p := s.fld d R.EN_TIMING_CADENCE c.chan
  if !c.rap ∨ !clean then s
  else
    let s := (s.setFld d R.MR_EC_DIVERGED 0 c.chan).upd d fun x => x.showDiverged p
    if (s.die d).role p = 4 ∧ ((s.die d).pail p).snap.2 ∧ ((s.die d).pail p).goal = some c.frame then
      (s.setFld d R.MR_EC_RESYNCING 0 c.chan).rejoined d p
    else s

/-- Policy 1 hands the pail over (R549). -/
def State.policyHandover (s : State) (d : DieId) (own peer_ : Chk) : State :=
  let x := s.die d
  let p := x.fld R.EN_TIMING_CADENCE own.chan
  let quiet : Bool := match (x.pail p).peerFault with | some f => decide (f + 2 < own.frame) | none => true
  if x.flag R.MR_PAIL_CFG_POLICY p ∧ own.fault ∧ !peer_.fault ∧ !x.diverged p ∧ quiet ∧ s.handoverCode d p = 0 then s.handoverStart d p else s

/-- Two values of one slice are compared (R548, R549). -/
def State.compareSlice (s : State) (d : DieId) (own peer_ : Chk) : State :=
  let s := s.policyHandover d own peer_
  let equal := own.crc == peer_.crc
  let was := mget (fun _ => true) (s.die d).mr.clean own.chan || own.slice == 0
  let s := if equal then s.count d R.MR_MATCHED else s.sliceDiverged d own peer_
  let s := s.upd d fun x => x.modMr fun r => { r with clean := mput (fun _ => true) r.clean own.chan (was && equal) }
  if own.last then s.pictureCompared d own (was && equal) else s

def Chk.same (a b : Chk) : Bool := a.chan == b.chan && unsgn 8 a.frame == unsgn 8 b.frame && a.slice == b.slice

/-- A check record of the other die arrives (R548). -/
def State.checkIn (s : State) (d : DieId) (c : Chk) : State :=
  let p := s.fld d R.EN_TIMING_CADENCE c.chan
  let s := if c.fault then s.upd d fun x => x.modPail p fun v => { v with peerFault := some c.frame } else s
  match (s.die d).mr.own.find? c.same with
  | some o => (s.upd d fun x => x.modMr fun r => { r with own := r.own.filter fun e => !c.same e }).compareSlice d o c
  | none => s.upd d fun x => x.modMr fun r => { r with theirs := c :: r.theirs.take 4095 }

/-- The die's own value of a slice is made, kept and sent (R547). -/
def State.checkMade (s : State) (d : DieId) (c : Chk) : State :=
  let s := s.setFld d R.MR_EC_FAULT_HERE (b2n c.fault) c.chan
  let s := if (s.die d).linkUp then s.upd d fun x => x.modMr fun r => { r with checkQ := r.checkQ ++ [c] } else s
  match (s.die d).mr.theirs.find? c.same with
  | some o => (s.upd d fun x => x.modMr fun r => { r with theirs := r.theirs.filter fun e => !c.same e }).compareSlice d c o
  | none => s.upd d fun x => x.modMr fun r => { r with own := r.own ++ [c] }

/-- The check values of what became eligible in line `m` on an in-step channel (R547). -/
def State.checkSlices (s : State) (d : DieId) (m : Int) (e : Slice) : State :=
  if !s.dual ∨ s.fld d R.MR_EC_INSTEP e.chan = 0 then s
  else
    let fault := e.fill || (s.die d).sliceFault e.chan
    let n0 := if e.first then 0 else mget (fun _ => 0) (s.die d).mr.slice e.chan
    let s := e.slices.zipIdx.foldl (fun s (b : List Byte × Nat) =>
      s.checkMade d ⟨e.chan, e.frame, n0 + b.2, fault, crc32c b.1, e.rap, e.last && b.2 + 1 == e.slices.length, m⟩) s
    s.upd d fun x => x.modMr fun r => { r with slice := mput (fun _ => 0) r.slice e.chan (n0 + e.slices.length) }

/-- Station time at which a value of the die counts as unchecked: 64 lines after it was made. -/
def Die.uncheckedAt (x : Die) (c : Chk) : Option Nat := x.pailInstant (x.fld R.EN_TIMING_CADENCE c.chan) (c.line + 64)
/-- UNCHECKED: the oldest value that no record of the other die has met (R548). -/
def State.unchecked (s : State) (d : DieId) : State :=
  match (s.die d).mr.own with
  | c :: l => match (s.die d).uncheckedAt c with
    | some t => ((s.advanceStation d t).upd d fun x => x.modMr fun r => { r with
        own := l, clean := mput (fun _ => true) r.clean c.chan false }).count d R.MR_UNCHECKED
    | none => s
  | [] => s

def State.checkRecord (s : State) (d : DieId) (r : LinkRec) : State :=
  match r with
  | .check l => l.foldl (fun s c => s.checkIn d c) s
  | _ => s

/-! ### Rejoining (R553) -/

/-- The frame of the first scheduled random access picture of a channel of the holder whose frame is not before `f` (R197, R553). -/
def Die.scheduledRap (x : Die) (n : Nat) (f : Int) : Option Int :=
  let c := x.enc' n
  let from_ := x.picNo n f 0
  let due := x.nextPic n + c.period - c.sinceRap
  if c.period = 0 then none
  else some ((if from_ ≤ due then due else due + ((from_ - due) + (c.period - 1 : Nat)) / c.period * c.period) / (x.picsPer n : Int))

/-- The holder chooses picture G for a rejoining die `d`, with RESYNC_FORCE a forced one (R553 step 2). -/
def State.resyncGoal (s : State) (d : DieId) (p : Nat) : State :=
  let h := peer d
  let x := s.die h
  match x.grid p with
  | none => s
  | some g =>
    let f := g.frame (g.boundaryFrom (x.cad p).next) + 2
    let force := x.flag R.MR_PAIL_CFG_RESYNC_FORCE p
    let goal := if x.role p ≠ 1 then none else if force then some f else (x.inStepOn p).head?.bind fun n => x.scheduledRap n f
    let s := s.upd d fun x => x.modPail p fun v => { v with goal := goal, snap := (false, false) }
    let s := s.upd h fun x => x.modPail p fun v => { v with goal := goal, snap := (false, false) }
    if force ∧ goal.isSome then
      (x.inStepOn p).foldl (fun s n => 
        let g := x.picNo n f 0
        (s.upd 0 fun x => x.forceRap n g).sendControl 0 (.rap n (some g))) s
    else s

/-- RESYNC_START: a die that runs the plan, with the link up, and is neither HOLDER nor STANDBY, becomes RESYNCING (R553). -/
def State.resyncStart (s : State) (d : DieId) (p : Nat) : State :=
  let x := s.die d
  if s.planRuns ∧ x.pailUsed p ∧ x.linkUp ∧ (x.role p = 0 ∨ x.role p = 3) then
    (s.upd d fun x => (x.inStepOn p).foldl (fun x n => x.setFld R.MR_EC_RESYNCING 1 n) (x.setRole p 4)).resyncGoal d p
  else s

/-- The in-step send flows of a cadence. -/
def Die.inStepFlows (x : Die) (p : Nat) : List Nat :=
  (x.nw.tx.map Prod.fst).filter fun f => x.flag R.NW_TX_CFG_INSTEP f && x.fld R.NW_TX_CFG_CADENCE f == p

/-- What the holder `h` sends a rejoining die at line `m`: the snapshot at the boundary of frame G - 1 (R553 step 3). -/
def State.resyncSnapshot (s : State) (h : DieId) (p : Nat) (frame : Int) : State :=
  let x := s.die h
  match (x.pail p).goal with
  | some goal => if x.role p = 1 ∧ frame + 1 = goal then s.sendPlan h (.snapshot p) (64 * ((x.inStepOn p).length + (x.inStepFlows p).length)) else s
  | none => s

/-- The closing record, once the last row of picture G - 1 of every in-step channel has ended its E stage (R553 step 4). -/
def State.resyncClosing (s : State) (h : DieId) (p : Nat) : State :=
  let x := s.die h
  match (x.pail p).goal with
  | none => s
  | some goal =>
    let past := (x.inStepOn p).all fun n => (x.enc' n).pics.all fun q => decide (goal ≤ q.frame)
    if x.role p ≠ 1 ∨ (x.pail p).snap.2 ∨ (x.frameLine p).1 < goal ∨ !past then s
    else
      let fs := x.inStepFlows p
      let qs := uniq (fs.flatMap fun f => (x.txPaths f).map fun t => pathQueue (qidOf (num (x.txBody f) 16 2)) t.sp)
      let sh := uniq (qs.filterMap fun q => x.queueShaper q)
      let msg := PlanMsg.closing p ((x.inStepOn p).map fun n => (n, x.enc' n)) (fs.map fun f => (f, x.tx f))
        (qs.map fun q => (q.n, q.weighted, x.queue q)) (sh.map fun k => (k, x.shaperNow k))
      (s.upd h fun x => x.modPail p fun v => { v with snap := (true, true) }).sendPlan h msg (64 * (fs.length + qs.length + 1))

/-- The closing record arrives: the rejoining die takes the holder's state for picture G (R553 step 5). -/
def State.resyncClosed (s : State) (d : DieId) (p : Nat) (encs : List (Nat × EncChan)) (flows : List (Nat × TxFlow))
    (queues : List (Nat × Bool × EgQueue)) (shapers : List (Nat × Bucket)) : State :=
  match ((s.die d).pail p).goal with
  | none => s
  | some goal =>
    if (s.die d).role p ≠ 4 then s
    else s.upd d fun x =>
      let x := encs.foldl (fun (x : Die) (e : Nat × EncChan) => x.modEnc e.1 fun c => { e.2 with
        pics := c.pics.filter fun q => decide (goal ≤ q.frame), frag := c.frag }) x
      let x := flows.foldl (fun (x : Die) (e : Nat × TxFlow) => x.modTx e.1 fun _ => e.2) x
      let x := queues.foldl (fun (x : Die) (e : Nat × Bool × EgQueue) => x.setQueue ⟨e.1, e.2.1⟩ e.2.2) x
      let x := shapers.foldl (fun (x : Die) (e : Nat × Bucket) => x.modShaper e.1 fun _ => e.2) x
      x.modPail p fun v => { v with snap := (v.snap.1, true) }

/-- PLAN traffic has arrived whole: a snapshot, a closing record, a plan's sections (R91, R624), or what releases die 1 (R20). -/
def State.planArrived (s : State) (d : DieId) : PlanMsg → State
  | .snapshot p => s.upd d fun x => x.modPail p fun v => { v with snap := (true, v.snap.2) }
  | .closing p a b c e => s.resyncClosed d p a b c e
  | .sections p => s.upd d fun x => x.modMr fun r => { r with sections := some p }
  | .release rel => if d = 1 then s.upd 1 fun x => { x with sc := { x.sc with release := some rel } } else s
/-- A PLAN record: traffic counts once its records have come without a gap up to the last (R533, log entry 63). -/
def State.planRecord (s : State) (d : DieId) (r : LinkRec) : State :=
  match r with
  | .plan m k last =>
    let got := (s.die d).mr.planGot
    let s := s.upd d fun x => x.modMr fun r => { r with planGot := if last then 0 else if k = 0 then 1 else if k = got then got + 1 else 0 }
    if last ∧ (k = 0 ∨ k = got) then s.planArrived d m else s
  | _ => s

/-- Die 0 sends die 1's sections of a plan that it has admitted, and die 1 the image of a plan to die 0, unless the sender has them in
hand (R91, R624). -/
def State.sendSections (s : State) (d : DieId) (p : Plan) : State :=
  let own := p.sects.filter fun e => e.on (peer d)
  if !s.dual ∨ own.isEmpty ∨ (s.die (peer d)).mr.sections = some p then s
  else if (s.die d).mr.planQ.any fun q => q.msg == .sections p then s
  else s.sendPlan d (.sections p) (own.foldl (fun n e => n + e.body.length) 0)

/-! ### The line pulse -/

/-- What a line pulse of cadence `p`, line `m`, does for its pail: lines of a gap are not counted (R555), the holder renews, and a
rejoining attempt that is not ready at the boundary of G moves on. -/
def State.pailPulse (s : State) (d : DieId) (p : Nat) (g : Grid) (m : Int) : State :=
  if !s.dual ∨ !(s.die d).pailUsed p then s
  else
    let v := (s.die d).pail p
    let shift := m - (v.lastLine + 1)
    let s := s.upd d fun x =>
      let x := x.modPail p fun v => { v with lastLine := m, ho := v.ho.map (· + shift), goal := v.goal }
      if shift = 0 then x else x.setLimit p (v.limit + shift)
    let s := s.renewSend d p m
    if m % g.l = 0 then
      let f := g.frame m
      let v := (s.die d).pail p
      let late : Bool := match v.goal with
        | none => decide ((s.die (peer d)).role p = 1)
        | some goal => decide (f = goal ∧ !v.snap.1) || decide (goal + 2 ≤ f)
      let s := if (s.die d).role p = 4 ∧ late then s.resyncGoal d p else s
      s.resyncSnapshot d p f
    else s.resyncClosing d p

/-! ### Training and loss (R532, R537) -/

/-- LINK_TRAINED: training has measured a delay in 1/16 ns; one above 40 ns fails (R532). Sections of the pending plan that die 1 does not have
are sent from their first byte (R91). -/
def State.linkTrained (s : State) (d : DieId) (delay : Nat) : State :=
  if !s.dual ∨ (s.die d).linkUp ∨ 640 < delay then s
  else
    let s := s.upd d fun x => ((((x.setFld R.MR_LINK_DELAY delay).setFld R.MR_LINK_LOCKED 15).setFld R.MR_STATUS_LINK_UP 1).setFld
      R.MR_STATUS_TRAINING 0).modMr fun r => { r with slots := 0 }
    let s := s.eventRec d R.MR_EVENTS_LINK_UP
    match s.pkg.plans.pend with
    | some p => (s.upd 0 fun x => x.modMr fun r => { r with planQ := r.planQ.filter fun q => q.msg != .sections p }).sendSections 0 p
    | none => s

/-- The receive side of a die goes down: it retrains, what was on its way is lost, and its lease items move to the whey line
(R532, R537, R555). The answer names the control messages that are lost. -/
def State.linkDown (s : State) (d : DieId) : State × List CtlMsg :=
  if !(s.die d).linkUp then (s, [])
  else
    let q := (s.die d).mr.leaseQ
    let lost := (s.die d).mr.ctlQ.map CtlOut.msg
    let s := s.upd d fun x => (((x.setFld R.MR_STATUS_LINK_UP 0).setFld R.MR_STATUS_TRAINING 1).setFld R.MR_LINK_LOCKED 0).modMr fun r =>
      { r with leaseQ := [], checkQ := [], ctlQ := [], acks := [], planQ := [], planGot := 0, got := [] }
    let s := s.upd (peer d) fun x => x.modMr fun r => { r with flight := [] }
    let s := (s.count d R.MR_LINK_DOWNS).eventRec d R.MR_EVENTS_LINK_DOWN
    (q.foldl (fun s i => s.sendItem d i) s, lost)

/-- HEARTBEAT: the whey line is up while heartbeats arrive (R537). -/
def State.heartbeatIn (s : State) (d : DieId) (ok : Bool) : State :=
  if (s.die (peer d)).mr.beats.2 = 0 then s
  else
    let s := s.upd (peer d) fun x => x.modMr fun r => { r with beats := (r.beats.1, r.beats.2 - 1) }
    if !ok then s.count d R.MR_WHEY_ERR
    else
      let s := (s.itemHeard d).upd d fun x => x.modMr fun r => { r with heard := some s.now }
      if s.fld d R.MR_STATUS_WHEY_UP = 1 then s else (s.setFld d R.MR_STATUS_WHEY_UP 1).event d R.MR_EVENTS_WHEY_BACK

/-- WHEY_LOST: three heartbeats in a row are missing, which is 30 us (R537). -/
def State.wheyLost (s : State) (d : DieId) : State :=
  match (s.die d).mr.heard with
  | none => s
  | some t =>
    let s := (s.advanceTo (t + 30 * usec)).upd d fun x => x.modMr fun r => { r with heard := none }
    if s.fld d R.MR_STATUS_WHEY_UP = 0 then s else (s.setFld d R.MR_STATUS_WHEY_UP 0).event d R.MR_EVENTS_WHEY_LOST

/-! ### The cross-die stream (R22, R535) -/

/-- The claims record of a die (R81). -/
def Die.claims (x : Die) (d : DieId) : List Byte :=
  match (x.sectsOf 1).filter fun s => s.on d with
  | s :: _ => subBytes s.body (if d = 1 ∧ s.on 0 then 64 else 0) 64
  | [] => []
/-- The die receives the cross-die stream. -/
def Die.xsReceives (x : Die) (d : DieId) : Bool := num (x.claims d) 59 1 == 2

/-- STREAM_SLOT: a slot completes a line of the cross-die stream; a slot damaged by a block error is not sent again. -/
def State.streamSlot (s : State) (d : DieId) (line : Int) (ok : Bool) (p : PicLine) : State :=
  if ok ∧ (s.die d).linkUp ∧ (s.die d).xsReceives d then s.lineIn d ⟨true, 1024⟩ line p else s

def execRotationSlot (d : DieId) (dt : Nat) (s : State) : Result :=
  onDie s d (Instr.wf (.rotationSlot d dt)) ((s.advance dt).rotationSlot d)
def execTimingRecord (d : DieId) (dt : Nat) (ok : Bool) (s : State) : Result :=
  onDie s d (Instr.wf (.timingRecord d dt ok)) ((s.advance dt).linkRecord d 1 ok fun s r => s.timingRecord d r)
def execCheckRecord (d : DieId) (dt : Nat) (ok : Bool) (s : State) : Result :=
  onDie s d true ((s.advance dt).linkRecord d 3 ok fun s r => s.checkRecord d r)
def execPlanRecord (d : DieId) (dt : Nat) (ok : Bool) (s : State) : Result :=
  onDie s d true ((s.advance dt).linkRecord d 5 ok fun s r => s.planRecord d r)
def execIdleRecord (d : DieId) (dt : Nat) (ok : Bool) (s : State) : Result :=
  onDie s d true ((s.advance dt).linkRecord d 0 ok fun s _ => s)
def execUnchecked (d : DieId) (s : State) : Result := onDie s d true (s.unchecked d)
def execLinkTrained (d : DieId) (dt delay : Nat) (s : State) : Result :=
  onDie s d true ((s.advance dt).linkTrained d delay)
def execRenew (d : DieId) (dt : Nat) (ok : Bool) (s : State) : Result :=
  onDie s d true ((s.advance dt).itemIn d 1 ok fun s i w => s.renewIn d i w)
def execAck (d : DieId) (dt : Nat) (ok : Bool) (s : State) : Result :=
  onDie s d true ((s.advance dt).itemIn d 2 ok fun s i w => s.ackIn d i w)
def execHandoverItem (d : DieId) (dt : Nat) (ok : Bool) (s : State) : Result :=
  onDie s d true ((s.advance dt).itemIn d 3 ok fun s i w => s.handoverIn d i w)
def execHeartbeat (d : DieId) (dt : Nat) (ok : Bool) (s : State) : Result :=
  onDie s d true ((s.advance dt).heartbeatIn d ok)
def execHeartbeatSend (d : DieId) (s : State) : Result := onDie s d true (s.heartbeatSend d)
def execWheyLost (d : DieId) (s : State) : Result := onDie s d true (s.wheyLost d)
def execLeaseExpiry (d : DieId) (p : Fin 8) (s : State) : Result := onDie s d true (s.leaseExpiry d p)
def execPailTake (d : DieId) (p : Fin 8) (s : State) : Result := onDie s d true (s.pailTake d p)
def execHandoverLine (d : DieId) (p : Fin 8) (s : State) : Result := onDie s d true (s.handoverLine d p)
def execResyncStart (d : DieId) (p : Fin 8) (s : State) : Result := onDie s d true (s.resyncStart d p)
def execStreamSlot (d : DieId) (dt : Nat) (line : Int) (ok : Bool) (samples : PicLine) (s : State) : Result :=
  onDie s d true ((s.advance dt).streamSlot d line ok samples)

end Sys2Proof.Machine
end

