-- ==== Sys2Proof/Machine/Perturb.lean ====
section
/-! DEFINITION. The perturbation units (20_self_test.md R593 to R595): arming, start and end, and the end of all of them. What
each class does while a unit acts stands with the block that it disturbs (Shared.lean, `Die.pertAmounts`). -/

namespace Sys2Proof.Machine

/-- The supply warning as plans see it: present on a die, or put in by a SUPPLY_WARN perturbation (R104, R594). -/
def State.plansWarned (s : State) : Bool :=
  let on (d : DieId) : Bool := s.has d && ((s.die d).flag R.PW_STATUS_WARN || (s.die d).pertOn 8 0 0)
  on 0 || on 1
/-- Brings what plans see of the supply up to date. -/
def State.seeSupply (s : State) : State := s.updPkg fun p => { p with plans := { p.plans with brownDue := s.plansWarned } }

/-- The present state of PERTURBING. -/
def Die.showPert (x : Die) : Die := x.setFld R.ST_STATUS_PERTURBING (b2n x.perturbed)

/-- The refusal code of a write that arms unit `u` with class `c`: STATE without test authorisation, or for a class outside its
SCOPE or above 10 (R593, R594). -/
def Die.armCode (x : Die) (c : Nat) : Nat :=
  match x.sc.test with
  | some (scope, _) => if c ≤ 10 ∧ bit scope c then 0 else 16
  | none => 16

/-- Where unit `u` starts, in 2^-16 line of its cadence since the epoch: its START_POS in the nearest frame that START_FRAME
names, and never in the past: a periodic unit moves on by whole periods, a single-shot unit starts now (R595, R65). -/
def Die.pertStartPos (x : Die) (u : Nat) : Int :=
  match x.grid (x.fld R.ST_PERT_CTRL_CADENCE u) with
  | none => 0
  | some g =>
    let f := (x.frameLine (x.fld R.ST_PERT_CTRL_CADENCE u)).1
    let pos := (f + diff32 (x.fld R.ST_PERT_FRAME u) (unsgn 32 f)) * g.l * 65536 + (x.fld R.ST_PERT_START_POS u : Nat)
    let now := g.pos (x.gridTime (x.fld R.ST_PERT_CTRL_CADENCE u))
    let step : Int := (x.fld R.ST_PERT_PERIOD u * 65536 : Nat)
    if now ≤ pos then pos
    else if x.flag R.ST_PERT_CTRL_PERIODIC u ∧ 0 < step then pos + ((now - pos + step - 1) / step) * step
    else now

/-- A write has armed the unit. -/
def Die.pertArmed (x : Die) (u : Nat) : Die :=
  { x with st := { x.st with pert := mput (fun _ => none) x.st.pert u (some (x.pertStartPos u, 0)) } }

/-- PERT_START (R595). -/
def State.pertStart (s : State) (d : DieId) (u : Nat) : State :=
  let x := s.die d
  match x.grid (x.fld R.ST_PERT_CTRL_CADENCE u), mget (fun _ => none) x.st.pert u with
  | some g, some (p, _) =>
    if x.flag R.ST_PERT_CTRL_ARM u ∧ !x.flag R.ST_PERT_CTRL_ACTIVE u then
      let s := s.advanceStation d (g.instantPos p)
      let c := x.fld R.ST_PERT_CTRL_CLASS u
      let s := s.upd d fun x =>
        let x := (x.setFld R.ST_PERT_CTRL_ACTIVE 1 u).count R.ST_PERT_ACTS u
        let e : Int := p + (x.fld R.ST_PERT_DURATION u * 65536 : Nat)
        let x := { x with st := { x.st with pert := mput (fun _ => none) x.st.pert u (some (p, e))
                                            inject := if c = 5 then x.st.inject ++ [u] else x.st.inject } }
        x.showPert
      let s := (s.event d R.ST_EVENTS_PERT_START 0 u).hbCad d (recCode R.ST_EVENTS_PERT_START 0x83) u (x.fld R.ST_PERT_CTRL_CADENCE u) c
      if c = 8 then (s.eventRec d R.PW_EVENTS_SUPPLY_WARN 0 d.val (s.fld d R.PW_VIN_MV) true).seeSupply else s
    else s
  | _, _ => s

/-- A unit's effect stops (R595). -/
def State.pertStop (s : State) (d : DieId) (u : Nat) : State :=
  let x := s.die d
  let c := x.fld R.ST_PERT_CTRL_CLASS u
  let s := s.upd d fun x =>
    let x := { x with st := { x.st with inject := x.st.inject.filter fun v => v != u } }
    (x.setFld R.ST_PERT_CTRL_ACTIVE 0 u).showPert
  let s := (s.event d R.ST_EVENTS_PERT_END 0 u).hbCad d (recCode R.ST_EVENTS_PERT_START 0x84) u (x.fld R.ST_PERT_CTRL_CADENCE u) c
  if c = 8 then
    let held := match x.grid (x.fld R.ST_PERT_CTRL_CADENCE u), mget (fun _ => none) x.st.pert u with
      | some g, some (p, _) => (x.clk.now - g.instantPos p) / (10 * usec)
      | _, _ => 0
    (s.eventRec d R.PW_EVENTS_SUPPLY_OK 0 d.val (min held 65535) true).seeSupply
  else s

/-- PERT_END (R595): a periodic unit waits for its next start; a single-shot unit disarms. -/
def State.pertEnd (s : State) (d : DieId) (u : Nat) : State :=
  let x := s.die d
  match x.grid (x.fld R.ST_PERT_CTRL_CADENCE u), mget (fun _ => none) x.st.pert u with
  | some g, some (p, e) =>
    if x.flag R.ST_PERT_CTRL_ACTIVE u then
      let s := (s.advanceStation d (g.instantPos e)).pertStop d u
      let step : Int := (x.fld R.ST_PERT_PERIOD u * 65536 : Nat)
      if x.flag R.ST_PERT_CTRL_PERIODIC u ∧ 0 < step then
        let next := p + max 1 ((e - p + step - 1) / step) * step
        s.upd d fun x => { x with st := { x.st with pert := mput (fun _ => none) x.st.pert u (some (next, 0)) } }
      else s.upd d fun x => { x.setFld R.ST_PERT_CTRL_ARM 0 u with st := { x.st with pert := mput (fun _ => none) x.st.pert u none } }
    else s
  | _, _ => s

/-- Every unit of a die disarms at once, and the effects of those that act stop (R593). -/
def State.pertDisarm (s : State) (d : DieId) : State :=
  (List.range 16).foldl (fun (s : State) u =>
    let s := if (s.die d).flag R.ST_PERT_CTRL_ACTIVE u then s.pertStop d u else s
    s.upd d fun x => { x.setFld R.ST_PERT_CTRL_ARM 0 u with st := { x.st with pert := mput (fun _ => none) x.st.pert u none } }) s

/-- Test authorisation ends on both dies: TEST_END is posted and recorded where it was active, and every unit stops (R572). -/
def State.endTest (s : State) : State :=
  let one (s : State) (d : DieId) : State :=
    if (s.die d).sc.test.isSome then
      let s := s.pertDisarm d
      let s := (s.setFld d R.SC_STATUS_TEST 0).upd d fun x => { x with sc := { x.sc with test := none } }
      s.eventRec d R.SC_EVENTS_TEST_END 0 d.val
    else s
  one (one s 0) 1

def execPertStart (d : DieId) (u : Fin 16) (s : State) : Result := onDie s d true (s.pertStart d u)
def execPertEnd (d : DieId) (u : Fin 16) (s : State) : Result := onDie s d true (s.pertEnd d u)

end Sys2Proof.Machine
end

