-- ==== Sys2Proof/Machine/Security.lean ====
section
/-! DEFINITION. Fuses, the boot chain, rollback, tokens, test authorisation and quotes (19_security.md R559 to R579). -/

namespace Sys2Proof.Machine

/-! ### Fuses (R559 to R561, R571) -/

/-- The fuses rewritten. -/
def State.modFuses (s : State) (f : Fuses → Fuses) : State := s.updPkg fun p => { p with fuses := f p.fuses }
/-- Owner slot `k`. -/
def Fuses.owner (f : Fuses) (k : Nat) : KeyFuse := mget (fun _ => {}) f.owners k
/-- Generation `g` of Silcel slot `k`. -/
def Fuses.mac (f : Fuses) (k g : Nat) : KeyFuse := mget (fun _ => {}) f.macs (4 * k + g)
/-- Something has been burnt in it (R560). -/
def KeyFuse.written (k : KeyFuse) : Bool := k.valid || k.damaged || !k.key.isEmpty
/-- An owner slot's key is usable (R561). -/
def KeyFuse.usable (k : KeyFuse) : Bool := k.valid && !k.revoked
/-- An owner slot is VALID. -/
def Fuses.anyOwner (f : Fuses) : Bool := (List.range 4).any fun k => (f.owner k).valid
/-- Written generations of a Silcel slot; they are written in order. -/
def Fuses.macGens (f : Fuses) (k : Nat) : Nat := ((List.range 4).filter fun g => (f.mac k g).written).length
/-- The latest generation of a Silcel slot that took effect (R571, log entry 49). -/
def Fuses.macNow (f : Fuses) (k : Nat) : Option Nat := ((List.range 4).filter fun g => (f.mac k g).valid).getLast?
/-- A Silcel slot holds a key (SM_STATUS.KEYS). -/
def Fuses.macHas (f : Fuses) (k : Nat) : Bool := (f.macNow k).isSome
/-- A Silcel slot is revoked (R571). -/
def Fuses.macRevoked (f : Fuses) (k : Nat) : Bool := match f.macNow k with | some g => (f.mac k g).revoked | none => false
/-- The key of a Silcel slot. -/
def Fuses.macKey (f : Fuses) (k : Nat) : List Byte := match f.macNow k with | some g => (f.mac k g).key | none => []
/-- The serial of a die. -/
def Fuses.serialOf (f : Fuses) (d : DieId) : Nat := mget (fun _ => 0) f.serial d.val
/-- The unique secret of a die. -/
def Fuses.secretOf (f : Fuses) (d : DieId) : Nat := mget (fun _ => 0) f.secret d.val

/-- A list of bytes cut or padded with zeros to a length. -/
def fixLen (n : Nat) (b : List Byte) : List Byte := (b ++ List.replicate n 0).take n
/-- The bytes of an ASCII string. -/
def asciiBytes (t : String) : List Byte := t.toList.map fun c => BitVec.ofNat 8 c.toNat

/-- The row of a variant code in R5's table, counted from 0 (R77). -/
def variantRow (code : Nat) : Option Nat :=
  [0x11, 0x12, 0x13, 0x14, 0x21, 0x22, 0x31, 0x32, 0x33, 0x34, 0x41, 0x42].findIdx? fun c => c == code

/-- The fuses of SY_VARIANT are in order (R6). -/
def State.fuseOk (s : State) : Bool :=
  (variantRow (s.fld 0 R.SY_VARIANT_CODE)).isSome && (!s.dual || s.fld 1 R.SY_VARIANT_CODE == s.fld 0 R.SY_VARIANT_CODE)

/-! ### Flash -/

/-- A byte of erased flash (log entry 4). -/
def flashDefault (_ : Nat) : Byte := 0xFF
/-- `n` bytes of the serial flash. -/
def State.flashBytes (s : State) (off n : Nat) : List Byte := (List.range n).map fun i => mget flashDefault s.pkg.flash (off + i)
/-- The size of the serial flash in bytes (R10). -/
def State.flashSize (s : State) : Nat :=
  let n := s.fld 0 R.SY_FLASH_SIZE_SIZE
  if n = 0xFFFF then 2 ^ 32 else n * 65536

/-- Bytes of a signature under an owner key (R80). -/
def sigBytes : Nat := 29792
/-- A signed image verifies under a key: every byte before the signature is covered (R80). -/
def signedUnder (ctx : String) (key image : List Byte) : Bool :=
  Config.slhVerify (asciiBytes ctx) key (image.take (image.length - sigBytes)) (image.drop (image.length - sigBytes))

/-- The security fuses as a die has them: die 1 has the keys and the owner-key state that it received at its release (R559). -/
def State.fusesOf (s : State) (d : DieId) : Fuses :=
  if d = 0 then s.pkg.fuses
  else match s.die1.sc.release with
    | some r => { s.pkg.fuses with owners := r.owners, macs := r.macs }
    | none => { s.pkg.fuses with owners := [], macs := [] }

/-! ### The boot chain (R562 to R566) -/

/-- Steps 3 to 6 of R563 on the firmware slot at a flash offset: the failure code, 0 if none, and the firmware. -/
def State.checkFirmware (s : State) (slotB : Bool) (off : Nat) : Nat × Firmware :=
  let h := s.flashBytes off 256
  let len := num h 8 4
  let f := s.pkg.fuses
  let row := (variantRow (s.fld 0 R.SY_VARIANT_CODE)).getD 16
  let image := s.flashBytes off len
  let k := num h 0x1E 1
  let fw : Firmware := ⟨slotB, num h 0x0C 4, num h 0x14 4, Config.shake256 image⟩
  if num h 0 4 ≠ 0x57465A44 ∨ num h 6 2 ≠ 2 ∨ len ≤ 256 + sigBytes ∨ 4 * 2 ^ 20 < len ∨ s.flashSize < off + len
      ∨ !bit (num h 0x18 2) row then (3, fw)
  else if f.anyOwner ∧ (4 ≤ k ∨ !(f.owner k).usable) then (6, fw)
  else if 127 < num h 0x14 4 ∨ num h 0x14 4 < f.fw then (5, fw)
  else if !signedUnder "DZK-FW" (if f.anyOwner then (f.owner k).key else Config.rootKey) image then (4, fw)
  else (0, fw)

/-- Draws a token nonce (R569). -/
def State.newNonce (s : State) : State :=
  (List.range 8).foldl (fun (s : State) i => let (v, s) := s.draw; s.setFld 0 R.SC_TOKEN_NONCE (v % 2 ^ 32) i) s

/-- SC_BOOT and the record of the boot result. -/
def State.bootResult (s : State) (code other : Nat) (fallback : Bool) : State :=
  let s := ((s.setFld 0 R.SC_BOOT_CODE code).setFld 0 R.SC_BOOT_OTHER other).setFld 0 R.SC_BOOT_FALLBACK (b2n fallback)
  s.hb 0 (recCode R.SC_EVENTS_TOKEN_OK 0x80) 0 (code + other * 16 + b2n fallback * 256)

/-- Recovery (R565): die 1 stays in reset, and P0.0 comes up in mode 2. -/
def State.recover (s : State) : State :=
  let s := (s.setFld 0 R.SC_STATUS_RECOVERY 1).upd 0 fun x => { x with pw := { x.pw with phase := .booted } }
  (s.setFld 0 R.NW_SP_CFG_MODE 2).setFld 0 R.NW_SP_CFG_USED 1

/-- Registers of a die that carry what the boot has found (R578, R579). -/
def State.bootRegs (s : State) (d : DieId) (f : Firmware) : State :=
  (s.setFld d R.SC_FW_VERSION f.version).setFld d R.SC_STATUS_FW_SLOT (b2n f.slotB)

/-- The phase after firmware verification: BIST comes next, except on leaving Dry (R630). -/
def State.afterRom (s : State) : Phase := if s.pkg.supply.dry then .ready else .booted

/-- The supervisor sensor reads below -10 degrees, and the die is held in reset (R661). -/
def Die.tooCold (x : Die) : Bool := decide (sgn 16 (x.fld R.SY_TJ_SUP_TEMP) < -160)
/-- A die that starts between -10 and 0 degrees after a power-on sets COLD (R661). -/
def State.coldStart (s : State) (d : DieId) : State :=
  if s.fld d R.PW_LAST_RESET_KIND = 0 ∧ sgn 16 (s.fld d R.SY_TJ_SUP_TEMP) < 0 then
    (s.setFld d R.SY_TJ_STATUS_COLD 1).event d R.SY_TJ_EVENTS_COLD 0 8
  else s

/-- Die 1 waits in reset for its release. -/
def State.die1Waits (s : State) : Bool := s.dual && s.die1.pw.phase == .held && !s.die1.heat.shut
/-- The release data that die 0 has for die 1 (R20, R559). -/
def State.releaseData (s : State) (f : Firmware) : Release := ⟨f, s.pkg.fuses.owners, s.pkg.fuses.macs⟩
/-- Die 0 sends die 1 its firmware sections and release data as PLAN traffic, in place of any that it still has to send; the
sections are those of the image in its slot (R19, R20, R533). -/
def State.sendRelease (s : State) (f : Firmware) : State :=
  if !s.die1Waits then s
  else
    let off := match s.pkg.dir with | some dir => if f.slotB then dir.slotB else dir.slotA | none => 0
    let s := s.upd 0 fun x => x.modMr fun r => { r with planQ := r.planQ.filter fun p => match p.msg with | .release _ => false | _ => true }
    s.sendPlan 0 (.release (s.releaseData f)) (num (s.flashBytes off 256) 8 4)

/-- Phases 1 to 3 of start-up BIST take at most 1.40 s (R581, R582). -/
def bistFirst : Nat := 1400 * msec
/-- The supervisor time at which phases 1 to 3 of a die that runs start-up BIST are over at the latest (log entry 63). -/
def State.bistBusy (s : State) (d : DieId) : Option Nat :=
  if (s.die d).pw.phase = .booted ∧ s.fld d R.SC_STATUS_RECOVERY = 0 then (s.die d).st.bistAt.map (· + bistFirst) else none
/-- A die starts start-up BIST, or waits while the other one is in its first three phases: only one die is in its vat or DRAM phase at
a time (R582). -/
def State.bistStart (s : State) (d : DieId) : State :=
  let waits : Bool := match s.bistBusy (peer d) with | some t => decide (s.now < t) | none => false
  s.upd d fun x => { x with st := { x.st with bistAt := if waits then none else some s.now } }

/-- Step 7 (R563): die 1, whose sections and release data have arrived, confirms their CRC-32C and leaves reset, or step 7 fails and
it stays in reset (R19). -/
def State.releaseDie1 (s : State) (confirms : Bool) : State × Bool :=
  match s.die1.sc.release with
  | none => (s, true)
  | some rel =>
    if !s.die1Waits then (s, true)
    else if confirms ∧ !(s.fld 1 R.PW_LAST_RESET_KIND = 0 ∧ s.die1.tooCold) then
      let s' := (s.bootRegs 1 rel.fw).upd 1 fun x => { x with pw := { x.pw with phase := s.afterRom, kickAt := s.now } }
      ((s'.bistStart 1).coldStart 1, true)
    else (s.upd 1 fun x => { x with sc := { x.sc with release := none } }, false)

/-- The ROM of die 0 (R563, R565, R10): `size` is the flash density in 64 KiB, if the flash publishes one. Its step 7 ends with die
1's confirmation, which BOOT_ROM of die 1 gives (log entry 63). -/
def State.bootDie0 (s : State) (size : Option Nat) : State :=
  let s := (s.setFld 0 R.SY_FLASH_SIZE_SIZE (min 0xFFFF (size.getD 1024))).setFld 0 R.SY_FLASH_SIZE_ASSUMED (b2n size.isNone)
  let s := { s with pkg := { s.pkg with fw := none } }.newNonce
  if !s.fuseOk then (s.bootResult 1 0 false).recover
  else match s.pkg.dir with
  | none => (s.bootResult 2 0 false).recover
  | some dir =>
    let run (b : Bool) := s.checkFirmware b (if b then dir.slotB else dir.slotA)
    let start (f : Firmware) (other : Nat) (fallback : Bool) : State :=
      let s := ({ s with pkg := { s.pkg with fw := some f } }.bootRegs 0 f).upd 0 fun x => { x with pw := { x.pw with phase := s.afterRom, kickAt := s.now } }
      ((s.bistStart 0).sendRelease f).bootResult 0 other fallback
    let (c1, f1) := run dir.preferB
    if c1 = 0 then start f1 0 false
    else
      let (c2, f2) := run (!dir.preferB)
      if c2 = 0 then start f2 c1 true else (s.bootResult c1 c2 true).recover

/-- Die 1's ROM waits for release (R19): it runs once die 0 has verified the firmware and what it needs has arrived. A release that
has not left die 0 yet, or that failed, is sent again. -/
def State.bootDie1 (s : State) (die1Ok : Bool) : State :=
  match s.pkg.fw with
  | some f =>
    if s.die0.pw.phase = .held ∨ s.die0.pw.phase = .released ∨ s.fld 0 R.SC_STATUS_RECOVERY = 1 then s
    else
      let s := if s.die1Waits ∧ s.die1.sc.release.isNone ∧ !(s.die0.mr.planQ.any fun p => match p.msg with | .release _ => true | _ => false)
          ∧ !(s.die0.mr.flight.any fun r => match r with | .plan (.release _) _ _ => true | _ => false) then s.sendRelease f else s
      let (s', ok) := s.releaseDie1 die1Ok
      if ok then s' else s'.bootResult 7 (s.fld 0 R.SC_BOOT_OTHER) (s.fld 0 R.SC_BOOT_FALLBACK == 1)
  | none => s

/-- BOOT_ROM. -/
def State.bootRom (s : State) (d : DieId) (size : Option Nat) (die1Ok : Bool) : State :=
  if d = 0 then (if s.die0.pw.phase = .released then s.bootDie0 size else s) else s.bootDie1 die1Ok

/-- The end of the verification that SC_CTRL.SWAP has ordered (R566). -/
def State.swapDone (s : State) : State :=
  match s.pkg.dir, s.die0.sc.swapping with
  | some dir, true =>
    let b := match s.pkg.fw with | some f => !f.slotB | none => !dir.preferB
    let (code, _) := s.checkFirmware b (if b then dir.slotB else dir.slotA)
    let s := (s.setFld 0 R.SC_BOOT_SWAP_CODE code).upd 0 fun x => { x with sc := { x.sc with swapping := false } }
    if code = 0 then
      (s.updPkg fun p => { p with dir := some { dir with preferB := b } }).eventRec 0 R.SC_EVENTS_SWAP_DONE 0 (b2n b) 0
    else s.eventRec 0 R.SC_EVENTS_SWAP_REFUSED 0 (b2n b) code
  | none, true =>
    let s := (s.setFld 0 R.SC_BOOT_SWAP_CODE 2).upd 0 fun x => { x with sc := { x.sc with swapping := false } }
    s.eventRec 0 R.SC_EVENTS_SWAP_REFUSED 0 0 2
  | _, _ => s

/-! ### Burns (R560) -/

/-- A burn in progress on a die. -/
def Die.burning (x : Die) : Bool := x.sc.burn.isSome
/-- Starts a burn. -/
def State.startBurn (s : State) (d : DieId) (k : BurnKind) (bits : Nat) : State :=
  s.upd d fun x => { x with sc := { x.sc with burn := some ⟨k, bits, s.now, none⟩ } }
/-- Time that one fuse bit takes. -/
def bitTime : Nat := 20 * usec
/-- A supply warning lets the bit in progress complete and stops the burn there (R560). -/
def State.stopBurn (s : State) (d : DieId) : State :=
  s.upd d fun x => { x with sc := { x.sc with burn := x.sc.burn.map fun b =>
    { b with limit := b.limit.or (some (min b.bits ((s.now - b.start) / bitTime + 1))) } } }

/-- The first `n` bits of a key, the rest of its last byte 0. -/
def keyBits (key : List Byte) (n : Nat) : List Byte :=
  let whole := key.take (n / 8)
  if n % 8 = 0 then whole else whole ++ [BitVec.ofNat 8 ((key.getD (n / 8) 0).toNat % 2 ^ (n % 8))]

/-- A slot or generation after `n` of its burn's bits: VALID is the last, and without it the entry is DAMAGED (R560). -/
def keyBurnt (key : List Byte) (n : Nat) : KeyFuse :=
  if 8 * key.length < n then { key := key, valid := true } else { key := keyBits key n, damaged := true }

/-- A key slot after `n` bits of a burn: a slot is written once, and what is burnt stays (R559, R560). -/
def KeyFuse.burnt (e : KeyFuse) (key : List Byte) (n : Nat) : KeyFuse :=
  if e.written then e else { keyBurnt key n with revoked := e.revoked }

/-- The fuses after `n` bits of a burn. -/
def Fuses.burnt (f : Fuses) (n : Nat) : BurnKind → Fuses
  | .owner k key => { f with owners := mmod (fun _ => {}) f.owners k fun e => e.burnt key n }
  | .ownerRevoke k => if n = 0 then f else { f with owners := mmod (fun _ => {}) f.owners k fun e => { e with revoked := true } }
  | .mac k g key => { f with macs := mmod (fun _ => {}) f.macs (4 * k + g) fun e => e.burnt key n }
  | .macRevoke k g => if n = 0 then f else { f with macs := mmod (fun _ => {}) f.macs (4 * k + g) fun e => { e with revoked := true } }
  | .fw _ => { f with fw := f.fw + n }
  | .plan _ => { f with plan := f.plan + n }
  | .repair _ => f

/-- What a record of a burn names. -/
def BurnKind.source : BurnKind → Nat
  | .owner k _ => k | .ownerRevoke k => k | .mac k _ _ => k | .macRevoke k _ => k | .fw _ => 0 | .plan _ => 1 | .repair _ => 0
/-- The token whose action the burn is, if it is one. -/
def BurnKind.ofToken : BurnKind → Bool
  | .owner _ _ => true | .ownerRevoke _ => true | .mac _ _ _ => true | .macRevoke _ _ => true | _ => false

/-- A Silcel slot closes as after a reset: its epoch, its window and a new session nonce (R420, R570). -/
def State.closeSlot (s : State) (d : DieId) (k : Nat) : State :=
  let (v, s) := s.draw
  let s := s.upd d fun x => (x.setReg (fldAddr R.SM_SLOT_EPOCH_EPOCH k 0) 0).setReg (fldAddr R.SM_SLOT_ALIVE k 0) 0
  s.upd d fun x => { x with sm := { x.sm with slots := mmod (fun _ => {}) x.sm.slots k fun q => { q with seen := 0, nonce := BitVec.ofNat 32 v } } }

/-- Bits that a repair entry of an item takes: R588 and R587 give none, so each counts as one (log entry 50). -/
def repairBits (l : List Item) : Nat := l.length

/-- Die 1, once released, holds the keys and the owner-key state that die 0's fuses hold: a burn changes both at once (R559, R570,
log entry 63). -/
def State.shareKeys (s : State) : State :=
  s.upd 1 fun x => { x with sc := { x.sc with release := x.sc.release.map fun r => { r with owners := s.pkg.fuses.owners, macs := s.pkg.fuses.macs } } }

/-- BURN_DONE (R560, R588): the burn ends with its last bit, with the bit in progress when a supply warning came, or with bit
`bad` that fails its margin read. -/
def State.burnDone (s : State) (d : DieId) (bad : Option Nat) : State :=
  match (s.die d).sc.burn with
  | none => s
  | some b =>
    let last := (b.limit.getD b.bits)
    let fails : Bool := match bad with | some k => decide (k < last) | none => false
    let n := if fails then (bad.getD 0) else last
    let s := s.advanceTo (b.start + (if fails then n + 1 else n) * bitTime)
    let s := s.upd d fun x => { x with sc := { x.sc with burn := none } }
    let whole := decide (n = b.bits)
    match b.kind with
    | .repair items =>
      let left := items.drop n
      let done := items.take n
      let s := s.upd d fun x => { x with st := { x.st with fused := x.st.fused ++ done, soft := x.st.soft.filter fun i => !done.contains i } }
      let s := s.setFld d R.ST_STATUS_FUSING 0
      let s := s.hb d (recCode R.ST_EVENTS_BIST_FAIL 0x82) d.val n
      if left.isEmpty then s.event d R.ST_EVENTS_FUSE_DONE 0 n else s.event d R.ST_EVENTS_FUSE_STOPPED 0 n
    | k =>
      let s := s.modFuses fun f => f.burnt n k
      let s := s.shareKeys
      let s := match k with | .mac slot _ _ => if whole then (if s.dual then (s.closeSlot 0 slot).closeSlot 1 slot else s.closeSlot 0 slot) else s | _ => s
      let s := s.hb 0 (recCode R.SC_EVENTS_TOKEN_OK (match k with | .fw _ => 0x82 | .plan _ => 0x82 | _ => 0x81)) k.source n
      if whole then s
      else
        let s := if k.ofToken then s.setFld 0 R.SC_TOKEN_RESULT_CODE (if fails then 8 else 7) else s
        s.event 0 R.SC_EVENTS_BURN_STOPPED 0 n

/-! ### Rollback (R567) -/

/-- ROLLBACK of the running plan. -/
def State.planRollback (s : State) : Option Nat := s.pkg.plans.running.map fun p => num p.header 0x14 4

/-- The code of R418 with which a commit is refused: ADDRESS on die 1, else STATE where it would not raise the counter, where
there is nothing to commit, or where no burn may start (R560, R567). -/
def State.commitCode (s : State) (d : DieId) (target : Option Nat) (counter : Nat) : Nat :=
  if d ≠ 0 then 11 else if s.die0.burning ∨ s.warned then 16
  else match target with | some t => if counter < t then 0 else 16 | none => 16
def State.commitFwCode (s : State) (d : DieId) : Nat := s.commitCode d (s.pkg.fw.map fun f => f.rollback) s.pkg.fuses.fw
def State.commitPlanCode (s : State) (d : DieId) : Nat := s.commitCode d s.planRollback s.pkg.fuses.plan
def State.commitFw (s : State) : State :=
  match s.pkg.fw with | some f => s.startBurn 0 (.fw f.rollback) (f.rollback - s.pkg.fuses.fw) | none => s
def State.commitPlan (s : State) : State :=
  match s.planRollback with | some t => s.startBurn 0 (.plan t) (t - s.pkg.fuses.plan) | none => s

/-! ### Tokens (R568, R569) -/

/-- Bytes of the payload of a token type; none for a type that there is not. -/
def payloadBytes : Nat → Option Nat
  | 1 => some 64 | 2 => some 0 | 3 => some 1600 | 4 => some 0 | 5 => some 0 | 6 => some 0 | _ => none

/-- The fields of a token. -/
def tokenOf (b : List Byte) : Token :=
  ⟨num b 6 2, num b 0x0C 1, num b 0x0D 1, num b 0x40 4, num b 0x44 4, subBytes b 0x80 ((payloadBytes (num b 6 2)).getD 0)⟩

/-- Step 1 of R569. -/
def tokenForm (b : List Byte) : Bool :=
  let t := tokenOf b
  match payloadBytes t.ty with
  | none => false
  | some n =>
    decide (b.length = 0x80 + n + sigBytes ∧ num b 8 4 = b.length ∧ num b 0 4 = 0x4B545A44 ∧ num b 4 2 = 1)
      && zeros b 0x0E 2 && zeros b 0x48 56 && decide (t.keySlot ≤ 3 ∨ t.keySlot = 0xFF)
      && (if t.ty ≤ 4 then decide (t.target ≤ 3) else t.target == 0)
      && (if t.ty = 5 then decide (1 ≤ t.lifetime ∧ t.lifetime ≤ 86400) else t.lifetime == 0 && t.scope == 0)

/-- The checks of R569 on the token in the buffer, in their order: the code of the first that fails. -/
def State.tokenCheck (s : State) (b : List Byte) : Nat :=
  let t := tokenOf b
  let f := s.pkg.fuses
  let usable := (List.range 4).filter fun k => (f.owner k).usable
  if !tokenForm b then 1
  else if num b 0x10 16 ≠ f.serialOf 0 then 2
  else if !((List.range 8).all fun i => num b (0x20 + 4 * i) 4 == s.fld 0 R.SC_TOKEN_NONCE i) then 3
  else if (if t.keySlot = 0xFF then t.ty ≠ 1 ∨ f.anyOwner = true else (f.owner t.keySlot).usable = false) then 4
  else if !signedUnder "DZK-TOKEN" (if t.keySlot = 0xFF then t.payload else (f.owner t.keySlot).key) b then 5
  else if (t.ty = 1 ∧ (f.owner t.target).written = true) ∨ (t.ty = 2 ∧ (usable = [t.target] ∨ t.keySlot = t.target))
      ∨ (t.ty = 3 ∧ f.macGens t.target = 4) then 6
  else if t.ty ≤ 4 ∧ s.warned = true then 7
  else 0

/-- The code of R418 with which SC_CTRL.TOKEN is refused (R576, R578). -/
def State.tokenCode (s : State) (d : DieId) : Nat :=
  if d ≠ 0 then 11 else if s.die0.sc.token.isSome ∨ s.die0.burning then 16 else 0

/-- A write of SC_CTRL.TOKEN (R568, R569): the checks, the result, a new nonce after a token that reaches step 3, and the token
kept for its action where it is accepted. -/
def State.tokenWrite (s : State) : State :=
  let b := match s.die0.sm.tokenBuf with | some (n, m) => imageBytes n m | none => []
  let c := s.tokenCheck b
  let t := tokenOf b
  let s := (s.setFld 0 R.SC_TOKEN_RESULT_CODE c).setFld 0 R.SC_TOKEN_RESULT_TYPE t.ty
  let s := if c = 1 ∨ c = 2 then s else s.newNonce
  if c = 0 then
    (s.upd 0 fun x => { x with sc := { x.sc with token := some t } }).eventRec 0 R.SC_EVENTS_TOKEN_OK 0 t.keySlot (t.ty * 256)
  else s.eventRec 0 R.SC_EVENTS_TOKEN_REFUSED 0 t.keySlot (t.ty % 256 * 256 + c)

/-- The accepted token of a type is taken for its action. -/
def State.takeToken (s : State) (ty : Nat) (f : Token → State → State) : State :=
  match s.die0.sc.token with
  | some t => if t.ty = ty then f t (s.upd 0 fun x => { x with sc := { x.sc with token := none } }) else s
  | none => s

/-- KEY_ADD (R568). -/
def State.keyAdd (s : State) : State := s.takeToken 1 fun t s => s.startBurn 0 (.owner t.target t.payload) 513
/-- KEY_REVOKE (R568). -/
def State.keyRevoke (s : State) : State := s.takeToken 2 fun t s => s.startBurn 0 (.ownerRevoke t.target) 1
/-- The Silcel key of a MAC_INSTALL token (R570). -/
def State.unwrap (s : State) (slot gen : Nat) (payload : List Byte) : List Byte :=
  let shared := Config.kemDecaps (s.pkg.fuses.secretOf 0) (payload.take 1568)
  let x := natLE 16 (s.pkg.fuses.serialOf 0) ++ [BitVec.ofNat 8 slot, BitVec.ofNat 8 gen]
  let k := fixLen 32 (Config.kmac256 shared x 256 (asciiBytes "DZK-WRAP"))
  (List.range 32).map fun i => payload.getD (1568 + i) 0 ^^^ k.getD i 0
/-- MAC_INSTALL (R570). -/
def State.macInstall (s : State) : State := s.takeToken 3 fun t s =>
  let g := s.pkg.fuses.macGens t.target
  s.startBurn 0 (.mac t.target g (s.unwrap t.target g t.payload)) 257
/-- MAC_REVOKE (R568): a slot that no generation took effect in has nothing to burn (log entry 49). -/
def State.macRevoke (s : State) : State := s.takeToken 4 fun t s =>
  match s.pkg.fuses.macNow t.target with
  | some g => s.startBurn 0 (.macRevoke t.target g) 1
  | none => s

/-- Test authorisation begins on a die (R572). -/
def State.testStart (s : State) (d : DieId) (scope end_ : Nat) : State :=
  let s := (s.setFld d R.SC_STATUS_TEST 1).upd d fun x => { x with sc := { x.sc with test := some (scope, end_) } }
  s.eventRec d R.SC_EVENTS_TEST_START 0 d.val (scope % 65536)
/-- TEST (R572). -/
def State.testGrant (s : State) : State := s.takeToken 5 fun t s =>
  let e := s.now + t.lifetime * second
  let s := s.testStart 0 t.scope e
  if s.dual then s.sendControl 0 (.test (some (t.scope, e))) else s
/-- Test authorisation ends on both dies; die 0 tells die 1 (R572). -/
def State.testOver (s : State) : State := s.endTest
/-- TEST_EXPIRY (R572). -/
def State.testExpiry (s : State) : State :=
  match s.die0.sc.test with
  | some (_, e) => (s.advanceTo e).testOver
  | none => s
/-- HB_CLEAR (R573). -/
def State.clearGrant (s : State) : State := s.takeToken 6 fun t s =>
  (s.setFld 0 R.SC_STATUS_HB_CLEAR_OK 1).upd 0 fun x => { x with sc := { x.sc with clearUntil := some (s.now + 10 * second), clearKey := t.keySlot } }
/-- HB_CLEAR_EXPIRY (R573). -/
def State.clearExpiry (s : State) : State :=
  match s.die0.sc.clearUntil with
  | some e => ((s.advanceTo e).setFld 0 R.SC_STATUS_HB_CLEAR_OK 0).upd 0 fun x => { x with sc := { x.sc with clearUntil := none } }
  | none => s

/-! ### Quotes (R575, R576, R579) -/

/-- The identity certificate of a die: 128 bytes, and Dalzon's signature over them (R574). -/
def State.certificate (s : State) (d : DieId) : List Byte :=
  let secret := s.pkg.fuses.secretOf d
  let words (n : Nat) (f : Nat → W32) : List Byte := (List.range n).flatMap fun i => natLE 4 (f i).toNat
  let body := fixLen 128 (Config.certBody 0x49435A44 (s.pkg.fuses.serialOf d) d.val (s.fld d R.SY_VARIANT_CODE) (words 16 (Config.idKey secret))
    (if d = 0 then fixLen 32 (Config.shake256 (words 392 (Config.kemKey secret))) else []))
  body ++ fixLen sigBytes (Config.dalzonSign (asciiBytes "DZK-CERT") body)

/-- SC_STATUS (R579). -/
def State.scStatus (s : State) (d : DieId) : Nat :=
  let x := s.die d
  let f := s.fusesOf d
  let mask (p : KeyFuse → Bool) : Nat := ((List.range 4).map fun k => b2n (p (f.owner k)) * 2 ^ k).sum
  let w := (x.reg (fldAddr R.SC_STATUS_TEST 0 0)).toNat
  let up := match s.pkg.fw with | some fw => decide (f.fw < fw.rollback) | none => false
  let pl := match s.planRollback with | some r => decide (f.plan < r) | none => false
  mask KeyFuse.valid + mask KeyFuse.revoked * 16 + mask KeyFuse.damaged * 256 + bits w 13 12 * 2 ^ 12 + b2n up * 2 ^ 14 + b2n pl * 2 ^ 15
    + bits w 16 16 * 2 ^ 16 + b2n x.sc.signing.isSome * 2 ^ 17 + bits w 18 18 * 2 ^ 18
    + b2n (match x.sc.burn with | some b => (match b.kind with | .repair _ => false | _ => true) | none => false) * 2 ^ 19 + bits w 20 20 * 2 ^ 20
/-- SC_ROLLBACK. -/
def State.scRollback (s : State) : Nat := s.pkg.fuses.fw + s.pkg.fuses.plan * 256
/-- SC_TEST_LEFT, a started second counted whole. -/
def State.testLeft (s : State) (d : DieId) : Nat :=
  match (s.die d).sc.test with | some (_, e) => cdiv (e - s.now) second | none => 0

/-- The 256 bytes that a quote signs (R575). -/
def State.quoteBody (s : State) (d : DieId) : List Byte :=
  let x := s.die d
  let fw := s.pkg.fw.getD ⟨false, 0, 0, []⟩
  let owners := (List.range 4).flatMap fun k =>
    let o := (s.fusesOf d).owner k
    fixLen 64 o.key ++ [BitVec.ofNat 8 (b2n o.valid + 2 * b2n o.revoked + 4 * b2n o.damaged)]
  let b := natLE 4 0x54515A44 ++ natLE 2 1 ++ natLE 1 d.val ++ [0] ++ natLE 4 50112 ++ natLE 4 (x.reg 4).toNat
    ++ natLE 16 (s.pkg.fuses.serialOf d) ++ (List.range 8).flatMap (fun i => natLE 4 (x.fld R.SC_QUOTE_NONCE i))
    ++ natLE 8 (wrapOf x.clk.now) ++ natLE 4 (x.fld R.PW_EPOCH) ++ natLE 4 Config.romVersion ++ natLE 4 fw.version ++ natLE 4 fw.rollback
    ++ fixLen 32 fw.digest ++ natLE 4 ((s.pkg.plans.running.map fun p => p.id).getD 0) ++ natLE 4 ((s.pkg.plans.pend.map fun p => p.id).getD 0)
    ++ fixLen 32 ((s.pkg.plans.running.map fun p => p.digest).getD []) ++ natLE 4 (s.scStatus d) ++ natLE 4 s.scRollback
    ++ fixLen 32 (Config.shake256 owners) ++ natLE 4 s.pkg.hb.newest ++ natLE 4 (s.testLeft d)
  fixLen 256 b

/-- The code of R418 with which SC_CTRL.QUOTE is refused (R576). -/
def Die.quoteCode (x : Die) : Nat := if x.sc.signing.isSome then 16 else 0
/-- SC_CTRL.QUOTE (R575). -/
def State.quote (s : State) (d : DieId) : State :=
  let b := s.quoteBody d
  (s.setFld d R.SC_STATUS_QUOTE_READY 0).upd d fun x => { x with sc := { x.sc with signing := some b } }
/-- QUOTE_DONE (R575). -/
def State.quoteDone (s : State) (d : DieId) : State :=
  match (s.die d).sc.signing with
  | some b =>
    let (v, s) := s.draw
    let q := b ++ fixLen 49856 (Config.quoteSign (asciiBytes "DZK-QUOTE") (s.pkg.fuses.secretOf d) v b)
    ((s.setFld d R.SC_STATUS_QUOTE_READY 1).upd d fun x => { x with sc := { x.sc with signing := none, quote := q } }).event d R.SC_EVENTS_QUOTE 0 d.val
  | none => s

/-- SC_CTRL.SWAP and SC_CTRL.TEST_END belong to die 0, as the token commands do (R578, log entry 49). -/
def ctlDie0Code (d : DieId) : Nat := if d ≠ 0 then 11 else 0
def State.swap (s : State) : State := s.upd 0 fun x => { x with sc := { x.sc with swapping := true } }

def execBootRom (d : DieId) (dt : Nat) (size : Option Nat) (die1Ok : Bool) (s : State) : Result :=
  onDie s d true ((s.advance dt).bootRom d size die1Ok)
def execKeyAdd (s : State) : Result := onDie s 0 true s.keyAdd
def execKeyRevoke (s : State) : Result := onDie s 0 true s.keyRevoke
def execMacInstall (s : State) : Result := onDie s 0 true s.macInstall
def execMacRevoke (s : State) : Result := onDie s 0 true s.macRevoke
def execTest (s : State) : Result := onDie s 0 true s.testGrant
def execHbClear (s : State) : Result := onDie s 0 true s.clearGrant
def execBurnDone (d : DieId) (bad : Option Nat) (s : State) : Result := onDie s d true (s.burnDone d bad)
def execQuoteDone (d : DieId) (dt : Nat) (s : State) : Result := onDie s d true ((s.advance dt).quoteDone d)
def execTestExpiry (s : State) : Result := onDie s 0 true s.testExpiry
def execHbClearExpiry (s : State) : Result := onDie s 0 true s.clearExpiry
def execSwapDone (dt : Nat) (s : State) : Result := onDie s 0 true ((s.advance dt).swapDone)

end Sys2Proof.Machine
end

