-- ==== Sys2Proof/Machine/SelfTest.lean ====
section
/-! DEFINITION. Start-up self-test, failure reports and repair (20_self_test.md R580 to R588, 04_vat.md R138 to R148). -/

namespace Sys2Proof.Machine

/-! ### Items and spares (R587) -/

/-- Result index of an item's block (R581). -/
def itemResult : ItemKind → Nat
  | .control => 0 | .l2 => 0 | .core => 0
  | .tile => 1 | .bank => 1 | .bundle => 1
  | .dram => 2 | .region => 2
  | .lane => 3
  | .ethernet => 4
  | .dmaChannel => 5 | .checkUnit => 5
  | .scaler => 6 | .audioPort => 6 | .converter => 6
  | .supervisor => 7

/-- The bank of a failing DRAM row: SUB is 2^20 x bank + row. -/
def rowBank (sub : Nat) : Nat := sub / 2 ^ 20

/-- Two repairs draw on the same spares. -/
def sharesSpare (a b : Item) : Bool :=
  a.kind == b.kind && match a.kind with
    | .tile => a.inst / 48 == b.inst / 48 && a.inst % 48 / 24 == b.inst % 48 / 24
    | .bank => a.inst == b.inst
    | .bundle => a.inst == b.inst
    | .l2 => true
    | .dram => a.inst == b.inst && rowBank a.sub == rowBank b.sub
    | _ => false

/-- How many spares an item draws on. -/
def itemSpares : ItemKind → Nat
  | .tile => 1 | .bank => 4 | .bundle => 8 | .l2 => 1 | .dram => 8 | _ => 0

/-- The repairs in force on a die. -/
def SelfTest.repairs (x : SelfTest) : List Item := x.fused ++ x.soft
/-- A spare for the item is left. -/
def SelfTest.canRepair (x : SelfTest) (i : Item) : Bool :=
  decide ((x.repairs.filter fun j => sharesSpare i j).length < itemSpares i.kind)
/-- What becomes unavailable when an item is not repaired: a part of a tile takes its tile, a DRAM row its region (R584, R587). -/
def itemGone (i : Item) : Item :=
  match i.kind with
  | .bank => ⟨.tile, i.inst / 32, 0⟩
  | .bundle => ⟨.tile, i.inst, 0⟩
  | .dram => ⟨.region, i.inst, 0⟩
  | _ => { i with sub := 0 }
/-- An item is unavailable. -/
def Die.isBad (x : Die) (k : ItemKind) (i : Nat) : Bool := x.st.bad.any fun e => e.kind == k && e.inst == i

/-! ### What the registers show of repairs (R145 to R148, R605) -/

/-- The repair of a tile in row `r` and half `east`, with whether it is burnt. -/
def SelfTest.rowRepair (x : SelfTest) (r : Nat) (east : Bool) : Option (Nat × Bool) :=
  let hit (i : Item) : Bool := i.kind == .tile && i.inst / 48 == r && decide (24 ≤ i.inst % 48) == east
  match x.fused.find? hit with
  | some i => some (i.inst % 48, true)
  | none => (x.soft.find? hit).map fun i => (i.inst % 48, false)

/-- A faulty tile in a row and half has no spare: there are more of them than the half has spares left (R143, R147). -/
def Die.halfBad (x : Die) (r : Nat) (east : Bool) : Bool :=
  decide ((if (x.st.rowRepair r east).isNone then 1 else 0) < (x.st.bad.filter fun i => i.kind == .tile && i.inst / 48 == r && decide (24 ≤ i.inst % 48) == east).length)
/-- VT_MAP_ROWr (R147). -/
def Die.mapRow (x : Die) (r : Nat) : Nat :=
  let half (east : Bool) : Nat := match x.st.rowRepair r east with | some (c, f) => c + 64 + 128 * b2n f | none => 0
  half false + half true * 256 + b2n (x.halfBad r false) * 2 ^ 16 + b2n (x.halfBad r true) * 2 ^ 17
/-- VT_STATUS.REPAIRS. -/
def Die.tileRepairs (x : Die) : Nat := (x.st.repairs.filter fun i => i.kind == .tile).length
/-- VT_STATUS.DEGRADED (R143). -/
def Die.degraded (x : Die) : Bool := (List.range 32).any fun r => x.halfBad r false || x.halfBad r true
/-- The ownership code of a tile (R148). -/
def Die.tileOwner (x : Die) (t : Nat) : Nat := if x.isBad .tile t then 9 else (x.tileCad t).getD 8
/-- A word of VT_OWNER. -/
def Die.ownerWord (x : Die) (w : Nat) : Nat := ((List.range 8).map fun i => x.tileOwner (8 * w + i) * 16 ^ i).sum
/-- Repair fuse entries left: tile, memory, L2. -/
def Die.fuseLeft (x : Die) : Nat × Nat × Nat :=
  let n (p : ItemKind → Bool) : Nat := (x.st.fused.filter fun i => p i.kind).length
  (64 - n (fun k => k == .tile), 1024 - n (fun k => k == .bank || k == .bundle), 4 - n (fun k => k == .l2))
/-- ST_FUSE_LEFT. -/
def Die.fuseLeftWord (x : Die) : Nat := x.fuseLeft.1 + x.fuseLeft.2.1 * 2 ^ 7 + x.fuseLeft.2.2 * 2 ^ 18

/-! ### Failure reports (R585) -/

/-- The item has addresses of its own, in its block's units; a lane and logic have none (R585). -/
def itemAddressed : ItemKind → Bool
  | .bank => true | .bundle => true | .l2 => true | .control => true | .dram => true | .region => true
  | _ => false
/-- A record of die `d` made now is kept (R600, R601). -/
def Herdbook.keeps (h : Herdbook) (d : DieId) : Bool := if d = 0 then decide (h.pend.length < 7) else decide (h.held.length < 256)

/-- A failure takes the next entry of the ring and its herdbook record; die 1's entry shows 0 until die 0 has numbered the record, and
so does an entry whose record is not kept (log entry 50). -/
def State.failReport (s : State) (d : DieId) (f : BistFail) (online repaired : Bool) : State :=
  let k := (s.die d).st.ring
  let kept := s.pkg.hb.keeps d
  let seq := if d = 0 ∧ kept then s.pkg.hb.seq.toNat else 0
  let s := s.upd d fun x =>
    let a := itemResult f.item.kind + 16 * b2n online + 32 * b2n repaired + 64 * b2n (!repaired) + f.item.inst % 65536 * 65536
    let x := x.setReg (fldAddr R.ST_FAIL_A_BLOCK k 0) (BitVec.ofNat 32 a)
    let x := x.setFld R.ST_FAIL_ADDR (if itemAddressed f.item.kind then f.addr else 0) k
    let x := ((x.setFld R.ST_FAIL_BIT_BIT f.bit k).setFld R.ST_FAIL_BIT_EXPECTED f.expected k).setFld R.ST_FAIL_BIT_GOT f.got k
    let x := x.setFld R.ST_FAIL_REC seq k
    { x with st := { x.st with ring := (k + 1) % 16, owed := if d ≠ 0 ∧ kept then x.st.owed ++ [k] else x.st.owed } }
  s.hb d (recCode R.ST_EVENTS_BIST_FAIL 0x81) f.item.inst (itemResult f.item.kind)

/-- A failure that start-up BIST has found: repaired where a spare is left, a part of a tile beyond its own spares with its tile, else
the item is withdrawn (R584, R587). -/
def State.bistFail (s : State) (d : DieId) (f : BistFail) : State :=
  let st := (s.die d).st
  let gone := itemGone f.item
  let fix := if st.canRepair f.item then some f.item else if gone.kind = .tile ∧ st.canRepair gone then some gone else none
  let ok := fix.isSome
  let s := s.upd d fun x => { x with st := match fix with
    | some i => { x.st with soft := x.st.soft ++ [i] }
    | none => { x.st with bad := x.st.bad ++ [gone] } }
  s.failReport d f false ok

/-- ST_RESULTb after a start-up BIST (R605). -/
def Die.bistResult (x : Die) (fails : List BistFail) (b : Nat) : Die :=
  let own := fails.filter fun f => itemResult f.item.kind == b
  let out := x.st.bad.any fun i => itemResult i.kind == b
  let soft := (x.st.soft.filter fun i => itemResult i.kind == b).length
  ((x.setFld R.ST_RESULT_CODE (if out then 3 else if own.isEmpty then 1 else 2) b).setFld R.ST_RESULT_FAILED own.length b).setFld
    R.ST_RESULT_SOFT soft b

/-- A die that waits for its turn starts phase 1 of start-up BIST once the other die is past its phase 3 (R582). -/
def State.bistTurnOf (s : State) (d : DieId) : State :=
  if (s.die d).pw.phase ≠ .booted ∨ s.fld d R.SC_STATUS_RECOVERY = 1 ∨ (s.die d).st.bistAt.isSome then s
  else match s.bistBusy (peer d) with
    | some t => if t ≤ s.now then s.upd d fun x => { x with st := { x.st with bistAt := some t } } else s
    | none => s.upd d fun x => { x with st := { x.st with bistAt := some s.now } }
/-- The dies take their turns. -/
def State.bistTurn (s : State) : State := (s.bistTurnOf 0).bistTurnOf 1

/-- The end of start-up BIST (R580 to R586): what it found, the REFCLK frequencies that it measured, and its duration. Items
withdrawn before it are tested anew (R592). With all eight cores failing the die stops there, and die 0 enters recovery (R584). -/
def State.bistDone (s : State) (d : DieId) (fails : List BistFail) (refclk : List Nat) : State :=
  let s := s.bistTurn
  if (s.die d).pw.phase ≠ .booted ∨ s.fld d R.SC_STATUS_RECOVERY = 1 ∨ (s.die d).st.bistAt.isNone then s
  else
    let ms := (s.now - (s.die d).st.bistAt.getD s.now) / msec
    let s := s.upd d fun x => { x with st := { x.st with bad := [], bistAt := none } }
    let s := fails.foldl (fun (s : State) f => s.bistFail d f) s
    let s := s.upd d fun x =>
      let x := (List.range 8).foldl (fun (x : Die) b => x.bistResult fails b) x
      let x := (List.range 8).foldl (fun (x : Die) i => x.setFld R.ST_REFCLK_KHZ (refclk.getD i 0) i) x
      let x := ((x.setFld R.ST_STATUS_DONE 1).setFld R.ST_STATUS_ALL_PASS (b2n fails.isEmpty)).setFld R.ST_STARTUP_MS ms
      x.setFld R.VT_STATUS_REPAIR_PENDING 0
    let s := if fails.isEmpty then s else s.event d R.ST_EVENTS_BIST_FAIL 0 fails.length
    let fixed := (fails.filter fun f => (s.die d).st.soft.contains f.item).length
    let s := if fixed = 0 then s else s.event d R.ST_EVENTS_REPAIRED 0 fixed
    let s := s.hb d (recCode R.ST_EVENTS_BIST_FAIL 0x80) d.val (min ms 65535)
    if (List.range 8).all fun c => (s.die d).isBad .core c then
      (if d = 0 then s.recover else s.upd d fun x => { x with pw := { x.pw with phase := .stopped } })
    else s.upd d fun x => { x with pw := { x.pw with phase := .tested } }

/-! ### Fuse repair (R588) -/

/-- The soft repairs that find a free fuse entry, in their order. -/
def SelfTest.burnable (x : SelfTest) : Nat → Nat → Nat → List Item → List Item
  | _, _, _, [] => []
  | t, m, l, i :: rest => match i.kind with
    | .tile => if t = 0 then x.burnable t m l rest else i :: x.burnable (t - 1) m l rest
    | .bank => if m = 0 then x.burnable t m l rest else i :: x.burnable t (m - 1) l rest
    | .bundle => if m = 0 then x.burnable t m l rest else i :: x.burnable t (m - 1) l rest
    | .l2 => if l = 0 then x.burnable t m l rest else i :: x.burnable t m (l - 1) rest
    | _ => if (x.fused.filter fun j => sharesSpare i j).length < 16 then i :: x.burnable t m l rest else x.burnable t m l rest

/-- The code of R418 with which ST_CTRL.FUSE_REPAIR is refused: STATE while a plan runs, while a burn is in progress, or with
the supply warning present (R560, R588). -/
def State.fuseRepairCode (s : State) (d : DieId) : Nat :=
  if s.planRuns ∨ (s.die d).burning ∨ s.fld d R.PW_STATUS_WARN = 1 then 16 else 0
/-- FUSE_REPAIR (R588). -/
def State.fuseRepair (s : State) (d : DieId) : State :=
  let x := s.die d
  let items := x.st.burnable x.fuseLeft.1 x.fuseLeft.2.1 x.fuseLeft.2.2 x.st.soft
  (s.setFld d R.ST_STATUS_FUSING 1).startBurn d (.repair items) (repairBits items)

/-- BIST_DONE: what phases 1 to 3 have found and what the later ones have (R581). -/
def execBistDone (d : DieId) (dt : Nat) (fails later : List BistFail) (refclk : List Nat) (s : State) : Result :=
  onDie s d true ((s.advance dt).bistDone d (fails ++ later) refclk)

end Sys2Proof.Machine
end

