-- ==== Sys2Proof/Machine/Reset.lean ====
section
/-! DEFINITION. What a reset leaves of a die and of the package (21_power_reset.md R618 to R631), and the restart that follows. -/

namespace Sys2Proof.Machine

/-- The groups that a reset of a kind loses on a die that it affects (R631): bit i for group i. -/
def lostGroups (kind : Nat) (dual : Bool) : Nat :=
  match kind with
  | 0 => 0x3FFF
  | 1 => 0x1FFF
  | 2 => 0x1FFF
  | 3 => if dual then 0x1FDE else 0x1FDF
  | 4 => 0x1FDF
  | 5 => if dual then 0x1FDE else 0x1FDF
  | 6 => 0x0583
  | _ => 0x0100
/-- The groups that the entry to Standby loses (R631). -/
def lostStandby : Nat := 0x0B00
/-- The groups that Dry loses but for DRAM, which follows MC_PASR (R631). -/
def lostDry : Nat := 0x1B9C

/-- Sets group bits of PW_LOST. -/
def Die.lose (x : Die) (groups : Nat) : Die := x.setFld R.PW_LOST (x.fld R.PW_LOST ||| groups)

/-- Registers that a reset of a kind leaves: fuses always, and the supervisor domain unless it lost its supply (R4, R611, R612,
R635, R666, R667). Die 0 keeps its power-cycle count (R599). -/
def keepReg (kind a : Nat) : Bool :=
  a == 0x4 || a == 0x230020
    || (kind != 0 && (a == 0x108 || a == 0x134 || a == 0x1000C || a == 0x10010 || a == 0x10014 || a == 0x10018 || a == 0x1002C
      || a == 0x10000 || (0x10040 ≤ a && a < 0x10078)))

/-- A die right after a reset of a kind from 0 to 5: what left it on the way to the other die still arrives. -/
def Die.resetTo (x : Die) (d : DieId) (kind : Nat) (phase : Phase) (now : Nat) : Die :=
  let regs := x.regs.filter fun e => keepReg kind e.1
  let soft := if kind ≤ 2 then [] else x.st.soft
  let energy := if kind = 0 then [] else x.pw.energy
  let unkept := if kind = 0 then 0 else x.pw.unkept
  let y : Die := { regs := regs
                   mr := { flight := x.mr.flight, items := x.mr.items, beats := x.mr.beats }
                   st := { soft := soft, fused := x.st.fused, bad := x.st.bad }
                   pw := { phase := phase, energy := energy, warnAt := x.pw.warnAt, kickAt := now, unkept := unkept }
                   heat := { agePart := if kind = 0 then 0 else x.heat.agePart, peaked := kind != 0 && x.heat.peaked } }
  let y := if d = 0 then y else y.setReg 0x20000 0x803
  let y := (y.setFld R.PW_STATUS_STATE 1).setFld R.PW_STATUS_CHANGING 0
  if kind = 1 ∨ kind = 2 then (y.setFld R.PW_STATUS_WARN 0).setFld R.PW_STATUS_OV_WARN 0 else y

/-- The supervisor time until which the timed outputs of a holder hold after a die, watchdog or host full reset: LEASE + GUARD
lines after its last RENEW (R552). -/
def Die.holdUntil (x : Die) (now : Nat) : Nat :=
  ((List.range 8).map fun p =>
    match x.grid p, (x.pail p).renewed with
    | some g, some m =>
      if x.role p = 1 then now + x.clk.supOf (g.instant (m + x.lease p + x.fld R.MR_PAIL_CFG_GUARD p) - x.clk.now) else 0
    | _, _ => 0).foldl max 0

/-- The Silcel slots of a die are closed and draw new session nonces (R420). -/
def State.closeSlots (s : State) (d : DieId) : State := (List.range 4).foldl (fun s k => s.closeSlot d k) s

/-- Herdbook records that a die has made and that are not in flash are lost and counted in the supervisor domain (R611, R618). -/
def State.loseRecords (s : State) (d : DieId) : State :=
  if d = 0 then
    let n := s.pkg.hb.pend.length
    (s.modHb fun h => { h with pend := [], sent := false, offered := none }).upd 0 fun x => { x with pw := { x.pw with unkept := x.pw.unkept + n } }
  else
    let n := s.pkg.hb.held.length + s.pkg.hb.heldLost
    (s.modHb fun h => { h with held := [], heldLost := 0, sent := false, offered := none }).upd 1 fun x => { x with pw := { x.pw with unkept := x.pw.unkept + n } }

/-- One die takes a reset of a kind (R621, R627, R631). `flags` are PW_LAST_RESET's bits above KIND. The other die forgets which of the
die's control messages it has received. -/
def State.resetDie (s : State) (d : DieId) (kind flags : Nat) (phase : Phase) : State :=
  let x := s.die d
  let until_ := if 3 ≤ kind then x.holdUntil s.now else 0
  let s := if s.now < until_ then s.send (.hold d until_) else s
  let s := (s.loseRecords d).upd d fun x =>
    let y := x.resetTo d kind phase s.now
    let y := y.setReg (fldAddr R.PW_LAST_RESET_KIND 0 0) (BitVec.ofNat 32 (kind + flags))
    let y := (y.lose (lostGroups kind s.dual)).setFld R.PW_LOST_REGIONS 0xFFFF
    if kind = 0 then y else y.count R.PW_EPOCH
  (s.upd (peer d) fun x => x.modMr fun m => { m with got := [], gotDone := [] }).closeSlots d

/-- The herdbook reports a die's reset, and the records that were not kept across it (R600, R618, R627). -/
def State.resetRecords (s : State) (d : DieId) : State :=
  let s := s.hb 0 (recCode R.PW_EVENTS_SUPPLY_WARN 0x80) d.val ((s.die d).reg (fldAddr R.PW_LAST_RESET_KIND 0 0)).toNat
  let n := (s.die d).pw.unkept
  if n = 0 then s
  else (s.upd d fun x => { x with pw := { x.pw with unkept := 0 } }).hb 0 (recCode R.HB_EVENTS_LOST 0x82) d.val (min n 65535)

/-- The plans of the package are lost (R631). -/
def State.losePlans (s : State) : State := s.updPkg fun p => { p with plans := {} }

/-- A package reset of a kind: both dies are held until it is released (R621); test authorisation ends (R572). -/
def State.resetPackage (s : State) (kind flags : Nat) : State :=
  let s := s.endTest
  let s := s.resetDie 0 kind flags .held
  let s := if s.dual then s.resetDie 1 kind flags .held else s
  let s := s.losePlans
  s.updPkg fun p => { p with fw := none, panel := {}, supply := {} }

/-- The newest AGE record of a die (R666). -/
def State.ageOf (s : State) (d : DieId) : Nat :=
  ((s.pkg.hb.recs.reverse.find? fun r => r.code == recCode R.SY_TJ_EVENTS_TJ_HIGH 0x80 && r.source == d.val).map fun r => r.detail % 2 ^ 32).getD
    (s.pkg.fuses.life * lifeUnit)

/-- What die 0 resumes at power-on (R599, R627, R666): operating time and power cycles from the newest record, the cycle count
raised by 1, the POWER_ON record, the epoch, and each die's equivalent hours. -/
def State.resumePowerOn (s : State) : State :=
  let newest := s.pkg.hb.recs.getLast?
  let time := max ((newest.map fun r => r.time.toNat).getD 0) (s.pkg.fuses.life * lifeUnit)
  let cycles := ((newest.map fun r => r.cycles).getD 0 + 1) % 2 ^ 24
  let s := s.modHb fun h => { h with time := time, timePart := 0, seq := (newest.map fun r => r.seq + 1).getD 1 }
  let s := s.setFld 0 R.HB_CYCLES_CYCLES cycles
  let s := s.hb 0 (recCode R.HB_EVENTS_LOST 0x80) 0 (s.die0.reg (fldAddr R.PW_LAST_RESET_KIND 0 0)).toNat
  let one (s : State) (d : DieId) : State := (s.setFld d R.PW_EPOCH (cycles * 65536)).setFld d R.SY_AGE (s.ageOf d)
  if s.dual then one (one s 0) 1 else one s 0

/-- RESET_RELEASE (R621): 10 ms of RST_N high and VIN good end a package reset; die 0's ROM is to run. -/
def State.resetRelease (s : State) : State :=
  let power := decide (s.fld 0 R.PW_LAST_RESET_KIND = 0)
  if s.die0.pw.phase ≠ .held ∨ s.die0.heat.shut ∨ (power ∧ s.die0.tooCold) then s
  else
    let s := (s.upd 0 fun x => { x with pw := { x.pw with phase := .released } }).coldStart 0
    if s.fld 0 R.PW_LAST_RESET_KIND = 0 then s.resumePowerOn
    else
      let s := s.resetRecords 0
      if s.dual then s.resetRecords 1 else s

/-- A die reset of kind WATCHDOG or DIE (R621, R623, R624): the herdbook is committed first, and on a single-die package the plan
is lost. Die 1 then waits for die 0, which carries its reset out. -/
def State.dieReset (s : State) (d : DieId) (kind flags : Nat) : State :=
  let s := s.endTest.hbCommit
  let s := s.resetDie d kind flags (if d = 0 then .released else .held)
  let s := if d = 0 then s.updPkg fun p => { p with fw := none, panel := {}, plans := { p.plans with job := none } } else s
  let s := s.updPkg fun p => { p with plans := { p.plans with brownOn := p.plans.brownOn.filter (fun k => k / 8 != d.val)
                                                              stopping := p.plans.stopping.filter fun k => k / 8 != d.val } }
  let s := if s.dual then s else s.losePlans
  s.resetRecords d

end Sys2Proof.Machine
end

