-- ==== Sys2Proof/Machine/Thermal.lean ====
section
/-! DEFINITION. Temperature: the logic and supervisor sensors, thermal shutdown and restart, and the service-life counter
(23_package.md R660 to R668). DRAM layers stand in Dram.lean. -/

namespace Sys2Proof.Machine

/-- The last accepted sample of logic sensor `i`, in 1/16 degree. -/
def Die.tj (x : Die) (i : Nat) : Int := sgn 16 (x.fld R.SY_TJ_TEMP i)
/-- The logic sensor with the highest last sample, the lowest number first (R668). -/
def Die.hottestLogic (x : Die) : Nat := (List.range 8).foldl (fun b i => if x.tj b < x.tj i then i else b) 0
/-- A record of a thermal event: the die and the sensor. -/
def State.tjEvent (s : State) (d : DieId) (f : Fld) (sensor : Nat) : State := s.eventRec d f 0 d.val sensor

/-- A sensor is excluded or takes part again (R660). -/
def State.exclude (s : State) (d : DieId) (i : Nat) (out : Bool) : State :=
  let s := s.upd d fun x =>
    let x := x.modSensor i fun t => { t with excluded := out, accepts := 0 }
    x.setFld R.SY_TJ_STATUS_SENSOR_FAULT (b2n ((List.range 9).any fun k => (x.sensor k).excluded))
  if out then s.tjEvent d R.SY_TJ_EVENTS_SENSOR_FAULT i else s

/-- A sample of logic sensor 0 to 7, or of the supervisor sensor 8, in 1/16 degree (R660, R661). -/
def State.tjSample (s : State) (d : DieId) (i : Nat) (v : Int) : State :=
  let t := (s.die d).sensor i
  if v < -640 ∨ 2400 < v then
    let s := (s.count d R.SY_TJ_DROPS).upd d fun x => x.modSensor i fun t => { t with discards := t.discards + 1, accepts := 0 }
    if t.discards + 1 = 3 ∧ !t.excluded then s.exclude d i true else s
  else
    let s := s.upd d fun x =>
      let x := x.modSensor i fun t => { t with discards := 0, accepts := if t.excluded then t.accepts + 1 else 0 }
      if i = 8 then x.setFld R.SY_TJ_SUP_TEMP (unsgn 16 v)
      else
        let x := x.setFld R.SY_TJ_TEMP (unsgn 16 v) i
        let x := if !x.heat.peaked ∨ sgn 16 (x.fld R.SY_TJ_PEAK_TEMP) < v then
            { x.setFld R.SY_TJ_PEAK_TEMP (unsgn 16 v) with heat := { x.heat with peaked := true } } else x
        x.setFld R.SY_TJ_STATUS_HOTTEST x.hottestLogic
    let s := if t.excluded ∧ t.accepts + 1 = 3 then s.exclude d i false else s
    let s := if i = 8 ∧ !((s.die d).sensor i).excluded then s.upd d fun x =>
        { x with heat := { x.heat with coolSince := if v < 1520 then x.heat.coolSince.or (some s.now) else none } }
      else s
    if ((s.die d).sensor i).excluded then s
    else
      let s := s.upd d fun x => x.heatSeen i v
      if i = 8 then s
      else if 1600 < v ∧ s.fld d R.SY_TJ_STATUS_TJ_HIGH = 0 then
        (s.setFld d R.SY_TJ_STATUS_TJ_HIGH 1).tjEvent d R.SY_TJ_EVENTS_TJ_HIGH i
      else if s.fld d R.SY_TJ_STATUS_TJ_HIGH = 1
          ∧ (List.range 8).all fun k => ((s.die d).sensor k).excluded || decide ((s.die d).tj k < 1568) then
        (s.setFld d R.SY_TJ_STATUS_TJ_HIGH 0).tjEvent d R.SY_TJ_EVENTS_TJ_OK i
      else s

/-- THERMAL_SHUTDOWN (R662): 3 consecutive accepted samples of a sensor above 115 degrees. The die commits its records with the
THERMAL record, which `sent` says die 1 delivers in time, and takes its lanes after the hold of R552; its regulators go off. -/
def State.thermalShutdown (s : State) (d : DieId) (sent : Bool) : State :=
  match (List.range 13).find? fun i => decide (3 ≤ ((s.die d).sensor i).above) with
  | none => s
  | some i =>
    if (s.die d).heat.shut then s
    else
      let s := s.endTest
      let code := recCode R.SY_TJ_EVENTS_TJ_HIGH 0x81
      let s := if d = 0 then (s.hbRecord 0 code 0 ((s.die d).hbDetail (s.die d).masterCad i) false true).hbCommit
        else
          let s := s.hbRecord 1 code 1 ((s.die d).hbDetail (s.die d).masterCad i) false true
          match sent && (s.die d).linkUp, s.pkg.hb.held.getLast? with
          | true, some r => (s.modHb fun h => { h with held := h.held.dropLast }).hbAdd r true
          | _, _ => s
      let sup := (s.die d).fld R.SY_TJ_SUP_TEMP
      let s := s.resetDie d 5 0 .held
      let s := s.upd d fun x => { x.setFld R.SY_TJ_SUP_TEMP sup with heat := { x.heat with shut := true, coolSince := none } }
      let s := if d = 0 then s.updPkg fun p => { p with fw := none, panel := {}, plans := { p.plans with job := none } } else s
      if s.dual then s else s.losePlans

/-- THERMAL_RESTART (R662): the supervisor sensor has read below 95 degrees for 10 s with VIN in range. -/
def State.thermalRestart (s : State) (d : DieId) : State :=
  let x := s.die d
  match x.heat.coolSince with
  | some t =>
    if x.heat.shut ∧ !x.flag R.PW_STATUS_WARN ∧ !x.flag R.PW_STATUS_OV_WARN then
      let s := (s.advanceTo (t + 10 * second)).upd d fun x =>
        { x with heat := { x.heat with shut := false }, pw := { x.pw with phase := if d = 0 then .released else .held } }
      s.resetRecords d
    else s
  | none => s

/-- The acceleration factor of a second at a temperature in 1/16 degree, held within 0 and 115 degrees, as time of AF 1 in
2^-16 ns (R664). -/
def ageSecond (v : Int) : Nat :=
  let e := max 0 (min 1840 v) - 1360
  let q := e / 160
  let r := (e % 160).toNat
  let f := if r = 0 then 2 ^ 32 else Config.ageFactor r
  if 0 ≤ q then second * f * 2 ^ q.toNat / 2 ^ 32 else second * f / 2 ^ (32 + (-q).toNat)

/-- AGE_TICK (R664, R666, R668): a second of operation ends on a die. Without an accepted sample in it, the last hottest logic
sample counts. -/
def State.ageTick (s : State) (d : DieId) : State :=
  let x := s.die d
  let v := x.heat.hottest.getD (x.tj x.hottestLogic)
  let unit := 3600 * second / 256
  let sum := x.heat.agePart + ageSecond v
  let s := s.upd d fun x => { x.count R.SY_AGE 0 (sum / unit) with heat := { x.heat with agePart := sum % unit, hottest := none } }
  if s.pkg.hb.time < s.fld d R.SY_AGE then
    if s.fld d R.SY_TJ_STATUS_LIFE_OVER = 0 then (s.setFld d R.SY_TJ_STATUS_LIFE_OVER 1).tjEvent d R.SY_TJ_EVENTS_LIFE_OVER 0 else s
  else s.setFld d R.SY_TJ_STATUS_LIFE_OVER 0

def execTjSample (d : DieId) (dt : Nat) (sensor : Fin 9) (temp : BitVec 16) (s : State) : Result :=
  onDie s d true ((s.advance dt).tjSample d sensor temp.toInt)
def execThermalShutdown (d : DieId) (sent : Bool) (s : State) : Result := onDie s d true (s.thermalShutdown d sent)
def execThermalRestart (d : DieId) (s : State) : Result := onDie s d true (s.thermalRestart d)
def execAgeTick (d : DieId) (dt : Nat) (s : State) : Result := onDie s d true ((s.advance dt).ageTick d)

end Sys2Proof.Machine
end

