-- ==== Sys2Proof/Machine/Power.lean ====
section
/-! DEFINITION. Supply levels, regulators, the watchdog, energy counters and low-power states (21_power_reset.md R608 to R637). -/

namespace Sys2Proof.Machine

/-! ### Warning and recovery (R614 to R620) -/

/-- The supply warning is declared on a die (R614): its flag, count, event and record with VIN in mV, which the herdbook keeps
even as an eighth; the herdbook is committed, a burn stops after its bit, and plans see the warning (R104). -/
def State.supplyWarn (s : State) (d : DieId) : State :=
  if s.fld d R.PW_STATUS_WARN = 1 then s
  else
    let s := ((s.setFld d R.PW_STATUS_WARN 1).count d R.PW_WARNS).upd d fun x => { x with pw := { x.pw with warnAt := s.now } }
    let s := s.event d R.PW_EVENTS_SUPPLY_WARN
    let x := s.die d
    let s := s.hbRecord d (codeOf R.PW_EVENTS_SUPPLY_WARN) d.val (x.hbDetail x.masterCad (x.fld R.PW_VIN_MV)) false true
    (s.hbCommit.stopBurn d).seeSupply

/-- Recovery is declared on a die (R615). -/
def State.supplyOk (s : State) (d : DieId) : State :=
  if s.fld d R.PW_STATUS_WARN = 0 then s
  else
    let dip := s.now - (s.die d).pw.warnAt
    let s := (s.setFld d R.PW_STATUS_WARN 0).setFld d R.PW_DIP (min (dip / usec) (2 ^ 32 - 1))
    (s.eventRec d R.PW_EVENTS_SUPPLY_OK 0 d.val (min (dip / (10 * usec)) 65535)).seeSupply

/-- The warning level in mV (R635). -/
def Die.warnLevel (x : Die) : Nat := 2550 + 10 * x.fld R.PW_WARN_CFG_LEVEL
/-- A write of PW_WARN_CFG has set a new level: VIN, as the last accepted sample gives it, is compared with it at once (R620, log
entry 52). -/
def State.warnCfgWritten (s : State) (d : DieId) : State :=
  let x := s.die d
  let v := x.fld R.PW_VIN_MV
  if x.pw.minFresh ∧ v = 0 then s
  else if v < x.warnLevel then s.supplyWarn d
  else if x.warnLevel + 40 < v then s.supplyOk d
  else s

/-- The over-voltage warning comes or clears (R617). -/
def State.ovWarn (s : State) (d : DieId) (on : Bool) : State :=
  if s.fld d R.PW_STATUS_OV_WARN = b2n on then s
  else (s.setFld d R.PW_STATUS_OV_WARN (b2n on)).eventRec d (if on then R.PW_EVENTS_OV_WARN else R.PW_EVENTS_OV_OK) 0 d.val (s.fld d R.PW_VIN_MV)

/-- A sample of VIN in mV, with the energy that each domain has taken since the last in µJ (R613, R634). -/
def State.vinSample (s : State) (d : DieId) (mv : Int) (energy : List Nat) : State :=
  let sums := (List.range 7).foldl (fun m i => mput (fun _ => 0) m i ((mget (fun _ => 0) m i + energy.getD i 0) % (1000 * 2 ^ 64))) (s.die d).pw.energy
  let s := s.upd d fun x => { x with pw := { x.pw with energy := sums } }
  if mv < 0 ∨ 7000 < mv then s.count d R.PW_VIN_DROPS
  else s.upd d fun x =>
    let v := mv.toNat
    let y := x.setFld R.PW_VIN_MV v
    let y := if x.pw.minFresh ∨ v < x.fld R.PW_VIN_MIN_MV then y.setFld R.PW_VIN_MIN_MV v else y
    { y with pw := { y.pw with minFresh := false } }

/-- PW_CTRL.SNAP (R634, R636): the seven counters are latched in mJ, and PW_VIN_MIN starts anew. -/
def Die.pwSnap (x : Die) : Die :=
  let y := (List.range 7).foldl (fun (y : Die) i =>
    let e := mget (fun _ => 0) x.pw.energy i / 1000
    (y.setFld R.PW_E_LO (e % 2 ^ 32) i).setFld R.PW_E_HI (e / 2 ^ 32) i) x
  { y with pw := { y.pw with minFresh := true } }

/-! ### Regulators, watchdog and package resets (R610, R618, R619, R621, R623) -/

/-- A regulator reaches its current limit or leaves it (R610). Domains are numbered as PW_LAST_RESET.DOMAIN. -/
def State.regLimit (s : State) (d : DieId) (domain : Nat) (on : Bool) : State :=
  let at_ := (s.die d).pw.limit.any fun e => e.1 == domain
  if on ∧ !at_ then (s.upd d fun x => { x with pw := { x.pw with limit := x.pw.limit ++ [(domain, s.now)] } }).event d R.PW_EVENTS_REG_LIMIT 0 domain
  else if !on ∧ at_ then s.upd d fun x => { x with pw := { x.pw with limit := x.pw.limit.filter fun e => e.1 != domain } }
  else s

/-- REGULATOR_RESET (R610): a limit, the one first reached, has held for 10 ms. -/
def State.regulatorReset (s : State) (d : DieId) : State :=
  match (s.die d).pw.limit with
  | (k, t) :: _ => (s.advanceTo (t + 10 * msec)).dieReset d 5 (32 + 64 * k)
  | [] => s

/-- WATCHDOG_EXPIRY (R623): the timeout in ms has passed since the watchdog was last restarted. It runs once the die is brought up and no
low-power state holds it (log entry 52). -/
def State.watchdog (s : State) (d : DieId) : State :=
  let x := s.die d
  if x.pw.phase ≠ .ready ∨ 2 ≤ x.fld R.PW_STATUS_STATE then s
  else (s.advanceTo (x.pw.kickAt + x.fld R.PW_WDOG_TIMEOUT * msec)).dieReset d 3 0

/-- BROWN_OUT (R618): the hold-up lets `kept` pending records be programmed; the rest is counted. -/
def State.brownOut (s : State) (kept : Nat) : State := (s.hbCommit kept).resetPackage 1 0

/-! ### Low-power states (R628 to R630) -/

/-- The code of R418 with which a write of PW_CTRL.STATE is refused (R629). -/
def State.stateCode (s : State) (d : DieId) (target : Nat) : Nat :=
  let now := s.fld 0 R.PW_STATUS_STATE
  if d ≠ 0 ∨ s.planRuns ∨ s.pkg.plans.job.isSome ∨ s.pkg.plans.request.isSome ∨ s.pkg.supply.change.isSome then 16
  else if target = 2 ∧ now ≠ 1 then 16
  else if target = 3 ∧ now ≠ 1 ∧ now ≠ 2 then 16
  else 0

/-- Shows the state on both dies. -/
def State.showState (s : State) (state : Nat) (changing : Bool) : State :=
  let one (s : State) (d : DieId) : State := (s.setFld d R.PW_STATUS_STATE state).setFld d R.PW_STATUS_CHANGING (b2n changing)
  if s.dual then one (one s 0) 1 else one s 0

/-- A change to `target` begins: 1 Idle, 2 Standby, 3 Dry. A change to the state that the package is in does nothing. -/
def State.stateStart (s : State) (target : Nat) : State :=
  let now := s.fld 0 R.PW_STATUS_STATE
  if target = now then s
  else (s.updPkg fun p => { p with supply := { p.supply with change := some target } }).showState (if target = 3 then 3 else now) true

/-- Every lane direction of a die goes off and loses lock and presets (R628, R631). -/
def State.lanesOff (s : State) (d : DieId) : State :=
  let on := (List.range 512).filter fun k => s.fld d R.LN_STATUS_RX_NOW k != 0 || s.fld d R.LN_STATUS_TX_NOW k != 0
  let s := on.foldl (fun (s : State) k => (s.lnNow d k false 0).lnNow d k true 0) s
  s.upd d fun x => { x with lanes := { x.lanes with lanes := x.lanes.lanes.map fun e => (e.1, { e.2 with presets := [] }) } }

/-- The sub-ports that are up on a die, but for `stays`, go down (R628). -/
def State.portsDown (s : State) (d : DieId) (stays : Option Nat) : State :=
  (List.range 8).foldl (fun (s : State) p =>
    if stays = some p ∨ s.fld d R.NW_SP_STATUS_LINK p = 0 then s else s.linkMove d p false false) s

/-- A die in Standby (R628, R631). -/
def State.standbyDie (s : State) (d : DieId) : State :=
  let s := (s.lanesOff d).portsDown d (if d = 0 then some 0 else none)
  s.upd d fun x => x.lose lostStandby

/-- A die in Dry (R484, R628, R631): what Dry loses is gone, regions with MC_PASR 0 lose their content, and the Silcel slots close
as after a reset (R630). -/
def State.dryDie (s : State) (d : DieId) : State :=
  let pasr := s.fld d R.MC_PASR_RETAIN
  let s := s.upd d fun x =>
    let y := x.resetTo d 5 .held s.now
    let gone := 65535 - pasr
    let y := { y with dram := { cells := x.dram.view.filter fun e => bit pasr (dramRegion e.1) } }
    let y := y.lose (lostDry + (if gone = 0 then 0 else 64))
    y.setFld R.PW_LOST_REGIONS (y.fld R.PW_LOST_REGIONS ||| gone)
  s.closeSlots d

/-- STATE is posted on every die of the package (R629, R636). -/
def State.stateEvent (s : State) (target : Nat) : State :=
  let s := s.event 0 R.PW_EVENTS_STATE 0 target
  if s.dual then s.event 1 R.PW_EVENTS_STATE 0 target else s
/-- STATE_CHANGE_DONE (R628): the change of state completes. Idle after Dry waits for the ROM and the dies (R630). -/
def State.stateDone (s : State) : State :=
  match s.pkg.supply.change with
  | none => s
  | some target =>
    let both (f : State → DieId → State) (s : State) : State := if s.dual then f (f s 0) 1 else f s 0
    if target = 1 then
      if s.pkg.supply.dry ∧ s.die0.pw.phase ≠ .ready then s
      else
        let s := s.updPkg fun p => { p with supply := {} }
        (s.showState 1 false).stateEvent 1
    else if target = 2 then
      let s := both State.standbyDie s.endTest
      let s := (s.updPkg fun p => { p with supply := {} }).showState 2 false
      s.stateEvent 2
    else
      let s := both State.dryDie (s.endTest.stateEvent 3)
      (s.updPkg fun p => { p with supply := { dry := true }, fw := none, panel := {} }).showState 3 false

/-- WAKE (R630, R627): WAKE_N low for 1 ms returns Standby or Dry to Idle; leaving Dry raises the epoch and runs the ROM. -/
def State.wake (s : State) : State :=
  if s.pkg.supply.change.isSome then s
  else if s.pkg.supply.dry then
    let one (s : State) (d : DieId) : State := s.count d R.PW_EPOCH
    let s := if s.dual then one (one s 0) 1 else one s 0
    let s := s.upd 0 fun x => { x with pw := { x.pw with phase := .released } }
    (s.updPkg fun p => { p with supply := { p.supply with change := some 1 } }).showState 3 true
  else if s.fld 0 R.PW_STATUS_STATE = 2 then s.stateStart 1
  else s

def execSupplyWarn (d : DieId) (dt : Nat) (s : State) : Result := onDie s d true ((s.advance dt).supplyWarn d)
def execSupplyOk (d : DieId) (dt : Nat) (s : State) : Result := onDie s d true ((s.advance dt).supplyOk d)
def execOvWarn (d : DieId) (dt : Nat) (s : State) : Result := onDie s d true ((s.advance dt).ovWarn d true)
def execOvOk (d : DieId) (dt : Nat) (s : State) : Result := onDie s d true ((s.advance dt).ovWarn d false)
def execOvervoltShutdown (dt : Nat) (s : State) : Result := onDie s 0 true ((s.advance dt).resetPackage 1 16)
def execBrownOut (dt kept : Nat) (s : State) : Result := onDie s 0 true ((s.advance dt).brownOut kept)
def execPowerOn (dt : Nat) (s : State) : Result := onDie s 0 true ((s.advance dt).resetPackage 0 0)
def execPinReset (dt : Nat) (s : State) : Result := onDie s 0 true ((s.advance dt).resetPackage 2 0)
def execResetRelease (dt : Nat) (s : State) : Result := onDie s 0 true ((s.advance dt).resetRelease)
def execRegLimit (d : DieId) (dt : Nat) (domain : Fin 6) (on : Bool) (s : State) : Result :=
  onDie s d true ((s.advance dt).regLimit d (domain + 1) on)
def execRegulatorReset (d : DieId) (s : State) : Result := onDie s d true (s.regulatorReset d)
def execVinSample (d : DieId) (dt : Nat) (mv : Int) (energy : List Nat) (s : State) : Result :=
  onDie s d true ((s.advance dt).vinSample d mv energy)
def execWatchdogExpiry (d : DieId) (s : State) : Result := onDie s d true (s.watchdog d)
def execWake (dt : Nat) (s : State) : Result := onDie s 0 true ((s.advance dt).wake)
def execStateChangeDone (dt : Nat) (s : State) : Result := onDie s 0 true ((s.advance dt).stateDone)

end Sys2Proof.Machine
end

