-- ==== Sys2Proof/Machine/Setup.lean ====
section
/-! DEFINITION. What a plan gives a die when it starts (R77, R83 to R86, R98): the register values, and what the blocks keep, as a
die on which nothing else has happened; the instances of the blocks that a section configures, and the cadences it names. -/

namespace Sys2Proof.Machine

/-! ### The header and the sections of a plan -/

/-- The sections of a plan for a die. -/
def Plan.on (p : Plan) (d : DieId) : List Sect := p.sects.filter fun s => s.on d
/-- A header field (R77). -/
def Plan.hd (p : Plan) (off n : Nat) : Nat := num p.header off n
/-- The two words of a cadence entry of the header. -/
def Plan.cadWords (p : Plan) (d : DieId) (c : Nat) : Nat × Nat := (p.hd (0x50 + 64 * d.val + 8 * c) 4, p.hd (0x54 + 64 * d.val + 8 * c) 4)
/-- The grid that a plan gives a cadence of a die; none where the cadence is not active. -/
def Plan.grid (p : Plan) (d : DieId) (c : Nat) : Option Grid :=
  let w := p.cadWords d c
  match rateOf (bits w.1 3 0) with
  | some (n, m) => if bits w.1 17 5 = 0 then none else some ⟨n, m, bits w.1 17 5, sgn 32 w.2⟩
  | none => none
/-- The cadences that a plan makes active on a die. -/
def Plan.cads (p : Plan) (d : DieId) : List Nat := (List.range 8).filter fun c => (p.grid d c).isSome

/-- The body of a REG record: its words and their addresses (R83). -/
def Rec.regWords (r : Rec) : List (Nat × Nat) :=
  (List.range (num r.body 4 2)).map fun i => (num r.body 0 4 + 4 * i, num r.body (8 + 4 * i) 4)
/-- Sections that are sequences of records (R82). -/
def recordFramed (ty : Nat) : Bool := ([2, 4, 6, 7, 8, 9, 0xA, 0xB, 0xC, 0x12] : List Nat).contains ty
/-- The REG words of a section, in record order. -/
def Sect.regWords (s : Sect) : List (Nat × Nat) :=
  if recordFramed s.ty then (s.recs.filter fun r => r.kind == 1).flatMap Rec.regWords else []

/-! ### The instances that sections configure -/

/-- The kinds of instance that a plan configures. -/
inductive IKind
  | enc | pool | dec | store | scaler | lane | group | block | subport | rx | tx | gates | strict | weighted | shaper | policer
  | port | asrc | augrp | map | core | tile | chan | stream | thread | compare | pail
  deriving DecidableEq, Repr

/-- The register windows of a kind: first address, stride, instances, bytes of each. -/
def IKind.windows : IKind → List (Nat × Nat × Nat × Nat)
  | .enc => [(0x80000, 0x100, 256, 0x100), (0x90000, 0x40, 256, 0x40), (0xA2000, 0x10, 256, 0x10), (0xC0000, 0x100, 256, 0x100), (0x200400, 4, 256, 4)]
  | .pool => [(0x94000, 0x20, 16, 0x20)]
  | .dec => [(0xA1000, 0x40, 64, 0x40)]
  | .store => [(0xA4000, 0x10, 1024, 0x10)]
  | .scaler => [(0xB0100, 4, 128, 4)]
  | .lane => [(0x100000, 0x200, 512, 0x200)]
  | .group => [(0x141000, 0x10, 512, 0x10)]
  | .block => [(0x140100, 4, 32, 4)]
  | .subport => [(0x181000, 0x100, 8, 0x100)]
  | .rx => [(0x184000, 0x20, 1024, 0x20)]
  | .tx => [(0x18C000, 0x10, 1024, 0x10)]
  | .gates => [(0x190100, 0x20, 8, 0x20)]
  | .strict => [(0x190400, 0x10, 64, 0x10)]
  | .weighted => [(0x198000, 8, 2048, 8)]
  | .shaper => [(0x194000, 0x10, 1024, 0x10)]
  | .policer => [(0x19C000, 4, 4096, 4)]
  | .port => [(0x1B0100, 0x20, 16, 0x20)]
  | .asrc => [(0x1B0400, 0x10, 32, 0x10)]
  | .augrp => [(0x1B1000, 0x10, 256, 0x10)]
  | .map => [(0x1B2000, 8, 4096, 8)]
  | .core => [(0x1F0400, 0x20, 8, 0x20)]
  | .tile => []
  | .chan => [(0x1D1000, 0x40, 128, 0x40)]
  | .stream => [(0x1D4000, 0x10, 512, 0x10)]
  | .thread => []
  | .compare => [(0x20400, 0x10, 64, 0x10)]
  | .pail => [(0x200100, 0x20, 8, 0x20)]

/-- Every kind that owns registers. -/
def iKinds : List IKind :=
  [.enc, .pool, .dec, .store, .scaler, .lane, .group, .block, .subport, .rx, .tx, .gates, .strict, .weighted, .shaper, .policer,
   .port, .asrc, .augrp, .map, .core, .chan, .stream, .compare, .pail]

/-- An instance. -/
structure Inst where
  kind : IKind
  n : Nat
  deriving DecidableEq, Repr

/-- The windows of an instance: first address and bytes. -/
def Inst.windows (i : Inst) : List (Nat × Nat) := i.kind.windows.map fun w => (w.1 + i.n * w.2.1, w.2.2.2)
/-- The instance whose window holds an address. -/
def instAt (a : Nat) : Option Inst :=
  iKinds.findSome? fun k => k.windows.findSome? fun w =>
    if w.1 ≤ a ∧ a < w.1 + w.2.1 * w.2.2.1 then some ⟨k, (a - w.1) / w.2.1⟩ else none

/-- Package lane `l` is lane `l - 512 d` of die `d` (R15). -/
def laneOn (d : DieId) (l : Nat) : List Nat := if l / 512 = d.val then [l % 512] else []

/-- The instances that a record configures (R84). -/
def Rec.insts (d : DieId) (r : Rec) : List Inst :=
  match r.kind with
  | 0x201 => [⟨.tile, r.idx⟩]
  | 0x401 => (laneOn d r.idx).map fun k => ⟨.lane, k⟩
  | 0x402 => (laneOn d r.idx).map fun k => ⟨.lane, k⟩
  | 0x404 => (laneOn d r.idx).map fun k => ⟨.lane, k⟩
  | 0x601 => [⟨.subport, r.idx⟩]
  | 0x602 => [⟨.rx, r.idx⟩]
  | 0x603 => [⟨.tx, r.idx⟩]
  | 0x701 => if r.idx < 0x8000 then [⟨.strict, r.idx⟩] else [⟨.weighted, r.idx - 0x8000⟩]
  | 0x702 => [⟨.shaper, r.idx⟩]
  | 0x703 => [⟨.policer, r.idx⟩]
  | 0x801 => [⟨.gates, r.idx / 4⟩]
  | 0x901 => [⟨.augrp, r.idx⟩]
  | 0xA01 => [⟨.enc, r.idx / 8⟩]
  | 0xA03 => [⟨.scaler, r.idx⟩]
  | 0xA04 => [⟨.enc, r.idx⟩]
  | 0xB01 => [⟨.enc, r.idx⟩]
  | 0xB02 => [⟨.dec, r.idx⟩]
  | 0xB03 => [⟨.store, r.idx⟩]
  | 0xC01 => [⟨.pool, r.idx⟩]
  | 0x1202 => [⟨.core, r.idx⟩]
  | 0x1204 => [⟨.pail, r.idx⟩]
  | 1 => r.regWords.filterMap fun w => instAt w.1
  | _ => []

/-- Channel records of a DMA-programs section, and its stream-queue records (R489). -/
def Sect.dmaChans (s : Sect) : List (List Byte) := (s.entries 32).take (Config.dmaCounts s.body).1
def Sect.dmaQueues (s : Sect) : List (List Byte) :=
  chunks 16 (Config.dmaCounts s.body).2 (s.body.drop (32 * (Config.dmaCounts s.body).1))

/-- Entries of a board equalisation table: lane, FOM_MIN and presets (R327). -/
def eqEntries : Nat → List Byte → List (Nat × Nat × List (List Nat))
  | 0, _ => []
  | fuel + 1, b =>
    if b.length < 4 then []
    else
      let n := num b 2 1
      (num b 0 2, num b 3 1, (chunks 8 n (subBytes b 4 (8 * n))).map fun e => (e.take 7).map BitVec.toNat) :: eqEntries fuel (b.drop (4 + 8 * n))
def Sect.eqs (s : Sect) : List (Nat × Nat × List (List Nat)) := eqEntries s.body.length s.body

/-- The instances that a section configures on a die. -/
def Sect.insts (d : DieId) (s : Sect) : List Inst :=
  uniq (match s.ty with
    | 0x03 => (s.dmaChans.map fun e => ⟨.chan, num e 0 1⟩) ++ s.dmaQueues.map fun e => ⟨.stream, num e 0 2⟩
    | 0x05 => s.eqs.flatMap fun e => (laneOn d e.1).map fun k => ⟨.lane, k⟩
    | 0x0D => (s.entries 32).map fun e => ⟨.thread, num e 0 2⟩
    | 0x11 => (s.entries 24).map fun e => ⟨.compare, num e 0 1⟩
    | t => if recordFramed t then s.recs.flatMap fun r => r.insts d else [])

/-! ### The cadences that a section names (R98) -/

/-- The cadence that a REG word names, where its register has a CADENCE field of the plan. -/
def wordCad (a v : Nat) : Option Nat :=
  ([(R.EN_TIMING_CADENCE, 256), (R.LN_CFG_CADENCE, 512), (R.LN_GRP_CFG_CADENCE, 512), (R.AU_P_CFG_CADENCE, 16), (R.AU_GRP_CFG_CADENCE, 256)]
    : List (Fld × Nat)).findSome? fun (f, n) =>
      if f.base ≤ a ∧ (a - f.base) % f.stride = 0 ∧ (a - f.base) / f.stride < n then some (bits v f.hi f.lo) else none

/-- The cadences that a record names. -/
def Rec.cads (r : Rec) : List Nat :=
  match r.kind with
  | 1 => r.regWords.filterMap fun w => wordCad w.1 w.2
  | 0x201 => [num r.body 0 1]
  | 0x401 => [num r.body 0 1]
  | 0x404 => [num r.body 0 1]
  | 0x602 => [num r.body 5 1]
  | 0x603 => [num r.body 14 1]
  | 0x801 => if num r.body 0 1 = 1 then [num r.body 1 1] else []
  | 0xB02 => [bits (num r.body 0 4) 18 16]
  | 0xB03 => [num r.body 3 1]
  | 0x1204 => [r.idx]
  | _ => []

/-- The cadences that a section names. -/
def Sect.cads (s : Sect) : List Nat :=
  uniq (if recordFramed s.ty then s.recs.flatMap Rec.cads
    else if s.ty = 3 then s.dmaChans.map fun e => num e 1 1
    else if s.ty = 0x11 then (s.entries 24).filterMap fun e => if bit (num e 8 4) 1 then some (bits (num e 8 4) 4 2) else none
    else [])

/-! ### A die as a plan starts it -/

/-- Copies the low bytes of a record into consecutive register fields: field and value. -/
def Die.setFlds (x : Die) (i : Nat) (l : List (Fld × Nat)) : Die := l.foldl (fun x e => x.setFld e.1 e.2 i) x

/-- What a record gives a die (R84). DESIGN CHOICE (log entry 53): a PANEL record in a section that names die 1 is accepted, and gives die
1 nothing; R84 says 'die 0 only' and no code. -/
def Die.takeRec (x : Die) (d : DieId) (r : Rec) : Die :=
  let b := r.body
  match r.kind with
  | 0x201 =>
    let t := tileSched r.idx b
    let ws := (List.range t.bundles.length).zip t.bundles
    { x with bundles := ws.foldl (fun m e => mput (fun _ => 0) m (2048 * r.idx + e.1) (leNat e.2)) x.bundles }
  | 0x404 => (laneOn d r.idx).foldl (fun x k => x.setFld R.LN_XPT_KIND 2 k) x
  | 0x601 => x.setFld R.NW_SP_CFG_USED 1 r.idx
  | 0x602 => x.setFlds r.idx [(R.NW_RX_CFG_KIND, num b 0 1), (R.NW_RX_CFG_TWO_PATHS, num b 1 1 - 1), (R.NW_RX_CFG_GROUP, num b 2 2),
      (R.NW_RX_CFG_MEMBER, num b 4 1), (R.NW_RX_CFG_CADENCE, num b 5 1)]
  | 0x603 =>
    let x := x.setFlds r.idx [(R.NW_TX_CFG_KIND, num b 0 1), (R.NW_TX_CFG_TWO_PATHS, num b 1 1 - 1), (R.NW_TX_CFG_INSTEP, b2n (bit (num b 15 1) 1)),
      (R.NW_TX_CFG_SOURCE, num b 12 2), (R.NW_TX_CFG_CADENCE, num b 14 1)]
    x.modTx r.idx fun v => { v with seq := num b 8 4 }
  | 0x604 =>
    if bit (num b 4 1) 0 then (x.setFld R.NW_SP_CFG_TC 1 (num b 0 1)).setFld R.NW_SP_CFG_TC 1 (num b 1 1) else x
  | 0x605 => (x.setFld R.NW_SP_CFG_PTP 1 (num b 0 1)).setFlds 0 [(R.NW_PTP_CFG_SUBPORT, num b 0 1), (R.NW_PTP_CFG_DOMAIN, num b 1 1),
      (R.NW_PTP_CFG_MIXED, num b 2 1)]
  | 0x606 => x.setFld R.SM_CFG_PORT (num b 0 2)
  | 0x701 =>
    let q := qidOf r.idx
    let sh := num b 8 2
    let shaped := b2n (sh != 0xFFFF)
    let h := if sh = 0xFFFF then 0 else sh
    let fwd := b2n (bit (num b 7 1) 0)
    let x := if sh = 0xFFFF then x else x.setFlds sh [(R.TQ_SH_CFG_USED, 1), (R.TQ_SH_CFG_KIND, b2n q.weighted), (R.TQ_SH_CFG_QUEUE, q.n)]
    if q.weighted then
      x.setFlds q.n [(R.TQ_W_CFG_WEIGHT, num b 4 2), (R.TQ_W_CFG_SUBPORT, num b 6 1), (R.TQ_W_CFG_SHAPER, h), (R.TQ_W_CFG_SHAPED, shaped),
        (R.TQ_W_CFG_FORWARD, fwd), (R.TQ_W_CFG_USED, 1)]
    else
      x.setFlds q.n [(R.TQ_Q_CFG_USED, 1), (R.TQ_Q_CFG_FORWARD, fwd), (R.TQ_Q_CFG_SHAPED, shaped), (R.TQ_Q_CFG_SHAPER, h),
        (R.TQ_Q_DEPTH_DEPTH, num b 0 4)]
  | 0x702 =>
    (x.setFlds r.idx [(R.TQ_SH_RATE_RATE, num b 0 4), (R.TQ_SH_BURST_BURST, num b 4 4)]).modShaper r.idx fun v =>
      { v with credit := ((num b 4 4 * creditUnit : Nat) : Int), at_ := x.clk.now }
  | 0x703 => { x with tq := { x.tq with policers := mput (fun _ => {}) x.tq.policers r.idx
                                          { credit := ((num b 4 4 * creditUnit : Nat) : Int), at_ := x.clk.now } } }
  | 0x901 => x.setFld R.AU_GRP_CFG_MEMBERS (num b 0 2 - 1) r.idx
  | 0xA03 => x.setFlds r.idx [(R.CH_SCALER_CHANNEL, num b 0 1), (R.CH_SCALER_LAYER, num b 1 1), (R.CH_SCALER_PAIRED, num b 2 1),
      (R.CH_SCALER_IN_USE, 1), (R.CH_SCALER_HSET, num b 3 1), (R.CH_SCALER_VSET, num b 4 1)]
  | 0xB01 => x.setFlds r.idx [(R.CL_EC_POOL_SLOTS, num b 0 1), (R.CL_EC_POOL_SLOT_MIB, num b 2 2), (R.CL_EC_POOL_BASE, num b 4 4)]
  | 0xB02 => (x.setReg (fldAddr R.CL_DC_CFG_CODEC r.idx 0) (BitVec.ofNat 32 (num b 0 4))).setFld R.CL_DC_STATUS_RUNNING 1 r.idx
  | 0xB03 => x.setFlds r.idx [(R.CL_FS_CFG_SOURCE, num b 0 2), (R.CL_FS_CFG_KIND, num b 2 1), (R.CL_FS_CFG_CADENCE, num b 3 1)]
  | 0xC01 => x.setFlds r.idx [(R.RC_POOL_CFG_MEMBERS, num b 0 1), (R.RC_POOL_CFG_CADENCE, x.fld R.EN_TIMING_CADENCE (num b 8 1))]
  | 0x1201 =>
    if d ≠ 0 then x
    else
      let x := x.setFlds 0 [(R.PN_CFG_KEY_DB, num b 0 1), (R.PN_CFG_MOD_DB, num b 2 2), (R.PN_CFG_TOUCH_TH, num b 4 2)]
      (List.range 32).foldl (fun x i => x.setFld R.PN_OUT_THREAD (b2n (bit (num b 8 4) i)) i) x
  | 0x1202 => (List.range 8).foldl (fun x w =>
      (x.setFld R.PA_CORE_WIN_BASE (num b (4 * w) 4) r.idx w).setFld R.PA_CORE_WIN_VALID (b2n (bit (num b (4 * w) 4) 6)) r.idx w) x
  | 0x1203 => { x with par := { x.par with spill := (num b 0 8, num b 8 4) } }
  | 0x1204 => x.setFlds r.idx [(R.MR_PAIL_CFG_USED, 1), (R.MR_PAIL_CFG_LEASE, num b 0 1 - 1), (R.MR_PAIL_CFG_GUARD, num b 1 1),
      (R.MR_PAIL_CFG_INIT_HOLDER, num b 2 1), (R.MR_PAIL_CFG_POLICY, num b 3 1), (R.MR_PAIL_CFG_RESYNC_FORCE, num b 4 1)]
  | _ => x

/-- What a section of fixed layout gives a die. -/
def Die.takeFixed (x : Die) (d : DieId) (s : Sect) : Die :=
  match s.ty with
  | 0x03 =>
    let x := s.dmaChans.foldl (fun x e =>
      let n := num e 0 1
      let us := num e 16 8
      let x := x.setFlds n [(R.DM_CH_CFG_CADENCE, num e 1 1), (R.DM_CH_CFG_USED, 1), (R.DM_CH_CFG_RESTART, num e 2 1),
        (R.DM_CH_CFG_STARTS, num e 3 1), (R.DM_CH_CFG_FIRST, num e 4 4)]
      let x := ((List.range 64).filter fun u => bit us u).foldl (fun x u => x.setFld R.CK_U_CFG_BOUND 1 u) x
      x.modChan n fun c => { c with words := num e 8 4, budget := num e 12 4, units := us, frag := s.frag }) x
    let x := s.dmaQueues.foldl (fun x e =>
      x.setFlds (num e 0 2) [(R.DM_SQ_CFG_USED, 1), (R.DM_SQ_CFG_DIRECTION, num e 2 1), (R.DM_SQ_CFG_DEPTH, num e 4 4),
        (R.DM_SQ_HIGH, num e 8 4), (R.DM_SQ_LOW, num e 12 4), (R.DM_SQ_FILL_PACE, num e 2 1)]) x
    let st := (Config.dmaWords s.body).foldl (fun m w => mput (fun _ => 0) m w.1 w.2) x.dma.store
    { x with dma := { x.dma with store := st } }
  | 0x05 => s.eqs.foldl (fun x e => (laneOn d e.1).foldl (fun x k =>
      let x := x.setFlds k [(R.LN_EQ_FOM_MIN, e.2.1), (R.LN_EQ_COUNT, e.2.2.length - 1)]
      x.modLane k fun v => { v with presets := e.2.2 }) x) x
  | 0x0D => (s.entries 32).foldl (fun x e => x.modTh (num e 0 2) fun _ => x.planThread (num e 0 2)) x
  | 0x0E => x.setFld R.LN_POWER_DECL (num s.body (12 + 32 * d.val) 4)
  | 0x10 =>
    let b := s.body
    let x := (List.range 5).foldl (fun x i => x.setReg (fldAddr R.MC_XOR_ROW_SEL i 0) (BitVec.ofNat 32 (num b (4 * i) 4))) x
    let own := (List.range 16).foldl (fun n r => n + num b (20 + r) 1 % 16 * 16 ^ r) 0
    ((x.setFld R.MC_OWNER_LO (own % 2 ^ 32)).setFld R.MC_OWNER_HI (own / 2 ^ 32)).setFld R.MC_HAMMER_THRESH (num b 36 2)
  | 0x11 => (s.entries 24).foldl (fun x e => (List.range 4).foldl (fun x i =>
      x.setReg (0x20400 + 16 * num e 0 1 + 4 * i) (BitVec.ofNat 32 (num e (8 + 4 * i) 4))) x) x
  | _ => x

/-- The header's timebase registers for a die (R77). -/
def Die.takeHeader (x : Die) (d : DieId) (p : Plan) : Die :=
  let x := x.setReg (fldAddr R.TB_MODE_SOURCE 0 0) (BitVec.ofNat 32 (p.hd (0x30 + 4 * d.val) 4))
  let x := x.setReg (fldAddr R.TB_THRESH_PTP 0 0) (BitVec.ofNat 32 (p.hd (0x38 + 4 * d.val) 4))
  let x := x.setReg (fldAddr R.TB_HOLD_HOLD_LIMIT 0 0) (BitVec.ofNat 32 (p.hd (0x40 + 4 * d.val) 4))
  if d = 0 then x.setFld R.TB_REF_OFFSET (p.hd 0x48 4) else x
/-- The header's registers of one cadence. -/
def Die.takeCad (x : Die) (d : DieId) (p : Plan) (c : Nat) : Die :=
  (x.setReg (fldAddr R.TB_CAD_CFG_RATE c 0) (BitVec.ofNat 32 (p.cadWords d c).1)).setReg (fldAddr R.TB_CAD_OFFSET c 0)
    (BitVec.ofNat 32 (p.cadWords d c).2)

/-- The claimed encode channels of a claims record (R81). -/
def claimedEnc (claims : List Byte) : List Nat := (List.range 256).filter fun n => bit (num claims 8 32) n

/-- The encode channels that the live sections configure. -/
def Die.liveEncs (x : Die) (d : DieId) : List Nat :=
  (uniq (x.live.flatMap fun s => s.insts d)).filterMap fun i => if i.kind = .enc then some i.n else none

/-- What follows from the registers of the encode channels that sections configure: they run, their layers are in force and their
in-step flag shows (R228, R299, R558). -/
def Die.takeEncs (x : Die) (d : DieId) : Die :=
  (x.liveEncs d).foldl (fun x n =>
    let frag := ((x.live.find? fun s => s.frag ≠ 0 && (s.insts d).contains ⟨.enc, n⟩).map Sect.frag).getD 0
    let x := (x.setFld R.EN_STATUS_RUNNING 1 n).setFld R.MR_EC_INSTEP (x.fld R.EN_CFG_INSTEP n) n
    let x := x.modEnc n fun c => { c with frag := frag, period := x.fld R.EN_RAP_PERIOD n }
    (List.range (x.fld R.CH_CFG_LAYERS n + 1)).foldl (fun x l => x.modLayer n l fun v => { v with live := x.layerRegs n l }) x) x

/-- The cadences that carry an in-step channel. -/
def Die.inStepCads (x : Die) (d : DieId) : List Nat :=
  uniq (((x.liveEncs d).filter fun n => x.flag R.EN_CFG_INSTEP n).map fun n => x.fld R.EN_TIMING_CADENCE n)
/-- A pail without a record takes the defaults of R539. -/
def Die.takePails (x : Die) (d : DieId) : Die :=
  (x.inStepCads d).foldl (fun x c =>
    if x.pailUsed c then x
    else x.setFlds c [(R.MR_PAIL_CFG_USED, 1), (R.MR_PAIL_CFG_LEASE, 7), (R.MR_PAIL_CFG_GUARD, 2)]) x

/-- What follows from the lanes: the PLLs in use and steered (R316, R348), and the source of a direct route (R341). -/
def Die.takeLanes (x : Die) : Die :=
  (List.range 512).foldl (fun x k =>
    let tx := x.flag R.LN_CFG_TX_USED k
    if !(tx || x.flag R.LN_CFG_RX_USED k) then x
    else
      let pll := x.flag R.LN_CFG_PLL k
      let x := x.setFld (if pll then R.LN_BLK_B_USED else R.LN_BLK_A_USED) 1 (k / 16)
      let x := if tx && !x.lnNative k && x.fld R.LN_XPT_KIND k == 2 then x.setFld (if pll then R.LN_BLK_B_STEER else R.LN_BLK_A_STEER) 1 (k / 16) else x
      if x.fld R.LN_XPT_KIND k = 1 then x.modLane k fun v => { v with xptNow := x.fld R.LN_XPT_SOURCE k } else x) x

/-- List 0 of a sub-port is in force at plan start (R84 kind 0x0801, R396). -/
def Die.takeGates (x : Die) : Die :=
  (List.range 8).foldl (fun x sp =>
    match x.gateList sp 0 with
    | none => x
    | some l =>
      let n := (x.recsOf 8 0x801).filter fun e => e.2.idx / 4 == sp
      let x := x.setFlds sp [(R.TQ_GATE_CFG_LISTS, n.length - 1), (R.TQ_GATE_CFG_MODE, l.mode), (R.TQ_GATE_CFG_CADENCE, l.cad),
        (R.TQ_GATE_BASE_T0, l.t0), (R.TQ_GATE_BASE_T1, l.t1)]
      x.gateSelect sp 0 l.t0 l.t1) x

/-- The ratio of shaper rate to channel rate, for a shaper bound to an encode channel's queue (R394). -/
def Die.takeRatios (x : Die) : Die :=
  (x.recsOf 6 0x603).foldl (fun x e =>
    let kind := num e.2.body 0 1
    if kind = 1 ∨ kind = 5 ∨ kind = 6 then
      match x.queueShaper (qidOf (num e.2.body 16 2)) with
      | some h => x.modShaper h fun v => { v with ratio := some (x.fld R.TQ_SH_RATE_RATE h, x.fld R.RC_RATE (num e.2.body 12 2), x.fld R.RC_MAXRATE (num e.2.body 12 2)) }
      | none => x
    else x) x

/-- A receive flow that feeds an in-step decode channel, or a layer of an in-step encode channel, is in-step (log entry 53). -/
def Die.takeRxInStep (x : Die) : Die :=
  (x.recsOf 6 0x602).foldl (fun x e =>
    let tgt := num e.2.body 6 2
    let dec := (num e.2.body 0 1 == 1 || num e.2.body 0 1 == 5 || num e.2.body 0 1 == 6) && x.flag R.CL_DC_CFG_INSTEP tgt
    if dec then x.setFld R.NW_RX_CFG_INSTEP 1 e.2.idx else x) x

/-- The mutes of the audio map and the nominal ratios of the converters (R450, R455). -/
def Die.takeAudio (x : Die) : Die :=
  let x := (x.listed R.AU_MAP_CFG_MUTE 4096).foldl (fun x e =>
    { x with au := { x.au with mutes := mmod (fun _ => {}) x.au.mutes e fun v => { v with on := x.flag R.AU_MAP_CFG_MUTE e } } }) x
  (x.listed R.AU_ASRC_RATIO 32).foldl (fun x a =>
    { x with au := { x.au with asrcs := mmod (fun _ => {}) x.au.asrcs a fun v => { v with nominal := x.fld R.AU_ASRC_RATIO a } } }) x

/-- A die on which a plan has just started: the plan's registers and what the blocks keep, with the die's clock and identity. -/
def Die.configured (x : Die) (d : DieId) (p : Plan) (ss : List Sect) : Die :=
  let y : Die := { regs := [(0x4, x.reg 0x4)], clk := x.clk, live := ss }
  let y := (p.cads d).foldl (fun y c => y.takeCad d p c) (y.takeHeader d p)
  let y := (ss.flatMap Sect.regWords).foldl (fun y w => y.setReg w.1 (BitVec.ofNat 32 w.2)) y
  let y := ss.foldl (fun y s => if recordFramed s.ty then s.recs.foldl (fun y r => y.takeRec d r) y else y.takeFixed d s) y
  ((((((y.takeEncs d).takePails d).takeLanes).takeGates).takeRatios).takeRxInStep).takeAudio

end Sys2Proof.Machine
end

