-- ==== Sys2Proof/Machine/Layout.lean ====
section
/-! DEFINITION. The layout of plan images (R76 to R86, R95, R101, R105, R106, R327, R482, R517, R669, R670): reading the header and
the directory, and the FORMAT check of R90. A check answers the first fault it finds. -/

namespace Sys2Proof.Machine

/-- A failed admission check: the code of R90, the directory index and the item (R112). -/
structure Fail where
  code : Nat
  sect : Nat
  item : Nat
  deriving DecidableEq, Repr

/-- A check: none where it passes. -/
abbrev Check := Option Fail
/-- A check passes where a condition holds. -/
def need (ok : Bool) (f : Fail) : Check := if ok then none else some f
/-- Runs checks in order. -/
def checks (l : List Check) : Check := l.findSome? id
/-- The first failure over a list. -/
def checkAll {α : Type} (l : List α) (f : α → Check) : Check := l.findSome? f

/-- A field of a body lies in a range. -/
def inR (b : List Byte) (off n lo hi : Nat) : Bool := decide (lo ≤ num b off n ∧ num b off n ≤ hi)

/-! ### The directory (R78, R105) -/

/-- The directory entries from an offset on: `n` of 16 bytes. -/
def dirEntries (b : List Byte) (at_ n : Nat) : List (Nat × List Byte) :=
  (List.range n).map fun i => (i, subBytes b (at_ + 16 * i) 16)

/-- The sections that a directory names, removal entries among them. -/
def dirSects (b : List Byte) (at_ n : Nat) : List Sect :=
  (dirEntries b at_ n).map fun e =>
    { index := e.1, ty := num e.2 0 1, dies := num e.2 1 1 % 4, cont := bit (num e.2 1 1) 7, frag := num e.2 2 2
      body := subBytes b (num e.2 4 4) (num e.2 8 4) }
/-- The sections of an image. -/
def imageSects (b : List Byte) : List Sect := dirSects b 0x100 (num b 0x1B 1)
/-- The sections of a plan body. -/
def bodySects (b : List Byte) : List Sect := dirSects b 16 (num b 0 1)

/-- The section types of R79. -/
def sectTypes : List Nat := [1, 2, 3, 4, 5, 6, 7, 8, 9, 0xA, 0xB, 0xC, 0xD, 0xE, 0xF, 0x10, 0x11, 0x12, 0x20, 0x21, 0x22]

/-- The faults of one directory entry, `first` and `end_` bounding where sections may lie (R76, R78, R90, R669, R670). -/
def entryCheck (b : List Byte) (first end_ : Nat) (i : Nat) (e : List Byte) : Check :=
  let f : Fail := ⟨1, i, 0⟩
  let ty := num e 0 1
  let off := num e 4 4
  let size := num e 8 4
  checks [need (sectTypes.contains ty && num e 1 1 % 4 != 0 && bits (num e 1 1) 6 2 == 0) f,
    if ty = 0x22 then need (num e 2 2 != 0 && zeros e 4 12) f
    else need (decide (off % 64 = 0 ∧ first ≤ off ∧ off + size ≤ end_) && crc32c (subBytes b off size) == num e 12 4) f]

/-- Two sections overlap. -/
def overlap (a b : List Byte) : Bool :=
  num a 0 1 != 0x22 && num b 0 1 != 0x22
    && decide (num a 4 4 < num b 4 4 + num b 8 4 ∧ num b 4 4 < num a 4 4 + num a 8 4 ∧ 0 < num a 8 4 ∧ 0 < num b 8 4)

/-- The faults of a directory as a whole. -/
def dirCheck (b : List Byte) (at_ n end_ : Nat) : Check :=
  let es := dirEntries b at_ n
  checks [checkAll es fun e => entryCheck b (at_ + 16 * n) end_ e.1 e.2,
    checkAll es fun e => need (!(es.any fun g => decide (g.1 < e.1) && overlap g.2 e.2)) ⟨1, e.1, 0⟩,
    checkAll es fun e => need (!(num e.2 0 1 == 0x22 && es.any fun g => g.1 != e.1 && num g.2 2 2 == num e.2 2 2
      && (num g.2 1 1 % 4) &&& (num e.2 1 1 % 4) != 0)) ⟨1, e.1, 0⟩]

/-! ### Record layouts (R82 to R84) -/

/-- The payload of a UDP datagram makes a frame of at most 9,216 bytes (R353, R356, R367). -/
def frameFits (payload vlan : Nat) (ip : List Byte) : Bool :=
  decide (18 + (if vlan = 0 then 0 else 4) + (if isV4 ip then 20 else 40) + 8 + payload ≤ 9216)

/-- The FORMAT of a flow of video (R84, R359); the rule gives no values for other kinds. -/
def flowFormat (b : List Byte) (off : Nat) : Bool :=
  !inR b 0 1 0 0 || (inR b (off + 4) 1 0 2 && (([8, 10, 12] : List Nat).contains (num b (off + 5) 1)) && inR b (off + 6) 1 0 2 && inR b (off + 7) 1 0 1)

/-- The body of a record has the layout and the ranges of its kind (R84), its INDEX included. -/
def recForm (kind idx : Nat) (b : List Byte) : Bool :=
  let n := b.length
  match kind with
  | 0x201 =>
    let np := num b 2 2
    let nl := num b 4 2
    let ni := num b 6 2
    let nb := num b 8 2
    let banks := if tileType idx == .M then ((List.range np).filter fun p => bit (num b (16 + 8 * p + 6) 1) 0).length else 0
    decide (idx < 1536) && inR b 0 1 0 7 && zeros b 1 1 && inR b 2 2 1 256 && inR b 4 2 1 8191 && inR b 8 2 1 2048 && zeros b 10 6
      && decide (n = 16 + 8 * np + 8 * nl + pad8 ni + 8 * banks + 16 * nb)
      && ((List.range np).all fun p => inR b (16 + 8 * p + 6) 1 0 3 && zeros b (16 + 8 * p + 7) 1)
      && ((List.range nl).all fun l => inR b (16 + 8 * np + 8 * l + 6) 1 1 64 && zeros b (16 + 8 * np + 8 * l + 7) 1)
      && zeros b (16 + 8 * np + 8 * nl + ni) (pad8 ni - ni)
  | 0x401 => decide (idx < 1024 ∧ n = 16) && inR b 0 1 0 7 && inR b 1 1 0 2 && (inR b 2 1 10 10 || inR b 2 1 12 12) && inR b 3 1 0 2
      && inR b 8 1 0 7 && inR b 9 1 1 8 && zeros b 10 6
  | 0x402 => decide (idx < 1024 ∧ n = 8) && inR b 0 1 0 15 && inR b 1 1 0 1 && inR b 2 1 0 3 && zeros b 3 1 && zeros b 6 2
  | 0x403 => decide (idx < 8 ∧ n = 8) && inR b 0 4 100000 312500 && zeros b 4 4
  | 0x404 => decide (idx < 1024 ∧ n = 8) && inR b 0 1 0 7 && inR b 1 1 0 1
  | 0x601 => decide (idx < 8 ∧ n = pad8 (28 + 2 * num b 6 1)) && inR b 6 1 0 16 && inR b 7 1 0 1
      && ((List.range (num b 6 1)).all fun i => inR b (28 + 2 * i) 2 1 4094) && zeros b (28 + 2 * num b 6 1) (n - (28 + 2 * num b 6 1))
  | 0x602 => decide (idx < 1024 ∧ n = 24 + 40 * num b 1 1) && inR b 0 1 0 6 && inR b 1 1 1 2 && inR b 2 2 0 511 && inR b 4 1 0 7 && inR b 5 1 0 7
      && zeros b 20 4 && flowFormat b 12
      && ((List.range (num b 1 1)).all fun p => inR b (24 + 40 * p) 1 0 7 && zeros b (25 + 40 * p) 1 && inR b (26 + 40 * p) 2 0 4094
        && zeros b (30 + 40 * p) 2)
  | 0x603 =>
    let ts := num b 0 1 == 5 || num b 0 1 == 6
    let o := if ts then 56 else 32
    let rtp := if num b 0 1 = 5 then 0 else 12
    decide (idx < 1024 ∧ n = o + 48 * num b 1 1) && inR b 0 1 0 6 && inR b 1 1 1 2 && inR b 2 1 0 2
      && (num b 0 1 == 5 || inR b 3 1 96 127 || (num b 0 1 == 6 && inR b 3 1 33 33)) && inR b 14 1 0 7 && inR b 15 1 0 3
      && flowFormat b 24 && (!ts || (zeros b 46 2 && zeros b 52 4))
      && ((List.range (num b 1 1)).all fun p =>
        let q := o + 48 * p
        inR b q 1 0 7 && inR b (q + 1) 1 0 63 && inR b (q + 2) 1 0 7 && inR b (q + 4) 2 0 4094 && zeros b (q + 10) 2 && zeros b (q + 18) 2
          && zeros b (q + 36) 12 && (num b 0 1 != 1 || frameFits (rtp + num b 18 2) (num b (q + 4) 2) (subBytes b (q + 20) 16)))
  | 0x604 => decide (idx < 1024 ∧ n = 16) && inR b 0 1 0 7 && inR b 1 1 0 7 && inR b 4 1 0 3 && zeros b 5 1 && inR b 6 2 0 4094 && zeros b 14 2
  | 0x605 => decide (idx = 0 ∧ n = 8) && inR b 0 1 0 7 && inR b 1 1 0 127 && inR b 2 1 0 1 && zeros b 3 1 && inR b 4 1 0 15 && zeros b 5 3
  | 0x606 => decide (idx = 0 ∧ n = 8) && inR b 0 2 1024 65535 && zeros b 2 6
  | 0x701 => (decide (idx < 64) || decide (0x8000 ≤ idx ∧ idx < 0x8800)) && decide (n = 16) && inR b 0 4 2048 16777216
      && (if idx < 0x8000 then inR b 4 2 0 0 else inR b 4 2 1 65535) && inR b 6 1 0 7 && inR b 7 1 0 1
      && (inR b 8 2 0 1023 || inR b 8 2 0xFFFF 0xFFFF) && zeros b 10 6
  | 0x702 => decide (idx < 1024 ∧ n = 8) && inR b 0 4 1 400000000 && inR b 4 4 64 16777216
  | 0x703 => decide (idx < 4096 ∧ n = pad8 (16 + 4 * num b 8 2)) && inR b 0 4 1 400000000 && inR b 4 4 64 16777216 && zeros b 10 6
      && ((List.range (num b 8 2)).all fun i => inR b (16 + 4 * i) 1 0 2 && zeros b (17 + 4 * i) 1) && zeros b (16 + 4 * num b 8 2) (n - (16 + 4 * num b 8 2))
  | 0x801 => decide (idx < 32 ∧ n = 16 + 8 * num b 2 2) && inR b 0 1 0 1 && inR b 1 1 0 7 && inR b 2 2 1 256
      && ((List.range (num b 2 2)).all fun i => inR b (16 + 8 * i) 2 0 0x1FF && zeros b (18 + 8 * i) 2)
  | 0x901 => decide (idx < 256 ∧ n = pad8 (8 + 4 * num b 0 2)) && inR b 0 2 1 16 && zeros b 2 6
      && ((List.range (num b 0 2)).all fun i => inR b (8 + 4 * i) 1 0 3 && (inR b (8 + 4 * i) 1 1 1 || zeros b (9 + 4 * i) 1))
      && zeros b (8 + 4 * num b 0 2) (n - (8 + 4 * num b 0 2))
  | 0x902 => decide (idx = 0 ∧ n = 8) && inR b 0 1 0 4 && zeros b 1 1 && zeros b 6 2
  | 0xA01 => decide (idx < 2048 ∧ n = 24) && inR b 0 1 0 15 && inR b 1 1 0 1 && zeros b 2 2 && decide (num b 8 8 % 64 = 0) && zeros b 20 4
  | 0xA02 => decide (idx < 32 ∧ n = 8 + 128 * num b 0 1) && (inR b 0 1 6 6 || inR b 0 1 8 8) && zeros b 1 7
      && ((List.range (64 * num b 0 1)).all fun i => decide (-512 ≤ numS b (8 + 2 * i) 2 ∧ numS b (8 + 2 * i) 2 ≤ 511))
  | 0xA03 => decide (idx < 128 ∧ n = 8) && inR b 1 1 0 7 && inR b 2 1 0 1 && inR b 3 1 0 31 && inR b 4 1 0 31 && zeros b 5 3
  | 0xA04 => decide (idx < 256 ∧ n = 8) && inR b 1 1 0 127 && zeros b 2 6
  | 0xB01 => decide (idx < 256 ∧ n = 8) && inR b 0 1 2 5 && zeros b 1 1
  | 0xB02 => decide (idx < 64 ∧ n = 24) && decide (num b 0 4 < 2 ^ 30) && decide (bits (num b 0 4) 3 1 ≤ 4) && decide (bits (num b 0 4) 5 4 ≤ 2)
      && decide (2 ≤ bits (num b 0 4) 23 19 ∧ bits (num b 0 4) 23 19 ≤ 17) && decide (2 ≤ bits (num b 0 4) 27 24) && inR b 10 2 0 1023 && zeros b 20 4
  | 0xB03 => decide (idx < 1024 ∧ n = 16) && inR b 0 2 0 1023 && inR b 2 1 0 2 && inR b 3 1 0 7 && zeros b 10 6
  | 0xC01 => decide (idx < 16 ∧ n = pad8 (8 + 2 * num b 0 1)) && inR b 0 1 2 16 && zeros b 1 7
      && ((List.range (num b 0 1)).all fun i => inR b (9 + 2 * i) 1 1 255) && zeros b (8 + 2 * num b 0 1) (n - (8 + 2 * num b 0 1))
  | 0x1201 => decide (idx = 0 ∧ n = 16) && inR b 0 1 1 50 && zeros b 1 1 && inR b 2 2 10 1000 && inR b 4 2 1 4095 && inR b 6 2 0 4095 && zeros b 12 4
  | 0x1202 => decide (idx < 8 ∧ n = 32) && (List.range 8).all fun w => inR b (4 * w) 4 0 127
  | 0x1203 => decide (idx = 0 ∧ n = 16) && decide (num b 0 8 % 64 = 0) && zeros b 12 4
  | 0x1204 => decide (idx < 8 ∧ n = 8) && inR b 0 1 2 64 && inR b 1 1 1 16 && inR b 2 1 0 1 && inR b 3 1 0 1 && inR b 4 1 0 1 && zeros b 5 3
  | 0x1205 => decide (idx = 0 ∧ n = 16) && zeros b 12 4
  | _ => false

/-- The first and the last address of the blocks that a section type owns (R83). -/
def ownBlocks : Nat → List (Nat × Nat)
  | 0x04 => [(0x100000, 0x17FFFF)]
  | 0x06 => [(0x180000, 0x18FFFF)]
  | 0x07 => [(0x190000, 0x19FFFF)]
  | 0x08 => [(0x190000, 0x19FFFF)]
  | 0x09 => [(0x1B0000, 0x1BFFFF)]
  | 0x0A => [(0xB0000, 0xFFFFF)]
  | 0x0B => [(0xA0000, 0xAFFFF)]
  | 0x0C => [(0x80000, 0x9FFFF)]
  | 0x12 => [(0x240000, 0x24FFFF), (0x200000, 0x20FFFF), (0x1F0000, 0x1FFFFF)]
  | _ => []

/-- The ranges that register fields of the plan state where their width allows more: register base, lowest bit, least and greatest
value. -/
def planRanges : List (Nat × Nat × Nat × Nat) :=
  [(0x80000, 1, 0, 4), (0x80000, 4, 0, 2), (0x80000, 7, 0, 2), (0x80000, 11, 0, 1), (0x80000, 13, 0, 2),
   (0x80004, 0, 1, 65535), (0x80004, 16, 1, 65535), (0x80008, 25, 1, 4), (0x90000, 0, 0, 2), (0x90000, 8, 1, 15),
   (0x90004, 0, 1, 4000000), (0x90008, 0, 1, 4000000),
   (0xA2000, 0, 2, 5), (0xA4000, 10, 0, 2), (0xC0000, 3, 0, 2), (0xC0020, 0, 0, 2),
   (0x100000, 8, 0, 4), (0x100004, 0, 0, 2), (0x100004, 2, 0, 2), (0x100014, 9, 0, 2), (0x141000, 6, 0, 64),
   (0x194000, 0, 1, 400000000), (0x194004, 0, 64, 16777216), (0x198000, 0, 1, 65535),
   (0x1B0100, 0, 0, 2), (0x1B0100, 3, 0, 5), (0x1B0100, 11, 0, 2), (0x1B0100, 13, 0, 2), (0x1B1000, 3, 0, 64), (0x1B2000, 14, 0, 4),
   (0x20400, 8, 0, 2)]

/-- The mask of a field. -/
def FieldDesc.mask (f : FieldDesc) : Nat := (2 ^ (f.hi - f.lo + 1) - 1) * 2 ^ f.lo
/-- The value of a field in a word. -/
def FieldDesc.get (f : FieldDesc) (w : Nat) : Nat := bits w f.hi f.lo
/-- A REG word may set the field. -/
def FieldDesc.ofPlan (r : RegDesc) (f : FieldDesc) : Bool :=
  f.ty == .rw || f.ty == .rwL || f.rst == .plan || r.base == 0x100020
/-- Every field of a word keeps the range that its register states. -/
def RegDesc.inRange (r : RegDesc) (w : Nat) : Bool :=
  r.fields.all fun f => match planRanges.find? fun e => e.1 == r.base && e.2.1 == f.lo with
    | some e => decide (e.2.2.1 ≤ f.get w ∧ f.get w ≤ e.2.2.2)
    | none => true

/-- A REG word is one that its section may carry (R83). -/
def wordForm (ty a v : Nat) : Bool :=
  ((ownBlocks ty).any fun b => decide (b.1 ≤ a ∧ a ≤ b.2)) && match findReg a with
    | none => false
    | some (r, _, _) =>
      let m := (r.fields.filter fun f => f.ofPlan r).foldl (fun m f => m ||| f.mask) 0
      decide (v &&& m = v) && r.inRange v && (r.base != 0x90000 || !(decide (16 ≤ bits v 6 2 ∧ bits v 6 2 ≤ 30)))

/-- A REG record (R83). -/
def regForm (ty : Nat) (idx : Nat) (b : List Byte) : Bool :=
  let c := num b 4 2
  decide (ty ≠ 2 ∧ idx = 0 ∧ num b 0 4 % 4 = 0 ∧ 1 ≤ c ∧ c ≤ 16378 ∧ b.length = pad8 (8 + 4 * c)) && zeros b 6 2
    && zeros b (8 + 4 * c) (b.length - (8 + 4 * c)) && ((List.range c).all fun i => wordForm ty (num b 0 4 + 4 * i) (num b (8 + 4 * i) 4))

/-- Walks the records of a section: framing, kinds, layouts and repeated INDEX values (R82). -/
def walkRecs (ty sect : Nat) : Nat → Nat → List (Nat × Nat) → List Byte → Check
  | 0, _, _, b => need b.isEmpty ⟨1, sect, 0⟩
  | fuel + 1, item, seen, b =>
    if b.isEmpty then none
    else
      let kind := num b 0 2
      let n := num b 2 2
      let idx := num b 4 2
      let body := subBytes b 8 (n - 8)
      let ok := decide (8 ≤ b.length ∧ 8 ≤ n ∧ n % 8 = 0 ∧ n ≤ 65528 ∧ n ≤ b.length) && zeros b 6 2
        && (if kind = 1 then regForm ty idx body
            else decide (kind / 256 = ty) && recForm kind idx body && !seen.contains (kind, idx))
      if ok then walkRecs ty sect fuel (item + 1) ((kind, idx) :: seen) (b.drop n) else some ⟨1, sect, item⟩

/-! ### Sections of fixed layout -/

/-- The layout of a section of fixed layout: `dies` records for the dies of the plan, `dual` a dual-die package. -/
def fixedForm (dies : Nat) (dual : Bool) (s : Sect) : Bool :=
  let b := s.body
  let n := b.length
  match s.ty with
  | 0x01 => decide (n = 64 * (b2n (bit dies 0) + b2n (bit dies 1))) && (s.entries 64).all fun e => zeros e 0 8 && zeros e 60 4 && inR e 58 1 0 1 && inR e 59 1 0 2
  | 0x03 =>
    let c := Config.dmaCounts b
    decide (32 * c.1 + 16 * c.2 ≤ n) && (s.dmaChans.all fun e => zeros e 24 8) && s.dmaQueues.all fun e => zeros e 3 1
  | 0x05 => decide ((s.eqs.foldl (fun m e => m + 4 + 8 * e.2.2.length) 0) = n) && s.eqs.all fun e => e.2.2.all fun p => decide (p.length = 7)
  | 0x0D => decide (n % 32 = 0) && (s.entries 32).all fun e => inR e 0 2 0 4095 && inR e 2 1 0 7 && inR e 3 1 0 31 && inR e 20 2 1 32767 && inR e 22 1 0 3 && zeros e 23 9
  | 0x0E => decide (n = 4 + 32 * (if dual then 2 else 1)) && (List.range (if dual then 2 else 1)).all fun d => zeros b (28 + 32 * d) 8
  | 0x0F => decide (n % 24 = 0) && (s.entries 24).all fun e => decide (num e 0 4 % 4 = 0) && inR e 20 1 0 1 && zeros e 21 1
  | 0x10 => decide (n = 64 + 8 * num b 38 2 + 8 * num b 40 2 ∧ num b 40 2 ≤ 4096) && zeros b 42 22 && inR b 36 2 512 16384
      && ((List.range 16).all fun r => inR b (20 + r) 1 0 8)
      && ((chunks 8 (num b 38 2) (b.drop 64)).all fun e => inR e 0 1 0 15 && inR e 1 1 0 63 && decide (1 ≤ num e 2 1 % 8 ∧ num e 2 1 % 8 ≤ 5)
        && decide (num e 2 1 / 8 % 8 = 0 ∧ num e 2 1 / 64 ≤ 2))
      && (chunks 8 (num b 40 2) (b.drop (64 + 8 * num b 38 2))).all fun e => inR e 0 1 0 15 && inR e 1 1 0 63 && inR e 2 1 1 64 && zeros e 3 1
  | 0x11 => decide (n % 24 = 0) && (s.entries 24).all fun e => inR e 0 1 0 63 && zeros e 1 7
  | _ => true

/-- The layout of a section, but for nested bodies. -/
def Sect.form (dies : Nat) (dual : Bool) (s : Sect) : Check :=
  if recordFramed s.ty then walkRecs s.ty s.index (s.body.length / 8 + 1) 0 [] s.body
  else need (fixedForm dies dual s) ⟨1, s.index, 0⟩

/-! ### Plan bodies, the library and the image -/

/-- CONTINUE stands on no plan-wide entry, and every entry of a fragment carries the same value (R101). -/
def contCheck (ss : List Sect) : Check :=
  checkAll ss fun s => need (!(s.cont && s.frag == 0) && !(ss.any fun t => t.frag == s.frag && s.frag != 0 && t.cont != s.cont)) ⟨1, s.index, 0⟩
/-- At most, or exactly, one section of a type. -/
def oneOf (ss : List Sect) (ty : Nat) (must : Bool) : Check :=
  match (ss.filter fun s => s.ty == ty) with
  | [] => need (!must) ⟨1, 0, 0⟩
  | [_] => none
  | _ :: s :: _ => some ⟨1, s.index, 0⟩
/-- The rules of R79 for a partial plan and for a plan body. -/
def partialRules (ss : List Sect) : Check :=
  checks [contCheck ss, oneOf ss 0x0E true, oneOf ss 0x01 false, oneOf ss 0x10 false,
    checkAll ss fun s => need (s.ty != 0x20 && s.ty != 0x21) ⟨1, s.index, 0⟩]

/-- The FORMAT faults of a plan body (R105). -/
def bodyForm (dies : Nat) (dual library : Bool) (b : List Byte) : Check :=
  let n := num b 0 1
  let ss := bodySects b
  checks [need (decide (16 + 16 * n ≤ b.length ∧ 1 ≤ n) && zeros b 1 3 && zeros b 9 7 && (decide (num b 4 4 = 0) == !library)) ⟨1, 0, 0⟩,
    dirCheck b 16 n b.length, partialRules ss,
    need ((ss.find? fun s => s.ty == 0x0E).map Sect.index == some (num b 8 1)) ⟨1, num b 8 1, 0⟩,
    checkAll ss fun s => s.form dies dual]

/-- The entries of a fragment library: NUMBER and body (R106). -/
def Sect.library (s : Sect) : List (Nat × List Byte) :=
  (List.range (num s.body 0 1)).map fun i => (num s.body (16 + 16 * i) 2, subBytes s.body (num s.body (20 + 16 * i) 4) (num s.body (24 + 16 * i) 4))

/-- The FORMAT faults of a fragment library. -/
def libraryForm (dies : Nat) (dual : Bool) (s : Sect) : Check :=
  let b := s.body
  let n := num b 0 1
  let nums := (List.range n).map fun i => num b (16 + 16 * i) 2
  checks [need (decide (16 + 16 * n ≤ b.length) && inR b 0 1 1 64 && zeros b 1 15) ⟨1, s.index, 0⟩,
    checkAll (List.range n) fun i =>
      let e := 16 + 16 * i
      need (inR b e 2 1 64 && zeros b (e + 2) 2 && zeros b (e + 12) 4 && decide (num b (e + 4) 4 % 64 = 0 ∧ 16 + 16 * n ≤ num b (e + 4) 4
        ∧ num b (e + 4) 4 + num b (e + 8) 4 ≤ b.length) && !((nums.take i).contains (num b e 2))) ⟨1, s.index, num b e 2⟩,
    checkAll s.library fun e => (bodyForm dies dual true e.2).map fun _ => ⟨1, s.index, e.1⟩]

/-- The reserved bytes of the header (R77). -/
def headerReserved : List (Nat × Nat) := [(0x1F, 1), (0x24, 12), (0x4C, 4), (0xD0, 48)]

/-- Check 0x01, FORMAT, of an image. DESIGN CHOICE (log entry 53): a KEY_SLOT above 3 and a nonzero bit [7:2] of DIES are refused here;
R77 gives their ranges, and no rule the code. -/
def formatCheck (dual : Bool) (b : List Byte) : Check :=
  let f : Fail := ⟨1, 0, 0⟩
  let full := num b 6 2 == 0
  let dies := num b 0x1A 1
  let n := num b 0x1B 1
  let end_ := b.length - sigBytes
  let ss := imageSects b
  checks [need (decide (256 + sigBytes ≤ b.length ∧ b.length ≤ 32 * 2 ^ 20)) f,
    need (decide (num b 0 4 = 0x4C505A44 ∧ num b 4 2 = 1 ∧ num b 8 4 = b.length)) f,
    need (inR b 6 2 0 1 && !inR b 0xC 4 0 0 && (!full || inR b 0x10 4 0 0) && inR b 0x1A 1 1 3 && inR b 0x1E 1 0 3
      && headerReserved.all fun r => zeros b r.1 r.2) f,
    need (decide (1 ≤ n ∧ 0x100 + 16 * n ≤ end_)) f,
    dirCheck b 0x100 n end_,
    if full then
      checks [contCheck ss, checkAll ss fun s => need (s.ty != 0x22 && !s.cont) ⟨1, s.index, 0⟩,
        oneOf ss 0x01 true, oneOf ss 0x0E true, oneOf ss 0x10 true, oneOf ss 0x20 false, oneOf ss 0x21 false,
        need (([0, 1] : List Nat).all fun d => !bit dies d || ss.any fun s => s.ty == 2 && bit s.dies d) f]
    else partialRules ss,
    checkAll ss fun s =>
      if s.ty = 0x20 then (bodyForm dies dual false s.body).map fun e => ⟨1, s.index, e.sect⟩
      else if s.ty = 0x21 then libraryForm dies dual s
      else s.form dies dual]

end Sys2Proof.Machine
end

