-- ==== Sys2Proof/Machine/FlowRate.lean ====
section
/-! DEFINITION. What admission computes of the send flows of a sub-port: bytes queued per coded byte (R236), the rates that queues
need (R396), and the latest departure of a packet after its position (R370, R400, R551). The rules name these figures and not every
term of them: how they are computed is the model's (DESIGN CHOICE, log entry 53). -/

namespace Sys2Proof.Machine

/-- The lock bound of a field that has one (R85): entry by address and mask. -/
def Die.boundOf (x : Die) (a hi lo : Nat) : Option (List Byte) :=
  (x.lockEntries.find? fun e => num e.2 0 4 == a && num e.2 4 4 == (2 ^ (hi - lo + 1) - 1) * 2 ^ lo).map Prod.snd
/-- The least and the greatest value that the lock bounds allow a field, its own value where no bound names it. -/
def Die.boundMin (x : Die) (f : Fld) (i : Nat) (j : Nat := 0) : Nat :=
  match x.boundOf (fldAddr f i j) f.hi f.lo with
  | some e => num e 8 4
  | none => x.fld f i j
def Die.boundMax (x : Die) (f : Fld) (i : Nat) (j : Nat := 0) : Nat :=
  match x.boundOf (fldAddr f i j) f.hi f.lo with
  | some e => num e 8 4 + (num e 12 4 - num e 8 4) / max 1 (num e 16 4) * max 1 (num e 16 4)
  | none => x.fld f i j

/-- Bytes of a frame with `n` bytes of UDP payload on a path: Ethernet header, VLAN tag, IP, UDP and FCS. -/
def TxPath.frame (p : TxPath) (n : Nat) : Nat := max 64 (18 + (if p.vlan = 0 then 0 else 4) + (if isV4 p.dst then 20 else 40) + 8 + n)

/-- A flow of packets: the greatest frame in bytes, and packets a second as a fraction. -/
structure Offer where
  frame : Nat
  num : Nat
  den : Nat
  deriving DecidableEq, Repr

/-- Bytes that a send flow of coded data queues, FCS included, for so many coded bytes at its payload limit (R236): an RTP packet with one
fragment of a NAL unit, or a datagram of seven TS packets. -/
def codedShare (kind limit : Nat) (p : TxPath) : Nat × Nat :=
  match kind with
  | 1 => (p.frame limit, limit - 15)
  | 5 => (p.frame 1316, 1288)
  | _ => (p.frame 1328, 1288)

/-- The highest and the lowest rate of a channel that its lock bounds allow, kb/s (R236, R250). -/
def Die.highRate (x : Die) (n : Nat) : Nat := if x.fld R.RC_CFG_MODE n = 1 then x.boundMax R.RC_MAXRATE n else x.boundMax R.RC_RATE n
def Die.lowRate (x : Die) (n : Nat) : Nat := if x.fld R.RC_CFG_MODE n = 1 then x.boundMin R.RC_MAXRATE n else x.boundMin R.RC_RATE n

/-- What send flow `f` offers on a path; `g` is the grid of its cadence. -/
def Die.offer (x : Die) (g : Grid) (f : Nat) (p : TxPath) : Offer :=
  let b := x.txBody f
  let limit := x.txLimit f
  let aes := num b 0 1 == 3
  let depth := if num (x.txFormat f) 5 1 = 16 then 16 else 24
  match num b 0 1 with
  | 0 => ⟨p.frame limit, (x.txCut f).packets * g.n, g.d⟩
  | 1 => ⟨p.frame limit, x.highRate (num b 12 2) * 125, max 1 (limit - 15)⟩
  | 2 | 3 => ⟨p.frame (12 + x.txSamples f * num (x.txFormat f) 0 2 * (if aes then 4 else depth / 8)), x.txAudioFs f, x.txSamples f⟩
  | 4 => ⟨p.frame limit, g.n, g.d⟩
  | k => ⟨p.frame (if k = 6 then 1328 else 1316), num b 32 4 * 125, 1316⟩

/-- The flows of a sub-port: flow, queue and what it offers. -/
def Die.offersOn (x : Die) (p : Plan) (d : DieId) (sp : Nat) : List (Nat × QId × Offer) :=
  (x.recsOf 6 0x603).flatMap fun e =>
    match p.grid d (num e.2.body 14 1) with
    | some g => ((x.txPaths e.2.idx).filter fun t => t.sp == sp).map fun t => (e.2.idx, pathQueue (qidOf (num e.2.body 16 2)) sp, x.offer g e.2.idx t)
    | none => []

/-- The bytes that one path of a coded flow queues for so many bits fit its queue (R236), on each path. -/
def Die.queueHolds (x : Die) (f b : Nat) : Bool :=
  (x.txPaths f).all fun t =>
    let c := codedShare (num (x.txBody f) 0 1) (x.txLimit f) t
    decide (cdiv b 8 * c.1 ≤ x.queueDepth (pathQueue (qidOf (num (x.txBody f) 16 2)) t.sp) * c.2)

/-- The rate of the audio of a TS flow in kb/s (R368): SMPTE 302M takes 56 bits of 48 kHz for a pair of channels. -/
def Die.tsAudioRate (x : Die) (f : Nat) : Nat := cdiv (x.auChansTo 4 (num (x.txBody f) 12 2)) 2 * 2688

/-- The rate in bits a second that a NATIVE_STREAM record of a lane declares (R325, R326): a video stream's picture or an audio
stream's 32-bit words; no rule declares one for the others. -/
def Die.streamRate (x : Die) (p : Plan) (d : DieId) (k : Nat) (b : List Byte) : Nat :=
  match num b 2 1, p.grid d (x.fld R.LN_CFG_CADENCE k) with
  | 0, some g =>
    let f := x.memFmt d ⟨false, k⟩
    cdiv (f.height / f.unit * f.lineBytes * 8 * g.n) g.d
  | 2, _ =>
    if num b 1 1 = 0 then match x.auRef (num b 4 2 / 16) (num b 4 2 % 16) with
      | some r => r.chans * 32 * x.auFs r.g
      | none => 0
    else x.auChansTo 1 k * 32 * (if x.auRefs.any fun r => x.flag R.AU_GRP_CFG_RATE96 r.g then 96000 else 48000)
  | _, _ => 0
/-- The declared payload rate of the streams that a native lane receives or sends (R326). -/
def Die.laneStreams (x : Die) (p : Plan) (d : DieId) (k dir : Nat) : Nat :=
  (((x.recsOf 4 0x402).filter fun e => e.2.idx == pkgLane d k && num e.2.body 1 1 == dir).map fun e => x.streamRate p d k e.2.body).foldl (· + ·) 0

/-- The rate of the cross-die stream in kb/s: its lines, in pgroups, at its cadence (R22, R535). -/
def xstreamRate (p : Plan) (d : DieId) : Nat :=
  let f : PicFmt := ⟨Config.xstream 2, Config.xstream 3, Config.xstream 4, Config.xstream 5⟩
  match p.grid d (Config.xstream 0) with
  | some g => cdiv (f.height / f.unit * f.lineBytes * 8 * g.n) (g.d * 1000)
  | none => 0

/-! ### Gates (R396) -/

/-- A unit of a gate list in picoseconds as a fraction: ns, or 2^-16 line of its cadence. -/
def gateUnit (p : Plan) (d : DieId) (l : GateList) : Nat × Nat :=
  if l.mode = 0 then (1000, 1) else match p.grid d l.cad with
    | some g => (1000000000000 * g.d, g.n * g.l * 65536)
    | none => (0, 1)
/-- The units of a cycle in which a gate is open. -/
def GateList.open_ (l : GateList) (b : Nat) : Nat := (l.entries.filter fun e => bit e.1 b).foldl (fun n e => n + e.2) 0
/-- The longest run of units in which a gate stays closed, from one cycle into the next. -/
def GateList.closed (l : GateList) (b : Nat) : Nat :=
  ((l.entries ++ l.entries).foldl (fun (r : Nat × Nat) e => if bit e.1 b then (r.1, 0) else (max r.1 (r.2 + e.2), r.2 + e.2)) (0, 0)).1
/-- The gate lists of a sub-port. -/
def Die.gateLists (x : Die) (sp : Nat) : List GateList := (List.range 4).filterMap fun l => x.gateList sp l

/-- A gate list starves no local queue of a sub-port: while open, a gate passes at the port's rate what comes in a cycle, and what comes
while it is closed stays within the queue's depth. -/
def Die.gateFeeds (x : Die) (p : Plan) (d : DieId) (sp : Nat) (l : GateList) : Bool :=
  let all := x.offersOn p d sp
  let (un, ud) := gateUnit p d l
  (uniq (all.map fun e => e.2.1)).all fun q =>
    let mine := (all.filter fun e => e.2.1 == q).map fun e => e.2.2
    let b := gateBit q
    -- bytes a second, with the preamble and the gap of each frame, rounded up
    let need := (mine.map fun o => cdiv ((o.frame + 20) * o.num) (max 1 o.den)).foldl (· + ·) 0
    decide (need * 8 * l.cycle ≤ x.spRate sp * 1000000000 * l.open_ b)
      && decide (need * (l.closed b * un) ≤ x.queueDepth q * ud * 1000000000000)

/-! ### Departure (R370, R400, R551) -/

/-- The bytes that a queue can send at a stretch: its shaper's burst; else its depth where it carries coded slices, and one frame of each
of its other flows. -/
def Die.queueBurst (x : Die) (q : QId) (mine : List (Nat × Offer)) : Nat :=
  match x.queueShaper q with
  | some h => x.boundMax R.TQ_SH_BURST_BURST h
  | none =>
    if mine.any fun e => num (x.txBody e.1) 0 1 == 1 then x.queueDepth q
    else (mine.map fun e => e.2.frame + 20).foldl (· + ·) 0
/-- The latest departure of a packet of flow `f` after its position on a sub-port, in picoseconds: its gate closed at its longest, then
what strict queues before its own send, and one frame of each other flow of its queue. -/
def Die.lateness (x : Die) (p : Plan) (d : DieId) (sp f : Nat) (q : QId) : Nat :=
  let all := x.offersOn p d sp
  let before := (uniq (all.map fun e => e.2.1)).filter fun r => !r.weighted && (q.weighted || decide (r.n < q.n))
  let gate := (x.gateLists sp).foldl (fun m l => let u := gateUnit p d l; max m (cdiv (l.closed (gateBit q) * u.1) u.2)) 0
  let bytes := (before.map fun r => x.queueBurst r ((all.filter fun e => e.2.1 == r).map fun e => (e.1, e.2.2))).foldl (· + ·) 0
    + ((all.filter fun e => e.2.1 == q && e.1 != f).map fun e => e.2.2.frame + 20).foldl (· + ·) 0
  gate + cdiv (bytes * 8 * 1000) (x.spRate sp)
/-- The latest departure of a flow over its paths. -/
def Die.flowLate (x : Die) (p : Plan) (d : DieId) (f : Nat) : Nat :=
  (x.txPaths f).foldl (fun m t => max m (x.lateness p d t.sp f (pathQueue (qidOf (num (x.txBody f) 16 2)) t.sp))) 0

/-- A flow that has station positions keeps its limit: 500 ns for a TS flow, and for an ST 2110-20 flow what ST 2110-21 leaves its sender
type. -/
def Die.departsOk (x : Die) (p : Plan) (d : DieId) (f : Nat) : Bool :=
  let b := x.txBody f
  match num b 0 1 with
  | 0 => match p.grid d (num b 14 1) with
    | some g => decide (x.flowLate p d f ≤ Config.senderSlack (num b 2 1) (x.txCut f).packets (1000000000000 * g.d / g.n))
    | none => true
  | 5 | 6 => decide (x.flowLate p d f ≤ 500000)
  | _ => true

/-- Picoseconds between the positions of two consecutive units of an in-step flow at the least (R204, R370): rows of a picture, the last
row of one and the first of the next, or datagrams. -/
def Die.unitGap (x : Die) (g : Grid) (f : Nat) : Nat :=
  let b := x.txBody f
  let n := num b 12 2
  if num b 0 1 = 1 then
    let s := x.encStep n
    let last := (x.encRows n - 1) * s
    let next := if x.flag R.EN_CFG_INTERLACED n then min (fieldStart g.l 1) (g.l - fieldStart g.l 1) else g.l
    (if x.encRows n ≤ 1 then next else min s (next - last)) * (1000000000000 * g.d) / (g.n * g.l)
  else 10528 * 1000000000 / max 1 (num b 32 4)
/-- Two units of an in-step flow can start closer than some lines at the worst-case departure (R551). -/
def Die.unitsClose (x : Die) (p : Plan) (d : DieId) (f lines : Nat) : Bool :=
  match p.grid d (num (x.txBody f) 14 1) with
  | some g => decide ((x.unitGap g f - x.flowLate p d f) * (g.n * g.l) < lines * (1000000000000 * g.d))
  | none => false

end Sys2Proof.Machine
end

