-- ==== Sys2Proof/Machine/Admit.lean ====
section
/-! DEFINITION. Admission, first part: the plan that an image or a body makes of the plan it applies to (R100, R670), and the
checks 0x02 to 0x09 of R90. Where no rule says what SECTION and ITEM hold, they hold 0 or the instance (log entry 53). -/

namespace Sys2Proof.Machine

/-! ### The plan that results (R670) -/

/-- A section for fewer dies: a claims section keeps the records of the dies that stay (R81). -/
def Sect.keep (s : Sect) (dies : Nat) : Option Sect :=
  let k := s.dies &&& dies
  if k = 0 then none
  else some { s with dies := k, body := if s.ty = 1 ∧ s.dies = 3 ∧ k ≠ 3 then subBytes s.body (if k = 2 then 64 else 0) 64 else s.body }

/-- The dies on which a change replaces or removes a section: those that its entries of the same fragment name, or for a plan-wide
section those of the same type. A power declaration, of which a plan has one, is replaced as a whole. -/
def changedOn (change : List Sect) (s : Sect) : Nat :=
  if s.ty = 0x20 ∨ s.ty = 0x21 then 0
  else if s.ty = 0x0E then 3
  else (change.filter fun e => e.frag == s.frag && (s.frag != 0 || e.ty == s.ty)).foldl (fun m e => m ||| e.dies) 0

/-- A change applied to the sections of a plan. -/
def mergeSects (old change : List Sect) : List Sect :=
  (old.filterMap fun s => s.keep (3 - changedOn change s)) ++ change.filter fun s => s.ty != 0x22

/-- The fragments that sections name. -/
def fragsOf (ss : List Sect) : List Nat := uniq ((ss.map Sect.frag).filter fun f => f != 0)

/-- The plan of a full image. -/
def fullPlan (b : List Byte) : Plan :=
  { header := b.take 256, sects := imageSects b, id := num b 0xC 4, part := false, digest := Config.shake256 b, named := [] }
/-- A partial plan applied to a plan: its header, with the dies of both (R77, R100). -/
def partialPlan (base : Plan) (b : List Byte) : Plan :=
  let ss := imageSects b
  let h := (b.take 0x1A) ++ [BitVec.ofNat 8 (num b 0x1A 1 ||| base.hd 0x1A 1)] ++ subBytes b 0x1B (256 - 0x1B)
  { header := h, sects := mergeSects base.sects ss, id := num b 0xC 4, part := true, digest := Config.shake256 b, named := fragsOf ss }
/-- A plan body applied to a plan (R105). -/
def bodyPlan (base : Plan) (b : List Byte) : Plan :=
  let ss := bodySects b
  { base with sects := mergeSects base.sects ss, id := if num b 4 4 = 0 then base.id else num b 4 4, part := true, named := fragsOf ss }

/-- The brownout alternative of a plan (R103), and its library. -/
def Plan.brownout (p : Plan) : Option Sect := p.sects.find? fun s => s.ty == 0x20
def Plan.library (p : Plan) : Option Sect := p.sects.find? fun s => s.ty == 0x21
/-- The plan with its brownout alternative applied; itself where it has none. -/
def Plan.browned (p : Plan) : Plan := match p.brownout with
  | some s => bodyPlan p s.body
  | none => p

/-! ### What a trial of a plan is judged on -/

/-- A plan on trial: the plan it would make, what it applies to, and each die as the plan would start it. -/
structure Trial where
  plan : Plan
  old : Option Plan
  change : List Sect
  /-- a plan body, which has no header of its own -/
  body : Bool
  /-- a brownout alternative -/
  brown : Bool
  dual : Bool
  x0 : Die
  x1 : Die

/-- The die as the plan would start it. -/
def Trial.die (t : Trial) (d : DieId) : Die := if d = 0 then t.x0 else t.x1
/-- The dies that the plan names. -/
def Trial.dies (t : Trial) : List DieId := ([0, 1] : List DieId).filter fun d => bit (t.plan.hd 0x1A 1) d.val

/-- Sets up a trial. -/
def State.trial (s : State) (p : Plan) (old : Option Plan) (change : List Sect) (body brown : Bool) : Trial :=
  { plan := p, old := old, change := change, body := body, brown := brown, dual := s.dual
    x0 := s.die0.configured 0 p (p.on 0), x1 := s.die1.configured 1 p (p.on 1) }

/-- What a check says of each die that the plan names. -/
def Trial.each (t : Trial) (f : DieId → Die → Check) : Check := checkAll t.dies fun d => f d (t.die d)
/-- The records of one kind on a die, with the position of each in its section. -/
def recsAt (x : Die) (ty kind : Nat) : List (Sect × Nat × Rec) :=
  (x.sectsOf ty).flatMap fun s => (s.recs.zipIdx.filter fun r => r.1.kind == kind).map fun r => (s, r.2, r.1)
/-- A check of every record of a kind. -/
def eachRec (x : Die) (ty kind code : Nat) (ok : Rec → Bool) : Check :=
  checkAll (recsAt x ty kind) fun e => need (ok e.2.2) ⟨code, e.1.index, e.2.1⟩

/-- The claimed decode channels of a die. -/
def Die.decs (x : Die) (d : DieId) : List Nat := (List.range 64).filter fun n => bit (num (x.claims d) 40 8) n
/-- The claimed encode channels of a die. -/
def Die.encs (x : Die) (d : DieId) : List Nat := claimedEnc (x.claims d)
/-- Lanes of a die that its plan uses. -/
def Die.usedLanes (x : Die) : List Nat := (List.range 512).filter fun k => x.flag R.LN_CFG_RX_USED k || x.flag R.LN_CFG_TX_USED k

/-! ### 0x01 on the plan that results: what channels code (R186, R227), pools (R260, R282), renditions (R307), native rates (R344) -/

/-- The levels 1 to 6.2 as a codec codes them, and the first that has a High tier, level 4 (R186). HEVC codes 30 times the level (R227);
VVC's codes are PRESUMED (log entry 53). -/
def levelCodes (vvc : Bool) : List Nat :=
  if vvc then [16, 32, 35, 48, 51, 64, 67, 80, 83, 86, 96, 99, 102] else [30, 60, 63, 90, 93, 120, 123, 150, 153, 156, 180, 183, 186]
/-- The table of R186: codec, profile, chroma, 10 bits, level, tier. 4:4:4 in HEVC is left to cause 1 of R93. -/
def profileOk (vvc : Bool) (profile chroma : Nat) (ten : Bool) (level : Nat) (high : Bool) : Bool :=
  (match profile with
    | 0 => !vvc && chroma != 1 && !ten
    | 1 => !vvc && chroma != 1 && ten
    | 2 => !vvc && ten
    | 3 => vvc && chroma == 0 && ten
    | 4 => vvc && ten
    | _ => false)
    && (levelCodes vvc).contains level && (!high || decide ((if vvc then 64 else 120) ≤ level))

/-- An encode channel's configuration keeps R186 and R189. -/
def Die.encForm (x : Die) (n : Nat) : Bool :=
  profileOk (x.encVvc n) (x.fld R.EN_CFG_PROFILE n) (x.fld R.EN_CFG_CHROMA n) (x.flag R.EN_CFG_DEPTH10 n) (x.fld R.EN_CFG_LEVEL n)
    (x.flag R.EN_CFG_TIER n) && (x.encVvc n || decide (x.fld R.EN_CFG_CTU n ≤ 1))
/-- A claimed encode channel has a pool of REFS + 1 slots, each its planes and motion field in whole MiB (R260, R282). -/
def Die.encPoolForm (x : Die) (n : Nat) : Bool :=
  match x.bodyOf 0xB 0xB01 n with
  | some b => num b 0 1 == x.fld R.EN_TIMING_REFS n + 1 && num b 2 2 == slotMib (x.encFmt n)
  | none => false
/-- A frame store's slot is its planes in whole MiB, where the plan declares the format of its source (R260). -/
def Die.storeForm (x : Die) (d : DieId) (r : Rec) : Bool :=
  let f := x.storeFmt d r.idx
  f.height == 0 || num r.body 8 2 == planeMib f

def Trial.formatCheck (t : Trial) : Check :=
  t.each fun d x => checks [
    checkAll (x.encs d) fun n => need (!x.flag R.EN_CFG_RENDITION n || (x.bodyOf 0xA 0xA04 n).isSome) ⟨1, 0, n⟩,
    eachRec x 0xA 0xA04 1 fun r => x.flag R.EN_CFG_RENDITION r.idx,
    checkAll (x.encs d) fun n => need (!(x.fld R.EN_SIZE_WIDTH n == 0 || x.fld R.EN_SIZE_HEIGHT n == 0) && x.encForm n && x.encPoolForm n) ⟨1, 0, n⟩,
    eachRec x 0xB 0xB02 1 fun r =>
      let w := num r.body 0 4
      profileOk (bit w 0) (bits w 3 1) (bits w 5 4) (bit w 6) (bits w 14 7) (bit w 15),
    eachRec x 0xB 0xB03 1 (x.storeForm d),
    checkAll (List.range 512) fun k => need (x.lnNative k || x.fld R.LN_NRATE_KBPS k == 0) ⟨1, 0, k⟩]

/-! ### 0x02 to 0x04 -/

/-- SIGNATURE (R80, R561). -/
def State.signatureCheck (s : State) (b : List Byte) : Check :=
  let k := s.pkg.fuses.owner (num b 0x1E 1)
  need (k.usable && signedUnder "DZK-PLAN" k.key b) ⟨2, 0, 0⟩
/-- ROLLBACK (R567). -/
def State.rollbackCheck (s : State) (b : List Byte) : Check :=
  need (decide (num b 0x14 4 ≤ 255 ∧ s.pkg.fuses.plan ≤ num b 0x14 4)) ⟨3, 0, 0⟩
/-- CONTRACT. -/
def contractCheck (b : List Byte) : Check := need (num b 0x1C 2 == 1) ⟨4, 0, 0⟩

/-! ### 0x05 VARIANT (R7, R313) -/

def State.variantCheck (s : State) (t : Trial) : Check :=
  let lanes := s.fld 0 R.SY_VARIANT_LANES
  let vvc := s.die0.flag R.SY_VARIANT_VVC
  let inst := s.fld 0 R.SY_VARIANT_INSTEP
  let f : Fail := ⟨5, 0, 0⟩
  checks [
    need (match variantRow (s.fld 0 R.SY_VARIANT_CODE) with | some i => bit (t.plan.hd 0x18 2) i | none => false) f,
    need (t.dual || !bit (t.plan.hd 0x1A 1) 1) f,
    checkAll t.plan.sects fun e => need (t.dual || !bit e.dies 1) ⟨5, e.index, 0⟩,
    t.each fun d x => checks [
      checkAll ([0x401, 0x402, 0x404] : List Nat) fun k => eachRec x 4 k 5 fun r => decide (r.idx % 512 < lanes ∧ (t.dual ∨ r.idx < 512)),
      checkAll x.usedLanes fun k => need (decide (k < lanes)) ⟨5, 0, pkgLane d k⟩,
      checkAll (x.encs d) fun n => need ((vvc || !(x.flag R.EN_CFG_CODEC n || decide (3 ≤ x.fld R.EN_CFG_PROFILE n)))
        && (inst != 0 || !x.flag R.EN_CFG_INSTEP n) && (inst != 2 || x.flag R.EN_CFG_INSTEP n)) ⟨5, 0, n⟩,
      checkAll (x.decs d) fun n => need ((vvc || !x.flag R.CL_DC_CFG_CODEC n) && (inst != 0 || !x.flag R.CL_DC_CFG_INSTEP n)
        && (inst != 2 || x.flag R.CL_DC_CFG_INSTEP n)) ⟨5, 0, n⟩,
      need (inst != 0 || num (x.claims d) 58 1 == 0) ⟨5, 0, d.val⟩,
      eachRec x 6 0x603 5 fun r => inst != 0 || !bit (num r.body 15 1) 1,
      eachRec x 0x12 0x1204 5 fun _ => inst != 0]]

/-! ### 0x06 BASE (R100, R101) -/

/-- What R101 holds constant in a channel of a CONTINUE fragment. -/
def Die.encShape (x : Die) (n : Nat) : List Nat :=
  [x.fld R.EN_CFG_CODEC n, x.fld R.EN_CFG_PROFILE n, x.fld R.EN_CFG_CHROMA n, x.fld R.EN_CFG_CTU n, x.fld R.EN_SIZE_WIDTH n, x.fld R.EN_SIZE_HEIGHT n]
/-- The encode channels that a fragment's sections name. -/
def Die.fragEncs (x : Die) (d : DieId) (f : Nat) : List Nat :=
  (uniq ((x.live.filter fun s => s.frag == f).flatMap fun s => s.insts d)).filterMap fun i => if i.kind = .enc then some i.n else none

def State.baseCheck (s : State) (t : Trial) : Check :=
  match t.old with
  | none => need (t.change.isEmpty) ⟨6, 0, 0⟩
  | some o =>
    let has (f : Nat) (dies : Nat) : Bool := ([0, 1] : List Nat).all fun d => !bit dies d || o.sects.any fun e => e.frag == f && bit e.dies d
    let same (f : Nat) : Bool := ([0, 1] : List DieId).all fun d =>
      let y := (s.die d).configured d o (o.on d)
      let x := t.die d
      y.fragEncs d f == x.fragEncs d f && (x.fragEncs d f).all fun n => y.encShape n == x.encShape n
    checkAll t.change fun e => checks [need (e.ty != 0x22 || has e.frag e.dies) ⟨6, e.index, e.frag⟩,
      need (!e.cont || (o.sects.any fun g => g.frag == e.frag) && same e.frag) ⟨6, e.index, e.frag⟩]

/-! ### 0x07 TIMING (R36, R42, R48, R51, R55 to R58, R70, R100) -/

/-- The cadences that a section's items in use name: a lane or a port that nothing uses names none. -/
def Sect.usedCads (x : Die) (s : Sect) : List Nat :=
  if recordFramed s.ty then
    s.recs.flatMap fun r =>
      if r.kind = 1 then r.regWords.filterMap fun w =>
        match instAt w.1 with
        | some ⟨.lane, k⟩ => if x.flag R.LN_CFG_RX_USED k ∨ x.flag R.LN_CFG_TX_USED k then wordCad w.1 w.2 else none
        | some ⟨.port, p⟩ => if x.flag R.AU_P_CFG_RX_USED p ∨ x.flag R.AU_P_CFG_TX_USED p then wordCad w.1 w.2 else none
        | _ => wordCad w.1 w.2
      else r.cads
  else s.cads

/-- Twice or four times, or the same as, some rate that a reference can have (R55). -/
def boundRate (code : Nat) : Bool := refRates.any fun r => rateBound r code

def Trial.timingDie (t : Trial) (d : DieId) (x : Die) : Check :=
  let p := t.plan
  let f : Fail := ⟨7, 0, d.val⟩
  let src := x.fld R.TB_MODE_SOURCE
  let active (c : Nat) : Bool := (p.grid d c).isSome
  let ptp := x.bodyOf 6 0x605 0
  checks [
    checkAll (List.range 8) fun c =>
      let w := p.cadWords d c
      need (w.1 % 16 == 0 || ((p.grid d c).isSome && decide (w.1 < 2 ^ 18) && decide ((sgn 32 w.2).natAbs < bits w.1 17 5 * 65536))) ⟨7, 0, 8 * d.val + c⟩,
    need (decide (src ≤ 3) && (src != 2 || d == 0) && (src != 3 || (d == 1 && t.dual))) f,
    need (x.fld R.TB_MODE_STEP_POLICY != 3 && (d == 1 || !x.flag R.TB_MODE_BACKUP) && active x.masterCad) f,
    need (match ptp with | some b => decide (num b 4 1 ≤ 13) | none => src != 1 && !x.flag R.TB_MODE_BACKUP) f,
    need (src != 2 || (active (x.fld R.TB_MODE_REF_CAD) && boundRate (x.fld R.TB_CAD_CFG_RATE (x.fld R.TB_MODE_REF_CAD)))) f,
    need (match p.grid d (x.fld R.TB_MODE_REF_CAD) with
      | some g => decide ((sgn 32 (x.fld R.TB_REF_OFFSET)).natAbs * g.n ≤ 16000000000 * g.d)
      | none => true) f,
    need (decide (20 ≤ x.fld R.TB_THRESH_PTP ∧ x.fld R.TB_THRESH_PTP ≤ 10000 ∧ 2 ≤ x.fld R.TB_THRESH_REF_IN ∧ x.fld R.TB_THRESH_REF_IN ≤ 100)) f,
    need (decide (1 ≤ x.fld R.TB_HOLD_HOLD_LIMIT ∧ x.fld R.TB_HOLD_HOLD_LIMIT ≤ 3600 ∧ 250 ≤ x.fld R.TB_HOLD_PTP_LOSS
      ∧ x.fld R.TB_HOLD_PTP_LOSS ≤ 10000)) f,
    checkAll x.live fun e => need ((e.usedCads x).all active) ⟨7, e.index, d.val⟩,
    checkAll (x.encs d) fun n => need (active (x.fld R.EN_TIMING_CADENCE n)) ⟨7, 0, n⟩,
    checkAll x.usedLanes fun k => need (active (x.fld R.LN_CFG_CADENCE k)) ⟨7, 0, pkgLane d k⟩,
    checkAll ((List.range 16).filter fun p => x.auUsed p) fun p => need (active (x.fld R.AU_P_CFG_CADENCE p)) ⟨7, 0, p⟩]

/-- A partial plan changes neither TB_MODE nor a cadence of a fragment that it does not name (R100). -/
def Trial.keepsTiming (t : Trial) : Check :=
  match t.old with
  | some o =>
    checkAll ([0, 1] : List DieId) fun d => checks [
      need (!bit (o.hd 0x1A 1) d.val || o.hd (0x30 + 4 * d.val) 4 == t.plan.hd (0x30 + 4 * d.val) 4) ⟨7, 0, d.val⟩,
      checkAll ((o.on d).filter fun e => e.frag != 0 && !t.plan.named.contains e.frag) fun e =>
        need (e.cads.all fun c => o.cadWords d c == t.plan.cadWords d c) ⟨7, e.index, e.frag⟩]
  | none => none

def Trial.timingCheck (t : Trial) : Check :=
  checks [t.each t.timingDie, if t.change.isEmpty then none else t.keepsTiming]

/-! ### 0x08 COMBINATION (R93, R247, R362, R451, R551) -/

/-- Both dies define a cadence alike, and die 1 follows DIE0 or both follow PTP on one domain (R93). -/
def Trial.alike (t : Trial) (c : Nat) : Bool :=
  let w0 := t.plan.cadWords 0 c
  let w1 := t.plan.cadWords 1 c
  w0.1 % 16 == w1.1 % 16 && bits w0.1 17 5 == bits w1.1 17 5 && w0.2 == w1.2
def Trial.follows (t : Trial) : Bool :=
  bit (t.plan.hd 0x1A 1) 0 && bit (t.plan.hd 0x1A 1) 1
    && (t.x1.fld R.TB_MODE_SOURCE == 3 || (t.x0.fld R.TB_MODE_SOURCE == 1 && t.x1.fld R.TB_MODE_SOURCE == 1
      && t.x0.fld R.NW_PTP_CFG_DOMAIN == t.x1.fld R.NW_PTP_CFG_DOMAIN))

/-- The paired lanes of a die: what the partner is found by, and what it must match. -/
def Die.pairedLanes (x : Die) : List ((Nat × Nat) × Nat × Nat × Nat) :=
  (x.usedLanes.filter fun k => x.flag R.LN_CFG_PAIRED k).map fun k =>
    ((x.fld R.LN_CFG_GROUP k, x.fld R.LN_CFG_MEMBER k), x.fld R.LN_CFG_MODE k, x.fld R.LN_CFG_RATE k, x.fld R.LN_CFG_FRAC k)
/-- A layer of a channel takes its picture from a lane, from staging or through a frame store that the lane writes (R266, R285). -/
def Die.layerLane (x : Die) (n l k : Nat) : Bool :=
  x.layerFrom n l (x.memInput ⟨false, k⟩) || (decide (0 < l) && x.fld R.CH_LSRC_SRC n (l - 1) == 1 && x.flag R.CH_LSRC_VIDEO n (l - 1)
    && (x.storesOf 0 k).contains (x.fld R.CH_LSRC_INPUT n (l - 1)))
/-- Lanes that feed layers of in-step channels. -/
def Die.inStepLanes (x : Die) (d : DieId) : List Nat :=
  x.usedLanes.filter fun k => x.flag R.LN_CFG_RX_USED k && ((x.encs d).any fun n => x.flag R.EN_CFG_INSTEP n
    && (List.range 8).any fun l => x.layerLane n l k)

/-- An audio flow within the limits of R362: rate, samples a packet, channels and depth (log entry 31). -/
def audioFlowOk (kind : Nat) (fmt : List Byte) : Bool :=
  let ch := num fmt 0 2
  let n := num fmt 2 2
  let k96 := num fmt 4 1 == 1
  if kind = 2 then
    (num fmt 5 1 == 16 || num fmt 5 1 == 24) && decide (1 ≤ ch)
      && (if k96 then (n == 96 && decide (ch ≤ 4)) || (n == 12 && decide (ch ≤ 32)) else (n == 48 && decide (ch ≤ 8)) || (n == 6 && decide (ch ≤ 64)))
  else if kind = 3 then decide (2 ≤ ch ∧ ch ≤ 16 ∧ ch % 2 = 0) && (if k96 then n == 96 || n == 12 else n == 48 || n == 6)
  else true

/-- An in-step channel takes audio through a tracking converter (R451): converter p serves port p. -/
def Die.tracksAudio (x : Die) (n : Nat) : Bool :=
  (x.listed R.AU_MAP_CFG_USED 4096).any fun e => x.fld R.AU_MAP_CFG_KIND e == 4 && x.fld R.AU_MAP_DEST_INSTANCE e == n
    && match auChannel x.auRefs (x.fld R.AU_MAP_CFG_SOURCE e) with
      | some (r, _) => r.kind == 0 && x.flag R.AU_ASRC_CFG_USED r.inst && x.flag R.AU_ASRC_CFG_TRACKING r.inst
      | none => false

/-- A layer of a channel shows the cross-die stream. -/
def Die.showsXs (x : Die) (d : DieId) (n : Nat) : Bool :=
  x.xsReceives d && (List.range 8).any fun l => x.layerFrom n l (x.memInput ⟨true, 1024⟩)

/-- A channel's picture is what the die sends as the cross-die stream (R22, log entry 47). -/
def Die.feedsXs (x : Die) (d : DieId) (n : Nat) : Bool := num (x.claims d) 59 1 == 1 && Config.xstream 6 == n

/-- COMBINATION. DESIGN CHOICE (log entry 53): cause 6, 'sources the cross-die stream', is read both ways, as a deferred channel whose
picture the stream carries and as one that takes a layer from it. -/
def Trial.combinationCheck (t : Trial) : Check :=
  let no (cause : Nat) (ok : Bool) : Check := need ok ⟨8, 0, cause⟩
  let encs (f : DieId → Die → Nat → Bool) : Bool := t.dies.all fun d => ((t.die d).encs d).all fun n => f d (t.die d) n
  let decs (f : Die → Nat → Bool) : Bool := t.dies.all fun d => ((t.die d).decs d).all fun n => f (t.die d) n
  checks [
    no 1 (encs (fun _ x n => x.flag R.EN_CFG_CODEC n || x.fld R.EN_CFG_CHROMA n != 2)
      && decs fun x n => x.flag R.CL_DC_CFG_CODEC n || x.fld R.CL_DC_CFG_CHROMA n != 2),
    no 2 (encs (fun _ x n => !x.flag R.EN_CFG_INSTEP n || (t.follows && t.alike (x.fld R.EN_TIMING_CADENCE n)))
      && decs fun x n => !x.flag R.CL_DC_CFG_INSTEP n || (t.follows && t.alike (x.fld R.CL_DC_CFG_CADENCE n))),
    no 3 (t.dies.all fun d =>
      let x := t.die d
      let mine := x.pairedLanes
      let other := (t.die (peer d)).pairedLanes
      (x.inStepLanes d).all (fun k => x.flag R.LN_CFG_PAIRED k)
        && mine.all fun l => (mine.filter fun m => m.1 == l.1).length == 1 && (other.filter fun m => m.1 == l.1) == [l]),
    no 4 (encs fun d x n => !(x.flag R.EN_CFG_INSTEP n && x.showsXs d n)),
    no 5 (t.dies.all fun d => !(t.die d).xsReceives d || t.alike (Config.xstream 0)),
    no 6 (encs fun d x n => !(x.flag R.EN_TIMING_DEFERRED n && (x.feedsXs d n || x.showsXs d n))),
    no 7 (t.dies.all fun d =>
      let x := t.die d
      (List.range 16).all fun p =>
        let ms := (x.poolMembers p).map Prod.fst
        ms.all fun n => (x.encs d).contains n && x.fld R.RC_CFG_MODE n == 1
          && ms.all fun m => x.fld R.EN_TIMING_CADENCE m == x.fld R.EN_TIMING_CADENCE n && x.flag R.EN_CFG_INSTEP m == x.flag R.EN_CFG_INSTEP n),
    no 8 (t.dies.all fun d =>
      ((t.die d).recsOf 6 0x602).all (fun e => audioFlowOk (num e.2.body 0 1) (subBytes e.2.body 12 8))
        && ((t.die d).recsOf 6 0x603).all fun e => audioFlowOk (num e.2.body 0 1) (subBytes e.2.body 24 8)),
    no 9 (encs fun _ x n => !(x.flag R.EN_CFG_INSTEP n && x.tracksAudio n)),
    no 10 (t.dies.all fun d => ((t.die d).recsOf 6 0x603).all fun e =>
      let c := num e.2.body 14 1
      !(bit (num e.2.body 15 1) 1 && (num e.2.body 0 1 == 1 || num e.2.body 0 1 == 6)
        && (t.die d).unitsClose t.plan d e.2.idx ((t.die d).lease c + (t.die d).fld R.MR_PAIL_CFG_GUARD c))),
    no 11 (t.dies.all fun d => ((t.die d).recsOf 6 0x603).all fun e => !(bit (num e.2.body 15 1) 1 && num e.2.body 0 1 == 5))]

end Sys2Proof.Machine
end

