-- ==== Sys2Proof/Machine/Bundles.lean ====
section
/-! DEFINITION. What admission checks of the bundles of a tile schedule: the fields of each slot (R149 to R175), the course of a
window program cycle by cycle (R172 to R176), its results (R177, R178) and its DRAM accesses (R136, R170). -/

namespace Sys2Proof.Machine

/-! ### The fields of the slots -/

/-- The slots of a bundle (R149). -/
def slotRoute (b : Nat) : Nat := b % 2 ^ 32
def slotAlu (b : Nat) : Nat := b / 2 ^ 32 % 2 ^ 32
def slotMem (b : Nat) : Nat := b / 2 ^ 64 % 2 ^ 32
def slotCtl (b : Nat) : Nat := b / 2 ^ 96 % 2 ^ 32

/-- No bit outside the mask is set. -/
def within (w mask : Nat) : Bool := w &&& mask == w

/-- ROUTE (R153, R154). -/
def routeForm (w : Nat) : Bool :=
  w == 0 || (bits w 31 29 == 1 && decide (bits w 28 26 ≤ 5 ∧ bits w 21 19 ≤ 5 ∧ bits w 9 7 ≤ 4) && bits w 1 0 == 0)

/-- The fields of an ALU opcode (R158, R161, R164, R165): VD, VA, VB, IMM, PRED in use. -/
structure AluUse where
  vd : Bool
  va : Bool
  vb : Bool
  imm : Bool
  pred : Bool
  deriving DecidableEq, Repr

/-- The bits of the fields in use, with the opcode's. -/
def AluUse.mask (u : AluUse) : Nat :=
  0xFE000000 + (if u.vd then 0x1F00000 else 0) + (if u.va then 0xF8000 else 0) + (if u.vb then 0x7C00 else 0)
    + (if u.imm then 0x3FC else 0) + (if u.pred then 3 else 0)

/-- The fields that an ALU opcode uses; none for a reserved opcode. DESIGN CHOICE (log entry 64): BEST3, DADD, DCLR, CBASE, CSNAP, CREST,
CSTART, CFLUSH and PUTB have no use for PRED, so that a nonzero one is refused; R157's list does not name them. -/
def aluUse (opc : Nat) : Option AluUse :=
  let u (s : List Nat) : Option AluUse := some ⟨s.contains 0, s.contains 1, s.contains 2, s.contains 3, s.contains 4⟩
  match opc with
  | 0x00 => u []
  | 0x05 => u [0, 1, 3, 4] | 0x06 => u [0, 1, 3, 4]
  | 0x0E => u [0, 1, 3, 4] | 0x0F => u [0, 1, 3, 4] | 0x10 => u [0, 1, 3, 4]
  | 0x12 => u [0, 1, 3, 4] | 0x13 => u [0, 1, 3, 4] | 0x14 => u [0, 1, 3, 4]
  | 0x15 => u [0, 1, 2, 3, 4] | 0x16 => u [0, 1, 2, 3, 4]
  | 0x20 => u [0, 1, 3, 4] | 0x21 => u [0, 1, 3, 4]
  | 0x22 => u [0, 4] | 0x23 => u [1, 4]
  | 0x25 => u [0, 1, 4] | 0x26 => u [0, 3, 4]
  | 0x28 => u [0, 1, 3, 4] | 0x29 => u [0, 1, 3, 4] | 0x2A => u [0, 1, 3, 4] | 0x2B => u [0, 1, 3, 4] | 0x2C => u [0, 1, 3, 4]
  | 0x2D => u [0, 1, 2, 3, 4] | 0x2E => u [0, 1, 3, 4]
  | 0x40 => u [0, 1, 2, 4] | 0x41 => u [0, 1, 2, 4]
  | 0x42 => u [0, 1, 2] | 0x43 => u [0, 1, 2]
  | 0x44 => u [1, 3] | 0x45 => u [0, 1, 2] | 0x46 => u [0, 3, 4] | 0x47 => u [0, 3, 4] | 0x48 => u []
  | 0x50 => u [0, 1, 2, 3, 4] | 0x51 => u [0, 1, 2, 3, 4] | 0x52 => u [0, 1, 2, 3, 4] | 0x53 => u [0, 1, 2, 3, 4]
  | 0x54 => u [0, 1, 2, 3, 4]
  | 0x55 => u [0, 1, 3, 4] | 0x56 => u [0, 1, 2, 4] | 0x57 => u [0, 4] | 0x58 => u [4]
  | 0x60 => u [1, 2, 3] | 0x61 => u [1, 3] | 0x62 => u [1] | 0x63 => u [1, 2, 3] | 0x64 => u [1, 2]
  | 0x65 => u [] | 0x66 => u [] | 0x67 => u [3] | 0x68 => u [3] | 0x69 => u [0, 4] | 0x6A => u [1, 3]
  | n => if n ≤ 0x27 then u [0, 1, 2, 4] else none

/-- The type of tile that an ALU opcode needs. -/
def aluType (opc : Nat) : Option TileType :=
  if opc < 0x40 then none else if opc < 0x50 then some .S else if opc < 0x60 then some .T else some .E

/-- The ranges that the ALU opcodes state. -/
def aluRange (opc vd va vb imm : Nat) : Bool :=
  if opc = 0x12 ∨ opc = 0x13 ∨ opc = 0x14 then decide (imm ≤ 7)
  else if opc = 0x15 ∨ opc = 0x16 then decide (imm ≤ 8)
  else if 0x1D ≤ opc ∧ opc ≤ 0x22 then decide (1 ≤ vd ∧ vd ≤ 3)
  else if opc = 0x23 then decide (va ≤ 3)
  else if opc = 0x29 ∨ opc = 0x2B then decide (imm ≤ 3)
  else if opc = 0x2A ∨ opc = 0x2C then decide (imm ≤ 1)
  else if opc = 0x2D ∨ opc = 0x2E then imm == 2 || imm == 4
  else if opc = 0x43 then decide (vd ≤ 15 ∧ va ≤ 30 ∧ vb ≤ 30)
  else if opc = 0x44 then decide (va ≤ 15)
  else if opc = 0x46 ∨ opc = 0x47 then decide (imm ≤ 2)
  else if 0x40 ≤ opc ∧ opc ≤ 0x45 then decide (vd ≤ 15)
  else if 0x50 ≤ opc ∧ opc ≤ 0x53 then decide (vd ≤ 1 ∧ imm ≤ 3)
  else if opc = 0x54 then decide (vd ≤ 1 ∧ imm ≤ 31)
  else if opc = 0x55 then decide (va ≤ 1)
  else if opc = 0x56 then decide (vd ≤ 1)
  else if opc = 0x57 then decide (vd ≤ 2)
  else if opc = 0x60 ∨ opc = 0x61 ∨ opc = 0x63 then decide (imm ≤ 31)
  else if opc = 0x67 ∨ opc = 0x68 then decide (imm ≤ 1)
  else if opc = 0x6A then imm &&& 0x78 == 0
  else true

/-- ALU (R156 to R165). -/
def aluForm (ty : TileType) (w : Nat) : Bool :=
  let opc := bits w 31 25
  match aluUse opc with
  | none => false
  | some u => within w u.mask && (match aluType opc with | some k => ty == k | none => true)
      && aluRange opc (bits w 24 20) (bits w 19 15) (bits w 14 10) (bits w 9 2)

/-- MEM (R167, R168): every tile has the opcodes up to 0x0A, an E-tile STBF and an M-tile 0x18 to 0x1B. -/
def memForm (ty : TileType) (w : Nat) : Bool :=
  match bits w 31 26 with
  | 0x00 => w == 0
  | 0x01 => true | 0x02 => true | 0x03 => true | 0x04 => true | 0x05 => true | 0x06 => true
  | 0x08 => within w 0xFFFEFFFF
  | 0x09 => within w 0xFC1EFFFF
  | 0x0A => within w 0xFFFE001F
  | 0x10 => ty == .E && within w 0xFC1F0000
  | 0x18 => ty == .M && within w 0xFFDF0000
  | 0x19 => ty == .M && within w 0xFFDF0000
  | 0x1A => ty == .M && within w 0xFFFFE000
  | 0x1B => ty == .M && within w 0xFF80FFFF
  | _ => false

/-- CTL (R171). -/
def ctlForm (w : Nat) : Bool :=
  match bits w 31 26 with
  | 0x00 => w == 0
  | 0x01 => within w 0xFFFCFFFF && bits w 25 18 != 0 && bits w 15 0 != 0
  | 0x02 => bits w 25 18 != 0 && bits w 12 0 != 0
  | 0x03 => within w 0xFFFF0000 && bits w 25 24 != 0 && bits w 23 16 != 0
  | 0x04 => within w 0xFC000000
  | 0x05 => within w 0xFC00000F
  | 0x06 => within w 0xFC00000F
  | 0x07 => within w 0xFC00000F
  | 0x08 => within w 0xFC00007F
  | 0x09 => within w 0xFC000FFF
  | 0x0A => within w 0xFFE00000
  | _ => false

/-- A bundle that R151 admits. -/
def bundleForm (ty : TileType) (b : Nat) : Bool :=
  routeForm (slotRoute b) && aluForm ty (slotAlu b) && memForm ty (slotMem b) && ctlForm (slotCtl b)

/-! ### The shape of a program (R172, R174) -/

/-- CTL opcode of a bundle. -/
def ctlOp (b : Nat) : Nat := bits (slotCtl b) 31 26

/-- The bundles of a program, through its END bundle; none where the bundle store has no END. -/
def progBundles : List Nat → Option (List Nat)
  | [] => none
  | b :: l => if ctlOp b = 4 then some [b] else (progBundles l).map fun r => b :: r

/-- The loops and the IFP ranges of a program keep R172 and R174: `i` is the bundle's place, `last` that of the END bundle, and
the list holds the bundles after the bodies that are open, innermost first. -/
def shapeOk (last : Nat) : Nat → List Nat → List Nat → Bool
  | _, _, [] => true
  | i, open_, b :: l =>
    let open_ := open_.filter fun a => decide (i < a)
    let top := open_.headD last
    let n := bits (slotCtl b) 25 18
    let endsBody := open_.any fun a => a == i + 1
    let ok : Bool := match ctlOp b with
      | 1 => !endsBody && decide (open_.length < 4 ∧ i + 1 + n ≤ top ∧ i + 1 + n ≤ last)
      | 2 => !endsBody && decide (open_.length < 4 ∧ i + 1 + n ≤ top ∧ i + 1 + n ≤ last)
      | 3 => decide (i + bits (slotCtl b) 23 16 < top)
          && (l.take (bits (slotCtl b) 23 16)).all fun c => !(([1, 2, 3, 4] : List Nat).contains (ctlOp c))
      | 4 => open_.isEmpty
      | _ => true
    ok && shapeOk last (i + 1) (if ctlOp b = 1 ∨ ctlOp b = 2 then (i + 1 + n) :: open_ else open_) l

/-! ### The course of a program, cycle by cycle (R176) -/

/-- A loop on the course: first bundle, bundle after the body, iterations left. -/
abbrev CourseLoop := Nat × Nat × Nat

/-- The bundle after the present one. -/
def courseNext : List CourseLoop → Nat → Nat × List CourseLoop
  | [], next => (next, [])
  | l :: ls, next =>
    if next = l.2.1 then
      if 1 < l.2.2 then (l.1, (l.1, l.2.1, l.2.2 - 1) :: ls) else courseNext ls next
    else (next, l :: ls)

/-- The bundles that issue in the cycles of a program, a LOOP at COUNT iterations, a DLOOP at BOUND, through END or until `fuel`
cycles have passed. -/
def course (prog : List Nat) : Nat → Nat → List CourseLoop → List Nat
  | 0, _, _ => []
  | fuel + 1, pc, loops =>
    match prog[pc]? with
    | none => []
    | some b =>
      let n := bits (slotCtl b) 25 18
      match ctlOp b with
      | 4 => [b]
      | 1 => b :: course prog fuel (pc + 1) ((pc + 1, pc + 1 + n, bits (slotCtl b) 15 0) :: loops)
      | 2 => b :: course prog fuel (pc + 1) ((pc + 1, pc + 1 + n, bits (slotCtl b) 12 0) :: loops)
      | _ =>
        let r := courseNext loops (pc + 1)
        b :: course prog fuel r.1 r.2

/-! ### Results (R177, R178) -/

/-- The registers that results reach. -/
inductive Dest | v (r : Nat) | p (r : Nat) | k | d (r : Nat) | best | m (r : Nat) | a (r : Nat) | q (r : Nat) | snap | ctx
  deriving DecidableEq, Repr

/-- The results of an ALU word, with their latencies. -/
def aluResults (w : Nat) : List (Dest × Nat) :=
  let opc := bits w 31 25
  let vd := bits w 24 20
  if opc = 0 then []
  else if opc ≤ 6 then [(.v vd, 1), (.k, 1)]
  else if 0x1D ≤ opc ∧ opc ≤ 0x21 then [(.p vd, 1)]
  else if opc = 0x22 then [(.p vd, 1)]
  else if opc = 0x23 then [(.k, 1)]
  else if opc = 0x27 ∨ opc = 0x28 then [(.v vd, 2)]
  else if opc < 0x40 then [(.v vd, 1)]
  else if opc = 0x40 ∨ opc = 0x41 then [(.d vd, 2)]
  else if opc = 0x42 then [(.d vd, 4)]
  else if opc = 0x43 then [(.d vd, 6)]
  else if opc = 0x44 then [(.best, 2)]
  else if opc = 0x45 then [(.d vd, 1)]
  else if opc = 0x46 ∨ opc = 0x47 then [(.v vd, 1)]
  else if opc = 0x48 then (.best, 1) :: (List.range 16).map fun i => (.d i, 1)
  else if opc ≤ 0x54 then [(.m vd, 3)]
  else if opc = 0x55 then [(.v vd, 2)]
  else if opc = 0x57 then if vd = 2 then [(.m 0, 1), (.m 1, 1)] else [(.m vd, 1)]
  else if opc = 0x56 then [(.m vd, 1)]
  else if opc = 0x58 then [(.m 0, 1)]
  else if opc = 0x65 then [(.snap, 4)]
  else if opc = 0x66 then [(.ctx, 4)]
  else if opc = 0x69 then [(.v vd, 1)]
  else []

/-- The results of a MEM word. -/
def memResults (w : Nat) : List (Dest × Nat) :=
  let v := bits w 25 21
  let post : List (Dest × Nat) := if bit w 16 then [(.a (bits w 20 17), 1)] else []
  match bits w 31 26 with
  | 0x01 => (.v v, 3) :: post
  | 0x03 => (.v v, 3) :: post
  | 0x06 => (.v v, 3) :: post
  | 0x02 => post
  | 0x04 => post
  | 0x05 => post
  | 0x10 => post
  | 0x08 => [(.a (bits w 20 17), 1)]
  | 0x09 => [(.a (bits w 20 17), 1)]
  | 0x0A => [(.a (bits w 20 17), 1)]
  | 0x18 => (if bit w 22 then [(.q (bits w 25 23), 1)] else []) ++ post
  | 0x19 => (if bit w 22 then [(.q (bits w 25 23), 1)] else []) ++ post
  | 0x1A => [(.q (bits w 20 18), 1)]
  | 0x1B => [(.q (bits w 25 23), 1)]
  | _ => []

/-- The results of a bundle. -/
def bundleResults (b : Nat) : List (Dest × Nat) :=
  let r := slotRoute b
  let c := slotCtl b
  (if bits r 9 7 = 0 then [] else [(.v (bits r 6 2), 1)]) ++ aluResults (slotAlu b) ++ memResults (slotMem b)
    ++ (if bits c 31 26 = 0xA then [(.v (bits c 25 21), 1), (.v ((bits c 25 21 + 1) % 32), 1)] else [])

/-- No two results reach one register in one cycle: `due` holds what has been issued and has not landed, with the cycles left. -/
def resultsOk (due : List (Dest × Nat)) : List Nat → Bool
  | [] => true
  | b :: l =>
    let rs := bundleResults b
    rs.length == (uniq rs).length && rs.all (fun r => !due.contains r)
      && resultsOk (((due ++ rs).filter fun r => decide (1 < r.2)).map fun r => (r.1, r.2 - 1)) l

/-! ### The output FIFO and the DRAM slots -/

/-- Bundles that code since the last STBF never number more than 8 (R166). -/
def fifoOk (n : Nat) : List Nat → Bool
  | [] => true
  | b :: l =>
    let codes := ([0x60, 0x61, 0x62, 0x68, 0x6A] : List Nat).contains (bits (slotAlu b) 31 25)
    let n := if bits (slotMem b) 31 26 = 0x10 then 0 else if codes then n + 1 else n
    decide (n ≤ 8) && fifoOk n l

/-- The MEM word is a DRD or a DWR. -/
def portOp (w : Nat) : Bool := bits w 31 26 == 0x18 || bits w 31 26 == 0x19

/-- The cycles of a program of `length` in which it can issue a DRD or a DWR: those of its course up to the first WAITF, and any from
there on to its end where one follows (R170, R175). -/
def dramCycles (c : List Nat) (length : Nat) : List Nat :=
  let s := (c.takeWhile fun b => ctlOp b != 5)
  let late := c.drop s.length
  (s.zipIdx.filter fun e => portOp (slotMem e.1)).map Prod.snd
    ++ if late.any fun b => portOp (slotMem b) then (List.range (length - s.length)).map fun i => s.length + i else []

/-! ### Scratch addresses that the program fixes (R117, R135, R136): from ASET on, through AADD and steps, until ALDV or STBF -/

/-- What is known of a program's scratch accesses on its course. -/
structure MemTrace where
  /-- address registers whose value is fixed -/
  known : List (Nat × Nat)
  /-- DRDs on their way: the first cycle that may use the data, and the first byte -/
  reads : List (Nat × Nat)
  /-- no data is used too early -/
  inTime : Bool
  /-- every access of the slot port reaches banks given to it -/
  banks : Bool
  deriving DecidableEq, Repr

def MemTrace.reg (m : MemTrace) (i : Nat) : Option Nat := (m.known.find? fun e => e.1 == i).map Prod.snd
/-- Register `i` takes a value, or one that the program does not fix. -/
def MemTrace.setReg (m : MemTrace) (i : Nat) (v : Option Nat) : MemTrace :=
  { m with known := (m.known.filter fun e => e.1 != i) ++ match v with | some v => [(i, v)] | none => [] }

/-- A MEM word in cycle `c`, in a window whose bank map is `banks`. -/
def MemTrace.step (m : MemTrace) (banks : List Nat) (c w : Nat) : MemTrace :=
  let opc := bits w 31 26
  let i := bits w 20 17
  let post := bit w 16
  let scale : Int := if opc = 1 ∨ opc = 2 ∨ opc = 5 then 32 else 1
  let off : Int := if opc = 5 then sgn 14 (bits w 13 0) else sgn 16 (bits w 15 0)
  let at_ : Option Nat := (m.reg i).map fun a => (if post then a else addA a (scale * off)) % 2 ^ 19
  let used (lo n : Nat) : Bool := m.reads.any fun e => decide (c < e.1 ∧ lo < e.2 + 64 ∧ e.2 < lo + n)
  let early : Bool := match opc, at_ with
    | 1, some a => used (a / 32 * 32) 32
    | 3, some a => used a 32
    | 6, some a => used a 1
    | 0x19, _ => match m.reg i with | some a => used (a / 64 * 64 % 2 ^ 19) 64 | none => false
    | _, _ => false
  let given (a : Nat) : Bool := ([0, 32] : List Nat).all fun j => banks.getD (bankOf 32 (a / 64 * 64 + j)) 0 == 1
  let m := { m with inTime := m.inTime && !early }
  if portOp w then
    let m := match m.reg i with
      | some a => { m with banks := m.banks && given a
                           reads := if opc = 0x18 then (c + 385, a / 64 * 64 % 2 ^ 19) :: m.reads else m.reads }
      | none => m
    if post then m.setReg i ((m.reg i).map fun a => addA a 64) else m
  else match opc with
    | 0x08 => m.setReg i (some ((bits w 25 21 * 65536 + bits w 15 0) % 2 ^ 20))
    | 0x09 => m.setReg i ((m.reg i).map fun a => addA a off)
    | 0x0A => m.setReg i none
    | 0x10 => if post then m.setReg i none else m
    | _ => if post ∧ 1 ≤ opc ∧ opc ≤ 6 then m.setReg i ((m.reg i).map fun a => addA a (scale * off)) else m

/-- The course of a window program of a schedule, by its index. -/
def TileSched.course (s : TileSched) (i : Nat) : List Nat :=
  match s.progs[i]? with
  | some p => Machine.course ((progBundles ((s.bundles.map leNat).drop p.first)).getD []) p.length 0 []
  | none => []
/-- The programs that run in consecutive lines of a frame of `l` lines, each pair once (R127). -/
def TileSched.pairs (s : TileSched) (l : Nat) : List (Nat × Nat) :=
  uniq ((List.range l).filterMap fun y => match s.progAt y, s.progAt ((y + 1) % l) with
    | some i, some j => some (i, j)
    | _, _ => none)
/-- The accesses of one window of `budget` cycles and the next. -/
def TileSched.trace (s : TileSched) (budget : Nat) (e : Nat × Nat) : MemTrace :=
  let banks (i : Nat) : List Nat := ((s.prog i).map fun p => p.2.banks).getD []
  let m := (s.course e.1).zipIdx.foldl (fun m b => m.step (banks e.1) b.2 (slotMem b.1)) ⟨[], [], true, true⟩
  (s.course e.2).zipIdx.foldl (fun m b => m.step (banks e.2) (budget + b.2) (slotMem b.1)) m

/-- A run entry of the memory-reserve table, and a line-map entry (R483). -/
structure RunEntry where
  region : Nat
  pattern : Nat
  kind : Nat
  half : Nat
  owner : Nat
  first : Nat
  length : Nat
  deriving DecidableEq, Repr
structure RegionMap where
  region : Nat
  pattern : Nat
  count : Nat
  firstLine : Nat
  lastLine : Nat
  deriving DecidableEq, Repr

/-- The runs, the line maps and the owners of a memory-reserve table (R482, R483). -/
def Sect.runs (s : Sect) : List RunEntry :=
  (chunks 8 (num s.body 38 2) (s.body.drop 64)).map fun e =>
    ⟨num e 0 1, num e 1 1, num e 2 1 % 8, num e 2 1 / 64, num e 3 1, num e 4 2, num e 6 2⟩
def Sect.regionMaps (s : Sect) : List RegionMap :=
  (chunks 8 (num s.body 40 2) (s.body.drop (64 + 8 * num s.body 38 2))).map fun e => ⟨num e 0 1, num e 1 1, num e 2 1, num e 4 2, num e 6 2⟩
def Sect.owner (s : Sect) (r : Nat) : Nat := num s.body (20 + r) 1
/-- The pattern of a region in a line. -/
def Sect.patternAt (s : Sect) (r l : Nat) : Option Nat :=
  (s.regionMaps.find? fun e => e.region == r && decide (e.firstLine ≤ l ∧ l ≤ e.lastLine)).map fun e => e.pattern + (l - e.firstLine) % e.count

/-- The plan gives a tile's DRAM slot port a slot in a cycle of a line (R170). -/
def Die.portSlot (x : Die) (t cad l c : Nat) : Bool :=
  tileType t == .M && (x.sectsOf 0x10).any fun s => (List.range 16).any fun r => s.owner r == cad && match s.patternAt r l with
      | some p => s.runs.any fun u => u.region == r && u.pattern == p && u.kind == 1 && u.owner == mIndex t && decide (u.first ≤ c ∧ c < u.first + u.length)
      | none => false

/-! ### The checks of a schedule -/

/-- Out-edges that a ROUTE word drives. -/
def routeEdges (w : Nat) : List Nat :=
  if bits w 31 29 = 1 then ([1, 2, 3, 4] : List Nat).filter fun e =>
    !(edgeSources (bits w 28 26) (BitVec.ofNat 4 (bits w 25 22)) (bits w 21 19) (BitVec.ofNat 4 (bits w 18 15)) e).isEmpty
  else []

/-- The window budget of a cadence, in vat cycles at 1,198.8 MHz (R26). -/
def Grid.budget (g : Grid) : Nat := 1198800000 * g.d / (g.n * g.l)

/-- RESOURCE faults of a tile schedule (R117, R121, R124, R127, R135, R151, R170, R172, R174), with the window programs that lines run.
DEDUCED (log entry 53): the port's addresses are judged where the program fixes them; one that it computes is not plan-defined. -/
def Die.schedResource (x : Die) (t : Nat) (s : TileSched) (g : Grid) : Bool :=
  let ws := s.bundles.map leNat
  let starts := (s.lines.map fun e => (e.firstLine, e.lastLine))
  let covered := (List.range g.l).all fun l => (starts.filter fun e => decide (e.1 ≤ l ∧ l ≤ e.2)).length == 1
  covered && s.lines.all (fun e => decide (e.firstLine ≤ e.lastLine ∧ e.lastLine < g.l ∧ 1 ≤ e.count ∧ e.count ≤ 64
      ∧ e.start + e.count ≤ s.indices.length))
    && s.indices.all (fun i => decide (i < s.progs.length))
    && s.progs.all (fun p => match progBundles (ws.drop p.first) with
      | none => false
      | some b => decide (p.first < ws.length) && shapeOk (b.length - 1) 0 [] b)
    && ws.all (bundleForm (tileType t))
    && ws.all (fun b => (routeEdges (slotRoute b)).all fun e => match Sys2Proof.Machine.neighbour t e with
      | none => false
      | some u => x.tileCad u == some s.cadence)
    && ((List.range s.progs.length).all fun i => match s.progs[i]? with
      | none => true
      | some p =>
        let cs := dramCycles (s.course i) p.length
        cs.isEmpty || (List.range g.l).all fun l => s.progAt l != some i || cs.all fun c => x.portSlot t s.cadence l c)
    && (s.pairs g.l).all fun e => (s.trace g.budget e).banks

/-- BUDGET faults of a tile schedule (R128, R136, R166, R175, R176, R178). The data of a DRD is on its way for 385 cycles, which may end
in the next window. -/
def schedBudget (s : TileSched) (g : Grid) : Bool :=
  ((s.pairs g.l).all fun e => (s.trace g.budget e).inTime) && s.progs.all fun p =>
    let prog := (progBundles ((s.bundles.map leNat).drop p.first)).getD []
    let c := course prog (p.length + 1) 0 []
    decide (p.length ≤ g.budget ∧ p.liveEnd ≤ p.length ∧ c.length ≤ p.length) && resultsOk [] c && fifoOk 0 c
      && (c.zipIdx.all fun e => ctlOp e.1 != 5 || (p.slack && decide (p.liveEnd ≤ e.2)))

end Sys2Proof.Machine
end

