-- ==== Sys2Proof/Machine/Admit2.lean ====
section
/-! DEFINITION. Admission, second part: checks 0x09 to 0x0E of R90. -/

namespace Sys2Proof.Machine

/-! ### 0x09 RESOURCE: claims and items -/

/-- The power declaration and the sum that it declares (R95). -/
def powerTotal (ss : List Sect) : Nat := ((ss.find? fun s => s.ty == 0x0E).map fun s => num s.body 0 4).getD 0

/-- No two entries of a list are equal. -/
def distinct {α : Type} [DecidableEq α] (l : List α) : Bool := l.length == (uniq l).length

/-- The instances of a kind that the sections of a die configure. -/
def Die.planned (x : Die) (d : DieId) (k : IKind) : List Nat :=
  uniq ((x.live.flatMap fun s => s.insts d).filterMap fun i => if i.kind = k then some i.n else none)

/-- The check-value units that the DMA channels of a die bind. -/
def Die.boundUnits (x : Die) : List Nat :=
  (List.range 64).filter fun u => x.dma.chans.any fun e => bit e.2.units u

/-- Claims beyond the counts of R16 and R81, and what a die uses without a claim. -/
def Die.claimsCheck (x : Die) (d : DieId) : Check :=
  let c := x.claims d
  let f (i : Nat) : Fail := ⟨9, 0, i⟩
  let compares := (x.entriesOf 0x11 24).map fun e => num e.2 0 1
  let threads := (x.entriesOf 0xD 32).map fun e => num e.2 0 2
  let chans := (x.sectsOf 3).flatMap fun s => s.dmaChans.map fun e => num e 0 1
  let streams := (x.sectsOf 3).flatMap fun s => s.dmaQueues.map fun e => num e 0 2
  checks [
    need (decide (num c 48 2 ≤ 4096 ∧ num c 50 1 ≤ 128 ∧ num c 51 1 ≤ 64 ∧ num c 52 1 ≤ 64 ∧ num c 53 1 ≤ 16 ∧ num c 56 2 ≤ 4096)) (f d.val),
    checkAll (x.planned d .enc) fun n => need (bit (num c 8 32) n) (f n),
    checkAll (x.planned d .dec) fun n => need (bit (num c 40 8) n) (f n),
    checkAll (x.planned d .port) fun n => need (bit (num c 54 2) n) (f n),
    need (decide (threads.length ≤ num c 48 2) && distinct threads) (f d.val),
    need (decide (chans.length ≤ num c 50 1) && distinct chans && distinct streams) (f d.val),
    need (decide (x.boundUnits.length ≤ num c 51 1)) (f d.val),
    need (decide (compares.length ≤ num c 52 1) && distinct compares) (f d.val),
    need (decide (((x.entriesOf 0xD 32).filter fun e => bit (num e.2 22 1) 0).length ≤ 1024)) (f d.val)]

/-- A record that claims its instance twice, or names a lane of the other die (R82, R669). -/
def Die.recordCheck (x : Die) (d : DieId) : Check :=
  let all := x.live.zipIdx.flatMap fun s =>
    if recordFramed s.1.ty then (s.1.recs.zipIdx.filter fun r => r.1.kind != 1).map fun r => (s.2, s.1, r.2, r.1) else []
  checks [
    checkAll all fun e => need (!(all.any fun g => g.1 != e.1 && g.2.1.ty == e.2.1.ty && g.2.2.2.kind == e.2.2.2.kind && g.2.2.2.idx == e.2.2.2.idx))
      ⟨9, e.2.1.index, e.2.2.1⟩,
    checkAll (all.map Prod.snd) fun e => need (!(([0x401, 0x402, 0x404] : List Nat).contains e.2.2.kind) || e.2.2.idx / 512 == d.val) ⟨9, e.1.index, e.2.1⟩,
    checkAll (x.sectsOf 5) fun s => checkAll s.eqs fun e => need (decide (0x8000 ≤ e.1) || e.1 / 512 == d.val) ⟨9, s.index, e.1⟩]

/-- Items that are unavailable on the die as it stands (R143, R584). -/
def Die.unavailable (y x : Die) (d : DieId) : Check :=
  let f (i : Nat) : Fail := ⟨9, 0, i⟩
  checks [
    checkAll (x.planned d .tile) fun t => need (!y.isBad .tile t) (f t),
    checkAll (x.planned d .scaler) fun t => need (!y.isBad .scaler t) (f t),
    checkAll (x.planned d .chan) fun t => need (!y.isBad .dmaChannel t) (f t),
    checkAll (x.planned d .port) fun t => need (!y.isBad .audioPort t) (f t),
    checkAll (x.planned d .asrc) fun t => need (!y.isBad .converter t) (f t),
    checkAll x.boundUnits fun t => need (!y.isBad .checkUnit t) (f t),
    checkAll (uniq ((x.entriesOf 0xD 32).map fun e => num e.2 2 1)) fun t => need (!y.isBad .core t) (f t),
    checkAll ((List.range 8).filter fun sp => x.flag R.NW_SP_CFG_USED sp) fun sp => need (!y.isBad .ethernet (sp / 4)) (f (sp / 4)),
    checkAll ((List.range 16).filter fun r => (x.sectsOf 0x10).any fun s => decide (s.owner r < 8)) fun r => need (!y.isBad .region r) (f r)]

/-! ### 0x09: queues (R386) and DMA programs (R488, R489, R492 to R501) -/

/-- The queues fed by send flows, and those fed by forwarding entries. -/
def Die.localQueues (x : Die) : List Nat := (x.recsOf 6 0x603).map fun e => num e.2.body 16 2
def Die.forwardQueues (x : Die) : List Nat := (x.recsOf 6 0x604).map fun e => num e.2.body 2 2

def Die.queueCheck (x : Die) : Check :=
  let f (i : Nat) : Fail := ⟨9, 0, i⟩
  let decl (q : Nat) : Option (List Byte) := x.bodyOf 7 0x701 q
  checks [
    checkAll x.localQueues fun q => need (match decl q with | some b => !bit (num b 7 1) 0 && !x.forwardQueues.contains q | none => false) (f q),
    checkAll x.forwardQueues fun q => need (match decl q with | some b => bit (num b 7 1) 0 | none => false) (f q),
    checkAll (x.recsOf 7 0x701) fun e => need (num e.2.body 8 2 == 0xFFFF || (x.bodyOf 7 0x702 (num e.2.body 8 2)).isSome) (f e.2.idx)]

/-- The bank maps of an M-tile give a bank to the DMA port in every window: a MOVE has no window of its own, so that only this proves its
accesses (R117, R493, log entry 53). -/
def Die.dmaBank (x : Die) (g : Nat → Option Grid) (t b : Nat) : Bool :=
  match x.sched t with
  | some (_, s) => match g s.cadence with
    | some g => (List.range g.l).all fun l => match (s.progAt l).bind s.prog with
      | some p => p.2.banks.getD b 0 == 3
      | none => false
    | none => false
  | none => false
/-- The banks that `n` bytes of scratch from `a` on reach (R116). -/
def bankSet (a n : Nat) : List Nat :=
  if n = 0 then [] else (List.range (min 32 ((a + n - 1) / 32 - a / 32 + 1))).map fun i => bankOf 32 (a + 32 * i)

/-- A side of a MOVE keeps R493: kind, first byte and bytes of one row, pitch, rows, and whether it is read. -/
def Die.sideOk (x : Die) (units : Nat) (bodies : List (List Byte)) (kind : Nat) (a : Int) (n : Nat) (pitch : Int) (rows : Nat) (reads : Bool) : Bool :=
  let starts := [a, a + (rows - 1) * pitch]
  match kind with
  | 0 => a == 0 && pitch == 0
  | 1 => starts.all fun v => decide (0 ≤ v ∧ v + n ≤ 2 ^ 34) && Config.dramClaimed bodies v.toNat (v.toNat + n)
  | 2 => ((List.range rows).all fun i =>
      let v := a + i * pitch
      decide (0 ≤ v) && decide (bits v.toNat 26 19 < 160) && decide (v.toNat % 2 ^ 19 + n ≤ 2 ^ 19)
        && (bankSet (v.toNat % 2 ^ 19) n).all fun b => x.dmaBank x.grid (mTile (bits v.toNat 26 19)) b)
  | 3 => decide (0 ≤ a ∧ a < 512) && pitch == 0 && x.flag R.DM_SQ_CFG_USED a.toNat && (x.flag R.DM_SQ_CFG_DIRECTION a.toNat == !reads)
  | 4 => decide (0 ≤ a ∧ a < 1024) && pitch == 0 && !reads
  | 5 => decide (0 ≤ a ∧ a < 64) && pitch == 0 && !reads && bit units a.toNat
  | 6 => decide (0 ≤ a ∧ a < 64) && pitch == 0 && n == 16 && rows == 1 && bit units a.toNat
  | _ => false

/-- A MOVE's words keep R492 to R495. -/
def Die.moveOk (x : Die) (units : Nat) (bodies : List (List Byte)) (w0 w1 : Nat) : Bool :=
  let m := moveWord w0 w1 []
  let z := m.sizes
  let aux := ([1, 2, 3, 4, 5, 6] : List Nat).contains m.shape
  let auxIn := ([3, 4, 6] : List Nat).contains m.shape
  let lenOk : Bool := if m.shape = 1 ∨ m.shape = 3 then m.length % 8 == 0 else if m.shape = 2 ∨ m.shape = 4 then m.length % 4 == 0
    else if m.shape = 6 ∨ m.shape = 5 then m.length % 2 ^ m.elem == 0 else if m.shape = 7 then m.length % 2 == 0 else if m.shape = 8 then m.length % 4 == 0 else true
  decide (m.shape ≤ 8 ∧ 1 ≤ m.length ∧ 1 ≤ m.rows ∧ m.elem ≤ 2 ∧ m.srcKind ≠ 0 ∧ m.dstKind ≠ 0) && lenOk && bits w1 7 0 == 0
    && (m.elem == 0 || m.shape == 5 || m.shape == 6) && (!m.ckEn || bit units m.ck) && (m.ckEn || m.ck == 0) && (!m.endEntry || m.dstKind == 4)
    && x.sideOk units bodies m.srcKind m.src z.1 m.srcPitch m.rows true && x.sideOk units bodies m.dstKind m.dst z.2.2.1 m.dstPitch m.rows false
    && (if aux then x.sideOk units bodies (if auxIn then m.srcKind else m.dstKind) m.aux (if auxIn then z.2.1 else z.2.2.2) m.auxPitch m.rows auxIn
        else m.aux == 0 && m.auxPitch == 0)

/-- A LOOP, a WAIT or a SIGNAL keeps R498 and R501. -/
def controlOk (units w : Nat) : Bool :=
  match bits w 127 124 with
  | 2 => bits w 123 116 != 0 && decide (bits w 115 114 ≤ 1) && bits w 113 98 != 0 && bits w 16 0 == 0 && (bits w 115 114 == 1 || bits w 97 89 == 0)
  | 3 => decide (bits w 123 121 ≤ 3) && bits w 119 104 != 0 && bits w 55 0 == 0 && (bit w 93 || decide (bits w 103 94 < 512))
  | 4 => bits w 78 0 == 0 && (!bit w 119 || bit units (bits w 118 113)) && (!bit w 122 || decide (bits w 112 107 < 48))
  | _ => false

/-- The words of a program from word `i` on: `left` words, and the bodies that are open, as the words left after each (R488, R498). -/
def Die.progOk (x : Die) (units : Nat) (bodies : List (List Byte)) : Nat → Nat → List Nat → Bool
  | 0, _, open_ => open_.isEmpty
  | left + 1, i, open_ =>
    let open_ := open_.filter fun a => decide (a < left + 1)
    let w := x.word i
    match bits w 127 124 with
    | 2 => controlOk units w && decide (open_.length < 2 ∧ bits w 123 116 ≤ left) && open_.all (fun a => decide (a ≤ left - bits w 123 116))
        && x.progOk units bodies left (i + 1) ((left - bits w 123 116) :: open_)
    | 1 => match left with
      | 0 => false
      | l + 1 => x.moveOk units bodies w (x.word (i + 1)) && !(open_.contains (l + 1)) && x.progOk units bodies l (i + 2) open_
    | n => controlOk units w && (left != 0 || (n == 4 && bit w 123)) && x.progOk units bodies left (i + 1) (if left = 0 then [] else open_)

/-- The channels and the stream queues of the DMA-programs sections. -/
def Die.dmaCheck (x : Die) : Check :=
  let bodies := x.live.map Sect.body
  checkAll (x.sectsOf 3) fun s => checks [
    checkAll s.dmaQueues fun e => need (decide (num e 0 2 < 512 ∧ num e 2 1 ≤ 1 ∧ 256 ≤ num e 4 4 ∧ num e 4 4 ≤ 16777216 ∧ 0 < num e 12 4
      ∧ num e 12 4 < num e 8 4 ∧ num e 8 4 ≤ num e 4 4)) ⟨9, s.index, num e 0 2⟩,
    checkAll s.dmaChans fun e => need (decide (num e 0 1 < 128 ∧ num e 1 1 ≤ 7 ∧ num e 2 1 ≤ 1 ∧ num e 3 1 ≤ 15 ∧ 1 ≤ num e 8 4
        ∧ num e 4 4 + num e 8 4 ≤ 65536) && x.progOk (num e 16 8) bodies (num e 8 4) (num e 4 4) []) ⟨9, s.index, num e 0 1⟩]

/-! ### 0x09: DRAM (R261, R465, R466, R483, R522, R550) -/

/-- The pools of a die: first byte and bytes, in whole units of 4 MiB (R260). -/
def Die.pools (x : Die) : List (Nat × Nat) :=
  let u (base mib : Nat) : Nat × Nat := (base * 2 ^ 22, cdiv mib 4 * 2 ^ 22)
  ((x.recsOf 0xB 0xB01).map fun e => u (num e.2.body 4 4) (num e.2.body 0 1 * num e.2.body 2 2))
    ++ ((x.recsOf 0xB 0xB02).map fun e => u (num e.2.body 4 4) (bits (num e.2.body 0 4) 23 19 * num e.2.body 8 2))
    ++ (x.recsOf 0xB 0xB03).map fun e => u (num e.2.body 4 4) (3 * num e.2.body 8 2)
/-- The other items in DRAM: coded picture buffers, surfaces, spilled contexts and the resend store. -/
def Die.dramItems (x : Die) : List (Nat × Nat) :=
  ((x.recsOf 0xB 0xB02).map fun e => (num e.2.body 12 4 * 2 ^ 22, num e.2.body 16 4))
    ++ ((x.recsOf 0xA 0xA01).map fun e => (num e.2.body 8 8, surfaceBytes e.2.body))
    ++ ((x.recsOf 0x12 0x1203).map fun e => (num e.2.body 0 8, num e.2.body 8 4))
    ++ (x.recsOf 0x12 0x1205).map fun e => (num e.2.body 0 8, num e.2.body 8 4)

/-- Bytes that the in-step flows of a die queue in 2 x (LEASE + GUARD) lines at the highest rates (R551). -/
def Die.resendNeed (x : Die) (p : Plan) (d : DieId) : Nat :=
  (x.recsOf 6 0x603).foldl (fun n e =>
    let b := e.2.body
    let c := num b 14 1
    let ch := num b 12 2
    if !(bit (num b 15 1) 1 && (num b 0 1 == 1 || num b 0 1 == 6)) then n
    else match p.grid d c with
      | some g => (x.txPaths e.2.idx).foldl (fun n t =>
          let s := codedShare (num b 0 1) (x.txLimit e.2.idx) t
          n + cdiv (x.highRate ch * 1000 * 2 * (x.lease c + x.fld R.MR_PAIL_CFG_GUARD c) * g.d * s.1) (8 * s.2 * g.n * g.l)) n
      | none => n) 0

def Die.dramCheck (x : Die) (p : Plan) (d : DieId) : Check :=
  let f : Fail := ⟨9, 0, d.val⟩
  let items := x.pools ++ x.dramItems
  let spilled := (x.entriesOf 0xD 32).filter fun e => !bit (num e.2 22 1) 0
  let overlap (a b : Nat × Nat) : Bool := decide (a.1 < b.1 + b.2 ∧ b.1 < a.1 + a.2)
  checks [
    need (decide ((items.foldl (fun n e => n + e.2) 0) ≤ num (x.claims d) 56 2 * 2 ^ 22)) f,
    need ((x.pools.zipIdx).all fun a => (x.pools.zipIdx).all fun b => !(decide (a.2 < b.2) && overlap a.1 b.1)) f,
    need (items.all fun e => e.2 == 0 || (e.1 / 2 ^ 30 == (e.1 + e.2 - 1) / 2 ^ 30 && decide (e.1 + e.2 ≤ 2 ^ 34))) f,
    need (decide (256 * spilled.length ≤ x.par.spill.2)) f,
    need (decide (x.resendNeed p d ≤ ((x.bodyOf 0x12 0x1205 0).map fun b => num b 8 4).getD 0)) f]

/-- The memory-reserve table of a die (R483). -/
def Die.runsCheck (x : Die) (p : Plan) (d : DieId) : Check :=
  checkAll (x.sectsOf 0x10) fun s =>
    let lines (r : Nat) : Option Grid := p.grid d (s.owner r)
    let f (i : Nat) : Fail := ⟨9, s.index, i⟩
    let slots (u v : RunEntry) : Bool := u.region == v.region && u.pattern == v.pattern && (u.half == v.half || u.half == 2 || v.half == 2)
      && decide (u.first < v.first + v.length ∧ v.first < u.first + u.length)
    checks [
      checkAll s.runs.zipIdx fun e =>
        let u := e.1
        need (decide (s.owner u.region < 8) && (match lines u.region with | some g => decide (u.first + u.length ≤ g.budget) | none => false)
          && (if u.kind = 1 then decide (u.owner < 160) && x.tileCad (mTile u.owner) == some (s.owner u.region)
              else if u.kind = 2 then decide (u.owner < 128) else u.owner == 0 && u.half == 2)
          && (if u.kind = 3 ∨ u.kind = 4 then u.length == 192 else if u.kind = 5 then u.length == 48 else decide (1 ≤ u.length))) (f e.2),
      checkAll s.runs.zipIdx fun e => need (!(s.runs.zipIdx.any fun g => decide (g.2 < e.2) && slots g.1 e.1)) (f e.2),
      checkAll (List.range 16) fun r => match lines r with
        | some g => need ((List.range g.l).all fun l =>
            (s.regionMaps.filter fun m => m.region == r && decide (m.firstLine ≤ l ∧ l ≤ m.lastLine)).length == 1) (f r)
        | none => none,
      checkAll s.regionMaps fun m => need (decide (m.firstLine ≤ m.lastLine ∧ m.pattern + m.count ≤ 64)
        && (match lines m.region with | some g => decide (m.lastLine < g.l) | none => false)) (f m.region)]

/-- The sections of a fragment are identical in two lists (R98). -/
def sameFrag (o p : List Sect) (f : Nat) : Bool :=
  let key (q : List Sect) : List (Nat × Nat × List Byte) := (q.filter fun s => s.frag == f).map fun s => (s.ty, s.dies, s.body)
  f != 0 && !(key o).isEmpty && key o == key p
/-- Each cadence of a fragment on a die is unchanged (R98). -/
def sameCads (o p : Plan) (d : DieId) (ss : List Sect) (f : Nat) : Bool :=
  ((ss.filter fun s => s.frag == f).flatMap Sect.cads).all fun c => o.cadWords d c == p.cadWords d c
/-- A fragment runs on undisturbed from one plan to another (R98): identical sections on both dies, and each of its cadences
unchanged. -/
def continues (o p : Plan) (f : Nat) : Bool :=
  sameFrag o.sects p.sects f && ([0, 1] : List DieId).all fun d => sameCads o p d (p.on d) f

/-- The masks change only where R465 lets them. -/
def Trial.maskCheck (t : Trial) : Check :=
  match t.old with
  | none => none
  | some o =>
    checkAll ([0, 1] : List DieId) fun d =>
      let mask (q : Plan) : Option (List Byte) := ((q.on d).find? fun s => s.ty == 0x10).map fun s => s.body.take 20
      need (mask o == none || mask t.plan == none || mask o == mask t.plan
        || (t.change.isEmpty && ([0, 1] : List DieId).all fun e => !((fragsOf (t.plan.on e)).any fun f => continues o t.plan f))) ⟨9, 0, d.val⟩

/-- The tile schedules of a die. -/
def Die.tilesCheck (x : Die) (p : Plan) (d : DieId) : Check :=
  checkAll (recsAt x 2 0x201) fun e =>
    let s := tileSched e.2.2.idx e.2.2.body
    need (match p.grid d s.cadence with | some g => x.schedResource e.2.2.idx s g | none => true) ⟨9, e.1.index, e.2.2.idx⟩

/-- Audio ports: slots by bits by rate, and a sample no wider than its slot (R438). -/
def Die.portsCheck (x : Die) : Check :=
  checkAll ((List.range 16).filter fun p => x.auUsed p) fun p =>
    let bitsOf := [16, 24, 32].getD (x.fld R.AU_P_CFG_SLOT_BITS p) 32
    need (decide ((x.fld R.AU_P_CFG_SLOTS p + 1) * bitsOf * auHz (x.fld R.AU_P_CFG_RATE p) ≤ 49152000
      ∧ [16, 20, 24].getD (x.fld R.AU_P_CFG_WIDTH p) 24 ≤ bitsOf)) ⟨9, 0, p⟩

def State.resourceCheck (s : State) (t : Trial) : Check :=
  checks [t.maskCheck, t.each fun d x => checks [x.claimsCheck d, x.recordCheck d, (s.die d).unavailable x d, x.tilesCheck t.plan d, x.queueCheck,
    x.dmaCheck, x.dramCheck t.plan d, x.runsCheck t.plan d, x.portsCheck]]

/-! ### 0x0A CROSSDIE (R22, R538, R539, R632) -/

def State.crossCheck (s : State) (t : Trial) : Check :=
  let xs (d : DieId) : Nat := num ((t.die d).claims d) 59 1
  let f (i : Nat) : Fail := ⟨10, 0, i⟩
  let pails := (List.range 8).filter fun c => t.dies.any fun d => (t.die d).pailUsed c
  checks [
    need ((xs 0 == 0 && xs 1 == 0) || (decide (xs 0 + xs 1 = 3 ∧ xs 0 ≠ 0 ∧ xs 1 ≠ 0 ∧ xstreamRate t.plan 0 ≤ 120000000))) (f 0),
    need (!bit (t.plan.hd 0x1A 1) 1 || s.die0.flag R.MR_STATUS_LINK_UP) (f 1),
    t.each fun d x => checkAll (x.recsOf 0x12 0x1204) fun e => need ((x.inStepCads d).contains e.2.idx) (f e.2.idx),
    t.each fun d x => checkAll ((List.range 8).filter fun c => x.pailUsed c) fun c => match t.plan.grid d c with
      | some g => need (decide (2 * g.n * g.l ≤ x.fld R.MR_PAIL_CFG_GUARD c * g.d * 1000000)) (f c)
      | none => none,
    need (decide ((pails.foldl (fun n c => match t.plan.grid 0 c with
      | some g => n + cdiv (58 * g.n * g.l) g.d
      | none => n) 5800000) ≤ 45000000)) (f 0)]

/-! ### 0x0B CAPACITY (R187, R192 to R194, R236, R368) -/

/-- The fragment of an encode channel. -/
def Die.encFrag (x : Die) (n : Nat) : Nat := (x.enc' n).frag

/-- The limits of a level: largest picture, luma samples a second, kb/s. The luma rates that R187 states for HEVC stand as stated; the rest
are the standards'. -/
def levelLimits (vvc : Bool) (level tier profile : Nat) : Option (Nat × Nat × Nat) :=
  (Config.levelLimit vvc level tier profile).map fun e =>
    (e.1, (if vvc then none else oget [(120, some 66846720), (123, some 133693440), (183, some 2139095040), (186, some 4278190080)] level).getD e.2.1, e.2.2)
/-- The limits of a channel's level (R187). -/
def Die.levelOk (x : Die) (p : Plan) (d : DieId) (n : Nat) : Bool :=
  match levelLimits (x.encVvc n) (x.fld R.EN_CFG_LEVEL n) (x.fld R.EN_CFG_TIER n) (x.fld R.EN_CFG_PROFILE n),
      p.grid d (x.fld R.EN_TIMING_CADENCE n) with
  | some (ps, sr, br), some g =>
    let luma := x.fld R.EN_SIZE_WIDTH n * x.fld R.EN_SIZE_HEIGHT n
    let pics := if x.flag R.EN_CFG_INTERLACED n then 2 else 1
    decide (luma ≤ ps ∧ luma * pics * g.n ≤ sr * g.d) && (x.fld R.RC_CFG_MODE n == 2 || decide (x.highRate n ≤ br))
  | _, _ => false

/-- HEVC-equivalent pixels a second of a channel, by 3 x the cadence's denominators: numerator and denominator (R192, R193). -/
def Die.pixelRate (x : Die) (g : Grid) (n : Nat) : Nat × Nat :=
  (x.fld R.EN_SIZE_WIDTH n * x.fld R.EN_SIZE_HEIGHT n * g.n * [3, 4, 6].getD (x.fld R.EN_CFG_CHROMA n) 6
    * (if x.encVvc n then 2 else 1) * (if x.flag R.EN_CFG_INTERLACED n then 2 else 1), 3 * g.d)

/-- The channels of a die within its capacity, one by one: the first that does not fit (R92). -/
def capacityFits (cap : Nat) : Nat × Nat → List (Nat × Nat × Nat) → Check
  | _, [] => none
  | (a, b), (frag, n, m) :: l =>
    let s := (a * m + n * b, b * m)
    if s.1 ≤ cap * s.2 then capacityFits cap s l else some ⟨11, 0, frag⟩

/-- Nominal bits of a picture at a rate in kb/s, rounded down and up (R232). -/
def Die.nominalDown (x : Die) (n rate : Nat) : Nat := (x.nominal n rate 0).1
def Die.nominalUp (x : Die) (n rate : Nat) : Nat := let r := x.nominal n rate 0; if r.2 = 0 then r.1 else r.1 + 1

/-- The floors of a channel (R236). -/
def Die.floorsOk (x : Die) (n : Nat) : Bool :=
  let cq := x.fld R.RC_CFG_MODE n == 2
  let f := x.encFloor n true
  let b := if cq then x.fld R.RC_CAP n else x.fld R.RC_CPB n
  (cq || decide (f ≤ x.nominalDown n (x.lowRate n) ∧ x.nominalUp n (x.highRate n) ≤ b ∧ f ≤ x.fld R.RC_START n * x.encRate n * 1000 / 90000))
    && (x.recsOf 6 0x603).all fun e =>
      let t := e.2.body
      !(([1, 5, 6] : List Nat).contains (num t 0 1) && num t 12 2 == n)
        || x.queueHolds e.2.idx b

/-- The mux rate of a TS flow (R368). -/
def Die.muxOk (x : Die) (f : Nat) : Bool :=
  let b := x.txBody f
  decide ((x.highRate (num b 12 2) + x.tsAudioRate f) * 188 + 100 * 184 ≤ num b 32 4 * 184)

def State.capacityCheck (s : State) (t : Trial) : Check :=
  let cap := if s.die0.flag R.SY_VARIANT_GRADE then 24000000000 else 32000000000
  t.each fun d x => checks [
    checkAll (x.encs d) fun n => need (x.levelOk t.plan d n && x.floorsOk n) ⟨11, 0, x.encFrag n⟩,
    capacityFits cap (0, 1) ((x.encs d).filterMap fun n => (t.plan.grid d (x.fld R.EN_TIMING_CADENCE n)).map fun g => (x.encFrag n, x.pixelRate g n)),
    checkAll (x.recsOf 6 0x603) fun e => need (!(num e.2.body 0 1 == 5 || num e.2.body 0 1 == 6) || x.muxOk e.2.idx) ⟨11, 0, x.encFrag (num e.2.body 12 2)⟩]

/-! ### 0x0C LANES (R315, R317, R326, R327, R331, R332, R334, R344, R352) -/

/-- SerDes lanes that the used sub-ports of a die have, as LANE names them (R350, R352). -/
def Die.serdes (x : Die) (d : DieId) : List Nat :=
  ((List.range 8).filter fun sp => x.flag R.NW_SP_CFG_USED sp).flatMap fun sp =>
    let mode := x.fld R.NW_SP_CFG_MODE (sp / 4 * 4)
    let k := [8, 4, 2, 0].getD mode 0
    if sp % 4 < [1, 2, 4, 0].getD mode 0 then (List.range k).map fun j => 0x8000 + 8 * (2 * d.val + sp / 4) + sp % 4 * k + j else []

/-- The ranges of an equalisation preset (R327). -/
def presetOk (p : List Nat) : Bool := (p.zip [15, 63, 31, 31, 15, 1, 1]).all fun e => decide (e.1 ≤ e.2)

def Die.eqCheck (x : Die) (d : DieId) : Check :=
  let eqs := (x.sectsOf 5).flatMap Sect.eqs
  let one (e : Nat × Nat × List (List Nat)) : Bool := (e.2.2.filter fun p => p.getD 6 0 == 1).length == 1
  let entry (l : Nat) (tx : Bool) : Bool := match eqs.filter fun e => e.1 == l with
    | [e] => !tx || one e
    | _ => false
  checks [
    checkAll eqs fun e => need (decide (1 ≤ e.2.2.length ∧ e.2.2.length ≤ 16) && e.2.2.all presetOk && (eqs.filter fun g => g.1 == e.1).length == 1) ⟨12, 0, e.1⟩,
    checkAll x.usedLanes fun k => need (entry (pkgLane d k) (x.flag R.LN_CFG_TX_USED k)) ⟨12, 0, pkgLane d k⟩,
    checkAll (x.serdes d) fun l => need (entry l true) ⟨12, 0, l⟩]

/-- Rate of a lane by 1,001, in kb/s. -/
def Die.laneRate1001 (x : Die) (k : Nat) : Nat :=
  if x.lnNative k then x.fld R.LN_NRATE_KBPS k * 1001 else sdiKbps (x.fld R.LN_CFG_RATE k) * (if x.flag R.LN_CFG_FRAC k then 1000 else 1001)

/-- The highest power state of a direction that the lock bounds allow. -/
def Die.maxState (x : Die) (k : Nat) (tx : Bool) : Nat :=
  if x.flag (if tx then R.LN_CFG_TX_USED else R.LN_CFG_RX_USED) k then
    min 2 (max (x.fld (if tx then R.LN_PWR_TX_STATE else R.LN_PWR_RX_STATE) k) (x.boundMax (if tx then R.LN_PWR_TX_STATE else R.LN_PWR_RX_STATE) k))
  else 0

/-- A base rate serves the lanes of a block that name one PLL (R315): transmitters exactly, receivers within 2,000 ppm. -/
def Die.pllOk (x : Die) (b : Nat) (pllB : Bool) : Bool :=
  let ks := ((List.range 16).map fun i => 16 * b + i).filter fun k => x.usedLanes.contains k && x.flag R.LN_CFG_PLL k == pllB
  let v (k : Nat) : Nat := x.laneRate1001 k * 2 ^ x.fld R.LN_CFG_DIV k
  let lo := 8000000 * 1001
  let hi := 25780000 * 1001
  let tx := ks.filter fun k => x.flag R.LN_CFG_TX_USED k
  ks.all (fun k => decide (x.fld R.LN_CFG_DIV k ≤ 4)) && tx.all (fun k => decide (lo ≤ v k ∧ v k ≤ hi))
    && ks.all (fun k => decide (lo * 998 ≤ v k * 1000 ∧ v k * 1000 ≤ hi * 1002))
    && ks.all fun i => ks.all fun j =>
      if tx.contains i ∧ tx.contains j then v i == v j
      else if tx.contains i then decide (v i * 998 ≤ v j * 1000 ∧ v j * 1000 ≤ v i * 1002)
      else decide (v i * 998 ≤ v j * 1002)

/-- The lane power of a die at the highest states, in 1/20 mW (R331). -/
def Die.maxLanePower (x : Die) (bonded : Nat) : Nat :=
  (List.range bonded).foldl (fun n k => n + dirPower false (x.maxState k false) (x.laneKbps k) + dirPower true (x.maxState k true) (x.laneKbps k))
    ((List.range 64).foldl (fun n b =>
      if (List.range 16).any fun i => x.flag R.LN_CFG_PLL (b / 2 * 16 + i) == (b % 2 == 1)
          && decide (0 < x.maxState (b / 2 * 16 + i) false + x.maxState (b / 2 * 16 + i) true) then n + 600 else n) 0)

def State.lanesCheck (s : State) (t : Trial) : Check :=
  let bonded := s.fld 0 R.SY_VARIANT_LANES
  let ceil := if s.fld 0 R.SY_VARIANT_PACKAGE = 2 then 10000 else 20000
  t.each fun d x =>
    let f (k : Nat) : Fail := ⟨12, 0, pkgLane d k⟩
    checks [x.eqCheck d,
      checkAll x.usedLanes fun k => need (!(s.die d).isBad .lane k) (f k),
      checkAll (List.range 512) fun k => need (decide (1 ≤ x.fld R.LN_DEBOUNCE_MS k ∧ x.fld R.LN_DEBOUNCE_MS k ≤ 1000)) (f k),
      checkAll x.usedLanes fun k => need (decide (1 ≤ x.fld R.LN_CFG_RATE k ∧ x.fld R.LN_CFG_RATE k ≤ 6) && (x.lnNative k == (x.fld R.LN_CFG_RATE k == 6))
        && (!x.lnNative k || decide (1250000 ≤ x.fld R.LN_NRATE_KBPS k ∧ x.fld R.LN_NRATE_KBPS k ≤ 25780000))) (f k),
      checkAll (List.range 32) fun b => need (x.pllOk b false && x.pllOk b true) ⟨12, 0, b⟩,
      checkAll (x.usedLanes.filter fun k => x.lnNative k) fun k =>
        need (([0, 1] : List Nat).all fun dir => decide (x.laneStreams t.plan d k dir * (2080 * 1024 * 10000) ≤ x.fld R.LN_NRATE_KBPS k * 1000 * (2048 * 1023 * 9998))) (f k),
      checkAll (List.range 512) fun g =>
        let ms := x.usedLanes.filter fun k => x.flag R.LN_CFG_RX_USED k && x.fld R.LN_CFG_GROUP k == g
        let key (k : Nat) : Nat × Nat × Nat × Nat := (x.fld R.LN_CFG_MODE k, x.fld R.LN_CFG_RATE k, x.fld R.LN_CFG_FRAC k, x.fld R.LN_CFG_CADENCE k)
        need (decide (ms.length ≤ 8) && distinct (ms.map fun k => x.fld R.LN_CFG_MEMBER k) && ms.all (fun k => (ms.head?.map key) == some (key k))
          && decide (x.fld R.LN_GRP_CFG_WINDOW g ≤ 64)) ⟨12, 0, g⟩,
      need (decide (x.maxLanePower bonded ≤ 20 * ceil ∧ x.maxLanePower bonded ≤ 20 * num ((t.plan.sects.find? fun e => e.ty == 0x0E).map Sect.body |>.getD [])
        (12 + 32 * d.val) 4)) ⟨12, 0, d.val⟩]

/-! ### 0x0D POWER (R27, R28, R96, R103) -/

/-- The envelope of the variant in mW (R28). -/
def envelope (code : Nat) : Nat :=
  match variantRow code with
  | some i => 1000 * ([240, 240, 190, 190, 240, 240, 130, 130, 105, 105, 120, 120] : List Nat).getD i 0
  | none => 0

def State.powerCheck (s : State) (t : Trial) : Check :=
  match t.plan.sects.find? fun e => e.ty == 0x0E with
  | none => some ⟨13, 0, 0⟩
  | some e =>
    let b := e.body
    let vat := if s.die0.flag R.SY_VARIANT_GRADE then 52500 else 70000
    let lanes := if s.fld 0 R.SY_VARIANT_PACKAGE = 2 then 10000 else 20000
    let dies := if t.dual then [0, 1] else [0]
    let sum := dies.foldl (fun n d => n + ((List.range 6).map fun i => num b (4 + 32 * d + 4 * i) 4).sum) 0
    checks [
      checkAll dies fun d => need (([vat, 6000, lanes, 5000, 5000, 4000].zipIdx).all fun c => decide (num b (4 + 32 * d + 4 * c.2) 4 ≤ c.1)) ⟨13, e.index, d⟩,
      need (decide (num b 0 4 = sum ∧ sum ≤ envelope (s.fld 0 R.SY_VARIANT_CODE))) ⟨13, e.index, 0⟩,
      need (!t.brown || decide (num b 0 4 ≤ powerTotal ((t.old.map Plan.sects).getD []))) ⟨13, e.index, 0⟩]

/-! ### 0x0E RESERVE (R481) -/

/-- The runs of some kinds in one frame of a region, in order: line and first cycle. -/
def Sect.runsOf (s : Sect) (r l : Nat) (kinds : List Nat) : List (Nat × Nat) :=
  (List.range l).flatMap fun y => match s.patternAt r y with
    | some p =>
      let cs := (s.runs.filter fun u => u.region == r && u.pattern == p && kinds.contains u.kind).map fun u => u.first
      ((List.range 65536).filter fun c => cs.contains c).map fun c => (y, c)
    | none => []

/-- Every span that a run and the `k`-th after it bound, from the start of the first to the end of the last, is at most `2 m` half
nanoseconds of 1.9465 us: `k` runs later the last one has ended within `lim` (in ns by 2) of the first one's start. The windows open
within one vat cycle of their pulse, at a vat clock of `f` Hz. -/
def spaced (g : Grid) (f : Nat) (runs : List (Nat × Nat)) (width k lim : Nat) : Bool :=
  let n := runs.length
  -- times in units of 1 / (f x rate numerator x lines) s
  let at_ (i : Nat) : Nat := let e := runs.getD (i % n) (0, 0); (e.1 + i / n * g.l) * g.d * f + e.2 * g.n * g.l
  n != 0 && (List.range n).all fun i => decide ((at_ (i + k) + (width + 1) * g.n * g.l - at_ i) * 2000000000 ≤ lim * f * g.n * g.l)

/-- The four conditions of R481 for a region, at one vat clock: intervals in ns by 2. -/
def Sect.reserveOk (s : Sect) (g : Grid) (r f : Nat) : Bool :=
  let cool := 7786
  let hot := 3893
  let a := s.runsOf r g.l [3]
  let b := s.runsOf r g.l [3, 4]
  let c := s.runsOf r g.l [5]
  let m := 2 * cdiv 3115 (num s.body 36 2)
  ((List.range (a.length + 1)).all fun k => k == 0 || spaced g f a 192 k ((k + 8) * cool)) && !a.isEmpty && decide (2000000000 * g.d ≤ a.length * cool * g.n)
    && ((List.range (b.length + 1)).all fun k => k == 0 || spaced g f b 192 k ((k + 4) * hot)) && decide (2000000000 * g.d ≤ b.length * hot * g.n)
    && spaced g f b 192 76 (64 * hot) && spaced g f c 48 m cool

def Trial.reserveCheck (t : Trial) : Check :=
  t.each fun d x => checkAll (x.sectsOf 0x10) fun s => checkAll (List.range 16) fun r =>
    if s.owner r < 8 then
      need (match t.plan.grid d (s.owner r) with
        | some g => s.reserveOk g r 1198800000 && s.reserveOk g r 1201200000
        | none => false) ⟨14, s.index, r⟩
    else none

end Sys2Proof.Machine
end

