-- ==== Sys2Proof/Machine/Admit3.lean ====
section
/-! DEFINITION. Admission, third part: checks 0x0F to 0x12 of R90, and the checks in their order with the brownout alternative and
the fragment library (R90, R97, R103 to R107). -/

namespace Sys2Proof.Machine

/-! ### 0x0F BUDGET -/

/-- The delay that R202 and R203 give a channel, in lines of its cadence. -/
def Die.liveDelay (x : Die) (n : Nat) : Nat := 2 * x.encStep n + x.fld R.EN_TIMING_E_LINES n + (if (x.rendSource n).isSome then 3 else 0)

/-- Bins of the fill CTUs of a row: the codec's more costly picture (R237, R245). -/
def Die.fillBins (x : Die) (n : Nat) : Nat := x.encCtus n * (if x.encVvc n then 19 else 12)

/-- Lines from the end of the last row's E stage to stage 2 of the next picture's row 0 (R261); negative where it ends later. -/
def Die.lastRowGap (x : Die) (g : Grid) (n : Nat) : Int :=
  let next : Nat := if x.flag R.EN_CFG_INTERLACED n then min (fieldStart g.l 1) (g.l - fieldStart g.l 1) else g.l
  ((next + x.encWait n : Nat) : Int) - (((x.encRows n - 1) * x.encStep n + x.liveDelay n : Nat) : Int)

/-- Cycles of a window program that code bins: those of BINC, BINB and BINT in its course (R165, R173). -/
def TileSched.codingIn (s : TileSched) (i : Nat) : Nat :=
  ((s.course i).filter fun b => let c := bits (slotAlu b) 31 25; c == 0x60 || c == 0x61 || c == 0x62).length
/-- Coding cycles that each E tile of a channel's fragment gives a row over its e lines, the greatest of them; the least over the rows of
a frame of `l` lines (R202, R245; log entry 53). -/
def Die.codingCycles (x : Die) (n l : Nat) : Nat :=
  let tiles := ((x.recsOf 2 0x201).filter fun e => e.1.frag == x.encFrag n && tileType e.2.idx == .E).map fun e =>
    let s := tileSched e.2.idx e.2.body
    (s, (List.range s.progs.length).map s.codingIn)
  let lines (m : Nat) (e : TileSched × List Nat) : Nat := (List.range (x.fld R.EN_TIMING_E_LINES n)).foldl (fun k j =>
    k + ((e.1.progAt ((m + j) % max 1 l)).map fun i => e.2.getD i 0).getD 0) 0
  let rows := (List.range (x.picsPer n)).flatMap fun f => (List.range (x.encRows n)).map fun r =>
    tiles.foldl (fun k e => max k (lines (fieldStart l f + r * x.encStep n + x.encWait n + x.encStep n) e)) 0
  (rows.min?).getD 0

/-- The fixed delays and bins of an encode channel (R202, R203, R214, R245, R261, R551). -/
def Die.encBudget (x : Die) (g : Grid) (n : Nat) : Bool :=
  let e := x.fld R.EN_TIMING_E_LINES n
  let dl := x.fld R.EN_TIMING_DELAY n
  let gap := x.lastRowGap g n
  decide (24 ≤ e ∧ e ≤ x.encH n)
    && (if x.flag R.EN_TIMING_DEFERRED n then decide (x.liveDelay n ≤ dl ∧ dl ≤ min 8191 (4 * g.l)) else dl == x.liveDelay n)
    && decide (0 ≤ gap) && (!x.flag R.EN_CFG_INSTEP n || decide (2 * g.n * g.l ≤ gap.toNat * g.d * 1000000))
    && decide (x.fillBins n ≤ x.fld R.RC_BINS n ∧ x.fld R.RC_BINS n ≤ 2 * x.codingCycles n g.l)
    && !(x.fld R.RC_CFG_BINCAP n < x.fillBins n / max 1 (x.encCtus n))

/-- PTS_OFFSET of a TS flow (R369). -/
def Die.ptsOk (x : Die) (p : Plan) (d : DieId) (b : List Byte) : Bool :=
  let n := num b 12 2
  match p.grid d (x.fld R.EN_TIMING_CADENCE n) with
  | some g => decide (cdiv (x.fld R.EN_TIMING_DELAY n * g.d * 90000) (g.n * g.l) + x.fld R.RC_START n ≤ num b 48 4)
  | none => true

def Trial.budgetCheck (t : Trial) : Check :=
  let bodies := t.plan.sects.map Sect.body
  t.each fun d x => checks [
    checkAll (recsAt x 2 0x201) fun e =>
      let s := tileSched e.2.2.idx e.2.2.body
      need (match t.plan.grid d s.cadence with | some g => schedBudget s g | none => true) ⟨15, e.1.index, e.2.2.idx⟩,
    checkAll (x.sectsOf 3) fun s => checkAll s.dmaChans fun e => need (decide (1 ≤ num e 12 4 ∧ num e 12 4 ≤ 1048575)) ⟨15, s.index, num e 0 1⟩,
    checkAll (x.encs d) fun n => need (match t.plan.grid d (x.fld R.EN_TIMING_CADENCE n) with
      | some g => x.encBudget g n
      | none => true) ⟨15, 0, x.encFrag n⟩,
    checkAll (x.decs d) fun n => need (decide (Config.levelBins (x.flag R.CL_DC_CFG_CODEC n) (x.fld R.CL_DC_CFG_LEVEL n) (x.fld R.CL_DC_CFG_TIER n)
      (x.fld R.CL_DC_CFG_PROFILE n) ≤ x.dcBins n)) ⟨15, 0, n⟩,
    checkAll (x.encs d) fun n => checkAll ((List.range 7).filter fun l => decide (l < x.fld R.CH_CFG_LAYERS n) && x.flag R.CH_LSRC_VIDEO n l
      && x.flag R.CH_LSRC_SCALER n l && x.fld R.CH_LSRC_SRC n l == 0) fun l => need (Config.scaledEarly bodies n (l + 1)) ⟨15, 0, x.encFrag n⟩,
    checkAll ((x.encs d).filter fun n => x.fld R.CH_CFG_FLAT_MASK n != 0) fun n => need (Config.flattenFits bodies n) ⟨15, 0, x.encFrag n⟩,
    checkAll (x.recsOf 6 0x603) fun e => need (!(num e.2.body 0 1 == 5 || num e.2.body 0 1 == 6) || x.ptsOk t.plan d e.2.body) ⟨15, 0, e.2.idx⟩]

/-! ### 0x10 LINEBUF (R293, R295, R296) -/

/-- A die on trial with its inputs in place, so that their formats can be looked up. -/
def Die.seeded (x : Die) : Die :=
  let keys := (x.usedLanes.filter fun k => x.flag R.LN_CFG_RX_USED k) ++ (x.recsOf 6 0x602).map fun e => 512 + e.2.idx
  { x with lanes := { x.lanes with members := keys.foldl (fun m k => mput (fun _ => {}) m k { next := some 0 }) x.lanes.members } }

/-- The ratio of source to output length lies between the limits for every allowed value: least and greatest of each. -/
def ratioOk (up : Bool) (s o : Nat × Nat) : Bool := decide (1 ≤ s.1 ∧ 1 ≤ o.1 ∧ s.2 ≤ 8 * o.1) && (if up then decide (o.2 ≤ 8 * s.1) else decide (o.2 ≤ s.1))

/-- Samples per line of a scaler within its line buffer. -/
def bufferOk (x : Die) (n width : Nat) (paired : Bool) : Bool :=
  decide (width * (if x.flag R.CH_CFG_INT444 n then 3 else 2) ≤ if paired then 8192 else 16384)

/-- A content layer keeps the limits; `l` counts from 0. -/
def Die.layerBuf (x : Die) (d : DieId) (n l : Nat) : Bool :=
  let r (f : Fld) : Nat × Nat := (x.boundMin f n l, x.boundMax f n l)
  let w := r R.CH_LSIZE_W
  let h := r R.CH_LSIZE_H
  let cw := r R.CH_LCROP_SIZE_W
  let ch := r R.CH_LCROP_SIZE_H
  let int444 := x.flag R.CH_CFG_INT444 n
  let same := w.1 == w.2 && cw.1 == cw.2 && w.1 == cw.1 && h.1 == h.2 && ch.1 == ch.2 && h.1 == ch.1
    && (x.layerFmt d n (l + 1)).sampling == (if int444 then 1 else 0) && x.layerInterlaced d n (l + 1) == x.flag R.EN_CFG_INTERLACED n
  let recs := (x.recsOf 0xA 0xA03).filter fun e => num e.2.body 0 1 == n && num e.2.body 1 1 == l + 1
  if !x.flag R.CH_LSRC_VIDEO n l then !x.flag R.CH_LSRC_SCALER n l && x.fld R.CH_LSRC_SRC n l == 2
  else if !x.flag R.CH_LSRC_SCALER n l then same && recs.isEmpty
  else
    let paired := x.flag R.CH_LSRC_PAIRED n l
    decide (x.fld R.CH_LSRC_SRC n l ≤ 1) && recs.length == 1 && recs.all (fun e => (num e.2.body 2 1 == 1) == paired)
      && paired == (x.layerInterlaced d n (l + 1) && !x.flag R.EN_CFG_INTERLACED n)
      && ratioOk true cw w && ratioOk true ch h && bufferOk x n (min w.2 (x.fld R.EN_SIZE_WIDTH n)) paired

/-- A rendition keeps the limits. -/
def Die.rendBuf (x : Die) (n : Nat) : Bool :=
  match x.rendSource n, x.bodyOf 0xA 0xA04 n with
  | some s, some b =>
    (match x.bodyOf 0xA 0xA03 (num b 1 1) with | some e => num e 0 1 == n && num e 1 1 == 0 && num e 2 1 == 0 | none => false)
      && ratioOk false (x.fld R.EN_SIZE_WIDTH s, x.fld R.EN_SIZE_WIDTH s) (x.fld R.EN_SIZE_WIDTH n, x.fld R.EN_SIZE_WIDTH n)
      && ratioOk false (x.fld R.EN_SIZE_HEIGHT s, x.fld R.EN_SIZE_HEIGHT s) (x.fld R.EN_SIZE_HEIGHT n, x.fld R.EN_SIZE_HEIGHT n)
      && bufferOk x s (x.fld R.EN_SIZE_WIDTH n) false
  | _, _ => true

/-- The phases of a coefficient set sum to 256 (R295). -/
def coefOk (b : List Byte) : Bool :=
  let taps := num b 0 1
  (List.range 64).all fun p =>
    let cs := (List.range taps).map fun i => numS b (8 + 2 * (p * taps + i)) 2
    cs.all (fun c => decide (-512 ≤ c ∧ c ≤ 511)) && cs.foldl (· + ·) 0 == 256

def Trial.linebufCheck (t : Trial) : Check :=
  t.each fun d x0 =>
    let x := x0.seeded
    let taps (i : Nat) : Option Nat := (x.bodyOf 0xA 0xA02 i).map fun b => num b 0 1
    checks [
      eachRec x 0xA 0xA02 16 fun r => coefOk r.body,
      eachRec x 0xA 0xA03 16 fun r => taps (num r.body 3 1) == some 8 && taps (num r.body 4 1) == some 6,
      checkAll (x.encs d) fun n => need ((x.flag R.EN_CFG_RENDITION n || (List.range (x.fld R.CH_CFG_LAYERS n)).all fun l => x.layerBuf d n l)
        && x.rendBuf n) ⟨16, 0, n⟩,
      checkAll (x.encs d) fun n => need (decide ((((x.encs d).filter fun m => x.rendSource m == some n)).length ≤ 8)) ⟨16, 0, n⟩]

/-! ### 0x11 GATES (R370, R396, R400) -/

/-- A gate list keeps R396. -/
def gateListOk (p : Plan) (d : DieId) (b : List Byte) : Bool :=
  let es := (chunks 8 (num b 2 2) (b.drop 16)).map fun e => num e 4 4
  let cycle := num b 12 4
  es.foldl (· + ·) 0 == cycle
    && if num b 0 1 = 0 then es.all (fun v => decide (64 ≤ v ∧ v ≤ 2 ^ 30 - 1)) && decide (1000 ≤ cycle ∧ cycle ≤ 1000000000)
      else es.all (fun v => decide (1 ≤ v)) && cycle % 65536 == 0 && decide (1 ≤ cycle / 65536 ∧ cycle / 65536 ≤ 65535)
        && match p.grid d (num b 1 1) with
          | some g => decide (cycle / 65536 * g.d ≤ g.n * g.l)
          | none => false

def Trial.gatesCheck (t : Trial) : Check :=
  t.each fun d x => checks [
    eachRec x 8 0x801 17 fun r => gateListOk t.plan d r.body,
    checkAll (x.recsOf 8 0x801) fun e => need ((x.bodyOf 8 0x801 (e.2.idx / 4 * 4)).isSome) ⟨17, 0, e.2.idx / 4⟩,
    checkAll (uniq ((x.recsOf 8 0x801).map fun e => e.2.idx / 4)) fun sp => need ((x.gateLists sp).all fun l => x.gateFeeds t.plan d sp l) ⟨17, 0, sp⟩,
    checkAll (x.recsOf 6 0x603) fun e => need (x.departsOk t.plan d e.2.idx) ⟨17, 0, e.2.idx⟩]

/-! ### 0x12 BOUNDS (R85) -/

/-- A register of a compare unit. -/
def cmpAddr (a : Nat) : Bool := decide (0x20400 ≤ a ∧ a < 0x20800)
/-- The field that an address and a mask name. -/
def lockField (a m : Nat) : Option (FieldDesc) :=
  match findReg a with
  | some (r, _, _) => r.fields.find? fun f => f.ty == .rwL && f.mask == m
  | none => none

/-- A die as a plan starts it has the item of a register's window: what the plan claims or configures (R16, R81, R226). -/
def Die.hasItem (x : Die) (d : DieId) (dual : Bool) (c : Claim) (i : Nat) : Bool :=
  match c with
  | .free | .ck | .hb | .pn => true
  | .en => (x.encs d).contains i
  | .pool => (x.recOf 0xC 0xC01 i).isSome
  | .dc => (x.recOf 0xB 0xB02 i).isSome
  | .fs => (x.recOf 0xB 0xB03 i).isSome
  | .ln => x.flag R.LN_CFG_RX_USED i || x.flag R.LN_CFG_TX_USED i
  | .sp | .gate => x.flag R.NW_SP_CFG_USED i
  | .rxf => (x.recOf 6 0x602 i).isSome
  | .txf => (x.recOf 6 0x603 i).isSome
  | .sq => x.flag R.TQ_Q_CFG_USED i
  | .sh => x.flag R.TQ_SH_CFG_USED i
  | .wq => x.flag R.TQ_W_CFG_USED i
  | .pol => (x.recOf 7 0x703 i).isSome
  | .aup => x.flag R.AU_P_CFG_RX_USED i || x.flag R.AU_P_CFG_TX_USED i
  | .asrc => x.flag R.AU_ASRC_CFG_USED i
  | .aug => (x.recOf 9 0x901 i).isSome
  | .aum => x.flag R.AU_MAP_CFG_USED i
  | .dm => x.flag R.DM_CH_CFG_USED i
  | .dsq => x.flag R.DM_SQ_CFG_USED i
  | .mr => dual
  | .sc0 => d == 0

/-- The range of a lock-bounds entry fits what the plan claims (R90): the plan has the item that the register serves, its ends keep
the range that the register states, and every gate list that it lets a sub-port take is one of the plan's. -/
def Die.boundFits (x : Die) (d : DieId) (dual : Bool) (e : List Byte) : Bool :=
  match findReg (num e 0 4), lockField (num e 0 4) (num e 4 4) with
  | some (r, i, _), some f =>
    let lo := num e 8 4
    let hi := num e 12 4
    x.hasItem d dual r.claim i && r.inRange (lo * 2 ^ f.lo ||| ((x.reg (num e 0 4)).toNat &&& (2 ^ 32 - 1 - f.mask)))
      && r.inRange (hi * 2 ^ f.lo ||| ((x.reg (num e 0 4)).toNat &&& (2 ^ 32 - 1 - f.mask)))
      && (!(cmpAddr (num e 0 4)) || ownsUnit x.live i)
      && (r.base != 0x190104 || (List.range 4).all fun l => decide (l < lo ∨ hi < l) || (l - lo) % max 1 (num e 16 4) != 0 || (x.bodyOf 8 0x801 (4 * i + l)).isSome)
  | _, _ => false

/-- A lock-bounds entry keeps R85. -/
def Die.boundOk (x : Die) (p : Plan) (e : List Byte) : Bool :=
  match lockField (num e 0 4) (num e 4 4) with
  | none => false
  | some f =>
    let w := f.hi - f.lo + 1
    let v (n : Nat) : Int := if bit (num e 20 1) 0 then sgn w n else (n : Int)
    let cur := v (f.get (x.reg (num e 0 4)).toNat)
    decide (num e 8 4 < 2 ^ w ∧ num e 12 4 < 2 ^ w ∧ 1 ≤ num e 16 4 ∧ v (num e 8 4) ≤ cur ∧ cur ≤ v (num e 12 4))
      && (cur - v (num e 8 4)) % (num e 16 4 : Nat) == 0 && (num e 22 2 == 0 || (fragsOf p.sects).contains (num e 22 2))

def Trial.boundsCheck (t : Trial) : Check :=
  t.each fun d x => checkAll (x.sectsOf 0xF) fun s => checkAll (s.entries 24).zipIdx fun e =>
    need (x.boundOk t.plan e.1 && x.boundFits d t.dual e.1) ⟨18, s.index, e.2⟩

/-! ### The checks in order -/

/-- Checks 0x06 to 0x12. -/
def State.laterChecks (s : State) (t : Trial) : Check :=
  checks [s.baseCheck t, t.timingCheck, t.combinationCheck, s.resourceCheck t, s.crossCheck t, s.capacityCheck t, s.lanesCheck t,
    s.powerCheck t, t.reserveCheck, t.budgetCheck, t.linebufCheck, t.gatesCheck, t.boundsCheck]

/-- Checks 0x06 to 0x12 of a plan body on a plan; the power declaration is the body's own. -/
def State.bodyChecks (s : State) (p : Plan) (b : List Byte) (brown : Bool) : Check :=
  s.laterChecks (s.trial (bodyPlan p b) (some p) (bodySects b) true brown)

/-- 0x13 BROWNOUT on a plan: its own alternative, or the running one's. -/
def State.brownoutCheck (s : State) (p : Plan) : Check :=
  match p.brownout with
  | some e => (s.bodyChecks p e.body true).map fun f => ⟨19, e.index, f.code⟩
  | none => none
/-- 0x15 LIBRARY. -/
def State.libraryCheck (s : State) (p : Plan) : Check :=
  match p.library with
  | some e => checkAll e.library fun b => (s.bodyChecks p b.2 false).map fun _ => ⟨21, e.index, b.1⟩
  | none => none

/-- The whole admission of an image on the plans as they stand: the plan that results, or the first check that fails (R90, R97). -/
def State.admission (s : State) (b : List Byte) : Fail ⊕ Plan :=
  let full := num b 6 2 == 0
  let old := s.pkg.plans.running
  let change := if full then [] else imageSects b
  match formatCheck s.dual b with
  | some f => .inl f
  | none =>
    let p := match full, old with
      | false, some o => partialPlan o b
      | _, _ => fullPlan b
    let t := s.trial p old change false false
    let base : Check := need (full || num b 0x10 4 == ((old.map Plan.id).getD 0)) ⟨6, 0, 0⟩
    match checks [if full || base.isNone && old.isSome then t.formatCheck else none, s.signatureCheck b, s.rollbackCheck b, contractCheck b, s.variantCheck t, base, s.laterChecks t,
        s.brownoutCheck p, if full then s.libraryCheck p else none] with
    | some f => .inl f
    | none => .inr p

/-- The check of a library entry on the running plan (R107): checks 0x06 to 0x13. -/
def State.entryAdmission (s : State) (num_ : Nat) : Fail ⊕ Plan :=
  match s.pkg.plans.running with
  | none => .inl ⟨6, 0, 0⟩
  | some o =>
    match ((o.library.map Sect.library).getD []).find? fun e => e.1 == num_ with
    | none => .inl ⟨6, 0, num_⟩
    | some e =>
      let p := bodyPlan o e.2
      match checks [s.bodyChecks o e.2 false, s.brownoutCheck p] with
      | some f => .inl f
      | none => .inr p

end Sys2Proof.Machine
end

