-- ==== Sys2Proof/Machine/Switch.lean ====
section
/-! DEFINITION. What moving fragments from one plan to the next does to a die (R98 to R104): which instances carry on, which start
again, and what every register and every block keeps. When the cadences move is in Machine/Plans.lean. -/

namespace Sys2Proof.Machine

/-! ### Instances and their owners -/

/-- What happens to a fragment, or to an instance that it configures, at a move. -/
inductive Cross
  /-- it does not move now -/
  | stay
  /-- it keeps running without disturbance (R98) -/
  | keep
  /-- it is replaced and takes over what the old one held (R101) -/
  | cont
  /-- it ends, and what the new plan puts in its place starts -/
  | restart
  deriving DecidableEq, Repr

/-- A move of fragments on one die. -/
structure Move where
  d : DieId
  /-- The plan that the die moves to. -/
  target : Plan
  /-- What happens to each fragment that moves. -/
  cross : Nat → Cross
  /-- The fragments that move now; 0 stands for the plan-wide sections. -/
  moves : Nat → Bool
  /-- A full plan takes over. -/
  full : Bool
  /-- Nothing of the old plan is left on the die afterwards. -/
  last : Bool
  /-- Supervisor time by which a thread of the old plan is ended (R528). -/
  endAt : Nat
  /-- The sub-ports, PTP and the Silcel port stay as they are (R625). -/
  keepPorts : Bool := false
  /-- It is part of a plan switch: a compare unit that the new plan no longer owns is disarmed with the old plan's master cadence
  (R67). -/
  switching : Bool := false

/-- The fragment that owns an instance: the first that names it, 0 where only a plan-wide section does. -/
def ownerOf (d : DieId) (ss : List Sect) (i : Inst) : Option Nat :=
  let l := ss.filter fun s => (s.insts d).contains i
  match l.find? fun s => s.frag != 0 with
  | some s => some s.frag
  | none => l.head?.map Sect.frag

/-- Two dies as plans start them configure an instance alike. -/
def sameInst (fo fn : Die) (i : Inst) : Bool :=
  (i.windows.all fun w => (List.range (w.2 / 4)).all fun k => fo.reg (w.1 + 4 * k) == fn.reg (w.1 + 4 * k))
    && (i.kind != .thread || fo.th i.n == fn.th i.n) && (i.kind != .chan || fo.chan i.n == fn.chan i.n)
    && (i.kind != .tile || fo.sched i.n == fn.sched i.n)

/-- The sections in force after a move. -/
def Move.sects (m : Move) (old : List Sect) : List Sect :=
  if m.last then m.target.on m.d else old.filter (fun s => !m.moves s.frag) ++ (m.target.on m.d).filter fun s => m.moves s.frag

/-- What a move does to an instance. Lane blocks and sub-ports are never started again, and an instance of plan-wide sections
carries on where the new plan configures it alike; a plan-wide thread belongs to its plan (R528, log entry 53). -/
def Move.fate (m : Move) (old new : List Sect) (fo fn : Die) (i : Inst) : Cross :=
  if i.kind = .block ∨ i.kind = .subport then .stay
  else match ownerOf m.d old i, ownerOf m.d new i with
    | none, none => .stay
    | some a, some b =>
      if a ≠ b then .restart
      else if !m.moves a then .stay
      else if a ≠ 0 then m.cross a
      else if sameInst fo fn i ∧ !(m.full && i.kind == .thread) then .stay else .restart
    | _, _ => .restart

/-! ### Registers (R98, R102) -/

/-- Counters that a full plan clears as it starts: first word, last word, stride and instances of each family. -/
def planCounters : List (Nat × Nat × Nat × Nat) :=
  [(0x30028, 0x30028, 4, 1), (0x4000C, 0x4001C, 32, 1), (0xA000C, 0xA0018, 16, 1), (0x100024, 0x10003C, 0x200, 512),
   (0x141008, 0x14100C, 0x10, 512), (0x180010, 0x180014, 8, 1), (0x180110, 0x180114, 8, 1), (0x18011C, 0x180120, 8, 1),
   (0x181018, 0x181038, 0x100, 8), (0x18400C, 0x18401C, 0x20, 1024), (0x18C004, 0x18C004, 0x10, 1024), (0x18C00C, 0x18C00C, 0x10, 1024),
   (0x190008, 0x190008, 4, 1), (0x190110, 0x190114, 0x20, 8), (0x19040C, 0x19040C, 0x10, 64), (0x19C000, 0x19C000, 4, 4096),
   (0x1B0008, 0x1B0008, 4, 1), (0x1B0118, 0x1B0118, 0x20, 16), (0x1B1008, 0x1B100C, 0x10, 256), (0x1C000C, 0x1C000C, 4, 1),
   (0x1C0050, 0x1C0064, 32, 1), (0x1C0104, 0x1C010C, 0x10, 16), (0x1D1010, 0x1D1010, 0x40, 128), (0x1D101C, 0x1D1028, 0x40, 128),
   (0x1E0124, 0x1E0124, 0x40, 64), (0x1E012C, 0x1E0134, 0x40, 64), (0x1F0014, 0x1F0020, 16, 1), (0x1F0104, 0x1F0110, 0x20, 8),
   (0x200010, 0x200024, 32, 1), (0x200108, 0x200110, 0x20, 8), (0x240030, 0x24003C, 16, 1)]
/-- A register holds a counter that only a full plan clears. -/
def planCounter (a : Nat) : Bool :=
  planCounters.any fun w => decide (w.1 ≤ a ∧ (a - w.1) / w.2.2.1 < w.2.2.2 ∧ (a - w.1) % w.2.2.1 ≤ w.2.1 - w.1)
/-- The counters cleared as a full plan starts on a die; the margins of its cadences start from the most that they can show
(R145, log entry 53). -/
def Die.clearCounters (x : Die) : Die :=
  let x := (x.regs.filter fun e => planCounter e.1).foldl (fun x e => x.setReg e.1 0) x
  (List.range 8).foldl (fun x c => x.setFld R.VT_CAD_MARGIN_MARGIN 0xFFFF c) x

/-- A lock-bounds entry allows a value of a field of `w` bits (R85, R108). -/
def boundAllows (e : List Byte) (w v : Nat) : Bool :=
  let i (n : Nat) : Int := if bit (num e 20 1) 0 then sgn w n else (n : Int)
  decide (i (num e 8 4) ≤ i v ∧ i v ≤ i (num e 12 4)) && (i v - i (num e 8 4)) % ((max 1 (num e 16 4) : Nat) : Int) == 0

/-- A field of an instance that is not started again, with the number of fields that R102 resets: `c` now, `o` and `n` as the two
plans start it; `stay` where its fragment does not move. -/
def keepField (fn : Die) (stay : Bool) (a : Nat) (f : FieldDesc) (c o n : Nat) : Nat × Nat :=
  if f.ty = .rwL ∧ !stay then
    let open_ : Bool := match fn.boundOf a f.hi f.lo with | some e => boundAllows e (f.hi - f.lo + 1) c | none => false
    if c = n ∨ open_ then (c, 0) else (n, 1)
  else (if o ≠ n then n else c, 0)

/-- A register after a move: its word, and the fields that R102 resets. -/
def Move.word (x fo fn : Die) (a : Nat) (fate : Cross) (owned : Bool) : W32 × Nat :=
  let c := x.reg a
  let o := fo.reg a
  let n := fn.reg a
  match fate, findReg a with
  | .restart, some (r, _, _) =>
    if owned ∧ (planCounter a ∨ r.fields.any fun f => f.ty == .w1c) then (c, 0) else (n, 0)
  | .restart, none => (n, 0)
  | _, none => (c, 0)
  | _, some (r, _, _) =>
    r.fields.foldl (fun w f =>
      let v := keepField fn (fate == .stay) a f (f.get c.toNat) (f.get o.toNat) (f.get n.toNat)
      (putBits w.1 f.hi f.lo v.1, w.2 + v.2)) (c, 0)

/-- Registers that no move of fragments touches: SY_VARIANT, the TB and PL blocks, and the pails; a compare unit of a CONTINUE
fragment apart, whose fields meet R102. -/
def outsideMove (a : Nat) (fate : Cross) : Bool :=
  !(cmpAddr a && fate == .cont) && (a == 4 || decide (0x20000 ≤ a ∧ a < 0x40000) || decide (0x200100 ≤ a ∧ a < 0x200200))

/-- Registers of the sub-ports, of PTP and of Silcel, which a plan reset leaves (R625). -/
def portRegs (a : Nat) : Bool := decide (0x180000 ≤ a ∧ a < 0x182000) || decide (0x1A0000 ≤ a ∧ a < 0x1B0000)

/-- The registers of a die after a move, and the fields that R102 resets. -/
def Move.regs (m : Move) (x fo fn : Die) (old new : List Sect) : Die × Nat :=
  let ks := uniq ((x.regs ++ fo.regs ++ fn.regs).map Prod.fst)
  (ks.filter fun a => !(m.keepPorts && portRegs a)).foldl (fun (y : Die × Nat) a =>
    let fate := match instAt a with | some i => m.fate old new fo fn i | none => .stay
    if outsideMove a fate then y
    else
      let r := Move.word x fo fn a fate (match instAt a with | some i => (ownerOf m.d new i).isSome | none => true)
      (y.1.setReg a r.1, y.2 + r.2)) (x, 0)

/-! ### What the blocks keep -/

/-- One key taken from another map. -/
def mtake {α : Type} [DecidableEq α] (dflt : Nat → α) (dest from_ : Map α) (k : Nat) : Map α := mput dflt dest k (mget dflt from_ k)
/-- The keys from `lo` on, `n` of them, dropped. -/
def mdrop {α : Type} (m : Map α) (lo n : Nat) : Map α := m.filter fun e => decide (e.1 < lo ∨ lo + n ≤ e.1)

/-- A queue of the new plan keeps the packets of the frame that the old fragment completes. -/
def Die.takeQueue (x fn : Die) (q : QId) : Die :=
  x.setQueue q { pkts := if fn.queueUsed q then (x.queue q).pkts else [] }

/-- A lane starts again: its cable and its power states stay, and its lock and acquisition where it is configured as before. -/
def Die.takeLane (x was fn : Die) (k : Nat) : Die :=
  let base := 0x100000 + 0x200 * k
  let same := was.reg base == fn.reg base && was.fld R.LN_NRATE_KBPS k == fn.fld R.LN_NRATE_KBPS k && (was.lane k).presets == (fn.lane k).presets
  let f := fn.lane k
  let o := was.lane k
  let put (x : Die) (g : Fld) : Die := x.setFld g (was.fld g k) k
  let x := { x with lanes := { x.lanes with members := mdrop x.lanes.members k 1, staging := mdrop x.lanes.staging (8192 * k) 8192
                                            held := mdrop x.lanes.held (8192 * k) 8192 } }
  let x := ([R.LN_STATUS_CABLE, R.LN_STATUS_WAKING, R.LN_STATUS_BIST, R.LN_STATUS_RX_NOW, R.LN_STATUS_TX_NOW] : List Fld).foldl put x
  if same then
    let x := ([R.LN_STATUS_LOCK, R.LN_STATUS_FMT_OK, R.LN_STATUS_EYE_LOW, R.LN_EQ_PRESET, R.LN_EQ_VALID, R.LN_EQ_FOM, R.LN_EQ_PEER] : List Fld).foldl put x
    x.modLane k fun _ => { f with stored := o.stored, attempt := o.attempt, syncs := o.syncs, misses := o.misses, wake := o.wake
                                  fmtSeen := o.fmtSeen }
  else x.modLane k fun _ => { f with wake := o.wake }

/-- A DMA channel starts again: one that runs ends at its next instruction boundary (R505). -/
def Die.takeChan (x was fn : Die) (d : DieId) (n : Nat) : Die :=
  let f := fn.chan n
  if was.chState n = 1 then
    let x := (x.setFld R.DM_CH_STATUS_STATE 1 n).modChan n fun c =>
      { c with ending := true, pendDepths := [], words := f.words, budget := f.budget, units := f.units, frag := f.frag }
    if x.dmaReady n then x.dmaEnd d n else x
  else (x.dropOpen d n).modChan n fun _ => f

/-- The pools of an instance that starts are allocated: the padding of their slots is 0 (R257). -/
def Die.allocate (x fn : Die) (d : DieId) (i : Inst) : Die :=
  let mib (v : Nat) : Nat := v * 2 ^ 20
  match i.kind with
  | .enc => x.setCells (clearPool x.dram.view (fn.encFmt i.n) (fn.encBase i.n 0) (mib (fn.fld R.CL_EC_POOL_SLOT_MIB i.n)) (fn.fld R.CL_EC_POOL_SLOTS i.n))
  | .dec => x.setCells (clearPool x.dram.view (fn.decFmt i.n) (fn.decBase i.n 0) (fn.decSlot i.n) (fn.fld R.CL_DC_CFG_SLOTS i.n))
  | .store => match fn.bodyOf 0xB 0xB03 i.n with
    | some b => x.setCells (clearPool x.dram.view (fn.storeFmt d i.n) (fn.storeBase i.n 0) (mib (num b 8 2)) 3)
    | none => x
  | _ => x

/-- An instance starts again: what its block keeps is what the new plan starts it with. -/
def Die.takeInst (x was fn : Die) (d : DieId) (i : Inst) : Die :=
  let n := i.n
  let x := x.allocate fn d i
  match i.kind with
  | .enc =>
    let x := { x with enc := { x.enc with chans := mtake (fun _ => {}) x.enc.chans fn.enc.chans n }
                      churn := mtake (fun _ => {}) x.churn fn.churn n }
    x.modMr fun r => { r with slice := mdrop r.slice n 1, clean := mdrop r.clean n 1
                              own := r.own.filter fun c => c.chan != n, theirs := r.theirs.filter fun c => c.chan != n }
  | .pool => { x with enc := { x.enc with poolPend := mdrop x.enc.poolPend n 1 } }
  | .dec => { x with cellar := { x.cellar with decs := mtake (fun _ => {}) x.cellar.decs fn.cellar.decs n } }
  | .store => { x with cellar := { x.cellar with stores := mtake (fun _ => {}) x.cellar.stores fn.cellar.stores n } }
  | .lane => x.takeLane was fn n
  | .rx =>
    { x with nw := { x.nw with rx := mdrop x.nw.rx n 1 }
             lanes := { x.lanes with members := mdrop x.lanes.members (512 + n) 1, staging := mdrop x.lanes.staging (8192 * (512 + n)) 8192 } }
  | .tx => { x with nw := { x.nw with tx := mtake (fun _ => {}) x.nw.tx fn.nw.tx n }, dma := { x.dma with entries := mdrop x.dma.entries n 1 } }
  | .gates => { x with tq := { x.tq with gates := mtake (fun _ => {}) x.tq.gates fn.tq.gates n } }
  | .strict => x.takeQueue fn ⟨n, false⟩
  | .weighted => x.takeQueue fn ⟨n, true⟩
  | .shaper => { x with tq := { x.tq with shapers := mtake (fun _ => {}) x.tq.shapers fn.tq.shapers n } }
  | .policer => { x with tq := { x.tq with policers := mtake (fun _ => {}) x.tq.policers fn.tq.policers n } }
  | .port => { x with au := { x.au with ports := mdrop x.au.ports n 1 } }
  | .asrc => { x with au := { x.au with asrcs := mtake (fun _ => {}) x.au.asrcs fn.au.asrcs n } }
  | .augrp => { x with au := { x.au with members := mdrop x.au.members (16 * n) 16 } }
  | .map => { x with au := { x.au with mutes := mtake (fun _ => {}) x.au.mutes fn.au.mutes n } }
  | .tile => { x with tiles := mdrop x.tiles n 1 }
  | .chan => x.takeChan was fn d n
  | .stream => { x with dma := { x.dma with streams := mdrop x.dma.streams n 1 } }
  | .scaler | .group | .block | .subport | .core | .thread | .compare | .pail => x

/-- An instance carries on under the new plan: what the plan alone gives its block. -/
def Die.contInst (x was fn : Die) (i : Inst) : Die :=
  let n := i.n
  match i.kind with
  | .enc => x.modEnc n fun c => { c with frag := (fn.enc' n).frag }
  | .lane => x.modLane n fun v => { v with presets := (fn.lane n).presets }
  | .shaper => x.modShaper n fun v => { v with ratio := (fn.shaper n).ratio }
  | .tile => if was.sched n = fn.sched n then x else { x with tiles := mdrop x.tiles n 1 }
  | .chan =>
    let f := fn.chan n
    x.modChan n fun c => { c with words := f.words, budget := f.budget, units := f.units, frag := f.frag }
  | .thread =>
    let f := fn.th n
    x.modTh n fun t => { t with claimed := f.claimed, core := f.core, prio := f.prio, entry := f.entry, stack := f.stack
                                firstLine := f.firstLine, period := f.period, budget := f.budget, reload := f.reload
                                resident := f.resident, restart := f.restart, frag := f.frag }
  | .pool | .dec | .store | .scaler | .group | .block | .subport | .rx | .tx | .gates | .strict | .weighted | .policer | .port | .asrc
  | .augrp | .map | .core | .stream | .compare | .pail => x

/-! ### Where a new fragment starts (R98) -/

/-- The line of a cadence at which what starts on it starts: its first frame boundary from its next pulse on; 0 where it is not
active. -/
def Die.startLine (x : Die) (c : Nat) : Int := match x.grid c with
  | some g => g.boundaryFrom (x.cad c).next
  | none => 0
/-- Its instant. -/
def Die.startTime (x : Die) (c : Nat) : Nat := match x.grid c with
  | some g => g.instant (x.startLine c)
  | none => x.clk.now

/-- A member expects its first line. -/
def Die.startMem (x : Die) (r : MemRef) : Die := x.modMem r fun v => { v with next := some (x.startLine (x.memCad r)) }

/-- An instance that the plan starts takes its first positions from its cadence's boundary. -/
def Die.startInst (x : Die) (d : DieId) (now : Nat) (i : Inst) : Die :=
  let n := i.n
  match i.kind with
  | .lane => if x.flag R.LN_CFG_RX_USED n ∧ (x.sdiFormat d n).isSome then x.startMem ⟨false, n⟩ else x
  | .rx =>
    let k := x.fld R.NW_RX_CFG_KIND n
    let x := { x with nw := { x.nw with rx := mmod (fun _ => {}) x.nw.rx n fun v => { v with pathAt := (now, now) } } }
    if k = 0 ∨ k = 4 then x.startMem ⟨true, n⟩ else x
  | .tx =>
    let c := x.fld R.NW_TX_CFG_CADENCE n
    let m := x.startLine c
    let p := auFrom (x.txAudioFs n) (x.startTime c)
    let k : Int := x.txSamples n
    x.modTx n fun v => { v with frame := (match x.grid c with | some g => g.frame m | none => 0), k := 0
                                pos := (p + k - 1) / k * k, start := m * 65536 }
  | .augrp =>
    let p := auFrom (x.auFs n) (x.startTime (x.fld R.AU_GRP_CFG_CADENCE n))
    (x.auRefs.filter fun r => r.g == n).foldl (fun x r => x.modAu n r.m fun v =>
      { v with member := { v.member with next := some p } }) x
  | _ => x

/-- The cross-die stream starts where the claims newly say that the die receives it, and ends where they no longer do (R22, R535). -/
def Die.startXs (x : Die) (d : DieId) : Die :=
  let r : MemRef := ⟨true, 1024⟩
  if !x.xsReceives d then
    if (x.mem r).next.isNone then x
    else { x with lanes := { x.lanes with members := mdrop x.lanes.members 1536 1, staging := mdrop x.lanes.staging (8192 * 1536) 8192 } }.setFld
      R.MR_STATUS_XSTREAM_OK 0
  else if (x.mem r).next.isSome then x
  else (x.startMem r).setFld R.MR_STATUS_XSTREAM_OK 1

/-- The cadence on which an instance starts. -/
def Die.instCad (x : Die) (i : Inst) : Option Nat :=
  match i.kind with
  | .lane => some (x.fld R.LN_CFG_CADENCE i.n)
  | .rx => some (x.fld R.NW_RX_CFG_CADENCE i.n)
  | .tx => some (x.fld R.NW_TX_CFG_CADENCE i.n)
  | .augrp => some (x.fld R.AU_GRP_CFG_CADENCE i.n)
  | _ => none

/-- A cadence has become active: everything live on it starts at its first boundary. -/
def Die.startCad (x : Die) (d : DieId) (now c : Nat) : Die :=
  ((uniq (x.live.flatMap fun s => s.insts d)).filter fun i => x.instCad i == some c).foldl (fun x i => x.startInst d now i) x

/-! ### The move -/

/-- A thread at a move (R528): one of a stopping fragment that has work in hand is ended at its next kernel call or at `endAt`. -/
def Die.moveThread (x fn : Die) (endAt n : Nat) : Die :=
  let t := x.th n
  if t.claimed ∧ t.state ≠ .idle ∧ t.state ≠ .stopped then x.modTh n fun t => { t with ending := some endAt, pending := 0 }
  else (x.modTh n fun _ => fn.th n).restall (fn.th n).core

/-- A compare unit takes its words of R74 at a move: those of its entry in the new plan (R67, R86). -/
def Die.cmpWords (x fn : Die) (u : Nat) : Die :=
  (List.range 4).foldl (fun x i => x.setReg (0x20400 + 16 * u + 4 * i) (fn.reg (0x20400 + 16 * u + 4 * i))) x

/-- A compare unit that moves (R67, R86, R102): one that the new plan owns takes the words of its entry, whatever becomes of its
fragment, a CONTINUE fragment's fields apart, which met R102 with the registers; one that it does not own is disarmed, at a plan
switch with the old plan's master cadence. -/
def Move.compare (m : Move) (fn : Die) (fate : Cross) (owner : Option Nat) (u : Nat) (s : State) : State :=
  match owner, fate with
  | some _, .restart | some _, .keep => (s.upd m.d fun x => x.cmpWords fn u).cmpWritten m.d u
  | some f, .stay => if m.full ∧ m.moves f then (s.upd m.d fun x => x.cmpWords fn u).cmpWritten m.d u else s
  | some _, .cont => s.cmpWritten m.d u
  | none, .restart => if m.switching then s else s.setFld m.d R.TB_CMP_CTRL_ARM 0 u
  | none, _ => s

/-- The lanes whose power states a move has set take them. -/
def State.moveLane (s : State) (d : DieId) (k : Nat) : State :=
  let x := s.die d
  let s := (s.lnPower d k false (x.laneBist k) (x.fld R.LN_PWR_RX_STATE k)).lnPower d k true (x.laneBist k) (x.fld R.LN_PWR_TX_STATE k)
  if x.fld R.LN_XPT_KIND k = 1 then s.upd d fun x => x.lnMute k else s

/-- Lanes of a block whose reference clock a move changes lose the lock of that PLL (R348). -/
def Die.moveBlocks (x was : Die) : Die :=
  (List.range 32).foldl (fun x b =>
    let x := if was.fld R.LN_BLK_A_REFCLK b = x.fld R.LN_BLK_A_REFCLK b then x else x.setFld R.LN_BLK_A_LOCK 0 b
    if was.fld R.LN_BLK_B_REFCLK b = x.fld R.LN_BLK_B_REFCLK b then x else x.setFld R.LN_BLK_B_LOCK 0 b) x

/-- The controller schedules a region itself until the first window of an owner that is new to it, and always where it has none
(R470, R487). -/
def Die.moveRegions (x was : Die) : Die :=
  (List.range 16).foldl (fun x r =>
    if x.regionOwner r = was.regionOwner r ∧ x.regionOwner r < 8 then x else x.setFld R.MC_REG_STATE_SELF 1 r) x

/-- A move of fragments on a die. -/
def Move.run (m : Move) (s : State) : State :=
  let d := m.d
  let was := s.die d
  let old := was.live
  let new := m.sects old
  let fo := was.configured d m.target old
  let fn := was.configured d m.target new
  let is := uniq ((old ++ new).flatMap fun e => e.insts d)
  let fate := m.fate old new fo fn
  let again := is.filter fun i => fate i == .restart
  let moved := again.filter fun i => i.kind == .lane && was.reg (0x100000 + 0x200 * i.n) != fn.reg (0x100000 + 0x200 * i.n)
  let s := moved.foldl (fun s i => s.unlock d i.n) s
  let was := s.die d
  let r := m.regs was fo fn old new
  let x : Die := { r.1 with live := new, bundles := fn.bundles, dma := { r.1.dma with store := fn.dma.store }, par := { r.1.par with spill := fn.par.spill } }
  let x := x.remask was
  let x := again.foldl (fun x i => x.takeInst was fn d i) x
  let x := (is.filter fun i => fate i == .cont || fate i == .keep).foldl (fun x i => x.contInst was fn i) x
  let x := (again.filter fun i => i.kind == .thread).foldl (fun x i => x.moveThread fn m.endAt i.n) x
  let x := ((again.filter fun i => (ownerOf d new i).isSome).foldl (fun x i => x.startInst d s.now i) x).startXs d
  let x := (List.range 8).foldl (fun x c => x.restall c) ((x.moveBlocks was).moveRegions was)
  let s := s.setDie d x
  let s := (is.filter fun i => i.kind == .compare).foldl (fun s i => m.compare fn (fate i) (ownerOf d new i) i.n s) s
  let s := (again.filter fun i => i.kind == .lane).foldl (fun s i => s.moveLane d i.n) s
  if r.2 = 0 then s else (s.count d R.PL_CLAMPED 0 r.2).event d R.PL_EVENTS_CLAMPED 0 r.2

/-- The pail of a cadence as its switch leaves it (R539, R540): a cadence that first has one starts it at its boundary with the
initial holder, one that has none any longer drops it, and one that keeps it keeps its state. -/
def Die.movePail (x : Die) (d : DieId) (p : Plan) (c : Nat) : Die :=
  let f := x.configured d p (p.on d)
  let had := x.pailUsed c
  let x := if f.pailUsed c then x.setReg (fldAddr R.MR_PAIL_CFG_USED c 0) (f.reg (fldAddr R.MR_PAIL_CFG_USED c 0)) else x
  if !f.pailUsed c then
    ((x.setReg (fldAddr R.MR_PAIL_CFG_USED c 0) 0).setRole c 0).setReg (fldAddr R.MR_PAIL_STATE_ROLE c 0) 0 |>.modPail c fun _ => {}
  else if had then x
  else
    let m := x.startLine c
    let x := x.modPail c fun _ => { lastLine := m - 1 }
    (x.setRole c (if x.fld R.MR_PAIL_CFG_INIT_HOLDER c = d.val then 1 else 2)).setLimit c (m + x.lease c)

end Sys2Proof.Machine
end

