-- ==== Sys2Proof/Machine/Plans.lean ====
section
/-! DEFINITION. Plans (03_plans.md R97 to R113): admission and library checks, switches, the brownout alternative, breaches of the
power declaration, the start plan of bring-up, the restart of a die's fragments after its reset, and the plan and lane resets of
21_power_reset.md R624 to R626. -/

namespace Sys2Proof.Machine

/-! ### Cadences by key, and boundaries -/

/-- A cadence of a die as the plans' lists name it. -/
def planKey (d : DieId) (c : Nat) : Nat := 8 * d.val + c
/-- The dies that take part in switches: those that are brought up. -/
def State.planDies (s : State) : List DieId := ([0, 1] : List DieId).filter fun d => s.has d && (s.die d).pw.phase == .ready
/-- The cadences of a die that run or that a plan gives it. -/
def State.dieKeys (s : State) (p : Plan) (d : DieId) : List Nat :=
  ((List.range 8).filter fun c => ((s.die d).grid c).isSome || (p.grid d c).isSome).map (planKey d)
/-- The cadences that take part in the switch to a plan. -/
def State.switchKeys (s : State) (p : Plan) : List Nat := s.planDies.flatMap (s.dieKeys p)

/-- The plan that runs or the plan `p`, changed without its caller's state. -/
def State.modPlans (s : State) (f : Plans → Plans) : State := s.updPkg fun p => { p with plans := f p.plans }

/-- The next pulse of a running cadence, where it is a frame boundary on which windows open. -/
def Die.boundaryNow (x : Die) (c : Nat) : Option Nat :=
  match x.grid c with
  | some g =>
    let k := (x.cad c).settle g
    if k.next % g.l = 0 ∧ k.regrid.isNone then some (g.instant k.next) else none
  | none => none

/-- The station time of a switch time in Wrap form, read as the nearest to the die's own (R41). -/
def Die.switchTime (x : Die) (t0 t1 : Nat) : Nat :=
  if t0 = 0 ∧ t1 = 0 then 0
  else (((x.clk.now / nsec : Nat) : Int) + wrapDiff (t1 * 2 ^ 32 + t0) (wrapOf x.clk.now)).toNat * nsec

/-- What a change to the plans or to a die may do to the source that a servo follows (R37). -/
def State.withSource (s : State) (f : State → State) : State :=
  let t := f s
  ([0, 1] : List DieId).foldl (fun t d => if t.has d ∧ s.source d ≠ t.source d then t.sourceMoved d else t) t

/-! ### Which fragments move at a cadence's switch -/

/-- The cadences that any of several plans' sections of a fragment name on a die. -/
def fragCads (ss : List Sect) (f : Nat) : List Nat := uniq ((ss.filter fun s => s.frag == f).flatMap Sect.cads)
/-- The cadence at whose switch a fragment moves: the least that takes part and that any of its sections names; none where it names
none, and it moves with the die's first (log entry 53). -/
def fragAt (ss : List Sect) (keys : List Nat) (d : DieId) (f : Nat) : Option Nat :=
  (List.range 8).find? fun c => keys.contains (planKey d c) && (fragCads ss f).contains c
/-- Sections on a die of a plan and of its brownout alternative. -/
def Plan.allOn (p : Plan) (d : DieId) : List Sect := p.on d ++ p.browned.on d

/-- The fragments that move when cadence `c` of a die switches; `first` where it is the die's first to do so. -/
def movesAt (ss : List Sect) (keys : List Nat) (d : DieId) (c : Nat) (first : Bool) (f : Nat) : Bool :=
  if f = 0 then first
  else match fragAt ss keys d f with
    | some k => k == c
    | none => first

/-- A fragment keeps running on a die through a full plan (R98): the sections in force there and its cadences are the new plan's. -/
def Die.carriesOn (x : Die) (old : Option Plan) (p : Plan) (d : DieId) (f : Nat) : Bool :=
  match old with
  | some o => sameFrag x.live (p.on d) f && sameCads o p d x.live f
  | none => false
/-- The fragments of a plan that R98 keeps: on every die that the old or the new plan names them for, before any cadence has
switched. -/
def State.alikeFrags (s : State) (p : Plan) : List Nat :=
  (fragsOf p.sects).filter fun f => s.planDies.all fun d =>
    let x := s.die d
    (x.carriesOn s.pkg.plans.running p d f) || !(x.live ++ p.on d).any fun e => e.frag == f
/-- What a change by named fragments does to each (R100, R101). -/
def crossNamed (change : List Sect) (named : List Nat) (f : Nat) : Cross :=
  if !named.contains f then .stay
  else if (change.filter fun s => s.frag == f).any fun s => s.cont then .cont else .restart

/-- Supervisor time by which threads of the old plan are ended: 10 us after the switch boundary of the master cadence (R528). -/
def Die.threadEnd (x : Die) (now : Nat) (due : Bool) : Nat :=
  match x.grid x.masterCad with
  | some g => if due then now + 10 * usec else now + x.clk.supOf (g.instant (g.boundaryFrom (x.cad x.masterCad).next) - x.clk.now) + 10 * usec
  | none => now + 10 * usec

/-! ### A cadence switches (R97 to R99) -/

/-- A cadence takes its entry of a plan: unchanged, onto another grid by R59, newly active at its line `m`, or inactive. -/
def State.switchCad (s : State) (d : DieId) (p : Plan) (c : Nat) (m : Int) : State :=
  let old := (s.die d).grid c
  let s := s.upd d fun x => x.takeCad d p c
  match old, (s.die d).grid c with
  | some o, some g =>
    if o = g then s
    else
      let r := Cad.regridded o g (s.die d).clk.now 0 (((s.die d).cad c).settle o)
      (s.upd d fun x => x.modCad c fun _ => r.1).stepGap d c r.2
  | none, some _ => s.upd d fun x => x.modCad c fun _ => { next := m }
  | some _, none =>
    s.upd d fun x => (List.range 64).foldl (fun x u =>
      if x.cmpArmed u ∧ x.cmpLine u ∧ x.fld R.TB_CMP_CTRL_CAD u = c then x.setFld R.TB_CMP_CTRL_ARM 0 u else x) (x.modCad c fun _ => {})
  | none, none => s

/-- The plan-wide start of a plan on a die: the header and, for a full plan, the counters. -/
def State.switchDie (s : State) (d : DieId) (p : Plan) : State :=
  s.upd d fun x =>
    let y := x.takeHeader d p
    if p.part then y else y.clearCounters

/-- The fragments of a die that move with a cadence: to the plan, and on to its brownout alternative where that is due at the same
boundary, or straight to it where the alternative of a full plan's predecessor was on (R104, R110). -/
def State.switchMoves (s : State) (d : DieId) (c : Option Nat) (p : Plan) (first last : Bool) : State :=
  let pl := s.pkg.plans
  let x := s.die d
  let keys := s.dieKeys p d
  let ss := x.live ++ p.allOn d ++ ((pl.running.map fun o => o.allOn d).getD [])
  let moves (f : Nat) : Bool := match c with
    | some c => movesAt ss keys d c first f
    | none => true
  let brown := p.brownout.isSome && pl.brownDue
  let wasOn := match c with | some c => pl.brownOn.contains (planKey d c) | none => false
  let straight := brown && wasOn && !p.part
  let goal := if straight then p.browned else p
  let cross (f : Nat) : Cross :=
    if p.part then (if p.named.contains f then (if (p.sects.filter fun e => e.frag == f).any fun e => e.cont then .cont else .restart) else .stay)
    else if ((pl.request.map SwitchReq.alike).getD []).contains f && x.carriesOn pl.running goal d f then .keep else .restart
  let endAt := x.threadEnd s.now (last || c == some x.masterCad)
  let s := Move.run { d := d, target := goal, cross := cross, moves := moves, full := !p.part, last := last, endAt := endAt
                      switching := true } s
  if brown ∧ !straight then
    let ch := (p.brownout.map fun b => bodySects b.body).getD []
    Move.run { d := d, target := p.browned, cross := crossNamed ch (fragsOf ch), moves := moves, full := false, last := last, endAt := endAt
               switching := true } s
  else s

/-- At the switch of the old plan's master cadence a compare unit that the old plan owned and the new one does not is disarmed
without firing (R67). -/
def Die.freeCmps (x : Die) (d : DieId) (o p : Plan) : Die :=
  (List.range 64).foldl (fun x u => if cmpLeaves o p d u then x.setFld R.TB_CMP_CTRL_ARM 0 u else x) x
/-- What a cadence's switch does to the compare units that leave the plan; `none` is the switch of a die without cadences. -/
def State.switchCmps (s : State) (d : DieId) (c : Option Nat) (p : Plan) : State :=
  match s.pkg.plans.running with
  | some o => if c = none ∨ c = some (o.master d) then s.upd d fun x => x.freeCmps d o p else s
  | none => s

/-- The marks of the brownout alternative after a cadence's switch (R110, R616). -/
def State.switchBrown (s : State) (d : DieId) (c : Nat) (p : Plan) : State :=
  let pl := s.pkg.plans
  let k := planKey d c
  let was := pl.brownOn.contains k
  let on := p.brownout.isSome && pl.brownDue && (p.grid d c).isSome
  let s := s.modPlans fun q => { q with brownOn := (q.brownOn.filter fun j => j != k) ++ (if on then [k] else []) }
  if was = on then s
  else s.hbCad d (codeOf (if on then R.PL_EVENTS_BROWNOUT_ON else R.PL_EVENTS_BROWNOUT_OFF)) c c (p.id % 65536)

/-- An event of the PL block on every die. -/
def State.plEvent (s : State) (f : Fld) (detail : Nat) : State :=
  let s := s.event 0 f 0 detail
  if s.dual then s.event 1 f 0 detail else s
/-- BROWNOUT_ON or BROWNOUT_OFF where the alternative has come or gone since `before`. -/
def State.brownEvent (s : State) (before : List Nat) : State :=
  if before.isEmpty = s.pkg.plans.brownOn.isEmpty then s
  else s.plEvent (if before.isEmpty then R.PL_EVENTS_BROWNOUT_ON else R.PL_EVENTS_BROWNOUT_OFF) 0

/-- The switch is complete: a die without cadences of either plan takes its part, and the plan runs (R97, R105, R628). -/
def State.switchDone (s : State) (p : Plan) : State :=
  let s := s.planDies.foldl (fun s d =>
    if (s.dieKeys p d).isEmpty ∧ (p.on d ≠ [] ∨ (s.die d).live ≠ []) then ((s.switchDie d p).switchMoves d none p true true).switchCmps d none p else s) s
  let s := s.withSource fun s => s.modPlans fun q =>
    { q with running := some p, pend := none, request := none, brownOn := q.brownOn.filter fun k => (s.switchKeys p).contains k }
  (s.showState 0 false).plEvent R.PL_EVENTS_SWITCHED (p.id % 65536)

/-- A cadence takes the switch at its boundary, line `m`. -/
def State.switchAt (s : State) (d : DieId) (c : Nat) (p : Plan) (r : SwitchReq) (m : Int) : State :=
  let keys := s.switchKeys p
  let first := r.taken.isEmpty
  let dieFirst := r.taken.all fun k => k / 8 != d.val
  let taken := r.taken ++ [planKey d c]
  let dieLast := (keys.filter fun k => k / 8 == d.val).all fun k => taken.contains k
  let before := s.pkg.plans.brownOn
  let r := if first then { r with alike := s.alikeFrags (if p.brownout.isSome && s.pkg.plans.brownDue && !before.isEmpty then p.browned else p) } else r
  let s := s.modPlans fun q => { q with request := some r }
  let s := if first then (s.setFld 0 R.PL_CLAMPED 0).setFld 1 R.PL_CLAMPED 0 else s
  let active := ((s.die d).grid c).isSome
  let s := s.withSource fun s => if dieFirst then s.switchDie d p else s
  let s := ((s.switchCad d p c m).switchMoves d (some c) p dieFirst dieLast).switchCmps d (some c) p
  let s := s.upd d fun x =>
    let x := x.movePail d (if p.brownout.isSome ∧ s.pkg.plans.brownDue then p.browned else p) c
    if active then x else x.startCad d s.now c
  let s := s.hbCad d (codeOf R.PL_EVENTS_SWITCHED) c c (p.id % 65536)
  let s := (s.switchBrown d c p).modPlans fun q => { q with request := some { r with taken := taken } }
  let s := if keys.all fun k => taken.contains k then s.switchDone p else s
  s.brownEvent before

/-- A die has its sections of a plan: die 0 has what it has admitted, die 1 what has arrived (R91). -/
def State.sectionsHere (s : State) (d : DieId) (p : Plan) : Bool :=
  d == 0 || (p.on d).isEmpty || (s.die d).mr.sections == some p

/-- The step that a die has to apply: its own, or die 0's where die 1 applies die 0's marked steps (R58, R61). -/
def State.stepOwner (s : State) (d : DieId) : DieId := if d ≠ 0 ∧ s.source d = 3 then 0 else d
/-- A step of station time is due on a die at or before its station time `b` (R58, R59). -/
def State.stepBefore (s : State) (d : DieId) (b : Nat) : Bool :=
  let e := s.stepOwner d
  let v := (s.die e).clk.servo
  v.step.isSome && (s.fld e R.TB_MODE_STEP_POLICY == 1 || v.stepGo) && match (s.die e).stepPoint with
    | some t => decide (t ≤ b)
    | none => false

/-- A cadence with which a fragment named for both dies moves on both, at one frame boundary (R101). -/
def State.tied (s : State) (p : Plan) (c : Nat) : Bool :=
  let ss (d : DieId) : List Sect := (s.die d).live ++ p.allOn d
  s.planDies == [0, 1] && (fragsOf (ss 0)).any fun f =>
    (fragsOf (ss 1)).contains f && fragAt (ss 0) (s.dieKeys p 0) 0 f == some c && fragAt (ss 1) (s.dieKeys p 1) 1 f == some c
/-- The frame at whose boundary a cadence switches because the other die's has (R101). -/
def SwitchReq.frame (r : SwitchReq) (c : Nat) : Option Int := (r.frames.find? fun e => e.1 == c).map Prod.snd
/-- A die can still switch a cadence at the boundary of a frame: its next pulse is not past it. -/
def Die.canMeet (x : Die) (c : Nat) (f : Int) : Bool :=
  match x.grid c with
  | some g => decide (((x.cad c).settle g).next ≤ f * g.l)
  | none => true
/-- The next pulse of a cadence is the boundary at which it has to follow the other die's switch. -/
def State.switchOwed (s : State) (d : DieId) (c : Nat) : Bool :=
  match s.pkg.plans.request, (s.die d).boundaryNow c, (s.die d).grid c with
  | some r, some _, some g => !r.taken.contains (planKey d c) && r.frame c == some (g.frame (((s.die d).cad c).settle g).next)
  | _, _, _ => false
/-- A cadence that switches at the boundary of a frame ties the other die's to it. -/
def SwitchReq.tie (r : SwitchReq) (tied : Bool) (c : Nat) (f : Int) : SwitchReq :=
  if tied ∧ (r.frame c).isNone then { r with frames := (c, f) :: r.frames } else r

/-- PLAN_SWITCH: the first frame boundary of a cadence at or after the switch time. A partial plan's switch is held while the
brownout alternative is on (R110). Die 1 switches once its sections have arrived (R91). A cadence with a fragment on both dies switches
on both at the boundary of one frame, the first that neither has passed (R101). A step that is due at the boundary or before comes
first: the step alone is applied, and the cadence switches at its first frame boundary on the new grid (R59, R110). -/
def State.planSwitch (s : State) (d : DieId) (c : Nat) : State :=
  match s.pkg.plans.request, s.pkg.plans.pend with
  | some r, some p =>
    if d ≠ 0 ∧ !s.sectionsHere d p then s.sendSections 0 p
    else if r.taken.isEmpty ∧ p.part ∧ !s.pkg.plans.brownOn.isEmpty then s.modPlans fun q => { q with request := some { r with held := true } }
    else if r.held ∨ r.taken.contains (planKey d c) ∨ !(s.switchKeys p).contains (planKey d c) then s
    else
      let x := s.die d
      let t := x.switchTime r.t0 r.t1
      match x.grid c, p.grid d c with
      | some g, _ =>
        match x.boundaryNow c with
        | some b =>
          let f := g.frame ((x.cad c).settle g).next
          let tie := s.tied p c
          if (match r.frame c with | some e => decide (f < e) | none => decide (b < t) || (tie && !(s.die (peer d)).canMeet c f)) then s
          else if s.stepBefore d b then s.stepApply (s.stepOwner d)
          else
            let s := (s.advanceStation d b).upd d fun x => x.modCad c fun k => k.settle g
            s.switchAt d c p (r.tie tie c f) 0
        | none => s
      | none, some g =>
        let m := match r.frame c with
          | some f => f * g.l
          | none => g.boundaryFrom (g.firstFrom (max x.clk.now t))
        if s.stepBefore d (g.instant m) then s.stepApply (s.stepOwner d)
        else (s.advanceStation d (g.instant m)).switchAt d c p (r.tie (s.tied p c) c (g.frame m)) m
      | none, none => s
  | _, _ => s

/-! ### The brownout alternative (R103, R104, R110) -/

/-- A cadence applies or removes the alternative at its boundary. -/
def State.brownMove (s : State) (d : DieId) (c : Nat) (on : Bool) : State :=
  match s.pkg.plans.running, (s.die d).boundaryNow c, (s.die d).grid c with
  | some p, some t, some g =>
    let before := s.pkg.plans.brownOn
    let k := planKey d c
    let busy : Bool := match s.pkg.plans.request with | some r => !r.taken.isEmpty | none => false
    if p.brownout.isNone ∨ before.contains k = on ∨ s.pkg.plans.brownDue ≠ on ∨ busy then s
    else
      let s := (s.advanceStation d t).upd d fun x => x.modCad c fun k => k.settle g
      let x := s.die d
      let keys := s.dieKeys p d
      let mine := before.filter fun j => j / 8 == d.val
      let first := if on then mine.isEmpty else keys.all fun j => mine.contains j
      let last := if on then keys.all (fun j => j == k || mine.contains j) else mine == [k]
      let ch := (p.brownout.map fun b => bodySects b.body).getD []
      let target := if on then p.browned else p
      let s := Move.run { d := d, target := target, cross := crossNamed ch (fragsOf ch), moves := movesAt (x.live ++ p.allOn d) keys d c first
                          full := false, last := last, endAt := x.threadEnd s.now (last || c == x.masterCad) } s
      let s := s.upd d fun x => x.movePail d target c
      let s := s.hbCad d (codeOf (if on then R.PL_EVENTS_BROWNOUT_ON else R.PL_EVENTS_BROWNOUT_OFF)) c c (p.id % 65536)
      let s := s.modPlans fun q => { q with brownOn := (q.brownOn.filter fun j => j != k) ++ (if on then [k] else []) }
      let s := s.brownEvent before
      if on ∨ !s.pkg.plans.brownOn.isEmpty then s
      else s.modPlans fun q => { q with request := q.request.map fun r =>
        if r.held then
          let w := wrapOf (max ((s.die d).switchTime r.t0 r.t1) ((s.die d).clk.now + nsec))
          { r with held := false, t0 := w % 2 ^ 30, t1 := w / 2 ^ 32 }
        else r }
  | _, _, _ => s

/-! ### Admission (R97, R107, R113) -/

/-- An admission is in progress or a switch is requested. -/
def State.plBusy (s : State) : Bool := s.pkg.plans.job.isSome || s.pkg.plans.request.isSome

/-- PL_RESULT on every die. -/
def State.plResult (s : State) (f : Fail) : State :=
  let one (s : State) (d : DieId) : State :=
    ((s.setFld d R.PL_RESULT_CODE f.code).setFld d R.PL_RESULT_SECTION f.sect).setFld d R.PL_RESULT_ITEM f.item
  if s.dual then one (one s 0) 1 else one s 0
/-- An admission is refused: PL_RESULT, the post and the record. -/
def State.plRefused (s : State) (f : Fail) : State :=
  ((s.plResult f).plEvent R.PL_EVENTS_REFUSED f.code).hb 0 (codeOf R.PL_EVENTS_REFUSED) 0 f.code

/-- The image at PL_SRC: that of the plan buffer, or of the flash, whose header gives its length. An image that does not lie within the
flash has no bytes past its end, and so fails LENGTH (R10, R77, R111). -/
def State.planImage (s : State) (src : Nat) : List Byte :=
  if src = 0xFFFFFFFF then
    match s.die0.sm.planBuf with
    | some (n, m) => imageBytes n m
    | none => []
  else
    let n := num (s.flashBytes src 256) 8 4
    s.flashBytes src (min (min n (32 * 1024 * 1024)) (s.flashSize - src))

/-- Starts an admission of an image. -/
def State.admitStart (s : State) (src : Nat) (startPlan : Bool) : State :=
  s.modPlans fun q => { q with job := some { image := s.planImage src, library := none, fromBuffer := decide (src = 0xFFFFFFFF)
                                             startPlan := startPlan, since := s.now } }

/-- Starts the switch of the pending plan. -/
def State.switchStart (s : State) (t0 t1 : Nat) : State :=
  s.modPlans fun q =>
    let held := (match q.pend with | some p => p.part | none => false) && !q.brownOn.isEmpty
    { q with request := some { t0 := t0, t1 := t1, held := held, taken := [] } }

/-- An admission or library check ends (R90, R97, R107). DESIGN CHOICE (log entry 53): an image that passes while a switch of an earlier
one is requested takes its place under that request; die 0 sends die 1's sections of a plan that has passed (R91). -/
def State.checkDone (s : State) (j : AdmitJob) (r : Fail ⊕ Plan) (value : Nat) : State :=
  let s := s.modPlans fun q => { q with job := none }
  match r with
  | .inl f => s.plRefused f
  | .inr p =>
    let base : Bool := match s.pkg.plans.running with | some o => p.part && o.buffered | none => false
    let p := { p with buffered := j.fromBuffer || base }
    let s := ((s.modPlans fun q => { q with pend := some p }).plResult ⟨0, 0, 0⟩).sendSections 0 p
    let s := (s.plEvent R.PL_EVENTS_ADMITTED 0).hb 0 (codeOf R.PL_EVENTS_ADMITTED) 0 value
    if j.startPlan then s.switchStart 0 0 else s

/-- ADMISSION_DONE. -/
def State.admissionDone (s : State) : State :=
  match s.pkg.plans.job with
  | some j => if j.library.isSome then s else s.checkDone j (s.admission j.image) (num j.image 0x20 2)
  | none => s
/-- LIBRARY_CHECK_DONE. -/
def State.libraryDone (s : State) : State :=
  match s.pkg.plans.job with
  | some j => match j.library with
    | some n => s.checkDone j (s.entryAdmission n) 0
    | none => s
  | none => s

/-- The NUMBERs of the running plan's library. -/
def State.libraryNumbers (s : State) : List Nat :=
  ((s.pkg.plans.running.bind Plan.library).map fun e => e.library.map Prod.fst).getD []

/-- The code of R418 with which a write of PL_CTRL is refused (R97, R107, R113); ADMIT while busy is refused with BUSY. A package in
Standby refuses an admission with STATE (R629). DESIGN CHOICE (log entry 53): CANCEL once a cadence has taken the switch is refused with
STATE, and SWITCH of an image that is pending while another is in admission is accepted; R113 says neither. -/
def State.plCtrlCode (s : State) (d : DieId) (v : Nat) : Nat :=
  let q := s.pkg.plans
  if (bit v 0 || bit v 3) && s.fld 0 R.PW_STATUS_STATE == 2 then 16
  else if bit v 1 && (q.pend.isNone || q.request.isSome) then 16
  else if bit v 2 && !(match q.request with | some r => r.taken.isEmpty | none => q.pend.isSome) then 16
  else if bit v 3 && q.running.isNone then 16
  else if bit v 3 && !s.libraryNumbers.contains (s.fld d R.PL_LIB_NUMBER) then 10
  else if (bit v 0 || bit v 3) && s.plBusy then 6
  else 0

/-- What PL_RESULT and the posts say of an ADMIT or LIBRARY that is refused as busy (R90 code 0x14, R110). -/
def State.plBusyResult (s : State) : State := s.plRefused ⟨0x14, 0, 0⟩

/-- CANCEL: a held switch is discarded and its image stays pending; otherwise the pending image goes, with a switch of it that has
not begun (R112, R113, log entry 53). -/
def State.plCancel (s : State) : State :=
  s.modPlans fun q => match q.request with
    | some r => if r.held then { q with request := none } else { q with request := none, pend := none }
    | none => { q with pend := none }

/-- An accepted write of PL_CTRL (R97, R107, R112). DESIGN CHOICE (log entry 53): of several commands in one word each is judged on the
state before the write, and they are carried out in the order of their bits. -/
def State.plCtrl (s : State) (d : DieId) (v : Nat) : State :=
  let s := if bit v 0 then s.admitStart (s.fld d R.PL_SRC) false else s
  let s := if bit v 1 then s.switchStart (s.fld d R.PL_SWITCH_T0_NS) (s.fld d R.PL_SWITCH_T1) else s
  let s := if bit v 2 then s.plCancel else s
  if bit v 3 then
    s.modPlans fun q => { q with job := some { image := [], library := some (s.fld d R.PL_LIB_NUMBER), fromBuffer := false
                                               startPlan := false, since := s.now } }
  else s

/-- PL_STATUS.STATE (R112). DESIGN CHOICE (log entry 53): an admission in progress reads 1 also while a switch of the earlier image is
requested. -/
def State.plState (s : State) : Nat :=
  let q := s.pkg.plans
  if q.job.isSome then 1
  else if q.request.isSome then (if q.running.isSome then 3 else 6)
  else if q.pend.isSome then (if q.running.isSome then 4 else 5)
  else if q.running.isSome then 2 else 0

/-! ### The points at which other writes and declarations take effect (R108, R109) -/

/-- RWL_APPLY: the frame boundary at which what has been written for a cadence takes effect; of the fields whose chapter states no
other point, MUTE of the audio map alone has one (R455). -/
def State.rwlApply (s : State) (d : DieId) (c : Nat) : State :=
  match (s.die d).boundaryNow c with
  | some t => (s.advanceStation d t).upd d fun x => x.auMutes c
  | none => s

/-- The power declaration in force: the plan has one for both dies, whichever die its entry names (R79, R95). -/
def State.powerDecl (s : State) : Option (List Byte) :=
  ((s.die0.live ++ s.die1.live).find? fun e => e.ty == 0x0E).map Sect.body
/-- What the power declaration gives a block of a die, in mW (R95). -/
def State.declared (s : State) (d : DieId) (block : Nat) : Nat := (s.powerDecl.map fun b => num b (4 + 32 * d.val + 4 * block) 4).getD 0
/-- POWER_OVER: a block's mean draw over 1 s exceeds its declaration by more than 5 %. -/
def State.powerOver (s : State) (d : DieId) (block mw : Nat) : State :=
  if s.planRuns ∧ s.declared d block * 105 < mw * 100 then s.breach d .powerOver 0 else s

/-! ### Bring-up and the restart of a die (R624, R632) -/

/-- DRAM_TRAINED: training ends with the regions that failed it unavailable; once every die is up, die 0 admits the start plan that
the boot directory names. -/
def State.dramTrained (s : State) (d : DieId) (failed : List Nat) : State :=
  if (s.die d).pw.phase ≠ .tested then s
  else
    let s := s.upd d fun x => { x with pw := { x.pw with phase := .ready, kickAt := s.now }
                                       st := { x.st with bad := x.st.bad ++ failed.map fun r => ⟨.region, r, 0⟩ } }
    let up := (s.die 0).pw.phase == .ready && (!s.dual || s.die1.pw.phase == .ready)
    match s.pkg.dir.bind Directory.start with
    | some off =>
      if up ∧ !s.planRuns ∧ !s.plBusy ∧ s.pkg.plans.pend.isNone ∧ s.fld 0 R.SC_STATUS_RECOVERY = 0 then s.admitStart off true else s
    | none => s

/-- DIE_RESTART: a die of two that has been reset is up again, has its sections of the running plan, and restarts its fragments at
the next frame boundary of their cadences; its pails wait for it to rejoin (R553, R624). Where its sections have to come over the
link, die 1's always and die 0's of a plan that came from the plan buffer, the command first has them sent, and restarts once they
have arrived (log entry 63). -/
def State.dieRestart (s : State) (d : DieId) : State :=
  match s.pkg.plans.running with
  | none => s
  | some p =>
    let x := s.die d
    if !s.dual ∨ x.pw.phase ≠ .ready ∨ !x.linkUp ∨ x.live ≠ [] ∨ (p.on d).isEmpty then s
    else if (d ≠ 0 ∨ p.buffered) ∧ x.mr.sections ≠ some p then s.sendSections (peer d) p
    else
      let s := s.withSource fun s => (s.switchDie d p).upd d fun x => x.clearCounters
      let s := (p.cads d).foldl (fun s c => match p.grid d c with
        | some g => s.switchCad d p c (g.boundaryFrom (g.firstFrom (s.die d).clk.now))
        | none => s) s
      let s := Move.run { d := d, target := p, cross := fun _ => .restart, moves := fun _ => true, full := true, last := true, endAt := s.now } s
      (s.upd d fun x => (p.cads d).foldl (fun x c => ((x.movePail d p c).setRole c 0)) x).showState 0 false

/-! ### Plan and lane resets (R625, R626) -/

/-- What a die runs when no plan runs. -/
def emptyPlan : Plan := { header := List.replicate 256 0, sects := [], id := 0, part := false, digest := [], named := [] }

/-- A plan reset (R625, R631): every cadence that runs stops at its next line pulse; a plan without any stops at once. -/
def State.planReset (s : State) : State :=
  let keys := s.planDies.flatMap (s.dieKeys emptyPlan)
  let one (s : State) (d : DieId) : State :=
    s.upd d fun x => (x.lose (lostGroups 6 s.dual)).setReg (fldAddr R.PW_LAST_RESET_KIND 0 0) (BitVec.ofNat 32 (6 + 8))
  let s := if s.dual then one (one s 0) 1 else one s 0
  s.modPlans fun q => { q with pend := none, request := none, job := none, stopping := if q.running.isSome then keys else [] }

/-- A cadence of a plan reset stops at its line pulse: from there nothing of the plan runs on it (R625). -/
def State.stopCad (s : State) (d : DieId) (c : Nat) : State :=
  let k := planKey d c
  let left := s.pkg.plans.stopping.filter fun j => j != k
  let x := s.die d
  let all := s.pkg.plans.stopping.filter fun j => j / 8 == d.val
  let first := (s.dieKeys emptyPlan d).length == all.length
  let last := left.all fun j => j / 8 != d.val
  let ss := x.live ++ ((s.pkg.plans.running.map fun o => o.allOn d).getD [])
  let moves := movesAt ss (s.dieKeys emptyPlan d) d c first
  let s := Move.run { d := d, target := emptyPlan, cross := fun _ => .restart, moves := moves, full := true, last := last, endAt := s.now
                      keepPorts := true } s
  let s := (s.switchCad d emptyPlan c 0).upd d fun x => x.movePail d emptyPlan c
  let s := s.modPlans fun q => { q with stopping := left }
  if left.isEmpty then
    (s.withSource fun s => s.modPlans fun q => { q with running := none, brownOn := [] }).showState 1 false
  else s

/-- A lane reset (R626): the lane is as the plan declares it, without its stored preset. -/
def State.laneReset (s : State) (d : DieId) (k : Nat) : State :=
  let s := s.unlock d k
  let s := s.upd d fun x =>
    let f := x.configured d (s.pkg.plans.running.getD emptyPlan) x.live
    let base := 0x100000 + 0x200 * k
    let x := ([base, base + 4, base + 0x10, base + 0x20] : List Nat).foldl (fun x a => x.setReg a (f.reg a)) x
    let x := x.modLane k fun v => { (f.lane k) with wake := v.wake, txQueue := [] }
    (x.lose (lostGroups 7 s.dual)).setReg (fldAddr R.PW_LAST_RESET_KIND 0 0) (BitVec.ofNat 32 (7 + 8))
  s.moveLane d k

def execAdmissionDone (dt : Nat) (s : State) : Result := onDie s 0 true ((s.advance dt).admissionDone)
def execLibraryCheckDone (dt : Nat) (s : State) : Result := onDie s 0 true ((s.advance dt).libraryDone)
def execPlanSwitch (d : DieId) (c : Fin 8) (s : State) : Result := onDie s d true (s.planSwitch d c)
def execBrownoutApply (d : DieId) (c : Fin 8) (s : State) : Result := onDie s d true (s.brownMove d c true)
def execBrownoutRemove (d : DieId) (c : Fin 8) (s : State) : Result := onDie s d true (s.brownMove d c false)
def execRwlApply (d : DieId) (c : Fin 8) (s : State) : Result := onDie s d true (s.rwlApply d c)
def execPowerOver (d : DieId) (dt : Nat) (block : Fin 6) (mw : Nat) (s : State) : Result :=
  onDie s d true ((s.advance dt).powerOver d block mw)
def execDramTrained (d : DieId) (dt : Nat) (failed : List Nat) (s : State) : Result :=
  onDie s d true ((s.advance dt).dramTrained d failed)
def execDieRestart (d : DieId) (dt : Nat) (s : State) : Result := onDie s d true ((s.advance dt).dieRestart d)

end Sys2Proof.Machine
end

