-- ==== Sys2Proof/Machine/RegRead.lean ====
section
/-! DEFINITION. Reading the register space (R11, R13, R415, R435): which addresses refuse a read, which windows the running plan
claims, and what a register shows where its value follows from other state. -/

namespace Sys2Proof.Machine

/-! ### Addresses and claims (R8, R417, R435) -/

/-- The address refuses every access with ADDRESS: outside every range; PN and HB on die 1; lanes that an L package does not bond
(R8, R435). -/
def State.noAddress (s : State) (d : DieId) (a : Nat) : Bool :=
  match blockOf a with
  | none => true
  | some b => (d ≠ 0 && (b == 21 || b == 22))
    || ((s.die d).fld R.SY_VARIANT_PACKAGE == 2 && decide (0x120000 ≤ a ∧ a < 0x140000))

/-- The running plan claims the item whose window the register lies in. A block that the die does not have reads 0 as well. -/
def State.claimed (s : State) (d : DieId) (c : Claim) (i : Nat) : Bool :=
  match c with
  | .en => (s.die d).flag R.EN_STATUS_RUNNING i
  | c => (s.die d).hasItem d s.dual c i

/-- A window that reads 0 while it is not claimed; an unclaimed lane reads its registers (R344). -/
def State.readsZero (s : State) (d : DieId) (c : Claim) (i : Nat) : Bool := decide (c ≠ .ln) && !s.claimed d c i

/-! ### What registers show of other state -/

/-- The bits of a list of flags, lowest first. -/
def flagBits (l : List Bool) : Nat := l.foldr (fun b n => b2n b + 2 * n) 0
/-- The items below `n` for which `p` holds, counted. -/
def countOf (n : Nat) (p : Nat → Bool) : Nat := ((List.range n).filter p).length
/-- A field's value at its place. -/
def atBit (lo v : Nat) : Nat := v * 2 ^ lo

/-- TB_STATUS (R51, R57, R61, R62, R71). DESIGN CHOICE (log entry 62): die 1 under DIE0 shows FREERUN and MISMATCH where its own servo
or the flags copied from die 0 raise them; R61 says that it copies die 0's and not what becomes of its own. -/
def State.tbStatus (s : State) (d : DieId) : Nat :=
  let x := s.die d
  let v := x.clk.servo
  let peerOf := s.source d == 3
  let free := v.state == .free || v.state == .freerun || (peerOf && x.clk.peerFlags.1)
  let mis := !x.clk.causes.isEmpty || (peerOf && x.clk.peerFlags.2)
  let cause := x.clk.causes.foldl (fun m c => if m = 0 then c else min m c) 0
  v.state.code + atBit 3 (b2n free) + atBit 4 (b2n mis) + atBit 5 cause + atBit 8 (b2n v.step.isSome)
    + atBit 9 (x.fld R.TB_STATUS_BACKUP_ACTIVE) + atBit 10 (x.fld R.TB_STATUS_LINK_TIMING) + atBit 11 v.rejectRun
    + atBit 15 (if d ≠ 0 ∧ x.flag R.TB_MODE_BACKUP then x.clk.backup.state.code else 0)

/-- Block TB. DESIGN CHOICE (log entry 62): FORMAT governs these registers and nothing in memory, for no rule names a timestamp that
the die writes to memory (R38). -/
def State.viewTB (s : State) (d : DieId) (r : RegDesc) (i : Nat) (w : Nat) : Nat :=
  let x := s.die d
  let wrap := x.flag R.TB_MODE_FORMAT
  if r.base = 0x20004 then s.tbStatus d
  else if r.base = 0x20020 then (if wrap ∧ (i = 0 ∨ i = 3) then 0 else w)
  else if r.base = 0x20034 then unsgn 32 x.clk.servo.freq
  else if r.base = 0x20038 then x.clk.holdSeconds s.now
  else if r.base = 0x20108 then (if wrap then 0 else w)
  else w

/-- TOTAL_MW of the power declaration of a set of sections; a plan has one for both dies (R79, R111). -/
def totalMw (l : List Sect) : Nat := match l.find? fun s => s.ty == 0x0E with
  | some s => num s.body 0 4
  | none => 0

/-- Block PL (R111, R112). -/
def State.viewPL (s : State) (d : DieId) (r : RegDesc) (w : Nat) : Nat :=
  let q := s.pkg.plans
  if r.base = 0x30000 then
    s.plState + atBit 3 (b2n !q.brownOn.isEmpty) + atBit 4 (b2n (match q.request with | some e => e.held | none => false))
  else if r.base = 0x30004 then (q.running.map fun p => p.id).getD 0
  else if r.base = 0x30008 then (q.pend.map fun p => p.id).getD 0
  else if r.base = 0x3002C then totalMw (s.die0.live ++ s.die1.live)
  else if r.base = 0x30030 then
    match q.running with
    | some p => if p.brownout.isSome then totalMw p.browned.sects else 0
    | none => 0
  else if r.base = 0x30034 then (fragsOf (s.die d).live).length
  else w

/-- Block VT (R146 to R148). -/
def State.viewVT (s : State) (d : DieId) (r : RegDesc) (i : Nat) (w : Nat) : Nat :=
  let x := s.die d
  if r.base = 0x40000 then
    b2n (s.planRuns && x.pw.phase == .ready && !x.live.isEmpty) + atBit 1 (bits w 1 1) + atBit 2 (b2n x.degraded) + atBit 3 (bits w 3 3)
      + atBit 4 x.tileRepairs
  else if r.base = 0x40100 then x.mapRow i
  else if r.base = 0x41000 then x.ownerWord i
  else w

/-- Block CL (R279). -/
def State.viewCL (s : State) (d : DieId) (r : RegDesc) (w : Nat) : Nat :=
  let x := s.die d
  if r.base = 0xA0000 then
    b2n ((x.listed R.CL_DC_STATUS_CONCEALING 64).any fun n => x.flag R.CL_DC_STATUS_CONCEALING n)
      + atBit 1 (b2n ((x.listed R.CL_DC_STATUS_UNSUPPORTED 64).any fun n => x.flag R.CL_DC_STATUS_UNSUPPORTED n))
  else if r.base = 0xA0008 then (x.pools.map fun p => p.2 / 2 ^ 22).sum
  else w

/-- Block CH (R309, R310): SCALERS, and layer 0, which is always ready. -/
def State.viewCH (s : State) (d : DieId) (r : RegDesc) (w : Nat) : Nat :=
  let x := s.die d
  if r.base = 0xB0000 then w / 256 * 256 + countOf 128 (fun n => x.flag R.CH_SCALER_IN_USE n)
  else if r.base = 0xC0004 then w / 8 * 8 + 2
  else w

/-- Block LN (R331, R346, R347). -/
def State.viewLN (s : State) (d : DieId) (r : RegDesc) (i : Nat) (w : Nat) : Nat :=
  let x := s.die d
  if r.base = 0x100008 then w - atBit 8 (bits w 8 8) + atBit 8 (b2n (x.laneBist i))
  else if r.base = 0x140000 then
    ((x.listed R.LN_STATUS_RX_NOW 512).filter fun k => x.fld R.LN_STATUS_RX_NOW k == 2).length
      + atBit 10 ((x.listed R.LN_STATUS_TX_NOW 512).filter fun k => x.fld R.LN_STATUS_TX_NOW k == 2).length
  else if r.base = 0x140008 then x.lnPowerNow
  else w

/-- Block NW (R380). -/
def State.viewNW (s : State) (d : DieId) (r : RegDesc) (w : Nat) : Nat :=
  let x := s.die d
  let rx := x.listed R.NW_RX_STATE_BAD 1024
  if r.base = 0x180000 then
    flagBits ((List.range 8).map fun sp => x.flag R.NW_SP_STATUS_LINK sp) + atBit 8 (b2n (rx.any fun f => x.flag R.NW_RX_STATE_BAD f))
      + atBit 9 (b2n (rx.any fun f => x.flag R.NW_RX_STATE_PATH0_DOWN f || x.flag R.NW_RX_STATE_PATH1_DOWN f))
  else if r.base = 0x180008 then (x.recsOf 6 0x602).length + atBit 11 (x.recsOf 6 0x603).length
  else if r.base = 0x18000C then (x.recsOf 6 0x604).length
  else w

/-- A shaper's whole bytes of credit, rounded down (R394, R407). -/
def Die.creditBytes (x : Die) (h : Nat) : Int := (x.shaperNow h).credit / (creditUnit : Int)

/-- Block TQ (R404 to R408). -/
def State.viewTQ (s : State) (d : DieId) (r : RegDesc) (i : Nat) (w : Nat) : Nat :=
  let x := s.die d
  if r.base = 0x190000 then
    flagBits ((List.range 8).map fun sp => x.flag R.TQ_GATE_CFG_PENDING sp)
      + atBit 8 (b2n ((x.listed R.TQ_SH_CFG_USED 1024).any fun h => x.flag R.TQ_SH_CFG_USED h && decide (x.creditBytes h < 0)))
  else if r.base = 0x190408 then (x.queue ⟨i, false⟩).fill
  else if r.base = 0x194008 then unsgn 32 (x.creditBytes i)
  else if r.base = 0x19400C then w % 2 ^ 13 + atBit 13 (b2n (decide (x.creditBytes i < 0)))
  else if r.base = 0x198004 then (x.queue ⟨i, true⟩).fill
  else w

/-- Block SM (R436, R437). -/
def State.viewSM (s : State) (d : DieId) (r : RegDesc) (w : Nat) : Nat :=
  let x := s.die d
  let f := s.fusesOf d
  if r.base = 0x1A0000 then
    flagBits ((List.range 4).map f.macHas) + atBit 4 (flagBits ((List.range 4).map f.macRevoked)) + atBit 8 x.sm.trans.length
      + atBit 15 (b2n x.sm.xfer.isSome)
  else if r.base = 0x1A000C then (x.sm.quar.filter fun q => decide (s.now < q.until_)).length
  else w

/-- Block AU (R457). -/
def State.viewAU (s : State) (d : DieId) (r : RegDesc) (w : Nat) : Nat :=
  let x := s.die d
  if r.base = 0x1B0000 then
    flagBits ((List.range 16).map fun p => x.flag R.AU_P_STATUS_CLOCK_LOSS p)
      + atBit 16 (b2n ((x.listed R.AU_GRP_STATE_BAD 256).any fun g => x.fld R.AU_GRP_STATE_BAD g != 0))
      + atBit 17 (b2n ((List.range 32).any fun a => x.asrcTracks a && !x.flag R.AU_ASRC_CFG_LOCK a))
  else w

/-- Blocks MC, DM and CK (R487, R510). -/
def State.viewMem (s : State) (d : DieId) (r : RegDesc) (i : Nat) (w : Nat) : Nat :=
  let x := s.die d
  let st (n v : Nat) : Bool := x.flag R.DM_CH_CFG_USED n && x.chState n == v
  if r.base = 0x1C0100 then w % 2 ^ 11 + atBit 11 (x.neighbours i).length
  else if r.base = 0x1D0000 then countOf 128 (fun n => st n 1) + atBit 8 (countOf 128 fun n => st n 2)
  else if r.base = 0x1D0010 then flagBits ((List.range 32).map fun n => st (32 * i + n) 2)
  else if r.base = 0x1D4004 then atBit 25 (bits w 25 25) + (x.stream i).length
  else if r.base = 0x1E0000 then countOf 64 (fun u => x.flag R.CK_U_CFG_BOUND u)
  else w

/-- PA_THt_STATE and PA_THt_COUNT (R530). -/
def Thread.stateWord (t : Thread) : Nat :=
  if !t.claimed then 0
  else t.state.code + atBit 3 t.core + atBit 6 t.prio + atBit 11 (b2n t.resident) + atBit 12 t.pending + atBit 16 t.cause
/-- The line of the master cadence at which a delay or a timeout of a thread expires. -/
def Die.expiryLine (x : Die) (t : Thread) : Nat :=
  match x.grid x.masterCad with
  | some g => if t.expiry = 0 then 0 else g.line (x.masterLine + t.expiry)
  | none => 0

/-- Block PA (R529, R530). -/
def State.viewPA (s : State) (d : DieId) (r : RegDesc) (i : Nat) (w : Nat) : Nat :=
  let x := s.die d
  if r.base = 0x1F0000 then
    (x.par.threads.filter fun e => e.2.claimed).length + atBit 13 (x.par.threads.filter fun e => e.2.claimed && e.2.resident).length
  else if r.base = 0x1F0100 then (match (x.core i).run with | some t => t + atBit 12 1 | none => 0)
  else if r.base = 0x1F8000 then (x.th i).stateWord
  else if r.base = 0x1F8004 then (if (x.th i).claimed then unsgn 16 (x.th i).count + atBit 16 (x.expiryLine (x.th i)) else 0)
  else w

/-- Blocks SC and ST (R578, R579, R605). -/
def State.viewSC (s : State) (d : DieId) (r : RegDesc) (i j : Nat) (w : Nat) : Nat :=
  let x := s.die d
  let secret := s.pkg.fuses.secretOf d
  if r.base = 0x210000 then s.scStatus d
  else if r.base = 0x210014 then s.scRollback
  else if r.base = 0x21001C then s.testLeft d
  else if r.base = 0x210020 then bits (s.pkg.fuses.serialOf d) (32 * i + 31) (32 * i)
  else if r.base = 0x210080 then (Config.idKey secret i).toNat
  else if r.base = 0x210100 then num (fixLen 64 ((s.fusesOf d).owner i).key) (4 * j) 4
  else if r.base = 0x210400 then (Config.kemKey secret i).toNat
  else if r.base = 0x212000 then
    if x.flag R.SC_DOC_SEL_SEL then num (fixLen 57344 x.sc.quote) (4 * i) 4
    else num (fixLen 57344 (s.certificate d)) (4 * i) 4
  else if r.base = 0x220020 then x.fuseLeftWord
  else w

/-- Blocks HB and PN (R607, R644, R648). -/
def State.viewHB (s : State) (r : RegDesc) (w : Nat) : Nat :=
  let h := s.pkg.hb
  if r.base = 0x230000 then
    b2n h.clearing.isSome + atBit 1 (bits w 1 1) + atBit 2 (min 7 h.pend.length) + atBit 5 (b2n !h.held.isEmpty)
  else if r.base = 0x23000C then h.newest
  else if r.base = 0x230010 then h.oldest
  else if r.base = 0x23001C then h.time % 2 ^ 32
  else if r.base = 0x23002C then s.pkg.fuses.life
  else if r.base = 0x240000 then s.pkg.panel.queue.length + atBit 9 (bits w 9 9)
  else if r.base = 0x24000C then s.pnHead.1
  else if r.base = 0x240010 then s.pnHead.2
  else w

/-- What an assigned register shows, from its stored word `w`; SY_FLASH_SIZE of die 1 reads die 0's value (R10). -/
def State.view (s : State) (d : DieId) (r : RegDesc) (i j : Nat) (w : Nat) : Nat :=
  match blockIndex r.base with
  | 0 => if r.base = 0x8 then (s.die0.reg (fldAddr R.SY_FLASH_SIZE_SIZE 0 0)).toNat else w
  | 2 => s.viewTB d r i w
  | 3 => s.viewPL d r w
  | 4 => s.viewVT d r i w
  | 6 => if r.base = 0x90008 ∧ (s.die d).fld R.RC_CFG_MODE i = 0 then (s.die d).fld R.RC_RATE i else w
  | 7 => s.viewCL d r w
  | 8 => s.viewCH d r w
  | 9 => s.viewLN d r i w
  | 10 => s.viewNW d r w
  | 11 => s.viewTQ d r i w
  | 12 => s.viewSM d r w
  | 13 => s.viewAU d r w
  | 14 | 15 | 16 => s.viewMem d r i w
  | 17 => s.viewPA d r i w
  | 19 | 20 => s.viewSC d r i j w
  | 21 | 22 => s.viewHB r w
  | _ => w

/-- The value that a read of an address returns (R11, R13, R435): 0 where nothing is assigned or the window is not claimed. -/
def State.readReg (s : State) (d : DieId) (a : Nat) : W32 :=
  match findReg a with
  | none => 0
  | some (r, i, j) => if s.readsZero d r.claim i then 0 else BitVec.ofNat 32 (s.view d r i j ((s.die d).reg a).toNat)

/-- What a read does beside returning its value: a read of PN_EVQ1 takes the head of the panel queue (R644). -/
def State.readEffect (s : State) (a : Nat) : State := if a = 0x240010 then s.evqPop else s

end Sys2Proof.Machine
end

