-- ==== Sys2Proof/Machine/RegWrite.lean ====
section
/-! DEFINITION. Writing the register space (R11, R108, R413 to R417): when a word is refused and with which code, what a register holds
after a write, and what a write sets going beside it. A write of several words is checked whole against the state before it; then the
words are applied in address order (R414). -/

namespace Sys2Proof.Machine

/-- The words of one write: address and value, in address order. -/
abbrev Words := List (Nat × W32)

/-! ### What a register holds after a write (R11, R12) -/

/-- A word written into a register: rw and rw/L fields take the value, a 1 clears a w1c bit, ro bits and reserved bits stay. -/
def RegDesc.merge (r : RegDesc) (old v : W32) : W32 :=
  r.fields.foldl (fun w f => match f.ty with
    | .rw | .rwL => putBits w f.hi f.lo (f.get v.toNat)
    | .w1c => putBits w f.hi f.lo (f.get (w &&& ~~~v).toNat)
    | .ro | .wo => w) old
/-- The register takes a write at all. -/
def RegDesc.writable (r : RegDesc) : Bool := r.fields.any fun f => f.ty != .ro
/-- Registers whose written value is kept aside until it applies, so that a read returns the value in force (R252). -/
def keptAside (a : Nat) : Bool :=
  match findReg a with
  | some (r, _, _) => r.base == 0x90004 || r.base == 0x90008 || r.base == 0x90018 || r.base == 0x94000
  | none => false
/-- The word that a register holds once the words of a write are in it. -/
def Die.after (x : Die) (ws : Words) (a : Nat) : Nat :=
  match ws.find? (fun e => e.1 == a), findReg a with
  | some e, some (r, _, _) => (r.merge (x.reg a) e.2).toNat
  | _, _ => (x.reg a).toNat

/-! ### Refusals, in the order of R417 -/

/-- Commands of SC_CTRL that die 1 does not have (R578, log entry 49). -/
def scDie0 (v : Nat) : Bool := bit v 0 || bit v 2 || bit v 3 || bit v 4 || bit v 5

/-- The address is not assigned, or its unit is not on the die: ADDRESS. -/
def State.addressFails (s : State) (d : DieId) (r : RegDesc) (v : Nat) : Bool :=
  (r.claim == .mr && !s.dual) || (r.claim == .sc0 && d ≠ 0) || (r.base == 0x210008 && d ≠ 0 && scDie0 v)

/-- NOT_CLAIMED: the window's item, or the thread that PA_RELEASE or PA_RESTART names (R417, R529). -/
def State.claimFails (s : State) (d : DieId) (r : RegDesc) (i v : Nat) : Bool :=
  (r.claim != .mr && r.claim != .sc0 && !s.claimed d r.claim i)
    || ((r.base == 0x1F000C || r.base == 0x1F0010) && !((s.die d).th (bits v 11 0)).claimed)

/-- The sections that run on a die declare compare unit `u` (R67). -/
def Die.ownsCmp (x : Die) (u : Nat) : Bool := ownsUnit x.live u
/-- The running plan owns compare unit `u`; one that a switch takes from it, up to the switch of the old plan's master cadence
(R67). -/
def State.ownsCmp (s : State) (d : DieId) (u : Nat) : Bool :=
  match s.pkg.plans.running, s.pkg.plans.pend, s.pkg.plans.request with
  | some o, some p, some r =>
    if !r.taken.isEmpty ∧ cmpLeaves o p d u then !(r.taken.contains (8 * d.val + o.master d)) else (s.die d).ownsCmp u
  | _, _, _ => (s.die d).ownsCmp u
/-- A region holds a claim of the running plan (R484). -/
def Die.regionClaimed (x : Die) (r : Nat) : Bool :=
  decide (x.regionOwner r < 8) || (x.pools ++ x.dramItems).any fun p => decide (p.1 < (r + 1) * 2 ^ 30 ∧ r * 2 ^ 30 < p.1 + p.2)
/-- LOCKED: an owned compare unit, a bound check unit, a thread's panel output, the retain bit of a claimed region (R67, R484, R508,
R645). -/
def State.lockFails (s : State) (d : DieId) (wr : Writer) (r : RegDesc) (i v : Nat) (old : W32) : Bool :=
  let x := s.die d
  let changed := decide ((r.merge old (BitVec.ofNat 32 v)) ≠ old)
  if 0x20400 ≤ r.base ∧ r.base ≤ 0x2040C then
    s.ownsCmp d i && r.fields.any fun f => f.ty == .rwL && f.get v != f.get old.toNat
  else if r.claim = .ck then x.flag R.CK_U_CFG_BOUND i
  else if r.base = 0x240100 then decide (wr = .host) && x.flag R.PN_OUT_THREAD i
  else if r.base = 0x1C0030 then changed && s.planRuns && (List.range 16).any fun k => bit old.toNat k && !bit v k && x.regionClaimed k
  else false

/-- Field ranges that hold for a write wherever the field is written: register base, lowest bit, least and greatest value. -/
def writeRanges : List (Nat × Nat × Nat × Nat) :=
  [(0x1001C, 0, 0, 13), (0x10030, 0, 10, 1000), (0x20010, 0, 20, 10000), (0x20010, 14, 2, 100), (0x20014, 0, 1, 3600), (0x20014, 16, 250, 10000),
   (0x90004, 0, 1, 4000000), (0x90008, 0, 1, 4000000), (0x100004, 0, 0, 2), (0x100004, 2, 0, 2), (0x194000, 0, 1, 400000000),
   (0x1A0008, 16, 1, 64), (0x220214, 0, 1, 65535), (0x220218, 0, 1, 65535)]

/-- TB_MODE (R36, R70). -/
def State.tbModeOk (s : State) (d : DieId) (v : Nat) : Bool :=
  let src := bits v 2 0
  (src == 0 || src == 1 || src == (if d = 0 then 2 else 3)) && bits v 12 11 != 3 && (d ≠ 0 || !bit v 3)
    && (!s.planRuns || ((s.die d).grid (bits v 7 5)).isSome)
/-- TB_REF_OFFSET lies within one frame of the cadence bound to REF_IN (R56). -/
def Die.refOffsetOk (x : Die) (v : Nat) : Bool :=
  match x.grid (x.fld R.TB_MODE_REF_CAD) with
  | some g => decide ((sgn 32 v).natAbs * g.n ≤ 16000000000 * g.d)
  | none => true
/-- What a write leaves of compare unit `u` may be armed (R74). -/
def Die.cmpOk (x : Die) (ws : Words) (u : Nat) : Bool :=
  let c := x.after ws (fldAddr R.TB_CMP_CTRL_ARM u 0)
  let p := x.after ws (fldAddr R.TB_CMP_PERIOD u 0)
  !bit c 0 || (!(bit c 5 && p == 0) && !(bit c 1 && decide (2 ^ 13 ≤ p)) && !(bit c 1 && (x.grid (bits c 4 2)).isNone) && bits c 9 8 != 3)
/-- The least and the greatest AMOUNT of a perturbation class (R594). -/
def amountRange : Nat → Nat × Nat
  | 0 => (1, 255) | 4 => (1, 65535) | 5 => (1, 2) | 10 => (1, 20000) | _ => (0, 2 ^ 32 - 1)
/-- What a write leaves of perturbation unit `u` may be armed: AMOUNT in the range of its class, DURATION, and PERIOD of a unit that
repeats, at least 1 (R594, R606, log entry 50). -/
def Die.pertOk (x : Die) (ws : Words) (u : Nat) : Bool :=
  let c := x.after ws (fldAddr R.ST_PERT_CTRL_ARM u 0)
  let a := x.after ws (fldAddr R.ST_PERT_AMOUNT u 0)
  let (lo, hi) := amountRange (bits c 5 2)
  decide (lo ≤ a ∧ a ≤ hi) && x.after ws (fldAddr R.ST_PERT_DURATION u 0) % 65536 != 0
    && (!bit c 6 || x.after ws (fldAddr R.ST_PERT_PERIOD u 0) % 65536 != 0)

/-- RANGE: a value outside the range that its field or its rule states. -/
def State.rangeFails (s : State) (d : DieId) (ws : Words) (r : RegDesc) (i v : Nat) : Bool :=
  let x := s.die d
  let own := r.fields.any fun f => match writeRanges.find? fun e => e.1 == r.base && e.2.1 == f.lo with
    | some e => decide (f.get v < e.2.2.1 ∨ e.2.2.2 < f.get v)
    | none => false
  own ||
    (if r.base = 0x20000 then !s.tbModeOk d v
     else if r.base = 0x20018 then !x.refOffsetOk v
     else if 0x20400 ≤ r.base ∧ r.base ≤ 0x2040C then !x.cmpOk ws i
     else if r.base = 0x30010 then bit v 3 && s.pkg.plans.running.isSome && !s.libraryNumbers.contains (s.fld d R.PL_LIB_NUMBER)
     else if r.base = 0x30014 then v != 0xFFFFFFFF && (v % 65536 != 0 || decide (s.flashSize ≤ v))
     else if r.base = 0xC0024 then
       !(decide (-8192 ≤ sgn 16 v ∧ sgn 16 v ≤ 8191 ∧ -8192 ≤ sgn 16 (v / 65536) ∧ sgn 16 (v / 65536) ≤ 8191))
     else if r.base = 0x1E0104 then decide (2 ^ (bits (x.after ws (fldAddr R.CK_U_CFG_WIDTH i 0)) 5 0 + 1) ≤ v)
     else if r.base = 0x1E0108 then decide (2 ^ (bits (x.after ws (fldAddr R.CK_U_CFG_WIDTH i 0)) 5 0 + 1) ≤ v * 2 ^ 32)
     else if r.base = 0x220200 then bit v 0 && !x.flag R.ST_PERT_CTRL_ARM i && !x.pertOk ws i
     else false)

/-- BOUNDS: while a plan runs, a rw/L field that the write changes lies outside the lock bounds, or is not listed (R108); fields of
compare units that the plan does not own are free (R67). -/
def State.boundsFail (s : State) (d : DieId) (r : RegDesc) (a v : Nat) : Bool :=
  let old := (s.readReg d a).toNat
  s.planRuns && !(decide (0x20400 ≤ r.base ∧ r.base ≤ 0x2040C)) && r.fields.any fun f =>
    f.ty == .rwL && f.get v != f.get old && match (s.die d).boundOf a f.hi f.lo with
      | some e => !boundAllows e (f.hi - f.lo + 1) (f.get v)
      | none => true

/-- An in-step channel's write cannot be forwarded: the milk-run link is down (R418, R546). -/
def Die.forwardFails (x : Die) (n : Nat) : Bool := x.flag R.MR_EC_INSTEP n && !x.linkUp
/-- An in-step member of a pool. -/
def Die.poolInStep (x : Die) (p : Nat) : Bool := (x.poolMembers p).any fun m => x.flag R.MR_EC_INSTEP m.1

/-- The first code other than 0. -/
def firstCode : List Nat → Nat
  | [] => 0
  | c :: l => if c = 0 then firstCode l else c

/-- STATE, BUSY and LINK_DOWN: a command that is not valid in the present state. -/
def State.stateFails (s : State) (d : DieId) (r : RegDesc) (i v : Nat) : Nat :=
  let x := s.die d
  let when_ (b : Bool) (c : Nat) : Nat := if b then c else 0
  match r.base with
  | 0x10008 => when_ (bits v 1 0 != 0) (s.stateCode d (bits v 1 0))
  | 0x2000C => when_ (bit v 1 && !(x.fld R.TB_MODE_STEP_POLICY == 2 && s.planRuns && x.clk.servo.step.isSome)) 16
  | 0x30010 => s.plCtrlCode d v
  | 0x30014 | 0x30018 | 0x3001C | 0x3003C => when_ (s.plState == 1) 16
  | 0x80014 => when_ (bit v 0 && x.forwardFails i) 8
  | 0x90004 | 0x90008 | 0x90018 => when_ (x.forwardFails i) 8
  | 0x94000 => when_ (x.poolInStep i && !x.linkUp) 8
  | 0xC000C => when_ (bits v 7 0 != 0 && x.forwardFails i) 8
  | 0x1D100C => when_ (bit v 1 && x.chState i != 2) 16
  | 0x1F0010 => when_ ((x.th (bits v 11 0)).state != .stopped) 16
  | 0x200008 => firstCode [when_ (bit v 3) (s.handoverCode d (bits v 2 0)), when_ (bit v 4) (s.seizeCode d (bits v 2 0))]
  | 0x210008 => firstCode [when_ (bit v 0) (s.tokenCode d), when_ (bit v 1) x.quoteCode, when_ (bit v 2) (s.commitFwCode d),
      when_ (bit v 3) (s.commitPlanCode d)]
  | 0x210060 => when_ x.sc.signing.isSome 16
  | 0x220008 => when_ (bit v 0) (s.fuseRepairCode d)
  | 0x220200 => when_ (x.flag R.ST_PERT_CTRL_ARM i) 16
      + when_ (!x.flag R.ST_PERT_CTRL_ARM i && (bit v 0 || bits v 5 2 != x.fld R.ST_PERT_CTRL_CLASS i)) (x.armCode (bits v 5 2))
  | 0x220204 | 0x220208 | 0x22020C | 0x220210 | 0x220214 | 0x220218 => when_ (x.flag R.ST_PERT_CTRL_ARM i) 16
  | 0x230008 => when_ (bit v 0) s.clearCode
  | _ => 0

/-- The code of R418 with which one word of a write is refused, 0 where it passes; the first reason in the order of R417. -/
def State.writeCode (s : State) (d : DieId) (wr : Writer) (ws : Words) (a : Nat) (v : W32) : Nat :=
  match findReg a with
  | none => 11
  | some (r, i, _) =>
    if s.noAddress d a || s.addressFails d r v.toNat then 11
    else if s.claimFails d r i v.toNat then 13
    else if !r.writable then 12
    else if s.lockFails d wr r i v.toNat ((s.die d).reg a) then 14
    else if s.rangeFails d ws r i v.toNat then 10
    else if s.boundsFail d r a v.toNat then 15
    else s.stateFails d r i v.toNat

/-- The first word of a write that is refused: its index and its code (R414). -/
def State.writeRefused (s : State) (d : DieId) (wr : Writer) (ws : Words) : Option (Nat × Nat) :=
  (ws.zipIdx.map fun e => (e.2, s.writeCode d wr ws e.1.1 e.1.2)).find? fun e => e.2 != 0

/-! ### What a write sets going -/

/-- FORCE_RAP of a channel (R198): on an in-step channel die 0 chooses the picture and sends it, and die 1 asks it to (R546). -/
def State.rapWrite (s : State) (d : DieId) (n : Nat) : State :=
  let x := s.die d
  let f := x.picPlus16 n
  if !x.flag R.MR_EC_INSTEP n then s.upd d fun x => x.forceRap n f
  else if x.flag R.EN_STATUS_RAP_PENDING n then s
  else if d = 0 then (s.upd 0 fun x => x.forceRap n f).sendControl 0 (.rap n (some f))
  else (s.setFld d R.EN_STATUS_RAP_PENDING 1 n).sendControl d (.rap n none)

/-- A rate or QP change of a channel (R249, R250). -/
def State.rateWrite (s : State) (d : DieId) (n field : Nat) (v : W32) : State :=
  let x := s.die d
  let f := x.changePic n field
  if !x.flag R.MR_EC_INSTEP n then s.upd d fun x => x.rateAccept n field v f
  else if d = 0 then (s.upd 0 fun x => x.rateAccept n field v f).sendControl 0 (.rate n field v (some f))
  else (s.upd d fun x => x.rateAsk n field).sendControl d (.rate n field v none)

/-- A pool's rate. -/
def State.poolWrite (s : State) (d : DieId) (p : Nat) (v : W32) : State :=
  let x := s.die d
  let f := x.framePlus16 (x.fld R.RC_POOL_CFG_CADENCE p)
  if !x.poolInStep p then s.upd d fun x => x.poolAccept p v.toNat f
  else if d = 0 then (s.upd 0 fun x => x.poolAccept p v.toNat f).sendControl 0 (.pool p v (some f))
  else (s.upd d fun x => (x.poolMembers p).foldl (fun x e => x.rateAsk e.1 3) x).sendControl d (.pool p v none)

/-- CH_COMMIT of a channel (R299): the pending values of the layers go with a forwarded commit. -/
def State.commitWrite (s : State) (d : DieId) (n mask : Nat) : State :=
  let x := s.die d
  let f := x.framePlus16 (x.fld R.EN_TIMING_CADENCE n)
  let vs := ((List.range 8).filter fun l => bit mask l).map fun l => (l, x.layerRegs n l)
  if !x.flag R.MR_EC_INSTEP n then s.churnCommit d n mask f
  else if d = 0 then (s.churnCommit 0 n mask f).sendControl 0 (.commit n mask vs (some f)) (28 + 20 * vs.length)
  else s.sendControl d (.commit n mask vs none) (28 + 20 * vs.length)

/-- PA_RESTART: a stopped thread is idle, with its counter reloaded (R527). -/
def Die.threadRestart (x : Die) (n : Nat) : Die :=
  x.modTh n fun t => if t.state = .stopped then { t with state := .idle, count := t.reload, cause := 0, pending := 0 } else t

/-- A write of DM_CHn_CTRL; a start that comes with a restart is taken after it (R490, R504). -/
def State.dmaCtrl (s : State) (d : DieId) (n v : Nat) : State :=
  let s := if bit v 1 then s.dmaRestart d n else s
  if bit v 0 then s.dmaStart d n .host 0 else s

/-- A write of PW_CTRL (R623, R629, R634). -/
def State.pwCtrl (s : State) (d : DieId) (v : Nat) : State :=
  let s := if bit v 2 then s.upd d fun x => x.pwSnap else s
  let s := if bit v 3 then s.upd d fun x => { x with pw := { x.pw with kickAt := s.now } } else s
  if bits v 1 0 = 0 then s else s.stateStart (bits v 1 0)

/-- A write of TB_CTRL (R58, R68). -/
def State.tbCtrl (s : State) (d : DieId) (v : Nat) : State :=
  let s := if bit v 0 then s.upd d fun x => x.tbSnap else s
  if bit v 1 then s.upd d fun x => x.modServo false fun w => { w with stepGo := true } else s

/-- A write of SC_CTRL (R566 to R575). -/
def State.scCtrl (s : State) (d : DieId) (v : Nat) : State :=
  let s := if bit v 0 then s.tokenWrite else s
  let s := if bit v 1 then s.quote d else s
  let s := if bit v 2 then s.commitFw else s
  let s := if bit v 3 then s.commitPlan else s
  let s := if bit v 4 then s.testOver else s
  if bit v 5 then s.swap else s

/-- A write of MR_CTRL (R543, R544). -/
def State.mrCtrl (s : State) (d : DieId) (v : Nat) : State :=
  let s := if bit v 3 then s.handoverStart d (bits v 2 0) else s
  if bit v 4 then s.seizePail d (bits v 2 0) else s

/-- A write of HB_CTRL (R602, R603). -/
def State.hbCtrl (s : State) (v : Nat) : State :=
  let s := if bit v 0 then s.hbClear else s
  if bit v 1 then s.hbSnap else s

/-- TB_MODE has been written: BACKUP that changes starts the backup servo afresh, and a source that the die no longer follows gives
way (R36, R62, log entry 54). -/
def State.tbModeWritten (s : State) (d : DieId) (old : W32) : State :=
  let v := s.fld d R.TB_MODE_BACKUP * 8 + s.fld d R.TB_MODE_SOURCE
  let was := (s.upd d fun x => x.setReg 0x20000 old).source d
  let t := if bit v 3 == bit old.toNat 3 then s else s.upd d fun x => { x with clk := { x.clk with backup := {} } }
  let t := if bits v 3 0 = bits old.toNat 3 0 then t else t.setFld d R.TB_STATUS_BACKUP_ACTIVE 0
  if t.source d = was then t else t.sourceMoved d

/-- A host write to the registers of an item that can be under online test (R591). -/
def State.hostServe (s : State) (d : DieId) (wr : Writer) (r : RegDesc) (i : Nat) : State :=
  if wr ≠ .host then s
  else match r.claim with
    | .ln => s.serve d .lane i
    | .dm => s.serve d .dmaChannel i
    | .ck => s.serve d .checkUnit i
    | .aup => s.serve d .audioPort i
    | _ => s

/-- What a word of an accepted write does beside being stored; `old` is what the register held. -/
def State.hook (s : State) (d : DieId) (r : RegDesc) (i : Nat) (v old : W32) : State :=
  let n := v.toNat
  match r.base with
  | 0x10008 => s.pwCtrl d n
  | 0x1001C => s.warnCfgWritten d
  | 0x20000 => s.tbModeWritten d old
  | 0x2000C => s.tbCtrl d n
  | 0x30010 => s.plCtrl d n
  | 0x80014 => if bit n 0 then s.rapWrite d i else s
  | 0x90004 => s.rateWrite d i 0 v
  | 0x90008 => s.rateWrite d i 1 v
  | 0x90018 => s.rateWrite d i 2 v
  | 0x94000 => s.poolWrite d i v
  | 0xC000C => s.commitWrite d i (bits n 7 0)
  | 0x100004 => s.lnPwrWritten d i
  | 0x100014 => s.xptWritten d i
  | 0x100050 => s.readapt d i v
  | 0x190104 => s.upd d fun x => x.gateSelect i (x.fld R.TQ_GATE_SEL_SEL i) (x.fld R.TQ_GATE_BASE_T0 i) (x.fld R.TQ_GATE_BASE_T1 i)
  | 0x1D100C => s.dmaCtrl d i n
  | 0x1E0100 => s.setFld d R.CK_U_FLAGS_FIRST 1 i
  | 0x1F000C => s.release d (bits n 11 0)
  | 0x1F0010 => s.upd d fun x => x.threadRestart (bits n 11 0)
  | 0x200008 => s.mrCtrl d n
  | 0x210008 => s.scCtrl d n
  | 0x220008 => if bit n 0 then s.fuseRepair d else s
  | 0x220200 => if bit n 0 then s.upd d fun x => x.pertArmed i else s
  | 0x230008 => s.hbCtrl n
  | _ => s

/-- One word of an accepted write: the register takes it, and its effect follows. -/
def State.writeWord (s : State) (d : DieId) (wr : Writer) (a : Nat) (v : W32) : State :=
  match findReg a with
  | none => s
  | some (r, i, _) =>
    let s := s.hostServe d wr r i
    let old := (s.die d).reg a
    let s := if r.base = 0x194000 then s.upd d fun x => x.shaperRate i (bits v.toNat 28 0)
      else if keptAside a then s else s.upd d fun x => x.setReg a (r.merge old v)
    s.hook d r i v old

/-- The compare units of which a write has written a word. -/
def cmpUnits (ws : Words) : List Nat :=
  uniq ((ws.filter fun e => decide (0x20400 ≤ e.1 ∧ e.1 < 0x20800)).map fun e => (e.1 - 0x20400) / 16)

/-- An accepted write: its words in address order; compare units take their new values together, in the next vat cycle (R74, R414). -/
def State.writeWords (s : State) (d : DieId) (wr : Writer) (ws : Words) : State :=
  (cmpUnits ws).foldl (fun s u => s.cmpWritten d u) (ws.foldl (fun s e => s.writeWord d wr e.1 e.2) s)

/-- A write of registers: applied whole, or refused whole with the index and the code of its first refused word (R414). -/
def State.regWrite (s : State) (d : DieId) (wr : Writer) (ws : Words) : State × Option (Nat × Nat) :=
  match s.writeRefused d wr ws with
  | some e => (s, some e)
  | none => (s.writeWords d wr ws, none)

/-- What a refused ADMIT or LIBRARY says beside its code: BUSY in PL_RESULT (R90, R110). -/
def State.busyResult (s : State) (a v code : Nat) : State :=
  if a = 0x30010 ∧ code = 6 ∧ (bit v 0 || bit v 3) then s.plBusyResult else s

end Sys2Proof.Machine
end

