-- ==== Sys2Proof/Machine/RegCmds.lean ====
section
/-! DEFINITION. The commands that are one write of a register, by the host or by a control core: each writes its word through the
register path, so that it is refused as any write of that word would be. -/

namespace Sys2Proof.Machine

/-- A register write that a core's store makes is refused by latching the code and the address in PA_COREc_REFUSED (R513). -/
def State.coreRefused (s : State) (d : DieId) (c a code : Nat) : State :=
  (s.setFld d R.PA_CORE_REFUSED_REF_ADDR a c).setFld d R.PA_CORE_REFUSED_REF_CODE code c

/-- The die's firmware, or its recovery, runs: requests reach it. -/
def Die.up (x : Die) : Bool := x.pw.phase != .held && x.pw.phase != .released
/-- A host's write is refused whatever it writes: recovery takes none, and die 1 is off in Standby (R565, R629). -/
def State.hostBarred (s : State) (d : DieId) : Bool :=
  s.fld 0 R.SC_STATUS_RECOVERY == 1 || (d ≠ 0 && s.fld 0 R.PW_STATUS_STATE == 2)

/-- One word written to a register. A refusal is answered to a host and latched for a core; a host's write does not reach a die that is
not up. -/
def State.command (s : State) (d : DieId) (wr : Writer) (a : Nat) (v : W32) : State :=
  if wr = .host ∧ !(s.die d).up then s
  else if wr = .host ∧ s.hostBarred d then s.send (.refused d a 16)
  else match s.regWrite d wr [(a, v)] with
  | (t, none) => t
  | (_, some (_, code)) =>
    let s := s.busyResult a v.toNat code
    match wr with
    | .host => s.send (.refused d a code)
    | .core c => s.coreRefused d c a code

/-- The register of a rate change (R249): RC_RATE, RC_MAXRATE, RC_QP of channel `n`, or the rate of pool `n`. -/
def rateAddr (field n : Nat) : Nat := match field with
  | 0 => 0x90004 + 64 * n
  | 1 => 0x90008 + 64 * n
  | 2 => 0x90018 + 64 * n
  | _ => 0x94000 + 32 * n

/-- CMP_WRITE (R74). -/
def execCmpWrite (d : DieId) (wr : Writer) (u : Fin 64) (word : Fin 4) (value : W32) (s : State) : Result :=
  onDie s d true (s.command d wr (0x20400 + 16 * u.val + 4 * word.val) value)
/-- TB_SNAP (R68). -/
def execTbSnap (d : DieId) (wr : Writer) (s : State) : Result := onDie s d true (s.command d wr 0x2000C 1)
/-- STEP_GO (R58). -/
def execStepGo (d : DieId) (wr : Writer) (s : State) : Result := onDie s d true (s.command d wr 0x2000C 2)
/-- ADMIT (R97). -/
def execAdmitPlan (d : DieId) (wr : Writer) (s : State) : Result := onDie s d true (s.command d wr 0x30010 1)
/-- SWITCH (R97). -/
def execSwitch (d : DieId) (wr : Writer) (s : State) : Result := onDie s d true (s.command d wr 0x30010 2)
/-- CANCEL (R113). -/
def execCancel (d : DieId) (wr : Writer) (s : State) : Result := onDie s d true (s.command d wr 0x30010 4)
/-- LIBRARY (R107). -/
def execLibrary (d : DieId) (wr : Writer) (s : State) : Result := onDie s d true (s.command d wr 0x30010 8)
/-- PA_RELEASE (R518). -/
def execPaRelease (d : DieId) (wr : Writer) (t : Fin 4096) (s : State) : Result :=
  onDie s d true (s.command d wr (0x1F000C) (BitVec.ofNat 32 t))
/-- PA_RESTART (R527). -/
def execPaRestart (d : DieId) (wr : Writer) (t : Fin 4096) (s : State) : Result :=
  onDie s d true (s.command d wr (0x1F0010) (BitVec.ofNat 32 t))
/-- DMA_START (R490). -/
def execDmaStart (d : DieId) (wr : Writer) (ch : Fin 128) (s : State) : Result :=
  onDie s d true (s.command d wr (0x1D100C + 64 * ch.val) (1))
/-- DMA_RESTART (R504). -/
def execDmaRestart (d : DieId) (wr : Writer) (ch : Fin 128) (s : State) : Result :=
  onDie s d true (s.command d wr (0x1D100C + 64 * ch.val) (2))
/-- FORCE_RAP (R198). -/
def execForceRap (d : DieId) (wr : Writer) (n : Fin 256) (value : W32) (s : State) : Result :=
  onDie s d true (s.command d wr (0x80014 + 256 * n.val) value)
/-- COMMIT (R299). -/
def execCommit (d : DieId) (wr : Writer) (n : Fin 256) (value : W32) (s : State) : Result :=
  onDie s d true (s.command d wr (0xC000C + 256 * n.val) value)
/-- READAPT (R329). -/
def execReadapt (d : DieId) (wr : Writer) (k : Fin 512) (value : W32) (s : State) : Result :=
  onDie s d true (s.command d wr (0x100050 + 512 * k.val) value)
/-- LN_PWR_WRITE (R330). -/
def execLnPwrWrite (d : DieId) (wr : Writer) (k : Fin 512) (value : W32) (s : State) : Result :=
  onDie s d true (s.command d wr (0x100004 + 512 * k.val) value)
/-- XPT_WRITE (R341). -/
def execXptWrite (d : DieId) (wr : Writer) (k : Fin 512) (value : W32) (s : State) : Result :=
  onDie s d true (s.command d wr (0x100014 + 512 * k.val) value)
/-- SHAPER_RATE_WRITE (R393). -/
def execShaperRateWrite (d : DieId) (wr : Writer) (sh : Fin 1024) (value : W32) (s : State) : Result :=
  onDie s d true (s.command d wr (0x194000 + 16 * sh.val) value)
/-- GATE_SELECT (R398). -/
def execGateSelect (d : DieId) (wr : Writer) (sp : Fin 8) (value : W32) (s : State) : Result :=
  onDie s d true (s.command d wr (0x190104 + 32 * sp.val) value)
/-- HANDOVER (R543). -/
def execHandover (d : DieId) (wr : Writer) (p : Fin 8) (s : State) : Result :=
  onDie s d true (s.command d wr (0x200008) (BitVec.ofNat 32 (8 + p.val)))
/-- SEIZE (R544). -/
def execSeize (d : DieId) (wr : Writer) (p : Fin 8) (s : State) : Result :=
  onDie s d true (s.command d wr (0x200008) (BitVec.ofNat 32 (16 + p.val)))
/-- TOKEN (R569). -/
def execToken (d : DieId) (wr : Writer) (s : State) : Result := onDie s d true (s.command d wr 0x210008 1)
/-- QUOTE (R575). -/
def execQuote (d : DieId) (wr : Writer) (s : State) : Result := onDie s d true (s.command d wr 0x210008 2)
/-- COMMIT_FW (R567). -/
def execCommitFw (d : DieId) (wr : Writer) (s : State) : Result := onDie s d true (s.command d wr 0x210008 4)
/-- COMMIT_PLAN (R567). -/
def execCommitPlan (d : DieId) (wr : Writer) (s : State) : Result := onDie s d true (s.command d wr 0x210008 8)
/-- TEST_END (R572). -/
def execTestEnd (d : DieId) (wr : Writer) (s : State) : Result := onDie s d true (s.command d wr 0x210008 16)
/-- SWAP (R566). -/
def execSwap (d : DieId) (wr : Writer) (s : State) : Result := onDie s d true (s.command d wr 0x210008 32)
/-- FUSE_REPAIR (R588). -/
def execFuseRepair (d : DieId) (wr : Writer) (s : State) : Result := onDie s d true (s.command d wr 0x220008 1)
/-- PERT_ARM (R593). -/
def execPertArm (d : DieId) (wr : Writer) (u : Fin 16) (value : W32) (s : State) : Result :=
  onDie s d true (s.command d wr (0x220200 + 32 * u.val) value)
/-- WARN_CFG_WRITE (R620). -/
def execWarnCfgWrite (d : DieId) (wr : Writer) (value : W32) (s : State) : Result := onDie s d true (s.command d wr 0x1001C value)
/-- WATCHDOG_KICK (R623). -/
def execWatchdogKick (d : DieId) (wr : Writer) (s : State) : Result := onDie s d true (s.command d wr 0x10008 8)
/-- PW_SNAP (R634). -/
def execPwSnap (d : DieId) (wr : Writer) (s : State) : Result := onDie s d true (s.command d wr 0x10008 4)
/-- STATE_IDLE (R630). -/
def execStateIdle (d : DieId) (wr : Writer) (s : State) : Result := onDie s d true (s.command d wr 0x10008 1)
/-- STATE_STANDBY (R629). -/
def execStateStandby (d : DieId) (wr : Writer) (s : State) : Result := onDie s d true (s.command d wr 0x10008 2)
/-- STATE_DRY (R629). -/
def execStateDry (d : DieId) (wr : Writer) (s : State) : Result := onDie s d true (s.command d wr 0x10008 3)
/-- RATE_WRITE (R249). A pool above 15 has no register. -/
def execRateWrite (d : DieId) (wr : Writer) (field : Fin 4) (n : Fin 256) (value : W32) (s : State) : Result :=
  onDie s d true (s.command d wr (rateAddr field n) value)
/-- HB_SNAP (R602). -/
def execHbSnap (wr : Writer) (s : State) : Result := onDie s 0 true (s.command 0 wr 0x230008 2)
/-- CLEAR (R603). -/
def execClear (wr : Writer) (s : State) : Result := onDie s 0 true (s.command 0 wr 0x230008 1)

end Sys2Proof.Machine
end

