-- ==== Sys2Proof/Machine/CoreMem.lean ====
section
/-! DEFINITION. Loads and stores of the control cores (R183, R512, R513): the register space below 0x25_0000, uncached, and the DRAM
windows, through the caches. -/

namespace Sys2Proof.Machine

/-- The end of the register space in a core's address map (R512). -/
def regSpaceEnd : Nat := 0x250000

/-- The byte address of a load or a store. -/
def CoreRegs.memAddr (g : CoreRegs) (ra : Nat) (imm : W16) : Nat := (g.get ra + sext16 imm).toNat

/-- The instruction's own course: its next instruction follows, its cycles are used and `f` gives the registers it writes. -/
def State.coreGo (s : State) (d : DieId) (c n cycles : Nat) (f : CoreRegs → CoreRegs) : State :=
  s.upd d fun x => (x.modCore c fun k => { k with regs := (f k.regs).next }).spend c n cycles

/-- What a load of a register returns: the value of a Silcel READ of the word (R513); of a word that a READ refuses, a free value
(log entry 55). -/
def State.regLoad (s : State) (d : DieId) (a : Nat) : W32 × State :=
  if s.noAddress d a then (BitVec.ofNat 32 s.draw.1, s.draw.2) else (s.readReg d a, s.readEffect a)

/-- A load of `size` bytes (R183, R512): alignment trap, access trap, register space, or DRAM through the cache; an uncorrectable DRAM
read stops the thread (R527). -/
def State.coreLoad (s : State) (d : DieId) (c op rd ra : Nat) (imm : W16) (size : Nat) (e : Ecc) : State :=
  s.coreDo d c fun n s =>
    let a := (s.coreRegs d c).memAddr ra imm
    if a % size ≠ 0 then s.stopThread d n 2
    else if a < regSpaceEnd then
      let v := s.regLoad d (a / 4 * 4)
      let w := v.1.toNat / 256 ^ (a % 4) % 256 ^ size
      v.2.coreGo d c n (Config.coreCycles op) fun g => g.set rd (BitVec.ofNat 32 w)
    else match (s.die d).window c a with
      | none => s.stopThread d n 3
      | some m =>
        let (s, cycles, bad) := s.fill d c (m / 64) e
        if bad then s.stopThread d n 4
        else
          let w := leNat ((s.die d).cached c m size)
          s.coreGo d c n cycles fun g => g.set rd (BitVec.ofNat 32 w)

/-- A store of `size` bytes. A store into a register word takes the other bytes of the word from what a read returns (log entry 55);
a store into DRAM brings the line into the cache, which is write-allocate (R511). -/
def State.coreStore (s : State) (d : DieId) (c op rd ra : Nat) (imm : W16) (size : Nat) (e : Ecc) : State :=
  s.coreDo d c fun n s =>
    let g := s.coreRegs d c
    let a := g.memAddr ra imm
    let v := (g.get rd).toNat % 256 ^ size
    if a % size ≠ 0 then s.stopThread d n 2
    else if a < regSpaceEnd then
      let b := a / 4 * 4
      let old := (s.readReg d b).toNat
      let part := old / 256 ^ (a % 4) % 256 ^ size
      let w := old - part * 256 ^ (a % 4) + v * 256 ^ (a % 4)
      (s.coreGo d c n (Config.coreCycles op) id).command d (.core (Fin.ofNat 8 c)) b (BitVec.ofNat 32 w)
    else match (s.die d).window c a with
      | none => s.stopThread d n 3
      | some m =>
        let (s, _, bad) := s.fill d c (m / 64) e
        if bad then s.stopThread d n 4
        else (s.upd d fun x => x.cacheStore c m (natLE size v)).coreGo d c n (Config.coreCycles op) id

/-- LDW (R183). -/
def execLdw (d : DieId) (c : Fin 8) (rd ra : Fin 32) (imm : W16) (ecc : Ecc) (s : State) : Result :=
  onDie s d (Instr.wf (.ldw d c rd ra imm ecc)) (s.coreLoad d c 0x20 rd ra imm 4 ecc)
/-- LDHU (R183). -/
def execLdhu (d : DieId) (c : Fin 8) (rd ra : Fin 32) (imm : W16) (ecc : Ecc) (s : State) : Result :=
  onDie s d (Instr.wf (.ldhu d c rd ra imm ecc)) (s.coreLoad d c 0x21 rd ra imm 2 ecc)
/-- LDBU (R183). -/
def execLdbu (d : DieId) (c : Fin 8) (rd ra : Fin 32) (imm : W16) (ecc : Ecc) (s : State) : Result :=
  onDie s d (Instr.wf (.ldbu d c rd ra imm ecc)) (s.coreLoad d c 0x22 rd ra imm 1 ecc)
/-- STW (R183). -/
def execStw (d : DieId) (c : Fin 8) (rd ra : Fin 32) (imm : W16) (ecc : Ecc) (s : State) : Result :=
  onDie s d (Instr.wf (.stw d c rd ra imm ecc)) (s.coreStore d c 0x23 rd ra imm 4 ecc)
/-- STH (R183). -/
def execSth (d : DieId) (c : Fin 8) (rd ra : Fin 32) (imm : W16) (ecc : Ecc) (s : State) : Result :=
  onDie s d (Instr.wf (.sth d c rd ra imm ecc)) (s.coreStore d c 0x24 rd ra imm 2 ecc)
/-- STB (R183). -/
def execStb (d : DieId) (c : Fin 8) (rd ra : Fin 32) (imm : W16) (ecc : Ecc) (s : State) : Result :=
  onDie s d (Instr.wf (.stb d c rd ra imm ecc)) (s.coreStore d c 0x25 rd ra imm 1 ecc)

end Sys2Proof.Machine
end

