-- ==== Sys2Proof/Machine/Hub.lean ====
section
/-! DEFINITION. The line pulse of a cadence and everything that the spec places at it (R46), and the step point (R59). -/

namespace Sys2Proof.Machine

/-! ### The end of a window (R126, R129, R145) -/

/-- The vat clock over a window in kHz: a free value within the contract, less what VAT_CLOCK perturbations take from it
(R126, R594; log entry 57). -/
def State.vatClock (s : State) (d : DieId) : Nat × State :=
  let (v, s) := s.draw
  (1198800 + v % 2401 - (s.die d).pertSum 10 0 0, s)

/-- The tiles of a cadence's partition, with their programs' lengths (R123). -/
def Die.tilesOn (x : Die) (c : Nat) : List Nat :=
  (x.recsOf 2 0x201).filterMap fun r => if num r.2.body 0 1 = c then some r.2.idx else none

/-- A tile at the end of its window of `cycles`: a program that has not ended is an overrun, its slack region apart, which may pause
at its end; a window that is shorter than the program cuts the region off, which is an overrun too (R129, R133, R144). -/
def State.tileWindowEnd (s : State) (d : DieId) (c t cycles : Nat) : State :=
  let v := (s.die d).tile t
  let s :=
    if !v.running then s
    else
      let deferred := v.prog.slack && decide (v.prog.liveEnd ≤ v.cycle)
      let s :=
        if deferred ∧ v.prog.length ≤ cycles then s
        else
          let frag := (s.die d).tileFrag t
          ((s.count d R.VT_OVERRUNS).upd d fun x => (x.lastFault t 1).hitFragment frag 1).eventCad d R.VT_EVENTS_OVERRUN 0 t c frag
      s.upd d fun x => x.setTile t (if deferred then (x.tile t).slackEnd else { x.tile t with running := false })
  s.upd d fun x => x.setTile t ((x.tile t).rebase cycles)

/-- The vat cycles of a window of `len` at `khz`: the floor or the ceiling of its length, by where the vat-cycle edges fall against
the pulse, which no rule fixes: a free value (R46, log entry 62). -/
def windowCycles (len khz free : Nat) : Nat := (len * khz + free % 2 * (65536 * 1000000 - 1)) / (65536 * 1000000)

/-- The window that ends with the pulse at `t` is measured and its tiles' programs end (R126, R129). -/
def State.windowEnd (s : State) (d : DieId) (c t : Nat) : State :=
  let (f, s) := s.vatClock d
  let master := (s.die d).masterCad
  let low := decide (f < 1198800)
  let s := if c = master then s.setFld d R.VT_CLOCK_KHZ f else s
  let s := if low then (s.eventCad d R.VT_EVENTS_CLOCK_LOW 0 c c (1198800 - f)).breach d .clockLow 0 (some c) else s
  let s := s.upd d fun x => x.modCad c fun k => { k with low := low }
  let s := s.setFld d R.VT_STATUS_CLOCK_LOW (b2n ((List.range 8).any fun k => ((s.die d).cad k).low))
  let (e, s) := s.draw
  let cycles := windowCycles (t - ((s.die d).cad c).lastPulse) f e
  let idle (i : Nat) : Nat := cycles - ((s.die d).tile i).prog.length
  let tiles := (s.die d).tilesOn c
  let least := tiles.foldl (fun m i => min m (idle i)) 0xFFFF
  let s := s.setFld d R.VT_CAD_MARGIN_MARGIN (min (s.fld d R.VT_CAD_MARGIN_MARGIN c) least) c
  tiles.foldl (fun s i => s.tileWindowEnd d c i cycles) s

/-! ### The opening of a window (R125, R127, R130) -/

/-- Every tile of the partition starts the program that its line map gives for the line. -/
def Die.windowOpen (x : Die) (c line : Nat) : Die :=
  (x.tilesOn c).foldl (fun x t =>
    match (x.sched t).bind fun e => (e.2.progAt line).bind e.2.prog with
    | some (first, w) => x.setTile t ((x.tile t).openWindow line first w)
    | none => x) x
/-- The tiles of a cadence open no window: what was on its way lands, for no latency lasts as long as a line. -/
def Die.windowShut (x : Die) (c : Nat) : Die :=
  (x.tilesOn c).foldl (fun x t => x.setTile t { (x.tile t).runTo ((x.tile t).cycle + 8) with open_ := false, running := false }) x
/-- Whether the regions of a cadence are in their gap's self-refresh (R478). -/
def Die.regionsSelf (x : Die) (c : Nat) (self : Bool) : Die :=
  (List.range 16).foldl (fun x r => if x.regionOwner r = c then x.setFld R.MC_REG_STATE_SELF (b2n self) r else x) x

/-! ### The work of a frame's line -/

/-- The frame stores that a cadence consumes. -/
def Die.storesRead (x : Die) (c : Nat) : List Nat :=
  (x.recsOf 0xB 0xB03).filterMap fun r => if num r.2.body 3 1 = c then some r.2.idx else none

/-- Die 0 sends its decision for each in-step decode channel (R274). -/
def State.sendDecisions (s : State) (c : Nat) : State :=
  ((s.die 0).decsOn c).foldl (fun s n =>
    if s.fld 0 R.CL_DC_CFG_INSTEP n = 0 then s
    else match ((s.die 0).dec n).decision with
      | some (f, pocs) => s.sendControl 0 (.decide n f pocs)
      | none => s) s

/-- What stands at a line of a frame outside a gap (R46): inputs are judged, stores and decoders give their pictures, the churn composes, and
the coder takes what is composed. -/
def State.linePart (s : State) (d : DieId) (c : Nat) (g : Grid) (m : Int) : State :=
  let s := s.memPulse d c g m
  let s := if m % g.l = 0 then ((s.die d).storesRead c).foldl (fun s n => s.storeRead d n) s else s
  let x := s.die d
  let follows (n : Nat) : Bool := d == 1 && x.linkUp && x.flag R.CL_DC_CFG_INSTEP n
  let s := s.decPulse d c g m follows
  let s := if d = 0 ∧ m % g.l = 0 ∧ s.dual ∧ (s.die 0).linkUp then s.sendDecisions c else s
  let (s, slices) := (s.churnPulse d c g m).encPulse d c g m
  (slices.foldl (fun s e => (s.txSlices d g e).checkSlices d m e) s).pailPulse d c g m

/-- The delays and the timeouts of threads count line pulses of the master cadence (R524). -/
def Die.threadTimes (x : Die) : Die :=
  x.par.threads.foldl (fun x e =>
    if e.2.state = .delayed ∨ e.2.state = .waiting then x.modTh e.1 fun t => { t with expiry := t.expiry - 1 } else x) x

/-- The waits of DMA channels on a cadence see its line pulse: a WAIT LINE its line, and every timeout one pulse less (R498). -/
def DmaWait.pulsed (w : DmaWait) (now : Nat) : DmaWait :=
  { w with left := w.left - 1, seen := w.seen || (w.cond == 0 && w.line == now) }
/-- The waits of the channels on a cadence take its pulse. -/
def Die.dmaLine (x : Die) (c now : Nat) : Die :=
  let one (e : Nat × DmaChan) : Nat × DmaChan :=
    if x.fld R.DM_CH_CFG_CADENCE e.1 = c then (e.1, { e.2 with wait := e.2.wait.map fun w => w.pulsed now }) else e
  { x with dma := { x.dma with chans := x.dma.chans.map one } }

/-- Stopped channels with RESTART = 1 restart at a frame boundary of their cadence (R504). -/
def State.dmaFrame (s : State) (d : DieId) (c : Nat) : State :=
  (s.die d).dma.chans.foldl (fun s e =>
    if s.fld d R.DM_CH_CFG_CADENCE e.1 = c ∧ s.fld d R.DM_CH_CFG_RESTART e.1 = 1 then s.dmaRestart d e.1 else s) s

/-- What stands at a line in a gap as well (R46, R59; log entry 57). -/
def State.anyPart (s : State) (d : DieId) (c : Nat) (g : Grid) (m : Int) (gap : Bool) : State :=
  let hold := (s.die d).pailHolds c
  let s := s.auPulse d c m (decide (m % g.l = 0) && !gap)
  let s := (List.range 16).foldl (fun s p =>
    if s.fld d R.AU_P_CFG_CADENCE p = c then s.setFld d R.AU_P_STATUS_TX_HOLD (b2n (gap || hold)) p else s) s
  let s := s.routePulse d c g m fun _ => hold
  let s := if c = (s.die d).masterCad then
      let s := s.upd d fun x => (if gap then x else x.threadTimes).modCad c fun k => { k with next := m + 1 }
      let s := (s.die d).par.threads.foldl (fun s e => if e.2.released (g.line m) then s.release d e.1 else s) s
      s.upd d fun x => (List.range 8).foldl (fun x c => x.restall c) x
    else s
  let s := s.upd d fun x => x.dmaLine c (g.line m)
  if m % g.l = 0 ∧ !gap then s.dmaFrame d c else s

/-! ### The pulse -/

/-- LINE_PULSE: cadence `c` comes to its next line pulse, and every action placed there runs (R46); where the other die has taken a
switch at this boundary with a fragment that both run, the switch comes first (R101). -/
def State.linePulse (s : State) (d : DieId) (c : Nat) : State :=
  let s := if s.switchOwed d c then s.planSwitch d c else s
  match (s.die d).grid c with
  | none => s
  | some g =>
    let s := s.upd d fun x => x.modCad c (Cad.settle g)
    let t := ((s.die d).pulseDue c).getD (s.die d).clk.now
    let s := (s.advanceStation d t).count d R.TB_CAD_PULSES c
    let k := (s.die d).cad c
    let m := k.next
    let s := if k.window then s.windowEnd d c t else s
    let stop := s.pkg.plans.stopping.contains (planKey d c)
    let s :=
      if stop then s.stopCad d c
      else if k.inGap then
        let s := s.upd d fun x => (x.windowShut c).regionsSelf c true
        let s := if k.window then s.upd d fun x => x.encSkipped c 1 else s
        s.anyPart d c g m true
      else
        let s := s.upd d fun x => (x.regionsSelf c false).windowOpen c (g.line m)
        (s.linePart d c g m).anyPart d c g m false
    s.upd d fun x => x.modCad c fun k => { k with next := m + 1, lastPulse := t, window := !stop && !k.inGap }

def execLinePulse (d : DieId) (c : Fin 8) (s : State) : Result := onDie s d (Instr.wf (.linePulse d c)) (s.linePulse d c)
def execStepApply (d : DieId) (s : State) : Result := onDie s d (Instr.wf (.stepApply d)) (s.stepApply d)

end Sys2Proof.Machine
end

