-- ==== Sys2Proof/Machine/Silcel.lean ====
section
/-! DEFINITION. Silcel messages (R409 to R439, R565, R622, R629): the checks of R428 in their order, transactions, quarantine, replies and
posts, and what each opcode does. A request for the other die is relayed; the other die executes it when the relay arrives
(Machine/Link.lean). -/

namespace Sys2Proof.Machine

/-! ### Messages as bytes (R410, R431) -/

/-- The 32 bytes of a header. -/
def Msg.headBytes (m : Msg) : List Byte :=
  [m.version, m.opcode, m.flags, m.die] ++ natBE 2 m.tid.toNat ++ [m.epoch, m.key] ++ natBE 4 m.alive.toNat ++ natBE 2 m.lifetime.toNat
    ++ natBE 2 m.length.toNat ++ natBE 4 m.deadlineS.toNat ++ natBE 4 m.deadlineNs.toNat ++ natBE 2 m.status.toNat ++ natBE 2 m.detail.toNat
    ++ natBE 4 m.reserved.toNat
/-- The tag of a message under a key (R431). -/
def silcelTag (key : List Byte) (m : Msg) : List Byte := fixLen 16 (Config.kmac256 key (Msg.headBytes m ++ m.payload) 128 (asciiBytes "SILCEL"))
/-- `n` big-endian bytes of the payload from an offset on. -/
def msgNum (m : Msg) (o n : Nat) : Nat := beNat (subBytes m.payload o n)

/-! ### Slots (R419 to R423) -/

def Die.slot' (x : Die) (k : Nat) : SmSlot := mget (fun _ => {}) x.sm.slots k
def Die.modSlot (x : Die) (k : Nat) (f : SmSlot → SmSlot) : Die :=
  { x with sm := { x.sm with slots := mmod (fun _ => {}) x.sm.slots k f } }
def Die.slotOpen (x : Die) (k : Nat) : Bool := x.flag R.SM_SLOT_EPOCH_OPEN k

/-- The alive check of R423 on the highest ALIVE accepted and the record below it: the pair after a value that passes. -/
def aliveNext (top : W32) (seen : Nat) (v : W32) : Option (W32 × Nat) :=
  let up := (v - top).toNat
  let down := (top - v).toNat
  if 1 ≤ up ∧ up < 2 ^ 31 then some (v, if up ≤ 64 then (seen * 2 ^ up + 2 ^ (up - 1)) % 2 ^ 64 else 0)
  else if 1 ≤ down ∧ down ≤ 64 ∧ !bit seen (down - 1) then some (top, seen + 2 ^ (down - 1))
  else none

/-! ### Replies and posts (R411, R430) -/

/-- Sends a message under slot `k` of die `r`: the slot's reply counter, and a tag where the slot has a key. A message under no slot
carries neither. -/
def State.sendMsg (s : State) (r : DieId) (dst : Src) (m : Msg) (post : Bool) : State :=
  let k := m.key.toNat
  let keyed := decide (k < 4) && (s.fusesOf r).macHas k
  let s := if k < 4 then s.upd r fun x => x.modSlot k fun v => { v with replies := v.replies + 1 } else s
  let m : Msg := { m with
    version := 1, flags := BitVec.ofNat 8 ((if post then 32 else 128) + 64 * b2n keyed), alive := if k < 4 then ((s.die r).slot' k).replies else 0
    lifetime := 0, deadlineS := 0, deadlineNs := 0, reserved := 0, length := BitVec.ofNat 16 m.payload.length, tag := [] }
  s.send (.silcel r dst (if keyed then { m with tag := silcelTag ((s.fusesOf r).macKey k) m } else m))

/-- What the execution of a request answers: STATUS, DETAIL, the reply's payload, and a reset that follows the reply (KIND, TARGET,
INDEX). -/
structure Ans where
  code : Nat := 0
  detail : Nat := 0
  payload : List Byte := []
  reset : Option (Nat × Nat × Nat) := none
  deriving DecidableEq, Repr

/-- The reply to a request. -/
def State.reply (s : State) (r : DieId) (src : Src) (m : Msg) (a : Ans) : State :=
  s.sendMsg r src { m with status := BitVec.ofNat 16 a.code, detail := BitVec.ofNat 16 a.detail, payload := a.payload } false

/-- What a refusal counts and posts (R436, R437); one of step 3 is not counted in SM_REFUSED. -/
def State.refusalCount (s : State) (r : DieId) (k code : Nat) (counted : Bool) : State :=
  let s := if code ≠ 0 ∧ counted then s.count r R.SM_REFUSED else s
  if code = 4 then (s.count r R.SM_EXPIRED).event r R.SM_EVENTS_EXPIRED 0 k
  else if code = 6 then s.event r R.SM_EVENTS_BUSY 0 k
  else s

/-- A refusal that opens no transaction. -/
def State.turnAway (s : State) (r : DieId) (src : Src) (m : Msg) (code : Nat) (detail : Nat := 0) (counted : Bool := true) : State :=
  (s.refusalCount r m.key.toNat code counted).reply r src m { code := code, detail := detail }

/-! ### Transactions and quarantine (R424 to R426) -/

/-- The open transaction of a slot and a TID. -/
def Die.trans (x : Die) (k tid : Nat) : Option SmTrans := x.sm.trans.find? fun t => t.key == k && t.tid == tid
/-- The quarantine of a slot and a TID at a supervisor time. -/
def Die.quarantine (x : Die) (now k tid : Nat) : Option SmQuar :=
  x.sm.quar.find? fun q => q.key == k && q.tid == tid && decide (now < q.until_)
/-- TIDs in quarantine. -/
def Die.quarFill (x : Die) (now : Nat) : Nat := (x.sm.quar.filter fun q => decide (now < q.until_)).length

/-- A transaction opens (R424); the request counts as accepted on its slot (R434, log entry 56). -/
def State.openTrans (s : State) (r : DieId) (src : Src) (m : Msg) : State :=
  let t : SmTrans := ⟨m.key.toNat, m.tid.toNat, m, src, s.now + m.lifetime.toNat * msec, false⟩
  let s := s.count r R.SM_REQUESTS
  s.upd r fun x =>
    let x := x.modSlot m.key.toNat fun v => { v with lastReq := s.now }
    { x with sm := { x.sm with trans := x.sm.trans ++ [t] } }

/-- The execution of a transaction has started. -/
def Die.startTrans (x : Die) (k tid : Nat) : Die :=
  { x with sm := { x.sm with trans := x.sm.trans.map fun t => if t.key == k && t.tid == tid then { t with started := true } else t } }

/-- A transaction completes: its reply is sent and its TID is quarantined with its STATUS (R424). -/
def State.complete (s : State) (r : DieId) (src : Src) (m : Msg) (a : Ans) : State :=
  let k := m.key.toNat
  let q : SmQuar := ⟨k, m.tid.toNat, s.now + s.fld r R.SM_CFG_QUAR * msec, a.code⟩
  let s := s.upd r fun x =>
    { x with sm := { x.sm with trans := x.sm.trans.filter fun t => !(t.key == k && t.tid == m.tid.toNat)
                               quar := (x.sm.quar.filter fun e => decide (s.now < e.until_)) ++ [q] } }
  (s.refusalCount r k a.code true).reply r src m a

/-! ### Which requests a die takes -/

/-- A datagram reaches the Silcel handler of the die: its firmware or its recovery runs, and the sub-port is up in Standby (R565, R628). -/
def State.hears (s : State) (r : DieId) (src : Src) : Bool :=
  (s.die r).up && (s.fld 0 R.PW_STATUS_STATE != 2 || (r == 0 && src.subport == 0))
/-- In recovery die 0 executes only what R565 lists: PING, HELLO, READ of the SY and SC blocks, an image transfer with target 1, and
RESET of kind 0; none of the transfer after a fuse fault. -/
def State.recoveryBars (s : State) (d : DieId) (m : Msg) : Bool :=
  if s.fld 0 R.SC_STATUS_RECOVERY = 0 ∨ d ≠ 0 then false
  else
    let fuseFault := s.fld 0 R.SC_BOOT_CODE == 1
    match m.opcode.toNat with
    | 0x01 | 0x02 => false
    | 0x10 => blockOf (msgNum m 0 4) != some 0 && blockOf (msgNum m 0 4) != some 19
    | 0x20 => fuseFault || msgNum m 0 1 != 1
    | 0x21 | 0x22 => fuseFault
    | 0x60 => msgNum m 0 1 != 0
    | _ => true

/-! ### Steps 10 and 11: what the opcodes do, on die `d`; `r` is the receiving die -/

/-- An answer that refuses. -/
def refuse (code : Nat) (detail : Nat := 0) : Ans := { code := code, detail := detail }
/-- A request whose payload keeps its layout, and whose range and present state do not refuse it, is executed by `f`. -/
def State.judged (s : State) (d : DieId) (m : Msg) (layout range : Bool) (f : State × Ans) : State × Ans :=
  if !layout then (s, refuse 1) else if !range then (s, refuse 10) else if s.recoveryBars d m then (s, refuse 16) else f

/-- The words of `n` registers from `a` on lie in one block (R413). -/
def oneBlock (a n : Nat) : Bool := a % 4 == 0 && (blockOf a).isSome && blockOf a == blockOf (a + 4 * (n - 1))

/-- PING (R420). -/
def State.runPing (s : State) (r d : DieId) (m : Msg) : State × Ans :=
  let k := m.key.toNat
  let x := s.die r
  let y := s.die d
  let b := natBE 4 (y.reg 4).toNat ++ natBE 4 (y.fld R.PW_EPOCH) ++ natBE 4 (x.slot' k).nonce.toNat ++ natBE 1 (x.fld R.SM_SLOT_EPOCH_EPOCH k)
    ++ natBE 1 (b2n (x.slotOpen k) + 2 * x.fld R.SM_SLOT_EPOCH_VALID k) ++ [0, 0] ++ natBE 4 (x.fld R.SM_SLOT_ALIVE k) ++ natBE 8 (wrapOf y.clk.now)
  s.judged d m m.payload.isEmpty true (s, { payload := b })

/-- The registers of subscription `i`. -/
def Die.setSub (x : Die) (i active key : Nat) (src : Src) (port blocks : Nat) : Die :=
  let x := (((x.setFld R.SM_SUB_CFG_ACTIVE active i).setFld R.SM_SUB_CFG_KEY key i).setFld R.SM_SUB_CFG_IPV6 (b2n src.ipv6) i).setFld
    R.SM_SUB_CFG_DEST_PORT port i
  ((x.setFld R.SM_SUB_BLOCKS_BLOCKS blocks i).setFld R.SM_SUB_POSTS 0 i).setFld R.SM_SUB_DROPS 0 i
/-- Subscription `i` of a die ends. -/
def Die.endSub (x : Die) (i : Nat) : Die :=
  let x := x.setSub i 0 0 {} 0 0
  { x with sm := { x.sm with subs := mput (fun _ => {}) x.sm.subs i {} } }
/-- The subscription belongs to slot `k` of die `r`. -/
def Die.subOf (x : Die) (i k : Nat) (r : DieId) : Bool :=
  x.flag R.SM_SUB_CFG_ACTIVE i && x.fld R.SM_SUB_CFG_KEY i == k && (mget (fun _ => ({} : Sub)) x.sm.subs i).rx == r
/-- The subscriptions of slot `k` of die `r` end on a die. -/
def Die.endSubs (x : Die) (k : Nat) (r : DieId) : Die :=
  (List.range 4).foldl (fun x i => if x.subOf i k r then x.endSub i else x) x

/-- HELLO (R421): the receiving die's slot opens or sets a new epoch. -/
def State.runHello (s : State) (r d : DieId) (m : Msg) : State × Ans :=
  let k := m.key.toNat
  s.judged d m (m.payload.length == 8 && zeros m.payload 4 4) true
    (if msgNum m 0 4 ≠ ((s.die r).slot' k).nonce.toNat then (s, refuse 3)
     else
       let s := (s.upd 0 fun x => x.endSubs k r).upd 1 fun x => x.endSubs k r
       let s := s.upd r fun x =>
         let x := ((x.setFld R.SM_SLOT_EPOCH_EPOCH m.epoch.toNat k).setFld R.SM_SLOT_EPOCH_VALID 1 k).setFld R.SM_SLOT_EPOCH_OPEN 1 k
         (x.setFld R.SM_SLOT_ALIVE m.alive.toNat k).modSlot k fun v => { v with seen := 0 }
       (s.event r R.SM_EVENTS_EPOCH_SET 0 k, {}))

/-- The values of `n` registers from `a` on, in address order, with what each read does (R413, R415). -/
def State.readWords (s : State) (d : DieId) (a : Nat) : Nat → List W32 × State
  | 0 => ([], s)
  | n + 1 =>
    let v := s.readReg d a
    let (l, t) := (s.readEffect a).readWords d (a + 4) n
    (v :: l, t)

/-- READ (R413, R415). -/
def State.runRead (s : State) (d : DieId) (m : Msg) : State × Ans :=
  let a := msgNum m 0 4
  let n := msgNum m 4 2
  s.judged d m (m.payload.length == 8 && zeros m.payload 6 2) (decide (1 ≤ n ∧ n ≤ 2046))
    (if !oneBlock a n ∨ (List.range n).any (fun i => s.noAddress d (a + 4 * i)) then (s, refuse 11)
     else
       let (l, t) := s.readWords d a n
       (t, { payload := m.payload ++ l.flatMap fun v => natBE 4 v.toNat }))

/-- WRITE (R413, R414). -/
def State.runWrite (s : State) (d : DieId) (m : Msg) : State × Ans :=
  let a := msgNum m 0 4
  let n := msgNum m 4 2
  s.judged d m (decide (8 ≤ m.payload.length) && zeros m.payload 6 2 && m.payload.length == 8 + 4 * n) (decide (1 ≤ n ∧ n ≤ 2046))
    (if !oneBlock a n then (s, refuse 11)
     else
       let ws : Words := (List.range n).map fun i => (a + 4 * i, BitVec.ofNat 32 (msgNum m (8 + 4 * i) 4))
       match s.regWrite d .host ws with
       | (t, none) => (t, {})
       | (_, some (i, code)) => (s.busyResult (a + 4 * i) (msgNum m (8 + 4 * i) 4) code, refuse code i))

/-- The bits of a register's w1c fields. -/
def w1cMask (a : Nat) : W32 :=
  match findReg a with
  | some (r, _, _) => r.fields.foldl (fun w f => if f.ty == .w1c then putBits w f.hi f.lo (2 ^ 32 - 1) else w) 0
  | none => 0

/-- MODIFY (R413): one access; a zero bit of MASK in a w1c field clears nothing. -/
def State.runModify (s : State) (d : DieId) (m : Msg) : State × Ans :=
  let a := msgNum m 0 4
  let mask := BitVec.ofNat 32 (msgNum m 4 4)
  let value := BitVec.ofNat 32 (msgNum m 8 4)
  s.judged d m (m.payload.length == 12) true
    (if !oneBlock a 1 ∨ s.noAddress d a then (s, refuse 11)
     else
       let w := (s.readReg d a &&& ~~~mask &&& ~~~(w1cMask a)) ||| (value &&& mask)
       match s.regWrite d .host [(a, w)] with
       | (t, none) => (t, { payload := natBE 4 (t.readReg d a).toNat })
       | (_, some (_, code)) => (s.busyResult a w.toNat code, refuse code))

/-! #### Image transfers (R433, R566) -/

/-- A flash range meets a protected one: the boot directory or the running firmware slot (R566). -/
def State.protects (s : State) (off n : Nat) : Bool :=
  decide (off < 65536) || (match s.pkg.fw, s.pkg.dir with
    | some f, some dir =>
      let a := if f.slotB then dir.slotB else dir.slotA
      decide (off < a + 4 * 2 ^ 20 ∧ a < off + n)
    | _, _ => false)

/-- IMAGE_OPEN. -/
def State.runImageOpen (s : State) (d : DieId) (m : Msg) : State × Ans :=
  let t := msgNum m 0 1
  let n := msgNum m 4 4
  let off := msgNum m 8 4
  let top := match t with | 0 => 32 * 2 ^ 20 | 1 => s.flashSize | 2 => 65536 | _ => 0
  s.judged d m (m.payload.length == 12 && zeros m.payload 1 3) (decide (1 ≤ n ∧ n ≤ top) && (t != 1 || off % 65536 == 0))
    (if t = 1 ∧ s.flashSize < off + n then (s, refuse 11)
     else if t = 1 ∧ s.protects off n then (s, refuse 14)
     else if (s.die d).sm.xfer.isSome ∨ (t = 0 ∧ s.plState = 1) then (s, refuse 6)
     else
       (s.upd d fun x => { x with sm := { x.sm with
         xfer := some ⟨t, n, off, [], s.now, false⟩, planBuf := if t = 0 then none else x.sm.planBuf, tokenBuf := if t = 2 then none else x.sm.tokenBuf } }, {}))

/-- A request of the open transfer: STATE where none is open, BUSY while its flash write runs (log entry 56). -/
def State.ofTransfer (s : State) (d : DieId) (f : Transfer → State → State × Ans) : State × Ans :=
  match (s.die d).sm.xfer with
  | none => (s, refuse 16)
  | some t =>
    if t.writing then (s, refuse 6)
    else
      let t : Transfer := { t with lastReq := s.now }
      f t (s.upd d fun x => { x with sm := { x.sm with xfer := some t } })

/-- IMAGE_DATA. -/
def State.runImageData (s : State) (d : DieId) (m : Msg) : State × Ans :=
  let o := msgNum m 0 4
  let data := m.payload.drop 8
  s.judged d m (decide (9 ≤ m.payload.length) && zeros m.payload 4 4) true (s.ofTransfer d fun t s =>
    if t.length < o + data.length then (s, refuse 18)
    else
      let t' : Transfer := { t with data := bufWrite t.data o data }
      (s.upd d fun x => { x with sm := { x.sm with xfer := some t' } }, {}))

/-- IMAGE_CLOSE: a matching image goes to its buffer, or its flash write is queued. -/
def State.runImageClose (s : State) (d : DieId) (m : Msg) : State × Ans :=
  s.judged d m (m.payload.length == 4) true (s.ofTransfer d fun t s =>
    if crc32c (imageBytes t.length t.data) ≠ msgNum m 0 4 then (s, refuse 18)
    else
      let q := (s.die d).sm
      let q' : Silcel := match t.target with
        | 0 => { q with xfer := none, planBuf := some (t.length, t.data) }
        | 1 => { q with xfer := some { t with writing := true } }
        | _ => { q with xfer := none, tokenBuf := some (t.length, t.data) }
      (s.upd d fun x => { x with sm := q' }, {}))

/-! #### Subscriptions (R434) and resets (R622) -/

/-- SUBSCRIBE: the first free subscription; a fifth is refused. A mask that names no block is outside its range (log entry 56). -/
def State.runSubscribe (s : State) (r d : DieId) (src : Src) (m : Msg) : State × Ans :=
  s.judged d m (m.payload.length == 8 && zeros m.payload 6 2) (decide (msgNum m 0 4 < 2 ^ 23))
    (match (List.range 4).find? fun i => !(s.die d).flag R.SM_SUB_CFG_ACTIVE i with
     | none => (s, refuse 6)
     | some i =>
       let sub : Sub := { src := src, rx := r }
       (s.upd d fun x =>
          let x := x.setSub i 1 m.key.toNat src (msgNum m 4 2) (msgNum m 0 4)
          { x with sm := { x.sm with subs := mput (fun _ => {}) x.sm.subs i sub } },
        { payload := [BitVec.ofNat 8 i, 0, 0, 0] }))

/-- UNSUBSCRIBE: the subscriptions of the slot end. -/
def State.runUnsubscribe (s : State) (r d : DieId) (m : Msg) : State × Ans :=
  s.judged d m m.payload.isEmpty true (s.upd d fun x => x.endSubs m.key.toNat r, {})

/-- RESET (R622): what refuses it, and the reset that follows its reply. -/
def State.runReset (s : State) (d : DieId) (m : Msg) : State × Ans :=
  let kind := msgNum m 0 1
  let target := msgNum m 1 1
  let k := msgNum m 2 2
  s.judged d m (m.payload.length == 4) (decide (kind = 0 ∨ (4 ≤ kind ∧ kind ≤ 7)) && (kind != 5 || decide (target ≤ 1)))
    (if kind = 5 ∧ target = 1 ∧ !s.dual then (s, refuse 7)
     else if kind = 7 ∧ !(decide (k < (if s.dual then 1024 else 512)) && s.claimed (Fin.ofNat 2 (k / 512)) .ln (k % 512)) then (s, refuse 13)
     else (s, { reset := some (kind, target, k) }))

/-- The reset that a RESET request orders, 100 µs after its reply (R622). -/
def State.hostReset (s : State) (v : Nat × Nat × Nat) : State :=
  let s := s.advance (100 * usec)
  match v with
  | (4, _, _) => s.resetPackage 4 8
  | (5, t, _) => s.dieReset (Fin.ofNat 2 t) 5 8
  | (6, _, _) => s.planReset
  | (7, _, k) => s.laneReset (Fin.ofNat 2 (k / 512)) (k % 512)
  | _ => s.resetPackage 0 8

/-- An opcode not listed (R412). -/
def State.runOther (s : State) : State × Ans := (s, refuse 9)

/-- Steps 10 and 11 for a request by its opcode. -/
def State.runOpcode (s : State) (r d : DieId) (src : Src) (m : Msg) : State × Ans :=
  match m.opcode.toNat with
  | 0x01 => s.runPing r d m
  | 0x02 => s.runHello r d m
  | 0x10 => s.runRead d m
  | 0x11 => s.runWrite d m
  | 0x12 => s.runModify d m
  | 0x20 => s.runImageOpen d m
  | 0x21 => s.runImageData d m
  | 0x22 => s.runImageClose d m
  | 0x30 => s.runSubscribe r d src m
  | 0x31 => s.runUnsubscribe r d m
  | 0x60 => s.runReset d m
  | _ => s.runOther

/-- A transaction that has been executed completes, and a reset that it orders follows. -/
def answered (r : DieId) (src : Src) (m : Msg) (e : State × Ans) : State :=
  let t := e.1.complete r src m e.2
  match e.2.reset with
  | some v => if e.2.code = 0 then t.hostReset v else t
  | none => t

/-! ### The checks of R428 -/

/-- A wrong tag: no reply; counted, and recorded where none has been for 1 s (R432). -/
def State.authFail (s : State) (r : DieId) (src : Src) (k : Nat) : State :=
  let s := (s.count r R.SM_AUTH_FAIL).event r R.SM_EVENTS_AUTH_FAIL 0 k
  let quiet : Bool := match (s.die r).sm.authFailAt with | some t => decide (t + second ≤ s.now) | none => true
  if quiet then
    (s.hb r (codeOf R.SM_EVENTS_AUTH_FAIL) k (src.addr % 65536)).upd r fun x => { x with sm := { x.sm with authFailAt := some s.now } }
  else s

/-- Step 7 (R427): 0, EXPIRED or RANGE. -/
def State.deadlineCode (s : State) (r : DieId) (m : Msg) : Nat :=
  if m.deadlineS = 0 ∧ m.deadlineNs = 0 then 0
  else
    let left := wrapDiff (m.deadlineS.toNat * 2 ^ 32 + m.deadlineNs.toNat) (wrapOf (s.die r).clk.now)
    if left < 0 then 4 else if 1000000000 < left then 10 else 0

/-- Step 8 (R425, R426): 0, or the code and DETAIL of the refusal. -/
def State.tidCode (s : State) (r : DieId) (m : Msg) : Nat × Nat :=
  let x := s.die r
  let k := m.key.toNat
  match x.quarantine s.now k m.tid.toNat, x.trans k m.tid.toNat with
  | some q, _ => (5, q.status)
  | none, some _ => (5, 0xFFFF)
  | none, none => if 64 ≤ x.sm.trans.length ∨ 4096 ≤ x.quarFill s.now + x.sm.trans.length then (6, 0) else (0, 0)

/-- Step 9 (R8, R429, R629): 0, NO_DIE, LINK_DOWN, or STATE for die 1 in Standby. A HELLO acts on the receiving die's slot and needs no
relay. -/
def State.targetCode (s : State) (r : DieId) (m : Msg) : Nat :=
  if m.die.toNat = 1 ∧ !s.dual then 7
  else if m.die.toNat = 1 ∧ s.fld 0 R.PW_STATUS_STATE = 2 then 16
  else if m.die.toNat ≠ r.val ∧ !(s.die r).linkUp then 8
  else 0

/-- Steps 7 to 11 on a request that has passed the others. -/
def State.transact (s : State) (r : DieId) (src : Src) (m : Msg) (run : DieId → State → State × Ans) : State :=
  let late := s.deadlineCode r m
  let tid := s.tidCode r m
  if late ≠ 0 then s.turnAway r src m late
  else if tid.1 ≠ 0 then s.turnAway r src m tid.1 tid.2
  else
    let s := s.openTrans r src m
    let c := s.targetCode r m
    if c ≠ 0 then s.complete r src m (refuse c)
    else if m.die.toNat = r.val ∨ m.opcode = 2 then answered r src m (run r (s.upd r fun x => x.startTrans m.key.toNat m.tid.toNat))
    else s.sendControl r (.relay m src) (32 + m.payload.length + m.tag.length)

/-- A datagram at the Silcel port of die `r`: the checks of R428 in their order; `run` makes steps 10 and 11. -/
def State.receive (s : State) (r : DieId) (src : Src) (m : Msg) (run : DieId → State → State × Ans) : State :=
  let k := m.key.toNat
  let x := s.die r
  let free := m.opcode = 1 ∨ m.opcode = 2
  let f := s.fusesOf r
  if !s.hears r src then s
  else if !m.lengthOk then s.count r R.SM_REFUSED
  else if !m.headerOk then s.turnAway r src m 1
  else if f.macRevoked k ∨ (f.macHas k ∧ !m.tagged) then s.turnAway r src m 2 0 false
  else if f.macHas k ∧ m.tag ≠ silcelTag (f.macKey k) m then s.authFail r src k
  else if !x.slotOpen k ∧ !free then s.turnAway r src m 3
  else if !free ∧ m.epoch.toNat ≠ x.fld R.SM_SLOT_EPOCH_EPOCH k then (s.count r R.SM_STALE).event r R.SM_EVENTS_STALE 0 k
  else if m.opcode = 1 ∨ !x.slotOpen k then s.transact r src m run
  else
    match aliveNext (BitVec.ofNat 32 (x.fld R.SM_SLOT_ALIVE k)) (x.slot' k).seen m.alive with
    | none => (s.count r R.SM_REPEATS).event r R.SM_EVENTS_REPEAT 0 k
    | some (top, seen) =>
      (s.upd r fun x => (x.setFld R.SM_SLOT_ALIVE top.toNat k).modSlot k fun v => { v with seen := seen }).transact r src m run

/-! ### Relays (R429) -/

/-- A relayed request reaches die `d`: it executes unless its transaction has gone or its lifetime has passed. The reply returns over
the link; that of a RESET returns before the reset (R622). -/
def State.relayIn (s : State) (d : DieId) (m : Msg) (src : Src) : State :=
  let r := peer d
  match (s.die r).trans m.key.toNat m.tid.toNat with
  | none => s
  | some t =>
    if t.expires < s.now then s
    else
      let s := s.upd r fun x => x.startTrans m.key.toNat m.tid.toNat
      let e := s.runOpcode r d src m
      if e.2.reset.isSome then answered r src m e
      else e.1.sendControl d (.reply { m with
        status := BitVec.ofNat 16 e.2.code, detail := BitVec.ofNat 16 e.2.detail, payload := e.2.payload } src) (32 + e.2.payload.length)
/-- The reply to a relay has come back to die `r` and waits to be sent. -/
def Die.replyIn (x : Die) (m : Msg) (src : Src) : Die := { x with sm := { x.sm with returned := x.sm.returned ++ [(m, src)] } }
/-- RELAY_REPLY: the reply is sent, where its transaction is still open. -/
def State.relayReply (s : State) (r : DieId) : State :=
  match (s.die r).sm.returned with
  | [] => s
  | (m, src) :: l =>
    let s := s.upd r fun x => { x with sm := { x.sm with returned := l } }
    if ((s.die r).trans m.key.toNat m.tid.toNat).isSome then
      s.complete r src m { code := m.status.toNat, detail := m.detail.toNat, payload := m.payload }
    else s
/-- A relay that has lost its message is answered with LINK_DOWN (R534). -/
def State.relayLost (s : State) (r : DieId) (m : Msg) (src : Src) : State :=
  if ((s.die r).trans m.key.toNat m.tid.toNat).isSome then s.complete r src m (refuse 8) else s

/-! ### What falls due -/

/-- The element with the least key, the first of them. -/
def leastBy {α : Type} (f : α → Nat) : List α → Option α
  | [] => none
  | a :: l => match leastBy f l with
    | some b => if f b < f a then some b else some a
    | none => some a

/-- REQUEST_EXPIRED (R427). -/
def State.requestExpired (s : State) (r : DieId) : State :=
  match leastBy SmTrans.expires ((s.die r).sm.trans.filter fun t => !t.started) with
  | some t => (s.advanceTo t.expires).complete r t.src t.msg (refuse 4)
  | none => s
/-- QUARANTINE_END (R424). -/
def State.quarantineEnd (s : State) (r : DieId) : State :=
  match leastBy SmQuar.until_ (s.die r).sm.quar with
  | some q => (s.advanceTo q.until_).upd r fun x => { x with sm := { x.sm with quar := x.sm.quar.filter fun e => decide (q.until_ < e.until_) } }
  | none => s
/-- Bytes written into the flash. -/
def flashWrite (m : Mem) (a : Nat) : List Byte → Mem
  | [] => m
  | b :: l => flashWrite (mput flashDefault m a b) (a + 1) l
/-- FLASH_WRITE_DONE (R433). -/
def State.flashWriteDone (s : State) (d : DieId) : State :=
  match (s.die d).sm.xfer with
  | some t =>
    if t.writing then
      (s.updPkg fun p => { p with flash := flashWrite p.flash t.offset (imageBytes t.length t.data) }).upd d fun x =>
        { x with sm := { x.sm with xfer := none } }
    else s
  | none => s
/-- TRANSFER_ABANDON (R433): 10 s without a request of the transfer; its buffer holds no image. -/
def State.transferAbandon (s : State) (d : DieId) : State :=
  match (s.die d).sm.xfer with
  | some t => if t.writing then s else (s.advanceTo (t.lastReq + 10 * second)).upd d fun x => { x with sm := { x.sm with xfer := none } }
  | none => s
/-- Supervisor time at which subscription `i` of a die ends unless its slot accepts a request. -/
def State.subEnd (s : State) (d : DieId) (i : Nat) : Nat :=
  let x := s.die d
  ((s.die (mget (fun _ => ({} : Sub)) x.sm.subs i).rx).slot' (x.fld R.SM_SUB_CFG_KEY i)).lastReq + 10 * second
/-- SUBSCRIPTION_EXPIRY (R434). -/
def State.subscriptionExpiry (s : State) (d : DieId) : State :=
  match leastBy (s.subEnd d) ((List.range 4).filter fun i => (s.die d).flag R.SM_SUB_CFG_ACTIVE i) with
  | some i => (s.advanceTo (s.subEnd d i)).upd d fun x => x.endSub i
  | none => s

/-- The 16 bytes of a post entry. -/
def Post.bytes (p : Post) : List Byte := natBE 4 p.addr ++ natBE 1 p.bit ++ [0] ++ natBE 2 p.detail ++ natBE 8 p.stime
/-- EVENT (R434): the subscription with the oldest entry sends up to 64 of its entries, 1 ms after that entry at the latest. -/
def State.eventPost (s : State) (d : DieId) : State :=
  let sub (i : Nat) : Sub := mget (fun _ => {}) (s.die d).sm.subs i
  let at_ (i : Nat) : Nat := ((sub i).queue.head?.map Post.at_).getD 0
  match leastBy at_ ((List.range 4).filter fun i => !(sub i).queue.isEmpty) with
  | none => s
  | some i =>
    let q := sub i
    let l := q.queue.take 64
    let rest : Sub := { q with queue := q.queue.drop 64, dropped := false }
    let k := s.fld d R.SM_SUB_CFG_KEY i
    let m : Msg := { opcode := 0x40, die := BitVec.ofNat 8 d.val, epoch := BitVec.ofNat 8 (s.fld q.rx R.SM_SLOT_EPOCH_EPOCH k)
                     key := BitVec.ofNat 8 k, detail := BitVec.ofNat 16 (b2n q.dropped), payload := l.flatMap Post.bytes }
    let s := (s.advanceTo (at_ i + msec)).upd d fun x => { x with sm := { x.sm with subs := mput (fun _ => {}) x.sm.subs i rest } }
    (s.count d R.SM_SUB_POSTS i l.length).sendMsg q.rx { q.src with port := BitVec.ofNat 16 (s.fld d R.SM_SUB_CFG_DEST_PORT i) } m true

/-! ### The rows -/

def execPing (r : DieId) (dt : Nat) (src : Src) (m : Msg) (s : State) : Result :=
  onDie s r (request 0x01 m) ((s.advance dt).receive r src m fun d s => s.runPing r d m)
def execHello (r : DieId) (dt : Nat) (src : Src) (m : Msg) (s : State) : Result :=
  onDie s r (request 0x02 m) ((s.advance dt).receive r src m fun d s => s.runHello r d m)
def execRead (r : DieId) (dt : Nat) (src : Src) (m : Msg) (s : State) : Result :=
  onDie s r (request 0x10 m) ((s.advance dt).receive r src m fun d s => s.runRead d m)
def execWrite (r : DieId) (dt : Nat) (src : Src) (m : Msg) (s : State) : Result :=
  onDie s r (request 0x11 m) ((s.advance dt).receive r src m fun d s => s.runWrite d m)
def execModify (r : DieId) (dt : Nat) (src : Src) (m : Msg) (s : State) : Result :=
  onDie s r (request 0x12 m) ((s.advance dt).receive r src m fun d s => s.runModify d m)
def execImageOpen (r : DieId) (dt : Nat) (src : Src) (m : Msg) (s : State) : Result :=
  onDie s r (request 0x20 m) ((s.advance dt).receive r src m fun d s => s.runImageOpen d m)
def execImageData (r : DieId) (dt : Nat) (src : Src) (m : Msg) (s : State) : Result :=
  onDie s r (request 0x21 m) ((s.advance dt).receive r src m fun d s => s.runImageData d m)
def execImageClose (r : DieId) (dt : Nat) (src : Src) (m : Msg) (s : State) : Result :=
  onDie s r (request 0x22 m) ((s.advance dt).receive r src m fun d s => s.runImageClose d m)
def execSubscribe (r : DieId) (dt : Nat) (src : Src) (m : Msg) (s : State) : Result :=
  onDie s r (request 0x30 m) ((s.advance dt).receive r src m fun d s => s.runSubscribe r d src m)
def execUnsubscribe (r : DieId) (dt : Nat) (src : Src) (m : Msg) (s : State) : Result :=
  onDie s r (request 0x31 m) ((s.advance dt).receive r src m fun d s => s.runUnsubscribe r d m)
def execResetPowerOn (r : DieId) (dt : Nat) (src : Src) (m : Msg) (s : State) : Result :=
  onDie s r (resetKind 0 m) ((s.advance dt).receive r src m fun d s => s.runReset d m)
def execResetHostFull (r : DieId) (dt : Nat) (src : Src) (m : Msg) (s : State) : Result :=
  onDie s r (resetKind 4 m) ((s.advance dt).receive r src m fun d s => s.runReset d m)
def execResetDie (r : DieId) (dt : Nat) (src : Src) (m : Msg) (s : State) : Result :=
  onDie s r (resetKind 5 m) ((s.advance dt).receive r src m fun d s => s.runReset d m)
def execResetPlan (r : DieId) (dt : Nat) (src : Src) (m : Msg) (s : State) : Result :=
  onDie s r (resetKind 6 m) ((s.advance dt).receive r src m fun d s => s.runReset d m)
def execResetLane (r : DieId) (dt : Nat) (src : Src) (m : Msg) (s : State) : Result :=
  onDie s r (resetKind 7 m) ((s.advance dt).receive r src m fun d s => s.runReset d m)
def execDatagramRefused (r : DieId) (dt : Nat) (src : Src) (m : Msg) (s : State) : Result :=
  onDie s r (otherDatagram m) ((s.advance dt).receive r src m fun d s => s.runOpcode r d src m)
def execFlashWriteDone (d : DieId) (s : State) : Result := onDie s d true (s.flashWriteDone d)
def execTransferAbandon (d : DieId) (s : State) : Result := onDie s d true (s.transferAbandon d)
def execSubscriptionExpiry (d : DieId) (s : State) : Result := onDie s d true (s.subscriptionExpiry d)
def execEvent (d : DieId) (s : State) : Result := onDie s d true (s.eventPost d)
def execRelayReply (d : DieId) (s : State) : Result := onDie s d true (s.relayReply d)
def execRequestExpired (d : DieId) (s : State) : Result := onDie s d true (s.requestExpired d)
def execQuarantineEnd (d : DieId) (s : State) : Result := onDie s d true (s.quarantineEnd d)

end Sys2Proof.Machine
end

