-- ==== Sys2Proof/Machine/Link.lean ====
section
/-! DEFINITION. Control messages of the milk-run link (R534, R546): their fragments and acknowledgements, what each message does when it
arrives, and what is lost with the link. -/

namespace Sys2Proof.Machine

/-! ### What a message does (R546) -/

/-- FORCE_RAP from the other die. Die 0, asked for the picture, chooses it, or names that of a point already pending, and tells die 1. -/
def State.rapIn (s : State) (d : DieId) (n : Nat) (pic : Option Int) : State :=
  let x := s.die d
  match pic with
  | some f => s.upd d fun x => (x.setFld R.EN_STATUS_RAP_PENDING 1 n).modEnc n fun c => { c with rapAt := c.rapAt.or (some f) }
  | none =>
    let f := ((x.enc' n).rapAt).getD (x.picPlus16 n)
    (s.upd d fun x => x.forceRap n f).sendControl d (.rap n (some f))
/-- A rate or QP change from the other die. -/
def State.rateIn (s : State) (d : DieId) (n field : Nat) (v : W32) (pic : Option Int) : State :=
  let x := s.die d
  match pic with
  | some f => s.upd d fun x => x.rateAccept n field v f
  | none =>
    let f := x.changePic n field
    (s.upd d fun x => x.rateAccept n field v f).sendControl d (.rate n field v (some f))
/-- A pool's rate from the other die. -/
def State.poolIn (s : State) (d : DieId) (p : Nat) (v : W32) (frame : Option Int) : State :=
  let x := s.die d
  match frame with
  | some f => s.upd d fun x => x.poolAccept p v.toNat f
  | none =>
    let f := x.framePlus16 (x.fld R.RC_POOL_CFG_CADENCE p)
    (s.upd d fun x => x.poolAccept p v.toNat f).sendControl d (.pool p v (some f))
/-- The pending values of a layer as a commit carries them. -/
def Die.setLayerRegs (x : Die) (n l : Nat) (vs : List W32) : Die :=
  if l = 0 then x.setReg (fldAddr R.CH_BG_Y n 0) (vs.getD 0 0)
  else ([R.CH_LPOS_X, R.CH_LSIZE_W, R.CH_LCROP_POS_X, R.CH_LCROP_SIZE_W, R.CH_LMIX_ALPHA].zip vs).foldl
    (fun x e => x.setReg (fldAddr e.1 n (l - 1)) e.2) x
/-- A commit from the other die: the pending values that it carries, then the commit (R299). -/
def State.commitIn (s : State) (d : DieId) (n mask : Nat) (vs : List (Nat × List W32)) (frame : Option Int) : State :=
  let s := s.upd d fun x => vs.foldl (fun x e => x.setLayerRegs n e.1 e.2) x
  match frame with
  | some f => s.churnCommit d n mask f
  | none =>
    let x := s.die d
    let f := x.framePlus16 (x.fld R.EN_TIMING_CADENCE n)
    (s.churnCommit d n mask f).sendControl d (.commit n mask vs (some f)) (28 + 20 * vs.length)
/-- Die 0's decision of which access units of a decode channel are complete (R274). -/
def State.decideIn (s : State) (d : DieId) (n : Nat) (frame : Int) (pocs : List Int) : State :=
  if s.fld d R.CL_DC_STATUS_RUNNING n = 1 ∧ s.fld d R.CL_DC_CFG_INSTEP n = 1 then s.decBoundary d n frame (some pocs) else s
/-- Die 1's oldest failure entry that waits for it takes the number of its record (R585). -/
def Die.failNumbered (x : Die) (seq : W32) : Die :=
  match x.st.owed with
  | k :: rest => { x.setFld R.ST_FAIL_REC seq.toNat k with st := { x.st with owed := rest } }
  | [] => x
/-- Die 0 has taken the record that die 1 sent and has numbered it: die 1 forgets it, and records that it could not keep are reported
once there is room (R601). -/
def State.takenIn (s : State) (seq : W32) : State :=
  if !s.pkg.hb.sent then s
  else
    let n := s.pkg.hb.heldLost
    let fail := match s.pkg.hb.held with | r :: _ => decide (r.code = recCode R.ST_EVENTS_BIST_FAIL 0x81) | [] => false
    let s := if fail then s.upd 1 fun x => x.failNumbered seq else s
    let s := s.modHb fun h => { h with sent := false, held := h.held.drop 1, heldLost := 0 }
    if n = 0 then s else s.hb 1 (recCode R.HB_EVENTS_LOST 0x82) 1 (min n 65535)
/-- Test authorisation reaches die 1, unless it has ended (R572). -/
def State.testIn (s : State) (d : DieId) (scope : Option (Nat × Nat)) : State :=
  match scope with
  | some (v, e) => if s.die0.sc.test.isSome then s.testStart d v e else s
  | none => s

/-- A control message has reached die `d` whole. -/
def State.ctlIn (s : State) (d : DieId) : CtlMsg → State
  | .rap n f => s.rapIn d n f
  | .rate n field v f => s.rateIn d n field v f
  | .pool p v f => s.poolIn d p v f
  | .commit n mask vs f => s.commitIn d n mask vs f
  | .decide n f pocs => s.decideIn d n f pocs
  | .record r => s.modHb fun h => { h with offered := some r }
  | .taken q => s.takenIn q
  | .relay m src => s.relayIn d m src
  | .reply m src => s.upd d fun x => x.replyIn m src
  | .test v => s.testIn d v

/-- A control message that die `d` sent is lost: a relay is answered with LINK_DOWN (R534), and herdbook records stay with die 1 until die
0 has taken them (R601). -/
def State.ctlLost (s : State) (d : DieId) : CtlMsg → State
  | .relay m src => s.relayLost d m src
  | .reply m src => s.relayLost (peer d) m src
  | .record _ => s.modHb fun h => { h with sent := false }
  | .taken q => s.sendControl d (.taken q)
  | .rap n none => if (((s.die d).enc' n).rapAt).isNone then s.setFld d R.EN_STATUS_RAP_PENDING 0 n else s
  | .rate n field _ none => s.upd d fun x => x.rateUnask n field
  | .pool p _ none => s.upd d fun x => (x.poolMembers p).foldl (fun x e => x.rateUnask e.1 3) x
  | .rap _ (some _) | .rate _ _ _ (some _) | .pool _ _ (some _) | .commit .. | .decide .. | .test .. => s

/-! ### Fragments (R534) -/

/-- A fragment of a message has been acknowledged. -/
def CtlOut.acked (m : CtlOut) (f : Nat) : CtlOut :=
  { m with wait := m.wait.filter fun w => w.1 != f, again := m.again.filter fun w => w.1 != f }
/-- Every fragment of a message has been acknowledged. -/
def CtlOut.done_ (m : CtlOut) : Bool := decide (m.total ≤ m.next) && m.wait.isEmpty && m.again.isEmpty
/-- Acknowledgements arrive. -/
def Pairing.ackAll (r : Pairing) (acks : List (Nat × Nat)) : Pairing :=
  { r with ctlQ := (acks.foldl (fun q a => q.map fun m => if m.id = a.1 then m.acked a.2 else m) r.ctlQ).filter fun m => !m.done_ }
/-- A fragment arrives and is to be acknowledged: the receiver after it, and whether it makes its message complete. -/
def Pairing.take (r : Pairing) (id f total : Nat) : Pairing × Bool :=
  let r : Pairing := { r with acks := r.acks ++ [(id, f)] }
  if r.gotDone.contains id then (r, false)
  else
    let have_ := ((r.got.find? fun e => e.1 == id).map Prod.snd).getD []
    let l := if have_.contains f then have_ else f :: have_
    let rest := r.got.filter fun e => e.1 != id
    if total ≤ l.length then ({ r with got := rest, gotDone := id :: r.gotDone.take 63 }, true)
    else ({ r with got := rest ++ [(id, l)] }, false)

/-- CONTROL_RECORD: acknowledgements, and a fragment with which its message may be complete. -/
def State.controlRecord (s : State) (d : DieId) (r : LinkRec) : State :=
  match r with
  | .control frag msg acks =>
    let s := s.upd d fun x => x.modMr fun q => q.ackAll acks
    match frag, msg with
    | some (id, f, total), some m =>
      let t := (s.die d).mr.take id f total
      let s := s.upd d fun x => x.modMr fun _ => t.1
      if t.2 then s.ctlIn d m else s
    | _, _ => s
  | _ => s

/-- CONTROL_RESEND: the first fragment that 4 CONTROL slots have not seen acknowledged is to be sent again, or its message is lost. -/
def State.controlResend (s : State) (d : DieId) : State :=
  let due (w : Nat × Nat × Nat) : Bool := decide (4 ≤ w.2.2)
  match (s.die d).mr.ctlQ.find? fun m => m.wait.any due with
  | none => s
  | some m =>
    match m.wait.find? due with
    | none => s
    | some (f, n, _) =>
      if n < 3 then
        let m' : CtlOut := { m with wait := m.wait.filter fun w => w.1 != f, again := m.again ++ [(f, n + 1)] }
        s.upd d fun x => x.modMr fun q => { q with ctlQ := q.ctlQ.map fun e => if e.id = m.id then m' else e }
      else (s.upd d fun x => x.modMr fun q => { q with ctlQ := q.ctlQ.filter fun e => e.id != m.id }).ctlLost d m.msg

/-- MR_LINK_DOWN (R532, R534). -/
def State.mrLinkDown (s : State) (d : DieId) : State :=
  let t := s.linkDown d
  t.2.foldl (fun s m => s.ctlLost d m) t.1

def execControlRecord (d : DieId) (dt : Nat) (ok : Bool) (s : State) : Result :=
  onDie s d true ((s.advance dt).linkRecord d 4 ok fun s r => s.controlRecord d r)
def execControlResend (d : DieId) (s : State) : Result := onDie s d true (s.controlResend d)
def execMrLinkDown (d : DieId) (dt : Nat) (s : State) : Result := onDie s d true ((s.advance dt).mrLinkDown d)

end Sys2Proof.Machine
end

