-- ==== Sys2Proof/Machine/Online.lean ====
section
/-! DEFINITION. Online self-test of the items that the running plan leaves idle (20_self_test.md R589 to R592). -/

namespace Sys2Proof.Machine

/-- The blocks of a row of a bank of a region, one for each column (R463). -/
def Die.rowBlocks (x : Die) (region bank row : Nat) : List Nat :=
  (List.range 128).map fun c =>
    let a := region * 2 ^ 30 + row * 2 ^ 18 + c * 64
    a + (bank ^^^ x.dramBank a) * 2 ^ 13
/-- The blocks of a DRAM item: SUB is 2^20 x bank + row. -/
def Die.itemBlocks (x : Die) (i : Item) : List Nat := x.rowBlocks (i.inst % 16) (rowBank i.sub % 32) (i.sub % 4096)
/-- A block of DRAM lies outside every claim of the running plan: no cadence owns its region, and no pool, frame store, buffer, surface or
spill area holds it (R466, R589). -/
def Die.unclaimedBlock (x : Die) (a : Nat) : Bool :=
  decide (8 ≤ x.regionOwner (dramRegion a)) && (x.pools ++ x.dramItems).all fun p => decide (a + 64 ≤ p.1 ∨ p.1 + p.2 ≤ a)

/-- The item is idle in the running plan (R589). A lane's SUB is 0 for its receive, 1 for its transmit direction. -/
def Die.idle (x : Die) (i : Item) : Bool :=
  match i.kind with
  | .tile => x.tileOwner i.inst == 8
  | .lane => x.fld (if i.sub = 0 then R.LN_STATUS_RX_NOW else R.LN_STATUS_TX_NOW) i.inst != 2
  | .ethernet => x.fld R.NW_SP_CFG_MODE (i.inst % 2 * 4) == 3
  | .dmaChannel => !x.flag R.DM_CH_CFG_USED i.inst
  | .checkUnit => !x.flag R.CK_U_CFG_BOUND i.inst
  | .scaler => (x.recOf 0x0A 0xA03 i.inst).isNone
  | .audioPort => (x.sectsOf 1).all fun e => (e.entries 64).all fun r => !bit (num r 54 2) i.inst
  | .converter => !x.flag R.AU_ASRC_CFG_USED i.inst
  | .dram => (x.itemBlocks i).all fun a => x.unclaimedBlock a
  | _ => false

/-- A perturbation unit targets the item (R595). -/
def Die.targeted (x : Die) (i : Item) : Bool :=
  let on (cls target sub : Nat) : Bool := (List.range 16).any fun u => x.flag R.ST_PERT_CTRL_ARM u && x.fld R.ST_PERT_CTRL_CLASS u == cls
    && x.fld R.ST_PERT_TARGET_TARGET u == target && x.fld R.ST_PERT_TARGET_SUB u == sub
  match i.kind with
  | .tile => on 5 i.inst 0 || (tileIsM i.inst && on 2 (mIndex i.inst) 0)
  | .lane => on 0 i.inst 0 || on 1 i.inst 0
  | .dram => on 4 i.inst 0 || on 5 i.inst 1
  | .audioPort => on 9 i.inst 0
  | .ethernet => (List.range 4).any fun s => on 3 (4 * (i.inst % 2) + s) 0
  | _ => false
where
  tileIsM (t : Nat) : Bool := t % 48 % 12 == 0 || t % 48 == 47

/-- An online slice starts (R589, R590): `room` says that the energy of the block over the last second leaves room for it. A DRAM area
is accessed as OPEN traffic. -/
def State.sliceStart (s : State) (d : DieId) (i : Item) (room : Bool) : State :=
  let x := s.die d
  if x.flag R.ST_ONLINE_ENABLE ∧ x.st.slices.length < 8 ∧ room ∧ x.idle i ∧ !x.targeted i ∧ x.pw.phase = .ready
      ∧ !(x.st.slices.any fun e => e.1 == i) then
    let s := if i.kind = .dram then (x.itemBlocks i).foldl (fun s a => s.touchOpen d a) s else s
    s.upd d fun x => { x.setFld R.ST_STATUS_SLICE_RUNNING 1 with st := { x.st with slices := x.st.slices ++ [(i, s.now)] } }
  else s

/-- An online slice ends, within 2 ms of its start (R590); a failing item becomes unavailable, and a tile also sets
REPAIR_PENDING (R592, R142). -/
def State.sliceDone (s : State) (d : DieId) (i : Item) (fail : Option BistFail) : State :=
  match (s.die d).st.slices.find? fun e => e.1 == i with
  | none => s
  | some e =>
    let s := s.upd d fun x =>
      let x := { x with st := { x.st with slices := x.st.slices.erase e } }
      (x.setFld R.ST_STATUS_SLICE_RUNNING (b2n (!x.st.slices.isEmpty))).count R.ST_SLICES
    match fail with
    | none => s
    | some f =>
      let f := { f with item := { f.item with kind := i.kind, inst := i.inst } }
      let s := s.upd d fun x => { x.count R.ST_ONLINE_FAILS with st := { x.st with bad := x.st.bad ++ [itemGone f.item] } }
      let s := (s.failReport d f true false).event d R.ST_EVENTS_ONLINE_FAIL 0 i.inst
      if i.kind = .tile then (s.setFld d R.VT_STATUS_REPAIR_PENDING 1).eventRec d R.VT_EVENTS_REPAIR_PENDING 0 i.inst else s

def execOnlineSliceStart (d : DieId) (dt : Nat) (item : Item) (room : Bool) (s : State) : Result :=
  onDie s d true ((s.advance dt).sliceStart d item room)
def execOnlineSliceDone (d : DieId) (dt : Nat) (item : Item) (fail : Option BistFail) (s : State) : Result :=
  onDie s d true ((s.advance dt).sliceDone d item fail)

end Sys2Proof.Machine
end

