-- ==== Sys2Proof/Machine/SilcelRx.lean ====
section
/-! DEFINITION. Frames at a sub-port with what control threads take from its control queue (R355, R409): a datagram at the Silcel port is a
request. -/

namespace Sys2Proof.Machine

/-- The message that a datagram of at least 32 bytes holds (R410). -/
def msgOf (b : List Byte) : Msg :=
  let w16 (o : Nat) : W16 := BitVec.ofNat 16 (be b o 2)
  let w32 (o : Nat) : W32 := BitVec.ofNat 32 (be b o 4)
  { version := b.getD 0 0, opcode := b.getD 1 0, flags := b.getD 2 0, die := b.getD 3 0, tid := w16 4, epoch := b.getD 6 0, key := b.getD 7 0
    alive := w32 8, lifetime := w16 12, length := w16 14, deadlineS := w32 16, deadlineNs := w32 20, status := w16 24, detail := w16 26
    reserved := w32 28, payload := subBytes b 32 (be b 14 2), tag := b.drop (32 + be b 14 2) }

/-- The sender and the payload of a datagram to the die's own address at its Silcel port. -/
def Die.silcelOf (x : Die) (sp : Fin 8) (b : List Byte) : Option (Src × List Byte) :=
  (udpOf b (ethOf b)).bind fun u =>
    if u.bad ∨ u.dport ≠ x.fld R.SM_CFG_PORT ∨ u.dst ≠ x.spAddr sp u.dst then none
    else some (⟨if isV4 u.src then be u.src 12 4 else beNat u.src, !isV4 u.src, BitVec.ofNat 16 u.sport, sp⟩, u.payload)

/-- A control thread takes a frame: a Silcel request, or what control threads answer (R357, R358). -/
def State.ctrlServe (s : State) (d : DieId) (sp : Fin 8) (b : List Byte) : State :=
  match (s.die d).silcelOf sp b with
  | some (src, p) =>
    if p.length < 32 then s.count d R.SM_REFUSED
    else s.receive d src (msgOf p) fun r s => s.runOpcode d r src (msgOf p)
  | none => s.ctrlFrame d sp b
/-- Control threads take `n` frames from the control queue of a sub-port, oldest first. -/
def State.ctrlTake (s : State) (d : DieId) (sp : Fin 8) : Nat → State
  | 0 => s
  | n + 1 => match ((s.die d).port sp).ctrl with
    | [] => s
    | b :: l => ((s.upd d fun x => x.modPort sp fun p => { p with ctrl := l }).ctrlServe d sp b).ctrlTake d sp n

/-- RX_FRAME: control threads have taken `taken` frames from the control queue before the frame comes. -/
def execRxFrame (d : DieId) (sp : Fin 8) (dt : Nat) (bytes : List Byte) (fcs : Bool) (corr uncorr taken : Nat) (s : State) : Result :=
  onDie s d (Instr.wf (.rxFrame d sp dt bytes fcs corr uncorr taken))
    (if (s.advance dt).fld d R.NW_SP_STATUS_LINK sp = 0 then s.advance dt
     else ((s.advance dt).ctrlTake d sp taken).rxFrame d sp bytes fcs corr uncorr)

end Sys2Proof.Machine
end

