-- ==== Sys2Proof/Machine/Dispatch.lean ====
section
/-! DEFINITION. One arm per command. -/

namespace Sys2Proof.Machine

/-- The effect of a command on everything but the queue. -/
def exec (i : Instr) (s : State) : Host.Outcome State Fault Refusal :=
  match i with
  | .linePulse d c => Sys2Proof.Machine.execLinePulse d c s
  | .slackRegionEnd d t => Sys2Proof.Machine.execSlackRegionEnd d t s
  | .deferredDeadline d n => Sys2Proof.Machine.execDeferredDeadline d n s
  | .noInput d n => Sys2Proof.Machine.execNoInput d n s
  | .commitApply d n => Sys2Proof.Machine.execCommitApply d n s
  | .recomputeDone d n l => Sys2Proof.Machine.execRecomputeDone d n l s
  | .rateChangeApply d pool n => Sys2Proof.Machine.execRateChangeApply d pool n s
  | .rwlApply d c => Sys2Proof.Machine.execRwlApply d c s
  | .memberUnderrun d flow member => Sys2Proof.Machine.execMemberUnderrun d flow member s
  | .delayExpiry d th => Sys2Proof.Machine.execDelayExpiry d th s
  | .threadWaitTimeout d th => Sys2Proof.Machine.execThreadWaitTimeout d th s
  | .threadStart d c => Sys2Proof.Machine.execThreadStart d c s
  | .spillLoadDone d th ecc => Sys2Proof.Machine.execSpillLoadDone d th ecc s
  | .threadBudgetExhausted d th => Sys2Proof.Machine.execThreadBudgetExhausted d th s
  | .threadSwitchEnd d th => Sys2Proof.Machine.execThreadSwitchEnd d th s
  | .refSyncSample dt tri lines num den line valid => Sys2Proof.Machine.execRefSyncSample dt tri lines num den line valid s
  | .referenceLoss d backup => Sys2Proof.Machine.execReferenceLoss d backup s
  | .holdLimitExpiry d backup => Sys2Proof.Machine.execHoldLimitExpiry d backup s
  | .stepApply d => Sys2Proof.Machine.execStepApply d s
  | .die0TimingLost => Sys2Proof.Machine.execDie0TimingLost s
  | .compareFire d u => Sys2Proof.Machine.execCompareFire d u s
  | .cmpWrite d wr u word value => Sys2Proof.Machine.execCmpWrite d wr u word value s
  | .tbSnap d wr => Sys2Proof.Machine.execTbSnap d wr s
  | .stepGo d wr => Sys2Proof.Machine.execStepGo d wr s
  | .admitPlan d wr => Sys2Proof.Machine.execAdmitPlan d wr s
  | .admissionDone dt => Sys2Proof.Machine.execAdmissionDone dt s
  | .switch d wr => Sys2Proof.Machine.execSwitch d wr s
  | .cancel d wr => Sys2Proof.Machine.execCancel d wr s
  | .library d wr => Sys2Proof.Machine.execLibrary d wr s
  | .libraryCheckDone dt => Sys2Proof.Machine.execLibraryCheckDone dt s
  | .planSwitch d c => Sys2Proof.Machine.execPlanSwitch d c s
  | .brownoutApply d c => Sys2Proof.Machine.execBrownoutApply d c s
  | .brownoutRemove d c => Sys2Proof.Machine.execBrownoutRemove d c s
  | .nop e ecc => Sys2Proof.Machine.execNop e ecc s
  | .add e vd va vb p => Sys2Proof.Machine.execAdd e vd va vb p s
  | .adc e vd va vb p => Sys2Proof.Machine.execAdc e vd va vb p s
  | .sub e vd va vb p => Sys2Proof.Machine.execSub e vd va vb p s
  | .sbb e vd va vb p => Sys2Proof.Machine.execSbb e vd va vb p s
  | .addi e vd va imm p => Sys2Proof.Machine.execAddi e vd va imm p s
  | .subi e vd va imm p => Sys2Proof.Machine.execSubi e vd va imm p s
  | .addus d t vd va vb p => Sys2Proof.Machine.execAddus d t vd va vb p s
  | .subus d t vd va vb p => Sys2Proof.Machine.execSubus d t vd va vb p s
  | .addss d t vd va vb p => Sys2Proof.Machine.execAddss d t vd va vb p s
  | .subss d t vd va vb p => Sys2Proof.Machine.execSubss d t vd va vb p s
  | .and e vd va vb p => Sys2Proof.Machine.execAnd e vd va vb p s
  | .or e vd va vb p => Sys2Proof.Machine.execOr e vd va vb p s
  | .xor e vd va vb p => Sys2Proof.Machine.execXor e vd va vb p s
  | .andi e vd va imm p => Sys2Proof.Machine.execAndi e vd va imm p s
  | .ori e vd va imm p => Sys2Proof.Machine.execOri e vd va imm p s
  | .xori e vd va imm p => Sys2Proof.Machine.execXori e vd va imm p s
  | .andn e vd va vb p => Sys2Proof.Machine.execAndn e vd va vb p s
  | .shli e vd va imm p => Sys2Proof.Machine.execShli e vd va imm p s
  | .shri e vd va imm p => Sys2Proof.Machine.execShri e vd va imm p s
  | .sari e vd va imm p => Sys2Proof.Machine.execSari e vd va imm p s
  | .fshr d t vd va vb imm p => Sys2Proof.Machine.execFshr d t vd va vb imm p s
  | .fshl d t vd va vb imm p => Sys2Proof.Machine.execFshl d t vd va vb imm p s
  | .minu e vd va vb p => Sys2Proof.Machine.execMinu e vd va vb p s
  | .maxu e vd va vb p => Sys2Proof.Machine.execMaxu e vd va vb p s
  | .mins e vd va vb p => Sys2Proof.Machine.execMins e vd va vb p s
  | .maxs e vd va vb p => Sys2Proof.Machine.execMaxs e vd va vb p s
  | .avgu d t vd va vb p => Sys2Proof.Machine.execAvgu d t vd va vb p s
  | .absd d t vd va vb p => Sys2Proof.Machine.execAbsd d t vd va vb p s
  | .ceq e vd va vb p => Sys2Proof.Machine.execCeq e vd va vb p s
  | .cltu e vd va vb p => Sys2Proof.Machine.execCltu e vd va vb p s
  | .clts e vd va vb p => Sys2Proof.Machine.execClts e vd va vb p s
  | .ceqi e vd va imm p => Sys2Proof.Machine.execCeqi e vd va imm p s
  | .cltui e vd va imm p => Sys2Proof.Machine.execCltui e vd va imm p s
  | .ktop d t vd p => Sys2Proof.Machine.execKtop d t vd p s
  | .ptok d t va p => Sys2Proof.Machine.execPtok d t va p s
  | .sel d t vd va vb p => Sys2Proof.Machine.execSel d t vd va vb p s
  | .mov e vd va p => Sys2Proof.Machine.execMov e vd va p s
  | .movi e vd imm p => Sys2Proof.Machine.execMovi e vd imm p s
  | .shuf d t vd va vb p => Sys2Proof.Machine.execShuf d t vd va vb p s
  | .bcast d t vd va imm p => Sys2Proof.Machine.execBcast d t vd va imm p s
  | .rup2 d t vd va imm p => Sys2Proof.Machine.execRup2 d t vd va imm p s
  | .rup4 d t vd va imm p => Sys2Proof.Machine.execRup4 d t vd va imm p s
  | .rpk2 d t vd va imm p => Sys2Proof.Machine.execRpk2 d t vd va imm p s
  | .rpk4 d t vd va imm p => Sys2Proof.Machine.execRpk4 d t vd va imm p s
  | .joinl d t vd va vb imm p => Sys2Proof.Machine.execJoinl d t vd va vb imm p s
  | .joinh d t vd va imm p => Sys2Proof.Machine.execJoinh d t vd va imm p s
  | .sad d t vd va vb p => Sys2Proof.Machine.execSad d t vd va vb p s
  | .sadz d t vd va vb p => Sys2Proof.Machine.execSadz d t vd va vb p s
  | .satd4 d t vd va vb => Sys2Proof.Machine.execSatd4 d t vd va vb s
  | .satd8 d t vd va vb => Sys2Proof.Machine.execSatd8 d t vd va vb s
  | .best3 d t va imm => Sys2Proof.Machine.execBest3 d t va imm s
  | .dadd d t vd va vb => Sys2Proof.Machine.execDadd d t vd va vb s
  | .drdS d t vd imm p => Sys2Proof.Machine.execDrdS d t vd imm p s
  | .brd d t vd imm p => Sys2Proof.Machine.execBrd d t vd imm p s
  | .dclr d t => Sys2Proof.Machine.execDclr d t s
  | .mulu d t vd va vb imm p => Sys2Proof.Machine.execMulu d t vd va vb imm p s
  | .macu d t vd va vb imm p => Sys2Proof.Machine.execMacu d t vd va vb imm p s
  | .macs d t vd va vb imm p => Sys2Proof.Machine.execMacs d t vd va vb imm p s
  | .macsu d t vd va vb imm p => Sys2Proof.Machine.execMacsu d t vd va vb imm p s
  | .macbs d t vd va vb imm p => Sys2Proof.Machine.execMacbs d t vd va vb imm p s
  | .mext d t vd va imm p => Sys2Proof.Machine.execMext d t vd va imm p s
  | .mld d t vd va vb p => Sys2Proof.Machine.execMld d t vd va vb p s
  | .mclr d t vd p => Sys2Proof.Machine.execMclr d t vd p s
  | .madd d t p => Sys2Proof.Machine.execMadd d t p s
  | .binc d t va vb imm => Sys2Proof.Machine.execBinc d t va vb imm s
  | .binb d t va imm => Sys2Proof.Machine.execBinb d t va imm s
  | .bint d t va => Sys2Proof.Machine.execBint d t va s
  | .cinit d t va vb imm => Sys2Proof.Machine.execCinit d t va vb imm s
  | .cbase d t va vb => Sys2Proof.Machine.execCbase d t va vb s
  | .csnap d t => Sys2Proof.Machine.execCsnap d t s
  | .crest d t => Sys2Proof.Machine.execCrest d t s
  | .cstart d t imm => Sys2Proof.Machine.execCstart d t imm s
  | .cflush d t imm => Sys2Proof.Machine.execCflush d t imm s
  | .flvl d t vd p => Sys2Proof.Machine.execFlvl d t vd p s
  | .putb d t va imm => Sys2Proof.Machine.execPutb d t va imm s
  | .rnop d t => Sys2Proof.Machine.execRnop d t s
  | .rt d t srca dsta srcb dstb lv rin rv => Sys2Proof.Machine.execRt d t srca dsta srcb dstb lv rin rv s
  | .mnop d t => Sys2Proof.Machine.execMnop d t s
  | .ld d t v ar post imm ecc => Sys2Proof.Machine.execLd d t v ar post imm ecc s
  | .st d t v ar post imm => Sys2Proof.Machine.execSt d t v ar post imm s
  | .ldu d t v ar post imm ecc => Sys2Proof.Machine.execLdu d t v ar post imm ecc s
  | .stu d t v ar post imm => Sys2Proof.Machine.execStu d t v ar post imm s
  | .stp d t v ar post pr imm => Sys2Proof.Machine.execStp d t v ar post pr imm s
  | .ldb d t v ar post imm ecc => Sys2Proof.Machine.execLdb d t v ar post imm ecc s
  | .aset d t v ar imm => Sys2Proof.Machine.execAset d t v ar imm s
  | .aadd d t ar imm => Sys2Proof.Machine.execAadd d t ar imm s
  | .aldv d t v ar l => Sys2Proof.Machine.execAldv d t v ar l s
  | .stbf d t ar post => Sys2Proof.Machine.execStbf d t ar post s
  | .drd d t q incq ar inca => Sys2Proof.Machine.execDrd d t q incq ar inca s
  | .dwr d t q incq ar inca ecc => Sys2Proof.Machine.execDwr d t q incq ar inca ecc s
  | .qldv d t v q l => Sys2Proof.Machine.execQldv d t v q l s
  | .qadd d t q imm => Sys2Proof.Machine.execQadd d t q imm s
  | .dramReadComplete d dt t ecc => Sys2Proof.Machine.execDramReadComplete d dt t ecc s
  | .dramWriteDrain d r => Sys2Proof.Machine.execDramWriteDrain d r s
  | .cnop d t => Sys2Proof.Machine.execCnop d t s
  | .loop d t len count => Sys2Proof.Machine.execLoop d t len count s
  | .dloop d t len v bound => Sys2Proof.Machine.execDloop d t len v bound s
  | .ifp d t p n => Sys2Proof.Machine.execIfp d t p n s
  | .endProg d t => Sys2Proof.Machine.execEndProg d t s
  | .waitf d t f => Sys2Proof.Machine.execWaitf d t f s
  | .waitfResume d t => Sys2Proof.Machine.execWaitfResume d t s
  | .setf d t f => Sys2Proof.Machine.execSetf d t f s
  | .clrf d t f => Sys2Proof.Machine.execClrf d t f s
  | .kick d t ch => Sys2Proof.Machine.execKick d t ch s
  | .post d t th => Sys2Proof.Machine.execPost d t th s
  | .pos d t v => Sys2Proof.Machine.execPos d t v s
  | .ldw d c rd ra imm ecc => Sys2Proof.Machine.execLdw d c rd ra imm ecc s
  | .ldhu d c rd ra imm ecc => Sys2Proof.Machine.execLdhu d c rd ra imm ecc s
  | .ldbu d c rd ra imm ecc => Sys2Proof.Machine.execLdbu d c rd ra imm ecc s
  | .stw d c rd ra imm ecc => Sys2Proof.Machine.execStw d c rd ra imm ecc s
  | .sth d c rd ra imm ecc => Sys2Proof.Machine.execSth d c rd ra imm ecc s
  | .stb d c rd ra imm ecc => Sys2Proof.Machine.execStb d c rd ra imm ecc s
  | .lui d c rd imm => Sys2Proof.Machine.execLui d c rd imm s
  | .addiw d c rd ra imm => Sys2Proof.Machine.execAddiw d c rd ra imm s
  | .beq d c rd ra imm => Sys2Proof.Machine.execBeq d c rd ra imm s
  | .bne d c rd ra imm => Sys2Proof.Machine.execBne d c rd ra imm s
  | .bltu d c rd ra imm => Sys2Proof.Machine.execBltu d c rd ra imm s
  | .blt d c rd ra imm => Sys2Proof.Machine.execBlt d c rd ra imm s
  | .jal d c rd off => Sys2Proof.Machine.execJal d c rd off s
  | .jalr d c rd ra imm => Sys2Proof.Machine.execJalr d c rd ra imm s
  | .mul d c rd ra rb => Sys2Proof.Machine.execMul d c rd ra rb s
  | .mulhu d c rd ra rb => Sys2Proof.Machine.execMulhu d c rd ra rb s
  | .divu d c rd ra rb => Sys2Proof.Machine.execDivu d c rd ra rb s
  | .remu d c rd ra rb => Sys2Proof.Machine.execRemu d c rd ra rb s
  | .clean d c ra rb => Sys2Proof.Machine.execClean d c ra rb s
  | .inval d c ra rb => Sys2Proof.Machine.execInval d c ra rb s
  | .sync d c => Sys2Proof.Machine.execSync d c s
  | .syncDone d c => Sys2Proof.Machine.execSyncDone d c s
  | .illegalInstruction d c w => Sys2Proof.Machine.execIllegalInstruction d c w s
  | .kernelEnd d c => Sys2Proof.Machine.execKernelEnd d c s
  | .yield d c => Sys2Proof.Machine.execYield d c s
  | .delay d c => Sys2Proof.Machine.execDelay d c s
  | .kernelWait d c => Sys2Proof.Machine.execKernelWait d c s
  | .kernelPost d c => Sys2Proof.Machine.execKernelPost d c s
  | .paRelease d wr t => Sys2Proof.Machine.execPaRelease d wr t s
  | .paRestart d wr t => Sys2Proof.Machine.execPaRestart d wr t s
  | .move d ch ecc errs => Sys2Proof.Machine.execMove d ch ecc errs s
  | .dmaLoop d ch ecc => Sys2Proof.Machine.execDmaLoop d ch ecc s
  | .waitLine d ch ecc => Sys2Proof.Machine.execWaitLine d ch ecc s
  | .waitPace d ch ecc => Sys2Proof.Machine.execWaitPace d ch ecc s
  | .waitFill d ch ecc => Sys2Proof.Machine.execWaitFill d ch ecc s
  | .waitStart d ch ecc => Sys2Proof.Machine.execWaitStart d ch ecc s
  | .dmaWaitDone d ch => Sys2Proof.Machine.execDmaWaitDone d ch s
  | .dmaWaitTimeout d ch => Sys2Proof.Machine.execDmaWaitTimeout d ch s
  | .signal d ch ecc => Sys2Proof.Machine.execSignal d ch ecc s
  | .dmaAccessDone d ch errs => Sys2Proof.Machine.execDmaAccessDone d ch errs s
  | .dmaTimeout d ch => Sys2Proof.Machine.execDmaTimeout d ch s
  | .dmaStart d wr ch => Sys2Proof.Machine.execDmaStart d wr ch s
  | .dmaRestart d wr ch => Sys2Proof.Machine.execDmaRestart d wr ch s
  | .forceRap d wr n value => Sys2Proof.Machine.execForceRap d wr n value s
  | .rateWrite d wr field n value => Sys2Proof.Machine.execRateWrite d wr field n value s
  | .scte104Message d n dt op preMs header body => Sys2Proof.Machine.execScte104Message d n dt op preMs header body s
  | .commit d wr n value => Sys2Proof.Machine.execCommit d wr n value s
  | .cableChange d k dt cable => Sys2Proof.Machine.execCableChange d k dt cable s
  | .unlock d k dt => Sys2Proof.Machine.execUnlock d k dt s
  | .acquire d k dt foms => Sys2Proof.Machine.execAcquire d k dt foms s
  | .lock d k dt => Sys2Proof.Machine.execLock d k dt s
  | .acquireTimeout d k foms => Sys2Proof.Machine.execAcquireTimeout d k foms s
  | .readapt d wr k value => Sys2Proof.Machine.execReadapt d wr k value s
  | .lnPwrWrite d wr k value => Sys2Proof.Machine.execLnPwrWrite d wr k value s
  | .wakeDone d k tx dt => Sys2Proof.Machine.execWakeDone d k tx dt s
  | .sdiLine d k dt l => Sys2Proof.Machine.execSdiLine d k dt l s
  | .nativeFrame d k dt control payload full frame line => Sys2Proof.Machine.execNativeFrame d k dt control payload full frame line s
  | .linkControlFrame d k dt => Sys2Proof.Machine.execLinkControlFrame d k dt s
  | .xptWrite d wr k value => Sys2Proof.Machine.execXptWrite d wr k value s
  | .xptApplied d k dt => Sys2Proof.Machine.execXptApplied d k dt s
  | .pllUnlock d b pllB dt => Sys2Proof.Machine.execPllUnlock d b pllB dt s
  | .subportUp d sp dt eyeLow => Sys2Proof.Machine.execSubportUp d sp dt eyeLow s
  | .subportDown d sp dt => Sys2Proof.Machine.execSubportDown d sp dt s
  | .rxFrame d sp dt bytes fcs corr uncorr taken => Sys2Proof.Machine.execRxFrame d sp dt bytes fcs corr uncorr taken s
  | .pathDown d f path => Sys2Proof.Machine.execPathDown d f path s
  | .announceTimeout d => Sys2Proof.Machine.execAnnounceTimeout d s
  | .delayReq d => Sys2Proof.Machine.execDelayReq d s
  | .membershipReport d sp dt => Sys2Proof.Machine.execMembershipReport d sp dt s
  | .egressSelect d sp dt => Sys2Proof.Machine.execEgressSelect d sp dt s
  | .shaperRateWrite d wr sh value => Sys2Proof.Machine.execShaperRateWrite d wr sh value s
  | .gateSelect d wr sp value => Sys2Proof.Machine.execGateSelect d wr sp value s
  | .gateListStart d sp => Sys2Proof.Machine.execGateListStart d sp s
  | .gateEntry d sp => Sys2Proof.Machine.execGateEntry d sp s
  | .ping r dt src m => Sys2Proof.Machine.execPing r dt src m s
  | .hello r dt src m => Sys2Proof.Machine.execHello r dt src m s
  | .read r dt src m => Sys2Proof.Machine.execRead r dt src m s
  | .write r dt src m => Sys2Proof.Machine.execWrite r dt src m s
  | .modify r dt src m => Sys2Proof.Machine.execModify r dt src m s
  | .imageOpen r dt src m => Sys2Proof.Machine.execImageOpen r dt src m s
  | .imageData r dt src m => Sys2Proof.Machine.execImageData r dt src m s
  | .imageClose r dt src m => Sys2Proof.Machine.execImageClose r dt src m s
  | .flashWriteDone d => Sys2Proof.Machine.execFlashWriteDone d s
  | .transferAbandon d => Sys2Proof.Machine.execTransferAbandon d s
  | .subscribe r dt src m => Sys2Proof.Machine.execSubscribe r dt src m s
  | .unsubscribe r dt src m => Sys2Proof.Machine.execUnsubscribe r dt src m s
  | .subscriptionExpiry d => Sys2Proof.Machine.execSubscriptionExpiry d s
  | .event d => Sys2Proof.Machine.execEvent d s
  | .resetPowerOn r dt src m => Sys2Proof.Machine.execResetPowerOn r dt src m s
  | .resetHostFull r dt src m => Sys2Proof.Machine.execResetHostFull r dt src m s
  | .resetDie r dt src m => Sys2Proof.Machine.execResetDie r dt src m s
  | .resetPlan r dt src m => Sys2Proof.Machine.execResetPlan r dt src m s
  | .resetLane r dt src m => Sys2Proof.Machine.execResetLane r dt src m s
  | .relayReply d => Sys2Proof.Machine.execRelayReply d s
  | .requestExpired d => Sys2Proof.Machine.execRequestExpired d s
  | .quarantineEnd d => Sys2Proof.Machine.execQuarantineEnd d s
  | .clockLoss d p dt => Sys2Proof.Machine.execClockLoss d p dt s
  | .clockBack d p => Sys2Proof.Machine.execClockBack d p s
  | .audioUnderrun d g m => Sys2Proof.Machine.execAudioUnderrun d g m s
  | .asrcLock d a => Sys2Proof.Machine.execAsrcLock d a s
  | .dramTempSample d dt layer temp => Sys2Proof.Machine.execDramTempSample d dt layer temp s
  | .refreshInterval d r => Sys2Proof.Machine.execRefreshInterval d r s
  | .reserveRun d r k => Sys2Proof.Machine.execReserveRun d r k s
  | .rotationSlot d dt => Sys2Proof.Machine.execRotationSlot d dt s
  | .timingRecord d dt ok => Sys2Proof.Machine.execTimingRecord d dt ok s
  | .checkRecord d dt ok => Sys2Proof.Machine.execCheckRecord d dt ok s
  | .controlRecord d dt ok => Sys2Proof.Machine.execControlRecord d dt ok s
  | .planRecord d dt ok => Sys2Proof.Machine.execPlanRecord d dt ok s
  | .idleRecord d dt ok => Sys2Proof.Machine.execIdleRecord d dt ok s
  | .controlResend d => Sys2Proof.Machine.execControlResend d s
  | .unchecked d => Sys2Proof.Machine.execUnchecked d s
  | .linkTrained d dt delay => Sys2Proof.Machine.execLinkTrained d dt delay s
  | .mrLinkDown d dt => Sys2Proof.Machine.execMrLinkDown d dt s
  | .renew d dt ok => Sys2Proof.Machine.execRenew d dt ok s
  | .ack d dt ok => Sys2Proof.Machine.execAck d dt ok s
  | .handoverItem d dt ok => Sys2Proof.Machine.execHandoverItem d dt ok s
  | .heartbeat d dt ok => Sys2Proof.Machine.execHeartbeat d dt ok s
  | .heartbeatSend d => Sys2Proof.Machine.execHeartbeatSend d s
  | .wheyLost d => Sys2Proof.Machine.execWheyLost d s
  | .leaseExpiry d p => Sys2Proof.Machine.execLeaseExpiry d p s
  | .pailTake d p => Sys2Proof.Machine.execPailTake d p s
  | .handover d wr p => Sys2Proof.Machine.execHandover d wr p s
  | .handoverLine d p => Sys2Proof.Machine.execHandoverLine d p s
  | .seize d wr p => Sys2Proof.Machine.execSeize d wr p s
  | .resyncStart d p => Sys2Proof.Machine.execResyncStart d p s
  | .bootRom d dt size die1Ok => Sys2Proof.Machine.execBootRom d dt size die1Ok s
  | .bistDone d dt fails later refclk => Sys2Proof.Machine.execBistDone d dt fails later refclk s
  | .dramTrained d dt failed => Sys2Proof.Machine.execDramTrained d dt failed s
  | .keyAdd => Sys2Proof.Machine.execKeyAdd s
  | .keyRevoke => Sys2Proof.Machine.execKeyRevoke s
  | .macInstall => Sys2Proof.Machine.execMacInstall s
  | .macRevoke => Sys2Proof.Machine.execMacRevoke s
  | .test => Sys2Proof.Machine.execTest s
  | .hbClear => Sys2Proof.Machine.execHbClear s
  | .burnDone d bad => Sys2Proof.Machine.execBurnDone d bad s
  | .quote d wr => Sys2Proof.Machine.execQuote d wr s
  | .quoteDone d dt => Sys2Proof.Machine.execQuoteDone d dt s
  | .commitFw d wr => Sys2Proof.Machine.execCommitFw d wr s
  | .commitPlan d wr => Sys2Proof.Machine.execCommitPlan d wr s
  | .testEnd d wr => Sys2Proof.Machine.execTestEnd d wr s
  | .testExpiry => Sys2Proof.Machine.execTestExpiry s
  | .hbClearExpiry => Sys2Proof.Machine.execHbClearExpiry s
  | .swap d wr => Sys2Proof.Machine.execSwap d wr s
  | .swapDone dt => Sys2Proof.Machine.execSwapDone dt s
  | .fuseRepair d wr => Sys2Proof.Machine.execFuseRepair d wr s
  | .onlineSliceStart d dt item room => Sys2Proof.Machine.execOnlineSliceStart d dt item room s
  | .onlineSliceDone d dt item fail => Sys2Proof.Machine.execOnlineSliceDone d dt item fail s
  | .pertArm d wr u value => Sys2Proof.Machine.execPertArm d wr u value s
  | .pertStart d u => Sys2Proof.Machine.execPertStart d u s
  | .pertEnd d u => Sys2Proof.Machine.execPertEnd d u s
  | .hbRecordProgrammed dt ok => Sys2Proof.Machine.execHbRecordProgrammed dt ok s
  | .hbSnap wr => Sys2Proof.Machine.execHbSnap wr s
  | .clear wr => Sys2Proof.Machine.execClear wr s
  | .lifeFuse => Sys2Proof.Machine.execLifeFuse s
  | .supplyWarn d dt => Sys2Proof.Machine.execSupplyWarn d dt s
  | .supplyOk d dt => Sys2Proof.Machine.execSupplyOk d dt s
  | .ovWarn d dt => Sys2Proof.Machine.execOvWarn d dt s
  | .ovOk d dt => Sys2Proof.Machine.execOvOk d dt s
  | .overvoltShutdown dt => Sys2Proof.Machine.execOvervoltShutdown dt s
  | .brownOut dt kept => Sys2Proof.Machine.execBrownOut dt kept s
  | .powerOn dt => Sys2Proof.Machine.execPowerOn dt s
  | .pinReset dt => Sys2Proof.Machine.execPinReset dt s
  | .resetRelease dt => Sys2Proof.Machine.execResetRelease dt s
  | .regLimit d dt domain on => Sys2Proof.Machine.execRegLimit d dt domain on s
  | .regulatorReset d => Sys2Proof.Machine.execRegulatorReset d s
  | .vinSample d dt mv energy => Sys2Proof.Machine.execVinSample d dt mv energy s
  | .warnCfgWrite d wr value => Sys2Proof.Machine.execWarnCfgWrite d wr value s
  | .watchdogKick d wr => Sys2Proof.Machine.execWatchdogKick d wr s
  | .watchdogExpiry d => Sys2Proof.Machine.execWatchdogExpiry d s
  | .dieRestart d dt => Sys2Proof.Machine.execDieRestart d dt s
  | .pwSnap d wr => Sys2Proof.Machine.execPwSnap d wr s
  | .stateIdle d wr => Sys2Proof.Machine.execStateIdle d wr s
  | .stateStandby d wr => Sys2Proof.Machine.execStateStandby d wr s
  | .stateDry d wr => Sys2Proof.Machine.execStateDry d wr s
  | .wake dt => Sys2Proof.Machine.execWake dt s
  | .stateChangeDone dt => Sys2Proof.Machine.execStateChangeDone dt s
  | .keyChange => Sys2Proof.Machine.execKeyChange s
  | .encoderEvent => Sys2Proof.Machine.execEncoderEvent s
  | .touchChange => Sys2Proof.Machine.execTouchChange s
  | .touchStuck => Sys2Proof.Machine.execTouchStuck s
  | .moduleChange => Sys2Proof.Machine.execModuleChange s
  | .evqPop => Sys2Proof.Machine.execEvqPop s
  | .dutyApply dt n => Sys2Proof.Machine.execDutyApply dt n s
  | .tjSample d dt sensor temp => Sys2Proof.Machine.execTjSample d dt sensor temp s
  | .thermalShutdown d sent => Sys2Proof.Machine.execThermalShutdown d sent s
  | .thermalRestart d => Sys2Proof.Machine.execThermalRestart d s
  | .ageTick d dt => Sys2Proof.Machine.execAgeTick d dt s
  | .samplePeriod d p dt ok ratio rx => Sys2Proof.Machine.execSamplePeriod d p dt ok ratio rx s
  | .panelScan dt keys touch mods => Sys2Proof.Machine.execPanelScan dt keys touch mods s
  | .encoderSample dt e a b => Sys2Proof.Machine.execEncoderSample dt e a b s
  | .sectorErased dt => Sys2Proof.Machine.execSectorErased dt s
  | .token d wr => Sys2Proof.Machine.execToken d wr s
  | .datagramRefused r dt src m => Sys2Proof.Machine.execDatagramRefused r dt src m s
  | .packetPosition d f => Sys2Proof.Machine.execPacketPosition d f s
  | .nativeTxFrame d k dt => Sys2Proof.Machine.execNativeTxFrame d k dt s
  | .streamSlot d dt line ok samples => Sys2Proof.Machine.execStreamSlot d dt line ok samples s
  | .pllLock d b pllB dt => Sys2Proof.Machine.execPllLock d b pllB dt s
  | .powerOver d dt block mw => Sys2Proof.Machine.execPowerOver d dt block mw s

end Sys2Proof.Machine
end

