-- ==== Sys2Proof/Safety.lean ====
section
/-! DEFINITION. The terms in which statements about the block are made: when a slot of a tile or an instruction of a core acts,
what is on its way in a tile, when sparse stores are in canonical form, and which changes of the fuses are possible. -/

namespace Sys2Proof.Machine

/-- A meaning answers a next state, of which `P` holds. -/
def Completes (o : Result) (P : State → Prop) : Prop := ∃ r, o = .next r ∧ P r

/-! ### Tiles and cores that act -/

/-- A slot command of tile `t` acts: the die is there, and the tile issues a bundle in the present cycle (R150). -/
def State.slotReady (s : State) (d : DieId) (t : Nat) : Bool := s.has d && ((s.die d).tile t).issues

/-- The state with results put on their way in one tile: for each, its latency and what lands. Nothing else changes. -/
def State.results (s : State) (d : DieId) (t : Nat) (l : List (Nat × Wr)) : State :=
  let v := (s.die d).tile t
  s.upd d fun x => x.setTile t { v with due := v.due ++ l.map fun e => (v.cycle + e.1, e.2) }

/-- The state with one tile replaced. Nothing else changes. -/
def State.withTile (s : State) (d : DieId) (t : Nat) (v : Tile) : State := s.upd d fun x => x.setTile t v

/-- No perturbation unit of the die waits to put an error into an access (R594, class 5). -/
def State.noInject (s : State) (d : DieId) : Bool := (s.die d).st.inject.isEmpty

/-- An instruction of core `c` acts: the die is there, a thread runs on the core, no SYNC holds it, and its address lies in a
mapped window (R512). -/
def State.coreReady (s : State) (d : DieId) (c : Nat) : Bool :=
  s.has d && ((s.die d).executing c).isSome && ((s.die d).window c ((s.die d).core c).regs.pc.toNat).isSome

/-- The thread that runs on a core; 0 where none runs. -/
def State.thread (s : State) (d : DieId) (c : Nat) : Nat := ((s.die d).executing c).getD 0

/-- The registers of a core. -/
def State.regsOf (s : State) (d : DieId) (c : Nat) : CoreRegs := ((s.die d).core c).regs

/-- The state after a core's instruction that leaves `g` in the core's registers and takes `cycles` core cycles, which count
against the thread's budget and as busy cycles (R526, R530). Nothing else changes. -/
def State.ran (s : State) (d : DieId) (c cycles : Nat) (g : CoreRegs) : State :=
  s.upd d fun x => (x.modCore c fun k => { k with regs := g }).spend c (s.thread d c) cycles

/-! ### Register writes -/

/-- A write of one register word is accepted: it reaches the die (a host's write needs a die that is up and that takes hosts' writes),
and no reason of R417 refuses it. -/
def State.accepts (s : State) (d : DieId) (wr : Writer) (a : Nat) (v : W32) : Bool :=
  s.has d && (decide (wr ≠ .host) || ((s.die d).up && !s.hostBarred d)) && (s.writeRefused d wr [(a, v)]).isNone

/-! ### Silcel requests -/

/-- A request of a host passes steps 1 to 9 of R428 on the receiving die, which is the die that it names: the die hears it, its form
and its tag are right, its slot is open with the epoch and a fresh ALIVE (PING needs none of these, HELLO no open slot), its deadline
has not passed, its TID is free, and there is room. -/
def State.takes (s : State) (r : DieId) (src : Src) (m : Msg) : Bool :=
  let k := m.key.toNat
  let x := s.die r
  let f := s.pkg.fuses
  let fresh := (aliveNext (BitVec.ofNat 32 (x.fld R.SM_SLOT_ALIVE k)) (x.slot' k).seen m.alive).isSome
  s.hears r src && m.lengthOk && m.headerOk && !f.macRevoked k && (!f.macHas k || (m.tagged && m.tag == silcelTag (f.macKey k) m))
    && (m.opcode == 1 || (m.opcode == 2 && !x.slotOpen k) || (x.slotOpen k && fresh && (m.opcode == 2 || m.epoch.toNat == x.fld R.SM_SLOT_EPOCH_EPOCH k)))
    && decide (s.deadlineCode r m = 0 ∧ s.tidCode r m = (0, 0) ∧ s.targetCode r m = 0 ∧ m.die.toNat = r.val)
    && !s.recoveryBars r m

/-- The state in which a request that passes every check is executed: its ALIVE accepted, its transaction open and started, and
counted as accepted (R423, R424). -/
def State.opened (s : State) (r : DieId) (src : Src) (m : Msg) : State :=
  let k := m.key.toNat
  let x := s.die r
  let t := if m.opcode = 1 ∨ !x.slotOpen k then s
    else match aliveNext (BitVec.ofNat 32 (x.fld R.SM_SLOT_ALIVE k)) (x.slot' k).seen m.alive with
      | some (top, seen) => s.upd r fun x => (x.setFld R.SM_SLOT_ALIVE top.toNat k).modSlot k fun v => { v with seen := seen }
      | none => s
  (t.openTrans r src m).upd r fun x => x.startTrans k m.tid.toNat

/-- A message answers a request of die `r`'s receiver with a STATUS, a DETAIL and a payload: it goes to the sender with the request's opcode
and TID. -/
def Out.replies (r : DieId) (src : Src) (m : Msg) (code detail : Nat) (payload : List Byte) : Out → Bool
  | .silcel r' src' a => r' == r && src' == src && a.opcode == m.opcode && a.tid == m.tid && a.response && !a.post
        && a.status.toNat == code && a.detail.toNat == detail % 65536 && a.payload == payload
  | _ => false
/-- Between `s` and `t` a request has been answered: one message has left, and it is the reply. -/
def State.answers (s t : State) (r : DieId) (src : Src) (m : Msg) (code detail : Nat) (payload : List Byte) : Bool :=
  t.outbox.take s.outbox.length == s.outbox && match t.outbox.drop s.outbox.length with
    | [o] => o.replies r src m code detail payload
    | _ => false
/-- Between `s` and `t` the first message that has left answers a request. -/
def State.answersFirst (s t : State) (r : DieId) (src : Src) (m : Msg) (code detail : Nat) (payload : List Byte) : Bool :=
  t.outbox.take s.outbox.length == s.outbox && match t.outbox.drop s.outbox.length with
    | o :: _ => o.replies r src m code detail payload
    | [] => false
/-- So it has, and its transaction has ended with its TID in quarantine (R424). -/
def State.completes (s t : State) (r : DieId) (src : Src) (m : Msg) (code detail : Nat) (payload : List Byte) : Bool :=
  s.answers t r src m code detail payload && ((t.die r).trans m.key.toNat m.tid.toNat).isNone
    && (t.die r).sm.quar.getLast? == some ⟨m.key.toNat, m.tid.toNat, t.now + t.fld r R.SM_CFG_QUAR * msec, code⟩

/-! ### Records of the milk-run link -/

/-- The sender's time in a TIMING record. -/
def LinkRec.time? : LinkRec → Option Nat
  | .timing t _ => some t
  | _ => none
/-- The check value of a CHECK record that carries one. -/
def LinkRec.chk? : LinkRec → Option Chk
  | .check [c] => some c
  | _ => none
/-- The message number and the channel of a CONTROL record that is the only fragment of a forced random access point with its frame,
and carries no acknowledgement. -/
def LinkRec.rap? : LinkRec → Option (Nat × Nat)
  | .control (some (i, 0, 1)) (some (.rap n (some _))) [] => some (i, n)
  | _ => none

/-! ### Resets (R621, R627, R631) -/

/-- A die has been reset between `s` and `t`, with KIND and the bits above it in PW_LAST_RESET: it stands in the phase `ph`, nothing of the
plan is in force on it, its tiles, its cores, its DRAM and its Silcel transactions are as at power-on, PW_LOST has taken the groups of the kind,
and but for a power-on its epoch has risen. -/
def State.wiped (s t : State) (d : DieId) (kind flags : Nat) (ph : Phase) : Bool :=
  let x := s.die d
  let y := t.die d
  y.pw.phase == ph && y.live == [] && y.tiles == [] && y.par == {} && y.dram == {} && y.sm.trans == [] && y.sm.subs == [] && y.sc.token.isNone
    && (y.reg (fldAddr R.PW_LAST_RESET_KIND 0 0)).toNat == kind + flags
    && y.fld R.PW_LOST == (if kind = 0 then 0 else x.fld R.PW_LOST) ||| lostGroups kind s.dual
    && (kind == 0 || y.fld R.PW_EPOCH == (x.fld R.PW_EPOCH + 1) % 2 ^ 32)
/-- Every die of the package has been reset and is held, no plan is left, and flash, fuses and boot directory are untouched. -/
def State.packageWiped (s t : State) (kind flags : Nat) : Bool :=
  s.wiped t 0 kind flags .held && (!s.dual || s.wiped t 1 kind flags .held) && t.pkg.plans == {} && t.pkg.fw.isNone && t.pkg.panel == {}
    && t.pkg.supply == {} && t.pkg.flash == s.pkg.flash && t.pkg.fuses == s.pkg.fuses && t.pkg.dir == s.pkg.dir

/-! ### Stores in canonical form -/

/-- A byte memory is in canonical form: addresses rise, and no byte listed equals what an unlisted one reads as. -/
def Memory.wf (m : Mem) : Bool := mwf memDefault m
/-- The serial flash is in canonical form. -/
def State.flashWf (s : State) : Bool := mwf flashDefault s.pkg.flash

/-! ### Fuses (R559) -/

/-- A key slot has lost nothing: bits burnt stay burnt. -/
def KeyFuse.kept (a b : KeyFuse) : Bool :=
  (!a.valid || b.valid) && (!a.revoked || b.revoked) && (!a.damaged || b.damaged) && (!a.written || b.written)
/-- The fuses `b` have lost nothing that was burnt in `a`: no counter is lower, and every key slot has kept what it had. -/
def Fuses.kept (a b : Fuses) : Bool :=
  decide (a.fw ≤ b.fw) && decide (a.plan ≤ b.plan) && decide (a.life ≤ b.life)
    && ((List.range 4).all fun k => (a.owner k).kept (b.owner k))
    && ((List.range 4).all fun k => (List.range 4).all fun g => (a.mac k g).kept (b.mac k g))

end Sys2Proof.Machine
end

