-- ==== Sys2Proof/Certificates/Slice0/Obligations.lean ====
section
/-! DEFINITION. The statements about the model, for the provers. -/

open Sys2Proof Sys2Proof.Machine

/-- In a tile whose slot acts, ADD, ADC, ADDI, SUB, SBB and SUBI complete: one cycle later each lane that the predicate names
holds the sum or the difference modulo 256 and its bit of k the carry or the borrow; everything else of the state is
unchanged. (R156, R157, R158, R177.) -/
def Obligations.TileCarryArithmetic : Prop :=
  ∀ (s : State) (d : DieId) (t : Fin 1536) (vd va vb : Fin 32) (imm : Byte) (p : Fin 4), s.slotReady d t = true →
    let v := (s.die d).tile t
    let on := v.preg p
    let a := fun i => (v.lane va i).toNat
    let b := fun i => (v.lane vb i).toNat
    let k := fun i => if v.k.getLsbD i then 1 else 0
    let m := imm.toNat
    let put := fun (f : Nat → Nat) (c : Nat → Bool) => Host.Outcome.next (s.results d t
      [(1, .v vd (vecOf fun i => BitVec.ofNat 8 (f i)) on), (1, .k (maskOf c) on)])
    exec (.add (.tile d t) vd va vb p) s = put (fun i => a i + b i) (fun i => decide (256 ≤ a i + b i)) ∧
    exec (.adc (.tile d t) vd va vb p) s = put (fun i => a i + b i + k i) (fun i => decide (256 ≤ a i + b i + k i)) ∧
    exec (.addi (.tile d t) vd va imm p) s = put (fun i => a i + m) (fun i => decide (256 ≤ a i + m)) ∧
    exec (.sub (.tile d t) vd va vb p) s = put (fun i => a i + 256 - b i) (fun i => decide (a i < b i)) ∧
    exec (.sbb (.tile d t) vd va vb p) s = put (fun i => a i + 512 - b i - k i) (fun i => decide (a i < b i + k i)) ∧
    exec (.subi (.tile d t) vd va imm p) s = put (fun i => a i + 256 - m) (fun i => decide (a i < m))

/-- In a tile whose slot acts, AND, OR, XOR, ANDN, their immediate forms, SHLI, SHRI and SARI by 0 to 7, MOV and MOVI
complete: one cycle later each lane that the predicate names holds the result; everything else of the state is unchanged.
(R156, R157, R158, R177.) -/
def Obligations.TileLogicAndShifts : Prop :=
  ∀ (s : State) (d : DieId) (t : Fin 1536) (vd va vb : Fin 32) (imm : Byte) (p : Fin 4), s.slotReady d t = true →
    let v := (s.die d).tile t
    let a := v.lane va
    let b := v.lane vb
    let put := fun (f : Nat → Byte) => Host.Outcome.next (s.results d t [(1, .v vd (vecOf f) (v.preg p))])
    exec (.and (.tile d t) vd va vb p) s = put (fun i => a i &&& b i) ∧
    exec (.or (.tile d t) vd va vb p) s = put (fun i => a i ||| b i) ∧
    exec (.xor (.tile d t) vd va vb p) s = put (fun i => a i ^^^ b i) ∧
    exec (.andn (.tile d t) vd va vb p) s = put (fun i => a i &&& ~~~(b i)) ∧
    exec (.andi (.tile d t) vd va imm p) s = put (fun i => a i &&& imm) ∧
    exec (.ori (.tile d t) vd va imm p) s = put (fun i => a i ||| imm) ∧
    exec (.xori (.tile d t) vd va imm p) s = put (fun i => a i ^^^ imm) ∧
    exec (.mov (.tile d t) vd va p) s = put a ∧
    exec (.movi (.tile d t) vd imm p) s = put (fun _ => imm) ∧
    (imm.toNat ≤ 7 →
      exec (.shli (.tile d t) vd va imm p) s = put (fun i => BitVec.ofNat 8 ((a i).toNat * 2 ^ imm.toNat)) ∧
      exec (.shri (.tile d t) vd va imm p) s = put (fun i => BitVec.ofNat 8 ((a i).toNat / 2 ^ imm.toNat)) ∧
      exec (.sari (.tile d t) vd va imm p) s = put (fun i => BitVec.ofInt 8 ((a i).toInt / 2 ^ imm.toNat)))

/-- In a tile whose slot acts, ADDUS, SUBUS, ADDSS, SUBSS, AVGU, ABSD, MINU, MAXU, MINS and MAXS complete with each lane's
clamped sum or difference, rounded mean, distance, minimum or maximum one cycle later in the lanes that the predicate names;
SEL writes every lane and takes the predicate as its selector. Everything else of the state is unchanged. (R157, R158, R177.)
-/
def Obligations.TileSaturationAndChoice : Prop :=
  ∀ (s : State) (d : DieId) (t : Fin 1536) (vd va vb : Fin 32) (p : Fin 4), s.slotReady d t = true →
    let v := (s.die d).tile t
    let a := v.lane va
    let b := v.lane vb
    let put := fun (f : Nat → Byte) => Host.Outcome.next (s.results d t [(1, .v vd (vecOf f) (v.preg p))])
    let clamp := fun (x : Int) => BitVec.ofInt 8 (max (-128) (min x 127))
    exec (.addus d t vd va vb p) s = put (fun i => BitVec.ofNat 8 (min ((a i).toNat + (b i).toNat) 255)) ∧
    exec (.subus d t vd va vb p) s = put (fun i => BitVec.ofNat 8 ((a i).toNat - (b i).toNat)) ∧
    exec (.addss d t vd va vb p) s = put (fun i => clamp ((a i).toInt + (b i).toInt)) ∧
    exec (.subss d t vd va vb p) s = put (fun i => clamp ((a i).toInt - (b i).toInt)) ∧
    exec (.avgu d t vd va vb p) s = put (fun i => BitVec.ofNat 8 (((a i).toNat + (b i).toNat + 1) / 2)) ∧
    exec (.absd d t vd va vb p) s = put (fun i => BitVec.ofNat 8 (max (a i).toNat (b i).toNat - min (a i).toNat (b i).toNat)) ∧
    exec (.minu (.tile d t) vd va vb p) s = put (fun i => BitVec.ofNat 8 (min (a i).toNat (b i).toNat)) ∧
    exec (.maxu (.tile d t) vd va vb p) s = put (fun i => BitVec.ofNat 8 (max (a i).toNat (b i).toNat)) ∧
    exec (.mins (.tile d t) vd va vb p) s = put (fun i => BitVec.ofInt 8 (min (a i).toInt (b i).toInt)) ∧
    exec (.maxs (.tile d t) vd va vb p) s = put (fun i => BitVec.ofInt 8 (max (a i).toInt (b i).toInt)) ∧
    exec (.sel d t vd va vb p) s = .next (s.results d t
      [(1, .v vd (vecOf fun i => if (v.preg p).getLsbD i then a i else b i) (BitVec.allOnes 32))])

/-- In a tile whose slot acts, CEQ, CLTU, CLTS, CEQI and CLTUI into p1 to p3 complete with the comparison of each lane that
the predicate names one cycle later; KTOP copies k into a predicate and PTOK a predicate into k. NOP and RNOP and MNOP change
nothing. Everything else of the state is unchanged. (R156, R157, R158, R177.) -/
def Obligations.TileComparesAndPredicates : Prop :=
  ∀ (s : State) (d : DieId) (t : Fin 1536) (vd va vb : Fin 32) (imm : Byte) (p : Fin 4), s.slotReady d t = true →
    let v := (s.die d).tile t
    let a := v.lane va
    let b := v.lane vb
    let on := v.preg p
    let put := fun (f : Nat → Bool) => Host.Outcome.next (s.results d t [(1, .p vd (maskOf f) on)])
    (1 ≤ vd.val ∧ vd.val ≤ 3 →
      exec (.ceq (.tile d t) vd va vb p) s = put (fun i => decide ((a i).toNat = (b i).toNat)) ∧
      exec (.cltu (.tile d t) vd va vb p) s = put (fun i => decide ((a i).toNat < (b i).toNat)) ∧
      exec (.clts (.tile d t) vd va vb p) s = put (fun i => decide ((a i).toInt < (b i).toInt)) ∧
      exec (.ceqi (.tile d t) vd va imm p) s = put (fun i => decide ((a i).toNat = imm.toNat)) ∧
      exec (.cltui (.tile d t) vd va imm p) s = put (fun i => decide ((a i).toNat < imm.toNat)) ∧
      exec (.ktop d t vd p) s = .next (s.results d t [(1, .p vd v.k on)])) ∧
    (va.val ≤ 3 → exec (.ptok d t va p) s = .next (s.results d t [(1, .k (v.preg va) on)])) ∧
    exec (.nop (.tile d t) .clean) s = .next s ∧
    exec (.rnop d t) s = .next s ∧
    exec (.mnop d t) s = .next s

/-- In a tile whose slot acts, FSHR, FSHL, SHUF, BCAST, RUP2, RUP4, RPK2, RPK4, JOINL and JOINH complete, with the immediates
that the table of opcodes allows: the result lands after one cycle, that of SHUF and BCAST after two, in the lanes that the
predicate names and, for the packing opcodes, that the result covers. Everything else of the state is unchanged. (R157, R158,
R177.) -/
def Obligations.TileLaneRearrangement : Prop :=
  ∀ (s : State) (d : DieId) (t : Fin 1536) (vd va vb : Fin 32) (imm : Byte) (p : Fin 4), s.slotReady d t = true →
    let v := (s.die d).tile t
    let a := v.lane va
    let b := v.lane vb
    let n := imm.toNat
    let put := fun (l : Nat) (f : Nat → Byte) => Host.Outcome.next (s.results d t [(l, .v vd (vecOf f) (v.preg p))])
    let part := fun (from_ len : Nat) (f : Nat → Byte) => Host.Outcome.next (s.results d t
      [(1, .v vd (vecOf f) (v.preg p &&& maskOf fun i => decide (from_ ≤ i ∧ i < from_ + len)))])
    (n ≤ 8 →
      exec (.fshr d t vd va vb imm p) s = put 1 (fun i => BitVec.ofNat 8 (((a i).toNat * 256 + (b i).toNat) / 2 ^ n)) ∧
      exec (.fshl d t vd va vb imm p) s = put 1 (fun i => BitVec.ofNat 8 (((a i).toNat * 256 + (b i).toNat) * 2 ^ n % 65536 / 256))) ∧
    exec (.shuf d t vd va vb p) s = put 2 (fun i => a ((b i).toNat % 32)) ∧
    exec (.bcast d t vd va imm p) s = put 2 (fun _ => a (n % 32)) ∧
    (n ≤ 3 →
      exec (.rup2 d t vd va imm p) s = put 1 (fun i => BitVec.ofNat 8 ((a (8 * n + i / 4)).toNat / 4 ^ (i % 4) % 4)) ∧
      exec (.rpk2 d t vd va imm p) s = part (8 * n) 8 (fun i =>
        let j := i - 8 * n
        BitVec.ofNat 8 ((a (4 * j)).toNat % 4 + (a (4 * j + 1)).toNat % 4 * 4 + (a (4 * j + 2)).toNat % 4 * 16
          + (a (4 * j + 3)).toNat % 4 * 64))) ∧
    (n ≤ 1 →
      exec (.rup4 d t vd va imm p) s = put 1 (fun i => BitVec.ofNat 8 ((a (16 * n + i / 2)).toNat / 16 ^ (i % 2) % 16)) ∧
      exec (.rpk4 d t vd va imm p) s = part (16 * n) 16 (fun i =>
        let j := i - 16 * n
        BitVec.ofNat 8 ((a (2 * j)).toNat % 16 + (a (2 * j + 1)).toNat % 16 * 16))) ∧
    (n = 2 ∨ n = 4 →
      exec (.joinl d t vd va vb imm p) s = put 1 (fun i => BitVec.ofNat 8 ((a i).toNat * 2 ^ n) ||| b i) ∧
      exec (.joinh d t vd va imm p) s = put 1 (fun i => BitVec.ofNat 8 ((a i).toNat / 2 ^ (8 - n))))

/-- In an S-tile whose slot acts, SAD, SADZ, SATD4, SATD8 and DADD complete with the cost added to or put into an accumulator,
saturated at 2^24 - 1; BEST3 inserts an accumulator's cost after every entry of equal cost and keeps three entries; DRD and
BRD read bytes of them into lanes; DCLR clears all of them. Each lands after its latency and everything else of the state is
unchanged. (R152, R160, R161, R162, R163, R177.) -/
def Obligations.SearchTileCosts : Prop :=
  ∀ (s : State) (d : DieId) (t : Fin 1536) (vd va vb : Fin 32) (imm : Byte) (p : Fin 4), s.slotReady d t = true →
    tileType t = .S →
    let v := (s.die d).tile t
    let a := fun i => (v.lane va i).toNat
    let b := fun i => (v.lane vb i).toNat
    let sad := (List.range 32).foldl (fun n i => n + if (v.preg p).getLsbD i then max (a i) (b i) - min (a i) (b i) else 0) 0
    let put := fun (l : List (Nat × Wr)) => Host.Outcome.next (s.results d t l)
    let diff := fun (va vb : Nat) (i : Nat) => ((v.lane va i).toNat : Int) - (v.lane vb i).toNat
    (vd.val ≤ 15 →
      exec (.sad d t vd va vb p) s = put [(2, .d vd (v.dreg vd + sad))] ∧
      exec (.sadz d t vd va vb p) s = put [(2, .d vd sad)] ∧
      exec (.satd4 d t vd va vb) s = put [(4, .d vd (min (min (v.dreg vd + satd4Block ((List.range 16).map (diff va vb))) costMax
        + satd4Block ((List.range 16).map fun i => diff va vb (16 + i))) costMax))] ∧
      exec (.dadd d t vd va vb) s = put [(1, .d vd (v.dreg vd + a 0 + 256 * b 0))] ∧
      (va.val ≤ 30 → vb.val ≤ 30 → exec (.satd8 d t vd va vb) s = put [(6, .d vd (v.dreg vd + satd8Block
        ((List.range 32).map (diff va vb) ++ (List.range 32).map (diff (va + 1) (vb + 1)))))])) ∧
    (va.val ≤ 15 → exec (.best3 d t va imm) s = put [(2, .best (bestInsert (v.dreg va) imm.toNat v.best))]) ∧
    (imm.toNat ≤ 2 →
      exec (.drdS d t vd imm p) s = put [(1, .v vd (vecOf fun j => if j < 16 then BitVec.ofNat 8 (v.dreg j / 256 ^ imm.toNat) else 0) (v.preg p))] ∧
      exec (.brd d t vd imm p) s = put [(1, .v vd (vecOf fun j => if j < 3 then BitVec.ofNat 8 ((v.bestEntry j).1 / 256 ^ imm.toNat)
        else if j < 6 then BitVec.ofNat 8 (v.bestEntry (j - 3)).2 else 0) (v.preg p))]) ∧
    exec (.dclr d t) s = put ((1, .best []) :: (List.range 16).map fun r => (1, .d r 0))

/-- In a T-tile whose slot acts, MULU, MACU, MACS, MACSU and MACBS complete with each named lane's product, shifted by its
byte position and added modulo 2^32 to the accumulator or put into it, after three cycles; MEXT rounds, shifts and extracts a
byte after two; MLD, MCLR and MADD load, clear and add the accumulators after one. Everything else of the state is unchanged.
(R152, R160, R164, R177.) -/
def Obligations.TransformTileProducts : Prop :=
  ∀ (s : State) (d : DieId) (t : Fin 1536) (vd va vb : Fin 32) (imm : Byte) (p : Fin 4), s.slotReady d t = true →
    tileType t = .T →
    let v := (s.die d).tile t
    let a := v.lane va
    let b := v.lane vb
    let on := v.preg p
    let m := fun (r i : Nat) => (v.macc r)[i]!
    let acc := fun (f : Nat → W32) => Vector.ofFn fun (i : Fin 32) => f i.val
    let put := fun (l : List (Nat × Wr)) => Host.Outcome.next (s.results d t l)
    let sh := fun (x : Int) => BitVec.ofInt 32 (x * 2 ^ (8 * imm.toNat))
    (vd.val ≤ 1 →
      (imm.toNat ≤ 3 →
        exec (.mulu d t vd va vb imm p) s = put [(3, .m vd (acc fun i => sh ((a i).toNat * (b i).toNat)) on)] ∧
        exec (.macu d t vd va vb imm p) s = put [(3, .m vd (acc fun i => m vd i + sh ((a i).toNat * (b i).toNat)) on)] ∧
        exec (.macs d t vd va vb imm p) s = put [(3, .m vd (acc fun i => m vd i + sh ((a i).toInt * (b i).toInt)) on)] ∧
        exec (.macsu d t vd va vb imm p) s = put [(3, .m vd (acc fun i => m vd i + sh ((a i).toInt * (b i).toNat)) on)]) ∧
      (imm.toNat ≤ 31 → exec (.macbs d t vd va vb imm p) s = put [(3, .m vd (acc fun i =>
        m vd i + BitVec.ofInt 32 ((a i).toInt * (b imm.toNat).toInt)) on)]) ∧
      exec (.mld d t vd va vb p) s = put [(1, .m vd (acc fun i => BitVec.ofInt 32 (sgn 16 ((a i).toNat + 256 * (b i).toNat))) on)] ∧
      exec (.mclr d t vd p) s = put [(1, .m vd (acc fun _ => 0) on)]) ∧
    exec (.mclr d t 2 p) s = put [(1, .m 0 (acc fun _ => 0) on), (1, .m 1 (acc fun _ => 0) on)] ∧
    (va.val ≤ 1 → exec (.mext d t vd va imm p) s = put [(2, .v vd (vecOf fun i =>
      let n := imm.toNat % 32
      let y := ((m va i).toInt + if n = 0 then 0 else 2 ^ (n - 1)) / 2 ^ n
      let z := if bit imm.toNat 7 then max (-32768) (min y 32767) else y
      BitVec.ofNat 8 (unsgn 40 z / 256 ^ (imm.toNat / 32 % 4))) on)]) ∧
    exec (.madd d t p) s = put [(1, .m 0 (acc fun i => m 0 i + m 1 i) on)]

/-- In an E-tile whose slot acts, CINIT sets 32 contexts from the base and the immediate on, CBASE the base, CSNAP and CREST
copy contexts to and from the snapshot after four cycles, CSTART sets the mode, the coder and the bin count, and FLVL reads
the number of bytes seen and the bin count into lanes. Everything else of the state is unchanged. (R152, R160, R165, R166,
R177.) -/
def Obligations.CoderTileContexts : Prop :=
  ∀ (s : State) (d : DieId) (t : Fin 1536) (vd va vb : Fin 32) (imm : Byte) (p : Fin 4), s.slotReady d t = true →
    tileType t = .E →
    let v := (s.die d).tile t
    let c := v.coder
    let a := v.lane va
    let b := v.lane vb
    let now := fun (c : Coder) => Host.Outcome.next (s.withTile d t { v with coder := c })
    (imm.toNat ≤ 31 → exec (.cinit d t va vb imm) s = now { c with ctx := (List.range 32).foldl (fun m i =>
      mput (fun _ => 0) m ((c.base + 32 * imm.toNat + i) % 1024) (Config.contextInit c.vvc (a i) (b 0))) c.ctx }) ∧
    exec (.cbase d t va vb) s = now { c with base := ((a 0).toNat + 256 * (b 0).toNat) % 1024 } ∧
    exec (.csnap d t) s = .next (s.results d t [(4, .snap c.ctx)]) ∧
    exec (.crest d t) s = .next (s.results d t [(4, .ctx c.snap)]) ∧
    (imm.toNat ≤ 1 → exec (.cstart d t imm) s =
      now { c with vvc := bit imm.toNat 0, arith := Config.coderStart (bit imm.toNat 0), bins := 0 }) ∧
    exec (.flvl d t vd p) s = .next (s.results d t [(1, .v vd (vecOf fun i =>
      if i = 0 then BitVec.ofNat 8 v.fifoSeen.length
      else if i < 4 then BitVec.ofNat 8 (c.bins / 256 ^ (i - 1)) else 0) (v.preg p))])

/-- In an E-tile whose slot acts and whose f14 is not on its way, BINC, BINB, BINT, CFLUSH and PUTB complete: the bin count
rises by the bins coded modulo 2^24, the FIFO never holds more than 128 bytes if it held no more before, the bytes that stood
in it stay in front, and only the coder, f14 and, where f14 is set, the rows of the tile's fragment change. (R152, R165, R166,
R217.) -/
def Obligations.CoderTileBits : Prop :=
  ∀ (s : State) (d : DieId) (t : Fin 1536) (va vb : Fin 32) (imm : Byte), s.slotReady d t = true →
    tileType t = .E →
    let v := (s.die d).tile t
    v.overflowing = false →
    let done := fun (i : Instr) (bins : Nat) => ∃ (c : Coder) (full : Bool),
      let s' := s.withTile d t (if full then ({ v with coder := c }).later 1 (.f 14 true) else { v with coder := c })
      exec i s = .next (if full then s'.upd d fun x => x.hitFragment (x.tileFrag t) 4 else s') ∧
      c.bins = (if bins = 0 then v.coder.bins else (v.coder.bins + bins) % 2 ^ 24) ∧
      (v.coder.fifo.length ≤ 128 → c.fifo.length ≤ 128) ∧ c.fifo.take v.coder.fifo.length = v.coder.fifo ∧
      c.snap = v.coder.snap ∧ c.base = v.coder.base ∧ c.vvc = v.coder.vvc
    let two := if bit imm.toNat 4 then 2 else 1
    (imm.toNat ≤ 31 → done (.binc d t va vb imm) two ∧ done (.binb d t va imm) two) ∧
    done (.bint d t va) 1 ∧
    (imm.toNat ≤ 1 → done (.cflush d t imm) 0) ∧
    (imm.toNat % 128 ≤ 7 → done (.putb d t va imm) 0)

/-- In a tile whose slot acts, with the accessed banks given to the MEM slot and no error in the word, LD, LDU and LDB
complete: after three cycles the register holds the 32 bytes at the granule or byte address, or the byte in every lane; with P
the address register steps, after one cycle, by the offset that is not then added to the address. No byte of scratch changes,
nor anything else of the state. (R116, R167, R168, R169, R177.) -/
def Obligations.ScratchLoads : Prop :=
  ∀ (s : State) (d : DieId) (t : Fin 1536) (v : Fin 32) (ar : Fin 16) (post : Bool) (imm : BitVec 16), s.slotReady d t = true →
    s.noInject d = true →
    let x := (s.die d).tile t
    let at_ := fun (off : Int) => (if post then x.areg ar else unsgn 20 (x.areg ar + off)) % scratchSize t
    let byte := fun (a i : Nat) => rdByte x.scratch ((a + i) % scratchSize t)
    let step := fun (off : Int) => if post then [(1, Wr.a ar (unsgn 20 (x.areg ar + off)))] else []
    let line := fun (a : Nat) (off : Int) => Host.Outcome.next (s.results d t
      ((3, .v v (vecOf fun i => byte a i) (BitVec.allOnes 32)) :: step off))
    let g := at_ (32 * imm.toInt) / 32 * 32
    let u := at_ imm.toInt
    (x.memOk t g 32 = true → exec (.ld d t v ar post imm .clean) s = line g (32 * imm.toInt)) ∧
    (x.memOk t u 32 = true → exec (.ldu d t v ar post imm .clean) s = line u imm.toInt) ∧
    (x.memOk t u 1 = true → exec (.ldb d t v ar post imm .clean) s = .next (s.results d t
      ((3, .v v (vecOf fun _ => byte u 0) (BitVec.allOnes 32)) :: step imm.toInt)))

/-- In a tile whose slot acts, with the accessed banks given to the MEM slot, ST, STU, STP and STBF complete: the bytes of the
register, of its lanes that the predicate names, or the bytes of the bin FIFO that are seen stand at the wrapped address, and
every byte of scratch outside the bytes stored reads as before; those of the FIFO leave it after one cycle. With P the address
register steps after one cycle; the tile's other registers and everything outside the tile are unchanged, and the scratch
stays in canonical form. (R116, R167, R168, R169.) -/
def Obligations.ScratchStores : Prop :=
  ∀ (s : State) (d : DieId) (t : Fin 1536) (v : Fin 32) (ar : Fin 16) (post : Bool) (pr : Fin 4) (imm : BitVec 16) (im : BitVec 14),
    s.slotReady d t = true → s.noInject d = true →
    let x := (s.die d).tile t
    let n := scratchSize t
    let at_ := fun (off : Int) => (if post then x.areg ar else unsgn 20 (x.areg ar + off)) % n
    let stored := fun (i : Instr) (a : Nat) (l : List (Nat × Byte)) (off : Int) (gone : List (Nat × Wr)) => ∃ m : Mem,
      exec i s = .next (s.withTile d t (Tile.step { x with scratch := m, due := x.due ++ gone } ar post off)) ∧
      (∀ e ∈ l, rdByte m ((a + e.1) % n) = e.2) ∧
      (∀ b, (∀ e ∈ l, b ≠ (a + e.1) % n) → rdByte m b = rdByte x.scratch b) ∧
      (Memory.wf x.scratch = true → Memory.wf m = true)
    let all := (List.range 32).map fun i => (i, x.lane v i)
    let g := at_ (32 * imm.toInt) / 32 * 32
    let u := at_ imm.toInt
    let gp := at_ (32 * im.toInt) / 32 * 32
    let bs := x.fifoSeen.take 32
    let f := x.areg ar % n
    (x.memOk t g 32 = true → stored (.st d t v ar post imm) g all (32 * imm.toInt) []) ∧
    (x.memOk t u 32 = true → stored (.stu d t v ar post imm) u all imm.toInt []) ∧
    (x.memOk t gp 32 = true → stored (.stp d t v ar post pr im) gp (all.filter fun e => (x.preg pr).getLsbD e.1) (32 * im.toInt) []) ∧
    (tileType t = .E → x.memOk t f bs.length = true →
      stored (.stbf d t ar post) f ((List.range bs.length).zip bs) bs.length [(x.cycle + 1, .fifo bs.length)])

/-- In a tile whose slot acts, an access of the MEM slot to a bank that is given to another accessor completes: a load returns
0 in every lane, a store leaves every byte of scratch as it was, and the fault is counted, recorded and reported. (R118.) -/
def Obligations.ScratchFaults : Prop :=
  ∀ (s : State) (d : DieId) (t : Fin 1536) (v : Fin 32) (ar : Fin 16) (imm : BitVec 16), s.slotReady d t = true →
    s.noInject d = true →
    let x := (s.die d).tile t
    let g := unsgn 20 (x.areg ar + 32 * imm.toInt) % scratchSize t / 32 * 32
    x.memOk t g 32 = false →
    let faulted := fun (r : State) => r.tileFault d t .bank
    exec (.ld d t v ar false imm .clean) s = .next (faulted (s.results d t [(3, .v v (vecOf fun _ => 0) (BitVec.allOnes 32))])) ∧
    exec (.st d t v ar false imm) s = .next (faulted s) ∧
    (∀ r : State, (faulted r).fld d R.VT_BANK_FAULTS = (r.fld d R.VT_BANK_FAULTS + 1) % 2 ^ 32 ∧
      (faulted r).fld d R.VT_EVENTS_BANK_FAULT = 1 ∧ ((faulted r).die d).tile t = (r.die d).tile t)

/-- In a tile whose slot acts, ASET, AADD, ALDV, QLDV and QADD complete with the new address after one cycle and nothing else
changed. RT that drives no edge and receives from an in-edge register puts that word into a vector register after one cycle;
an RT that drives the east edge from a register reaches the eastern neighbour's west in-edge register two cycles later. (R120,
R122, R153, R155, R167, R168, R177.) -/
def Obligations.AddressRegistersAndRoutes : Prop :=
  ∀ (s : State) (d : DieId) (t : Fin 1536) (v : Fin 32) (ar : Fin 16) (q : Fin 8) (l : Fin 32) (imm : BitVec 16),
    s.slotReady d t = true →
    let x := (s.die d).tile t
    let put := fun (l : List (Nat × Wr)) => Host.Outcome.next (s.results d t l)
    (v.val ≤ 15 → exec (.aset d t v ar imm) s = put [(1, .a ar ((v * 65536 + imm.toNat) % 2 ^ 20))]) ∧
    exec (.aadd d t ar imm) s = put [(1, .a ar (unsgn 20 (x.areg ar + imm.toInt)))] ∧
    (v.val ≤ 29 → exec (.aldv d t v ar l) s = put [(1, .a ar (x.group v 3 l % 2 ^ 20))]) ∧
    (tileType t = .M → v.val ≤ 27 → exec (.qldv d t v q l) s = put [(1, .q q (x.group v 5 l % 2 ^ 34 / 64 * 64))]) ∧
    (tileType t = .M → exec (.qadd d t q imm) s = put [(1, .q q (unsgn 34 (x.qreg q + 64 * imm.toInt)))]) ∧
    (∀ (rin : Fin 8) (rv : Fin 32), 1 ≤ rin.val → rin.val ≤ 4 →
      exec (.rt d t 0 0 0 0 0 rin rv) s = put [(1, .v rv (x.edge rin) (BitVec.allOnes 32))]) ∧
    (t.val % 48 ≠ 47 → ((s.die d).tile (t + 1)).cycle < x.cycle + 2 → exec (.rt d t 1 4 0 0 l 0 0) s = .next (s.withTile d (t + 1)
      { (s.die d).tile (t + 1) with due := ((s.die d).tile (t + 1)).due ++ [(x.cycle + 2, .edge 4 (x.vreg l))] }))

/-- In a tile whose slot acts, an RT whose moves A and B direct two different sources to one edge that leads to a neighbour
completes: the neighbour gets the source that comes first in the order local, north, east, south, west on its opposite edge
two cycles later, the other is dropped, and the device reports a ROUTE breach and counts it in VT_ROUTE_FAULTS. (R122.) -/
def Obligations.EdgeCollision : Prop :=
  ∀ (s : State) (d : DieId) (t : Fin 1536) (a b : Fin 8) (lv : Fin 32) (dir m : Nat), s.slotReady d t = true →
    1 ≤ dir → dir ≤ 4 → neighbour t dir = some m → 1 ≤ a.val → a.val ≤ 5 → 1 ≤ b.val → b.val ≤ 5 → a ≠ b →
    let x := (s.die d).tile t
    let y := (s.die d).tile m
    let dst := BitVec.ofNat 4 (2 ^ (4 - dir))
    y.cycle < x.cycle + 2 →
    let first := min a.val b.val
    let w := if first = 1 then x.vreg lv else x.edge (first - 1)
    Completes (exec (.rt d t a dst b dst lv 0 0) s) fun r =>
      ((r.die d).tile m) = { y with due := y.due ++ [(x.cycle + 2, .edge (opposite dir) w)] } ∧
      (∀ u, u ≠ m → (r.die d).tile u = (s.die d).tile u) ∧
      r.fld d R.VT_ROUTE_FAULTS = (s.fld d R.VT_ROUTE_FAULTS + 1) % 2 ^ 32 ∧
      r.fld d R.PL_BREACH_COUNT = (s.fld d R.PL_BREACH_COUNT + 1) % 2 ^ 32 ∧
      r.fld d R.PL_BREACH_KIND = 4 ∧ r.fld d R.PL_BREACH_SIDE = 1 ∧ r.fld d R.PL_EVENTS_BREACH = 1

/-- In an M-tile whose slot acts on a region of its cadence, within the spacing rule and with no forced operation in progress,
DRD puts a read of 64 bytes on its way and DWR puts the 64 bytes of scratch on their way to DRAM; DRAM_READ_COMPLETE within
320 ns without error writes the data into scratch; DRAM_WRITE_DRAIN moves the oldest write of the region into the array. No
byte of scratch or of the array changes otherwise. (R135, R136, R137, R168, R469, R471.) -/
def Obligations.TileDramPort : Prop :=
  ∀ (s : State) (d : DieId) (t : Fin 1536) (q : Fin 8) (ar : Fin 16) (incq inca : Bool) (dt : Nat) (rg : Fin 16), s.has d = true →
    s.noInject d = true →
    let x := s.die d
    let v := x.tile t
    let a := v.qreg q
    let from_ := v.areg ar / 64 * 64 % scratchSize t
    let steps := (if incq then [(v.cycle + 1, Wr.q q (a + 64))] else []) ++
      if inca then [(v.cycle + 1, Wr.a ar (unsgn 20 (v.areg ar + 64)))] else []
    (tileType t = .M → v.issues = true → x.portCheck t a = .none →
      Completes (exec (.drd d t q incq ar inca) s) (fun r =>
        (r.die d).tile t = { v with due := v.due ++ steps, reads := v.reads ++ [⟨a, from_, rdBytes x.dram.view a 64, false, s.now⟩] } ∧
        (r.die d).dram.cells = x.dram.cells ∧ (r.die d).dram.writes = x.dram.writes) ∧
      Completes (exec (.dwr d t q incq ar inca (.clean, .clean)) s) (fun r =>
        (r.die d).tile t = { v with due := v.due ++ steps } ∧ (r.die d).dram.cells = x.dram.cells ∧
        (r.die d).dram.writes = x.dram.writes ++ [⟨a, (v.readScratch t from_ 64).map some, s.now, []⟩])) ∧
    (∀ p rest, v.reads = p :: rest → p.faulted = false → s.now + dt - p.issued ≤ 320 * nsec →
      x.pertSum 4 (dramRegion p.addr) 0 = 0 →
      Completes (exec (.dramReadComplete d dt t .clean) s) fun r =>
        (r.die d).tile t = Tile.writeScratch { v with reads := rest } t p.dest p.data ∧ (r.die d).dram = x.dram) ∧
    (∀ w, x.dram.writes.find? (fun w => dramRegion w.addr == rg.val) = some w →
      Completes (exec (.dramWriteDrain d rg) s) fun r =>
        (r.die d).dram = { x.dram with cells := w.apply x.dram.cells, writes := x.dram.writes.erase w } ∧ (r.die d).tiles = x.tiles)

/-- In a tile whose slot acts, with no result landing and no deferred program paused, each CTL opcode completes and the cycle
rises by 1: after CNOP the next bundle follows, or a loop's first bundle while iterations are left; LOOP and DLOOP enter a
loop, a DLOOP of count 0 skips its body and owes its idle cycles, and a count above the bound sets f15; IFP skips the next
bundles where lane 0 of the predicate is 0; END ends the program. SLACK_REGION_END pauses a deferred program at its point.
(R128, R133, R171, R172, R173, R174, R175.) -/
def Obligations.TileControlFlow : Prop :=
  ∀ (s : State) (d : DieId) (t : Fin 1536) (len n : Fin 256) (count : W16) (g : Fin 32) (bound : Fin 8192) (p : Fin 4),
    s.slotReady d t = true →
    let v := (s.die d).tile t
    v.due = [] → v.paused = false → 1 ≤ len.val →
    let gives := fun (i : Instr) (w : Tile) => exec i s = .next (s.withTile d t { w with cycle := v.cycle + 1 })
    let c := (v.lane g 0).toNat + 256 * (v.lane ((g + 1) % 32) 0).toNat
    let beyond := decide (bound.val < c)
    (v.loops = [] →
      gives (.cnop d t) { v with bundle := v.bundle + 1 } ∧
      (1 ≤ count.toNat → gives (.loop d t len count)
        { v with bundle := v.bundle + 1, loops := [⟨v.bundle + 1, v.bundle + 1 + len, count.toNat - 1, 0⟩] }) ∧
      (1 ≤ bound.val → g.val ≤ 30 → gives (.dloop d t len g bound)
        (let w := if beyond then v.land (.f 15 true) else v
         if c = 0 then { w with bundle := v.bundle + 1 + len, idle := bound * len }
         else { w with bundle := v.bundle + 1,
                       loops := [⟨v.bundle + 1, v.bundle + 1 + len, min c bound - 1, (bound - min c bound) * len⟩] })) ∧
      (1 ≤ p.val → 1 ≤ n.val → gives (.ifp d t p n)
        { v with bundle := v.bundle + 1, skip := if (v.preg p).getLsbD 0 then 0 else n.val })) ∧
    (∀ l : LoopLevel, v.loops = [l] → l.after = v.bundle + 1 →
      gives (.cnop d t) (if 0 < l.left then { v with bundle := l.first, loops := [{ l with left := l.left - 1 }] }
        else { v with bundle := v.bundle + 1, loops := [], idle := l.filler })) ∧
    gives (.endProg d t) { v with running := false } ∧
    (v.prog.slack = true → Completes (exec (.slackRegionEnd d t) s) fun r =>
      let w := (r.die d).tile t
      w.paused = true ∧ w.running = false ∧ w.saved = some ⟨v.bundle, v.loops, 0, 0, none⟩ ∧ w.v = v.v ∧ w.scratch = v.scratch)

/-- In a tile whose slot acts, outside loops and with no result landing, WAITF on a flag that is 1 clears it and the next
bundle follows, on a flag that is 0 the tile waits; WAITF_RESUME after the flag has become 1 clears it, and the next bundle
issues in the following cycle; SETF and CLRF write the flag; POS writes the line number of the window into lane 0 of two
registers; KICK starts an idle channel that allows tiles as a source; POST takes one from a thread's dependence counter. The
CTL slot closes the cycle in each. (R171, R175, R490, R525.) -/
def Obligations.TileFlagsAndSignals : Prop :=
  ∀ (s : State) (d : DieId) (t : Fin 1536) (f : Fin 16) (v : Fin 32) (ch : Fin 128) (th : Fin 4096), s.has d = true →
    let x := (s.die d).tile t
    x.due = [] → x.paused = false → x.loops = [] → x.idle = 0 →
    let next := { x with cycle := x.cycle + 1, bundle := x.bundle + 1 }
    let gives := fun (i : Instr) (w : Tile) => exec i s = .next (s.withTile d t w)
    (x.issues = true →
      gives (.waitf d t f) (if x.flag f then next.land (.f f false) else { x with cycle := x.cycle + 1, waiting := some f.val }) ∧
      gives (.setf d t f) (next.land (.f f true)) ∧
      gives (.clrf d t f) (next.land (.f f false)) ∧
      (v.val ≤ 30 → gives (.pos d t v) ((next.land (.v v (vecOf fun _ => BitVec.ofNat 8 x.line) 1)).land
        (.v (v + 1) (vecOf fun _ => BitVec.ofNat 8 (x.line / 256)) 1))) ∧
      (s.fld d R.DM_CH_CFG_USED ch = 1 → s.fld d R.DM_CH_CFG_STARTS ch % 2 = 1 → s.fld d R.DM_CH_STATUS_STATE ch = 0 →
        (s.die d).st.slices = [] → Completes (exec (.kick d t ch) s) fun r =>
          r.fld d R.DM_CH_STATUS_STATE ch = 1 ∧ (r.die d).tile t = next) ∧
      (((s.die d).th th).claimed = true → -32768 < ((s.die d).th th).count → ((s.die d).th th).state = .idle →
        Completes (exec (.post d t th) s) fun r =>
          ((r.die d).th th).count = ((s.die d).th th).count - 1 ∧ (r.die d).tile t = next)) ∧
    (x.waiting = some f.val → x.running = true → x.flag f = true →
      gives (.waitfResume d t) { next.land (.f f false) with waiting := none, skip := x.skip - 1, blank := false })

/-- On a core whose thread runs, each opcode of the scalar subset with PRED 0 completes: the destination register holds the
32-bit result (s0 stays 0), C the carry or borrow of the adding and subtracting opcodes, comparisons give 1 or 0, the
immediate is zero-extended, shifts take counts 0 to 31; the next instruction follows after one core cycle, and everything else
of the state is unchanged. (R158, R181, R182, R185.) -/
def Obligations.CoreArithmetic : Prop :=
  ∀ (s : State) (d : DieId) (c : Fin 8) (vd va vb : Fin 32) (imm : Byte), s.coreReady d c = true →
    let g := s.regsOf d c
    let a := g.get va
    let b := g.get vb
    let m := BitVec.ofNat 32 imm.toNat
    let k := if g.c then 1 else 0
    let e := Exec.core d c
    let both := fun (w : W32) (k : Bool) => Host.Outcome.next (s.ran d c 1 { g.set vd w with c := k, pc := g.pc + 4 })
    let put := fun (w : W32) => both w g.c
    let flag := fun (p : Prop) [Decidable p] => put (if p then 1 else 0)
    exec (.nop e .clean) s = .next (s.ran d c 1 { g with pc := g.pc + 4 }) ∧
    exec (.add e vd va vb 0) s = both (a + b) (decide (2 ^ 32 ≤ a.toNat + b.toNat)) ∧
    exec (.adc e vd va vb 0) s = both (BitVec.ofNat 32 (a.toNat + b.toNat + k)) (decide (2 ^ 32 ≤ a.toNat + b.toNat + k)) ∧
    exec (.addi e vd va imm 0) s = both (a + m) (decide (2 ^ 32 ≤ a.toNat + m.toNat)) ∧
    exec (.sub e vd va vb 0) s = both (a - b) (decide (a.toNat < b.toNat)) ∧
    exec (.sbb e vd va vb 0) s = both (a - b - BitVec.ofNat 32 k) (decide (a.toNat < b.toNat + k)) ∧
    exec (.subi e vd va imm 0) s = both (a - m) (decide (a.toNat < m.toNat)) ∧
    exec (.and e vd va vb 0) s = put (a &&& b) ∧ exec (.or e vd va vb 0) s = put (a ||| b) ∧
    exec (.xor e vd va vb 0) s = put (a ^^^ b) ∧ exec (.andn e vd va vb 0) s = put (a &&& ~~~b) ∧
    exec (.andi e vd va imm 0) s = put (a &&& m) ∧ exec (.ori e vd va imm 0) s = put (a ||| m) ∧
    exec (.xori e vd va imm 0) s = put (a ^^^ m) ∧
    exec (.minu e vd va vb 0) s = put (BitVec.ofNat 32 (min a.toNat b.toNat)) ∧
    exec (.maxu e vd va vb 0) s = put (BitVec.ofNat 32 (max a.toNat b.toNat)) ∧
    exec (.mins e vd va vb 0) s = put (BitVec.ofInt 32 (min a.toInt b.toInt)) ∧
    exec (.maxs e vd va vb 0) s = put (BitVec.ofInt 32 (max a.toInt b.toInt)) ∧
    exec (.ceq e vd va vb 0) s = flag (a = b) ∧ exec (.cltu e vd va vb 0) s = flag (a.toNat < b.toNat) ∧
    exec (.clts e vd va vb 0) s = flag (a.toInt < b.toInt) ∧ exec (.ceqi e vd va imm 0) s = flag (a.toNat = imm.toNat) ∧
    exec (.cltui e vd va imm 0) s = flag (a.toNat < imm.toNat) ∧
    exec (.mov e vd va 0) s = put a ∧ exec (.movi e vd imm 0) s = put m ∧
    (imm.toNat ≤ 31 →
      exec (.shli e vd va imm 0) s = put (BitVec.ofNat 32 (a.toNat * 2 ^ imm.toNat)) ∧
      exec (.shri e vd va imm 0) s = put (BitVec.ofNat 32 (a.toNat / 2 ^ imm.toNat)) ∧
      exec (.sari e vd va imm 0) s = put (BitVec.ofInt 32 (a.toInt / 2 ^ imm.toNat)))

/-- On a core whose thread runs, LUI, ADDIW, the branches, JAL, JALR, MUL, MULHU, DIVU and REMU complete with the results and
targets of the table; a taken branch or a jump takes 2 cycles, a product 3, a quotient at most 34; a zero divisor gives
0xFFFF_FFFF and the dividend. Times that the table does not list are free values. Everything but the core's registers and its
counts of cycles is unchanged. (R181, R183, R185, R512.) -/
def Obligations.CoreControl : Prop :=
  ∀ (s : State) (d : DieId) (c : Fin 8) (rd ra rb : Fin 32) (imm : W16) (off : BitVec 21), s.coreReady d c = true →
    let g := s.regsOf d c
    let a := g.get ra
    let b := g.get rb
    let x := g.get rd
    let sx := imm.signExtend 32
    let put := fun (n : Nat) (w : W32) => Host.Outcome.next (s.ran d c n { g.set rd w with pc := g.pc + 4 })
    let taken := Host.Outcome.next (s.ran d c 2 { g with pc := g.pc + 4 * sx })
    let passed := fun (op : Nat) => Host.Outcome.next (s.ran d c (Config.coreCycles op) { g with pc := g.pc + 4 })
    let n := min 34 (Config.divCycles a.toNat b.toNat)
    exec (.lui d c rd imm) s = put (Config.coreCycles 0x26) (BitVec.ofNat 32 (imm.toNat * 2 ^ 16)) ∧
    exec (.addiw d c rd ra imm) s = put (Config.coreCycles 0x27) (a + sx) ∧
    exec (.beq d c rd ra imm) s = (if x = a then taken else passed 0x28) ∧
    exec (.bne d c rd ra imm) s = (if x ≠ a then taken else passed 0x29) ∧
    exec (.bltu d c rd ra imm) s = (if x.toNat < a.toNat then taken else passed 0x2A) ∧
    exec (.blt d c rd ra imm) s = (if x.toInt < a.toInt then taken else passed 0x2B) ∧
    exec (.jal d c rd off) s = .next (s.ran d c 2 { g.set rd (g.pc + 4) with pc := g.pc + 4 * off.signExtend 32 }) ∧
    exec (.jalr d c rd ra imm) s = .next (s.ran d c 2 { g.set rd (g.pc + 4) with pc := BitVec.ofNat 32 ((a + sx).toNat / 4 * 4) }) ∧
    exec (.mul d c rd ra rb) s = put 3 (BitVec.ofNat 32 (a.toNat * b.toNat)) ∧
    exec (.mulhu d c rd ra rb) s = put 3 (BitVec.ofNat 32 (a.toNat * b.toNat / 2 ^ 32)) ∧
    exec (.divu d c rd ra rb) s = put n (if b = 0 then 0xFFFFFFFF#32 else BitVec.ofNat 32 (a.toNat / b.toNat)) ∧
    exec (.remu d c rd ra rb) s = put n (if b = 0 then a else BitVec.ofNat 32 (a.toNat % b.toNat))

/-- On a core whose thread runs, an aligned load from a mapped DRAM window gives the zero-extended bytes of the line: from its
L1 after 3 cycles with nothing else changed, from the L2 where no L1 has the line, from DRAM where no cache has it; from the
register space it gives what a read of the word returns. An aligned store changes its bytes in the line of the core's L1,
marks it dirty and drops the other cores' copies; DRAM is unchanged. A misaligned access stops the thread with cause ALIGN,
one outside every window with cause ACCESS. (R183, R185, R511, R512, R513.) -/
def Obligations.CoreLoadsAndStores : Prop :=
  ∀ (s : State) (d : DieId) (c : Fin 8) (rd ra : Fin 32) (imm : W16), s.coreReady d c = true → s.noInject d = true →
    let g := s.regsOf d c
    let x := s.die d
    let n := s.thread d c
    let a := (g.get ra + imm.signExtend 32).toNat
    let loads := fun (i : Instr) (w : Nat) (k : State → Prop) => Completes (exec i s) fun r =>
      r.regsOf d c = { g.set rd (BitVec.ofNat 32 w) with pc := g.pc + 4 } ∧ k r
    let each := fun (f : Nat → Instr → Prop) => (a % 4 = 0 → f 4 (.ldw d c rd ra imm .clean)) ∧
      (a % 2 = 0 → f 2 (.ldhu d c rd ra imm .clean)) ∧ f 1 (.ldbu d c rd ra imm .clean)
    let stops := fun (i : Instr) (cause : Nat) => Completes (exec i s) fun r => ((r.die d).th n).state = .stopped ∧
      ((r.die d).th n).cause = cause ∧ ((r.die d).par.l2 = x.par.l2) ∧ (r.die d).dram = x.dram
    (∀ m, x.window c a = some m → ∀ l, x.l1 c (m / 64) = some l →
      each (fun k i => exec i s = .next (s.ran d c 3 { g.set rd (BitVec.ofNat 32 (num l.bytes (m % 64) k)) with pc := g.pc + 4 })) ∧
      (a % 4 = 0 → Completes (exec (.stw d c rd ra imm .clean) s) fun r => r.regsOf d c = { g with pc := g.pc + 4 } ∧
        (r.die d).l1 c (m / 64) = some (l.put c (m % 64) (natLE 4 (g.get rd).toNat)) ∧
        (∀ j : Fin 8, j ≠ c → (r.die d).l1 j (m / 64) = none) ∧ (r.die d).dram = x.dram ∧ (r.die d).par.l2 = x.par.l2) ∧
      (a % 2 = 0 → Completes (exec (.sth d c rd ra imm .clean) s) fun r => r.regsOf d c = { g with pc := g.pc + 4 } ∧
        (r.die d).l1 c (m / 64) = some (l.put c (m % 64) (natLE 2 (g.get rd).toNat)) ∧ (r.die d).dram = x.dram) ∧
      Completes (exec (.stb d c rd ra imm .clean) s) fun r => r.regsOf d c = { g with pc := g.pc + 4 } ∧
        (r.die d).l1 c (m / 64) = some (l.put c (m % 64) (natLE 1 (g.get rd).toNat)) ∧ (r.die d).dram = x.dram) ∧
    (∀ m, x.window c a = some m → (∀ j : Fin 8, x.l1 j (m / 64) = none) →
      each fun k i => loads i (leNat (match x.l2 (m / 64) with
        | some l => subBytes l.bytes (m % 64) k
        | none => rdBytes x.dram.view m k)) fun r => (r.die d).tiles = x.tiles ∧ r.die (peer d) = s.die (peer d)) ∧
    (a < 0x250000 → s.noAddress d (a / 4 * 4) = false → each fun k i =>
      loads i ((s.readReg d (a / 4 * 4)).toNat / 256 ^ (a % 4) % 256 ^ k) fun r => (r.die d).par.l2 = x.par.l2) ∧
    (a % 4 ≠ 0 → stops (.ldw d c rd ra imm .clean) 2 ∧ stops (.stw d c rd ra imm .clean) 2) ∧
    (a % 2 ≠ 0 → stops (.ldhu d c rd ra imm .clean) 2 ∧ stops (.sth d c rd ra imm .clean) 2) ∧
    (0x250000 ≤ a → x.window c a = none → stops (.ldbu d c rd ra imm .clean) 3 ∧ stops (.stb d c rd ra imm .clean) 3)

/-- On a core whose thread runs, CLEAN completes with every cached line of its range clean and still valid, INVAL with none of
them left in the core's L1 or the L2; lines outside the range are as before, and a length of 0 does nothing else than move on.
SYNC moves on, writes back the lines that hold stores of the core dirty, and holds the core where a write of its has not
reached DRAM; SYNC_DONE lets it go on once they have, after the core cycles that this took. (R184, R185, R511.) -/
def Obligations.CacheMaintenance : Prop :=
  ∀ (s : State) (d : DieId) (c : Fin 8) (ra rb : Fin 32), s.has d = true →
    let g := s.regsOf d c
    let x := s.die d
    let lines := x.rangeLines c (g.get ra).toNat (g.get rb).toNat
    (s.coreReady d c = true →
      Completes (exec (.clean d c ra rb) s) (fun r => r.regsOf d c = { g with pc := g.pc + 4 } ∧
        (∀ l ∈ lines, (∀ k, (r.die d).l1 c l = some k → k.dirty = false) ∧ (∀ k, (r.die d).l2 l = some k → k.dirty = false)) ∧
        (∀ l, ((r.die d).l1 c l).isNone = (x.l1 c l).isNone) ∧
        ∀ l, l ∉ lines → (r.die d).l1 c l = x.l1 c l ∧ (r.die d).l2 l = x.l2 l) ∧
      Completes (exec (.inval d c ra rb) s) (fun r => r.regsOf d c = { g with pc := g.pc + 4 } ∧
        (∀ l ∈ lines, (r.die d).l1 c l = none ∧ (r.die d).l2 l = none) ∧
        ∀ l, l ∉ lines → (r.die d).l1 c l = x.l1 c l ∧ (r.die d).l2 l = x.l2 l) ∧
      (g.get rb = 0 → exec (.clean d c ra rb) s = .next (s.ran d c 0 { g with pc := g.pc + 4 }) ∧
        exec (.inval d c ra rb) s = .next (s.ran d c 0 { g with pc := g.pc + 4 })) ∧
      Completes (exec (.sync d c) s) (fun r => r.regsOf d c = { g with pc := g.pc + 4 } ∧
        (∀ l ∈ x.unsynced c, (∀ k, (r.die d).l1 c l = some k → k.dirty = false) ∧ (∀ k, (r.die d).l2 l = some k → k.dirty = false)) ∧
        (x.unsynced c = [] → (r.die d).par.l2 = x.par.l2 ∧ (r.die d).dram = x.dram) ∧
        ((r.die d).core c).syncing = (r.die d).coreDraining c r.now)) ∧
    ((x.core c).syncing = true → x.coreDraining c s.now = false → (x.core c).postAfter = none →
      exec (.syncDone d c) s = .next (s.upd d fun x =>
        let y := x.modCore c fun k => { k with syncing := false, postAfter := none }
        match (x.core c).run with
        | some n => y.spend c n ((s.now - (x.core c).syncAt + 40959) / 40960)
        | none => y)) ∧
    ((x.core c).syncing = true → x.coreDraining c s.now = true → exec (.syncDone d c) s = .next s)

/-- For the thread that runs on a core and belongs to the running plan: END makes it idle, or starts a pending release at
ENTRY with STACK in s30; YIELD makes it ready at the current line with its context saved after the TRAP; DELAY delays it by s1
lines; WAIT consumes at a counter of 0 or below, returning 0 in s1, and else waits; POST with no range to clean and no store
on its way takes one from the counter of the thread in s1. An argument outside its range stops the thread with cause KERNEL,
an illegal word with cause ILLEGAL or KERNEL, and PA_LAST_FAULT names thread and cause. (R182, R518, R523, R524, R525, R527.)
-/
def Obligations.KernelCalls : Prop :=
  ∀ (s : State) (d : DieId) (c : Fin 8) (w : W32), s.coreReady d c = true →
    let x := s.die d
    let n := s.thread d c
    let t := x.th n
    let g := s.regsOf d c
    let after := { g with pc := g.pc + 4 }
    let v := (g.get 1).toNat
    let off := fun (r : State) => ((r.die d).core c).run = none
    let stops := fun (i : Instr) (cause : Nat) => Completes (exec i s) fun r => off r ∧ ((r.die d).th n).state = .stopped ∧
      ((r.die d).th n).cause = cause ∧ r.fld d R.PA_LAST_FAULT_THREAD = n ∧ r.fld d R.PA_LAST_FAULT_CAUSE = cause ∧
      r.fld d R.PA_EVENTS_STOPPED = 1
    t.core = c.val → t.ending = none → n < 4096 →
    (t.pending = 0 → Completes (exec (.kernelEnd d c) s) fun r => off r ∧ ((r.die d).th n).state = .idle) ∧
    (1 ≤ t.pending → Completes (exec (.kernelEnd d c) s) fun r => off r ∧ ((r.die d).th n).state = .ready ∧
      ((r.die d).th n).pending = t.pending - 1 ∧ ((r.die d).th n).ctx.pc = BitVec.ofNat 32 t.entry ∧
      ((r.die d).th n).ctx.get 30 = BitVec.ofNat 32 t.stack) ∧
    Completes (exec (.yield d c) s) (fun r => off r ∧ ((r.die d).th n).state = .ready ∧ ((r.die d).th n).ctx = after ∧
      ((r.die d).th n).readyLine = x.masterLine) ∧
    (1 ≤ v → v ≤ 65535 → Completes (exec (.delay d c) s) fun r => off r ∧ ((r.die d).th n).state = .delayed ∧
      ((r.die d).th n).expiry = v ∧ ((r.die d).th n).ctx = after) ∧
    (1 ≤ v → v ≤ 65535 → 1 ≤ t.count → Completes (exec (.kernelWait d c) s) fun r => off r ∧
      ((r.die d).th n).state = .waiting ∧ ((r.die d).th n).expiry = v ∧ ((r.die d).th n).count = t.count) ∧
    (1 ≤ v → v ≤ 65535 → t.count ≤ 0 → Completes (exec (.kernelWait d c) s) fun r => ((r.die d).core c).run = some n ∧
      ((r.die d).th n).count = t.count + t.reload ∧ r.regsOf d c = after.set 1 0) ∧
    (v < 4096 → (x.th v).claimed = true → (x.th v).state ≠ .waiting → -32768 < (x.th v).count → g.get 3 = 0 →
      x.coreDraining c s.now = false → x.unsynced c = [] → Completes (exec (.kernelPost d c) s) fun r =>
        ((r.die d).th v).count = (x.th v).count - 1 ∧ r.regsOf d c = after ∧ ((r.die d).core c).run = some n) ∧
    (v = 0 ∨ 65535 < v → stops (.delay d c) 5 ∧ stops (.kernelWait d c) 5) ∧
    (4096 ≤ v → stops (.kernelPost d c) 5) ∧
    ((Instr.illegalInstruction d c w).wf = true →
      stops (.illegalInstruction d c w) (if w.toNat / 2 ^ 26 = 0x35 then 5 else 1))

/-- DELAY_EXPIRY and THREAD_WAIT_TIMEOUT make a thread ready whose line has come, the timeout with s1 = 1 and the counter
unchanged; THREAD_BUDGET_EXHAUSTED suspends a running thread that has used its budget; THREAD_START gives a free core to the
first thread of its ready list, 12 core cycles after the decision from a stall and 40 otherwise; SPILL_LOAD_DONE loads a
context, or stops its thread with cause ECC; THREAD_SWITCH_END resets a thread that the switch ends; an accepted PA_RELEASE
starts an idle thread at ENTRY, or is kept pending; an accepted PA_RESTART makes a stopped thread idle with its counter
reloaded. (R518, R519, R520, R521, R522, R525, R526, R527, R528.) -/
def Obligations.ThreadsInTime : Prop :=
  ∀ (s : State) (d : DieId) (n : Fin 4096) (c : Fin 8) (wr : Writer), s.has d = true →
    let x := s.die d
    let t := x.th n
    let is := fun (i : Instr) (f : State → Thread → Prop) => Completes (exec i s) fun r => f r ((r.die d).th n)
    (t.state = .delayed → t.expiry = 0 →
      is (.delayExpiry d n) fun r u => u.state = .ready ∧ u.readyLine = x.masterLine ∧ u.ctx = t.ctx ∧ (r.die d).regs = x.regs) ∧
    (t.state = .waiting → t.expiry = 0 → is (.threadWaitTimeout d n) fun r u => u.state = .ready ∧ u.ctx.get 1 = 1 ∧
      u.count = t.count ∧ r.fld d R.PA_TIMEOUTS = (s.fld d R.PA_TIMEOUTS + 1) % 2 ^ 32 ∧ r.fld d R.PA_EVENTS_TIMEOUT = 1) ∧
    (t.claimed = true → t.state = .running → 1 ≤ t.budget → t.budget ≤ t.used → t.core < 8 → (x.core t.core).run = some n.val →
      is (.threadBudgetExhausted d n) fun r u => u.state = .suspended ∧ ((r.die d).core t.core).run = none ∧
        r.fld d R.PA_OVERRUNS = (s.fld d R.PA_OVERRUNS + 1) % 2 ^ 32) ∧
    ((x.readyList c).head? = some n.val → (x.core c).run = none → t.loaded = true ∨ t.resident = true →
      is (.threadStart d c) fun r u => u.state = .running ∧ ((r.die d).core c).run = some n.val ∧ r.regsOf d c = t.ctx ∧
        r.now = s.now + (if (x.core c).stalls.contains n.val then 12 else 40) * 40960) ∧
    (t.claimed = true → t.resident = false → t.loaded = false → t.core < 8 → (x.core t.core).stalls.contains n.val →
      is (.spillLoadDone d n .clean) (fun r u => u = { t with loaded := true } ∧ (r.die d).par.l2 = x.par.l2) ∧
      is (.spillLoadDone d n .uncorrected) fun _ u => u.state = .stopped ∧ u.cause = 4) ∧
    (∀ e, t.ending = some e → is (.threadSwitchEnd d n) fun r u => u = x.planThread n ∧ r.now = max s.now e) ∧
    (s.accepts d wr 0x1F000C (BitVec.ofNat 32 n) = true →
      (t.state = .idle ∨ t.state = .suspended → is (.paRelease d wr n) fun _ u => u.state = .ready ∧ u.readyLine = x.masterLine ∧
        u.ctx.pc = BitVec.ofNat 32 t.entry ∧ u.ctx.get 30 = BitVec.ofNat 32 t.stack ∧ u.used = 0) ∧
      (t.state = .ready → t.pending < 15 → is (.paRelease d wr n) fun _ u => u = { t with pending := t.pending + 1 }) ∧
      (t.state = .ready → 15 ≤ t.pending → is (.paRelease d wr n) fun r u => u = t ∧
        r.fld d R.PA_LATE = (s.fld d R.PA_LATE + 1) % 2 ^ 32)) ∧
    (s.accepts d wr 0x1F0010 (BitVec.ofNat 32 n) = true → is (.paRestart d wr n) fun _ u =>
      u = { t with state := .idle, count := t.reload, cause := 0, pending := 0 })

/-- For a row of 16-bit words that hold 10-bit samples (a multiple of four) or 12-bit samples (a multiple of two), SPLIT gives
the samples' high 8 bits to DST, and JOIN gives the row back from the two planes; ZIP gives back what UNZIP of an even number
of elements takes apart; swapping twice gives the row back; COPY changes nothing. (R160, R495.) -/
def Obligations.Reshaping : Prop :=
  ∀ (m : MoveWord) (ws : List (BitVec 16)) (bs : List (Option Byte)) (e : Fin 3),
    let row := ws.flatMap fun w => [some (BitVec.ofNat 8 w.toNat), some (BitVec.ofNat 8 (w.toNat / 256))]
    let as := fun (k : Nat) => { m with shape := k, elem := e.val }
    let back := fun (k j : Nat) (b : List (Option Byte)) => (as j).reshape ((as k).reshape b []).1 ((as k).reshape b []).2
    (ws.length % 4 = 0 → (∀ w ∈ ws, w.toNat < 1024) → back 1 3 row = (row, []) ∧
      ((as 1).reshape row []).1 = ws.map fun w => some (BitVec.ofNat 8 (w.toNat / 4))) ∧
    (ws.length % 2 = 0 → (∀ w ∈ ws, w.toNat < 4096) → back 2 4 row = (row, []) ∧
      ((as 2).reshape row []).1 = ws.map fun w => some (BitVec.ofNat 8 (w.toNat / 16))) ∧
    (bs.length % (2 * 2 ^ e.val) = 0 → back 5 6 bs = (bs, [])) ∧
    (bs.length % 2 = 0 → back 7 7 bs = (bs, [])) ∧ (bs.length % 4 = 0 → back 8 8 bs = (bs, [])) ∧
    (as 0).reshape bs [] = (bs, [])

/-- Where the next word of a running channel that waits for nothing is a MOVE of one row from DRAM to DRAM, without a check
unit, the reshaped bytes are put on their way to DST, and for SPLIT and UNZIP to AUX, and the channel moves on by two words
with one access more outstanding. A LOOP enters its body, or skips it where its count is 0. Each counts one instruction; at
the budget, or at an uncorrectable word, the channel stops instead with cause BUDGET or PROGRAM. (R471, R490, R492, R493,
R495, R498, R502, R503.) -/
def Obligations.DmaMovesAndLoops : Prop :=
  ∀ (s : State) (d : DieId) (n : Fin 128), s.has d = true →
    let x := s.die d
    let c := x.chan n
    let word := fun i => x.word (s.fld d R.DM_CH_CFG_FIRST n + c.pc + i)
    let w := word 0
    let op := bits w 127 124
    let stops := fun (i : Instr) (cause : Nat) => Completes (exec i s) fun r =>
      r.fld d R.DM_CH_STATUS_STATE n = 2 ∧ r.fld d R.DM_CH_STATUS_CAUSE n = cause ∧ (r.die d).dram = x.dram
    x.dmaReady n = true → c.ending = false →
    (c.issued < c.budget →
      (op = 1 → c.accesses.length < 16 →
        let m := moveWord w (word 1) c.loops
        let z := m.sizes
        let at_ := fun (a : Int) => unsgn 36 a % 2 ^ 34
        let row := m.reshape ((rdBytes x.dram.view (at_ m.src) z.1).map some) ((rdBytes x.dram.view (at_ m.aux) z.2.1).map some)
        m.srcKind = 1 → m.dstKind = 1 → m.rows = 1 → m.ckEn = false → m.endEntry = false →
        Completes (exec (.move d n .clean []) s) fun r =>
          (r.die d).dram.writes = x.dram.writes ++ (⟨at_ m.dst, row.1, s.now, []⟩ ::
            if z.2.2.2 = 0 then [] else [⟨at_ m.aux, row.2, s.now, []⟩]) ∧
          (r.die d).dram.cells = x.dram.cells ∧
          (r.die d).chan n = { c with issued := c.issued + 1, accesses := c.accesses ++ [s.now] }.step 2) ∧
      (op = 2 →
        let k := if bits w 115 114 = 1 then (x.stream (bits w 97 89)).length / bits w 113 98 else bits w 113 98
        exec (.dmaLoop d n .clean) s = .next (s.upd d fun x => x.modChan n fun c =>
          if k = 0 then { c with issued := c.issued + 1 }.step (1 + bits w 123 116)
          else { c with issued := c.issued + 1, pc := c.pc + 1,
                        loops := ⟨c.pc + 1, c.pc + 1 + bits w 123 116, 0, k, (sgn 24 (bits w 88 65), sgn 24 (bits w 64 41), sgn 24 (bits w 40 17))⟩ :: c.loops }))) ∧
    (c.budget ≤ c.issued → (op = 1 → stops (.move d n .clean []) 1) ∧ (op = 2 → stops (.dmaLoop d n .clean) 1)) ∧
    (op = 1 → stops (.move d n .uncorrected []) 4) ∧ (op = 2 → stops (.dmaLoop d n .uncorrected) 4)

/-- Where the next word of a running channel that waits for nothing is a WAIT, the channel waits as the word says;
DMA_WAIT_DONE lets it go on once the condition holds, and START consumes its event; DMA_WAIT_TIMEOUT goes on with SKIP and
stops the channel with cause WAIT without. A SIGNAL with every access completed raises its flag, takes one from the dependence
counter of its thread, starts its channel, or stops with cause CHAIN at depth 15; with END the activation ends and is counted.
(R175, R490, R491, R498, R499, R501, R502, R503, R525.) -/
def Obligations.DmaWaitsAndSignals : Prop :=
  ∀ (s : State) (d : DieId) (n : Fin 128), s.has d = true →
    let x := s.die d
    let c := x.chan n
    let w := x.word (s.fld d R.DM_CH_CFG_FIRST n + c.pc)
    let on := fun (f : DmaChan → DmaChan) => Host.Outcome.next (s.upd d fun x => x.modChan n f)
    let st := fun (r : State) => r.fld d R.DM_CH_STATUS_STATE n
    let pend := s.fld d R.DM_CH_STATUS_PENDING n
    c.ending = false →
    (x.dmaReady n = true → c.issued < c.budget → bits w 127 124 = 3 →
      let k := bits w 123 121
      let waits := on fun c => { c with issued := c.issued + 1, wait := some ⟨k, bits w 103 94, bit w 93, bits w 92 80, bits w 79 56, bit w 120, bits w 119 104, false⟩ }
      (k = 0 → exec (.waitLine d n .clean) s = waits) ∧ (k = 1 → exec (.waitPace d n .clean) s = waits) ∧
      (k = 2 → exec (.waitFill d n .clean) s = waits) ∧ (k = 3 → exec (.waitStart d n .clean) s = waits)) ∧
    (∀ v, c.wait = some v → x.chState n = 1 →
      (v.cond ≤ 2 → (v.cond = 0 → v.seen = true) → (v.cond = 1 → (if v.entry then (x.entryQ v.target).pace else x.flag R.DM_SQ_FILL_PACE (v.target % 512)) = true) →
        (v.cond = 2 → v.bytes ≤ if v.entry then (x.entryQ v.target).fill else (x.stream (v.target % 512)).length) →
        exec (.dmaWaitDone d n) s = on fun c => { c with wait := none }.step 1) ∧
      (v.cond = 3 → 1 ≤ pend → Completes (exec (.dmaWaitDone d n) s) fun r =>
        r.fld d R.DM_CH_STATUS_PENDING n = pend - 1 ∧ (r.die d).chan n = { c with wait := none, pendDepths := c.pendDepths.drop 1 }.step 1) ∧
      (v.left = 0 → v.skip = true → Completes (exec (.dmaWaitTimeout d n) s) fun r =>
        (r.die d).chan n = { c with wait := none }.step 1 ∧ r.fld d R.DM_CH_WAIT_SKIPS n = (s.fld d R.DM_CH_WAIT_SKIPS n + 1) % 2 ^ 32) ∧
      (v.left = 0 → v.skip = false → Completes (exec (.dmaWaitTimeout d n) s) fun r => st r = 2 ∧
        r.fld d R.DM_CH_STATUS_CAUSE n = 3 ∧ r.fld d R.DM_CH_STATUS_PENDING n = 0 ∧ ((r.die d).chan n).wait = none)) ∧
    (x.dmaReady n = true → c.issued < c.budget → bits w 127 124 = 4 → c.accesses = [] → bit w 119 = false →
      let tile := bits w 106 102 * 48 + bits w 112 107
      let th := bits w 97 86
      let k := bits w 85 79
      Completes (exec (.signal d n .clean) s) fun r =>
        (bit w 122 = true → (r.die d).tile tile = (x.tile tile).signalFlag (bits w 101 98)) ∧
        (bit w 121 = true → (x.th th).claimed = true → -32768 < (x.th th).count → (x.th th).state = .idle →
          ((r.die d).th th).count = (x.th th).count - 1) ∧
        (bit w 120 = true → c.depth < 15 → k ≠ n.val → x.flag R.DM_CH_CFG_USED k = true → bit (x.fld R.DM_CH_CFG_STARTS k) 3 = true →
          x.chState k = 0 → r.fld d R.DM_CH_STATUS_STATE k = 1 ∧ ((r.die d).chan k).depth = c.depth + 1) ∧
        (bit w 120 = true → c.depth = 15 → st r = 2 ∧ r.fld d R.DM_CH_STATUS_CAUSE n = 5) ∧
        (bit w 120 = false → bit w 123 = true → pend = 0 → st r = 0 ∧ r.fld d R.DM_CH_LAST_COUNT_COUNT n = (c.issued + 1) % 2 ^ 20 ∧
          r.fld d R.DM_CH_ACTIVATIONS n = (s.fld d R.DM_CH_ACTIVATIONS n + 1) % 2 ^ 32) ∧
        (bit w 120 = false → bit w 123 = false → (r.die d).chan n = { c with issued := c.issued + 1 }.step 1))

/-- An accepted DMA_START of a channel that allows the host as a source starts an idle channel at its first word, is kept
pending by a running one up to 255, and is counted in MISSED beyond. An accepted DMA_RESTART makes the channel idle and clears
its cause. DMA_ACCESS_DONE retires the oldest access; DMA_TIMEOUT stops the channel with cause TIMEOUT 2 us after the oldest
access was issued. (R490, R496, R503, R504.) -/
def Obligations.DmaStartsAndStops : Prop :=
  ∀ (s : State) (d : DieId) (n : Fin 128) (wr : Writer), s.has d = true → (s.die d).st.slices = [] →
    let x := s.die d
    let c := x.chan n
    let a := 0x1D100C + 64 * n.val
    let st := fun (r : State) => r.fld d R.DM_CH_STATUS_STATE n
    let pend := fun (r : State) => r.fld d R.DM_CH_STATUS_PENDING n
    (s.accepts d wr a 1 = true → bit (x.fld R.DM_CH_CFG_STARTS n) 2 = true →
      (x.chState n = 0 → Completes (exec (.dmaStart d wr n) s) fun r => st r = 1 ∧ pend r = pend s ∧
        (r.die d).chan n = { c with pc := 0, issued := 0, depth := 0, loops := [], wait := none, accesses := [], blocked := none }) ∧
      (x.chState n = 1 → pend s < 255 → Completes (exec (.dmaStart d wr n) s) fun r => st r = 1 ∧ pend r = pend s + 1 ∧
        ((r.die d).chan n).pc = c.pc) ∧
      (x.chState n = 1 → pend s = 255 → Completes (exec (.dmaStart d wr n) s) fun r => pend r = 255 ∧ (r.die d).chan n = c ∧
        r.fld d R.DM_CH_MISSED n = (s.fld d R.DM_CH_MISSED n + 1) % 2 ^ 32)) ∧
    (s.accepts d wr a 2 = true → Completes (exec (.dmaRestart d wr n) s) fun r =>
      st r = 0 ∧ r.fld d R.DM_CH_STATUS_CAUSE n = 0 ∧ (r.die d).chan n = c) ∧
    (x.chState n = 1 → c.blocked = none → exec (.dmaAccessDone d n []) s =
      .next (s.upd d fun x => x.modChan n fun c => { c with accesses := c.accesses.drop 1 })) ∧
    (∀ t, c.oldest = some t → x.chState n = 1 → Completes (exec (.dmaTimeout d n) s) fun r =>
      st r = 2 ∧ r.fld d R.DM_CH_STATUS_CAUSE n = 2 ∧ r.now = max s.now (t + 2 * usec) ∧ (r.die d).dram = x.dram)

/-- When an accepted write of one of its words leaves a compare unit armed with a target that has passed, a single-shot unit
fires at once, sets LATE and disarms; a periodic unit does not fire, stays armed and sets LATE, and its target moves to one
that lies in the future, in MODE 0 the first that is a whole number of periods after the old one. (R65.) -/
def Obligations.ArmedInThePast : Prop :=
  ∀ (s : State) (d : DieId) (wr : Writer) (u : Fin 64) (word : Fin 4) (value : W32) (t : Int),
    let a := 0x20400 + 16 * u.val + 4 * word.val
    let x := s.die d
    let y := x.setReg a (BitVec.ofNat 32 (x.after [(a, value)] a))
    s.accepts d wr a value = true → y.cmpArmed u = true → y.cmpDue u = some t → t < x.clk.now →
    (y.fld R.TB_CMP_CTRL_PERIODIC u = 0 → Completes (exec (.cmpWrite d wr u word value) s) fun r =>
      r.fld d R.TB_CMP_CTRL_FIRED u = 1 ∧ r.fld d R.TB_CMP_CTRL_LATE u = 1 ∧ r.fld d R.TB_CMP_CTRL_ARM u = 0) ∧
    (y.fld R.TB_CMP_CTRL_PERIODIC u = 1 → Completes (exec (.cmpWrite d wr u word value) s) fun r =>
      r.fld d R.TB_CMP_CTRL_FIRED u = y.fld R.TB_CMP_CTRL_FIRED u ∧ r.fld d R.TB_CMP_CTRL_LATE u = 1 ∧ r.fld d R.TB_CMP_CTRL_ARM u = 1 ∧
      (r.die d).clk = x.clk ∧ (r.die d).cmpDue u ≠ none ∧ ∀ t', (r.die d).cmpDue u = some t' → (x.clk.now : Int) < t' ∧
        (y.fld R.TB_CMP_CTRL_MODE u = 0 →
          let p : Int := y.fld R.TB_CMP_PERIOD u * nsec
          t' - p ≤ x.clk.now ∧ (t' - t) % p = 0))

/-- LINE_PULSE brings an active cadence to its next line, whose pulse instant is kept, and does nothing on one that is not
active; at a boundary at which the cadence owes a switch that the other die has taken, the switch comes first. COMPARE_FIRE
moves time to the target of an armed unit, fires it and disarms a single-shot one or moves a periodic one by its period;
ACTION releases the thread or starts the channel. TB_SNAP latches station time; STEP_GO is remembered. STEP_APPLY with no plan
applies the pending step; under a plan it waits for policy 1 or STEP_GO. (R43, R46, R58, R59, R64, R68, R74.) -/
def Obligations.TimeCommands : Prop :=
  ∀ (s : State) (d : DieId) (c : Fin 8) (u : Fin 64) (wr : Writer), s.has d = true →
    let x := s.die d
    let now := x.clk.now
    let target := x.fld R.TB_CMP_CTRL_TARGET u
    let action := x.fld R.TB_CMP_CTRL_ACTION u
    (x.grid c = none → exec (.linePulse d c) s = .next s) ∧
    (∀ g, x.grid c = some g → (x.cad c).regrid = none → s.switchOwed d c = false → Completes (exec (.linePulse d c) s) fun r =>
      ((r.die d).cad c).next = (x.cad c).next + 1 ∧ ((r.die d).cad c).lastPulse = g.instant (x.cad c).next) ∧
    (s.switchOwed d c = true → exec (.linePulse d c) s = .next ((s.planSwitch d c).linePulse d c) ∨ (s.planSwitch d c).switchOwed d c = true) ∧
    (∀ t, x.cmpDue u = some t → x.cmpArmed u = true →
      (x.fld R.TB_CMP_CTRL_PERIODIC u = 0 → Completes (exec (.compareFire d u) s) fun r =>
        (r.die d).clk.now = max now t.toNat ∧ r.fld d R.TB_CMP_CTRL_FIRED u = 1 ∧ r.fld d R.TB_CMP_CTRL_ARM u = 0 ∧
        r.fld d R.TB_CMP_T0 u = x.fld R.TB_CMP_T0 u ∧
        (action = 1 → (x.th target).claimed = true → (x.th target).state = .idle → ((r.die d).th target).state = .ready) ∧
        (action = 2 → x.flag R.DM_CH_CFG_USED (target % 128) = true → bit (x.fld R.DM_CH_CFG_STARTS (target % 128)) 1 = true →
          x.chState (target % 128) = 0 → (r.die d).chState (target % 128) = 1)) ∧
      (x.fld R.TB_CMP_CTRL_PERIODIC u = 1 → x.fld R.TB_CMP_CTRL_MODE u = 0 → 1 ≤ x.fld R.TB_CMP_PERIOD u → now ≤ t →
        Completes (exec (.compareFire d u) s) fun r => r.fld d R.TB_CMP_CTRL_FIRED u = 1 ∧ r.fld d R.TB_CMP_CTRL_ARM u = 1 ∧
          (r.die d).cmpDue u = some (t + x.fld R.TB_CMP_PERIOD u * nsec))) ∧
    (s.accepts d wr 0x2000C 1 = true → Completes (exec (.tbSnap d wr) s) fun r =>
      r.fld d R.TB_NOW_W 0 = now % 65536 ∧ r.fld d R.TB_NOW_W 1 = now / 65536 % 1000000000 ∧
      r.fld d R.TB_NOW_W 2 = now / (65536 * 1000000000) % 2 ^ 32 ∧ (r.die d).clk = x.clk ∧
      ∀ g, x.grid c = some g → r.fld d R.TB_CAD_LINEPOS c = g.linePos (g.pos (x.gridTime c)) % 2 ^ 29) ∧
    (s.accepts d wr 0x2000C 2 = true → Completes (exec (.stepGo d wr) s) fun r =>
      (r.die d).clk = { x.clk with servo := { x.clk.servo with stepGo := true } } ∧ (r.die d).tiles = x.tiles) ∧
    (∀ st, x.clk.servo.step = some st →
      (s.planRuns = false → Completes (exec (.stepApply d) s) fun r => (r.die d).clk.now = ((now : Int) + st * 4096).toNat ∧
        (r.die d).clk.servo.step = none ∧ r.fld d R.TB_STEP_LO = unsgn 32 (st.tdiv 16) ∧ r.fld d R.TB_EVENTS_STEP_DONE = 1) ∧
      (s.planRuns = true → x.fld R.TB_MODE_STEP_POLICY ≠ 1 → x.clk.servo.stepGo = false → exec (.stepApply d) s = .next s))

/-- An edge at REF_IN that is no valid sync is not taken. Before a plan, with die 0 following REF_IN: the offset is the
distance of the reference's frame start from the nearest frame boundary of the bound grid, with TB_REF_OFFSET. In LOCKED a
sample that lies more than the outlier threshold from the prediction is counted in TB_REJECTS, the ninth in a row ends the
lock with HOLDOVER, and a sample inside ends the run. In ACQUIRE a sample is accepted, the sixteenth in a row inside the lock
threshold gives LOCKED. The format and the rate of the reference are shown. A frame sync that ends a measurement of a second
or more outside 10 ppm raises cause 3 and ends the lock. (R48, R49, R54, R56, R57.) -/
def Obligations.ServoSamples : Prop :=
  ∀ (s : State) (dt : Nat) (tri : Bool) (lines num den line fmt rate : Nat) (l750 : Bool) (g : Grid),
    refSignal tri lines num den = some (fmt, rate, l750) → line < lines → exec (.refSyncSample dt tri lines num den line false) s = .next (s.advance dt) ∧
    (s.planRuns = false → s.source 0 = 2 →
    (s.die 0).pertOn 6 0 0 = false → (s.die 0).boundGrid fmt rate l750 = some g → s.die0.clk.causes = [] →
    let v := s.die0.clk.servo
    let start : Int := ((s.advance dt).die0.clk.now : Int) - (line * (second * den / num) / lines : Nat)
    let off := g.refOffset start (sgn 32 (s.fld 0 R.TB_REF_OFFSET))
    let in_ := decide (off.natAbs ≤ 32)
    let out := decide (16 * s.fld 0 R.TB_THRESH_REF_IN < (off - v.predicted).natAbs)
    (line ≠ 0 → Completes (exec (.refSyncSample dt tri lines num den line true) s) fun r =>
      let w := r.die0.clk.servo
      r.now = s.now + dt ∧ r.fld 0 R.TB_REF_FORMAT_FORMAT = fmt ∧ r.fld 0 R.TB_REF_FORMAT_RATE = rate ∧
      (v.state = .locked → out = true → r.fld 0 R.TB_REJECTS = (s.fld 0 R.TB_REJECTS + 1) % 2 ^ 32 ∧
        (v.rejectRun < 8 → w.state = .locked ∧ w.rejectRun = v.rejectRun + 1) ∧ (8 ≤ v.rejectRun → w.state = .holdover ∧ w.rejectRun = 0)) ∧
      (v.state = .locked → out = false → r.fld 0 R.TB_REJECTS = s.fld 0 R.TB_REJECTS ∧ w.rejectRun = 0 ∧
        (in_ = true → w.state = .locked ∧ w.outside = 0) ∧ (in_ = false → v.outside = 15 → w.state = .acquire)) ∧
      (v.state = .acquire → v.step = none → v.samples.length < 15 → v.inside < 15 → w.samples = off :: v.samples ∧
        w.state = .acquire ∧ w.inside = if in_ then v.inside + 1 else 0) ∧
      (v.state = .acquire → v.step = none → (v.samples.length = 15 ∨ v.samples.length = 16) →
        (median16 ((off :: v.samples).take 16)).natAbs < 16000 → in_ = true → 15 ≤ v.inside → w.state = .locked)) ∧
    (∀ r0 t0 t, line = 0 → v.state = .locked → v.measure = some (r0, t0) → v.lastFrameSync = some t →
      s.fld 0 R.TB_REF_FORMAT_FORMAT = fmt → s.fld 0 R.TB_REF_FORMAT_RATE = rate → s.fld 0 R.TB_REF_FORMAT_LINE750 = b2n l750 → t0 + second ≤ s.now + dt →
      let period := second * den / num
      let passed : Int := ((s.now + dt - t + period / 2) / period * period : Nat) - r0
      let sup : Int := ((s.now + dt - t0 : Nat) : Int)
      sup < (passed - sup).natAbs * 100000 →
      Completes (exec (.refSyncSample dt tri lines num den line true) s) fun r =>
        r.die0.clk.causes = [3] ∧ r.die0.clk.servo.state = .holdover ∧ r.fld 0 R.TB_EVENTS_MISMATCH = 1 ∧ r.fld 0 R.TB_REJECTS = s.fld 0 R.TB_REJECTS))

/-- REFERENCE_LOSS takes a servo that follows PTP, or REF_IN under a plan, from ACQUIRE or LOCKED to HOLDOVER once its loss
time has passed, and leaves one in FREE there. A REF_IN that die 0 does not follow is lost without any effect on the servo,
and TB_REF_FORMAT shows none. HOLD_LIMIT_EXPIRY takes it to FREERUN after HOLD_LIMIT seconds with the frequency that it holds
unchanged. DIE0_TIMING_LOST clears LINK_TIMING, and takes die 1 to its backup PTP where that has been LOCKED for 16 samples
and to HOLDOVER otherwise. Each entry sets its event bit. (R47, R48, R50, R51, R54, R62, R71.) -/
def Obligations.LossAndHoldover : Prop :=
  ∀ (s : State) (d : DieId), s.has d = true →
    let x := s.die d
    let v := x.clk.servo
    (∀ t, s.lossDue d false = some t → s.planRuns = true → s.idleRefLost d false = false →
      (v.state = .acquire ∨ v.state = .locked → Completes (exec (.referenceLoss d false) s) fun r => r.now = max s.now t ∧
        (r.die d).clk.servo.state = .holdover ∧ (r.die d).clk.servo.holdStart = r.now ∧ r.fld d R.TB_EVENTS_HOLDOVER = 1) ∧
      (v.state = .free → Completes (exec (.referenceLoss d false) s) fun r => (r.die d).clk.servo.state = .free)) ∧
    (∀ t, d = 0 → s.idleRefLost 0 false = true → s.refInDue = some t → Completes (exec (.referenceLoss d false) s) fun r => r.now = max s.now t ∧
      r.fld 0 R.TB_REF_FORMAT_FORMAT = 0 ∧ r.die0.clk.servo.state = v.state) ∧
    (v.state = .holdover → s.source d ≠ 0 → Completes (exec (.holdLimitExpiry d false) s) fun r =>
      r.now = max s.now (v.holdStart + x.fld R.TB_HOLD_HOLD_LIMIT * second) ∧ (r.die d).clk.servo.state = .freerun ∧
      (r.die d).clk.servo.want = v.want ∧ (v.freq = v.want → (r.die d).clk.servo.freq = v.freq) ∧ r.fld d R.TB_EVENTS_FREERUN = 1 ∧ (r.die d).tiles = x.tiles) ∧
    (∀ t, s.die1.clk.lastWord = some t → s.dual = true → s.source 1 = 3 → s.die1.clk.servo.state = .locked →
      let ready := s.fld 1 R.TB_MODE_BACKUP = 1 ∧ s.die1.clk.backup.state = .locked ∧ s.die1.clk.backup.inLocked = 16
      Completes (exec .die0TimingLost s) fun r => r.now = max s.now (t + 16 * usec) ∧ r.fld 1 R.TB_STATUS_LINK_TIMING = 0 ∧
        r.fld 1 R.TB_EVENTS_LINK_TIMING_LOST = 1 ∧ r.die1.clk.lastWord = none ∧
        (ready → r.fld 1 R.TB_STATUS_BACKUP_ACTIVE = 1) ∧
        (¬ready → r.die1.clk.servo.state = .holdover ∧ r.fld 1 R.TB_STATUS_BACKUP_ACTIVE = s.fld 1 R.TB_STATUS_BACKUP_ACTIVE))

/-- A SWITCH with no image pending, a SWITCH while a switch is requested, and a CANCEL with nothing pending or held change
nothing: the host is answered with code STATE, a core has the refusal latched. While an admission runs (STATE 1), a write of
PL_SRC, of either word of PL_SWITCH_T0 and PL_SWITCH_T1, or of PL_LIB is refused and leaves the whole state as it was. (R113.)
-/
def Obligations.PlanCommandRefusals : Prop :=
  ∀ (s : State) (d : DieId) (wr : Writer) (v : W32), s.has d = true →
    let q := s.pkg.plans
    let refused := fun (i : Instr) => exec i s = .next (match wr with
      | .host => s.send (.refused d 0x30010 16)
      | .core c => s.coreRefused d c 0x30010 16)
    (wr = .host → (s.die d).up = true ∧ s.hostBarred d = false) →
    (q.pend = none → refused (.switch d wr)) ∧
    (q.request ≠ none → refused (.switch d wr)) ∧
    (q.pend = none → q.request = none → refused (.cancel d wr)) ∧
    (s.plState = 1 → ∀ a ∈ ([0x30014, 0x30018, 0x3001C, 0x3003C] : List Nat),
      (s.regWrite d wr [(a, v)]).1 = s ∧ (s.regWrite d wr [(a, v)]).2.isSome = true)

/-- An accepted ADMIT starts the check of the image at PL_SRC and an accepted LIBRARY that of the entry in PL_LIB (STATE 1);
an accepted SWITCH requests the switch of the pending image (STATE 3 or 6), an accepted CANCEL drops the pending image, or a
held switch alone. When a check ends, a plan that passes is pending with PL_RESULT 0 and ADMITTED set, one that fails is
reported in PL_RESULT with REFUSED set and leaves the pending image. Tiles, clocks and memory of both dies are unchanged.
(R90, R97, R107, R112.) -/
def Obligations.PlanRequests : Prop :=
  ∀ (s : State) (d : DieId) (wr : Writer) (dt : Nat),
    let q := s.pkg.plans
    let held := (match q.pend with | some p => p.part | none => false) && !q.brownOn.isEmpty
    let does := fun (i : Instr) (p : Plans) (n : Option Nat) => Completes (exec i s) fun r => r.pkg.plans = p ∧ (∀ k, n = some k → r.plState = k) ∧
      r.die0.clk = s.die0.clk ∧ r.die1.clk = s.die1.clk ∧ r.die0.tiles = s.die0.tiles ∧ r.die1.tiles = s.die1.tiles ∧
      r.die0.dram = s.die0.dram ∧ r.die1.dram = s.die1.dram
    (s.accepts d wr 0x30010 1 = true → 
      let j : AdmitJob := ⟨s.planImage (s.fld d R.PL_SRC), none, decide (s.fld d R.PL_SRC = 0xFFFFFFFF), false, s.now⟩
      does (.admitPlan d wr) { q with job := some j } (some 1)) ∧
    (s.accepts d wr 0x30010 8 = true → 
      let j : AdmitJob := ⟨[], some (s.fld d R.PL_LIB_NUMBER), false, false, s.now⟩
      does (.library d wr) { q with job := some j } (some 1)) ∧
    (s.accepts d wr 0x30010 2 = true → 
      let w : SwitchReq := { t0 := s.fld d R.PL_SWITCH_T0_NS, t1 := s.fld d R.PL_SWITCH_T1, held := held, taken := [] }
      does (.switch d wr) { q with request := some w } (if q.job = none then some (if q.running.isSome then 3 else 6) else none)) ∧
    (s.accepts d wr 0x30010 4 = true → does (.cancel d wr) (match q.request with
      | some r => if r.held then { q with request := none } else { q with request := none, pend := none }
      | none => { q with pend := none }) none) ∧
    (let t := s.advance dt
     ∀ j, q.job = some j →
      let done := fun (i : Instr) (x : Fail ⊕ Plan) =>
        (∀ f, x = .inl f → Completes (exec i s) fun r => r.pkg.plans = { q with job := none } ∧ r.fld 0 R.PL_RESULT_CODE = f.code % 256 ∧
            r.fld 0 R.PL_RESULT_SECTION = f.sect % 256 ∧ r.fld 0 R.PL_RESULT_ITEM = f.item % 65536 ∧ r.fld 0 R.PL_EVENTS_REFUSED = 1) ∧
        (∀ p, x = .inr p → Completes (exec i s) fun r => r.fld 0 R.PL_RESULT_CODE = 0 ∧ r.fld 0 R.PL_EVENTS_ADMITTED = 1 ∧
            let w : SwitchReq := { t0 := 0, t1 := 0, held := p.part && !q.brownOn.isEmpty, taken := [] }
            let p := { p with buffered := j.fromBuffer || match q.running with | some o => p.part && o.buffered | none => false }
            (s.dual = true → p.on 1 ≠ [] → s.die1.mr.sections ≠ some p → (r.die0.mr.planQ.any fun e => e.msg == .sections p) = true) ∧
            r.pkg.plans = { q with job := none, pend := some p, request := if j.startPlan then some w else q.request })
      (j.library = none → done (.admissionDone dt) (t.admission j.image)) ∧
      (∀ n, j.library = some n → done (.libraryCheckDone dt) (t.entryAdmission n)))

/-- With no switch requested PLAN_SWITCH does nothing, and nothing before the switch time; die 1 does not switch until its
sections have arrived; a step of station time that is due at the boundary or before is applied first, and the switch stays
due; a partial plan's switch is held while the brownout alternative is on; otherwise the cadence takes the plan at its
boundary, and the plan runs once every cadence has taken it. A cadence with which a fragment of both dies moves waits for a
boundary that the other die can still meet, and follows the other die's at the same frame. BROWNOUT_APPLY and BROWNOUT_REMOVE
put a cadence on the running plan's alternative or off it at its boundary; a plan without one runs unchanged. RWL_APPLY gives
every entry of the audio map on the cadence the mute that has been written for it. (R59, R91, R97, R101, R102, R104, R108,
R110, R455.) -/
def Obligations.PlanBoundaries : Prop :=
  ∀ (s : State) (d : DieId) (c : Fin 8), s.has d = true →
    let x := s.die d
    let q := s.pkg.plans
    let k := planKey d c
    (q.request = none ∨ q.pend = none → exec (.planSwitch d c) s = .next s) ∧
    (∀ r, q.request = some r → ∀ p, q.pend = some p →
      let go := s.switchKeys p
      (s.sectionsHere d p = false → Completes (exec (.planSwitch d c) s) fun t => t.pkg = s.pkg ∧ (t.die d).live = x.live ∧ (t.die d).clk = x.clk) ∧
      (s.sectionsHere d p = true →
      (r.taken = [] → p.part = true → q.brownOn ≠ [] → Completes (exec (.planSwitch d c) s) fun t =>
        t.pkg.plans = { q with request := some { r with held := true } } ∧ t.die0 = s.die0 ∧ t.die1 = s.die1) ∧
      ((p.part = false ∨ r.taken ≠ [] ∨ q.brownOn = []) → ∀ b g, x.boundaryNow c = some b → x.grid c = some g →
        let f := g.frame ((x.cad c).settle g).next
        (r.frame c = none → b < x.switchTime r.t0 r.t1 → exec (.planSwitch d c) s = .next s) ∧
        (r.frame c = none → s.tied p c = true → (s.die (peer d)).canMeet c f = false → exec (.planSwitch d c) s = .next s) ∧
        (∀ e, r.frame c = some e → f < e → exec (.planSwitch d c) s = .next s) ∧
        ((match r.frame c with
            | some e => decide (e ≤ f)
            | none => decide (x.switchTime r.t0 r.t1 ≤ b) && (!s.tied p c || (s.die (peer d)).canMeet c f)) = true →
          r.held = false → k ∉ r.taken → k ∈ go →
          (s.stepBefore d b = true → Completes (exec (.planSwitch d c) s) fun t => t.pkg.plans = q ∧ (t.die (s.stepOwner d)).clk.servo.step = none) ∧
          (s.stepBefore d b = false → q.brownOn = [] → Completes (exec (.planSwitch d c) s) fun t =>
            if go.all fun j => (r.taken ++ [k]).contains j then t.pkg.plans.running = some p ∧ t.pkg.plans.pend = none ∧ t.pkg.plans.request = none
            else t.pkg.plans.running = q.running ∧ ∃ w, t.pkg.plans.request = some w ∧ w.taken = r.taken ++ [k] ∧ w.t0 = r.t0 ∧ w.t1 = r.t1 ∧
              (r.taken ≠ [] → w.alike = r.alike) ∧ (s.tied p c = true → w.frame c = some ((r.frame c).getD f))))))) ∧
    (∀ p, q.running = some p →
      (p.brownout = none → exec (.brownoutApply d c) s = .next s ∧ exec (.brownoutRemove d c) s = .next s) ∧
      (p.brownout ≠ none → (x.boundaryNow c).isSome = true → q.request = none →
        (q.brownDue = true → k ∉ q.brownOn → Completes (exec (.brownoutApply d c) s) fun t =>
          t.pkg.plans = { q with brownOn := q.brownOn ++ [k] } ∧ (q.brownOn = [] → t.fld 0 R.PL_EVENTS_BROWNOUT_ON = 1)) ∧
        (q.brownDue = false → k ∈ q.brownOn → Completes (exec (.brownoutRemove d c) s) fun t =>
          t.pkg.plans = { q with brownOn := q.brownOn.filter fun j => j != k } ∧ (q.brownOn = [k] → t.fld 0 R.PL_EVENTS_BROWNOUT_OFF = 1)))) ∧
    (∀ b, x.boundaryNow c = some b → Completes (exec (.rwlApply d c) s) fun t =>
      (t.die d).clk.now = max x.clk.now b ∧ (t.die d).regs = x.regs ∧ ∀ n, n < 4096 →
        x.flag R.AU_MAP_CFG_USED n = true → x.auDestCad (x.fld R.AU_MAP_CFG_KIND n) (x.fld R.AU_MAP_DEST_INSTANCE n) = c.val →
        (mget (fun _ => ({} : AuMute)) (t.die d).au.mutes n).on = x.flag R.AU_MAP_CFG_MUTE n)

/-- On a channel that is not in step: an accepted FORCE_RAP marks the first picture due 16 lines later, and one that is
pending stands; an accepted RATE_WRITE is kept pending and leaves the rate in force; RATE_CHANGE_APPLY puts a due change, or a
pool's rate, into its register; SCTE104 keeps a splice message for the transport stream, and counts one that it cannot use;
DEFERRED_DEADLINE replaces a late unit by a fill slice and reports a SLACK breach, with the deferred work of the fragment's
tiles abandoned. (R134, R198, R214, R217, R224, R225, R249, R250, R252, R394.) -/
def Obligations.EncodeRequests : Prop :=
  ∀ (s : State) (d : DieId) (wr : Writer) (n : Fin 256) (v : W32) (dt pre : Nat) (k : Scte104) (header body : List Byte), s.has d = true →
    let x := s.die d
    let c := x.enc' n
    let cad := s.fld d R.EN_TIMING_CADENCE n
    let mode := s.fld d R.RC_CFG_MODE n
    let f := x.picPlus16 n
    (s.fld d R.MR_EC_INSTEP n = 0 →
      (s.accepts d wr (0x80014 + 256 * n) 1 = true → Completes (exec (.forceRap d wr n 1) s) fun r =>
        r.fld d R.EN_STATUS_RAP_PENDING n = 1 ∧
        (r.die d).enc' n = if s.fld d R.EN_STATUS_RAP_PENDING n = 1 then c else { c with rapAt := some f }) ∧
      (s.accepts d wr (0x90004 + 64 * n) v = true → s.fld d R.RC_CFG_RATE_RAP n = 0 → Completes (exec (.rateWrite d wr 0 n v) s) fun r =>
        r.fld d R.RC_RATE n = s.fld d R.RC_RATE n ∧ r.fld d R.RC_STATUS_RATE_PENDING n = 1 ∧
        ((r.die d).enc' n).changes = (c.changes.filter fun e => e.field != 0) ++ [⟨0, v, decide (mode = 0), x.changePic n 0⟩])) ∧
    (∀ ch, c.changes = [ch] → ch.field = 0 → ∀ g, x.grid cad = some g → ∀ a, x.changeDue n ch = some a →
      let i : Int := x.picsPer n
      Completes (exec (.rateChangeApply d false n) s) fun r =>
        (r.die d).clk.now = max x.clk.now (g.instant (a / i * g.l + fieldStart g.l (a % i).toNat)) ∧ r.fld d R.RC_RATE n = ch.value.toNat ∧
        (c.asked = [] → 16 ≤ s.fld d R.RC_CFG_POOL n ∨ mget (fun _ => none) x.enc.poolPend (s.fld d R.RC_CFG_POOL n) = none → r.fld d R.RC_STATUS_RATE_PENDING n = 0) ∧ r.fld d R.RC_EVENTS_RATE_APPLIED n = 1 ∧ ((r.die d).enc' n).changes = []) ∧
    (n.val < 16 → ∀ e, mget (fun _ => none) x.enc.poolPend n = some e → ∀ g, x.grid (s.fld d R.RC_POOL_CFG_CADENCE n) = some g →
      Completes (exec (.rateChangeApply d true n) s) fun r => r.fld d R.RC_POOL_RATE n = e.1 % 2 ^ 32 ∧
        mget (fun _ => none) (r.die d).enc.poolPend n = none ∧ (r.die d).enc.chans = x.enc.chans ∧
        ∀ e ∈ x.poolMembers n, r.fld d R.RC_EVENTS_RATE_APPLIED e.1 = 1) ∧
    (s.fld d R.EN_STATUS_RUNNING n = 1 →
      (x.hasTs n = false ∨ (scteCommand k none).isNone = true → Completes (exec (.scte104Message d n dt k pre header body) s) fun r =>
        r.fld d R.EN_SCTE_DROP n = (s.fld d R.EN_SCTE_DROP n + 1) % 2 ^ 32 ∧ (r.die d).enc = x.enc) ∧
      (x.hasTs n = true → (scteCommand k none).isSome = true → scteTimed k pre = false → s.fld d R.EN_CFG_INTERLACED n = 0 → (x.grid cad).isSome = true →
        Completes (exec (.scte104Message d n dt k pre header body) s) fun r =>
          let y := (s.advance dt).die d
          (r.die d).enc' n = { c with splices := c.splices ++ [⟨(y.frameLine cad).1, k, none, header ++ body⟩] } ∧ (r.die d).regs = x.regs)) ∧
    (∀ p, c.pics = [p] → ∀ w, p.rows = [w] → w.started = true → w.left ≤ 1 → w.fault = 0 → s.fld d R.EN_TIMING_DEFERRED n = 1 → x.deferredLeft c.frag = true →
      Completes (exec (.deferredDeadline d n) s) fun r => r.fld d R.EN_EVENTS_DEADLINE n = 1 ∧ r.fld d R.PL_BREACH_KIND = 7 ∧
        r.fld d R.PL_BREACH_SIDE = 1 ∧ ((r.die d).enc' n).pics = [{ p with rows := [{ w with fault := 5 }] }])

/-- On a channel that is not in step: an accepted COMMIT of a layer that passes keeps its values for the picture due 16 lines
later, one that does not is counted with its cause; COMMIT_APPLY puts them into force together; RECOMPUTE_DONE completes a
run's plane. NO_INPUT marks a frame store that two frames have left without input; MEMBER_UNDERRUN conceals the member whose
deadline has come and counts it. (R269, R299, R300, R301, R306, R334, R335, R349, R384.) -/
def Obligations.ChurnAndInputs : Prop :=
  ∀ (s : State) (d : DieId) (wr : Writer) (n : Fin 256) (l : Fin 8) (m : Fin 1024), s.has d = true →
    let x := s.die d
    let u := (x.churnOf n).layer l
    let cad := s.fld d R.EN_TIMING_CADENCE n
    let v := BitVec.ofNat 32 (2 ^ l.val)
    (s.fld d R.MR_EC_INSTEP n = 0 → s.accepts d wr (0xC000C + 256 * n) v = true → l.val ≤ s.fld d R.CH_CFG_LAYERS n → x.flattened n l = false →
      (x.layerCause d n l = 0 → Completes (exec (.commit d wr n v) s) fun r =>
        ((r.die d).churnOf n).layer l = { u with commit := some ⟨x.layerRegs n l, x.framePlus16 cad⟩ } ∧ (r.die d).layerPending n l = true) ∧
      (1 ≤ l.val → x.layerCause d n l ≠ 0 → Completes (exec (.commit d wr n v) s) fun r => (r.die d).churn = x.churn ∧
        r.fld d R.CH_REFUSED n = (s.fld d R.CH_REFUSED n + 1) % 2 ^ 32 ∧ r.fld d R.CH_LCAUSE_CAUSE n (l.val - 1) = x.layerCause d n l % 8)) ∧
    (∀ g, x.grid cad = some g →
      (∀ k, u.commit = some k → x.commitsDue n = [(k.frame, l.val)] → x.flattened n l = false → Completes (exec (.commitApply d n) s) fun r =>
        (r.die d).clk.now = max x.clk.now (g.instant (k.frame * g.l)) ∧ r.fld d R.CH_EVENTS_APPLIED n = 1 ∧
        ((r.die d).churnOf n).layer l = { u with live := k.values, commit := none, committed := true }) ∧
      (∀ e, oget (x.churnOf n).flat (x.runStart n l) = some e → e.done = false → (x.frameLine cad).1 + 1 < e.notBefore →
        Completes (exec (.recomputeDone d n l) s) fun r => oget ((r.die d).churnOf n).flat (x.runStart n l) = some { e with done := true } ∧
          r.fld d R.CH_EVENTS_FLAT_DONE n = 1 ∧ ((r.die d).churnOf n).layer l = u)) ∧
    ((x.bodyOf 0xB 0xB03 m).isSome = true → 2 ≤ (x.store m).idle → exec (.noInput d m) s = .next (s.setFld d R.CL_FS_STATE_NO_INPUT 1 m)) ∧
    ((x.store m).idle < 2 → exec (.noInput d m) s = .next s) ∧
    (let lane : MemRef := ⟨false, m⟩
     m.val < 512 → x.memBad lane = false → ∀ t, x.memDue lane = some t → Completes (exec (.memberUnderrun d false m.castSucc) s) fun r =>
      (r.die d).clk.now = max x.clk.now t ∧ (r.die d).memBad lane = true ∧ r.fld d R.LN_STATUS_CONCEALING m = 1 ∧
      r.fld d R.LN_GRP_UNDERRUNS (x.memGroup lane) = (s.fld d R.LN_GRP_UNDERRUNS (x.memGroup lane) + 1) % 2 ^ 32) ∧
    (let flow : MemRef := ⟨true, m⟩
     x.memBad flow = false → ∀ t, x.memDue flow = some t → Completes (exec (.memberUnderrun d true m.castSucc) s) fun r =>
      (r.die d).clk.now = max x.clk.now t ∧ (r.die d).memBad flow = true ∧ r.fld d R.NW_RX_EVENTS_UNDERRUN m = 1)

/-- CABLE_CHANGE sets CABLE; ACQUIRE chooses the stored preset where it is good enough, else the best, the lowest on a tie;
LOCK and UNLOCK set and clear the lock and mute or resume the direct routes from the lane; an attempt ends after 400 us;
READAPT drops the lock; a power state falls at once and rises with its wake; a direct route changes its source at once where
the new one is not locked, else at XPT_APPLIED; the PLLs show their lock. (R329, R330, R332, R333, R338, R339, R341, R343,
R346, R348, R349.) -/
def Obligations.LaneLockAndPower : Prop :=
  ∀ (s : State) (d : DieId) (wr : Writer) (k : Fin 512) (dt : Nat) (foms : List Byte) (cable tx pllB : Bool) (b : Fin 32) (v : W32), s.has d = true →
    let x := s.die d
    let w := x.lane k
    let a := s.advance dt
    let bad := x.fld R.LN_STATUS_RX_NOW k = 0 ∨ x.flag R.LN_STATUS_CABLE k = cable
    let n := x.fld R.LN_EQ_COUNT k + 1
    let fom := fun q : Nat => (foms.getD q 0).toNat
    let p := w.stored.getD 0
    let low := x.fld R.LN_EQ_FOM_MIN k
    let routes := x.directs.filter fun t => (x.lane t).xptNow = k
    (bad → exec (.cableChange d k dt cable) s = .next a) ∧
    (¬ bad → Completes (exec (.cableChange d k dt cable) s) fun r =>
      r.fld d R.LN_STATUS_CABLE k = b2n cable ∧ r.fld d (if cable then R.LN_EVENTS_CABLE_ON else R.LN_EVENTS_CABLE_OFF) k = 1 ∧
      r.fld d R.LN_DIE_EVENTS_CABLE = 1 ∧ ((r.die d).lane k).attempt = if cable then w.attempt else none) ∧
    (x.flag R.LN_STATUS_LOCK k = true ∨ w.attempt ≠ none → Completes (exec (.unlock d k dt) s) fun r =>
      r.fld d R.LN_STATUS_LOCK k = 0 ∧ r.fld d R.LN_STATUS_FMT_OK k = 0 ∧ r.fld d R.LN_EVENTS_UNLOCK k = 1 ∧
      ((r.die d).lane k).attempt = none ∧ ∀ t ∈ routes, r.fld d R.LN_STATUS_TX_MUTE t = 1) ∧
    (w.attempt ≠ none → x.rxOn k = true → Completes (exec (.lock d k dt) s) fun r =>
      r.fld d R.LN_STATUS_LOCK k = 1 ∧ r.fld d R.LN_LOCKS k = (x.fld R.LN_LOCKS k + 1) % 2 ^ 32 ∧ r.fld d R.LN_EVENTS_LOCK k = 1 ∧
      ((r.die d).lane k).attempt = none ∧ ∀ t ∈ routes, r.fld d R.LN_STATUS_TX_MUTE t = 0) ∧
    (x.rxOn k = true → x.flag R.LN_STATUS_CABLE k = true → x.flag R.LN_STATUS_LOCK k = false → w.attempt = none → p < n →
      Completes (exec (.acquire d k dt foms) s) fun r =>
        let q := r.fld d R.LN_EQ_PRESET k
        ((r.die d).lane k).attempt = some a.now ∧ ((r.die d).lane k).stored = some q ∧ r.fld d R.LN_EQ_VALID k = 1 ∧
        r.fld d R.LN_EQ_FOM k = fom q ∧ r.fld d R.LN_STATUS_EYE_LOW k = b2n (fom q < low) ∧
        if low ≤ fom p then q = p else q < n ∧ ∀ i ∈ List.range n, fom i ≤ fom q ∧ (fom i = fom q → q ≤ i)) ∧
    (∀ t, w.attempt = some t → x.flag R.LN_STATUS_LOCK k = false → Completes (exec (.acquireTimeout d k foms) s) fun r => r.now = max s.now (t + 400 * usec) ∧
      ((r.die d).lane k).attempt = if x.rxOn k && x.flag R.LN_STATUS_CABLE k then some r.now else none) ∧
    (s.accepts d wr (0x100050 + 512 * k) 1 = true → x.flag R.LN_STATUS_LOCK k = true → Completes (exec (.readapt d wr k 1) s) fun r =>
      r.fld d R.LN_STATUS_LOCK k = 0 ∧ r.fld d R.LN_EVENTS_UNLOCK k = 1 ∧ r.now = s.now) ∧
    (s.accepts d wr (0x100004 + 512 * k) v = true → Completes (exec (.lnPwrWrite d wr k v) s) fun r => ∀ t ∈ [false, true],
      let f := if t then R.LN_STATUS_TX_NOW else R.LN_STATUS_RX_NOW
      let want := bits v.toNat (if t then 3 else 1) (if t then 2 else 0)
      if want ≤ s.fld d f k then r.fld d f k = want ∧ ((r.die d).lane k).wakeOf t = none
      else r.fld d f k = s.fld d f k ∧ r.fld d R.LN_STATUS_WAKING k = 1 ∧ ((r.die d).lane k).wakeOf t =
        some (want, s.now + (if s.fld d f k = 1 then 2 else 200) * usec + if x.laneBist k then 10 * usec else 0)) ∧
    (∀ e, w.wakeOf tx = some e → Completes (exec (.wakeDone d k tx dt) s) fun r =>
      r.fld d (if tx then R.LN_STATUS_TX_NOW else R.LN_STATUS_RX_NOW) k = e.1 % 4 ∧ ((r.die d).lane k).wakeOf tx = none ∧
      r.now = max s.now (min (s.now + dt) e.2)) ∧
    (s.accepts d wr (0x100014 + 512 * k) v = true → x.fld R.LN_XPT_KIND k = 1 → Completes (exec (.xptWrite d wr k v) s) fun r =>
      let src := bits v.toNat 8 0
      if x.sourceUp src then ((r.die d).lane k).xptPend = some src ∧ ((r.die d).lane k).xptNow = w.xptNow
      else ((r.die d).lane k).xptPend = none ∧ ((r.die d).lane k).xptNow = src ∧ r.fld d R.LN_EVENTS_XPT_APPLIED k = 1 ∧
        r.fld d R.LN_STATUS_TX_MUTE k = 1) ∧
    (∀ q, w.xptPend = some q → x.fld R.LN_XPT_KIND k = 1 → Completes (exec (.xptApplied d k dt) s) fun r =>
      ((r.die d).lane k).xptPend = none ∧ ((r.die d).lane k).xptNow = q ∧ r.fld d R.LN_EVENTS_XPT_APPLIED k = 1 ∧
      r.fld d R.LN_STATUS_TX_MUTE k = b2n (!x.sourceUp q)) ∧
    (x.flag (if pllB then R.LN_BLK_B_USED else R.LN_BLK_A_USED) b = true →
      Completes (exec (.pllLock d b pllB dt) s) (fun r => r.fld d (if pllB then R.LN_BLK_B_LOCK else R.LN_BLK_A_LOCK) b = 1) ∧
      Completes (exec (.pllUnlock d b pllB dt) s) fun r => r.fld d (if pllB then R.LN_BLK_B_LOCK else R.LN_BLK_A_LOCK) b = 0 ∧
        (x.flag (if pllB then R.LN_BLK_B_LOCK else R.LN_BLK_A_LOCK) b = true → r.fld d R.LN_DIE_EVENTS_PLL_UNLOCK = 1))

/-- A receiver in On with lock takes every line: it leaves the transmitters of its direct routes; one without TRS counts a
code error, and the fourth in a row drops the lock; one of another format than declared, with a wrong CRC where CRC_CONCEAL is
1, or under IN_DROP delivers nothing; any other that comes within the window of its group stands in staging; the payload
identifier shows. The bits of a native frame are destuffed and descrambled: a stuffing error drops the lock; a bad CRC or type
counts a CRC error and delivers nothing; a filler frame counts a deletion; a link-control frame shows the peer's preset; a gap
in SEQ counts a code error. A native transmitter sends what waits with SEQ rising, or a filler frame, and its preset in a
link-control frame, scrambled and stuffed. (R318, R319, R320, R322, R323, R324, R326, R328, R333, R339.) -/
def Obligations.LaneTraffic : Prop :=
  ∀ (s : State) (d : DieId) (k : Fin 512) (dt : Nat) (l : SdiLine) (control payload : List Bool) (frame : Int) (line : Nat), s.has d = true →
    let wire := control ++ payload
    let x := s.die d
    let w := x.lane k
    let a := s.advance dt
    let shut := fun (native : Bool) => x.lnNative k ≠ native ∨ x.sourceUp k = false
    let counts := fun (r : State) (f : Fld) => r.fld d f k = (x.fld f k + 1) % 2 ^ 32
    let quiet := fun (r : State) => (r.die d).lanes.staging = x.lanes.staging ∧ (r.die d).dram = x.dram ∧ (r.die d).au = x.au
    let ok := (a.die d).sdiMatches d k l
    (shut false → exec (.sdiLine d k dt l) s = .next a) ∧
    (¬ shut false → l.trs = false → Completes (exec (.sdiLine d k dt l) s) fun r => counts r R.LN_CODE_ERR ∧ quiet r ∧
      r.fld d R.LN_STATUS_LOCK k = b2n (decide (w.misses < 3))) ∧
    (¬ shut false → l.trs = true → Completes (exec (.sdiLine d k dt l) s) fun r =>
      let y := a.die d
      let lane : MemRef := ⟨false, k⟩
      let now := y.lineNow (y.memCad lane) + y.pertSum 0 k 0
      let lost := ok = false ∨ (l.crc = false ∧ x.flag R.LN_CFG_CRC_CONCEAL k = true) ∨ y.pertOn 1 k 0 = true
      ((r.die d).lane k).misses = 0 ∧ r.fld d R.LN_STATUS_LOCK k = 1 ∧ r.fld d R.LN_STATUS_FMT_OK k = b2n ok ∧
      (ok = false → w.fmtSeen ≠ some false → r.fld d R.LN_EVENTS_FMT_CHANGE k = 1) ∧ (l.crc = false → counts r R.LN_CRC_ERR) ∧
      (l.number = false → counts r R.LN_CODE_ERR) ∧ (∀ i, l.id = some i → r.fld d R.LN_PAYLOAD_ID k = i.toNat) ∧ (lost → quiet r) ∧
      (∀ t ∈ y.forwards k, Out.sdiThrough d t k l ∈ r.outbox) ∧
      (¬ lost → ∀ g, y.grid (y.memCad lane) = some g → ((y.memRaster d lane g.l).at_ (g.line l.line)).isSome = true →
        now ≤ l.line + y.memWindow lane → l.line ≤ now + y.memWindow lane → (r.die d).staged lane (g.line l.line) = l.samples)) ∧
    (2080 ≤ wire.length → wire.length ≤ 2171 → shut true → exec (.nativeFrame d k dt control payload false frame line) s = .next a) ∧
    (2080 ≤ wire.length → wire.length ≤ 2171 → ¬ shut true →
      (w.unwire wire = none → Completes (exec (.nativeFrame d k dt control payload false frame line) s) fun r => counts r R.LN_CODE_ERR ∧
          r.fld d R.LN_EVENTS_STUFF_ERR k = 1 ∧ r.fld d R.LN_STATUS_LOCK k = 0 ∧ quiet r) ∧
      ∀ u, w.unwire wire = some u →
        let f := u.1
        let v := u.2
        let c := f.1.toNat
        (bits c 31 20 ≠ 0xE4B → Completes (exec (.nativeFrame d k dt control payload false frame line) s) fun r => quiet r ∧
          r.fld d R.LN_STATUS_LOCK k = b2n (decide (w.misses < 3))) ∧
        (bits c 31 20 = 0xE4B → Completes (exec (.nativeFrame d k dt control payload false frame line) s) fun r =>
          r.fld d R.LN_STATUS_LOCK k = 1 ∧ ((r.die d).lane k).misses = 0 ∧ ((r.die d).lane k).rxScr = v.rxScr ∧
          ((r.die d).lane k).rxRun = v.rxRun ∧
          if bits c 7 0 ≠ nativeCrc f.1 f.2 ∨ bits c 19 18 = 3 then counts r R.LN_CRC_ERR ∧ quiet r
          else if bits c 19 18 = 1 then counts r R.LN_FILL_DEL ∧ quiet r
          else if bits c 19 18 = 2 then r.fld d R.LN_EQ_PEER k = (f.2.getD 0 0).toNat % 16 ∧ quiet r
          else oget ((r.die d).lane k).seqIn (bits c 15 12) = some (bits c 11 8) ∧
            ∀ q, oget w.seqIn (bits c 15 12) = some q → bits c 11 8 ≠ (q + 1) % 16 → counts r R.LN_CODE_ERR) ∧
        (bits c 31 20 = 0xE4B → bits c 7 0 = nativeCrc f.1 f.2 → bits c 19 18 = 0 →
          Completes (exec (.nativeFrame d k dt control payload true frame line) s) fun r => counts r R.LN_OVERFLOW ∧
            r.fld d R.LN_EVENTS_OVERFLOW k = 1 ∧ quiet r)) ∧
    (x.nativeTx k = true →
      let sent := fun (r : State) (control : W32) (bs : List Byte) =>
        r.outbox = s.outbox ++ [.native d k control bs (w.wire control bs).1] ∧ ((r.die d).lane k).txScr = (w.wire control bs).2.txScr ∧
        ((r.die d).lane k).txRun = (w.wire control bs).2.txRun
      let zero := List.replicate 256 0
      (1023 ≤ w.txSince.1 ∨ (w.txQueue = [] ∧ x.nativeQueued d k = none) →
        Completes (exec (.nativeTxFrame d k dt) s) fun r => sent r (nativeWord 1 false false 0 0 zero) zero ∧ counts r R.LN_FILL_INS ∧
          ((r.die d).lane k).txSince = (0, w.txSince.2 + 1)) ∧
      (∀ e, w.txQueue.head? = some e → w.txSince.1 < 1023 →
        let seq := mget (fun _ => 0) w.seqOut e.1
        let bs := e.2.2.2 ++ List.replicate (256 - e.2.2.2.length) 0
        Completes (exec (.nativeTxFrame d k dt) s) fun r => sent r (nativeWord 0 e.2.1 e.2.2.1 e.1 seq bs) bs ∧ ((r.die d).lane k).txQueue = w.txQueue.tail ∧
          mget (fun _ => 0) ((r.die d).lane k).seqOut e.1 = (seq + 1) % 16) ∧
      (65535 ≤ w.txSince.2 →
        let bs := BitVec.ofNat 8 (w.presets.findIdx (fun p => p.getD 6 0 == 1) % 16) :: List.replicate 255 0
        Completes (exec (.linkControlFrame d k dt) s) fun r => sent r (nativeWord 2 false false 0 0 bs) bs ∧ ((r.die d).lane k).txSince.2 = 0))

/-- SUBPORT_UP and SUBPORT_DOWN set the link and report a change. On a sub-port whose link is up, a frame with a bad FCS is
counted; one of a bad length, type or VLAN, and a fragment, is dropped; one for the device enters the control queue while it
has room; one for nobody is counted. An RTP packet of a flow is delivered once: a copy of one that was seen counts as a
duplicate. (R353, R354, R355, R356, R366, R384.) -/
def Obligations.NetworkInputs : Prop :=
  ∀ (s : State) (d : DieId) (sp : Fin 8) (dt corr : Nat) (b : List Byte) (eye : Bool), s.has d = true →
    let x := s.die d
    let a := s.advance dt
    let e := ethOf b
    let plus := fun (r : State) (f : Fld) (i n : Nat) => r.fld d f i = (s.fld d f i + n) % 2 ^ (f.hi - f.lo + 1)
    let same := fun (r : State) (f : Fld) (i : Nat) => r.fld d f i = s.fld d f i
    let calm := fun (r : State) => (r.die d).nw = x.nw ∧ (r.die d).lanes = x.lanes ∧ r.outbox = s.outbox
    (s.fld d R.NW_SP_CFG_MODE sp ≠ 3 →
      (x.flag R.NW_SP_STATUS_LINK sp = false → Completes (exec (.subportUp d sp dt eye) s) fun r => r.fld d R.NW_SP_STATUS_LINK sp = 1 ∧
        r.fld d R.NW_SP_STATUS_ALIGNED sp = 1 ∧ r.fld d R.NW_SP_STATUS_EYE_LOW sp = b2n eye ∧ r.fld d R.NW_SP_EVENTS_LINK_UP sp = 1 ∧ r.fld d R.NW_EVENTS_LINK_UP = 1 ∧ calm r) ∧
      (x.flag R.NW_SP_STATUS_LINK sp = true → Completes (exec (.subportDown d sp dt) s) fun r => r.fld d R.NW_SP_STATUS_LINK sp = 0 ∧
        r.fld d R.NW_SP_STATUS_ALIGNED sp = 0 ∧ r.fld d R.NW_SP_EVENTS_LINK_DOWN sp = 1 ∧ r.fld d R.NW_EVENTS_LINK_DOWN = 1 ∧ calm r)) ∧
    (s.fld d R.NW_SP_STATUS_LINK sp = 0 → exec (.rxFrame d sp dt b true corr 0 0) s = .next a) ∧
    (s.fld d R.NW_SP_STATUS_LINK sp = 1 → x.forwardOf sp e = none →
      (Completes (exec (.rxFrame d sp dt b false corr 0 0) s) fun r => plus r R.NW_SP_RX_FRAMES sp 1 ∧ plus r R.NW_SP_RX_FCS_ERR sp 1 ∧
        plus r R.NW_SP_FEC_CORR sp corr ∧ calm r) ∧
      (b.length < 60 ∨ 9212 < b.length ∨ e.etype = 0x8808 ∨ x.spVlan sp e.vlan = false → Completes (exec (.rxFrame d sp dt b true corr 0 0) s) fun r =>
        plus r R.NW_SP_RX_FRAMES sp 1 ∧ plus r R.NW_SP_RX_DROP sp 1 ∧ same r R.NW_SP_RX_FCS_ERR sp ∧ calm r) ∧
      (60 ≤ b.length → b.length ≤ 9212 → e.etype ≠ 0x8808 → x.spVlan sp e.vlan = true →
        (udpOf b e = none → Completes (exec (.rxFrame d sp dt b true corr 0 0) s) fun r => plus r R.NW_SP_RX_FRAMES sp 1 ∧
          if udpFragment b e then plus r R.NW_SP_RX_DROP sp 1 ∧ calm r
          else if x.forDevice sp e b then
            (x.policersOf 2 sp = [] → if 256 ≤ (x.port sp).ctrl.length then plus r R.NW_CTRL_DROP 0 1 ∧ calm r
              else (r.die d).port sp = { x.port sp with ctrl := (x.port sp).ctrl ++ [b] } ∧ r.outbox = s.outbox)
          else plus r R.NW_RX_UNMATCHED 0 1 ∧ calm r) ∧
        (∀ u, udpOf b e = some u → s.fld d R.NW_SP_CFG_PTP sp = 0 → ∀ m, x.rxMatch sp e u = some m →
          (u.bad = true → Completes (exec (.rxFrame d sp dt b true corr 0 0) s) fun r => plus r R.NW_SP_RX_DROP sp 1 ∧ calm r) ∧
          (u.bad = false → x.policersOf 0 m.1 = [] → x.pertOn 1 m.1 1 = false → s.fld d R.NW_RX_CFG_KIND m.1 ≠ 5 → 12 ≤ u.payload.length →
            be u.payload 0 1 / 64 = 2 →
            let seq := be u.payload 2 2
            let v := x.rx m.1
            Completes (exec (.rxFrame d sp dt b true corr 0 0) s) fun r =>
              r.fld d (if m.2 = 0 then R.NW_RX_STATE_PATH0_DOWN else R.NW_RX_STATE_PATH1_DOWN) m.1 = 0 ∧
              (v.last = none → plus r R.NW_RX_PACKETS m.1 1 ∧ ((r.die d).rx m.1).last = some (65536 + seq)) ∧
              (∀ l, v.last = some l → l % 65536 = seq → mget (fun _ => 0) v.seen l ≠ 0 →
                plus r R.NW_RX_DUPLICATES m.1 1 ∧ same r R.NW_RX_PACKETS m.1 ∧ ((r.die d).rx m.1).last = v.last)))))

/-- PATH_DOWN comes 100 ms after a path's last packet; ANNOUNCE_TIMEOUT drops the selected master and selects the best of the
others; DELAY_REQ sends a request with the next sequence number; a membership report leaves when it is due; PACKET_POSITION
moves time to the flow's next position and sends the packet there. (R358, R360, R361, R366, R370, R375, R377, R384, R400.) -/
def Obligations.NetworkTimers : Prop :=
  ∀ (s : State) (d : DieId) (f : Fin 1024) (path : Fin 2) (sp : Fin 8) (dt : Nat), s.has d = true →
    let x := s.die d
    let p := x.nw.ptp
    let kind := s.fld d R.NW_TX_CFG_KIND f
    let down := if path = 0 then R.NW_RX_STATE_PATH0_DOWN else R.NW_RX_STATE_PATH1_DOWN
    let heard := if path = 0 then (x.rx f).pathAt.1 else (x.rx f).pathAt.2
    (x.flag R.NW_RX_CFG_TWO_PATHS f = true → s.fld d down f = 0 → Completes (exec (.pathDown d f path) s) fun r =>
      r.now = max s.now (heard + 100 * msec) ∧ r.fld d down f = 1 ∧ r.fld d R.NW_RX_EVENTS_PATH_DOWN f = 1 ∧ r.fld d R.NW_EVENTS_PATH_DOWN = 1) ∧
    (∀ id, p.sel = some id → ∀ t, x.announceDue = some t → Completes (exec (.announceTimeout d) s) fun r =>
      let q := (r.die d).nw.ptp
      r.now = max s.now t ∧ q.foreign = (p.foreign.filter fun v => v.port ≠ id) ∧ q.sel = (bestMaster r.now q.foreign).map PtpMaster.port ∧
      r.fld d R.NW_PTP_STATUS_MASTER = b2n q.sel.isSome) ∧
    (∀ v, p.master = some v → s.fld d R.NW_SP_STATUS_LINK (s.fld d R.NW_PTP_CFG_SUBPORT) = 1 → Completes (exec (.delayReq d) s) fun r =>
      r.now = max s.now (p.reqAt + ptpInterval p.reqLog) ∧ r.outbox.length = s.outbox.length + 1 ∧ r.outbox.take s.outbox.length = s.outbox ∧
      (r.die d).nw.ptp = { p with req := some (p.reqSeq, r.ptpNow d), reqSeq := (p.reqSeq + 1) % 65536, reqAt := r.now }) ∧
    (∀ m, (x.port sp).reports = [m] → Completes (exec (.membershipReport d sp dt) s) fun r => ((r.die d).port sp).reports = [] ∧
      r.now = max s.now (if m.query then min (s.now + dt) m.due else m.due)) ∧
    (∀ g, x.grid (s.fld d R.NW_TX_CFG_CADENCE f) = some g → ∀ t, x.txDue f = some t → Completes (exec (.packetPosition d f) s) fun r =>
      (r.die d).clk.now = max x.clk.now t ∧
      (kind ∈ [0, 2, 3] → ((r.die d).tx f).seq = ((x.tx f).seq + 1) % 2 ^ 32 ∧ r.fld d R.NW_TX_SEQ_SEQ f = (x.tx f).seq % 65536 ∧
        r.fld d R.NW_TX_PACKETS f = (s.fld d R.NW_TX_PACKETS f + 1) % 2 ^ 32) ∧
      (kind ∈ [5, 6] → ((r.die d).tx f).k = (x.tx f).k + 1 ∧ r.fld d R.NW_TX_PACKETS f = (s.fld d R.NW_TX_PACKETS f + 1) % 2 ^ 32))

/-- EGRESS_SELECT sends the head of the chosen queue of a free sub-port and occupies it for the frame's time; with none
eligible it only lets time pass. A new rate of a shaper leaves the credit accrued at the old one. A selected gate list is
pending until its start; GATE_LIST_START puts it into force at that instant; GATE_ENTRY moves to the next entry when the
present one ends, or into a new cycle. (R388, R389, R390, R392, R393, R396, R397, R398, R402.) -/
def Obligations.EgressAndGates : Prop :=
  ∀ (s : State) (d : DieId) (wr : Writer) (sp : Fin 8) (dt : Nat) (h : Fin 1024) (v : W32), s.has d = true →
    let x := s.die d
    let y := (s.advance dt).die d
    let free := y.spFree sp && !y.pertOn 3 sp 0
    let g := x.gate sp
    let n := s.fld d R.TQ_GATE_ENTRY_ENTRY sp
    (free = false ∨ y.nextQueue sp = none → exec (.egressSelect d sp dt) s = .next (s.advance dt)) ∧
    (∀ q, y.nextQueue sp = some q → free = true → ∀ p, (x.queue q).pkts.head? = some p → Completes (exec (.egressSelect d sp dt) s) fun r =>
      ((r.die d).queue q).pkts = (x.queue q).pkts.tail ∧
      mget (fun _ => 0) (r.die d).tq.busy (x.queueSp q) = y.clk.now + x.wireTime (x.queueSp q) (p.len + 20) ∧
      (x.flag R.NW_SP_STATUS_LINK (x.queueSp q) = true → p.flow = none → p.tc = none →
        r.outbox = s.outbox ++ [.frame d (x.queueSp q) p.body p.bad] ∧
        r.fld d R.NW_SP_TX_FRAMES (x.queueSp q) = (s.fld d R.NW_SP_TX_FRAMES (x.queueSp q) + 1) % 2 ^ 32) ∧
      (x.flag R.NW_SP_STATUS_LINK (x.queueSp q) = false → r.outbox = s.outbox ∧
        r.fld d R.NW_SP_TX_DISCARD (x.queueSp q) = (s.fld d R.NW_SP_TX_DISCARD (x.queueSp q) + 1) % 2 ^ 32)) ∧
    (s.accepts d wr (0x194000 + 16 * h) v = true → Completes (exec (.shaperRateWrite d wr h v) s) fun r =>
      r.fld d R.TQ_SH_RATE_RATE h = bits v.toNat 28 0 ∧ (r.die d).shaper h = x.shaperNow h) ∧
    (∀ l, x.gateList sp (bits v.toNat 1 0) = some l → s.accepts d wr (0x190104 + 32 * sp) v = true → Completes (exec (.gateSelect d wr sp v) s) fun r =>
      let base := x.gateBase l (s.fld d R.TQ_GATE_BASE_T0 sp) (s.fld d R.TQ_GATE_BASE_T1 sp)
      let start := gateStart base l.cycle (x.gateNow l)
      r.fld d R.TQ_GATE_CFG_PENDING sp = 1 ∧ (r.die d).gate sp = { g with pend := some ⟨bits v.toNat 1 0, base, start.1, start.2⟩ }) ∧
    (∀ p, g.pend = some p → ∀ l, x.gateList sp p.list = some l → ∀ t, x.gateStartDue sp = some t → Completes (exec (.gateListStart d sp) s) fun r =>
      (r.die d).clk.now = max x.clk.now t ∧ (r.die d).gate sp = { g with run := some p.start, base := p.base, pend := none } ∧
      r.fld d R.TQ_GATE_CFG_PENDING sp = 0 ∧ r.fld d R.TQ_GATE_CFG_ACTIVE sp = p.list % 4 ∧ r.fld d R.TQ_GATE_ENTRY_ENTRY sp = 0 ∧
      r.fld d R.TQ_GATE_CFG_GATES sp = (l.entries.map Prod.fst).getD 0 0x1FF % 512 ∧ r.fld d R.TQ_GATE_LATE sp = min p.skipped (2 ^ 32 - 1) ∧
      r.fld d R.TQ_EVENTS_GATE_STARTED = 1) ∧
    (∀ l, x.gateList sp (s.fld d R.TQ_GATE_CFG_ACTIVE sp) = some l → ∀ start, g.run = some start → Completes (exec (.gateEntry d sp) s) fun r =>
      (r.die d).clk.now = max x.clk.now (x.gateInstant l (start + l.endOf n)) ∧
      if l.entries.length ≤ n + 1 then
        r.fld d R.TQ_GATE_ENTRY_ENTRY sp = 0 ∧ r.fld d R.TQ_GATE_CYCLES sp = (s.fld d R.TQ_GATE_CYCLES sp + 1) % 2 ^ 32 ∧
        ((r.die d).gate sp).run = some (start + l.cycle)
      else r.fld d R.TQ_GATE_ENTRY_ENTRY sp = (n + 1) % 256 ∧ r.fld d R.TQ_GATE_CYCLES sp = s.fld d R.TQ_GATE_CYCLES sp ∧
        (r.die d).gate sp = g ∧ r.fld d R.TQ_GATE_CFG_GATES sp = (l.entries.map Prod.fst).getD (n + 1) 0x1FF % 512)

/-- A request that passes the checks is answered once, to its sender, with its TID in quarantine: PING with identity, epoch,
nonce and time; HELLO opens the slot where the nonce is right, else STALE; READ with the register's value; WRITE and MODIFY
write one register where nothing refuses the word, or answer its code and change no register of it; an address outside the
blocks is ADDRESS. (R410, R413, R414, R417, R420, R421, R422, R424, R428, R430.) -/
def Obligations.SilcelRegisters : Prop :=
  ∀ (s : State) (r : DieId) (dt : Nat) (src : Src) (m : Msg), s.has r = true →
    let a := s.advance dt
    let o := a.opened r src m
    let k := m.key.toNat
    let w := msgNum m 0 4
    let x := o.die r
    let fits := oneBlock w 1 && !o.noAddress r w
    let done := fun (t : State) (code : Nat) (p : List Byte) => o.completes t r src m code 0 p = true
    (a.takes r src m = true →
      (m.opcode = 0x01 → m.payload = [] → Completes (exec (.ping r dt src m) s) fun t => done t 0
        (natBE 4 (x.reg 4).toNat ++ natBE 4 (x.fld R.PW_EPOCH) ++ natBE 4 (x.slot' k).nonce.toNat ++ natBE 1 (x.fld R.SM_SLOT_EPOCH_EPOCH k) ++
          natBE 1 (b2n (x.slotOpen k) + 2 * x.fld R.SM_SLOT_EPOCH_VALID k) ++ [0, 0] ++ natBE 4 (x.fld R.SM_SLOT_ALIVE k) ++ natBE 8 (wrapOf x.clk.now)) ∧
        (t.die r).regs = x.regs ∧ x.fld R.SM_REQUESTS = (a.fld r R.SM_REQUESTS + 1) % 2 ^ 32) ∧
      (m.opcode = 0x02 → m.payload.length = 8 → zeros m.payload 4 4 = true → Completes (exec (.hello r dt src m) s) fun t =>
        if w = (x.slot' k).nonce.toNat then done t 0 [] ∧ t.fld r R.SM_SLOT_EPOCH_EPOCH k = m.epoch.toNat ∧ t.fld r R.SM_SLOT_EPOCH_OPEN k = 1 ∧
          t.fld r R.SM_SLOT_EPOCH_VALID k = 1 ∧ t.fld r R.SM_SLOT_ALIVE k = m.alive.toNat ∧ ((t.die r).slot' k).seen = 0 ∧ t.fld r R.SM_EVENTS_EPOCH_SET = 1
        else done t 3 [] ∧ (t.die r).slotOpen k = a.fld r R.SM_SLOT_EPOCH_OPEN k) ∧
      (m.opcode = 0x10 → m.payload.length = 8 → zeros m.payload 6 2 = true → msgNum m 4 2 = 1 → Completes (exec (.read r dt src m) s) fun t =>
        if fits then done t 0 (m.payload ++ natBE 4 (o.readReg r w).toNat) else done t 11 []) ∧
      (m.opcode = 0x11 → m.payload.length = 12 → zeros m.payload 6 2 = true → msgNum m 4 2 = 1 →
        let v := BitVec.ofNat 32 (msgNum m 8 4)
        (oneBlock w 1 = false → Completes (exec (.write r dt src m) s) fun t => done t 11 []) ∧
        (oneBlock w 1 = true → o.writeRefused r .host [(w, v)] = none → Completes (exec (.write r dt src m) s) fun t =>
          let z := o.writeWords r .host [(w, v)]
          z.completes t r src m 0 0 [] = true ∧ (t.die r).regs = (z.die r).regs) ∧
        (oneBlock w 1 = true → ∀ e, o.writeRefused r .host [(w, v)] = some e → Completes (exec (.write r dt src m) s) fun t =>
          done t e.2 [] ∧ t.fld r R.SM_REFUSED = (x.fld R.SM_REFUSED + 1) % 2 ^ 32 ∧ (w / 65536 ≠ 0x1A → (t.die r).reg w = x.reg w))) ∧
      (m.opcode = 0x12 → m.payload.length = 12 →
        let mask := BitVec.ofNat 32 (msgNum m 4 4)
        let v := (o.readReg r w &&& ~~~mask &&& ~~~(w1cMask w)) ||| (BitVec.ofNat 32 (msgNum m 8 4) &&& mask)
        (fits = false → Completes (exec (.modify r dt src m) s) fun t => done t 11 []) ∧
        (fits = true → ∀ e, o.writeRefused r .host [(w, v)] = some e → Completes (exec (.modify r dt src m) s) fun t => done t e.2 []) ∧
        (fits = true → o.writeRefused r .host [(w, v)] = none → Completes (exec (.modify r dt src m) s) fun t =>
          let z := o.writeWords r .host [(w, v)]
          z.completes t r src m 0 0 (natBE 4 (z.readReg r w).toNat) = true ∧ (t.die r).regs = (z.die r).regs)))

/-- IMAGE_OPEN starts a transfer, or answers BUSY while one is open; IMAGE_DATA puts bytes into it, or answers IMAGE where
they reach past its end; IMAGE_CLOSE with a matching CRC hands the image on or starts its flash write, and answers IMAGE else;
FLASH_WRITE_DONE puts the image into the flash and nothing else; a transfer is abandoned 10 s after its last request; an
expired request is answered EXPIRED; a relay's reply is passed on; quarantines end when they are due. (R411, R424, R427, R433,
R566.) -/
def Obligations.SilcelTransfers : Prop :=
  ∀ (s : State) (r : DieId) (dt : Nat) (src : Src) (m : Msg) (adr : Nat), s.has r = true →
    let a := s.advance dt
    let o := a.opened r src m
    let q := (o.die r).sm
    let off := msgNum m 0 4
    let data := m.payload.drop 8
    let done := fun (t : State) (code : Nat) => o.completes t r src m code 0 [] = true
    (a.takes r src m = true →
      (m.opcode = 0x20 → m.payload.length = 12 → zeros m.payload 1 3 = true → msgNum m 0 1 = 2 → 1 ≤ msgNum m 4 4 → msgNum m 4 4 ≤ 65536 →
        Completes (exec (.imageOpen r dt src m) s) fun t => if q.xfer.isSome then done t 6 ∧ (t.die r).sm.xfer = q.xfer
          else done t 0 ∧ (t.die r).sm.xfer = some ⟨2, msgNum m 4 4, msgNum m 8 4, [], a.now, false⟩ ∧ (t.die r).sm.tokenBuf = none) ∧
      (m.opcode = 0x21 → 9 ≤ m.payload.length → zeros m.payload 4 4 = true →
        (q.xfer = none → Completes (exec (.imageData r dt src m) s) fun t => done t 16) ∧
        (∀ v, q.xfer = some v → v.writing = false → Completes (exec (.imageData r dt src m) s) fun t =>
          if v.length < off + data.length then done t 18 ∧ (t.die r).sm.xfer = some { v with lastReq := a.now }
          else done t 0 ∧ (t.die r).sm.xfer = some { v with data := bufWrite v.data off data, lastReq := a.now })) ∧
      (m.opcode = 0x22 → m.payload.length = 4 → ∀ v, q.xfer = some v →
        (v.writing = true → Completes (exec (.imageClose r dt src m) s) fun t => done t 6) ∧
        (v.writing = false → Completes (exec (.imageClose r dt src m) s) fun t =>
          if crc32c (imageBytes v.length v.data) ≠ off then done t 18
          else done t 0 ∧ (v.target = 0 → (t.die r).sm.planBuf = some (v.length, v.data) ∧ (t.die r).sm.xfer = none) ∧
            (v.target = 1 → (t.die r).sm.xfer = some { v with lastReq := a.now, writing := true }) ∧
            (v.target = 2 → (t.die r).sm.tokenBuf = some (v.length, v.data) ∧ (t.die r).sm.xfer = none)))) ∧
    (∀ v, (s.die r).sm.xfer = some v →
      (v.writing = true → Completes (exec (.flashWriteDone r) s) fun t => (t.die r).sm.xfer = none ∧
        mget flashDefault t.pkg.flash adr = if v.offset ≤ adr ∧ adr < v.offset + v.length then (imageBytes v.length v.data).getD (adr - v.offset) 0
          else mget flashDefault s.pkg.flash adr) ∧
      (v.writing = false → Completes (exec (.transferAbandon r) s) fun t => (t.die r).sm.xfer = none ∧ (t.die r).sm.planBuf = (s.die r).sm.planBuf ∧
        t.pkg.flash = s.pkg.flash ∧ t.now = max s.now (v.lastReq + 10 * second))) ∧
    (∀ v, (s.die r).sm.trans = [v] → v.started = false → Completes (exec (.requestExpired r) s) fun t =>
      t.now = max s.now v.expires ∧ (t.die r).sm.trans.filter (fun e => e.key == v.msg.key.toNat && e.tid == v.msg.tid.toNat) = [] ∧
      s.answers t r v.src v.msg 4 0 [] = true ∧ t.fld r R.SM_EXPIRED = (s.fld r R.SM_EXPIRED + 1) % 2 ^ 32) ∧
    (∀ v, (s.die r).sm.returned = [v] → Completes (exec (.relayReply r) s) fun t => (t.die r).sm.returned = [] ∧
      if ((s.die r).trans v.1.key.toNat v.1.tid.toNat).isSome then s.completes t r v.2 v.1 v.1.status.toNat v.1.detail.toNat v.1.payload = true
      else t.outbox = s.outbox) ∧
    (∀ v, (s.die r).sm.quar = [v] → Completes (exec (.quarantineEnd r) s) fun t => (t.die r).sm.quar = [] ∧ t.now = max s.now v.until_)

/-- SUBSCRIBE takes the first free of four subscriptions, or answers BUSY; UNSUBSCRIBE ends those of its slot; one ends 10 s
after its slot's last accepted request; EVENT sends up to 64 entries of the oldest queue to its subscriber and keeps the rest.
A datagram of a wrong length is counted and not answered; one of a wrong form is answered FORM; an opcode not listed is
answered OPCODE. (R412, R428, R430, R434, R435, R437.) -/
def Obligations.SilcelSubscriptions : Prop :=
  ∀ (s : State) (r : DieId) (dt : Nat) (src : Src) (m : Msg), s.has r = true →
    let a := s.advance dt
    let o := a.opened r src m
    let k := m.key.toNat
    let active := fun (t : State) (i : Nat) => t.fld r R.SM_SUB_CFG_ACTIVE i
    let sub := fun (t : State) (i : Nat) => mget (fun _ => ({} : Sub)) (t.die r).sm.subs i
    (a.takes r src m = true →
      (m.opcode = 0x30 → m.payload.length = 8 → zeros m.payload 6 2 = true → msgNum m 0 4 < 2 ^ 23 →
        ((∀ i ∈ List.range 4, active o i = 1) → Completes (exec (.subscribe r dt src m) s) fun t => o.completes t r src m 6 0 [] = true) ∧
        (∀ i, (List.range 4).find? (fun i => decide (active o i = 0)) = some i → Completes (exec (.subscribe r dt src m) s) fun t =>
          o.completes t r src m 0 0 [BitVec.ofNat 8 i, 0, 0, 0] = true ∧ active t i = 1 ∧ t.fld r R.SM_SUB_CFG_KEY i = k ∧
          t.fld r R.SM_SUB_BLOCKS_BLOCKS i = msgNum m 0 4 ∧ t.fld r R.SM_SUB_CFG_DEST_PORT i = msgNum m 4 2 ∧ sub t i = { src := src, rx := r })) ∧
      (m.opcode = 0x31 → m.payload = [] → Completes (exec (.unsubscribe r dt src m) s) fun t => o.completes t r src m 0 0 [] = true ∧
        ∀ i ∈ List.range 4, if (o.die r).subOf i k r then active t i = 0 ∧ sub t i = {} else active t i = active o i) ∧
      (¬ listedOpcodes.contains m.opcode.toNat → m.opcode ≠ 0x60 → Completes (exec (.datagramRefused r dt src m) s) fun t =>
        o.completes t r src m 9 0 [] = true)) ∧
    (a.hears r src = true → m.lengthOk = false → exec (.datagramRefused r dt src m) s = .next (a.count r R.SM_REFUSED)) ∧
    (a.hears r src = true → m.lengthOk = true → m.headerOk = false → Completes (exec (.datagramRefused r dt src m) s) fun t =>
      a.answers t r src m 1 0 [] = true ∧ t.fld r R.SM_REFUSED = (a.fld r R.SM_REFUSED + 1) % 2 ^ 32 ∧ (t.die r).sm.trans = (a.die r).sm.trans) ∧
    (∀ i, (List.range 4).filter (fun i => (s.die r).flag R.SM_SUB_CFG_ACTIVE i) = [i] →
      Completes (exec (.subscriptionExpiry r) s) fun t => t.now = max s.now (s.subEnd r i) ∧ active t i = 0 ∧ sub t i = {}) ∧
    (∀ i, (List.range 4).filter (fun i => !(sub s i).queue.isEmpty) = [i] → Completes (exec (.event r) s) fun t =>
      let q := sub s i
      let l := q.queue.take 64
      sub t i = { q with queue := q.queue.drop 64, dropped := false } ∧ t.fld r R.SM_SUB_POSTS i = (s.fld r R.SM_SUB_POSTS i + l.length) % 2 ^ 32 ∧
      t.outbox.length = s.outbox.length + 1 ∧ t.now = max s.now ((q.queue.head?.map Post.at_).getD 0 + msec) ∧
      (match t.outbox.getLast? with
        | some (.silcel d to_ p) => d == q.rx && to_ == { q.src with port := BitVec.ofNat 16 (s.fld r R.SM_SUB_CFG_DEST_PORT i) } &&
            p.opcode == 0x40 && p.post && !p.response && p.payload == l.flatMap Post.bytes && p.detail == BitVec.ofNat 16 (b2n q.dropped)
        | _ => false) = true)

/-- A slave port whose clocks stop is in CLOCK_LOSS until 64 good sample periods have passed; a member whose first missing
sample passes its deadline is muted, and each of its channels delivers sample 0, concealed, from the next sample on; a
converter locks after 1 s; a sample period, which a master has at its next grid position and a slave when its clocks say so,
counts an edge and a good period, and sends one word for each slot, 0 while the clock is lost. (R443, R445, R446, R447, R448,
R449, R450, R457, R458.) -/
def Obligations.AudioClocks : Prop :=
  ∀ (s : State) (d : DieId) (p : Fin 16) (g : Fin 256) (m : Fin 16) (u : Fin 32) (dt ch : Nat) (k : Int) (ok : Bool) (ratio : W32) (rx : List W32), s.has d = true →
    let x := s.die d
    let q := x.auPort p
    let lost := x.flag R.AU_P_STATUS_CLOCK_LOSS p
    (x.auSlave p = true → lost = false → Completes (exec (.clockLoss d p dt) s) fun r =>
      r.fld d R.AU_P_STATUS_CLOCK_LOSS p = 1 ∧ r.fld d R.AU_P_STATUS_CLOCK_OK p = 0 ∧ r.fld d R.AU_P_EVENTS_CLOCK_LOSS p = 1 ∧
      r.fld d R.AU_EVENTS_CLOCK_LOSS = 1 ∧ ((r.die d).auPort p).good = 0) ∧
    (lost = true → 64 ≤ q.good → Completes (exec (.clockBack d p) s) fun r =>
      r.fld d R.AU_P_STATUS_CLOCK_LOSS p = 0 ∧ r.fld d R.AU_P_STATUS_CLOCK_OK p = 1 ∧ r.fld d R.AU_P_EVENTS_CLOCK_BACK p = 1) ∧
    (q.good < 64 → exec (.clockBack d p) s = .next s) ∧
    (∀ r, x.auRef g m = some r → ∀ t, x.auDue r = some t → x.auBad g m = false → Completes (exec (.audioUnderrun d g m) s) fun z =>
      let y := z.die d
      y.clk.now = max x.clk.now t ∧ y.auBad g m = true ∧ z.fld d R.AU_GRP_UNDERRUNS g = (s.fld d R.AU_GRP_UNDERRUNS g + 1) % 2 ^ 32 ∧
      z.fld d R.AU_EVENTS_UNDERRUN = 1 ∧ (auAt (x.auFs g) y.clk.now < k → (y.auMember g m).word ch k = auWord 0 true) ∧
      (r.kind = 0 → z.fld d R.AU_P_STATUS_MUTED r.inst = 1)) ∧
    (∀ h, (x.asrc u).held = some h → x.asrcTracks u = true → Completes (exec (.asrcLock d u) s) fun r =>
      r.fld d R.AU_ASRC_CFG_LOCK u = 1 ∧ r.now = max s.now (h.2 + second)) ∧
    (x.auUsed p = true → x.pertOn 9 p 0 = false → Completes (exec (.samplePeriod d p dt ok ratio rx) s) fun r =>
      let now := ((s.sampleAt d p dt).die d).clk.now
      let y := (r.die d).auPort p
      y.edges = (q.edges.1 + 1, if q.edges.1 = 0 then now else q.edges.2.1, now) ∧ y.good = (if ok then min 64 (q.good + 1) else 0) ∧
      r.fld d R.AU_P_STATUS_CLOCK_OK p = (if lost then x.fld R.AU_P_STATUS_CLOCK_OK p else b2n ok) ∧
      (x.flag R.AU_P_CFG_TX_USED p = false → r.outbox = s.outbox) ∧
      (x.flag R.AU_P_CFG_TX_USED p = true → r.outbox.length = s.outbox.length + 1 ∧
        (lost = true → r.outbox = s.outbox ++ [.audio d p (List.replicate (x.fld R.AU_P_CFG_SLOTS p + 1) (some 0))])))

/-- A sample outside the sensor's range is dropped and counted; one above 85 degrees makes its layer's regions hot; one below
83 lets them cool at their next interval. Each interval raises a region's refresh debt by 1; beyond the ceiling the device
refreshes and reports a breach of its side. A reserve run refreshes once, or serves a neighbour refresh, or is idle. (R468,
R474, R475, R477, R478, R480.) -/
def Obligations.DramRefresh : Prop :=
  ∀ (s : State) (d : DieId) (dt : Nat) (l : Fin 4) (v : BitVec 16) (rg : Fin 16), s.has d = true →
    let x := s.die d
    let k := mget (fun _ => (0, 0)) x.dram.sensor l
    let faulted := mget (fun _ => false) x.dram.sensorHot l
    let wild := decide (v.toInt < -640 ∨ 2400 < v.toInt)
    let mine := layerRegions l
    let cools := fun (z : State) (r : Nat) => mget (fun _ => false) (z.die d).dram.coolNext r
    let debt := x.debt rg
    let hot := x.hot rg
    let one := debt + 1
    let served := fun (z : State) => (z.die d).debt rg = debt - 1 ∧ z.fld d R.MC_REG_REFRESHES rg = (s.fld d R.MC_REG_REFRESHES rg + 1) % 2 ^ 32
    (wild = true → Completes (exec (.dramTempSample d dt l v) s) fun z =>
      z.fld d R.MC_SENSOR_DROPS = (s.fld d R.MC_SENSOR_DROPS + 1) % 2 ^ 32 ∧ z.fld d R.MC_TEMP_TEMP l = s.fld d R.MC_TEMP_TEMP l ∧
      (k.1 = 2 → faulted = false → z.fld d R.MC_STATUS_SENSOR_FAULT = 1 ∧ z.fld d R.MC_EVENTS_SENSOR_FAULT = 1 ∧ ∀ r ∈ mine, (z.die d).hot r = true)) ∧
    (wild = false → Completes (exec (.dramTempSample d dt l v) s) fun z =>
      z.fld d R.MC_TEMP_TEMP l = v.toNat ∧ z.fld d R.MC_SENSOR_DROPS = s.fld d R.MC_SENSOR_DROPS ∧
      (1360 < v.toInt → ∀ r ∈ mine, (z.die d).hot r = true ∧ cools z r = false) ∧
      (v.toInt < 1328 → faulted = false → ∀ r ∈ mine, (z.die d).hot r = x.hot r ∧ (x.hot r = true → cools z r = true)) ∧
      (1680 < v.toInt → z.fld d R.MC_STATUS_OVER_LIMIT = 1 ∧ z.fld d R.MC_EVENTS_OVER_LIMIT = 1)) ∧
    (Completes (exec (.refreshInterval d rg) s) fun z => (z.die d).clk.now = max x.clk.now (x.intervalEnd rg) ∧
      (z.die d).intervalEnd rg = (z.die d).clk.now + refreshInterval ((z.die d).hot rg)) ∧
    (hot = false ∨ cools s rg = false → debt < 127 → Completes (exec (.refreshInterval d rg) s) fun z => (z.die d).hot rg = hot ∧
      if one ≤ x.debtCeiling rg then (z.die d).debt rg = one ∧ z.fld d R.MC_BREACH_COUNT = s.fld d R.MC_BREACH_COUNT
      else (z.die d).debt rg = debt ∧ (x.flag R.MC_REG_STATE_SELF rg = false → z.fld d R.MC_BREACH_COUNT = (s.fld d R.MC_BREACH_COUNT + 1) % 2 ^ 32 ∧
        z.fld d R.MC_BREACH_REGION = rg ∧ z.fld d R.PL_BREACH_KIND = 1 ∧ z.fld d R.PL_BREACH_SIDE = 0)) ∧
    (hot = true → cools s rg = true → halveDebt one ≤ 8 → Completes (exec (.refreshInterval d rg) s) fun z => (z.die d).hot rg = false ∧
      (z.die d).debt rg = halveDebt one ∧ (z.die d).catchup rg = false ∧ z.fld d R.MC_EVENTS_COOL = 1) ∧
    (if -pullIn hot < debt then Completes (exec (.reserveRun d rg .refresh) s) served else exec (.reserveRun d rg .refresh) s = .next s) ∧
    (hot = true → 4 < debt → Completes (exec (.reserveRun d rg .thermal) s) served) ∧
    (x.neighbours rg = [] → exec (.reserveRun d rg .hammer) s = .next s) ∧
    (∀ n, (x.neighbours rg).head? = some n → Completes (exec (.reserveRun d rg .hammer) s) fun z =>
      (z.die d).neighbours rg = (x.neighbours rg).tail ∧ z.fld d R.MC_REG_NEIGHBOURS rg = (s.fld d R.MC_REG_NEIGHBOURS rg + 1) % 2 ^ 32)

/-- A slot of a link that is up sends one record: TIMING after a mark, else what its class has to send. An arriving record
leaves the wire; one whose CRC fails is counted and does nothing. Check values of one slice are compared; a value that meets
none within 64 lines is unchecked. A fragment without acknowledgement is sent again three times. Training with a delay of at
most 40 ns brings the link up; a link that goes down loses what is on its way and moves its lease items to the whey line.
(R532, R533, R534, R535, R546, R547, R548, R553, R558.) -/
def Obligations.LinkRecords : Prop :=
  ∀ (s : State) (d : DieId) (dt delay : Nat) (ok : Bool) (line : Int) (pl : PicLine), s.dual = true →
    let a := s.advance dt
    let x := s.die d
    let z := a.die d
    let wire := (s.die (peer d)).mr.flight
    let left := fun (r : State) => (r.die (peer d)).mr.flight = wire.tail
    let plus := fun (r : State) (f : Fld) => r.fld d f = (s.fld d f + 1) % 2 ^ (f.hi - f.lo + 1)
    let lost := fun (o : Result) => Completes o fun r => left r ∧ plus r R.MR_REC_ERR ∧ (r.die d).mr = x.mr
    (x.linkUp = false → exec (.rotationSlot d dt) s = .next a) ∧
    (x.linkUp = true → x.muted 0 = false → Completes (exec (.rotationSlot d dt) s) fun r =>
      let q := (r.die d).mr
      r.outbox.length = s.outbox.length + 1 ∧ q.slots = x.mr.slots + 1 ∧ q.flight.take x.mr.flight.length = x.mr.flight ∧
      let out := q.flight.drop x.mr.flight.length
      out.length = 1 ∧
      (x.mr.mark < z.clk.now / usec → out = [.timing z.clk.now (z.clk.servo.state == .free || z.clk.servo.state == .freerun, !z.clk.causes.isEmpty)]) ∧
      (z.clk.now / usec ≤ x.mr.mark → x.mr.slots % 8 = 0 → x.mr.leaseQ ≠ [] → out = [.lease (x.mr.leaseQ.take 4)] ∧ q.leaseQ = x.mr.leaseQ.drop 4) ∧
      (z.clk.now / usec ≤ x.mr.mark → x.mr.slots % 4 ≠ 0 → x.mr.checkQ ≠ [] → out = [.check (x.mr.checkQ.take 3)] ∧ q.checkQ = x.mr.checkQ.drop 3)) ∧
    (∀ e, wire.head? = some e →
      (x.linkUp = true → (e.cls = 0 → lost (exec (.idleRecord d dt false) s)) ∧ (e.cls = 1 → lost (exec (.timingRecord d dt false) s)) ∧
        (e.cls = 3 → lost (exec (.checkRecord d dt false) s)) ∧ (e.cls = 4 → lost (exec (.controlRecord d dt false) s)) ∧
        (e.cls = 5 → lost (exec (.planRecord d dt false) s))) ∧
      (e = .idle → Completes (exec (.idleRecord d dt true) s) fun r => left r ∧ r.die d = z) ∧
      (e.cls = 1 → x.linkUp = true → Completes (exec (.timingRecord d dt true) s) fun r => left r ∧
        ∀ t, e.time? = some t → r.fld d R.MR_LINK_OFFSET =
          unsgn 16 (max (-32768) (min 32767 (((t : Int) - z.clk.now) / 4096 + s.fld d R.MR_LINK_DELAY)))) ∧
      (x.linkUp = true → ∀ p ∈ List.range 8, e = .plan (.snapshot p) 0 true → Completes (exec (.planRecord d dt true) s) fun r => left r ∧ ((r.die d).pail p).snap.1 = true) ∧
      (x.linkUp = true → ∀ c, e.chk? = some c → c.chan < 256 → Completes (exec (.checkRecord d dt true) s) fun r => left r ∧
        (x.mr.own.find? c.same = none → (r.die d).mr.theirs = c :: x.mr.theirs.take 4095) ∧
        (∀ o, x.mr.own.find? c.same = some o → (o.crc = c.crc → plus r R.MR_MATCHED) ∧ (o.crc ≠ c.crc → plus r R.MR_DIVERGED ∧ r.fld d R.MR_EC_DIVERGED c.chan = 1))) ∧
      (x.linkUp = true → ∀ c, e.rap? = some c → c.2 < 256 → c.1 ∉ x.mr.gotDone →
        Completes (exec (.controlRecord d dt true) s) fun r => left r ∧ (r.die d).mr.acks = x.mr.acks ++ [(c.1, 0)] ∧ r.fld d R.EN_STATUS_RAP_PENDING c.2 = 1)) ∧
    (∀ m, x.mr.ctlQ = [m] → ∀ w, m.wait = [w] → 4 ≤ w.2.2 → (match m.msg with | .taken _ => false | _ => true) = true → Completes (exec (.controlResend d) s) fun r =>
      (r.die d).mr.ctlQ = if w.2.1 < 3 then [{ m with wait := [], again := m.again ++ [(w.1, w.2.1 + 1)] }] else []) ∧
    (∀ c, x.mr.own.head? = some c → ∀ t, x.uncheckedAt c = some t → Completes (exec (.unchecked d) s) fun r =>
      (r.die d).clk.now = max x.clk.now t ∧ (r.die d).mr.own = x.mr.own.tail ∧ plus r R.MR_UNCHECKED) ∧
    (x.linkUp = false → (640 < delay → exec (.linkTrained d dt delay) s = .next a) ∧
      (delay ≤ 640 → Completes (exec (.linkTrained d dt delay) s) fun r => (r.die d).linkUp = true ∧ r.fld d R.MR_STATUS_TRAINING = 0 ∧
        r.fld d R.MR_LINK_DELAY = delay ∧ (r.die d).mr.slots = 0 ∧ r.fld d R.MR_EVENTS_LINK_UP = 1)) ∧
    (x.linkUp = true → x.muted 1 = false → Completes (exec (.mrLinkDown d dt) s) fun r => (r.die d).linkUp = false ∧ r.fld d R.MR_STATUS_TRAINING = 1 ∧
      (r.die (peer d)).mr.flight = [] ∧ plus r R.MR_LINK_DOWNS ∧ (r.die d).mr.leaseQ = [] ∧ (r.die d).mr.items = x.mr.items ++ x.mr.leaseQ) ∧
    exec (.streamSlot d dt line ok pl) s = .next { (if ok && x.linkUp && x.xsReceives d then a.lineIn d ⟨true, 1024⟩ line pl else a) with pending := s.pending }

/-- On the whey line RENEW moves a standby's view and is acknowledged, ACK moves the holder's expiry, HANDOVER tells the
standby its line, and an item that fails its check is counted. The holder becomes EXPIRED at its expiry; the standby takes the
pail at its view plus GUARD; a handover changes roles at its line; SEIZE makes the die HOLDER; a die that was EXPIRED starts
rejoining at RESYNC_START. Heartbeats keep the whey line up. (R536, R537, R540, R541, R543, R544, R553, R554, R555.) -/
def Obligations.PailLease : Prop :=
  ∀ (s : State) (d : DieId) (wr : Writer) (p : Fin 8) (dt : Nat), s.dual = true →
    let x := s.die d
    let z := (s.advance dt).die d
    let v := x.pail p
    let role := x.role p
    let plus := fun (r : State) (f : Fld) => r.fld d f = (s.fld d f + 1) % 2 ^ (f.hi - f.lo + 1)
    let plusP := fun (r : State) (f : Fld) => r.fld d f p = (s.fld d f p + 1) % 2 ^ (f.hi - f.lo + 1)
    let isRole := fun (r : State) (n : Nat) => (r.die d).role p = n ∧ r.fld d R.MR_STATUS_HOLDER / 2 ^ p.val % 2 = b2n (decide (n = 1))
    let takes := fun (r : State) => isRole r 1 ∧ r.fld d R.MR_PAIL_STATE_UNCOND p = 1 ∧ plusP r R.MR_PAIL_TAKES ∧ r.fld d R.MR_EVENTS_TAKE = 1
    (∀ i, (s.die (peer d)).mr.items.head? = some i → (s.die (peer d)).mr.flight = [] → i.pail = p →
      let line := z.nearLine p i.line
      let popped := fun (r : State) => (r.die (peer d)).mr.items = (s.die (peer d)).mr.items.tail
      let lost := fun (o : Result) => Completes o fun r => popped r ∧ plus r R.MR_WHEY_ERR ∧ (r.die d).mr = x.mr ∧ (r.die d).role p = role
      (i.ty = 1 → lost (exec (.renew d dt false) s)) ∧ (i.ty = 2 → lost (exec (.ack d dt false) s)) ∧
      (i.ty = 3 → lost (exec (.handoverItem d dt false) s)) ∧
      (i.ty = 1 → role = 2 ∨ role = 3 → x.diverged p = false → Completes (exec (.renew d dt true) s) fun r => popped r ∧
        ((r.die d).pail p).limit = line + x.lease p ∧ (r.die d).role p = 2 ∧ (r.die d).mr.lastItem = r.now ∧
        (x.linkUp = true → (r.die d).mr.leaseQ = x.mr.leaseQ ++ [⟨2, p, i.seq, i.line, 0⟩])) ∧
      (i.ty = 2 → role = 1 → Completes (exec (.ack d dt true) s) fun r => popped r ∧ ((r.die d).pail p).limit = line + x.lease p ∧
        r.fld d R.MR_PAIL_STATE_UNCOND p = 0 ∧ (r.die d).role p = 1) ∧
      (i.ty = 3 → role = 2 → Completes (exec (.handoverItem d dt true) s) fun r => popped r ∧ ((r.die d).pail p).ho = some line ∧ (r.die d).role p = 2)) ∧
    (1 ≤ (s.die (peer d)).mr.beats.2 →
      Completes (exec (.heartbeat d dt true) s) (fun r => r.fld d R.MR_STATUS_WHEY_UP = 1 ∧ (r.die d).mr.heard = some r.now ∧
        (s.fld d R.MR_STATUS_WHEY_UP = 0 → r.fld d R.MR_EVENTS_WHEY_BACK = 1)) ∧
      Completes (exec (.heartbeat d dt false) s) fun r => plus r R.MR_WHEY_ERR ∧ (r.die d).mr = x.mr) ∧
    (Completes (exec (.heartbeatSend d) s) fun r =>
      let t := max x.mr.beatAt x.clk.now
      (r.die d).clk.now = t ∧ (r.die d).mr.beatAt = t + 10 * usec ∧ r.outbox.length = s.outbox.length + b2n (!((r.die d).muted 1))) ∧
    (∀ t, x.mr.heard = some t → Completes (exec (.wheyLost d) s) fun r => r.now = max s.now (t + 30 * usec) ∧ r.fld d R.MR_STATUS_WHEY_UP = 0 ∧
      (r.die d).mr.heard = none ∧ (s.fld d R.MR_STATUS_WHEY_UP = 1 → r.fld d R.MR_EVENTS_WHEY_LOST = 1)) ∧
    (∀ t, x.pailInstant p v.limit = some t → role = 1 → s.fld d R.MR_PAIL_STATE_UNCOND p = 0 → v.ho = none → Completes (exec (.leaseExpiry d p) s) fun r =>
      isRole r 3 ∧ (r.die d).clk.now = max x.clk.now t ∧ r.fld d R.MR_EVENTS_EXPIRED = 1) ∧
    (∀ t, x.pailInstant p (v.limit + s.fld d R.MR_PAIL_CFG_GUARD p) = some t → role = 2 → v.ho = none → Completes (exec (.pailTake d p) s) fun r =>
      takes r ∧ (r.die d).clk.now = max x.clk.now t) ∧
    (s.accepts d wr 0x200008 (BitVec.ofNat 32 (8 + p)) = true → (x.grid p).isSome = true → v.ho = none → Completes (exec (.handover d wr p) s) fun r =>
      (r.die d).role p = 1 ∧ ((r.die d).pail p).ho = some ((x.cad p).next + 2) ∧ ((r.die d).pail p).seq = (v.seq + 1) % 256) ∧
    (∀ h, v.ho = some h → ∀ t, x.pailInstant p h = some t → role = 1 ∨ role = 2 → Completes (exec (.handoverLine d p) s) fun r =>
      isRole r (3 - role) ∧ ((r.die d).pail p).ho = none ∧ plusP r R.MR_PAIL_HANDOVERS ∧ (r.die d).clk.now = max x.clk.now t ∧
      ((r.die d).pail p).limit = h + x.lease p) ∧
    (s.accepts d wr 0x200008 (BitVec.ofNat 32 (16 + p)) = true → (x.grid p).isSome = true → Completes (exec (.seize d wr p) s) takes) ∧
    (s.planRuns = true → x.pailUsed p = true → x.linkUp = true → role = 0 ∨ role = 3 → Completes (exec (.resyncStart d p) s) fun r =>
      isRole r 4 ∧ ∀ n ∈ x.inStepOn p, r.fld d R.MR_EC_RESYNCING n = 1)

/-- A warning is declared once, with its event, and seen by plans; recovery ends it and leaves its length. Samples of VIN in
range move VIN and its least value and every sample adds energy. PW_WARN_CFG is compared with VIN as it is written. SNAP
latches the energies. The states change by STATE_IDLE, STATE_STANDBY, STATE_DRY and WAKE, and end in STATE_CHANGE_DONE with
what each of them loses. An over-drawn block is a breach. (R610, R613, R614, R615, R617, R620, R628, R629, R630, R634, R635.)
-/
def Obligations.SupplyAndStates : Prop :=
  ∀ (s : State) (d : DieId) (wr : Writer) (dt mw : Nat) (mv : Int) (energy : List Nat) (dom blk : Fin 6) (v : W32), s.has d = true →
    let a := s.advance dt
    let x := a.die d
    let plus := fun (r : State) (i : DieId) (f : Fld) => r.fld i f = (s.fld i f + 1) % 2 ^ (f.hi - f.lo + 1)
    let same := fun (r : State) => r = a
    let st := s.fld 0 R.PW_STATUS_STATE
    let shows := fun (r : State) (n c : Nat) => ∀ i ∈ [(0 : DieId), 1], s.has i = true → r.fld i R.PW_STATUS_STATE = n ∧ r.fld i R.PW_STATUS_CHANGING = c
    let starts := fun (n : Nat) (r : State) => if n = st then r.pkg.supply = s.pkg.supply
      else r.pkg.supply = { s.pkg.supply with change := some n } ∧ shows r (if n = 3 then 3 else st) 1
    let min := s.fld d R.PW_VIN_MIN_MV
    (Completes (exec (.supplyWarn d dt) s) fun r => if s.fld d R.PW_STATUS_WARN = 1 then same r
      else r.fld d R.PW_STATUS_WARN = 1 ∧ plus r d R.PW_WARNS ∧ (r.die d).pw.warnAt = a.now ∧ r.fld d R.PW_EVENTS_SUPPLY_WARN = 1 ∧ r.pkg.plans.brownDue = true) ∧
    (Completes (exec (.supplyOk d dt) s) fun r => if s.fld d R.PW_STATUS_WARN = 0 then same r
      else r.fld d R.PW_STATUS_WARN = 0 ∧ r.fld d R.PW_DIP = Nat.min ((a.now - x.pw.warnAt) / usec) (2 ^ 32 - 1) ∧ r.fld d R.PW_EVENTS_SUPPLY_OK = 1) ∧
    (Completes (exec (.ovWarn d dt) s) fun r => if s.fld d R.PW_STATUS_OV_WARN = 1 then same r
      else r.fld d R.PW_STATUS_OV_WARN = 1 ∧ r.fld d R.PW_EVENTS_OV_WARN = 1) ∧
    (Completes (exec (.ovOk d dt) s) fun r => if s.fld d R.PW_STATUS_OV_WARN = 0 then same r
      else r.fld d R.PW_STATUS_OV_WARN = 0 ∧ r.fld d R.PW_EVENTS_OV_OK = 1) ∧
    (Completes (exec (.regLimit d dt dom true) s) fun r => if (x.pw.limit.any fun e => e.1 == dom.val + 1) = true then same r
      else (r.die d).pw.limit = x.pw.limit ++ [(dom.val + 1, a.now)] ∧ r.fld d R.PW_EVENTS_REG_LIMIT = 1) ∧
    (Completes (exec (.regLimit d dt dom false) s) fun r =>
      (r.die d).pw.limit = x.pw.limit.filter (fun e => e.1 != dom.val + 1) ∧ (r.die d).regs = x.regs) ∧
    (Completes (exec (.vinSample d dt mv energy) s) fun r =>
      (∀ i ∈ List.range 7, mget (fun _ => 0) (r.die d).pw.energy i = (mget (fun _ => 0) x.pw.energy i + energy.getD i 0) % (1000 * 2 ^ 64)) ∧
      if 0 ≤ mv ∧ mv ≤ 7000 then r.fld d R.PW_VIN_MV = mv ∧ r.fld d R.PW_VIN_MIN_MV = (if x.pw.minFresh = true ∨ mv < min then mv.toNat else min)
        ∧ (r.die d).pw.minFresh = false
      else plus r d R.PW_VIN_DROPS ∧ r.fld d R.PW_VIN_MV = s.fld d R.PW_VIN_MV ∧ r.fld d R.PW_VIN_MIN_MV = min) ∧
    (s.accepts d wr 0x1001C v = true → Completes (exec (.warnCfgWrite d wr v) s) fun r =>
      let vin := s.fld d R.PW_VIN_MV
      let level := 2550 + 10 * bits v.toNat 3 0
      let known := !(s.die d).pw.minFresh || vin != 0
      r.fld d R.PW_WARN_CFG_LEVEL = bits v.toNat 3 0 ∧ r.fld d R.PW_STATUS_WARN =
        if known = true ∧ vin < level then 1 else if known = true ∧ level + 40 < vin then 0 else s.fld d R.PW_STATUS_WARN) ∧
    (s.accepts d wr 0x10008 4 = true → Completes (exec (.pwSnap d wr) s) fun r => (r.die d).pw.minFresh = true ∧
      ∀ i ∈ List.range 7, let e := mget (fun _ => 0) (s.die d).pw.energy i / 1000
        r.fld d R.PW_E_LO i = e % 2 ^ 32 ∧ r.fld d R.PW_E_HI i = e / 2 ^ 32 % 2 ^ 32) ∧
    (Completes (exec (.powerOver d dt blk mw) s) fun r => if s.planRuns = true ∧ a.declared d blk * 105 < mw * 100 then
      plus r d R.PL_BREACH_COUNT ∧ r.fld d R.PL_BREACH_KIND = 6 ∧ r.fld d R.PL_BREACH_SIDE = 1 ∧ r.fld d R.PL_EVENTS_BREACH = 1 else same r) ∧
    (s.accepts d wr 0x10008 1 = true → Completes (exec (.stateIdle d wr) s) (starts 1)) ∧
    (s.accepts d wr 0x10008 2 = true → Completes (exec (.stateStandby d wr) s) (starts 2)) ∧
    (s.accepts d wr 0x10008 3 = true → Completes (exec (.stateDry d wr) s) (starts 3)) ∧
    (Completes (exec (.wake dt) s) fun r => if s.pkg.supply.change.isSome = true then same r
      else if s.pkg.supply.dry = true then r.pkg.supply = ⟨some 1, true⟩ ∧ shows r 3 1 ∧ r.die0.pw.phase = .released ∧ plus r 0 R.PW_EPOCH
      else if st = 2 then r.pkg.supply = ⟨some 1, false⟩ ∧ shows r 2 1 else same r) ∧
    (Completes (exec (.stateChangeDone dt) s) fun r =>
      let c := s.pkg.supply.change
      (c = none → same r) ∧
      (c = some 1 → if s.pkg.supply.dry = true ∧ s.die0.pw.phase ≠ .ready then same r else r.pkg.supply = {} ∧ shows r 1 0 ∧ r.fld 0 R.PW_EVENTS_STATE = 1) ∧
      (c = some 2 → r.pkg.supply = {} ∧ shows r 2 0 ∧ r.fld 0 R.PW_EVENTS_STATE = 1 ∧
        ∀ k ∈ List.range 512, r.fld 0 R.LN_STATUS_RX_NOW k = 0 ∧ r.fld 0 R.LN_STATUS_TX_NOW k = 0 ∧ (r.die0.lane k).presets = []) ∧
      (c = some 3 → r.pkg.supply = ⟨none, true⟩ ∧ shows r 3 0 ∧ r.die0.pw.phase = .held ∧ r.die0.live = [] ∧ r.pkg.fw = none ∧
        r.die0.dram.cells = s.die0.dram.cells.filter fun e => bit (s.fld 0 R.MC_PASR_RETAIN) (dramRegion e.1)))

/-- Power-on, pin, over-voltage and brown-out resets wipe every die and leave flash and fuses; a held package is released;
regulator, watchdog, thermal and host resets wipe a die with their cause; a RESET request is answered first and its reset
follows 100 us later; a plan reset drops what waits; the watchdog is restarted by its command; a die that has cooled is up
again; a restarted die has no pail role. (R553, R610, R617, R618, R621, R622, R623, R624, R625, R626, R627, R662.) -/
def Obligations.ResetsAndRestarts : Prop :=
  ∀ (s : State) (d : DieId) (wr : Writer) (dt kept : Nat) (sent : Bool) (src : Src) (m : Msg), s.has d = true →
    let a := s.advance dt
    let x := s.die d
    let up : Phase := if d = 0 then .released else .held
    let o := a.opened d src m
    let cold := s.fld 0 R.PW_LAST_RESET_KIND = 0 ∧ s.die0.tooCold = true
    (Completes (exec (.powerOn dt) s) (fun r => s.packageWiped r 0 0 = true) ∧
      Completes (exec (.brownOut dt kept) s) (fun r => s.packageWiped r 1 0 = true ∧ r.pkg.hb.pend = []) ∧
      Completes (exec (.pinReset dt) s) (fun r => s.packageWiped r 2 0 = true) ∧
      Completes (exec (.overvoltShutdown dt) s) fun r => s.packageWiped r 1 16 = true) ∧
    (Completes (exec (.resetRelease dt) s) fun r => if s.die0.pw.phase ≠ .held ∨ s.die0.heat.shut = true ∨ cold then r = a
      else r.die0.pw.phase = .released ∧ r.die1.pw.phase = s.die1.pw.phase ∧
        (s.fld 0 R.PW_LAST_RESET_KIND = 0 → r.fld 0 R.HB_CYCLES_CYCLES = ((s.pkg.hb.recs.getLast?.map fun e => e.cycles).getD 0 + 1) % 2 ^ 24 ∧
          r.fld 0 R.PW_EPOCH = r.fld 0 R.HB_CYCLES_CYCLES * 65536 % 2 ^ 32)) ∧
    (∀ l, x.pw.limit.head? = some l → l.1 < 8 → Completes (exec (.regulatorReset d) s) fun r => s.wiped r d 5 (32 + 64 * l.1) up = true ∧
      r.now = max s.now (l.2 + 10 * msec) ∧ (s.dual = false → r.pkg.plans.running = none)) ∧
    (s.accepts d wr 0x10008 8 = true → Completes (exec (.watchdogKick d wr) s) fun r => (r.die d).pw = { x.pw with kickAt := s.now } ∧ r.pkg = s.pkg) ∧
    (Completes (exec (.watchdogExpiry d) s) fun r => if x.pw.phase ≠ .ready ∨ 2 ≤ s.fld d R.PW_STATUS_STATE then r = s
      else s.wiped r d 3 0 up = true ∧ r.now = max s.now (x.pw.kickAt + s.fld d R.PW_WDOG_TIMEOUT * msec)) ∧
    (∀ i ∈ List.range 13, 3 ≤ (x.sensor i).above → x.heat.shut = false → Completes (exec (.thermalShutdown d sent) s) fun r =>
      s.wiped r d 5 0 .held = true ∧ (r.die d).heat.shut = true ∧ r.fld d R.SY_TJ_SUP_TEMP = s.fld d R.SY_TJ_SUP_TEMP) ∧
    (∀ t, x.heat.coolSince = some t → x.heat.shut = true → s.fld d R.PW_STATUS_WARN = 0 → s.fld d R.PW_STATUS_OV_WARN = 0 →
      Completes (exec (.thermalRestart d) s) fun r => (r.die d).heat.shut = false ∧ (r.die d).pw.phase = up ∧ r.now = max s.now (t + 10 * second)) ∧
    (a.takes d src m = true → m.payload.length = 4 →
      let replied := fun (r : State) => a.answersFirst r d src m 0 0 [] = true
      let kind := msgNum m 0 1
      let t := msgNum m 1 1
      let k := msgNum m 2 2
      (kind = 0 → m.opcode = 0x60 → Completes (exec (.resetPowerOn d dt src m) s) fun r => replied r ∧ s.packageWiped r 0 8 = true ∧ r.now = a.now + 100 * usec) ∧
      (kind = 4 → m.opcode = 0x60 → Completes (exec (.resetHostFull d dt src m) s) fun r => replied r ∧ s.packageWiped r 4 8 = true) ∧
      (kind = 5 → m.opcode = 0x60 → Completes (exec (.resetDie d dt src m) s) fun r =>
        (t = 0 → replied r ∧ o.wiped r 0 5 8 .released = true) ∧ (t = 1 → s.dual = true → replied r ∧ o.wiped r 1 5 8 .held = true) ∧
        (t = 1 → s.dual = false → o.completes r d src m 7 0 [] = true) ∧ (1 < t → o.completes r d src m 10 0 [] = true)) ∧
      (kind = 6 → m.opcode = 0x60 → Completes (exec (.resetPlan d dt src m) s) fun r => replied r ∧ r.pkg.plans.pend = none ∧ r.pkg.plans.request = none ∧
        r.pkg.plans.job = none ∧ (r.die0.reg (fldAddr R.PW_LAST_RESET_KIND 0 0)).toNat = 14 ∧ (s.planRuns = false → r.pkg.plans.stopping = [])) ∧
      (kind = 7 → m.opcode = 0x60 → Completes (exec (.resetLane d dt src m) s) fun r =>
        let e : DieId := Fin.ofNat 2 (k / 512)
        let there := decide (k < (if s.dual = true then 1024 else 512)) && o.claimed e .ln (k % 512)
        if there = true then replied r ∧ ((r.die e).lane (k % 512)).presets = [] ∧ (r.die e).reg (fldAddr R.PW_LAST_RESET_KIND 0 0) = 15
        else o.completes r d src m 13 0 [] = true)) ∧
    (∀ p, s.pkg.plans.running = some p →
      let again := s.dual && decide (x.pw.phase = .ready ∧ x.linkUp = true ∧ x.live = []) && !(p.on d).isEmpty
      let here := (decide (d = 0) && !p.buffered) || x.mr.sections == some p
      Completes (exec (.dieRestart d dt) s) fun r => (again = false → r = a) ∧ (again = true → here = false → (r.die d).live = [] ∧ r.pkg = a.pkg) ∧
        (again = true → here = true → (∀ c ∈ p.cads d, (r.die d).role c = 0) ∧ r.pkg.plans.running = some p))

/-- A sample outside -40 to 150 degrees is discarded and counted, and the third in a row excludes its sensor; another is
shown, moves the peak and the hottest sensor, and ends the run of discarded samples; above 100 degrees TJ_HIGH comes, and it
goes once every sensor that takes part is below 98. A second of operation adds to SY_AGE, and LIFE_OVER says whether SY_AGE is
above the operating time. (R660, R661, R664, R666, R668.) -/
def Obligations.Temperature : Prop :=
  ∀ (s : State) (d : DieId) (dt : Nat) (i : Fin 9) (temp : BitVec 16), s.has d = true →
    let a := s.advance dt
    let x := s.die d
    let v := temp.toInt
    let t := x.sensor i
    let plus := fun (r : State) (f : Fld) => r.fld d f = (s.fld d f + 1) % 2 ^ (f.hi - f.lo + 1)
    (Completes (exec (.tjSample d dt i temp) s) fun r =>
      let y := r.die d
      let u := y.sensor i
      if v < -640 ∨ 2400 < v then plus r R.SY_TJ_DROPS ∧ y.tj i = x.tj i ∧ u.discards = t.discards + 1 ∧
        u.excluded = (t.excluded || decide (t.discards = 2)) ∧ (t.discards = 2 → t.excluded = false → r.fld d R.SY_TJ_EVENTS_SENSOR_FAULT = 1 ∧ r.fld d R.SY_TJ_STATUS_SENSOR_FAULT = 1)
      else u.discards = 0 ∧ u.excluded = (t.excluded && decide (t.accepts ≠ 2)) ∧
        (i = 8 → r.fld d R.SY_TJ_SUP_TEMP = temp.toNat ∧ y.heat.coolSince = (if v < 1520 then x.heat.coolSince.or (some a.now) else none)) ∧
        (i ≠ 8 → r.fld d R.SY_TJ_TEMP i = temp.toNat ∧ sgn 16 (r.fld d R.SY_TJ_PEAK_TEMP) = max v (sgn 16 (s.fld d R.SY_TJ_PEAK_TEMP)) ∧
          r.fld d R.SY_TJ_STATUS_HOTTEST = y.hottestLogic) ∧
        (u.excluded = false → u.above = (if 1840 < v then t.above + 1 else 0) ∧ (i ≠ 8 →
          y.heat.hottest = some (max v (x.heat.hottest.getD v)) ∧
          (1600 < v → r.fld d R.SY_TJ_STATUS_TJ_HIGH = 1) ∧ (v ≤ 1600 → s.fld d R.SY_TJ_STATUS_TJ_HIGH = 0 → r.fld d R.SY_TJ_STATUS_TJ_HIGH = 0) ∧
          (v ≤ 1600 → s.fld d R.SY_TJ_STATUS_TJ_HIGH = 1 → r.fld d R.SY_TJ_STATUS_TJ_HIGH =
            b2n (!(List.range 8).all fun k => (y.sensor k).excluded || decide (y.tj k < 1568)))))) ∧
    (Completes (exec (.ageTick d dt) s) fun r =>
      let unit := 3600 * second / 256
      let sum := x.heat.agePart + ageSecond (x.heat.hottest.getD (x.tj x.hottestLogic))
      r.fld d R.SY_AGE = (s.fld d R.SY_AGE + sum / unit) % 2 ^ 32 ∧ (r.die d).heat.agePart = sum % unit ∧ (r.die d).heat.hottest = none ∧
      r.fld d R.SY_TJ_STATUS_LIFE_OVER = b2n (decide (a.pkg.hb.time < r.fld d R.SY_AGE)))

/-- A scan lets a key change once it has differed for KEY_DB scans, and no key that would complete a rectangle of keys that
are down; a module input changes once it has differed for MOD_DB scans; the steps of encoders leave their counters. A sample
of an encoder that moves both phases is an error, and four quarters make a step. The oldest change of a command's kinds enters
the queue, or a full queue counts it; a pop removes the head; DUTY_APPLY takes the duty written. (R639, R640, R641, R642,
R643, R644, R645, R647.) -/
def Obligations.PanelPort : Prop :=
  ∀ (s : State) (dt : Nat) (kw : BitVec 64) (mods : BitVec 8) (touch : List Int) (n : Fin 32) (e : Fin 4) (pa pb : Bool),
    let a := s.advance dt
    let p := s.pkg.panel
    let x := s.die0
    let held := x.pw.phase = .held
    let plus := fun (r : State) (f : Fld) => r.fld 0 f = (s.fld 0 f + 1) % 2 ^ (f.hi - f.lo + 1)
    let run := fun (i : Nat) => mget (fun _ => 0) p.keys i + 1
    let level := fun (r : State) (i : Nat) => bit (r.fld 0 R.PN_INPUTS_MODULES) i
    let v := mget (fun _ => {}) p.encs e
    let ph := b2n pa + 2 * b2n pb
    let queued := fun (kinds : List Nat) (o : Result) => Completes o fun r => ∀ ev, p.due.head? = some ev →
      (ev.kind ∉ kinds → r = s) ∧ (ev.kind ∈ kinds → r.pkg.panel.due = p.due.tail ∧
        (p.queue.length < 256 → r.pkg.panel.queue = p.queue ++ [ev] ∧ r.fld 0 R.PN_EVQ_DROPS = s.fld 0 R.PN_EVQ_DROPS) ∧
        (256 ≤ p.queue.length → r.pkg.panel.queue = p.queue ∧ plus r R.PN_EVQ_DROPS ∧ r.fld 0 R.PN_STATUS_OVERFLOW = 1 ∧ r.fld 0 R.PN_EVENTS_OVERFLOW = 1))
    queued [1, 2] (exec .keyChange s) ∧ queued [3] (exec .encoderEvent s) ∧ queued [4, 5] (exec .touchChange s) ∧ queued [8] (exec .touchStuck s) ∧
    queued [6, 7] (exec .moduleChange s) ∧
    (Completes (exec .evqPop s) fun r => r.pkg.panel = { p with queue := p.queue.tail } ∧ r.die0 = s.die0 ∧ r.die1 = s.die1) ∧
    (Completes (exec (.dutyApply dt n) s) fun r => mget (fun _ => 0) r.pkg.panel.duty n = s.fld 0 R.PN_OUT_DUTY n ∧
      (∀ k ∈ List.range 32, k ≠ n.val → mget (fun _ => 0) r.pkg.panel.duty k = mget (fun _ => 0) p.duty k) ∧ r.die0 = a.die0) ∧
    (Completes (exec (.panelScan dt kw touch mods) s) fun r =>
      (held → r = a) ∧ (¬ held → r.pkg.panel.due.take p.due.length = p.due ∧ r.pkg.panel.queue = p.queue ∧
        (∀ i ∈ List.range 64, r.die0.pnKey i ≠ x.pnKey i → r.die0.pnKey i = kw.getLsbD i ∧ x.fld R.PN_CFG_KEY_DB ≤ run i) ∧
        (∀ i ∈ List.range 64, kw.getLsbD i = false → x.pnKey i = true → x.fld R.PN_CFG_KEY_DB ≤ run i → r.die0.pnKey i = false) ∧
        (∀ i ∈ List.range 64, kw.toNat = 2 ^ i → (∀ j ∈ List.range 64, x.pnKey j = false) → x.fld R.PN_CFG_KEY_DB ≤ run i → r.die0.pnKey i = true) ∧
        (∀ i ∈ List.range 64, x.pnKey i = false → kw.getLsbD i = true → (∀ j ∈ List.range i, kw.getLsbD j = x.pnKey j) → x.pnGhost i = true →
          r.die0.pnKey i = false ∧ mget (fun _ => false) r.pkg.panel.ghosts i = true) ∧
        (∀ i ∈ List.range 8, level r i = if mget (fun _ => 0) p.mods i + 1 < x.fld R.PN_CFG_MOD_DB then level s i else mods.getLsbD i) ∧
        (∀ k ∈ List.range 4, (mget (fun _ => {}) r.pkg.panel.encs k).steps = 0) ∧
        (x.fld R.PN_CFG_TOUCH_TH = 0 → r.fld 0 R.PN_INPUTS_TOUCH = x.fld R.PN_INPUTS_TOUCH))) ∧
    (Completes (exec (.encoderSample dt e pa pb) s) fun r =>
      let w := mget (fun _ => {}) r.pkg.panel.encs e
      let q := v.quarters + quarter v.phase ph
      (held → r = a) ∧ (¬ held →
        (ph = 3 - v.phase → plus r R.PN_ENC_ERR ∧ w = v) ∧
        (ph ≠ 3 - v.phase → ph = v.phase ∨ ph ≠ v.last → w = { v with last := ph } ∧ r.die0 = a.die0) ∧
        (ph ≠ 3 - v.phase → ph ≠ v.phase → ph = v.last → w.phase = ph ∧
          (q = 4 → w.quarters = 0 ∧ w.steps = v.steps + 1 ∧ r.fld 0 R.PN_ENC_STEPS e = (s.fld 0 R.PN_ENC_STEPS e + 1) % 2 ^ 16) ∧
          (q = -4 → w.quarters = 0 ∧ w.steps = v.steps - 1 ∧ r.fld 0 R.PN_ENC_STEPS e = (s.fld 0 R.PN_ENC_STEPS e + 65535) % 2 ^ 16) ∧
          (q ≠ 4 → q ≠ -4 → w.quarters = q ∧ w.steps = v.steps))))

/-- A token's check gives its result; an accepted token waits for its action, and each action takes a token of its own type
alone: it starts the burn of the key, the revocation or the Silcel key, grants test authorisation for its lifetime, or grants
a herdbook clear for 10 s. A burn that ends takes 20 us for each bit; a whole one makes the key valid, revokes it, or raises
the counter, and one that stops leaves a damaged slot and its result. Commits burn the counter up to the rollback number in
force. (R559, R560, R567, R568, R569, R570, R571, R572, R573.) -/
def Obligations.KeysAndTokens : Prop :=
  ∀ (s : State) (wr : Writer) (d : DieId) (bad : Option Nat) (slot gen : Fin 4) (key : List Byte) (target : Nat) (items : List Item),
    let x := s.die0
    let f := s.pkg.fuses
    let only := fun (ty : Nat) (o : Result) (P : Token → State → Prop) =>
      ∀ t, x.sc.token = some t → Completes o fun r => (t.ty ≠ ty → r = s) ∧ (t.ty = ty → r.die0.sc.token = none ∧ P t r)
    let burns := fun (k : BurnKind) (n : Nat) (r : State) => r.die0.sc.burn = some ⟨k, n, s.now, none⟩ ∧ r.pkg.fuses = f
    let ended := fun (r : State) => ∀ i ∈ [(0 : DieId), 1], (r.die i).sc.test = none ∧ ((s.die i).sc.test.isSome = true →
      r.fld i R.SC_STATUS_TEST = 0 ∧ r.fld i R.SC_EVENTS_TEST_END = 1 ∧ ∀ u ∈ List.range 16, r.fld i R.ST_PERT_CTRL_ARM u = 0 ∧ r.fld i R.ST_PERT_CTRL_ACTIVE u = 0)
    (s.accepts 0 wr 0x210008 1 = true → ∀ e, x.sm.tokenBuf = some e → Completes (exec (.token 0 wr) s) fun r =>
      let b := imageBytes e.1 e.2
      let c := s.tokenCheck b
      r.fld 0 R.SC_TOKEN_RESULT_CODE = c ∧ r.fld 0 R.SC_TOKEN_RESULT_TYPE = (tokenOf b).ty % 256 ∧ r.pkg.fuses = f ∧
      (tokenForm b = false → c = 1) ∧ (tokenForm b = true → num b 0x10 16 ≠ f.serialOf 0 → c = 2) ∧
      (c = 0 → r.die0.sc.token = some (tokenOf b) ∧ r.fld 0 R.SC_EVENTS_TOKEN_OK = 1) ∧ (c ≠ 0 → r.die0.sc.token = none ∧ r.fld 0 R.SC_EVENTS_TOKEN_REFUSED = 1) ∧
      (c = 1 ∨ c = 2 → ∀ i ∈ List.range 8, r.fld 0 R.SC_TOKEN_NONCE i = s.fld 0 R.SC_TOKEN_NONCE i)) ∧
    only 1 (exec .keyAdd s) (fun t => burns (.owner t.target t.payload) 513) ∧
    only 2 (exec .keyRevoke s) (fun t => burns (.ownerRevoke t.target) 1) ∧
    only 3 (exec .macInstall s) (fun t => burns (.mac t.target (f.macGens t.target) (s.unwrap t.target (f.macGens t.target) t.payload)) 257) ∧
    only 4 (exec .macRevoke s) (fun t r => r.pkg.fuses = f ∧
      r.die0.sc.burn = match f.macNow t.target with | some g => some ⟨.macRevoke t.target g, 1, s.now, none⟩ | none => x.sc.burn) ∧
    only 5 (exec .test s) (fun t r => r.die0.sc.test = some (t.scope, s.now + t.lifetime * second) ∧ r.fld 0 R.SC_STATUS_TEST = 1 ∧ r.fld 0 R.SC_EVENTS_TEST_START = 1) ∧
    only 6 (exec .hbClear s) (fun t r => r.die0.sc.clearUntil = some (s.now + 10 * second) ∧ r.fld 0 R.SC_STATUS_HB_CLEAR_OK = 1 ∧ r.die0.sc.clearKey = t.keySlot) ∧
    (s.has d = true → ∀ b, (s.die d).sc.burn = some b →
      let n := b.limit.getD b.bits
      (bad = none → Completes (exec (.burnDone d bad) s) fun r =>
        let g := r.pkg.fuses
        (r.die d).sc.burn = none ∧ r.now = max s.now (b.start + n * (20 * usec)) ∧
        (b.kind = .owner slot key → (f.owner slot).written = false → (g.owner slot).revoked = (f.owner slot).revoked ∧
          (8 * key.length < n → (g.owner slot).valid = true ∧ (g.owner slot).key = key) ∧
          (n ≤ 8 * key.length → (g.owner slot).damaged = true ∧ (g.owner slot).valid = false)) ∧
        (b.kind = .ownerRevoke slot → 1 ≤ n → (g.owner slot).revoked = true ∧ (g.owner slot).key = (f.owner slot).key) ∧
        (b.kind = .mac slot gen key → (f.mac slot gen).written = false → 8 * key.length < n → (g.mac slot gen).valid = true ∧ (g.mac slot gen).key = key) ∧
        (b.kind = .macRevoke slot gen → 1 ≤ n → (g.mac slot gen).revoked = true) ∧
        (b.kind = .fw target → g = { f with fw := f.fw + n }) ∧ (b.kind = .plan target → g = { f with plan := f.plan + n }) ∧
        (b.kind = .repair items → g = f ∧ (r.die d).st.fused = (s.die d).st.fused ++ items.take n ∧ r.fld d R.ST_STATUS_FUSING = 0 ∧
          (items.length ≤ n → r.fld d R.ST_EVENTS_FUSE_DONE = 1) ∧ (n < items.length → r.fld d R.ST_EVENTS_FUSE_STOPPED = 1)) ∧
        (n < b.bits → b.kind.ofToken = true → r.fld 0 R.SC_TOKEN_RESULT_CODE = 7 ∧ r.fld 0 R.SC_EVENTS_BURN_STOPPED = 1)) ∧
      (∀ j, bad = some j → j < n → b.kind.ofToken = true → Completes (exec (.burnDone d bad) s) fun r =>
        r.fld 0 R.SC_TOKEN_RESULT_CODE = (if j = b.bits then s.fld 0 R.SC_TOKEN_RESULT_CODE else 8) ∧ r.now = max s.now (b.start + (j + 1) * (20 * usec)))) ∧
    (s.accepts 0 wr 0x210008 4 = true → Completes (exec (.commitFw 0 wr) s) fun r => ∀ w, s.pkg.fw = some w → burns (.fw w.rollback) (w.rollback - f.fw) r ∧ f.fw < w.rollback) ∧
    (s.accepts 0 wr 0x210008 8 = true → Completes (exec (.commitPlan 0 wr) s) fun r => ∀ t, s.planRollback = some t → burns (.plan t) (t - f.plan) r ∧ f.plan < t) ∧
    (s.accepts 0 wr 0x210008 16 = true → Completes (exec (.testEnd 0 wr) s) ended) ∧
    (∀ t, x.sc.test = some t → Completes (exec .testExpiry s) fun r => ended r ∧ r.now = max s.now t.2) ∧
    (∀ t, x.sc.clearUntil = some t → Completes (exec .hbClearExpiry s) fun r => r.fld 0 R.SC_STATUS_HB_CLEAR_OK = 0 ∧ r.die0.sc.clearUntil = none ∧ r.now = max s.now t)

/-- The ROM of die 0 runs the preferred firmware slot that passes, the other one as a fallback, and enters recovery with its
codes where neither does, where the directory or the fuses are not in order. Die 1 leaves reset when it confirms what has
arrived from die 0 for its release, and not before die 0 runs verified firmware. A die whose turn has not come waits with its
BIST. BIST and training bring the die to ready with what they found withdrawn or repaired. SWAP prefers the other slot where
it verifies. A quote is signed over the state at its command. FUSE_REPAIR starts the burn of the soft repairs. An online slice
starts on an idle item and takes a failing one away. (R10, R19, R563, R565, R575, R580, R582, R584, R588, R590, R592, R632.)
-/
def Obligations.BootAndTest : Prop :=
  ∀ (s : State) (d : DieId) (wr : Writer) (dt : Nat) (size : Option Nat) (ok room : Bool) (fails later : List BistFail) (khz failed : List Nat) (item : Item),
    s.has d = true →
    let a := s.advance dt
    let x := s.die d
    let ph := x.pw.phase
    let sized := { s with die0 := (s.die0.setFld R.SY_FLASH_SIZE_SIZE (min 0xFFFF (size.getD 1024))) }
    let recovered := fun (r : State) (code : Nat) => r.fld 0 R.SC_STATUS_RECOVERY = 1 ∧ r.fld 0 R.SC_BOOT_CODE = code ∧ r.die0.pw.phase = .booted ∧ r.pkg.fw = none
    (s.die0.pw.phase ≠ .released → Completes (exec (.bootRom 0 dt size ok) s) fun r => r = a) ∧
    (s.die0.pw.phase = .released → Completes (exec (.bootRom 0 dt size ok) s) fun r =>
      r.fld 0 R.SY_FLASH_SIZE_SIZE = min 0xFFFF (size.getD 1024) ∧ r.fld 0 R.SY_FLASH_SIZE_ASSUMED = b2n size.isNone ∧
      (s.fuseOk = false → recovered r 1) ∧ (s.fuseOk = true → s.pkg.dir = none → recovered r 2) ∧
      (s.fuseOk = true → ∀ dir, s.pkg.dir = some dir →
        let run := fun (b : Bool) => sized.checkFirmware b (if b = true then dir.slotB else dir.slotA)
        let p := run dir.preferB
        let q := run !dir.preferB
        (p.1 = 0 → r.pkg.fw = some p.2 ∧ r.die0.pw.phase = s.afterRom ∧ r.fld 0 R.SC_BOOT_FALLBACK = 0 ∧ (s.dual = false → r.fld 0 R.SC_BOOT_CODE = 0)) ∧
        (p.1 ≠ 0 → q.1 = 0 → r.pkg.fw = some q.2 ∧ r.fld 0 R.SC_BOOT_FALLBACK = 1 ∧ r.fld 0 R.SC_BOOT_OTHER = p.1) ∧
        (p.1 ≠ 0 → q.1 ≠ 0 → recovered r p.1 ∧ r.fld 0 R.SC_BOOT_OTHER = q.1))) ∧
    (∀ rel f, s.die1.sc.release = some rel → s.die1Waits = true → s.pkg.fw = some f → s.die0.pw.phase = .ready → s.fld 0 R.SC_STATUS_RECOVERY = 0 →
      s.fld 1 R.PW_LAST_RESET_KIND ≠ 0 → Completes (exec (.bootRom 1 dt size ok) s) fun r => r.pkg.fw = some f ∧
        (ok = true → r.die1.pw.phase = s.afterRom ∧ r.fld 1 R.SC_FW_VERSION = rel.fw.version % 2 ^ 32) ∧
        (ok = false → r.die1.pw.phase = .held ∧ r.fld 0 R.SC_BOOT_CODE = 7)) ∧
    (s.pkg.fw = none → Completes (exec (.bootRom 1 dt size ok) s) fun r => r = a) ∧
    (Completes (exec (.bistDone d dt fails later khz) s) fun r =>
      let y := r.die d
      if ph ≠ .booted ∨ s.fld d R.SC_STATUS_RECOVERY = 1 then y.regs = (a.die d).regs ∧ y.pw.phase = ph
      else if x.st.bistAt = none then (∀ t, a.bistBusy (peer d) = some t → a.now < t → y.regs = (a.die d).regs ∧ y.pw.phase = .booted)
      else r.fld d R.ST_STATUS_DONE = 1 ∧ r.fld d R.ST_STATUS_ALL_PASS = b2n (fails ++ later).isEmpty ∧ r.fld d R.ST_STARTUP_MS = (a.now - x.st.bistAt.getD a.now) / msec % 2 ^ 32 ∧
        y.st.bad.length + y.st.soft.length = x.st.soft.length + fails.length + later.length ∧ (fails = [] → later = [] → y.st.bad = [] ∧ y.pw.phase = .tested) ∧
        y.pw.phase = if (List.range 8).all (fun c => y.isBad .core c) = false then .tested else if d = 0 then .booted else .stopped) ∧
    (Completes (exec (.dramTrained d dt failed) s) fun r => if ph ≠ .tested then r = a
      else (r.die d).pw.phase = .ready ∧ (r.die d).st.bad = x.st.bad ++ failed.map fun n => ⟨.region, n, 0⟩) ∧
    (s.accepts 0 wr 0x210008 32 = true → Completes (exec (.swap 0 wr) s) fun r => r.die0.sc = { s.die0.sc with swapping := true } ∧ r.pkg = s.pkg) ∧
    (∀ dir, s.pkg.dir = some dir → s.die0.sc.swapping = true → Completes (exec (.swapDone dt) s) fun r =>
      let b := ((s.pkg.fw.map fun w => w.slotB).getD dir.preferB) == false
      let c := s.checkFirmware b (if b = true then dir.slotB else dir.slotA)
      r.die0.sc.swapping = false ∧ r.fld 0 R.SC_BOOT_SWAP_CODE = c.1 ∧ r.pkg.fw = s.pkg.fw ∧
      (c.1 = 0 → r.pkg.dir = some { dir with preferB := b } ∧ r.fld 0 R.SC_EVENTS_SWAP_DONE = 1) ∧
      (c.1 ≠ 0 → r.pkg.dir = some dir ∧ r.fld 0 R.SC_EVENTS_SWAP_REFUSED = 1)) ∧
    (s.accepts d wr 0x210008 2 = true → Completes (exec (.quote d wr) s) fun r => (r.die d).sc.signing = some (s.quoteBody d) ∧ r.fld d R.SC_STATUS_QUOTE_READY = 0) ∧
    (∀ b, x.sc.signing = some b → Completes (exec (.quoteDone d dt) s) fun r => (r.die d).sc.signing = none ∧ (r.die d).sc.quote.take b.length = b ∧
      (r.die d).sc.quote.length = b.length + 49856 ∧ r.fld d R.SC_STATUS_QUOTE_READY = 1 ∧ r.fld d R.SC_EVENTS_QUOTE = 1) ∧
    (s.accepts d wr 0x220008 1 = true → Completes (exec (.fuseRepair d wr) s) fun r =>
      let l := x.st.burnable x.fuseLeft.1 x.fuseLeft.2.1 x.fuseLeft.2.2 x.st.soft
      (r.die d).sc.burn = some ⟨.repair l, l.length, s.now, none⟩ ∧ r.fld d R.ST_STATUS_FUSING = 1 ∧ (r.die d).st = x.st) ∧
    (Completes (exec (.onlineSliceStart d dt item room) s) fun r =>
      if x.flag R.ST_ONLINE_ENABLE = true ∧ x.st.slices.length < 8 ∧ room = true ∧ x.idle item = true ∧ x.targeted item = false ∧ ph = .ready ∧
          (x.st.slices.any fun e => e.1 == item) = false then
        (r.die d).st.slices = x.st.slices ++ [(item, a.now)] ∧ r.fld d R.ST_STATUS_SLICE_RUNNING = 1 else r = a) ∧
    (∀ e, x.st.slices.find? (fun e => e.1 == item) = some e →
      let gone := fun (r : State) => (r.die d).st.slices = x.st.slices.erase e ∧ r.fld d R.ST_SLICES = (s.fld d R.ST_SLICES + 1) % 2 ^ 32
      Completes (exec (.onlineSliceDone d dt item none) s) (fun r => gone r ∧ (r.die d).st.bad = x.st.bad) ∧
      ∀ w ∈ fails, Completes (exec (.onlineSliceDone d dt item (some w)) s) fun r => gone r ∧ (r.die d).st.bad.length = x.st.bad.length + 1 ∧
        r.fld d R.ST_EVENTS_ONLINE_FAIL = 1 ∧ r.fld d R.ST_ONLINE_FAILS = (s.fld d R.ST_ONLINE_FAILS + 1) % 2 ^ 32 ∧
        (item.kind = .tile → r.fld d R.VT_STATUS_REPAIR_PENDING = 1 ∧ (r.die d).isBad .tile item.inst = true))

/-- The oldest pending record is programmed into the next slot, where its sector is erased, or the slot fails and is skipped
and counted. An erase empties its sector unless the supply warning suspends it. SNAP shows the 64 records from the number
written. CLEAR uses its grant up and makes the CLEARED record. A life fuse burns when it is due. An accepted write arms a
perturbation unit of a class that the test authorisation names; it starts at its position, shows ACTIVE, counts and ends after
DURATION lines; a periodic unit waits for its next start, another disarms. (R593, R594, R595, R596, R597, R599, R600, R602,
R603, R604.) -/
def Obligations.HerdbookAndPerturbations : Prop :=
  ∀ (s : State) (d : DieId) (wr : Writer) (dt : Nat) (ok : Bool) (k : Nat) (u : Fin 16) (v : W32),
    let a := s.advance dt
    let h := s.pkg.hb
    let slot := fun (r : State) (n : Nat) => mget (fun _ => HbSlot.empty) r.pkg.hb.slots n
    (∀ e, h.pend.head? = some e → Completes (exec (.hbRecordProgrammed dt ok) s) fun r =>
      (h.canProgram = false → r = a) ∧ (h.canProgram = true → r.pkg.hb.next = (h.next + 1) % hbSlots ∧
        (ok = true → slot r h.next = .held e ∧ r.pkg.hb.pend.take h.pend.tail.length = h.pend.tail) ∧
        (ok = false → slot r h.next = .skipped ∧ r.fld 0 R.HB_EVENTS_FLASH_FAULT = 1 ∧ r.fld 0 R.HB_FLASH_ERR = (s.fld 0 R.HB_FLASH_ERR + 1) % 2 ^ 32 ∧
          r.pkg.hb.pend.take h.pend.length = h.pend) ∧
        (k ≠ h.next → slot r k = slot s k))) ∧
    (h.pend = [] → Completes (exec (.hbRecordProgrammed dt ok) s) fun r => r = a) ∧
    (∀ c, h.erase.head? = some c → Completes (exec (.sectorErased dt) s) fun r => if s.warned = true then r = a
      else r.pkg.hb.erase = h.erase.tail ∧ (k / 128 = c → slot r k = .empty) ∧ (k / 128 ≠ c → slot r k = slot s k)) ∧
    (s.accepts 0 wr 0x230008 2 = true → Completes (exec (.hbSnap wr) s) fun r =>
      let q : W32 := BitVec.ofNat 32 (s.fld 0 R.HB_SNAP_SEQ)
      let at_ := fun (n : Nat) => h.recs.find? fun e => e.seq == q + BitVec.ofNat 32 n
      r.pkg = s.pkg ∧ r.fld 0 R.HB_SNAP_STATUS_COUNT = ((List.range 64).filter fun n => (at_ n).isSome).length ∧
      ∀ n ∈ List.range 64, ∀ j ∈ List.range 8, r.fld 0 R.HB_SNAP (8 * n + j) = ((((at_ n).map HbRec.words).getD []).getD j 0).toNat) ∧
    (s.accepts 0 wr 0x230008 1 = true → Completes (exec (.clear wr) s) fun r => s.fld 0 R.SC_STATUS_HB_CLEAR_OK = 1 ∧ r.fld 0 R.SC_STATUS_HB_CLEAR_OK = 0 ∧
      r.die0.sc.clearUntil = none ∧ r.pkg.hb.clearing = some h.seq ∧ r.pkg.hb.slots = h.slots ∧ r.pkg.hb.pend.take h.pend.length = h.pend ∧
      (h.pend.length < 8 → (r.pkg.hb.pend.drop h.pend.length).map (fun e => (e.code, e.seq)) = [(recCode R.HB_EVENTS_LOST 0x81, h.seq)])) ∧
    (Completes (exec .lifeFuse s) fun r => if 256 ≤ s.pkg.fuses.life ∨ s.warned = true then r = s
      else r.pkg.fuses = { s.pkg.fuses with life := s.pkg.fuses.life + 1 } ∧ r.now = max s.now s.lifeDue ∧ r.pkg.hb.slots = h.slots) ∧
    (s.has d = true →
      let x := s.die d
      let c := x.fld R.ST_PERT_CTRL_CADENCE u
      let cls := x.fld R.ST_PERT_CTRL_CLASS u
      let plan := fun (r : State) => mget (fun _ => none) (r.die d).st.pert u
      let shown := fun (r : State) => r.fld d R.ST_STATUS_PERTURBING = b2n (r.die d).perturbed
      (s.accepts d wr (0x220200 + 32 * u) v = true → Completes (exec (.pertArm d wr u v) s) fun r => r.fld d R.ST_PERT_CTRL_ARM u = bits v.toNat 0 0 ∧
        r.fld d R.ST_PERT_CTRL_CLASS u = bits v.toNat 5 2 ∧ r.fld d R.ST_PERT_CTRL_ACTIVE u = x.fld R.ST_PERT_CTRL_ACTIVE u ∧
        (bit v.toNat 0 = true → (x.sc.test.map fun t => bit t.1 (bits v.toNat 5 2)) = some true ∧ (plan r).isSome = true ∧ x.fld R.ST_PERT_CTRL_ARM u = 0)) ∧
      (∀ g, x.grid c = some g → ∀ p, plan s = some p →
        (Completes (exec (.pertStart d u) s) fun r =>
          if x.flag R.ST_PERT_CTRL_ARM u = true ∧ x.flag R.ST_PERT_CTRL_ACTIVE u = false then
            r.fld d R.ST_PERT_CTRL_ACTIVE u = 1 ∧ r.fld d R.ST_PERT_ACTS u = (x.fld R.ST_PERT_ACTS u + 1) % 2 ^ 32 ∧ (r.die d).clk.now = max x.clk.now (g.instantPos p.1) ∧
            plan r = some (p.1, p.1 + (x.fld R.ST_PERT_DURATION u * 65536 : Nat)) ∧ shown r ∧ r.fld d R.ST_EVENTS_PERT_START = 1 ∧
            (cls = 5 → u.val ∈ (r.die d).st.inject) ∧ (cls = 8 → r.fld d R.PW_EVENTS_SUPPLY_WARN = 1) else r = s) ∧
        Completes (exec (.pertEnd d u) s) fun r =>
          let step := x.fld R.ST_PERT_PERIOD u * 65536
          let again := x.flag R.ST_PERT_CTRL_PERIODIC u && decide (0 < step)
          if x.flag R.ST_PERT_CTRL_ACTIVE u = true then
            r.fld d R.ST_PERT_CTRL_ACTIVE u = 0 ∧ (r.die d).clk.now = max x.clk.now (g.instantPos p.2) ∧ u.val ∉ (r.die d).st.inject ∧ shown r ∧ r.fld d R.ST_EVENTS_PERT_END = 1 ∧
            (again = false → r.fld d R.ST_PERT_CTRL_ARM u = 0 ∧ plan r = none) ∧
            (again = true → r.fld d R.ST_PERT_CTRL_ARM u = x.fld R.ST_PERT_CTRL_ARM u ∧ ∀ q, plan r = some q → p.2 ≤ q.1 ∧ (q.1 - p.1) % (step : Int) = 0 ∧
              (p.1 < p.2 → q.1 < p.2 + step)) else r = s))

/-- A step with a command at the front of the queue answers what the command's meaning answers on the state with the queue's
rest. On an empty queue the block idles, which is the model's own choice (log entry 59). (98_reader.md.) -/
def Obligations.StepRunsFront : Prop :=
  ∀ (s : State) (c : Instr) (rest : List Instr),
    step { s with pending := c :: rest } = exec c { s with pending := rest } ∧ step { s with pending := [] } = .next { s with pending := [] } ∧
    core.step (s.front c) = exec c s

/-- A command that is not well-formed is refused by that name and no other. A well-formed one answers a next state on a dual-
die package, and on every package either that or the fault that its die is not there, which only a package of one die gives.
No command changes the queue of commands. (R3, R8, R151.) -/
def Obligations.OutcomesByForm : Prop :=
  ∀ (i : Instr) (s : State),
    (i.wf = false → exec i s = .refused .illFormed) ∧
    (i.wf = true → exec i s = .fault .noInstance ∨ ∃ r, exec i s = .next r) ∧
    (i.wf = true → s.dual = true → ∃ r, exec i s = .next r ∧ r.pending = s.pending) ∧
    (∀ e, exec i s = .fault e → e = .noInstance ∧ s.dual = false) ∧
    (∀ r, exec i s = .next r → r.pending = s.pending)

/-- After reset every register reads the reset value that its table gives, but for SY_VARIANT, which fuses give, and TB_MODE
of die 1, whose source is 3. The package is in Idle, no cadence is active, no plan runs, no Silcel slot is open, no die holds
a pail, no tile and no thread has been set up, the outbox and the queue of commands are empty, and flash and DRAM list
nothing. (R36, R42, R70, R420, R435, R540, R632, R636.) -/
def Obligations.ResetValues : Prop :=
  let s := State.reset
  (∀ a, a ≠ 4 → s.die0.reg a = regDefault a ∧ (a ≠ 0x20000 → s.die1.reg a = regDefault a)) ∧
  s.fld 0 R.TB_MODE_SOURCE = 2 ∧ s.fld 1 R.TB_MODE_SOURCE = 3 ∧ s.planRuns = false ∧ s.pending = [] ∧ s.outbox = [] ∧
  s.flashWf = true ∧ s.pkg.flash = [] ∧
  ∀ d ∈ [(0 : DieId), 1], s.fld d R.PW_STATUS_STATE = 1 ∧ s.fld d R.TB_MODE_STEP_POLICY = 1 ∧ s.fld d R.SY_VARIANT_DIE_ID = d ∧
    (s.die d).dram.cells = [] ∧ Memory.wf (s.die d).dram.cells = true ∧ (s.die d).tiles = [] ∧ (s.die d).live = [] ∧
    (∀ k ∈ List.range 4, (s.die d).slotOpen k = false) ∧ (∀ p ∈ List.range 8, (s.die d).role p = 0 ∧ (s.die d).grid p = none)

/-- From every state in which the serial flash and the DRAM of both dies list their bytes with rising addresses and none that
reads as an unlisted one, whatever command is at the front of the queue, a next state has them in that form again. The
invariant is the model's own representation of memory (log entry 4). (R10, R433, R475, R484, R628.) -/
def Obligations.StoresKept : Prop :=
  ∀ (s r : State),
    s.flashWf = true → (∀ d : DieId, Memory.wf (s.die d).dram.cells = true) → step s = .next r →
    r.flashWf = true ∧ ∀ d : DieId, Memory.wf (r.die d).dram.cells = true

/-- Whatever command is at the front of the queue, a next state has every key slot with all that was burnt in it and no
counter lower than before; and the fuses are the very same unless the command is BURN_DONE or LIFE_FUSE. (R559, R560, R567,
R568, R599.) -/
def Obligations.FusesKept : Prop :=
  ∀ (s r : State), step s = .next r →
    s.pkg.fuses.kept r.pkg.fuses = true ∧
    ((∀ d bad, s.pending.head? ≠ some (.burnDone d bad)) → s.pending.head? ≠ some .lifeFuse → r.pkg.fuses = s.pkg.fuses)
end

