-- ==== Sys2Proof/Laws/Store.lean ====
section
/-! SUPPORT. The laws of sparse maps and memories: what a write stores reads back, every other key reads as before, a second write
to a key replaces the first, and the canonical form is kept. -/

namespace Sys2Proof.Machine

variable {α : Type}

theorem mget_minsert (d : Nat → α) (m : Map α) (k j : Nat) (v : α) (h : ∀ e ∈ m, e.1 ≠ k) :
    mget d (minsert k v m) j = if j = k then v else mget d m j := by
  induction m with
  | nil => simp [minsert, mget]
  | cons e m ih =>
    obtain ⟨k', v'⟩ := e
    have hk : k' ≠ k := h (k', v') (by simp)
    have ih := ih fun e he => h e (by simp [he])
    by_cases hl : k < k'
    · simp [minsert, mget, hl]
    · by_cases hj : j = k'
      · subst hj; simp [minsert, mget, hl, hk]
      · simp [minsert, mget, hl, hj, ih]

theorem mget_filter (d : Nat → α) (m : Map α) (k j : Nat) :
    mget d (m.filter fun e => e.1 != k) j = if j = k then d k else mget d m j := by
  induction m with
  | nil => by_cases hj : j = k <;> simp [mget, hj]
  | cons e m ih =>
    obtain ⟨k', v'⟩ := e
    by_cases hk : k' = k
    · subst hk
      by_cases hj : j = k'
      · subst hj; simpa using ih
      · simp [mget, ih, hj]
    · by_cases hj : j = k'
      · subst hj; simp [mget, hk]
      · simp [mget, hk, hj, ih]

theorem mget_mput [DecidableEq α] (d : Nat → α) (m : Map α) (k j : Nat) (v : α) :
    mget d (mput d m k v) j = if j = k then v else mget d m j := by
  unfold mput
  by_cases hv : v = d k
  · simp only [hv, if_true, mget_filter]
  · rw [if_neg hv, mget_minsert _ _ _ _ _ (by simp), mget_filter]
    by_cases hj : j = k <;> simp [hj]

@[simp] theorem mget_mput_same [DecidableEq α] (d : Nat → α) (m : Map α) (k : Nat) (v : α) : mget d (mput d m k v) k = v := by
  simp [mget_mput]

theorem mget_mput_other [DecidableEq α] (d : Nat → α) (m : Map α) {k j : Nat} (v : α) (h : j ≠ k) :
    mget d (mput d m k v) j = mget d m j := by simp [mget_mput, h]

@[simp] theorem mget_mmod_same [DecidableEq α] (d : Nat → α) (m : Map α) (k : Nat) (f : α → α) :
    mget d (mmod d m k f) k = f (mget d m k) := by simp [mmod]

theorem mget_mmod_other [DecidableEq α] (d : Nat → α) (m : Map α) {k j : Nat} (f : α → α) (h : j ≠ k) :
    mget d (mmod d m k f) j = mget d m j := by simp [mmod, mget_mput_other, h]

theorem filter_minsert (m : Map α) (k : Nat) (v : α) :
    (minsert k v m).filter (fun e => e.1 != k) = m.filter fun e => e.1 != k := by
  induction m with
  | nil => simp [minsert]
  | cons e m ih => by_cases h : k < e.1 <;> simp [minsert, h, List.filter_cons, ih]

/-- A second write to a key replaces the first. -/
@[simp] theorem mput_mput [DecidableEq α] (d : Nat → α) (m : Map α) (k : Nat) (a b : α) : mput d (mput d m k a) k b = mput d m k b := by
  have h : (mput d m k a).filter (fun e => e.1 != k) = m.filter fun e => e.1 != k := by
    unfold mput
    by_cases ha : a = d k
    · simp [ha, List.filter_filter]
    · rw [if_neg ha, filter_minsert, List.filter_filter]; simp
  rw [mput, h]; rfl

/-! ### The canonical form -/

theorem mabove_mono {a b : Nat} (h : a ≤ b) (m : Map α) (hb : mabove b m = true) : mabove a m = true := by
  simp only [mabove, List.all_eq_true, decide_eq_true_eq] at *
  exact fun e he => Nat.lt_of_le_of_lt h (hb e he)

theorem mabove_filter {b : Nat} (m : Map α) (p : Nat × α → Bool) (h : mabove b m = true) : mabove b (m.filter p) = true := by
  simp only [mabove, List.all_eq_true, List.mem_filter] at *
  exact fun e he => h e he.1

theorem mabove_minsert {b k : Nat} (v : α) (m : Map α) (h : mabove b m = true) (hk : b < k) : mabove b (minsert k v m) = true := by
  induction m with
  | nil => simpa [minsert, mabove] using hk
  | cons e m ih =>
    simp only [mabove, List.all_cons, Bool.and_eq_true, decide_eq_true_eq] at h ih
    by_cases hl : k < e.1
    · simp only [minsert, hl, if_true, mabove, List.all_cons, Bool.and_eq_true, decide_eq_true_eq]; exact ⟨hk, h⟩
    · simp only [minsert, hl, if_false, mabove, List.all_cons, Bool.and_eq_true, decide_eq_true_eq]; exact ⟨h.1, ih h.2⟩

theorem mwf_filter [DecidableEq α] (d : Nat → α) (m : Map α) (p : Nat × α → Bool) (h : mwf d m = true) : mwf d (m.filter p) = true := by
  induction m with
  | nil => rfl
  | cons e m ih =>
    obtain ⟨k, v⟩ := e
    simp only [mwf, Bool.and_eq_true] at h
    by_cases hp : p (k, v) = true
    · simp only [List.filter_cons, hp, if_true, mwf, Bool.and_eq_true]
      exact ⟨⟨h.1.1, mabove_filter m p h.1.2⟩, ih h.2⟩
    · simp only [List.filter_cons, hp, Bool.false_eq_true, if_false]; exact ih h.2

theorem mwf_minsert [DecidableEq α] (d : Nat → α) (m : Map α) (k : Nat) (v : α) (hv : v ≠ d k) (hk : ∀ e ∈ m, e.1 ≠ k)
    (h : mwf d m = true) : mwf d (minsert k v m) = true := by
  induction m with
  | nil => simp [minsert, mwf, mabove, hv]
  | cons e m ih =>
    obtain ⟨k', v'⟩ := e
    have hne : k' ≠ k := hk (k', v') (by simp)
    have h' := h
    simp only [mwf, Bool.and_eq_true] at h
    by_cases hl : k < k'
    · simp only [minsert, hl, if_true]
      rw [mwf, Bool.and_eq_true, Bool.and_eq_true]
      refine ⟨⟨by simpa using hv, ?_⟩, h'⟩
      simp only [mabove, List.all_cons, Bool.and_eq_true, decide_eq_true_eq]
      exact ⟨hl, mabove_mono (Nat.le_of_lt hl) m h.1.2⟩
    · simp only [minsert, hl, if_false]
      rw [mwf, Bool.and_eq_true, Bool.and_eq_true]
      exact ⟨⟨h.1.1, mabove_minsert v m h.1.2 (by omega)⟩, ih (fun e he => hk e (by simp [he])) h.2⟩

/-- A write keeps the canonical form. -/
theorem mwf_mput [DecidableEq α] (d : Nat → α) (m : Map α) (k : Nat) (v : α) (h : mwf d m = true) : mwf d (mput d m k v) = true := by
  unfold mput
  by_cases hv : v = d k
  · simp only [hv, if_true]; exact mwf_filter d m _ h
  · rw [if_neg hv]
    exact mwf_minsert d _ k v hv (by simp) (mwf_filter d m _ h)

/-! ### Bytes of a memory -/

@[simp] theorem rdByte_wrByte_same (m : Mem) (a : Nat) (b : Byte) : rdByte (wrByte m a b) a = b := by simp [rdByte, wrByte]

theorem rdByte_wrByte_other (m : Mem) {a c : Nat} (b : Byte) (h : c ≠ a) : rdByte (wrByte m a b) c = rdByte m c := by
  simp [rdByte, wrByte, mget_mput_other, h]

/-- A byte write keeps a memory's canonical form. -/
theorem wf_wrByte (m : Mem) (a : Nat) (b : Byte) (h : Memory.wf m = true) : Memory.wf (wrByte m a b) = true := mwf_mput _ _ _ _ h

theorem wf_wrBytes (m : Mem) (a : Nat) (bs : List Byte) (h : Memory.wf m = true) : Memory.wf (wrBytes m a bs) = true := by
  induction bs generalizing m a with
  | nil => exact h
  | cons b bs ih => exact ih _ _ (wf_wrByte m a b h)

/-- A list of byte writes keeps the canonical form, whatever the addresses: stores to scratch and writes to DRAM are such lists. -/
theorem wf_foldl_wrByte {β : Type} (l : List β) (f : β → Nat) (g : β → Byte) (m : Mem) (h : Memory.wf m = true) :
    Memory.wf (l.foldl (fun m e => wrByte m (f e) (g e)) m) = true := by
  induction l generalizing m with
  | nil => exact h
  | cons e l ih => exact ih _ (wf_wrByte m _ _ h)

theorem rdByte_wrBytes_other (m : Mem) (a c : Nat) (bs : List Byte) (h : c < a ∨ a + bs.length ≤ c) :
    rdByte (wrBytes m a bs) c = rdByte m c := by
  induction bs generalizing m a with
  | nil => rfl
  | cons b bs ih =>
    simp only [List.length_cons] at h
    rw [wrBytes, ih _ _ (by omega), rdByte_wrByte_other m b (by omega)]

theorem rdBytes_length (m : Mem) (a n : Nat) : (rdBytes m a n).length = n := by
  induction n generalizing a with
  | zero => rfl
  | succ n ih => simp [rdBytes, ih]

/-- A DRAM write that reaches the array keeps its canonical form. -/
theorem wf_dramWrite_apply (w : DramWrite) (m : Mem) (h : Memory.wf m = true) : Memory.wf (w.apply m) = true := by
  unfold DramWrite.apply
  generalize w.bytes.zipIdx = l
  induction l generalizing m with
  | nil => exact h
  | cons e l ih =>
    obtain ⟨b, n⟩ := e
    apply ih
    cases b with
    | none => exact h
    | some b => exact wf_wrByte m _ b h

/-- Draining a region keeps the array's canonical form. -/
theorem wf_drain (x : Dram) (r : Nat) (h : Memory.wf x.cells = true) : Memory.wf (x.drain r).cells = true := by
  unfold Dram.drain
  split
  · exact wf_dramWrite_apply _ _ h
  · exact h

/-- A store to scratch keeps its canonical form. -/
theorem wf_writeScratch (t : Tile) (i a : Nat) (bs : List Byte) (h : Memory.wf t.scratch = true) :
    Memory.wf (t.writeScratch i a bs).scratch = true := wf_foldl_wrByte _ Prod.fst Prod.snd _ h

end Sys2Proof.Machine
end

