-- ==== Sys2Proof/Laws/State.lean ====
section
/-! SUPPORT. One lemma for each field and each plain update of the state: what the update leaves, or what it puts there. With them no
proof unfolds the update of a record. -/

namespace Sys2Proof.Machine

/-! ### The package -/

@[simp] theorem State.setDie_pkg (s : State) (d : DieId) (x : Die) : (s.setDie d x).pkg = s.pkg := by unfold State.setDie; split <;> rfl
@[simp] theorem State.upd_pkg (s : State) (d : DieId) (f : Die → Die) : (s.upd d f).pkg = s.pkg := State.setDie_pkg s d _
@[simp] theorem State.setDie_free (s : State) (d : DieId) (x : Die) : (s.setDie d x).free = s.free := by unfold State.setDie; split <;> rfl
@[simp] theorem State.upd_free (s : State) (d : DieId) (f : Die → Die) : (s.upd d f).free = s.free := State.setDie_free s d _
@[simp] theorem State.setDie_outbox (s : State) (d : DieId) (x : Die) : (s.setDie d x).outbox = s.outbox := by unfold State.setDie; split <;> rfl
@[simp] theorem State.upd_outbox (s : State) (d : DieId) (f : Die → Die) : (s.upd d f).outbox = s.outbox := State.setDie_outbox s d _
@[simp] theorem State.setDie_pending (s : State) (d : DieId) (x : Die) : (s.setDie d x).pending = s.pending := by unfold State.setDie; split <;> rfl
@[simp] theorem State.upd_pending (s : State) (d : DieId) (f : Die → Die) : (s.upd d f).pending = s.pending := State.setDie_pending s d _
@[simp] theorem State.die_setDie_same (s : State) (d : DieId) (x : Die) : (s.setDie d x).die d = x := by
  unfold State.setDie State.die; split <;> rfl
theorem State.die_setDie_other (s : State) {d e : DieId} (x : Die) (h : e ≠ d) : (s.setDie d x).die e = s.die e := by
  unfold State.setDie State.die
  fin_cases d <;> fin_cases e <;> simp_all
@[simp] theorem State.die_upd_same (s : State) (d : DieId) (f : Die → Die) : (s.upd d f).die d = f (s.die d) := State.die_setDie_same s d _
theorem State.die_upd_other (s : State) {d e : DieId} (f : Die → Die) (h : e ≠ d) : (s.upd d f).die e = s.die e := State.die_setDie_other s _ h
@[simp] theorem State.updPkg_die0 (s : State) (f : Pkg → Pkg) : (s.updPkg f).die0 = s.die0 := rfl
@[simp] theorem State.updPkg_die1 (s : State) (f : Pkg → Pkg) : (s.updPkg f).die1 = s.die1 := rfl
@[simp] theorem State.updPkg_free (s : State) (f : Pkg → Pkg) : (s.updPkg f).free = s.free := rfl
@[simp] theorem State.updPkg_outbox (s : State) (f : Pkg → Pkg) : (s.updPkg f).outbox = s.outbox := rfl
@[simp] theorem State.updPkg_pending (s : State) (f : Pkg → Pkg) : (s.updPkg f).pending = s.pending := rfl
@[simp] theorem State.updPkg_pkg (s : State) (f : Pkg → Pkg) : (s.updPkg f).pkg = f s.pkg := rfl
@[simp] theorem State.updPkg_die (s : State) (f : Pkg → Pkg) (d : DieId) : (s.updPkg f).die d = s.die d := rfl
@[simp] theorem State.send_pkg (s : State) (m : Out) : (s.send m).pkg = s.pkg := rfl
@[simp] theorem State.send_die0 (s : State) (m : Out) : (s.send m).die0 = s.die0 := rfl
@[simp] theorem State.send_die1 (s : State) (m : Out) : (s.send m).die1 = s.die1 := rfl
@[simp] theorem State.send_free (s : State) (m : Out) : (s.send m).free = s.free := rfl
@[simp] theorem State.send_pending (s : State) (m : Out) : (s.send m).pending = s.pending := rfl
@[simp] theorem State.send_outbox (s : State) (m : Out) : (s.send m).outbox = s.outbox ++ [m] := rfl
@[simp] theorem State.send_die (s : State) (m : Out) (d : DieId) : (s.send m).die d = s.die d := rfl

/-! ### `State.modHb` -/

@[simp] theorem State.modHb_sup (s : State) (f : Herdbook → Herdbook) : (s.modHb f).pkg.sup = s.pkg.sup := rfl
@[simp] theorem State.modHb_plans (s : State) (f : Herdbook → Herdbook) : (s.modHb f).pkg.plans = s.pkg.plans := rfl
@[simp] theorem State.modHb_flash (s : State) (f : Herdbook → Herdbook) : (s.modHb f).pkg.flash = s.pkg.flash := rfl
@[simp] theorem State.modHb_hb (s : State) (f : Herdbook → Herdbook) : (s.modHb f).pkg.hb = f s.pkg.hb := rfl
@[simp] theorem State.modHb_fuses (s : State) (f : Herdbook → Herdbook) : (s.modHb f).pkg.fuses = s.pkg.fuses := rfl
@[simp] theorem State.modHb_dir (s : State) (f : Herdbook → Herdbook) : (s.modHb f).pkg.dir = s.pkg.dir := rfl
@[simp] theorem State.modHb_fw (s : State) (f : Herdbook → Herdbook) : (s.modHb f).pkg.fw = s.pkg.fw := rfl
@[simp] theorem State.modHb_supply (s : State) (f : Herdbook → Herdbook) : (s.modHb f).pkg.supply = s.pkg.supply := rfl
@[simp] theorem State.modHb_panel (s : State) (f : Herdbook → Herdbook) : (s.modHb f).pkg.panel = s.pkg.panel := rfl
@[simp] theorem State.modHb_die0 (s : State) (f : Herdbook → Herdbook) : (s.modHb f).die0 = s.die0 := rfl
@[simp] theorem State.modHb_die1 (s : State) (f : Herdbook → Herdbook) : (s.modHb f).die1 = s.die1 := rfl
@[simp] theorem State.modHb_free (s : State) (f : Herdbook → Herdbook) : (s.modHb f).free = s.free := rfl
@[simp] theorem State.modHb_outbox (s : State) (f : Herdbook → Herdbook) : (s.modHb f).outbox = s.outbox := rfl
@[simp] theorem State.modHb_pending (s : State) (f : Herdbook → Herdbook) : (s.modHb f).pending = s.pending := rfl
@[simp] theorem State.modHb_die (s : State) (f : Herdbook → Herdbook) (d : DieId) : (s.modHb f).die d = s.die d := rfl

/-! ### `State.modPanel` -/

@[simp] theorem State.modPanel_sup (s : State) (f : Panel → Panel) : (s.modPanel f).pkg.sup = s.pkg.sup := rfl
@[simp] theorem State.modPanel_plans (s : State) (f : Panel → Panel) : (s.modPanel f).pkg.plans = s.pkg.plans := rfl
@[simp] theorem State.modPanel_flash (s : State) (f : Panel → Panel) : (s.modPanel f).pkg.flash = s.pkg.flash := rfl
@[simp] theorem State.modPanel_hb (s : State) (f : Panel → Panel) : (s.modPanel f).pkg.hb = s.pkg.hb := rfl
@[simp] theorem State.modPanel_fuses (s : State) (f : Panel → Panel) : (s.modPanel f).pkg.fuses = s.pkg.fuses := rfl
@[simp] theorem State.modPanel_dir (s : State) (f : Panel → Panel) : (s.modPanel f).pkg.dir = s.pkg.dir := rfl
@[simp] theorem State.modPanel_fw (s : State) (f : Panel → Panel) : (s.modPanel f).pkg.fw = s.pkg.fw := rfl
@[simp] theorem State.modPanel_supply (s : State) (f : Panel → Panel) : (s.modPanel f).pkg.supply = s.pkg.supply := rfl
@[simp] theorem State.modPanel_panel (s : State) (f : Panel → Panel) : (s.modPanel f).pkg.panel = f s.pkg.panel := rfl
@[simp] theorem State.modPanel_die0 (s : State) (f : Panel → Panel) : (s.modPanel f).die0 = s.die0 := rfl
@[simp] theorem State.modPanel_die1 (s : State) (f : Panel → Panel) : (s.modPanel f).die1 = s.die1 := rfl
@[simp] theorem State.modPanel_free (s : State) (f : Panel → Panel) : (s.modPanel f).free = s.free := rfl
@[simp] theorem State.modPanel_outbox (s : State) (f : Panel → Panel) : (s.modPanel f).outbox = s.outbox := rfl
@[simp] theorem State.modPanel_pending (s : State) (f : Panel → Panel) : (s.modPanel f).pending = s.pending := rfl
@[simp] theorem State.modPanel_die (s : State) (f : Panel → Panel) (d : DieId) : (s.modPanel f).die d = s.die d := rfl

/-! ### `State.modFuses` -/

@[simp] theorem State.modFuses_sup (s : State) (f : Fuses → Fuses) : (s.modFuses f).pkg.sup = s.pkg.sup := rfl
@[simp] theorem State.modFuses_plans (s : State) (f : Fuses → Fuses) : (s.modFuses f).pkg.plans = s.pkg.plans := rfl
@[simp] theorem State.modFuses_flash (s : State) (f : Fuses → Fuses) : (s.modFuses f).pkg.flash = s.pkg.flash := rfl
@[simp] theorem State.modFuses_hb (s : State) (f : Fuses → Fuses) : (s.modFuses f).pkg.hb = s.pkg.hb := rfl
@[simp] theorem State.modFuses_fuses (s : State) (f : Fuses → Fuses) : (s.modFuses f).pkg.fuses = f s.pkg.fuses := rfl
@[simp] theorem State.modFuses_dir (s : State) (f : Fuses → Fuses) : (s.modFuses f).pkg.dir = s.pkg.dir := rfl
@[simp] theorem State.modFuses_fw (s : State) (f : Fuses → Fuses) : (s.modFuses f).pkg.fw = s.pkg.fw := rfl
@[simp] theorem State.modFuses_supply (s : State) (f : Fuses → Fuses) : (s.modFuses f).pkg.supply = s.pkg.supply := rfl
@[simp] theorem State.modFuses_panel (s : State) (f : Fuses → Fuses) : (s.modFuses f).pkg.panel = s.pkg.panel := rfl
@[simp] theorem State.modFuses_die0 (s : State) (f : Fuses → Fuses) : (s.modFuses f).die0 = s.die0 := rfl
@[simp] theorem State.modFuses_die1 (s : State) (f : Fuses → Fuses) : (s.modFuses f).die1 = s.die1 := rfl
@[simp] theorem State.modFuses_free (s : State) (f : Fuses → Fuses) : (s.modFuses f).free = s.free := rfl
@[simp] theorem State.modFuses_outbox (s : State) (f : Fuses → Fuses) : (s.modFuses f).outbox = s.outbox := rfl
@[simp] theorem State.modFuses_pending (s : State) (f : Fuses → Fuses) : (s.modFuses f).pending = s.pending := rfl
@[simp] theorem State.modFuses_die (s : State) (f : Fuses → Fuses) (d : DieId) : (s.modFuses f).die d = s.die d := rfl

/-! ### `State.modPlans` -/

@[simp] theorem State.modPlans_sup (s : State) (f : Plans → Plans) : (s.modPlans f).pkg.sup = s.pkg.sup := rfl
@[simp] theorem State.modPlans_plans (s : State) (f : Plans → Plans) : (s.modPlans f).pkg.plans = f s.pkg.plans := rfl
@[simp] theorem State.modPlans_flash (s : State) (f : Plans → Plans) : (s.modPlans f).pkg.flash = s.pkg.flash := rfl
@[simp] theorem State.modPlans_hb (s : State) (f : Plans → Plans) : (s.modPlans f).pkg.hb = s.pkg.hb := rfl
@[simp] theorem State.modPlans_fuses (s : State) (f : Plans → Plans) : (s.modPlans f).pkg.fuses = s.pkg.fuses := rfl
@[simp] theorem State.modPlans_dir (s : State) (f : Plans → Plans) : (s.modPlans f).pkg.dir = s.pkg.dir := rfl
@[simp] theorem State.modPlans_fw (s : State) (f : Plans → Plans) : (s.modPlans f).pkg.fw = s.pkg.fw := rfl
@[simp] theorem State.modPlans_supply (s : State) (f : Plans → Plans) : (s.modPlans f).pkg.supply = s.pkg.supply := rfl
@[simp] theorem State.modPlans_panel (s : State) (f : Plans → Plans) : (s.modPlans f).pkg.panel = s.pkg.panel := rfl
@[simp] theorem State.modPlans_die0 (s : State) (f : Plans → Plans) : (s.modPlans f).die0 = s.die0 := rfl
@[simp] theorem State.modPlans_die1 (s : State) (f : Plans → Plans) : (s.modPlans f).die1 = s.die1 := rfl
@[simp] theorem State.modPlans_free (s : State) (f : Plans → Plans) : (s.modPlans f).free = s.free := rfl
@[simp] theorem State.modPlans_outbox (s : State) (f : Plans → Plans) : (s.modPlans f).outbox = s.outbox := rfl
@[simp] theorem State.modPlans_pending (s : State) (f : Plans → Plans) : (s.modPlans f).pending = s.pending := rfl
@[simp] theorem State.modPlans_die (s : State) (f : Plans → Plans) (d : DieId) : (s.modPlans f).die d = s.die d := rfl

/-! ### A die -/

/-! #### `Die.setReg` -/

@[simp] theorem Die.setReg_clk (x : Die) (a : Nat) (v : W32) : (x.setReg a v).clk = x.clk := rfl
@[simp] theorem Die.setReg_live (x : Die) (a : Nat) (v : W32) : (x.setReg a v).live = x.live := rfl
@[simp] theorem Die.setReg_tiles (x : Die) (a : Nat) (v : W32) : (x.setReg a v).tiles = x.tiles := rfl
@[simp] theorem Die.setReg_bundles (x : Die) (a : Nat) (v : W32) : (x.setReg a v).bundles = x.bundles := rfl
@[simp] theorem Die.setReg_enc (x : Die) (a : Nat) (v : W32) : (x.setReg a v).enc = x.enc := rfl
@[simp] theorem Die.setReg_cellar (x : Die) (a : Nat) (v : W32) : (x.setReg a v).cellar = x.cellar := rfl
@[simp] theorem Die.setReg_churn (x : Die) (a : Nat) (v : W32) : (x.setReg a v).churn = x.churn := rfl
@[simp] theorem Die.setReg_lanes (x : Die) (a : Nat) (v : W32) : (x.setReg a v).lanes = x.lanes := rfl
@[simp] theorem Die.setReg_nw (x : Die) (a : Nat) (v : W32) : (x.setReg a v).nw = x.nw := rfl
@[simp] theorem Die.setReg_tq (x : Die) (a : Nat) (v : W32) : (x.setReg a v).tq = x.tq := rfl
@[simp] theorem Die.setReg_au (x : Die) (a : Nat) (v : W32) : (x.setReg a v).au = x.au := rfl
@[simp] theorem Die.setReg_sm (x : Die) (a : Nat) (v : W32) : (x.setReg a v).sm = x.sm := rfl
@[simp] theorem Die.setReg_dram (x : Die) (a : Nat) (v : W32) : (x.setReg a v).dram = x.dram := rfl
@[simp] theorem Die.setReg_dma (x : Die) (a : Nat) (v : W32) : (x.setReg a v).dma = x.dma := rfl
@[simp] theorem Die.setReg_par (x : Die) (a : Nat) (v : W32) : (x.setReg a v).par = x.par := rfl
@[simp] theorem Die.setReg_mr (x : Die) (a : Nat) (v : W32) : (x.setReg a v).mr = x.mr := rfl
@[simp] theorem Die.setReg_st (x : Die) (a : Nat) (v : W32) : (x.setReg a v).st = x.st := rfl
@[simp] theorem Die.setReg_sc (x : Die) (a : Nat) (v : W32) : (x.setReg a v).sc = x.sc := rfl
@[simp] theorem Die.setReg_pw (x : Die) (a : Nat) (v : W32) : (x.setReg a v).pw = x.pw := rfl
@[simp] theorem Die.setReg_heat (x : Die) (a : Nat) (v : W32) : (x.setReg a v).heat = x.heat := rfl

/-! #### `Die.setFld` -/

@[simp] theorem Die.setFld_clk (x : Die) (f : Fld) (v : Nat) (i : Nat) (j : Nat) : (x.setFld f v i j).clk = x.clk := rfl
@[simp] theorem Die.setFld_live (x : Die) (f : Fld) (v : Nat) (i : Nat) (j : Nat) : (x.setFld f v i j).live = x.live := rfl
@[simp] theorem Die.setFld_tiles (x : Die) (f : Fld) (v : Nat) (i : Nat) (j : Nat) : (x.setFld f v i j).tiles = x.tiles := rfl
@[simp] theorem Die.setFld_bundles (x : Die) (f : Fld) (v : Nat) (i : Nat) (j : Nat) : (x.setFld f v i j).bundles = x.bundles := rfl
@[simp] theorem Die.setFld_enc (x : Die) (f : Fld) (v : Nat) (i : Nat) (j : Nat) : (x.setFld f v i j).enc = x.enc := rfl
@[simp] theorem Die.setFld_cellar (x : Die) (f : Fld) (v : Nat) (i : Nat) (j : Nat) : (x.setFld f v i j).cellar = x.cellar := rfl
@[simp] theorem Die.setFld_churn (x : Die) (f : Fld) (v : Nat) (i : Nat) (j : Nat) : (x.setFld f v i j).churn = x.churn := rfl
@[simp] theorem Die.setFld_lanes (x : Die) (f : Fld) (v : Nat) (i : Nat) (j : Nat) : (x.setFld f v i j).lanes = x.lanes := rfl
@[simp] theorem Die.setFld_nw (x : Die) (f : Fld) (v : Nat) (i : Nat) (j : Nat) : (x.setFld f v i j).nw = x.nw := rfl
@[simp] theorem Die.setFld_tq (x : Die) (f : Fld) (v : Nat) (i : Nat) (j : Nat) : (x.setFld f v i j).tq = x.tq := rfl
@[simp] theorem Die.setFld_au (x : Die) (f : Fld) (v : Nat) (i : Nat) (j : Nat) : (x.setFld f v i j).au = x.au := rfl
@[simp] theorem Die.setFld_sm (x : Die) (f : Fld) (v : Nat) (i : Nat) (j : Nat) : (x.setFld f v i j).sm = x.sm := rfl
@[simp] theorem Die.setFld_dram (x : Die) (f : Fld) (v : Nat) (i : Nat) (j : Nat) : (x.setFld f v i j).dram = x.dram := rfl
@[simp] theorem Die.setFld_dma (x : Die) (f : Fld) (v : Nat) (i : Nat) (j : Nat) : (x.setFld f v i j).dma = x.dma := rfl
@[simp] theorem Die.setFld_par (x : Die) (f : Fld) (v : Nat) (i : Nat) (j : Nat) : (x.setFld f v i j).par = x.par := rfl
@[simp] theorem Die.setFld_mr (x : Die) (f : Fld) (v : Nat) (i : Nat) (j : Nat) : (x.setFld f v i j).mr = x.mr := rfl
@[simp] theorem Die.setFld_st (x : Die) (f : Fld) (v : Nat) (i : Nat) (j : Nat) : (x.setFld f v i j).st = x.st := rfl
@[simp] theorem Die.setFld_sc (x : Die) (f : Fld) (v : Nat) (i : Nat) (j : Nat) : (x.setFld f v i j).sc = x.sc := rfl
@[simp] theorem Die.setFld_pw (x : Die) (f : Fld) (v : Nat) (i : Nat) (j : Nat) : (x.setFld f v i j).pw = x.pw := rfl
@[simp] theorem Die.setFld_heat (x : Die) (f : Fld) (v : Nat) (i : Nat) (j : Nat) : (x.setFld f v i j).heat = x.heat := rfl

/-! #### `Die.count` -/

@[simp] theorem Die.count_clk (x : Die) (f : Fld) (i : Nat) (n : Nat) : (x.count f i n).clk = x.clk := rfl
@[simp] theorem Die.count_live (x : Die) (f : Fld) (i : Nat) (n : Nat) : (x.count f i n).live = x.live := rfl
@[simp] theorem Die.count_tiles (x : Die) (f : Fld) (i : Nat) (n : Nat) : (x.count f i n).tiles = x.tiles := rfl
@[simp] theorem Die.count_bundles (x : Die) (f : Fld) (i : Nat) (n : Nat) : (x.count f i n).bundles = x.bundles := rfl
@[simp] theorem Die.count_enc (x : Die) (f : Fld) (i : Nat) (n : Nat) : (x.count f i n).enc = x.enc := rfl
@[simp] theorem Die.count_cellar (x : Die) (f : Fld) (i : Nat) (n : Nat) : (x.count f i n).cellar = x.cellar := rfl
@[simp] theorem Die.count_churn (x : Die) (f : Fld) (i : Nat) (n : Nat) : (x.count f i n).churn = x.churn := rfl
@[simp] theorem Die.count_lanes (x : Die) (f : Fld) (i : Nat) (n : Nat) : (x.count f i n).lanes = x.lanes := rfl
@[simp] theorem Die.count_nw (x : Die) (f : Fld) (i : Nat) (n : Nat) : (x.count f i n).nw = x.nw := rfl
@[simp] theorem Die.count_tq (x : Die) (f : Fld) (i : Nat) (n : Nat) : (x.count f i n).tq = x.tq := rfl
@[simp] theorem Die.count_au (x : Die) (f : Fld) (i : Nat) (n : Nat) : (x.count f i n).au = x.au := rfl
@[simp] theorem Die.count_sm (x : Die) (f : Fld) (i : Nat) (n : Nat) : (x.count f i n).sm = x.sm := rfl
@[simp] theorem Die.count_dram (x : Die) (f : Fld) (i : Nat) (n : Nat) : (x.count f i n).dram = x.dram := rfl
@[simp] theorem Die.count_dma (x : Die) (f : Fld) (i : Nat) (n : Nat) : (x.count f i n).dma = x.dma := rfl
@[simp] theorem Die.count_par (x : Die) (f : Fld) (i : Nat) (n : Nat) : (x.count f i n).par = x.par := rfl
@[simp] theorem Die.count_mr (x : Die) (f : Fld) (i : Nat) (n : Nat) : (x.count f i n).mr = x.mr := rfl
@[simp] theorem Die.count_st (x : Die) (f : Fld) (i : Nat) (n : Nat) : (x.count f i n).st = x.st := rfl
@[simp] theorem Die.count_sc (x : Die) (f : Fld) (i : Nat) (n : Nat) : (x.count f i n).sc = x.sc := rfl
@[simp] theorem Die.count_pw (x : Die) (f : Fld) (i : Nat) (n : Nat) : (x.count f i n).pw = x.pw := rfl
@[simp] theorem Die.count_heat (x : Die) (f : Fld) (i : Nat) (n : Nat) : (x.count f i n).heat = x.heat := rfl

/-! #### `Die.setBit` -/

@[simp] theorem Die.setBit_clk (x : Die) (f : Fld) (i b : Nat) (v : Bool) : (x.setBit f i b v).clk = x.clk := rfl
@[simp] theorem Die.setBit_live (x : Die) (f : Fld) (i b : Nat) (v : Bool) : (x.setBit f i b v).live = x.live := rfl
@[simp] theorem Die.setBit_tiles (x : Die) (f : Fld) (i b : Nat) (v : Bool) : (x.setBit f i b v).tiles = x.tiles := rfl
@[simp] theorem Die.setBit_bundles (x : Die) (f : Fld) (i b : Nat) (v : Bool) : (x.setBit f i b v).bundles = x.bundles := rfl
@[simp] theorem Die.setBit_enc (x : Die) (f : Fld) (i b : Nat) (v : Bool) : (x.setBit f i b v).enc = x.enc := rfl
@[simp] theorem Die.setBit_cellar (x : Die) (f : Fld) (i b : Nat) (v : Bool) : (x.setBit f i b v).cellar = x.cellar := rfl
@[simp] theorem Die.setBit_churn (x : Die) (f : Fld) (i b : Nat) (v : Bool) : (x.setBit f i b v).churn = x.churn := rfl
@[simp] theorem Die.setBit_lanes (x : Die) (f : Fld) (i b : Nat) (v : Bool) : (x.setBit f i b v).lanes = x.lanes := rfl
@[simp] theorem Die.setBit_nw (x : Die) (f : Fld) (i b : Nat) (v : Bool) : (x.setBit f i b v).nw = x.nw := rfl
@[simp] theorem Die.setBit_tq (x : Die) (f : Fld) (i b : Nat) (v : Bool) : (x.setBit f i b v).tq = x.tq := rfl
@[simp] theorem Die.setBit_au (x : Die) (f : Fld) (i b : Nat) (v : Bool) : (x.setBit f i b v).au = x.au := rfl
@[simp] theorem Die.setBit_sm (x : Die) (f : Fld) (i b : Nat) (v : Bool) : (x.setBit f i b v).sm = x.sm := rfl
@[simp] theorem Die.setBit_dram (x : Die) (f : Fld) (i b : Nat) (v : Bool) : (x.setBit f i b v).dram = x.dram := rfl
@[simp] theorem Die.setBit_dma (x : Die) (f : Fld) (i b : Nat) (v : Bool) : (x.setBit f i b v).dma = x.dma := rfl
@[simp] theorem Die.setBit_par (x : Die) (f : Fld) (i b : Nat) (v : Bool) : (x.setBit f i b v).par = x.par := rfl
@[simp] theorem Die.setBit_mr (x : Die) (f : Fld) (i b : Nat) (v : Bool) : (x.setBit f i b v).mr = x.mr := rfl
@[simp] theorem Die.setBit_st (x : Die) (f : Fld) (i b : Nat) (v : Bool) : (x.setBit f i b v).st = x.st := rfl
@[simp] theorem Die.setBit_sc (x : Die) (f : Fld) (i b : Nat) (v : Bool) : (x.setBit f i b v).sc = x.sc := rfl
@[simp] theorem Die.setBit_pw (x : Die) (f : Fld) (i b : Nat) (v : Bool) : (x.setBit f i b v).pw = x.pw := rfl
@[simp] theorem Die.setBit_heat (x : Die) (f : Fld) (i b : Nat) (v : Bool) : (x.setBit f i b v).heat = x.heat := rfl

/-! #### `Die.setRole` -/

@[simp] theorem Die.setRole_clk (x : Die) (p r : Nat) : (x.setRole p r).clk = x.clk := rfl
@[simp] theorem Die.setRole_live (x : Die) (p r : Nat) : (x.setRole p r).live = x.live := rfl
@[simp] theorem Die.setRole_tiles (x : Die) (p r : Nat) : (x.setRole p r).tiles = x.tiles := rfl
@[simp] theorem Die.setRole_bundles (x : Die) (p r : Nat) : (x.setRole p r).bundles = x.bundles := rfl
@[simp] theorem Die.setRole_enc (x : Die) (p r : Nat) : (x.setRole p r).enc = x.enc := rfl
@[simp] theorem Die.setRole_cellar (x : Die) (p r : Nat) : (x.setRole p r).cellar = x.cellar := rfl
@[simp] theorem Die.setRole_churn (x : Die) (p r : Nat) : (x.setRole p r).churn = x.churn := rfl
@[simp] theorem Die.setRole_lanes (x : Die) (p r : Nat) : (x.setRole p r).lanes = x.lanes := rfl
@[simp] theorem Die.setRole_nw (x : Die) (p r : Nat) : (x.setRole p r).nw = x.nw := rfl
@[simp] theorem Die.setRole_tq (x : Die) (p r : Nat) : (x.setRole p r).tq = x.tq := rfl
@[simp] theorem Die.setRole_au (x : Die) (p r : Nat) : (x.setRole p r).au = x.au := rfl
@[simp] theorem Die.setRole_sm (x : Die) (p r : Nat) : (x.setRole p r).sm = x.sm := rfl
@[simp] theorem Die.setRole_dram (x : Die) (p r : Nat) : (x.setRole p r).dram = x.dram := rfl
@[simp] theorem Die.setRole_dma (x : Die) (p r : Nat) : (x.setRole p r).dma = x.dma := rfl
@[simp] theorem Die.setRole_par (x : Die) (p r : Nat) : (x.setRole p r).par = x.par := rfl
@[simp] theorem Die.setRole_mr (x : Die) (p r : Nat) : (x.setRole p r).mr = x.mr := rfl
@[simp] theorem Die.setRole_st (x : Die) (p r : Nat) : (x.setRole p r).st = x.st := rfl
@[simp] theorem Die.setRole_sc (x : Die) (p r : Nat) : (x.setRole p r).sc = x.sc := rfl
@[simp] theorem Die.setRole_pw (x : Die) (p r : Nat) : (x.setRole p r).pw = x.pw := rfl
@[simp] theorem Die.setRole_heat (x : Die) (p r : Nat) : (x.setRole p r).heat = x.heat := rfl

/-! #### `Die.lose` -/

@[simp] theorem Die.lose_clk (x : Die) (groups : Nat) : (x.lose groups).clk = x.clk := rfl
@[simp] theorem Die.lose_live (x : Die) (groups : Nat) : (x.lose groups).live = x.live := rfl
@[simp] theorem Die.lose_tiles (x : Die) (groups : Nat) : (x.lose groups).tiles = x.tiles := rfl
@[simp] theorem Die.lose_bundles (x : Die) (groups : Nat) : (x.lose groups).bundles = x.bundles := rfl
@[simp] theorem Die.lose_enc (x : Die) (groups : Nat) : (x.lose groups).enc = x.enc := rfl
@[simp] theorem Die.lose_cellar (x : Die) (groups : Nat) : (x.lose groups).cellar = x.cellar := rfl
@[simp] theorem Die.lose_churn (x : Die) (groups : Nat) : (x.lose groups).churn = x.churn := rfl
@[simp] theorem Die.lose_lanes (x : Die) (groups : Nat) : (x.lose groups).lanes = x.lanes := rfl
@[simp] theorem Die.lose_nw (x : Die) (groups : Nat) : (x.lose groups).nw = x.nw := rfl
@[simp] theorem Die.lose_tq (x : Die) (groups : Nat) : (x.lose groups).tq = x.tq := rfl
@[simp] theorem Die.lose_au (x : Die) (groups : Nat) : (x.lose groups).au = x.au := rfl
@[simp] theorem Die.lose_sm (x : Die) (groups : Nat) : (x.lose groups).sm = x.sm := rfl
@[simp] theorem Die.lose_dram (x : Die) (groups : Nat) : (x.lose groups).dram = x.dram := rfl
@[simp] theorem Die.lose_dma (x : Die) (groups : Nat) : (x.lose groups).dma = x.dma := rfl
@[simp] theorem Die.lose_par (x : Die) (groups : Nat) : (x.lose groups).par = x.par := rfl
@[simp] theorem Die.lose_mr (x : Die) (groups : Nat) : (x.lose groups).mr = x.mr := rfl
@[simp] theorem Die.lose_st (x : Die) (groups : Nat) : (x.lose groups).st = x.st := rfl
@[simp] theorem Die.lose_sc (x : Die) (groups : Nat) : (x.lose groups).sc = x.sc := rfl
@[simp] theorem Die.lose_pw (x : Die) (groups : Nat) : (x.lose groups).pw = x.pw := rfl
@[simp] theorem Die.lose_heat (x : Die) (groups : Nat) : (x.lose groups).heat = x.heat := rfl

/-! #### `Die.modCad` -/

@[simp] theorem Die.modCad_regs (x : Die) (c : Nat) (f : Cad → Cad) : (x.modCad c f).regs = x.regs := rfl
@[simp] theorem Die.modCad_live (x : Die) (c : Nat) (f : Cad → Cad) : (x.modCad c f).live = x.live := rfl
@[simp] theorem Die.modCad_tiles (x : Die) (c : Nat) (f : Cad → Cad) : (x.modCad c f).tiles = x.tiles := rfl
@[simp] theorem Die.modCad_bundles (x : Die) (c : Nat) (f : Cad → Cad) : (x.modCad c f).bundles = x.bundles := rfl
@[simp] theorem Die.modCad_enc (x : Die) (c : Nat) (f : Cad → Cad) : (x.modCad c f).enc = x.enc := rfl
@[simp] theorem Die.modCad_cellar (x : Die) (c : Nat) (f : Cad → Cad) : (x.modCad c f).cellar = x.cellar := rfl
@[simp] theorem Die.modCad_churn (x : Die) (c : Nat) (f : Cad → Cad) : (x.modCad c f).churn = x.churn := rfl
@[simp] theorem Die.modCad_lanes (x : Die) (c : Nat) (f : Cad → Cad) : (x.modCad c f).lanes = x.lanes := rfl
@[simp] theorem Die.modCad_nw (x : Die) (c : Nat) (f : Cad → Cad) : (x.modCad c f).nw = x.nw := rfl
@[simp] theorem Die.modCad_tq (x : Die) (c : Nat) (f : Cad → Cad) : (x.modCad c f).tq = x.tq := rfl
@[simp] theorem Die.modCad_au (x : Die) (c : Nat) (f : Cad → Cad) : (x.modCad c f).au = x.au := rfl
@[simp] theorem Die.modCad_sm (x : Die) (c : Nat) (f : Cad → Cad) : (x.modCad c f).sm = x.sm := rfl
@[simp] theorem Die.modCad_dram (x : Die) (c : Nat) (f : Cad → Cad) : (x.modCad c f).dram = x.dram := rfl
@[simp] theorem Die.modCad_dma (x : Die) (c : Nat) (f : Cad → Cad) : (x.modCad c f).dma = x.dma := rfl
@[simp] theorem Die.modCad_par (x : Die) (c : Nat) (f : Cad → Cad) : (x.modCad c f).par = x.par := rfl
@[simp] theorem Die.modCad_mr (x : Die) (c : Nat) (f : Cad → Cad) : (x.modCad c f).mr = x.mr := rfl
@[simp] theorem Die.modCad_st (x : Die) (c : Nat) (f : Cad → Cad) : (x.modCad c f).st = x.st := rfl
@[simp] theorem Die.modCad_sc (x : Die) (c : Nat) (f : Cad → Cad) : (x.modCad c f).sc = x.sc := rfl
@[simp] theorem Die.modCad_pw (x : Die) (c : Nat) (f : Cad → Cad) : (x.modCad c f).pw = x.pw := rfl
@[simp] theorem Die.modCad_heat (x : Die) (c : Nat) (f : Cad → Cad) : (x.modCad c f).heat = x.heat := rfl

/-! #### `Die.modServo` -/

@[simp] theorem Die.modServo_regs (x : Die) (backup : Bool) (f : Servo → Servo) : (x.modServo backup f).regs = x.regs := rfl
@[simp] theorem Die.modServo_live (x : Die) (backup : Bool) (f : Servo → Servo) : (x.modServo backup f).live = x.live := rfl
@[simp] theorem Die.modServo_tiles (x : Die) (backup : Bool) (f : Servo → Servo) : (x.modServo backup f).tiles = x.tiles := rfl
@[simp] theorem Die.modServo_bundles (x : Die) (backup : Bool) (f : Servo → Servo) : (x.modServo backup f).bundles = x.bundles := rfl
@[simp] theorem Die.modServo_enc (x : Die) (backup : Bool) (f : Servo → Servo) : (x.modServo backup f).enc = x.enc := rfl
@[simp] theorem Die.modServo_cellar (x : Die) (backup : Bool) (f : Servo → Servo) : (x.modServo backup f).cellar = x.cellar := rfl
@[simp] theorem Die.modServo_churn (x : Die) (backup : Bool) (f : Servo → Servo) : (x.modServo backup f).churn = x.churn := rfl
@[simp] theorem Die.modServo_lanes (x : Die) (backup : Bool) (f : Servo → Servo) : (x.modServo backup f).lanes = x.lanes := rfl
@[simp] theorem Die.modServo_nw (x : Die) (backup : Bool) (f : Servo → Servo) : (x.modServo backup f).nw = x.nw := rfl
@[simp] theorem Die.modServo_tq (x : Die) (backup : Bool) (f : Servo → Servo) : (x.modServo backup f).tq = x.tq := rfl
@[simp] theorem Die.modServo_au (x : Die) (backup : Bool) (f : Servo → Servo) : (x.modServo backup f).au = x.au := rfl
@[simp] theorem Die.modServo_sm (x : Die) (backup : Bool) (f : Servo → Servo) : (x.modServo backup f).sm = x.sm := rfl
@[simp] theorem Die.modServo_dram (x : Die) (backup : Bool) (f : Servo → Servo) : (x.modServo backup f).dram = x.dram := rfl
@[simp] theorem Die.modServo_dma (x : Die) (backup : Bool) (f : Servo → Servo) : (x.modServo backup f).dma = x.dma := rfl
@[simp] theorem Die.modServo_par (x : Die) (backup : Bool) (f : Servo → Servo) : (x.modServo backup f).par = x.par := rfl
@[simp] theorem Die.modServo_mr (x : Die) (backup : Bool) (f : Servo → Servo) : (x.modServo backup f).mr = x.mr := rfl
@[simp] theorem Die.modServo_st (x : Die) (backup : Bool) (f : Servo → Servo) : (x.modServo backup f).st = x.st := rfl
@[simp] theorem Die.modServo_sc (x : Die) (backup : Bool) (f : Servo → Servo) : (x.modServo backup f).sc = x.sc := rfl
@[simp] theorem Die.modServo_pw (x : Die) (backup : Bool) (f : Servo → Servo) : (x.modServo backup f).pw = x.pw := rfl
@[simp] theorem Die.modServo_heat (x : Die) (backup : Bool) (f : Servo → Servo) : (x.modServo backup f).heat = x.heat := rfl

/-! #### `Die.setTile` -/

@[simp] theorem Die.setTile_regs (x : Die) (i : Nat) (t : Tile) : (x.setTile i t).regs = x.regs := rfl
@[simp] theorem Die.setTile_clk (x : Die) (i : Nat) (t : Tile) : (x.setTile i t).clk = x.clk := rfl
@[simp] theorem Die.setTile_live (x : Die) (i : Nat) (t : Tile) : (x.setTile i t).live = x.live := rfl
@[simp] theorem Die.setTile_bundles (x : Die) (i : Nat) (t : Tile) : (x.setTile i t).bundles = x.bundles := rfl
@[simp] theorem Die.setTile_enc (x : Die) (i : Nat) (t : Tile) : (x.setTile i t).enc = x.enc := rfl
@[simp] theorem Die.setTile_cellar (x : Die) (i : Nat) (t : Tile) : (x.setTile i t).cellar = x.cellar := rfl
@[simp] theorem Die.setTile_churn (x : Die) (i : Nat) (t : Tile) : (x.setTile i t).churn = x.churn := rfl
@[simp] theorem Die.setTile_lanes (x : Die) (i : Nat) (t : Tile) : (x.setTile i t).lanes = x.lanes := rfl
@[simp] theorem Die.setTile_nw (x : Die) (i : Nat) (t : Tile) : (x.setTile i t).nw = x.nw := rfl
@[simp] theorem Die.setTile_tq (x : Die) (i : Nat) (t : Tile) : (x.setTile i t).tq = x.tq := rfl
@[simp] theorem Die.setTile_au (x : Die) (i : Nat) (t : Tile) : (x.setTile i t).au = x.au := rfl
@[simp] theorem Die.setTile_sm (x : Die) (i : Nat) (t : Tile) : (x.setTile i t).sm = x.sm := rfl
@[simp] theorem Die.setTile_dram (x : Die) (i : Nat) (t : Tile) : (x.setTile i t).dram = x.dram := rfl
@[simp] theorem Die.setTile_dma (x : Die) (i : Nat) (t : Tile) : (x.setTile i t).dma = x.dma := rfl
@[simp] theorem Die.setTile_par (x : Die) (i : Nat) (t : Tile) : (x.setTile i t).par = x.par := rfl
@[simp] theorem Die.setTile_mr (x : Die) (i : Nat) (t : Tile) : (x.setTile i t).mr = x.mr := rfl
@[simp] theorem Die.setTile_st (x : Die) (i : Nat) (t : Tile) : (x.setTile i t).st = x.st := rfl
@[simp] theorem Die.setTile_sc (x : Die) (i : Nat) (t : Tile) : (x.setTile i t).sc = x.sc := rfl
@[simp] theorem Die.setTile_pw (x : Die) (i : Nat) (t : Tile) : (x.setTile i t).pw = x.pw := rfl
@[simp] theorem Die.setTile_heat (x : Die) (i : Nat) (t : Tile) : (x.setTile i t).heat = x.heat := rfl

/-! #### `Die.modCore` -/

@[simp] theorem Die.modCore_regs (x : Die) (c : Nat) (f : CoreSt → CoreSt) : (x.modCore c f).regs = x.regs := rfl
@[simp] theorem Die.modCore_clk (x : Die) (c : Nat) (f : CoreSt → CoreSt) : (x.modCore c f).clk = x.clk := rfl
@[simp] theorem Die.modCore_live (x : Die) (c : Nat) (f : CoreSt → CoreSt) : (x.modCore c f).live = x.live := rfl
@[simp] theorem Die.modCore_tiles (x : Die) (c : Nat) (f : CoreSt → CoreSt) : (x.modCore c f).tiles = x.tiles := rfl
@[simp] theorem Die.modCore_bundles (x : Die) (c : Nat) (f : CoreSt → CoreSt) : (x.modCore c f).bundles = x.bundles := rfl
@[simp] theorem Die.modCore_enc (x : Die) (c : Nat) (f : CoreSt → CoreSt) : (x.modCore c f).enc = x.enc := rfl
@[simp] theorem Die.modCore_cellar (x : Die) (c : Nat) (f : CoreSt → CoreSt) : (x.modCore c f).cellar = x.cellar := rfl
@[simp] theorem Die.modCore_churn (x : Die) (c : Nat) (f : CoreSt → CoreSt) : (x.modCore c f).churn = x.churn := rfl
@[simp] theorem Die.modCore_lanes (x : Die) (c : Nat) (f : CoreSt → CoreSt) : (x.modCore c f).lanes = x.lanes := rfl
@[simp] theorem Die.modCore_nw (x : Die) (c : Nat) (f : CoreSt → CoreSt) : (x.modCore c f).nw = x.nw := rfl
@[simp] theorem Die.modCore_tq (x : Die) (c : Nat) (f : CoreSt → CoreSt) : (x.modCore c f).tq = x.tq := rfl
@[simp] theorem Die.modCore_au (x : Die) (c : Nat) (f : CoreSt → CoreSt) : (x.modCore c f).au = x.au := rfl
@[simp] theorem Die.modCore_sm (x : Die) (c : Nat) (f : CoreSt → CoreSt) : (x.modCore c f).sm = x.sm := rfl
@[simp] theorem Die.modCore_dram (x : Die) (c : Nat) (f : CoreSt → CoreSt) : (x.modCore c f).dram = x.dram := rfl
@[simp] theorem Die.modCore_dma (x : Die) (c : Nat) (f : CoreSt → CoreSt) : (x.modCore c f).dma = x.dma := rfl
@[simp] theorem Die.modCore_mr (x : Die) (c : Nat) (f : CoreSt → CoreSt) : (x.modCore c f).mr = x.mr := rfl
@[simp] theorem Die.modCore_st (x : Die) (c : Nat) (f : CoreSt → CoreSt) : (x.modCore c f).st = x.st := rfl
@[simp] theorem Die.modCore_sc (x : Die) (c : Nat) (f : CoreSt → CoreSt) : (x.modCore c f).sc = x.sc := rfl
@[simp] theorem Die.modCore_pw (x : Die) (c : Nat) (f : CoreSt → CoreSt) : (x.modCore c f).pw = x.pw := rfl
@[simp] theorem Die.modCore_heat (x : Die) (c : Nat) (f : CoreSt → CoreSt) : (x.modCore c f).heat = x.heat := rfl

/-! #### `Die.modTh` -/

@[simp] theorem Die.modTh_regs (x : Die) (n : Nat) (f : Thread → Thread) : (x.modTh n f).regs = x.regs := rfl
@[simp] theorem Die.modTh_clk (x : Die) (n : Nat) (f : Thread → Thread) : (x.modTh n f).clk = x.clk := rfl
@[simp] theorem Die.modTh_live (x : Die) (n : Nat) (f : Thread → Thread) : (x.modTh n f).live = x.live := rfl
@[simp] theorem Die.modTh_tiles (x : Die) (n : Nat) (f : Thread → Thread) : (x.modTh n f).tiles = x.tiles := rfl
@[simp] theorem Die.modTh_bundles (x : Die) (n : Nat) (f : Thread → Thread) : (x.modTh n f).bundles = x.bundles := rfl
@[simp] theorem Die.modTh_enc (x : Die) (n : Nat) (f : Thread → Thread) : (x.modTh n f).enc = x.enc := rfl
@[simp] theorem Die.modTh_cellar (x : Die) (n : Nat) (f : Thread → Thread) : (x.modTh n f).cellar = x.cellar := rfl
@[simp] theorem Die.modTh_churn (x : Die) (n : Nat) (f : Thread → Thread) : (x.modTh n f).churn = x.churn := rfl
@[simp] theorem Die.modTh_lanes (x : Die) (n : Nat) (f : Thread → Thread) : (x.modTh n f).lanes = x.lanes := rfl
@[simp] theorem Die.modTh_nw (x : Die) (n : Nat) (f : Thread → Thread) : (x.modTh n f).nw = x.nw := rfl
@[simp] theorem Die.modTh_tq (x : Die) (n : Nat) (f : Thread → Thread) : (x.modTh n f).tq = x.tq := rfl
@[simp] theorem Die.modTh_au (x : Die) (n : Nat) (f : Thread → Thread) : (x.modTh n f).au = x.au := rfl
@[simp] theorem Die.modTh_sm (x : Die) (n : Nat) (f : Thread → Thread) : (x.modTh n f).sm = x.sm := rfl
@[simp] theorem Die.modTh_dram (x : Die) (n : Nat) (f : Thread → Thread) : (x.modTh n f).dram = x.dram := rfl
@[simp] theorem Die.modTh_dma (x : Die) (n : Nat) (f : Thread → Thread) : (x.modTh n f).dma = x.dma := rfl
@[simp] theorem Die.modTh_mr (x : Die) (n : Nat) (f : Thread → Thread) : (x.modTh n f).mr = x.mr := rfl
@[simp] theorem Die.modTh_st (x : Die) (n : Nat) (f : Thread → Thread) : (x.modTh n f).st = x.st := rfl
@[simp] theorem Die.modTh_sc (x : Die) (n : Nat) (f : Thread → Thread) : (x.modTh n f).sc = x.sc := rfl
@[simp] theorem Die.modTh_pw (x : Die) (n : Nat) (f : Thread → Thread) : (x.modTh n f).pw = x.pw := rfl
@[simp] theorem Die.modTh_heat (x : Die) (n : Nat) (f : Thread → Thread) : (x.modTh n f).heat = x.heat := rfl

/-! #### `Die.modMr` -/

@[simp] theorem Die.modMr_regs (x : Die) (f : Pairing → Pairing) : (x.modMr f).regs = x.regs := rfl
@[simp] theorem Die.modMr_clk (x : Die) (f : Pairing → Pairing) : (x.modMr f).clk = x.clk := rfl
@[simp] theorem Die.modMr_live (x : Die) (f : Pairing → Pairing) : (x.modMr f).live = x.live := rfl
@[simp] theorem Die.modMr_tiles (x : Die) (f : Pairing → Pairing) : (x.modMr f).tiles = x.tiles := rfl
@[simp] theorem Die.modMr_bundles (x : Die) (f : Pairing → Pairing) : (x.modMr f).bundles = x.bundles := rfl
@[simp] theorem Die.modMr_enc (x : Die) (f : Pairing → Pairing) : (x.modMr f).enc = x.enc := rfl
@[simp] theorem Die.modMr_cellar (x : Die) (f : Pairing → Pairing) : (x.modMr f).cellar = x.cellar := rfl
@[simp] theorem Die.modMr_churn (x : Die) (f : Pairing → Pairing) : (x.modMr f).churn = x.churn := rfl
@[simp] theorem Die.modMr_lanes (x : Die) (f : Pairing → Pairing) : (x.modMr f).lanes = x.lanes := rfl
@[simp] theorem Die.modMr_nw (x : Die) (f : Pairing → Pairing) : (x.modMr f).nw = x.nw := rfl
@[simp] theorem Die.modMr_tq (x : Die) (f : Pairing → Pairing) : (x.modMr f).tq = x.tq := rfl
@[simp] theorem Die.modMr_au (x : Die) (f : Pairing → Pairing) : (x.modMr f).au = x.au := rfl
@[simp] theorem Die.modMr_sm (x : Die) (f : Pairing → Pairing) : (x.modMr f).sm = x.sm := rfl
@[simp] theorem Die.modMr_dram (x : Die) (f : Pairing → Pairing) : (x.modMr f).dram = x.dram := rfl
@[simp] theorem Die.modMr_dma (x : Die) (f : Pairing → Pairing) : (x.modMr f).dma = x.dma := rfl
@[simp] theorem Die.modMr_par (x : Die) (f : Pairing → Pairing) : (x.modMr f).par = x.par := rfl
@[simp] theorem Die.modMr_st (x : Die) (f : Pairing → Pairing) : (x.modMr f).st = x.st := rfl
@[simp] theorem Die.modMr_sc (x : Die) (f : Pairing → Pairing) : (x.modMr f).sc = x.sc := rfl
@[simp] theorem Die.modMr_pw (x : Die) (f : Pairing → Pairing) : (x.modMr f).pw = x.pw := rfl
@[simp] theorem Die.modMr_heat (x : Die) (f : Pairing → Pairing) : (x.modMr f).heat = x.heat := rfl

/-! #### `Die.modPail` -/

@[simp] theorem Die.modPail_regs (x : Die) (p : Nat) (f : PailSt → PailSt) : (x.modPail p f).regs = x.regs := rfl
@[simp] theorem Die.modPail_clk (x : Die) (p : Nat) (f : PailSt → PailSt) : (x.modPail p f).clk = x.clk := rfl
@[simp] theorem Die.modPail_live (x : Die) (p : Nat) (f : PailSt → PailSt) : (x.modPail p f).live = x.live := rfl
@[simp] theorem Die.modPail_tiles (x : Die) (p : Nat) (f : PailSt → PailSt) : (x.modPail p f).tiles = x.tiles := rfl
@[simp] theorem Die.modPail_bundles (x : Die) (p : Nat) (f : PailSt → PailSt) : (x.modPail p f).bundles = x.bundles := rfl
@[simp] theorem Die.modPail_enc (x : Die) (p : Nat) (f : PailSt → PailSt) : (x.modPail p f).enc = x.enc := rfl
@[simp] theorem Die.modPail_cellar (x : Die) (p : Nat) (f : PailSt → PailSt) : (x.modPail p f).cellar = x.cellar := rfl
@[simp] theorem Die.modPail_churn (x : Die) (p : Nat) (f : PailSt → PailSt) : (x.modPail p f).churn = x.churn := rfl
@[simp] theorem Die.modPail_lanes (x : Die) (p : Nat) (f : PailSt → PailSt) : (x.modPail p f).lanes = x.lanes := rfl
@[simp] theorem Die.modPail_nw (x : Die) (p : Nat) (f : PailSt → PailSt) : (x.modPail p f).nw = x.nw := rfl
@[simp] theorem Die.modPail_tq (x : Die) (p : Nat) (f : PailSt → PailSt) : (x.modPail p f).tq = x.tq := rfl
@[simp] theorem Die.modPail_au (x : Die) (p : Nat) (f : PailSt → PailSt) : (x.modPail p f).au = x.au := rfl
@[simp] theorem Die.modPail_sm (x : Die) (p : Nat) (f : PailSt → PailSt) : (x.modPail p f).sm = x.sm := rfl
@[simp] theorem Die.modPail_dram (x : Die) (p : Nat) (f : PailSt → PailSt) : (x.modPail p f).dram = x.dram := rfl
@[simp] theorem Die.modPail_dma (x : Die) (p : Nat) (f : PailSt → PailSt) : (x.modPail p f).dma = x.dma := rfl
@[simp] theorem Die.modPail_par (x : Die) (p : Nat) (f : PailSt → PailSt) : (x.modPail p f).par = x.par := rfl
@[simp] theorem Die.modPail_st (x : Die) (p : Nat) (f : PailSt → PailSt) : (x.modPail p f).st = x.st := rfl
@[simp] theorem Die.modPail_sc (x : Die) (p : Nat) (f : PailSt → PailSt) : (x.modPail p f).sc = x.sc := rfl
@[simp] theorem Die.modPail_pw (x : Die) (p : Nat) (f : PailSt → PailSt) : (x.modPail p f).pw = x.pw := rfl
@[simp] theorem Die.modPail_heat (x : Die) (p : Nat) (f : PailSt → PailSt) : (x.modPail p f).heat = x.heat := rfl

/-! #### `Die.modEnc` -/

@[simp] theorem Die.modEnc_regs (x : Die) (n : Nat) (f : EncChan → EncChan) : (x.modEnc n f).regs = x.regs := rfl
@[simp] theorem Die.modEnc_clk (x : Die) (n : Nat) (f : EncChan → EncChan) : (x.modEnc n f).clk = x.clk := rfl
@[simp] theorem Die.modEnc_live (x : Die) (n : Nat) (f : EncChan → EncChan) : (x.modEnc n f).live = x.live := rfl
@[simp] theorem Die.modEnc_tiles (x : Die) (n : Nat) (f : EncChan → EncChan) : (x.modEnc n f).tiles = x.tiles := rfl
@[simp] theorem Die.modEnc_bundles (x : Die) (n : Nat) (f : EncChan → EncChan) : (x.modEnc n f).bundles = x.bundles := rfl
@[simp] theorem Die.modEnc_cellar (x : Die) (n : Nat) (f : EncChan → EncChan) : (x.modEnc n f).cellar = x.cellar := rfl
@[simp] theorem Die.modEnc_churn (x : Die) (n : Nat) (f : EncChan → EncChan) : (x.modEnc n f).churn = x.churn := rfl
@[simp] theorem Die.modEnc_lanes (x : Die) (n : Nat) (f : EncChan → EncChan) : (x.modEnc n f).lanes = x.lanes := rfl
@[simp] theorem Die.modEnc_nw (x : Die) (n : Nat) (f : EncChan → EncChan) : (x.modEnc n f).nw = x.nw := rfl
@[simp] theorem Die.modEnc_tq (x : Die) (n : Nat) (f : EncChan → EncChan) : (x.modEnc n f).tq = x.tq := rfl
@[simp] theorem Die.modEnc_au (x : Die) (n : Nat) (f : EncChan → EncChan) : (x.modEnc n f).au = x.au := rfl
@[simp] theorem Die.modEnc_sm (x : Die) (n : Nat) (f : EncChan → EncChan) : (x.modEnc n f).sm = x.sm := rfl
@[simp] theorem Die.modEnc_dram (x : Die) (n : Nat) (f : EncChan → EncChan) : (x.modEnc n f).dram = x.dram := rfl
@[simp] theorem Die.modEnc_dma (x : Die) (n : Nat) (f : EncChan → EncChan) : (x.modEnc n f).dma = x.dma := rfl
@[simp] theorem Die.modEnc_par (x : Die) (n : Nat) (f : EncChan → EncChan) : (x.modEnc n f).par = x.par := rfl
@[simp] theorem Die.modEnc_mr (x : Die) (n : Nat) (f : EncChan → EncChan) : (x.modEnc n f).mr = x.mr := rfl
@[simp] theorem Die.modEnc_st (x : Die) (n : Nat) (f : EncChan → EncChan) : (x.modEnc n f).st = x.st := rfl
@[simp] theorem Die.modEnc_sc (x : Die) (n : Nat) (f : EncChan → EncChan) : (x.modEnc n f).sc = x.sc := rfl
@[simp] theorem Die.modEnc_pw (x : Die) (n : Nat) (f : EncChan → EncChan) : (x.modEnc n f).pw = x.pw := rfl
@[simp] theorem Die.modEnc_heat (x : Die) (n : Nat) (f : EncChan → EncChan) : (x.modEnc n f).heat = x.heat := rfl

/-! #### `Die.hitFragment` -/

@[simp] theorem Die.hitFragment_regs (x : Die) (frag cause : Nat) : (x.hitFragment frag cause).regs = x.regs := by unfold Die.hitFragment; split <;> rfl
@[simp] theorem Die.hitFragment_clk (x : Die) (frag cause : Nat) : (x.hitFragment frag cause).clk = x.clk := by unfold Die.hitFragment; split <;> rfl
@[simp] theorem Die.hitFragment_live (x : Die) (frag cause : Nat) : (x.hitFragment frag cause).live = x.live := by unfold Die.hitFragment; split <;> rfl
@[simp] theorem Die.hitFragment_tiles (x : Die) (frag cause : Nat) : (x.hitFragment frag cause).tiles = x.tiles := by unfold Die.hitFragment; split <;> rfl
@[simp] theorem Die.hitFragment_bundles (x : Die) (frag cause : Nat) : (x.hitFragment frag cause).bundles = x.bundles := by unfold Die.hitFragment; split <;> rfl
@[simp] theorem Die.hitFragment_cellar (x : Die) (frag cause : Nat) : (x.hitFragment frag cause).cellar = x.cellar := by unfold Die.hitFragment; split <;> rfl
@[simp] theorem Die.hitFragment_churn (x : Die) (frag cause : Nat) : (x.hitFragment frag cause).churn = x.churn := by unfold Die.hitFragment; split <;> rfl
@[simp] theorem Die.hitFragment_lanes (x : Die) (frag cause : Nat) : (x.hitFragment frag cause).lanes = x.lanes := by unfold Die.hitFragment; split <;> rfl
@[simp] theorem Die.hitFragment_nw (x : Die) (frag cause : Nat) : (x.hitFragment frag cause).nw = x.nw := by unfold Die.hitFragment; split <;> rfl
@[simp] theorem Die.hitFragment_tq (x : Die) (frag cause : Nat) : (x.hitFragment frag cause).tq = x.tq := by unfold Die.hitFragment; split <;> rfl
@[simp] theorem Die.hitFragment_au (x : Die) (frag cause : Nat) : (x.hitFragment frag cause).au = x.au := by unfold Die.hitFragment; split <;> rfl
@[simp] theorem Die.hitFragment_sm (x : Die) (frag cause : Nat) : (x.hitFragment frag cause).sm = x.sm := by unfold Die.hitFragment; split <;> rfl
@[simp] theorem Die.hitFragment_dram (x : Die) (frag cause : Nat) : (x.hitFragment frag cause).dram = x.dram := by unfold Die.hitFragment; split <;> rfl
@[simp] theorem Die.hitFragment_dma (x : Die) (frag cause : Nat) : (x.hitFragment frag cause).dma = x.dma := by unfold Die.hitFragment; split <;> rfl
@[simp] theorem Die.hitFragment_par (x : Die) (frag cause : Nat) : (x.hitFragment frag cause).par = x.par := by unfold Die.hitFragment; split <;> rfl
@[simp] theorem Die.hitFragment_mr (x : Die) (frag cause : Nat) : (x.hitFragment frag cause).mr = x.mr := by unfold Die.hitFragment; split <;> rfl
@[simp] theorem Die.hitFragment_st (x : Die) (frag cause : Nat) : (x.hitFragment frag cause).st = x.st := by unfold Die.hitFragment; split <;> rfl
@[simp] theorem Die.hitFragment_sc (x : Die) (frag cause : Nat) : (x.hitFragment frag cause).sc = x.sc := by unfold Die.hitFragment; split <;> rfl
@[simp] theorem Die.hitFragment_pw (x : Die) (frag cause : Nat) : (x.hitFragment frag cause).pw = x.pw := by unfold Die.hitFragment; split <;> rfl
@[simp] theorem Die.hitFragment_heat (x : Die) (frag cause : Nat) : (x.hitFragment frag cause).heat = x.heat := by unfold Die.hitFragment; split <;> rfl

/-! #### `Die.modDec` -/

@[simp] theorem Die.modDec_regs (x : Die) (n : Nat) (f : DecChan → DecChan) : (x.modDec n f).regs = x.regs := rfl
@[simp] theorem Die.modDec_clk (x : Die) (n : Nat) (f : DecChan → DecChan) : (x.modDec n f).clk = x.clk := rfl
@[simp] theorem Die.modDec_live (x : Die) (n : Nat) (f : DecChan → DecChan) : (x.modDec n f).live = x.live := rfl
@[simp] theorem Die.modDec_tiles (x : Die) (n : Nat) (f : DecChan → DecChan) : (x.modDec n f).tiles = x.tiles := rfl
@[simp] theorem Die.modDec_bundles (x : Die) (n : Nat) (f : DecChan → DecChan) : (x.modDec n f).bundles = x.bundles := rfl
@[simp] theorem Die.modDec_enc (x : Die) (n : Nat) (f : DecChan → DecChan) : (x.modDec n f).enc = x.enc := rfl
@[simp] theorem Die.modDec_churn (x : Die) (n : Nat) (f : DecChan → DecChan) : (x.modDec n f).churn = x.churn := rfl
@[simp] theorem Die.modDec_lanes (x : Die) (n : Nat) (f : DecChan → DecChan) : (x.modDec n f).lanes = x.lanes := rfl
@[simp] theorem Die.modDec_nw (x : Die) (n : Nat) (f : DecChan → DecChan) : (x.modDec n f).nw = x.nw := rfl
@[simp] theorem Die.modDec_tq (x : Die) (n : Nat) (f : DecChan → DecChan) : (x.modDec n f).tq = x.tq := rfl
@[simp] theorem Die.modDec_au (x : Die) (n : Nat) (f : DecChan → DecChan) : (x.modDec n f).au = x.au := rfl
@[simp] theorem Die.modDec_sm (x : Die) (n : Nat) (f : DecChan → DecChan) : (x.modDec n f).sm = x.sm := rfl
@[simp] theorem Die.modDec_dram (x : Die) (n : Nat) (f : DecChan → DecChan) : (x.modDec n f).dram = x.dram := rfl
@[simp] theorem Die.modDec_dma (x : Die) (n : Nat) (f : DecChan → DecChan) : (x.modDec n f).dma = x.dma := rfl
@[simp] theorem Die.modDec_par (x : Die) (n : Nat) (f : DecChan → DecChan) : (x.modDec n f).par = x.par := rfl
@[simp] theorem Die.modDec_mr (x : Die) (n : Nat) (f : DecChan → DecChan) : (x.modDec n f).mr = x.mr := rfl
@[simp] theorem Die.modDec_st (x : Die) (n : Nat) (f : DecChan → DecChan) : (x.modDec n f).st = x.st := rfl
@[simp] theorem Die.modDec_sc (x : Die) (n : Nat) (f : DecChan → DecChan) : (x.modDec n f).sc = x.sc := rfl
@[simp] theorem Die.modDec_pw (x : Die) (n : Nat) (f : DecChan → DecChan) : (x.modDec n f).pw = x.pw := rfl
@[simp] theorem Die.modDec_heat (x : Die) (n : Nat) (f : DecChan → DecChan) : (x.modDec n f).heat = x.heat := rfl

/-! #### `Die.modStore` -/

@[simp] theorem Die.modStore_regs (x : Die) (n : Nat) (f : FrameStore → FrameStore) : (x.modStore n f).regs = x.regs := rfl
@[simp] theorem Die.modStore_clk (x : Die) (n : Nat) (f : FrameStore → FrameStore) : (x.modStore n f).clk = x.clk := rfl
@[simp] theorem Die.modStore_live (x : Die) (n : Nat) (f : FrameStore → FrameStore) : (x.modStore n f).live = x.live := rfl
@[simp] theorem Die.modStore_tiles (x : Die) (n : Nat) (f : FrameStore → FrameStore) : (x.modStore n f).tiles = x.tiles := rfl
@[simp] theorem Die.modStore_bundles (x : Die) (n : Nat) (f : FrameStore → FrameStore) : (x.modStore n f).bundles = x.bundles := rfl
@[simp] theorem Die.modStore_enc (x : Die) (n : Nat) (f : FrameStore → FrameStore) : (x.modStore n f).enc = x.enc := rfl
@[simp] theorem Die.modStore_churn (x : Die) (n : Nat) (f : FrameStore → FrameStore) : (x.modStore n f).churn = x.churn := rfl
@[simp] theorem Die.modStore_lanes (x : Die) (n : Nat) (f : FrameStore → FrameStore) : (x.modStore n f).lanes = x.lanes := rfl
@[simp] theorem Die.modStore_nw (x : Die) (n : Nat) (f : FrameStore → FrameStore) : (x.modStore n f).nw = x.nw := rfl
@[simp] theorem Die.modStore_tq (x : Die) (n : Nat) (f : FrameStore → FrameStore) : (x.modStore n f).tq = x.tq := rfl
@[simp] theorem Die.modStore_au (x : Die) (n : Nat) (f : FrameStore → FrameStore) : (x.modStore n f).au = x.au := rfl
@[simp] theorem Die.modStore_sm (x : Die) (n : Nat) (f : FrameStore → FrameStore) : (x.modStore n f).sm = x.sm := rfl
@[simp] theorem Die.modStore_dram (x : Die) (n : Nat) (f : FrameStore → FrameStore) : (x.modStore n f).dram = x.dram := rfl
@[simp] theorem Die.modStore_dma (x : Die) (n : Nat) (f : FrameStore → FrameStore) : (x.modStore n f).dma = x.dma := rfl
@[simp] theorem Die.modStore_par (x : Die) (n : Nat) (f : FrameStore → FrameStore) : (x.modStore n f).par = x.par := rfl
@[simp] theorem Die.modStore_mr (x : Die) (n : Nat) (f : FrameStore → FrameStore) : (x.modStore n f).mr = x.mr := rfl
@[simp] theorem Die.modStore_st (x : Die) (n : Nat) (f : FrameStore → FrameStore) : (x.modStore n f).st = x.st := rfl
@[simp] theorem Die.modStore_sc (x : Die) (n : Nat) (f : FrameStore → FrameStore) : (x.modStore n f).sc = x.sc := rfl
@[simp] theorem Die.modStore_pw (x : Die) (n : Nat) (f : FrameStore → FrameStore) : (x.modStore n f).pw = x.pw := rfl
@[simp] theorem Die.modStore_heat (x : Die) (n : Nat) (f : FrameStore → FrameStore) : (x.modStore n f).heat = x.heat := rfl

/-! #### `Die.modChurn` -/

@[simp] theorem Die.modChurn_regs (x : Die) (n : Nat) (f : ChurnChan → ChurnChan) : (x.modChurn n f).regs = x.regs := rfl
@[simp] theorem Die.modChurn_clk (x : Die) (n : Nat) (f : ChurnChan → ChurnChan) : (x.modChurn n f).clk = x.clk := rfl
@[simp] theorem Die.modChurn_live (x : Die) (n : Nat) (f : ChurnChan → ChurnChan) : (x.modChurn n f).live = x.live := rfl
@[simp] theorem Die.modChurn_tiles (x : Die) (n : Nat) (f : ChurnChan → ChurnChan) : (x.modChurn n f).tiles = x.tiles := rfl
@[simp] theorem Die.modChurn_bundles (x : Die) (n : Nat) (f : ChurnChan → ChurnChan) : (x.modChurn n f).bundles = x.bundles := rfl
@[simp] theorem Die.modChurn_enc (x : Die) (n : Nat) (f : ChurnChan → ChurnChan) : (x.modChurn n f).enc = x.enc := rfl
@[simp] theorem Die.modChurn_cellar (x : Die) (n : Nat) (f : ChurnChan → ChurnChan) : (x.modChurn n f).cellar = x.cellar := rfl
@[simp] theorem Die.modChurn_lanes (x : Die) (n : Nat) (f : ChurnChan → ChurnChan) : (x.modChurn n f).lanes = x.lanes := rfl
@[simp] theorem Die.modChurn_nw (x : Die) (n : Nat) (f : ChurnChan → ChurnChan) : (x.modChurn n f).nw = x.nw := rfl
@[simp] theorem Die.modChurn_tq (x : Die) (n : Nat) (f : ChurnChan → ChurnChan) : (x.modChurn n f).tq = x.tq := rfl
@[simp] theorem Die.modChurn_au (x : Die) (n : Nat) (f : ChurnChan → ChurnChan) : (x.modChurn n f).au = x.au := rfl
@[simp] theorem Die.modChurn_sm (x : Die) (n : Nat) (f : ChurnChan → ChurnChan) : (x.modChurn n f).sm = x.sm := rfl
@[simp] theorem Die.modChurn_dram (x : Die) (n : Nat) (f : ChurnChan → ChurnChan) : (x.modChurn n f).dram = x.dram := rfl
@[simp] theorem Die.modChurn_dma (x : Die) (n : Nat) (f : ChurnChan → ChurnChan) : (x.modChurn n f).dma = x.dma := rfl
@[simp] theorem Die.modChurn_par (x : Die) (n : Nat) (f : ChurnChan → ChurnChan) : (x.modChurn n f).par = x.par := rfl
@[simp] theorem Die.modChurn_mr (x : Die) (n : Nat) (f : ChurnChan → ChurnChan) : (x.modChurn n f).mr = x.mr := rfl
@[simp] theorem Die.modChurn_st (x : Die) (n : Nat) (f : ChurnChan → ChurnChan) : (x.modChurn n f).st = x.st := rfl
@[simp] theorem Die.modChurn_sc (x : Die) (n : Nat) (f : ChurnChan → ChurnChan) : (x.modChurn n f).sc = x.sc := rfl
@[simp] theorem Die.modChurn_pw (x : Die) (n : Nat) (f : ChurnChan → ChurnChan) : (x.modChurn n f).pw = x.pw := rfl
@[simp] theorem Die.modChurn_heat (x : Die) (n : Nat) (f : ChurnChan → ChurnChan) : (x.modChurn n f).heat = x.heat := rfl

/-! #### `Die.modLayer` -/

@[simp] theorem Die.modLayer_regs (x : Die) (n l : Nat) (f : Layer → Layer) : (x.modLayer n l f).regs = x.regs := rfl
@[simp] theorem Die.modLayer_clk (x : Die) (n l : Nat) (f : Layer → Layer) : (x.modLayer n l f).clk = x.clk := rfl
@[simp] theorem Die.modLayer_live (x : Die) (n l : Nat) (f : Layer → Layer) : (x.modLayer n l f).live = x.live := rfl
@[simp] theorem Die.modLayer_tiles (x : Die) (n l : Nat) (f : Layer → Layer) : (x.modLayer n l f).tiles = x.tiles := rfl
@[simp] theorem Die.modLayer_bundles (x : Die) (n l : Nat) (f : Layer → Layer) : (x.modLayer n l f).bundles = x.bundles := rfl
@[simp] theorem Die.modLayer_enc (x : Die) (n l : Nat) (f : Layer → Layer) : (x.modLayer n l f).enc = x.enc := rfl
@[simp] theorem Die.modLayer_cellar (x : Die) (n l : Nat) (f : Layer → Layer) : (x.modLayer n l f).cellar = x.cellar := rfl
@[simp] theorem Die.modLayer_lanes (x : Die) (n l : Nat) (f : Layer → Layer) : (x.modLayer n l f).lanes = x.lanes := rfl
@[simp] theorem Die.modLayer_nw (x : Die) (n l : Nat) (f : Layer → Layer) : (x.modLayer n l f).nw = x.nw := rfl
@[simp] theorem Die.modLayer_tq (x : Die) (n l : Nat) (f : Layer → Layer) : (x.modLayer n l f).tq = x.tq := rfl
@[simp] theorem Die.modLayer_au (x : Die) (n l : Nat) (f : Layer → Layer) : (x.modLayer n l f).au = x.au := rfl
@[simp] theorem Die.modLayer_sm (x : Die) (n l : Nat) (f : Layer → Layer) : (x.modLayer n l f).sm = x.sm := rfl
@[simp] theorem Die.modLayer_dram (x : Die) (n l : Nat) (f : Layer → Layer) : (x.modLayer n l f).dram = x.dram := rfl
@[simp] theorem Die.modLayer_dma (x : Die) (n l : Nat) (f : Layer → Layer) : (x.modLayer n l f).dma = x.dma := rfl
@[simp] theorem Die.modLayer_par (x : Die) (n l : Nat) (f : Layer → Layer) : (x.modLayer n l f).par = x.par := rfl
@[simp] theorem Die.modLayer_mr (x : Die) (n l : Nat) (f : Layer → Layer) : (x.modLayer n l f).mr = x.mr := rfl
@[simp] theorem Die.modLayer_st (x : Die) (n l : Nat) (f : Layer → Layer) : (x.modLayer n l f).st = x.st := rfl
@[simp] theorem Die.modLayer_sc (x : Die) (n l : Nat) (f : Layer → Layer) : (x.modLayer n l f).sc = x.sc := rfl
@[simp] theorem Die.modLayer_pw (x : Die) (n l : Nat) (f : Layer → Layer) : (x.modLayer n l f).pw = x.pw := rfl
@[simp] theorem Die.modLayer_heat (x : Die) (n l : Nat) (f : Layer → Layer) : (x.modLayer n l f).heat = x.heat := rfl

/-! #### `Die.modLane` -/

@[simp] theorem Die.modLane_regs (x : Die) (k : Nat) (f : Lane → Lane) : (x.modLane k f).regs = x.regs := rfl
@[simp] theorem Die.modLane_clk (x : Die) (k : Nat) (f : Lane → Lane) : (x.modLane k f).clk = x.clk := rfl
@[simp] theorem Die.modLane_live (x : Die) (k : Nat) (f : Lane → Lane) : (x.modLane k f).live = x.live := rfl
@[simp] theorem Die.modLane_tiles (x : Die) (k : Nat) (f : Lane → Lane) : (x.modLane k f).tiles = x.tiles := rfl
@[simp] theorem Die.modLane_bundles (x : Die) (k : Nat) (f : Lane → Lane) : (x.modLane k f).bundles = x.bundles := rfl
@[simp] theorem Die.modLane_enc (x : Die) (k : Nat) (f : Lane → Lane) : (x.modLane k f).enc = x.enc := rfl
@[simp] theorem Die.modLane_cellar (x : Die) (k : Nat) (f : Lane → Lane) : (x.modLane k f).cellar = x.cellar := rfl
@[simp] theorem Die.modLane_churn (x : Die) (k : Nat) (f : Lane → Lane) : (x.modLane k f).churn = x.churn := rfl
@[simp] theorem Die.modLane_nw (x : Die) (k : Nat) (f : Lane → Lane) : (x.modLane k f).nw = x.nw := rfl
@[simp] theorem Die.modLane_tq (x : Die) (k : Nat) (f : Lane → Lane) : (x.modLane k f).tq = x.tq := rfl
@[simp] theorem Die.modLane_au (x : Die) (k : Nat) (f : Lane → Lane) : (x.modLane k f).au = x.au := rfl
@[simp] theorem Die.modLane_sm (x : Die) (k : Nat) (f : Lane → Lane) : (x.modLane k f).sm = x.sm := rfl
@[simp] theorem Die.modLane_dram (x : Die) (k : Nat) (f : Lane → Lane) : (x.modLane k f).dram = x.dram := rfl
@[simp] theorem Die.modLane_dma (x : Die) (k : Nat) (f : Lane → Lane) : (x.modLane k f).dma = x.dma := rfl
@[simp] theorem Die.modLane_par (x : Die) (k : Nat) (f : Lane → Lane) : (x.modLane k f).par = x.par := rfl
@[simp] theorem Die.modLane_mr (x : Die) (k : Nat) (f : Lane → Lane) : (x.modLane k f).mr = x.mr := rfl
@[simp] theorem Die.modLane_st (x : Die) (k : Nat) (f : Lane → Lane) : (x.modLane k f).st = x.st := rfl
@[simp] theorem Die.modLane_sc (x : Die) (k : Nat) (f : Lane → Lane) : (x.modLane k f).sc = x.sc := rfl
@[simp] theorem Die.modLane_pw (x : Die) (k : Nat) (f : Lane → Lane) : (x.modLane k f).pw = x.pw := rfl
@[simp] theorem Die.modLane_heat (x : Die) (k : Nat) (f : Lane → Lane) : (x.modLane k f).heat = x.heat := rfl

/-! #### `Die.modRx` -/

@[simp] theorem Die.modRx_regs (x : Die) (f : Nat) (g : RxFlow → RxFlow) : (x.modRx f g).regs = x.regs := rfl
@[simp] theorem Die.modRx_clk (x : Die) (f : Nat) (g : RxFlow → RxFlow) : (x.modRx f g).clk = x.clk := rfl
@[simp] theorem Die.modRx_live (x : Die) (f : Nat) (g : RxFlow → RxFlow) : (x.modRx f g).live = x.live := rfl
@[simp] theorem Die.modRx_tiles (x : Die) (f : Nat) (g : RxFlow → RxFlow) : (x.modRx f g).tiles = x.tiles := rfl
@[simp] theorem Die.modRx_bundles (x : Die) (f : Nat) (g : RxFlow → RxFlow) : (x.modRx f g).bundles = x.bundles := rfl
@[simp] theorem Die.modRx_enc (x : Die) (f : Nat) (g : RxFlow → RxFlow) : (x.modRx f g).enc = x.enc := rfl
@[simp] theorem Die.modRx_cellar (x : Die) (f : Nat) (g : RxFlow → RxFlow) : (x.modRx f g).cellar = x.cellar := rfl
@[simp] theorem Die.modRx_churn (x : Die) (f : Nat) (g : RxFlow → RxFlow) : (x.modRx f g).churn = x.churn := rfl
@[simp] theorem Die.modRx_lanes (x : Die) (f : Nat) (g : RxFlow → RxFlow) : (x.modRx f g).lanes = x.lanes := rfl
@[simp] theorem Die.modRx_tq (x : Die) (f : Nat) (g : RxFlow → RxFlow) : (x.modRx f g).tq = x.tq := rfl
@[simp] theorem Die.modRx_au (x : Die) (f : Nat) (g : RxFlow → RxFlow) : (x.modRx f g).au = x.au := rfl
@[simp] theorem Die.modRx_sm (x : Die) (f : Nat) (g : RxFlow → RxFlow) : (x.modRx f g).sm = x.sm := rfl
@[simp] theorem Die.modRx_dram (x : Die) (f : Nat) (g : RxFlow → RxFlow) : (x.modRx f g).dram = x.dram := rfl
@[simp] theorem Die.modRx_dma (x : Die) (f : Nat) (g : RxFlow → RxFlow) : (x.modRx f g).dma = x.dma := rfl
@[simp] theorem Die.modRx_par (x : Die) (f : Nat) (g : RxFlow → RxFlow) : (x.modRx f g).par = x.par := rfl
@[simp] theorem Die.modRx_mr (x : Die) (f : Nat) (g : RxFlow → RxFlow) : (x.modRx f g).mr = x.mr := rfl
@[simp] theorem Die.modRx_st (x : Die) (f : Nat) (g : RxFlow → RxFlow) : (x.modRx f g).st = x.st := rfl
@[simp] theorem Die.modRx_sc (x : Die) (f : Nat) (g : RxFlow → RxFlow) : (x.modRx f g).sc = x.sc := rfl
@[simp] theorem Die.modRx_pw (x : Die) (f : Nat) (g : RxFlow → RxFlow) : (x.modRx f g).pw = x.pw := rfl
@[simp] theorem Die.modRx_heat (x : Die) (f : Nat) (g : RxFlow → RxFlow) : (x.modRx f g).heat = x.heat := rfl

/-! #### `Die.modTx` -/

@[simp] theorem Die.modTx_regs (x : Die) (f : Nat) (g : TxFlow → TxFlow) : (x.modTx f g).regs = x.regs := rfl
@[simp] theorem Die.modTx_clk (x : Die) (f : Nat) (g : TxFlow → TxFlow) : (x.modTx f g).clk = x.clk := rfl
@[simp] theorem Die.modTx_live (x : Die) (f : Nat) (g : TxFlow → TxFlow) : (x.modTx f g).live = x.live := rfl
@[simp] theorem Die.modTx_tiles (x : Die) (f : Nat) (g : TxFlow → TxFlow) : (x.modTx f g).tiles = x.tiles := rfl
@[simp] theorem Die.modTx_bundles (x : Die) (f : Nat) (g : TxFlow → TxFlow) : (x.modTx f g).bundles = x.bundles := rfl
@[simp] theorem Die.modTx_enc (x : Die) (f : Nat) (g : TxFlow → TxFlow) : (x.modTx f g).enc = x.enc := rfl
@[simp] theorem Die.modTx_cellar (x : Die) (f : Nat) (g : TxFlow → TxFlow) : (x.modTx f g).cellar = x.cellar := rfl
@[simp] theorem Die.modTx_churn (x : Die) (f : Nat) (g : TxFlow → TxFlow) : (x.modTx f g).churn = x.churn := rfl
@[simp] theorem Die.modTx_lanes (x : Die) (f : Nat) (g : TxFlow → TxFlow) : (x.modTx f g).lanes = x.lanes := rfl
@[simp] theorem Die.modTx_tq (x : Die) (f : Nat) (g : TxFlow → TxFlow) : (x.modTx f g).tq = x.tq := rfl
@[simp] theorem Die.modTx_au (x : Die) (f : Nat) (g : TxFlow → TxFlow) : (x.modTx f g).au = x.au := rfl
@[simp] theorem Die.modTx_sm (x : Die) (f : Nat) (g : TxFlow → TxFlow) : (x.modTx f g).sm = x.sm := rfl
@[simp] theorem Die.modTx_dram (x : Die) (f : Nat) (g : TxFlow → TxFlow) : (x.modTx f g).dram = x.dram := rfl
@[simp] theorem Die.modTx_dma (x : Die) (f : Nat) (g : TxFlow → TxFlow) : (x.modTx f g).dma = x.dma := rfl
@[simp] theorem Die.modTx_par (x : Die) (f : Nat) (g : TxFlow → TxFlow) : (x.modTx f g).par = x.par := rfl
@[simp] theorem Die.modTx_mr (x : Die) (f : Nat) (g : TxFlow → TxFlow) : (x.modTx f g).mr = x.mr := rfl
@[simp] theorem Die.modTx_st (x : Die) (f : Nat) (g : TxFlow → TxFlow) : (x.modTx f g).st = x.st := rfl
@[simp] theorem Die.modTx_sc (x : Die) (f : Nat) (g : TxFlow → TxFlow) : (x.modTx f g).sc = x.sc := rfl
@[simp] theorem Die.modTx_pw (x : Die) (f : Nat) (g : TxFlow → TxFlow) : (x.modTx f g).pw = x.pw := rfl
@[simp] theorem Die.modTx_heat (x : Die) (f : Nat) (g : TxFlow → TxFlow) : (x.modTx f g).heat = x.heat := rfl

/-! #### `Die.modPort` -/

@[simp] theorem Die.modPort_regs (x : Die) (sp : Nat) (f : SubPort → SubPort) : (x.modPort sp f).regs = x.regs := rfl
@[simp] theorem Die.modPort_clk (x : Die) (sp : Nat) (f : SubPort → SubPort) : (x.modPort sp f).clk = x.clk := rfl
@[simp] theorem Die.modPort_live (x : Die) (sp : Nat) (f : SubPort → SubPort) : (x.modPort sp f).live = x.live := rfl
@[simp] theorem Die.modPort_tiles (x : Die) (sp : Nat) (f : SubPort → SubPort) : (x.modPort sp f).tiles = x.tiles := rfl
@[simp] theorem Die.modPort_bundles (x : Die) (sp : Nat) (f : SubPort → SubPort) : (x.modPort sp f).bundles = x.bundles := rfl
@[simp] theorem Die.modPort_enc (x : Die) (sp : Nat) (f : SubPort → SubPort) : (x.modPort sp f).enc = x.enc := rfl
@[simp] theorem Die.modPort_cellar (x : Die) (sp : Nat) (f : SubPort → SubPort) : (x.modPort sp f).cellar = x.cellar := rfl
@[simp] theorem Die.modPort_churn (x : Die) (sp : Nat) (f : SubPort → SubPort) : (x.modPort sp f).churn = x.churn := rfl
@[simp] theorem Die.modPort_lanes (x : Die) (sp : Nat) (f : SubPort → SubPort) : (x.modPort sp f).lanes = x.lanes := rfl
@[simp] theorem Die.modPort_tq (x : Die) (sp : Nat) (f : SubPort → SubPort) : (x.modPort sp f).tq = x.tq := rfl
@[simp] theorem Die.modPort_au (x : Die) (sp : Nat) (f : SubPort → SubPort) : (x.modPort sp f).au = x.au := rfl
@[simp] theorem Die.modPort_sm (x : Die) (sp : Nat) (f : SubPort → SubPort) : (x.modPort sp f).sm = x.sm := rfl
@[simp] theorem Die.modPort_dram (x : Die) (sp : Nat) (f : SubPort → SubPort) : (x.modPort sp f).dram = x.dram := rfl
@[simp] theorem Die.modPort_dma (x : Die) (sp : Nat) (f : SubPort → SubPort) : (x.modPort sp f).dma = x.dma := rfl
@[simp] theorem Die.modPort_par (x : Die) (sp : Nat) (f : SubPort → SubPort) : (x.modPort sp f).par = x.par := rfl
@[simp] theorem Die.modPort_mr (x : Die) (sp : Nat) (f : SubPort → SubPort) : (x.modPort sp f).mr = x.mr := rfl
@[simp] theorem Die.modPort_st (x : Die) (sp : Nat) (f : SubPort → SubPort) : (x.modPort sp f).st = x.st := rfl
@[simp] theorem Die.modPort_sc (x : Die) (sp : Nat) (f : SubPort → SubPort) : (x.modPort sp f).sc = x.sc := rfl
@[simp] theorem Die.modPort_pw (x : Die) (sp : Nat) (f : SubPort → SubPort) : (x.modPort sp f).pw = x.pw := rfl
@[simp] theorem Die.modPort_heat (x : Die) (sp : Nat) (f : SubPort → SubPort) : (x.modPort sp f).heat = x.heat := rfl

/-! #### `Die.modPtp` -/

@[simp] theorem Die.modPtp_regs (x : Die) (f : Ptp → Ptp) : (x.modPtp f).regs = x.regs := rfl
@[simp] theorem Die.modPtp_clk (x : Die) (f : Ptp → Ptp) : (x.modPtp f).clk = x.clk := rfl
@[simp] theorem Die.modPtp_live (x : Die) (f : Ptp → Ptp) : (x.modPtp f).live = x.live := rfl
@[simp] theorem Die.modPtp_tiles (x : Die) (f : Ptp → Ptp) : (x.modPtp f).tiles = x.tiles := rfl
@[simp] theorem Die.modPtp_bundles (x : Die) (f : Ptp → Ptp) : (x.modPtp f).bundles = x.bundles := rfl
@[simp] theorem Die.modPtp_enc (x : Die) (f : Ptp → Ptp) : (x.modPtp f).enc = x.enc := rfl
@[simp] theorem Die.modPtp_cellar (x : Die) (f : Ptp → Ptp) : (x.modPtp f).cellar = x.cellar := rfl
@[simp] theorem Die.modPtp_churn (x : Die) (f : Ptp → Ptp) : (x.modPtp f).churn = x.churn := rfl
@[simp] theorem Die.modPtp_lanes (x : Die) (f : Ptp → Ptp) : (x.modPtp f).lanes = x.lanes := rfl
@[simp] theorem Die.modPtp_tq (x : Die) (f : Ptp → Ptp) : (x.modPtp f).tq = x.tq := rfl
@[simp] theorem Die.modPtp_au (x : Die) (f : Ptp → Ptp) : (x.modPtp f).au = x.au := rfl
@[simp] theorem Die.modPtp_sm (x : Die) (f : Ptp → Ptp) : (x.modPtp f).sm = x.sm := rfl
@[simp] theorem Die.modPtp_dram (x : Die) (f : Ptp → Ptp) : (x.modPtp f).dram = x.dram := rfl
@[simp] theorem Die.modPtp_dma (x : Die) (f : Ptp → Ptp) : (x.modPtp f).dma = x.dma := rfl
@[simp] theorem Die.modPtp_par (x : Die) (f : Ptp → Ptp) : (x.modPtp f).par = x.par := rfl
@[simp] theorem Die.modPtp_mr (x : Die) (f : Ptp → Ptp) : (x.modPtp f).mr = x.mr := rfl
@[simp] theorem Die.modPtp_st (x : Die) (f : Ptp → Ptp) : (x.modPtp f).st = x.st := rfl
@[simp] theorem Die.modPtp_sc (x : Die) (f : Ptp → Ptp) : (x.modPtp f).sc = x.sc := rfl
@[simp] theorem Die.modPtp_pw (x : Die) (f : Ptp → Ptp) : (x.modPtp f).pw = x.pw := rfl
@[simp] theorem Die.modPtp_heat (x : Die) (f : Ptp → Ptp) : (x.modPtp f).heat = x.heat := rfl

/-! #### `Die.setQueue` -/

@[simp] theorem Die.setQueue_regs (x : Die) (q : QId) (v : EgQueue) : (x.setQueue q v).regs = x.regs := rfl
@[simp] theorem Die.setQueue_clk (x : Die) (q : QId) (v : EgQueue) : (x.setQueue q v).clk = x.clk := rfl
@[simp] theorem Die.setQueue_live (x : Die) (q : QId) (v : EgQueue) : (x.setQueue q v).live = x.live := rfl
@[simp] theorem Die.setQueue_tiles (x : Die) (q : QId) (v : EgQueue) : (x.setQueue q v).tiles = x.tiles := rfl
@[simp] theorem Die.setQueue_bundles (x : Die) (q : QId) (v : EgQueue) : (x.setQueue q v).bundles = x.bundles := rfl
@[simp] theorem Die.setQueue_enc (x : Die) (q : QId) (v : EgQueue) : (x.setQueue q v).enc = x.enc := rfl
@[simp] theorem Die.setQueue_cellar (x : Die) (q : QId) (v : EgQueue) : (x.setQueue q v).cellar = x.cellar := rfl
@[simp] theorem Die.setQueue_churn (x : Die) (q : QId) (v : EgQueue) : (x.setQueue q v).churn = x.churn := rfl
@[simp] theorem Die.setQueue_lanes (x : Die) (q : QId) (v : EgQueue) : (x.setQueue q v).lanes = x.lanes := rfl
@[simp] theorem Die.setQueue_nw (x : Die) (q : QId) (v : EgQueue) : (x.setQueue q v).nw = x.nw := rfl
@[simp] theorem Die.setQueue_au (x : Die) (q : QId) (v : EgQueue) : (x.setQueue q v).au = x.au := rfl
@[simp] theorem Die.setQueue_sm (x : Die) (q : QId) (v : EgQueue) : (x.setQueue q v).sm = x.sm := rfl
@[simp] theorem Die.setQueue_dram (x : Die) (q : QId) (v : EgQueue) : (x.setQueue q v).dram = x.dram := rfl
@[simp] theorem Die.setQueue_dma (x : Die) (q : QId) (v : EgQueue) : (x.setQueue q v).dma = x.dma := rfl
@[simp] theorem Die.setQueue_par (x : Die) (q : QId) (v : EgQueue) : (x.setQueue q v).par = x.par := rfl
@[simp] theorem Die.setQueue_mr (x : Die) (q : QId) (v : EgQueue) : (x.setQueue q v).mr = x.mr := rfl
@[simp] theorem Die.setQueue_st (x : Die) (q : QId) (v : EgQueue) : (x.setQueue q v).st = x.st := rfl
@[simp] theorem Die.setQueue_sc (x : Die) (q : QId) (v : EgQueue) : (x.setQueue q v).sc = x.sc := rfl
@[simp] theorem Die.setQueue_pw (x : Die) (q : QId) (v : EgQueue) : (x.setQueue q v).pw = x.pw := rfl
@[simp] theorem Die.setQueue_heat (x : Die) (q : QId) (v : EgQueue) : (x.setQueue q v).heat = x.heat := rfl

/-! #### `Die.modShaper` -/

@[simp] theorem Die.modShaper_regs (x : Die) (h : Nat) (f : Bucket → Bucket) : (x.modShaper h f).regs = x.regs := rfl
@[simp] theorem Die.modShaper_clk (x : Die) (h : Nat) (f : Bucket → Bucket) : (x.modShaper h f).clk = x.clk := rfl
@[simp] theorem Die.modShaper_live (x : Die) (h : Nat) (f : Bucket → Bucket) : (x.modShaper h f).live = x.live := rfl
@[simp] theorem Die.modShaper_tiles (x : Die) (h : Nat) (f : Bucket → Bucket) : (x.modShaper h f).tiles = x.tiles := rfl
@[simp] theorem Die.modShaper_bundles (x : Die) (h : Nat) (f : Bucket → Bucket) : (x.modShaper h f).bundles = x.bundles := rfl
@[simp] theorem Die.modShaper_enc (x : Die) (h : Nat) (f : Bucket → Bucket) : (x.modShaper h f).enc = x.enc := rfl
@[simp] theorem Die.modShaper_cellar (x : Die) (h : Nat) (f : Bucket → Bucket) : (x.modShaper h f).cellar = x.cellar := rfl
@[simp] theorem Die.modShaper_churn (x : Die) (h : Nat) (f : Bucket → Bucket) : (x.modShaper h f).churn = x.churn := rfl
@[simp] theorem Die.modShaper_lanes (x : Die) (h : Nat) (f : Bucket → Bucket) : (x.modShaper h f).lanes = x.lanes := rfl
@[simp] theorem Die.modShaper_nw (x : Die) (h : Nat) (f : Bucket → Bucket) : (x.modShaper h f).nw = x.nw := rfl
@[simp] theorem Die.modShaper_au (x : Die) (h : Nat) (f : Bucket → Bucket) : (x.modShaper h f).au = x.au := rfl
@[simp] theorem Die.modShaper_sm (x : Die) (h : Nat) (f : Bucket → Bucket) : (x.modShaper h f).sm = x.sm := rfl
@[simp] theorem Die.modShaper_dram (x : Die) (h : Nat) (f : Bucket → Bucket) : (x.modShaper h f).dram = x.dram := rfl
@[simp] theorem Die.modShaper_dma (x : Die) (h : Nat) (f : Bucket → Bucket) : (x.modShaper h f).dma = x.dma := rfl
@[simp] theorem Die.modShaper_par (x : Die) (h : Nat) (f : Bucket → Bucket) : (x.modShaper h f).par = x.par := rfl
@[simp] theorem Die.modShaper_mr (x : Die) (h : Nat) (f : Bucket → Bucket) : (x.modShaper h f).mr = x.mr := rfl
@[simp] theorem Die.modShaper_st (x : Die) (h : Nat) (f : Bucket → Bucket) : (x.modShaper h f).st = x.st := rfl
@[simp] theorem Die.modShaper_sc (x : Die) (h : Nat) (f : Bucket → Bucket) : (x.modShaper h f).sc = x.sc := rfl
@[simp] theorem Die.modShaper_pw (x : Die) (h : Nat) (f : Bucket → Bucket) : (x.modShaper h f).pw = x.pw := rfl
@[simp] theorem Die.modShaper_heat (x : Die) (h : Nat) (f : Bucket → Bucket) : (x.modShaper h f).heat = x.heat := rfl

/-! #### `Die.modGate` -/

@[simp] theorem Die.modGate_regs (x : Die) (sp : Nat) (f : GateSt → GateSt) : (x.modGate sp f).regs = x.regs := rfl
@[simp] theorem Die.modGate_clk (x : Die) (sp : Nat) (f : GateSt → GateSt) : (x.modGate sp f).clk = x.clk := rfl
@[simp] theorem Die.modGate_live (x : Die) (sp : Nat) (f : GateSt → GateSt) : (x.modGate sp f).live = x.live := rfl
@[simp] theorem Die.modGate_tiles (x : Die) (sp : Nat) (f : GateSt → GateSt) : (x.modGate sp f).tiles = x.tiles := rfl
@[simp] theorem Die.modGate_bundles (x : Die) (sp : Nat) (f : GateSt → GateSt) : (x.modGate sp f).bundles = x.bundles := rfl
@[simp] theorem Die.modGate_enc (x : Die) (sp : Nat) (f : GateSt → GateSt) : (x.modGate sp f).enc = x.enc := rfl
@[simp] theorem Die.modGate_cellar (x : Die) (sp : Nat) (f : GateSt → GateSt) : (x.modGate sp f).cellar = x.cellar := rfl
@[simp] theorem Die.modGate_churn (x : Die) (sp : Nat) (f : GateSt → GateSt) : (x.modGate sp f).churn = x.churn := rfl
@[simp] theorem Die.modGate_lanes (x : Die) (sp : Nat) (f : GateSt → GateSt) : (x.modGate sp f).lanes = x.lanes := rfl
@[simp] theorem Die.modGate_nw (x : Die) (sp : Nat) (f : GateSt → GateSt) : (x.modGate sp f).nw = x.nw := rfl
@[simp] theorem Die.modGate_au (x : Die) (sp : Nat) (f : GateSt → GateSt) : (x.modGate sp f).au = x.au := rfl
@[simp] theorem Die.modGate_sm (x : Die) (sp : Nat) (f : GateSt → GateSt) : (x.modGate sp f).sm = x.sm := rfl
@[simp] theorem Die.modGate_dram (x : Die) (sp : Nat) (f : GateSt → GateSt) : (x.modGate sp f).dram = x.dram := rfl
@[simp] theorem Die.modGate_dma (x : Die) (sp : Nat) (f : GateSt → GateSt) : (x.modGate sp f).dma = x.dma := rfl
@[simp] theorem Die.modGate_par (x : Die) (sp : Nat) (f : GateSt → GateSt) : (x.modGate sp f).par = x.par := rfl
@[simp] theorem Die.modGate_mr (x : Die) (sp : Nat) (f : GateSt → GateSt) : (x.modGate sp f).mr = x.mr := rfl
@[simp] theorem Die.modGate_st (x : Die) (sp : Nat) (f : GateSt → GateSt) : (x.modGate sp f).st = x.st := rfl
@[simp] theorem Die.modGate_sc (x : Die) (sp : Nat) (f : GateSt → GateSt) : (x.modGate sp f).sc = x.sc := rfl
@[simp] theorem Die.modGate_pw (x : Die) (sp : Nat) (f : GateSt → GateSt) : (x.modGate sp f).pw = x.pw := rfl
@[simp] theorem Die.modGate_heat (x : Die) (sp : Nat) (f : GateSt → GateSt) : (x.modGate sp f).heat = x.heat := rfl

/-! #### `Die.modAu` -/

@[simp] theorem Die.modAu_regs (x : Die) (g m : Nat) (f : AuMember → AuMember) : (x.modAu g m f).regs = x.regs := rfl
@[simp] theorem Die.modAu_clk (x : Die) (g m : Nat) (f : AuMember → AuMember) : (x.modAu g m f).clk = x.clk := rfl
@[simp] theorem Die.modAu_live (x : Die) (g m : Nat) (f : AuMember → AuMember) : (x.modAu g m f).live = x.live := rfl
@[simp] theorem Die.modAu_tiles (x : Die) (g m : Nat) (f : AuMember → AuMember) : (x.modAu g m f).tiles = x.tiles := rfl
@[simp] theorem Die.modAu_bundles (x : Die) (g m : Nat) (f : AuMember → AuMember) : (x.modAu g m f).bundles = x.bundles := rfl
@[simp] theorem Die.modAu_enc (x : Die) (g m : Nat) (f : AuMember → AuMember) : (x.modAu g m f).enc = x.enc := rfl
@[simp] theorem Die.modAu_cellar (x : Die) (g m : Nat) (f : AuMember → AuMember) : (x.modAu g m f).cellar = x.cellar := rfl
@[simp] theorem Die.modAu_churn (x : Die) (g m : Nat) (f : AuMember → AuMember) : (x.modAu g m f).churn = x.churn := rfl
@[simp] theorem Die.modAu_lanes (x : Die) (g m : Nat) (f : AuMember → AuMember) : (x.modAu g m f).lanes = x.lanes := rfl
@[simp] theorem Die.modAu_nw (x : Die) (g m : Nat) (f : AuMember → AuMember) : (x.modAu g m f).nw = x.nw := rfl
@[simp] theorem Die.modAu_tq (x : Die) (g m : Nat) (f : AuMember → AuMember) : (x.modAu g m f).tq = x.tq := rfl
@[simp] theorem Die.modAu_sm (x : Die) (g m : Nat) (f : AuMember → AuMember) : (x.modAu g m f).sm = x.sm := rfl
@[simp] theorem Die.modAu_dram (x : Die) (g m : Nat) (f : AuMember → AuMember) : (x.modAu g m f).dram = x.dram := rfl
@[simp] theorem Die.modAu_dma (x : Die) (g m : Nat) (f : AuMember → AuMember) : (x.modAu g m f).dma = x.dma := rfl
@[simp] theorem Die.modAu_par (x : Die) (g m : Nat) (f : AuMember → AuMember) : (x.modAu g m f).par = x.par := rfl
@[simp] theorem Die.modAu_mr (x : Die) (g m : Nat) (f : AuMember → AuMember) : (x.modAu g m f).mr = x.mr := rfl
@[simp] theorem Die.modAu_st (x : Die) (g m : Nat) (f : AuMember → AuMember) : (x.modAu g m f).st = x.st := rfl
@[simp] theorem Die.modAu_sc (x : Die) (g m : Nat) (f : AuMember → AuMember) : (x.modAu g m f).sc = x.sc := rfl
@[simp] theorem Die.modAu_pw (x : Die) (g m : Nat) (f : AuMember → AuMember) : (x.modAu g m f).pw = x.pw := rfl
@[simp] theorem Die.modAu_heat (x : Die) (g m : Nat) (f : AuMember → AuMember) : (x.modAu g m f).heat = x.heat := rfl

/-! #### `Die.modAuPort` -/

@[simp] theorem Die.modAuPort_regs (x : Die) (p : Nat) (f : AuPort → AuPort) : (x.modAuPort p f).regs = x.regs := rfl
@[simp] theorem Die.modAuPort_clk (x : Die) (p : Nat) (f : AuPort → AuPort) : (x.modAuPort p f).clk = x.clk := rfl
@[simp] theorem Die.modAuPort_live (x : Die) (p : Nat) (f : AuPort → AuPort) : (x.modAuPort p f).live = x.live := rfl
@[simp] theorem Die.modAuPort_tiles (x : Die) (p : Nat) (f : AuPort → AuPort) : (x.modAuPort p f).tiles = x.tiles := rfl
@[simp] theorem Die.modAuPort_bundles (x : Die) (p : Nat) (f : AuPort → AuPort) : (x.modAuPort p f).bundles = x.bundles := rfl
@[simp] theorem Die.modAuPort_enc (x : Die) (p : Nat) (f : AuPort → AuPort) : (x.modAuPort p f).enc = x.enc := rfl
@[simp] theorem Die.modAuPort_cellar (x : Die) (p : Nat) (f : AuPort → AuPort) : (x.modAuPort p f).cellar = x.cellar := rfl
@[simp] theorem Die.modAuPort_churn (x : Die) (p : Nat) (f : AuPort → AuPort) : (x.modAuPort p f).churn = x.churn := rfl
@[simp] theorem Die.modAuPort_lanes (x : Die) (p : Nat) (f : AuPort → AuPort) : (x.modAuPort p f).lanes = x.lanes := rfl
@[simp] theorem Die.modAuPort_nw (x : Die) (p : Nat) (f : AuPort → AuPort) : (x.modAuPort p f).nw = x.nw := rfl
@[simp] theorem Die.modAuPort_tq (x : Die) (p : Nat) (f : AuPort → AuPort) : (x.modAuPort p f).tq = x.tq := rfl
@[simp] theorem Die.modAuPort_sm (x : Die) (p : Nat) (f : AuPort → AuPort) : (x.modAuPort p f).sm = x.sm := rfl
@[simp] theorem Die.modAuPort_dram (x : Die) (p : Nat) (f : AuPort → AuPort) : (x.modAuPort p f).dram = x.dram := rfl
@[simp] theorem Die.modAuPort_dma (x : Die) (p : Nat) (f : AuPort → AuPort) : (x.modAuPort p f).dma = x.dma := rfl
@[simp] theorem Die.modAuPort_par (x : Die) (p : Nat) (f : AuPort → AuPort) : (x.modAuPort p f).par = x.par := rfl
@[simp] theorem Die.modAuPort_mr (x : Die) (p : Nat) (f : AuPort → AuPort) : (x.modAuPort p f).mr = x.mr := rfl
@[simp] theorem Die.modAuPort_st (x : Die) (p : Nat) (f : AuPort → AuPort) : (x.modAuPort p f).st = x.st := rfl
@[simp] theorem Die.modAuPort_sc (x : Die) (p : Nat) (f : AuPort → AuPort) : (x.modAuPort p f).sc = x.sc := rfl
@[simp] theorem Die.modAuPort_pw (x : Die) (p : Nat) (f : AuPort → AuPort) : (x.modAuPort p f).pw = x.pw := rfl
@[simp] theorem Die.modAuPort_heat (x : Die) (p : Nat) (f : AuPort → AuPort) : (x.modAuPort p f).heat = x.heat := rfl

/-! #### `Die.modAsrc` -/

@[simp] theorem Die.modAsrc_regs (x : Die) (a : Nat) (f : Asrc → Asrc) : (x.modAsrc a f).regs = x.regs := rfl
@[simp] theorem Die.modAsrc_clk (x : Die) (a : Nat) (f : Asrc → Asrc) : (x.modAsrc a f).clk = x.clk := rfl
@[simp] theorem Die.modAsrc_live (x : Die) (a : Nat) (f : Asrc → Asrc) : (x.modAsrc a f).live = x.live := rfl
@[simp] theorem Die.modAsrc_tiles (x : Die) (a : Nat) (f : Asrc → Asrc) : (x.modAsrc a f).tiles = x.tiles := rfl
@[simp] theorem Die.modAsrc_bundles (x : Die) (a : Nat) (f : Asrc → Asrc) : (x.modAsrc a f).bundles = x.bundles := rfl
@[simp] theorem Die.modAsrc_enc (x : Die) (a : Nat) (f : Asrc → Asrc) : (x.modAsrc a f).enc = x.enc := rfl
@[simp] theorem Die.modAsrc_cellar (x : Die) (a : Nat) (f : Asrc → Asrc) : (x.modAsrc a f).cellar = x.cellar := rfl
@[simp] theorem Die.modAsrc_churn (x : Die) (a : Nat) (f : Asrc → Asrc) : (x.modAsrc a f).churn = x.churn := rfl
@[simp] theorem Die.modAsrc_lanes (x : Die) (a : Nat) (f : Asrc → Asrc) : (x.modAsrc a f).lanes = x.lanes := rfl
@[simp] theorem Die.modAsrc_nw (x : Die) (a : Nat) (f : Asrc → Asrc) : (x.modAsrc a f).nw = x.nw := rfl
@[simp] theorem Die.modAsrc_tq (x : Die) (a : Nat) (f : Asrc → Asrc) : (x.modAsrc a f).tq = x.tq := rfl
@[simp] theorem Die.modAsrc_sm (x : Die) (a : Nat) (f : Asrc → Asrc) : (x.modAsrc a f).sm = x.sm := rfl
@[simp] theorem Die.modAsrc_dram (x : Die) (a : Nat) (f : Asrc → Asrc) : (x.modAsrc a f).dram = x.dram := rfl
@[simp] theorem Die.modAsrc_dma (x : Die) (a : Nat) (f : Asrc → Asrc) : (x.modAsrc a f).dma = x.dma := rfl
@[simp] theorem Die.modAsrc_par (x : Die) (a : Nat) (f : Asrc → Asrc) : (x.modAsrc a f).par = x.par := rfl
@[simp] theorem Die.modAsrc_mr (x : Die) (a : Nat) (f : Asrc → Asrc) : (x.modAsrc a f).mr = x.mr := rfl
@[simp] theorem Die.modAsrc_st (x : Die) (a : Nat) (f : Asrc → Asrc) : (x.modAsrc a f).st = x.st := rfl
@[simp] theorem Die.modAsrc_sc (x : Die) (a : Nat) (f : Asrc → Asrc) : (x.modAsrc a f).sc = x.sc := rfl
@[simp] theorem Die.modAsrc_pw (x : Die) (a : Nat) (f : Asrc → Asrc) : (x.modAsrc a f).pw = x.pw := rfl
@[simp] theorem Die.modAsrc_heat (x : Die) (a : Nat) (f : Asrc → Asrc) : (x.modAsrc a f).heat = x.heat := rfl

/-! #### `Die.modSlot` -/

@[simp] theorem Die.modSlot_regs (x : Die) (k : Nat) (f : SmSlot → SmSlot) : (x.modSlot k f).regs = x.regs := rfl
@[simp] theorem Die.modSlot_clk (x : Die) (k : Nat) (f : SmSlot → SmSlot) : (x.modSlot k f).clk = x.clk := rfl
@[simp] theorem Die.modSlot_live (x : Die) (k : Nat) (f : SmSlot → SmSlot) : (x.modSlot k f).live = x.live := rfl
@[simp] theorem Die.modSlot_tiles (x : Die) (k : Nat) (f : SmSlot → SmSlot) : (x.modSlot k f).tiles = x.tiles := rfl
@[simp] theorem Die.modSlot_bundles (x : Die) (k : Nat) (f : SmSlot → SmSlot) : (x.modSlot k f).bundles = x.bundles := rfl
@[simp] theorem Die.modSlot_enc (x : Die) (k : Nat) (f : SmSlot → SmSlot) : (x.modSlot k f).enc = x.enc := rfl
@[simp] theorem Die.modSlot_cellar (x : Die) (k : Nat) (f : SmSlot → SmSlot) : (x.modSlot k f).cellar = x.cellar := rfl
@[simp] theorem Die.modSlot_churn (x : Die) (k : Nat) (f : SmSlot → SmSlot) : (x.modSlot k f).churn = x.churn := rfl
@[simp] theorem Die.modSlot_lanes (x : Die) (k : Nat) (f : SmSlot → SmSlot) : (x.modSlot k f).lanes = x.lanes := rfl
@[simp] theorem Die.modSlot_nw (x : Die) (k : Nat) (f : SmSlot → SmSlot) : (x.modSlot k f).nw = x.nw := rfl
@[simp] theorem Die.modSlot_tq (x : Die) (k : Nat) (f : SmSlot → SmSlot) : (x.modSlot k f).tq = x.tq := rfl
@[simp] theorem Die.modSlot_au (x : Die) (k : Nat) (f : SmSlot → SmSlot) : (x.modSlot k f).au = x.au := rfl
@[simp] theorem Die.modSlot_dram (x : Die) (k : Nat) (f : SmSlot → SmSlot) : (x.modSlot k f).dram = x.dram := rfl
@[simp] theorem Die.modSlot_dma (x : Die) (k : Nat) (f : SmSlot → SmSlot) : (x.modSlot k f).dma = x.dma := rfl
@[simp] theorem Die.modSlot_par (x : Die) (k : Nat) (f : SmSlot → SmSlot) : (x.modSlot k f).par = x.par := rfl
@[simp] theorem Die.modSlot_mr (x : Die) (k : Nat) (f : SmSlot → SmSlot) : (x.modSlot k f).mr = x.mr := rfl
@[simp] theorem Die.modSlot_st (x : Die) (k : Nat) (f : SmSlot → SmSlot) : (x.modSlot k f).st = x.st := rfl
@[simp] theorem Die.modSlot_sc (x : Die) (k : Nat) (f : SmSlot → SmSlot) : (x.modSlot k f).sc = x.sc := rfl
@[simp] theorem Die.modSlot_pw (x : Die) (k : Nat) (f : SmSlot → SmSlot) : (x.modSlot k f).pw = x.pw := rfl
@[simp] theorem Die.modSlot_heat (x : Die) (k : Nat) (f : SmSlot → SmSlot) : (x.modSlot k f).heat = x.heat := rfl

/-! #### `Die.setCells` -/

@[simp] theorem Die.setCells_regs (x : Die) (m : Mem) : (x.setCells m).regs = x.regs := rfl
@[simp] theorem Die.setCells_clk (x : Die) (m : Mem) : (x.setCells m).clk = x.clk := rfl
@[simp] theorem Die.setCells_live (x : Die) (m : Mem) : (x.setCells m).live = x.live := rfl
@[simp] theorem Die.setCells_tiles (x : Die) (m : Mem) : (x.setCells m).tiles = x.tiles := rfl
@[simp] theorem Die.setCells_bundles (x : Die) (m : Mem) : (x.setCells m).bundles = x.bundles := rfl
@[simp] theorem Die.setCells_enc (x : Die) (m : Mem) : (x.setCells m).enc = x.enc := rfl
@[simp] theorem Die.setCells_cellar (x : Die) (m : Mem) : (x.setCells m).cellar = x.cellar := rfl
@[simp] theorem Die.setCells_churn (x : Die) (m : Mem) : (x.setCells m).churn = x.churn := rfl
@[simp] theorem Die.setCells_lanes (x : Die) (m : Mem) : (x.setCells m).lanes = x.lanes := rfl
@[simp] theorem Die.setCells_nw (x : Die) (m : Mem) : (x.setCells m).nw = x.nw := rfl
@[simp] theorem Die.setCells_tq (x : Die) (m : Mem) : (x.setCells m).tq = x.tq := rfl
@[simp] theorem Die.setCells_au (x : Die) (m : Mem) : (x.setCells m).au = x.au := rfl
@[simp] theorem Die.setCells_sm (x : Die) (m : Mem) : (x.setCells m).sm = x.sm := rfl
@[simp] theorem Die.setCells_dma (x : Die) (m : Mem) : (x.setCells m).dma = x.dma := rfl
@[simp] theorem Die.setCells_par (x : Die) (m : Mem) : (x.setCells m).par = x.par := rfl
@[simp] theorem Die.setCells_mr (x : Die) (m : Mem) : (x.setCells m).mr = x.mr := rfl
@[simp] theorem Die.setCells_st (x : Die) (m : Mem) : (x.setCells m).st = x.st := rfl
@[simp] theorem Die.setCells_sc (x : Die) (m : Mem) : (x.setCells m).sc = x.sc := rfl
@[simp] theorem Die.setCells_pw (x : Die) (m : Mem) : (x.setCells m).pw = x.pw := rfl
@[simp] theorem Die.setCells_heat (x : Die) (m : Mem) : (x.setCells m).heat = x.heat := rfl

/-! #### `Die.dramWrite` -/

@[simp] theorem Die.dramWrite_regs (x : Die) (sup a : Nat) (bs : List (Option Byte)) (cores : List Nat) : (x.dramWrite sup a bs cores).regs = x.regs := rfl
@[simp] theorem Die.dramWrite_clk (x : Die) (sup a : Nat) (bs : List (Option Byte)) (cores : List Nat) : (x.dramWrite sup a bs cores).clk = x.clk := rfl
@[simp] theorem Die.dramWrite_live (x : Die) (sup a : Nat) (bs : List (Option Byte)) (cores : List Nat) : (x.dramWrite sup a bs cores).live = x.live := rfl
@[simp] theorem Die.dramWrite_tiles (x : Die) (sup a : Nat) (bs : List (Option Byte)) (cores : List Nat) : (x.dramWrite sup a bs cores).tiles = x.tiles := rfl
@[simp] theorem Die.dramWrite_bundles (x : Die) (sup a : Nat) (bs : List (Option Byte)) (cores : List Nat) : (x.dramWrite sup a bs cores).bundles = x.bundles := rfl
@[simp] theorem Die.dramWrite_enc (x : Die) (sup a : Nat) (bs : List (Option Byte)) (cores : List Nat) : (x.dramWrite sup a bs cores).enc = x.enc := rfl
@[simp] theorem Die.dramWrite_cellar (x : Die) (sup a : Nat) (bs : List (Option Byte)) (cores : List Nat) : (x.dramWrite sup a bs cores).cellar = x.cellar := rfl
@[simp] theorem Die.dramWrite_churn (x : Die) (sup a : Nat) (bs : List (Option Byte)) (cores : List Nat) : (x.dramWrite sup a bs cores).churn = x.churn := rfl
@[simp] theorem Die.dramWrite_lanes (x : Die) (sup a : Nat) (bs : List (Option Byte)) (cores : List Nat) : (x.dramWrite sup a bs cores).lanes = x.lanes := rfl
@[simp] theorem Die.dramWrite_nw (x : Die) (sup a : Nat) (bs : List (Option Byte)) (cores : List Nat) : (x.dramWrite sup a bs cores).nw = x.nw := rfl
@[simp] theorem Die.dramWrite_tq (x : Die) (sup a : Nat) (bs : List (Option Byte)) (cores : List Nat) : (x.dramWrite sup a bs cores).tq = x.tq := rfl
@[simp] theorem Die.dramWrite_au (x : Die) (sup a : Nat) (bs : List (Option Byte)) (cores : List Nat) : (x.dramWrite sup a bs cores).au = x.au := rfl
@[simp] theorem Die.dramWrite_sm (x : Die) (sup a : Nat) (bs : List (Option Byte)) (cores : List Nat) : (x.dramWrite sup a bs cores).sm = x.sm := rfl
@[simp] theorem Die.dramWrite_dma (x : Die) (sup a : Nat) (bs : List (Option Byte)) (cores : List Nat) : (x.dramWrite sup a bs cores).dma = x.dma := rfl
@[simp] theorem Die.dramWrite_par (x : Die) (sup a : Nat) (bs : List (Option Byte)) (cores : List Nat) : (x.dramWrite sup a bs cores).par = x.par := rfl
@[simp] theorem Die.dramWrite_mr (x : Die) (sup a : Nat) (bs : List (Option Byte)) (cores : List Nat) : (x.dramWrite sup a bs cores).mr = x.mr := rfl
@[simp] theorem Die.dramWrite_st (x : Die) (sup a : Nat) (bs : List (Option Byte)) (cores : List Nat) : (x.dramWrite sup a bs cores).st = x.st := rfl
@[simp] theorem Die.dramWrite_sc (x : Die) (sup a : Nat) (bs : List (Option Byte)) (cores : List Nat) : (x.dramWrite sup a bs cores).sc = x.sc := rfl
@[simp] theorem Die.dramWrite_pw (x : Die) (sup a : Nat) (bs : List (Option Byte)) (cores : List Nat) : (x.dramWrite sup a bs cores).pw = x.pw := rfl
@[simp] theorem Die.dramWrite_heat (x : Die) (sup a : Nat) (bs : List (Option Byte)) (cores : List Nat) : (x.dramWrite sup a bs cores).heat = x.heat := rfl

/-! #### `Die.modChan` -/

@[simp] theorem Die.modChan_regs (x : Die) (n : Nat) (f : DmaChan → DmaChan) : (x.modChan n f).regs = x.regs := rfl
@[simp] theorem Die.modChan_clk (x : Die) (n : Nat) (f : DmaChan → DmaChan) : (x.modChan n f).clk = x.clk := rfl
@[simp] theorem Die.modChan_live (x : Die) (n : Nat) (f : DmaChan → DmaChan) : (x.modChan n f).live = x.live := rfl
@[simp] theorem Die.modChan_tiles (x : Die) (n : Nat) (f : DmaChan → DmaChan) : (x.modChan n f).tiles = x.tiles := rfl
@[simp] theorem Die.modChan_bundles (x : Die) (n : Nat) (f : DmaChan → DmaChan) : (x.modChan n f).bundles = x.bundles := rfl
@[simp] theorem Die.modChan_enc (x : Die) (n : Nat) (f : DmaChan → DmaChan) : (x.modChan n f).enc = x.enc := rfl
@[simp] theorem Die.modChan_cellar (x : Die) (n : Nat) (f : DmaChan → DmaChan) : (x.modChan n f).cellar = x.cellar := rfl
@[simp] theorem Die.modChan_churn (x : Die) (n : Nat) (f : DmaChan → DmaChan) : (x.modChan n f).churn = x.churn := rfl
@[simp] theorem Die.modChan_lanes (x : Die) (n : Nat) (f : DmaChan → DmaChan) : (x.modChan n f).lanes = x.lanes := rfl
@[simp] theorem Die.modChan_nw (x : Die) (n : Nat) (f : DmaChan → DmaChan) : (x.modChan n f).nw = x.nw := rfl
@[simp] theorem Die.modChan_tq (x : Die) (n : Nat) (f : DmaChan → DmaChan) : (x.modChan n f).tq = x.tq := rfl
@[simp] theorem Die.modChan_au (x : Die) (n : Nat) (f : DmaChan → DmaChan) : (x.modChan n f).au = x.au := rfl
@[simp] theorem Die.modChan_sm (x : Die) (n : Nat) (f : DmaChan → DmaChan) : (x.modChan n f).sm = x.sm := rfl
@[simp] theorem Die.modChan_dram (x : Die) (n : Nat) (f : DmaChan → DmaChan) : (x.modChan n f).dram = x.dram := rfl
@[simp] theorem Die.modChan_par (x : Die) (n : Nat) (f : DmaChan → DmaChan) : (x.modChan n f).par = x.par := rfl
@[simp] theorem Die.modChan_mr (x : Die) (n : Nat) (f : DmaChan → DmaChan) : (x.modChan n f).mr = x.mr := rfl
@[simp] theorem Die.modChan_st (x : Die) (n : Nat) (f : DmaChan → DmaChan) : (x.modChan n f).st = x.st := rfl
@[simp] theorem Die.modChan_sc (x : Die) (n : Nat) (f : DmaChan → DmaChan) : (x.modChan n f).sc = x.sc := rfl
@[simp] theorem Die.modChan_pw (x : Die) (n : Nat) (f : DmaChan → DmaChan) : (x.modChan n f).pw = x.pw := rfl
@[simp] theorem Die.modChan_heat (x : Die) (n : Nat) (f : DmaChan → DmaChan) : (x.modChan n f).heat = x.heat := rfl

/-! #### `Die.modSensor` -/

@[simp] theorem Die.modSensor_regs (x : Die) (i : Nat) (f : TempSensor → TempSensor) : (x.modSensor i f).regs = x.regs := rfl
@[simp] theorem Die.modSensor_clk (x : Die) (i : Nat) (f : TempSensor → TempSensor) : (x.modSensor i f).clk = x.clk := rfl
@[simp] theorem Die.modSensor_live (x : Die) (i : Nat) (f : TempSensor → TempSensor) : (x.modSensor i f).live = x.live := rfl
@[simp] theorem Die.modSensor_tiles (x : Die) (i : Nat) (f : TempSensor → TempSensor) : (x.modSensor i f).tiles = x.tiles := rfl
@[simp] theorem Die.modSensor_bundles (x : Die) (i : Nat) (f : TempSensor → TempSensor) : (x.modSensor i f).bundles = x.bundles := rfl
@[simp] theorem Die.modSensor_enc (x : Die) (i : Nat) (f : TempSensor → TempSensor) : (x.modSensor i f).enc = x.enc := rfl
@[simp] theorem Die.modSensor_cellar (x : Die) (i : Nat) (f : TempSensor → TempSensor) : (x.modSensor i f).cellar = x.cellar := rfl
@[simp] theorem Die.modSensor_churn (x : Die) (i : Nat) (f : TempSensor → TempSensor) : (x.modSensor i f).churn = x.churn := rfl
@[simp] theorem Die.modSensor_lanes (x : Die) (i : Nat) (f : TempSensor → TempSensor) : (x.modSensor i f).lanes = x.lanes := rfl
@[simp] theorem Die.modSensor_nw (x : Die) (i : Nat) (f : TempSensor → TempSensor) : (x.modSensor i f).nw = x.nw := rfl
@[simp] theorem Die.modSensor_tq (x : Die) (i : Nat) (f : TempSensor → TempSensor) : (x.modSensor i f).tq = x.tq := rfl
@[simp] theorem Die.modSensor_au (x : Die) (i : Nat) (f : TempSensor → TempSensor) : (x.modSensor i f).au = x.au := rfl
@[simp] theorem Die.modSensor_sm (x : Die) (i : Nat) (f : TempSensor → TempSensor) : (x.modSensor i f).sm = x.sm := rfl
@[simp] theorem Die.modSensor_dram (x : Die) (i : Nat) (f : TempSensor → TempSensor) : (x.modSensor i f).dram = x.dram := rfl
@[simp] theorem Die.modSensor_dma (x : Die) (i : Nat) (f : TempSensor → TempSensor) : (x.modSensor i f).dma = x.dma := rfl
@[simp] theorem Die.modSensor_par (x : Die) (i : Nat) (f : TempSensor → TempSensor) : (x.modSensor i f).par = x.par := rfl
@[simp] theorem Die.modSensor_mr (x : Die) (i : Nat) (f : TempSensor → TempSensor) : (x.modSensor i f).mr = x.mr := rfl
@[simp] theorem Die.modSensor_st (x : Die) (i : Nat) (f : TempSensor → TempSensor) : (x.modSensor i f).st = x.st := rfl
@[simp] theorem Die.modSensor_sc (x : Die) (i : Nat) (f : TempSensor → TempSensor) : (x.modSensor i f).sc = x.sc := rfl
@[simp] theorem Die.modSensor_pw (x : Die) (i : Nat) (f : TempSensor → TempSensor) : (x.modSensor i f).pw = x.pw := rfl

/-! ### Reading what an update has written -/

@[simp] theorem Die.th_modTh_same (x : Die) (k : Nat) (f : Thread → Thread) : (x.modTh k f).th k = f (x.th k) := mget_mmod_same _ _ _ _
theorem Die.th_modTh_other (x : Die) {k j : Nat} (f : Thread → Thread) (h : j ≠ k) : (x.modTh k f).th j = x.th j := mget_mmod_other _ _ _ h
@[simp] theorem Die.core_modCore_same (x : Die) (k : Nat) (f : CoreSt → CoreSt) : (x.modCore k f).core k = f (x.core k) := mget_mmod_same _ _ _ _
theorem Die.core_modCore_other (x : Die) {k j : Nat} (f : CoreSt → CoreSt) (h : j ≠ k) : (x.modCore k f).core j = x.core j := mget_mmod_other _ _ _ h
@[simp] theorem Die.lane_modLane_same (x : Die) (k : Nat) (f : Lane → Lane) : (x.modLane k f).lane k = f (x.lane k) := mget_mmod_same _ _ _ _
theorem Die.lane_modLane_other (x : Die) {k j : Nat} (f : Lane → Lane) (h : j ≠ k) : (x.modLane k f).lane j = x.lane j := mget_mmod_other _ _ _ h
@[simp] theorem Die.dec_modDec_same (x : Die) (k : Nat) (f : DecChan → DecChan) : (x.modDec k f).dec k = f (x.dec k) := mget_mmod_same _ _ _ _
theorem Die.dec_modDec_other (x : Die) {k j : Nat} (f : DecChan → DecChan) (h : j ≠ k) : (x.modDec k f).dec j = x.dec j := mget_mmod_other _ _ _ h
@[simp] theorem Die.store_modStore_same (x : Die) (k : Nat) (f : FrameStore → FrameStore) : (x.modStore k f).store k = f (x.store k) := mget_mmod_same _ _ _ _
theorem Die.store_modStore_other (x : Die) {k j : Nat} (f : FrameStore → FrameStore) (h : j ≠ k) : (x.modStore k f).store j = x.store j := mget_mmod_other _ _ _ h
@[simp] theorem Die.chan_modChan_same (x : Die) (k : Nat) (f : DmaChan → DmaChan) : (x.modChan k f).chan k = f (x.chan k) := mget_mmod_same _ _ _ _
theorem Die.chan_modChan_other (x : Die) {k j : Nat} (f : DmaChan → DmaChan) (h : j ≠ k) : (x.modChan k f).chan j = x.chan j := mget_mmod_other _ _ _ h
@[simp] theorem Die.slot_modSlot_same (x : Die) (k : Nat) (f : SmSlot → SmSlot) : (x.modSlot k f).slot' k = f (x.slot' k) := mget_mmod_same _ _ _ _
theorem Die.slot_modSlot_other (x : Die) {k j : Nat} (f : SmSlot → SmSlot) (h : j ≠ k) : (x.modSlot k f).slot' j = x.slot' j := mget_mmod_other _ _ _ h
@[simp] theorem Die.shaper_modShaper_same (x : Die) (k : Nat) (f : Bucket → Bucket) : (x.modShaper k f).shaper k = f (x.shaper k) := mget_mmod_same _ _ _ _
theorem Die.shaper_modShaper_other (x : Die) {k j : Nat} (f : Bucket → Bucket) (h : j ≠ k) : (x.modShaper k f).shaper j = x.shaper j := mget_mmod_other _ _ _ h
@[simp] theorem Die.gate_modGate_same (x : Die) (k : Nat) (f : GateSt → GateSt) : (x.modGate k f).gate k = f (x.gate k) := mget_mmod_same _ _ _ _
theorem Die.gate_modGate_other (x : Die) {k j : Nat} (f : GateSt → GateSt) (h : j ≠ k) : (x.modGate k f).gate j = x.gate j := mget_mmod_other _ _ _ h
@[simp] theorem Die.auPort_modAuPort_same (x : Die) (k : Nat) (f : AuPort → AuPort) : (x.modAuPort k f).auPort k = f (x.auPort k) := mget_mmod_same _ _ _ _
theorem Die.auPort_modAuPort_other (x : Die) {k j : Nat} (f : AuPort → AuPort) (h : j ≠ k) : (x.modAuPort k f).auPort j = x.auPort j := mget_mmod_other _ _ _ h
@[simp] theorem Die.asrc_modAsrc_same (x : Die) (k : Nat) (f : Asrc → Asrc) : (x.modAsrc k f).asrc k = f (x.asrc k) := mget_mmod_same _ _ _ _
theorem Die.asrc_modAsrc_other (x : Die) {k j : Nat} (f : Asrc → Asrc) (h : j ≠ k) : (x.modAsrc k f).asrc j = x.asrc j := mget_mmod_other _ _ _ h
@[simp] theorem Die.rx_modRx_same (x : Die) (k : Nat) (f : RxFlow → RxFlow) : (x.modRx k f).rx k = f (x.rx k) := mget_mmod_same _ _ _ _
theorem Die.rx_modRx_other (x : Die) {k j : Nat} (f : RxFlow → RxFlow) (h : j ≠ k) : (x.modRx k f).rx j = x.rx j := mget_mmod_other _ _ _ h
@[simp] theorem Die.tx_modTx_same (x : Die) (k : Nat) (f : TxFlow → TxFlow) : (x.modTx k f).tx k = f (x.tx k) := mget_mmod_same _ _ _ _
theorem Die.tx_modTx_other (x : Die) {k j : Nat} (f : TxFlow → TxFlow) (h : j ≠ k) : (x.modTx k f).tx j = x.tx j := mget_mmod_other _ _ _ h
@[simp] theorem Die.port_modPort_same (x : Die) (k : Nat) (f : SubPort → SubPort) : (x.modPort k f).port k = f (x.port k) := mget_mmod_same _ _ _ _
theorem Die.port_modPort_other (x : Die) {k j : Nat} (f : SubPort → SubPort) (h : j ≠ k) : (x.modPort k f).port j = x.port j := mget_mmod_other _ _ _ h
@[simp] theorem Die.enc_modEnc_same (x : Die) (k : Nat) (f : EncChan → EncChan) : (x.modEnc k f).enc' k = f (x.enc' k) := mget_mmod_same _ _ _ _
theorem Die.enc_modEnc_other (x : Die) {k j : Nat} (f : EncChan → EncChan) (h : j ≠ k) : (x.modEnc k f).enc' j = x.enc' j := mget_mmod_other _ _ _ h
@[simp] theorem Die.cad_modCad_same (x : Die) (k : Nat) (f : Cad → Cad) : (x.modCad k f).cad k = f (x.cad k) := mget_mmod_same _ _ _ _
theorem Die.cad_modCad_other (x : Die) {k j : Nat} (f : Cad → Cad) (h : j ≠ k) : (x.modCad k f).cad j = x.cad j := mget_mmod_other _ _ _ h
@[simp] theorem Die.pail_modPail_same (x : Die) (k : Nat) (f : PailSt → PailSt) : (x.modPail k f).pail k = f (x.pail k) := mget_mmod_same _ _ _ _
theorem Die.pail_modPail_other (x : Die) {k j : Nat} (f : PailSt → PailSt) (h : j ≠ k) : (x.modPail k f).pail j = x.pail j := mget_mmod_other _ _ _ h
@[simp] theorem Die.sensor_modSensor_same (x : Die) (k : Nat) (f : TempSensor → TempSensor) : (x.modSensor k f).sensor k = f (x.sensor k) := mget_mmod_same _ _ _ _
theorem Die.sensor_modSensor_other (x : Die) {k j : Nat} (f : TempSensor → TempSensor) (h : j ≠ k) : (x.modSensor k f).sensor j = x.sensor j := mget_mmod_other _ _ _ h
@[simp] theorem Die.tile_setTile_same (x : Die) (k : Nat) (t : Tile) : (x.setTile k t).tile k = t := mget_mput_same _ _ _ _
theorem Die.tile_setTile_other (x : Die) {k j : Nat} (t : Tile) (h : j ≠ k) : (x.setTile k t).tile j = x.tile j := mget_mput_other _ _ _ h

end Sys2Proof.Machine
end

