-- ==== Sys2Proof/Laws/Regs.lean ====
section
/-! SUPPORT. Registers and their fields: a field reads what was written into it, and a write leaves every other register and every
other field of its register alone. -/

namespace Sys2Proof.Machine

/-- A number as the part above bit `hi`, the field, and the part below bit `lo`. -/
theorem bits_split (n hi lo : Nat) (h : lo ≤ hi) :
    n = (n / 2 ^ (hi + 1) * 2 ^ (hi - lo + 1) + bits n hi lo) * 2 ^ lo + n % 2 ^ lo := by
  have e : 2 ^ (hi + 1) = 2 ^ lo * 2 ^ (hi - lo + 1) := by rw [← pow_add]; congr 1; omega
  unfold bits
  rw [e, ← Nat.div_div_eq_div_mul, Nat.mul_comm (n / 2 ^ lo / _), Nat.div_add_mod, Nat.mul_comm]
  exact (Nat.div_add_mod n _).symm

/-- The number that a word is after its field has been replaced. -/
theorem putBits_toNat (w : W32) (hi lo v : Nat) (h : lo ≤ hi) (hh : hi < 32) :
    (putBits w hi lo v).toNat = (w.toNat / 2 ^ (hi + 1) * 2 ^ (hi - lo + 1) + v % 2 ^ (hi - lo + 1)) * 2 ^ lo + w.toNat % 2 ^ lo := by
  have s := bits_split w.toNat hi lo h
  have c : w.toNat % 2 ^ lo < 2 ^ lo := Nat.mod_lt _ (by positivity)
  have b : v % 2 ^ (hi - lo + 1) < 2 ^ (hi - lo + 1) := Nat.mod_lt _ (by positivity)
  have e : 2 ^ (hi + 1) = 2 ^ (hi - lo + 1) * 2 ^ lo := by rw [← pow_add]; congr 1; omega
  have u : w.toNat / 2 ^ (hi + 1) < 2 ^ (32 - (hi + 1)) := by
    rw [Nat.div_lt_iff_lt_mul (by positivity), ← pow_add, show 32 - (hi + 1) + (hi + 1) = 32 by omega]; exact w.isLt
  have f : 2 ^ (32 - (hi + 1)) * (2 ^ (hi - lo + 1) * 2 ^ lo) = 2 ^ 32 := by rw [← pow_add, ← pow_add]; congr 1; omega
  rw [show putBits w hi lo v = BitVec.ofNat 32 (w.toNat - bits w.toNat hi lo * 2 ^ lo + v % 2 ^ (hi - lo + 1) * 2 ^ lo) from rfl, BitVec.toNat_ofNat]
  generalize w.toNat / 2 ^ (hi + 1) = a at *
  generalize w.toNat % 2 ^ lo = r at *
  generalize v % 2 ^ (hi - lo + 1) = q at *
  generalize bits w.toNat hi lo = p at *
  have m : (a * 2 ^ (hi - lo + 1) + q) * 2 ^ lo + r < 2 ^ 32 := by
    rw [← f]
    calc (a * 2 ^ (hi - lo + 1) + q) * 2 ^ lo + r < (a * 2 ^ (hi - lo + 1) + q + 1) * 2 ^ lo := by rw [Nat.add_mul _ 1]; omega
      _ ≤ ((a + 1) * 2 ^ (hi - lo + 1)) * 2 ^ lo := Nat.mul_le_mul_right _ (by rw [Nat.add_mul a 1]; omega)
      _ ≤ _ := by rw [Nat.mul_assoc]; exact Nat.mul_le_mul_right _ u
  have t : w.toNat - p * 2 ^ lo + q * 2 ^ lo = (a * 2 ^ (hi - lo + 1) + q) * 2 ^ lo + r := by
    rw [s, Nat.add_mul, Nat.add_mul]; omega
  rw [t, Nat.mod_eq_of_lt m]

/-- A field reads the value written into it, cut to its width. -/
theorem bits_putBits_same (w : W32) (hi lo v : Nat) (h : lo ≤ hi) (hh : hi < 32) :
    bits (putBits w hi lo v).toNat hi lo = v % 2 ^ (hi - lo + 1) := by
  have c : w.toNat % 2 ^ lo < 2 ^ lo := Nat.mod_lt _ (by positivity)
  rw [putBits_toNat w hi lo v h hh, bits, Nat.add_comm, Nat.add_mul_div_right _ _ (by positivity), Nat.div_eq_of_lt c, Nat.zero_add,
    Nat.add_comm, Nat.add_mul_mod_self_right, Nat.mod_mod]

/-- A field above or below the one written reads as before. -/
theorem bits_putBits_other (w : W32) (hi lo v h2 l2 : Nat) (h : lo ≤ hi) (hh : hi < 32) (o : hi < l2 ∨ h2 < lo) (k : l2 ≤ h2) :
    bits (putBits w hi lo v).toNat h2 l2 = bits w.toNat h2 l2 := by
  have c : w.toNat % 2 ^ lo < 2 ^ lo := Nat.mod_lt _ (by positivity)
  have b : v % 2 ^ (hi - lo + 1) < 2 ^ (hi - lo + 1) := Nat.mod_lt _ (by positivity)
  rw [putBits_toNat w hi lo v h hh]
  rcases o with o | o
  · obtain ⟨j, rfl⟩ : ∃ j, l2 = lo + (hi - lo + 1) + j := ⟨l2 - (hi + 1), by omega⟩
    have e : hi + 1 = lo + (hi - lo + 1) := by omega
    have cut (n i k : Nat) : n / 2 ^ (i + k) = n / 2 ^ i / 2 ^ k := by rw [pow_add, Nat.div_div_eq_div_mul]
    rw [e]
    generalize hi - lo + 1 = m at *
    unfold bits
    simp only [cut]
    rw [Nat.add_comm, Nat.add_mul_div_right _ _ (by positivity), Nat.div_eq_of_lt c, Nat.zero_add, Nat.add_comm,
      Nat.add_mul_div_right _ _ (by positivity), Nat.div_eq_of_lt b, Nat.zero_add]
  · have m (n : Nat) : bits n h2 l2 = bits (n % 2 ^ lo) h2 l2 := by
      unfold bits
      rw [show 2 ^ lo = 2 ^ l2 * 2 ^ (lo - l2) by rw [← pow_add]; congr 1; omega, Nat.mod_mul_right_div_self,
        Nat.mod_mod_of_dvd _ (pow_dvd_pow 2 (by omega))]
    rw [m, m w.toNat, Nat.add_comm, Nat.add_mul_mod_self_right, Nat.mod_mod]

/-! ### Registers of a die -/

@[simp] theorem Die.reg_setReg_same (x : Die) (a : Nat) (v : W32) : (x.setReg a v).reg a = v := mget_mput_same _ _ _ _
theorem Die.reg_setReg_other (x : Die) {a b : Nat} (v : W32) (h : b ≠ a) : (x.setReg a v).reg b = x.reg b := mget_mput_other _ _ _ h
theorem Die.reg_setFld_other (x : Die) (f : Fld) (v i j : Nat) {a : Nat} (h : a ≠ fldAddr f i j) : (x.setFld f v i j).reg a = x.reg a :=
  x.reg_setReg_other _ h

/-- A field reads what has been written into it, cut to its width. -/
theorem Die.fld_setFld_same (x : Die) (f : Fld) (v i j : Nat) (h : f.lo ≤ f.hi ∧ f.hi < 32) :
    (x.setFld f v i j).fld f i j = v % 2 ^ (f.hi - f.lo + 1) := by
  unfold Die.fld Die.setFld
  rw [Die.reg_setReg_same, bits_putBits_same _ _ _ _ h.1 h.2]
/-- A field of another register instance reads as before. -/
theorem Die.fld_setFld_addr (x : Die) (f g : Fld) (v i j k l : Nat) (h : fldAddr g k l ≠ fldAddr f i j) :
    (x.setFld f v i j).fld g k l = x.fld g k l := by
  unfold Die.fld; rw [Die.reg_setFld_other _ _ _ _ _ h]
/-- A field above or below the one written reads as before, in whatever register. -/
theorem Die.fld_setFld_apart (x : Die) (f g : Fld) (v i j k l : Nat) (h : f.lo ≤ f.hi ∧ f.hi < 32) (hg : g.lo ≤ g.hi)
    (o : f.hi < g.lo ∨ g.hi < f.lo) : (x.setFld f v i j).fld g k l = x.fld g k l := by
  by_cases e : fldAddr g k l = fldAddr f i j
  · unfold Die.fld Die.setFld
    rw [e, Die.reg_setReg_same, bits_putBits_other _ _ _ _ _ _ h.1 h.2 o hg]
  · exact x.fld_setFld_addr f g v i j k l e
/-- A counter that is raised. -/
theorem Die.fld_count_same (x : Die) (f : Fld) (i n : Nat) (h : f.lo ≤ f.hi ∧ f.hi < 32) :
    (x.count f i n).fld f i = (x.fld f i + n) % 2 ^ (f.hi - f.lo + 1) := x.fld_setFld_same f _ i 0 h

/-! ### Registers of the package -/

theorem State.fld_setFld_same (s : State) (d : DieId) (f : Fld) (v i j : Nat) (h : f.lo ≤ f.hi ∧ f.hi < 32) :
    (s.setFld d f v i j).fld d f i j = v % 2 ^ (f.hi - f.lo + 1) := by
  unfold State.setFld State.fld; rw [State.die_upd_same]; exact (s.die d).fld_setFld_same f v i j h
theorem State.fld_setFld_die (s : State) {d e : DieId} (f g : Fld) (v i j k l : Nat) (h : e ≠ d) :
    (s.setFld d f v i j).fld e g k l = s.fld e g k l := by
  unfold State.setFld State.fld; rw [State.die_upd_other _ _ h]
theorem State.fld_setFld_addr (s : State) (d e : DieId) (f g : Fld) (v i j k l : Nat) (h : fldAddr g k l ≠ fldAddr f i j) :
    (s.setFld d f v i j).fld e g k l = s.fld e g k l := by
  by_cases q : e = d
  · subst q; unfold State.setFld State.fld; rw [State.die_upd_same]; exact (s.die e).fld_setFld_addr f g v i j k l h
  · exact s.fld_setFld_die f g v i j k l q

end Sys2Proof.Machine
end

