-- ==== Sys2Proof/Laws/Ops.lean ====
section
/-! SUPPORT. What each shared operation can do: the form of every answer, time, posts, events, herdbook records, and a command that is
one register write. -/

namespace Sys2Proof.Machine

/-- A fold keeps what each of its steps keeps. -/
theorem foldl_keeps {α β γ : Type} (g : α → γ) (f : α → β → α) (h : ∀ x a, g (f x a) = g x) (l : List β) (x : α) :
    g (l.foldl f x) = g x := by
  induction l generalizing x with
  | nil => rfl
  | cons a l ih => rw [List.foldl_cons, ih, h]

/-! ### Outcomes -/

/-- Every answer of a command that names a die: refused where it is ill-formed, else the fault of a missing die, else the next state
with the queue as it was. -/
theorem onDie_cases (s : State) (d : DieId) (ok : Bool) (f : State) :
    (ok = false ∧ onDie s d ok f = .refused .illFormed) ∨ (ok = true ∧ s.has d = false ∧ onDie s d ok f = .fault .noInstance)
      ∨ (ok = true ∧ s.has d = true ∧ onDie s d ok f = .next { f with pending := s.pending }) := by
  unfold onDie; cases ok <;> cases h : s.has d <;> simp
/-- A well-formed command on a die that is there completes. -/
theorem completes_onDie {s : State} {d : DieId} {f : State} {P : State → Prop} (h : s.has d = true) (p : P { f with pending := s.pending }) :
    Completes (onDie s d true f) P := ⟨_, by simp [onDie, h], p⟩
theorem onDie_next {s : State} {d : DieId} (f : State) (h : s.has d = true) : onDie s d true f = .next { f with pending := s.pending } := by
  simp [onDie, h]
@[simp] theorem has_zero (s : State) : s.has 0 = true := rfl
/-- A package of two dies has every die. -/
theorem has_of_dual {s : State} (h : s.dual = true) (d : DieId) : s.has d = true := by simp [State.has, h]

/-- A command that is one register write, where nothing refuses the word: the word is written. -/
theorem command_accepts {s : State} {d : DieId} {wr : Writer} {a : Nat} {v : W32} (h : s.accepts d wr a v = true) :
    s.command d wr a v = s.writeWords d wr [(a, v)] := by
  simp only [State.accepts, Bool.and_eq_true, Bool.or_eq_true, decide_eq_true_eq, Bool.not_eq_true'] at h
  obtain ⟨⟨-, hw⟩, hr⟩ := h
  have n : s.writeRefused d wr [(a, v)] = none := by simpa using hr
  unfold State.command State.regWrite
  rw [n]
  rcases hw with hw | ⟨hu, hb⟩
  · simp [hw]
  · simp [hu, hb]
/-- So the command answers the state after that write. -/
theorem onDie_command {s : State} {d : DieId} {wr : Writer} {a : Nat} {v : W32} (h : s.accepts d wr a v = true) :
    onDie s d true (s.command d wr a v) = .next { s.writeWords d wr [(a, v)] with pending := s.pending } := by
  rw [command_accepts h]
  refine onDie_next _ ?_
  simp only [State.accepts, Bool.and_eq_true] at h
  exact h.1.1

/-! ### Time -/

/-- Supervisor time moves on. -/
@[simp] theorem State.advance_now (s : State) (dt : Nat) : (s.advance dt).now = s.now + dt := rfl
@[simp] theorem State.advance_free (s : State) (dt : Nat) : (s.advance dt).free = s.free := rfl
@[simp] theorem State.advance_outbox (s : State) (dt : Nat) : (s.advance dt).outbox = s.outbox := rfl
@[simp] theorem State.advance_pending (s : State) (dt : Nat) : (s.advance dt).pending = s.pending := rfl
@[simp] theorem State.advance_plans (s : State) (dt : Nat) : (s.advance dt).pkg.plans = s.pkg.plans := rfl
@[simp] theorem State.advance_flash (s : State) (dt : Nat) : (s.advance dt).pkg.flash = s.pkg.flash := rfl
@[simp] theorem State.advance_fuses (s : State) (dt : Nat) : (s.advance dt).pkg.fuses = s.pkg.fuses := rfl
@[simp] theorem State.advance_dir (s : State) (dt : Nat) : (s.advance dt).pkg.dir = s.pkg.dir := rfl
@[simp] theorem State.advance_fw (s : State) (dt : Nat) : (s.advance dt).pkg.fw = s.pkg.fw := rfl
@[simp] theorem State.advance_supply (s : State) (dt : Nat) : (s.advance dt).pkg.supply = s.pkg.supply := rfl
@[simp] theorem State.advance_panel (s : State) (dt : Nat) : (s.advance dt).pkg.panel = s.pkg.panel := rfl
@[simp] theorem State.advance_die_regs (s : State) (dt : Nat) (d : DieId) : ((s.advance dt).die d).regs = (s.die d).regs := by
  unfold State.die; split <;> rfl
@[simp] theorem State.advance_die_live (s : State) (dt : Nat) (d : DieId) : ((s.advance dt).die d).live = (s.die d).live := by
  unfold State.die; split <;> rfl
@[simp] theorem State.advance_die_tiles (s : State) (dt : Nat) (d : DieId) : ((s.advance dt).die d).tiles = (s.die d).tiles := by
  unfold State.die; split <;> rfl
@[simp] theorem State.advance_die_bundles (s : State) (dt : Nat) (d : DieId) : ((s.advance dt).die d).bundles = (s.die d).bundles := by
  unfold State.die; split <;> rfl
@[simp] theorem State.advance_die_enc (s : State) (dt : Nat) (d : DieId) : ((s.advance dt).die d).enc = (s.die d).enc := by
  unfold State.die; split <;> rfl
@[simp] theorem State.advance_die_cellar (s : State) (dt : Nat) (d : DieId) : ((s.advance dt).die d).cellar = (s.die d).cellar := by
  unfold State.die; split <;> rfl
@[simp] theorem State.advance_die_churn (s : State) (dt : Nat) (d : DieId) : ((s.advance dt).die d).churn = (s.die d).churn := by
  unfold State.die; split <;> rfl
@[simp] theorem State.advance_die_lanes (s : State) (dt : Nat) (d : DieId) : ((s.advance dt).die d).lanes = (s.die d).lanes := by
  unfold State.die; split <;> rfl
@[simp] theorem State.advance_die_nw (s : State) (dt : Nat) (d : DieId) : ((s.advance dt).die d).nw = (s.die d).nw := by
  unfold State.die; split <;> rfl
@[simp] theorem State.advance_die_tq (s : State) (dt : Nat) (d : DieId) : ((s.advance dt).die d).tq = (s.die d).tq := by
  unfold State.die; split <;> rfl
@[simp] theorem State.advance_die_au (s : State) (dt : Nat) (d : DieId) : ((s.advance dt).die d).au = (s.die d).au := by
  unfold State.die; split <;> rfl
@[simp] theorem State.advance_die_sm (s : State) (dt : Nat) (d : DieId) : ((s.advance dt).die d).sm = (s.die d).sm := by
  unfold State.die; split <;> rfl
@[simp] theorem State.advance_die_dram (s : State) (dt : Nat) (d : DieId) : ((s.advance dt).die d).dram = (s.die d).dram := by
  unfold State.die; split <;> rfl
@[simp] theorem State.advance_die_dma (s : State) (dt : Nat) (d : DieId) : ((s.advance dt).die d).dma = (s.die d).dma := by
  unfold State.die; split <;> rfl
@[simp] theorem State.advance_die_par (s : State) (dt : Nat) (d : DieId) : ((s.advance dt).die d).par = (s.die d).par := by
  unfold State.die; split <;> rfl
@[simp] theorem State.advance_die_mr (s : State) (dt : Nat) (d : DieId) : ((s.advance dt).die d).mr = (s.die d).mr := by
  unfold State.die; split <;> rfl
@[simp] theorem State.advance_die_st (s : State) (dt : Nat) (d : DieId) : ((s.advance dt).die d).st = (s.die d).st := by
  unfold State.die; split <;> rfl
@[simp] theorem State.advance_die_sc (s : State) (dt : Nat) (d : DieId) : ((s.advance dt).die d).sc = (s.die d).sc := by
  unfold State.die; split <;> rfl
@[simp] theorem State.advance_die_pw (s : State) (dt : Nat) (d : DieId) : ((s.advance dt).die d).pw = (s.die d).pw := by
  unfold State.die; split <;> rfl
@[simp] theorem State.advance_die_heat (s : State) (dt : Nat) (d : DieId) : ((s.advance dt).die d).heat = (s.die d).heat := by
  unfold State.die; split <;> rfl
@[simp] theorem State.advance_fld (s : State) (dt : Nat) (d : DieId) (f : Fld) (i j : Nat) : (s.advance dt).fld d f i j = s.fld d f i j := by
  unfold State.fld Die.fld Die.reg; rw [State.advance_die_regs]
@[simp] theorem State.advance_dual (s : State) (dt : Nat) : (s.advance dt).dual = s.dual := rfl
@[simp] theorem State.advance_has (s : State) (dt : Nat) (d : DieId) : (s.advance dt).has d = s.has d := rfl
@[simp] theorem State.advance_planRuns (s : State) (dt : Nat) : (s.advance dt).planRuns = s.planRuns := rfl
/-- Time that is moved to an instant stands at it, or where it was if that has passed. -/
theorem State.advanceTo_now (s : State) (t : Nat) : (s.advanceTo t).now = max s.now t := by
  unfold State.advanceTo; rw [State.advance_now]; omega

/-! ### Posts, events and records -/

/-- A post changes registers and subscriptions of its die alone. -/
@[simp] theorem Die.post_clk (x : Die) (t a b n : Nat) : (x.post t a b n).clk = x.clk := by
  unfold Die.post; refine foldl_keeps Die.clk _ (fun x i => ?_) _ x; dsimp only; split <;> [split; skip] <;> rfl
@[simp] theorem Die.post_live (x : Die) (t a b n : Nat) : (x.post t a b n).live = x.live := by
  unfold Die.post; refine foldl_keeps Die.live _ (fun x i => ?_) _ x; dsimp only; split <;> [split; skip] <;> rfl
@[simp] theorem Die.post_tiles (x : Die) (t a b n : Nat) : (x.post t a b n).tiles = x.tiles := by
  unfold Die.post; refine foldl_keeps Die.tiles _ (fun x i => ?_) _ x; dsimp only; split <;> [split; skip] <;> rfl
@[simp] theorem Die.post_bundles (x : Die) (t a b n : Nat) : (x.post t a b n).bundles = x.bundles := by
  unfold Die.post; refine foldl_keeps Die.bundles _ (fun x i => ?_) _ x; dsimp only; split <;> [split; skip] <;> rfl
@[simp] theorem Die.post_enc (x : Die) (t a b n : Nat) : (x.post t a b n).enc = x.enc := by
  unfold Die.post; refine foldl_keeps Die.enc _ (fun x i => ?_) _ x; dsimp only; split <;> [split; skip] <;> rfl
@[simp] theorem Die.post_cellar (x : Die) (t a b n : Nat) : (x.post t a b n).cellar = x.cellar := by
  unfold Die.post; refine foldl_keeps Die.cellar _ (fun x i => ?_) _ x; dsimp only; split <;> [split; skip] <;> rfl
@[simp] theorem Die.post_churn (x : Die) (t a b n : Nat) : (x.post t a b n).churn = x.churn := by
  unfold Die.post; refine foldl_keeps Die.churn _ (fun x i => ?_) _ x; dsimp only; split <;> [split; skip] <;> rfl
@[simp] theorem Die.post_lanes (x : Die) (t a b n : Nat) : (x.post t a b n).lanes = x.lanes := by
  unfold Die.post; refine foldl_keeps Die.lanes _ (fun x i => ?_) _ x; dsimp only; split <;> [split; skip] <;> rfl
@[simp] theorem Die.post_nw (x : Die) (t a b n : Nat) : (x.post t a b n).nw = x.nw := by
  unfold Die.post; refine foldl_keeps Die.nw _ (fun x i => ?_) _ x; dsimp only; split <;> [split; skip] <;> rfl
@[simp] theorem Die.post_tq (x : Die) (t a b n : Nat) : (x.post t a b n).tq = x.tq := by
  unfold Die.post; refine foldl_keeps Die.tq _ (fun x i => ?_) _ x; dsimp only; split <;> [split; skip] <;> rfl
@[simp] theorem Die.post_au (x : Die) (t a b n : Nat) : (x.post t a b n).au = x.au := by
  unfold Die.post; refine foldl_keeps Die.au _ (fun x i => ?_) _ x; dsimp only; split <;> [split; skip] <;> rfl
@[simp] theorem Die.post_dram (x : Die) (t a b n : Nat) : (x.post t a b n).dram = x.dram := by
  unfold Die.post; refine foldl_keeps Die.dram _ (fun x i => ?_) _ x; dsimp only; split <;> [split; skip] <;> rfl
@[simp] theorem Die.post_dma (x : Die) (t a b n : Nat) : (x.post t a b n).dma = x.dma := by
  unfold Die.post; refine foldl_keeps Die.dma _ (fun x i => ?_) _ x; dsimp only; split <;> [split; skip] <;> rfl
@[simp] theorem Die.post_par (x : Die) (t a b n : Nat) : (x.post t a b n).par = x.par := by
  unfold Die.post; refine foldl_keeps Die.par _ (fun x i => ?_) _ x; dsimp only; split <;> [split; skip] <;> rfl
@[simp] theorem Die.post_mr (x : Die) (t a b n : Nat) : (x.post t a b n).mr = x.mr := by
  unfold Die.post; refine foldl_keeps Die.mr _ (fun x i => ?_) _ x; dsimp only; split <;> [split; skip] <;> rfl
@[simp] theorem Die.post_st (x : Die) (t a b n : Nat) : (x.post t a b n).st = x.st := by
  unfold Die.post; refine foldl_keeps Die.st _ (fun x i => ?_) _ x; dsimp only; split <;> [split; skip] <;> rfl
@[simp] theorem Die.post_sc (x : Die) (t a b n : Nat) : (x.post t a b n).sc = x.sc := by
  unfold Die.post; refine foldl_keeps Die.sc _ (fun x i => ?_) _ x; dsimp only; split <;> [split; skip] <;> rfl
@[simp] theorem Die.post_pw (x : Die) (t a b n : Nat) : (x.post t a b n).pw = x.pw := by
  unfold Die.post; refine foldl_keeps Die.pw _ (fun x i => ?_) _ x; dsimp only; split <;> [split; skip] <;> rfl
@[simp] theorem Die.post_heat (x : Die) (t a b n : Nat) : (x.post t a b n).heat = x.heat := by
  unfold Die.post; refine foldl_keeps Die.heat _ (fun x i => ?_) _ x; dsimp only; split <;> [split; skip] <;> rfl

/-- An event changes its die alone, and there registers and subscriptions alone. -/
@[simp] theorem State.event_pkg (s : State) (d : DieId) (f : Fld) (i n : Nat) : (s.event d f i n).pkg = s.pkg := State.upd_pkg s d _
@[simp] theorem State.event_free (s : State) (d : DieId) (f : Fld) (i n : Nat) : (s.event d f i n).free = s.free := State.upd_free s d _
@[simp] theorem State.event_outbox (s : State) (d : DieId) (f : Fld) (i n : Nat) : (s.event d f i n).outbox = s.outbox := State.upd_outbox s d _
@[simp] theorem State.event_pending (s : State) (d : DieId) (f : Fld) (i n : Nat) : (s.event d f i n).pending = s.pending := State.upd_pending s d _
theorem State.event_die_other (s : State) {d e : DieId} (f : Fld) (i n : Nat) (h : e ≠ d) : (s.event d f i n).die e = s.die e := State.die_upd_other s _ h
@[simp] theorem State.event_die_clk (s : State) (d : DieId) (f : Fld) (i n : Nat) : ((s.event d f i n).die d).clk = (s.die d).clk := by
  unfold State.event; rw [State.die_upd_same, Die.post_clk]; rfl
@[simp] theorem State.event_die_live (s : State) (d : DieId) (f : Fld) (i n : Nat) : ((s.event d f i n).die d).live = (s.die d).live := by
  unfold State.event; rw [State.die_upd_same, Die.post_live]; rfl
@[simp] theorem State.event_die_tiles (s : State) (d : DieId) (f : Fld) (i n : Nat) : ((s.event d f i n).die d).tiles = (s.die d).tiles := by
  unfold State.event; rw [State.die_upd_same, Die.post_tiles]; rfl
@[simp] theorem State.event_die_bundles (s : State) (d : DieId) (f : Fld) (i n : Nat) : ((s.event d f i n).die d).bundles = (s.die d).bundles := by
  unfold State.event; rw [State.die_upd_same, Die.post_bundles]; rfl
@[simp] theorem State.event_die_enc (s : State) (d : DieId) (f : Fld) (i n : Nat) : ((s.event d f i n).die d).enc = (s.die d).enc := by
  unfold State.event; rw [State.die_upd_same, Die.post_enc]; rfl
@[simp] theorem State.event_die_cellar (s : State) (d : DieId) (f : Fld) (i n : Nat) : ((s.event d f i n).die d).cellar = (s.die d).cellar := by
  unfold State.event; rw [State.die_upd_same, Die.post_cellar]; rfl
@[simp] theorem State.event_die_churn (s : State) (d : DieId) (f : Fld) (i n : Nat) : ((s.event d f i n).die d).churn = (s.die d).churn := by
  unfold State.event; rw [State.die_upd_same, Die.post_churn]; rfl
@[simp] theorem State.event_die_lanes (s : State) (d : DieId) (f : Fld) (i n : Nat) : ((s.event d f i n).die d).lanes = (s.die d).lanes := by
  unfold State.event; rw [State.die_upd_same, Die.post_lanes]; rfl
@[simp] theorem State.event_die_nw (s : State) (d : DieId) (f : Fld) (i n : Nat) : ((s.event d f i n).die d).nw = (s.die d).nw := by
  unfold State.event; rw [State.die_upd_same, Die.post_nw]; rfl
@[simp] theorem State.event_die_tq (s : State) (d : DieId) (f : Fld) (i n : Nat) : ((s.event d f i n).die d).tq = (s.die d).tq := by
  unfold State.event; rw [State.die_upd_same, Die.post_tq]; rfl
@[simp] theorem State.event_die_au (s : State) (d : DieId) (f : Fld) (i n : Nat) : ((s.event d f i n).die d).au = (s.die d).au := by
  unfold State.event; rw [State.die_upd_same, Die.post_au]; rfl
@[simp] theorem State.event_die_dram (s : State) (d : DieId) (f : Fld) (i n : Nat) : ((s.event d f i n).die d).dram = (s.die d).dram := by
  unfold State.event; rw [State.die_upd_same, Die.post_dram]; rfl
@[simp] theorem State.event_die_dma (s : State) (d : DieId) (f : Fld) (i n : Nat) : ((s.event d f i n).die d).dma = (s.die d).dma := by
  unfold State.event; rw [State.die_upd_same, Die.post_dma]; rfl
@[simp] theorem State.event_die_par (s : State) (d : DieId) (f : Fld) (i n : Nat) : ((s.event d f i n).die d).par = (s.die d).par := by
  unfold State.event; rw [State.die_upd_same, Die.post_par]; rfl
@[simp] theorem State.event_die_mr (s : State) (d : DieId) (f : Fld) (i n : Nat) : ((s.event d f i n).die d).mr = (s.die d).mr := by
  unfold State.event; rw [State.die_upd_same, Die.post_mr]; rfl
@[simp] theorem State.event_die_st (s : State) (d : DieId) (f : Fld) (i n : Nat) : ((s.event d f i n).die d).st = (s.die d).st := by
  unfold State.event; rw [State.die_upd_same, Die.post_st]; rfl
@[simp] theorem State.event_die_sc (s : State) (d : DieId) (f : Fld) (i n : Nat) : ((s.event d f i n).die d).sc = (s.die d).sc := by
  unfold State.event; rw [State.die_upd_same, Die.post_sc]; rfl
@[simp] theorem State.event_die_pw (s : State) (d : DieId) (f : Fld) (i n : Nat) : ((s.event d f i n).die d).pw = (s.die d).pw := by
  unfold State.event; rw [State.die_upd_same, Die.post_pw]; rfl
@[simp] theorem State.event_die_heat (s : State) (d : DieId) (f : Fld) (i n : Nat) : ((s.event d f i n).die d).heat = (s.die d).heat := by
  unfold State.event; rw [State.die_upd_same, Die.post_heat]; rfl

/-- A record of die 0 changes the herdbook, and where it is lost registers and subscriptions of die 0. -/
@[simp] theorem State.hbAdd_sup (s : State) (r : HbRec) (b : Bool) : (s.hbAdd r b).pkg.sup = s.pkg.sup := by
  unfold State.hbAdd; dsimp only; split <;> simp [State.count]
@[simp] theorem State.hbRecord_sup (s : State) (d : DieId) (c n v : Nat) (p b : Bool) : (s.hbRecord d c n v p b).pkg.sup = s.pkg.sup := by
  unfold State.hbRecord; dsimp only; split <;> [simp; split] <;> simp
@[simp] theorem State.hbAdd_plans (s : State) (r : HbRec) (b : Bool) : (s.hbAdd r b).pkg.plans = s.pkg.plans := by
  unfold State.hbAdd; dsimp only; split <;> simp [State.count]
@[simp] theorem State.hbRecord_plans (s : State) (d : DieId) (c n v : Nat) (p b : Bool) : (s.hbRecord d c n v p b).pkg.plans = s.pkg.plans := by
  unfold State.hbRecord; dsimp only; split <;> [simp; split] <;> simp
@[simp] theorem State.hbAdd_flash (s : State) (r : HbRec) (b : Bool) : (s.hbAdd r b).pkg.flash = s.pkg.flash := by
  unfold State.hbAdd; dsimp only; split <;> simp [State.count]
@[simp] theorem State.hbRecord_flash (s : State) (d : DieId) (c n v : Nat) (p b : Bool) : (s.hbRecord d c n v p b).pkg.flash = s.pkg.flash := by
  unfold State.hbRecord; dsimp only; split <;> [simp; split] <;> simp
@[simp] theorem State.hbAdd_fuses (s : State) (r : HbRec) (b : Bool) : (s.hbAdd r b).pkg.fuses = s.pkg.fuses := by
  unfold State.hbAdd; dsimp only; split <;> simp [State.count]
@[simp] theorem State.hbRecord_fuses (s : State) (d : DieId) (c n v : Nat) (p b : Bool) : (s.hbRecord d c n v p b).pkg.fuses = s.pkg.fuses := by
  unfold State.hbRecord; dsimp only; split <;> [simp; split] <;> simp
@[simp] theorem State.hbAdd_dir (s : State) (r : HbRec) (b : Bool) : (s.hbAdd r b).pkg.dir = s.pkg.dir := by
  unfold State.hbAdd; dsimp only; split <;> simp [State.count]
@[simp] theorem State.hbRecord_dir (s : State) (d : DieId) (c n v : Nat) (p b : Bool) : (s.hbRecord d c n v p b).pkg.dir = s.pkg.dir := by
  unfold State.hbRecord; dsimp only; split <;> [simp; split] <;> simp
@[simp] theorem State.hbAdd_fw (s : State) (r : HbRec) (b : Bool) : (s.hbAdd r b).pkg.fw = s.pkg.fw := by
  unfold State.hbAdd; dsimp only; split <;> simp [State.count]
@[simp] theorem State.hbRecord_fw (s : State) (d : DieId) (c n v : Nat) (p b : Bool) : (s.hbRecord d c n v p b).pkg.fw = s.pkg.fw := by
  unfold State.hbRecord; dsimp only; split <;> [simp; split] <;> simp
@[simp] theorem State.hbAdd_supply (s : State) (r : HbRec) (b : Bool) : (s.hbAdd r b).pkg.supply = s.pkg.supply := by
  unfold State.hbAdd; dsimp only; split <;> simp [State.count]
@[simp] theorem State.hbRecord_supply (s : State) (d : DieId) (c n v : Nat) (p b : Bool) : (s.hbRecord d c n v p b).pkg.supply = s.pkg.supply := by
  unfold State.hbRecord; dsimp only; split <;> [simp; split] <;> simp
@[simp] theorem State.hbAdd_panel (s : State) (r : HbRec) (b : Bool) : (s.hbAdd r b).pkg.panel = s.pkg.panel := by
  unfold State.hbAdd; dsimp only; split <;> simp [State.count]
@[simp] theorem State.hbRecord_panel (s : State) (d : DieId) (c n v : Nat) (p b : Bool) : (s.hbRecord d c n v p b).pkg.panel = s.pkg.panel := by
  unfold State.hbRecord; dsimp only; split <;> [simp; split] <;> simp
@[simp] theorem State.hbAdd_free (s : State) (r : HbRec) (b : Bool) : (s.hbAdd r b).free = s.free := by
  unfold State.hbAdd; dsimp only; split <;> simp [State.count]
@[simp] theorem State.hbRecord_free (s : State) (d : DieId) (c n v : Nat) (p b : Bool) : (s.hbRecord d c n v p b).free = s.free := by
  unfold State.hbRecord; dsimp only; split <;> [simp; split] <;> simp
@[simp] theorem State.hbAdd_outbox (s : State) (r : HbRec) (b : Bool) : (s.hbAdd r b).outbox = s.outbox := by
  unfold State.hbAdd; dsimp only; split <;> simp [State.count]
@[simp] theorem State.hbRecord_outbox (s : State) (d : DieId) (c n v : Nat) (p b : Bool) : (s.hbRecord d c n v p b).outbox = s.outbox := by
  unfold State.hbRecord; dsimp only; split <;> [simp; split] <;> simp
@[simp] theorem State.hbAdd_pending (s : State) (r : HbRec) (b : Bool) : (s.hbAdd r b).pending = s.pending := by
  unfold State.hbAdd; dsimp only; split <;> simp [State.count]
@[simp] theorem State.hbRecord_pending (s : State) (d : DieId) (c n v : Nat) (p b : Bool) : (s.hbRecord d c n v p b).pending = s.pending := by
  unfold State.hbRecord; dsimp only; split <;> [simp; split] <;> simp
@[simp] theorem State.eventCad_sup (s : State) (d : DieId) (f : Fld) (i a c v : Nat) (p : Bool) : (s.eventCad d f i a c v p).pkg.sup = s.pkg.sup := by
  simp [State.eventCad, State.hbCad]
@[simp] theorem State.eventCad_plans (s : State) (d : DieId) (f : Fld) (i a c v : Nat) (p : Bool) : (s.eventCad d f i a c v p).pkg.plans = s.pkg.plans := by
  simp [State.eventCad, State.hbCad]
@[simp] theorem State.eventCad_flash (s : State) (d : DieId) (f : Fld) (i a c v : Nat) (p : Bool) : (s.eventCad d f i a c v p).pkg.flash = s.pkg.flash := by
  simp [State.eventCad, State.hbCad]
@[simp] theorem State.eventCad_fuses (s : State) (d : DieId) (f : Fld) (i a c v : Nat) (p : Bool) : (s.eventCad d f i a c v p).pkg.fuses = s.pkg.fuses := by
  simp [State.eventCad, State.hbCad]
@[simp] theorem State.eventCad_dir (s : State) (d : DieId) (f : Fld) (i a c v : Nat) (p : Bool) : (s.eventCad d f i a c v p).pkg.dir = s.pkg.dir := by
  simp [State.eventCad, State.hbCad]
@[simp] theorem State.eventCad_fw (s : State) (d : DieId) (f : Fld) (i a c v : Nat) (p : Bool) : (s.eventCad d f i a c v p).pkg.fw = s.pkg.fw := by
  simp [State.eventCad, State.hbCad]
@[simp] theorem State.eventCad_supply (s : State) (d : DieId) (f : Fld) (i a c v : Nat) (p : Bool) : (s.eventCad d f i a c v p).pkg.supply = s.pkg.supply := by
  simp [State.eventCad, State.hbCad]
@[simp] theorem State.eventCad_panel (s : State) (d : DieId) (f : Fld) (i a c v : Nat) (p : Bool) : (s.eventCad d f i a c v p).pkg.panel = s.pkg.panel := by
  simp [State.eventCad, State.hbCad]
@[simp] theorem State.eventCad_free (s : State) (d : DieId) (f : Fld) (i a c v : Nat) (p : Bool) : (s.eventCad d f i a c v p).free = s.free := by
  simp [State.eventCad, State.hbCad]
@[simp] theorem State.eventCad_outbox (s : State) (d : DieId) (f : Fld) (i a c v : Nat) (p : Bool) : (s.eventCad d f i a c v p).outbox = s.outbox := by
  simp [State.eventCad, State.hbCad]
@[simp] theorem State.eventCad_pending (s : State) (d : DieId) (f : Fld) (i a c v : Nat) (p : Bool) : (s.eventCad d f i a c v p).pending = s.pending := by
  simp [State.eventCad, State.hbCad]

/-! ### Steps -/

/-- A step with a command in front is the command on the state with the queue's rest. -/
theorem step_front (s : State) (c : Instr) (rest : List Instr) : step { s with pending := c :: rest } = exec c { s with pending := rest } := rfl
theorem step_idle (s : State) (h : s.pending = []) : step s = .next s := by unfold step; rw [h]

end Sys2Proof.Machine
end

