-- ==== Sys2Proof/Laws/Pictures.lean ====
section
/-! SUPPORT. Every write of the model to a die's DRAM keeps the array's canonical form: the view that reads return, the planes and
motion fields of pictures, the clearing of a pool, a coded picture buffer, a change of the bank masks. -/

namespace Sys2Proof.Machine

variable {m : Mem} {x : Die}

/-- A fold of operations that each keep the canonical form keeps it. -/
theorem wf_foldl {β : Type} (f : Mem → β → Mem) (h : ∀ m b, Memory.wf m = true → Memory.wf (f m b) = true) (l : List β) (m : Mem)
    (hm : Memory.wf m = true) : Memory.wf (l.foldl f m) = true := by
  induction l generalizing m with
  | nil => exact hm
  | cons b l ih => exact ih _ (h _ _ hm)

/-- What reads return is in canonical form. -/
theorem wf_view (x : Dram) (h : Memory.wf x.cells = true) : Memory.wf x.view = true :=
  wf_foldl _ (fun m w hm => wf_dramWrite_apply w m hm) _ _ h

theorem wf_writeComp (base depth w ht y : Nat) (l : List Nat) (h : Memory.wf m = true) : Memory.wf (writeComp m base depth w ht y l) = true := by
  unfold writeComp
  dsimp only
  split
  · exact wf_foldl_wrByte _ _ _ _ h
  · exact wf_foldl_wrByte _ _ _ _ (wf_foldl_wrByte _ _ _ _ h)

/-- A line of a picture. -/
theorem wf_pictureStore (f : PicFmt) (base y : Nat) (p : PicLine) (h : Memory.wf m = true) : Memory.wf (pictureStore m f base y p) = true := by
  unfold pictureStore
  dsimp only
  split
  · exact wf_writeComp _ _ _ _ _ _ h
  · exact wf_writeComp _ _ _ _ _ _ (wf_writeComp _ _ _ _ _ _ (wf_writeComp _ _ _ _ _ _ h))

/-- The reconstruction of rows. -/
theorem wf_storeRecon (f : PicFmt) (base y0 : Nat) (ps : List Plane) (h : Memory.wf m = true) : Memory.wf (storeRecon m f base y0 ps) = true :=
  wf_foldl _ (fun _ _ hm => wf_pictureStore _ _ _ _ hm) _ _ h

/-- The motion field of a row. -/
theorem wf_storeMotion (f : PicFmt) (base y0 ht : Nat) (intra : Bool) (ctus : List Ctu) (h : Memory.wf m = true) :
    Memory.wf (storeMotion m f base y0 ht intra ctus) = true :=
  wf_foldl _ (fun _ _ hm => wf_foldl _ (fun _ _ hm => wf_wrBytes _ _ _ hm) _ _ hm) _ _ h

/-- A pool that is allocated. -/
theorem wf_clearPool (f : PicFmt) (base size slots : Nat) (h : Memory.wf m = true) : Memory.wf (clearPool m f base size slots) = true :=
  mwf_filter _ _ _ h

@[simp] theorem Die.setCells_cells (x : Die) (m : Mem) : (x.setCells m).dram.cells = m := rfl
@[simp] theorem Die.setCells_view (x : Die) (m : Mem) : (x.setCells m).dram.view = m := rfl

/-- A decoded picture. -/
theorem wf_decWrite (n slot : Nat) (f : PicFmt) (planes : List Plane) (motion : List (List Motion)) (h : Memory.wf x.dram.cells = true) :
    Memory.wf (x.decWrite n slot f planes motion).dram.cells = true :=
  wf_foldl _ (fun _ _ hm => wf_wrBytes _ _ _ hm) _ _ (wf_storeRecon _ _ _ _ (wf_view _ h))

/-- A coded row. -/
theorem wf_reconRow (n : Nat) (p : EncPic) (row qp : Nat) (plain : Bool) (ctus : List Ctu) (h : Memory.wf x.dram.cells = true) :
    Memory.wf (x.reconRow n p row qp plain ctus).dram.cells = true :=
  wf_storeMotion _ _ _ _ _ _ (wf_storeRecon _ _ _ _ (wf_view _ h))

/-- Bytes of a coded picture buffer. -/
theorem wf_cpbWrite (n : Nat) (bs : List Byte) (h : Memory.wf x.dram.cells = true) : Memory.wf (x.cpbWrite n bs).dram.cells = true := by
  unfold Die.cpbWrite
  dsimp only
  split
  · exact h
  · exact wf_wrBytes _ _ _ (wf_wrBytes _ _ _ (wf_view _ h))

/-- A change of the masks, which moves the bytes. -/
theorem wf_remask (x was : Die) (h : Memory.wf x.dram.cells = true) : Memory.wf (x.remask was).dram.cells = true := by
  unfold Die.remask
  dsimp only
  split
  · exact h
  · exact wf_foldl _ (fun _ _ hm => wf_wrByte _ _ _ hm) _ _ rfl

end Sys2Proof.Machine
end

