-- ==== Sys2Proof/Laws/Slots.lean ====
section
/-! SUPPORT. What a slot command of a tile and an instruction of a core answer where they act: the one lemma of each that statements about
opcodes rest on. -/

namespace Sys2Proof.Machine

/-- A slot of a tile that issues a bundle: the tile as the slot leaves it. -/
theorem slot_ready {s : State} {d : DieId} {t : Nat} (f : Tile → Tile) (h : s.slotReady d t = true) :
    onDie s d true (s.slot d t f) = .next (s.withTile d t (f ((s.die d).tile t))) := by
  simp only [State.slotReady, Bool.and_eq_true] at h
  rw [onDie_next _ h.1]
  have e : s.slot d t f = s.withTile d t (f ((s.die d).tile t)) := by
    unfold State.slot State.withTile State.upd; dsimp only; rw [if_pos h.2]
  rw [e]
  congr 1
  unfold State.withTile
  unfold State.upd State.setDie
  split <;> rfl

/-- An instruction of a core that acts and changes the core's registers alone. -/
theorem coreStep_ready {s : State} {d : DieId} {c : Nat} (n : Nat) (g : CoreRegs → CoreRegs) (h : s.coreReady d c = true) :
    onDie s d true (s.coreStep d c n g) = .next (s.ran d c n (g (s.regsOf d c))) := by
  simp only [State.coreReady, Bool.and_eq_true] at h
  obtain ⟨⟨hd, he⟩, hw⟩ := h
  obtain ⟨k, hk⟩ := Option.isSome_iff_exists.mp he
  rw [onDie_next _ hd]
  have e : s.coreStep d c n g = s.ran d c n (g (s.regsOf d c)) := by
    unfold State.coreStep State.coreDo State.ran State.thread State.regsOf
    have w : ((s.die d).window c ((s.die d).core c).regs.pc.toNat).isNone = false := by
      cases q : (s.die d).window c ((s.die d).core c).regs.pc.toNat with
      | none => rw [q] at hw; cases hw
      | some _ => rfl
    simp only [hk, w, Option.getD_some]
    rfl
  rw [e]
  congr 1
  unfold State.ran State.upd State.setDie
  split <;> rfl

/-- An opcode that tiles and cores share, where it acts. -/
theorem shared_tile_ready {s : State} {d : DieId} {t : Fin 1536} (f : Tile → Tile) (g : CoreRegs → CoreRegs) (h : s.slotReady d t = true) :
    shared (.tile d t) true f g s = .next (s.withTile d t (f ((s.die d).tile t))) := slot_ready f h
theorem shared_core_ready {s : State} {d : DieId} {c : Fin 8} (f : Tile → Tile) (g : CoreRegs → CoreRegs) (h : s.coreReady d c = true) :
    shared (.core d c) true f g s = .next (s.ran d c 1 (g (s.regsOf d c))) := coreStep_ready 1 g h

/-- A result put on its way lands nothing else. -/
theorem Tile.later_due (t : Tile) (n : Nat) (x : Wr) : (t.later n x).due = t.due ++ [(t.cycle + n, x)] := rfl

end Sys2Proof.Machine
end

