-- ==== Sys2Proof/Tests/Slice0.lean ====
section
/-! SUPPORT. Tests of the model: ill-formed commands that the check refuses, small results worked out from the spec's tables and
examples, and for each statement of Certificates/Slice0/Obligations.lean with hypotheses a concrete state and operands that meet
them (where the statement has several clauses, the hypotheses of each). A hypothesis that asks an opaque constant of Config (an
algorithm or a format that the spec leaves open) has no witness: nothing can evaluate one. -/

namespace Sys2Proof.Tests

set_option Elab.async false

open Sys2Proof Sys2Proof.Machine

/-! ### States -/

/-- Die 0 up, and rewritten. -/
def up (f : Die → Die) : State := State.reset.upd 0 fun x => f { x with pw := { x.pw with phase := .ready } }
/-- Both dies up, and rewritten. -/
def both (f : Die → Die) : State :=
  let g := fun (x : Die) => f { x with pw := { x.pw with phase := .ready } }
  { State.reset with die0 := g State.reset.die0, die1 := g State.reset.die1 }
/-- A number in bytes, the lowest first. -/
def leb (n v : Nat) : List Byte := (List.range n).map fun i => BitVec.ofNat 8 (v / 256 ^ i)
/-- A record of a section. -/
def recB (kind idx : Nat) (body : List Byte) : List Byte := leb 2 kind ++ leb 2 (8 + body.length) ++ leb 2 idx ++ [0, 0] ++ body
/-- A section of type `ty` that holds one record, whose body ends in zeros. -/
def sect (ty kind idx : Nat) (body : List Byte) : Sect := ⟨1, ty, 3, false, 3, recB kind idx (body ++ List.replicate 40 0)⟩
/-- The operation answers a next state that passes the test. -/
def after (i : Instr) (s : State) (f : State → Bool) : Bool :=
  match exec i s with
  | .next r => f r
  | _ => false

/-! ### Well-formedness (R151, R158, R182, R412) -/

theorem test_wf_pred : (Instr.add (.core 0 0) 1 2 3 1).wf = false ∧ (Instr.add (.core 0 0) 1 2 3 0).wf = true ∧
    (Instr.add (.tile 0 0) 1 2 3 1).wf = true := by decide
theorem test_wf_shift : (Instr.shli (.tile 0 0) 1 2 8 0).wf = false ∧ (Instr.shli (.tile 0 0) 1 2 7 0).wf = true ∧
    (Instr.shri (.core 0 0) 1 2 32 0).wf = false ∧ (Instr.sari (.core 0 0) 1 2 31 0).wf = true := by decide
theorem test_wf_compare : (Instr.ceq (.tile 0 0) 0 1 2 0).wf = false ∧ (Instr.ceq (.tile 0 0) 4 1 2 0).wf = false ∧
    (Instr.ceq (.tile 0 0) 3 1 2 0).wf = true ∧ (Instr.ceq (.core 0 0) 0 1 2 0).wf = true ∧ (Instr.cltu (.core 0 0) 4 1 2 1).wf = false := by decide
theorem test_wf_predicates : (Instr.ktop 0 0 0 0).wf = false ∧ (Instr.ktop 0 0 1 0).wf = true ∧ (Instr.ptok 0 0 4 0).wf = false ∧
    (Instr.ptok 0 0 3 0).wf = true := by decide
theorem test_wf_funnel : (Instr.fshr 0 0 1 2 3 9 0).wf = false ∧ (Instr.fshr 0 0 1 2 3 8 0).wf = true ∧ (Instr.fshl 0 0 1 2 3 9 0).wf = false := by decide
theorem test_wf_pack : (Instr.rup2 0 0 1 2 4 0).wf = false ∧ (Instr.rup2 0 0 1 2 3 0).wf = true ∧ (Instr.rup4 0 0 1 2 2 0).wf = false ∧
    (Instr.rpk2 0 0 1 2 4 0).wf = false ∧ (Instr.rpk4 0 0 1 2 2 0).wf = false ∧ (Instr.rpk4 0 0 1 2 1 0).wf = true := by decide
theorem test_wf_join : (Instr.joinl 0 0 1 2 3 3 0).wf = false ∧ (Instr.joinl 0 0 1 2 3 2 0).wf = true ∧ (Instr.joinh 0 0 1 2 0 0).wf = false ∧
    (Instr.joinh 0 0 1 2 4 0).wf = true := by decide
/-- Columns 0, 1, 5, 8 and 11 hold an M-, S-, T-, G- and E-tile (R114). -/
theorem test_wf_search : (Instr.sad 0 0 0 1 2 0).wf = false ∧ (Instr.sad 0 1 15 1 2 0).wf = true ∧ (Instr.sad 0 1 16 1 2 0).wf = false ∧
    (Instr.sadz 0 1 16 1 2 0).wf = false ∧ (Instr.satd4 0 5 0 1 2).wf = false ∧ (Instr.satd8 0 1 0 31 2).wf = false ∧
    (Instr.satd8 0 1 0 30 30).wf = true ∧ (Instr.best3 0 1 16 0).wf = false ∧ (Instr.dadd 0 1 16 0 0).wf = false ∧
    (Instr.drdS 0 1 0 3 0).wf = false ∧ (Instr.brd 0 1 0 3 0).wf = false ∧ (Instr.dclr 0 8).wf = false ∧ (Instr.dclr 0 1).wf = true := by decide
theorem test_wf_transform : (Instr.mulu 0 1 0 0 0 0 0).wf = false ∧ (Instr.mulu 0 5 2 0 0 0 0).wf = false ∧ (Instr.mulu 0 5 1 0 0 3 0).wf = true ∧
    (Instr.macu 0 5 0 0 0 4 0).wf = false ∧ (Instr.macs 0 5 0 0 0 4 0).wf = false ∧ (Instr.macsu 0 5 0 0 0 4 0).wf = false ∧
    (Instr.macbs 0 5 0 0 0 32 0).wf = false ∧ (Instr.macbs 0 5 0 0 0 31 0).wf = true ∧ (Instr.mext 0 5 0 2 0 0).wf = false ∧
    (Instr.mld 0 5 2 0 0 0).wf = false ∧ (Instr.mclr 0 5 3 0).wf = false ∧ (Instr.mclr 0 5 2 0).wf = true ∧ (Instr.madd 0 0 0).wf = false := by decide
theorem test_wf_coder : (Instr.binc 0 0 0 0 0).wf = false ∧ (Instr.binc 0 11 0 0 31).wf = true ∧ (Instr.binc 0 11 0 0 32).wf = false ∧
    (Instr.binb 0 11 0 32).wf = false ∧ (Instr.bint 0 1 0).wf = false ∧ (Instr.cinit 0 11 0 0 32).wf = false ∧ (Instr.cbase 0 1 0 0).wf = false ∧
    (Instr.csnap 0 1).wf = false ∧ (Instr.crest 0 1).wf = false ∧ (Instr.cstart 0 11 2).wf = false ∧ (Instr.cflush 0 11 2).wf = false ∧
    (Instr.flvl 0 1 0 0).wf = false ∧ (Instr.putb 0 11 0 8).wf = false ∧ (Instr.putb 0 11 0 0x87).wf = true := by decide
theorem test_wf_route : (Instr.rt 0 0 6 0 0 0 0 0 0).wf = false ∧ (Instr.rt 0 0 0 0 6 0 0 0 0).wf = false ∧ (Instr.rt 0 0 0 0 0 0 0 5 0).wf = false ∧
    (Instr.rt 0 0 5 0 5 0 0 4 0).wf = true := by decide
theorem test_wf_memory : (Instr.stbf 0 0 0 false).wf = false ∧ (Instr.stbf 0 11 0 false).wf = true ∧ (Instr.drd 0 1 0 false 0 false).wf = false ∧
    (Instr.drd 0 0 0 false 0 false).wf = true ∧ (Instr.dwr 0 1 0 false 0 false (.clean, .clean)).wf = false ∧ (Instr.qldv 0 1 0 0 0).wf = false ∧
    (Instr.qadd 0 1 0 0).wf = false ∧ (Instr.qadd 0 12 0 0).wf = true := by decide
theorem test_wf_control : (Instr.loop 0 0 0 1).wf = false ∧ (Instr.loop 0 0 1 0).wf = false ∧ (Instr.loop 0 0 1 1).wf = true ∧
    (Instr.dloop 0 0 1 0 0).wf = false ∧ (Instr.dloop 0 0 1 0 1).wf = true ∧ (Instr.ifp 0 0 0 1).wf = false ∧ (Instr.ifp 0 0 1 0).wf = false ∧
    (Instr.ifp 0 0 1 1).wf = true := by decide
/-- NOP is a legal word; 0x07 (ADDUS) is no opcode of a core; TRAP 1 is a kernel call and TRAP 7 is none. -/
theorem test_wf_illegal : (Instr.illegalInstruction 0 0 0).wf = false ∧ (Instr.illegalInstruction 0 0 0x0E000000#32).wf = true ∧
    (Instr.illegalInstruction 0 0 0xD8000000#32).wf = true ∧ (Instr.illegalInstruction 0 0 0xD4000001#32).wf = false ∧
    (Instr.illegalInstruction 0 0 0xD4000007#32).wf = true := by decide
theorem test_wf_backup : (Instr.referenceLoss 0 true).wf = false ∧ (Instr.referenceLoss 1 true).wf = true ∧ (Instr.holdLimitExpiry 0 true).wf = false ∧
    (Instr.refSyncSample 0 false 1125 25 1 0 true).wf = false ∧ (Instr.refSyncSample 0 false 525 30 1 0 true).wf = false ∧
    (Instr.refSyncSample 0 true 750 60 1 750 true).wf = false ∧ (Instr.refSyncSample 0 true 1125 100 1 0 true).wf = false := by decide
theorem test_wf_message : (Instr.ping 0 0 {} { opcode := 2 }).wf = false ∧ (Instr.ping 0 0 {} { opcode := 1 }).wf = true ∧
    (Instr.resetHostFull 0 0 {} { opcode := 0x60, payload := [5] }).wf = false ∧ (Instr.resetDie 0 0 {} { opcode := 0x60, payload := [5] }).wf = true ∧
    (Instr.datagramRefused 0 0 {} { opcode := 1 }).wf = false ∧ (Instr.datagramRefused 0 0 {} { opcode := 0x77 }).wf = true := by decide
theorem test_wf_frame : (Instr.nativeFrame 0 0 0 [] [] false 0 0).wf = false := by decide
/-- An ill-formed command is refused, whatever the state. -/
theorem test_ill_formed : exec (.loop 0 0 0 1) State.reset = .refused .illFormed := rfl

/-! ### Tiles -/

/-- A tile in an open window whose program runs. -/
def acting : Tile := { running := true, open_ := true }
def tileAt (t : Nat) (v : Tile) : State := (up id).withTile 0 t v

theorem test_witness_TileCarryArithmetic : (tileAt 1 acting).slotReady 0 1 = true := by decide
/-- A shift by 0 and by 7. -/
theorem test_witness_TileLogicAndShifts : (tileAt 5 acting).slotReady 0 5 = true ∧ (0 : Byte).toNat ≤ 7 ∧ (7 : Byte).toNat ≤ 7 := by decide
theorem test_witness_TileSaturationAndChoice : (tileAt 11 acting).slotReady 0 11 = true := by decide
theorem test_witness_TileComparesAndPredicates : (tileAt 8 acting).slotReady 0 8 = true ∧ 1 ≤ (1 : Fin 32).val ∧ (3 : Fin 32).val ≤ 3 := by decide
theorem test_witness_TileLaneRearrangement : (tileAt 47 acting).slotReady 0 47 = true ∧ (8 : Byte).toNat ≤ 8 ∧ (3 : Byte).toNat ≤ 3 ∧
    (1 : Byte).toNat ≤ 1 ∧ (2 : Byte).toNat = 2 ∧ (4 : Byte).toNat = 4 := by decide
theorem test_witness_SearchTileCosts : (tileAt 4 acting).slotReady 0 4 = true ∧ tileType 4 = .S ∧ (15 : Fin 32).val ≤ 15 ∧ (30 : Fin 32).val ≤ 30 ∧
    (2 : Byte).toNat ≤ 2 := by decide
theorem test_witness_TransformTileProducts : (tileAt 7 acting).slotReady 0 7 = true ∧ tileType 7 = .T ∧ (1 : Fin 32).val ≤ 1 ∧ (3 : Byte).toNat ≤ 3 ∧
    (31 : Byte).toNat ≤ 31 := by decide
theorem test_witness_CoderTileContexts : (tileAt 11 acting).slotReady 0 11 = true ∧ tileType 11 = .E ∧ (31 : Byte).toNat ≤ 31 ∧ (1 : Byte).toNat ≤ 1 := by decide
/-- PUTB with the bits 6 to 3 of IMM 0, and bit 7 set. -/
theorem test_witness_CoderTileBits : (tileAt 11 acting).slotReady 0 11 = true ∧ tileType 11 = .E ∧ acting.overflowing = false ∧
    (0x87 : Byte).toNat % 128 ≤ 7 ∧ (1 : Byte).toNat ≤ 1 ∧ (31 : Byte).toNat ≤ 31 := by decide
/-- The last granule of the scratch of an S-tile, and a byte access that wraps at its end. -/
theorem test_witness_ScratchLoads :
    let x := { acting with a := [(3, 262143)] }
    (tileAt 1 x).slotReady 0 1 = true ∧ (tileAt 1 x).noInject 0 = true ∧ x.memOk 1 262112 32 = true ∧ x.memOk 1 262143 32 = true ∧
      x.memOk 1 262143 1 = true ∧ x.areg 3 % scratchSize 1 / 32 * 32 = 262112 ∧ x.areg 3 % scratchSize 1 = 262143 := by
  refine ⟨?_, ?_, ?_, ?_, ?_, ?_, ?_⟩ <;> decide
/-- The same on an E-tile, whose scratch has 64 KiB; with an empty FIFO and with one byte in it. -/
theorem test_witness_ScratchStores :
    let x := { acting with a := [(3, 65535)], coder := { fifo := [(0, 9)] } }
    (tileAt 11 x).slotReady 0 11 = true ∧ (tileAt 11 x).noInject 0 = true ∧ tileType 11 = .E ∧ x.memOk 11 65504 32 = true ∧
      x.memOk 11 65535 32 = true ∧ x.fifoSeen.length = 1 ∧ x.memOk 11 65535 1 = true ∧ x.memOk 11 65535 0 = true := by
  refine ⟨?_, ?_, ?_, ?_, ?_, ?_, ?_, ?_⟩ <;> decide
/-- An M-tile whose bank of address 0 is given to the accessor 1. -/
theorem test_witness_ScratchFaults :
    let x := { acting with prog := { banks := List.replicate 32 1 } }
    (tileAt 0 x).slotReady 0 0 = true ∧ (tileAt 0 x).noInject 0 = true ∧ x.memOk 0 0 32 = false ∧ unsgn 20 (x.areg 0 + 32 * (0 : Int)) % scratchSize 0 / 32 * 32 = 0 := by decide
theorem test_witness_AddressRegistersAndRoutes : (tileAt 0 acting).slotReady 0 0 = true ∧ tileType 0 = .M ∧ (27 : Fin 32).val ≤ 27 ∧ (0 : Nat) % 48 ≠ 47 ∧
    (((tileAt 0 acting).die 0).tile 1).cycle < acting.cycle + 2 ∧ 1 ≤ (4 : Fin 8).val := by decide
/-- Tile 49, which has four neighbours: local and west to the north, and south and east to the west. -/
theorem test_witness_EdgeCollision : (tileAt 49 acting).slotReady 0 49 = true ∧ neighbour 49 1 = some 1 ∧ neighbour 49 4 = some 48 ∧ (1 : Fin 8) ≠ 5 ∧
    (4 : Fin 8) ≠ 3 ∧ (((tileAt 49 acting).die 0).tile 1).cycle < acting.cycle + 2 ∧ (((tileAt 49 acting).die 0).tile 48).cycle < acting.cycle + 2 := by decide

/-- M-tile 0, placed in cadence 2, which owns region 0, with a read and a write on their way. -/
def portState : State := up fun x =>
  let x := { x with live := [sect 2 0x201 0 [2]], dram := { x.dram with writes := [⟨64, [some 7], 0, []⟩] } }
  (x.setFld R.MC_OWNER_LO 2).setTile 0 { acting with reads := [⟨0, 0, List.replicate 64 1, false, 0⟩] }
theorem test_witness_TileDramPort : portState.has 0 = true ∧ portState.noInject 0 = true ∧ tileType 0 = .M ∧ ((portState.die 0).tile 0).issues = true ∧
    (portState.die 0).portCheck 0 (((portState.die 0).tile 0).qreg 0) = .none := by decide
/-- The read is done 320 ns after its issue. -/
theorem test_witness_TileDramPort_completion : ((portState.die 0).tile 0).reads.map (fun p => p.faulted) = [false] ∧
    portState.now + 320 * nsec - 0 ≤ 320 * nsec ∧ (portState.die 0).pertSum 4 (dramRegion 0) 0 = 0 ∧
    (portState.die 0).dram.writes.find? (fun w => dramRegion w.addr == 0) = some ⟨64, [some 7], 0, []⟩ := by decide

/-- Outside loops; at the end of the body of a loop, with iterations left and without; with a count of 0, at and beyond the bound. -/
theorem test_witness_TileControlFlow :
    (tileAt 1 acting).slotReady 0 1 = true ∧ acting.due = [] ∧ acting.paused = false ∧ acting.loops = [] ∧
    (∀ n ∈ [0, 1], (tileAt 1 { acting with bundle := 7, loops := [⟨5, 8, n, 0⟩] }).slotReady 0 1 = true) ∧
    (tileAt 1 { acting with prog := { slack := true } }).slotReady 0 1 = true ∧ 1 ≤ (1 : Fin 8192).val := by decide
/-- Flag 3 set and clear; channel 5 idle and started by tiles; thread 6 claimed and idle; a tile that waits for flag 3, set. -/
def flagState (v : Tile) : State := up fun x =>
  (((x.setTile 1 v).setFld R.DM_CH_CFG_USED 1 5).setFld R.DM_CH_CFG_STARTS 1 5).modTh 6 fun t => { t with claimed := true }
theorem test_witness_TileFlagsAndSignals :
    let s := flagState { acting with f := [(3, true)] }
    s.has 0 = true ∧ ((s.die 0).tile 1).issues = true ∧ ((s.die 0).tile 1).flag 3 = true ∧ ((s.die 0).tile 1).flag 4 = false ∧
    s.fld 0 R.DM_CH_CFG_USED 5 = 1 ∧ s.fld 0 R.DM_CH_CFG_STARTS 5 % 2 = 1 ∧ s.fld 0 R.DM_CH_STATUS_STATE 5 = 0 ∧ (s.die 0).st.slices = [] ∧
    ((s.die 0).th 6).claimed = true ∧ -32768 < ((s.die 0).th 6).count ∧ ((s.die 0).th 6).state = .idle := by decide
theorem test_witness_TileFlagsAndSignals_resume :
    let x := { acting with f := [(3, true)], waiting := some 3 }
    (flagState x).has 0 = true ∧ x.running = true ∧ x.due = [] ∧ x.paused = false ∧ x.loops = [] ∧ x.idle = 0 ∧ x.waiting = some 3 ∧ x.flag 3 = true := by decide

/-! ### Cores, threads and channels -/

/-- The line of DRAM address 2^28, with a first word of 0x04030201. -/
def line0 (dirty : Bool) : CacheLine := ⟨[1, 2, 3, 4] ++ List.replicate 60 0, dirty, if dirty then [2] else []⟩
/-- Thread 77 runs on core 2 with s1 = `v` at a word of window 0, which is mapped at 256 MiB; thread 78 is ready in a stall, 79 idle,
80 delayed, 81 waiting, 82 ready and ending. -/
def coreState (v : W32) (f : Thread → Thread) (k : CoreSt → CoreSt) : State := up fun x =>
  let t : Thread := { claimed := true, core := 2, entry := 2 ^ 31 + 4096, stack := 2 ^ 31 + 8192, budget := 10 }
  let x := { x with par := { x.par with cores := [(2, k { regs := { s := [(1, v)], pc := 0x80000040 }, run := some 77, stalls := [78] })]
                                        threads := [(77, f { t with state := .running }), (78, { t with state := .ready }), (79, t), (80, { t with state := .delayed }),
                                          (81, { t with state := .waiting }), (82, { t with state := .ready, pending := 14, ending := some 5 })] } }
  (x.setFld R.PA_CORE_WIN_VALID 1 2 0).setFld R.PA_CORE_WIN_BASE 1 2 0

theorem test_witness_CoreArithmetic : (coreState 5 id id).coreReady 0 2 = true ∧ (31 : Byte).toNat ≤ 31 := by decide
theorem test_witness_CoreControl : (coreState 0 id id).coreReady 0 2 = true := by decide
/-- A word of the line that the core's L1 holds. -/
theorem test_witness_CoreLoadsAndStores_l1 :
    let s := coreState 0x80000000 id fun k => { k with l1 := [(2 ^ 22, some (line0 false))] }
    s.coreReady 0 2 = true ∧ s.noInject 0 = true ∧ (s.regsOf 0 2).get 1 = 0x80000000#32 ∧ (s.die 0).window 2 0x80000000 = some (2 ^ 28) ∧
      (s.die 0).l1 2 (2 ^ 28 / 64) = some (line0 false) := by decide
/-- The last byte of the window, which no L1 holds; a register; an odd address; an address in no window. -/
theorem test_witness_CoreLoadsAndStores :
    let s := coreState 0x8FFFFFFF id id
    s.coreReady 0 2 = true ∧ (s.die 0).window 2 0x8FFFFFFF = some (2 ^ 29 - 1) ∧ (∀ j : Fin 8, (s.die 0).l1 j ((2 ^ 29 - 1) / 64) = none) ∧
      (0x24FFFC < 0x250000 ∧ s.noAddress 0 0x1F000C = false) ∧ 0x8FFFFFFF % 2 ≠ 0 ∧ 0x8FFFFFFF % 4 ≠ 0 ∧ (s.die 0).window 2 0x90000000 = none ∧
      (s.die 0).window 2 0x250000 = none := by decide
/-- A range of one line and one of length 0; a core that SYNC holds, with a write on its way and with none. -/
theorem test_witness_CacheMaintenance :
    let s := coreState 64 id fun k => { k with l1 := [(2 ^ 22, some (line0 true))] }
    s.has 0 = true ∧ s.coreReady 0 2 = true ∧ (s.regsOf 0 2).get 2 = 0 ∧ (s.die 0).rangeLines 2 0x80000000 64 = [2 ^ 22] ∧
      (s.die 0).unsynced 2 = [2 ^ 22] ∧ ((coreState 64 id id).die 0).unsynced 2 = [] := by decide
theorem test_witness_CacheMaintenance_sync :
    let s := coreState 0 id fun k => { k with syncing := true }
    ((s.die 0).core 2).syncing = true ∧ (s.die 0).coreDraining 2 s.now = false ∧ ((s.die 0).core 2).postAfter = none ∧
      ({ s.die 0 with dram := { (s.die 0).dram with writes := [⟨0, [], s.now, [2]⟩] } } : Die).coreDraining 2 s.now = true := by decide
/-- s1 at 1 and 65535, with a counter of 1 and of 0, with and without a pending release. -/
theorem test_witness_KernelCalls : (∀ v ∈ [1, 65535], ∀ n ∈ [0, 1],
      let s := coreState (BitVec.ofNat 32 v) (fun t => { t with count := n, pending := n }) id
      s.coreReady 0 2 = true ∧ s.thread 0 2 = 77 ∧ ((s.die 0).th 77).core = 2 ∧ ((s.die 0).th 77).ending = none ∧ ((s.die 0).th 77).count = n ∧
        ((s.regsOf 0 2).get 1).toNat = v ∧ ((s.regsOf 0 2).get 3) = 0 ∧ (s.die 0).coreDraining 2 s.now = false ∧ (s.die 0).unsynced 2 = []) ∧
    (let s := coreState 79 id id
     ((s.die 0).th 79).claimed = true ∧ ((s.die 0).th 79).state ≠ .waiting ∧ -32768 < ((s.die 0).th 79).count) := by decide
/-- s1 at 0, 65536 and 4096; the words of test_wf_illegal. -/
theorem test_witness_KernelCalls_stops : ∀ v ∈ [0, 65536, 4096], (coreState (BitVec.ofNat 32 v) id id).coreReady 0 2 = true := by decide
theorem test_witness_ThreadsInTime :
    let s := coreState 0 (fun t => { t with used := 10 }) id
    let x := s.die 0
    s.has 0 = true ∧ (x.th 80).state = .delayed ∧ (x.th 80).expiry = 0 ∧ (x.th 81).state = .waiting ∧ (x.th 81).expiry = 0 ∧
      (x.th 77).state = .running ∧ (x.th 77).budget ≤ (x.th 77).used ∧ (x.core 2).run = some 77 ∧ (x.th 82).ending = some 5 ∧
      (x.th 78).resident = false ∧ (x.th 78).loaded = false ∧ (x.core 2).stalls.contains 78 = true := by decide
theorem test_witness_ThreadsInTime_start :
    let s := (coreState 0 id fun k => { k with run := none }).upd 0 fun x => x.modTh 78 fun t => { t with loaded := true, readyLine := -1 }
    ((s.die 0).readyList 2).head? = some 78 ∧ ((s.die 0).core 2).run = none ∧ ((s.die 0).th 78).loaded = true := by decide
/-- Releases of an idle thread, and of ready ones with 14 and 15 pending; a restart of a stopped thread. -/
theorem test_witness_ThreadsInTime_release :
    let s := (coreState 0 id id).upd 0 fun x => (x.modTh 78 fun t => { t with pending := 15 }).modTh 81 fun t => { t with state := .stopped }
    s.accepts 0 .host 0x1F000C 79 = true ∧ ((s.die 0).th 79).state = .idle ∧ s.accepts 0 .host 0x1F000C 82 = true ∧ ((s.die 0).th 82).pending = 14 ∧
      s.accepts 0 .host 0x1F000C 78 = true ∧ ((s.die 0).th 78).pending = 15 ∧ s.accepts 0 (.core 7) 0x1F0010 81 = true := by decide

/-- Two rows: samples of 10 and of 12 bits at both ends of their range, and rows of 4 bytes. -/
theorem test_witness_Reshaping :
    let a : List (BitVec 16) := [0, 1023, 4, 5]
    let b : List (BitVec 16) := [0, 4095]
    a.length % 4 = 0 ∧ (a.all fun w => w.toNat < 1024) = true ∧ b.length % 2 = 0 ∧ (b.all fun w => w.toNat < 4096) = true ∧ 8 % (2 * 2 ^ (2 : Fin 3).val) = 0 := by decide
/-- Channel 9 runs, at word 2 of its program, which begins at word 100. -/
def chanState (w0 w1 state pend : Nat) (f : DmaChan → DmaChan) : State := up fun x =>
  let x := { x with dma := { x.dma with chans := [(9, f { words := 10, budget := 20, pc := 2, issued := 3 })], store := [(102, w0), (103, w1)] } }
  let x := ((x.setFld R.DM_CH_CFG_USED 1 9).setFld R.DM_CH_CFG_STARTS 4 9).setFld R.DM_CH_CFG_FIRST 100 9
  let x := ((x.setFld R.DM_CH_CFG_USED 1 5).setFld R.DM_CH_CFG_STARTS 8 5).modTh 99 fun t => { t with claimed := true }
  (x.setFld R.DM_CH_STATUS_STATE state 9).setFld R.DM_CH_STATUS_PENDING pend 9
/-- A COPY of one row of 48 elements; a LOOP of count 0 and 3; the budget reached. -/
def copyWord : Nat := 2 ^ 124 + 2 ^ 116 + 2 ^ 112 + 1000 * 2 ^ 76 + 5000 * 2 ^ 40
theorem test_witness_DmaMovesAndLoops :
    let s := chanState copyWord (48 * 2 ^ 104 + 2 ^ 88) 1 0 id
    let c := (s.die 0).chan 9
    let m := moveWord copyWord (48 * 2 ^ 104 + 2 ^ 88) c.loops
    s.has 0 = true ∧ (s.die 0).dmaReady 9 = true ∧ c.ending = false ∧ c.issued < c.budget ∧ bits copyWord 127 124 = 1 ∧ c.accesses.length < 16 ∧
      (s.die 0).word (s.fld 0 R.DM_CH_CFG_FIRST 9 + c.pc) = copyWord ∧ m.srcKind = 1 ∧ m.dstKind = 1 ∧ m.rows = 1 ∧ m.ckEn = false ∧ m.endEntry = false := by decide
theorem test_witness_DmaMovesAndLoops_loop : (∀ k ∈ [0, 3],
      (chanState (2 * 2 ^ 124 + 2 ^ 116 + k * 2 ^ 98) 0 1 0 id).has 0 = true ∧
      ((chanState (2 * 2 ^ 124 + 2 ^ 116 + k * 2 ^ 98) 0 1 0 id).die 0).dmaReady 9 = true ∧ bits (2 * 2 ^ 124 + 2 ^ 116 + k * 2 ^ 98) 127 124 = 2) ∧
    (∀ w ∈ [copyWord, 2 * 2 ^ 124], ((chanState w 0 1 0 fun c => { c with issued := 20 }).die 0).dmaReady 9 = true) := by decide
/-- The four conditions of WAIT; a wait whose condition holds, and one whose time is over. -/
theorem test_witness_DmaWaitsAndSignals_wait : ∀ k ∈ [0, 1, 2, 3],
    let s := chanState (3 * 2 ^ 124 + k * 2 ^ 121) 0 1 1 id
    let t := chanState 0 0 1 1 fun c => { c with wait := some ⟨k, 7, false, 0, 0, k == 0, 0, true⟩ }
    s.has 0 = true ∧ (s.die 0).dmaReady 9 = true ∧ ((s.die 0).chan 9).issued < ((s.die 0).chan 9).budget ∧ bits (3 * 2 ^ 124 + k * 2 ^ 121) 123 121 = k ∧
      ((t.die 0).chan 9).ending = false ∧ (t.die 0).chState 9 = 1 ∧ 0 ≤ ((t.die 0).stream 7).length ∧ 1 ≤ t.fld 0 R.DM_CH_STATUS_PENDING 9 := by decide
theorem test_witness_DmaWaitsAndSignals_pace :
    let s := (chanState 0 0 1 1 fun c => { c with wait := some ⟨1, 7, false, 0, 0, false, 0, true⟩ }).upd 0 fun x => x.setFld R.DM_SQ_FILL_PACE 1 7
    (s.die 0).chState 9 = 1 ∧ (s.die 0).flag R.DM_SQ_FILL_PACE 7 = true := by decide
/-- A SIGNAL to tile 153's flag 2, to thread 99 and to channel 5, at depths 0 and 15, with END and without. -/
def signalWord (e st : Nat) : Nat := 4 * 2 ^ 124 + e * 2 ^ 123 + 2 ^ 122 + 2 ^ 121 + st * 2 ^ 120 + 9 * 2 ^ 107 + 3 * 2 ^ 102 + 2 * 2 ^ 98 + 99 * 2 ^ 86 + 5 * 2 ^ 79
theorem test_witness_DmaWaitsAndSignals_signal : ∀ e ∈ [0, 1], ∀ g ∈ [0, 1],
    let w := signalWord e (1 - g)
    let s := chanState w 0 1 0 fun c => { c with depth := 15 * e }
    (s.die 0).dmaReady 9 = true ∧ ((s.die 0).chan 9).accesses = [] ∧ bits w 127 124 = 4 ∧ bit w 119 = false ∧ bit w 122 = true ∧ bit w 121 = true ∧
      bit w 120 = (g == 0) ∧ bit w 123 = (e == 1) ∧ bits w 85 79 = 5 ∧ (s.die 0).flag R.DM_CH_CFG_USED 5 = true ∧
      bit ((s.die 0).fld R.DM_CH_CFG_STARTS 5) 3 = true ∧ (s.die 0).chState 5 = 0 ∧ ((s.die 0).th 99).claimed = true ∧ ((s.die 0).th 99).state = .idle ∧
      s.fld 0 R.DM_CH_STATUS_PENDING 9 = 0 ∧ ((s.die 0).chan 9).depth = 15 * e := by decide
theorem test_witness_DmaStartsAndStops : ∀ e ∈ [(0, 0), (1, 254), (1, 255)],
    let s := chanState 0 0 e.1 e.2 fun c => { c with accesses := [7] }
    s.has 0 = true ∧ (s.die 0).st.slices = [] ∧ s.accepts 0 .host (0x1D100C + 64 * 9) 1 = true ∧ bit ((s.die 0).fld R.DM_CH_CFG_STARTS 9) 2 = true ∧
      (s.die 0).chState 9 = e.1 ∧ s.fld 0 R.DM_CH_STATUS_PENDING 9 = e.2 ∧ ((s.die 0).chan 9).oldest = some 7 ∧ ((s.die 0).chan 9).blocked = none := by decide
theorem test_witness_DmaStartsAndStops_restart : (chanState 0 0 2 0 id).accepts 0 .host (0x1D100C + 64 * 9) 2 = true := by decide

/-! ### Time and plans -/

/-- A cadence at 60/1.001 frames a second with 1125 lines, at a frame boundary. -/
def runCad (x : Die) (c : Nat) : Die :=
  let x := { x with clk := { x.clk with now := 5000 * second } }
  let x := (x.setFld R.TB_CAD_CFG_RATE 10 c).setFld R.TB_CAD_CFG_LINES 1125 c
  match x.grid c with
  | some g => x.modCad c fun k => { k with next := g.boundaryFrom (g.firstFrom x.clk.now) }
  | none => x
/-- Compare unit 5, armed for 4000 s and 1 ns in MODE 0, single-shot or periodic with a period of 7 ns; thread 99 and channel 99 are its targets. -/
def cmpState (at_ per act : Nat) : State := up fun x =>
  let x := runCad x 2
  let x := ((((x.setFld R.TB_CMP_CTRL_ARM 1 5).setFld R.TB_CMP_CTRL_PERIODIC per 5).setFld R.TB_CMP_CTRL_ACTION act 5).setFld R.TB_CMP_CTRL_TARGET 99 5).setFld R.TB_CMP_PERIOD 7 5
  let x := ((x.setFld R.DM_CH_CFG_USED 1 99).setFld R.DM_CH_CFG_STARTS 2 99).modTh 99 fun t => { t with claimed := true }
  (x.setFld R.TB_CMP_T0 1 5).setFld R.TB_CMP_T1 at_ 5
theorem test_witness_ArmedInThePast : ∀ p ∈ [0, 1],
    let s := cmpState 4000 p 0
    let y := (s.die 0).setReg 0x20454 (BitVec.ofNat 32 ((s.die 0).after [(0x20454, 1)] 0x20454))
    s.accepts 0 .host 0x20454 1 = true ∧ y.cmpArmed 5 = true ∧ y.cmpDue 5 = some (4000 * second + nsec : Nat) ∧
      ((4000 * second + nsec : Nat) : Int) < (s.die 0).clk.now ∧ y.fld R.TB_CMP_CTRL_PERIODIC 5 = p := by decide
theorem test_witness_TimeCommands_pulse :
    let x := (cmpState 5001 1 0).die 0
    (cmpState 5001 1 0).has 0 = true ∧ x.grid 3 = none ∧ (x.grid 2).isSome = true ∧ (x.cad 2).regrid = none ∧ (cmpState 5001 1 0).switchOwed 0 2 = false ∧
      (cmpState 5001 1 0).accepts 0 .host 0x2000C 1 = true := by decide
theorem test_witness_TimeCommands_fire : ∀ act ∈ [1, 2],
    let x := (cmpState 5001 0 act).die 0
    x.cmpDue 5 = some (5001 * second + nsec : Nat) ∧ x.cmpArmed 5 = true ∧ x.fld R.TB_CMP_CTRL_PERIODIC 5 = 0 ∧ x.fld R.TB_CMP_CTRL_ACTION 5 = act ∧
      x.fld R.TB_CMP_CTRL_TARGET 5 = 99 ∧ (x.th 99).claimed = true ∧ (x.th 99).state = .idle ∧ x.flag R.DM_CH_CFG_USED 99 = true ∧
      bit (x.fld R.DM_CH_CFG_STARTS 99) 1 = true ∧ x.chState 99 = 0 := by decide
theorem test_witness_TimeCommands_periodic :
    let x := (cmpState 5001 1 0).die 0
    x.cmpDue 5 = some (5001 * second + nsec : Nat) ∧ x.fld R.TB_CMP_CTRL_PERIODIC 5 = 1 ∧ x.fld R.TB_CMP_CTRL_MODE 5 = 0 ∧ 1 ≤ x.fld R.TB_CMP_PERIOD 5 ∧
      (x.clk.now : Int) ≤ (5001 * second + nsec : Nat) := by decide
def stepState (plan : Option Plan) : State :=
  (up fun x => { x.setFld R.TB_MODE_STEP_POLICY 2 with clk := { x.clk with now := second, servo := { x.clk.servo with step := some (-5) } } }).updPkg fun p => { p with plans := { p.plans with running := plan } }
/-- A plan of number 7 that gives no cadence, no section. -/
def noPlan : Plan := { header := List.replicate 256 0, sects := [], id := 7, part := false, digest := [], named := [] }
theorem test_witness_TimeCommands_step : (stepState (some noPlan)).accepts 0 .host 0x2000C 2 = true ∧ ((stepState none).die 0).clk.servo.step = some (-5) ∧ (stepState none).planRuns = false ∧
    ((stepState (some noPlan)).die 0).clk.servo.step = some (-5) ∧ (stepState (some noPlan)).planRuns = true ∧
    ((stepState (some noPlan)).die 0).fld R.TB_MODE_STEP_POLICY ≠ 1 ∧ ((stepState (some noPlan)).die 0).clk.servo.stepGo = false := by decide

/-- Die 0 follows REF_IN; its own frames of 1 s / 30 stand on the epoch before a plan. -/
def refState (at_ : Nat) (f : Servo → Servo) : State := up fun x =>
  let x := (x.setFld R.TB_REF_FORMAT_FORMAT 3).modServo false f
  let x := (x.setFld R.TB_REF_FORMAT_RATE 5)
  { x with clk := { x.clk with now := at_ } }
/-- The offset that the first line of a frame gives at 60 s and `ns`: the reference's frame starts at the station time less one line of
29,629 ns. -/
def refOff (at_ : Nat) : Int :=
  (Grid.mk 30 1 1125 0).refOffset ((at_ : Int) - (1 * (second * 1 / 30) / 1125 : Nat)) 0
theorem test_refOffset : refOff (60 * second + 29629 * nsec + 41263) = 0 ∧ refOff (60 * second + 29631 * nsec + 41263) = -32 ∧
    refOff (60 * second + 29600 * nsec) = 474 := by decide
/-- In LOCKED at and one beyond the threshold, with 7 and 8 rejects behind, and at the end of the lock; in ACQUIRE at the first sample
and at the sixteenth inside. -/
theorem test_witness_ServoSamples :
    refSignal true 1125 30 1 = some (3, 5, false) ∧ refSignal false 525 30000 1001 = some (1, 4, false) ∧ refSignal false 625 25 1 = some (2, 3, false) ∧
    (Instr.refSyncSample 0 true 1125 30 1 1 true).wf = true ∧ (Instr.refSyncSample 0 false 525 30000 1001 524 true).wf = true ∧
    (∀ n ∈ [7, 8], let s := refState (60 * second + 29600 * nsec) fun v => { v with state := .locked, rejectRun := n }
      s.planRuns = false ∧ s.source 0 = 2 ∧ (s.die 0).pertOn 6 0 0 = false ∧ s.die0.clk.servo.state = .locked ∧ s.die0.clk.servo.rejectRun = n ∧
        s.die0.clk.causes = [] ∧ (s.die 0).boundGrid 3 5 false = some ⟨30, 1, 1125, 0⟩ ∧ (s.advance 0).die0.clk.now = 60 * second + 29600 * nsec ∧
        sgn 32 (s.fld 0 R.TB_REF_OFFSET) = 0 ∧ 16 * s.fld 0 R.TB_THRESH_REF_IN < (474 - s.die0.clk.servo.predicted).natAbs) ∧
    (let s := refState (60 * second + 29631 * nsec + 41263) fun v => { v with state := .locked, outside := 15 }
     s.source 0 = 2 ∧ ¬(16 * s.fld 0 R.TB_THRESH_REF_IN < ((-32 : Int) - s.die0.clk.servo.predicted).natAbs)) := by decide
theorem test_witness_ServoSamples_acquire :
    (let s := refState (60 * second + 29629 * nsec + 41263) fun v => { v with state := .acquire }
     s.source 0 = 2 ∧ s.die0.clk.servo.step = none ∧ s.die0.clk.servo.samples.length < 15 ∧ s.die0.clk.servo.inside < 15) ∧
    (let s := refState (60 * second + 29629 * nsec + 41263) fun v => { v with state := .acquire, inside := 15, samples := List.replicate 15 32 }
     s.source 0 = 2 ∧ s.die0.clk.servo.step = none ∧ s.die0.clk.servo.samples.length = 15 ∧
       (median16 ((32 :: s.die0.clk.servo.samples).take 16)).natAbs < 16000 ∧ 15 ≤ s.die0.clk.servo.inside) := by decide
/-- A frame that comes 20 us late after 1 s: 20 ppm. -/
theorem test_witness_ServoSamples_frequency :
    let s := refState (60 * second) fun v => { v with state := .locked, measure := some (-((29 * (second / 30) : Nat) : Int), 0), lastFrameSync := some (29 * (second / 30)) }
    let dt := second + 20000 * nsec
    s.die0.clk.causes = [] ∧ s.source 0 = 2 ∧ s.fld 0 R.TB_REF_FORMAT_FORMAT = 3 ∧ s.fld 0 R.TB_REF_FORMAT_RATE = 5 ∧ s.fld 0 R.TB_REF_FORMAT_LINE750 = 0 ∧
      0 + second ≤ s.now + dt ∧
      (let period := second * 1 / 30
       let passed : Int := ((s.now + dt - 29 * (second / 30) + period / 2) / period * period : Nat) - (-((29 * (second / 30) : Nat) : Int))
       let sup : Int := ((s.now + dt - 0 : Nat) : Int)
       sup < (passed - sup).natAbs * 100000) := by decide
/-- Under a plan: PTP followed by die 0, in LOCKED and in FREE. -/
def ptpState (v : ServoState) : State :=
  (up fun x => (x.setFld R.TB_MODE_SOURCE 1).modServo false fun w => { w with state := v, lastSample := 9 }).updPkg fun p => { p with plans := { p.plans with running := some noPlan } }
theorem test_witness_LossAndHoldover : (∀ v ∈ [ServoState.locked, .acquire, .free],
      (ptpState v).has 0 = true ∧ ((ptpState v).lossDue 0 false).isSome = true ∧ (ptpState v).idleRefLost 0 false = false ∧ (ptpState v).planRuns = true ∧ ((ptpState v).die 0).clk.servo.state = v) ∧
    ((ptpState .holdover).die 0).clk.servo.state = .holdover ∧ (ptpState .holdover).source 0 ≠ 0 := by decide
/-- Under source PTP a REF_IN of 60 frames/s has stopped. -/
theorem test_witness_LossAndHoldover_idle :
    let s := (ptpState .free).upd 0 fun x => (x.setFld R.TB_REF_FORMAT_RATE 10).modServo false fun w => { w with lastFrameSync := some 9 }
    s.idleRefLost 0 false = true ∧ s.refInDue = some (9 + second / 30) := by decide
/-- Die 1 follows die 0; its backup has been locked for 16 samples, and for 15. -/
theorem test_witness_LossAndHoldover_die1 : ∀ n ∈ [15, 16],
    let s := State.reset.upd 1 fun x =>
      { ((x.setFld R.TB_MODE_BACKUP 1).modServo false fun w => { w with state := .locked }).modServo true fun w => { w with state := .locked, inLocked := n } with
        clk := { (((x.setFld R.TB_MODE_BACKUP 1).modServo false fun w => { w with state := .locked }).modServo true fun w => { w with state := .locked, inLocked := n }).clk with lastWord := some 100 } }
    s.die1.clk.lastWord = some 100 ∧ s.dual = true ∧ s.source 1 = 3 ∧ s.die1.clk.servo.state = .locked ∧ s.fld 1 R.TB_MODE_BACKUP = 1 ∧
      s.die1.clk.backup.state = .locked ∧ s.die1.clk.backup.inLocked = n := by decide

/-- Die 0 up with cadence 2 at a boundary, and plans. -/
def planState (q : Plans) : State := (up fun x => runCad x 2).updPkg fun p => { p with plans := q }
/-- noPlan with a grid for cadence 2 of die 0. -/
def cadPlan : Plan := { noPlan with header := List.replicate 0x60 0 ++ [0x0A, 0x40, 0x01, 0x00] ++ List.replicate 0x9C 0 }
def job (l : Option Nat) : AdmitJob := ⟨[], l, true, false, 0⟩
/-- noPlan with a library whose entry 3 declares the power alone. -/
def libPlan : Plan :=
  let body : List Byte := [1] ++ List.replicate 15 0 ++ [0x0E, 3, 0, 0] ++ leb 4 64 ++ leb 4 80 ++ List.replicate 116 0
  { noPlan with sects := [⟨1, 0x21, 1, false, 0, [1] ++ List.replicate 15 0 ++ leb 4 3 ++ leb 4 64 ++ leb 4 144 ++ List.replicate 36 0 ++ body⟩] }
theorem test_witness_PlanCommandRefusals :
    (planState {}).has 0 = true ∧ ((planState {}).die 0).up = true ∧ (planState {}).hostBarred 0 = false ∧ (planState {}).pkg.plans.pend = none ∧
    (planState {}).pkg.plans.request = none ∧ (planState { job := some (job none) }).plState = 1 ∧
    (planState { pend := some cadPlan, request := some ⟨0, 0, false, [], [], []⟩ }).pkg.plans.request ≠ none := by decide
theorem test_witness_PlanRequests : (planState {}).accepts 0 .host 0x30010 1 = true ∧
    (planState { pend := some cadPlan }).accepts 0 .host 0x30010 2 = true ∧ (planState { pend := some cadPlan }).accepts 0 .host 0x30010 4 = true ∧
    ((planState { running := some libPlan }).upd 0 fun x => x.setFld R.PL_LIB_NUMBER 3).accepts 0 .host 0x30010 8 = true := by decide
set_option maxRecDepth 100000 in
/-- The check of entry 3 of libPlan passes. -/
theorem test_witness_PlanRequests_entry :
    (match (planState { job := some (job (some 3)), running := some libPlan }).entryAdmission 3 with | .inl _ => false | .inr _ => true) = true := by decide +kernel
/-- The ends of checks that fail: an image of no bytes, and an entry of a library that is not there. (An image that passes rests on the
signature's algorithm, which is opaque.) -/
theorem test_witness_PlanRequests_done :
    (match (planState { job := some (job none) }).admission [] with | .inl _ => true | .inr _ => false) = true ∧
    (match (planState { job := some (job (some 3)), running := some noPlan }).entryAdmission 3 with | .inl _ => true | .inr _ => false) = true := by decide
theorem test_witness_PlanBoundaries :
    let s := planState { pend := some cadPlan, request := some ⟨0, 4999, false, [], [], []⟩ }
    s.has 0 = true ∧ s.tied cadPlan 2 = false ∧ s.sectionsHere 0 cadPlan = true ∧ cadPlan.part = false ∧ ((s.die 0).grid 2).isSome = true ∧ s.pkg.plans.brownOn = [] ∧ (planState {}).pkg.plans.request = none ∧ ((s.die 0).boundaryNow 2).isSome = true ∧
      (∀ b ∈ (s.die 0).boundaryNow 2, (s.die 0).switchTime 0 4999 ≤ b ∧ b < (s.die 0).switchTime 0 6000) ∧ planKey 0 2 ∈ s.switchKeys cadPlan := by decide
/-- Both dies' fragment 3 on cadence 2: the other die can meet the boundary, and can not; it has switched there, and LINE_PULSE owes this
die's switch. -/
def tiePlan : Plan := { cadPlan with header := (cadPlan.header.take 0x80) ++ [0x0A, 0x40, 0x01, 0x00] ++ List.replicate 0x7C 0, named := [0, 1] }
def tieState (f : Option Int) (late : Bool) : State :=
  let frag := sect 2 0x201 11 [2]
  let g := fun (x : Die) => runCad { x with live := [frag] } 2
  let s := (both g).updPkg fun p => { p with plans := { pend := some tiePlan, request := some ⟨0, 4999, false, [], [], f.toList.map fun e => (2, e)⟩ } }
  if late then s.upd 1 fun x => x.modCad 2 fun k => { k with next := k.next + 1 } else s
theorem test_witness_PlanBoundaries_tied :
    let f := match (tieState none false).die0.grid 2 with | some g => g.frame (((tieState none false).die0.cad 2).settle g).next | none => 0
    (tieState none false).tied tiePlan 2 = true ∧ (tieState none false).die1.canMeet 2 f = true ∧ (tieState none true).die1.canMeet 2 f = false ∧
      (tieState (some f) false).switchOwed 0 2 = true ∧ (tieState (some (f + 1)) false).switchOwed 0 2 = false := by decide +kernel
/-- Die 1's sections of a plan have arrived, and have not; a step falls on the boundary of the switch. -/
theorem test_witness_PlanBoundaries_sections :
    let p : Plan := { cadPlan with sects := [⟨1, 0x21, 3, false, 0, []⟩] }
    let s := planState { pend := some p, request := some ⟨0, 0, false, [], [], []⟩ }
    let t := s.upd 1 fun x => x.modMr fun r => { r with sections := some p }
    let u := s.upd 0 fun x => { x.setFld R.TB_MODE_MASTER_CAD 2 with clk := { x.clk with servo := { x.clk.servo with step := some 16000 } } }
    p.on 1 ≠ [] ∧ s.dual = true ∧ s.sectionsHere 1 p = false ∧ t.sectionsHere 1 p = true ∧ s.sectionsHere 0 p = true ∧
      (∀ b ∈ (s.die 0).boundaryNow 2, s.stepBefore 0 b = false ∧ u.stepBefore 0 b = true) ∧ ((u.die 0).boundaryNow 2).isSome = true := by decide +kernel
/-- A plan with a brownout alternative: due and not on, on and not due, and a partial plan pending while it is on. -/
def brownPlan : Plan := { cadPlan with sects := [⟨3, 0x20, 1, false, 0, []⟩] }
theorem test_witness_PlanBoundaries_brownout :
    let s := planState { running := some brownPlan, brownDue := true }
    let t := planState { running := some brownPlan, brownOn := [2], pend := some { cadPlan with part := true }, request := some ⟨0, 0, false, [], [], []⟩ }
    brownPlan.brownout ≠ none ∧ cadPlan.brownout = none ∧ ((s.die 0).boundaryNow 2).isSome = true ∧ planKey 0 2 ∉ s.pkg.plans.brownOn ∧ planKey 0 2 ∈ t.pkg.plans.brownOn ∧
      s.pkg.plans.request = none ∧ t.pkg.plans.brownOn ≠ [] := by decide
theorem test_witness_PlanBoundaries_audio :
    let x := ((planState {}).die 0).setFld R.AU_MAP_CFG_USED 1 4095
    (x.boundaryNow 2).isSome = true ∧ x.flag R.AU_MAP_CFG_USED 4095 = true ∧
      x.auDestCad (x.fld R.AU_MAP_CFG_KIND 4095) (x.fld R.AU_MAP_DEST_INSTANCE 4095) = 0 ∧ ((runCad x 0).boundaryNow 0).isSome = true := by decide

/-! ### Encode channels, layers and lanes -/

/-- Encode channel 5 on cadence 2, running, in fragment 3 with the deferred tile 11; transport stream 7 carries it. -/
def encState (f : EncChan → EncChan) (g : Die → Die) : State := up fun x =>
  let x := runCad x 2
  let x := ((((x.setFld R.EN_TIMING_CADENCE 2 5).setFld R.EN_STATUS_RUNNING 1 5).setFld R.EN_SIZE_WIDTH 1920 5).setFld R.EN_SIZE_HEIGHT 1080 5).setFld R.EN_TIMING_DEFERRED 1 5
  let x := ((x.setFld R.RC_RATE 5000 5).setFld R.RC_POOL_CFG_CADENCE 2 5).setFld R.CH_CFG_LAYERS 2 5
  let x := { x with live := [sect 6 0x603 7 ([5] ++ List.replicate 11 0 ++ leb 2 5), sect 2 0x201 11 [2]] }
  g (((x.modEnc 5 fun c => f { c with frag := 3 }).setTile 11 { acting with paused := true }))
/-- FORCE_RAP with none pending and one pending; RATE in both modes. -/
theorem test_witness_EncodeRequests : ∀ p ∈ [0, 1],
    let s := encState id fun x => (x.setFld R.EN_STATUS_RAP_PENDING p 5).setFld R.RC_CFG_MODE p 5
    s.has 0 = true ∧ s.fld 0 R.MR_EC_INSTEP 5 = 0 ∧ s.accepts 0 .host (0x80014 + 256 * 5) 1 = true ∧ s.fld 0 R.EN_STATUS_RAP_PENDING 5 = p ∧
      s.accepts 0 .host (0x90004 + 64 * 5) 7000 = true ∧ s.fld 0 R.RC_CFG_RATE_RAP 5 = 0 ∧ s.fld 0 R.RC_CFG_MODE 5 = p ∧
      s.fld 0 R.EN_STATUS_RUNNING 5 = 1 ∧ (s.die 0).hasTs 5 = true ∧ (s.die 0).hasTs 6 = false ∧ ((s.die 0).grid (s.fld 0 R.EN_TIMING_CADENCE 5)).isSome = true := by decide +kernel
/-- A change that waits for the next frame boundary, and one for pool 5. -/
theorem test_witness_EncodeRequests_change :
    let ch : RateChange := ⟨0, 7000, false, 3⟩
    let s := encState (fun c => { c with changes := [ch] }) fun x => { x with enc := { x.enc with poolPend := [(5, some (44, 3))] } }
    ((s.die 0).enc' 5).changes = [ch] ∧ ((s.die 0).enc' 5).asked = [] ∧ mget (fun _ => none) (s.die 0).enc.poolPend (s.fld 0 R.RC_CFG_POOL 5) = none ∧ ((s.die 0).grid (s.fld 0 R.EN_TIMING_CADENCE 5)).isSome = true ∧ ((s.die 0).changeDue 5 ch).isSome = true ∧
      mget (fun _ => none) (s.die 0).enc.poolPend 5 = some (44, 3) ∧ ((s.die 0).grid (s.fld 0 R.RC_POOL_CFG_CADENCE 5)).isSome = true := by decide +kernel
/-- Each operation that gives a command, and those that give none, with a pre-roll and without. -/
theorem test_witness_EncodeRequests_splice :
    (encState id id).fld 0 R.EN_STATUS_RUNNING 5 = 1 ∧ (encState id id).fld 0 R.EN_CFG_INTERLACED 5 = 0 ∧
    (scteCommand .malformed none).isNone = true ∧ (scteCommand (.spliceRequest 6) none).isNone = true ∧ (scteCommand .other none).isNone = true ∧
      (∀ k ∈ [Scte104.spliceRequest 2, .spliceRequest 4, .spliceRequest 5, .spliceNull], (scteCommand k none).isSome = true ∧ scteTimed k 4000 = false) ∧
      (∀ k ∈ [Scte104.spliceRequest 1, .spliceRequest 3, .timeSignal], (scteCommand k none).isSome = true ∧ scteTimed k 0 = false) := by decide
theorem test_witness_EncodeRequests_deadline :
    let p : EncPic := { frame := 5, field := 0, rows := [{ row := 3, wait := 0, left := 1, started := true }] }
    let s := encState (fun c => { c with pics := [p] }) id
    ((s.die 0).enc' 5).pics = [p] ∧ s.fld 0 R.EN_TIMING_DEFERRED 5 = 1 ∧ (s.die 0).deferredLeft ((s.die 0).enc' 5).frag = true := by decide +kernel
/-- The background, which passes, and the scaled video layer 2 of size 0, which does not. -/
theorem test_witness_ChurnAndInputs :
    let s := encState id fun x => (x.setFld R.CH_LSRC_VIDEO 1 5 1).setFld R.CH_LSRC_SCALER 1 5 1
    s.has 0 = true ∧ s.fld 0 R.MR_EC_INSTEP 5 = 0 ∧ s.accepts 0 .host (0xC000C + 256 * 5) 1 = true ∧ s.accepts 0 .host (0xC000C + 256 * 5) 2 = true ∧
      s.accepts 0 .host (0xC000C + 256 * 5) 4 = true ∧ 2 ≤ s.fld 0 R.CH_CFG_LAYERS 5 ∧ (s.die 0).flattened 5 1 = false ∧ (s.die 0).flattened 5 2 = false ∧
      (s.die 0).layerCause 0 5 0 = 0 ∧ (s.die 0).layerCause 0 5 2 ≠ 0 := by decide +kernel
theorem test_witness_ChurnAndInputs_due :
    let k : LayerCommit := ⟨[1, 2, 3, 4, 5], 300000⟩
    let r : FlatRun := ⟨0, 900000, false⟩
    let s := encState id fun x => (x.setFld R.CH_CFG_FLAT_MASK 2 5).modChurn 5 fun c => { c with layers := [(1, { commit := some k })], flat := [(2, some r)] }
    ((s.die 0).grid 2).isSome = true ∧ ((s.die 0).churnOf 5).layer 1 = { commit := some k } ∧ (s.die 0).commitsDue 5 = [(k.frame, 1)] ∧
      (s.die 0).flattened 5 1 = false ∧ oget ((s.die 0).churnOf 5).flat ((s.die 0).runStart 5 2) = some r ∧ ((s.die 0).frameLine 2).1 + 1 < r.notBefore := by decide +kernel
/-- Frame store 1023 after 1 and 2 frames without input; lane 7 and receive flow 7 with a line due. -/
theorem test_witness_ChurnAndInputs_missing :
    let s := encState id fun x =>
      let x := { x with live := [sect 0xB 0xB03 1023 []], lanes := { x.lanes with members := [(7, { next := some 1 }), (512 + 7, { next := some 1 })] }
                        cellar := { x.cellar with stores := [(1022, { idle := 1 }), (1023, { idle := 2 })] } }
      (x.setFld R.LN_CFG_CADENCE 2 7).setFld R.NW_RX_CFG_CADENCE 2 7
    ((s.die 0).bodyOf 0xB 0xB03 1023).isSome = true ∧ 2 ≤ ((s.die 0).store 1023).idle ∧ ((s.die 0).store 1022).idle < 2 ∧
      (s.die 0).memBad ⟨false, 7⟩ = false ∧ ((s.die 0).memDue ⟨false, 7⟩).isSome = true ∧ (s.die 0).memBad ⟨true, 7⟩ = false ∧
      ((s.die 0).memDue ⟨true, 7⟩).isSome = true := by decide +kernel

/-- Lane 9 with a direct route from lane 7. -/
def laneState (rx cable lock mode kind : Nat) (f : Lane → Lane) : State := up fun x =>
  let x := runCad x 2
  let x := (((x.setFld R.LN_STATUS_RX_NOW rx 7).setFld R.LN_STATUS_CABLE cable 7).setFld R.LN_STATUS_LOCK lock 7).setFld R.LN_CFG_RX_USED 1 7
  let x := (((x.setFld R.LN_CFG_MODE mode 7).setFld R.LN_STATUS_TX_NOW 2 7).setFld R.LN_XPT_KIND kind 7).setFld R.LN_EQ_COUNT 15 7
  let x := ((x.setFld R.LN_BLK_A_USED 1 31).setFld R.LN_BLK_B_USED 1 31).setFld R.LN_BLK_A_LOCK 1 31
  (((x.setFld R.LN_XPT_KIND 1 9).modLane 9 fun v => { v with xptNow := 7, xptPend := some 8 }).modLane 7 f)
theorem test_witness_LaneLockAndPower : (laneState 0 0 0 0 0 id).has 0 = true ∧ ((laneState 0 0 0 0 0 id).die 0).fld R.LN_STATUS_RX_NOW 7 = 0 ∧
    (let s := laneState 2 0 1 0 0 id
     ¬((s.die 0).fld R.LN_STATUS_RX_NOW 7 = 0 ∨ (s.die 0).flag R.LN_STATUS_CABLE 7 = true) ∧ (s.die 0).flag R.LN_STATUS_LOCK 7 = true ∧
       ((s.die 0).directs.filter fun t => ((s.die 0).lane t).xptNow = 7) = [9]) ∧
    (let s := laneState 2 1 0 0 0 fun v => { v with attempt := some 5 }
     ((s.die 0).lane 7).attempt = some 5 ∧ (s.die 0).rxOn 7 = true ∧ (s.die 0).flag R.LN_STATUS_LOCK 7 = false) := by decide +kernel
/-- Acquisition with a stored preset, the last, and with none. -/
theorem test_witness_LaneLockAndPower_acquire : ∀ p ∈ [none, some 15],
    let s := laneState 2 1 0 0 0 fun v => { v with stored := p }
    (s.die 0).rxOn 7 = true ∧ (s.die 0).flag R.LN_STATUS_CABLE 7 = true ∧ (s.die 0).flag R.LN_STATUS_LOCK 7 = false ∧ ((s.die 0).lane 7).attempt = none ∧
      (((s.die 0).lane 7).stored.getD 0) < (s.die 0).fld R.LN_EQ_COUNT 7 + 1 := by decide +kernel
theorem test_witness_LaneLockAndPower_commands :
    let s := laneState 2 1 1 0 1 fun v => { v with wake := (some (2, 5), some (1, 100)), xptPend := some 77 }
    s.accepts 0 .host (0x100050 + 512 * 7) 1 = true ∧ (s.die 0).flag R.LN_STATUS_LOCK 7 = true ∧ s.accepts 0 .host (0x100004 + 512 * 7) 10 = true ∧
      ((s.die 0).lane 7).wakeOf false ≠ none ∧ ((s.die 0).lane 7).wakeOf true ≠ none ∧ s.accepts 0 .host (0x100014 + 512 * 7) (BitVec.ofNat 32 (512 + 9)) = true ∧
      (s.die 0).fld R.LN_XPT_KIND 7 = 1 ∧ ((s.die 0).lane 7).xptPend = some 77 ∧ (s.die 0).flag R.LN_BLK_A_USED 31 = true ∧
      (s.die 0).flag R.LN_BLK_B_USED 31 = true ∧ (s.die 0).flag R.LN_BLK_A_LOCK 31 = true := by decide +kernel
set_option maxRecDepth 100000 in
/-- A receiver that delivers, in SDI and in native mode, and one that does not; a good and a bad sync word, each type of frame, and a gap in SEQ. -/
theorem test_witness_LaneTraffic :
    let pl : List Byte := List.replicate 256 0
    let w (t : Nat) : W32 := nativeWord t false false 3 9 pl
    ((laneState 2 1 1 0 0 id).die 0).lnNative 7 = false ∧ ((laneState 2 1 1 0 0 id).die 0).sourceUp 7 = true ∧ ((laneState 2 1 1 1 0 id).die 0).lnNative 7 = true ∧
      ((laneState 2 1 1 1 0 id).die 0).sourceUp 7 = true ∧ ((laneState 2 1 0 1 0 id).die 0).sourceUp 7 = false ∧ pl.length = 256 ∧
      ([0, 1, 2, 3].all fun t => bits (w t).toNat 31 20 == 0xE4B && bits (w t).toNat 7 0 == nativeCrc (w t) pl && bits (w t).toNat 19 18 == t) = true ∧
      ([0, 1, 2, 3].all fun t =>
        let bs := (({} : Lane).wire (w t) pl).1
        decide (2080 ≤ bs.length ∧ bs.length ≤ 2171) && (({} : Lane).unwire bs).map Prod.fst == some (w t, pl)) = true ∧
      (({} : Lane).unwire (List.replicate 2080 true)).isNone = true ∧
      oget ((laneState 2 1 1 1 0 fun v => { v with seqIn := [(3, some 7)] }).die 0 |>.lane 7).seqIn 3 = some 7 ∧ (9 : Nat) ≠ (7 + 1) % 16 := by decide +kernel
/-- An SDI line at the edge of the window of its group, with a right CRC and with a bad one. -/
theorem test_witness_LaneTraffic_line :
    let s := (laneState 2 1 1 0 0 id).setFld 0 R.LN_CFG_CADENCE 2 7
    let y := (s.advance 0).die 0
    let lane : MemRef := ⟨false, 7⟩
    let now := y.lineNow (y.memCad lane) + y.pertSum 0 7 0
    let l : Int := now - y.memWindow lane
    (s.die 0).flag R.LN_CFG_CRC_CONCEAL 7 = false ∧ y.pertOn 1 7 0 = false ∧ y.sdiMatches 0 7 { line := l } = true ∧ (y.grid (y.memCad lane)).isSome = true ∧
      (∀ g ∈ y.grid (y.memCad lane), ((y.memRaster 0 lane g.l).at_ (g.line l)).isSome = true) ∧ now ≤ l + y.memWindow lane := by decide +kernel
theorem test_witness_LaneTraffic_sent :
    (let s := laneState 2 1 1 1 2 fun v => { v with txSince := (1023, 65535) }
     (s.die 0).nativeTx 7 = true ∧ 1023 ≤ ((s.die 0).lane 7).txSince.1 ∧ 65535 ≤ ((s.die 0).lane 7).txSince.2) ∧
    (let s := laneState 2 1 1 1 2 fun v => { v with txSince := (1022, 0), txQueue := [(4, true, false, [1, 2, 3])] }
     (s.die 0).nativeTx 7 = true ∧ ((s.die 0).lane 7).txQueue.head? = some (4, true, false, [1, 2, 3]) ∧ ((s.die 0).lane 7).txSince.1 < 1023) ∧
    (let s := laneState 2 1 1 1 2 id
     ((s.die 0).lane 7).txQueue = [] ∧ (s.die 0).nativeQueued 0 7 = none) := by decide +kernel

/-! ### Network and egress -/

def ipA : List Byte := List.replicate 10 0 ++ [0xFF, 0xFF, 10, 0, 0, 1]
def ipB : List Byte := List.replicate 10 0 ++ [0xFF, 0xFF, 239, 0, 0, 2]
/-- A frame to `mac` with an EtherType and 46 bytes. -/
def plainFrame (mac : List Byte) (et : Nat) (b : List Byte) : List Byte := ethHead mac [0, 0, 0, 0, 0, 1] 0 0 et ++ b ++ List.replicate (46 - b.length) 0
/-- An RTP packet with sequence number 777 to port 6 of ipB, the UDP checksum left out; `bad` breaks the IP header's. -/
def rtpFrame (bad : Bool) : List Byte :=
  let ip : IpSend := ⟨ipA, ipB, 0, 3, 1⟩
  let body := ipPacket ip 17 [] (udpSegment ip 5 6 true ([0x80, 96] ++ natBE 2 777 ++ natBE 4 5 ++ natBE 4 9 ++ List.replicate 20 7))
  ethHead [1, 0, 0x5E, 0, 0, 2] [0, 0, 0, 0, 0, 1] 0 0 0x0800 ++ (if bad then body.set 8 9 else body)
/-- Sub-port 3 with untagged frames and MAC 01:02:03:04:05:06, its link at `link`; receive flow 9 takes ipB's port 6 there on its first path. -/
def netState (link : Nat) (f : Die → Die) : State := up fun x =>
  let x := runCad x 0
  let path : List Byte := leb 2 3 ++ leb 2 0 ++ leb 2 6 ++ leb 2 0 ++ ipB ++ ipA
  let secs := [sect 6 0x601 3 [1, 2, 3, 4, 5, 6, 0, 1, 10, 0, 0, 2], sect 6 0x602 9 ([0, 1] ++ List.replicate 10 0 ++ [0x80, 7, 0x38, 4, 0, 10, 0, 0, 0, 0, 0, 0] ++ path)]
  f ({ ((x.setFld R.NW_SP_STATUS_LINK link 3).setFld R.NW_SP_CFG_USED 1 3) with live := secs })
theorem test_witness_NetworkInputs : ∀ l ∈ [0, 1],
    let s := netState l id
    s.has 0 = true ∧ s.fld 0 R.NW_SP_CFG_MODE 3 ≠ 3 ∧ s.fld 0 R.NW_SP_STATUS_LINK 3 = l ∧ (s.die 0).forwardOf 3 (ethOf (rtpFrame false)) = none := by decide +kernel
/-- Frames of 59 and 9213 bytes, of EtherType 0x8808 and of a VLAN that the sub-port does not take. -/
theorem test_witness_NetworkInputs_dropped :
    let x := (netState 1 id).die 0
    (List.replicate 59 (0 : Byte)).length < 60 ∧ (ethOf (plainFrame [9, 9, 9, 9, 9, 9] 0x8808 [])).etype = 0x8808 ∧ x.spVlan 3 7 = false := by decide +kernel
/-- Frames of 60 bytes that carry no UDP: for the device, with a full control queue and with room; for nobody; a fragment. -/
theorem test_witness_NetworkInputs_control :
    let s := netState 1 fun x => x.modPort 4 fun p => { p with ctrl := List.replicate 256 [] }
    let x := s.die 0
    let p := plainFrame [1, 2, 3, 4, 5, 6] 0x1234 []
    let q := plainFrame [9, 9, 9, 9, 9, 9] 0x1234 []
    let f := plainFrame [1, 2, 3, 4, 5, 6] 0x86DD [0x60, 0, 0, 0, 0, 0, 44]
    p.length = 60 ∧ x.forwardOf 3 (ethOf p) = none ∧ (ethOf p).etype ≠ 0x8808 ∧ x.spVlan 3 (ethOf p).vlan = true ∧ udpOf p (ethOf p) = none ∧
      x.forDevice 3 (ethOf p) p = true ∧ x.forDevice 3 (ethOf q) q = false ∧ udpOf q (ethOf q) = none ∧ udpOf f (ethOf f) = none ∧
      udpFragment f (ethOf f) = true ∧ udpFragment p (ethOf p) = false ∧ x.policersOf 2 3 = [] ∧ (x.port 3).ctrl.length < 256 ∧ 256 ≤ (x.port 4).ctrl.length := by decide +kernel
/-- RTP packets of flow 9: one with a bad IP checksum; the first; a copy of one that was seen. -/
theorem test_witness_NetworkInputs_flow : ([(true, none, []), (false, none, []), (false, some (65536 * 3 + 777), [(65536 * 3 + 777, 1)])].all fun (v : Bool × Option Nat × Map Nat) =>
    let s := netState 1 fun x => x.modRx 9 fun r => { r with last := v.2.1, seen := v.2.2 }
    let x := s.die 0
    let b := rtpFrame v.1
    let e := ethOf b
    decide (60 ≤ b.length ∧ b.length ≤ 9212 ∧ e.etype ≠ 0x8808) && x.spVlan 3 e.vlan && (match udpOf b e with
      | some u => x.rxMatch 3 e u == some (9, 0) && u.bad == v.1 && decide (12 ≤ u.payload.length ∧ be u.payload 0 1 / 64 = 2 ∧ be u.payload 2 2 = 777)
      | none => false) && s.fld 0 R.NW_SP_CFG_PTP 3 == 0 && x.policersOf 0 9 == [] && !x.pertOn 1 9 1 && s.fld 0 R.NW_RX_CFG_KIND 9 != 5
      && (x.forwardOf 3 e).isNone && (x.rx 9).last == v.2.1) = true := by decide +kernel

/-- A PTP master, and a report that is due. -/
def mstA : PtpMaster := ⟨[1, 2, 3], 5, [11, 7], List.replicate 30 1, 0, [1, 1, 1, 1, 1, 1], ipA⟩
def repA : McReport := ⟨5, true, [(4, ipB, pad 16)]⟩
theorem test_witness_NetworkTimers :
    let s := netState 1 fun x => ((x.setFld R.NW_RX_CFG_TWO_PATHS 1 9).setFld R.NW_PTP_CFG_SUBPORT 3).modPort 3 fun p => { p with reports := [repA] }
    let s := s.upd 0 fun x => x.modPtp fun p => { p with foreign := [mstA, { mstA with port := [3], rank := 9 }], sel := some [1, 2, 3] }
    let x := s.die 0
    s.has 0 = true ∧ x.flag R.NW_RX_CFG_TWO_PATHS 9 = true ∧ s.fld 0 R.NW_RX_STATE_PATH0_DOWN 9 = 0 ∧ s.fld 0 R.NW_RX_STATE_PATH1_DOWN 9 = 0 ∧
      x.nw.ptp.sel = some [1, 2, 3] ∧ x.announceDue.isSome = true ∧ x.nw.ptp.master = some mstA ∧
      s.fld 0 R.NW_SP_STATUS_LINK (s.fld 0 R.NW_PTP_CFG_SUBPORT) = 1 ∧ (x.port 3).reports = [repA] := by decide +kernel
/-- A transmit flow of audio (KIND 2) and one of a transport stream (5), on cadence 0. -/
theorem test_witness_NetworkTimers_sent : ∀ k ∈ [0, 2, 5],
    let s := netState 1 fun x =>
      let body : List Byte := [BitVec.ofNat 8 k, 1, 0, 96] ++ leb 4 7 ++ List.replicate 8 0 ++ leb 2 24 ++ leb 2 1200 ++ List.replicate 4 0 ++ [2, 0, 8, 0, 0, 24, 0, 0] ++ leb 4 10000
      let x := { x with live := sect 6 0x603 9 body :: x.live }
      (x.setFld R.NW_TX_CFG_KIND k 9).modTx 9 fun v => { v with frame := 300000, pos := 240000000 }
    ((s.die 0).grid (s.fld 0 R.NW_TX_CFG_CADENCE 9)).isSome = true ∧ ((s.die 0).txDue 9).isSome = true ∧ s.fld 0 R.NW_TX_CFG_KIND 9 = k := by decide +kernel

/-- Queue 27 of sub-port 3 with two frames in it. -/
def egressState (link : Nat) (pkts : List Pkt) : State := netState link fun x => (x.setFld R.TQ_Q_CFG_USED 1 27).setQueue ⟨27, false⟩ { pkts := pkts }
theorem test_witness_EgressAndGates : (∀ l ∈ [0, 1],
      let s := egressState l [{ body := [1, 2, 3], len := 300, at_ := 5 }, { body := [4], len := 64, at_ := 5 }]
      let y := (s.advance 0).die 0
      s.has 0 = true ∧ y.nextQueue 3 = some ⟨27, false⟩ ∧ (y.spFree 3 && !y.pertOn 3 3 0) = true ∧
        ((s.die 0).queue ⟨27, false⟩).pkts.head? = some { body := [1, 2, 3], len := 300, at_ := 5 } ∧ (s.die 0).queueSp ⟨27, false⟩ = 3 ∧
        s.fld 0 R.NW_SP_STATUS_LINK 3 = l) ∧
    (((egressState 1 []).advance 0).die 0).nextQueue 3 = none := by decide +kernel
/-- Gate list 2 of sub-port 3 with three entries in station time. -/
def gateState (entry : Nat) (f : GateSt → GateSt) : State := netState 1 fun x =>
  let body : List Byte := [0, 0] ++ leb 2 3 ++ leb 4 5 ++ leb 4 1 ++ leb 4 300000 ++ leb 4 0x1FF ++ leb 4 100000 ++ leb 4 0x0FF ++ leb 4 100000 ++ leb 4 0x101 ++ leb 4 100000
  let x := { x with live := sect 8 0x801 14 body :: x.live }
  let x := (((x.setFld R.TQ_GATE_CFG_ACTIVE 2 3).setFld R.TQ_GATE_CFG_LISTS 3 3).setFld R.TQ_GATE_ENTRY_ENTRY entry 3).setFld R.TQ_SH_CFG_USED 1 1023
  x.modGate 3 f
theorem test_witness_EgressAndGates_lists :
    let s := gateState 0 fun g => { g with pend := some ⟨2, 4, 5000000300000, 1⟩ }
    s.accepts 0 .host (0x194000 + 16 * 1023) 77 = true ∧ s.accepts 0 .host (0x190104 + 32 * 3) 2 = true ∧ ((s.die 0).gateList 3 2).isSome = true ∧
      ((s.die 0).gate 3).pend = some ⟨2, 4, 5000000300000, 1⟩ ∧ ((s.die 0).gateStartDue 3).isSome = true := by decide +kernel
/-- At the second entry and at the last. -/
theorem test_witness_EgressAndGates_entry : ∀ n ∈ [1, 2],
    let s := gateState n fun g => { g with run := some 5000000000000 }
    ((s.die 0).gateList 3 (s.fld 0 R.TQ_GATE_CFG_ACTIVE 3)).isSome = true ∧ ((s.die 0).gate 3).run = some 5000000000000 ∧
      s.fld 0 R.TQ_GATE_ENTRY_ENTRY 3 = n ∧ (((s.die 0).gateList 3 2).map fun l => l.entries.length) = some 3 := by decide +kernel

/-! ### Silcel -/

/-- Slot 2 open with epoch 77, its highest ALIVE 1000 and its nonce 0x12345678. -/
def smState (f : Silcel → Silcel) : State := up fun x =>
  let x := runCad x 0
  let x := (((x.setFld R.SM_SLOT_EPOCH_OPEN 1 2).setFld R.SM_SLOT_EPOCH_VALID 1 2).setFld R.SM_SLOT_EPOCH_EPOCH 77 2).setFld R.SM_SLOT_ALIVE 1000 2
  let x := x.modSlot 2 fun v => { v with nonce := 0x12345678 }
  { x with sm := f x.sm }
/-- A request of slot 2 with ALIVE 1001. -/
def req (op : Nat) (p : List Byte) : Msg :=
  { opcode := BitVec.ofNat 8 op, tid := 100, epoch := 77, key := 2, alive := 1001, lifetime := 100, length := BitVec.ofNat 16 p.length, payload := p }
def taken (f : Silcel → Silcel) (m : Msg) : Bool := ((smState f).advance 1000).takes 0 {} m
theorem test_witness_SilcelRegisters : (smState id).has 0 = true ∧ taken id (req 0x01 []) = true ∧ taken id (req 0x10 (natBE 4 0x10008 ++ [0, 1, 0, 0])) = true ∧
    taken id (req 0x12 (natBE 4 0x10008 ++ natBE 4 0xFF ++ natBE 4 1)) = true := by decide +kernel
/-- HELLO with the nonce and with another, of an open slot and of a closed one. -/
theorem test_witness_SilcelRegisters_hello :
    let m := req 0x02 (natBE 4 0x12345678 ++ [0, 0, 0, 0])
    taken id m = true ∧ taken id (req 0x02 (List.replicate 8 0)) = true ∧ m.payload.length = 8 ∧ zeros m.payload 4 4 = true ∧ msgNum m 0 4 = 0x12345678 ∧
      ((up id).advance 0).takes 0 {} m = true := by decide +kernel
/-- WRITE of PW_CTRL, which passes; of SY_ID, which is read-only; of an address in no block. -/
theorem test_witness_SilcelRegisters_write :
    let m (a : Nat) := req 0x11 (natBE 4 a ++ [0, 1, 0, 0] ++ natBE 4 1)
    let o (a : Nat) := ((smState id).advance 1000).opened 0 {} (m a)
    taken id (m 0x10008) = true ∧ taken id (m 4) = true ∧ taken id (m 0x250000) = true ∧ (m 4).payload.length = 12 ∧ zeros (m 4).payload 6 2 = true ∧
      msgNum (m 4) 4 2 = 1 ∧ oneBlock 0x250000 1 = false ∧ oneBlock 0x10008 1 = true ∧ (o 0x10008).writeRefused 0 .host [(0x10008, 1)] = none ∧
      oneBlock 4 1 = true ∧ ((o 4).writeRefused 0 .host [(4, 1)]).isSome = true := by decide +kernel
theorem test_witness_SilcelRegisters_modify :
    let o := ((smState id).advance 1000).opened 0 {} (req 0x12 (natBE 4 0x10008 ++ natBE 4 0xFF ++ natBE 4 1))
    (oneBlock 0x10008 1 && !o.noAddress 0 0x10008) = true ∧ (oneBlock 4 1 && !o.noAddress 0 4) = true ∧ (oneBlock 0x250000 1 && !o.noAddress 0 0x250000) = false ∧
      taken id (req 0x12 (natBE 4 4 ++ natBE 4 0xFF ++ natBE 4 1)) = true ∧
      o.writeRefused 0 .host [(0x10008, (o.readReg 0 0x10008 &&& ~~~0xFF &&& ~~~(w1cMask 0x10008)) ||| (1 &&& 0xFF))] = none ∧
      (o.writeRefused 0 .host [(4, (o.readReg 0 4 &&& ~~~0xFF &&& ~~~(w1cMask 4)) ||| (1 &&& 0xFF))]).isSome = true := by decide +kernel

/-- A transfer of `n` bytes to `target`, with one of them there. -/
def xfer (target : Nat) (w : Bool) (q : Silcel) (n : Nat := 20) : Silcel := { q with xfer := some ⟨target, n, 0x20000, [(0, some 5)], 77, w⟩ }
/-- IMAGE_OPEN of a token of 1 and of 65,536 bytes with no transfer open, and with one; IMAGE_DATA with none, into one, and beyond its end. -/
theorem test_witness_SilcelTransfers :
    let op (n : Nat) := req 0x20 ([2, 0, 0, 0] ++ natBE 4 n ++ natBE 4 0)
    let data (off : Nat) := req 0x21 (natBE 4 off ++ [0, 0, 0, 0, 9])
    taken id (op 1) = true ∧ taken id (op 65536) = true ∧ taken (xfer 0 false) (op 1) = true ∧ (op 1).payload.length = 12 ∧ msgNum (op 65536) 4 4 ≤ 65536 ∧
      zeros (op 1).payload 1 3 = true ∧ msgNum (op 1) 0 1 = 2 ∧ taken id (data 0) = true ∧ taken (xfer 0 false) (data 19) = true ∧
      taken (xfer 0 false) (data 20) = true ∧ 9 ≤ (data 0).payload.length ∧ zeros (data 0).payload 4 4 = true := by decide +kernel
/-- IMAGE_CLOSE of each target with the CRC that R433 asks, with another, and while a write to the flash is going on. -/
theorem test_witness_SilcelTransfers_close :
    let c := crc32c (imageBytes 1 [(0, some 5)])
    let m := req 0x22 (natBE 4 c)
    (∀ t ∈ [0, 1, 2], taken (fun q => xfer t false q 1) m = true) ∧ taken (xfer 1 true) m = true ∧ m.payload.length = 4 ∧ c ≠ 5 ∧ c = msgNum m 0 4 := by decide +kernel
theorem test_witness_SilcelTransfers_closeBad : taken (xfer 0 false) (req 0x22 (natBE 4 5)) = true ∧ msgNum (req 0x22 (natBE 4 5)) 0 4 = 5 := by decide +kernel
/-- A request that waits, one that has a reply from its relay, with its transaction and without, and a quarantine. -/
theorem test_witness_SilcelTransfers_ends :
    let v : SmTrans := ⟨2, 100, req 0x10 [], {}, 10, false⟩
    let s := smState fun q => { xfer 1 true q with trans := [v], quar := [⟨2, 107, 5, 0⟩], returned := [(req 0x10 [], {})] }
    (s.die 0).sm.trans = [v] ∧ v.started = false ∧ (s.die 0).sm.returned = [(req 0x10 [], {})] ∧ (s.die 0).sm.quar = [⟨2, 107, 5, 0⟩] ∧
      ((s.die 0).trans 2 100).isSome = true ∧ ((s.die 0).trans 2 101).isSome = false ∧ ((s.die 0).sm.xfer.map fun v => v.writing) = some true := by decide +kernel

/-- SUBSCRIBE with the subscriptions 0 to `n` active; UNSUBSCRIBE; an opcode that is not listed. -/
def subState (n : Nat) : State := (smState id).upd 0 fun x => (List.range n).foldl (fun x i => x.setSub i 1 2 {} 5 (2 ^ 23 - 1)) x
theorem test_witness_SilcelSubscriptions :
    let m := req 0x30 (natBE 4 (2 ^ 23 - 1) ++ natBE 2 77 ++ [0, 0])
    (∀ n ∈ [0, 3, 4], ((subState n).advance 1000).takes 0 {} m = true) ∧ m.payload.length = 8 ∧ zeros m.payload 6 2 = true ∧ msgNum m 0 4 < 2 ^ 23 ∧
      (List.range 4).find? (fun i => decide ((subState 3).fld 0 R.SM_SUB_CFG_ACTIVE i = 0)) = some 3 ∧
      (∀ i ∈ List.range 4, (subState 4).fld 0 R.SM_SUB_CFG_ACTIVE i = 1) ∧ ((subState 1).advance 1000).takes 0 {} (req 0x31 []) = true ∧
      taken id (req 0x77 []) = true ∧ ¬listedOpcodes.contains (req 0x77 []).opcode.toNat := by decide +kernel
theorem test_witness_SilcelSubscriptions_form :
    let m := req 0x10 []
    ((smState id).advance 0).hears 0 {} = true ∧ { m with length := 1 }.lengthOk = false ∧ { m with version := 2 }.lengthOk = true ∧
      { m with version := 2 }.headerOk = false := by decide +kernel
theorem test_witness_SilcelSubscriptions_events :
    let s := (subState 1).upd 0 fun x => { x with sm := { x.sm with subs := [(3, { queue := List.replicate 65 ⟨0x1000C, 3, 7, 5, 9⟩ })] } }
    (List.range 4).filter (fun i => (s.die 0).flag R.SM_SUB_CFG_ACTIVE i) = [0] ∧
      (List.range 4).filter (fun i => !(mget (fun _ => ({} : Sub)) (s.die 0).sm.subs i).queue.isEmpty) = [3] := by decide +kernel

/-! ### Audio, DRAM and the pair -/

/-- Audio port 15 used in both directions; member 1 of group 3 lacks a sample; converter 31 holds a ratio. -/
def auState (mas lost tx : Nat) (good : Nat) : State := up fun x =>
  let x := runCad x 0
  let x := (((x.setFld R.AU_P_CFG_MASTER mas 15).setFld R.AU_P_STATUS_CLOCK_LOSS lost 15).setFld R.AU_P_CFG_TX_USED tx 15).setFld R.AU_P_CFG_RX_USED 1 15
  let x := (((x.setFld R.AU_P_CFG_RATE 1 15).setFld R.AU_ASRC_CFG_USED 1 31).setFld R.AU_ASRC_CFG_TRACKING 1 31)
  let x := x.modAuPort 15 fun v => { v with good := good }
  let x := (x.modAu 3 1 fun v => { v with member := { v.member with next := some 240000100 } }).modAsrc 31 fun v => { v with held := some (5, 77), nominal := 100000 }
  { x with live := [⟨1, 9, 3, false, 3, recB 0x901 3 (leb 2 3 ++ List.replicate 6 0 ++ [0, 0] ++ leb 2 15 ++ [1, 2] ++ leb 2 5 ++ [2, 0] ++ leb 2 7)⟩] }
theorem test_witness_AudioClocks :
    ((auState 0 0 0 63).die 0).auSlave 15 = true ∧ ((auState 0 0 0 63).die 0).flag R.AU_P_STATUS_CLOCK_LOSS 15 = false ∧ ((auState 0 0 0 63).die 0 |>.auPort 15).good < 64 ∧
    ((auState 0 1 1 64).die 0).flag R.AU_P_STATUS_CLOCK_LOSS 15 = true ∧ 64 ≤ ((auState 0 1 1 64).die 0 |>.auPort 15).good ∧
    (∀ t ∈ [0, 1], (auState 0 1 t 64).has 0 = true ∧ ((auState 0 1 t 64).die 0).auUsed 15 = true ∧ ((auState 0 1 t 64).die 0).pertOn 9 15 0 = false) := by decide +kernel
theorem test_witness_AudioClocks_members :
    let x := (auState 0 0 0 0).die 0
    ((x.auRef 3 1).bind x.auDue).isSome = true ∧ x.auBad 3 1 = false ∧ ((x.auRef 3 0).map fun r => r.kind) = some 0 ∧ (x.asrc 31).held = some (5, 77) ∧ x.asrcTracks 31 = true := by decide +kernel

/-- Region 7 with a refresh debt, hot or not, cooling or not, with neighbours to refresh. -/
def dramState (debt : Int) (hot : Nat) (cools : Bool) (f : Dram → Dram) : State := up fun x =>
  let x := (((runCad x 0).setFld R.MC_REG_STATE_SELF 0 7).setFld R.MC_REG_STATE_HOT hot 7).setFld R.MC_REG_STATE_DEBT (unsgn 8 debt) 7
  { x with dram := f { x.dram with coolNext := if cools then [(7, true)] else [], neighbours := [(7, [(5, 6), (7, 8)])] } }
/-- Samples at and beyond each limit of R474 to R476, and a sensor that has dropped two samples. -/
theorem test_witness_DramRefresh :
    (dramState 0 1 false fun d => { d with sensor := [(3, (2, 0))] }).has 0 = true ∧
    mget (fun _ => (0, 0)) ((dramState 0 1 false fun d => { d with sensor := [(3, (2, 0))] }).die 0).dram.sensor 3 = (2, 0) ∧
    mget (fun _ => false) ((dramState 0 1 false id).die 0).dram.sensorHot 3 = false ∧ (2401 : BitVec 16).toInt > 2400 ∧ (2400 : BitVec 16).toInt ≤ 2400 ∧
    1680 < (1681 : BitVec 16).toInt ∧ 1360 < (1361 : BitVec 16).toInt ∧ (1327 : BitVec 16).toInt < 1328 ∧ (BitVec.ofInt 16 (-641)).toInt < -640 := by decide +kernel
/-- Debts below, at and above the ceiling; a region that cools; runs that serve and one that has nothing to serve. -/
theorem test_witness_DramRefresh_regions :
    let y (n : Int) := (dramState n 0 false id).die 0
    (y 0).debt 7 + 1 ≤ (y 0).debtCeiling 7 ∧ ¬((y 126).debt 7 + 1 ≤ (y 126).debtCeiling 7) ∧ (y 126).debt 7 < 127 ∧ (y 126).hot 7 = false ∧
      (y 126).flag R.MC_REG_STATE_SELF 7 = false ∧ ((dramState 3 1 true id).die 0).hot 7 = true ∧
      mget (fun _ => false) ((dramState 3 1 true id).die 0).dram.coolNext 7 = true ∧ halveDebt (((dramState 3 1 true id).die 0).debt 7 + 1) ≤ 8 ∧
      -pullIn false < (y 0).debt 7 ∧ ¬(-pullIn false < (y (-8)).debt 7) ∧ 4 < ((dramState 5 1 false id).die 0).debt 7 ∧ (y 0).neighbours 6 = [] ∧
      ((y 0).neighbours 7).head? = some (5, 6) := by decide +kernel

/-- Die 0 with cadence 2 and its pail in a role with a lease of 20 lines; `f` rewrites what die 0 has of the pair, `g` what die 1 has. -/
def mrState (link role unc : Nat) (f g : Pairing → Pairing) : State :=
  let h (w : Bool) (x : Die) : Die :=
    let x := (((runCad x 2).setFld R.MR_PAIL_CFG_USED 1 2).setFld R.MR_PAIL_CFG_LEASE 20 2).setFld R.MR_PAIL_CFG_GUARD 9 2
    let x := ((x.setRole 2 (if w then role else 2)).setFld R.MR_STATUS_LINK_UP link).setFld R.MR_PAIL_STATE_UNCOND unc 2
    let x := ((x.setFld R.MR_EC_INSTEP 1 3).setFld R.EN_TIMING_CADENCE 2 3).modPail 2 fun v => { v with limit := x.lineNow 2 + 5 }
    { x with mr := (if w then f else g) x.mr }
  let s := both id
  { s with die0 := h true s.die0, die1 := h false s.die1, pkg := { s.pkg with sup := 5000 * second } }
def ck (crc : Nat) : Chk := ⟨3, 100, 1, false, crc, false, false, 1000⟩
theorem test_witness_LinkRecords : (mrState 0 1 0 id id).dual = true ∧ ((mrState 0 1 0 id id).die 0).linkUp = false ∧
    (let s := mrState 1 1 0 (fun q => { q with mark := 5000000000, slots := 8, leaseQ := [⟨1, 2, 3, 4, 5⟩] }) id
     (s.die 0).linkUp = true ∧ (s.die 0).muted 0 = false ∧ (s.die 0).muted 1 = false ∧ ((s.advance 0).die 0).clk.now / usec ≤ (s.die 0).mr.mark ∧
       (s.die 0).mr.slots % 8 = 0 ∧ (s.die 0).mr.leaseQ ≠ []) ∧
    (let s := mrState 1 1 0 (fun q => { q with mark := 5000000000, slots := 9, checkQ := [ck 5] }) id
     (s.die 0).mr.slots % 4 ≠ 0 ∧ (s.die 0).mr.checkQ ≠ [] ∧ (s.die 0).muted 0 = false) ∧
    (let s := mrState 1 1 0 id id
     (s.die 0).mr.mark < ((s.advance 0).die 0).clk.now / usec) := by decide +kernel
/-- A record of each class that arrives; a check value that matches, differs from and lacks the die's own. -/
theorem test_witness_LinkRecords_arrival :
    ([(LinkRec.idle, 0), (.timing 5 (false, false), 1), (.check [ck 5], 3), (.control (some (1, 0, 1)) (some (.rap 3 (some 7))) [], 4), (.plan (.snapshot 7) 0 true, 5)].all
      fun (e : LinkRec × Nat) => (((mrState 1 1 0 id fun q => { q with flight := [e.1, .idle] }).die (peer 0)).mr.flight.head? == some e.1) && e.1.cls == e.2) = true ∧
    (LinkRec.check [ck 5]).chk? = some (ck 5) ∧ (LinkRec.timing 5 (false, false)).time? = some 5 ∧
    (LinkRec.control (some (1, 0, 1)) (some (.rap 3 (some 7))) []).rap? = some (1, 3) ∧ (ck 5).chan < 256 ∧
    ((mrState 1 1 0 (fun q => { q with own := [ck 6] }) id).die 0).mr.own.find? (ck 5).same = some (ck 6) ∧ ((mrState 1 1 0 id id).die 0).mr.own.find? (ck 5).same = none ∧
    1 ∉ ((mrState 1 1 0 id id).die 0).mr.gotDone := by decide +kernel
/-- A fragment sent four times and three; an unchecked value; training with a delay of 640 and of 641 units. -/
theorem test_witness_LinkRecords_waits :
    let m : CtlOut := { id := 1, msg := .rap 3 none, total := 1, wait := [(0, 3, 4)] }
    let s := mrState 1 1 0 (fun q => { q with ctlQ := [m], own := [ck 5] }) id
    (s.die 0).mr.ctlQ = [m] ∧ m.wait = [(0, 3, 4)] ∧ (match m.msg with | .taken _ => false | _ => true) = true ∧ (s.die 0).mr.own.head? = some (ck 5) ∧ ((s.die 0).uncheckedAt (ck 5)).isSome = true := by decide +kernel

/-- An item of each type for pail 2 at the head of the other die's whey line. -/
theorem test_witness_PailLease : ([(1, 2), (1, 3), (2, 1), (3, 2)].all fun (e : Nat × Nat) =>
      let s := mrState 1 e.2 0 id fun q => { q with items := [⟨e.1, 2, 255, 7, 0⟩], beats := (5, 1) }
      s.dual && (s.die (peer 0)).mr.items.head? == some ⟨e.1, 2, 255, 7, 0⟩ && (s.die (peer 0)).mr.flight == [] && (s.die 0).role 2 == e.2 && !(s.die 0).diverged 2
        && (s.die 0).linkUp && decide (1 ≤ (s.die (peer 0)).mr.beats.2)) = true := by decide +kernel
theorem test_witness_PailLease_times :
    (let x := (mrState 1 1 0 (fun q => { q with heard := some 5 }) id).die 0
     x.mr.heard = some 5 ∧ (x.pailInstant 2 (x.pail 2).limit).isSome = true ∧ x.role 2 = 1 ∧ (x.pail 2).ho = none ∧ (mrState 1 1 0 id id).fld 0 R.MR_PAIL_STATE_UNCOND 2 = 0) ∧
    (let x := (mrState 1 2 0 id id).die 0
     (x.pailInstant 2 ((x.pail 2).limit + x.fld R.MR_PAIL_CFG_GUARD 2)).isSome = true ∧ x.role 2 = 2 ∧ (x.pail 2).ho = none) := by decide +kernel
/-- HANDOVER and SEIZE of pail 2; a handover's line on both dies' roles; a die that rejoins. -/
theorem test_witness_PailLease_commands :
    (let s := mrState 1 1 0 id id
     s.accepts 0 .host 0x200008 (BitVec.ofNat 32 10) = true ∧ ((s.die 0).grid 2).isSome = true ∧ ((s.die 0).pail 2).ho = none) ∧
    (mrState 1 3 0 id id).accepts 0 .host 0x200008 (BitVec.ofNat 32 18) = true ∧
    (∀ r ∈ [1, 2], let s := (mrState 1 r 0 id id).upd 0 fun x => x.modPail 2 fun v => { v with ho := some (v.limit + 1) }
      ((s.die 0).pail 2).ho = some (((s.die 0).pail 2).limit + 1) ∧ ((s.die 0).pailInstant 2 (((s.die 0).pail 2).limit + 1)).isSome = true ∧ (s.die 0).role 2 = r) ∧
    (∀ r ∈ [0, 3], let s := (mrState 1 r 0 id id).updPkg fun p => { p with plans := { p.plans with running := some ⟨[], [], 0, false, [], [], false⟩ } }
      s.planRuns = true ∧ (s.die 0).pailUsed 2 = true ∧ (s.die 0).linkUp = true ∧ (s.die 0).role 2 = r ∧ (s.die 0).inStepOn 2 ≠ []) := by decide +kernel

/-! ### Power, reset, temperature and the panel -/

/-- The package with levels, a low-power state and a change of it. -/
def pwState (warn ov st : Nat) (sup : Supply) (f : Power → Power) : State :=
  (up fun x =>
    let x := ((x.setFld R.PW_STATUS_WARN warn).setFld R.PW_STATUS_OV_WARN ov).setFld R.PW_STATUS_STATE st
    { x with pw := f x.pw, live := [⟨1, 0x0E, 3, false, 3, leb 4 0 ++ (List.range 16).flatMap fun i => leb 4 (1000 * i)⟩] }).updPkg fun k =>
      { k with supply := sup, plans := { k.plans with running := some ⟨[], [], 0, false, [], [], false⟩ } }
/-- Levels up and down; VIN at 0, 7000 and outside; a limit in force and none; the least value fresh and not. -/
theorem test_witness_SupplyAndStates : ∀ l ∈ [0, 1],
    let s := pwState l l 1 {} fun p => { p with limit := if l = 1 then [(6, 5)] else [], minFresh := l == 1 }
    s.has 0 = true ∧ s.fld 0 R.PW_STATUS_WARN = l ∧ s.fld 0 R.PW_STATUS_OV_WARN = l ∧ (((s.advance 9).die 0).pw.limit.any fun e => e.1 == 6) = (l == 1) ∧
      ((s.advance 9).die 0).pw.minFresh = (l == 1) ∧ s.accepts 0 .host 0x1001C 13 = true ∧ s.accepts 0 .host 0x10008 4 = true := by decide +kernel
/-- Each low-power state asked for in Idle and in itself, and each change that ends. -/
theorem test_witness_SupplyAndStates_changes :
    (∀ n ∈ [1, 2, 3], (up id).accepts 0 .host 0x10008 (BitVec.ofNat 32 n) = true) ∧ (up id).fld 0 R.PW_STATUS_STATE = 1 ∧
    (up fun x => x.setFld R.PW_STATUS_STATE 2).accepts 0 .host 0x10008 1 = true ∧
    (∀ n ∈ [1, 2, 3], (pwState 0 0 1 ⟨some n, false⟩ id).pkg.supply.change = some n) ∧ (pwState 0 0 3 ⟨some 1, true⟩ id).die0.pw.phase = .ready := by decide +kernel
/-- A block at 105 % of its declared power, and beyond. -/
theorem test_witness_SupplyAndStates_over :
    let s := pwState 0 0 1 {} id
    s.planRuns = true ∧ (s.advance 9).declared 0 1 * 105 < ((s.advance 9).declared 0 1 * 105 / 100 + 1) * 100 := by decide +kernel

/-- Each phase and cause that decide whether a released package comes up, and when the watchdog acts. -/
theorem test_witness_ResetsAndRestarts :
    (pwState 0 0 1 {} fun p => { p with phase := .held }).die0.pw.phase = .held ∧ (pwState 0 0 1 {} id).die0.pw.phase = .ready ∧
    (pwState 0 0 1 {} id).fld 0 R.PW_LAST_RESET_KIND = 0 ∧ (pwState 0 0 1 {} id).die0.tooCold = false ∧ (pwState 0 0 1 {} id).die0.heat.shut = false ∧
    ((pwState 0 0 1 {} fun p => { p with limit := [(7, 5), (2, 6)] }).die 0).pw.limit.head? = some (7, 5) ∧ (pwState 0 0 1 {} id).accepts 0 .host 0x10008 8 = true ∧
    (pwState 0 0 2 {} id).fld 0 R.PW_STATUS_STATE = 2 := by decide +kernel
theorem test_witness_ResetsAndRestarts_heat :
    let s := up fun x => { x.modSensor 12 (fun t => { t with above := 3 }) with heat := { (x.modSensor 12 fun t => { t with above := 3 }).heat with coolSince := some 5 } }
    3 ≤ ((s.die 0).sensor 12).above ∧ (s.die 0).heat.shut = false ∧ (s.die 0).heat.coolSince = some 5 ∧ s.fld 0 R.PW_STATUS_WARN = 0 ∧ s.fld 0 R.PW_STATUS_OV_WARN = 0 := by decide +kernel
/-- A RESET of each kind; of die 0, of die 1 and of a die 2; of a lane that is claimed and of one that is not; on one die and on two. -/
def rstState (two : Nat) : State :=
  let s := up fun x =>
    let x := (((x.setFld R.SM_SLOT_EPOCH_OPEN 1 2).setFld R.SM_SLOT_EPOCH_VALID 1 2).setFld R.SM_SLOT_EPOCH_EPOCH 77 2).setFld R.SM_SLOT_ALIVE 1000 2
    x.setFld R.LN_CFG_RX_USED 1 5
  s.setFld 0 R.SY_VARIANT_DUAL two
def rst (kind t k : Nat) : Msg :=
  { opcode := 0x60, tid := 100, epoch := 77, key := 2, alive := 1001, lifetime := 100, length := 4, payload := [BitVec.ofNat 8 kind, BitVec.ofNat 8 t] ++ natBE 2 k }
theorem test_witness_ResetsAndRestarts_requests : ([(0, 0, 0), (4, 0, 0), (5, 0, 0), (5, 1, 0), (5, 2, 0), (6, 0, 0), (7, 0, 5), (7, 0, 6), (7, 0, 65535)].all fun (e : Nat × Nat × Nat) =>
      let m := rst e.1 e.2.1 e.2.2
      (((rstState 1).advance 0).takes 0 {} m) && (((rstState 0).advance 0).takes 0 {} m) && m.payload.length == 4 && msgNum m 0 1 == e.1 && msgNum m 1 1 == e.2.1
        && msgNum m 2 2 == e.2.2) = true ∧
    (rstState 1).dual = true ∧ (rstState 0).dual = false ∧ (((rstState 1).advance 0).opened 0 {} (rst 7 0 5)).claimed 0 .ln 5 = (rstState 1).claimed 0 .ln 5 := by decide +kernel
/-- Die 1 restarted under a plan that names it: brought up with the link up and nothing in force. -/
theorem test_witness_ResetsAndRestarts_rejoin :
    let p : Plan := ⟨List.replicate 256 0, [⟨1, 0x0E, 3, false, 3, []⟩], 0, false, [], [], false⟩
    let s := (both fun x => x.setFld R.MR_STATUS_LINK_UP 1).updPkg fun k => { k with plans := { k.plans with running := some p } }
    s.dual = true ∧ (s.die 1).pw.phase = .ready ∧ (s.die 1).linkUp = true ∧ (s.die 1).live = [] ∧ (p.on 1).isEmpty = false := by decide +kernel

/-- Samples beyond both ends, at TJ_HIGH's limits, and a sensor that discards for the third time or has been excluded. -/
theorem test_witness_Temperature :
    (BitVec.ofInt 16 (-641)).toInt < -640 ∧ 2400 < (2401 : BitVec 16).toInt ∧ 1600 < (1601 : BitVec 16).toInt ∧ (1600 : BitVec 16).toInt ≤ 1600 ∧ 1840 < (1841 : BitVec 16).toInt ∧
    (∀ n ∈ [0, 1], let s := up fun x => (x.setFld R.SY_TJ_STATUS_TJ_HIGH n).modSensor 7 fun t => { t with discards := 2, excluded := n == 1, accepts := 2 }
      s.has 0 = true ∧ ((s.die 0).sensor 7).discards = 2 ∧ ((s.die 0).sensor 7).excluded = (n == 1) ∧ s.fld 0 R.SY_TJ_STATUS_TJ_HIGH = n) := by decide +kernel

/-- The panel with a change of each kind that waits, with a full queue and with room. -/
theorem test_witness_PanelPort : ∀ k ∈ [1, 2, 3, 4, 5, 6, 7, 8], ∀ n ∈ [255, 256],
    let s := (up id).updPkg fun p => { p with panel := { p.panel with due := [⟨k, 3, 1, 5, 6⟩], queue := List.replicate n ⟨1, 2, 3, 4, 5⟩ } }
    s.pkg.panel.due.head? = some ⟨k, 3, 1, 5, 6⟩ ∧ s.pkg.panel.queue.length = n := by decide +kernel
/-- Keys 0 and 1 of row 0 and key 8 of row 1 down: key 9 would complete a rectangle. Key 63 is up, and alone in a scan. -/
theorem test_witness_PanelPort_scan :
    let s := (up fun x => ((x.setFld R.PN_CFG_KEY_DB 1).setFld R.PN_KEYS_LO 0x103).setFld R.PN_CFG_TOUCH_TH 0)
    let x := s.die0
    x.pw.phase ≠ .held ∧ x.pnKey 9 = false ∧ (0x303 : BitVec 64).getLsbD 9 = true ∧ (∀ j ∈ List.range 9, (0x303 : BitVec 64).getLsbD j = x.pnKey j) ∧ x.pnGhost 9 = true ∧
      x.fld R.PN_CFG_KEY_DB ≤ mget (fun _ => 0) s.pkg.panel.keys 63 + 1 ∧ x.pnKey 0 = true ∧ (0 : BitVec 64).getLsbD 0 = false ∧ (2 ^ 63 : BitVec 64).toNat = 2 ^ 63 ∧
      (∀ j ∈ List.range 64, (up id).die0.pnKey j = false) ∧ x.fld R.PN_CFG_TOUCH_TH = 0 := by decide +kernel
/-- An encoder that has moved both phases, one phase seen once, one phase seen twice, and the last quarter of a step in both directions. -/
theorem test_witness_PanelPort_encoder :
    let v : PnEncoder := { phase := 0, last := 1, quarters := 3 }
    (3 : Nat) = 3 - v.phase ∧ (2 : Nat) ≠ 3 - v.phase ∧ (2 : Nat) ≠ v.phase ∧ (2 : Nat) ≠ v.last ∧ (1 : Nat) = v.last ∧
      (v.quarters + quarter v.phase 1 = 4 ∨ v.quarters + quarter v.phase 2 = 4) ∧ (-v.quarters + quarter v.phase 1 = -4 ∨ -v.quarters + quarter v.phase 2 = -4) := by decide +kernel

/-! ### Security, boot, herdbook and perturbations -/

/-- A token of a type that waits for its action; a grant of test authorisation and one of a clear. -/
def scState (f : Security → Security) (g : Fuses → Fuses) : State :=
  (up fun x => { runCad x 0 with sc := f x.sc }).updPkg fun k => { k with fuses := g k.fuses }
/-- A buffer of one byte, which is no token. -/
theorem test_witness_KeysAndTokens :
    let s := (scState id id).upd 0 fun x => { x with sm := { x.sm with tokenBuf := some (1, [(0, some 0)]) } }
    s.accepts 0 .host 0x210008 1 = true ∧ (s.die 0).sm.tokenBuf = some (1, [(0, some 0)]) ∧ tokenForm (imageBytes 1 [(0, some 0)]) = false ∧
      s.tokenCheck (imageBytes 1 [(0, some 0)]) = 1 := by decide +kernel
/-- A buffer that holds the bytes from offset `a` on. -/
def bufOf (a : Nat) : List Byte → Buf
  | [] => []
  | b :: bs => (a, some b) :: bufOf (a + 1) bs
theorem oget_bufOf (bs : List Byte) (a i : Nat) (h : i < bs.length) : oget (bufOf a bs) (a + i) = some bs[i] := by
  induction bs generalizing a i with
  | nil => simp at h
  | cons b bs ih =>
    cases i with
    | zero => simp [bufOf, oget, mget]
    | succ i =>
      have := ih (a + 1) i (by simpa using h)
      simp only [oget, bufOf, mget] at this ⊢
      rw [if_neg (by omega), show a + (i + 1) = a + 1 + i by omega, this]
      rfl
theorem imageBytes_bufOf (bs : List Byte) : imageBytes bs.length (bufOf 0 bs) = bs := by
  refine List.ext_getElem (by simp [imageBytes]) fun i h _ => ?_
  have h' : i < bs.length := by simpa [imageBytes] using h
  have := oget_bufOf bs 0 i h'
  rw [Nat.zero_add] at this
  simp [imageBytes, this]
/-- A token of type 6 of a good form, whose serial number is 5 where the fuses hold 0. -/
def tokenImage : List Byte :=
  [0x44, 0x5A, 0x54, 0x4B, 1, 0, 6, 0] ++ leb 4 29920 ++ [0xFF, 0, 0, 0] ++ leb 16 5 ++ List.replicate 96 0 ++ List.replicate 29792 0
theorem test_witness_KeysAndTokens_serial :
    tokenForm (imageBytes tokenImage.length (bufOf 0 tokenImage)) = true ∧
      num (imageBytes tokenImage.length (bufOf 0 tokenImage)) 0x10 16 ≠ State.reset.pkg.fuses.serialOf 0 := by
  have h : tokenImage.length = 29920 := by
    simp only [tokenImage, leb, List.length_append, List.length_replicate, List.length_map, List.length_range, List.length_cons, List.length_nil]
  rw [imageBytes_bufOf]
  unfold tokenForm
  rw [h]
  decide +kernel
/-- An action on a token of its type, and on one of another. -/
theorem test_witness_KeysAndTokens_actions : ∀ n ∈ [1, 2, 3, 4, 5, 6, 7],
    (scState (fun c => { c with token := some ⟨n, 2, 3, 9, 0x7FF, [1]⟩ }) id).die0.sc.token = some ⟨n, 2, 3, 9, 0x7FF, [1]⟩ := by decide +kernel
/-- Burns of each kind on fuses that are not written; whole, and cut before their last bit. -/
theorem test_witness_KeysAndTokens_burns :
    ([BurnKind.owner 3 [1, 2], .ownerRevoke 3, .mac 3 2 [1, 2], .macRevoke 3 2, .fw 9, .plan 9, .repair [⟨.tile, 5, 0⟩]].all fun k =>
      [none, some 1].all fun l => (scState (fun c => { c with burn := some ⟨k, 17, 5, l⟩ }) id).die0.sc.burn == some ⟨k, 17, 5, l⟩) = true ∧
    ((scState id id).pkg.fuses.owner 3).written = false ∧ ((scState id id).pkg.fuses.mac 3 2).written = false ∧ 8 * [(1 : Byte), 2].length < 17 ∧
    (1 : Nat) ≤ 8 * [(1 : Byte), 2].length ∧ (BurnKind.owner 3 [1, 2]).ofToken = true ∧ (0 : Nat) < 17 ∧ [(⟨.tile, 5, 0⟩ : Item)].length ≤ 17 := by decide +kernel
/-- Commits with a rollback number above the counter's; grants that end. -/
theorem test_witness_KeysAndTokens_commits :
    let s := (scState (fun c => { c with test := some (1, 9), clearUntil := some 9 }) fun f => { f with fw := 3, plan := 4 }).updPkg fun k =>
      { k with fw := some ⟨false, 5, 4, []⟩, plans := { k.plans with running := some ⟨List.replicate 0x14 0 ++ leb 4 5 ++ List.replicate 300 0, [], 0, false, [], [], false⟩ } }
    s.accepts 0 .host 0x210008 4 = true ∧ s.pkg.fw = some ⟨false, 5, 4, []⟩ ∧ s.accepts 0 .host 0x210008 8 = true ∧ s.planRollback = some 5 ∧
      s.accepts 0 .host 0x210008 16 = true ∧ s.die0.sc.test = some (1, 9) ∧ s.die0.sc.clearUntil = some 9 := by decide +kernel

/-- The ROM's ways into recovery: bad fuses, no directory, two slots of which neither passes. (A slot that passes rests on the algorithm of
its signature, which is opaque.) -/
theorem test_witness_BootAndTest :
    let s := State.reset.updPkg fun k => { k with dir := some { slotA := 0, slotB := 65536, preferB := false, start := none, addr := 0 } }
    State.reset.has 0 = true ∧ s.die0.pw.phase = .released ∧ State.reset.pkg.dir = none ∧ State.reset.fuseOk = true ∧
      (State.reset.setFld 0 R.SY_VARIANT_CODE 0).fuseOk = false ∧ s.fuseOk = true ∧
      ((({ s with die0 := s.die0.setFld R.SY_FLASH_SIZE_SIZE 1024 }).checkFirmware false 0).1 ≠ 0) ∧ (up id).die0.pw.phase ≠ .released := by decide +kernel
/-- Die 1 waits in reset with what releases it; a die in phase 2 of BIST keeps the other one waiting, one 1.4 s later does not. -/
theorem test_witness_BootAndTest_die1 :
    let f : Firmware := ⟨false, 5, 4, []⟩
    let s := ((up id).upd 1 fun x => { (x.setFld R.PW_LAST_RESET_KIND 5) with sc := { x.sc with release := some ⟨f, [], []⟩ } }).updPkg fun k => { k with fw := some f }
    let b (t : Nat) := ((up fun x => { x with pw := { x.pw with phase := .booted }, st := { x.st with bistAt := some 0 } }).updPkg fun k => { k with sup := t }).upd 1 fun x => { x with pw := { x.pw with phase := .booted } }
    s.die1Waits = true ∧ s.die1.sc.release = some ⟨f, [], []⟩ ∧ s.pkg.fw = some f ∧ s.die0.pw.phase = .ready ∧ s.fld 0 R.SC_STATUS_RECOVERY = 0 ∧
      s.fld 1 R.PW_LAST_RESET_KIND ≠ 0 ∧ (b (msec)).bistBusy 0 = some (1400 * msec) ∧ (b (1400 * msec)).bistTurn.die1.st.bistAt = some (1400 * msec) ∧
      (b msec).bistTurn.die1.st.bistAt = none := by decide +kernel
theorem test_witness_BootAndTest_commands :
    let s := (scState (fun c => { c with signing := some [7] }) id).updPkg fun k =>
      { k with dir := some { slotA := 0, slotB := 65536, preferB := false, start := none, addr := 0 }, fw := some ⟨false, 5, 4, []⟩ }
    let t := s.upd 0 fun x => { x with st := { x.st with soft := [⟨.tile, 5, 0⟩] } }
    s.accepts 0 .host 0x210008 32 = true ∧ (scState id id).accepts 0 .host 0x210008 2 = true ∧ (s.die 0).sc.signing = some [7] ∧
      t.accepts 0 .host 0x220008 1 = true ∧ (s.upd 0 fun x => { x with sc := { x.sc with swapping := true } }).die0.sc.swapping = true ∧ s.pkg.dir.isSome = true := by decide +kernel
/-- Dies before BIST, in training and in recovery; an idle item, and one that a slice tests. -/
theorem test_witness_BootAndTest_slices :
    let s := up fun x => { x.setFld R.ST_ONLINE_ENABLE 1 with st := { x.st with slices := [(⟨.tile, 6, 0⟩, 5)] } }
    (s.die 0).flag R.ST_ONLINE_ENABLE = true ∧ (s.die 0).st.slices.length < 8 ∧ (s.die 0).idle ⟨.tile, 5, 0⟩ = true ∧ (s.die 0).targeted ⟨.tile, 5, 0⟩ = false ∧
      (s.die 0).pw.phase = .ready ∧ (s.die 0).st.slices.find? (fun e => e.1 == ⟨.tile, 6, 0⟩) = some (⟨.tile, 6, 0⟩, 5) ∧
      ({ s.die 0 with pw := { (s.die 0).pw with phase := .booted } } : Die).pw.phase = .booted ∧ s.fld 0 R.SC_STATUS_RECOVERY = 0 := by decide +kernel

/-- Two records wait for slot 129, with its sector erased and not; a sector's erase. -/
def hbState (h : Herdbook → Herdbook) (f : Die → Die) : State := (up fun x => f (runCad x 0)).updPkg fun k => { k with hb := h k.hb }
theorem test_witness_HerdbookAndPerturbations :
    let q (e : List Nat) := hbState (fun h => { h with pend := [{ code := 5, seq := 30 }, { code := 6, seq := 31 }], next := 129, erase := e }) id
    (q []).pkg.hb.pend.head? = some { code := 5, seq := 30 } ∧ (q []).pkg.hb.canProgram = true ∧ (q [1]).pkg.hb.canProgram = false ∧ (q [1]).pkg.hb.erase.head? = some 1 ∧
      (q []).warned = false ∧ (hbState id fun x => x.setFld R.PW_STATUS_WARN 1).warned = true ∧ (127 : Nat) / 128 ≠ 1 ∧ (128 : Nat) / 128 = 1 := by decide +kernel
/-- SNAP; CLEAR with its grant; a life counter below and at 256. -/
theorem test_witness_HerdbookAndPerturbations_commands :
    let s := hbState id fun x => x.setFld R.SC_STATUS_HB_CLEAR_OK 1
    s.accepts 0 .host 0x230008 2 = true ∧ s.accepts 0 .host 0x230008 1 = true ∧ s.pkg.hb.pend.length < 8 ∧ s.pkg.fuses.life < 256 ∧
      ({ s.pkg.fuses with life := 256 } : Fuses).life = 256 := by decide +kernel
/-- Unit 15 of each class, armed and active in both ways, periodic and not; a write that arms a unit whose class the grant names. -/
def pertState (arm act per : Nat) (f : Security → Security) : State := hbState id fun x =>
  let x := ((((x.setFld R.ST_PERT_CTRL_ARM arm 15).setFld R.ST_PERT_CTRL_ACTIVE act 15).setFld R.ST_PERT_CTRL_PERIODIC per 15).setFld R.ST_PERT_DURATION 4 15).setFld R.ST_PERT_PERIOD 9 15
  { (x.setFld R.ST_PERT_FRAME 300000 15) with st := { x.st with pert := [(15, some (5, 9))] }, sc := f x.sc }
theorem test_witness_HerdbookAndPerturbations_units : ∀ a ∈ [0, 1], ∀ b ∈ [0, 1],
    let s := pertState a b a id
    let x := s.die 0
    s.has 0 = true ∧ (x.grid (x.fld R.ST_PERT_CTRL_CADENCE 15)).isSome = true ∧ mget (fun _ => none) x.st.pert 15 = some (5, 9) ∧ x.fld R.ST_PERT_CTRL_ARM 15 = a ∧
      x.fld R.ST_PERT_CTRL_ACTIVE 15 = b ∧ x.fld R.ST_PERT_CTRL_PERIODIC 15 = a := by decide +kernel
theorem test_witness_HerdbookAndPerturbations_arm :
    let s := pertState 0 0 0 fun c => { c with test := some (0x7FF, 9) }
    s.accepts 0 .host (0x220200 + 32 * 15) 5 = true ∧ bit 5 0 = true ∧ ((s.die 0).sc.test.map fun t => bit t.1 (bits 5 5 2)) = some true := by decide +kernel

/-! ### The block as a whole -/

/-- A well-formed command and an ill-formed one, on two dies; the fault of a package of one. -/
theorem test_witness_OutcomesByForm : (Instr.cnop 0 5).wf = true ∧ (Instr.loop 0 5 0 1).wf = false ∧ State.reset.dual = true ∧
    (match exec (.cnop 1 5) (State.reset.setFld 0 R.SY_VARIANT_DUAL 0) with | .fault _ => true | _ => false) = true := by decide +kernel
/-- A state with a byte in the flash and one in DRAM, and a step from it. -/
theorem test_witness_StoresKept :
    let s : State := { (up fun x => { x with dram := { x.dram with cells := [(7, 9)] } }).updPkg (fun k => { k with flash := [(5, 5)] }) with pending := [.cnop 0 5] }
    s.flashWf = true ∧ (∀ d : DieId, Memory.wf (s.die d).dram.cells = true) ∧ (match step s with | .next _ => true | _ => false) = true := by decide +kernel
/-- A step of another command than the two that burn. -/
theorem test_witness_FusesKept :
    let s : State := { State.reset with pending := [.cnop 0 5] }
    (match step s with | .next r => decide (r.pkg.fuses = s.pkg.fuses) | _ => false) = true ∧ s.pending.head? = some (.cnop 0 5) ∧ s.pending.head? ≠ some .lifeFuse := by decide +kernel

/-! ### Results of single commands, from the spec's tables -/

/-- 200 + 100 wraps to 44 with a carry in each lane that p1 names; both land after one cycle (R156, R157, R158). -/
theorem test_add_wraps :
    let v := { acting with v := [(1, vecOf fun _ => 200), (2, vecOf fun _ => 100)], p := [(1, 0x0000FFFF)], cycle := 7 }
    after (.add (.tile 0 1) 3 1 2 1) (tileAt 1 v) (fun r => ((r.die 0).tile 1).due ==
      [(8, .v 3 (vecOf fun _ => 44) 0x0000FFFF), (8, .k 0xFFFFFFFF 0x0000FFFF)]) = true := by decide +kernel
/-- -100 - 100 saturates at -128 (R158). -/
theorem test_subss_saturates :
    let v := { acting with v := [(1, vecOf fun _ => 156), (2, vecOf fun _ => 100)] }
    after (.subss 0 1 3 1 2 0) (tileAt 1 v) (fun r => ((r.die 0).tile 1).due == [(1, .v 3 (vecOf fun _ => 128) 0xFFFFFFFF)]) = true := by decide +kernel
/-- SAD adds the distances of the lanes: 32 times 3 onto 5 (R161). -/
theorem test_sad :
    let v := { acting with v := [(1, vecOf fun _ => 7), (2, vecOf fun _ => 10)], d := [(4, 5)] }
    after (.sad 0 1 4 1 2 0) (tileAt 1 v) (fun r => ((r.die 0).tile 1).due == [(2, .d 4 101)]) = true := by decide +kernel
/-- LOOP of two bundles, three times: two iterations are left after the first (R172). -/
theorem test_loop : after (.loop 0 1 2 3) (tileAt 1 { acting with bundle := 4 }) (fun r =>
      ((r.die 0).tile 1).loops == [⟨5, 7, 2, 0⟩] && ((r.die 0).tile 1).bundle == 5 && ((r.die 0).tile 1).cycle == 1) = true := by decide +kernel
/-- A store and the bytes beside it (R167). -/
theorem test_stu :
    let v := { acting with v := [(1, vecOf fun i => BitVec.ofNat 8 i)], a := [(2, 100)], scratch := [(99, 1), (132, 2)] }
    after (.stu 0 1 1 2 false 0) (tileAt 1 v) (fun r => let m := ((r.die 0).tile 1).scratch
      rdByte m 99 == 1 && rdByte m 101 == 1 && rdByte m 131 == 31 && rdByte m 132 == 2) = true := by decide +kernel
/-- s0 stays 0, and the next instruction follows (R181, R183). -/
theorem test_core_s0 : after (.addi (.core 0 2) 0 1 7 0) (coreState 5 id id) (fun r =>
      (r.regsOf 0 2).get 0 == 0 && (r.regsOf 0 2).pc == 0x80000044#32) = true := by decide +kernel
/-- 5 - 6 borrows, and C takes the borrow (R182). -/
theorem test_core_borrow : after (.subi (.core 0 2) 5 1 6 0) (coreState 5 id id) (fun r =>
      (r.regsOf 0 2).get 5 == 0xFFFFFFFF#32 && (r.regsOf 0 2).c) = true := by decide +kernel
/-- A zero divisor (R183). -/
theorem test_core_zero_divisor : after (.divu 0 2 5 1 0) (coreState 9 id id) (fun r => (r.regsOf 0 2).get 5 == 0xFFFFFFFF#32) = true ∧
    after (.remu 0 2 5 1 0) (coreState 9 id id) (fun r => (r.regsOf 0 2).get 5 == 9) = true := by decide +kernel
/-- A word load of a line in L1, the lowest byte first (R183, R511). -/
theorem test_core_ldw : after (.ldw 0 2 5 1 0 .clean) (coreState 0x80000000 id fun k => { k with l1 := [(2 ^ 22, some (line0 false))] })
    (fun r => (r.regsOf 0 2).get 5 == 0x04030201#32) = true := by decide +kernel
/-- A LOOP word of count 3 with a body of one word (R498). -/
theorem test_dma_loop : after (.dmaLoop 0 9 .clean) (chanState (2 * 2 ^ 124 + 2 ^ 116 + 3 * 2 ^ 98) 0 1 0 id) (fun r =>
      ((r.die 0).chan 9).loops == [⟨3, 4, 0, 3, (0, 0, 0)⟩] && ((r.die 0).chan 9).pc == 3 && ((r.die 0).chan 9).issued == 4) = true := by decide +kernel
/-- SWITCH with no image pending is refused with STATE (R113, R418). -/
theorem test_switch_refused : after (.switch 0 .host) (planState {}) (fun r => r.outbox == [.refused 0 0x30010 16] && r.pkg.plans == {}) = true := by decide +kernel
/-- A warning that repeats changes nothing (R614). -/
theorem test_warn_once : after (.supplyWarn 0 0) (pwState 1 0 1 {} id) (fun r => r.die0.pw.warnAt == 0 && r.fld 0 R.PW_WARNS == 0) = true := by decide +kernel
/-- A read of PN_EVQ1 takes the head of the event queue (R644). -/
theorem test_evq_pop :
    let s := (up id).updPkg fun p => { p with panel := { p.panel with queue := [⟨1, 2, 3, 4, 5⟩, ⟨2, 2, 3, 4, 5⟩] } }
    after .evqPop s (fun r => r.pkg.panel.queue == [⟨2, 2, 3, 4, 5⟩]) = true := by decide +kernel
/-- READ of SY_ID's neighbour SY_VARIANT answers its value to the sender with STATUS 0 (R410, R421). -/
theorem test_silcel_read :
    let m := req 0x10 (natBE 4 4 ++ [0, 1, 0, 0])
    after (.read 0 1000 {} m) (smState id) (fun r => match r.outbox with
      | [.silcel _ _ a] => a.status == 0 && a.tid == 100 && a.payload == m.payload ++ natBE 4 ((smState id).die0.reg 4).toNat
      | _ => false) = true := by decide +kernel
/-- A step on an empty queue idles (log entry 59), and a command at the front is taken off it. -/
theorem test_step_idles : step State.reset = .next State.reset := rfl
theorem test_step_front :
    (match step { State.reset with pending := [.cnop 0 5, .cnop 0 6] } with | .next r => r.pending == [.cnop 0 6] | _ => false) = true := by decide +kernel
/-- The table gives no bits, so a word spells no command (log entry 58). -/
theorem test_no_words : decodeTableWord 0 0 = none ∧ decodeTableWord 32 0x12345678 = none := by decide

end Sys2Proof.Tests
end

section
/-! The stores of a package: the serial flash, the fuses and the DRAM array of each die. Each function of the model that leaves them
alone has one lemma that says so, tagged for `simp`; each that writes one of them has a lemma that says how the write stands to the
canonical form (log entry 4). What holds of every command follows. The projections are proved by `(rfl)`, in parentheses, so that `simp`
rewrites with them and leaves no long term to the kernel's unfolding. -/

namespace Sys2Proof.Machine

/-- What of a package outlasts its commands' other work: the serial flash, the fuses and the DRAM array of each die. -/
structure Stores where
  flash : Mem
  fuses : Fuses
  cells0 : Mem
  cells1 : Mem

/-- The array of one die. -/
def Stores.cells (t : Stores) (d : DieId) : Mem := if d = 0 then t.cells0 else t.cells1
/-- The array of one die replaced. -/
def Stores.setCells (t : Stores) (d : DieId) (m : Mem) : Stores := if d = 0 then { t with cells0 := m } else { t with cells1 := m }

/-- The DRAM array of a die. -/
def Die.cells (x : Die) : Mem := x.dram.cells
/-- The stores of a package. -/
def State.stores (s : State) : Stores := ⟨s.pkg.flash, s.pkg.fuses, s.die0.cells, s.die1.cells⟩

@[simp] theorem Die.dram_cells (x : Die) : x.dram.cells = x.cells := (rfl)
@[simp] theorem State.die_cells (s : State) (d : DieId) : (s.die d).cells = s.stores.cells d := by
  unfold State.die Stores.cells; split <;> rfl
@[simp] theorem State.die0_cells (s : State) : s.die0.cells = s.stores.cells0 := (rfl)
@[simp] theorem State.die1_cells (s : State) : s.die1.cells = s.stores.cells1 := (rfl)
@[simp] theorem State.pkg_flash (s : State) : s.pkg.flash = s.stores.flash := (rfl)
@[simp] theorem State.pkg_fuses (s : State) : s.pkg.fuses = s.stores.fuses := (rfl)
@[simp] theorem Stores.cells_zero (t : Stores) : t.cells 0 = t.cells0 := (rfl)
@[simp] theorem Stores.cells_one (t : Stores) : t.cells 1 = t.cells1 := (rfl)
@[simp] theorem Stores.setCells_self (t : Stores) (d : DieId) : t.setCells d (t.cells d) = t := by
  unfold Stores.setCells Stores.cells; split <;> rfl
@[simp] theorem Stores.setCells_zero_self (t : Stores) : t.setCells 0 t.cells0 = t := (rfl)
@[simp] theorem Stores.setCells_one_self (t : Stores) : t.setCells 1 t.cells1 = t := (rfl)
@[simp] theorem Stores.eta (t : Stores) : (⟨t.flash, t.fuses, t.cells0, t.cells1⟩ : Stores) = t := (rfl)

@[simp] theorem State.stores_setDie (s : State) (d : DieId) (x : Die) : (s.setDie d x).stores = s.stores.setCells d x.cells := by
  unfold State.setDie Stores.setCells; split <;> rfl
@[simp] theorem State.stores_upd (s : State) (d : DieId) (f : Die → Die) : (s.upd d f).stores = s.stores.setCells d (f (s.die d)).cells :=
  s.stores_setDie d _
@[simp] theorem State.stores_updPkg (s : State) (f : Pkg → Pkg) :
    (s.updPkg f).stores = ⟨(f s.pkg).flash, (f s.pkg).fuses, s.stores.cells0, s.stores.cells1⟩ := (rfl)
@[simp] theorem State.stores_mk (p : Pkg) (x y : Die) (n : Nat) (o : List Out) (q : List Instr) :
    State.stores ⟨p, x, y, n, o, q⟩ = ⟨p.flash, p.fuses, x.cells, y.cells⟩ := (rfl)
@[simp] theorem Die.cells_mk (a b c e f g h i j k l m n dr o p q r t u v) :
    Die.cells ⟨a, b, c, e, f, g, h, i, j, k, l, m, n, dr, o, p, q, r, t, u, v⟩ = dr.cells := (rfl)
@[simp] theorem State.stores_ite (c : Prop) [Decidable c] (s t : State) : (if c then s else t).stores = if c then s.stores else t.stores :=
  apply_ite _ _ _ _
@[simp] theorem Die.cells_ite (c : Prop) [Decidable c] (x y : Die) : (if c then x else y).cells = if c then x.cells else y.cells :=
  apply_ite _ _ _ _
@[simp] theorem State.stores_fst_ite {α : Type} (c : Prop) [Decidable c] (s t : State × α) :
    (if c then s else t).1.stores = if c then s.1.stores else t.1.stores := by split <;> rfl
@[simp] theorem State.stores_snd_ite {α : Type} (c : Prop) [Decidable c] (s t : α × State) :
    (if c then s else t).2.stores = if c then s.2.stores else t.2.stores := by split <;> rfl
@[simp] theorem Die.cells_fst_ite {α : Type} (c : Prop) [Decidable c] (s t : Die × α) :
    (if c then s else t).1.cells = if c then s.1.cells else t.1.cells := by split <;> rfl
@[simp] theorem State.stores_foldl {α : Type} (f : State → α → State) (h : ∀ s a, (f s a).stores = s.stores) (l : List α) (s : State) :
    (l.foldl f s).stores = s.stores := foldl_keeps _ _ h _ _
@[simp] theorem Die.cells_foldl {α : Type} (f : Die → α → Die) (h : ∀ s a, (f s a).cells = s.cells) (l : List α) (s : Die) :
    (l.foldl f s).cells = s.cells := foldl_keeps _ _ h _ _
/-- A fold whose steps leave the stores alone, on a state with the stores `t`. -/
theorem State.stores_foldl_of {α : Type} {f : State → α → State} (h : ∀ s a, (f s a).stores = s.stores) {l : List α} {s : State} {t : Stores}
    (hs : s.stores = t) : (l.foldl f s).stores = t := by rw [State.stores_foldl f h, hs]
theorem Die.cells_foldl_of {α : Type} {f : Die → α → Die} (h : ∀ x a, (f x a).cells = x.cells) {l : List α} {x : Die} {m : Mem}
    (hx : x.cells = m) : (l.foldl f x).cells = m := by rw [Die.cells_foldl f h, hx]

/-! What leaves the stores alone: the operations of the unit `Ops`. -/

@[simp] theorem Die.setReg_cells (x : Die) (a : Nat) (v : W32) : (x.setReg a v).cells = x.cells := by simp [Die.setReg]
@[simp] theorem Die.setFld_cells (x : Die) (f : Fld) (v i j : Nat) : (x.setFld f v i j).cells = x.cells := by simp [Die.setFld]
@[simp] theorem Die.count_cells (x : Die) (f : Fld) (i n : Nat) : (x.count f i n).cells = x.cells := by simp [Die.count]
@[simp] theorem State.setFld_stores (s : State) (d : DieId) (f : Fld) (v i j : Nat) :
    (s.setFld d f v i j).stores = s.stores := by simp [State.setFld]
@[simp] theorem State.count_stores (s : State) (d : DieId) (f : Fld) (i n : Nat) :
    (s.count d f i n).stores = s.stores := by simp [State.count]
@[simp] theorem State.draw_stores (s : State) : (s.draw).2.stores = s.stores := by simp [State.draw]
@[simp] theorem State.advance_stores (s : State) (dt : Nat) : (s.advance dt).stores = s.stores := by simp [State.advance]
@[simp] theorem State.advanceTo_stores (s : State) (t : Nat) : (s.advanceTo t).stores = s.stores := by simp [State.advanceTo]
@[simp] theorem State.advanceStation_stores (s : State) (d : DieId) (t : Nat) : (s.advanceStation d t).stores = s.stores := by
  simp [State.advanceStation]
@[simp] theorem Die.modCad_cells (x : Die) (c : Nat) (f : Cad → Cad) : (x.modCad c f).cells = x.cells := by simp [Die.modCad]
@[simp] theorem Die.post_cells (x : Die) (sup a bit detail : Nat) : (x.post sup a bit detail).cells = x.cells := by simp [Die.post]
@[simp] theorem State.event_stores (s : State) (d : DieId) (f : Fld) (i detail : Nat) : (s.event d f i detail).stores = s.stores := by
  simp [State.event]
@[simp] theorem State.hbAdd_stores (s : State) (r : HbRec) (always : Bool) : (s.hbAdd r always).stores = s.stores := by simp [State.hbAdd]
@[simp] theorem State.hbRecord_stores (s : State) (d : DieId) (code source detail : Nat) (pert always : Bool) :
    (s.hbRecord d code source detail pert always).stores = s.stores := by
  simp [State.hbRecord]
@[simp] theorem State.hbCad_stores (s : State) (d : DieId) (code source cad value : Nat) (pert : Bool) :
    (s.hbCad d code source cad value pert).stores = s.stores := by
  simp [State.hbCad]
@[simp] theorem State.hb_stores (s : State) (d : DieId) (code source value : Nat) (pert : Bool) :
    (s.hb d code source value pert).stores = s.stores := by
  simp [State.hb]
@[simp] theorem State.eventPic_stores (s : State) (d : DieId) (f : Fld) (i source cad value : Nat) (frame : Int) (pert : Bool) :
    (s.eventPic d f i source cad value frame pert).stores = s.stores := by
  simp [State.eventPic]
@[simp] theorem State.eventCad_stores (s : State) (d : DieId) (f : Fld) (i source cad value : Nat) (pert : Bool) :
    (s.eventCad d f i source cad value pert).stores = s.stores := by
  simp [State.eventCad]
@[simp] theorem State.eventRec_stores (s : State) (d : DieId) (f : Fld) (i source value : Nat) (pert : Bool) :
    (s.eventRec d f i source value pert).stores = s.stores := by
  simp [State.eventRec]
@[simp] theorem State.breach_stores (s : State) (d : DieId) (b : Breach) (frag : Nat) (cad : Option Nat) (pert : Bool) :
    (s.breach d b frag cad pert).stores = s.stores := by
  simp [State.breach]
@[simp] theorem State.send_stores (s : State) (o : Out) : (s.send o).stores = s.stores := by simp [State.send]

/-! What leaves the stores alone: the operations of the unit `Shared`. -/

@[simp] theorem Die.eccOf_cells (x : Die) (target sub : Nat) (e : Ecc) : (x.eccOf target sub e).2.cells = x.cells := by
  unfold Die.eccOf; split <;> simp
@[simp] theorem State.serve_stores (s : State) (d : DieId) (k : ItemKind) (i : Nat) :
    (s.serve d k i).stores = s.stores := by simp [State.serve]
@[simp] theorem Die.modSensor_cells (x : Die) (i : Nat) (f : TempSensor → TempSensor) :
    (x.modSensor i f).cells = x.cells := by simp [Die.modSensor]
@[simp] theorem Die.heatSeen_cells (x : Die) (i : Nat) (v : Int) : (x.heatSeen i v).cells = x.cells := by simp [Die.heatSeen]
@[simp] theorem Die.setTile_cells (x : Die) (i : Nat) (t : Tile) : (x.setTile i t).cells = x.cells := by simp [Die.setTile]
@[simp] theorem Die.modEnc_cells (x : Die) (n : Nat) (f : EncChan → EncChan) : (x.modEnc n f).cells = x.cells := by simp [Die.modEnc]
@[simp] theorem Die.hitFragment_cells (x : Die) (frag cause : Nat) : (x.hitFragment frag cause).cells = x.cells := by simp [Die.hitFragment]
@[simp] theorem Die.lastFault_cells (x : Die) (t kind : Nat) : (x.lastFault t kind).cells = x.cells := by simp [Die.lastFault]

/-! What leaves the stores alone: the operations of the unit `Audio`. -/

@[simp] theorem Die.modAu_cells (x : Die) (g m : Nat) (f : AuMember → AuMember) : (x.modAu g m f).cells = x.cells := by simp [Die.modAu]
@[simp] theorem Die.modAuPort_cells (x : Die) (p : Nat) (f : AuPort → AuPort) : (x.modAuPort p f).cells = x.cells := by simp [Die.modAuPort]
@[simp] theorem Die.setBit_cells (x : Die) (f : Fld) (i b : Nat) (v : Bool) : (x.setBit f i b v).cells = x.cells := by simp [Die.setBit]
@[simp] theorem Die.auDeliver_cells (x : Die) (g m : Nat) (k : Int) (ws : List W32) : (x.auDeliver g m k ws).cells = x.cells := by
  simp [Die.auDeliver]
@[simp] theorem Die.modAsrc_cells (x : Die) (a : Nat) (f : Asrc → Asrc) : (x.modAsrc a f).cells = x.cells := by simp [Die.modAsrc]
@[simp] theorem State.auMute_stores (s : State) (d : DieId) (r : AuRef) : (s.auMute d r).stores = s.stores := by simp [State.auMute]
@[simp] theorem State.auUnderrun_stores (s : State) (d : DieId) (g m : Nat) : (s.auUnderrun d g m).stores = s.stores := by
  unfold State.auUnderrun
  split <;> [skip; split] <;> simp
@[simp] theorem State.auVideoUnderrun_stores (s : State) (d : DieId) (kind inst : Nat) :
    (s.auVideoUnderrun d kind inst).stores = s.stores := by
  simp [State.auVideoUnderrun]
@[simp] theorem Die.auCount_cells (x : Die) (r : AuRef) : (x.auCount r).cells = x.cells := by simp [Die.auCount]
@[simp] theorem State.auBoundary_stores (s : State) (d : DieId) (r : AuRef) (gr : Grid) (b : Int) :
    (s.auBoundary d r gr b).stores = s.stores := by
  unfold State.auBoundary
  extract_lets x fs first start last v ok
  rw [State.stores_ite]
  split
  · split
    extract_lets s1 s2 s3
    rw [State.stores_ite]
    have h1 : s1.stores = s.stores := by simp [s1]
    have h2 : s2.stores = s.stores := by simp [s2, h1]
    have h3 : s3.stores = s.stores := by simp [s3, h2]
    simp [h1, h3]
  · simp
@[simp] theorem Die.auNever_cells (x : Die) (g : Nat) (gr : Grid) (b : Int) : (x.auNever g gr b).cells = x.cells := by simp [Die.auNever]
@[simp] theorem State.auClockLoss_stores (s : State) (d : DieId) (p : Nat) : (s.auClockLoss d p).stores = s.stores := by
  unfold State.auClockLoss
  dsimp only
  repeat' split
  all_goals simp
@[simp] theorem State.auClockBack_stores (s : State) (d : DieId) (p : Nat) :
    (s.auClockBack d p).stores = s.stores := by simp [State.auClockBack]
@[simp] theorem State.auMeasure_stores (s : State) (d : DieId) (p : Nat) : (s.auMeasure d p).stores = s.stores := by simp [State.auMeasure]
@[simp] theorem State.asrcMeasure_stores (s : State) (d : DieId) (a : Nat) (ratio : W32) : (s.asrcMeasure d a ratio).stores = s.stores := by
  unfold State.asrcMeasure
  dsimp only
  repeat' split
  all_goals simp
@[simp] theorem State.asrcLock_stores (s : State) (d : DieId) (a : Nat) : (s.asrcLock d a).stores = s.stores := by
  unfold State.asrcLock; split <;> simp
@[simp] theorem Die.auMutes_cells (x : Die) (c : Nat) : (x.auMutes c).cells = x.cells := by simp [Die.auMutes]
@[simp] theorem State.auPulse_stores (s : State) (d : DieId) (c : Nat) (m : Int) (boundary : Bool) :
    (s.auPulse d c m boundary).stores = s.stores := by
  unfold State.auPulse; repeat split <;> simp
@[simp] theorem Die.auConvert_cells (x : Die) (r : AuRef) (a : Nat) (now : Int) (ws : List (List W32)) :
    (x.auConvert r a now ws).cells = x.cells := by
  simp [Die.auConvert]
@[simp] theorem State.auRun_stores (s : State) (d : DieId) (r : AuRef) (k : Int) (ws : List (List W32)) (ratio : W32) :
    (s.auRun d r k ws ratio).stores = s.stores := by
  unfold State.auRun; split <;> simp
@[simp] theorem State.auReceive_stores (s : State) (d : DieId) (p : Nat) (rx : List W32) : (s.auReceive d p rx).stores = s.stores := by
  unfold State.auReceive; dsimp only; split <;> simp
@[simp] theorem State.auTransmit_stores (s : State) (d : DieId) (p : Nat) :
    (s.auTransmit d p).stores = s.stores := by simp [State.auTransmit]
@[simp] theorem State.samplePeriod_stores (s : State) (d : DieId) (p : Nat) (ok : Bool) (ratio : W32) (rx : List W32) :
    (s.samplePeriod d p ok ratio rx).stores = s.stores := by
  simp [State.samplePeriod]
@[simp] theorem State.sampleAt_stores (s : State) (d : DieId) (p dt : Nat) :
    (s.sampleAt d p dt).stores = s.stores := by simp [State.sampleAt]

/-! What leaves the stores alone: the operations of the unit `Dram`. -/

@[simp] theorem Die.dramWrite_cells (x : Die) (sup a : Nat) (bs : List (Option Byte)) (cores : (List Nat)) :
    (x.dramWrite sup a bs cores).cells = x.cells := by
  simp [Die.dramWrite]
@[simp] theorem State.forced_stores (s : State) (d : DieId) (r cause n : Nat) :
    (s.forced d r cause n).stores = s.stores := by simp [State.forced]
@[simp] theorem State.queueNeighbour_stores (s : State) (d : DieId) (r bank row : Nat) :
    (s.queueNeighbour d r bank row).stores = s.stores := by
  simp [State.queueNeighbour]
@[simp] theorem State.activation_stores (s : State) (d : DieId) (a : Nat) :
    (s.activation d a).stores = s.stores := by simp [State.activation]
@[simp] theorem State.touch_stores (s : State) (d : DieId) (a t : Nat) : (s.touch d a t).stores = s.stores := by simp [State.touch]
@[simp] theorem State.touchOpen_stores (s : State) (d : DieId) (a : Nat) : (s.touchOpen d a).stores = s.stores := by simp [State.touchOpen]
@[simp] theorem State.touchRange_stores (s : State) (d : DieId) (a n : Nat) :
    (s.touchRange d a n).stores = s.stores := by simp [State.touchRange]
@[simp] theorem Die.memFault_cells (x : Die) (a kind : Nat) : (x.memFault a kind).cells = x.cells := by simp [Die.memFault]
@[simp] theorem State.dramEcc_stores (s : State) (d : DieId) (a : Nat) (e : Ecc) (pert : Bool) :
    (s.dramEcc d a e pert).stores = s.stores := by
  unfold State.dramEcc; split <;> simp
@[simp] theorem State.portFault_stores (s : State) (d : DieId) (i a : Nat) (f : PortFault) : (s.portFault d i a f).stores = s.stores := by
  unfold State.portFault; split <;> simp
@[simp] theorem Die.anyCatchup_cells (x : Die) : (x.anyCatchup).cells = x.cells := by simp [Die.anyCatchup]
@[simp] theorem Die.setDebt_cells (x : Die) (r : Nat) (v : Int) : (x.setDebt r v).cells = x.cells := by simp [Die.setDebt]
@[simp] theorem Die.setInterval_cells (x : Die) (r t : Nat) : (x.setInterval r t).cells = x.cells := by simp [Die.setInterval]
@[simp] theorem Die.refresh_cells (x : Die) (r : Nat) : (x.refresh r).cells = x.cells := by simp [Die.refresh]
@[simp] theorem Die.setHotBit_cells (x : Die) (r : Nat) (b : Bool) : (x.setHotBit r b).cells = x.cells := by simp [Die.setHotBit]
@[simp] theorem State.enterHot_stores (s : State) (d : DieId) (r : Nat) : (s.enterHot d r).stores = s.stores := by simp [State.enterHot]
@[simp] theorem State.enterCool_stores (s : State) (d : DieId) (r : Nat) : (s.enterCool d r).stores = s.stores := by simp [State.enterCool]
@[simp] theorem State.endInterval_stores (s : State) (d : DieId) (r : Nat) :
    (s.endInterval d r).stores = s.stores := by simp [State.endInterval]
@[simp] theorem Die.serveNeighbour_cells (x : Die) (r : Nat) :
    (x.serveNeighbour r).1.cells = x.cells := by unfold Die.serveNeighbour; split <;> simp
@[simp] theorem Die.reserveRun_cells (x : Die) (r : Nat) (k : RunKind) : (x.reserveRun r k).cells = x.cells := by
  unfold Die.reserveRun; split <;> simp
@[simp] theorem State.tempSample_stores (s : State) (d : DieId) (l : Nat) (v : Int) : (s.tempSample d l v).stores = s.stores := by
  simp [State.tempSample]
@[simp] theorem State.readDone_stores (s : State) (d : DieId) (i : Nat) (e : Ecc) : (s.readDone d i e).stores = s.stores := by
  unfold State.readDone; split <;> simp

/-! What leaves the stores alone: the operations of the unit `Picture`. -/

@[simp] theorem Die.modStore_cells (x : Die) (n : Nat) (f : FrameStore → FrameStore) :
    (x.modStore n f).cells = x.cells := by simp [Die.modStore]
@[simp] theorem State.storeStart_stores (s : State) (d : DieId) (n : Nat) (frame : Int) : (s.storeStart d n frame).stores = s.stores := by
  simp [State.storeStart]
@[simp] theorem State.storeDone_stores (s : State) (d : DieId) (n : Nat) (conceal : Bool) :
    (s.storeDone d n conceal).stores = s.stores := by
  simp [State.storeDone]
@[simp] theorem State.touchSpans_stores (s : State) (d : DieId) (base : Nat) (l : List (Nat × Nat)) :
    (s.touchSpans d base l).stores = s.stores := by
  simp [State.touchSpans]
@[simp] theorem State.storeFrameEnd_stores (s : State) (d : DieId) (kind src : Nat) (frame : Int) :
    (s.storeFrameEnd d kind src frame).stores = s.stores := by
  simp [State.storeFrameEnd]
@[simp] theorem State.storeRead_stores (s : State) (d : DieId) (n : Nat) : (s.storeRead d n).stores = s.stores := by
  unfold State.storeRead; dsimp only; split <;> simp

/-! What leaves the stores alone: the operations of the unit `Checks`. -/

@[simp] theorem Die.setPair_cells (x : Die) (lo hi : Fld) (i v : Nat) : (x.setPair lo hi i v).cells = x.cells := by simp [Die.setPair]
@[simp] theorem State.ckEvent_stores (s : State) (d : DieId) (f : Fld) (u : Nat) :
    (s.ckEvent d f u).stores = s.stores := by simp [State.ckEvent]
@[simp] theorem State.ckAlive_stores (s : State) (d : DieId) (u : Nat) (row : List Byte) : (s.ckAlive d u row).stores = s.stores := by
  unfold State.ckAlive; dsimp only; split <;> simp
@[simp] theorem State.ckFeed_stores (s : State) (d : DieId) (u : Nat) (row : List Byte) (err : Bool) :
    (s.ckFeed d u row err).stores = s.stores := by
  simp [State.ckFeed]
@[simp] theorem Die.ckTake_cells (x : Die) (u : Nat) : (x.ckTake u).cells = x.cells := by simp [Die.ckTake]
@[simp] theorem Die.ckRestore_cells (x : Die) (u : Nat) (bs : List Byte) : (x.ckRestore u bs).cells = x.cells := by simp [Die.ckRestore]

/-! What leaves the stores alone: the operations of the unit `Parlour`. -/

@[simp] theorem Die.modTh_cells (x : Die) (n : Nat) (f : Thread → Thread) : (x.modTh n f).cells = x.cells := by simp [Die.modTh]
@[simp] theorem Die.modCore_cells (x : Die) (c : Nat) (f : CoreSt → CoreSt) : (x.modCore c f).cells = x.cells := by simp [Die.modCore]
@[simp] theorem Die.makeReady_cells (x : Die) (n : Nat) : (x.makeReady n).cells = x.cells := by simp [Die.makeReady]
@[simp] theorem Die.restall_cells (x : Die) (c : Nat) : (x.restall c).cells = x.cells := by simp [Die.restall]
@[simp] theorem Die.saveCtx_cells (x : Die) (c : Nat) : (x.saveCtx c).cells = x.cells := by unfold Die.saveCtx; split <;> simp
@[simp] theorem Die.offCore_cells (x : Die) (n : Nat) : (x.offCore n).cells = x.cells := by simp [Die.offCore]
@[simp] theorem Die.activate_cells (x : Die) (n : Nat) : (x.activate n).cells = x.cells := by simp [Die.activate]
@[simp] theorem Die.endActivation_cells (x : Die) (n : Nat) : (x.endActivation n).cells = x.cells := by simp [Die.endActivation]
@[simp] theorem State.release_stores (s : State) (d : DieId) (n : Nat) : (s.release d n).stores = s.stores := by
  unfold State.release
  dsimp only
  repeat' split
  all_goals simp
@[simp] theorem State.stopThread_stores (s : State) (d : DieId) (n cause : Nat) : (s.stopThread d n cause).stores = s.stores := by
  simp [State.stopThread]
@[simp] theorem Die.waitDone_cells (x : Die) (n : Nat) : (x.waitDone n).cells = x.cells := by simp [Die.waitDone]
@[simp] theorem State.postCount_stores (s : State) (d : DieId) (n : Nat) :
    (s.postCount d n).1.stores = s.stores := by simp [State.postCount]

/-! What leaves the stores alone: the operations of the unit `Cache`. -/

@[simp] theorem Die.setL1_cells (x : Die) (c l : Nat) (v : Option CacheLine) : (x.setL1 c l v).cells = x.cells := by simp [Die.setL1]
@[simp] theorem Die.setL2_cells (x : Die) (l : Nat) (v : Option CacheLine) : (x.setL2 l v).cells = x.cells := by simp [Die.setL2]
@[simp] theorem Die.pushL1_cells (x : Die) (c l : Nat) : (x.pushL1 c l).cells = x.cells := by unfold Die.pushL1; split <;> simp
@[simp] theorem Die.pushOthers_cells (x : Die) (c l : Nat) : (x.pushOthers c l).cells = x.cells := by simp [Die.pushOthers]
@[simp] theorem Die.dropOthers_cells (x : Die) (c l : Nat) : (x.dropOthers c l).cells = x.cells := by simp [Die.dropOthers]
@[simp] theorem State.writeLine_stores (s : State) (d : DieId) (cores : List Nat) (l : Nat) (bs : List Byte) :
    (s.writeLine d cores l bs).stores = s.stores := by
  simp [State.writeLine]
@[simp] theorem State.cleanLine_stores (s : State) (d : DieId) (c l : Nat) : (s.cleanLine d c l).stores = s.stores := by
  unfold State.cleanLine; dsimp only; split <;> simp
@[simp] theorem State.invalLine_stores (s : State) (d : DieId) (c l : Nat) :
    (s.invalLine d c l).stores = s.stores := by simp [State.invalLine]
@[simp] theorem State.evictL2_stores (s : State) (d : DieId) (l : Nat) : (s.evictL2 d l).stores = s.stores := by
  unfold State.evictL2; dsimp only; split <;> simp
@[simp] theorem State.evict_stores (s : State) (d : DieId) (c keep : Nat) : (s.evict d c keep).stores = s.stores := by simp [State.evict]
@[simp] theorem State.fill_stores (s : State) (d : DieId) (c l : Nat) (e : Ecc) : (s.fill d c l e).1.stores = s.stores := by
  unfold State.fill; repeat split <;> simp
@[simp] theorem Die.cacheStore_cells (x : Die) (c a : Nat) (bs : List Byte) : (x.cacheStore c a bs).cells = x.cells := by
  unfold Die.cacheStore; split <;> simp
@[simp] theorem State.clean_stores (s : State) (d : DieId) (c start len : Nat) :
    (s.clean d c start len).stores = s.stores := by simp [State.clean]
@[simp] theorem State.inval_stores (s : State) (d : DieId) (c start len : Nat) :
    (s.inval d c start len).stores = s.stores := by simp [State.inval]
@[simp] theorem State.drain_stores (s : State) (d : DieId) (c : Nat) : (s.drain d c).stores = s.stores := by simp [State.drain]
@[simp] theorem State.post_stores (s : State) (d : DieId) (n : Nat) : (s.post d n).stores = s.stores := by simp [State.post]

/-! What leaves the stores alone: the operations of the unit `Vat`. -/

@[simp] theorem State.slot_stores (s : State) (d : DieId) (t : Nat) (f : Tile → Tile) :
    (s.slot d t f).stores = s.stores := by simp [State.slot]
@[simp] theorem State.tileFault_stores (s : State) (d : DieId) (t : Nat) (f : TileFault) (pert : Bool) :
    (s.tileFault d t f pert).stores = s.stores := by
  unfold State.tileFault; split <;> simp
@[simp] theorem State.slotMem_stores (s : State) (d : DieId) (t : Nat) (e : Ecc) (f : TileFault → Tile → Tile × TileFault) :
    (s.slotMem d t e f).stores = s.stores := by
  simp [State.slotMem]
@[simp] theorem State.slotCoder_stores (s : State) (d : DieId) (t : Nat) (f : Tile → Tile) : (s.slotCoder d t f).stores = s.stores := by
  simp [State.slotCoder]
@[simp] theorem State.routeEdge_stores (s : State) (d : DieId) (t : Nat) (src : Tile) (l : List Nat) (lv dir : Nat) :
    (s.routeEdge d t src l lv dir).stores = s.stores := by
  unfold State.routeEdge; repeat split <;> simp
@[simp] theorem State.route_stores (s : State) (d : DieId) (t srca : Nat) (dsta : BitVec 4) (srcb : Nat) (dstb : BitVec 4) (lv rin rv : Nat) :
    (s.route d t srca dsta srcb dstb lv rin rv).stores = s.stores := by
  simp [State.route]
@[simp] theorem State.drd_stores (s : State) (d : DieId) (t q : Nat) (incq : Bool) (ar : Nat) (inca : Bool) :
    (s.drd d t q incq ar inca).stores = s.stores := by
  simp [State.drd]
@[simp] theorem State.dwr_stores (s : State) (d : DieId) (t q : Nat) (incq : Bool) (ar : Nat) (inca : Bool) (e e' : Ecc) :
    (s.dwr d t q incq ar inca e e').stores = s.stores := by
  simp [State.dwr]
@[simp] theorem State.bundleEcc_stores (s : State) (d : DieId) (t : Nat) (e : Ecc) : (s.bundleEcc d t e).stores = s.stores := by
  unfold State.bundleEcc; split <;> simp
@[simp] theorem State.ctl_stores (s : State) (d : DieId) (t : Nat) (f : Tile → Tile) :
    (s.ctl d t f).stores = s.stores := by simp [State.ctl]

/-! What leaves the stores alone: the operations of the unit `CoreIsa`. -/

@[simp] theorem Die.spend_cells (x : Die) (c n cycles : Nat) : (x.spend c n cycles).cells = x.cells := by simp [Die.spend]
@[simp] theorem State.coreDo_stores (s : State) (d : DieId) (c : Nat) (f : Nat → State → State) (h : ∀ n t, (f n t).stores = t.stores) :
    (s.coreDo d c f).stores = s.stores := by
  unfold State.coreDo
  split
  · rfl
  · simp [h]
@[simp] theorem State.coreStep_stores (s : State) (d : DieId) (c cycles : Nat) (f : CoreRegs → CoreRegs) :
    (s.coreStep d c cycles f).stores = s.stores := by
  simp [State.coreStep]
@[simp] theorem State.coreBranch_stores (s : State) (d : DieId) (c op rd ra : Nat) (imm : W16) (k : LaneCmp) :
    (s.coreBranch d c op rd ra imm k).stores = s.stores := by
  simp [State.coreBranch]
@[simp] theorem State.coreClean_stores (s : State) (d : DieId) (c ra rb : Nat) : (s.coreClean d c ra rb).stores = s.stores := by
  simp [State.coreClean]
@[simp] theorem State.coreInval_stores (s : State) (d : DieId) (c ra rb : Nat) : (s.coreInval d c ra rb).stores = s.stores := by
  simp [State.coreInval]
@[simp] theorem State.hold_stores (s : State) (d : DieId) (c : Nat) (post : Option Nat) :
    (s.hold d c post).stores = s.stores := by simp [State.hold]
@[simp] theorem State.coreSync_stores (s : State) (d : DieId) (c : Nat) : (s.coreSync d c).stores = s.stores := by simp [State.coreSync]
@[simp] theorem State.syncDone_stores (s : State) (d : DieId) (c : Nat) : (s.syncDone d c).stores = s.stores := by
  unfold State.syncDone
  dsimp only
  repeat' split
  all_goals simp
@[simp] theorem State.illegal_stores (s : State) (d : DieId) (c : Nat) (w : W32) :
    (s.illegal d c w).stores = s.stores := by simp [State.illegal]
@[simp] theorem State.kernel_stores (s : State) (d : DieId) (c : Nat) (f : Nat → State → State) (h : ∀ n t, (f n t).stores = t.stores) :
    (s.kernel d c f).stores = s.stores := by
  simp [State.kernel, h]
@[simp] theorem State.kernelEnd_stores (s : State) (d : DieId) (c : Nat) : (s.kernelEnd d c).stores = s.stores := by simp [State.kernelEnd]
@[simp] theorem State.kernelYield_stores (s : State) (d : DieId) (c : Nat) :
    (s.kernelYield d c).stores = s.stores := by simp [State.kernelYield]
@[simp] theorem State.kernelDelay_stores (s : State) (d : DieId) (c : Nat) :
    (s.kernelDelay d c).stores = s.stores := by simp [State.kernelDelay]
@[simp] theorem State.kernelWait_stores (s : State) (d : DieId) (c : Nat) :
    (s.kernelWait d c).stores = s.stores := by simp [State.kernelWait]
@[simp] theorem State.kernelPost_stores (s : State) (d : DieId) (c : Nat) :
    (s.kernelPost d c).stores = s.stores := by simp [State.kernelPost]
@[simp] theorem State.threadStart_stores (s : State) (d : DieId) (c : Nat) : (s.threadStart d c).stores = s.stores := by
  unfold State.threadStart
  extract_lets x
  split
  · rfl
  · extract_lets free t hit s'
    rw [State.stores_ite, State.stores_upd]
    have h : s'.stores = s.stores := State.advance_stores _ _
    extract_lets x1 x2 x3
    have h1 : x1.cells = s.stores.cells d := by
      unfold x1; split <;> simp [h]
    simp [h, h1, x2, x3]
@[simp] theorem State.spillLoaded_stores (s : State) (d : DieId) (n : Nat) (e : Ecc) : (s.spillLoaded d n e).stores = s.stores := by
  simp [State.spillLoaded]
@[simp] theorem Die.delayExpiry_cells (x : Die) (n : Nat) : (x.delayExpiry n).cells = x.cells := by simp [Die.delayExpiry]
@[simp] theorem State.waitTimeout_stores (s : State) (d : DieId) (n : Nat) :
    (s.waitTimeout d n).stores = s.stores := by simp [State.waitTimeout]
@[simp] theorem State.budgetOver_stores (s : State) (d : DieId) (n : Nat) :
    (s.budgetOver d n).stores = s.stores := by simp [State.budgetOver]
@[simp] theorem State.switchEnd_stores (s : State) (d : DieId) (n : Nat) : (s.switchEnd d n).stores = s.stores := by
  unfold State.switchEnd; split <;> simp

/-! What leaves the stores alone: the operations of the unit `Dma`. -/

@[simp] theorem Die.modChan_cells (x : Die) (n : Nat) (f : DmaChan → DmaChan) : (x.modChan n f).cells = x.cells := by simp [Die.modChan]
@[simp] theorem Die.setStream_cells (x : Die) (q : Nat) (bs : List Byte) : (x.setStream q bs).cells = x.cells := by simp [Die.setStream]
@[simp] theorem Die.setEntryQ_cells (x : Die) (d : DieId) (f : Nat) (q : EntryQueue) :
    (x.setEntryQ d f q).cells = x.cells := by simp [Die.setEntryQ]
@[simp] theorem State.dmEvent_stores (s : State) (d : DieId) (die chan : Fld) (n : Nat) : (s.dmEvent d die chan n).stores = s.stores := by
  simp [State.dmEvent]
@[simp] theorem State.dmUnderrun_stores (s : State) (d : DieId) (f : Nat) : (s.dmUnderrun d f).stores = s.stores := by
  unfold State.dmUnderrun; split <;> simp
@[simp] theorem Die.dmaBegin_cells (x : Die) (n depth : Nat) : (x.dmaBegin n depth).cells = x.cells := by simp [Die.dmaBegin]
@[simp] theorem State.dmaStart_stores (s : State) (d : DieId) (n : Nat) (src : StartSrc) (depth : Nat) :
    (s.dmaStart d n src depth).stores = s.stores := by
  simp [State.dmaStart]
@[simp] theorem Die.dropOpen_cells (x : Die) (d : DieId) (n : Nat) :
    (x.dropOpen d n).cells = x.cells := by unfold Die.dropOpen; split <;> simp
@[simp] theorem Die.dmaEnd_cells (x : Die) (d : DieId) (n : Nat) : (x.dmaEnd d n).cells = x.cells := by simp [Die.dmaEnd]
@[simp] theorem State.dmaStop_stores (s : State) (d : DieId) (n cause : Nat) :
    (s.dmaStop d n cause).stores = s.stores := by simp [State.dmaStop]
@[simp] theorem State.dmaRestart_stores (s : State) (d : DieId) (n : Nat) :
    (s.dmaRestart d n).stores = s.stores := by simp [State.dmaRestart]
@[simp] theorem State.dmaIssue_stores (s : State) (d : DieId) (n op : Nat) (ecc : Ecc) (ok : Nat → Bool) (f : Nat → State → State)
    (h : ∀ w t, (f w t).stores = t.stores) :
    (s.dmaIssue d n op ecc ok f).stores = s.stores := by
  simp [State.dmaIssue, h]
@[simp] theorem State.moveScratch_stores (s : State) (d : DieId) (kind : Nat) (a : Int) (n : Nat) (errs : List MemErr) :
    (s.moveScratch d kind a n errs).stores = s.stores := by
  simp [State.moveScratch]
@[simp] theorem State.moveWrite_stores (s : State) (d : DieId) (n kind : Nat) (a : Int) (bs : List MByte) :
    (s.moveWrite d n kind a bs).stores = s.stores := by
  unfold State.moveWrite; split <;> simp
@[simp] theorem Die.moveConsume_cells (x : Die) (kind : Nat) (a : Int) (n : Nat) : (x.moveConsume kind a n).cells = x.cells := by
  simp [Die.moveConsume]
@[simp] theorem State.moveRow_stores (s : State) (d : DieId) (n : Nat) (m : MoveWord) (errs : List MemErr) :
    (s.moveRow d n m errs).stores = s.stores := by
  simp [State.moveRow]
@[simp] theorem State.moveRows_stores (s : State) (d : DieId) (n : Nat) (m : MoveWord) (errs : List MemErr) (k i : Nat) :
    (s.moveRows d n m errs k i).stores = s.stores := by
  induction k generalizing s i with
  | zero => simp [State.moveRows]
  | succ k ih => simp [State.moveRows, ih]
@[simp] theorem State.dmaMove_stores (s : State) (d : DieId) (n : Nat) (ecc : Ecc) (errs : List MemErr) :
    (s.dmaMove d n ecc errs).stores = s.stores := by
  simp [State.dmaMove]
@[simp] theorem State.dmaLoop_stores (s : State) (d : DieId) (n : Nat) (ecc : Ecc) :
    (s.dmaLoop d n ecc).stores = s.stores := by simp [State.dmaLoop]
@[simp] theorem State.dmaWait_stores (s : State) (d : DieId) (n cond : Nat) (ecc : Ecc) : (s.dmaWait d n cond ecc).stores = s.stores := by
  simp [State.dmaWait]
@[simp] theorem Die.dmaWaitDone_cells (x : Die) (d : DieId) (n : Nat) : (x.dmaWaitDone d n).cells = x.cells := by
  unfold Die.dmaWaitDone; split <;> simp
@[simp] theorem State.dmaWaitTimeout_stores (s : State) (d : DieId) (n : Nat) : (s.dmaWaitTimeout d n).stores = s.stores := by
  unfold State.dmaWaitTimeout; split <;> simp
@[simp] theorem State.dmaSignal_stores (s : State) (d : DieId) (n : Nat) (ecc : Ecc) : (s.dmaSignal d n ecc).stores = s.stores := by
  simp [State.dmaSignal]
@[simp] theorem State.dmaAccessDone_stores (s : State) (d : DieId) (n : Nat) (errs : List MemErr) :
    (s.dmaAccessDone d n errs).stores = s.stores := by
  unfold State.dmaAccessDone; repeat split <;> simp
@[simp] theorem State.dmaTimeout_stores (s : State) (d : DieId) (n : Nat) : (s.dmaTimeout d n).stores = s.stores := by
  unfold State.dmaTimeout; split <;> simp

/-! What leaves the stores alone: the operations of the unit `Traffic`. -/

@[simp] theorem Die.setQueue_cells (x : Die) (q : QId) (v : EgQueue) : (x.setQueue q v).cells = x.cells := by simp [Die.setQueue]
@[simp] theorem State.queueDrop_stores (s : State) (d : DieId) (q : QId) (frag : Nat) : (s.queueDrop d q frag).stores = s.stores := by
  simp [State.queueDrop]
@[simp] theorem State.enqueue_stores (s : State) (d : DieId) (q : QId) (frag : Nat) (p : Pkt) :
    (s.enqueue d q frag p).stores = s.stores := by
  simp [State.enqueue]
@[simp] theorem Die.modShaper_cells (x : Die) (h : Nat) (f : Bucket → Bucket) : (x.modShaper h f).cells = x.cells := by simp [Die.modShaper]
@[simp] theorem Die.shaperRate_cells (x : Die) (h rate : Nat) : (x.shaperRate h rate).cells = x.cells := by simp [Die.shaperRate]
@[simp] theorem Die.shaperTake_cells (x : Die) (h len : Nat) : (x.shaperTake h len).cells = x.cells := by simp [Die.shaperTake]
@[simp] theorem State.police_stores (s : State) (d : DieId) (kind idx len : Nat) : (s.police d kind idx len).1.stores = s.stores := by
  unfold State.police
  refine foldl_keeps (fun p : State × Bool => p.1.stores) _ (fun p e => ?_) _ _
  simp
@[simp] theorem Die.modGate_cells (x : Die) (sp : Nat) (f : GateSt → GateSt) : (x.modGate sp f).cells = x.cells := by simp [Die.modGate]
@[simp] theorem Die.gateSelect_cells (x : Die) (sp l t0 t1 : Nat) : (x.gateSelect sp l t0 t1).cells = x.cells := by
  unfold Die.gateSelect; split <;> simp
@[simp] theorem State.gateRestarts_stores (s : State) (d : DieId) (sp : Nat) : (s.gateRestarts d sp).stores = s.stores := by
  unfold State.gateRestarts; split <;> simp
@[simp] theorem State.gatePendStarts_stores (s : State) (d : DieId) (sp : Nat) : (s.gatePendStarts d sp).stores = s.stores := by
  unfold State.gatePendStarts; repeat split <;> simp
@[simp] theorem State.gateStarts_stores (s : State) (d : DieId) (sp : Nat) :
    (s.gateStarts d sp).stores = s.stores := by simp [State.gateStarts]
@[simp] theorem State.gateEntry_stores (s : State) (d : DieId) (sp : Nat) : (s.gateEntry d sp).stores = s.stores := by
  unfold State.gateEntry; split <;> simp
@[simp] theorem Die.gateStepped_cells (x : Die) (sp : Nat) : (x.gateStepped sp).cells = x.cells := by
  unfold Die.gateStepped
  dsimp only
  repeat' split
  all_goals simp
@[simp] theorem Die.unitStarts_cells (x : Die) (p : Pkt) (q : QId) (end_ : Nat) : (x.unitStarts p q end_).cells = x.cells := by
  unfold Die.unitStarts; split <;> simp
@[simp] theorem State.transmit_stores (s : State) (d : DieId) (q : QId) (p : Pkt) : (s.transmit d q p).stores = s.stores := by
  unfold State.transmit; split <;> simp
@[simp] theorem State.startFrame_stores (s : State) (d : DieId) (q : QId) : (s.startFrame d q).stores = s.stores := by
  unfold State.startFrame; repeat split <;> simp
@[simp] theorem State.egressSelect_stores (s : State) (d : DieId) (sp : Nat) : (s.egressSelect d sp).stores = s.stores := by
  unfold State.egressSelect
  split <;> [split; skip] <;> simp

/-! What leaves the stores alone: the operations of the unit `Timebase`. -/

@[simp] theorem Die.modServo_cells (x : Die) (backup : Bool) (f : Servo → Servo) :
    (x.modServo backup f).cells = x.cells := by simp [Die.modServo]
@[simp] theorem State.enter_stores (s : State) (d : DieId) (backup : Bool) (st : ServoState) : (s.enter d backup st).stores = s.stores := by
  simp [State.enter]
@[simp] theorem State.steer_stores (s : State) (d : DieId) (backup : Bool) (src : Nat) (off : Int) :
    (s.steer d backup src off).stores = s.stores := by
  simp [State.steer]
@[simp] theorem State.stepGap_stores (s : State) (d : DieId) (c lines : Nat) :
    (s.stepGap d c lines).stores = s.stores := by simp [State.stepGap]
@[simp] theorem Die.cmpAdvance_cells (x : Die) (u : Nat) :
    (x.cmpAdvance u).cells = x.cells := by unfold Die.cmpAdvance; repeat split <;> simp
@[simp] theorem State.cmpLate_stores (s : State) (d : DieId) (u : Nat) : (s.cmpLate d u).stores = s.stores := by simp [State.cmpLate]
@[simp] theorem State.cmpFire_stores (s : State) (d : DieId) (u : Nat) (late : Bool) : (s.cmpFire d u late).stores = s.stores := by
  unfold State.cmpFire; dsimp only; split <;> simp
@[simp] theorem State.cmpWritten_stores (s : State) (d : DieId) (u : Nat) : (s.cmpWritten d u).stores = s.stores := by
  unfold State.cmpWritten; dsimp only; split <;> simp
@[simp] theorem State.compareFire_stores (s : State) (d : DieId) (u : Nat) : (s.compareFire d u).stores = s.stores := by
  unfold State.compareFire; split <;> simp
@[simp] theorem State.cmpStepped_stores (s : State) (d : DieId) : (s.cmpStepped d).stores = s.stores := by
  unfold State.cmpStepped
  refine State.stores_foldl_of (fun s u => ?_) rfl
  split <;> simp
@[simp] theorem Die.waitsStepped_cells (x : Die) : (x.waitsStepped).cells = x.cells := by simp [Die.waitsStepped]
@[simp] theorem State.stepDie_stores (s : State) (d : DieId) (st : Int) : (s.stepDie d st).stores = s.stores := by simp [State.stepDie]
@[simp] theorem State.applyStep_stores (s : State) (d : DieId) :
    (s.applyStep d).stores = s.stores := by unfold State.applyStep; split <;> simp
@[simp] theorem State.stepDecision_stores (s : State) (d : DieId) (backup : Bool) : (s.stepDecision d backup).stores = s.stores := by
  simp [State.stepDecision]
@[simp] theorem State.servoSample_stores (s : State) (d : DieId) (backup : Bool) (src : Nat) (off : Int) :
    (s.servoSample d backup src off).stores = s.stores := by
  simp [State.servoSample]
@[simp] theorem State.refSample_stores (s : State) (d : DieId) (backup : Bool) (src : Nat) (off : Int) :
    (s.refSample d backup src off).stores = s.stores := by
  simp [State.refSample]
@[simp] theorem State.judge_stores (s : State) (d : DieId) (judged causes : List Nat) : (s.judge d judged causes).stores = s.stores := by
  simp [State.judge]
@[simp] theorem State.refFreq_stores (s : State) (d : DieId) (ref : Int) (t : Nat) : (s.refFreq d ref t).stores = s.stores := by
  unfold State.refFreq; split <;> simp
@[simp] theorem State.refSync_stores (s : State) (fmt rate : Nat) (line750 : Bool) (line : Nat) :
    (s.refSync fmt rate line750 line).stores = s.stores := by
  unfold State.refSync
  extract_lets was changed s1 s2 period s3 base s4 bad s5 s6 s7
  have h3 : s3.stores = s.stores := by simp [s3, s2, s1]
  have h7 : s7.stores = s.stores := by simp [s7, s6, s5, s4, h3]
  split
  · exact h3
  · split <;> simp [h7]
@[simp] theorem State.servoLoss_stores (s : State) (d : DieId) (backup : Bool) :
    (s.servoLoss d backup).stores = s.stores := by simp [State.servoLoss]
@[simp] theorem State.refInGone_stores (s : State) : (s.refInGone).stores = s.stores := by simp [State.refInGone]
@[simp] theorem State.refLoss_stores (s : State) (d : DieId) (backup : Bool) : (s.refLoss d backup).stores = s.stores := by
  unfold State.refLoss
  repeat' split
  all_goals simp
@[simp] theorem State.holdExpiry_stores (s : State) (d : DieId) (backup : Bool) : (s.holdExpiry d backup).stores = s.stores := by
  simp [State.holdExpiry]
@[simp] theorem State.sourceMoved_stores (s : State) (d : DieId) : (s.sourceMoved d).stores = s.stores := by simp [State.sourceMoved]
@[simp] theorem State.timingWord_stores (s : State) (time : Nat) (fl : Bool × Bool) : (s.timingWord time fl).stores = s.stores := by
  simp [State.timingWord]
@[simp] theorem State.timingLost_stores (s : State) : (s.timingLost).stores = s.stores := by unfold State.timingLost; split <;> simp
@[simp] theorem Die.tbSnap_cells (x : Die) : (x.tbSnap).cells = x.cells := by
  unfold Die.tbSnap
  refine Die.cells_foldl_of (fun x c => ?_) (by simp)
  split <;> simp
@[simp] theorem State.stepApply_stores (s : State) (d : DieId) : (s.stepApply d).stores = s.stores := by
  unfold State.stepApply
  dsimp only
  repeat' split
  all_goals simp
@[simp] theorem State.refEdge_stores (s : State) (tri : Bool) (lines num den line : Nat) (valid : Bool) :
    (s.refEdge tri lines num den line valid).stores = s.stores := by
  unfold State.refEdge; split <;> simp

/-! What leaves the stores alone: the operations of the unit `Groups`. -/

@[simp] theorem Die.modLane_cells (x : Die) (k : Nat) (f : Lane → Lane) : (x.modLane k f).cells = x.cells := by simp [Die.modLane]
@[simp] theorem Die.modMem_cells (x : Die) (r : MemRef) (f : Member → Member) : (x.modMem r f).cells = x.cells := by simp [Die.modMem]
@[simp] theorem Die.stage_cells (x : Die) (r : MemRef) (line : Nat) (p : PicLine) :
    (x.stage r line p).cells = x.cells := by simp [Die.stage]
@[simp] theorem Die.setBad_cells (x : Die) (r : MemRef) (v : Bool) : (x.setBad r v).cells = x.cells := by simp [Die.setBad]
@[simp] theorem State.memUnderrun_stores (s : State) (d : DieId) (r : MemRef) :
    (s.memUnderrun d r).stores = s.stores := by simp [State.memUnderrun]
@[simp] theorem State.memberUnderrun_stores (s : State) (d : DieId) (r : MemRef) : (s.memberUnderrun d r).stores = s.stores := by
  unfold State.memberUnderrun; split <;> simp
@[simp] theorem State.memBoundary_stores (s : State) (d : DieId) (r : MemRef) (g : Grid) (b : Int) :
    (s.memBoundary d r g b).stores = s.stores := by
  simp [State.memBoundary]
@[simp] theorem Die.inputSeen_cells (x : Die) (i : Nat) : (x.inputSeen i).cells = x.cells := by simp [Die.inputSeen]
@[simp] theorem Die.memNever_cells (x : Die) (d : DieId) (r : MemRef) (g : Grid) (b : Int) : (x.memNever d r g b).cells = x.cells := by
  simp [Die.memNever]

/-! What leaves the stores alone: the operations of the unit `Cellar`. -/

@[simp] theorem Die.modDec_cells (x : Die) (n : Nat) (f : DecChan → DecChan) : (x.modDec n f).cells = x.cells := by simp [Die.modDec]
@[simp] theorem State.paramCheck_stores (s : State) (d : DieId) (n : Nat) (frame : Int) (p : SeqParams) :
    (s.paramCheck d n frame p).stores = s.stores := by
  simp [State.paramCheck]
@[simp] theorem State.decRun_stores (s : State) (d : DieId) (n : Nat) (out marked : Bool) :
    (s.decRun d n out marked).stores = s.stores := by
  simp [State.decRun]
@[simp] theorem State.storeNoInput_stores (s : State) (d : DieId) (n : Nat) :
    (s.storeNoInput d n).stores = s.stores := by simp [State.storeNoInput]

/-! What leaves the stores alone: the operations of the unit `Churn`. -/

@[simp] theorem Die.modChurn_cells (x : Die) (n : Nat) (f : ChurnChan → ChurnChan) :
    (x.modChurn n f).cells = x.cells := by simp [Die.modChurn]
@[simp] theorem Die.modLayer_cells (x : Die) (n l : Nat) (f : Layer → Layer) : (x.modLayer n l f).cells = x.cells := by simp [Die.modLayer]
@[simp] theorem Die.setLayerState_cells (x : Die) (n l v : Nat) : (x.setLayerState n l v).cells = x.cells := by simp [Die.setLayerState]
@[simp] theorem Die.setPending_cells (x : Die) (n l : Nat) (v : Bool) : (x.setPending n l v).cells = x.cells := by simp [Die.setPending]
@[simp] theorem State.layerRefused_stores (s : State) (d : DieId) (n l cause : Nat) : (s.layerRefused d n l cause).stores = s.stores := by
  simp [State.layerRefused]
@[simp] theorem State.churnCommit_stores (s : State) (d : DieId) (n mask : Nat) (frame : Int) :
    (s.churnCommit d n mask frame).stores = s.stores := by
  simp [State.churnCommit]
@[simp] theorem State.layerApply_stores (s : State) (d : DieId) (n l : Nat) (frame : Int) :
    (s.layerApply d n l frame).stores = s.stores := by
  unfold State.layerApply; split <;> simp
@[simp] theorem State.runApplied_stores (s : State) (d : DieId) (n r : Nat) (frame : Int) :
    (s.runApplied d n r frame).stores = s.stores := by
  simp [State.runApplied]
@[simp] theorem State.commitApply_stores (s : State) (d : DieId) (n : Nat) : (s.commitApply d n).stores = s.stores := by
  unfold State.commitApply; dsimp only; split <;> simp
@[simp] theorem State.recomputeDone_stores (s : State) (d : DieId) (n l : Nat) : (s.recomputeDone d n l).stores = s.stores := by
  unfold State.recomputeDone; dsimp only; split <;> simp
@[simp] theorem State.readiness_stores (s : State) (d : DieId) (n : Nat) : (s.readiness d n).stores = s.stores := by simp [State.readiness]
@[simp] theorem State.churnPulse_stores (s : State) (d : DieId) (c : Nat) (g : Grid) (m : Int) :
    (s.churnPulse d c g m).stores = s.stores := by
  simp [State.churnPulse]

/-! What leaves the stores alone: the operations of the unit `Panel`. -/

@[simp] theorem State.modPanel_stores (s : State) (f : Panel → Panel) : (s.modPanel f).stores = s.stores := by simp [State.modPanel]
@[simp] theorem State.pnDue_stores (s : State) (kind index : Nat) (steps : Int) : (s.pnDue kind index steps).stores = s.stores := by
  simp [State.pnDue]
@[simp] theorem Die.setPnKey_cells (x : Die) (i : Nat) (v : Bool) : (x.setPnKey i v).cells = x.cells := by simp [Die.setPnKey]
@[simp] theorem State.pnKeyScan_stores (s : State) (i : Nat) (down : Bool) :
    (s.pnKeyScan i down).stores = s.stores := by simp [State.pnKeyScan]
@[simp] theorem State.pnEncScan_stores (s : State) (e : Nat) : (s.pnEncScan e).stores = s.stores := by simp [State.pnEncScan]
@[simp] theorem State.pnInput_stores (s : State) (b : Nat) (v : Bool) : (s.pnInput b v).stores = s.stores := by simp [State.pnInput]
@[simp] theorem State.pnTouchScan_stores (s : State) (i : Nat) (v : Int) :
    (s.pnTouchScan i v).stores = s.stores := by simp [State.pnTouchScan]
@[simp] theorem State.pnModScan_stores (s : State) (i : Nat) (level : Bool) :
    (s.pnModScan i level).stores = s.stores := by simp [State.pnModScan]
@[simp] theorem State.panelScan_stores (s : State) (keys : Nat) (touch : List Int) (mods : Nat) :
    (s.panelScan keys touch mods).stores = s.stores := by
  unfold State.panelScan
  split
  · rfl
  · refine State.stores_foldl_of (by simp) (State.stores_foldl_of (fun s i => ?_) (by simp))
    split <;> simp
@[simp] theorem State.encoderSample_stores (s : State) (e : Nat) (a b : Bool) : (s.encoderSample e a b).stores = s.stores := by
  simp [State.encoderSample]
@[simp] theorem State.pnQueue_stores (s : State) (kinds : List Nat) : (s.pnQueue kinds).stores = s.stores := by
  unfold State.pnQueue
  dsimp only
  repeat' split
  all_goals simp
@[simp] theorem State.evqPop_stores (s : State) : (s.evqPop).stores = s.stores := by simp [State.evqPop]
@[simp] theorem State.dutyApply_stores (s : State) (n : Nat) : (s.dutyApply n).stores = s.stores := by simp [State.dutyApply]

/-! What leaves the stores alone: the operations of the unit `Encode`. -/

@[simp] theorem Die.setMark_cells (x : Die) (n i v : Nat) : (x.setMark n i v).cells = x.cells := by simp [Die.setMark]
@[simp] theorem State.encPicture_stores (s : State) (d : DieId) (n : Nat) (frame : Int) (field : Nat) :
    (s.encPicture d n frame field).stores = s.stores := by
  simp [State.encPicture]
@[simp] theorem State.patchFetch_stores (s : State) (d : DieId) (n : Nat) (p : EncPic) (e : Rect × List (Int × Int)) :
    (s.patchFetch d n p e).stores = s.stores := by
  unfold State.patchFetch; split <;> simp
@[simp] theorem State.reconTouch_stores (s : State) (d : DieId) (n : Nat) (p : EncPic) (row : Nat) :
    (s.reconTouch d n p row).stores = s.stores := by
  simp [State.reconTouch]
@[simp] theorem State.encPicEnd_stores (s : State) (d : DieId) (n : Nat) (frame : Int) (field : Nat) :
    (s.encPicEnd d n frame field).stores = s.stores := by
  unfold State.encPicEnd; dsimp only; split <;> simp
@[simp] theorem State.encRowStart_stores (s : State) (d : DieId) (n : Nat) (frame : Int) (field row : Nat) :
    (s.encRowStart d n frame field row).stores = s.stores := by
  unfold State.encRowStart; dsimp only; split <;> simp
@[simp] theorem State.encFill_stores (s : State) (d : DieId) (n row cause : Nat) (frame : Int) (rap : Bool) :
    (s.encFill d n row cause frame rap).stores = s.stores := by
  simp [State.encFill]
@[simp] theorem State.poolPulse_stores (s : State) (d : DieId) (p : Nat) : (s.poolPulse d p).stores = s.stores := by simp [State.poolPulse]
@[simp] theorem State.shaperFollow_stores (s : State) (d : DieId) (n : Nat) (pic : Int) : (s.shaperFollow d n pic).stores = s.stores := by
  unfold State.shaperFollow
  refine State.stores_foldl_of (fun s e => ?_) rfl
  split
  · rfl
  · split <;> simp
@[simp] theorem Die.encSkipped_cells (x : Die) (c k : Nat) : (x.encSkipped c k).cells = x.cells := by simp [Die.encSkipped]
@[simp] theorem Die.forceRap_cells (x : Die) (n : Nat) (pic : Int) : (x.forceRap n pic).cells = x.cells := by simp [Die.forceRap]
@[simp] theorem Die.rateAccept_cells (x : Die) (n field : Nat) (v : W32) (pic : Int) : (x.rateAccept n field v pic).cells = x.cells := by
  simp [Die.rateAccept]
@[simp] theorem Die.ratePendingOff_cells (x : Die) (n : Nat) : (x.ratePendingOff n).cells = x.cells := by simp [Die.ratePendingOff]
@[simp] theorem Die.poolAccept_cells (x : Die) (p v : Nat) (frame : Int) :
    (x.poolAccept p v frame).cells = x.cells := by simp [Die.poolAccept]
@[simp] theorem Die.rateAsk_cells (x : Die) (n field : Nat) : (x.rateAsk n field).cells = x.cells := by simp [Die.rateAsk]
@[simp] theorem Die.rateUnask_cells (x : Die) (n field : Nat) : (x.rateUnask n field).cells = x.cells := by simp [Die.rateUnask]
@[simp] theorem Die.followRate_cells (x : Die) (n rate : Nat) (cap : Bool) (pic : Int) : (x.followRate n rate cap pic).cells = x.cells := by
  unfold Die.followRate
  refine Die.cells_foldl_of (fun x e => ?_) rfl
  split
  · rfl
  · split <;> simp
@[simp] theorem State.changeApply_stores (s : State) (d : DieId) (n : Nat) (ch : RateChange) (pic : Int) :
    (s.changeApply d n ch pic).stores = s.stores := by
  simp [State.changeApply]
@[simp] theorem State.rateApply_stores (s : State) (d : DieId) (n : Nat) : (s.rateApply d n).stores = s.stores := by
  unfold State.rateApply
  refine State.stores_foldl_of (fun s ch => ?_) rfl
  dsimp only
  split <;> simp
@[simp] theorem State.poolApply_stores (s : State) (d : DieId) (p : Nat) : (s.poolApply d p).stores = s.stores := by
  unfold State.poolApply; split <;> simp
@[simp] theorem Die.abandon_cells (x : Die) (frag : Nat) : (x.abandon frag).cells = x.cells := by simp [Die.abandon]
@[simp] theorem State.deferredDeadline_stores (s : State) (d : DieId) (n : Nat) : (s.deferredDeadline d n).stores = s.stores := by
  unfold State.deferredDeadline
  dsimp only
  repeat' split
  all_goals simp
@[simp] theorem State.hdrCheck_stores (s : State) (d : DieId) (channels : List Nat) (prim transfer : Nat) :
    (s.hdrCheck d channels prim transfer).stores = s.stores := by
  simp [State.hdrCheck]
@[simp] theorem Die.timecodeIn_cells (x : Die) (i : Nat) (tc : W32) : (x.timecodeIn i tc).cells = x.cells := by simp [Die.timecodeIn]
@[simp] theorem State.scte104_stores (s : State) (d : DieId) (n : Nat) (op : Scte104) (preMs : Nat) (body : List Byte) :
    (s.scte104 d n op preMs body).stores = s.stores := by
  unfold State.scte104; repeat split <;> simp

/-! What leaves the stores alone: the operations of the unit `Lanes`. -/

@[simp] theorem State.lnRecord_stores (s : State) (d : DieId) (f : Fld) (k : Nat) :
    (s.lnRecord d f k).stores = s.stores := by simp [State.lnRecord]
@[simp] theorem Die.lnMute_cells (x : Die) (t : Nat) : (x.lnMute t).cells = x.cells := by simp [Die.lnMute]
@[simp] theorem State.xptApply_stores (s : State) (d : DieId) (t : Nat) : (s.xptApply d t).stores = s.stores := by
  unfold State.xptApply; split <;> simp
@[simp] theorem State.lnLockMoved_stores (s : State) (d : DieId) (k : Nat) :
    (s.lnLockMoved d k).stores = s.stores := by simp [State.lnLockMoved]
@[simp] theorem State.xptWritten_stores (s : State) (d : DieId) (t : Nat) :
    (s.xptWritten d t).stores = s.stores := by simp [State.xptWritten]
@[simp] theorem State.xptApplied_stores (s : State) (d : DieId) (t : Nat) :
    (s.xptApplied d t).stores = s.stores := by simp [State.xptApplied]
@[simp] theorem Die.lnFault_cells (x : Die) (k : Nat) : (x.lnFault k).cells = x.cells := by simp [Die.lnFault]
@[simp] theorem State.unlock_stores (s : State) (d : DieId) (k : Nat) : (s.unlock d k).stores = s.stores := by simp [State.unlock]
@[simp] theorem State.cableChange_stores (s : State) (d : DieId) (k : Nat) (cable : Bool) :
    (s.cableChange d k cable).stores = s.stores := by
  simp [State.cableChange]
@[simp] theorem State.acquire_stores (s : State) (d : DieId) (k : Nat) (foms : List Byte) : (s.acquire d k foms).stores = s.stores := by
  simp [State.acquire]
@[simp] theorem State.acquireStart_stores (s : State) (d : DieId) (k : Nat) (foms : List Byte) :
    (s.acquireStart d k foms).stores = s.stores := by
  simp [State.acquireStart]
@[simp] theorem State.lock_stores (s : State) (d : DieId) (k : Nat) : (s.lock d k).stores = s.stores := by simp [State.lock]
@[simp] theorem State.acquireTimeout_stores (s : State) (d : DieId) (k : Nat) (foms : List Byte) :
    (s.acquireTimeout d k foms).stores = s.stores := by
  unfold State.acquireTimeout; split <;> simp
@[simp] theorem State.readapt_stores (s : State) (d : DieId) (k : Nat) (value : W32) : (s.readapt d k value).stores = s.stores := by
  simp [State.readapt]
@[simp] theorem Die.lnWaking_cells (x : Die) (k : Nat) : (x.lnWaking k).cells = x.cells := by simp [Die.lnWaking]
@[simp] theorem State.lnNow_stores (s : State) (d : DieId) (k : Nat) (tx : Bool) (v : Nat) : (s.lnNow d k tx v).stores = s.stores := by
  simp [State.lnNow]
@[simp] theorem State.lnPower_stores (s : State) (d : DieId) (k : Nat) (tx bist : Bool) (want : Nat) :
    (s.lnPower d k tx bist want).stores = s.stores := by
  simp [State.lnPower]
@[simp] theorem State.lnPwrWritten_stores (s : State) (d : DieId) (k : Nat) :
    (s.lnPwrWritten d k).stores = s.stores := by simp [State.lnPwrWritten]
@[simp] theorem State.wakeDone_stores (s : State) (d : DieId) (k : Nat) (tx : Bool) (dt : Nat) :
    (s.wakeDone d k tx dt).stores = s.stores := by
  unfold State.wakeDone; split <;> simp
@[simp] theorem State.sdiAudio_stores (s : State) (d : DieId) (k : Nat) (line : Int) (a : LineAudio) :
    (s.sdiAudio d k line a).stores = s.stores := by
  unfold State.sdiAudio; dsimp only; split <;> simp
@[simp] theorem State.sdiFormatSeen_stores (s : State) (d : DieId) (k : Nat) (ok : Bool) : (s.sdiFormatSeen d k ok).stores = s.stores := by
  simp [State.sdiFormatSeen]
@[simp] theorem State.forwardLane_stores (s : State) (d : DieId) (k : Nat) (out : Nat → Out) :
    (s.forwardLane d k out).stores = s.stores := by
  simp [State.forwardLane]
@[simp] theorem Die.streamPut_cells (x : Die) (q : Nat) (bs : List Byte) : (x.streamPut q bs).cells = x.cells := by simp [Die.streamPut]
@[simp] theorem State.nativeSeq_stores (s : State) (d : DieId) (k stream seq : Nat) : (s.nativeSeq d k stream seq).stores = s.stores := by
  simp [State.nativeSeq]
@[simp] theorem Die.nativeSent_cells (x : Die) (k : Nat) (filler link : Bool) : (x.nativeSent k filler link).cells = x.cells := by
  simp [Die.nativeSent]
@[simp] theorem State.nativeSend_stores (s : State) (d : DieId) (k : Nat) (control : W32) (payload : List Byte) :
    (s.nativeSend d k control payload).stores = s.stores := by
  simp [State.nativeSend]
theorem Die.nativeNext_cells {x y : Die} {d : DieId} {k : Nat} {e : Nat × Bool × Bool × List Byte} (h : x.nativeNext d k = some (e, y)) :
    y.cells = x.cells := by
  unfold Die.nativeNext at h
  split at h
  · cases h; simp
  · split at h <;> cases h
    simp
@[simp] theorem State.nativeTxFrame_stores (s : State) (d : DieId) (k : Nat) : (s.nativeTxFrame d k).stores = s.stores := by
  unfold State.nativeTxFrame
  extract_lets x filler
  have hf : filler.stores = s.stores := by
    unfold filler; rw [State.nativeSend_stores]; simp
  split
  · rfl
  · split
    · exact hf
    · split
      · exact hf
      · rename_i h
        rw [State.nativeSend_stores, State.stores_setDie, Die.nativeSent_cells, Die.modLane_cells, Die.nativeNext_cells h]
        simp [x]
@[simp] theorem State.linkControl_stores (s : State) (d : DieId) (k : Nat) : (s.linkControl d k).stores = s.stores := by
  unfold State.linkControl
  dsimp only
  split
  · rfl
  · rw [State.nativeSend_stores]; simp
@[simp] theorem Die.nativeLine_cells (x : Die) (d : DieId) (k y : Nat) (p : PicLine) : (x.nativeLine d k y p).cells = x.cells := by
  unfold Die.nativeLine; split <;> simp
@[simp] theorem Die.nativeAudio_cells (x : Die) (d : DieId) (k : Nat) (ws : List (List W32)) : (x.nativeAudio d k ws).cells = x.cells := by
  unfold Die.nativeAudio; split <;> simp
@[simp] theorem State.timedLine_stores (s : State) (d : DieId) (k : Nat) (b : List Byte) (g : Grid) (m : Int) (hold : Bool) :
    (s.timedLine d k b g m hold).stores = s.stores := by
  unfold State.timedLine
  dsimp only
  repeat' split
  all_goals simp
@[simp] theorem Die.steerLimit_cells (x : Die) (k : Nat) : (x.steerLimit k).cells = x.cells := by simp [Die.steerLimit]
@[simp] theorem State.routePulse_stores (s : State) (d : DieId) (c : Nat) (g : Grid) (m : Int) (hold : Nat → Bool) :
    (s.routePulse d c g m hold).stores = s.stores := by
  simp [State.routePulse]
@[simp] theorem State.pllLock_stores (s : State) (d : DieId) (b : Nat) (pllB up : Bool) : (s.pllLock d b pllB up).stores = s.stores := by
  simp [State.pllLock]

/-! What leaves the stores alone: the operations of the unit `NetFrame`. -/

@[simp] theorem Die.modPort_cells (x : Die) (sp : Nat) (f : SubPort → SubPort) : (x.modPort sp f).cells = x.cells := by simp [Die.modPort]
@[simp] theorem State.ctrlSend_stores (s : State) (d : DieId) (sp : Nat) (b : List Byte) : (s.ctrlSend d sp b).stores = s.stores := by
  simp [State.ctrlSend]
@[simp] theorem Die.learn_cells (x : Die) (sp : Nat) (ip mac : List Byte) : (x.learn sp ip mac).cells = x.cells := by simp [Die.learn]
@[simp] theorem State.askNeighbour_stores (s : State) (d : DieId) (sp vlan : Nat) (ip : List Byte) :
    (s.askNeighbour d sp vlan ip).stores = s.stores := by
  simp [State.askNeighbour]
@[simp] theorem State.arpIn_stores (s : State) (d : DieId) (sp : Nat) (e : EthFrame) (b : List Byte) :
    (s.arpIn d sp e b).stores = s.stores := by
  simp [State.arpIn]
@[simp] theorem State.ndIn_stores (s : State) (d : DieId) (sp : Nat) (e : EthFrame) (b : List Byte) :
    (s.ndIn d sp e b).stores = s.stores := by
  unfold State.ndIn
  dsimp only
  repeat' split
  all_goals simp
@[simp] theorem State.sendReport_stores (s : State) (d : DieId) (sp : Nat) (recs : List (Nat × List Byte × List Byte)) :
    (s.sendReport d sp recs).stores = s.stores := by
  simp [State.sendReport]
@[simp] theorem State.queryIn_stores (s : State) (d : DieId) (sp maxTime : Nat) : (s.queryIn d sp maxTime).stores = s.stores := by
  simp [State.queryIn]
@[simp] theorem State.reportDue_stores (s : State) (d : DieId) (sp dt : Nat) : (s.reportDue d sp dt).stores = s.stores := by
  unfold State.reportDue; split <;> simp
@[simp] theorem State.ctrlFrame_stores (s : State) (d : DieId) (sp : Nat) (b : List Byte) : (s.ctrlFrame d sp b).stores = s.stores := by
  simp [State.ctrlFrame]

/-! What leaves the stores alone: the operations of the unit `Ptp`. -/

@[simp] theorem Die.modPtp_cells (x : Die) (f : Ptp → Ptp) : (x.modPtp f).cells = x.cells := by simp [Die.modPtp]
@[simp] theorem State.ptpSelect_stores (s : State) (d : DieId) (v : Option PtpMaster) : (s.ptpSelect d v).stores = s.stores := by
  simp [State.ptpSelect]
@[simp] theorem State.ptpAnnounce_stores (s : State) (d : DieId) (e : EthFrame) (u : Udp) (m : List Byte) :
    (s.ptpAnnounce d e u m).stores = s.stores := by
  simp [State.ptpAnnounce]
@[simp] theorem State.announceTimeout_stores (s : State) (d : DieId) : (s.announceTimeout d).stores = s.stores := by
  unfold State.announceTimeout; split <;> simp
@[simp] theorem State.ptpSample_stores (s : State) (d : DieId) (t2 : Int) (sup : Nat) (ms : Int) :
    (s.ptpSample d t2 sup ms).stores = s.stores := by
  unfold State.ptpSample
  dsimp only
  repeat' split
  all_goals simp
@[simp] theorem State.ptpSync_stores (s : State) (d : DieId) (m : List Byte) : (s.ptpSync d m).stores = s.stores := by simp [State.ptpSync]
@[simp] theorem State.ptpFollow_stores (s : State) (d : DieId) (m : List Byte) : (s.ptpFollow d m).stores = s.stores := by
  unfold State.ptpFollow; split <;> simp
@[simp] theorem State.ptpResp_stores (s : State) (d : DieId) (m : List Byte) : (s.ptpResp d m).stores = s.stores := by
  unfold State.ptpResp; dsimp only; split <;> simp
@[simp] theorem State.ptpManage_stores (s : State) (d : DieId) (m : List Byte) : (s.ptpManage d m).stores = s.stores := by
  unfold State.ptpManage
  dsimp only
  repeat' split
  all_goals simp
@[simp] theorem State.ptpIn_stores (s : State) (d : DieId) (e : EthFrame) (u : Udp) : (s.ptpIn d e u).stores = s.stores := by
  unfold State.ptpIn
  dsimp only
  repeat' split
  all_goals simp
@[simp] theorem State.delayReq_stores (s : State) (d : DieId) : (s.delayReq d).stores = s.stores := by unfold State.delayReq; split <;> simp

/-! What leaves the stores alone: the operations of the unit `NetRx`. -/

@[simp] theorem Die.modRx_cells (x : Die) (f : Nat) (g : RxFlow → RxFlow) : (x.modRx f g).cells = x.cells := by simp [Die.modRx]
@[simp] theorem State.stampMiss_stores (s : State) (d : DieId) (f : Nat) : (s.stampMiss d f).stores = s.stores := by simp [State.stampMiss]
@[simp] theorem State.rxForget_stores (s : State) (d : DieId) (f n : Nat) : (s.rxForget d f n).stores = s.stores := by
  induction n generalizing s with
  | zero => rfl
  | succ n ih => simp [State.rxForget, ih]
@[simp] theorem State.rxMerge_stores (s : State) (d : DieId) (f p seq : Nat) : (s.rxMerge d f p seq).1.stores = s.stores := by
  unfold State.rxMerge; dsimp only; split <;> simp
@[simp] theorem State.pathUp_stores (s : State) (d : DieId) (f p : Nat) : (s.pathUp d f p).stores = s.stores := by simp [State.pathUp]
@[simp] theorem State.pathDown_stores (s : State) (d : DieId) (f p : Nat) : (s.pathDown d f p).stores = s.stores := by simp [State.pathDown]
@[simp] theorem State.flowColour_stores (s : State) (d : DieId) (f : Nat) (channels : List Nat) :
    (s.flowColour d f channels).stores = s.stores := by
  unfold State.flowColour; split <;> simp
@[simp] theorem State.rxAnc_stores (s : State) (d : DieId) (f q ts : Nat) (marker : Bool) (b : List Byte) :
    (s.rxAnc d f q ts marker b).stores = s.stores := by
  unfold State.rxAnc; repeat split <;> simp
@[simp] theorem State.rxAudio_stores (s : State) (d : DieId) (f ts : Nat) (b : List Byte) : (s.rxAudio d f ts b).stores = s.stores := by
  unfold State.rxAudio; dsimp only; split <;> simp
@[simp] theorem State.forward_stores (s : State) (d : DieId) (sp : Nat) (e : EthFrame) (b : List Byte) (bad : Bool) (idx : Nat) (fw : List Byte) :
    (s.forward d sp e b bad idx fw).stores = s.stores := by
  unfold State.forward; repeat split <;> simp
@[simp] theorem State.linkMove_stores (s : State) (d : DieId) (sp : Nat) (up eyeLow : Bool) :
    (s.linkMove d sp up eyeLow).stores = s.stores := by
  simp [State.linkMove]

/-! What leaves the stores alone: the operations of the unit `Herdbook`. -/

@[simp] theorem State.modHb_stores (s : State) (f : Herdbook → Herdbook) : (s.modHb f).stores = s.stores := by simp [State.modHb]
@[simp] theorem State.clearDone_stores (s : State) : (s.clearDone).stores = s.stores := by unfold State.clearDone; split <;> simp
@[simp] theorem State.hbProgram_stores (s : State) (ok : Bool) :
    (s.hbProgram ok).stores = s.stores := by unfold State.hbProgram; split <;> simp
@[simp] theorem State.hbCommit_stores (s : State) (n : Nat) : (s.hbCommit n).stores = s.stores := by
  unfold State.hbCommit
  induction n with
  | zero => rfl
  | succ n ih => simp [Nat.repeat, ih]
@[simp] theorem State.sectorErased_stores (s : State) : (s.sectorErased).stores = s.stores := by unfold State.sectorErased; split <;> simp
@[simp] theorem State.hbSnap_stores (s : State) : (s.hbSnap).stores = s.stores := by simp [State.hbSnap]
@[simp] theorem State.hbClear_stores (s : State) : (s.hbClear).stores = s.stores := by simp [State.hbClear]

/-! What leaves the stores alone: the operations of the unit `NetTx`. -/

@[simp] theorem Die.modTx_cells (x : Die) (f : Nat) (g : TxFlow → TxFlow) : (x.modTx f g).cells = x.cells := by simp [Die.modTx]
@[simp] theorem State.txQueue_stores (s : State) (d : DieId) (f at_ : Nat) (payload : List Byte) :
    (s.txQueue d f at_ payload).stores = s.stores := by
  unfold State.txQueue
  refine State.stores_foldl_of (fun s p => ?_) rfl
  dsimp only
  split <;> simp
@[simp] theorem State.rtpSend_stores (s : State) (d : DieId) (f at_ ts : Nat) (marker : Bool) (payload : List Byte) :
    (s.rtpSend d f at_ ts marker payload).stores = s.stores := by
  simp [State.rtpSend]
@[simp] theorem State.txVideo_stores (s : State) (d : DieId) (f : Nat) (g : Grid) :
    (s.txVideo d f g).stores = s.stores := by simp [State.txVideo]
@[simp] theorem State.txAnc_stores (s : State) (d : DieId) (f : Nat) (g : Grid) : (s.txAnc d f g).stores = s.stores := by
  unfold State.txAnc
  dsimp only
  repeat' split
  all_goals simp
@[simp] theorem State.txAudio_stores (s : State) (d : DieId) (f : Nat) : (s.txAudio d f).stores = s.stores := by simp [State.txAudio]
@[simp] theorem State.txEntry_stores (s : State) (d : DieId) (f : Nat) (e : Slice) : (s.txEntry d f e).1.stores = s.stores := by
  unfold State.txEntry; repeat split <;> simp
@[simp] theorem State.txSlice_stores (s : State) (d : DieId) (f : Nat) (g : Grid) (e : Slice) : (s.txSlice d f g e).stores = s.stores := by
  unfold State.txSlice; dsimp only; split <;> simp
@[simp] theorem Die.tsPut_cells (x : Die) (f pid : Nat) (start : Bool) (body : List Byte) : (x.tsPut f pid start body).cells = x.cells := by
  simp [Die.tsPut]
@[simp] theorem Die.tsPuts_cells (x : Die) (f pid : Nat) (start : Bool) (body : List Byte) :
    (x.tsPuts f pid start body).cells = x.cells := by
  simp [Die.tsPuts]
@[simp] theorem Die.tsPsi_cells (x : Die) (f : Nat) : (x.tsPsi f).cells = x.cells := by simp [Die.tsPsi]
@[simp] theorem Die.tsAudio_cells (x : Die) (f : Nat) (g : Grid) (e : Slice) : (x.tsAudio f g e).cells = x.cells := by simp [Die.tsAudio]
@[simp] theorem Die.tsBytes_cells (x : Die) (f : Nat) (first last : Bool) (stream : List Byte) :
    (x.tsBytes f first last stream).cells = x.cells := by
  simp [Die.tsBytes]
@[simp] theorem Die.tsSections_cells (x : Die) (f : Nat) (l : List (List Byte)) :
    (x.tsSections f l).cells = x.cells := by simp [Die.tsSections]
@[simp] theorem Die.tsVideo_cells (x : Die) (f : Nat) (g : Grid) (e : Slice) (nals : List (List Byte) × List (List Byte)) :
    (x.tsVideo f g e nals).cells = x.cells := by
  simp [Die.tsVideo]
@[simp] theorem State.splicesDone_stores (s : State) (d : DieId) (e : Slice) :
    (s.splicesDone d e).stores = s.stores := by simp [State.splicesDone]
@[simp] theorem State.txSlices_stores (s : State) (d : DieId) (g : Grid) (e : Slice) : (s.txSlices d g e).stores = s.stores := by
  unfold State.txSlices
  extract_lets fs s'
  have h : s'.stores = s.stores := by
    refine State.stores_foldl_of (fun s r => ?_) rfl
    dsimp only
    split
    · simp
    · split <;> split <;> simp
  simp [h]
@[simp] theorem State.txDatagram_stores (s : State) (d : DieId) (f : Nat) (g : Grid) : (s.txDatagram d f g).stores = s.stores := by
  simp [State.txDatagram]
@[simp] theorem State.packetPosition_stores (s : State) (d : DieId) (f : Nat) : (s.packetPosition d f).stores = s.stores := by
  unfold State.packetPosition; repeat split <;> simp

/-! What leaves the stores alone: the operations of the unit `Pairing`. -/

@[simp] theorem Die.modMr_cells (x : Die) (f : Pairing → Pairing) : (x.modMr f).cells = x.cells := by simp [Die.modMr]
@[simp] theorem Die.modPail_cells (x : Die) (p : Nat) (f : PailSt → PailSt) : (x.modPail p f).cells = x.cells := by simp [Die.modPail]
@[simp] theorem Die.showDiverged_cells (x : Die) (p : Nat) : (x.showDiverged p).cells = x.cells := by simp [Die.showDiverged]
@[simp] theorem Die.setRole_cells (x : Die) (p r : Nat) : (x.setRole p r).cells = x.cells := by simp [Die.setRole]
@[simp] theorem Die.setLimit_cells (x : Die) (p : Nat) (m : Int) : (x.setLimit p m).cells = x.cells := by
  unfold Die.setLimit; dsimp only; split <;> simp
@[simp] theorem State.sendWhey_stores (s : State) (d : DieId) (i : LeaseItem) :
    (s.sendWhey d i).stores = s.stores := by simp [State.sendWhey]
@[simp] theorem State.sendItem_stores (s : State) (d : DieId) (i : LeaseItem) :
    (s.sendItem d i).stores = s.stores := by simp [State.sendItem]
@[simp] theorem State.sendControl_stores (s : State) (d : DieId) (m : CtlMsg) (bytes : Nat) :
    (s.sendControl d m bytes).stores = s.stores := by
  simp [State.sendControl]
@[simp] theorem State.sendPlan_stores (s : State) (d : DieId) (m : PlanMsg) (bytes : Nat) : (s.sendPlan d m bytes).stores = s.stores := by
  simp [State.sendPlan]
@[simp] theorem State.hbHandOver_stores (s : State) (d : DieId) : (s.hbHandOver d).stores = s.stores := by
  unfold State.hbHandOver; repeat split <;> simp
@[simp] theorem State.bootSlot_stores (s : State) (d : DieId) : (s.bootSlot d).stores = s.stores := by
  unfold State.bootSlot
  dsimp only
  repeat' split
  all_goals simp
@[simp] theorem State.rotationSlot_stores (s : State) (d : DieId) : (s.rotationSlot d).stores = s.stores := by simp [State.rotationSlot]
@[simp] theorem State.heartbeatSend_stores (s : State) (d : DieId) : (s.heartbeatSend d).stores = s.stores := by simp [State.heartbeatSend]
@[simp] theorem State.linkPop_stores (s : State) (d : DieId) : (s.linkPop d).stores = s.stores := by simp [State.linkPop]
@[simp] theorem State.linkRecord_stores (s : State) (d : DieId) (cls : Nat) (ok : Bool) (f : State → LinkRec → State)
    (h : ∀ t r, (f t r).stores = t.stores) :
    (s.linkRecord d cls ok f).stores = s.stores := by
  unfold State.linkRecord
  split
  · rfl
  · simp [h]
@[simp] theorem State.timingRecord_stores (s : State) (d : DieId) (r : LinkRec) : (s.timingRecord d r).stores = s.stores := by
  unfold State.timingRecord; split <;> simp
@[simp] theorem State.itemIn_stores (s : State) (d : DieId) (ty : Nat) (ok : Bool) (f : State → LeaseItem → Bool → State)
    (h : ∀ t i w, (f t i w).stores = t.stores) :
    (s.itemIn d ty ok f).stores = s.stores := by
  unfold State.itemIn
  dsimp only
  split <;> split <;> simp [h]
  split <;> simp [h]
@[simp] theorem State.itemHeard_stores (s : State) (d : DieId) : (s.itemHeard d).stores = s.stores := by simp [State.itemHeard]
@[simp] theorem Die.pruneUnits_cells (x : Die) : (x.pruneUnits).cells = x.cells := by simp [Die.pruneUnits]
@[simp] theorem State.sendPail_stores (s : State) (d : DieId) (p ty : Nat) (m line : Int) :
    (s.sendPail d p ty m line).stores = s.stores := by
  unfold State.sendPail; split <;> simp
@[simp] theorem State.renewSend_stores (s : State) (d : DieId) (p : Nat) (m : Int) : (s.renewSend d p m).stores = s.stores := by
  simp [State.renewSend]
@[simp] theorem Die.freeUnits_cells (x : Die) (p : Nat) (m : Int) : (x.freeUnits p m).cells = x.cells := by simp [Die.freeUnits]
@[simp] theorem State.pailEvent_stores (s : State) (d : DieId) (f : Fld) (p value : Nat) : (s.pailEvent d f p value).stores = s.stores := by
  simp [State.pailEvent]
@[simp] theorem State.renewIn_stores (s : State) (d : DieId) (i : LeaseItem) (whey : Bool) : (s.renewIn d i whey).stores = s.stores := by
  simp [State.renewIn]
@[simp] theorem State.ackIn_stores (s : State) (d : DieId) (i : LeaseItem) (whey : Bool) : (s.ackIn d i whey).stores = s.stores := by
  simp [State.ackIn]
@[simp] theorem State.handoverIn_stores (s : State) (d : DieId) (i : LeaseItem) (whey : Bool) :
    (s.handoverIn d i whey).stores = s.stores := by
  simp [State.handoverIn]
@[simp] theorem Die.resendUnits_cells (x : Die) (p : Nat) : (x.resendUnits p).cells = x.cells := by simp [Die.resendUnits]
@[simp] theorem State.holdPail_stores (s : State) (d : DieId) (p : Nat) (m : Int) (uncond : Bool) :
    (s.holdPail d p m uncond).stores = s.stores := by
  simp [State.holdPail]
@[simp] theorem State.takePail_stores (s : State) (d : DieId) (p : Nat) (m : Int) (value : Nat) :
    (s.takePail d p m value).stores = s.stores := by
  unfold State.takePail; split <;> simp
@[simp] theorem State.leaseExpiry_stores (s : State) (d : DieId) (p : Nat) : (s.leaseExpiry d p).stores = s.stores := by
  unfold State.leaseExpiry; dsimp only; split <;> simp
@[simp] theorem State.pailTake_stores (s : State) (d : DieId) (p : Nat) : (s.pailTake d p).stores = s.stores := by
  unfold State.pailTake; dsimp only; split <;> simp
@[simp] theorem State.handoverStart_stores (s : State) (d : DieId) (p : Nat) : (s.handoverStart d p).stores = s.stores := by
  simp [State.handoverStart]
@[simp] theorem State.handoverLine_stores (s : State) (d : DieId) (p : Nat) : (s.handoverLine d p).stores = s.stores := by
  unfold State.handoverLine; repeat split <;> simp
@[simp] theorem State.seizePail_stores (s : State) (d : DieId) (p : Nat) : (s.seizePail d p).stores = s.stores := by simp [State.seizePail]
@[simp] theorem State.sliceDiverged_stores (s : State) (d : DieId) (own peer_ : Chk) : (s.sliceDiverged d own peer_).stores = s.stores := by
  simp [State.sliceDiverged]
@[simp] theorem State.rejoined_stores (s : State) (d : DieId) (p : Nat) : (s.rejoined d p).stores = s.stores := by simp [State.rejoined]
@[simp] theorem State.pictureCompared_stores (s : State) (d : DieId) (c : Chk) (clean : Bool) :
    (s.pictureCompared d c clean).stores = s.stores := by
  simp [State.pictureCompared]
@[simp] theorem State.policyHandover_stores (s : State) (d : DieId) (own peer_ : Chk) :
    (s.policyHandover d own peer_).stores = s.stores := by
  simp [State.policyHandover]
@[simp] theorem State.compareSlice_stores (s : State) (d : DieId) (own peer_ : Chk) : (s.compareSlice d own peer_).stores = s.stores := by
  simp [State.compareSlice]
@[simp] theorem State.checkIn_stores (s : State) (d : DieId) (c : Chk) : (s.checkIn d c).stores = s.stores := by
  unfold State.checkIn; dsimp only; split <;> simp
@[simp] theorem State.checkMade_stores (s : State) (d : DieId) (c : Chk) : (s.checkMade d c).stores = s.stores := by
  unfold State.checkMade; dsimp only; split <;> simp
@[simp] theorem State.checkSlices_stores (s : State) (d : DieId) (m : Int) (e : Slice) : (s.checkSlices d m e).stores = s.stores := by
  simp [State.checkSlices]
@[simp] theorem State.unchecked_stores (s : State) (d : DieId) : (s.unchecked d).stores = s.stores := by
  unfold State.unchecked
  split <;> [split; skip] <;> simp
@[simp] theorem State.checkRecord_stores (s : State) (d : DieId) (r : LinkRec) : (s.checkRecord d r).stores = s.stores := by
  unfold State.checkRecord; split <;> simp
@[simp] theorem State.resyncGoal_stores (s : State) (d : DieId) (p : Nat) : (s.resyncGoal d p).stores = s.stores := by
  unfold State.resyncGoal; dsimp only; split <;> simp
@[simp] theorem State.resyncStart_stores (s : State) (d : DieId) (p : Nat) :
    (s.resyncStart d p).stores = s.stores := by simp [State.resyncStart]
@[simp] theorem State.resyncSnapshot_stores (s : State) (h : DieId) (p : Nat) (frame : Int) :
    (s.resyncSnapshot h p frame).stores = s.stores := by
  unfold State.resyncSnapshot; dsimp only; split <;> simp
@[simp] theorem State.resyncClosing_stores (s : State) (h : DieId) (p : Nat) : (s.resyncClosing h p).stores = s.stores := by
  unfold State.resyncClosing; dsimp only; split <;> simp
@[simp] theorem State.resyncClosed_stores (s : State) (d : DieId) (p : Nat) (encs : List (Nat × EncChan)) (flows : List (Nat × TxFlow))
    (queues : List (Nat × Bool × EgQueue)) (shapers : List (Nat × Bucket)) :
    (s.resyncClosed d p encs flows queues shapers).stores = s.stores := by
  unfold State.resyncClosed; split <;> simp
@[simp] theorem State.planArrived_stores (s : State) (d : DieId) (n1 : PlanMsg) : (s.planArrived d n1).stores = s.stores := by
  unfold State.planArrived; split <;> simp
@[simp] theorem State.planRecord_stores (s : State) (d : DieId) (r : LinkRec) : (s.planRecord d r).stores = s.stores := by
  unfold State.planRecord; split <;> simp
@[simp] theorem State.sendSections_stores (s : State) (d : DieId) (p : Plan) :
    (s.sendSections d p).stores = s.stores := by simp [State.sendSections]
@[simp] theorem State.pailPulse_stores (s : State) (d : DieId) (p : Nat) (g : Grid) (m : Int) :
    (s.pailPulse d p g m).stores = s.stores := by
  simp [State.pailPulse]
@[simp] theorem State.linkTrained_stores (s : State) (d : DieId) (delay : Nat) : (s.linkTrained d delay).stores = s.stores := by
  unfold State.linkTrained; repeat split <;> simp
@[simp] theorem State.linkDown_stores (s : State) (d : DieId) : (s.linkDown d).1.stores = s.stores := by simp [State.linkDown]
@[simp] theorem State.heartbeatIn_stores (s : State) (d : DieId) (ok : Bool) :
    (s.heartbeatIn d ok).stores = s.stores := by simp [State.heartbeatIn]
@[simp] theorem State.wheyLost_stores (s : State) (d : DieId) : (s.wheyLost d).stores = s.stores := by unfold State.wheyLost; split <;> simp

/-! What leaves the stores alone: the operations of the unit `Perturb`. -/

@[simp] theorem State.seeSupply_stores (s : State) : (s.seeSupply).stores = s.stores := by simp [State.seeSupply]
@[simp] theorem Die.showPert_cells (x : Die) : (x.showPert).cells = x.cells := by simp [Die.showPert]
@[simp] theorem Die.pertArmed_cells (x : Die) (u : Nat) : (x.pertArmed u).cells = x.cells := by simp [Die.pertArmed]
@[simp] theorem State.pertStart_stores (s : State) (d : DieId) (u : Nat) : (s.pertStart d u).stores = s.stores := by
  unfold State.pertStart; dsimp only; split <;> simp
@[simp] theorem State.pertStop_stores (s : State) (d : DieId) (u : Nat) : (s.pertStop d u).stores = s.stores := by simp [State.pertStop]
@[simp] theorem State.pertEnd_stores (s : State) (d : DieId) (u : Nat) : (s.pertEnd d u).stores = s.stores := by
  unfold State.pertEnd; dsimp only; split <;> simp
@[simp] theorem State.pertDisarm_stores (s : State) (d : DieId) : (s.pertDisarm d).stores = s.stores := by simp [State.pertDisarm]
@[simp] theorem State.endTest_stores (s : State) : (s.endTest).stores = s.stores := by simp [State.endTest]

/-! What leaves the stores alone: the operations of the unit `Security`. -/

@[simp] theorem State.newNonce_stores (s : State) : (s.newNonce).stores = s.stores := by simp [State.newNonce]
@[simp] theorem State.bootResult_stores (s : State) (code other : Nat) (fallback : Bool) :
    (s.bootResult code other fallback).stores = s.stores := by
  simp [State.bootResult]
@[simp] theorem State.recover_stores (s : State) : (s.recover).stores = s.stores := by simp [State.recover]
@[simp] theorem State.bootRegs_stores (s : State) (d : DieId) (f : Firmware) :
    (s.bootRegs d f).stores = s.stores := by simp [State.bootRegs]
@[simp] theorem State.coldStart_stores (s : State) (d : DieId) : (s.coldStart d).stores = s.stores := by simp [State.coldStart]
@[simp] theorem State.sendRelease_stores (s : State) (f : Firmware) : (s.sendRelease f).stores = s.stores := by simp [State.sendRelease]
@[simp] theorem State.bistStart_stores (s : State) (d : DieId) : (s.bistStart d).stores = s.stores := by simp [State.bistStart]
@[simp] theorem State.releaseDie1_stores (s : State) (confirms : Bool) : (s.releaseDie1 confirms).1.stores = s.stores := by
  unfold State.releaseDie1; split <;> simp
@[simp] theorem State.bootDie0_stores (s : State) (size : Option Nat) : (s.bootDie0 size).stores = s.stores := by
  unfold State.bootDie0
  dsimp only
  repeat' split
  all_goals simp
@[simp] theorem State.bootDie1_stores (s : State) (die1Ok : Bool) :
    (s.bootDie1 die1Ok).stores = s.stores := by unfold State.bootDie1; split <;> simp
@[simp] theorem State.bootRom_stores (s : State) (d : DieId) (size : Option Nat) (die1Ok : Bool) :
    (s.bootRom d size die1Ok).stores = s.stores := by
  simp [State.bootRom]
@[simp] theorem State.swapDone_stores (s : State) : (s.swapDone).stores = s.stores := by unfold State.swapDone; split <;> simp
@[simp] theorem State.startBurn_stores (s : State) (d : DieId) (k : BurnKind) (bits : Nat) : (s.startBurn d k bits).stores = s.stores := by
  simp [State.startBurn]
@[simp] theorem State.stopBurn_stores (s : State) (d : DieId) : (s.stopBurn d).stores = s.stores := by simp [State.stopBurn]
@[simp] theorem State.closeSlot_stores (s : State) (d : DieId) (k : Nat) : (s.closeSlot d k).stores = s.stores := by simp [State.closeSlot]
@[simp] theorem State.shareKeys_stores (s : State) : (s.shareKeys).stores = s.stores := by simp [State.shareKeys]
@[simp] theorem State.commitFw_stores (s : State) : (s.commitFw).stores = s.stores := by unfold State.commitFw; split <;> simp
@[simp] theorem State.commitPlan_stores (s : State) : (s.commitPlan).stores = s.stores := by unfold State.commitPlan; split <;> simp
@[simp] theorem State.tokenWrite_stores (s : State) : (s.tokenWrite).stores = s.stores := by simp [State.tokenWrite]
@[simp] theorem State.takeToken_stores (s : State) (ty : Nat) (f : Token → State → State) (h : ∀ k t, (f k t).stores = t.stores) :
    (s.takeToken ty f).stores = s.stores := by
  unfold State.takeToken
  split
  · split <;> simp [h]
  · rfl
@[simp] theorem State.keyAdd_stores (s : State) : (s.keyAdd).stores = s.stores := by simp [State.keyAdd]
@[simp] theorem State.keyRevoke_stores (s : State) : (s.keyRevoke).stores = s.stores := by simp [State.keyRevoke]
@[simp] theorem State.macInstall_stores (s : State) : (s.macInstall).stores = s.stores := by simp [State.macInstall]
@[simp] theorem State.macRevoke_stores (s : State) : (s.macRevoke).stores = s.stores := by
  refine State.takeToken_stores s 4 _ fun t s => ?_
  split <;> simp
@[simp] theorem State.testStart_stores (s : State) (d : DieId) (scope end_ : Nat) : (s.testStart d scope end_).stores = s.stores := by
  simp [State.testStart]
@[simp] theorem State.testGrant_stores (s : State) : (s.testGrant).stores = s.stores := by simp [State.testGrant]
@[simp] theorem State.testOver_stores (s : State) : (s.testOver).stores = s.stores := by simp [State.testOver]
@[simp] theorem State.testExpiry_stores (s : State) : (s.testExpiry).stores = s.stores := by unfold State.testExpiry; split <;> simp
@[simp] theorem State.clearGrant_stores (s : State) : (s.clearGrant).stores = s.stores := by simp [State.clearGrant]
@[simp] theorem State.clearExpiry_stores (s : State) : (s.clearExpiry).stores = s.stores := by unfold State.clearExpiry; split <;> simp
@[simp] theorem State.quote_stores (s : State) (d : DieId) : (s.quote d).stores = s.stores := by simp [State.quote]
@[simp] theorem State.quoteDone_stores (s : State) (d : DieId) :
    (s.quoteDone d).stores = s.stores := by unfold State.quoteDone; split <;> simp
@[simp] theorem State.swap_stores (s : State) : (s.swap).stores = s.stores := by simp [State.swap]

/-! What leaves the stores alone: the operations of the unit `SelfTest`. -/

@[simp] theorem State.failReport_stores (s : State) (d : DieId) (f : BistFail) (online repaired : Bool) :
    (s.failReport d f online repaired).stores = s.stores := by
  simp [State.failReport]
@[simp] theorem State.bistFail_stores (s : State) (d : DieId) (f : BistFail) :
    (s.bistFail d f).stores = s.stores := by simp [State.bistFail]
@[simp] theorem Die.bistResult_cells (x : Die) (fails : List BistFail) (b : Nat) :
    (x.bistResult fails b).cells = x.cells := by simp [Die.bistResult]
@[simp] theorem State.bistTurnOf_stores (s : State) (d : DieId) : (s.bistTurnOf d).stores = s.stores := by
  unfold State.bistTurnOf; repeat split <;> simp
@[simp] theorem State.bistTurn_stores (s : State) : (s.bistTurn).stores = s.stores := by simp [State.bistTurn]
@[simp] theorem State.bistDone_stores (s : State) (d : DieId) (fails : List BistFail) (refclk : List Nat) :
    (s.bistDone d fails refclk).stores = s.stores := by
  simp [State.bistDone]
@[simp] theorem State.fuseRepair_stores (s : State) (d : DieId) : (s.fuseRepair d).stores = s.stores := by simp [State.fuseRepair]

/-! What leaves the stores alone: the operations of the unit `Reset`. -/

@[simp] theorem Die.lose_cells (x : Die) (groups : Nat) : (x.lose groups).cells = x.cells := by simp [Die.lose]
@[simp] theorem State.closeSlots_stores (s : State) (d : DieId) : (s.closeSlots d).stores = s.stores := by simp [State.closeSlots]
@[simp] theorem State.loseRecords_stores (s : State) (d : DieId) : (s.loseRecords d).stores = s.stores := by simp [State.loseRecords]
@[simp] theorem State.resetRecords_stores (s : State) (d : DieId) : (s.resetRecords d).stores = s.stores := by simp [State.resetRecords]
@[simp] theorem State.losePlans_stores (s : State) : (s.losePlans).stores = s.stores := by simp [State.losePlans]
@[simp] theorem State.resumePowerOn_stores (s : State) : (s.resumePowerOn).stores = s.stores := by simp [State.resumePowerOn]
@[simp] theorem State.resetRelease_stores (s : State) : (s.resetRelease).stores = s.stores := by simp [State.resetRelease]

/-! What leaves the stores alone: the operations of the unit `Thermal`. -/

@[simp] theorem State.tjEvent_stores (s : State) (d : DieId) (f : Fld) (sensor : Nat) : (s.tjEvent d f sensor).stores = s.stores := by
  simp [State.tjEvent]
@[simp] theorem State.exclude_stores (s : State) (d : DieId) (i : Nat) (out : Bool) :
    (s.exclude d i out).stores = s.stores := by simp [State.exclude]
@[simp] theorem State.tjSample_stores (s : State) (d : DieId) (i : Nat) (v : Int) :
    (s.tjSample d i v).stores = s.stores := by simp [State.tjSample]
@[simp] theorem State.thermalRestart_stores (s : State) (d : DieId) : (s.thermalRestart d).stores = s.stores := by
  unfold State.thermalRestart; dsimp only; split <;> simp
@[simp] theorem State.ageTick_stores (s : State) (d : DieId) : (s.ageTick d).stores = s.stores := by
  unfold State.ageTick
  dsimp only
  repeat' split
  all_goals simp

/-! What leaves the stores alone: the operations of the unit `Power`. -/

@[simp] theorem State.supplyWarn_stores (s : State) (d : DieId) : (s.supplyWarn d).stores = s.stores := by simp [State.supplyWarn]
@[simp] theorem State.supplyOk_stores (s : State) (d : DieId) : (s.supplyOk d).stores = s.stores := by simp [State.supplyOk]
@[simp] theorem State.warnCfgWritten_stores (s : State) (d : DieId) :
    (s.warnCfgWritten d).stores = s.stores := by simp [State.warnCfgWritten]
@[simp] theorem State.ovWarn_stores (s : State) (d : DieId) (on : Bool) : (s.ovWarn d on).stores = s.stores := by simp [State.ovWarn]
@[simp] theorem State.vinSample_stores (s : State) (d : DieId) (mv : Int) (energy : List Nat) :
    (s.vinSample d mv energy).stores = s.stores := by
  simp [State.vinSample]
@[simp] theorem Die.pwSnap_cells (x : Die) : (x.pwSnap).cells = x.cells := by simp [Die.pwSnap]
@[simp] theorem State.regLimit_stores (s : State) (d : DieId) (domain : Nat) (on : Bool) : (s.regLimit d domain on).stores = s.stores := by
  simp [State.regLimit]
@[simp] theorem State.showState_stores (s : State) (state : Nat) (changing : Bool) : (s.showState state changing).stores = s.stores := by
  simp [State.showState]
@[simp] theorem State.stateStart_stores (s : State) (target : Nat) : (s.stateStart target).stores = s.stores := by simp [State.stateStart]
@[simp] theorem State.lanesOff_stores (s : State) (d : DieId) : (s.lanesOff d).stores = s.stores := by simp [State.lanesOff]
@[simp] theorem State.portsDown_stores (s : State) (d : DieId) (stays : Option Nat) : (s.portsDown d stays).stores = s.stores := by
  simp [State.portsDown]
@[simp] theorem State.standbyDie_stores (s : State) (d : DieId) : (s.standbyDie d).stores = s.stores := by simp [State.standbyDie]
@[simp] theorem State.stateEvent_stores (s : State) (target : Nat) : (s.stateEvent target).stores = s.stores := by simp [State.stateEvent]
@[simp] theorem State.wake_stores (s : State) : (s.wake).stores = s.stores := by simp [State.wake]

/-! What leaves the stores alone: the operations of the unit `Setup`. -/

@[simp] theorem Die.takeHeader_cells (x : Die) (d : DieId) (p : Plan) : (x.takeHeader d p).cells = x.cells := by simp [Die.takeHeader]
@[simp] theorem Die.takeCad_cells (x : Die) (d : DieId) (p : Plan) (c : Nat) : (x.takeCad d p c).cells = x.cells := by simp [Die.takeCad]

/-! What leaves the stores alone: the operations of the unit `Switch`. -/

@[simp] theorem Die.clearCounters_cells (x : Die) : (x.clearCounters).cells = x.cells := by simp [Die.clearCounters]
@[simp] theorem Move.regs_cells (m : Move) (x fo fn : Die) (old new : List Sect) : (m.regs x fo fn old new).1.cells = x.cells := by
  unfold Move.regs
  refine foldl_keeps (fun p : Die × Nat => p.1.cells) _ (fun p a => ?_) _ _
  dsimp only
  split <;> simp
@[simp] theorem Die.takeQueue_cells (x fn : Die) (q : QId) : (x.takeQueue fn q).cells = x.cells := by simp [Die.takeQueue]
@[simp] theorem Die.takeLane_cells (x was fn : Die) (k : Nat) : (x.takeLane was fn k).cells = x.cells := by simp [Die.takeLane]
@[simp] theorem Die.takeChan_cells (x was fn : Die) (d : DieId) (n : Nat) :
    (x.takeChan was fn d n).cells = x.cells := by simp [Die.takeChan]
@[simp] theorem Die.contInst_cells (x was fn : Die) (i : Inst) :
    (x.contInst was fn i).cells = x.cells := by unfold Die.contInst; split <;> simp
@[simp] theorem Die.startMem_cells (x : Die) (r : MemRef) : (x.startMem r).cells = x.cells := by simp [Die.startMem]
@[simp] theorem Die.startInst_cells (x : Die) (d : DieId) (now : Nat) (i : Inst) : (x.startInst d now i).cells = x.cells := by
  unfold Die.startInst; split <;> simp
@[simp] theorem Die.startXs_cells (x : Die) (d : DieId) : (x.startXs d).cells = x.cells := by simp [Die.startXs]
@[simp] theorem Die.startCad_cells (x : Die) (d : DieId) (now c : Nat) : (x.startCad d now c).cells = x.cells := by simp [Die.startCad]
@[simp] theorem Die.moveThread_cells (x fn : Die) (endAt n : Nat) : (x.moveThread fn endAt n).cells = x.cells := by simp [Die.moveThread]
@[simp] theorem Die.cmpWords_cells (x fn : Die) (u : Nat) : (x.cmpWords fn u).cells = x.cells := by simp [Die.cmpWords]
@[simp] theorem Move.compare_stores (m : Move) (fn : Die) (fate : Cross) (owner : Option Nat) (u : Nat) (s : State) :
    (m.compare fn fate owner u s).stores = s.stores := by
  unfold Move.compare; split <;> simp
@[simp] theorem State.moveLane_stores (s : State) (d : DieId) (k : Nat) : (s.moveLane d k).stores = s.stores := by simp [State.moveLane]
@[simp] theorem Die.moveBlocks_cells (x was : Die) : (x.moveBlocks was).cells = x.cells := by simp [Die.moveBlocks]
@[simp] theorem Die.moveRegions_cells (x was : Die) : (x.moveRegions was).cells = x.cells := by simp [Die.moveRegions]

/-! What leaves the stores alone: the operations of the unit `Plans`. -/

@[simp] theorem State.modPlans_stores (s : State) (f : Plans → Plans) : (s.modPlans f).stores = s.stores := by simp [State.modPlans]
@[simp] theorem State.withSource_stores (s : State) (f : State → State) (h : ∀ t, (f t).stores = t.stores) :
    (s.withSource f).stores = s.stores := by
  simp [State.withSource, h]
@[simp] theorem State.switchCad_stores (s : State) (d : DieId) (p : Plan) (c : Nat) (m : Int) :
    (s.switchCad d p c m).stores = s.stores := by
  unfold State.switchCad; dsimp only; split <;> simp
@[simp] theorem State.switchDie_stores (s : State) (d : DieId) (p : Plan) : (s.switchDie d p).stores = s.stores := by simp [State.switchDie]
@[simp] theorem Die.freeCmps_cells (x : Die) (d : DieId) (o p : Plan) : (x.freeCmps d o p).cells = x.cells := by simp [Die.freeCmps]
@[simp] theorem State.switchCmps_stores (s : State) (d : DieId) (c : Option Nat) (p : Plan) : (s.switchCmps d c p).stores = s.stores := by
  unfold State.switchCmps; split <;> simp
@[simp] theorem State.switchBrown_stores (s : State) (d : DieId) (c : Nat) (p : Plan) : (s.switchBrown d c p).stores = s.stores := by
  simp [State.switchBrown]
@[simp] theorem State.plEvent_stores (s : State) (f : Fld) (detail : Nat) :
    (s.plEvent f detail).stores = s.stores := by simp [State.plEvent]
@[simp] theorem State.brownEvent_stores (s : State) (before : List Nat) :
    (s.brownEvent before).stores = s.stores := by simp [State.brownEvent]
@[simp] theorem State.plResult_stores (s : State) (f : Fail) : (s.plResult f).stores = s.stores := by simp [State.plResult]
@[simp] theorem State.plRefused_stores (s : State) (f : Fail) : (s.plRefused f).stores = s.stores := by simp [State.plRefused]
@[simp] theorem State.admitStart_stores (s : State) (src : Nat) (startPlan : Bool) : (s.admitStart src startPlan).stores = s.stores := by
  simp [State.admitStart]
@[simp] theorem State.switchStart_stores (s : State) (t0 t1 : Nat) : (s.switchStart t0 t1).stores = s.stores := by simp [State.switchStart]
@[simp] theorem State.checkDone_stores (s : State) (j : AdmitJob) (r : Fail ⊕ Plan) (value : Nat) :
    (s.checkDone j r value).stores = s.stores := by
  unfold State.checkDone; split <;> simp
@[simp] theorem State.plBusyResult_stores (s : State) : (s.plBusyResult).stores = s.stores := by simp [State.plBusyResult]
@[simp] theorem State.plCancel_stores (s : State) : (s.plCancel).stores = s.stores := by simp [State.plCancel]
@[simp] theorem State.plCtrl_stores (s : State) (d : DieId) (v : Nat) : (s.plCtrl d v).stores = s.stores := by simp [State.plCtrl]
@[simp] theorem State.rwlApply_stores (s : State) (d : DieId) (c : Nat) : (s.rwlApply d c).stores = s.stores := by
  unfold State.rwlApply; split <;> simp
@[simp] theorem State.powerOver_stores (s : State) (d : DieId) (block mw : Nat) : (s.powerOver d block mw).stores = s.stores := by
  simp [State.powerOver]
@[simp] theorem State.dramTrained_stores (s : State) (d : DieId) (failed : List Nat) : (s.dramTrained d failed).stores = s.stores := by
  unfold State.dramTrained; repeat split <;> simp
@[simp] theorem State.planReset_stores (s : State) : (s.planReset).stores = s.stores := by simp [State.planReset]

/-! What leaves the stores alone: the operations of the unit `RegRead`. -/

@[simp] theorem State.readEffect_stores (s : State) (a : Nat) : (s.readEffect a).stores = s.stores := by simp [State.readEffect]

/-! What leaves the stores alone: the operations of the unit `RegWrite`. -/

@[simp] theorem State.rapWrite_stores (s : State) (d : DieId) (n : Nat) : (s.rapWrite d n).stores = s.stores := by simp [State.rapWrite]
@[simp] theorem State.rateWrite_stores (s : State) (d : DieId) (n field : Nat) (v : W32) : (s.rateWrite d n field v).stores = s.stores := by
  simp [State.rateWrite]
@[simp] theorem State.poolWrite_stores (s : State) (d : DieId) (p : Nat) (v : W32) : (s.poolWrite d p v).stores = s.stores := by
  simp [State.poolWrite]
@[simp] theorem State.commitWrite_stores (s : State) (d : DieId) (n mask : Nat) : (s.commitWrite d n mask).stores = s.stores := by
  simp [State.commitWrite]
@[simp] theorem Die.threadRestart_cells (x : Die) (n : Nat) : (x.threadRestart n).cells = x.cells := by simp [Die.threadRestart]
@[simp] theorem State.dmaCtrl_stores (s : State) (d : DieId) (n v : Nat) : (s.dmaCtrl d n v).stores = s.stores := by simp [State.dmaCtrl]
@[simp] theorem State.pwCtrl_stores (s : State) (d : DieId) (v : Nat) : (s.pwCtrl d v).stores = s.stores := by simp [State.pwCtrl]
@[simp] theorem State.tbCtrl_stores (s : State) (d : DieId) (v : Nat) : (s.tbCtrl d v).stores = s.stores := by simp [State.tbCtrl]
@[simp] theorem State.scCtrl_stores (s : State) (d : DieId) (v : Nat) : (s.scCtrl d v).stores = s.stores := by simp [State.scCtrl]
@[simp] theorem State.mrCtrl_stores (s : State) (d : DieId) (v : Nat) : (s.mrCtrl d v).stores = s.stores := by simp [State.mrCtrl]
@[simp] theorem State.hbCtrl_stores (s : State) (v : Nat) : (s.hbCtrl v).stores = s.stores := by simp [State.hbCtrl]
@[simp] theorem State.tbModeWritten_stores (s : State) (d : DieId) (old : W32) : (s.tbModeWritten d old).stores = s.stores := by
  simp [State.tbModeWritten]
@[simp] theorem State.hostServe_stores (s : State) (d : DieId) (wr : Sys2Proof.Writer) (r : RegDesc) (i : Nat) :
    (s.hostServe d wr r i).stores = s.stores := by
  unfold State.hostServe
  split <;> [skip; split] <;> simp
@[simp] theorem State.hook_stores (s : State) (d : DieId) (r : RegDesc) (i : Nat) (v old : W32) :
    (s.hook d r i v old).stores = s.stores := by
  unfold State.hook; split <;> simp
@[simp] theorem State.writeWord_stores (s : State) (d : DieId) (wr : Sys2Proof.Writer) (a : Nat) (v : W32) :
    (s.writeWord d wr a v).stores = s.stores := by
  unfold State.writeWord; split <;> simp
@[simp] theorem State.writeWords_stores (s : State) (d : DieId) (wr : Sys2Proof.Writer) (ws : Words) :
    (s.writeWords d wr ws).stores = s.stores := by
  simp [State.writeWords]
@[simp] theorem State.regWrite_stores (s : State) (d : DieId) (wr : Sys2Proof.Writer) (ws : Words) :
    (s.regWrite d wr ws).1.stores = s.stores := by
  unfold State.regWrite; split <;> simp
@[simp] theorem State.busyResult_stores (s : State) (a v code : Nat) :
    (s.busyResult a v code).stores = s.stores := by simp [State.busyResult]

/-! What leaves the stores alone: the operations of the unit `RegCmds`. -/

@[simp] theorem State.coreRefused_stores (s : State) (d : DieId) (c a code : Nat) : (s.coreRefused d c a code).stores = s.stores := by
  simp [State.coreRefused]
@[simp] theorem State.command_stores (s : State) (d : DieId) (wr : Sys2Proof.Writer) (a : Nat) (v : W32) :
    (s.command d wr a v).stores = s.stores := by
  unfold State.command
  split
  · rfl
  · split
    · simp
    · split
      · rename_i t h
        simpa [h] using State.regWrite_stores s d wr [(a, v)]
      · dsimp only
        split <;> simp

/-! What leaves the stores alone: the operations of the unit `CoreMem`. -/

@[simp] theorem State.coreGo_stores (s : State) (d : DieId) (c n cycles : Nat) (f : CoreRegs → CoreRegs) :
    (s.coreGo d c n cycles f).stores = s.stores := by
  simp [State.coreGo]
@[simp] theorem State.regLoad_stores (s : State) (d : DieId) (a : Nat) : (s.regLoad d a).2.stores = s.stores := by simp [State.regLoad]
@[simp] theorem State.coreLoad_stores (s : State) (d : DieId) (c op rd ra : Nat) (imm : W16) (size : Nat) (e : Ecc) :
    (s.coreLoad d c op rd ra imm size e).stores = s.stores := by
  refine State.coreDo_stores s d c _ fun n s => ?_
  dsimp only
  split
  · simp
  · split
    · simp
    · split <;> simp
@[simp] theorem State.coreStore_stores (s : State) (d : DieId) (c op rd ra : Nat) (imm : W16) (size : Nat) (e : Ecc) :
    (s.coreStore d c op rd ra imm size e).stores = s.stores := by
  refine State.coreDo_stores s d c _ fun n s => ?_
  dsimp only
  split
  · simp
  · split
    · simp
    · split <;> simp

/-! What leaves the stores alone: the operations of the unit `Hub`. -/

@[simp] theorem State.vatClock_stores (s : State) (d : DieId) : (s.vatClock d).2.stores = s.stores := by simp [State.vatClock]
@[simp] theorem State.tileWindowEnd_stores (s : State) (d : DieId) (c t cycles : Nat) :
    (s.tileWindowEnd d c t cycles).stores = s.stores := by
  simp [State.tileWindowEnd]
@[simp] theorem State.windowEnd_stores (s : State) (d : DieId) (c t : Nat) :
    (s.windowEnd d c t).stores = s.stores := by simp [State.windowEnd]
@[simp] theorem Die.windowOpen_cells (x : Die) (c line : Nat) : (x.windowOpen c line).cells = x.cells := by
  unfold Die.windowOpen
  refine Die.cells_foldl_of (fun x t => ?_) rfl
  split <;> simp
@[simp] theorem Die.windowShut_cells (x : Die) (c : Nat) : (x.windowShut c).cells = x.cells := by simp [Die.windowShut]
@[simp] theorem Die.regionsSelf_cells (x : Die) (c : Nat) (self : Bool) :
    (x.regionsSelf c self).cells = x.cells := by simp [Die.regionsSelf]
@[simp] theorem State.sendDecisions_stores (s : State) (c : Nat) : (s.sendDecisions c).stores = s.stores := by
  unfold State.sendDecisions
  refine State.stores_foldl_of (fun s n => ?_) rfl
  split
  · rfl
  · split <;> simp
@[simp] theorem Die.threadTimes_cells (x : Die) : (x.threadTimes).cells = x.cells := by simp [Die.threadTimes]
@[simp] theorem Die.dmaLine_cells (x : Die) (c now : Nat) : (x.dmaLine c now).cells = x.cells := by simp [Die.dmaLine]
@[simp] theorem State.dmaFrame_stores (s : State) (d : DieId) (c : Nat) : (s.dmaFrame d c).stores = s.stores := by simp [State.dmaFrame]
@[simp] theorem State.anyPart_stores (s : State) (d : DieId) (c : Nat) (g : Grid) (m : Int) (gap : Bool) :
    (s.anyPart d c g m gap).stores = s.stores := by
  simp [State.anyPart]

/-! What leaves the stores alone: the operations of the unit `Silcel`. -/

@[simp] theorem Die.modSlot_cells (x : Die) (k : Nat) (f : SmSlot → SmSlot) : (x.modSlot k f).cells = x.cells := by simp [Die.modSlot]
@[simp] theorem State.sendMsg_stores (s : State) (r : DieId) (dst : Src) (m : Msg) (post : Bool) :
    (s.sendMsg r dst m post).stores = s.stores := by
  simp [State.sendMsg]
@[simp] theorem State.reply_stores (s : State) (r : DieId) (src : Src) (m : Msg) (a : Ans) : (s.reply r src m a).stores = s.stores := by
  simp [State.reply]
@[simp] theorem State.refusalCount_stores (s : State) (r : DieId) (k code : Nat) (counted : Bool) :
    (s.refusalCount r k code counted).stores = s.stores := by
  simp [State.refusalCount]
@[simp] theorem State.turnAway_stores (s : State) (r : DieId) (src : Src) (m : Msg) (code detail : Nat) (counted : Bool) :
    (s.turnAway r src m code detail counted).stores = s.stores := by
  simp [State.turnAway]
@[simp] theorem State.openTrans_stores (s : State) (r : DieId) (src : Src) (m : Msg) : (s.openTrans r src m).stores = s.stores := by
  simp [State.openTrans]
@[simp] theorem Die.startTrans_cells (x : Die) (k tid : Nat) : (x.startTrans k tid).cells = x.cells := by simp [Die.startTrans]
@[simp] theorem State.complete_stores (s : State) (r : DieId) (src : Src) (m : Msg) (a : Ans) :
    (s.complete r src m a).stores = s.stores := by
  simp [State.complete]
@[simp] theorem State.judged_stores (s : State) (d : DieId) (m : Msg) (layout range : Bool) (f : State × Ans) (h : f.1.stores = s.stores) :
    (s.judged d m layout range f).1.stores = s.stores := by
  simp [State.judged, h]
@[simp] theorem State.runPing_stores (s : State) (r d : DieId) (m : Msg) : (s.runPing r d m).1.stores = s.stores := by simp [State.runPing]
@[simp] theorem Die.setSub_cells (x : Die) (i active key : Nat) (src : Src) (port blocks : Nat) :
    (x.setSub i active key src port blocks).cells = x.cells := by
  simp [Die.setSub]
@[simp] theorem Die.endSub_cells (x : Die) (i : Nat) : (x.endSub i).cells = x.cells := by simp [Die.endSub]
@[simp] theorem Die.endSubs_cells (x : Die) (k : Nat) (r : DieId) : (x.endSubs k r).cells = x.cells := by simp [Die.endSubs]
@[simp] theorem State.runHello_stores (s : State) (r d : DieId) (m : Msg) :
    (s.runHello r d m).1.stores = s.stores := by simp [State.runHello]
@[simp] theorem State.readWords_stores (s : State) (d : DieId) (a n : Nat) : (s.readWords d a n).2.stores = s.stores := by
  induction n generalizing s a with
  | zero => rfl
  | succ n ih => simp [State.readWords, ih]
@[simp] theorem State.runRead_stores (s : State) (d : DieId) (m : Msg) : (s.runRead d m).1.stores = s.stores := by simp [State.runRead]
@[simp] theorem State.runWrite_stores (s : State) (d : DieId) (m : Msg) : (s.runWrite d m).1.stores = s.stores := by
  refine State.judged_stores s d m _ _ _ ?_
  split
  · rfl
  · extract_lets ws
    split
    · rename_i h
      have e := State.regWrite_stores s d .host ws
      rw [h] at e
      exact e
    · simp
@[simp] theorem State.runModify_stores (s : State) (d : DieId) (m : Msg) : (s.runModify d m).1.stores = s.stores := by
  refine State.judged_stores s d m _ _ _ ?_
  split
  · rfl
  · extract_lets w
    split
    · rename_i h
      have e := State.regWrite_stores s d .host [(msgNum m 0 4, w)]
      rw [h] at e
      exact e
    · simp
@[simp] theorem State.runImageOpen_stores (s : State) (d : DieId) (m : Msg) :
    (s.runImageOpen d m).1.stores = s.stores := by simp [State.runImageOpen]
@[simp] theorem State.ofTransfer_stores (s : State) (d : DieId) (f : Transfer → State → State × Ans) (h : ∀ x t, (f x t).1.stores = t.stores) :
    (s.ofTransfer d f).1.stores = s.stores := by
  unfold State.ofTransfer
  split
  · rfl
  · simp [h]
@[simp] theorem State.runImageData_stores (s : State) (d : DieId) (m : Msg) :
    (s.runImageData d m).1.stores = s.stores := by simp [State.runImageData]
@[simp] theorem State.runImageClose_stores (s : State) (d : DieId) (m : Msg) : (s.runImageClose d m).1.stores = s.stores := by
  unfold State.runImageClose
  generalize hF : (fun (t : Transfer) (s : State) => _) = F
  have hs : ∀ x t, (F x t).1.stores = t.stores := by
    intro x t
    rw [← hF]
    generalize crc32c _ = v
    simp
  exact State.judged_stores _ _ _ _ _ _ (State.ofTransfer_stores _ _ _ hs)
@[simp] theorem State.runSubscribe_stores (s : State) (r d : DieId) (src : Src) (m : Msg) :
    (s.runSubscribe r d src m).1.stores = s.stores := by
  unfold State.runSubscribe; split <;> simp
@[simp] theorem State.runUnsubscribe_stores (s : State) (r d : DieId) (m : Msg) : (s.runUnsubscribe r d m).1.stores = s.stores := by
  simp [State.runUnsubscribe]
@[simp] theorem State.runReset_stores (s : State) (d : DieId) (m : Msg) : (s.runReset d m).1.stores = s.stores := by simp [State.runReset]
@[simp] theorem State.runOther_stores (s : State) : (s.runOther).1.stores = s.stores := by simp [State.runOther]
@[simp] theorem State.runOpcode_stores (s : State) (r d : DieId) (src : Src) (m : Msg) : (s.runOpcode r d src m).1.stores = s.stores := by
  unfold State.runOpcode; split <;> simp
@[simp] theorem State.authFail_stores (s : State) (r : DieId) (src : Src) (k : Nat) : (s.authFail r src k).stores = s.stores := by
  simp [State.authFail]
@[simp] theorem Die.replyIn_cells (x : Die) (m : Msg) (src : Src) : (x.replyIn m src).cells = x.cells := by simp [Die.replyIn]
@[simp] theorem State.relayReply_stores (s : State) (r : DieId) :
    (s.relayReply r).stores = s.stores := by unfold State.relayReply; split <;> simp
@[simp] theorem State.relayLost_stores (s : State) (r : DieId) (m : Msg) (src : Src) : (s.relayLost r m src).stores = s.stores := by
  simp [State.relayLost]
@[simp] theorem State.requestExpired_stores (s : State) (r : DieId) : (s.requestExpired r).stores = s.stores := by
  unfold State.requestExpired; split <;> simp
@[simp] theorem State.quarantineEnd_stores (s : State) (r : DieId) : (s.quarantineEnd r).stores = s.stores := by
  unfold State.quarantineEnd; split <;> simp
@[simp] theorem State.transferAbandon_stores (s : State) (d : DieId) : (s.transferAbandon d).stores = s.stores := by
  unfold State.transferAbandon; split <;> simp
@[simp] theorem State.subscriptionExpiry_stores (s : State) (d : DieId) : (s.subscriptionExpiry d).stores = s.stores := by
  unfold State.subscriptionExpiry; split <;> simp
@[simp] theorem State.eventPost_stores (s : State) (d : DieId) : (s.eventPost d).stores = s.stores := by
  unfold State.eventPost; dsimp only; split <;> simp

/-! What leaves the stores alone: the operations of the unit `Link`. -/

@[simp] theorem State.rapIn_stores (s : State) (d : DieId) (n : Nat) (pic : Option Int) : (s.rapIn d n pic).stores = s.stores := by
  unfold State.rapIn; split <;> simp
@[simp] theorem State.rateIn_stores (s : State) (d : DieId) (n field : Nat) (v : W32) (pic : Option Int) :
    (s.rateIn d n field v pic).stores = s.stores := by
  unfold State.rateIn; split <;> simp
@[simp] theorem State.poolIn_stores (s : State) (d : DieId) (p : Nat) (v : W32) (frame : Option Int) :
    (s.poolIn d p v frame).stores = s.stores := by
  unfold State.poolIn; split <;> simp
@[simp] theorem Die.setLayerRegs_cells (x : Die) (n l : Nat) (vs : List W32) :
    (x.setLayerRegs n l vs).cells = x.cells := by simp [Die.setLayerRegs]
@[simp] theorem State.commitIn_stores (s : State) (d : DieId) (n mask : Nat) (vs : List (Nat × List W32)) (frame : Option Int) :
    (s.commitIn d n mask vs frame).stores = s.stores := by
  unfold State.commitIn; split <;> simp
@[simp] theorem Die.failNumbered_cells (x : Die) (seq : W32) :
    (x.failNumbered seq).cells = x.cells := by unfold Die.failNumbered; split <;> simp
@[simp] theorem State.takenIn_stores (s : State) (seq : W32) : (s.takenIn seq).stores = s.stores := by simp [State.takenIn]
@[simp] theorem State.testIn_stores (s : State) (d : DieId) (scope : Option (Nat × Nat)) : (s.testIn d scope).stores = s.stores := by
  unfold State.testIn; split <;> simp
@[simp] theorem State.ctlLost_stores (s : State) (d : DieId) (n1 : CtlMsg) : (s.ctlLost d n1).stores = s.stores := by
  unfold State.ctlLost; split <;> simp
@[simp] theorem State.controlResend_stores (s : State) (d : DieId) : (s.controlResend d).stores = s.stores := by
  unfold State.controlResend
  dsimp only
  repeat' split
  all_goals simp
@[simp] theorem State.mrLinkDown_stores (s : State) (d : DieId) : (s.mrLinkDown d).stores = s.stores := by simp [State.mrLinkDown]

/-! What leaves the stores alone: the operations of the unit `Online`. -/

@[simp] theorem State.sliceStart_stores (s : State) (d : DieId) (i : Item) (room : Bool) : (s.sliceStart d i room).stores = s.stores := by
  simp [State.sliceStart]
@[simp] theorem State.sliceDone_stores (s : State) (d : DieId) (i : Item) (fail : Option BistFail) :
    (s.sliceDone d i fail).stores = s.stores := by
  unfold State.sliceDone; repeat split <;> simp

/-! What writes the stores. -/

/-- Between two moments no fuse has changed, and the flash and each DRAM array have stayed in canonical form where they were in it. -/
structure Stores.Keeps (a b : Stores) : Prop where
  fuses : b.fuses = a.fuses
  flash : mwf flashDefault a.flash = true → mwf flashDefault b.flash = true
  cells : ∀ d, Memory.wf (a.cells d) = true → Memory.wf (b.cells d) = true

theorem Stores.cells_setCells (t : Stores) (d e : DieId) (m : Mem) : (t.setCells d m).cells e = if e = d then m else t.cells e := by
  unfold Stores.setCells Stores.cells
  fin_cases d <;> fin_cases e <;> rfl
@[simp] theorem Stores.setCells_flash (t : Stores) (d : DieId) (m : Mem) : (t.setCells d m).flash = t.flash := by
  unfold Stores.setCells; split <;> rfl
@[simp] theorem Stores.setCells_fuses (t : Stores) (d : DieId) (m : Mem) : (t.setCells d m).fuses = t.fuses := by
  unfold Stores.setCells; split <;> rfl

@[simp] theorem Stores.Keeps.refl (a : Stores) : a.Keeps a := ⟨rfl, id, fun _ => id⟩
theorem Stores.Keeps.trans {a b c : Stores} (h : a.Keeps b) (k : b.Keeps c) : a.Keeps c :=
  ⟨k.fuses.trans h.fuses, k.flash ∘ h.flash, fun d => k.cells d ∘ h.cells d⟩
/-- A die whose array is written in canonical form. -/
theorem Stores.Keeps.setCells {a b : Stores} {d : DieId} {m : Mem} (h : a.Keeps b) (hm : Memory.wf (b.cells d) = true → Memory.wf m = true) :
    a.Keeps (b.setCells d m) := by
  refine ⟨by simp [h.fuses], by simpa using h.flash, fun e he => ?_⟩
  rw [Stores.cells_setCells]
  split
  · next e => subst e; exact hm (h.cells _ he)
  · exact h.cells e he
@[simp] theorem Stores.keeps_ite {a x y : Stores} {c : Prop} [Decidable c] :
    a.Keeps (if c then x else y) ↔ (c → a.Keeps x) ∧ (¬c → a.Keeps y) := by
  split <;> simp [*]
@[simp] theorem State.keeps_foldl {α : Type} {a : Stores} {f : State → α → State}
    (h : ∀ (s : State) x, s.stores.Keeps (f s x).stores) {l : List α} {s : State}
    (hs : a.Keeps s.stores) : a.Keeps (l.foldl f s).stores := by
  induction l generalizing s with
  | nil => exact hs
  | cons x l ih => exact ih (hs.trans (h s x))
theorem State.keeps_foldl_fst {α β : Type} {a : Stores} {f : State × β → α → State × β}
    (h : ∀ (p : State × β) x, p.1.stores.Keeps (f p x).1.stores) {l : List α}
    {p : State × β} (hp : a.Keeps p.1.stores) : a.Keeps (l.foldl f p).1.stores := by
  induction l generalizing p with
  | nil => exact hp
  | cons x l ih => exact ih (hp.trans (h p x))
/-- A die rewritten by what keeps its array in canonical form. -/
theorem State.upd_keeps {a : Stores} {s : State} {d : DieId} {f : Die → Die} (h : a.Keeps s.stores)
    (hf : ∀ x : Die, Memory.wf x.cells = true → Memory.wf (f x).cells = true) : a.Keeps (s.upd d f).stores := by
  rw [State.stores_upd]
  exact h.setCells fun hd => hf _ (by rwa [State.die_cells])
theorem wf_filter {m : Mem} (p : Nat × Byte → Bool) (h : Memory.wf m = true) : Memory.wf (m.filter p) = true := mwf_filter _ _ _ h
theorem mwf_flashWrite (m : Mem) (n : Nat) (bs : List Byte) (h : mwf flashDefault m = true) :
    mwf flashDefault (flashWrite m n bs) = true := by
  induction bs generalizing m n with
  | nil => exact h
  | cons b bs ih => exact ih _ _ (mwf_mput _ _ _ _ h)
theorem Die.wf_foldl {α : Type} {f : Die → α → Die} (h : ∀ x a, Memory.wf x.cells = true → Memory.wf (f x a).cells = true) (l : List α) {x : Die}
    (hx : Memory.wf x.cells = true) : Memory.wf (l.foldl f x).cells = true := by
  induction l generalizing x with
  | nil => exact hx
  | cons b l ih => exact ih (h _ _ hx)

/-! What writes the stores: the operations of the unit `Dram`. -/

@[simp] theorem Die.remask_wf (x was : Die) (h : Memory.wf x.cells = true) : Memory.wf (x.remask was).cells = true := wf_remask x was h

/-! What writes the stores: the operations of the unit `Picture`. -/

@[simp] theorem State.storeLine_keeps {a : Stores} (s : State) (d : DieId) (kind src : Nat) (f : PicFmt) (frame : Int) (y : Nat) (last : Bool)
    (p : PicLine) (h : a.Keeps s.stores) :
    a.Keeps (s.storeLine d kind src f frame y last p).stores := by
  unfold State.storeLine
  refine State.keeps_foldl (fun s n => ?_) h
  extract_lets put v s1 s2
  have hput : ∀ (t : State) k, s.stores.Keeps t.stores → s.stores.Keeps (put t k).stores := fun t k ht =>
    State.upd_keeps (by simpa using ht) fun x hx => wf_pictureStore _ _ _ _ (wf_view _ hx)
  have h2 : s.stores.Keeps s2.stores := hput s1 _ (by simp [s1])
  split
  · exact hput s _ (.refl _)
  · simp [h2]

/-! What writes the stores: the operations of the unit `Groups`. -/

@[simp] theorem State.memStore_keeps {a : Stores} (s : State) (d : DieId) (r : MemRef) (q : Raster) (frame : Int) (o : Nat) (p : PicLine)
    (h : a.Keeps s.stores) :
    a.Keeps (s.memStore d r q frame o p).stores := by unfold State.memStore; split <;> simp [h]
@[simp] theorem State.memStored_keeps {a : Stores} (s : State) (d : DieId) (r : MemRef) (q : Raster) (frame : Int) (o : Nat) (p : PicLine)
    (h : a.Keeps s.stores) :
    a.Keeps (s.memStored d r q frame o p).stores := by
  unfold State.memStored
  extract_lets x fresh v s1
  refine State.memStore_keeps _ _ _ _ _ _ _ ?_
  unfold s1
  split
  · refine State.keeps_foldl (fun s j => ?_) h
    split <;> simp
  · exact h
@[simp] theorem State.lineIn_keeps {a : Stores} (s : State) (d : DieId) (r : MemRef) (m : Int) (p : PicLine) (h : a.Keeps s.stores) :
    a.Keeps (s.lineIn d r m p).stores := by
  unfold State.lineIn
  dsimp only
  repeat' split
  all_goals simp [h]
@[simp] theorem State.concealLine_keeps {a : Stores} (s : State) (d : DieId) (r : MemRef) (g : Grid) (q : Raster) (k : Int) (p : PicLine)
    (h : a.Keeps s.stores) :
    a.Keeps (s.concealLine d r g q k p).stores := by unfold State.concealLine; dsimp only; split <;> simp [h]
@[simp] theorem State.conceal_keeps {a : Stores} (s : State) (d : DieId) (r : MemRef) (g : Grid) (m : Int) (h : a.Keeps s.stores) :
    a.Keeps (s.conceal d r g m).stores := by unfold State.conceal; dsimp only; split <;> simp [h]
@[simp] theorem State.memPulse_keeps {a : Stores} (s : State) (d : DieId) (c : Nat) (g : Grid) (m : Int) (h : a.Keeps s.stores) :
    a.Keeps (s.memPulse d c g m).stores := by simp [State.memPulse, h]

/-! What writes the stores: the operations of the unit `Cellar`. -/

@[simp] theorem State.decodeUnit_keeps {a : Stores} (s : State) (d : DieId) (n : Nat) (frame : Int) (au : AccessUnit) (h : a.Keeps s.stores) :
    a.Keeps (s.decodeUnit d n frame au).stores := by
  unfold State.decodeUnit
  extract_lets s1 x v held stand missing grey clip concealed late kept pic
  have h1 : a.Keeps s1.stores := by
    unfold s1; split <;> simp [h]
  split
  · exact h1
  · extract_lets f planes lost dp s2 s3 s4 s5 s6
    have h3 : a.Keeps s3.stores := by
      unfold s3
      rw [State.count_stores]
      refine State.upd_keeps (by simpa [s2] using h1) fun x hx => ?_
      rw [Die.modDec_cells]
      exact wf_decWrite _ _ _ _ _ hx
    have h6 : a.Keeps s6.stores := by simp [s6, s5, s4, h3]
    split
    · exact h1
    · simp [h6]
@[simp] theorem State.decTake_keeps {a : Stores} (s : State) (d : DieId) (n : Nat) (frame : Int) (only : Option (List Int)) (h : a.Keeps s.stores) :
    a.Keeps (s.decTake d n frame only).stores := by simp [State.decTake, h]
@[simp] theorem State.decLine_keeps {a : Stores} (s : State) (d : DieId) (n : Nat) (frame : Int) (y : Nat) (h : a.Keeps s.stores) :
    a.Keeps (s.decLine d n frame y).stores := by simp [State.decLine, h]
@[simp] theorem State.decOutput_keeps {a : Stores} (s : State) (d : DieId) (n : Nat) (frame : Int) (h : a.Keeps s.stores) :
    a.Keeps (s.decOutput d n frame).stores := by
  unfold State.decOutput
  dsimp only
  repeat' split
  all_goals simp [h]
@[simp] theorem State.decBoundary_keeps {a : Stores} (s : State) (d : DieId) (n : Nat) (frame : Int) (only : Option (List Int))
    (h : a.Keeps s.stores) :
    a.Keeps (s.decBoundary d n frame only).stores := by simp [State.decBoundary, h]
@[simp] theorem State.decPulse_keeps {a : Stores} (s : State) (d : DieId) (c : Nat) (g : Grid) (m : Int) (follows : Nat → Bool)
    (h : a.Keeps s.stores) :
    a.Keeps (s.decPulse d c g m follows).stores := by
  unfold State.decPulse
  refine State.keeps_foldl (fun s n => ?_) h
  split
  · split <;> simp
  · simp

/-! What writes the stores: the operations of the unit `Encode`. -/

@[simp] theorem State.encCode_keeps {a : Stores} (s : State) (d : DieId) (n : Nat) (frame : Int) (field row : Nat) (h : a.Keeps s.stores) :
    a.Keeps (s.encCode d n frame field row).stores := by
  unfold State.encCode
  extract_lets x
  split
  · exact h
  · split
    · exact h
    · split
      extract_lets fresh more open_ s1 s2 s3
      have h1 : a.Keeps s1.stores := by
        unfold s1
        split
        · exact h
        · exact State.upd_keeps (by simpa using h) fun x hx => wf_reconRow _ _ _ _ _ _ hx
      have h3 : a.Keeps s3.stores := by simp [s3, s2, h1]
      simp [h3]
@[simp] theorem State.encRowSearch_keeps {a : Stores} (s : State) (d : DieId) (n : Nat) (frame : Int) (field row : Nat) (h : a.Keeps s.stores) :
    a.Keeps (s.encRowSearch d n frame field row).stores := by
  unfold State.encRowSearch
  extract_lets x
  split
  · exact h
  · split
    · exact h
    · extract_lets q found ctus s1 s2
      have h2 : a.Keeps s2.stores := by
        refine State.upd_keeps (by simpa [s1] using h) fun x hx => ?_
        rw [Die.modEnc_cells]
        exact wf_reconRow _ _ _ _ _ _ hx
      simp [h2]
@[simp] theorem State.encRowEnd_keeps {a : Stores} (s : State) (d : DieId) (n : Nat) (frame : Int) (field row : Nat) (h : a.Keeps s.stores) :
    a.Keeps (s.encRowEnd d n frame field row).1.stores := by
  unfold State.encRowEnd
  dsimp only
  repeat' split
  all_goals simp [h]
@[simp] theorem State.encChan_keeps {a : Stores} (s : State) (d : DieId) (n l : Nat) (m : Int) (h : a.Keeps s.stores) :
    a.Keeps (s.encChan d n l m).1.stores := by
  unfold State.encChan
  extract_lets s1
  have h1 : a.Keeps s1.stores := by simpa [s1] using h
  split
  rename_i s2 out h2
  extract_lets done s3 s4 x s5
  have h2 : a.Keeps s2.stores := by
    rw [show s2 = (s2, out).1 from rfl, ← h2]
    refine State.keeps_foldl_fst (fun p e => ?_) h1
    simp
  have h3 : a.Keeps s3.stores := State.keeps_foldl (fun s e => by simp) h2
  simpa [s5, s4] using h3
@[simp] theorem State.encPulse_keeps {a : Stores} (s : State) (d : DieId) (c : Nat) (g : Grid) (m : Int) (h : a.Keeps s.stores) :
    a.Keeps (s.encPulse d c g m).1.stores := by
  unfold State.encPulse
  refine State.keeps_foldl_fst (fun p n => ?_) (by simpa using h)
  simp

/-! What writes the stores: the operations of the unit `Lanes`. -/

@[simp] theorem State.sdiLine_keeps {a : Stores} (s : State) (d : DieId) (k : Nat) (l : SdiLine) (h : a.Keeps s.stores) :
    a.Keeps (s.sdiLine d k l).stores := by
  unfold State.sdiLine
  extract_lets x s1 ok n s2 s3 s4 s5 s6 s7 s8 s9 s10 i s11
  have h1 : a.Keeps s1.stores := by simpa [s1] using h
  have h7 : a.Keeps s7.stores := by
    have h5 : a.Keeps s5.stores := by
      unfold s5; split <;> simp [s4, s3, h1]
    simp [s7, s6, h5]
  have h8 : a.Keeps s8.stores := State.lineIn_keeps _ _ _ _ _ h7
  have h9 : a.Keeps s9.stores := by
    unfold s9; split <;> simp [h8]
  have h11 : a.Keeps s11.stores := by
    have h10 : a.Keeps s10.stores := State.keeps_foldl (fun s e => by simp) h9
    unfold s11; split <;> simp [h10]
  simp only [apply_ite State.stores, Stores.keeps_ite]
  simp [h, h1, h7, s2]
  intros
  split <;> simp [h11]
@[simp] theorem State.nativeDeliver_keeps {a : Stores} (s : State) (d : DieId) (k stream : Nat) (sol : Bool) (line : Int) (payload : List Byte)
    (h : a.Keeps s.stores) :
    a.Keeps (s.nativeDeliver d k stream sol line payload).stores := by
  unfold State.nativeDeliver
  dsimp only
  repeat' split
  all_goals simp [h]
@[simp] theorem State.nativeTake_keeps {a : Stores} (s : State) (d : DieId) (k : Nat) (control : W32) (payload : List Byte) (full : Bool)
    (line : Int) (h : a.Keeps s.stores) :
    a.Keeps (s.nativeTake d k control payload full line).stores := by
  unfold State.nativeTake
  dsimp only
  repeat' split
  all_goals simp [h]
@[simp] theorem State.nativeFrame_keeps {a : Stores} (s : State) (d : DieId) (k : Nat) (wire : List Bool) (full : Bool) (line : Int)
    (h : a.Keeps s.stores) :
    a.Keeps (s.nativeFrame d k wire full line).stores := by
  unfold State.nativeFrame
  dsimp only
  repeat' split
  all_goals simp [h]

/-! What writes the stores: the operations of the unit `NetRx`. -/

@[simp] theorem State.rxPiece_keeps {a : Stores} (s : State) (d : DieId) (f : Nat) (fm : PicFmt) (m : Int) (off : Nat) (bs : List Byte)
    (h : a.Keeps s.stores) :
    a.Keeps (s.rxPiece d f fm m off bs).stores := by unfold State.rxPiece; dsimp only; split <;> simp [h]
@[simp] theorem State.rxVideo_keeps {a : Stores} (s : State) (d : DieId) (f ts : Nat) (b : List Byte) (h : a.Keeps s.stores) :
    a.Keeps (s.rxVideo d f ts b).stores := by unfold State.rxVideo; split <;> simp [h]
@[simp] theorem State.cpbPut_keeps {a : Stores} (s : State) (d : DieId) (n : Nat) (nals : List (List Byte)) (missing : Nat) (h : a.Keeps s.stores) :
    a.Keeps (s.cpbPut d n nals missing).stores := by
  unfold State.cpbPut
  split
  · exact h
  · extract_lets _ au s1
    have h1 : a.Keeps s1.stores := State.keeps_foldl (fun s b => by
      dsimp only
      exact State.upd_keeps (by simp) fun x hx => wf_cpbWrite _ _ hx) h
    simpa using h1
@[simp] theorem State.rxUnitEnd_keeps {a : Stores} (s : State) (d : DieId) (f : Nat) (h : a.Keeps s.stores) :
    a.Keeps (s.rxUnitEnd d f).stores := by unfold State.rxUnitEnd; dsimp only; split <;> simp [h]
@[simp] theorem State.rxCoded_keeps {a : Stores} (s : State) (d : DieId) (f q ts : Nat) (marker : Bool) (b : List Byte) (h : a.Keeps s.stores) :
    a.Keeps (s.rxCoded d f q ts marker b).stores := by
  unfold State.rxCoded
  dsimp only
  repeat' split
  all_goals simp [h]
@[simp] theorem State.rxPesEnd_keeps {a : Stores} (s : State) (d : DieId) (f : Nat) (h : a.Keeps s.stores) :
    a.Keeps (s.rxPesEnd d f).stores := by unfold State.rxPesEnd; split <;> simp [h]
@[simp] theorem State.rxTs_keeps {a : Stores} (s : State) (d : DieId) (f pid : Nat) (p : List Byte) (h : a.Keeps s.stores) :
    a.Keeps (s.rxTs d f pid p).stores := by
  unfold State.rxTs
  dsimp only
  repeat' split
  all_goals simp [h]
@[simp] theorem State.rxFlow_keeps {a : Stores} (s : State) (d : DieId) (f p : Nat) (u : Udp) (h : a.Keeps s.stores) :
    a.Keeps (s.rxFlow d f p u).stores := by
  unfold State.rxFlow
  dsimp only
  repeat' split
  all_goals simp [h]
@[simp] theorem State.classify_keeps {a : Stores} (s : State) (d : DieId) (sp : Nat) (e : EthFrame) (b : List Byte) (h : a.Keeps s.stores) :
    a.Keeps (s.classify d sp e b).stores := by
  unfold State.classify
  dsimp only
  repeat' split
  all_goals simp [h]
@[simp] theorem State.rxFrame_keeps {a : Stores} (s : State) (d : DieId) (sp : Nat) (b : List Byte) (fcs : Bool) (corr uncorr : Nat)
    (h : a.Keeps s.stores) :
    a.Keeps (s.rxFrame d sp b fcs corr uncorr).stores := by
  unfold State.rxFrame
  dsimp only
  repeat' split
  all_goals simp [h]

/-! What writes the stores: the operations of the unit `Pairing`. -/

@[simp] theorem State.streamSlot_keeps {a : Stores} (s : State) (d : DieId) (line : Int) (ok : Bool) (p : PicLine) (h : a.Keeps s.stores) :
    a.Keeps (s.streamSlot d line ok p).stores := by simp [State.streamSlot, h]

/-! What writes the stores: the operations of the unit `Reset`. -/

@[simp] theorem Die.resetTo_cells (x : Die) (d : DieId) (kind : Nat) (phase : Phase) (now : Nat) :
    (x.resetTo d kind phase now).cells = [] := by simp [Die.resetTo]
@[simp] theorem State.resetDie_keeps {a : Stores} (s : State) (d : DieId) (kind flags : Nat) (phase : Phase) (h : a.Keeps s.stores) :
    a.Keeps (s.resetDie d kind flags phase).stores := by
  unfold State.resetDie
  extract_lets x until_ s1 s2
  have h2 : a.Keeps s2.stores := by
    refine State.upd_keeps (by simpa [s1] using h) fun x hx => ?_
    simp [Memory.wf, mwf]
  simpa using h2
@[simp] theorem State.resetPackage_keeps {a : Stores} (s : State) (kind flags : Nat) (h : a.Keeps s.stores) :
    a.Keeps (s.resetPackage kind flags).stores := by unfold State.resetPackage; dsimp only; split <;> simp [h]
@[simp] theorem State.dieReset_keeps {a : Stores} (s : State) (d : DieId) (kind flags : Nat) (h : a.Keeps s.stores) :
    a.Keeps (s.dieReset d kind flags).stores := by simp [State.dieReset, h]

/-! What writes the stores: the operations of the unit `Thermal`. -/

@[simp] theorem State.thermalShutdown_keeps {a : Stores} (s : State) (d : DieId) (sent : Bool) (h : a.Keeps s.stores) :
    a.Keeps (s.thermalShutdown d sent).stores := by
  unfold State.thermalShutdown
  dsimp only
  repeat' split
  all_goals simp [h]

/-! What writes the stores: the operations of the unit `Power`. -/

@[simp] theorem State.regulatorReset_keeps {a : Stores} (s : State) (d : DieId) (h : a.Keeps s.stores) :
    a.Keeps (s.regulatorReset d).stores := by unfold State.regulatorReset; split <;> simp [h]
@[simp] theorem State.watchdog_keeps {a : Stores} (s : State) (d : DieId) (h : a.Keeps s.stores) :
    a.Keeps (s.watchdog d).stores := by simp [State.watchdog, h]
@[simp] theorem State.brownOut_keeps {a : Stores} (s : State) (kept : Nat) (h : a.Keeps s.stores) :
    a.Keeps (s.brownOut kept).stores := by simp [State.brownOut, h]
@[simp] theorem State.dryDie_keeps {a : Stores} (s : State) (d : DieId) (h : a.Keeps s.stores) : a.Keeps (s.dryDie d).stores := by
  unfold State.dryDie
  extract_lets pasr gone s1
  have h1 : a.Keeps s1.stores := State.upd_keeps h fun x hx => by
    simpa using wf_filter _ (wf_view _ hx)
  simpa using h1
@[simp] theorem State.stateDone_keeps {a : Stores} (s : State) (h : a.Keeps s.stores) : a.Keeps (s.stateDone).stores := by
  unfold State.stateDone
  dsimp only
  repeat' split
  all_goals simp [h]

/-! What writes the stores: the operations of the unit `Switch`. -/

@[simp] theorem Die.allocate_wf (x fn : Die) (d : DieId) (i : Inst) (h : Memory.wf x.cells = true) :
    Memory.wf (x.allocate fn d i).cells = true := by
  unfold Die.allocate
  extract_lets mib
  split
  · exact wf_clearPool _ _ _ _ (wf_view _ h)
  · exact wf_clearPool _ _ _ _ (wf_view _ h)
  · split
    · exact wf_clearPool _ _ _ _ (wf_view _ h)
    · exact h
  · exact h
@[simp] theorem Die.takeInst_wf (x was fn : Die) (d : DieId) (i : Inst) (h : Memory.wf x.cells = true) :
    Memory.wf (x.takeInst was fn d i).cells = true := by unfold Die.takeInst; split <;> simp [h]
@[simp] theorem Move.run_keeps {a : Stores} (m : Move) (s : State) (h : a.Keeps s.stores) : a.Keeps (m.run s).stores := by
  unfold Move.run
  extract_lets d was old new fo fn is fate again moved s1 was1 r y dma par x1 x2 x3 x4 x5 x6 x7 s2 s3 s4
  have h1 : a.Keeps s1.stores := by
    simpa [s1] using h
  have h2 : a.Keeps s2.stores := by
    rw [State.stores_setDie]
    refine h1.setCells fun hd => ?_
    have hx1 : Memory.wf x1.cells = true := by simpa [x1, y, r, was1] using hd
    have hx3 : Memory.wf x3.cells = true := Die.wf_foldl (fun x i hx => x.takeInst_wf _ _ _ _ hx) _ (x1.remask_wf _ hx1)
    simpa [x7, x6, x5, x4] using hx3
  simpa [s4, s3] using h2
@[simp] theorem Die.movePail_cells (x : Die) (d : DieId) (p : Plan) (c : Nat) : (x.movePail d p c).cells = x.cells := by simp [Die.movePail]

/-! What writes the stores: the operations of the unit `Plans`. -/

@[simp] theorem State.switchMoves_keeps {a : Stores} (s : State) (d : DieId) (c : Option Nat) (p : Plan) (first last : Bool) (h : a.Keeps s.stores) :
    a.Keeps (s.switchMoves d c p first last).stores := by
  unfold State.switchMoves
  dsimp only
  repeat' split
  all_goals simp [h]
@[simp] theorem State.switchDone_keeps {a : Stores} (s : State) (p : Plan) (h : a.Keeps s.stores) : a.Keeps (s.switchDone p).stores := by
  unfold State.switchDone
  extract_lets s1 s2
  have h1 : a.Keeps s1.stores := State.keeps_foldl (fun s e => by split <;> simp) h
  simpa [s2] using h1
@[simp] theorem State.switchAt_keeps {a : Stores} (s : State) (d : DieId) (c : Nat) (p : Plan) (r : SwitchReq) (m : Int) (h : a.Keeps s.stores) :
    a.Keeps (s.switchAt d c p r m).stores := by
  unfold State.switchAt
  extract_lets keys first dieFirst taken dieLast before r1 s1 s2 active s3 s4 s5 s6 s7 s8
  have h3 : a.Keeps s3.stores := by simpa [s3, s2, s1] using h
  have h4 : a.Keeps s4.stores := by
    simp [s4, h3]
  have h7 : a.Keeps s7.stores := by
    simp [s7, s6, s5, h4]
  simp [s8, h7]
@[simp] theorem State.planSwitch_keeps {a : Stores} (s : State) (d : DieId) (c : Nat) (h : a.Keeps s.stores) :
    a.Keeps (s.planSwitch d c).stores := by
  unfold State.planSwitch
  dsimp only
  repeat' split
  all_goals simp [h]
@[simp] theorem State.brownMove_keeps {a : Stores} (s : State) (d : DieId) (c : Nat) (on : Bool) (h : a.Keeps s.stores) :
    a.Keeps (s.brownMove d c on).stores := by unfold State.brownMove; split <;> simp [h]
@[simp] theorem State.admissionDone_stores (s : State) :
    (s.admissionDone).stores = s.stores := by unfold State.admissionDone; split <;> simp
@[simp] theorem State.libraryDone_stores (s : State) : (s.libraryDone).stores = s.stores := by
  unfold State.libraryDone
  split <;> [split; skip] <;> simp
@[simp] theorem State.dieRestart_keeps {a : Stores} (s : State) (d : DieId) (h : a.Keeps s.stores) : a.Keeps (s.dieRestart d).stores := by
  unfold State.dieRestart
  split
  · exact h
  · extract_lets x s1 s2 s3
    have h2 : a.Keeps s2.stores := by
      have e : s2.stores = s1.stores := State.stores_foldl_of (fun s c => by split <;> simp) rfl
      rw [e]
      simpa [s1] using h
    have h3 : a.Keeps s3.stores := Move.run_keeps _ _ h2
    split
    · exact h
    · split
      · simpa using h
      · simpa using h3
@[simp] theorem State.stopCad_keeps {a : Stores} (s : State) (d : DieId) (c : Nat) (h : a.Keeps s.stores) :
    a.Keeps (s.stopCad d c).stores := by simp [State.stopCad, h]
@[simp] theorem State.laneReset_stores (s : State) (d : DieId) (k : Nat) : (s.laneReset d k).stores = s.stores := by simp [State.laneReset]

/-! What writes the stores: the operations of the unit `Hub`. -/

@[simp] theorem State.linePart_keeps {a : Stores} (s : State) (d : DieId) (c : Nat) (g : Grid) (m : Int) (h : a.Keeps s.stores) :
    a.Keeps (s.linePart d c g m).stores := by
  unfold State.linePart
  extract_lets s1 s2 x follows s3 s4
  have h1 : a.Keeps s1.stores := State.memPulse_keeps _ _ _ _ _ h
  have h3 : a.Keeps s3.stores := State.decPulse_keeps _ _ _ _ _ _ (by simpa [s2] using h1)
  have h4 : a.Keeps s4.stores := by simpa [s4] using h3
  split
  rename_i s5 out h5
  have h5 : a.Keeps s5.stores := by
    rw [show s5 = (s5, out).1 from rfl, ← h5]
    exact State.encPulse_keeps _ _ _ _ _ (by simpa using h4)
  simpa using h5
@[simp] theorem State.linePulse_keeps {a : Stores} (s : State) (d : DieId) (c : Nat) (h : a.Keeps s.stores) :
    a.Keeps (s.linePulse d c).stores := by
  unfold State.linePulse
  dsimp only
  repeat' split
  all_goals simp [h]

/-! What writes the stores: the operations of the unit `Silcel`. -/

@[simp] theorem State.hostReset_keeps {a : Stores} (s : State) (v : Nat × Nat × Nat) (h : a.Keeps s.stores) :
    a.Keeps (s.hostReset v).stores := by unfold State.hostReset; split <;> simp [h]
@[simp] theorem answered_keeps {a : Stores} (r : DieId) (src : Src) (m : Msg) (e : State × Ans) (h : a.Keeps e.1.stores) :
    a.Keeps (answered r src m e).stores := by unfold answered; split <;> simp [h]
@[simp] theorem State.transact_keeps {a : Stores} (s : State) (r : DieId) (src : Src) (m : Msg) (run : DieId → State → State × Ans)
    (hr : ∀ e (t : State), t.stores.Keeps (run e t).1.stores) (h : a.Keeps s.stores) :
    a.Keeps (s.transact r src m run).stores := by
  unfold State.transact
  extract_lets late tid s1 c
  have h1 : a.Keeps s1.stores := by simpa [s1] using h
  have h2 : a.Keeps (run r (s1.upd r fun x => x.startTrans m.key.toNat m.tid.toNat)).1.stores := by
    refine .trans ?_ (hr _ _)
    simpa using h1
  simp [h, h1, h2]
@[simp] theorem State.receive_keeps {a : Stores} (s : State) (r : DieId) (src : Src) (m : Msg) (run : DieId → State → State × Ans)
    (hr : ∀ e (t : State), t.stores.Keeps (run e t).1.stores) (h : a.Keeps s.stores) :
    a.Keeps (s.receive r src m run).stores := by
  unfold State.receive
  extract_lets k x free f
  have ht : ∀ t : State, a.Keeps t.stores → a.Keeps (t.transact r src m run).stores := fun t k => t.transact_keeps r src m run hr k
  repeat' split
  all_goals simp [h, ht]
@[simp] theorem State.relayIn_keeps {a : Stores} (s : State) (d : DieId) (m : Msg) (src : Src) (h : a.Keeps s.stores) :
    a.Keeps (s.relayIn d m src).stores := by
  unfold State.relayIn
  dsimp only
  repeat' split
  all_goals simp [h]
@[simp] theorem State.flashWriteDone_keeps {a : Stores} (s : State) (d : DieId) (h : a.Keeps s.stores) :
    a.Keeps (s.flashWriteDone d).stores := by
  unfold State.flashWriteDone
  split
  · split
    · refine State.upd_keeps ?_ fun x hx => by simpa using hx
      exact ⟨h.fuses, fun hf => mwf_flashWrite _ _ _ (h.flash hf), h.cells⟩
    · exact h
  · exact h

/-! What writes the stores: the operations of the unit `Link`. -/

@[simp] theorem State.decideIn_keeps {a : Stores} (s : State) (d : DieId) (n : Nat) (frame : Int) (pocs : List Int) (h : a.Keeps s.stores) :
    a.Keeps (s.decideIn d n frame pocs).stores := by simp [State.decideIn, h]
@[simp] theorem State.ctlIn_keeps {a : Stores} (s : State) (d : DieId) (n1 : CtlMsg) (h : a.Keeps s.stores) :
    a.Keeps (s.ctlIn d n1).stores := by unfold State.ctlIn; split <;> simp [h]
@[simp] theorem State.controlRecord_keeps {a : Stores} (s : State) (d : DieId) (r : LinkRec) (h : a.Keeps s.stores) :
    a.Keeps (s.controlRecord d r).stores := by
  unfold State.controlRecord
  split <;> [split; skip] <;> simp [h]

/-! What writes the stores: the operations of the unit `SilcelRx`. -/

@[simp] theorem State.ctrlServe_keeps {a : Stores} (s : State) (d : DieId) (sp : Fin 8) (b : List Byte) (h : a.Keeps s.stores) :
    a.Keeps (s.ctrlServe d sp b).stores := by
  unfold State.ctrlServe
  split
  · split
    · simpa using h
    · exact State.receive_keeps _ _ _ _ _ (fun e t => by simp) h
  · simpa using h
@[simp] theorem State.ctrlTake_keeps {a : Stores} (s : State) (d : DieId) (sp : Fin 8) (n : Nat) (h : a.Keeps s.stores) :
    a.Keeps (s.ctrlTake d sp n).stores := by
  induction n generalizing s with
  | zero => exact h
  | succ n ih =>
    unfold State.ctrlTake
    split
    · exact h
    · exact ih _ (State.ctrlServe_keeps _ _ _ _ (by simpa using h))

/-! Every command. -/

/-- The flash and each DRAM array are in canonical form. -/
structure Stores.Canonical (t : Stores) : Prop where
  flash : mwf flashDefault t.flash = true
  cells : ∀ d, Memory.wf (t.cells d) = true

theorem Stores.Keeps.canonical {a b : Stores} (h : a.Keeps b) (ha : a.Canonical) : b.Canonical :=
  ⟨h.flash ha.flash, fun d => h.cells d (ha.cells d)⟩
/-- The canonical form does not speak of the fuses. -/
theorem Stores.canonical_fuses {t : Stores} {f : Fuses} (h : t.Canonical) : Stores.Canonical ⟨t.flash, f, t.cells0, t.cells1⟩ :=
  ⟨h.flash, h.cells⟩
theorem State.modFuses_canonical (s : State) (f : Fuses → Fuses) (h : s.stores.Canonical) : (s.modFuses f).stores.Canonical := by
  rw [State.modFuses, State.stores_updPkg]
  exact Stores.canonical_fuses h
/-- LIFE_FUSE burns a fuse and leaves the stores of bytes alone. -/
theorem State.lifeFuse_canonical (s : State) (h : s.stores.Canonical) : s.lifeFuse.stores.Canonical := by
  unfold State.lifeFuse
  split
  · exact h
  · extract_lets s1 s2 s3
    have h2 : s2.stores.Canonical := by
      have h1 : s1.stores.Canonical := by simpa [s1] using h
      simpa [s2] using Stores.canonical_fuses h1
    split <;> simpa [s3] using h2
/-- BURN_DONE burns fuses or repairs and leaves the stores of bytes alone. -/
theorem State.burnDone_canonical (s : State) (d : DieId) (bad : Option Nat) (h : s.stores.Canonical) : (s.burnDone d bad).stores.Canonical := by
  unfold State.burnDone
  split
  · exact h
  · extract_lets last fails n s1 s2 whole
    have h2 : s2.stores.Canonical := by simpa [s2, s1] using h
    split
    · extract_lets left done s3 s4 s5
      split <;> simpa [s5, s4, s3] using h2
    · extract_lets s3 s4 s5 s6 s7
      have h3 : s3.stores.Canonical := s2.modFuses_canonical _ h2
      have h5 : s5.stores.Canonical := by
        unfold s5
        split
        · split
          · split <;> simpa [s4] using h3
          · simpa [s4] using h3
        · simpa [s4] using h3
      split <;> simpa [s7, s6] using h5

theorem State.drain_keeps (s : State) (d : DieId) (r : Nat) : s.stores.Keeps (s.upd d fun x => { x with dram := x.dram.drain r }).stores :=
  State.upd_keeps (.refl _) fun _ hx => wf_drain _ _ hx
theorem State.linkRecord_keeps {a : Stores} (s : State) (d : DieId) (cls : Nat) (ok : Bool) (f : State → LinkRec → State)
    (hf : ∀ t r, a.Keeps t.stores → a.Keeps (f t r).stores) (h : a.Keeps s.stores) : a.Keeps (s.linkRecord d cls ok f).stores := by
  unfold State.linkRecord
  split
  · exact h
  · split
    · exact h
    · extract_lets s1
      have h1 : a.Keeps s1.stores := by simpa [s1] using h
      simp [h1, hf]
/-- An opcode that tiles and cores share answers as a command of the die that its place lies on, and writes registers only. -/
theorem shared_onDie (e : Exec) (ok : Bool) (f : Tile → Tile) (g : CoreRegs → CoreRegs) (s : State) :
    ∃ d r, shared e ok f g s = onDie s d ok r ∧ s.stores.Keeps r.stores := by
  cases e with
  | tile d t => exact ⟨d, _, rfl, by simp⟩
  | core d c => exact ⟨d, _, rfl, by simp⟩

theorem execNop_onDie (e : Exec) (ecc : Ecc) (s : State) :
    ∃ d r, execNop e ecc s = onDie s d (Instr.wf (.nop e ecc)) r ∧ s.stores.Keeps r.stores := by
  cases e with
  | tile d t => exact ⟨d, _, rfl, by split <;> simp⟩
  | core d c => exact ⟨d, _, rfl, by simp⟩

/-- A command that burns a fuse. -/
def BurnsFuses (i : Instr) : Prop := (∃ d bad, i = .burnDone d bad) ∨ i = .lifeFuse

/-- What keeps the stores keeps their canonical form. -/
theorem answers_of_keeps {P : Prop} {R : Result} {ok : Bool} {s : State} (h : ∃ d r, R = onDie s d ok r ∧ s.stores.Keeps r.stores) :
    ∃ d r, R = onDie s d ok r ∧ (P → s.stores.Keeps r.stores) ∧ (s.stores.Canonical → r.stores.Canonical) := by
  obtain ⟨d, r, he, hr⟩ := h
  exact ⟨d, r, he, fun _ => hr, hr.canonical⟩

/-- Every command answers through `onDie`: it names one die (die 0 where it names none) and is refused just where it is not
well-formed. What it makes of the state keeps the stores, but for the fuses of the commands that burn them. But for the five commands with
a case of their own, a command has one of three shapes: shared by tiles and cores, of a die that it names, or of die 0. -/
theorem exec_onDie (i : Instr) (s : State) :
    ∃ d r, exec i s = onDie s d i.wf r ∧ (¬BurnsFuses i → s.stores.Keeps r.stores) ∧ (s.stores.Canonical → r.stores.Canonical) := by
  cases i
  case burnDone d bad => exact ⟨d, _, rfl, fun h => absurd (.inl ⟨d, bad, rfl⟩) h, s.burnDone_canonical d bad⟩
  case lifeFuse => exact ⟨0, _, rfl, fun h => absurd (.inr rfl) h, s.lifeFuse_canonical⟩
  all_goals refine answers_of_keeps ?_
  case nop e ecc => exact execNop_onDie e ecc s
  case controlRecord d dt ok => exact ⟨d, _, rfl, State.linkRecord_keeps _ _ _ _ _ (fun t r k => t.controlRecord_keeps _ _ k) (by simp)⟩
  case dramWriteDrain d r => exact ⟨d, _, rfl, s.drain_keeps d r⟩
  all_goals first
    | exact shared_onDie _ _ _ _ _
    | exact ⟨_, _, rfl, by simp⟩
    | exact ⟨0, _, rfl, by simp⟩

theorem onDie_canonical {s r t : State} {d : DieId} {ok : Bool} (h : r.stores.Canonical) (hr : onDie s d ok r = .next t) : t.stores.Canonical := by
  rcases onDie_cases s d ok r with ⟨_, he⟩ | ⟨_, _, he⟩ | ⟨_, _, he⟩ <;> rw [he] at hr <;> cases hr
  exact h
/-- Every command keeps the stores of bytes in canonical form. -/
theorem exec_canonical {i : Instr} {s r : State} (h : s.stores.Canonical) (hr : exec i s = .next r) : r.stores.Canonical := by
  obtain ⟨d, t, he, -, ht⟩ := exec_onDie i s
  exact onDie_canonical (ht h) (he ▸ hr)

/-- The canonical form of the statement. -/
theorem State.canonical_iff (s : State) : s.stores.Canonical ↔ s.flashWf = true ∧ ∀ d : DieId, Memory.wf (s.die d).dram.cells = true := by
  simp only [Die.dram_cells, State.die_cells]
  exact ⟨fun h => ⟨h.flash, h.cells⟩, fun h => ⟨h.1, h.2⟩⟩

end Sys2Proof.Machine

namespace Sys2Proof
open Sys2Proof.Machine

/-- Settles O57: every command answers through `onDie`, whose three answers give the clauses. -/
theorem outcomesByForm : Obligations.OutcomesByForm := by
  intro i s
  obtain ⟨d, f, hf, -⟩ := exec_onDie i s
  rw [hf]
  rcases onDie_cases s d i.wf f with ⟨hw, he⟩ | ⟨hw, hd, he⟩ | ⟨hw, hd, he⟩ <;> rw [he] <;> simp only [hw]
  · simp
  · have hdual : s.dual = false := by
      simp only [State.has, Bool.or_eq_false_iff] at hd
      exact hd.2
    simp [hdual]
  · simp

/-- Settles O59: the canonical form of the three stores is an invariant of every command. -/
theorem storesKept : Obligations.StoresKept := by
  intro s r hf hc hr
  have h : s.stores.Canonical := s.canonical_iff.mpr ⟨hf, hc⟩
  refine r.canonical_iff.mp ?_
  unfold step at hr
  split at hr
  · cases hr
    exact h
  · exact exec_canonical (by simpa using h) hr

end Sys2Proof
end

section
/-! Boot and self test on a package of one die. The clause of O54 on a package whose die 0 runs no firmware asks BOOT_ROM of die 1 for a
next state without asking that die 1 is there; on a package of one die that command faults (R3). -/

namespace Sys2Proof.Machine

/-- BOOT_ROM of die 1 faults on a package of one die. -/
theorem exec_bootRom_one {s : State} (h : s.dual = false) (dt : Nat) (size : Option Nat) (ok : Bool) :
    exec (.bootRom 1 dt size ok) s = .fault .noInstance := by
  have hhas : s.has 1 = false := by simp [State.has, h]
  change onDie s 1 true _ = _
  simp [onDie, hhas]

/-- A package of one die as power-on leaves it: no firmware runs. -/
def oneDie : State := State.reset.setFld 0 R.SY_VARIANT_DUAL 0

theorem oneDie_dual : oneDie.dual = false := by decide +kernel
theorem oneDie_fw : oneDie.pkg.fw = none := rfl

end Sys2Proof.Machine

namespace Sys2Proof
open Sys2Proof.Machine

/-- Refutes O54: on a package of one die without running firmware, BOOT_ROM of die 1 answers that its die is not there and no
next state. -/
theorem not_bootAndTest : ¬ Obligations.BootAndTest := by
  intro h
  obtain ⟨-, -, -, hrom, -⟩ := h oneDie 0 .host 0 none true true [] [] [] [] ⟨.tile, 0, 0⟩ (has_zero _)
  obtain ⟨r, hr, -⟩ := hrom oneDie_fw
  rw [exec_bootRom_one oneDie_dual] at hr
  cases hr

end Sys2Proof
end

section
/-! The state after reset (R36, R42, R70): registers that no power-on record lists read their table's reset value. -/

namespace Sys2Proof.Machine

/-- Die 0 lists SY_VARIANT alone. -/
theorem reset_die0_reg {a : Nat} (h : a ≠ 4) : State.reset.die0.reg a = regDefault a := by
  simp [State.reset, Die.reset0, Die.reg, mget, h]

/-- Die 1 lists SY_VARIANT and TB_MODE alone. -/
theorem reset_die1_reg {a : Nat} (h : a ≠ 4) (hm : a ≠ 0x20000) : State.reset.die1.reg a = regDefault a := by
  simp [State.reset, Die.reset1, Die.reg, mget, h, hm]

end Sys2Proof.Machine

namespace Sys2Proof
open Sys2Proof.Machine

/-- Settles O58: the listed registers give every register; the rest is a finite check of the reset record. -/
theorem resetValues : Obligations.ResetValues := by
  refine ⟨fun a h => ⟨reset_die0_reg h, reset_die1_reg h⟩, ?_⟩
  decide +kernel

end Sys2Proof
end

section
/-! A compare unit in MODE 1 on a cadence that a step leaves the rest of a frame of the old grid. Its target is read by the nearer
reading of its frame (R41, R74), against the frame that the cadence is in by the old grid (R59); a periodic target moved past the
present station time (R65) lies more than 2^31 frames from that one where the step is long, so that it reads as passed. -/

namespace Sys2Proof.Machine

/-- Cadence 2 of die 0 at 60 frames of 1,125 lines a second, after its first pulse; compare unit 5 is set up for MODE 1 on it, periodic
with a period of 7 lines, and not armed; a step of 10^9 s forward is pending. -/
def beforeStep : State := State.reset.upd 0 fun x =>
  let x := { x with pw := { x.pw with phase := .ready }, clk := { x.clk with servo := { x.clk.servo with step := some (1000000000 * second / 4096) } } }
  let x := (x.setFld R.TB_CAD_CFG_RATE 10 2).setFld R.TB_CAD_CFG_LINES 1125 2
  (x.setFld R.TB_CMP_PERIOD 7 5).modCad 2 fun k => { k with next := 1 }
/-- The step has been applied (R60). -/
def afterStep : State := beforeStep.stepApply 0
/-- CTRL of the unit: armed, MODE 1, cadence 2, periodic. -/
def armPeriodic : W32 := 0x2B


/-- The unit's target is 0 s, which the step has passed over, and die 0 accepts the write that arms it. -/
theorem armPeriodic_accepted :
    let x := afterStep.die 0
    let y := x.setReg 0x20450 (BitVec.ofNat 32 (x.after [(0x20450, armPeriodic)] 0x20450))
    afterStep.accepts 0 .host 0x20450 armPeriodic = true ∧ y.cmpArmed 5 = true ∧ y.cmpDue 5 = some 0 ∧ (0 : Int) < x.clk.now ∧
      y.fld R.TB_CMP_CTRL_PERIODIC 5 = 1 := by decide +kernel

/-- The state after the write. -/
def armed : State := { afterStep.command 0 .host 0x20450 armPeriodic with pending := afterStep.pending }

theorem exec_armPeriodic : exec (.cmpWrite 0 .host 5 0 armPeriodic) afterStep = .next armed := onDie_next _ (has_zero _)

/-- The target that the periodic unit has moved to reads 0 s again. -/
theorem armed_cmpDue : (armed.die 0).cmpDue 5 = some 0 := by decide +kernel

end Sys2Proof.Machine

namespace Sys2Proof
open Sys2Proof.Machine

/-- Refutes O28: after a step of 10^9 s, a periodic unit in MODE 1 on a cadence that is still in a frame of the old grid keeps a
target that has passed. -/
theorem not_armedInThePast : ¬ Obligations.ArmedInThePast := by
  intro h
  obtain ⟨hacc, harm, hdue, hpast, hper⟩ := armPeriodic_accepted
  obtain ⟨r, hr, -, -, -, -, -, hfuture⟩ := (h afterStep 0 .host 5 0 armPeriodic 0 hacc harm hdue hpast).2 hper
  obtain rfl := Host.Outcome.next.inj (exec_armPeriodic.symm.trans hr)
  exact lt_asymm hpast (hfuture 0 armed_cmpDue).1

end Sys2Proof
end

section
/-! What posts and herdbook records leave of a die: they touch its registers in the blocks SM and HB and its subscriptions alone. Every
event that is posted or recorded (R71, R416, R597) is read through this. -/

namespace Sys2Proof.Machine

/-- No post and no herdbook record writes the register at an address: it lies outside the blocks SM and HB (R435). -/
abbrev Quiet (a : Nat) : Prop := (a < 0x1A0000 ∨ 0x1B0000 ≤ a) ∧ (a < 0x230000 ∨ 0x240000 ≤ a)

/-- Die `y` is die `x` after posts and records. -/
structure Die.Posted (x y : Die) : Prop where
  rest : y = { x with regs := y.regs, sm := y.sm }
  reg : ∀ {a}, Quiet a → y.reg a = x.reg a

namespace Die.Posted

variable {x y z : Die}

theorem refl (x : Die) : x.Posted x := ⟨rfl, fun _ => rfl⟩
theorem trans (h : x.Posted y) (k : y.Posted z) : x.Posted z :=
  ⟨by rw [k.rest, h.rest], fun q => (k.reg q).trans (h.reg q)⟩
theorem clk (h : x.Posted y) : y.clk = x.clk := by rw [h.rest]
theorem live (h : x.Posted y) : y.live = x.live := by rw [h.rest]
theorem tiles (h : x.Posted y) : y.tiles = x.tiles := by rw [h.rest]
theorem par (h : x.Posted y) : y.par = x.par := by rw [h.rest]
theorem dma (h : x.Posted y) : y.dma = x.dma := by rw [h.rest]
theorem th (h : x.Posted y) (n : Nat) : y.th n = x.th n := by rw [h.rest]; rfl
theorem fld (h : x.Posted y) (f : Fld) (i j : Nat) (q : Quiet (fldAddr f i j)) : y.fld f i j = x.fld f i j := by
  unfold Die.fld; rw [h.reg q]
/-- A register that is written in the blocks SM or HB. -/
theorem setReg (h : x.Posted y) {a : Nat} (v : W32) (q : ¬Quiet a) : x.Posted (y.setReg a v) := by
  refine ⟨by rw [h.rest]; rfl, fun {b} qb => ?_⟩
  have e : b ≠ a := fun e => q (e ▸ qb)
  rw [y.reg_setReg_other v e, h.reg qb]
theorem setFld (h : x.Posted y) (f : Fld) (v i j : Nat) (q : ¬Quiet (fldAddr f i j)) : x.Posted (y.setFld f v i j) := h.setReg _ q
/-- Subscriptions that change. -/
theorem setSm (h : x.Posted y) (m : Silcel) : x.Posted { y with sm := m } := ⟨by rw [h.rest], h.reg⟩

end Die.Posted

/-- A fold of which each step posts or records. -/
theorem Die.posted_foldl {α : Type} {f : Die → α → Die} {l : List α} (h : ∀ y : Die, ∀ a ∈ l, y.Posted (f y a)) (x : Die) : x.Posted (l.foldl f x) := by
  induction l generalizing x with
  | nil => exact .refl x
  | cons a l ih => exact (h x a (by simp)).trans (ih (fun y b hb => h y b (by simp [hb])) _)

/-- A post. -/
theorem Die.post_posted (x : Die) (t a b n : Nat) : x.Posted (x.post t a b n) := by
  refine Die.posted_foldl (fun y i hi => ?_) x
  have hi : i < 4 := List.mem_range.mp hi
  have q : ¬Quiet (fldAddr R.SM_SUB_DROPS i 0) := by simp only [Quiet, fldAddr, R.SM_SUB_DROPS]; omega
  dsimp only
  split
  · split
    · exact (Posted.refl y).setSm _
    · exact ((((Posted.refl y).setSm _).setFld _ _ _ _ q).setFld _ _ _ _ (by decide)).setFld _ _ _ _ (by decide)
  · exact .refl y

/-- An event: its bit is set, and posted. -/
theorem State.event_posted (s : State) (d : DieId) (f : Fld) (i n : Nat) :
    ((s.die d).setFld f 1 i).Posted ((s.event d f i n).die d) := by
  unfold State.event
  rw [State.die_upd_same]
  exact Die.post_posted _ _ _ _ _

/-- A record. -/
theorem State.hbRecord_posted (s : State) (d e : DieId) (c n v : Nat) (p b : Bool) :
    (s.die e).Posted ((s.hbRecord d c n v p b).die e) := by
  have lost (t : State) : (t.die e).Posted (((t.count 0 R.HB_LOST).event 0 R.HB_EVENTS_LOST).die e) := by
    by_cases he : e = 0
    · subst he
      refine .trans ?_ ((t.count 0 R.HB_LOST).event_posted 0 R.HB_EVENTS_LOST 0 0)
      unfold State.count
      rw [State.die_upd_same]
      exact ((Die.Posted.refl _).setFld _ _ _ _ (by decide)).setFld _ _ _ _ (by decide)
    · rw [State.event_die_other _ _ _ _ he, State.count, State.die_upd_other _ _ he]
      exact .refl _
  unfold State.hbRecord State.hbAdd
  dsimp only
  split
  · split
    · exact .refl _
    · exact lost _
  · split <;> exact .refl _

/-- An event that is posted and recorded, on its die. -/
theorem State.eventCad_posted (s : State) (d : DieId) (f : Fld) (i n c v : Nat) (p : Bool) :
    ((s.die d).setFld f 1 i).Posted ((s.eventCad d f i n c v p).die d) :=
  (s.event_posted d f i v).trans (State.hbRecord_posted _ d d _ _ _ _ _)
theorem State.eventRec_posted (s : State) (d : DieId) (f : Fld) (i n v : Nat) (p : Bool) :
    ((s.die d).setFld f 1 i).Posted ((s.eventRec d f i n v p).die d) := s.eventCad_posted d f i n _ v p

end Sys2Proof.Machine
end

section
/-! The servo of a die (R47 to R52): time moves its frequency alone, the entry to a state, and the loss of its reference. -/

namespace Sys2Proof.Machine

/-! ### Time -/

/-- Time moves a servo's frequency and what is recorded of it, and nothing else. -/
theorem Servo.run_rest (v : Servo) (sup dt : Nat) : (v.run sup dt).1 =
    { v with freq := (v.run sup dt).1.freq, freqAt := (v.run sup dt).1.freqAt, history := (v.run sup dt).1.history } := by
  unfold Servo.run
  dsimp only
  split
  · rfl
  · split <;> rfl
@[simp] theorem Servo.run_state (v : Servo) (sup dt : Nat) : (v.run sup dt).1.state = v.state := by rw [Servo.run_rest]
@[simp] theorem Servo.run_samples (v : Servo) (sup dt : Nat) : (v.run sup dt).1.samples = v.samples := by rw [Servo.run_rest]
@[simp] theorem Servo.run_inside (v : Servo) (sup dt : Nat) : (v.run sup dt).1.inside = v.inside := by rw [Servo.run_rest]
@[simp] theorem Servo.run_outside (v : Servo) (sup dt : Nat) : (v.run sup dt).1.outside = v.outside := by rw [Servo.run_rest]
@[simp] theorem Servo.run_inLocked (v : Servo) (sup dt : Nat) : (v.run sup dt).1.inLocked = v.inLocked := by
  rw [Servo.run_rest]
@[simp] theorem Servo.run_rejectRun (v : Servo) (sup dt : Nat) : (v.run sup dt).1.rejectRun = v.rejectRun := by
  rw [Servo.run_rest]
@[simp] theorem Servo.run_predicted (v : Servo) (sup dt : Nat) : (v.run sup dt).1.predicted = v.predicted := by
  rw [Servo.run_rest]
@[simp] theorem Servo.run_lastFrameSync (v : Servo) (sup dt : Nat) : (v.run sup dt).1.lastFrameSync = v.lastFrameSync := by
  rw [Servo.run_rest]
@[simp] theorem Servo.run_measure (v : Servo) (sup dt : Nat) : (v.run sup dt).1.measure = v.measure := by rw [Servo.run_rest]
@[simp] theorem Servo.run_step (v : Servo) (sup dt : Nat) : (v.run sup dt).1.step = v.step := by rw [Servo.run_rest]
@[simp] theorem Servo.run_want (v : Servo) (sup dt : Nat) : (v.run sup dt).1.want = v.want := by rw [Servo.run_rest]
/-- A frequency that stands where it is asked for stays there. -/
theorem Servo.run_settled {v : Servo} (sup dt : Nat) (h : v.freq = v.want) : (v.run sup dt).1 = v := by simp [Servo.run, h]

@[simp] theorem State.advance_servo (s : State) (dt : Nat) (d : DieId) :
    ((s.advance dt).die d).clk.servo = ((s.die d).clk.servo.run s.now dt).1 := by unfold State.die; split <;> rfl
@[simp] theorem State.advance_backup_state (s : State) (dt : Nat) (d : DieId) :
    ((s.advance dt).die d).clk.backup.state = (s.die d).clk.backup.state := by
  unfold State.die; split <;> exact Servo.run_state _ _ _
@[simp] theorem State.advance_backup_inLocked (s : State) (dt : Nat) (d : DieId) :
    ((s.advance dt).die d).clk.backup.inLocked = (s.die d).clk.backup.inLocked := by
  unfold State.die; split <;> exact Servo.run_inLocked _ _ _
@[simp] theorem State.advance_causes (s : State) (dt : Nat) (d : DieId) : ((s.advance dt).die d).clk.causes = (s.die d).clk.causes := by
  unfold State.die; split <;> rfl
@[simp] theorem State.advance_cads (s : State) (dt : Nat) (d : DieId) : ((s.advance dt).die d).clk.cads = (s.die d).clk.cads := by
  unfold State.die; split <;> rfl
@[simp] theorem State.advance_reg (s : State) (dt : Nat) (d : DieId) (a : Nat) : ((s.advance dt).die d).reg a = (s.die d).reg a := by
  unfold Die.reg; rw [State.advance_die_regs]
@[simp] theorem State.advance_die_fld (s : State) (dt : Nat) (d : DieId) (f : Fld) (i j : Nat) :
    ((s.advance dt).die d).fld f i j = (s.die d).fld f i j := s.advance_fld dt d f i j
@[simp] theorem State.advance_source (s : State) (dt : Nat) (d : DieId) : (s.advance dt).source d = s.source d := by
  simp [State.source, Die.flag]

@[simp] theorem State.upd_now (s : State) (d : DieId) (f : Die → Die) : (s.upd d f).now = s.now := congrArg Pkg.sup (s.upd_pkg d f)
@[simp] theorem State.upd_planRuns (s : State) (d : DieId) (f : Die → Die) : (s.upd d f).planRuns = s.planRuns := by
  simp [State.planRuns]
@[simp] theorem State.setFld_now (s : State) (d : DieId) (f : Fld) (v i j : Nat) : (s.setFld d f v i j).now = s.now := s.upd_now d _
@[simp] theorem State.eventRec_now (s : State) (d : DieId) (f : Fld) (i n v : Nat) (p : Bool) : (s.eventRec d f i n v p).now = s.now :=
  s.eventCad_sup d f i n _ v p
@[simp] theorem State.eventRec_planRuns (s : State) (d : DieId) (f : Fld) (i n v : Nat) (p : Bool) :
    (s.eventRec d f i n v p).planRuns = s.planRuns := congrArg (·.running.isSome) (s.eventCad_plans d f i n _ v p)
theorem State.die_zero (s : State) : s.die 0 = s.die0 := rfl
theorem State.die_one (s : State) : s.die 1 = s.die1 := rfl

/-! ### The entry to a state -/

@[simp] theorem Die.servo_false (x : Die) : x.servo false = x.clk.servo := rfl
theorem State.enter_self {s : State} {d : DieId} {st : ServoState} (h : (s.die d).clk.servo.state = st) : s.enter d false st = s := if_pos h
/-- The station servo of a die that enters a state it is not in. -/
theorem State.enter_eq {s : State} {d : DieId} {st : ServoState} (h : (s.die d).clk.servo.state ≠ st) : s.enter d false st =
    ((s.upd d fun x => x.modServo false fun v => v.enter s.now st).upd d fun x => { x with clk := x.clk.holdTimes s.now st }).eventRec
      d st.event 0 d.val st.code := by
  unfold State.enter
  rw [if_neg (by exact h)]
  simp
theorem State.enter_posted {s : State} {d : DieId} {st : ServoState} (h : (s.die d).clk.servo.state ≠ st) :
    (({ s.die d with clk := Clock.holdTimes { (s.die d).clk with servo := (s.die d).clk.servo.enter s.now st } s.now st } : Die).setFld
      st.event 1).Posted ((s.enter d false st).die d) := by
  rw [State.enter_eq h]
  refine Eq.subst (motive := fun x : Die => Die.Posted (x.setFld st.event 1) _) ?_ (State.eventRec_posted _ d st.event 0 d.val st.code false)
  simp [Die.modServo]
theorem State.enter_clk {s : State} {d : DieId} {st : ServoState} (h : (s.die d).clk.servo.state ≠ st) : ((s.enter d false st).die d).clk =
    Clock.holdTimes { (s.die d).clk with servo := (s.die d).clk.servo.enter s.now st } s.now st := (State.enter_posted h).clk
theorem State.enter_servo {s : State} {d : DieId} {st : ServoState} (h : (s.die d).clk.servo.state ≠ st) :
    ((s.enter d false st).die d).clk.servo = (s.die d).clk.servo.enter s.now st := by rw [State.enter_clk h]; rfl
@[simp] theorem State.enter_now (s : State) (d : DieId) (b : Bool) (st : ServoState) : (s.enter d b st).now = s.now := by
  unfold State.enter
  split
  · rfl
  · cases b <;> simp
/-- A servo is in the state that it has entered. -/
theorem State.enter_servo_state (s : State) (d : DieId) (st : ServoState) : ((s.enter d false st).die d).clk.servo.state = st := by
  by_cases h : (s.die d).clk.servo.state = st
  · rw [State.enter_self h, h]
  · rw [State.enter_servo h]; rfl
theorem State.enter_event {s : State} {d : DieId} {st : ServoState} (h : (s.die d).clk.servo.state ≠ st) :
    (s.enter d false st).fld d st.event = 1 := by
  refine ((State.enter_posted h).fld _ _ _ ?_).trans (Die.fld_setFld_same _ _ _ _ _ ?_ |>.trans ?_) <;> cases st <;> decide
/-- An entry changes no field but its event bit. -/
theorem State.enter_fld (s : State) (d : DieId) (st : ServoState) (f : Fld) (i j : Nat) (q : Quiet (fldAddr f i j))
    (h : fldAddr f i j ≠ 0x20008 ∨ (f.lo ≤ f.hi ∧ (f.hi < st.event.lo ∨ st.event.hi < f.lo))) :
    (s.enter d false st).fld d f i j = s.fld d f i j := by
  by_cases hs : (s.die d).clk.servo.state = st
  · rw [State.enter_self hs]
  · refine ((State.enter_posted hs).fld _ _ _ q).trans ?_
    rcases h with h | ⟨hf, h⟩
    · exact Die.fld_setFld_addr _ _ _ _ _ _ _ _ (by cases st <;> exact h)
    · exact Die.fld_setFld_apart _ _ _ _ _ _ _ _ (by cases st <;> decide) hf h.symm

end Sys2Proof.Machine
end

section
/-! Loss of the reference and the limits of holding it over (R48, R51, R54, R62). -/

namespace Sys2Proof.Machine

/-! ### Loss of a reference -/

theorem Die.modServo_fld (x : Die) (b : Bool) (g : Servo → Servo) (f : Fld) (i j : Nat) : (x.modServo b g).fld f i j = x.fld f i j := rfl

/-- A servo in ACQUIRE or LOCKED that loses its reference holds it over; one in FREE stays there (R47). -/
theorem State.servoLoss_following {s : State} {d : DieId} (h : (s.die d).clk.servo.state = .acquire ∨ (s.die d).clk.servo.state = .locked) :
    s.servoLoss d false = s.enter d false .holdover := if_pos h
theorem State.servoLoss_free {s : State} {d : DieId} (h : (s.die d).clk.servo.state = .free) : s.servoLoss d false = s := by
  unfold State.servoLoss
  rw [if_neg (by simp [h])]

@[simp] theorem State.refInGone_now (s : State) : s.refInGone.now = s.now := s.upd_now 0 _
@[simp] theorem State.refInGone_planRuns (s : State) : s.refInGone.planRuns = s.planRuns := s.upd_planRuns 0 _
/-- A REF_IN without a signal leaves a servo in its state. -/
@[simp] theorem State.refInGone_servo_state (s : State) (d : DieId) : (s.refInGone.die d).clk.servo.state = (s.die d).clk.servo.state := by
  unfold State.refInGone
  by_cases h : d = 0
  · subst h; rw [State.die_upd_same]; rfl
  · rw [State.die_upd_other _ _ h]
theorem State.refInGone_format (s : State) : s.refInGone.fld 0 R.TB_REF_FORMAT_FORMAT = 0 := by
  unfold State.refInGone State.fld
  rw [State.die_upd_same, Die.modServo_fld, Die.fld, Die.reg_setReg_same]
  decide

/-- The loss of the reference that a servo follows under a plan, once its time has come: the servo loses it. -/
theorem State.refLoss_followed {s : State} {d : DieId} {t : Nat} (hidle : s.idleRefLost d false = false) (hdue : s.lossDue d false = some t)
    (hplan : s.planRuns = true) :
    ∃ u : State, s.refLoss d false = u.servoLoss d false ∧ u.now = max s.now t ∧ (u.die d).clk.servo.state = (s.die d).clk.servo.state := by
  unfold State.refLoss
  rw [if_neg (by simp [hidle]), hdue]
  dsimp only
  split
  · refine ⟨_, if_pos ?_, ?_, ?_⟩
    · simp [State.advanceTo, hplan]
    · simp [State.advanceTo_now]
    · simp [State.advanceTo]
  · exact ⟨_, rfl, s.advanceTo_now t, by simp [State.advanceTo]⟩

/-- The loss of a REF_IN that die 0 does not follow. -/
theorem State.refLoss_idle {s : State} {t : Nat} (hidle : s.idleRefLost 0 false = true) (hdue : s.refInDue = some t) :
    s.refLoss 0 false = (s.advanceTo t).refInGone := by
  unfold State.refLoss
  rw [if_pos hidle, hdue]

/-! ### Die 0's timing (R61, R62) -/

theorem State.upd_upd (s : State) (d : DieId) (f g : Die → Die) : (s.upd d f).upd d g = s.upd d fun x => g (f x) := by
  unfold State.upd
  rw [State.die_setDie_same]
  unfold State.setDie
  split <;> rfl

/-- A servo that takes another source is rewritten, and then enters FREE, ACQUIRE or no other state. -/
theorem State.sourceMoved_cases (s : State) (d : DieId) : ∃ f : Die → Die,
    (∀ x, (f x).regs = x.regs ∧ (f x).clk.lastWord = x.clk.lastWord) ∧
    (s.sourceMoved d = s.upd d f ∨ s.sourceMoved d = (s.upd d f).enter d false .free ∨ s.sourceMoved d = (s.upd d f).enter d false .acquire) := by
  unfold State.sourceMoved
  dsimp only
  split
  · rw [State.upd_upd]
    refine ⟨_, ?_, .inr (.inl rfl)⟩
    exact fun x => ⟨rfl, rfl⟩
  · split
    · refine ⟨_, ?_, .inr (.inr rfl)⟩
      exact fun x => ⟨rfl, rfl⟩
    · refine ⟨_, ?_, .inl rfl⟩
      exact fun x => ⟨rfl, rfl⟩
/-- Another source changes no field but the bits FREE and ACQUIRE of TB_EVENTS. -/
theorem State.sourceMoved_fld (s : State) (d : DieId) (f : Fld) (i j : Nat) (q : Quiet (fldAddr f i j))
    (h : fldAddr f i j ≠ 0x20008 ∨ (f.lo ≤ f.hi ∧ f.hi < 9)) : (s.sourceMoved d).fld d f i j = s.fld d f i j := by
  obtain ⟨g, hg, e⟩ := s.sourceMoved_cases d
  have hu : (s.upd d g).fld d f i j = s.fld d f i j := by
    unfold State.fld Die.fld Die.reg
    rw [State.die_upd_same, (hg _).1]
  rcases e with e | e | e
  · rw [e, hu]
  · rw [e, State.enter_fld _ _ .free _ _ _ q (h.imp_right fun h => ⟨h.1, .inl (Nat.lt_succ_of_lt h.2)⟩), hu]
  · rw [e, State.enter_fld _ _ .acquire _ _ _ q (h.imp_right fun h => ⟨h.1, .inl h.2⟩), hu]
theorem State.enter_lastWord (s : State) (d : DieId) (st : ServoState) : ((s.enter d false st).die d).clk.lastWord = (s.die d).clk.lastWord := by
  by_cases h : (s.die d).clk.servo.state = st
  · rw [State.enter_self h]
  · rw [State.enter_clk h]; rfl
theorem State.sourceMoved_lastWord (s : State) (d : DieId) : ((s.sourceMoved d).die d).clk.lastWord = (s.die d).clk.lastWord := by
  obtain ⟨g, hg, e⟩ := s.sourceMoved_cases d
  rcases e with e | e | e <;> simp [e, State.enter_lastWord, hg]
theorem State.sourceMoved_now (s : State) (d : DieId) : (s.sourceMoved d).now = s.now := by
  obtain ⟨g, hg, e⟩ := s.sourceMoved_cases d
  rcases e with e | e | e <;> simp [e]

/-- A die without a timing word in hand. -/
def Die.wordless (x : Die) : Die := { x with clk := { x.clk with lastWord := none } }
@[simp] theorem Die.wordless_fld (x : Die) (f : Fld) (i j : Nat) : x.wordless.fld f i j = x.fld f i j := rfl
/-- Die 1 after 16 missing words: no word is in hand, and LINK_TIMING_LOST is set and recorded (R61). -/
def State.wordsMissed (s : State) (t : Nat) : State :=
  (((s.advanceTo (t + 16 * usec)).upd 1 Die.wordless).setFld 1 R.TB_STATUS_LINK_TIMING 0).eventRec 1 R.TB_EVENTS_LINK_TIMING_LOST 0 1 0
theorem State.wordsMissed_posted (s : State) (t : Nat) :
    ((((s.advanceTo (t + 16 * usec)).die 1).wordless.setFld R.TB_STATUS_LINK_TIMING 0).setFld R.TB_EVENTS_LINK_TIMING_LOST 1).Posted
      ((s.wordsMissed t).die 1) := by
  refine Eq.subst (motive := fun x : Die => Die.Posted (x.setFld R.TB_EVENTS_LINK_TIMING_LOST 1) _) ?_ (State.eventRec_posted _ 1 _ 0 1 0 false)
  rw [State.setFld, State.die_upd_same, State.die_upd_same]
theorem State.wordsMissed_now (s : State) (t : Nat) : (s.wordsMissed t).now = max s.now (t + 16 * usec) := by
  simp [State.wordsMissed, State.advanceTo_now]
theorem State.wordsMissed_clk (s : State) (t : Nat) :
    ((s.wordsMissed t).die 1).clk = { ((s.advanceTo (t + 16 * usec)).die 1).clk with lastWord := none } :=
  (s.wordsMissed_posted t).clk
theorem State.wordsMissed_linkTiming (s : State) (t : Nat) : (s.wordsMissed t).fld 1 R.TB_STATUS_LINK_TIMING = 0 := by
  refine ((s.wordsMissed_posted t).fld _ _ _ (by decide)).trans ?_
  rw [Die.fld_setFld_addr _ _ _ _ _ _ _ _ (by decide), Die.fld_setFld_same _ _ _ _ _ (by decide), Nat.zero_mod]
theorem State.wordsMissed_event (s : State) (t : Nat) : (s.wordsMissed t).fld 1 R.TB_EVENTS_LINK_TIMING_LOST = 1 :=
  ((s.wordsMissed_posted t).fld _ _ _ (by decide)).trans (Die.fld_setFld_same _ _ _ _ _ (by decide))
/-- Every other field is as before. -/
theorem State.wordsMissed_fld (s : State) (t : Nat) (f : Fld) (i j : Nat) (q : Quiet (fldAddr f i j)) (h : fldAddr f i j ≠ 0x20008)
    (hb : f.lo ≤ f.hi ∧ (f.hi < 10 ∨ 10 < f.lo)) : (s.wordsMissed t).fld 1 f i j = s.fld 1 f i j := by
  refine ((s.wordsMissed_posted t).fld _ _ _ q).trans ?_
  rw [Die.fld_setFld_addr _ _ _ _ _ _ _ _ h, Die.fld_setFld_apart _ _ _ _ _ _ _ _ (by decide) hb.1 hb.2.symm]
  rw [Die.wordless_fld, State.advanceTo, State.advance_die_fld]
  rfl

/-- DIE0_TIMING_LOST on a die 1 that follows die 0: to its backup PTP where that is ready, and to HOLDOVER otherwise (R62). -/
theorem State.timingLost_following {s : State} {t : Nat} (hw : s.die1.clk.lastWord = some t) (hs : s.source 1 = 3) : s.timingLost =
    if s.fld 1 R.TB_MODE_BACKUP = 1 ∧ s.die1.clk.backup.state = .locked ∧ s.die1.clk.backup.inLocked = 16 then
      ((s.wordsMissed t).setFld 1 R.TB_STATUS_BACKUP_ACTIVE 1).sourceMoved 1
    else (s.wordsMissed t).servoLoss 1 false := by
  have hstate : (s.wordsMissed t).die1.clk.backup.state = s.die1.clk.backup.state := by
    rw [← State.die_one, State.wordsMissed_clk]; exact s.advance_backup_state _ 1
  have hin : (s.wordsMissed t).die1.clk.backup.inLocked = s.die1.clk.backup.inLocked := by
    rw [← State.die_one, State.wordsMissed_clk]; exact s.advance_backup_inLocked _ 1
  have hb := s.wordsMissed_fld t R.TB_MODE_BACKUP 0 0 (by decide) (by decide) (by decide)
  rw [← hstate, ← hin, ← hb]
  unfold State.timingLost
  rw [hw]
  dsimp only
  rw [if_neg (by simp [State.advanceTo, hs])]
  rfl

end Sys2Proof.Machine

namespace Sys2Proof
open Sys2Proof.Machine

/-- Settles O31: each loss moves time to its instant and enters the state that R47 gives. -/
theorem lossAndHoldover : Obligations.LossAndHoldover := by
  intro s d hd x v
  refine ⟨fun t hdue hplan hidle => ?_, fun t h0 hidle hdue => ?_, fun hv hsrc => ?_, fun t hw hdual hsrc hlocked => ?_⟩
  · obtain ⟨u, hu, hnow, hstate⟩ := State.refLoss_followed hidle hdue hplan
    change (_ → Completes (onDie s d true (s.refLoss d false)) _) ∧ (_ → Completes (onDie s d true (s.refLoss d false)) _)
    rw [hu]
    refine ⟨fun hv => ?_, fun hv => ?_⟩
    · have hv : (u.die d).clk.servo.state = .acquire ∨ (u.die d).clk.servo.state = .locked := by rwa [hstate]
      have hne : (u.die d).clk.servo.state ≠ .holdover := by rcases hv with hv | hv <;> simp [hv]
      rw [State.servoLoss_following hv]
      refine completes_onDie hd ⟨?_, u.enter_servo_state d _, ?_, State.enter_event hne⟩
      · exact (u.enter_now d false _).trans hnow
      · exact (congrArg Servo.holdStart (State.enter_servo hne)).trans (u.enter_now d false _).symm
    · have hv : (u.die d).clk.servo.state = .free := by rwa [hstate]
      rw [State.servoLoss_free hv]
      exact completes_onDie hd hv
  · subst h0
    change Completes (onDie s 0 true (s.refLoss 0 false)) _
    rw [State.refLoss_idle hidle hdue]
    refine completes_onDie hd ⟨?_, (s.advanceTo t).refInGone_format, ?_⟩
    · exact (s.advanceTo t).refInGone_now.trans (s.advanceTo_now t)
    · exact ((s.advanceTo t).refInGone_servo_state 0).trans (congrArg Servo.state (s.advance_servo _ 0) |>.trans (Servo.run_state _ _ _))
  · change Completes (onDie s d true (s.holdExpiry d false)) _
    have hs : (s.die d).clk.servo.state = .holdover := hv
    generalize hu : s.advanceTo (v.holdStart + x.fld R.TB_HOLD_HOLD_LIMIT * second) = u
    have hservo : (u.die d).clk.servo = ((s.die d).clk.servo.run s.now (v.holdStart + x.fld R.TB_HOLD_HOLD_LIMIT * second - s.now)).1 := by
      rw [← hu]; exact s.advance_servo _ d
    have hne : (u.die d).clk.servo.state ≠ .freerun := by rw [hservo, Servo.run_state, hs]; decide
    have he : s.holdExpiry d false = u.enter d false .freerun := by rw [← hu]; exact if_pos hs
    rw [he]
    refine completes_onDie hd ⟨?_, u.enter_servo_state d _, ?_, fun hf => ?_, State.enter_event hne, ?_⟩
    · exact (u.enter_now d false _).trans (hu ▸ s.advanceTo_now _)
    · exact (congrArg Servo.want (State.enter_servo hne)).trans (hservo ▸ Servo.run_want _ _ _)
    · refine (congrArg Servo.freq (State.enter_servo hne)).trans ?_
      change (u.die d).clk.servo.freq = _
      rw [hservo, Servo.run_settled _ _ hf]
    · exact (State.enter_posted hne).tiles.trans (hu ▸ s.advance_die_tiles _ d)
  · change Completes (onDie s 1 true s.timingLost) _
    have hd1 : s.has 1 = true := has_of_dual hdual 1
    rw [State.timingLost_following hw hsrc]
    split
    next ready =>
      have hset (f : Fld) (h : fldAddr f 0 0 ≠ 0x20004) :
          ((s.wordsMissed t).setFld 1 R.TB_STATUS_BACKUP_ACTIVE 1).fld 1 f = (s.wordsMissed t).fld 1 f :=
        State.fld_setFld_addr _ _ _ _ _ _ _ _ _ _ h
      have hkept (f : Fld) (q : Quiet (fldAddr f 0 0)) (h : fldAddr f 0 0 ≠ 0x20008 ∨ (f.lo ≤ f.hi ∧ f.hi < 9)) :=
        ((s.wordsMissed t).setFld 1 R.TB_STATUS_BACKUP_ACTIVE 1).sourceMoved_fld 1 f 0 0 q h
      refine completes_onDie hd1 ⟨?_, ?_, ?_, ?_, fun _ => ?_, fun h => absurd ready h⟩
      · exact (State.sourceMoved_now _ 1).trans ((State.setFld_now _ _ _ _ _ _).trans (s.wordsMissed_now t))
      · refine (hkept R.TB_STATUS_LINK_TIMING (by decide) (by decide)).trans ?_
        unfold State.setFld State.fld
        rw [State.die_upd_same, Die.fld_setFld_apart _ _ _ _ _ _ _ _ (by decide) (by decide) (by decide)]
        exact s.wordsMissed_linkTiming t
      · refine (hkept R.TB_EVENTS_LINK_TIMING_LOST (by decide) (by decide)).trans ?_
        rw [hset _ (by decide), State.wordsMissed_event]
      · refine (State.sourceMoved_lastWord _ 1).trans ?_
        rw [State.setFld, State.die_upd_same]
        exact congrArg Clock.lastWord (s.wordsMissed_clk t)
      · exact (hkept R.TB_STATUS_BACKUP_ACTIVE (by decide) (by decide)).trans (State.fld_setFld_same _ _ _ _ _ _ (by decide))
    next unready =>
      have hstate : ((s.wordsMissed t).die 1).clk.servo.state = .locked := by
        rw [State.wordsMissed_clk]
        exact (congrArg Servo.state (s.advance_servo _ 1)).trans ((Servo.run_state _ _ _).trans hlocked)
      have hkept (f : Fld) (q : Quiet (fldAddr f 0 0)) (h : fldAddr f 0 0 ≠ 0x20008 ∨ (f.lo ≤ f.hi ∧ (f.hi < 1 ∨ 1 < f.lo))) :=
        (s.wordsMissed t).enter_fld 1 .holdover f 0 0 q h
      rw [State.servoLoss_following (.inr hstate)]
      refine completes_onDie hd1 ⟨?_, ?_, ?_, ?_, fun h => absurd h unready, fun _ => ⟨State.enter_servo_state _ 1 _, ?_⟩⟩
      · exact (State.enter_now _ 1 _ _).trans (s.wordsMissed_now t)
      · exact (hkept R.TB_STATUS_LINK_TIMING (by decide) (by decide)).trans (s.wordsMissed_linkTiming t)
      · exact (hkept R.TB_EVENTS_LINK_TIMING_LOST (by decide) (by decide)).trans (s.wordsMissed_event t)
      · exact (State.enter_lastWord _ 1 _).trans (congrArg Clock.lastWord (s.wordsMissed_clk t))
      · refine (hkept R.TB_STATUS_BACKUP_ACTIVE (by decide) (by decide)).trans ?_
        exact s.wordsMissed_fld t _ _ _ (by decide) (by decide) (by decide)

end Sys2Proof
end

section
/-! What a command leaves of a package: time, plans, the queue of commands, the clocks and chosen register fields. What fires when station
time moves or steps (R59, R64 to R66) is read through this. -/

namespace Sys2Proof.Machine

/-- A choice of register fields of the dies, by address, lowest and highest bit. -/
abbrev Bits := DieId → Nat → Nat → Nat → Prop
/-- None of the fields chosen of a die shares a bit with a field. -/
def Bits.spares (P : Bits) (d : DieId) (f : Fld) (i : Nat) : Prop :=
  ∀ a lo hi, P d a lo hi → a = fldAddr f i 0 → (f.lo ≤ f.hi ∧ f.hi < 32) ∧ lo ≤ hi ∧ (f.hi < lo ∨ hi < f.lo)
/-- No post and no record writes a field chosen. -/
def Bits.quiet (P : Bits) : Prop := ∀ d a lo hi, P d a lo hi → Quiet a
theorem Bits.spares_of_outside {P : Bits} {d : DieId} {f : Fld} {i : Nat} (h : ∀ a lo hi, P d a lo hi → a ≠ fldAddr f i 0) : P.spares d f i :=
  fun a lo hi p e => absurd e (h a lo hi p)

theorem Die.fld_setFld_spared {P : Bits} {d : DieId} {f : Fld} {i : Nat} (h : P.spares d f i) (x : Die) (v : Nat) (g : Fld) (k l : Nat)
    (hg : P d (fldAddr g k l) g.lo g.hi) : (x.setFld f v i).fld g k l = x.fld g k l := by
  by_cases e : fldAddr g k l = fldAddr f i 0
  · obtain ⟨hf, hl, ha⟩ := h _ _ _ hg e
    exact Die.fld_setFld_apart _ _ _ _ _ _ _ _ hf hl ha
  · exact Die.fld_setFld_addr _ _ _ _ _ _ _ _ e

/-- State `r` has the time, the plans, the queue of commands and the fields `P` of state `s`. -/
structure State.Kept (P : Bits) (s r : State) : Prop where
  sup : r.now = s.now
  plans : r.pkg.plans = s.pkg.plans
  pending : r.pending = s.pending
  fld : ∀ (e : DieId) (f : Fld) (i j : Nat), P e (fldAddr f i j) f.lo f.hi → r.fld e f i j = s.fld e f i j

namespace State.Kept

variable {P Q : Bits} {s r t : State} {d : DieId} {f : Fld} {i : Nat}

theorem refl (s : State) : s.Kept P s := ⟨rfl, rfl, rfl, fun _ _ _ _ _ => rfl⟩
theorem trans (h : s.Kept P r) (k : r.Kept P t) : s.Kept P t :=
  ⟨k.sup.trans h.sup, k.plans.trans h.plans, k.pending.trans h.pending, fun e f i j p => (k.fld e f i j p).trans (h.fld e f i j p)⟩
theorem mono (h : s.Kept P r) (hPQ : ∀ e a lo hi, Q e a lo hi → P e a lo hi) : s.Kept Q r :=
  ⟨h.sup, h.plans, h.pending, fun e f i j q => h.fld e f i j (hPQ _ _ _ _ q)⟩
theorem foldl {α : Type} {f : State → α → State} {l : List α} (h : ∀ (s : State), ∀ a ∈ l, s.Kept P (f s a)) (s : State) : s.Kept P (l.foldl f s) := by
  induction l generalizing s with
  | nil => exact refl s
  | cons a l ih => exact (h s a (by simp)).trans (ih (fun s b hb => h s b (by simp [hb])) _)
/-- A change of one die that keeps the fields of its registers. -/
theorem upd {f : Die → Die} (h : ∀ (g : Fld) (i j : Nat), P d (fldAddr g i j) g.lo g.hi → (f (s.die d)).fld g i j = (s.die d).fld g i j) :
    s.Kept P (s.upd d f) := by
  refine ⟨s.upd_now d f, by simp, by simp, fun e g i j p => ?_⟩
  unfold State.fld
  by_cases q : e = d
  · subst q; rw [State.die_upd_same, h g i j p]
  · rw [State.die_upd_other _ _ q]
theorem updRegs {f : Die → Die} (h : (f (s.die d)).regs = (s.die d).regs) : s.Kept P (s.upd d f) :=
  upd fun g i j _ => by unfold Die.fld Die.reg; rw [h]
theorem setFld (h : P.spares d f i) (s : State) (v : Nat) : s.Kept P (s.setFld d f v i) :=
  upd fun g k l p => Die.fld_setFld_spared h _ v g k l p
theorem count (h : P.spares d f i) (s : State) (n : Nat) : s.Kept P (s.count d f i n) := setFld h s _
theorem event (hq : P.quiet) (h : P.spares d f i) (s : State) (n : Nat) : s.Kept P (s.event d f i n) :=
  upd fun g k l p => ((Die.post_posted _ _ _ _ _).fld g k l (hq _ _ _ _ p)).trans (Die.fld_setFld_spared h _ _ _ _ _ p)
theorem hbRecord (hq : P.quiet) (s : State) (d : DieId) (c n v : Nat) (p b : Bool) : s.Kept P (s.hbRecord d c n v p b) :=
  ⟨congrArg (·) (s.hbRecord_sup d c n v p b), s.hbRecord_plans d c n v p b, s.hbRecord_pending d c n v p b,
    fun e g k l h => (s.hbRecord_posted d e c n v p b).fld g k l (hq _ _ _ _ h)⟩
theorem eventCad (hq : P.quiet) (h : P.spares d f i) (s : State) (n c v : Nat) (p : Bool) : s.Kept P (s.eventCad d f i n c v p) :=
  (event hq h s v).trans (hbRecord hq _ _ _ _ _ _ _)
theorem eventRec (hq : P.quiet) (h : P.spares d f i) (s : State) (n v : Nat) (p : Bool) : s.Kept P (s.eventRec d f i n v p) :=
  eventCad hq h s n _ v p

end State.Kept

/-! ### Clocks -/

theorem State.upd_clk (s : State) (d e : DieId) {f : Die → Die} (h : (f (s.die d)).clk = (s.die d).clk) : ((s.upd d f).die e).clk = (s.die e).clk := by
  by_cases q : e = d
  · subst q; rw [State.die_upd_same, h]
  · rw [State.die_upd_other _ _ q]
@[simp] theorem State.setFld_clk (s : State) (d e : DieId) (f : Fld) (v i j : Nat) : ((s.setFld d f v i j).die e).clk = (s.die e).clk := by
  unfold State.setFld; exact s.upd_clk d e rfl
@[simp] theorem State.count_clk (s : State) (d e : DieId) (f : Fld) (i n : Nat) : ((s.count d f i n).die e).clk = (s.die e).clk := by
  unfold State.count; exact s.upd_clk d e rfl
@[simp] theorem State.event_clk (s : State) (d e : DieId) (f : Fld) (i n : Nat) : ((s.event d f i n).die e).clk = (s.die e).clk := by
  unfold State.event; exact s.upd_clk d e (Die.post_clk _ _ _ _ _)
@[simp] theorem State.hbRecord_clk (s : State) (d e : DieId) (c n v : Nat) (p b : Bool) : ((s.hbRecord d c n v p b).die e).clk = (s.die e).clk :=
  (s.hbRecord_posted d e c n v p b).clk
@[simp] theorem State.eventCad_clk (s : State) (d e : DieId) (f : Fld) (i n c v : Nat) (p : Bool) :
    ((s.eventCad d f i n c v p).die e).clk = (s.die e).clk := by simp [State.eventCad, State.hbCad]
@[simp] theorem State.eventRec_clk (s : State) (d e : DieId) (f : Fld) (i n v : Nat) (p : Bool) :
    ((s.eventRec d f i n v p).die e).clk = (s.die e).clk := s.eventCad_clk d e f i n _ v p

/-! ### What a compare unit sets off (R64) -/

/-- The registers of a die's timebase, and of the other die all that no post and no record writes. -/
def inTb (d : DieId) : Bits := fun e a _ _ => Quiet a ∧ (e = d → 0x20000 ≤ a ∧ a < 0x21000)
theorem inTb_quiet (d : DieId) : (inTb d).quiet := fun _ _ _ _ h => h.1
theorem inTb_spares {d : DieId} {f : Fld} {i : Nat} (h : 0x21000 ≤ f.base) : (inTb d).spares d f i :=
  Bits.spares_of_outside fun a _ _ p => by obtain ⟨h1, h2⟩ := p.2 rfl; unfold fldAddr; omega
/-- Registers of a die outside the block ST. -/
def Bits.offSt (P : Bits) (d : DieId) : Prop := ∀ a lo hi, P d a lo hi → a < 0x220000 ∨ 0x230000 ≤ a
theorem Bits.offSt_spares {P : Bits} {d : DieId} (h : P.offSt d) {f : Fld} (hf : 0x220000 ≤ f.base ∧ f.base < 0x230000) : P.spares d f 0 :=
  Bits.spares_of_outside fun a lo hi p => by have := h a lo hi p; unfold fldAddr; omega

/-- A service request changes registers of the block ST alone. -/
theorem State.serve_kept {P : Bits} (hq : P.quiet) {d : DieId} (hs : P.offSt d) (s : State) (k : ItemKind) (i : Nat) : s.Kept P (s.serve d k i) := by
  unfold State.serve
  dsimp only
  split
  · refine .trans (.upd fun g a b p => ?_) (.event hq (Bits.offSt_spares hs (by decide)) _ _)
    exact (Die.fld_setFld_spared (Bits.offSt_spares hs (by decide)) _ _ g a b p).trans (Die.fld_setFld_spared (Bits.offSt_spares hs (by decide)) _ _ g a b p)
  · exact .refl s
@[simp] theorem State.serve_clk (s : State) (d e : DieId) (k : ItemKind) (i : Nat) : ((s.serve d k i).die e).clk = (s.die e).clk := by
  unfold State.serve
  dsimp only
  split
  · rw [State.event_clk]; exact s.upd_clk d e rfl
  · rfl

/-- A recomputation of a core's stalls touches the threads' loads alone. -/
theorem Die.restall_rest (x : Die) (c : Nat) : (x.restall c).regs = x.regs ∧ (x.restall c).clk = x.clk := by
  unfold Die.restall
  dsimp only
  constructor
  · refine foldl_keeps Die.regs _ (fun _ _ => ?_) _ x; rfl
  · refine foldl_keeps Die.clk _ (fun _ _ => ?_) _ x; rfl
theorem Die.modTh_th (x : Die) (m n : Nat) (f : Thread → Thread) : (x.modTh m f).th n = if n = m then f (x.th m) else x.th n := by
  unfold Die.th Die.modTh
  by_cases h : n = m
  · subst h; rw [if_pos rfl]; exact mget_mmod_same _ _ _ _
  · rw [if_neg h]; exact mget_mmod_other _ _ _ h
theorem Die.restall_state (x : Die) (c n : Nat) : ((x.restall c).th n).state = (x.th n).state := by
  unfold Die.restall
  refine foldl_keeps (fun y : Die => (y.th n).state) _ (fun y m => ?_) _ x
  rw [Die.modTh_th]
  split
  next h => subst h; split <;> rfl
  next => rfl
@[simp] theorem Die.activate_regs (x : Die) (n : Nat) : (x.activate n).regs = x.regs := (Die.restall_rest _ _).1
@[simp] theorem Die.activate_clk (x : Die) (n : Nat) : (x.activate n).clk = x.clk := (Die.restall_rest _ _).2
theorem Die.activate_state (x : Die) (n : Nat) : ((x.activate n).th n).state = .ready := by
  refine (Die.restall_state _ _ _).trans ?_
  rw [Die.makeReady, Die.modTh_th, if_pos rfl]

/-- The release of a thread keeps the timebase. -/
theorem State.release_kept (s : State) (d : DieId) (n : Nat) : s.Kept (inTb d) (s.release d n) := by
  have late : s.Kept (inTb d) ((s.count d R.PA_LATE).eventRec d R.PA_EVENTS_LATE 0 n 0) :=
    (State.Kept.count (inTb_spares (by decide)) s 1).trans (.eventRec (inTb_quiet d) (inTb_spares (by decide)) _ n 0 false)
  unfold State.release
  dsimp only
  split
  · exact .refl s
  · split
    · exact .updRegs (Die.activate_regs _ _)
    · exact .updRegs (Die.activate_regs _ _)
    · split
      · exact .updRegs (Die.activate_regs _ _)
      · exact late
    · split
      · exact .updRegs rfl
      · exact late
@[simp] theorem State.release_clk (s : State) (d e : DieId) (n : Nat) : ((s.release d n).die e).clk = (s.die e).clk := by
  unfold State.release
  dsimp only
  split
  · rfl
  · split
    · exact s.upd_clk d e (Die.activate_clk _ _)
    · exact s.upd_clk d e (Die.activate_clk _ _)
    · split
      · exact s.upd_clk d e (Die.activate_clk _ _)
      · simp
    · split
      · exact s.upd_clk d e rfl
      · simp
/-- A claimed thread that is idle is ready then. -/
theorem State.release_idle {s : State} {d : DieId} {n : Nat} (hc : ((s.die d).th n).claimed = true) (hi : ((s.die d).th n).state = .idle) :
    (((s.release d n).die d).th n).state = .ready := by
  unfold State.release
  dsimp only
  rw [if_neg (by simp [hc]), hi]
  dsimp only
  rw [State.die_upd_same, Die.activate_state]

/-- The start of a channel keeps the timebase. -/
theorem State.dmaStart_kept (s : State) (d : DieId) (n : Nat) (src : StartSrc) (depth : Nat) : s.Kept (inTb d) (s.dmaStart d n src depth) := by
  unfold State.dmaStart
  have served : s.Kept (inTb d) (s.serve d .dmaChannel n) :=
    s.serve_kept (inTb_quiet d) (fun a _ _ h => by obtain ⟨h1, h2⟩ := h.2 rfl; omega) .dmaChannel n
  generalize s.serve d .dmaChannel n = u at served ⊢
  refine served.trans ?_
  have missed : u.Kept (inTb d) ((u.count d R.DM_CH_MISSED n).dmEvent d R.DM_EVENTS_MISSED R.DM_CH_EVENTS_MISSED n) :=
    (State.Kept.count (inTb_spares (by decide)) u 1).trans
      ((State.Kept.event (inTb_quiet d) (inTb_spares (by decide)) _ n).trans (.event (inTb_quiet d) (inTb_spares (by decide)) _ 0))
  dsimp only
  split
  · exact .refl u
  · split
    · exact missed
    · split
      · exact .upd fun g a b p => Die.fld_setFld_spared (inTb_spares (by decide)) _ _ g a b p
      · split
        · exact .upd fun g a b p => Die.fld_setFld_spared (inTb_spares (by decide)) _ _ g a b p
        · exact missed
@[simp] theorem State.dmaStart_clk (s : State) (d e : DieId) (n : Nat) (src : StartSrc) (depth : Nat) :
    ((s.dmaStart d n src depth).die e).clk = (s.die e).clk := by
  unfold State.dmaStart
  rw [← s.serve_clk d e .dmaChannel n]
  generalize s.serve d .dmaChannel n = u
  have missed : (((u.count d R.DM_CH_MISSED n).dmEvent d R.DM_EVENTS_MISSED R.DM_CH_EVENTS_MISSED n).die e).clk = (u.die e).clk := by
    simp [State.dmEvent]
  dsimp only
  split
  · rfl
  · split
    · exact missed
    · split
      · exact u.upd_clk d e rfl
      · split
        · exact u.upd_clk d e rfl
        · exact missed

/-! ### Compare units -/

/-- The registers of a die's timebase that no compare unit writes. -/
def offCmp (d : DieId) : Bits := fun e a lo hi => Quiet a ∧ (e = d → (0x20000 ≤ a ∧ a < 0x20400) ∧ (a = 0x20008 → lo ≤ hi ∧ (hi < 8 ∨ 8 < lo)))
theorem offCmp_inTb {d : DieId} (e : DieId) (a lo hi : Nat) (h : offCmp d e a lo hi) : inTb d e a lo hi :=
  ⟨h.1, fun he => by obtain ⟨⟨h1, h2⟩, -⟩ := h.2 he; exact ⟨h1, by omega⟩⟩
theorem offCmp_quiet (d : DieId) : (offCmp d).quiet := fun _ _ _ _ h => h.1
theorem offCmp_spares {d : DieId} {f : Fld} {u : Nat} (h : 0x20400 ≤ f.base) : (offCmp d).spares d f u :=
  Bits.spares_of_outside fun a _ _ p => by obtain ⟨⟨h1, h2⟩, -⟩ := p.2 rfl; unfold fldAddr; omega
theorem fldAddr_cmpLate : fldAddr R.TB_EVENTS_CMP_LATE 0 0 = 0x20008 := by decide
theorem offCmp_spares_late (d : DieId) : (offCmp d).spares d R.TB_EVENTS_CMP_LATE 0 := fun a lo hi p e => by
  unfold offCmp at p
  rw [fldAddr_cmpLate] at e
  obtain ⟨hl, hb⟩ := (p.2 rfl).2 e
  refine ⟨by decide, hl, ?_⟩
  exact hb.symm

theorem Die.cmpAdvance_kept (x : Die) (u : Nat) (g : Fld) (i j : Nat) {d : DieId} (h : offCmp d d (fldAddr g i j) g.lo g.hi) :
    (x.cmpAdvance u).fld g i j = x.fld g i j := by
  have moved (v w : Nat) : ((x.setFld R.TB_CMP_T0 v u).setFld R.TB_CMP_T1 w u).fld g i j = x.fld g i j :=
    (Die.fld_setFld_spared (offCmp_spares (by decide)) _ w g i j h).trans (Die.fld_setFld_spared (offCmp_spares (by decide)) x v g i j h)
  unfold Die.cmpAdvance
  dsimp only
  split
  · split
    · rfl
    · exact moved _ _
  · split
    · rfl
    · exact moved _ _
theorem Die.cmpAdvance_clk (x : Die) (u : Nat) : (x.cmpAdvance u).clk = x.clk := by
  have moved (v w : Nat) : ((x.setFld R.TB_CMP_T0 v u).setFld R.TB_CMP_T1 w u).clk = x.clk := rfl
  unfold Die.cmpAdvance
  dsimp only
  split
  · split
    · rfl
    · exact moved _ _
  · split
    · rfl
    · exact moved _ _
theorem State.cmpLate_kept (s : State) (d : DieId) (u : Nat) : s.Kept (offCmp d) (s.cmpLate d u) :=
  (State.Kept.setFld (offCmp_spares (by decide)) s 1).trans (.event (offCmp_quiet d) (offCmp_spares_late d) _ u)

/-- A unit that is shown as fired, and as late. -/
def State.cmpMarked (s : State) (d : DieId) (u : Nat) (late : Bool) : State :=
  if late then (s.setFld d R.TB_CMP_CTRL_FIRED 1 u).cmpLate d u else s.setFld d R.TB_CMP_CTRL_FIRED 1 u
theorem State.cmpMarked_kept (s : State) (d : DieId) (u : Nat) (late : Bool) : s.Kept (offCmp d) (s.cmpMarked d u late) := by
  have fired : s.Kept (offCmp d) (s.setFld d R.TB_CMP_CTRL_FIRED 1 u) := .setFld (offCmp_spares (by decide)) s 1
  unfold State.cmpMarked
  split
  · exact fired.trans (State.cmpLate_kept _ d u)
  · exact fired
@[simp] theorem State.cmpMarked_clk (s : State) (d e : DieId) (u : Nat) (late : Bool) : ((s.cmpMarked d u late).die e).clk = (s.die e).clk := by
  unfold State.cmpMarked
  split <;> simp [State.cmpLate]
/-- A unit that fires, before what its ACTION names. -/
def State.cmpFired (s : State) (d : DieId) (u : Nat) (late : Bool) : State :=
  let s := s.cmpMarked d u late
  if s.fld d R.TB_CMP_CTRL_PERIODIC u = 1 then s.upd d fun x => x.cmpAdvance u else s.setFld d R.TB_CMP_CTRL_ARM 0 u
theorem State.cmpFired_kept (s : State) (d : DieId) (u : Nat) (late : Bool) : s.Kept (offCmp d) (s.cmpFired d u late) := by
  refine (s.cmpMarked_kept d u late).trans ?_
  unfold State.cmpFired
  dsimp only
  split
  · exact .upd fun g i j h => Die.cmpAdvance_kept _ u g i j h
  · exact .setFld (offCmp_spares (by decide)) _ 0
@[simp] theorem State.cmpFired_clk (s : State) (d e : DieId) (u : Nat) (late : Bool) : ((s.cmpFired d u late).die e).clk = (s.die e).clk := by
  rw [← s.cmpMarked_clk d e u late]
  unfold State.cmpFired
  dsimp only
  split
  · refine State.upd_clk _ d e ?_; exact Die.cmpAdvance_clk _ u
  · exact State.setFld_clk _ d e _ _ _ _

/-- A unit fires, and then does what its ACTION names. -/
theorem State.cmpFire_cases (s : State) (d : DieId) (u : Nat) (late : Bool) : s.cmpFire d u late =
    match (s.cmpFired d u late).fld d R.TB_CMP_CTRL_ACTION u with
    | 1 => (s.cmpFired d u late).release d ((s.cmpFired d u late).fld d R.TB_CMP_CTRL_TARGET u)
    | 2 => (s.cmpFired d u late).dmaStart d ((s.cmpFired d u late).fld d R.TB_CMP_CTRL_TARGET u % 128) .compare 0
    | _ => s.cmpFired d u late := by
  rfl
/-- What ACTION names keeps the timebase. -/
theorem State.cmpFire_fired (s : State) (d : DieId) (u : Nat) (late : Bool) : (s.cmpFired d u late).Kept (inTb d) (s.cmpFire d u late) := by
  rw [State.cmpFire_cases]
  split
  · exact State.release_kept _ d _
  · exact State.dmaStart_kept _ d _ _ _
  · exact .refl _
theorem State.cmpFire_kept (s : State) (d : DieId) (u : Nat) (late : Bool) : s.Kept (offCmp d) (s.cmpFire d u late) :=
  (s.cmpFired_kept d u late).trans ((s.cmpFire_fired d u late).mono offCmp_inTb)
@[simp] theorem State.cmpFire_clk (s : State) (d e : DieId) (u : Nat) (late : Bool) : ((s.cmpFire d u late).die e).clk = (s.die e).clk := by
  rw [State.cmpFire_cases, ← s.cmpFired_clk d e u late]
  split
  · exact State.release_clk _ d e _
  · exact State.dmaStart_clk _ d e _ _ _
  · rfl

/-- A forward step that passes over targets. -/
theorem State.cmpStepped_kept (s : State) (d : DieId) : s.Kept (offCmp d) (s.cmpStepped d) := by
  refine .foldl (fun s u _ => ?_) s
  split
  · split
    · exact s.cmpFire_kept d u true
    · exact .refl s
  · exact .refl s
@[simp] theorem State.cmpStepped_clk (s : State) (d e : DieId) : ((s.cmpStepped d).die e).clk = (s.die e).clk := by
  refine foldl_keeps (fun s : State => (s.die e).clk) _ (fun s u => ?_) _ s
  split
  · split
    · exact s.cmpFire_clk d e u true
    · rfl
  · rfl

end Sys2Proof.Machine
end

section
/-! A step of station time (R58 to R60, R66): what it leaves of the package, the time it moves to and what is reported of it. -/

namespace Sys2Proof.Machine

/-- The registers of a die's timebase that a step does not write. -/
def offStep (d : DieId) : Bits := fun e a lo hi =>
  Quiet a ∧ (e = d → (0x20000 ≤ a ∧ a < 0x20040) ∧ (a = 0x20008 → lo ≤ hi ∧ hi < 4))
theorem offStep_offCmp {d : DieId} (e : DieId) (a lo hi : Nat) (h : offStep d e a lo hi) : offCmp d e a lo hi := by
  refine ⟨h.1, fun he => ?_⟩
  obtain ⟨⟨h1, h2⟩, h3⟩ := h.2 he
  exact ⟨⟨h1, by omega⟩, fun ha => by obtain ⟨h4, h5⟩ := h3 ha; omega⟩
theorem offStep_quiet (d : DieId) : (offStep d).quiet := fun _ _ _ _ h => h.1
theorem offStep_spares {d : DieId} {f : Fld} {i : Nat} (h : 0x20040 ≤ f.base) : (offStep d).spares d f i :=
  Bits.spares_of_outside fun a _ _ p => by obtain ⟨⟨h1, h2⟩, -⟩ := p.2 rfl; unfold fldAddr; omega
/-- An event of the timebase from bit 4 on. -/
theorem offStep_spares_event {d : DieId} {f : Fld} (ha : fldAddr f 0 0 = 0x20008) (h : (f.lo ≤ f.hi ∧ f.hi < 32) ∧ 4 ≤ f.lo) : (offStep d).spares d f 0 := by
  intro a lo hi p e
  rw [ha] at e
  obtain ⟨h1, h2⟩ := (p.2 rfl).2 e
  exact ⟨h.1, h1, .inr (by omega)⟩

/-! ### What moves -/

theorem Die.modCad_rest (x : Die) (c : Nat) (f : Cad → Cad) :
    (x.modCad c f).regs = x.regs ∧ (x.modCad c f).clk.now = x.clk.now ∧ (x.modCad c f).clk.servo = x.clk.servo := ⟨rfl, rfl, rfl⟩
/-- The cadences of a die as a step of `st` sixteenths of a nanosecond reaches them, each with the lines of its gap. -/
def Die.stepGaps (x : Die) (st : Int) : List (Nat × Cad × Nat) :=
  (List.range 8).filterMap fun c => (x.grid c).map fun g => (c, Cad.regridded g g x.clk.now (st * 4096) (x.cad c))
/-- Station time of a die moved by a step, with its cadences. -/
def State.stepTime (s : State) (d : DieId) (st : Int) : State :=
  let s := s.upd d fun x => { x with clk := { x.clk with now := ((x.clk.now : Int) + st * 4096).toNat } }
  s.upd d fun x => ((s.die d).stepGaps st).foldl (fun x e =>
    x.modCad e.1 fun _ => { e.2.1 with lastPulse := ((e.2.1.lastPulse : Int) + st * 4096).toNat }) x
theorem State.stepTime_kept {P : Bits} (s : State) (d : DieId) (st : Int) : s.Kept P (s.stepTime d st) := by
  unfold State.stepTime
  dsimp only
  refine .trans (.updRegs rfl) (.updRegs ?_)
  exact foldl_keeps Die.regs _ (fun x e => (x.modCad_rest _ _).1) _ _
theorem State.stepTime_now (s : State) (d : DieId) (st : Int) : ((s.stepTime d st).die d).clk.now = (((s.die d).clk.now : Int) + st * 4096).toNat := by
  unfold State.stepTime
  dsimp only
  rw [State.die_upd_same, State.die_upd_same]
  exact foldl_keeps (fun x : Die => x.clk.now) _ (fun x e => (x.modCad_rest _ _).2.1) _ _

/-- The gaps of a step are recorded. -/
def State.stepGapped (s : State) (d : DieId) (gaps : List (Nat × Cad × Nat)) : State :=
  let s := gaps.foldl (fun s e => s.stepGap d e.1 e.2.2) s
  if gaps.any fun e => decide (0 < e.2.2) then
    s.event d R.TB_EVENTS_STEP_GAP 0 (min 65535 (gaps.foldl (fun n e => max n e.2.2) 0)) else s
theorem State.stepGapped_kept (s : State) (d : DieId) (gaps : List (Nat × Cad × Nat)) : s.Kept (offStep d) (s.stepGapped d gaps) := by
  have hq := offStep_quiet d
  have noted : s.Kept (offStep d) (gaps.foldl (fun s e => s.stepGap d e.1 e.2.2) s) := by
    refine .foldl (fun s e _ => ?_) s
    unfold State.stepGap
    dsimp only
    split
    · exact .setFld (offStep_spares (by decide)) s _
    · exact (State.Kept.setFld (offStep_spares (by decide)) s _).trans (.hbRecord hq _ d _ _ _ _ _)
  unfold State.stepGapped
  dsimp only
  split
  · exact noted.trans (.event hq (offStep_spares_event (by decide) (by decide)) _ _)
  · exact noted
@[simp] theorem State.stepGapped_clk (s : State) (d e : DieId) (gaps : List (Nat × Cad × Nat)) : ((s.stepGapped d gaps).die e).clk = (s.die e).clk := by
  have noted : ((gaps.foldl (fun s e => s.stepGap d e.1 e.2.2) s).die e).clk = (s.die e).clk := by
    refine foldl_keeps (fun s : State => (s.die e).clk) _ (fun s g => ?_) _ s
    unfold State.stepGap
    dsimp only
    split <;> simp [State.hbCad]
  unfold State.stepGapped
  dsimp only
  split
  · rw [State.event_clk, noted]
  · exact noted

/-- The step is shown in TB_STEP, and none is pending any more. -/
def State.stepShown (s : State) (d : DieId) (st : Int) : State :=
  let ns := st.tdiv 16
  let s := (s.setFld d R.TB_STEP_LO (unsgn 32 ns)).setFld d R.TB_STEP_HI (unsgn 32 (ns / 2 ^ 32))
  s.upd d fun x => x.modServo false fun v => { v with step := none, stepGo := false, samples := [] }
theorem State.stepShown_kept (s : State) (d : DieId) (st : Int) : s.Kept (offStep d) (s.stepShown d st) := by
  have lo : (offStep d).spares d R.TB_STEP_LO 0 := offStep_spares (by decide)
  have hi : (offStep d).spares d R.TB_STEP_HI 0 := offStep_spares (by decide)
  unfold State.stepShown
  dsimp only
  exact (State.Kept.setFld lo s _).trans ((State.Kept.setFld hi _ _).trans (.updRegs (by rfl)))
theorem State.stepShown_servo (s : State) (d : DieId) (st : Int) :
    ((s.stepShown d st).die d).clk.servo = { (s.die d).clk.servo with step := none, stepGo := false, samples := [] } := by
  unfold State.stepShown State.setFld
  dsimp only
  rw [State.die_upd_same, State.die_upd_same, State.die_upd_same]
  rfl
theorem State.stepShown_now (s : State) (d : DieId) (st : Int) : ((s.stepShown d st).die d).clk.now = (s.die d).clk.now := by
  unfold State.stepShown State.setFld
  dsimp only
  rw [State.die_upd_same, State.die_upd_same, State.die_upd_same]
  rfl
theorem State.stepShown_lo (s : State) (d : DieId) (st : Int) : (s.stepShown d st).fld d R.TB_STEP_LO = unsgn 32 (st.tdiv 16) % 2 ^ 32 := by
  unfold State.stepShown
  dsimp only
  refine (State.Kept.updRegs (P := fun _ _ _ _ => True) (by rfl)).fld d _ _ _ trivial |>.trans ?_
  rw [State.fld_setFld_addr _ _ _ _ _ _ _ _ _ _ (by decide)]
  exact State.fld_setFld_same _ _ _ _ _ _ (by decide)

/-! ### What a step sets off -/

theorem Die.gateStepped_fld (x : Die) (sp : Nat) (g : Fld) (i j : Nat) (h : fldAddr g i j < 0x21000) : (x.gateStepped sp).fld g i j = x.fld g i j := by
  have late (y : Die) (v : Nat) : (y.setFld R.TQ_GATE_LATE v sp).fld g i j = y.fld g i j :=
    Die.fld_setFld_addr _ _ _ _ _ _ _ _ (by simp only [fldAddr, R.TQ_GATE_LATE]; simp only [fldAddr] at h; omega)
  have again : ∀ y : Die, (match (x.gate sp).pend.bind fun p => (y.gateList sp p.list).map fun l => (p, l) with
      | some (p, l) => y.modGate sp fun g => { g with pend := some { p with start := (y.gateAfter l p.base p.start).1, skipped := p.skipped + (y.gateAfter l p.base p.start).2 } }
      | none => y).fld g i j = y.fld g i j := fun y => by split <;> rfl
  unfold Die.gateStepped
  refine (again _).trans ?_
  split
  · exact late _ _
  · rfl
theorem Die.gateStepped_clk (x : Die) (sp : Nat) : (x.gateStepped sp).clk = x.clk := by
  unfold Die.gateStepped
  dsimp only
  split <;> split <;> rfl

/-- The gate lists of a die restart on the new time (R399). -/
def State.gatesStepped (s : State) (d : DieId) : State := s.upd d fun x => (List.range 8).foldl Die.gateStepped x
theorem State.gatesStepped_kept (s : State) (d : DieId) : s.Kept (inTb d) (s.gatesStepped d) :=
  .upd fun g i j h => foldl_keeps (fun x : Die => x.fld g i j) _ (fun x sp => x.gateStepped_fld sp g i j (h.2 rfl).2) _ _
@[simp] theorem State.gatesStepped_clk (s : State) (d e : DieId) : ((s.gatesStepped d).die e).clk = (s.die e).clk := by
  unfold State.gatesStepped
  refine s.upd_clk d e ?_
  exact foldl_keeps Die.clk _ Die.gateStepped_clk _ _

/-- A step that has been applied is reported, the gate lists restart, and what a forward step passes over fires. -/
def State.stepEnded (s : State) (d : DieId) (st : Int) : State :=
  let s := (s.eventRec d R.TB_EVENTS_STEP_DONE 0 d.val (min (st.tdiv 16).natAbs 65535)).gatesStepped d
  if 0 < st * 4096 then (s.upd d Die.waitsStepped).cmpStepped d else s
/-- What comes after the report. -/
theorem State.stepEnded_reported (s : State) (d : DieId) (st : Int) :
    (s.eventRec d R.TB_EVENTS_STEP_DONE 0 d.val (min (st.tdiv 16).natAbs 65535)).Kept (offCmp d) (s.stepEnded d st) := by
  unfold State.stepEnded
  dsimp only
  have gates := ((s.eventRec d R.TB_EVENTS_STEP_DONE 0 d.val (min (st.tdiv 16).natAbs 65535)).gatesStepped_kept d).mono (offCmp_inTb (d := d))
  split
  · exact gates.trans (.trans (.updRegs rfl) (State.cmpStepped_kept _ d))
  · exact gates
theorem State.stepEnded_kept (s : State) (d : DieId) (st : Int) : s.Kept (offStep d) (s.stepEnded d st) :=
  .trans (.eventRec (offStep_quiet d) (offStep_spares_event (by decide) (by decide)) s _ _ _) ((s.stepEnded_reported d st).mono offStep_offCmp)
theorem State.stepEnded_done (s : State) (d : DieId) (st : Int) : (s.stepEnded d st).fld d R.TB_EVENTS_STEP_DONE = 1 := by
  refine ((s.stepEnded_reported d st).fld d _ 0 0 ⟨by decide, fun _ => by decide⟩).trans ?_
  exact ((s.eventRec_posted d _ 0 _ _ _).fld _ _ _ (by decide)).trans (Die.fld_setFld_same _ _ _ _ _ (by decide))
@[simp] theorem State.stepEnded_clk (s : State) (d e : DieId) (st : Int) : ((s.stepEnded d st).die e).clk = (s.die e).clk := by
  unfold State.stepEnded
  dsimp only
  split
  · rw [State.cmpStepped_clk, State.upd_clk _ d e (by rfl)]; simp
  · simp

/-! ### The step of a die -/

theorem State.stepDie_parts (s : State) (d : DieId) (st : Int) : s.stepDie d st =
    (((s.stepTime d st).stepGapped d (Die.stepGaps ((s.upd d fun x => { x with clk := { x.clk with now := ((x.clk.now : Int) + st * 4096).toNat } }).die d) st)).stepShown
      d st).stepEnded d st := by
  rfl
/-- A step keeps all but what it reports, and what it sets off. -/
theorem State.stepDie_kept (s : State) (d : DieId) (st : Int) : s.Kept (offStep d) (s.stepDie d st) := by
  rw [State.stepDie_parts]
  exact (s.stepTime_kept d st).trans ((State.stepGapped_kept _ d _).trans ((State.stepShown_kept _ d st).trans (State.stepEnded_kept _ d st)))
theorem State.stepDie_now (s : State) (d : DieId) (st : Int) : ((s.stepDie d st).die d).clk.now = (((s.die d).clk.now : Int) + st * 4096).toNat := by
  rw [State.stepDie_parts, State.stepEnded_clk, State.stepShown_now, State.stepGapped_clk, State.stepTime_now]
theorem State.stepDie_step (s : State) (d : DieId) (st : Int) : ((s.stepDie d st).die d).clk.servo.step = none := by
  rw [State.stepDie_parts, State.stepEnded_clk, State.stepShown_servo]
theorem State.stepDie_lo (s : State) (d : DieId) (st : Int) : (s.stepDie d st).fld d R.TB_STEP_LO = unsgn 32 (st.tdiv 16) % 2 ^ 32 := by
  rw [State.stepDie_parts]
  refine ((State.stepEnded_reported _ d st).fld d _ 0 0 ⟨by decide, fun _ => by decide⟩).trans ?_
  refine ((State.eventRec_posted _ d _ 0 _ _ _).fld _ _ _ (by decide)).trans ?_
  rw [Die.fld_setFld_addr _ _ _ _ _ _ _ _ (by decide)]
  exact State.stepShown_lo _ d st
theorem State.stepDie_done (s : State) (d : DieId) (st : Int) : (s.stepDie d st).fld d R.TB_EVENTS_STEP_DONE = 1 := by
  rw [State.stepDie_parts]; exact State.stepEnded_done _ d st

/-- The other die's clock is as it was. -/
theorem State.stepDie_clk_other (s : State) {d e : DieId} (st : Int) (h : e ≠ d) : ((s.stepDie d st).die e).clk = (s.die e).clk := by
  rw [State.stepDie_parts, State.stepEnded_clk]
  unfold State.stepShown
  dsimp only
  rw [State.die_upd_other _ _ h, State.setFld_clk, State.setFld_clk, State.stepGapped_clk]
  unfold State.stepTime
  dsimp only
  rw [State.die_upd_other _ _ h, State.die_upd_other _ _ h]

/-! ### The pending step of a servo -/

/-- The registers of the timebase that no step of either die writes. -/
def unstepped : Bits := fun _ a lo hi => (0x20000 ≤ a ∧ a < 0x20040) ∧ (a = 0x20008 → lo ≤ hi ∧ hi < 4)
theorem unstepped_offStep {d : DieId} (e : DieId) (a lo hi : Nat) (h : unstepped e a lo hi) : offStep d e a lo hi :=
  ⟨by obtain ⟨⟨h1, h2⟩, -⟩ := h; unfold Quiet; omega, fun _ => h⟩
/-- A pending step that is applied: the die steps, and die 1 after it where it follows die 0 (R61). -/
theorem State.applyStep_some {s : State} {d : DieId} {st : Int} (h : (s.die d).clk.servo.step = some st) :
    s.applyStep d = s.stepDie d st ∨ d = 0 ∧ s.applyStep d = (s.stepDie 0 st).stepDie 1 st := by
  unfold State.applyStep
  rw [h]
  dsimp only
  split
  next both => exact .inr ⟨both.1, by rw [both.1]⟩
  next => exact .inl rfl
theorem State.applyStep_none {s : State} {d : DieId} (h : (s.die d).clk.servo.step = none) : s.applyStep d = s := by
  unfold State.applyStep
  rw [h]
theorem State.applyStep_kept (s : State) (d : DieId) : s.Kept unstepped (s.applyStep d) := by
  cases h : (s.die d).clk.servo.step with
  | none => rw [State.applyStep_none h]; exact .refl s
  | some st =>
    rcases State.applyStep_some h with e | ⟨-, e⟩
    · rw [e]; exact (s.stepDie_kept d st).mono unstepped_offStep
    · rw [e]; exact ((s.stepDie_kept 0 st).mono unstepped_offStep).trans ((State.stepDie_kept _ 1 st).mono unstepped_offStep)
/-- What die `d` holds and shows after its pending step has been applied. -/
theorem State.applyStep_stepped {s : State} {d : DieId} {st : Int} (h : (s.die d).clk.servo.step = some st) :
    ((s.applyStep d).die d).clk.now = (((s.die d).clk.now : Int) + st * 4096).toNat ∧ ((s.applyStep d).die d).clk.servo.step = none ∧
      (s.applyStep d).fld d R.TB_STEP_LO = unsgn 32 (st.tdiv 16) % 2 ^ 32 ∧ (s.applyStep d).fld d R.TB_EVENTS_STEP_DONE = 1 := by
  rcases State.applyStep_some h with e | ⟨hd, e⟩
  · rw [e]; exact ⟨s.stepDie_now d st, s.stepDie_step d st, s.stepDie_lo d st, s.stepDie_done d st⟩
  · subst hd
    have kept (f : Fld) (q : Quiet (fldAddr f 0 0)) : ((s.stepDie 0 st).stepDie 1 st).fld 0 f = (s.stepDie 0 st).fld 0 f :=
      (State.stepDie_kept _ 1 st).fld 0 f 0 0 ⟨q, fun h => absurd h (by decide)⟩
    rw [e, State.stepDie_clk_other _ st (by decide), kept _ (by decide), kept _ (by decide)]
    exact ⟨s.stepDie_now 0 st, s.stepDie_step 0 st, s.stepDie_lo 0 st, s.stepDie_done 0 st⟩
theorem State.applyStep_step (s : State) (d : DieId) : ((s.applyStep d).die d).clk.servo.step = none := by
  cases h : (s.die d).clk.servo.step with
  | none => rw [State.applyStep_none h, h]
  | some st => exact (State.applyStep_stepped h).2.1

end Sys2Proof.Machine
end

section
/-! Samples of a reference (R47 to R49, R54 to R57): what a sample makes of a servo, and what a sync of REF_IN makes of die 0. -/

namespace Sys2Proof.Machine

/-! ### What a sample keeps -/

theorem State.enter_kept {P : Bits} {d : DieId} (hq : P.quiet) (h : ∀ a lo hi, P d a lo hi → a ≠ 0x20008) (s : State) (b : Bool) (st : ServoState) :
    s.Kept P (s.enter d b st) := by
  have hs : P.spares d st.event 0 := Bits.spares_of_outside fun a lo hi p => by
    have ha : fldAddr st.event 0 0 = 0x20008 := by cases st <;> decide
    rw [ha]; exact h a lo hi p
  unfold State.enter
  dsimp only
  split
  · exact .refl s
  · split
    · exact .updRegs rfl
    · exact .trans (.updRegs rfl) (.trans (.updRegs rfl) (.eventRec hq hs _ _ _ _))

/-- The register TB_REF_FORMAT of each die. -/
def refShown : Bits := fun _ a _ _ => a = 0x2001C
theorem refShown_quiet : refShown.quiet := fun _ _ _ _ (h : _ = 0x2001C) => by unfold Quiet; omega
theorem refShown_unstepped (e : DieId) (a lo hi : Nat) (h : refShown e a lo hi) : unstepped e a lo hi := by
  have h : a = 0x2001C := h
  exact ⟨by omega, fun _ => by omega⟩
theorem refShown_spares {d : DieId} {f : Fld} (h : fldAddr f 0 0 ≠ 0x2001C) : refShown.spares d f 0 :=
  Bits.spares_of_outside fun _ _ _ p e => h (e.symm.trans p)
theorem State.enter_refShown (s : State) (d : DieId) (b : Bool) (st : ServoState) : s.Kept refShown (s.enter d b st) :=
  State.enter_kept refShown_quiet (fun _ _ _ (h : _ = 0x2001C) => by omega) s b st

theorem State.draw_kept {P : Bits} (s : State) : s.Kept P s.draw.2 := ⟨rfl, rfl, rfl, fun _ _ _ _ _ => rfl⟩
theorem State.steer_kept {P : Bits} (s : State) (d : DieId) (b : Bool) (src : Nat) (off : Int) : s.Kept P (s.steer d b src off) := by
  unfold State.steer
  dsimp only
  exact (s.draw_kept).trans ((State.draw_kept _).trans (.updRegs (by rfl)))
theorem State.stepDecision_kept (s : State) (d : DieId) (b : Bool) : s.Kept refShown (s.stepDecision d b) := by
  unfold State.stepDecision
  dsimp only
  split
  · split
    · exact .updRegs rfl
    · exact .trans (.updRegs rfl) (State.enter_refShown _ d b _)
  · split
    · exact .updRegs rfl
    · have asked := (State.Kept.setFld (refShown_spares (d := d) (f := R.TB_STEP_LO) (by decide)) s
          (unsgn 32 ((median16 ((s.die d).servo b).samples).tdiv 16))).trans
        (State.Kept.setFld (refShown_spares (d := d) (f := R.TB_STEP_HI) (by decide)) _ (unsgn 32 ((median16 ((s.die d).servo b).samples).tdiv 16 / 2 ^ 32)))
      split
      · exact asked.trans (.updRegs rfl)
      · exact (asked.trans (.updRegs rfl)).trans ((State.applyStep_kept _ d).mono refShown_unstepped)
/-! ### The parts of a sample -/

/-- A servo in LOCKED that rejects a sample. -/
def Servo.rejects (v : Servo) : Servo := { v with rejectRun := v.rejectRun + 1, inLocked := min 16 (v.inLocked + 1) }
/-- A servo in LOCKED that accepts one, inside the lock threshold or outside it. -/
def Servo.accepts (v : Servo) (now : Nat) (in_ : Bool) : Servo :=
  { v with rejectRun := 0, outside := if in_ then 0 else v.outside + 1, lastSample := now, inLocked := min 16 (v.inLocked + 1) }
/-- A servo not in LOCKED that collects one. -/
def Servo.collects (v : Servo) (now : Nat) (off : Int) (in_ : Bool) : Servo :=
  { v with samples := (off :: v.samples).take 16, inside := if in_ then v.inside + 1 else 0, lastSample := now }

/-- An outlier in LOCKED. -/
def State.rejected (s : State) (d : DieId) : State :=
  let u := (s.upd d fun x => x.modServo false Servo.rejects).count d R.TB_REJECTS
  if (s.die d).clk.servo.rejectRun + 1 < 9 then u else (u.event d R.TB_EVENTS_REJECT_RUN 0 9).enter d false .holdover
/-- Another sample in LOCKED. -/
def State.accepted (s : State) (d : DieId) (src : Nat) (off : Int) (in_ : Bool) : State :=
  let u := s.upd d fun x => x.modServo false fun v => v.accepts s.now in_
  if !in_ ∧ (s.die d).clk.servo.outside + 1 = 16 then u.enter d false .acquire else u.steer d false src off
/-- A sample has been collected: a servo in ACQUIRE without a step is steered, in LOCKED from the sixteenth sample inside on. -/
def State.acquires (s : State) (d : DieId) (src : Nat) (off : Int) : State :=
  if (s.die d).clk.servo.state = .acquire ∧ (s.die d).clk.servo.step = none then
    (if 16 ≤ (s.die d).clk.servo.inside then s.enter d false .locked else s).steer d false src off
  else s
/-- A sample outside LOCKED. -/
def State.collected (s : State) (d : DieId) (src : Nat) (off : Int) (in_ : Bool) : State :=
  let u := s.upd d fun x => x.modServo false fun v => v.collects s.now off in_
  (if (u.die d).clk.servo.samples.length = 16 then u.stepDecision d false else u).acquires d src off

/-- TB_PHASE shows a sample. -/
def State.phased (s : State) (d : DieId) (off : Int) : State := s.setFld d R.TB_PHASE (unsgn 32 (max (-(2 ^ 31)) (min (2 ^ 31 - 1) off)))
theorem State.servoSample_parts (s : State) (d : DieId) (src : Nat) (off : Int) : s.servoSample d false src off =
    if ((s.phased d off).die d).clk.servo.state = .locked then
      if ((s.die d).thresholds src).1 < (off - ((s.phased d off).die d).clk.servo.predicted).natAbs then (s.phased d off).rejected d
      else (s.phased d off).accepted d src off (decide (off.natAbs ≤ ((s.die d).thresholds src).2))
    else (s.phased d off).collected d src off (decide (off.natAbs ≤ ((s.die d).thresholds src).2)) := by
  rfl

/-- A sample keeps what is shown of REF_IN. -/
theorem State.phased_kept (s : State) (d : DieId) (off : Int) : s.Kept refShown (s.phased d off) := .setFld (refShown_spares (by decide)) s _
theorem State.rejected_kept (s : State) (d : DieId) : s.Kept refShown (s.rejected d) := by
  have counted : s.Kept refShown ((s.upd d fun x => x.modServo false Servo.rejects).count d R.TB_REJECTS) :=
    .trans (.updRegs rfl) (.count (refShown_spares (by decide)) _ _)
  unfold State.rejected
  dsimp only
  split
  · exact counted
  · exact (counted.trans (.event refShown_quiet (refShown_spares (by decide)) _ _)).trans (State.enter_refShown _ d _ _)
theorem State.accepted_kept (s : State) (d : DieId) (src : Nat) (off : Int) (in_ : Bool) : s.Kept refShown (s.accepted d src off in_) := by
  have noted : s.Kept refShown (s.upd d fun x => x.modServo false fun v => v.accepts s.now in_) := .updRegs rfl
  unfold State.accepted
  dsimp only
  split
  · exact noted.trans (State.enter_refShown _ d _ _)
  · exact noted.trans (State.steer_kept _ d _ _ _)
theorem State.acquires_kept (s : State) (d : DieId) (src : Nat) (off : Int) : s.Kept refShown (s.acquires d src off) := by
  unfold State.acquires
  split
  · refine .trans ?_ (State.steer_kept _ d false src off)
    split
    · exact State.enter_refShown s d _ _
    · exact .refl s
  · exact .refl s
theorem State.collected_kept (s : State) (d : DieId) (src : Nat) (off : Int) (in_ : Bool) : s.Kept refShown (s.collected d src off in_) := by
  have noted : s.Kept refShown (s.upd d fun x => x.modServo false fun v => v.collects s.now off in_) := .updRegs rfl
  unfold State.collected
  dsimp only
  refine .trans ?_ (State.acquires_kept _ d src off)
  split
  · exact noted.trans (State.stepDecision_kept _ d _)
  · exact noted
theorem State.servoSample_kept (s : State) (d : DieId) (src : Nat) (off : Int) : s.Kept refShown (s.servoSample d false src off) := by
  rw [State.servoSample_parts]
  refine (s.phased_kept d off).trans ?_
  split
  · split
    · exact State.rejected_kept _ d
    · exact State.accepted_kept _ d _ _ _
  · exact State.collected_kept _ d _ _ _

/-! ### What a sample makes of the servo -/

/-- What the servo's control asks for changes no run and no state. -/
theorem State.steer_servo (s : State) (d : DieId) (src : Nat) (off : Int) : ∃ (now : Nat) (want p : Int),
    ((s.steer d false src off).die d).clk.servo = { (s.die d).clk.servo.ask now want with predicted := p } := by
  unfold State.steer
  dsimp only
  rw [State.die_upd_same]
  exact ⟨_, _, _, rfl⟩
/-- An update of the servo alone. -/
theorem State.modServo_servo (s : State) (d : DieId) (f : Servo → Servo) :
    ((s.upd d fun x => x.modServo false f).die d).clk.servo = f (s.die d).clk.servo := by
  rw [State.die_upd_same]; rfl
theorem State.modServo_fld (s : State) (d : DieId) (g : Servo → Servo) (f : Fld) (i j : Nat) :
    (s.upd d fun x => x.modServo false g).fld d f i j = s.fld d f i j :=
  (State.Kept.updRegs (P := fun _ _ _ _ => True) (by rfl)).fld d f i j trivial
/-- Entering a state drops the run of rejected samples, where the servo was not in that state. -/
theorem State.enter_rejectRun {s : State} {d : DieId} {st : ServoState} (h : (s.die d).clk.servo.state ≠ st) :
    ((s.enter d false st).die d).clk.servo.rejectRun = 0 := by
  rw [State.enter_servo h]; rfl

variable {s : State} {d : DieId} {src : Nat} {off : Int} {in_ : Bool}

theorem State.rejected_rejects (s : State) (d : DieId) : (s.rejected d).fld d R.TB_REJECTS = (s.fld d R.TB_REJECTS + 1) % 2 ^ 32 := by
  have counted : ((s.upd d fun x => x.modServo false Servo.rejects).count d R.TB_REJECTS).fld d R.TB_REJECTS = (s.fld d R.TB_REJECTS + 1) % 2 ^ 32 := by
    unfold State.count State.fld
    rw [State.die_upd_same, State.die_upd_same]
    exact Die.fld_count_same _ _ _ _ (by decide)
  unfold State.rejected
  dsimp only
  split
  · exact counted
  · rw [State.enter_fld _ _ _ _ _ _ (by decide) (by decide), ← counted]
    refine ((State.event_posted _ d _ 0 9).fld R.TB_REJECTS 0 0 (by decide)).trans ?_
    exact Die.fld_setFld_addr _ _ _ _ _ _ _ _ (by decide)
theorem State.rejected_short (h : (s.die d).clk.servo.rejectRun < 8) : ((s.rejected d).die d).clk.servo = (s.die d).clk.servo.rejects := by
  unfold State.rejected
  dsimp only
  rw [if_pos (by omega), State.count_clk, State.modServo_servo]
theorem State.rejected_ninth (hl : (s.die d).clk.servo.state = .locked) (h : 8 ≤ (s.die d).clk.servo.rejectRun) :
    ((s.rejected d).die d).clk.servo.state = .holdover ∧ ((s.rejected d).die d).clk.servo.rejectRun = 0 := by
  unfold State.rejected
  dsimp only
  rw [if_neg (by omega)]
  refine ⟨State.enter_servo_state _ _ _, State.enter_rejectRun ?_⟩
  rw [State.event_clk, State.count_clk, State.modServo_servo, Servo.rejects, hl]
  decide

theorem State.accepted_rejects (s : State) (d : DieId) (src : Nat) (off : Int) (in_ : Bool) :
    (s.accepted d src off in_).fld d R.TB_REJECTS = s.fld d R.TB_REJECTS := by
  unfold State.accepted
  dsimp only
  split
  · rw [State.enter_fld _ _ _ _ _ _ (by decide) (by decide), State.modServo_fld]
  · rw [(State.steer_kept (P := fun _ _ _ _ => True) _ d false src off).fld d _ _ _ trivial, State.modServo_fld]
theorem State.accepted_inside (hl : (s.die d).clk.servo.state = .locked) : ((s.accepted d src off true).die d).clk.servo.state = .locked ∧
    ((s.accepted d src off true).die d).clk.servo.outside = 0 ∧ ((s.accepted d src off true).die d).clk.servo.rejectRun = 0 := by
  unfold State.accepted
  dsimp only
  rw [if_neg (by simp)]
  obtain ⟨now, want, p, h⟩ := State.steer_servo (s.upd d fun x => x.modServo false fun v => v.accepts s.now true) d src off
  rw [h, State.modServo_servo]
  exact ⟨hl, rfl, rfl⟩
theorem State.accepted_outside (hl : (s.die d).clk.servo.state = .locked) : ((s.accepted d src off false).die d).clk.servo.rejectRun = 0 ∧
    ((s.die d).clk.servo.outside = 15 → ((s.accepted d src off false).die d).clk.servo.state = .acquire) := by
  unfold State.accepted
  dsimp only
  split
  next h =>
    refine ⟨State.enter_rejectRun ?_, fun _ => State.enter_servo_state _ _ _⟩
    rw [State.modServo_servo, Servo.accepts, hl]
    decide
  next h =>
    obtain ⟨now, want, p, e⟩ := State.steer_servo (s.upd d fun x => x.modServo false fun v => v.accepts s.now false) d src off
    rw [e, State.modServo_servo]
    exact ⟨rfl, fun h15 => absurd ⟨rfl, by rw [h15]⟩ h⟩

/-- Fewer than 16 samples: the sample is collected. -/
theorem State.collected_short (ha : (s.die d).clk.servo.state = .acquire) (hs : (s.die d).clk.servo.step = none)
    (hn : (s.die d).clk.servo.samples.length < 15) (hi : (s.die d).clk.servo.inside < 15) :
    ((s.collected d src off in_).die d).clk.servo.samples = off :: (s.die d).clk.servo.samples ∧
      ((s.collected d src off in_).die d).clk.servo.state = .acquire ∧
      ((s.collected d src off in_).die d).clk.servo.inside = if in_ then (s.die d).clk.servo.inside + 1 else 0 := by
  generalize hu : (s.upd d fun x => x.modServo false fun v => v.collects s.now off in_) = u
  have hv : (u.die d).clk.servo = (s.die d).clk.servo.collects s.now off in_ := by rw [← hu, State.modServo_servo]
  have hsamples : ((s.die d).clk.servo.collects s.now off in_).samples = off :: (s.die d).clk.servo.samples :=
    List.take_of_length_le (by simp; omega)
  have hinside : ((s.die d).clk.servo.collects s.now off in_).inside < 16 := by
    unfold Servo.collects; dsimp only; split <;> omega
  unfold State.collected
  dsimp only
  rw [hu, hv, hsamples, if_neg (by simp; omega), State.acquires, hv, if_pos ⟨ha, hs⟩, if_neg (by omega)]
  obtain ⟨now, want, p, h⟩ := u.steer_servo d src off
  rw [h, hv]
  exact ⟨hsamples, ha, rfl⟩
/-- The sixteenth sample inside in a row, where the median asks for no step. -/
theorem State.collected_locks (ha : (s.die d).clk.servo.state = .acquire)
    (hn : (s.die d).clk.servo.samples.length = 15 ∨ (s.die d).clk.servo.samples.length = 16)
    (hm : (median16 ((off :: (s.die d).clk.servo.samples).take 16)).natAbs < 16000) (hi : 15 ≤ (s.die d).clk.servo.inside) :
    ((s.collected d src off true).die d).clk.servo.state = .locked := by
  generalize hu : (s.upd d fun x => x.modServo false fun v => v.collects s.now off true) = u
  have hv : (u.die d).clk.servo = (s.die d).clk.servo.collects s.now off true := by rw [← hu, State.modServo_servo]
  have hlen : ((s.die d).clk.servo.collects s.now off true).samples.length = 16 := by
    unfold Servo.collects; simp only [List.length_take, List.length_cons]; omega
  have hdec : u.stepDecision d false = u.upd d fun x => x.modServo false fun v => { v with step := none, stepGo := false } := by
    unfold State.stepDecision
    rw [Die.servo_false, hv]
    exact (if_pos hm).trans (if_pos ha)
  unfold State.collected
  dsimp only
  rw [hu, hv, if_pos hlen, hdec, State.acquires, State.modServo_servo, hv, if_pos ⟨ha, rfl⟩]
  rw [if_pos (by show 16 ≤ (s.die d).clk.servo.inside + 1; omega)]
  obtain ⟨now, want, p, h⟩ := State.steer_servo ((u.upd d fun x => x.modServo false fun v => { v with step := none, stepGo := false }).enter d false .locked) d src off
  rw [h]
  exact State.enter_servo_state _ d _

end Sys2Proof.Machine
end

section
/-! A sync of REF_IN before a plan (R54 to R57): what it shows, the measure of the reference's frequency, and the sample that it gives. -/

namespace Sys2Proof.Machine

theorem State.upd_eq_self {s : State} {d : DieId} {f : Die → Die} (h : f (s.die d) = s.die d) : s.upd d f = s := by
  unfold State.upd
  rw [h]
  unfold State.setDie State.die
  split <;> rfl

/-! ### What is shown of the reference -/

/-- Before a plan the source of die 0 is the reference that TB_REF_FORMAT shows (R37). -/
theorem State.source_zero {s : State} (h : s.planRuns = false) : s.source 0 = if s.fld 0 R.TB_REF_FORMAT_FORMAT = 0 then 0 else 2 := by
  unfold State.source
  dsimp only
  rw [if_neg (by simp), h, if_neg (by decide), if_neg (by decide)]
  rfl

/-- A die that shows a reference's signal. -/
def Die.refShow (x : Die) (fmt rate : Nat) (l750 : Bool) : Die :=
  ((x.setFld R.TB_REF_FORMAT_FORMAT fmt).setFld R.TB_REF_FORMAT_RATE rate).setFld R.TB_REF_FORMAT_LINE750 (b2n l750)

variable {x : Die} {fmt rate : Nat} {l750 : Bool}

theorem Die.refShow_format : (x.refShow fmt rate l750).fld R.TB_REF_FORMAT_FORMAT = fmt % 2 ^ 2 := by
  unfold Die.refShow
  rw [Die.fld_setFld_apart _ _ _ _ _ _ _ _ (by decide) (by decide) (by decide), Die.fld_setFld_apart _ _ _ _ _ _ _ _ (by decide) (by decide) (by decide)]
  exact Die.fld_setFld_same _ _ _ _ _ (by decide)
theorem Die.refShow_rate : (x.refShow fmt rate l750).fld R.TB_REF_FORMAT_RATE = rate % 2 ^ 4 := by
  unfold Die.refShow
  rw [Die.fld_setFld_apart _ _ _ _ _ _ _ _ (by decide) (by decide) (by decide)]
  exact Die.fld_setFld_same _ _ _ _ _ (by decide)
theorem Die.refShow_fld {f : Fld} {i j : Nat} (h : fldAddr f i j ≠ 0x2001C) : (x.refShow fmt rate l750).fld f i j = x.fld f i j := by
  unfold Die.refShow
  rw [Die.fld_setFld_addr _ _ _ _ _ _ _ _ h, Die.fld_setFld_addr _ _ _ _ _ _ _ _ h, Die.fld_setFld_addr _ _ _ _ _ _ _ _ h]

/-- The signals that REF_IN accepts, by their codes (R54). -/
theorem refSignal_some {tri : Bool} {lines num den : Nat} (h : refSignal tri lines num den = some (fmt, rate, l750)) :
    (fmt ≠ 0 ∧ fmt < 4) ∧ rate < 16 ∧ rateOf rate = some (num, den) ∧ refLines fmt l750 = lines := by
  unfold refSignal at h
  generalize hr : ((List.range 11).find? fun r => rateOf r == some (num, den)) = r at h
  have found : ∀ q, r = some q → q < 16 ∧ rateOf q = some (num, den) := fun q e => by
    have hm := List.mem_of_find?_eq_some (hr.trans e)
    have hq := List.find?_some (hr.trans e)
    exact ⟨by have := List.mem_range.mp hm; omega, by simpa using hq⟩
  split at h <;> simp only [Option.some.injEq, Prod.mk.injEq, reduceCtorEq] at h
  all_goals
    obtain ⟨rfl, rfl, rfl⟩ := h
    exact ⟨by decide, (found _ rfl).1, (found _ rfl).2, rfl⟩

/-! ### The measure -/

/-- A servo at a sync of REF_IN: the measurement of a signal that has changed is dropped, and the frame syncs are counted (R48, R57). -/
def Servo.synced (v : Servo) (changed : Bool) (line now period : Nat) : Servo :=
  let v := if changed then { v with measure := none } else v
  if line = 0 then v.frameSync now period else { v with lastFrameSync := some (v.lastFrameSync.getD now) }
/-- A sync changes no state and no run. -/
theorem Servo.synced_rest (v : Servo) (changed : Bool) (line now period : Nat) : v.synced changed line now period =
    { v with lastFrameSync := (v.synced changed line now period).lastFrameSync, measure := (v.synced changed line now period).measure } := by
  unfold Servo.synced Servo.frameSync
  cases changed <;> by_cases h : line = 0 <;> simp [h]

@[simp] theorem Servo.synced_state (v : Servo) (changed : Bool) (line now period : Nat) : (v.synced changed line now period).state = v.state := by
  rw [Servo.synced_rest]
@[simp] theorem Servo.synced_samples (v : Servo) (changed : Bool) (line now period : Nat) : (v.synced changed line now period).samples = v.samples := by
  rw [Servo.synced_rest]
@[simp] theorem Servo.synced_inside (v : Servo) (changed : Bool) (line now period : Nat) : (v.synced changed line now period).inside = v.inside := by
  rw [Servo.synced_rest]
@[simp] theorem Servo.synced_outside (v : Servo) (changed : Bool) (line now period : Nat) : (v.synced changed line now period).outside = v.outside := by
  rw [Servo.synced_rest]
@[simp] theorem Servo.synced_rejectRun (v : Servo) (changed : Bool) (line now period : Nat) : (v.synced changed line now period).rejectRun = v.rejectRun := by
  rw [Servo.synced_rest]
@[simp] theorem Servo.synced_predicted (v : Servo) (changed : Bool) (line now period : Nat) : (v.synced changed line now period).predicted = v.predicted := by
  rw [Servo.synced_rest]
@[simp] theorem Servo.synced_step (v : Servo) (changed : Bool) (line now period : Nat) : (v.synced changed line now period).step = v.step := by
  rw [Servo.synced_rest]

/-- The signal differs from the one that is shown. -/
def Die.refChanged (x : Die) (fmt rate : Nat) (l750 : Bool) : Bool :=
  decide ((x.fld R.TB_REF_FORMAT_FORMAT, x.fld R.TB_REF_FORMAT_RATE, x.fld R.TB_REF_FORMAT_LINE750) ≠ (fmt, rate, b2n l750))
/-- Die 0 at a sync of the reference that it follows. -/
def State.refSeen (s : State) (fmt rate : Nat) (l750 : Bool) (line period : Nat) : State :=
  s.upd 0 fun x => (x.refShow fmt rate l750).modServo false fun v => v.synced (s.die0.refChanged fmt rate l750) line s.now period
@[simp] theorem State.refSeen_now (s : State) (line period : Nat) : (s.refSeen fmt rate l750 line period).now = s.now := s.upd_now 0 _
@[simp] theorem State.refSeen_planRuns (s : State) (line period : Nat) : (s.refSeen fmt rate l750 line period).planRuns = s.planRuns := s.upd_planRuns 0 _
theorem State.refSeen_die (s : State) (line period : Nat) : (s.refSeen fmt rate l750 line period).die0 =
    (s.die0.refShow fmt rate l750).modServo false fun v => v.synced (s.die0.refChanged fmt rate l750) line s.now period := s.die_upd_same 0 _

/-- A judgement without a cause, where none holds. -/
theorem State.judge_none {s : State} {d : DieId} (h : (s.die d).clk.causes = []) (judged : List Nat) : s.judge d judged [] = s := by
  have e : (s.upd d fun x => { x with clk := { x.clk with causes := [] } }) = s := State.upd_eq_self (by rw [← h])
  unfold State.judge
  rw [h]
  exact (if_neg (by simp)).trans e

/-- What follows a sync that is seen, before a plan: the measured frequency is judged, and without a cause the servo takes its sample. -/
def State.refTaken (u : State) (fmt rate : Nat) (l750 : Bool) (line period : Nat) : State :=
  let u := if line = 0 then u.refFreq 0 0 u.now else u
  match u.die0.boundGrid fmt rate l750 with
  | some g =>
    if u.die0.unfollowed then u
    else u.refSample 0 false 2 (g.refOffset ((u.die0.clk.now : Int) - (line * period / max 1 (refLines fmt l750) : Nat)) (sgn 32 (u.fld 0 R.TB_REF_OFFSET)))
  | none => u
/-- The causes that a sync raises, and what follows it (R57). -/
def State.refJudged (s : State) (was fmt rate : Nat) (l750 : Bool) (line period : Nat) : State :=
  let base := s.die0.clk.refBase.getD (fmt, b2n l750)
  let s := if s.planRuns then s.upd 0 fun x => { x with clk := { x.clk with refBase := some base } } else s
  let rateBad := s.planRuns && (match s.die0.grid (s.die0.fld R.TB_MODE_REF_CAD) with
    | some _ => !rateBound rate (s.die0.fld R.TB_CAD_CFG_RATE (s.die0.fld R.TB_MODE_REF_CAD))
    | none => false)
  let s := if was = 0 then s.upd 0 fun x => x.modServo false fun v => { v with samples := [], inside := 0 } else s
  let s := s.judge 0 [1, 2] ((if s.planRuns ∧ base ≠ (fmt, b2n l750) then [1] else []) ++ (if rateBad then [2] else []))
  s.refTaken fmt rate l750 line period
theorem State.refJudged_unplanned {s : State} (hp : s.planRuns = false) (hc : s.die0.clk.causes = []) (line period : Nat) :
    s.refJudged 2 fmt rate l750 line period = s.refTaken fmt rate l750 line period := by
  unfold State.refJudged
  simp [hp, State.judge_none (s := s) (d := 0) hc]

/-- The measurement at a sync: that of a signal that has changed is dropped (R57). -/
def State.refMeasured (s : State) (changed : Bool) (line period : Nat) : State :=
  let s := if changed ∧ s.source 0 = 2 then s.upd 0 fun x => x.modServo false fun v => { v with measure := none } else s
  if line = 0 then s.upd 0 fun x => x.modServo false fun v => v.frameSync s.now period
  else s.upd 0 fun x => x.modServo false fun v => { v with lastFrameSync := some (v.lastFrameSync.getD s.now) }
theorem State.refMeasured_followed {s : State} (h : s.source 0 = 2) (changed : Bool) (line period : Nat) :
    s.refMeasured changed line period = s.upd 0 fun x => x.modServo false fun v => v.synced changed line s.now period := by
  unfold State.refMeasured Servo.synced
  rw [h]
  cases changed <;> by_cases hl : line = 0 <;> simp only [hl, State.upd_upd, State.upd_now, and_self, if_true, if_false, Bool.false_eq_true, false_and] <;> rfl
theorem State.refSync_parts (s : State) (fmt rate : Nat) (l750 : Bool) (line : Nat) : s.refSync fmt rate l750 line =
    let period := match rateOf rate with | some (n, den) => second * den / n | none => 0
    let u := (((s.setFld 0 R.TB_REF_FORMAT_FORMAT fmt).setFld 0 R.TB_REF_FORMAT_RATE rate).setFld 0 R.TB_REF_FORMAT_LINE750 (b2n l750)).refMeasured
      (s.die0.refChanged fmt rate l750) line period
    if u.source 0 ≠ 2 then u else u.refJudged (s.source 0) fmt rate l750 line period := by
  rfl

/-- A sync of the reference that die 0 follows before a plan. -/
theorem State.refSync_unplanned {s : State} {num den : Nat} (hp : s.planRuns = false) (hs : s.source 0 = 2) (hc : s.die0.clk.causes = [])
    (hf : fmt ≠ 0 ∧ fmt < 4) (hr : rateOf rate = some (num, den)) (line : Nat) :
    s.refSync fmt rate l750 line = (s.refSeen fmt rate l750 line (second * den / num)).refTaken fmt rate l750 line (second * den / num) := by
  have hshow : ((s.setFld 0 R.TB_REF_FORMAT_FORMAT fmt).setFld 0 R.TB_REF_FORMAT_RATE rate).setFld 0 R.TB_REF_FORMAT_LINE750 (b2n l750) =
      s.upd 0 fun x => x.refShow fmt rate l750 := by
    unfold State.setFld; rw [State.upd_upd, State.upd_upd]; rfl
  have followed (u : State) (hu : u.planRuns = s.planRuns) (hx : u.die0.regs = (s.die0.refShow fmt rate l750).regs) : u.source 0 = 2 := by
    have hfmt : u.die0.fld R.TB_REF_FORMAT_FORMAT = fmt := by
      unfold Die.fld Die.reg
      rw [hx]
      exact Die.refShow_format.trans (Nat.mod_eq_of_lt hf.2)
    rw [State.source_zero (hu.trans hp), State.fld, State.die_zero, hfmt, if_neg hf.1]
  have hu : (s.upd 0 fun x => x.refShow fmt rate l750).source 0 = 2 :=
    followed _ (s.upd_planRuns 0 _) (congrArg Die.regs (s.die_upd_same 0 _))
  have hseen : ((s.upd 0 fun x => x.refShow fmt rate l750).refMeasured (s.die0.refChanged fmt rate l750) line (second * den / num)) =
      s.refSeen fmt rate l750 line (second * den / num) := by
    rw [State.refMeasured_followed hu, State.upd_now, State.upd_upd]; rfl
  rw [State.refSync_parts, hshow, hr, hs]
  dsimp only
  rw [hseen, if_neg (not_not_intro (followed _ (s.refSeen_planRuns _ _) (by rw [State.refSeen_die]; rfl)))]
  refine State.refJudged_unplanned ((s.refSeen_planRuns _ _).trans hp) ?_ _ _
  rw [State.refSeen_die]
  exact hc

/-! ### What a sample is taken from -/

/-- The registers of two dies agree but for TB_REF_FORMAT. -/
def Die.agrees (x y : Die) : Prop := ∀ (f : Fld) (i j : Nat), fldAddr f i j ≠ 0x2001C → y.fld f i j = x.fld f i j
theorem Die.agrees.flag {y : Die} (h : x.agrees y) (f : Fld) (i j : Nat) (hf : fldAddr f i j ≠ 0x2001C) : y.flag f i j = x.flag f i j := by
  unfold Die.flag; rw [h f i j hf]
theorem Die.agrees.boundGrid {y : Die} (h : x.agrees y) : y.boundGrid fmt rate l750 = x.boundGrid fmt rate l750 := by
  have cad (f : Fld) (c : Nat) (hf : 0x20100 ≤ f.base) : y.fld f c = x.fld f c := h f c 0 (by unfold fldAddr; omega)
  have grid (c : Nat) : y.grid c = x.grid c := by
    unfold Die.grid
    rw [cad _ _ (by decide), cad _ _ (by decide), cad _ _ (by decide)]
  unfold Die.boundGrid
  rw [h R.TB_MODE_REF_CAD 0 0 (by decide), grid]
theorem Die.agrees.pertAmounts {y : Die} (h : x.agrees y) (a b c : Nat) : y.pertAmounts a b c = x.pertAmounts a b c := by
  have pert (f : Fld) (u : Nat) (hf : 0x220200 ≤ f.base) : y.fld f u = x.fld f u := h f u 0 (by unfold fldAddr; omega)
  unfold Die.pertAmounts Die.flag
  simp only [pert _ _ (show 0x220200 ≤ R.ST_PERT_CTRL_ACTIVE.base by decide), pert _ _ (show 0x220200 ≤ R.ST_PERT_CTRL_CLASS.base by decide),
    pert _ _ (show 0x220200 ≤ R.ST_PERT_TARGET_TARGET.base by decide), pert _ _ (show 0x220200 ≤ R.ST_PERT_TARGET_SUB.base by decide),
    pert _ _ (show 0x220200 ≤ R.ST_PERT_AMOUNT.base by decide)]
/-- A sample that no perturbation shifts. -/
theorem State.refSample_plain {s : State} {d : DieId} (h : (s.die d).pertAmounts 6 0 0 = []) (src : Nat) (off : Int) :
    s.refSample d false src off = s.servoSample d false src off := by
  unfold State.refSample
  rw [h]
  simp

/-! ### Die 0 at a sync, after time has moved -/

section
variable {s : State} {dt line period : Nat}

/-- The package at a sync that arrives `dt` later. -/
abbrev State.atSync (s : State) (dt fmt rate : Nat) (l750 : Bool) (line period : Nat) : State := (s.advance dt).refSeen fmt rate l750 line period
theorem State.atSync_agrees : s.die0.agrees (s.atSync dt fmt rate l750 line period).die0 := fun f i j h => by
  rw [State.refSeen_die]
  exact (Die.refShow_fld h).trans (s.advance_die_fld dt 0 f i j)
theorem State.atSync_fld {f : Fld} (h : fldAddr f 0 0 ≠ 0x2001C) : (s.atSync dt fmt rate l750 line period).fld 0 f = s.fld 0 f :=
  State.atSync_agrees f 0 0 h
theorem State.atSync_format (h : fmt < 4) : (s.atSync dt fmt rate l750 line period).fld 0 R.TB_REF_FORMAT_FORMAT = fmt := by
  rw [State.fld, State.die_zero, State.refSeen_die]
  exact Die.refShow_format.trans (Nat.mod_eq_of_lt h)
theorem State.atSync_rate (h : rate < 16) : (s.atSync dt fmt rate l750 line period).fld 0 R.TB_REF_FORMAT_RATE = rate := by
  rw [State.fld, State.die_zero, State.refSeen_die]
  exact Die.refShow_rate.trans (Nat.mod_eq_of_lt h)
theorem State.atSync_clk : (s.atSync dt fmt rate l750 line period).die0.clk =
    { (s.advance dt).die0.clk with
      servo := (s.die0.clk.servo.run s.now dt).1.synced ((s.advance dt).die0.refChanged fmt rate l750) line (s.now + dt) period } := by
  rw [State.refSeen_die]
  rfl
theorem State.atSync_station : (s.atSync dt fmt rate l750 line period).die0.clk.now = (s.advance dt).die0.clk.now := by rw [State.atSync_clk]
theorem State.atSync_causes : (s.atSync dt fmt rate l750 line period).die0.clk.causes = s.die0.clk.causes := by
  rw [State.atSync_clk]; exact s.advance_causes dt 0
theorem State.refTaken_line {u : State} {g : Grid} (hl : line ≠ 0) (hg : u.die0.boundGrid fmt rate l750 = some g) (hc : u.die0.clk.causes = [])
    (hp : u.die0.pertAmounts 6 0 0 = []) : u.refTaken fmt rate l750 line period = u.servoSample 0 false 2
      (g.refOffset ((u.die0.clk.now : Int) - (line * period / max 1 (refLines fmt l750) : Nat)) (sgn 32 (u.fld 0 R.TB_REF_OFFSET))) := by
  unfold State.refTaken
  rw [if_neg hl]
  dsimp only
  rw [hg]
  dsimp only
  rw [if_neg (by rw [Die.unfollowed, hc]; decide)]
  exact State.refSample_plain (d := 0) hp 2 _

/-- A valid sync between frame starts, before a plan: the servo takes its sample. -/
theorem State.refEdge_line {tri : Bool} {lines num den : Nat} {g : Grid} (hr : refSignal tri lines num den = some (fmt, rate, l750)) (hlt : line < lines)
    (hp : s.planRuns = false) (hs : s.source 0 = 2) (hpert : s.die0.pertOn 6 0 0 = false) (hg : s.die0.boundGrid fmt rate l750 = some g)
    (hc : s.die0.clk.causes = []) (hl : line ≠ 0) :
    (s.advance dt).refEdge tri lines num den line true = (s.atSync dt fmt rate l750 line (second * den / num)).servoSample 0 false 2
      (g.refOffset (((s.advance dt).die0.clk.now : Int) - (line * (second * den / num) / lines : Nat)) (sgn 32 (s.fld 0 R.TB_REF_OFFSET))) := by
  obtain ⟨hf, -, hrate, hlines⟩ := refSignal_some hr
  have hpert : s.die0.pertAmounts 6 0 0 = [] := by simpa [Die.pertOn] using hpert
  have he : (s.advance dt).refEdge tri lines num den line true = (s.advance dt).refSync fmt rate l750 line := by
    unfold State.refEdge; rw [hr]; rfl
  generalize hperiod : second * den / num = period
  rw [he, State.refSync_unplanned (s := s.advance dt) hp ((s.advance_source dt 0).trans hs) ((s.advance_causes dt 0).trans hc) hf hrate, hperiod,
    State.refTaken_line hl (State.atSync_agrees.boundGrid.trans hg) (State.atSync_causes.trans hc)
      ((State.atSync_agrees.pertAmounts 6 0 0).trans hpert), State.atSync_fld (by decide), State.atSync_station, hlines, Nat.max_eq_right (by omega)]

/-- A frame sync of a signal that has not changed: whole frames have passed on the measurement. -/
theorem State.atSync_measure {r0 : Int} {t0 t : Nat} (hm : s.die0.clk.servo.measure = some (r0, t0)) (ht : s.die0.clk.servo.lastFrameSync = some t)
    (hc : s.die0.refChanged fmt rate l750 = false) : (s.atSync dt fmt rate l750 0 period).die0.clk.servo.measure =
      some (r0 - ((s.now + dt - t + period / 2) / max 1 period * period : Nat), t0) := by
  have hc : (s.advance dt).die0.refChanged fmt rate l750 = false := by rw [← hc]; rfl
  rw [State.atSync_clk, hc]
  simp [Servo.synced, Servo.frameSync, hm, ht]

/-- The measurement of the reference's frequency starts anew. -/
def State.measured (s : State) (ref : Int) (t : Nat) : State := s.upd 0 fun x => x.modServo false fun v => { v with measure := some (ref, t) }
/-- A servo in LOCKED is held over by cause 3, which is shown and recorded (R57). -/
theorem State.judge_third {u : State} (hc : u.die0.clk.causes = []) (hl : u.die0.clk.servo.state = .locked) : u.judge 0 [3] [3] =
    ((u.upd 0 fun x => { x with clk := { x.clk with causes := [3] } }).eventRec 0 R.TB_EVENTS_MISMATCH 0 0 3).enter 0 false .holdover := by
  have hstate : ((((u.upd 0 fun x => { x with clk := { x.clk with causes := [3] } }).eventRec 0 R.TB_EVENTS_MISMATCH 0 0 3).die 0).clk).servo.state = .locked := by
    rw [State.eventRec_clk, State.die_upd_same]; exact hl
  have hold : (u.die 0).clk.causes = [] := hc
  unfold State.judge
  rw [hold]
  exact if_pos ⟨by decide, .inr hstate⟩
/-- What cause 3 leaves of die 0. -/
theorem State.judge_third_shown {u : State} (hc : u.die0.clk.causes = []) (hl : u.die0.clk.servo.state = .locked) :
    (u.judge 0 [3] [3]).die0.clk.causes = [3] ∧ (u.judge 0 [3] [3]).die0.clk.servo.state = .holdover ∧
      (u.judge 0 [3] [3]).fld 0 R.TB_EVENTS_MISMATCH = 1 ∧ (u.judge 0 [3] [3]).fld 0 R.TB_REJECTS = u.fld 0 R.TB_REJECTS := by
  generalize hw : (u.upd 0 fun x => { x with clk := { x.clk with causes := [3] } }).eventRec 0 R.TB_EVENTS_MISMATCH 0 0 3 = w
  have hposted := State.eventRec_posted (u.upd 0 fun x => { x with clk := { x.clk with causes := [3] } }) 0 R.TB_EVENTS_MISMATCH 0 0 3 false
  rw [hw, State.die_upd_same] at hposted
  have hne : (w.die 0).clk.servo.state ≠ .holdover := by
    rw [hposted.clk]; change u.die0.clk.servo.state ≠ .holdover; rw [hl]; decide
  rw [State.judge_third hc hl, hw]
  refine ⟨?_, w.enter_servo_state 0 _, ?_, ?_⟩
  · refine (congrArg Clock.causes (State.enter_clk hne)).trans ?_
    exact congrArg Clock.causes hposted.clk
  · rw [State.enter_fld _ _ _ _ _ _ (by decide) (by decide)]
    exact (hposted.fld _ _ _ (by decide)).trans (Die.fld_setFld_same _ _ _ _ _ (by decide))
  · rw [State.enter_fld _ _ _ _ _ _ (by decide) (by decide)]
    exact (hposted.fld _ _ _ (by decide)).trans (Die.fld_setFld_addr _ _ _ _ _ _ _ _ (by decide))

/-- A frame sync that ends a measurement of a second or more outside 10 ppm: cause 3, and no sample. -/
theorem State.refTaken_frame {u : State} {r0 : Int} {t0 : Nat} (hm : u.die0.clk.servo.measure = some (r0, t0)) (ht : t0 + second ≤ u.now)
    (hout : ((u.now - t0 : Nat) : Int) < (0 - r0 - ((u.now - t0 : Nat) : Int)).natAbs * 100000) (hc : u.die0.clk.causes = [])
    (hl : u.die0.clk.servo.state = .locked) : u.refTaken fmt rate l750 0 period = (u.measured 0 u.now).judge 0 [3] [3] := by
  have hfreq : u.refFreq 0 0 u.now = (u.measured 0 u.now).judge 0 [3] [3] := by
    unfold State.refFreq
    rw [State.die_zero, hm]
    dsimp only
    rw [if_neg (Nat.not_lt.mpr ht), if_pos hout]
    rfl
  have hcauses : (u.measured 0 u.now).die0.clk.causes = [] := (congrArg (fun x : Die => x.clk.causes) (u.die_upd_same 0 _)).trans hc
  have hlocked : (u.measured 0 u.now).die0.clk.servo.state = .locked := (congrArg (fun x : Die => x.clk.servo.state) (u.die_upd_same 0 _)).trans hl
  unfold State.refTaken
  rw [if_pos rfl, hfreq]
  have hun : ((u.measured 0 u.now).judge 0 [3] [3]).die0.unfollowed = true := by
    rw [Die.unfollowed, (State.judge_third_shown hcauses hlocked).1]; decide
  dsimp only
  split
  · rw [if_pos hun]
  · rfl

end

end Sys2Proof.Machine
end

section
/-! What the sample of a sync of REF_IN makes of die 0 before a plan (R48, R49, R57). -/

namespace Sys2Proof.Machine

variable {s : State} {dt fmt rate line period : Nat} {l750 : Bool} {off : Int}

/-- The servo that a sample at a sync meets: the one that stood before, but for its frequency and its measurement. -/
theorem State.phased_atSync_servo (s : State) (dt fmt rate : Nat) (l750 : Bool) (line period : Nat) (off : Int) :
    let w := (((s.atSync dt fmt rate l750 line period).phased 0 off).die 0).clk.servo
    let v := s.die0.clk.servo
    w.state = v.state ∧ w.samples = v.samples ∧ w.inside = v.inside ∧ w.outside = v.outside ∧ w.rejectRun = v.rejectRun ∧
      w.predicted = v.predicted ∧ w.step = v.step := by
  intro w v
  have hw : w = (v.run s.now dt).1.synced ((s.advance dt).die0.refChanged fmt rate l750) line (s.now + dt) period := by
    have hclk : ((((s.atSync dt fmt rate l750 line period).phased 0 off).die 0).clk) = (s.atSync dt fmt rate l750 line period).die0.clk :=
      State.setFld_clk _ 0 0 _ _ _ _
    exact (congrArg Clock.servo hclk).trans (congrArg Clock.servo State.atSync_clk)
  rw [hw]
  simp
theorem State.phased_atSync_rejects : ((s.atSync dt fmt rate l750 line period).phased 0 off).fld 0 R.TB_REJECTS = s.fld 0 R.TB_REJECTS := by
  unfold State.phased
  rw [State.fld_setFld_addr _ _ _ _ _ _ _ _ _ _ (by decide), State.atSync_fld (by decide)]
/-- The thresholds of REF_IN at a sync. -/
theorem State.atSync_thresholds : ((s.atSync dt fmt rate l750 line period).die 0).thresholds 2 = (16 * s.fld 0 R.TB_THRESH_REF_IN, 32) :=
  congrArg (fun n => (16 * n, 32)) (State.atSync_fld (f := R.TB_THRESH_REF_IN) (by decide))

/-- The sample of a sync, by the state of the servo and the thresholds of REF_IN. -/
theorem State.atSync_sample (s : State) (dt fmt rate : Nat) (l750 : Bool) (line period : Nat) (off : Int) :
    (s.atSync dt fmt rate l750 line period).servoSample 0 false 2 off =
      let y := (s.atSync dt fmt rate l750 line period).phased 0 off
      if s.die0.clk.servo.state = .locked then
        if 16 * s.fld 0 R.TB_THRESH_REF_IN < (off - s.die0.clk.servo.predicted).natAbs then y.rejected 0
        else y.accepted 0 2 off (decide (off.natAbs ≤ 32))
      else y.collected 0 2 off (decide (off.natAbs ≤ 32)) := by
  obtain ⟨hstate, -, -, -, -, hpred, -⟩ := s.phased_atSync_servo dt fmt rate l750 line period off
  rw [State.servoSample_parts, State.atSync_thresholds, hstate, hpred]

/-- A frame of a rate lasts. -/
theorem one_le_period {rate num den : Nat} (h : rateOf rate = some (num, den)) : 1 ≤ second * den / num := by
  unfold rateOf at h
  split at h <;> simp only [Option.some.injEq, Prod.mk.injEq, reduceCtorEq] at h
  all_goals
    obtain ⟨rfl, rfl⟩ := h
    decide

/-- The sample of a sync keeps what is shown of REF_IN, and time. -/
theorem State.sample_shown (hf : fmt < 4) (hr : rate < 16) {r : State} (h : (s.atSync dt fmt rate l750 line period).servoSample 0 false 2 off = r) :
    r.now = s.now + dt ∧ r.fld 0 R.TB_REF_FORMAT_FORMAT = fmt ∧ r.fld 0 R.TB_REF_FORMAT_RATE = rate := by
  have kept := h ▸ (s.atSync dt fmt rate l750 line period).servoSample_kept 0 2 off
  exact ⟨kept.sup, (kept.fld 0 R.TB_REF_FORMAT_FORMAT 0 0 (show _ = 0x2001C by decide)).trans (State.atSync_format hf),
    (kept.fld 0 R.TB_REF_FORMAT_RATE 0 0 (show _ = 0x2001C by decide)).trans (State.atSync_rate hr)⟩
/-- An outlier in LOCKED. -/
theorem State.sample_rejected (hl : s.die0.clk.servo.state = .locked) (ho : 16 * s.fld 0 R.TB_THRESH_REF_IN < (off - s.die0.clk.servo.predicted).natAbs)
    {r : State} (h : (s.atSync dt fmt rate l750 line period).servoSample 0 false 2 off = r) :
    r.fld 0 R.TB_REJECTS = (s.fld 0 R.TB_REJECTS + 1) % 2 ^ 32 ∧
      (s.die0.clk.servo.rejectRun < 8 → r.die0.clk.servo.state = .locked ∧ r.die0.clk.servo.rejectRun = s.die0.clk.servo.rejectRun + 1) ∧
      (8 ≤ s.die0.clk.servo.rejectRun → r.die0.clk.servo.state = .holdover ∧ r.die0.clk.servo.rejectRun = 0) := by
  obtain ⟨hstate, -, -, -, hrun, -, -⟩ := s.phased_atSync_servo dt fmt rate l750 line period off
  have hrej : _ = s.fld 0 R.TB_REJECTS := State.phased_atSync_rejects (dt := dt) (fmt := fmt) (rate := rate) (l750 := l750) (line := line) (period := period) (off := off)
  rw [State.atSync_sample, if_pos hl, if_pos ho] at h
  subst h
  rw [State.rejected_rejects, hrej]
  refine ⟨rfl, fun hlt => ?_, fun hge => ?_⟩
  · have e := State.rejected_short (d := 0) (hrun ▸ hlt)
    exact ⟨(congrArg Servo.state e).trans (hstate.trans hl), (congrArg Servo.rejectRun e).trans (congrArg (· + 1) hrun)⟩
  · exact State.rejected_ninth (hstate.trans hl) (hrun ▸ hge)
/-- Another sample in LOCKED. -/
theorem State.sample_accepted (hl : s.die0.clk.servo.state = .locked) (ho : ¬16 * s.fld 0 R.TB_THRESH_REF_IN < (off - s.die0.clk.servo.predicted).natAbs)
    {r : State} (h : (s.atSync dt fmt rate l750 line period).servoSample 0 false 2 off = r) :
    r.fld 0 R.TB_REJECTS = s.fld 0 R.TB_REJECTS ∧ r.die0.clk.servo.rejectRun = 0 ∧
      (decide (off.natAbs ≤ 32) = true → r.die0.clk.servo.state = .locked ∧ r.die0.clk.servo.outside = 0) ∧
      (decide (off.natAbs ≤ 32) = false → s.die0.clk.servo.outside = 15 → r.die0.clk.servo.state = .acquire) := by
  obtain ⟨hstate, -, -, hoff, -, -, -⟩ := s.phased_atSync_servo dt fmt rate l750 line period off
  have hrej : _ = s.fld 0 R.TB_REJECTS := State.phased_atSync_rejects (dt := dt) (fmt := fmt) (rate := rate) (l750 := l750) (line := line) (period := period) (off := off)
  rw [State.atSync_sample, if_pos hl, if_neg ho] at h
  subst h
  rw [State.accepted_rejects, hrej]
  cases hin : decide (off.natAbs ≤ 32) with
  | true =>
    obtain ⟨h1, h2, h3⟩ := State.accepted_inside (src := 2) (off := off) (hstate.trans hl)
    exact ⟨rfl, h3, fun _ => ⟨h1, h2⟩, fun h => absurd h (by decide)⟩
  | false =>
    obtain ⟨h1, h2⟩ := State.accepted_outside (src := 2) (off := off) (hstate.trans hl)
    exact ⟨rfl, h1, fun h => absurd h (by decide), fun _ h15 => h2 (hoff.trans h15)⟩
/-- A sample in ACQUIRE, with fewer than 16 there. -/
theorem State.sample_collected (ha : s.die0.clk.servo.state = .acquire) (hs : s.die0.clk.servo.step = none) (hn : s.die0.clk.servo.samples.length < 15)
    (hi : s.die0.clk.servo.inside < 15) {r : State} (h : (s.atSync dt fmt rate l750 line period).servoSample 0 false 2 off = r) :
    r.die0.clk.servo.samples = off :: s.die0.clk.servo.samples ∧ r.die0.clk.servo.state = .acquire ∧
      r.die0.clk.servo.inside = if decide (off.natAbs ≤ 32) then s.die0.clk.servo.inside + 1 else 0 := by
  obtain ⟨hstate, hsamples, hinside, -, -, -, hstep⟩ := s.phased_atSync_servo dt fmt rate l750 line period off
  rw [State.atSync_sample, if_neg (by rw [ha]; decide)] at h
  subst h
  rw [← hsamples, ← hinside]
  exact State.collected_short (hstate.trans ha) (hstep.trans hs) (hsamples ▸ hn) (hinside ▸ hi)
/-- The sixteenth sample inside. -/
theorem State.sample_locks (ha : s.die0.clk.servo.state = .acquire)
    (hn : s.die0.clk.servo.samples.length = 15 ∨ s.die0.clk.servo.samples.length = 16)
    (hm : (median16 ((off :: s.die0.clk.servo.samples).take 16)).natAbs < 16000) (hin : decide (off.natAbs ≤ 32) = true)
    (hi : 15 ≤ s.die0.clk.servo.inside) {r : State} (h : (s.atSync dt fmt rate l750 line period).servoSample 0 false 2 off = r) :
    r.die0.clk.servo.state = .locked := by
  obtain ⟨hstate, hsamples, hinside, -, -, -, -⟩ := s.phased_atSync_servo dt fmt rate l750 line period off
  rw [State.atSync_sample, if_neg (by rw [ha]; decide), hin] at h
  subst h
  exact State.collected_locks (hstate.trans ha) (hsamples ▸ hn) (hsamples ▸ hm) (hinside ▸ hi)

/-- A frame sync that ends a measurement outside 10 ppm: cause 3 is judged on the state that the sync leaves. -/
theorem State.refEdge_frame {tri : Bool} {lines num den t0 t : Nat} {r0 : Int} (hr : refSignal tri lines num den = some (fmt, rate, l750))
    (hp : s.planRuns = false) (hs : s.source 0 = 2) (hc : s.die0.clk.causes = []) (hlocked : s.die0.clk.servo.state = .locked)
    (hm : s.die0.clk.servo.measure = some (r0, t0)) (ht : s.die0.clk.servo.lastFrameSync = some t)
    (hfmt : s.fld 0 R.TB_REF_FORMAT_FORMAT = fmt) (hrt : s.fld 0 R.TB_REF_FORMAT_RATE = rate) (h750 : s.fld 0 R.TB_REF_FORMAT_LINE750 = b2n l750)
    (hsec : t0 + second ≤ s.now + dt) (hout : ((s.now + dt - t0 : Nat) : Int) <
      ((((s.now + dt - t + second * den / num / 2) / (second * den / num) * (second * den / num) : Nat) : Int) - r0 - ((s.now + dt - t0 : Nat) : Int)).natAbs * 100000) :
    ∃ u : State, (s.advance dt).refEdge tri lines num den 0 true = u.judge 0 [3] [3] ∧ u.die0.clk.causes = [] ∧
      u.die0.clk.servo.state = .locked ∧ u.fld 0 R.TB_REJECTS = s.fld 0 R.TB_REJECTS := by
  obtain ⟨hf, -, hrate, -⟩ := refSignal_some hr
  generalize hperiod : second * den / num = period at hout
  have hsame : s.die0.refChanged fmt rate l750 = false := by
    unfold Die.refChanged
    rw [← State.die_zero, ← State.fld, ← State.fld, ← State.fld, hfmt, hrt, h750]
    simp
  have hmeasure := State.atSync_measure (dt := dt) (period := period) hm ht hsame
  rw [Nat.max_eq_right (hperiod ▸ one_le_period hrate)] at hmeasure
  generalize hy : s.atSync dt fmt rate l750 0 period = y at hmeasure
  have hnow : y.now = s.now + dt := by rw [← hy]; exact State.refSeen_now _ _ _
  have hcauses : y.die0.clk.causes = [] := by rw [← hy]; exact State.atSync_causes.trans hc
  have hstate : y.die0.clk.servo.state = .locked := by
    rw [← hy, State.atSync_clk]; exact (Servo.synced_state _ _ _ _ _).trans ((Servo.run_state _ _ _).trans hlocked)
  have hsync := State.refSync_unplanned (s := s.advance dt) (l750 := l750) hp ((s.advance_source dt 0).trans hs) ((s.advance_causes dt 0).trans hc) hf hrate 0
  rw [hperiod, show (s.advance dt).refSeen fmt rate l750 0 period = y from hy] at hsync
  refine ⟨y.measured 0 y.now, ?_, ?_, ?_, ?_⟩
  · refine Eq.trans ?_ (hsync.trans (State.refTaken_frame hmeasure (hnow ▸ hsec) ?_ hcauses hstate))
    · unfold State.refEdge; rw [hr]; rfl
    · rw [hnow]
      refine lt_of_lt_of_eq hout ?_
      congr 3
      omega
  · rw [State.measured, ← State.die_zero, State.die_upd_same]; exact hcauses
  · rw [State.measured, ← State.die_zero, State.die_upd_same]; exact hstate
  · rw [State.measured, State.modServo_fld, ← hy, State.atSync_fld (by decide)]

end Sys2Proof.Machine

namespace Sys2Proof
open Sys2Proof.Machine

/-- Settles O30: a sync before a plan gives the servo its sample, by the servo's state and the thresholds; cause 3 at a frame sync. -/
theorem servoSamples : Obligations.ServoSamples := by
  intro s dt tri lines num den line fmt rate l750 g hr hlt
  have hwf (b : Bool) : Instr.wf (.refSyncSample dt tri lines num den line b) = true := by simp [Instr.wf, hr, hlt]
  have hexec (b : Bool) : exec (.refSyncSample dt tri lines num den line b) s = onDie s 0 true ((s.advance dt).refEdge tri lines num den line b) := by
    rw [← hwf b]; rfl
  obtain ⟨hf, hrate16, hrate, -⟩ := refSignal_some hr
  refine ⟨?_, fun hp hs hpert hg hc => ⟨fun hl => ?_, fun r0 t0 t hl0 hlocked hm ht hfmt hrt h750 hsec hout => ?_⟩⟩
  · rw [hexec, onDie_next _ (has_zero s)]
    unfold State.refEdge
    rw [hr]
    rfl
  · rw [hexec, State.refEdge_line hr hlt hp hs hpert hg hc hl]
    generalize g.refOffset _ _ = off
    generalize hw : (s.atSync dt fmt rate l750 line (second * den / num)).servoSample 0 false 2 off = w
    obtain ⟨hnow, hfmt, hrt⟩ := State.sample_shown hf.2 hrate16 hw
    refine completes_onDie (has_zero s) ⟨hnow, hfmt, hrt, fun hlocked ho => ?_, fun hlocked ho => ?_, fun ha hstep hn hi => ?_, fun ha _ hn hm hin hi => ?_⟩
    · exact State.sample_rejected (r := w) hlocked (of_decide_eq_true ho) hw
    · exact State.sample_accepted (r := w) hlocked (of_decide_eq_false ho) hw
    · exact State.sample_collected (r := w) ha hstep hn hi hw
    · exact State.sample_locks (r := w) ha hn hm hin hi hw
  · subst hl0
    obtain ⟨u, he, hcauses, hstate, hrej⟩ := State.refEdge_frame hr hp hs hc hlocked hm ht hfmt hrt h750 hsec hout
    obtain ⟨h1, h2, h3, h4⟩ := State.judge_third_shown hcauses hstate
    rw [hexec, he]
    exact completes_onDie (has_zero s) ⟨h1, h2, h3, h4.trans hrej⟩

end Sys2Proof
end

section
/-! The agenda of a package: its plans and its queue of commands. Each function of the model that leaves both alone has one lemma that says
so, tagged for `simp`. -/

namespace Sys2Proof.Machine

/-- The plans of a package and its queue of commands. -/
def State.agenda (s : State) : Plans × List Instr := (s.pkg.plans, s.pending)
theorem State.plans_of_agenda {s r : State} (h : r.agenda = s.agenda) : r.pkg.plans = s.pkg.plans := congrArg Prod.fst h
theorem State.pending_of_agenda {s r : State} (h : r.agenda = s.agenda) : r.pending = s.pending := congrArg Prod.snd h

@[simp] theorem State.agenda_setDie (s : State) (d : DieId) (x : Die) : (s.setDie d x).agenda = s.agenda := by
  unfold State.setDie; split <;> rfl
@[simp] theorem State.agenda_upd (s : State) (d : DieId) (f : Die → Die) : (s.upd d f).agenda = s.agenda := s.agenda_setDie d _
@[simp] theorem State.agenda_updPkg (s : State) (f : Pkg → Pkg) : (s.updPkg f).agenda = ((f s.pkg).plans, s.pending) := rfl
@[simp] theorem State.agenda_mk (p : Pkg) (x y : Die) (n : Nat) (o : List Out) (q : List Instr) :
    State.agenda ⟨p, x, y, n, o, q⟩ = (p.plans, q) := rfl
@[simp] theorem State.agenda_eta (s : State) : (s.pkg.plans, s.pending) = s.agenda := rfl
@[simp] theorem State.agenda_ite (c : Prop) [Decidable c] (s t : State) : (if c then s else t).agenda = if c then s.agenda else t.agenda :=
  apply_ite _ _ _ _
@[simp] theorem State.agenda_fst_ite {α : Type} (c : Prop) [Decidable c] (s t : State × α) :
    (if c then s else t).1.agenda = if c then s.1.agenda else t.1.agenda := by split <;> rfl
@[simp] theorem State.agenda_snd_ite {α : Type} (c : Prop) [Decidable c] (s t : α × State) :
    (if c then s else t).2.agenda = if c then s.2.agenda else t.2.agenda := by split <;> rfl
@[simp] theorem State.agenda_foldl {α : Type} (f : State → α → State) (h : ∀ s a, (f s a).agenda = s.agenda) (l : List α) (s : State) :
    (l.foldl f s).agenda = s.agenda := foldl_keeps _ _ h _ _
/-- A fold whose steps leave the agenda alone, on a state with the agenda `t`. -/
theorem State.agenda_foldl_of {α : Type} {f : State → α → State} (h : ∀ s a, (f s a).agenda = s.agenda) {l : List α} {s : State}
    {t : Plans × List Instr} (hs : s.agenda = t) : (l.foldl f s).agenda = t := by rw [State.agenda_foldl f h, hs]

@[simp] theorem State.send_agenda (s : State) (o : Out) : (s.send o).agenda = s.agenda := rfl
@[simp] theorem State.advance_agenda (s : State) (dt : Nat) : (s.advance dt).agenda = s.agenda := rfl
@[simp] theorem State.event_agenda (s : State) (d : DieId) (f : Fld) (i n : Nat) : (s.event d f i n).agenda = s.agenda := s.agenda_upd d _
@[simp] theorem State.hbRecord_agenda (s : State) (d : DieId) (c n v : Nat) (p b : Bool) : (s.hbRecord d c n v p b).agenda = s.agenda :=
  Prod.ext (s.hbRecord_plans d c n v p b) (s.hbRecord_pending d c n v p b)
@[simp] theorem State.eventCad_agenda (s : State) (d : DieId) (f : Fld) (i n c v : Nat) (p : Bool) : (s.eventCad d f i n c v p).agenda = s.agenda :=
  Prod.ext (s.eventCad_plans d f i n c v p) (s.eventCad_pending d f i n c v p)
@[simp] theorem State.sendPlan_agenda (s : State) (d : DieId) (m : PlanMsg) (bytes : Nat) : (s.sendPlan d m bytes).agenda = s.agenda := by
  simp [State.sendPlan]
@[simp] theorem State.sendSections_agenda (s : State) (d : DieId) (p : Plan) :
    (s.sendSections d p).agenda = s.agenda := by simp [State.sendSections]
@[simp] theorem State.setFld_agenda (s : State) (d : DieId) (f : Fld) (v i j : Nat) :
    (s.setFld d f v i j).agenda = s.agenda := by simp [State.setFld]
@[simp] theorem State.count_agenda (s : State) (d : DieId) (f : Fld) (i n : Nat) :
    (s.count d f i n).agenda = s.agenda := by simp [State.count]
@[simp] theorem State.hbCad_agenda (s : State) (d : DieId) (code source cad value : Nat) (pert : Bool) :
    (s.hbCad d code source cad value pert).agenda = s.agenda := by
  simp [State.hbCad]
@[simp] theorem State.stepGap_agenda (s : State) (d : DieId) (c lines : Nat) :
    (s.stepGap d c lines).agenda = s.agenda := by simp [State.stepGap]
@[simp] theorem State.eventRec_agenda (s : State) (d : DieId) (f : Fld) (i source value : Nat) (pert : Bool) :
    (s.eventRec d f i source value pert).agenda = s.agenda := by
  simp [State.eventRec]
@[simp] theorem State.cmpLate_agenda (s : State) (d : DieId) (u : Nat) : (s.cmpLate d u).agenda = s.agenda := by simp [State.cmpLate]
@[simp] theorem State.release_agenda (s : State) (d : DieId) (n : Nat) : (s.release d n).agenda = s.agenda := by
  unfold State.release
  dsimp only
  repeat' split
  all_goals simp
@[simp] theorem State.serve_agenda (s : State) (d : DieId) (k : ItemKind) (i : Nat) :
    (s.serve d k i).agenda = s.agenda := by simp [State.serve]
@[simp] theorem State.dmEvent_agenda (s : State) (d : DieId) (die chan : Fld) (n : Nat) : (s.dmEvent d die chan n).agenda = s.agenda := by
  simp [State.dmEvent]
@[simp] theorem State.dmaStart_agenda (s : State) (d : DieId) (n : Nat) (src : StartSrc) (depth : Nat) :
    (s.dmaStart d n src depth).agenda = s.agenda := by
  simp [State.dmaStart]
@[simp] theorem State.cmpFire_agenda (s : State) (d : DieId) (u : Nat) (late : Bool) : (s.cmpFire d u late).agenda = s.agenda := by
  unfold State.cmpFire; dsimp only; split <;> simp
@[simp] theorem State.cmpStepped_agenda (s : State) (d : DieId) : (s.cmpStepped d).agenda = s.agenda := by
  unfold State.cmpStepped
  refine State.agenda_foldl_of (fun s u => ?_) rfl
  split <;> simp
@[simp] theorem State.stepDie_agenda (s : State) (d : DieId) (st : Int) : (s.stepDie d st).agenda = s.agenda := by simp [State.stepDie]
@[simp] theorem State.applyStep_agenda (s : State) (d : DieId) :
    (s.applyStep d).agenda = s.agenda := by unfold State.applyStep; split <;> simp
@[simp] theorem State.advanceStation_agenda (s : State) (d : DieId) (t : Nat) : (s.advanceStation d t).agenda = s.agenda := by
  simp [State.advanceStation]
@[simp] theorem State.stepApply_agenda (s : State) (d : DieId) : (s.stepApply d).agenda = s.agenda := by
  unfold State.stepApply
  dsimp only
  repeat' split
  all_goals simp
@[simp] theorem State.enter_agenda (s : State) (d : DieId) (backup : Bool) (st : ServoState) : (s.enter d backup st).agenda = s.agenda := by
  simp [State.enter]
@[simp] theorem State.sourceMoved_agenda (s : State) (d : DieId) : (s.sourceMoved d).agenda = s.agenda := by simp [State.sourceMoved]
@[simp] theorem State.withSource_agenda (s : State) (f : State → State) (h : ∀ t, (f t).agenda = t.agenda) :
    (s.withSource f).agenda = s.agenda := by
  simp [State.withSource, h]
@[simp] theorem State.switchDie_agenda (s : State) (d : DieId) (p : Plan) : (s.switchDie d p).agenda = s.agenda := by simp [State.switchDie]
@[simp] theorem State.switchCmps_agenda (s : State) (d : DieId) (c : Option Nat) (p : Plan) : (s.switchCmps d c p).agenda = s.agenda := by
  unfold State.switchCmps; split <;> simp
@[simp] theorem State.xptApply_agenda (s : State) (d : DieId) (t : Nat) : (s.xptApply d t).agenda = s.agenda := by
  unfold State.xptApply; split <;> simp
@[simp] theorem State.lnLockMoved_agenda (s : State) (d : DieId) (k : Nat) :
    (s.lnLockMoved d k).agenda = s.agenda := by simp [State.lnLockMoved]
@[simp] theorem State.unlock_agenda (s : State) (d : DieId) (k : Nat) : (s.unlock d k).agenda = s.agenda := by simp [State.unlock]
@[simp] theorem State.cmpWritten_agenda (s : State) (d : DieId) (u : Nat) : (s.cmpWritten d u).agenda = s.agenda := by
  unfold State.cmpWritten; dsimp only; split <;> simp
@[simp] theorem Move.compare_agenda (m : Move) (fn : Die) (fate : Cross) (owner : Option Nat) (u : Nat) (s : State) :
    (m.compare fn fate owner u s).agenda = s.agenda := by
  unfold Move.compare; split <;> simp
@[simp] theorem State.lnNow_agenda (s : State) (d : DieId) (k : Nat) (tx : Bool) (v : Nat) : (s.lnNow d k tx v).agenda = s.agenda := by
  simp [State.lnNow]
@[simp] theorem State.lnPower_agenda (s : State) (d : DieId) (k : Nat) (tx bist : Bool) (want : Nat) :
    (s.lnPower d k tx bist want).agenda = s.agenda := by
  simp [State.lnPower]
@[simp] theorem State.moveLane_agenda (s : State) (d : DieId) (k : Nat) : (s.moveLane d k).agenda = s.agenda := by simp [State.moveLane]
@[simp] theorem State.switchCad_agenda (s : State) (d : DieId) (p : Plan) (c : Nat) (m : Int) :
    (s.switchCad d p c m).agenda = s.agenda := by
  unfold State.switchCad; dsimp only; split <;> simp
@[simp] theorem State.plEvent_agenda (s : State) (f : Fld) (detail : Nat) :
    (s.plEvent f detail).agenda = s.agenda := by simp [State.plEvent]
@[simp] theorem State.showState_agenda (s : State) (state : Nat) (changing : Bool) : (s.showState state changing).agenda = s.agenda := by
  simp [State.showState]
@[simp] theorem State.brownEvent_agenda (s : State) (before : List Nat) :
    (s.brownEvent before).agenda = s.agenda := by simp [State.brownEvent]
@[simp] theorem State.draw_agenda (s : State) : (s.draw).2.agenda = s.agenda := by simp [State.draw]
@[simp] theorem State.vatClock_agenda (s : State) (d : DieId) : (s.vatClock d).2.agenda = s.agenda := by simp [State.vatClock]
@[simp] theorem State.breach_agenda (s : State) (d : DieId) (b : Breach) (frag : Nat) (cad : Option Nat) (pert : Bool) :
    (s.breach d b frag cad pert).agenda = s.agenda := by
  simp [State.breach]
@[simp] theorem State.tileWindowEnd_agenda (s : State) (d : DieId) (c t cycles : Nat) :
    (s.tileWindowEnd d c t cycles).agenda = s.agenda := by
  simp [State.tileWindowEnd]
@[simp] theorem State.windowEnd_agenda (s : State) (d : DieId) (c t : Nat) :
    (s.windowEnd d c t).agenda = s.agenda := by simp [State.windowEnd]
@[simp] theorem State.auMeasure_agenda (s : State) (d : DieId) (p : Nat) : (s.auMeasure d p).agenda = s.agenda := by simp [State.auMeasure]
@[simp] theorem State.auBoundary_agenda (s : State) (d : DieId) (r : AuRef) (gr : Grid) (b : Int) :
    (s.auBoundary d r gr b).agenda = s.agenda := by
  unfold State.auBoundary
  extract_lets x fs first start last v ok
  rw [State.agenda_ite]
  split
  · split
    extract_lets s1 s2 s3
    rw [State.agenda_ite]
    have h1 : s1.agenda = s.agenda := by simp [s1]
    have h2 : s2.agenda = s.agenda := by simp [s2, h1]
    have h3 : s3.agenda = s.agenda := by simp [s3, h2]
    simp [h1, h3]
  · simp
@[simp] theorem State.auPulse_agenda (s : State) (d : DieId) (c : Nat) (m : Int) (boundary : Bool) :
    (s.auPulse d c m boundary).agenda = s.agenda := by
  unfold State.auPulse; repeat split <;> simp
@[simp] theorem State.forced_agenda (s : State) (d : DieId) (r cause n : Nat) :
    (s.forced d r cause n).agenda = s.agenda := by simp [State.forced]
@[simp] theorem State.queueNeighbour_agenda (s : State) (d : DieId) (r bank row : Nat) :
    (s.queueNeighbour d r bank row).agenda = s.agenda := by
  simp [State.queueNeighbour]
@[simp] theorem State.activation_agenda (s : State) (d : DieId) (a : Nat) :
    (s.activation d a).agenda = s.agenda := by simp [State.activation]
@[simp] theorem State.touch_agenda (s : State) (d : DieId) (a t : Nat) : (s.touch d a t).agenda = s.agenda := by simp [State.touch]
@[simp] theorem State.touchOpen_agenda (s : State) (d : DieId) (a : Nat) : (s.touchOpen d a).agenda = s.agenda := by simp [State.touchOpen]
@[simp] theorem State.touchRange_agenda (s : State) (d : DieId) (a n : Nat) :
    (s.touchRange d a n).agenda = s.agenda := by simp [State.touchRange]
@[simp] theorem State.touchSpans_agenda (s : State) (d : DieId) (base : Nat) (l : List (Nat × Nat)) :
    (s.touchSpans d base l).agenda = s.agenda := by
  simp [State.touchSpans]
@[simp] theorem State.timedLine_agenda (s : State) (d : DieId) (k : Nat) (b : List Byte) (g : Grid) (m : Int) (hold : Bool) :
    (s.timedLine d k b g m hold).agenda = s.agenda := by
  unfold State.timedLine
  dsimp only
  repeat' split
  all_goals simp
@[simp] theorem State.routePulse_agenda (s : State) (d : DieId) (c : Nat) (g : Grid) (m : Int) (hold : Nat → Bool) :
    (s.routePulse d c g m hold).agenda = s.agenda := by
  simp [State.routePulse]
@[simp] theorem State.dmaRestart_agenda (s : State) (d : DieId) (n : Nat) :
    (s.dmaRestart d n).agenda = s.agenda := by simp [State.dmaRestart]
@[simp] theorem State.dmaFrame_agenda (s : State) (d : DieId) (c : Nat) : (s.dmaFrame d c).agenda = s.agenda := by simp [State.dmaFrame]
@[simp] theorem State.anyPart_agenda (s : State) (d : DieId) (c : Nat) (g : Grid) (m : Int) (gap : Bool) :
    (s.anyPart d c g m gap).agenda = s.agenda := by
  simp [State.anyPart]
@[simp] theorem State.storeStart_agenda (s : State) (d : DieId) (n : Nat) (frame : Int) : (s.storeStart d n frame).agenda = s.agenda := by
  simp [State.storeStart]
@[simp] theorem State.storeDone_agenda (s : State) (d : DieId) (n : Nat) (conceal : Bool) :
    (s.storeDone d n conceal).agenda = s.agenda := by
  simp [State.storeDone]
@[simp] theorem State.memBoundary_agenda (s : State) (d : DieId) (r : MemRef) (g : Grid) (b : Int) :
    (s.memBoundary d r g b).agenda = s.agenda := by
  simp [State.memBoundary]
@[simp] theorem State.storeFrameEnd_agenda (s : State) (d : DieId) (kind src : Nat) (frame : Int) :
    (s.storeFrameEnd d kind src frame).agenda = s.agenda := by
  simp [State.storeFrameEnd]
@[simp] theorem State.storeRead_agenda (s : State) (d : DieId) (n : Nat) : (s.storeRead d n).agenda = s.agenda := by
  unfold State.storeRead; dsimp only; split <;> simp
@[simp] theorem State.decRun_agenda (s : State) (d : DieId) (n : Nat) (out marked : Bool) :
    (s.decRun d n out marked).agenda = s.agenda := by
  simp [State.decRun]
@[simp] theorem State.paramCheck_agenda (s : State) (d : DieId) (n : Nat) (frame : Int) (p : SeqParams) :
    (s.paramCheck d n frame p).agenda = s.agenda := by
  simp [State.paramCheck]
@[simp] theorem State.sendControl_agenda (s : State) (d : DieId) (m : CtlMsg) (bytes : Nat) :
    (s.sendControl d m bytes).agenda = s.agenda := by
  simp [State.sendControl]
@[simp] theorem State.sendDecisions_agenda (s : State) (c : Nat) : (s.sendDecisions c).agenda = s.agenda := by
  unfold State.sendDecisions
  refine State.agenda_foldl_of (fun s n => ?_) rfl
  split
  · rfl
  · split <;> simp
@[simp] theorem State.poolPulse_agenda (s : State) (d : DieId) (p : Nat) : (s.poolPulse d p).agenda = s.agenda := by simp [State.poolPulse]
@[simp] theorem State.reconTouch_agenda (s : State) (d : DieId) (n : Nat) (p : EncPic) (row : Nat) :
    (s.reconTouch d n p row).agenda = s.agenda := by
  simp [State.reconTouch]
@[simp] theorem State.eventPic_agenda (s : State) (d : DieId) (f : Fld) (i source cad value : Nat) (frame : Int) (pert : Bool) :
    (s.eventPic d f i source cad value frame pert).agenda = s.agenda := by
  simp [State.eventPic]
@[simp] theorem State.encPicEnd_agenda (s : State) (d : DieId) (n : Nat) (frame : Int) (field : Nat) :
    (s.encPicEnd d n frame field).agenda = s.agenda := by
  unfold State.encPicEnd; dsimp only; split <;> simp
@[simp] theorem State.encFill_agenda (s : State) (d : DieId) (n row cause : Nat) (frame : Int) (rap : Bool) :
    (s.encFill d n row cause frame rap).agenda = s.agenda := by
  simp [State.encFill]
@[simp] theorem State.patchFetch_agenda (s : State) (d : DieId) (n : Nat) (p : EncPic) (e : Rect × List (Int × Int)) :
    (s.patchFetch d n p e).agenda = s.agenda := by
  unfold State.patchFetch; split <;> simp
@[simp] theorem State.encPicture_agenda (s : State) (d : DieId) (n : Nat) (frame : Int) (field : Nat) :
    (s.encPicture d n frame field).agenda = s.agenda := by
  simp [State.encPicture]
@[simp] theorem State.encRowStart_agenda (s : State) (d : DieId) (n : Nat) (frame : Int) (field row : Nat) :
    (s.encRowStart d n frame field row).agenda = s.agenda := by
  unfold State.encRowStart; dsimp only; split <;> simp
@[simp] theorem State.shaperFollow_agenda (s : State) (d : DieId) (n : Nat) (pic : Int) : (s.shaperFollow d n pic).agenda = s.agenda := by
  unfold State.shaperFollow
  refine State.agenda_foldl_of (fun s e => ?_) rfl
  split
  · rfl
  · split <;> simp
@[simp] theorem State.readiness_agenda (s : State) (d : DieId) (n : Nat) : (s.readiness d n).agenda = s.agenda := by simp [State.readiness]
@[simp] theorem State.churnPulse_agenda (s : State) (d : DieId) (c : Nat) (g : Grid) (m : Int) :
    (s.churnPulse d c g m).agenda = s.agenda := by
  simp [State.churnPulse]
@[simp] theorem State.sendWhey_agenda (s : State) (d : DieId) (i : LeaseItem) :
    (s.sendWhey d i).agenda = s.agenda := by simp [State.sendWhey]
@[simp] theorem State.sendItem_agenda (s : State) (d : DieId) (i : LeaseItem) :
    (s.sendItem d i).agenda = s.agenda := by simp [State.sendItem]
@[simp] theorem State.sendPail_agenda (s : State) (d : DieId) (p ty : Nat) (m line : Int) :
    (s.sendPail d p ty m line).agenda = s.agenda := by
  unfold State.sendPail; split <;> simp
@[simp] theorem State.renewSend_agenda (s : State) (d : DieId) (p : Nat) (m : Int) : (s.renewSend d p m).agenda = s.agenda := by
  simp [State.renewSend]
@[simp] theorem State.resyncGoal_agenda (s : State) (d : DieId) (p : Nat) : (s.resyncGoal d p).agenda = s.agenda := by
  unfold State.resyncGoal; dsimp only; split <;> simp
@[simp] theorem State.resyncSnapshot_agenda (s : State) (h : DieId) (p : Nat) (frame : Int) :
    (s.resyncSnapshot h p frame).agenda = s.agenda := by
  unfold State.resyncSnapshot; dsimp only; split <;> simp
@[simp] theorem State.resyncClosing_agenda (s : State) (h : DieId) (p : Nat) : (s.resyncClosing h p).agenda = s.agenda := by
  unfold State.resyncClosing; dsimp only; split <;> simp
@[simp] theorem State.pailPulse_agenda (s : State) (d : DieId) (p : Nat) (g : Grid) (m : Int) :
    (s.pailPulse d p g m).agenda = s.agenda := by
  simp [State.pailPulse]
@[simp] theorem State.handoverStart_agenda (s : State) (d : DieId) (p : Nat) : (s.handoverStart d p).agenda = s.agenda := by
  simp [State.handoverStart]
@[simp] theorem State.policyHandover_agenda (s : State) (d : DieId) (own peer_ : Chk) :
    (s.policyHandover d own peer_).agenda = s.agenda := by
  simp [State.policyHandover]
@[simp] theorem State.sliceDiverged_agenda (s : State) (d : DieId) (own peer_ : Chk) : (s.sliceDiverged d own peer_).agenda = s.agenda := by
  simp [State.sliceDiverged]
@[simp] theorem State.pailEvent_agenda (s : State) (d : DieId) (f : Fld) (p value : Nat) : (s.pailEvent d f p value).agenda = s.agenda := by
  simp [State.pailEvent]
@[simp] theorem State.rejoined_agenda (s : State) (d : DieId) (p : Nat) : (s.rejoined d p).agenda = s.agenda := by simp [State.rejoined]
@[simp] theorem State.pictureCompared_agenda (s : State) (d : DieId) (c : Chk) (clean : Bool) :
    (s.pictureCompared d c clean).agenda = s.agenda := by
  simp [State.pictureCompared]
@[simp] theorem State.compareSlice_agenda (s : State) (d : DieId) (own peer_ : Chk) : (s.compareSlice d own peer_).agenda = s.agenda := by
  simp [State.compareSlice]
@[simp] theorem State.checkMade_agenda (s : State) (d : DieId) (c : Chk) : (s.checkMade d c).agenda = s.agenda := by
  unfold State.checkMade; dsimp only; split <;> simp
@[simp] theorem State.checkSlices_agenda (s : State) (d : DieId) (m : Int) (e : Slice) : (s.checkSlices d m e).agenda = s.agenda := by
  simp [State.checkSlices]
@[simp] theorem State.dmUnderrun_agenda (s : State) (d : DieId) (f : Nat) : (s.dmUnderrun d f).agenda = s.agenda := by
  unfold State.dmUnderrun; split <;> simp
@[simp] theorem State.txEntry_agenda (s : State) (d : DieId) (f : Nat) (e : Slice) : (s.txEntry d f e).1.agenda = s.agenda := by
  unfold State.txEntry; repeat split <;> simp
@[simp] theorem State.ctrlSend_agenda (s : State) (d : DieId) (sp : Nat) (b : List Byte) : (s.ctrlSend d sp b).agenda = s.agenda := by
  simp [State.ctrlSend]
@[simp] theorem State.askNeighbour_agenda (s : State) (d : DieId) (sp vlan : Nat) (ip : List Byte) :
    (s.askNeighbour d sp vlan ip).agenda = s.agenda := by
  simp [State.askNeighbour]
@[simp] theorem State.queueDrop_agenda (s : State) (d : DieId) (q : QId) (frag : Nat) : (s.queueDrop d q frag).agenda = s.agenda := by
  simp [State.queueDrop]
@[simp] theorem State.enqueue_agenda (s : State) (d : DieId) (q : QId) (frag : Nat) (p : Pkt) :
    (s.enqueue d q frag p).agenda = s.agenda := by
  simp [State.enqueue]
@[simp] theorem State.txQueue_agenda (s : State) (d : DieId) (f at_ : Nat) (payload : List Byte) :
    (s.txQueue d f at_ payload).agenda = s.agenda := by
  unfold State.txQueue
  refine State.agenda_foldl_of (fun s p => ?_) rfl
  dsimp only
  split <;> simp
@[simp] theorem State.rtpSend_agenda (s : State) (d : DieId) (f at_ ts : Nat) (marker : Bool) (payload : List Byte) :
    (s.rtpSend d f at_ ts marker payload).agenda = s.agenda := by
  simp [State.rtpSend]
@[simp] theorem State.txSlice_agenda (s : State) (d : DieId) (f : Nat) (g : Grid) (e : Slice) : (s.txSlice d f g e).agenda = s.agenda := by
  unfold State.txSlice; dsimp only; split <;> simp
@[simp] theorem State.splicesDone_agenda (s : State) (d : DieId) (e : Slice) :
    (s.splicesDone d e).agenda = s.agenda := by simp [State.splicesDone]
@[simp] theorem State.txSlices_agenda (s : State) (d : DieId) (g : Grid) (e : Slice) : (s.txSlices d g e).agenda = s.agenda := by
  unfold State.txSlices
  extract_lets fs s'
  have h : s'.agenda = s.agenda := by
    refine State.agenda_foldl_of (fun s r => ?_) rfl
    dsimp only
    split
    · simp
    · split <;> split <;> simp
  simp [h]

end Sys2Proof.Machine
end

section
/-! The agenda at a line pulse: pictures, inputs, decoders and coders leave it alone (R46). -/

namespace Sys2Proof.Machine

@[simp] theorem State.storeLine_agenda (s : State) (d : DieId) (kind src : Nat) (f : PicFmt) (frame : Int) (y : Nat) (last : Bool) (p : PicLine) :
    (s.storeLine d kind src f frame y last p).agenda = s.agenda := by
  unfold State.storeLine
  refine State.agenda_foldl_of (fun s n => ?_) rfl
  dsimp only
  split
  · simp
  · split <;> split <;> simp
@[simp] theorem State.memStore_agenda (s : State) (d : DieId) (r : MemRef) (q : Raster) (frame : Int) (o : Nat) (p : PicLine) :
    (s.memStore d r q frame o p).agenda = s.agenda := by
  unfold State.memStore; split <;> simp
@[simp] theorem State.concealLine_agenda (s : State) (d : DieId) (r : MemRef) (g : Grid) (q : Raster) (k : Int) (p : PicLine) :
    (s.concealLine d r g q k p).agenda = s.agenda := by
  simp [State.concealLine]
@[simp] theorem State.conceal_agenda (s : State) (d : DieId) (r : MemRef) (g : Grid) (m : Int) : (s.conceal d r g m).agenda = s.agenda := by
  simp [State.conceal]
@[simp] theorem State.memPulse_agenda (s : State) (d : DieId) (c : Nat) (g : Grid) (m : Int) : (s.memPulse d c g m).agenda = s.agenda := by
  simp [State.memPulse]
@[simp] theorem State.decLine_agenda (s : State) (d : DieId) (n : Nat) (frame : Int) (y : Nat) : (s.decLine d n frame y).agenda = s.agenda := by
  simp [State.decLine]
@[simp] theorem State.decOutput_agenda (s : State) (d : DieId) (n : Nat) (frame : Int) : (s.decOutput d n frame).agenda = s.agenda := by
  unfold State.decOutput
  extract_lets v s1 v1 x s2
  have h1 : s1.agenda = s.agenda := by
    simp only [s1]; split <;> simp
  have h2 : s2.agenda = s.agenda := by
    simp only [s2]
    split
    · exact h1
    · split <;> simp [h1]
  rw [State.decLine_agenda, h2]
@[simp] theorem State.decodeUnit_agenda (s : State) (d : DieId) (n : Nat) (frame : Int) (au : AccessUnit) :
    (s.decodeUnit d n frame au).agenda = s.agenda := by
  unfold State.decodeUnit
  extract_lets s1 x v
  have h1 : s1.agenda = s.agenda := by simp only [s1]; split <;> simp
  split
  · exact h1
  · split
    · exact h1
    · extract_lets f planes lost dp s2 s3 s4 s5 s6
      have h4 : s4.agenda = s.agenda := by simp [s4, s3, s2, h1]
      have h6 : s6.agenda = s.agenda := by simp [s6, s5, h4]
      simp [h6]
@[simp] theorem State.decTake_agenda (s : State) (d : DieId) (n : Nat) (frame : Int) (only : Option (List Int)) :
    (s.decTake d n frame only).agenda = s.agenda := by
  simp [State.decTake]
@[simp] theorem State.decBoundary_agenda (s : State) (d : DieId) (n : Nat) (frame : Int) (only : Option (List Int)) :
    (s.decBoundary d n frame only).agenda = s.agenda := by
  simp [State.decBoundary]
@[simp] theorem State.decPulse_agenda (s : State) (d : DieId) (c : Nat) (g : Grid) (m : Int) (follows : Nat → Bool) :
    (s.decPulse d c g m follows).agenda = s.agenda := by
  simp [State.decPulse]
@[simp] theorem State.encCode_agenda (s : State) (d : DieId) (n : Nat) (frame : Int) (field row : Nat) :
    (s.encCode d n frame field row).agenda = s.agenda := by
  unfold State.encCode
  dsimp only
  split
  · rfl
  · split <;> simp
@[simp] theorem State.encRowEnd_agenda (s : State) (d : DieId) (n : Nat) (frame : Int) (field row : Nat) :
    (s.encRowEnd d n frame field row).1.agenda = s.agenda := by
  unfold State.encRowEnd
  dsimp only
  split
  · simp
  · split <;> simp
@[simp] theorem State.encRowSearch_agenda (s : State) (d : DieId) (n : Nat) (frame : Int) (field row : Nat) :
    (s.encRowSearch d n frame field row).agenda = s.agenda := by
  unfold State.encRowSearch
  dsimp only
  split
  · rfl
  · split <;> simp
@[simp] theorem State.encChan_agenda (s : State) (d : DieId) (n l : Nat) (m : Int) : (s.encChan d n l m).1.agenda = s.agenda := by
  unfold State.encChan
  extract_lets s1
  have h1 : s1.agenda = s.agenda := by simp [s1]
  have rows := foldl_keeps (fun p : State × List Slice => p.1.agenda)
    (fun (p : State × List Slice) (e : Int × Nat × Nat) =>
      ((p.1.encRowEnd d n e.1 e.2.1 e.2.2).1, p.2 ++ (p.1.encRowEnd d n e.1 e.2.1 e.2.2).2))
    (fun p e => p.1.encRowEnd_agenda d n e.1 e.2.1 e.2.2) (((s1.die d).enc' n).rowsWhere fun r => r.started && r.left == 0) (s1, [])
  refine Eq.trans ?_ (rows.trans h1)
  simp
@[simp] theorem State.encPulse_agenda (s : State) (d : DieId) (c : Nat) (g : Grid) (m : Int) : (s.encPulse d c g m).1.agenda = s.agenda := by
  unfold State.encPulse
  dsimp only
  refine (foldl_keeps (fun p : State × List Slice => p.1.agenda) _ (fun p n => ?_) _ _).trans ?_
  · simp
  · simp
@[simp] theorem State.linePart_agenda (s : State) (d : DieId) (c : Nat) (g : Grid) (m : Int) : (s.linePart d c g m).agenda = s.agenda := by
  simp [State.linePart]

end Sys2Proof.Machine
end

section
/-! The switch of a cadence to a plan, and the agenda that it leaves (R97, R101, R104). -/

namespace Sys2Proof.Machine

@[simp] theorem Move.run_agenda (m : Move) (s : State) : (m.run s).agenda = s.agenda := by
  unfold Move.run
  dsimp only
  split <;> simp
@[simp] theorem State.switchMoves_agenda (s : State) (d : DieId) (c : Option Nat) (p : Plan) (first last : Bool) :
    (s.switchMoves d c p first last).agenda = s.agenda := by
  unfold State.switchMoves
  dsimp only
  split <;> simp
/-- A change that may move sources leaves the agenda of the change. -/
theorem State.withSource_changed (s : State) (f : State → State) : (s.withSource f).agenda = (f s).agenda := by
  unfold State.withSource
  dsimp only
  refine State.agenda_foldl_of (fun t d => ?_) rfl
  split <;> simp

theorem State.modPlans_agenda (s : State) (f : Plans → Plans) : (s.modPlans f).agenda = (f s.agenda.1, s.agenda.2) := rfl
/-- The marks of the brownout alternative change. -/
theorem State.switchBrown_agenda (s : State) (d : DieId) (c : Nat) (p : Plan) :
    ∃ on : List Nat, (s.switchBrown d c p).agenda = ({ s.pkg.plans with brownOn := on }, s.pending) := by
  unfold State.switchBrown
  dsimp only
  split
  · exact ⟨_, rfl⟩
  · exact ⟨_, (State.hbCad_agenda _ _ _ _ _ _ _).trans rfl⟩
/-- A switch that is complete: the plan runs, and none is pending or requested. -/
theorem State.switchDone_agenda (s : State) (p : Plan) : ∃ on : List Nat, (s.switchDone p).agenda =
    ({ s.pkg.plans with running := some p, pend := none, request := none, brownOn := on }, s.pending) := by
  unfold State.switchDone
  dsimp only
  rw [State.plEvent_agenda, State.showState_agenda, State.withSource_changed, State.modPlans_agenda, State.agenda_foldl]
  · exact ⟨_, rfl⟩
  · intro t d
    split <;> simp

/-- The request as a cadence's switch carries it on: the first to switch finds the fragments that are alike. -/
def State.switchRequest (s : State) (p : Plan) (r : SwitchReq) : SwitchReq :=
  if r.taken.isEmpty then { r with alike := s.alikeFrags (if p.brownout.isSome && s.pkg.plans.brownDue && !s.pkg.plans.brownOn.isEmpty then p.browned else p) } else r
/-- A cadence's move to a plan, with what is recorded of it. -/
def State.switchMoved (s : State) (d : DieId) (c : Nat) (p : Plan) (r : SwitchReq) (m : Int) : State :=
  let dieFirst := r.taken.all fun k => k / 8 != d.val
  let dieLast := ((s.switchKeys p).filter fun k => k / 8 == d.val).all fun k => (r.taken ++ [planKey d c]).contains k
  let s := s.modPlans fun q => { q with request := some (s.switchRequest p r) }
  let s := if r.taken.isEmpty then (s.setFld 0 R.PL_CLAMPED 0).setFld 1 R.PL_CLAMPED 0 else s
  let active := ((s.die d).grid c).isSome
  let s := s.withSource fun s => if dieFirst then s.switchDie d p else s
  let s := ((s.switchCad d p c m).switchMoves d (some c) p dieFirst dieLast).switchCmps d (some c) p
  let s := s.upd d fun x =>
    let x := x.movePail d (if p.brownout.isSome ∧ s.pkg.plans.brownDue then p.browned else p) c
    if active then x else x.startCad d s.now c
  s.hbCad d (codeOf R.PL_EVENTS_SWITCHED) c c (p.id % 65536)
theorem State.switchMoved_agenda (s : State) (d : DieId) (c : Nat) (p : Plan) (r : SwitchReq) (m : Int) :
    (s.switchMoved d c p r m).agenda = ({ s.pkg.plans with request := some (s.switchRequest p r) }, s.pending) := by
  unfold State.switchMoved
  dsimp only
  rw [State.hbCad_agenda, State.agenda_upd, State.switchCmps_agenda, State.switchMoves_agenda, State.switchCad_agenda, State.withSource_changed]
  simp only [State.agenda_ite, State.switchDie_agenda, State.setFld_agenda, ite_self]
  rfl
theorem State.switchAt_parts (s : State) (d : DieId) (c : Nat) (p : Plan) (r : SwitchReq) (m : Int) : s.switchAt d c p r m =
    let taken := r.taken ++ [planKey d c]
    let u := ((s.switchMoved d c p r m).switchBrown d c p).modPlans fun q => { q with request := some { s.switchRequest p r with taken := taken } }
    (if (s.switchKeys p).all fun k => taken.contains k then u.switchDone p else u).brownEvent s.pkg.plans.brownOn := by
  rfl

/-- The plans and the queue after a cadence's switch: the plan runs once every cadence has taken it. -/
theorem State.switchAt_agenda (s : State) (d : DieId) (c : Nat) (p : Plan) (r : SwitchReq) (m : Int) : ∃ on : List Nat,
    (s.switchAt d c p r m).agenda = (if (s.switchKeys p).all fun k => (r.taken ++ [planKey d c]).contains k then
        { s.pkg.plans with running := some p, pend := none, request := none, brownOn := on }
      else { s.pkg.plans with request := some { s.switchRequest p r with taken := r.taken ++ [planKey d c] }, brownOn := on }, s.pending) := by
  obtain ⟨on, hon⟩ := (s.switchMoved d c p r m).switchBrown_agenda d c p
  have hplans : (s.switchMoved d c p r m).pkg.plans = { s.pkg.plans with request := some (s.switchRequest p r) } :=
    congrArg Prod.fst (s.switchMoved_agenda d c p r m)
  have hpending : (s.switchMoved d c p r m).pending = s.pending := congrArg Prod.snd (s.switchMoved_agenda d c p r m)
  generalize hv : ((s.switchMoved d c p r m).switchBrown d c p).modPlans
    (fun q => { q with request := some { s.switchRequest p r with taken := r.taken ++ [planKey d c] } }) = u
  have hu : u.agenda = ({ s.pkg.plans with request := some { s.switchRequest p r with taken := r.taken ++ [planKey d c] }, brownOn := on }, s.pending) := by
    rw [← hv, State.modPlans_agenda, hon, hplans, hpending]
  rw [State.switchAt_parts]
  dsimp only
  rw [hv, State.brownEvent_agenda]
  split
  · obtain ⟨on', hon'⟩ := u.switchDone_agenda p
    have h1 : u.pkg.plans = _ := congrArg Prod.fst hu
    have h2 : u.pending = s.pending := congrArg Prod.snd hu
    rw [h1, h2] at hon'
    exact ⟨on', hon'⟩
  · exact ⟨on, hu⟩

/-! ### PLAN_SWITCH -/

/-- A cadence's next boundary is not the one at which it switches: it lies before the frame at which the other die has switched, or
before the switch time, or past what the other die can meet. -/
def State.switchEarly (s : State) (d : DieId) (c : Nat) (p : Plan) (r : SwitchReq) (b : Nat) (f : Int) : Bool :=
  match r.frame c with
  | some e => decide (f < e)
  | none => decide (b < (s.die d).switchTime r.t0 r.t1) || (s.tied p c && !(s.die (peer d)).canMeet c f)
/-- A running cadence at its next boundary, at the instant `b`. -/
def State.switchBoundary (s : State) (d : DieId) (c : Nat) (p : Plan) (r : SwitchReq) (g : Grid) (b : Nat) : State :=
  let f := g.frame (((s.die d).cad c).settle g).next
  if s.switchEarly d c p r b f then s
  else if s.stepBefore d b then s.stepApply (s.stepOwner d)
  else ((s.advanceStation d b).upd d fun x => x.modCad c fun k => k.settle g).switchAt d c p (r.tie (s.tied p c) c f) 0
/-- A cadence that the plan starts, at its first boundary. -/
def State.switchStarts (s : State) (d : DieId) (c : Nat) (p : Plan) (r : SwitchReq) (g : Grid) : State :=
  let m := match r.frame c with
    | some f => f * g.l
    | none => g.boundaryFrom (g.firstFrom (max (s.die d).clk.now ((s.die d).switchTime r.t0 r.t1)))
  if s.stepBefore d (g.instant m) then s.stepApply (s.stepOwner d)
  else (s.advanceStation d (g.instant m)).switchAt d c p (r.tie (s.tied p c) c (g.frame m)) m
/-- A cadence that is to switch. -/
def State.switchCadence (s : State) (d : DieId) (c : Nat) (p : Plan) (r : SwitchReq) : State :=
  match (s.die d).grid c, p.grid d c with
  | some g, _ => match (s.die d).boundaryNow c with
    | some b => s.switchBoundary d c p r g b
    | none => s
  | none, some g => s.switchStarts d c p r g
  | none, none => s
theorem State.planSwitch_requested {s : State} {p : Plan} {r : SwitchReq} (hr : s.pkg.plans.request = some r) (hp : s.pkg.plans.pend = some p)
    (d : DieId) (c : Nat) : s.planSwitch d c =
      if d ≠ 0 ∧ !s.sectionsHere d p then s.sendSections 0 p
      else if r.taken.isEmpty ∧ p.part ∧ !s.pkg.plans.brownOn.isEmpty then s.modPlans fun q => { q with request := some { r with held := true } }
      else if r.held ∨ r.taken.contains (planKey d c) ∨ !(s.switchKeys p).contains (planKey d c) then s
      else s.switchCadence d c p r := by
  unfold State.planSwitch
  rw [hr, hp]
  rfl
theorem State.planSwitch_idle {s : State} (h : s.pkg.plans.request = none ∨ s.pkg.plans.pend = none) (d : DieId) (c : Nat) : s.planSwitch d c = s := by
  unfold State.planSwitch
  split
  next r p hr hp => rcases h with h | h <;> simp [h] at hr hp
  next => rfl

theorem State.switchAt_pending (s : State) (d : DieId) (c : Nat) (p : Plan) (r : SwitchReq) (m : Int) : (s.switchAt d c p r m).pending = s.pending := by
  obtain ⟨on, hon⟩ := s.switchAt_agenda d c p r m
  exact congrArg Prod.snd hon
theorem State.switchCadence_pending (s : State) (d : DieId) (c : Nat) (p : Plan) (r : SwitchReq) : (s.switchCadence d c p r).pending = s.pending := by
  have step (b : Nat) (u : State) (hu : u.pending = s.pending) : (if s.stepBefore d b then s.stepApply (s.stepOwner d) else u).pending = s.pending := by
    split
    · exact State.pending_of_agenda (s.stepApply_agenda _)
    · exact hu
  unfold State.switchCadence
  split
  · split
    · unfold State.switchBoundary
      dsimp only
      split
      · rfl
      · exact step _ _ ((State.switchAt_pending _ _ _ _ _ _).trans (State.pending_of_agenda (by simp)))
    · rfl
  · exact step _ _ ((State.switchAt_pending _ _ _ _ _ _).trans (State.pending_of_agenda (by simp)))
  · rfl
/-- PLAN_SWITCH leaves the queue of commands alone. -/
@[simp] theorem State.planSwitch_pending (s : State) (d : DieId) (c : Nat) : (s.planSwitch d c).pending = s.pending := by
  cases hr : s.pkg.plans.request with
  | none => rw [State.planSwitch_idle (.inl hr)]
  | some r =>
    cases hp : s.pkg.plans.pend with
    | none => rw [State.planSwitch_idle (.inr hp)]
    | some p =>
      rw [State.planSwitch_requested hr hp]
      split
      · exact State.pending_of_agenda (s.sendSections_agenda _ _)
      · split
        · rfl
        · split
          · rfl
          · exact s.switchCadence_pending d c p r

/-! ### The queue of commands at a line pulse -/

/-- A cadence that a plan reset stops leaves the queue of commands alone. -/
theorem State.stopCad_pending (s : State) (d : DieId) (c : Nat) : (s.stopCad d c).pending = s.pending := by
  unfold State.stopCad
  extract_lets k left x all first last ss moves s1 s2 s3
  have h3 : s3.pending = s.pending := State.pending_of_agenda (s := s) (r := s2) (by simp [s2, s1])
  split
  · refine (congrArg Prod.snd ((State.showState_agenda _ _ _).trans (State.withSource_changed _ _))).trans ?_
    exact h3
  · exact h3
/-- A line of a cadence that is pulsed: stopped, in a gap, or at work. -/
def State.pulsed (s : State) (d : DieId) (c : Nat) (g : Grid) (k : Cad) : State :=
  if s.pkg.plans.stopping.contains (planKey d c) then s.stopCad d c
  else if k.inGap then
    let s := s.upd d fun x => (x.windowShut c).regionsSelf c true
    let s := if k.window then s.upd d fun x => x.encSkipped c 1 else s
    s.anyPart d c g k.next true
  else ((s.upd d fun x => (x.regionsSelf c false).windowOpen c (g.line k.next)).linePart d c g k.next).anyPart d c g k.next false
theorem State.pulsed_pending (s : State) (d : DieId) (c : Nat) (g : Grid) (k : Cad) : (s.pulsed d c g k).pending = s.pending := by
  unfold State.pulsed
  split
  · exact s.stopCad_pending d c
  · exact State.pending_of_agenda (by split <;> simp)
/-- A running cadence that comes to its next line. -/
def State.linePulsed (s : State) (d : DieId) (c : Nat) (g : Grid) : State :=
  let s := s.upd d fun x => x.modCad c (Cad.settle g)
  let t := ((s.die d).pulseDue c).getD (s.die d).clk.now
  let s := (s.advanceStation d t).count d R.TB_CAD_PULSES c
  let k := (s.die d).cad c
  let s := if k.window then s.windowEnd d c t else s
  let stop := s.pkg.plans.stopping.contains (planKey d c)
  (s.pulsed d c g k).upd d fun x => x.modCad c fun v => { v with next := k.next + 1, lastPulse := t, window := !stop && !v.inGap }
/-- The package at a line pulse, where a switch that is owed has come first. -/
def State.switchFirst (s : State) (d : DieId) (c : Nat) : State := if s.switchOwed d c then s.planSwitch d c else s
theorem State.linePulse_idle {s : State} {d : DieId} {c : Nat} (h : ((s.switchFirst d c).die d).grid c = none) : s.linePulse d c = s.switchFirst d c := by
  unfold State.switchFirst at h
  unfold State.linePulse
  dsimp only
  rw [h]
  rfl
theorem State.linePulse_running {s : State} {d : DieId} {c : Nat} {g : Grid} (h : ((s.switchFirst d c).die d).grid c = some g) :
    s.linePulse d c = (s.switchFirst d c).linePulsed d c g := by
  unfold State.switchFirst at h
  unfold State.linePulse
  dsimp only
  rw [h]
  rfl
theorem State.linePulsed_pending (s : State) (d : DieId) (c : Nat) (g : Grid) : (s.linePulsed d c g).pending = s.pending := by
  unfold State.linePulsed
  dsimp only
  rw [State.upd_pending, State.pulsed_pending]
  exact State.pending_of_agenda (by split <;> simp)
/-- A line pulse leaves the queue of commands alone. -/
theorem State.linePulse_pending (s : State) (d : DieId) (c : Nat) : (s.linePulse d c).pending = s.pending := by
  have first : (s.switchFirst d c).pending = s.pending := by
    unfold State.switchFirst; split <;> simp
  cases h : ((s.switchFirst d c).die d).grid c with
  | none => rw [State.linePulse_idle h, first]
  | some g => rw [State.linePulse_running h, State.linePulsed_pending, first]

end Sys2Proof.Machine
end

section
/-! What the boundary of a cadence needs: station time that is moved to it, the cadences that take part in a switch, and the entries of
the audio map that its registers list (R41, R97, R455). -/

namespace Sys2Proof.Machine

/-! ### Station time -/

/-- Time moves the clocks of a die and nothing else of it. -/
theorem State.advance_die_rest (s : State) (dt : Nat) (e : DieId) : (s.advance dt).die e = { s.die e with clk := ((s.advance dt).die e).clk } := by
  unfold State.die; split <;> rfl
theorem State.advanceStation_passed {s : State} {d : DieId} {t : Nat} (h : t ≤ (s.die d).clk.now) : s.advanceStation d t = s := if_pos h
theorem State.advanceStation_ahead {s : State} {d : DieId} {t : Nat} (h : ¬t ≤ (s.die d).clk.now) : s.advanceStation d t =
    (s.advance ((s.die d).clk.supOf (t - (s.die d).clk.now))).upd d fun x => { x with clk := { x.clk with now := t, residue := 0 } } := if_neg h
theorem State.advanceStation_rest (s : State) (d e : DieId) (t : Nat) :
    (s.advanceStation d t).die e = { s.die e with clk := ((s.advanceStation d t).die e).clk } := by
  by_cases h : t ≤ (s.die d).clk.now
  · rw [State.advanceStation_passed h]
  · rw [State.advanceStation_ahead h]
    by_cases q : e = d
    · subst q; rw [State.die_upd_same, State.advance_die_rest]
    · rw [State.die_upd_other _ _ q, ← State.advance_die_rest]
@[simp] theorem State.advanceStation_reg (s : State) (d e : DieId) (t a : Nat) : ((s.advanceStation d t).die e).reg a = (s.die e).reg a := by
  rw [State.advanceStation_rest]; rfl
@[simp] theorem State.advanceStation_fld (s : State) (d e : DieId) (t : Nat) (f : Fld) (i j : Nat) :
    (s.advanceStation d t).fld e f i j = s.fld e f i j := by
  unfold State.fld Die.fld; rw [State.advanceStation_reg]
/-- Station time stands at the instant, or where it was if that has passed. -/
theorem State.advanceStation_now (s : State) (d : DieId) (t : Nat) : ((s.advanceStation d t).die d).clk.now = max (s.die d).clk.now t := by
  by_cases h : t ≤ (s.die d).clk.now
  · rw [State.advanceStation_passed h, Nat.max_eq_left h]
  · rw [State.advanceStation_ahead h, State.die_upd_same]
    exact (Nat.max_eq_right (Nat.le_of_not_le h)).symm
@[simp] theorem State.advanceStation_cads (s : State) (d e : DieId) (t : Nat) : ((s.advanceStation d t).die e).clk.cads = (s.die e).clk.cads := by
  by_cases h : t ≤ (s.die d).clk.now
  · rw [State.advanceStation_passed h]
  · rw [State.advanceStation_ahead h]
    by_cases q : e = d
    · subst q; rw [State.die_upd_same]; exact s.advance_cads _ e
    · rw [State.die_upd_other _ _ q]; exact s.advance_cads _ e

/-! ### The cadences that take part in a switch -/

theorem State.switchKeys_congr {s u : State} (hpw : ∀ e, (u.die e).pw = (s.die e).pw)
    (hregs : ∀ e a, (u.die e).reg a = (s.die e).reg a) (p : Plan) : u.switchKeys p = s.switchKeys p := by
  have hgrid (e : DieId) (c : Nat) : (u.die e).grid c = (s.die e).grid c := by
    unfold Die.grid Die.fld; simp only [hregs]
  have hdual : u.dual = s.dual := congrArg (fun w : W32 => bits w.toNat _ _ == 1) (hregs 0 _)
  have hdies : u.planDies = s.planDies := by
    unfold State.planDies State.has; simp only [hdual, hpw]
  have hkeys : u.dieKeys p = s.dieKeys p := by
    funext e; unfold State.dieKeys; simp only [hgrid]
  unfold State.switchKeys
  rw [hdies, hkeys]

/-! ### A step at a boundary (R58, R59) -/

/-- A step that is due at a boundary or before is applied: none is pending on the die that owns it. -/
theorem State.stepApply_before {s : State} {d : DieId} {b : Nat} (h : s.stepBefore d b = true) :
    ((s.stepApply (s.stepOwner d)).die (s.stepOwner d)).clk.servo.step = none := by
  unfold State.stepBefore at h
  simp only [Bool.and_eq_true, Bool.or_eq_true, beq_iff_eq] at h
  obtain ⟨⟨hstep, hdue⟩, -⟩ := h
  obtain ⟨st, hst⟩ := Option.isSome_iff_exists.mp hstep
  unfold State.stepApply
  dsimp only
  rw [hst]
  dsimp only
  rw [if_pos hdue]
  split
  · exact State.applyStep_step _ _
  · split
    · exact State.applyStep_step _ _
    · exact State.applyStep_step _ _

/-! ### The audio map (R455, R460) -/

/-- The registers of the audio map hold 0 after reset. -/
def auMapZero (r : RegDesc) : Bool :=
  decide (r.fields.foldl (fun n f => n ||| fieldReset f) 0 = 0) || decide (0x1BA000 ≤ r.base) ||
    decide (r.base + (r.count - 1) * r.stride + (r.count2 - 1) * r.stride2 < 0x1B2000)
theorem regIndex_bound {r : RegDesc} {a : Nat} {ij : Nat × Nat} (h : regIndex r a = some ij) :
    r.base ≤ a ∧ a ≤ r.base + (r.count - 1) * r.stride + (r.count2 - 1) * r.stride2 := by
  unfold regIndex at h
  by_cases hb : a < r.base
  · rw [if_pos hb] at h; simp at h
  · rw [if_neg hb] at h
    extract_lets o i p j at h
    by_cases hc : i < r.count ∧ j < r.count2 ∧ i * r.stride + j * r.stride2 = o
    · obtain ⟨hi, hj, ho⟩ := hc
      have h1 := Nat.mul_le_mul_right r.stride (Nat.le_sub_one_of_lt hi)
      have h2 := Nat.mul_le_mul_right r.stride2 (Nat.le_sub_one_of_lt hj)
      omega
    · rw [if_neg hc] at h; simp at h
theorem regDefault_auMap {a : Nat} (h : 0x1B2000 ≤ a) (h' : a < 0x1BA000) : regDefault a = 0 := by
  have all : (regBlocks.all fun b => b.2.2.all auMapZero) = true := by decide +kernel
  unfold regDefault
  split
  · rfl
  next r i j hr =>
    obtain ⟨zero, lo, hi⟩ : auMapZero r = true ∧ r.base ≤ a ∧ a ≤ r.base + (r.count - 1) * r.stride + (r.count2 - 1) * r.stride2 := by
      unfold findReg at hr
      split at hr
      · cases hr
      next b hb =>
        obtain ⟨q, hq, he⟩ := List.exists_of_findSome?_eq_some hr
        obtain ⟨ij, hij, hqr⟩ := Option.map_eq_some_iff.mp he
        obtain rfl : q = r := congrArg Prod.fst hqr
        exact ⟨List.all_eq_true.mp (List.all_eq_true.mp all b (List.mem_of_find?_eq_some hb)) q hq, regIndex_bound hij⟩
    simp only [auMapZero, Bool.or_eq_true, decide_eq_true_eq] at zero
    rcases zero with (zero | zero) | zero
    · rw [zero]; rfl
    · omega
    · omega

theorem mget_absent {β : Type} (d : Nat → β) {m : Map β} {k : Nat} (h : ∀ e ∈ m, e.1 ≠ k) : mget d m k = d k := by
  induction m with
  | nil => rfl
  | cons e m ih =>
    exact (if_neg fun hk => h e (List.mem_cons_self ..) hk.symm).trans (ih fun e he => h e (List.mem_cons_of_mem _ he))
/-- An entry of the audio map that is used is listed. -/
theorem Die.auMap_listed {x : Die} {n : Nat} (hn : n < 4096) (h : x.flag R.AU_MAP_CFG_USED n = true) : n ∈ x.listed R.AU_MAP_CFG_USED 4096 := by
  have ha : fldAddr R.AU_MAP_CFG_USED n 0 = 0x1B2000 + n * 8 := by simp [fldAddr, R.AU_MAP_CFG_USED]
  have key : ∃ v, (0x1B2000 + n * 8, v) ∈ x.regs := by
    by_contra hno
    have hreg : x.reg (0x1B2000 + n * 8) = regDefault (0x1B2000 + n * 8) := mget_absent _ fun e he hk => hno ⟨e.2, hk ▸ he⟩
    have hzero : x.flag R.AU_MAP_CFG_USED n = false := by
      unfold Die.flag Die.fld
      rw [ha, hreg, regDefault_auMap (by omega) (by omega)]
      decide
    rw [h] at hzero
    cases hzero
  obtain ⟨v, hv⟩ := key
  refine List.mem_filterMap.mpr ⟨_, hv, ?_⟩
  have h1 : (0x1B2000 + n * 8 - 0x1B2000) = n * 8 := by omega
  simp only [R.AU_MAP_CFG_USED, h1]
  rw [if_pos (by omega), Nat.mul_div_cancel _ (by decide)]

/-- The mute of one entry of the audio map, as the change of mutes makes it. -/
def Die.auMute (x : Die) (e : Nat) : Die :=
  let v := mget (fun _ => ({} : AuMute)) x.au.mutes e
  let want := x.flag R.AU_MAP_CFG_MUTE e
  if v.on == want then x
  else
    let fs := ((auChannel x.auRefs (x.fld R.AU_MAP_CFG_SOURCE e)).map fun r => x.auFs r.1.g).getD 48000
    { x with au := { x.au with mutes := mput (fun _ => {}) x.au.mutes e ⟨want, some (auFrom fs x.clk.now)⟩ } }
theorem Die.auMutes_eq (x : Die) (c : Nat) : x.auMutes c =
    ((x.listed R.AU_MAP_CFG_USED 4096).filter fun e => x.flag R.AU_MAP_CFG_USED e &&
      x.auDestCad (x.fld R.AU_MAP_CFG_KIND e) (x.fld R.AU_MAP_DEST_INSTANCE e) == c).foldl Die.auMute x := rfl
/-- Whether an entry is muted. -/
def Die.mapMuted (x : Die) (n : Nat) : Bool := (mget (fun _ => ({} : AuMute)) x.au.mutes n).on
theorem Die.auMute_rest (x : Die) (e : Nat) : (x.auMute e).regs = x.regs ∧ (x.auMute e).clk = x.clk := by
  unfold Die.auMute; dsimp only; split <;> exact ⟨rfl, rfl⟩
theorem Die.auMute_mapMuted (x : Die) (e n : Nat) : (x.auMute e).mapMuted n = if n = e then x.flag R.AU_MAP_CFG_MUTE n else x.mapMuted n := by
  unfold Die.auMute
  dsimp only
  by_cases hn : n = e
  · subst hn
    rw [if_pos rfl]
    split
    next h => exact beq_iff_eq.mp h
    next h => unfold Die.mapMuted; dsimp only; rw [mget_mput_same]
  · rw [if_neg hn]
    split
    · rfl
    · unfold Die.mapMuted; dsimp only; rw [mget_mput_other _ _ _ hn]
theorem Die.auMutes_rest (x : Die) (c : Nat) : (x.auMutes c).regs = x.regs ∧ (x.auMutes c).clk = x.clk := by
  rw [Die.auMutes_eq]
  exact ⟨foldl_keeps Die.regs _ (fun x e => (x.auMute_rest e).1) _ x, foldl_keeps Die.clk _ (fun x e => (x.auMute_rest e).2) _ x⟩
/-- Each entry that is changed has its written mute, once the list is through. -/
theorem Die.auMute_foldl (l : List Nat) (x : Die) {n : Nat} (h : n ∈ l ∨ x.mapMuted n = x.flag R.AU_MAP_CFG_MUTE n) :
    (l.foldl Die.auMute x).mapMuted n = x.flag R.AU_MAP_CFG_MUTE n := by
  induction l generalizing x with
  | nil => exact h.resolve_left (by simp)
  | cons e l ih =>
    have hflag : (x.auMute e).flag R.AU_MAP_CFG_MUTE n = x.flag R.AU_MAP_CFG_MUTE n := by
      unfold Die.flag Die.fld Die.reg; rw [(x.auMute_rest e).1]
    refine (ih (x.auMute e) ?_).trans hflag
    by_cases hn : n = e
    · exact .inr (by rw [Die.auMute_mapMuted, if_pos hn, hflag])
    · rcases h with h | h
      · exact .inl ((List.mem_cons.mp h).resolve_left hn)
      · exact .inr (by rw [Die.auMute_mapMuted, if_neg hn, h, hflag])
/-- After the change every used entry on the cadence has its written mute. -/
theorem Die.auMutes_mapMuted {x : Die} {c n : Nat} (hn : n < 4096) (hu : x.flag R.AU_MAP_CFG_USED n = true)
    (hc : x.auDestCad (x.fld R.AU_MAP_CFG_KIND n) (x.fld R.AU_MAP_DEST_INSTANCE n) = c) :
    (x.auMutes c).mapMuted n = x.flag R.AU_MAP_CFG_MUTE n := by
  rw [Die.auMutes_eq]
  exact Die.auMute_foldl _ x (.inl (List.mem_filter.mpr ⟨Die.auMap_listed hn hu, by simp [hu, hc]⟩))

end Sys2Proof.Machine
end

section
/-! The frame boundary of a cadence: the switch, the brownout alternative, and the values that are written for it (R59, R97, R101, R104,
R110, R455). -/

namespace Sys2Proof.Machine

/-! ### The switch -/

/-- Die 0 sends sections through its own queue of traffic: the package and the other die are as before. -/
theorem State.sendSections_rest (s : State) {d : DieId} (h : d ≠ 0) (p : Plan) :
    (s.sendSections 0 p).pkg = s.pkg ∧ (s.sendSections 0 p).die d = s.die d := by
  unfold State.sendSections
  dsimp only
  split
  · exact ⟨rfl, rfl⟩
  · split
    · exact ⟨rfl, rfl⟩
    · exact ⟨s.upd_pkg 0 _, s.die_upd_other _ h⟩
/-- A die without its sections is not die 0 (R91). -/
theorem State.sectionsHere_other {s : State} {d : DieId} {p : Plan} (h : s.sectionsHere d p = false) : d ≠ 0 := by
  rintro rfl
  simp [State.sectionsHere] at h

/-- What a tie leaves of a request: it adds at most a frame. -/
theorem SwitchReq.tie_rest (r : SwitchReq) (tied : Bool) (c : Nat) (f : Int) : r.tie tied c f = { r with frames := (r.tie tied c f).frames } := by
  unfold SwitchReq.tie; split <;> rfl
/-- A tied cadence has a frame: the one at which the other die has switched, or its own. -/
theorem SwitchReq.tie_frame (r : SwitchReq) (c : Nat) (f : Int) : (r.tie true c f).frame c = some ((r.frame c).getD f) := by
  unfold SwitchReq.tie
  cases h : r.frame c with
  | none => simp [SwitchReq.frame]
  | some e => simp [h]
/-- The first cadence to switch finds the fragments that are alike; nothing else of the request changes. -/
theorem State.switchRequest_rest (s : State) (p : Plan) (r : SwitchReq) : s.switchRequest p r = { r with alike := (s.switchRequest p r).alike } := by
  unfold State.switchRequest; split <;> rfl
theorem State.switchRequest_alike (s : State) (p : Plan) {r : SwitchReq} (h : r.taken ≠ []) : (s.switchRequest p r).alike = r.alike := by
  unfold State.switchRequest
  rw [if_neg (by simpa using h)]

/-- A change of a cadence is one of the clocks. -/
theorem Die.modCad_clk (x : Die) (c : Nat) (f : Cad → Cad) : x.modCad c f = { x with clk := (x.modCad c f).clk } := rfl
/-- The package at a boundary, where the cadence switches: time has come, and the cadence has settled on its grid. -/
def State.atBoundary (s : State) (d : DieId) (c : Nat) (g : Grid) (b : Nat) : State :=
  (s.advanceStation d b).upd d fun x => x.modCad c fun k => k.settle g
theorem State.atBoundary_agenda (s : State) (d : DieId) (c : Nat) (g : Grid) (b : Nat) : (s.atBoundary d c g b).agenda = s.agenda := by
  unfold State.atBoundary; simp
theorem State.atBoundary_rest (s : State) (d e : DieId) (c : Nat) (g : Grid) (b : Nat) :
    (s.atBoundary d c g b).die e = { s.die e with clk := ((s.atBoundary d c g b).die e).clk } := by
  unfold State.atBoundary
  by_cases h : e = d
  · subst h
    rw [State.die_upd_same]
    exact (Die.modCad_clk _ _ _).trans (by rw [State.advanceStation_rest])
  · rw [State.die_upd_other _ _ h, ← State.advanceStation_rest]
theorem State.atBoundary_switchKeys (s : State) (d : DieId) (c : Nat) (g : Grid) (b : Nat) (p : Plan) :
    (s.atBoundary d c g b).switchKeys p = s.switchKeys p :=
  State.switchKeys_congr (fun e => by rw [State.atBoundary_rest]) (fun e a => by rw [State.atBoundary_rest]; rfl) p

/-- A cadence that is due at its boundary switches there, unless a step of station time comes first. -/
theorem State.switchCadence_boundary {s : State} {d : DieId} {c b : Nat} {p : Plan} {r : SwitchReq} {g : Grid} (hb : (s.die d).boundaryNow c = some b)
    (hg : (s.die d).grid c = some g) : s.switchCadence d c p r = s.switchBoundary d c p r g b := by
  unfold State.switchCadence
  rw [hg, hb]
/-- A cadence whose turn has not come stays, whether or not it takes part. -/
theorem State.planSwitch_early {s : State} {d : DieId} {c b : Nat} {p : Plan} {r : SwitchReq} {g : Grid} (hr : s.pkg.plans.request = some r)
    (hp : s.pkg.plans.pend = some p) (hs : s.sectionsHere d p = true) (hh : ¬(r.taken.isEmpty ∧ p.part ∧ !s.pkg.plans.brownOn.isEmpty))
    (hb : (s.die d).boundaryNow c = some b) (hg : (s.die d).grid c = some g)
    (he : s.switchEarly d c p r b (g.frame (((s.die d).cad c).settle g).next) = true) : s.planSwitch d c = s := by
  rw [State.planSwitch_requested hr hp, if_neg (by simp [hs]), if_neg hh]
  split
  · rfl
  · rw [State.switchCadence_boundary hb hg]
    exact if_pos he
/-- A cadence whose turn has come: it takes the switch, or a step that is due. -/
theorem State.planSwitch_due {s : State} {d : DieId} {c b : Nat} {p : Plan} {r : SwitchReq} {g : Grid} (hr : s.pkg.plans.request = some r)
    (hp : s.pkg.plans.pend = some p) (hs : s.sectionsHere d p = true) (hh : ¬(r.taken.isEmpty ∧ p.part ∧ !s.pkg.plans.brownOn.isEmpty))
    (hb : (s.die d).boundaryNow c = some b) (hg : (s.die d).grid c = some g) (hheld : r.held = false) (ht : planKey d c ∉ r.taken)
    (hk : planKey d c ∈ s.switchKeys p) (he : s.switchEarly d c p r b (g.frame (((s.die d).cad c).settle g).next) = false) :
    s.planSwitch d c = if s.stepBefore d b then s.stepApply (s.stepOwner d)
      else (s.atBoundary d c g b).switchAt d c p (r.tie (s.tied p c) c (g.frame (((s.die d).cad c).settle g).next)) 0 := by
  rw [State.planSwitch_requested hr hp, if_neg (by simp [hs]), if_neg hh, if_neg (by simp [hheld, ht, hk]), State.switchCadence_boundary hb hg]
  exact if_neg (by simp [he])
/-- Whether a cadence's turn has come, as the request has it. -/
theorem State.switchEarly_eq (s : State) (d : DieId) (c : Nat) (p : Plan) (r : SwitchReq) (b : Nat) (f : Int) : s.switchEarly d c p r b f =
    !(match r.frame c with
      | some e => decide (e ≤ f)
      | none => decide ((s.die d).switchTime r.t0 r.t1 ≤ b) && (!s.tied p c || (s.die (peer d)).canMeet c f)) := by
  unfold State.switchEarly
  cases r.frame c with
  | none => by_cases h : b < (s.die d).switchTime r.t0 r.t1 <;> simp [h, Nat.le_of_not_lt]
  | some e => by_cases h : f < e <;> simp [h, Int.not_le.mpr, Int.not_lt.mp]

/-- The plans after a cadence's switch at its boundary. -/
theorem State.atBoundary_switched (s : State) (d : DieId) (c b : Nat) (p : Plan) (r : SwitchReq) (g : Grid) (f : Int) :
    let t := (s.atBoundary d c g b).switchAt d c p (r.tie (s.tied p c) c f) 0
    if (s.switchKeys p).all fun j => (r.taken ++ [planKey d c]).contains j then
      t.pkg.plans.running = some p ∧ t.pkg.plans.pend = none ∧ t.pkg.plans.request = none
    else t.pkg.plans.running = s.pkg.plans.running ∧ ∃ w, t.pkg.plans.request = some w ∧ w.taken = r.taken ++ [planKey d c] ∧ w.t0 = r.t0 ∧
      w.t1 = r.t1 ∧ (r.taken ≠ [] → w.alike = r.alike) ∧ (s.tied p c = true → w.frame c = some ((r.frame c).getD f)) := by
  generalize hv : r.tie (s.tied p c) c f = v
  have hrest : v = { r with frames := v.frames } := by rw [← hv]; exact r.tie_rest _ _ _
  have htaken : v.taken = r.taken := by rw [hrest]
  have hplans : (s.atBoundary d c g b).pkg.plans = s.pkg.plans := State.plans_of_agenda (s.atBoundary_agenda d c g b)
  obtain ⟨on, hon⟩ := (s.atBoundary d c g b).switchAt_agenda d c p v 0
  have ht := congrArg Prod.fst hon
  rw [State.atBoundary_switchKeys, htaken, hplans] at ht
  change ((s.atBoundary d c g b).switchAt d c p v 0).pkg.plans = _ at ht
  dsimp only
  rw [ht]
  split
  · exact ⟨rfl, rfl, rfl⟩
  · refine ⟨rfl, _, rfl, rfl, ?_, ?_, fun h => ?_, fun h => ?_⟩
    · rw [State.switchRequest_rest, hrest]
    · rw [State.switchRequest_rest, hrest]
    · exact (State.switchRequest_alike _ _ (htaken ▸ h)).trans (by rw [hrest])
    · rw [State.switchRequest_rest, ← SwitchReq.tie_frame, ← h, hv]
      rfl

/-! ### The brownout alternative -/

/-- BROWNOUT_ON and BROWNOUT_OFF are set on die 0 as the alternative comes and goes. -/
theorem State.plEvent_set (s : State) (f : Fld) (n : Nat) (hq : Quiet (fldAddr f 0 0)) (hf : f.lo ≤ f.hi ∧ f.hi < 32) :
    (s.plEvent f n).fld 0 f = 1 % 2 ^ (f.hi - f.lo + 1) := by
  have set : (s.event 0 f 0 n).fld 0 f = 1 % 2 ^ (f.hi - f.lo + 1) :=
    ((s.event_posted 0 f 0 n).fld _ _ _ hq).trans (Die.fld_setFld_same _ _ _ _ _ hf)
  unfold State.plEvent
  dsimp only
  split
  · unfold State.fld
    rw [State.event_die_other _ f 0 n (by decide)]
    exact set
  · exact set
theorem State.brownEvent_on {s : State} (h : s.pkg.plans.brownOn ≠ []) : (s.brownEvent []).fld 0 R.PL_EVENTS_BROWNOUT_ON = 1 := by
  unfold State.brownEvent
  rw [if_neg (by simpa using h)]
  exact s.plEvent_set _ _ (by decide) (by decide)
theorem State.brownEvent_off {s : State} {on : List Nat} (hon : on ≠ []) (h : s.pkg.plans.brownOn = []) :
    (s.brownEvent on).fld 0 R.PL_EVENTS_BROWNOUT_OFF = 1 := by
  have he : on.isEmpty = false := by simpa using hon
  unfold State.brownEvent
  rw [if_neg (by simp [he, h]), he]
  exact s.plEvent_set _ _ (by decide) (by decide)

/-- A running plan without an alternative: its brownout commands do nothing. -/
theorem State.brownMove_none {s : State} {p : Plan} (hp : s.pkg.plans.running = some p) (h : p.brownout = none) (d : DieId) (c : Nat) (on : Bool) :
    s.brownMove d c on = s := by
  unfold State.brownMove
  rw [hp]
  split
  next q _ _ hq _ _ =>
    obtain rfl : p = q := Option.some.inj hq
    exact if_pos (.inl (by simp [h]))
  · rfl
/-- A cadence that has gone onto the alternative of a running plan or off it. -/
def State.brownMoved (s : State) (d : DieId) (c : Nat) (on : Bool) (p : Plan) (g : Grid) (b : Nat) : State :=
  let before := s.pkg.plans.brownOn
  let k := planKey d c
  let s := s.atBoundary d c g b
  let x := s.die d
  let keys := s.dieKeys p d
  let mine := before.filter fun j => j / 8 == d.val
  let first := if on then mine.isEmpty else keys.all fun j => mine.contains j
  let last := if on then keys.all (fun j => j == k || mine.contains j) else mine == [k]
  let ch := (p.brownout.map fun b => bodySects b.body).getD []
  let target := if on then p.browned else p
  let s := Move.run { d := d, target := target, cross := crossNamed ch (fragsOf ch), moves := movesAt (x.live ++ p.allOn d) keys d c first
                      full := false, last := last, endAt := x.threadEnd s.now (last || c == x.masterCad) } s
  let s := s.upd d fun x => x.movePail d target c
  s.hbCad d (codeOf (if on then R.PL_EVENTS_BROWNOUT_ON else R.PL_EVENTS_BROWNOUT_OFF)) c c (p.id % 65536)
theorem State.brownMoved_agenda (s : State) (d : DieId) (c : Nat) (on : Bool) (p : Plan) (g : Grid) (b : Nat) :
    (s.brownMoved d c on p g b).agenda = s.agenda := by
  unfold State.brownMoved
  dsimp only
  rw [State.hbCad_agenda, State.agenda_upd, Move.run_agenda, State.atBoundary_agenda]
/-- The cadences on the alternative, once a cadence has gone onto it or off it. -/
def Plans.browned (q : Plans) (k : Nat) (on : Bool) : Plans := { q with brownOn := (q.brownOn.filter fun j => j != k) ++ (if on then [k] else []) }
/-- What the end of the alternative makes of a switch that it has held (R110). -/
def State.unheld (s : State) (d : DieId) : State :=
  s.modPlans fun q => { q with request := q.request.map fun r =>
    if r.held then
      let w := wrapOf (max ((s.die d).switchTime r.t0 r.t1) ((s.die d).clk.now + nsec))
      { r with held := false, t0 := w % 2 ^ 30, t1 := w / 2 ^ 32 }
    else r }
theorem State.unheld_plans {s : State} (h : s.pkg.plans.request = none) (d : DieId) : (s.unheld d).pkg.plans = s.pkg.plans := by
  unfold State.unheld State.modPlans State.updPkg
  dsimp only
  rw [h]
  exact congrArg (fun r => { s.pkg.plans with request := r }) h.symm

/-- A cadence that goes onto the alternative or off it at its boundary, where no switch is requested. -/
theorem State.brownMove_due {s : State} {d : DieId} {c b : Nat} {on : Bool} {p : Plan} {g : Grid} (hp : s.pkg.plans.running = some p)
    (hbo : p.brownout ≠ none) (hb : (s.die d).boundaryNow c = some b) (hg : (s.die d).grid c = some g) (hr : s.pkg.plans.request = none)
    (hdue : s.pkg.plans.brownDue = on) (hk : s.pkg.plans.brownOn.contains (planKey d c) ≠ on) : s.brownMove d c on =
      let u := ((s.brownMoved d c on p g b).modPlans fun q => q.browned (planKey d c) on).brownEvent s.pkg.plans.brownOn
      if on ∨ !u.pkg.plans.brownOn.isEmpty then u else u.unheld d := by
  have idle : ¬(p.brownout.isNone ∨ s.pkg.plans.brownOn.contains (planKey d c) = on ∨ s.pkg.plans.brownDue ≠ on ∨ false = true) := by
    simp only [not_or]
    exact ⟨by simpa using hbo, hk, by simp [hdue], by simp⟩
  unfold State.brownMove
  rw [hp, hb, hg]
  dsimp only
  rw [hr]
  exact if_neg idle
/-- So its mark comes or goes, and the event tells of the first to come and of the last to go. -/
theorem State.brownMove_marked {s : State} {d : DieId} {c b : Nat} {on : Bool} {p : Plan} {g : Grid} (hp : s.pkg.plans.running = some p)
    (hbo : p.brownout ≠ none) (hb : (s.die d).boundaryNow c = some b) (hg : (s.die d).grid c = some g) (hr : s.pkg.plans.request = none)
    (hdue : s.pkg.plans.brownDue = on) (hk : s.pkg.plans.brownOn.contains (planKey d c) ≠ on) :
    (s.brownMove d c on).pkg.plans = s.pkg.plans.browned (planKey d c) on ∧ ∃ u : State,
      u.pkg.plans = s.pkg.plans.browned (planKey d c) on ∧ (s.brownMove d c on).die 0 = (u.brownEvent s.pkg.plans.brownOn).die 0 := by
  generalize hu : (s.brownMoved d c on p g b).modPlans (fun q => q.browned (planKey d c) on) = u
  have marked : u.pkg.plans = s.pkg.plans.browned (planKey d c) on := by
    rw [← hu]
    exact congrArg (fun q => q.browned (planKey d c) on) (State.plans_of_agenda (s.brownMoved_agenda d c on p g b))
  have told : (u.brownEvent s.pkg.plans.brownOn).pkg.plans = s.pkg.plans.browned (planKey d c) on :=
    (State.plans_of_agenda (State.brownEvent_agenda _ _)).trans marked
  rw [State.brownMove_due hp hbo hb hg hr hdue hk, hu]
  dsimp only
  refine ⟨?_, u, marked, ?_⟩
  · split
    · exact told
    · exact (State.unheld_plans (by rw [told]; exact hr) d).trans told
  · split <;> rfl

/-! ### Written values (R455) -/

theorem State.rwlApply_boundary {s : State} {d : DieId} {c b : Nat} (h : (s.die d).boundaryNow c = some b) :
    s.rwlApply d c = (s.advanceStation d b).upd d fun x => x.auMutes c := by
  unfold State.rwlApply; rw [h]
theorem Die.boundaryNow_grid {x : Die} {c b : Nat} (h : x.boundaryNow c = some b) : ∃ g, x.grid c = some g := by
  unfold Die.boundaryNow at h
  split at h
  next g hg => exact ⟨g, hg⟩
  · cases h

end Sys2Proof.Machine

namespace Sys2Proof
open Sys2Proof.Machine

/-- Settles O34: a requested switch at a cadence's boundary is one chain of cases, the moves at the boundary leave the plans alone but for
the marks of the switch, and the other two commands write their own marks. -/
theorem planBoundaries : Obligations.PlanBoundaries := by
  unfold Obligations.PlanBoundaries
  intro s d c hd x q k
  have done {f : State} (h : f = s) : onDie s d true f = .next s := (onDie_next f hd).trans (h ▸ rfl)
  refine ⟨fun h => done (State.planSwitch_idle h d c), ?_, ?_, ?_⟩
  · intro r hr p hp go
    refine ⟨fun hs => ?_, fun hs => ⟨fun ht hpart hon => ?_, fun hh b g hb hg => ?_⟩⟩
    · refine completes_onDie hd ?_
      rw [State.planSwitch_requested hr hp, if_pos ⟨State.sectionsHere_other hs, by simp [hs]⟩]
      obtain ⟨hpkg, hdie⟩ := s.sendSections_rest (State.sectionsHere_other hs) p
      exact ⟨hpkg, congrArg Die.live hdie, congrArg Die.clk hdie⟩
    · refine completes_onDie hd ?_
      rw [State.planSwitch_requested hr hp, if_neg (by simp [hs]), if_pos (by simpa [ht, hpart] using hon)]
      exact ⟨rfl, rfl, rfl⟩
    · intro f
      have free : ¬(r.taken.isEmpty ∧ p.part ∧ !s.pkg.plans.brownOn.isEmpty) := by
        rintro ⟨h1, h2, h3⟩
        rcases hh with h | h | h
        · simp [h] at h2
        · exact h (by simpa using h1)
        · exact absurd h (by simpa using h3)
      have early (h : s.switchEarly d c p r b f = true) : exec (.planSwitch d c) s = .next s := done (State.planSwitch_early hr hp hs free hb hg h)
      refine ⟨fun hf hb' => early ?_, fun hf htie hm => early ?_, fun e hf he => early ?_, fun hdue hheld ht hk => ?_⟩
      · simp [State.switchEarly, hf, hb', x]
      · simp [State.switchEarly, hf, htie, hm]
      · simp [State.switchEarly, hf, he]
      · have due := State.planSwitch_due hr hp hs free hb hg hheld ht hk ((s.switchEarly_eq d c p r b f).trans (congrArg (!·) hdue))
        refine ⟨fun hstep => completes_onDie hd ?_, fun hstep _ => completes_onDie hd ?_⟩
        · rw [due.trans (if_pos hstep)]
          exact ⟨congrArg Prod.fst (s.stepApply_agenda (s.stepOwner d)), State.stepApply_before hstep⟩
        · rw [due.trans (if_neg (ne_true_of_eq_false hstep))]
          exact s.atBoundary_switched d c b p r g f
  · intro p hp
    refine ⟨fun hbo => ⟨done (State.brownMove_none hp hbo d c true), done (State.brownMove_none hp hbo d c false)⟩, fun hbo hb hr => ?_⟩
    obtain ⟨b, hb⟩ := Option.isSome_iff_exists.mp hb
    obtain ⟨g, hg⟩ := Die.boundaryNow_grid hb
    refine ⟨fun hdue hk => completes_onDie hd ?_, fun hdue hk => completes_onDie hd ?_⟩
    · obtain ⟨hplans, u, hu, htold⟩ := State.brownMove_marked hp hbo hb hg hr hdue (by simpa using hk)
      refine ⟨hplans.trans ?_, fun hon => ?_⟩
      · unfold Plans.browned
        rw [List.filter_eq_self.mpr fun j hj => by simpa using ne_of_mem_of_not_mem hj hk]
        rfl
      · refine (congrArg (fun y : Die => y.fld R.PL_EVENTS_BROWNOUT_ON) htold).trans ?_
        rw [show s.pkg.plans.brownOn = [] from hon]
        exact State.brownEvent_on (by rw [hu]; simp [Plans.browned])
    · obtain ⟨hplans, u, hu, htold⟩ := State.brownMove_marked hp hbo hb hg hr hdue (by simpa using hk)
      refine ⟨hplans.trans ?_, fun hon => ?_⟩
      · unfold Plans.browned
        rw [if_neg (by decide), List.append_nil]
      · refine (congrArg (fun y : Die => y.fld R.PL_EVENTS_BROWNOUT_OFF) htold).trans ?_
        have hon : s.pkg.plans.brownOn = [planKey d c] := hon
        exact State.brownEvent_off (by simp [hon]) (by rw [hu]; simp [Plans.browned, hon])
  · intro b hb
    refine completes_onDie hd ?_
    rw [State.rwlApply_boundary hb]
    have hdie : ({ (s.advanceStation d b).upd d (fun x => x.auMutes c) with pending := s.pending } : State).die d =
        ((s.advanceStation d b).die d).auMutes c := State.die_upd_same _ d _
    have hrest := s.advanceStation_rest d d b
    rw [hdie]
    obtain ⟨hregs, hclk⟩ := ((s.advanceStation d b).die d).auMutes_rest c
    refine ⟨?_, ?_, fun n hn hu hc => ?_⟩
    · rw [hclk, State.advanceStation_now]
    · rw [hregs, hrest]
    · rw [hrest]
      exact Die.auMutes_mapMuted (x := { s.die d with clk := ((s.advanceStation d b).die d).clk }) hn hu hc
end Sys2Proof
end

section
/-! Line pulses and the registers that a write of TB_CTRL latches (R43, R46, R58, R68). -/

namespace Sys2Proof.Machine

/-! ### A line pulse -/

theorem State.switchFirst_of_not_owed {s : State} {d : DieId} {c : Nat} (h : s.switchOwed d c = false) : s.switchFirst d c = s :=
  if_neg (by simp [h])
theorem State.switchFirst_of_owed {s : State} {d : DieId} {c : Nat} (h : s.switchOwed d c = true) : s.switchFirst d c = s.planSwitch d c := if_pos h
/-- A cadence that is not active owes no switch. -/
theorem State.switchOwed_of_no_grid {s : State} {d : DieId} {c : Nat} (h : (s.die d).grid c = none) : s.switchOwed d c = false := by
  unfold State.switchOwed
  rw [h]
  split
  next hg => cases hg
  · rfl
theorem State.linePulse_inactive {s : State} {d : DieId} {c : Nat} (h : (s.die d).grid c = none) : s.linePulse d c = s := by
  have first := State.switchFirst_of_not_owed (State.switchOwed_of_no_grid h)
  exact (State.linePulse_idle (by rw [first]; exact h)).trans first
/-- A switch that is owed comes first, and the pulse follows, unless another switch is owed then. -/
theorem State.linePulse_owed {s : State} {d : DieId} {c : Nat} (h : s.switchOwed d c = true) (ht : (s.planSwitch d c).switchOwed d c = false) :
    s.linePulse d c = (s.planSwitch d c).linePulse d c := by
  have first : (s.planSwitch d c).switchFirst d c = s.switchFirst d c :=
    (State.switchFirst_of_not_owed ht).trans (State.switchFirst_of_owed h).symm
  cases hg : ((s.switchFirst d c).die d).grid c with
  | none => rw [State.linePulse_idle hg, State.linePulse_idle (by rw [first]; exact hg), first]
  | some g => rw [State.linePulse_running hg, State.linePulse_running (by rw [first]; exact hg), first]

theorem Cad.settle_settled (g : Grid) {c : Cad} (h : c.regrid = none) : c.settle g = c := by unfold Cad.settle; rw [h]
theorem Die.pulseDue_settled {x : Die} {c : Nat} {g : Grid} (hg : x.grid c = some g) (h : (x.cad c).regrid = none) :
    x.pulseDue c = some (g.instant (x.cad c).next) := by
  unfold Die.pulseDue
  rw [hg, Option.map_some]
  dsimp only
  rw [h]
/-- The line of a cadence that a pulse comes to, and the instant of the pulse. -/
theorem State.linePulsed_cad {s : State} {d : DieId} {c : Nat} {g : Grid} (hg : (s.die d).grid c = some g) (h : ((s.die d).cad c).regrid = none) :
    (((s.linePulsed d c g).die d).cad c).next = ((s.die d).cad c).next + 1 ∧
      (((s.linePulsed d c g).die d).cad c).lastPulse = g.instant ((s.die d).cad c).next := by
  generalize hu : s.upd d (fun x => x.modCad c (Cad.settle g)) = u
  have hdie : u.die d = (s.die d).modCad c (Cad.settle g) := by rw [← hu, State.die_upd_same]
  have hcad : (u.die d).cad c = (s.die d).cad c := by rw [hdie, Die.cad_modCad_same, Cad.settle_settled g h]
  have hdue : (u.die d).pulseDue c = some (g.instant ((s.die d).cad c).next) := by
    rw [← hcad]
    exact Die.pulseDue_settled (by rw [hdie]; exact hg) (by rw [hcad]; exact h)
  have hpast (t : Nat) : (((u.advanceStation d t).count d R.TB_CAD_PULSES c).die d).cad c = (s.die d).cad c := by
    unfold Die.cad
    rw [State.count_clk, State.advanceStation_cads]
    exact hcad
  unfold State.linePulsed
  dsimp only
  rw [hu, hdue, State.die_upd_same, Die.cad_modCad_same]
  exact ⟨congrArg (fun k : Cad => k.next + 1) (hpast _), rfl⟩

/-! ### A write of TB_CTRL -/

theorem findReg_tbCtrl : findReg 0x2000C = some (⟨0x2000C, 0, 1, 0, 1, .free, [⟨0, 0, .wo, .val 0⟩, ⟨1, 1, .wo, .val 0⟩]⟩, 0, 0) := by decide +kernel
theorem State.hook_tbCtrl (s : State) (d : DieId) {r : RegDesc} (h : r.base = 0x2000C) (i : Nat) (v old : W32) :
    s.hook d r i v old = s.tbCtrl d v.toNat := by
  unfold State.hook
  simp [h]
theorem State.hostServe_free (s : State) (d : DieId) (wr : Writer) {r : RegDesc} (h : r.claim = .free) (i : Nat) : s.hostServe d wr r i = s := by
  unfold State.hostServe
  rw [h]
  exact ite_self s
theorem cmpUnits_tbCtrl (v : W32) : cmpUnits [(0x2000C, v)] = [] := by
  unfold cmpUnits
  rw [List.filter_cons_of_neg (by simp)]
  rfl
/-- A write of TB_CTRL does what its bits ask for, once the register has taken the word. -/
theorem State.writeWords_tbCtrl (s : State) (d : DieId) (wr : Writer) (v : W32) :
    ∃ w, s.writeWords d wr [(0x2000C, v)] = (s.upd d fun x => x.setReg 0x2000C w).tbCtrl d v.toNat := by
  have aside : keptAside 0x2000C = false := by decide +kernel
  unfold State.writeWords
  rw [cmpUnits_tbCtrl, List.foldl_cons, List.foldl_nil, List.foldl_nil]
  unfold State.writeWord
  rw [findReg_tbCtrl]
  dsimp only
  rw [State.hostServe_free _ _ _ rfl, State.hook_tbCtrl _ _ rfl, if_neg (by decide), aside]
  exact ⟨_, rfl⟩

/-! ### TB_SNAP -/

theorem nsOf_eq (t : Nat) : nsOf t = t / 65536 % 1000000000 := (Nat.mod_mul_right_div_self t 65536 1000000000)
theorem nsOf_lt (t : Nat) : nsOf t < 1000000000 := by rw [nsOf_eq]; exact Nat.mod_lt _ (by decide)

/-- The latch of one cadence's position. -/
def Die.snapCad (x : Die) (c : Nat) : Die :=
  match x.grid c with
  | none => ((x.setFld R.TB_CAD_FRAME_HI 0 c).setFld R.TB_CAD_FRAME_LO 0 c).setFld R.TB_CAD_LINEPOS 0 c
  | some g =>
    let p := g.pos (x.gridTime c)
    let f := g.frame (p / 65536)
    ((x.setFld R.TB_CAD_FRAME_HI (unsgn 32 (f / 2 ^ 32)) c).setFld R.TB_CAD_FRAME_LO (unsgn 32 f) c).setFld R.TB_CAD_LINEPOS (g.linePos p) c
/-- The latch of station time. -/
def Die.snapNow (x : Die) : Die :=
  let w := x.clk.now
  (((x.setFld R.TB_NOW_W (w % 65536) 0).setFld R.TB_NOW_W (nsOf w) 1).setFld R.TB_NOW_W (secOf w % 2 ^ 32) 2).setFld R.TB_NOW_W (secOf w / 2 ^ 32) 3
theorem Die.tbSnap_parts (x : Die) : x.tbSnap = (List.range 8).foldl Die.snapCad x.snapNow := rfl

/-- A register that the latch of cadence `c` does not write. -/
def OffSnap (c : Nat) (a : Nat) : Prop := a ≠ 0x20108 + c * 0x20 ∧ a ≠ 0x2010C + c * 0x20 ∧ a ≠ 0x20110 + c * 0x20
theorem Die.snapCad_writes (x : Die) (c : Nat) : ∃ hi lo pos, x.snapCad c =
    ((x.setFld R.TB_CAD_FRAME_HI hi c).setFld R.TB_CAD_FRAME_LO lo c).setFld R.TB_CAD_LINEPOS pos c := by
  unfold Die.snapCad
  split
  · exact ⟨_, _, _, rfl⟩
  · exact ⟨_, _, _, rfl⟩
@[simp] theorem Die.snapCad_clk (x : Die) (c : Nat) : (x.snapCad c).clk = x.clk := by
  obtain ⟨hi, lo, pos, h⟩ := x.snapCad_writes c
  rw [h]; rfl
theorem Die.snapCad_fld (x : Die) (c : Nat) (f : Fld) (i : Nat) (h : OffSnap c (fldAddr f i 0)) : (x.snapCad c).fld f i = x.fld f i := by
  obtain ⟨hi, lo, pos, e⟩ := x.snapCad_writes c
  obtain ⟨h1, h2, h3⟩ := h
  rw [e, Die.fld_setFld_addr _ _ _ _ _ _ _ _ h3, Die.fld_setFld_addr _ _ _ _ _ _ _ _ h2, Die.fld_setFld_addr _ _ _ _ _ _ _ _ h1]
theorem Die.snapCad_grid (x : Die) (c e : Nat) : (x.snapCad c).grid e = x.grid e := by
  unfold Die.grid
  rw [Die.snapCad_fld _ _ _ _ ?_, Die.snapCad_fld _ _ _ _ ?_, Die.snapCad_fld _ _ _ _ ?_]
  all_goals simp only [OffSnap, fldAddr, R.TB_CAD_CFG_RATE, R.TB_CAD_CFG_LINES, R.TB_CAD_OFFSET]; omega

@[simp] theorem Die.tbSnap_clk (x : Die) : x.tbSnap.clk = x.clk := by
  rw [Die.tbSnap_parts]
  exact foldl_keeps Die.clk _ (fun x c => x.snapCad_clk c) _ _
theorem Die.tbSnap_now (x : Die) {i : Nat} (h : i < 4) : x.tbSnap.fld R.TB_NOW_W i = x.snapNow.fld R.TB_NOW_W i := by
  rw [Die.tbSnap_parts]
  refine foldl_keeps (fun y : Die => y.fld R.TB_NOW_W i) _ (fun y c => y.snapCad_fld c _ i ?_) _ _
  simp only [OffSnap, fldAddr, R.TB_NOW_W]
  omega
/-- The four words of station time: a fraction of a nanosecond, nanoseconds, and seconds (R39). -/
theorem Die.snapNow_words (x : Die) : x.snapNow.fld R.TB_NOW_W 0 = x.clk.now % 65536 ∧ x.snapNow.fld R.TB_NOW_W 1 = nsOf x.clk.now ∧
    x.snapNow.fld R.TB_NOW_W 2 = secOf x.clk.now % 2 ^ 32 := by
  have apart {i j : Nat} (h : i ≠ j) : fldAddr R.TB_NOW_W i 0 ≠ fldAddr R.TB_NOW_W j 0 := by
    simp only [fldAddr, R.TB_NOW_W]; omega
  have word (y : Die) (i v : Nat) (h : v < 2 ^ 32) : (y.setFld R.TB_NOW_W v i).fld R.TB_NOW_W i = v :=
    (Die.fld_setFld_same y _ v i 0 (by decide)).trans (Nat.mod_eq_of_lt h)
  have keep (y : Die) {i j : Nat} (v : Nat) (h : i ≠ j) : (y.setFld R.TB_NOW_W v j).fld R.TB_NOW_W i = y.fld R.TB_NOW_W i :=
    Die.fld_setFld_addr _ _ _ _ _ _ _ _ (apart h)
  unfold Die.snapNow
  refine ⟨?_, ?_, ?_⟩
  · rw [keep _ _ (by decide), keep _ _ (by decide), keep _ _ (by decide)]
    exact word _ _ _ ((Nat.mod_lt _ (by decide)).trans (by decide))
  · rw [keep _ _ (by decide), keep _ _ (by decide)]
    exact word _ _ _ (Nat.lt_of_lt_of_le (nsOf_lt _) (by decide))
  · rw [keep _ _ (by decide)]
    exact word _ _ _ (Nat.mod_lt _ (by decide))

/-- The latched line position of a cadence. -/
theorem Die.snapCad_linePos {x : Die} {c : Nat} {g : Grid} (hg : x.grid c = some g) :
    (x.snapCad c).fld R.TB_CAD_LINEPOS c = g.linePos (g.pos (x.gridTime c)) % 2 ^ 29 := by
  unfold Die.snapCad
  rw [hg]
  exact Die.fld_setFld_same _ _ _ _ _ (by decide)
theorem Die.snapCads_linePos {c : Nat} {g : Grid} (l : List Nat) {x : Die} (hg : x.grid c = some g)
    (h : c ∈ l ∨ x.fld R.TB_CAD_LINEPOS c = g.linePos (g.pos (x.gridTime c)) % 2 ^ 29) :
    (l.foldl Die.snapCad x).fld R.TB_CAD_LINEPOS c = g.linePos (g.pos (x.gridTime c)) % 2 ^ 29 := by
  induction l generalizing x with
  | nil => exact h.resolve_left (by simp)
  | cons e l ih =>
    have hclk : (x.snapCad e).clk = x.clk := x.snapCad_clk e
    have htime : (x.snapCad e).gridTime c = x.gridTime c := by
      unfold Die.gridTime Die.cad; rw [hclk]
    rw [← htime]
    refine ih ((x.snapCad_grid e c).trans hg) ?_
    by_cases he : c = e
    · subst he
      exact .inr (by rw [htime]; exact Die.snapCad_linePos hg)
    · refine h.imp (fun hm => (List.mem_cons.mp hm).resolve_left he) fun hv => ?_
      rw [htime, ← hv]
      refine x.snapCad_fld e _ c ?_
      simp only [OffSnap, fldAddr, R.TB_CAD_LINEPOS]
      omega
theorem Die.snapNow_fld (x : Die) (f : Fld) (i : Nat) (h : 0x20030 ≤ fldAddr f i 0) : x.snapNow.fld f i = x.fld f i := by
  have off (j : Nat) (hj : j < 4) : fldAddr f i 0 ≠ fldAddr R.TB_NOW_W j 0 := by
    simp only [fldAddr, R.TB_NOW_W] at h ⊢; omega
  unfold Die.snapNow
  dsimp only
  rw [Die.fld_setFld_addr _ _ _ _ _ _ _ _ (off 3 (by decide)), Die.fld_setFld_addr _ _ _ _ _ _ _ _ (off 2 (by decide)),
    Die.fld_setFld_addr _ _ _ _ _ _ _ _ (off 1 (by decide)), Die.fld_setFld_addr _ _ _ _ _ _ _ _ (off 0 (by decide))]
theorem Die.snapNow_grid (x : Die) (c : Nat) : x.snapNow.grid c = x.grid c := by
  unfold Die.grid
  rw [Die.snapNow_fld _ _ _ ?_, Die.snapNow_fld _ _ _ ?_, Die.snapNow_fld _ _ _ ?_]
  all_goals simp only [fldAddr, R.TB_CAD_CFG_RATE, R.TB_CAD_CFG_LINES, R.TB_CAD_OFFSET]; omega
theorem Die.tbSnap_linePos {x : Die} {c : Nat} {g : Grid} (hc : c < 8) (hg : x.grid c = some g) :
    x.tbSnap.fld R.TB_CAD_LINEPOS c = g.linePos (g.pos (x.gridTime c)) % 2 ^ 29 := by
  rw [Die.tbSnap_parts]
  exact Die.snapCads_linePos _ (x := x.snapNow) ((x.snapNow_grid c).trans hg) (.inl (List.mem_range.mpr hc))

end Sys2Proof.Machine
end

section
/-! A compare unit whose time has come: what it shows, what it sets off, and where its target moves to (R40, R41, R64, R74). -/

namespace Sys2Proof.Machine

/-! ### Wrap time -/

theorem wrapOf_div (t : Nat) : wrapOf t / 2 ^ 32 = secOf t % 2 ^ 32 := by
  have := nsOf_lt t
  unfold wrapOf
  omega
theorem wrapOf_mod (t : Nat) : wrapOf t % 2 ^ 30 = nsOf t := by
  have := nsOf_lt t
  unfold wrapOf
  omega
theorem nanos_eq (t : Nat) : t / nsec = secOf t * 1000000000 + nsOf t := by
  rw [nsOf_eq]
  unfold secOf second msec usec nsec
  omega
/-- The instant of a Wrap time `T1`, `n` as it is read at station time `now` (R41): of the seconds that read so, the nearest. -/
def wrapRead (now T1 n : Nat) : Int := ((now / nsec : Nat) + wrapDiff (T1 * 2 ^ 32 + n) (wrapOf now)) * nsec
theorem wrapRead_eq (now : Nat) (T1 : Nat) {n : Nat} (hn : n < 2 ^ 30) :
    wrapRead now T1 n = ((secOf now + sgn 32 (T1 + 2 ^ 32 - secOf now % 2 ^ 32)) * 1000000000 + n) * nsec := by
  have hdiv : (T1 * 2 ^ 32 + n) / 2 ^ 32 = T1 := by omega
  have hmod : (T1 * 2 ^ 32 + n) % 2 ^ 30 = n := by omega
  unfold wrapRead wrapDiff
  rw [hdiv, hmod, wrapOf_mod, wrapOf_div, nanos_eq, Nat.mod_mod]
  push_cast
  ring

/-- The signed reading of 32 bits is congruent to them, and the only one in its range that is. -/
theorem sgn_emod (v : Nat) : sgn 32 v % 4294967296 = (v : Int) % 4294967296 := by
  unfold sgn
  norm_num only
  split <;> omega
theorem sgn_eq {v : Nat} {e : Int} (h : (v : Int) % 4294967296 = e % 4294967296) (lo : -2147483648 ≤ e) (hi : e < 2147483648) : sgn 32 v = e := by
  unfold sgn
  norm_num only
  split <;> omega
theorem secOf_mul (k : Nat) : secOf (k * nsec) = k / 1000000000 := by
  unfold secOf second msec usec nsec; omega
/-- At the instant that a Wrap time names it still names that instant. -/
theorem wrapRead_arrived {now T1 n : Nat} {t : Int} (hT : T1 < 2 ^ 32) (hn : n < 2 ^ 30) (h : wrapRead now T1 n = t) (ht : 0 ≤ t) :
    wrapRead t.toNat T1 n = t ∧ ∃ k : Nat, t = (k * nsec : Nat) := by
  rw [wrapRead_eq _ _ hn] at h
  have hsgn := sgn_emod (T1 + 2 ^ 32 - secOf now % 2 ^ 32)
  generalize sgn 32 (T1 + 2 ^ 32 - secOf now % 2 ^ 32) = e at h hsgn
  obtain ⟨k, hk⟩ : ∃ k : Nat, (secOf now + e) * 1000000000 + n = (k : Int) :=
    Int.eq_ofNat_of_zero_le (by unfold nsec at h; omega)
  have hkt : t = (k * nsec : Nat) := by rw [← h, hk]; push_cast; rfl
  refine ⟨?_, k, hkt⟩
  have hread : sgn 32 (T1 + 2 ^ 32 - secOf t.toNat % 2 ^ 32) = secOf now + e - (k / 1000000000 : Nat) := by
    rw [hkt, Int.toNat_natCast, secOf_mul]
    refine sgn_eq ?_ ?_ ?_ <;> omega
  rw [wrapRead_eq _ _ hn, hread, hkt, Int.toNat_natCast, secOf_mul]
  push_cast
  rw [← hk]
  ring
/-- A Wrap time that lies up to 4 s ahead is read as it was meant. -/
theorem wrapRead_ahead {k p : Nat} (hp : p < 2 ^ 32) :
    wrapRead (k * nsec) (wrapOf ((k + p) * nsec) / 2 ^ 32) (wrapOf ((k + p) * nsec) % 2 ^ 30) = ((k + p) * nsec : Nat) := by
  have hread : sgn 32 (secOf ((k + p) * nsec) % 2 ^ 32 + 2 ^ 32 - secOf (k * nsec) % 2 ^ 32) =
      (((k + p) / 1000000000 : Nat) : Int) - (k / 1000000000 : Nat) := by
    rw [secOf_mul, secOf_mul]
    refine sgn_eq ?_ ?_ ?_ <;> omega
  have hall : (k + p) * nsec / nsec = k + p := Nat.mul_div_cancel _ (by decide)
  rw [nanos_eq, secOf_mul] at hall
  rw [wrapRead_eq _ _ (Nat.mod_lt _ (by decide)), wrapOf_div, wrapOf_mod, hread, secOf_mul, add_sub_cancel]
  generalize nsOf ((k + p) * nsec) = n at hall ⊢
  have hall : (((k + p) / 1000000000 : Nat) : Int) * 1000000000 + n = ((k + p : Nat) : Int) := by exact_mod_cast hall
  rw [hall]
  push_cast
  rfl

/-! ### What a unit shows -/

theorem Die.fld_lt (x : Die) (f : Fld) (i j : Nat) : x.fld f i j < 2 ^ (f.hi - f.lo + 1) := Nat.mod_lt _ (Nat.two_pow_pos _)
/-- The target of a unit that compares times. -/
theorem Die.cmpDue_time {x : Die} {u : Nat} (h : x.fld R.TB_CMP_CTRL_MODE u = 0) :
    x.cmpDue u = some (wrapRead x.clk.now (x.fld R.TB_CMP_T1 u) (x.fld R.TB_CMP_T0 u % 2 ^ 30)) := by
  have hline : x.cmpLine u = false := by
    unfold Die.cmpLine Die.flag; rw [h]; rfl
  unfold Die.cmpDue
  rw [hline]
  rfl
/-- The words of a compare unit are registers of their own. -/
theorem fldAddr_cmp_ne {f g : Fld} {u : Nat} (hf : f.stride = 16 ∧ f.stride2 = 0) (hg : g.stride = 16 ∧ g.stride2 = 0) (h : f.base ≠ g.base) :
    fldAddr f u 0 ≠ fldAddr g u 0 := by
  unfold fldAddr
  rw [hf.1, hg.1]
  omega
/-- A periodic unit that compares times and has just come to its target moves it by its period. -/
theorem Die.cmpAdvance_arrived {x : Die} {u k : Nat} (hm : x.fld R.TB_CMP_CTRL_MODE u = 0) (hd : x.cmpDue u = some ((k * nsec : Nat) : Int))
    (hn : x.clk.now = k * nsec) (hp : 1 ≤ x.fld R.TB_CMP_PERIOD u) : x.cmpAdvance u =
      (x.setFld R.TB_CMP_T0 (wrapOf ((k + x.fld R.TB_CMP_PERIOD u) * nsec) % 2 ^ 30) u).setFld R.TB_CMP_T1
        (wrapOf ((k + x.fld R.TB_CMP_PERIOD u) * nsec) / 2 ^ 32) u := by
  have hline : x.cmpLine u = false := by
    unfold Die.cmpLine Die.flag; rw [hm]; rfl
  have hstep : ((x.fld R.TB_CMP_PERIOD u : Int)) * nsec ≠ 0 := by unfold nsec; omega
  unfold Die.cmpAdvance
  rw [hline, hd]
  dsimp only
  have one : max 0 (((k * nsec : Nat) - (k * nsec : Nat) : Int) / ((x.fld R.TB_CMP_PERIOD u : Int) * nsec) + 1) = 1 := by
    rw [Int.sub_self, Int.zero_ediv]; rfl
  have next : (((k * nsec : Nat) : Int) + 1 * ((x.fld R.TB_CMP_PERIOD u : Int) * nsec)).toNat = (k + x.fld R.TB_CMP_PERIOD u) * nsec := by
    rw [one_mul, Nat.add_mul]; exact Int.toNat_natCast _
  rw [if_neg (by decide), if_neg hstep, hn, one, next]

/-! ### What a unit that fires leaves -/

/-- A single-shot unit that fires is disarmed. -/
theorem State.cmpFired_once {s : State} {d : DieId} {u : Nat} (h : s.fld d R.TB_CMP_CTRL_PERIODIC u = 0) :
    s.cmpFired d u false = (s.setFld d R.TB_CMP_CTRL_FIRED 1 u).setFld d R.TB_CMP_CTRL_ARM 0 u := by
  refine if_neg ?_
  have : (s.cmpMarked d u false).fld d R.TB_CMP_CTRL_PERIODIC u = s.fld d R.TB_CMP_CTRL_PERIODIC u := by
    unfold State.cmpMarked State.fld State.setFld
    rw [if_neg (by decide), State.die_upd_same, Die.fld_setFld_apart _ _ _ _ _ _ _ _ (by decide) (by decide) (by decide)]
  rw [this, h]
  decide
/-- A periodic unit that fires moves its target on. -/
theorem State.cmpFired_periodic {s : State} {d : DieId} {u : Nat} (h : s.fld d R.TB_CMP_CTRL_PERIODIC u = 1) :
    s.cmpFired d u false = (s.setFld d R.TB_CMP_CTRL_FIRED 1 u).upd d fun x => x.cmpAdvance u := by
  refine if_pos ?_
  unfold State.cmpMarked State.fld State.setFld
  rw [if_neg (by decide), State.die_upd_same, Die.fld_setFld_apart _ _ _ _ _ _ _ _ (by decide) (by decide) (by decide)]
  exact h
/-- So FIRED is set and ARM cleared, and all else of the die stands. -/
theorem State.cmpFired_once_die {s : State} {d : DieId} {u : Nat} (h : s.fld d R.TB_CMP_CTRL_PERIODIC u = 0) :
    (s.cmpFired d u false).die d = ((s.die d).setFld R.TB_CMP_CTRL_FIRED 1 u).setFld R.TB_CMP_CTRL_ARM 0 u := by
  rw [State.cmpFired_once h]
  unfold State.setFld
  rw [State.die_upd_same, State.die_upd_same]
theorem State.cmpFired_periodic_die {s : State} {d : DieId} {u : Nat} (h : s.fld d R.TB_CMP_CTRL_PERIODIC u = 1) :
    (s.cmpFired d u false).die d = ((s.die d).setFld R.TB_CMP_CTRL_FIRED 1 u).cmpAdvance u := by
  rw [State.cmpFired_periodic h]
  unfold State.setFld
  rw [State.die_upd_same, State.die_upd_same]
/-- The words of a compare unit are among the registers that what it sets off keeps. -/
theorem inTb_cmp (d : DieId) {f : Fld} {u : Nat} (hu : u < 64) (hf : f.stride = 16 ∧ f.stride2 = 0) (h : 0x20400 ≤ f.base ∧ f.base < 0x20410) (lo hi : Nat) :
    inTb d d (fldAddr f u 0) lo hi := by
  unfold inTb fldAddr
  rw [hf.1]
  exact ⟨⟨by omega, by omega⟩, fun _ => by omega⟩
theorem State.cmpFire_fld (s : State) (d : DieId) {f : Fld} {u : Nat} (hu : u < 64) (hf : f.stride = 16 ∧ f.stride2 = 0)
    (h : 0x20400 ≤ f.base ∧ f.base < 0x20410) : (s.cmpFire d u false).fld d f u = (s.cmpFired d u false).fld d f u :=
  (s.cmpFire_fired d u false).fld d f u 0 (inTb_cmp d hu hf h _ _)

/-- A channel in IDLE that a source of its STARTS kicks runs. -/
theorem State.dmaStart_begins {s : State} {d : DieId} {n : Nat} {src : StartSrc} (depth : Nat) (hn : n < 128)
    (hused : (s.die d).flag R.DM_CH_CFG_USED n = true) (hsrc : bit ((s.die d).fld R.DM_CH_CFG_STARTS n) src.bit = true)
    (hidle : (s.die d).chState n = 0) : ((s.dmaStart d n src depth).die d).chState n = 1 := by
  have served (f : Fld) (h : f.stride = 64 ∧ 0x1D1000 ≤ f.base ∧ f.base < 0x1D1040 ∧ f.stride2 = 0) :
      (s.serve d .dmaChannel n).fld d f n = s.fld d f n := by
    refine (s.serve_kept (P := fun _ a _ _ => Quiet a ∧ a < 0x220000) (fun _ _ _ _ p => p.1) (fun a _ _ p => .inl p.2) .dmaChannel n).fld d f n 0 ?_
    unfold fldAddr
    rw [h.1]
    exact ⟨⟨by omega, by omega⟩, by omega⟩
  have hused' : ((s.serve d .dmaChannel n).die d).flag R.DM_CH_CFG_USED n = true :=
    (congrArg (· == 1) (served R.DM_CH_CFG_USED (by decide))).trans hused
  have hsrc' : bit (((s.serve d .dmaChannel n).die d).fld R.DM_CH_CFG_STARTS n) src.bit = true :=
    (congrArg (bit · src.bit) (served R.DM_CH_CFG_STARTS (by decide))).trans hsrc
  have hidle' : ((s.serve d .dmaChannel n).die d).chState n = 0 := (served R.DM_CH_STATUS_STATE (by decide)).trans hidle
  unfold State.dmaStart
  dsimp only
  rw [if_neg (by simp [hused', hsrc']), if_neg (by simp [hidle']), if_pos hidle', State.die_upd_same]
  exact Die.fld_setFld_same _ R.DM_CH_STATUS_STATE 1 n 0 (by decide)

/-! ### COMPARE_FIRE -/

theorem State.compareFire_armed {s : State} {d : DieId} {u : Nat} {t : Int} (h : (s.die d).cmpDue u = some t) (ha : (s.die d).cmpArmed u = true) :
    s.compareFire d u = (s.advanceStation d t.toNat).cmpFire d u false := by
  unfold State.compareFire
  rw [h]
  exact if_pos ha
/-- A single-shot unit that fires. -/
theorem State.cmpFire_once {s : State} {d : DieId} {u : Nat} (hu : u < 64) (h : s.fld d R.TB_CMP_CTRL_PERIODIC u = 0) :
    (s.cmpFire d u false).fld d R.TB_CMP_CTRL_FIRED u = 1 ∧ (s.cmpFire d u false).fld d R.TB_CMP_CTRL_ARM u = 0 ∧
      (s.cmpFire d u false).fld d R.TB_CMP_T0 u = s.fld d R.TB_CMP_T0 u := by
  rw [s.cmpFire_fld d hu (by decide) (by decide), s.cmpFire_fld d hu (by decide) (by decide), s.cmpFire_fld d hu (by decide) (by decide)]
  unfold State.fld
  rw [State.cmpFired_once_die h]
  refine ⟨?_, Die.fld_setFld_same _ _ _ _ _ (by decide), ?_⟩
  · rw [Die.fld_setFld_apart _ _ _ _ _ _ _ _ (by decide) (by decide) (by decide)]
    exact Die.fld_setFld_same _ _ _ _ _ (by decide)
  · rw [Die.fld_setFld_addr _ _ _ _ _ _ _ _ (fldAddr_cmp_ne (by decide) (by decide) (by decide)),
      Die.fld_setFld_addr _ _ _ _ _ _ _ _ (fldAddr_cmp_ne (by decide) (by decide) (by decide))]
/-- What a single-shot unit sets off is read as it was before it fired. -/
theorem State.cmpFired_once_set {s : State} {d : DieId} {u : Nat} (h : s.fld d R.TB_CMP_CTRL_PERIODIC u = 0) (f : Fld) (hf : f.lo ≤ f.hi ∧ 7 < f.lo) :
    (s.cmpFired d u false).fld d f u = s.fld d f u := by
  unfold State.fld
  rw [State.cmpFired_once_die h, Die.fld_setFld_apart _ _ _ _ _ _ _ _ (by decide) hf.1 (.inl (Nat.zero_lt_of_lt hf.2)),
    Die.fld_setFld_apart _ _ _ _ _ _ _ _ (by decide) hf.1 (.inl hf.2)]
theorem State.cmpFire_once_releases {s : State} {d : DieId} {u : Nat} (h : s.fld d R.TB_CMP_CTRL_PERIODIC u = 0)
    (ha : s.fld d R.TB_CMP_CTRL_ACTION u = 1) (hc : ((s.die d).th (s.fld d R.TB_CMP_CTRL_TARGET u)).claimed = true)
    (hi : ((s.die d).th (s.fld d R.TB_CMP_CTRL_TARGET u)).state = .idle) :
    (((s.cmpFire d u false).die d).th (s.fld d R.TB_CMP_CTRL_TARGET u)).state = .ready := by
  have hth (n : Nat) : ((s.cmpFired d u false).die d).th n = (s.die d).th n := by rw [State.cmpFired_once_die h]; rfl
  rw [State.cmpFire_cases, State.cmpFired_once_set h _ (by decide), State.cmpFired_once_set h _ (by decide), ha]
  exact State.release_idle (by rw [hth]; exact hc) (by rw [hth]; exact hi)
theorem State.cmpFire_once_starts {s : State} {d : DieId} {u : Nat} (hu : u < 64) (h : s.fld d R.TB_CMP_CTRL_PERIODIC u = 0)
    (ha : s.fld d R.TB_CMP_CTRL_ACTION u = 2) (hused : (s.die d).flag R.DM_CH_CFG_USED (s.fld d R.TB_CMP_CTRL_TARGET u % 128) = true)
    (hsrc : bit ((s.die d).fld R.DM_CH_CFG_STARTS (s.fld d R.TB_CMP_CTRL_TARGET u % 128)) 1 = true)
    (hidle : (s.die d).chState (s.fld d R.TB_CMP_CTRL_TARGET u % 128) = 0) :
    ((s.cmpFire d u false).die d).chState (s.fld d R.TB_CMP_CTRL_TARGET u % 128) = 1 := by
  have hdma (f : Fld) (n : Nat) (hf : 0x21000 ≤ f.base) : (s.cmpFired d u false).fld d f n = s.fld d f n := by
    have off (g : Fld) (hg : g.base = 0x20400 ∧ g.stride = 16) : fldAddr f n 0 ≠ fldAddr g u 0 := by
      unfold fldAddr; rw [hg.1, hg.2]; omega
    unfold State.fld
    rw [State.cmpFired_once_die h, Die.fld_setFld_addr _ _ _ _ _ _ _ _ (off _ (by decide)), Die.fld_setFld_addr _ _ _ _ _ _ _ _ (off _ (by decide))]
  rw [State.cmpFire_cases, State.cmpFired_once_set h _ (by decide), State.cmpFired_once_set h _ (by decide), ha]
  exact State.dmaStart_begins (src := .compare) 0 (Nat.mod_lt _ (by decide)) ((congrArg (· == 1) (hdma _ _ (by decide))).trans hused)
    ((congrArg (bit · 1) (hdma _ _ (by decide))).trans hsrc) ((hdma _ _ (by decide)).trans hidle)

/-- The target of a unit that compares times is read from its words and the clock. -/
theorem Die.cmpDue_congr {x y : Die} {u : Nat} (hx : x.fld R.TB_CMP_CTRL_MODE u = 0) (hm : y.fld R.TB_CMP_CTRL_MODE u = x.fld R.TB_CMP_CTRL_MODE u)
    (h0 : y.fld R.TB_CMP_T0 u = x.fld R.TB_CMP_T0 u) (h1 : y.fld R.TB_CMP_T1 u = x.fld R.TB_CMP_T1 u) (hn : y.clk.now = x.clk.now) :
    y.cmpDue u = x.cmpDue u := by
  rw [Die.cmpDue_time hx, Die.cmpDue_time (hm.trans hx), h0, h1, hn]
/-- A unit that is marked as fired keeps its other words, and the fields of CTRL below the mark. -/
theorem Die.fired_word (x : Die) (u : Nat) {f : Fld} (hf : f.stride = 16 ∧ f.stride2 = 0) (hb : f.base ≠ 0x20400) :
    (x.setFld R.TB_CMP_CTRL_FIRED 1 u).fld f u = x.fld f u := Die.fld_setFld_addr _ _ _ _ _ _ _ _ (fldAddr_cmp_ne hf (by decide) hb)
theorem Die.fired_ctrl (x : Die) (u : Nat) {f : Fld} (hf : f.lo ≤ f.hi) (hb : f.hi < 7) :
    (x.setFld R.TB_CMP_CTRL_FIRED 1 u).fld f u = x.fld f u := Die.fld_setFld_apart _ _ _ _ _ _ _ _ (by decide) hf (.inr hb)
/-- A target that moves on leaves CTRL alone, and is read as it was meant. -/
theorem Die.cmpAdvance_ctrl {x : Die} {u k : Nat} (hm : x.fld R.TB_CMP_CTRL_MODE u = 0) (hd : x.cmpDue u = some ((k * nsec : Nat) : Int))
    (hn : x.clk.now = k * nsec) (hp : 1 ≤ x.fld R.TB_CMP_PERIOD u) {f : Fld} (hf : f.stride = 16 ∧ f.stride2 = 0) (hb : f.base = 0x20400) :
    (x.cmpAdvance u).fld f u = x.fld f u := by
  rw [Die.cmpAdvance_arrived hm hd hn hp,
    Die.fld_setFld_addr _ _ _ _ _ _ _ _ (fldAddr_cmp_ne hf (by decide) (by rw [hb]; decide)),
    Die.fld_setFld_addr _ _ _ _ _ _ _ _ (fldAddr_cmp_ne hf (by decide) (by rw [hb]; decide))]
theorem Die.cmpAdvance_due {x : Die} {u k : Nat} (hm : x.fld R.TB_CMP_CTRL_MODE u = 0) (hd : x.cmpDue u = some ((k * nsec : Nat) : Int))
    (hn : x.clk.now = k * nsec) (hp : 1 ≤ x.fld R.TB_CMP_PERIOD u) :
    (x.cmpAdvance u).cmpDue u = some (((k + x.fld R.TB_CMP_PERIOD u) * nsec : Nat) : Int) := by
  have hmode := (Die.cmpAdvance_ctrl (f := R.TB_CMP_CTRL_MODE) hm hd hn hp (by decide) (by decide)).trans hm
  have hpl : x.fld R.TB_CMP_PERIOD u < 2 ^ 32 := x.fld_lt R.TB_CMP_PERIOD u 0
  rw [Die.cmpDue_time hmode, Die.cmpAdvance_clk, hn, Die.cmpAdvance_arrived hm hd hn hp]
  generalize x.fld R.TB_CMP_PERIOD u = p at hpl
  have low : wrapOf ((k + p) * nsec) % 2 ^ 30 < 2 ^ 30 := Nat.mod_lt _ (by decide)
  have high : wrapOf ((k + p) * nsec) / 2 ^ 32 < 2 ^ 32 := by rw [wrapOf_div]; exact Nat.mod_lt _ (by decide)
  rw [Die.fld_setFld_same _ _ _ _ _ (by decide), Die.fld_setFld_addr _ _ _ _ _ _ _ _ (fldAddr_cmp_ne (by decide) (by decide) (by decide)),
    Die.fld_setFld_same _ _ _ _ _ (by decide)]
  have h1 : wrapOf ((k + p) * nsec) / 2 ^ 32 % 2 ^ (R.TB_CMP_T1.hi - R.TB_CMP_T1.lo + 1) = wrapOf ((k + p) * nsec) / 2 ^ 32 := Nat.mod_eq_of_lt high
  have h0 : wrapOf ((k + p) * nsec) % 2 ^ 30 % 2 ^ (R.TB_CMP_T0.hi - R.TB_CMP_T0.lo + 1) = wrapOf ((k + p) * nsec) % 2 ^ 30 :=
    Nat.mod_eq_of_lt (low.trans (by decide))
  rw [h1, h0, Nat.mod_mod]
  exact congrArg some (wrapRead_ahead hpl)

/-- A periodic unit that fires at its target stays armed, with its target a period later. -/
theorem State.cmpFire_periodic {s : State} {d : DieId} {u k : Nat} (hu : u < 64) (h : s.fld d R.TB_CMP_CTRL_PERIODIC u = 1)
    (hm : s.fld d R.TB_CMP_CTRL_MODE u = 0) (hp : 1 ≤ s.fld d R.TB_CMP_PERIOD u) (hn : (s.die d).clk.now = k * nsec)
    (hd : (s.die d).cmpDue u = some ((k * nsec : Nat) : Int)) :
    (s.cmpFire d u false).fld d R.TB_CMP_CTRL_FIRED u = 1 ∧ (s.cmpFire d u false).fld d R.TB_CMP_CTRL_ARM u = s.fld d R.TB_CMP_CTRL_ARM u ∧
      ((s.cmpFire d u false).die d).cmpDue u = some (((k + s.fld d R.TB_CMP_PERIOD u) * nsec : Nat) : Int) := by
  have hm' : ((s.die d).setFld R.TB_CMP_CTRL_FIRED 1 u).fld R.TB_CMP_CTRL_MODE u = 0 :=
    ((s.die d).fired_ctrl u (by decide) (by decide)).trans hm
  have hd' : ((s.die d).setFld R.TB_CMP_CTRL_FIRED 1 u).cmpDue u = some ((k * nsec : Nat) : Int) :=
    (Die.cmpDue_congr hm ((s.die d).fired_ctrl u (by decide) (by decide)) ((s.die d).fired_word u (by decide) (by decide))
      ((s.die d).fired_word u (by decide) (by decide)) rfl).trans hd
  have hper : ((s.die d).setFld R.TB_CMP_CTRL_FIRED 1 u).fld R.TB_CMP_PERIOD u = s.fld d R.TB_CMP_PERIOD u :=
    (s.die d).fired_word u (by decide) (by decide)
  have hp' := hp.trans_eq hper.symm
  have hdie := State.cmpFired_periodic_die h
  have ctrl {f : Fld} (hf : f.stride = 16 ∧ f.stride2 = 0) (hb : f.base = 0x20400) :
      (s.cmpFired d u false).fld d f u = ((s.die d).setFld R.TB_CMP_CTRL_FIRED 1 u).fld f u := by
    unfold State.fld
    rw [hdie]
    exact Die.cmpAdvance_ctrl hm' hd' hn hp' hf hb
  have keep {f : Fld} (hf : f.stride = 16 ∧ f.stride2 = 0) (hb : 0x20400 ≤ f.base ∧ f.base < 0x20410) :
      ((s.cmpFire d u false).die d).fld f u = ((s.cmpFired d u false).die d).fld f u := s.cmpFire_fld d hu hf hb
  refine ⟨?_, ?_, ?_⟩
  · exact (keep (by decide) (by decide)).trans ((ctrl (by decide) (by decide)).trans (Die.fld_setFld_same _ _ _ _ _ (by decide)))
  · exact (keep (by decide) (by decide)).trans ((ctrl (by decide) (by decide)).trans ((s.die d).fired_ctrl u (by decide) (by decide)))
  · refine (Die.cmpDue_congr ((ctrl (by decide) (by decide)).trans hm') (keep (by decide) (by decide)) (keep (by decide) (by decide))
      (keep (by decide) (by decide)) (by rw [State.cmpFire_clk, State.cmpFired_clk])).trans ?_
    rw [hdie, ← hper]
    exact Die.cmpAdvance_due hm' hd' hn hp'

end Sys2Proof.Machine
end

section
/-! The commands of station time (R43, R46, R58, R59, R64, R68, R74). -/

namespace Sys2Proof.Machine

/-- COMPARE_FIRE of an armed single-shot unit: what it names acts on the die as it was. -/
theorem State.compareFire_once {s : State} {d : DieId} {u : Nat} {t : Int} (hu : u < 64) (hd : (s.die d).cmpDue u = some t)
    (ha : (s.die d).cmpArmed u = true) (h : s.fld d R.TB_CMP_CTRL_PERIODIC u = 0) :
    let r := s.compareFire d u
    let target := s.fld d R.TB_CMP_CTRL_TARGET u
    (r.die d).clk.now = max (s.die d).clk.now t.toNat ∧ r.fld d R.TB_CMP_CTRL_FIRED u = 1 ∧ r.fld d R.TB_CMP_CTRL_ARM u = 0 ∧
      r.fld d R.TB_CMP_T0 u = s.fld d R.TB_CMP_T0 u ∧
      (s.fld d R.TB_CMP_CTRL_ACTION u = 1 → ((s.die d).th target).claimed = true → ((s.die d).th target).state = .idle →
        ((r.die d).th target).state = .ready) ∧
      (s.fld d R.TB_CMP_CTRL_ACTION u = 2 → (s.die d).flag R.DM_CH_CFG_USED (target % 128) = true →
        bit ((s.die d).fld R.DM_CH_CFG_STARTS (target % 128)) 1 = true → (s.die d).chState (target % 128) = 0 →
        (r.die d).chState (target % 128) = 1) := by
  dsimp only
  rw [State.compareFire_armed hd ha]
  have hfld (f : Fld) (i : Nat) := s.advanceStation_fld d d t.toNat f i 0
  have hth (n : Nat) : ((s.advanceStation d t.toNat).die d).th n = (s.die d).th n := by rw [State.advanceStation_rest]; rfl
  have hnow := s.advanceStation_now d t.toNat
  generalize s.advanceStation d t.toNat = v at hfld hth hnow
  have hv := (hfld _ u).trans h
  obtain ⟨hfired, harm, ht0⟩ := State.cmpFire_once hu hv
  refine ⟨by rw [State.cmpFire_clk, hnow], hfired, harm, ht0.trans (hfld _ u), fun h1 hc hi => ?_, fun h2 hused hsrc hidle => ?_⟩
  · have target := hfld R.TB_CMP_CTRL_TARGET u
    rw [← target] at hc hi ⊢
    exact State.cmpFire_once_releases hv ((hfld _ u).trans h1) ((congrArg Thread.claimed (hth _)).trans hc) ((congrArg Thread.state (hth _)).trans hi)
  · have target := hfld R.TB_CMP_CTRL_TARGET u
    rw [← target] at hused hsrc hidle ⊢
    exact State.cmpFire_once_starts hu hv ((hfld _ u).trans h2) ((congrArg (· == 1) (hfld _ _)).trans hused)
      ((congrArg (bit · 1) (hfld _ _)).trans hsrc) ((hfld _ _).trans hidle)
/-- COMPARE_FIRE of an armed periodic unit that compares times, at a target that has not passed. -/
theorem State.compareFire_periodic {s : State} {d : DieId} {u : Nat} {t : Int} (hu : u < 64) (hd : (s.die d).cmpDue u = some t)
    (ha : (s.die d).cmpArmed u = true) (h : s.fld d R.TB_CMP_CTRL_PERIODIC u = 1) (hm : s.fld d R.TB_CMP_CTRL_MODE u = 0)
    (hp : 1 ≤ s.fld d R.TB_CMP_PERIOD u) (ht : (s.die d).clk.now ≤ t) :
    let r := s.compareFire d u
    r.fld d R.TB_CMP_CTRL_FIRED u = 1 ∧ r.fld d R.TB_CMP_CTRL_ARM u = 1 ∧ (r.die d).cmpDue u = some (t + s.fld d R.TB_CMP_PERIOD u * nsec) := by
  dsimp only
  rw [State.compareFire_armed hd ha]
  have h0 : 0 ≤ t := (Int.natCast_nonneg _).trans ht
  have hfld (f : Fld) := s.advanceStation_fld d d t.toNat f u 0
  have hnow : ((s.advanceStation d t.toNat).die d).clk.now = t.toNat := (s.advanceStation_now d t.toNat).trans (max_eq_right (by omega))
  generalize s.advanceStation d t.toNat = v at hfld hnow
  rw [Die.cmpDue_time hm] at hd
  obtain ⟨hread, k, hk⟩ := wrapRead_arrived ((s.die d).fld_lt R.TB_CMP_T1 u 0) (Nat.mod_lt _ (by decide)) (Option.some.inj hd) h0
  have hvm := (hfld R.TB_CMP_CTRL_MODE).trans hm
  have hvd : (v.die d).cmpDue u = some t := by
    rw [Die.cmpDue_time hvm, hnow]
    exact congrArg some ((congrArg₂ (fun a b => wrapRead t.toNat a (b % 2 ^ 30)) (hfld _) (hfld _)).trans hread)
  obtain ⟨hfired, harm, hdue⟩ := State.cmpFire_periodic hu ((hfld _).trans h) hvm (hp.trans_eq (hfld _).symm)
    (hnow.trans (by rw [hk]; rfl)) (hvd.trans (congrArg some hk))
  refine ⟨hfired, harm.trans ((hfld _).trans (beq_iff_eq.mp ha)), hdue.trans (congrArg some ?_)⟩
  rw [hfld, hk, Nat.add_mul]
  push_cast
  rfl

theorem State.tbCtrl_snap (s : State) (d : DieId) : s.tbCtrl d 1 = s.upd d Die.tbSnap := rfl
theorem State.tbCtrl_go (s : State) (d : DieId) : s.tbCtrl d 2 = s.upd d fun x => x.modServo false fun v => { v with stepGo := true } := rfl
theorem Die.grid_setReg_tbCtrl (x : Die) (w : W32) (c : Nat) : (x.setReg 0x2000C w).grid c = x.grid c := by
  have off (f : Fld) (h : 0x20100 ≤ f.base) : (x.setReg 0x2000C w).fld f c = x.fld f c := by
    unfold Die.fld
    rw [Die.reg_setReg_other]
    unfold fldAddr
    omega
  unfold Die.grid
  rw [off _ (by decide), off _ (by decide), off _ (by decide)]
/-- TB_SNAP latches station time and the line position of each active cadence. -/
theorem Die.tbSnap_latched (x : Die) (w : W32) {c : Nat} (hc : c < 8) :
    let y := (x.setReg 0x2000C w).tbSnap
    y.fld R.TB_NOW_W 0 = x.clk.now % 65536 ∧ y.fld R.TB_NOW_W 1 = x.clk.now / 65536 % 1000000000 ∧
      y.fld R.TB_NOW_W 2 = x.clk.now / (65536 * 1000000000) % 2 ^ 32 ∧ y.clk = x.clk ∧
      ∀ g, x.grid c = some g → y.fld R.TB_CAD_LINEPOS c = g.linePos (g.pos (x.gridTime c)) % 2 ^ 29 := by
  obtain ⟨h0, h1, h2⟩ := (x.setReg 0x2000C w).snapNow_words
  refine ⟨(Die.tbSnap_now _ (by decide)).trans h0, (Die.tbSnap_now _ (by decide)).trans (h1.trans (nsOf_eq _)), (Die.tbSnap_now _ (by decide)).trans h2,
    Die.tbSnap_clk _, fun g hg => ?_⟩
  exact Die.tbSnap_linePos hc ((x.grid_setReg_tbCtrl w c).trans hg)

/-- A step that a plan's policy does not let through, and that no STEP_GO has released, waits (R58). -/
theorem State.stepApply_waits {s : State} {d : DieId} {st : Int} (hst : (s.die d).clk.servo.step = some st) (hplan : s.planRuns = true)
    (hpol : s.fld d R.TB_MODE_STEP_POLICY ≠ 1) (hgo : (s.die d).clk.servo.stepGo = false) : s.stepApply d = s := by
  unfold State.stepApply
  dsimp only
  rw [hst]
  dsimp only
  rw [if_neg (by simp [hplan]), if_neg (by simp [hpol, hgo])]
theorem unsgn_lt (w : Nat) (v : Int) : unsgn w v < 2 ^ w := by
  have h : (0 : Int) < 2 ^ w := by positivity
  have := Int.emod_lt_of_pos v h
  have := Int.emod_nonneg v h.ne'
  unfold unsgn
  zify
  omega
theorem State.stepApply_unplanned {s : State} {d : DieId} {st : Int} (hst : (s.die d).clk.servo.step = some st) (hplan : s.planRuns = false) :
    s.stepApply d = s.applyStep d := by
  unfold State.stepApply
  dsimp only
  rw [hst]
  exact if_pos (by simp [hplan])

end Sys2Proof.Machine

namespace Sys2Proof
open Sys2Proof.Machine

/-- Settles O29: each command is one function of the model, whose lemmas say what it brings about. -/
theorem timeCommands : Obligations.TimeCommands := by
  unfold Obligations.TimeCommands
  intro s d c u wr hd x now target action
  have same {f : State} (h : f = s) : onDie s d true f = .next s := (onDie_next f hd).trans (h ▸ rfl)
  refine ⟨fun hg => same (State.linePulse_inactive hg), fun g hg hr ho => completes_onDie hd ?_, fun ho => ?_,
    fun t ht ha => ⟨fun hp => completes_onDie hd (State.compareFire_once u.isLt ht ha hp),
      fun hp hm h1 hn => completes_onDie hd (State.compareFire_periodic u.isLt ht ha hp hm h1 hn)⟩, fun hw => ?_, fun hw => ?_,
    fun st hst => ⟨fun hplan => completes_onDie hd ?_, fun hplan hpol hgo => same ?_⟩⟩
  · have first := State.switchFirst_of_not_owed ho
    rw [State.linePulse_running (by rw [first]; exact hg), first]
    exact State.linePulsed_cad hg hr
  · cases ht : (s.planSwitch d c).switchOwed d c with
    | true => exact .inr rfl
    | false =>
      refine .inl ((onDie_next _ hd).trans ?_)
      have hpend : ((s.planSwitch d c).linePulse d c).pending = s.pending := (State.linePulse_pending _ _ _).trans (s.planSwitch_pending d c)
      rw [State.linePulse_owed ho ht, ← hpend]
  · obtain ⟨w, hword⟩ := s.writeWords_tbCtrl d wr 1
    refine ⟨_, onDie_command hw, ?_⟩
    rw [hword]
    have hdie : (((s.upd d fun x => x.setReg 0x2000C w).tbCtrl d (1 : W32).toNat).die d) = (x.setReg 0x2000C w).tbSnap := by
      rw [show (1 : W32).toNat = 1 from rfl, State.tbCtrl_snap, State.die_upd_same, State.die_upd_same]
    have latched := x.tbSnap_latched w c.isLt
    rw [← hdie] at latched
    exact latched
  · obtain ⟨w, hword⟩ := s.writeWords_tbCtrl d wr 2
    refine ⟨_, onDie_command hw, ?_⟩
    rw [hword]
    have hdie : (((s.upd d fun x => x.setReg 0x2000C w).tbCtrl d (2 : W32).toNat).die d) =
        (x.setReg 0x2000C w).modServo false fun v => { v with stepGo := true } := by
      rw [show (2 : W32).toNat = 2 from rfl, State.tbCtrl_go, State.die_upd_same, State.die_upd_same]
    exact ⟨(congrArg Die.clk hdie).trans rfl, (congrArg Die.tiles hdie).trans rfl⟩
  · rw [State.stepApply_unplanned hst hplan]
    obtain ⟨hnow, hstep, hlo, hdone⟩ := State.applyStep_stepped hst
    exact ⟨hnow, hstep, hlo.trans (Nat.mod_eq_of_lt (unsgn_lt _ _)), hdone⟩
  · exact State.stepApply_waits hst hplan hpol hgo

end Sys2Proof
end

section
/-! The commands of PL_CTRL as writes of one word (R97, R112, R113): what refuses them, and what an accepted one sets going. -/

namespace Sys2Proof.Machine

/-! ### A write of one word -/

/-- A write of one word is refused just where the word has a code. -/
theorem State.writeRefused_word (s : State) (d : DieId) (wr : Writer) (a : Nat) (v : W32) : s.writeRefused d wr [(a, v)] =
    if s.writeCode d wr [(a, v)] a v = 0 then none else some (0, s.writeCode d wr [(a, v)] a v) := by
  unfold State.writeRefused
  by_cases h : s.writeCode d wr [(a, v)] a v = 0 <;> simp [h]

/-- What a refused command answers: a host has a reply, a core the refusal latched (R417, R513). -/
def State.refusal (s : State) (d : DieId) (a code : Nat) : Writer → State
  | .host => s.send (.refused d a code)
  | .core c => s.coreRefused d c a code
@[simp] theorem State.refusal_pending (s : State) (d : DieId) (a code : Nat) (wr : Writer) : (s.refusal d a code wr).pending = s.pending := by
  cases wr with
  | host => rfl
  | core c => simp [State.refusal, State.coreRefused, State.setFld]

/-- A command that is refused with another code than BUSY answers the refusal and does nothing else. -/
theorem State.command_refused {s : State} {d : DieId} {wr : Writer} {a code : Nat} {v : W32}
    (hup : wr = .host → (s.die d).up = true ∧ s.hostBarred d = false) (hc : s.writeCode d wr [(a, v)] a v = code) (h0 : code ≠ 0) (hb : code ≠ 6) :
    s.command d wr a v = s.refusal d a code wr := by
  have hr : s.regWrite d wr [(a, v)] = (s, some (0, code)) := by
    unfold State.regWrite
    rw [State.writeRefused_word, hc, if_neg h0]
  unfold State.command
  rw [if_neg (fun h => by simp [(hup h.1).1] at h), if_neg (fun h => by simp [(hup h.1).2] at h), hr]
  dsimp only
  rw [State.busyResult, if_neg (fun h => hb h.2.1)]
  cases wr <;> rfl

/-- A register whose state alone can refuse a write is refused where it does. -/
theorem State.writeCode_of_state {s : State} {d : DieId} {a i j : Nat} {r : RegDesc} (hr : findReg a = some (r, i, j)) {v : W32}
    (h : s.stateFails d r i v.toNat ≠ 0) (wr : Writer) (ws : Words) : s.writeCode d wr ws a v ≠ 0 := by
  unfold State.writeCode
  rw [hr]
  dsimp only
  repeat' split
  all_goals simp [h]

/-- An accepted write of one word of a register that no item claims and that no compare unit has: the register takes a word, and the
effect of the write follows. -/
theorem State.writeWords_word {a i j : Nat} {r : RegDesc} (hr : findReg a = some (r, i, j)) (hfree : r.claim = .free)
    (haside : keptAside a = false) (hbase : r.base ≠ 0x194000) (ha : a < 0x20400 ∨ 0x20800 ≤ a) (s : State) (d : DieId) (wr : Writer) (v : W32) :
    ∃ w, s.writeWords d wr [(a, v)] = (s.upd d fun x => x.setReg a w).hook d r i v ((s.die d).reg a) := by
  have hcmp : cmpUnits [(a, v)] = [] := by
    unfold cmpUnits
    rw [List.filter_cons_of_neg (by simp only [decide_eq_true_eq]; omega)]
    rfl
  unfold State.writeWords
  rw [hcmp, List.foldl_cons, List.foldl_nil, List.foldl_nil]
  unfold State.writeWord
  rw [hr]
  dsimp only
  rw [State.hostServe_free _ _ _ hfree, if_neg hbase, haside]
  exact ⟨_, rfl⟩

/-! ### PL_CTRL -/

/-- PL_CTRL in the register table. -/
def plCtrlDesc : RegDesc :=
  ⟨0x30010, 0, 1, 0, 1, .free, [⟨0, 0, .wo, .val 0⟩, ⟨1, 1, .wo, .val 0⟩, ⟨2, 2, .wo, .val 0⟩, ⟨3, 3, .wo, .val 0⟩]⟩
theorem findReg_plCtrl : findReg 0x30010 = some (plCtrlDesc, 0, 0) := by decide +kernel
theorem State.noAddress_plCtrl (s : State) (d : DieId) : s.noAddress d 0x30010 = false := by
  have hb : blockOf 0x30010 = some 3 := by decide +kernel
  unfold State.noAddress
  rw [hb]
  simp
/-- A word without LIBRARY is refused for the state of the plans alone. -/
theorem State.writeCode_plCtrl (s : State) (d : DieId) (wr : Writer) (ws : Words) {v : W32} (hv : bit v.toNat 3 = false) :
    s.writeCode d wr ws 0x30010 v = s.plCtrlCode d v.toNat := by
  have haddr : s.addressFails d plCtrlDesc v.toNat = false := by simp [State.addressFails, plCtrlDesc]
  have hclaim : s.claimFails d plCtrlDesc 0 v.toNat = false := by simp [State.claimFails, plCtrlDesc, State.claimed, Die.hasItem]
  have hlock : s.lockFails d wr plCtrlDesc 0 v.toNat ((s.die d).reg 0x30010) = false := by simp [State.lockFails, plCtrlDesc]
  have hrange : s.rangeFails d ws plCtrlDesc 0 v.toNat = false := by simp [State.rangeFails, plCtrlDesc, writeRanges, hv]
  have hbounds : s.boundsFail d plCtrlDesc 0x30010 v.toNat = false := by simp [State.boundsFail, plCtrlDesc]
  unfold State.writeCode
  rw [findReg_plCtrl]
  dsimp only
  rw [s.noAddress_plCtrl, haddr, hclaim, hlock, hrange, hbounds]
  rfl

/-- A SWITCH is refused with STATE where no image is pending or a switch is requested (R113). -/
theorem State.plCtrlCode_switch {s : State} (h : s.pkg.plans.pend = none ∨ s.pkg.plans.request ≠ none) (d : DieId) : s.plCtrlCode d 2 = 16 := by
  have hc : (s.pkg.plans.pend.isNone || s.pkg.plans.request.isSome) = true := by
    rcases h with h | h
    · simp [h]
    · simp [Option.isSome_iff_ne_none.mpr h]
  simp [State.plCtrlCode, bit, hc]
/-- A CANCEL is refused with STATE where nothing is pending or held (R113). -/
theorem State.plCtrlCode_cancel {s : State} (hp : s.pkg.plans.pend = none) (hr : s.pkg.plans.request = none) (d : DieId) : s.plCtrlCode d 4 = 16 := by
  simp [State.plCtrlCode, bit, hp, hr]

/-- A command without LIBRARY that the state of the plans refuses with STATE answers the refusal. -/
theorem State.plCtrl_refused {s : State} {d : DieId} {wr : Writer} {v : W32} (hd : s.has d = true)
    (hup : wr = .host → (s.die d).up = true ∧ s.hostBarred d = false) (hv : bit v.toNat 3 = false) (hc : s.plCtrlCode d v.toNat = 16) :
    onDie s d true (s.command d wr 0x30010 v) = .next (s.refusal d 0x30010 16 wr) := by
  rw [State.command_refused hup ((s.writeCode_plCtrl d wr _ hv).trans hc) (by decide) (by decide), onDie_next _ hd, ← s.refusal_pending d 0x30010 16 wr]

/-- While an admission runs, a write of PL_SRC, PL_SWITCH_T0, PL_SWITCH_T1 or PL_LIB has a code (R113). -/
theorem State.writeCode_admitting {s : State} (h : s.plState = 1) {a : Nat} (ha : a ∈ ([0x30014, 0x30018, 0x3001C, 0x3003C] : List Nat))
    (d : DieId) (wr : Writer) (ws : Words) (v : W32) : s.writeCode d wr ws a v ≠ 0 := by
  have hfind : ∀ a ∈ ([0x30014, 0x30018, 0x3001C, 0x3003C] : List Nat), (findReg a).map (fun e => e.1.base) = some a := by decide +kernel
  have hbase := hfind a ha
  obtain ⟨⟨r, i, j⟩, hr, hb⟩ := Option.map_eq_some_iff.mp hbase
  have hb : r.base = a := hb
  refine State.writeCode_of_state hr ?_ wr ws
  unfold State.stateFails
  fin_cases ha <;> simp [hb, h]

end Sys2Proof.Machine

namespace Sys2Proof
open Sys2Proof.Machine

/-- Settles O32: each command is refused with STATE for the state of the plans alone, and a word of the four registers has a code while an
admission runs. -/
theorem planCommandRefusals : Obligations.PlanCommandRefusals := by
  intro s d wr v hd q refused hup
  have answers (i : Instr) (h : exec i s = .next (s.refusal d 0x30010 16 wr)) : refused i := by
    refine h.trans (congrArg _ ?_)
    cases wr <;> rfl
  have switch (h : q.pend = none ∨ q.request ≠ none) : refused (.switch d wr) :=
    answers _ (State.plCtrl_refused (v := 2) hd hup (by decide) (State.plCtrlCode_switch h d))
  refine ⟨fun h => switch (.inl h), fun h => switch (.inr h), fun hp hr => ?_, fun h a ha => ?_⟩
  · exact answers _ (State.plCtrl_refused (v := 4) hd hup (by decide) (State.plCtrlCode_cancel hp hr d))
  · have hc := State.writeCode_admitting h ha d wr [(a, v)] v
    unfold State.regWrite
    rw [State.writeRefused_word, if_neg hc]
    exact ⟨rfl, rfl⟩

end Sys2Proof
end

section
/-! What an accepted command of PL_CTRL leaves of the plans (R90, R97, R107, R112, R113). -/

namespace Sys2Proof.Machine

/-! ### PL_STATUS.STATE -/

theorem State.plState_admitting {s : State} {j : AdmitJob} (h : s.pkg.plans.job = some j) : s.plState = 1 := by
  simp [State.plState, h]
theorem State.plState_switching {s : State} {w : SwitchReq} (hj : s.pkg.plans.job = none) (hr : s.pkg.plans.request = some w) :
    s.plState = if s.pkg.plans.running.isSome then 3 else 6 := by
  simp [State.plState, hj, hr]

/-! ### The state in which PL_CTRL has taken a word -/

/-- PL_CTRL has taken a word. -/
def State.plCtrlStored (s : State) (d : DieId) (w : W32) : State := s.upd d fun x => x.setReg 0x30010 w
@[simp] theorem State.plCtrlStored_pkg (s : State) (d : DieId) (w : W32) : (s.plCtrlStored d w).pkg = s.pkg := s.upd_pkg d _
@[simp] theorem State.plCtrlStored_now (s : State) (d : DieId) (w : W32) : (s.plCtrlStored d w).now = s.now := s.upd_now d _
/-- It differs in the registers of its die. -/
theorem State.plCtrlStored_die (s : State) (d e : DieId) (w : W32) :
    (s.plCtrlStored d w).die e = { s.die e with regs := ((s.plCtrlStored d w).die e).regs } := by
  unfold State.plCtrlStored
  by_cases h : e = d
  · subst h; rw [State.die_upd_same]; rfl
  · rw [State.die_upd_other _ _ h]
theorem State.plCtrlStored_fld (s : State) (d e : DieId) (w : W32) (f : Fld) (h : fldAddr f 0 0 ≠ 0x30010) :
    (s.plCtrlStored d w).fld e f = s.fld e f := by
  unfold State.plCtrlStored State.fld Die.fld
  by_cases he : e = d
  · subst he; rw [State.die_upd_same, Die.reg_setReg_other _ _ h]
  · rw [State.die_upd_other _ _ he]
@[simp] theorem State.plCtrlStored_planImage (s : State) (d : DieId) (w : W32) (src : Nat) : (s.plCtrlStored d w).planImage src = s.planImage src := by
  have hsm : (s.plCtrlStored d w).die0.sm = s.die0.sm := (congrArg Die.sm (s.plCtrlStored_die d 0 w) :)
  unfold State.planImage State.flashBytes State.flashSize
  rw [hsm, s.plCtrlStored_pkg, s.plCtrlStored_fld _ _ _ _ (by decide)]

theorem State.writeWords_plCtrl (s : State) (d : DieId) (wr : Writer) (v : W32) :
    ∃ w, s.writeWords d wr [(0x30010, v)] = (s.plCtrlStored d w).plCtrl d v.toNat := by
  have aside : keptAside 0x30010 = false := by decide +kernel
  obtain ⟨w, h⟩ := State.writeWords_word findReg_plCtrl rfl aside (by decide) (by decide) s d wr v
  exact ⟨w, h⟩

/-- An accepted command that is a change `f` of the plans: it brings about that change, and leaves clocks, tiles and memory alone. -/
theorem State.plCtrl_accepted {s : State} {d : DieId} {wr : Writer} {v : W32} {f : Plans → Plans} {n : Option Nat}
    (h : s.accepts d wr 0x30010 v = true) (hf : ∀ w, (s.plCtrlStored d w).plCtrl d v.toNat = (s.plCtrlStored d w).modPlans f)
    (hn : ∀ k, n = some k → ∀ r : State, r.pkg.plans = f s.pkg.plans → r.plState = k) :
    Completes (onDie s d true (s.command d wr 0x30010 v)) fun r =>
      r.pkg.plans = f s.pkg.plans ∧ (∀ k, n = some k → r.plState = k) ∧
      r.die0.clk = s.die0.clk ∧ r.die1.clk = s.die1.clk ∧ r.die0.tiles = s.die0.tiles ∧ r.die1.tiles = s.die1.tiles ∧
      r.die0.dram = s.die0.dram ∧ r.die1.dram = s.die1.dram := by
  obtain ⟨w, hw⟩ := s.writeWords_plCtrl d wr v
  refine ⟨_, onDie_command h, ?_⟩
  rw [hw, hf]
  have hplans : ((s.plCtrlStored d w).modPlans f).pkg.plans = f s.pkg.plans := by simp
  have clk (e : DieId) := congrArg Die.clk (s.plCtrlStored_die d e w)
  have tiles (e : DieId) := congrArg Die.tiles (s.plCtrlStored_die d e w)
  have dram (e : DieId) := congrArg Die.dram (s.plCtrlStored_die d e w)
  exact ⟨hplans, fun k hk => hn k hk _ hplans, clk 0, clk 1, tiles 0, tiles 1, dram 0, dram 1⟩

/-! ### The four commands -/

theorem State.plCtrl_admit (s : State) (d : DieId) : s.plCtrl d 1 = s.admitStart (s.fld d R.PL_SRC) false := rfl
theorem State.plCtrl_switch (s : State) (d : DieId) : s.plCtrl d 2 = s.switchStart (s.fld d R.PL_SWITCH_T0_NS) (s.fld d R.PL_SWITCH_T1) := rfl
/-- A CANCEL drops a held switch alone, and otherwise the pending image with its switch (R112). -/
def Plans.cancelled (q : Plans) : Plans :=
  match q.request with
  | some r => if r.held then { q with request := none } else { q with request := none, pend := none }
  | none => { q with pend := none }
theorem State.plCtrl_cancel (s : State) (d : DieId) : s.plCtrl d 4 = s.modPlans Plans.cancelled := rfl
theorem State.plCtrl_library (s : State) (d : DieId) : s.plCtrl d 8 =
    s.modPlans fun q => { q with job := some ⟨[], some (s.fld d R.PL_LIB_NUMBER), false, false, s.now⟩ } := rfl

end Sys2Proof.Machine
end

section
/-! The end of an admission or of a library check (R90, R91, R97, R107). -/

namespace Sys2Proof.Machine

theorem Die.Posted.mr {x y : Die} (h : x.Posted y) : y.mr = x.mr := by rw [h.rest]

/-! ### PL_RESULT and the posts -/

/-- PL_RESULT of a die. -/
def Die.plResult (x : Die) (f : Fail) : Die :=
  ((x.setFld R.PL_RESULT_CODE f.code).setFld R.PL_RESULT_SECTION f.sect).setFld R.PL_RESULT_ITEM f.item
theorem Die.plResult_code (x : Die) (f : Fail) : (x.plResult f).fld R.PL_RESULT_CODE = f.code % 256 := by
  unfold Die.plResult
  rw [Die.fld_setFld_apart _ _ _ _ _ _ _ _ (by decide) (by decide) (by decide),
    Die.fld_setFld_apart _ _ _ _ _ _ _ _ (by decide) (by decide) (by decide), Die.fld_setFld_same _ _ _ _ _ (by decide)]
  rfl
theorem Die.plResult_section (x : Die) (f : Fail) : (x.plResult f).fld R.PL_RESULT_SECTION = f.sect % 256 := by
  unfold Die.plResult
  rw [Die.fld_setFld_apart _ _ _ _ _ _ _ _ (by decide) (by decide) (by decide), Die.fld_setFld_same _ _ _ _ _ (by decide)]
  rfl
theorem Die.plResult_item (x : Die) (f : Fail) : (x.plResult f).fld R.PL_RESULT_ITEM = f.item % 65536 :=
  Die.fld_setFld_same _ _ _ _ _ (by decide)
theorem Die.plResult_fld (x : Die) (f : Fail) (g : Fld) (h : fldAddr g 0 0 ≠ 0x3000C) : (x.plResult f).fld g = x.fld g := by
  unfold Die.plResult
  rw [Die.fld_setFld_addr _ _ _ _ _ _ _ _ h, Die.fld_setFld_addr _ _ _ _ _ _ _ _ h, Die.fld_setFld_addr _ _ _ _ _ _ _ _ h]

theorem State.plResult_eq (s : State) (f : Fail) :
    s.plResult f = if s.dual then (s.upd 0 fun x => x.plResult f).upd 1 fun x => x.plResult f else s.upd 0 fun x => x.plResult f := by
  simp only [State.plResult, State.setFld, State.upd_upd]
  rfl
theorem State.plResult_zero (s : State) (f : Fail) : (s.plResult f).die 0 = (s.die 0).plResult f := by
  rw [State.plResult_eq]
  split
  · rw [State.die_upd_other _ _ (by decide), State.die_upd_same]
  · rw [State.die_upd_same]
theorem State.plResult_one_mr (s : State) (f : Fail) : ((s.plResult f).die 1).mr = (s.die 1).mr := by
  rw [State.plResult_eq]
  split
  · rw [State.die_upd_same, State.die_upd_other _ _ (by decide)]; rfl
  · rw [State.die_upd_other _ _ (by decide)]
theorem State.plResult_dual (s : State) (f : Fail) : (s.plResult f).dual = s.dual := by
  have h : ((s.plResult f).die 0).fld R.SY_VARIANT_DUAL = (s.die 0).fld R.SY_VARIANT_DUAL := by
    rw [State.plResult_zero, Die.plResult_fld _ _ _ (by decide)]
  exact congrArg (· == 1) h
@[simp] theorem State.plResult_pkg (s : State) (f : Fail) : (s.plResult f).pkg = s.pkg := by
  rw [State.plResult_eq]; split <;> simp

/-- An event of the block PL and its record, on die 0. -/
def State.plNote (s : State) (f : Fld) (detail value : Nat) : State := (s.plEvent f detail).hb 0 (codeOf f) 0 value
theorem State.plNote_posted (s : State) (f : Fld) (detail value : Nat) : ((s.die 0).setFld f 1).Posted ((s.plNote f detail value).die 0) := by
  refine .trans ?_ (State.hbRecord_posted _ 0 0 _ _ _ _ _)
  have h := s.event_posted 0 f 0 detail
  unfold State.plEvent
  dsimp only
  split
  · rw [State.event_die_other _ _ _ _ (by decide)]; exact h
  · exact h
@[simp] theorem State.plNote_plans (s : State) (f : Fld) (detail value : Nat) : (s.plNote f detail value).pkg.plans = s.pkg.plans :=
  State.plans_of_agenda (by simp [State.plNote, State.hb])
theorem State.plNote_mr (s : State) (f : Fld) (detail value : Nat) : ((s.plNote f detail value).die 0).mr = (s.die 0).mr :=
  (s.plNote_posted f detail value).mr
theorem State.plNote_fld (s : State) (f : Fld) (detail value : Nat) (g : Fld) (q : Quiet (fldAddr g 0 0)) (h : fldAddr g 0 0 ≠ fldAddr f 0 0) :
    (s.plNote f detail value).fld 0 g = s.fld 0 g :=
  ((s.plNote_posted f detail value).fld g 0 0 q).trans (Die.fld_setFld_addr _ _ _ _ _ _ _ _ h)
theorem State.plNote_set (s : State) (f : Fld) (detail value : Nat) (q : Quiet (fldAddr f 0 0)) (h : f.lo ≤ f.hi ∧ f.hi < 32) :
    (s.plNote f detail value).fld 0 f = 1 % 2 ^ (f.hi - f.lo + 1) :=
  ((s.plNote_posted f detail value).fld f 0 0 q).trans (Die.fld_setFld_same _ _ _ _ _ h)

/-! ### Die 1's sections -/

/-- Sections on their way leave die 0's registers. -/
theorem State.sendSections_regs (s : State) (p : Plan) : ((s.sendSections 0 p).die 0).regs = (s.die 0).regs := by
  unfold State.sendSections
  dsimp only
  split
  · rfl
  · split
    · rfl
    · rw [State.sendPlan, State.die_upd_same]; rfl
/-- Die 0 has in hand the sections that die 1 has and has not received (R91). -/
theorem State.sendSections_queued {s : State} {p : Plan} (hd : s.dual = true) (hp : p.on 1 ≠ []) (h : (s.die 1).mr.sections ≠ some p) :
    (((s.sendSections 0 p).die 0).mr.planQ.any fun e => e.msg == .sections p) = true := by
  have own : (p.sects.filter fun e => e.on (peer 0)).isEmpty = false := by simpa [Plan.on, peer] using hp
  unfold State.sendSections
  dsimp only
  rw [if_neg (by simp only [hd, own]; simpa [peer] using h)]
  split
  next queued => exact queued
  next =>
    rw [State.sendPlan, State.die_upd_same]
    simp [Die.modMr]

/-! ### The end of a check -/

/-- The plan that an admission leaves pending: it came from the plan buffer, or it changes one that did. -/
def AdmitJob.admits (j : AdmitJob) (running : Option Plan) (p : Plan) : Plan :=
  { p with buffered := j.fromBuffer || match running with | some o => p.part && o.buffered | none => false }

theorem State.checkDone_failed (s : State) (j : AdmitJob) (f : Fail) (n : Nat) : s.checkDone j (.inl f) n =
    ((s.modPlans fun q => { q with job := none }).plResult f).plNote R.PL_EVENTS_REFUSED f.code f.code := rfl
/-- A check that fails is reported, and leaves the pending image. -/
theorem State.checkDone_failed_reports (s : State) (j : AdmitJob) (f : Fail) (n : Nat) :
    let r := s.checkDone j (.inl f) n
    r.pkg.plans = { s.pkg.plans with job := none } ∧ r.fld 0 R.PL_RESULT_CODE = f.code % 256 ∧
      r.fld 0 R.PL_RESULT_SECTION = f.sect % 256 ∧ r.fld 0 R.PL_RESULT_ITEM = f.item % 65536 ∧ r.fld 0 R.PL_EVENTS_REFUSED = 1 := by
  dsimp only
  rw [State.checkDone_failed]
  have result := (s.modPlans fun q => { q with job := none }).plResult_zero f
  refine ⟨by simp, ?_, ?_, ?_, State.plNote_set _ _ _ _ (by decide) (by decide)⟩
  all_goals rw [State.plNote_fld _ _ _ _ _ (by decide) (by decide), State.fld, result]
  · exact Die.plResult_code _ f
  · exact Die.plResult_section _ f
  · exact Die.plResult_item _ f

/-- The plan that has passed is pending, PL_RESULT shows no failure, and the sections of die 1 are on their way. -/
def State.passed (s : State) (p : Plan) : State :=
  ((s.modPlans fun q => { q with job := none, pend := some p }).plResult ⟨0, 0, 0⟩).sendSections 0 p
theorem State.passed_plans (s : State) (p : Plan) : (s.passed p).pkg.plans = { s.pkg.plans with job := none, pend := some p } := by
  refine (State.plans_of_agenda (State.sendSections_agenda _ 0 p)).trans ?_
  simp
theorem State.passed_code (s : State) (p : Plan) : (s.passed p).fld 0 R.PL_RESULT_CODE = 0 := by
  unfold State.passed State.fld Die.fld Die.reg
  rw [State.sendSections_regs, State.plResult_zero]
  exact Die.plResult_code _ _
theorem State.passed_queued {s : State} {p : Plan} (hd : s.dual = true) (hp : p.on 1 ≠ []) (h : (s.die 1).mr.sections ≠ some p) :
    (((s.passed p).die 0).mr.planQ.any fun e => e.msg == .sections p) = true :=
  State.sendSections_queued ((State.plResult_dual _ _).trans hd) hp (by rw [State.plResult_one_mr]; exact h)

theorem State.checkDone_passed (s : State) (j : AdmitJob) (p : Plan) (n : Nat) : s.checkDone j (.inr p) n =
    let r := (s.passed (j.admits s.pkg.plans.running p)).plNote R.PL_EVENTS_ADMITTED 0 n
    if j.startPlan then r.switchStart 0 0 else r := rfl
/-- A switch that starts requests the switch of the pending plan and does nothing else. -/
theorem State.switchStart_pending {s : State} {p : Plan} (h : s.pkg.plans.pend = some p) (t0 t1 : Nat) : s.switchStart t0 t1 =
    s.modPlans fun q => { q with request := some { t0 := t0, t1 := t1, held := p.part && !s.pkg.plans.brownOn.isEmpty, taken := [] } } := by
  simp only [State.switchStart, State.modPlans, State.updPkg, h]
/-- A plan that passes is pending; the start plan is switched at once. -/
theorem State.checkDone_passed_admits (s : State) (j : AdmitJob) (p : Plan) (n : Nat) :
    let r := s.checkDone j (.inr p) n
    let p' := j.admits s.pkg.plans.running p
    r.fld 0 R.PL_RESULT_CODE = 0 ∧ r.fld 0 R.PL_EVENTS_ADMITTED = 1 ∧
      (s.dual = true → p'.on 1 ≠ [] → (s.die 1).mr.sections ≠ some p' → ((r.die 0).mr.planQ.any fun e => e.msg == .sections p') = true) ∧
      r.pkg.plans = { s.pkg.plans with
        job := none, pend := some p'
        request := if j.startPlan then some { t0 := 0, t1 := 0, held := p'.part && !s.pkg.plans.brownOn.isEmpty, taken := [] }
          else s.pkg.plans.request } := by
  dsimp only
  rw [State.checkDone_passed]
  generalize j.admits s.pkg.plans.running p = p'
  have hplans : ((s.passed p').plNote R.PL_EVENTS_ADMITTED 0 n).pkg.plans = { s.pkg.plans with job := none, pend := some p' } :=
    (State.plNote_plans _ _ _ _).trans (s.passed_plans p')
  have hcode : ((s.passed p').plNote R.PL_EVENTS_ADMITTED 0 n).fld 0 R.PL_RESULT_CODE = 0 :=
    (State.plNote_fld _ _ _ _ _ (by decide) (by decide)).trans (s.passed_code p')
  have hset : ((s.passed p').plNote R.PL_EVENTS_ADMITTED 0 n).fld 0 R.PL_EVENTS_ADMITTED = 1 :=
    State.plNote_set _ _ _ _ (by decide) (by decide)
  have hmr := (s.passed p').plNote_mr R.PL_EVENTS_ADMITTED 0 n
  generalize (s.passed p').plNote R.PL_EVENTS_ADMITTED 0 n = r at hplans hcode hset hmr
  have hqueued (hd : s.dual = true) (hp : p'.on 1 ≠ []) (h : (s.die 1).mr.sections ≠ some p') :
      ((r.die 0).mr.planQ.any fun e => e.msg == .sections p') = true := by rw [hmr]; exact State.passed_queued hd hp h
  dsimp only
  cases j.startPlan with
  | false => exact ⟨hcode, hset, hqueued, hplans⟩
  | true =>
    rw [if_pos rfl, State.switchStart_pending (congrArg Plans.pend hplans)]
    refine ⟨hcode, hset, hqueued, ?_⟩
    rw [State.modPlans_plans, hplans]
    rfl

theorem State.admissionDone_image {s : State} {j : AdmitJob} (hj : s.pkg.plans.job = some j) (hl : j.library = none) :
    s.admissionDone = s.checkDone j (s.admission j.image) (num j.image 0x20 2) := by
  simp [State.admissionDone, hj, hl]
theorem State.libraryDone_entry {s : State} {j : AdmitJob} {n : Nat} (hj : s.pkg.plans.job = some j) (hl : j.library = some n) :
    s.libraryDone = s.checkDone j (s.entryAdmission n) 0 := by
  simp [State.libraryDone, hj, hl]

end Sys2Proof.Machine

namespace Sys2Proof
open Sys2Proof.Machine

/-- Settles O33: an accepted command is one change of the plans, and the end of a check is `checkDone` on its result. -/
theorem planRequests : Obligations.PlanRequests := by
  intro s d wr dt q held does
  have admitting {p : Plans} {j : AdmitJob} (hp : p.job = some j) (k : Nat) (hk : some 1 = some k) (r : State) (hr : r.pkg.plans = p) :
      r.plState = k :=
    (State.plState_admitting ((congrArg Plans.job hr).trans hp)).trans (Option.some.inj hk)
  refine ⟨fun h => ?_, fun h => ?_, fun h => ?_, fun h => ?_, ?_⟩
  · intro j
    refine State.plCtrl_accepted (f := fun q => { q with job := some j }) h (fun w => ?_) (admitting rfl)
    change (s.plCtrlStored d w).plCtrl d 1 = _
    rw [State.plCtrl_admit, State.plCtrlStored_fld _ _ _ _ _ (by decide)]
    simp [State.admitStart, j]
  · intro j
    refine State.plCtrl_accepted (f := fun q => { q with job := some j }) h (fun w => ?_) (admitting rfl)
    change (s.plCtrlStored d w).plCtrl d 8 = _
    rw [State.plCtrl_library, State.plCtrlStored_fld _ _ _ _ _ (by decide)]
    simp [j]
  · intro w
    refine State.plCtrl_accepted (f := fun q => { q with request := some w }) h (fun u => ?_) (fun k hk r hr => ?_)
    · change (s.plCtrlStored d u).plCtrl d 2 = _
      rw [State.plCtrl_switch, State.plCtrlStored_fld _ _ _ _ _ (by decide), State.plCtrlStored_fld _ _ _ _ _ (by decide)]
      simp only [State.switchStart, State.modPlans, State.updPkg, State.plCtrlStored_pkg]
      rfl
    · split at hk
      next hjob =>
        have hstate := State.plState_switching ((congrArg Plans.job hr).trans hjob) (congrArg Plans.request hr)
        rw [hstate, congrArg Plans.running hr]
        exact Option.some.inj hk
      next => cases hk
  · exact State.plCtrl_accepted (f := Plans.cancelled) h (fun w => State.plCtrl_cancel _ d) (fun _ hk => nomatch hk)
  · intro t j hj done
    have ends {i : Instr} {x : Fail ⊕ Plan} {n : Nat} (hi : exec i s = onDie s 0 true (t.checkDone j x n)) : done i x := by
      refine ⟨fun f hx => ?_, fun p hx => ?_⟩
      · subst hx
        rw [hi]
        exact completes_onDie (has_zero s) (t.checkDone_failed_reports j f n)
      · subst hx
        rw [hi]
        have admits := t.checkDone_passed_admits j p n
        rw [s.advance_plans dt, s.advance_die_mr dt] at admits
        exact completes_onDie (has_zero s) admits
    exact ⟨fun hl => ends (congrArg (onDie s 0 true) (State.admissionDone_image (s := t) hj hl)),
      fun n hl => ends (congrArg (onDie s 0 true) (State.libraryDone_entry (s := t) hj hl))⟩

end Sys2Proof
end

section
/-! What a slot command of a tile answers (R149, R150): the answer with the queue of commands as it was, slots that access scratch without
a fault (R118, R119), and the CTL slot. -/

namespace Sys2Proof.Machine

variable {s : State} {d : DieId} {t : Nat}

/-- A command that leaves the queue alone answers its effect. -/
theorem onDie_next_of_pending {r : State} (h : s.has d = true) (hp : r.pending = s.pending) : onDie s d true r = .next r := by
  rw [onDie_next r h, ← hp]

theorem State.slotReady_iff : s.slotReady d t = true ↔ s.has d = true ∧ ((s.die d).tile t).issues = true := Bool.and_eq_true_iff

/-- A bundle issues in an open window while its program runs and neither waits, nor idles, nor skips, nor is blank (R150). -/
theorem Tile.issues_iff (v : Tile) : v.issues = true ↔
    v.open_ = true ∧ v.running = true ∧ v.waiting = none ∧ v.idle = 0 ∧ v.skip = 0 ∧ v.blank = false := by
  simp [Tile.issues, and_assoc]

theorem State.setDie_die_self (s : State) (d : DieId) : s.setDie d (s.die d) = s := by
  unfold State.setDie State.die; split <;> rfl

/-- Without an injection an access meets the error that is there (R594). -/
theorem Die.eccOf_noInject (h : s.noInject d = true) (a b : Nat) (e : Ecc) : (s.die d).eccOf a b e = (e, s.die d) := by
  simp [Die.eccOf, List.isEmpty_iff.mp h]

/-- A scratch access that meets no error and no fault: the tile as the slot leaves it. -/
theorem slotMem_ready {f : TileFault → Tile → Tile × TileFault} {w : Tile} (h : s.slotReady d t = true) (hi : s.noInject d = true)
    (hf : f .none ((s.die d).tile t) = (w, .none)) : onDie s d true (s.slotMem d t .clean f) = .next (s.withTile d t w) := by
  obtain ⟨hd, ht⟩ := State.slotReady_iff.mp h
  have e : s.slotMem d t .clean f = s.withTile d t w := by
    unfold State.slotMem
    simp only [ht, if_true, Die.eccOf_noInject hi, eccFault, hf, State.setDie_die_self]
    rfl
  rw [e]
  exact onDie_next_of_pending hd (State.upd_pending _ _ _)

/-- The CTL slot of a tile that issues a bundle closes the bundle's cycle (log entry 8). -/
theorem ctl_ready (f : Tile → Tile) (h : s.slotReady d t = true) :
    onDie s d true (s.ctl d t f) = .next (s.withTile d t (f ((s.die d).tile t)).close) := by
  obtain ⟨hd, ht⟩ := State.slotReady_iff.mp h
  have ho : ((s.die d).tile t).open_ = true := ((Tile.issues_iff _).mp ht).1
  have e : s.ctl d t f = s.withTile d t (f ((s.die d).tile t)).close := by
    unfold State.ctl State.withTile State.upd
    simp only [ht, ho, if_true]
  rw [e]
  exact onDie_next_of_pending hd (State.upd_pending _ _ _)

theorem State.tile_withTile_same (s : State) (d : DieId) (t : Nat) (w : Tile) : ((s.withTile d t w).die d).tile t = w := by
  rw [State.withTile, State.die_upd_same, Die.tile_setTile_same]

/-- A result put on its way, and the step of an address register after it (R167). -/
theorem State.results_step (s : State) (d : DieId) (t n ar : Nat) (w : Wr) (p : Bool) (off : Int) :
    s.results d t ((n, w) :: if p then [(1, Wr.a ar (unsgn 20 (((s.die d).tile t).areg ar + off)))] else []) =
      s.withTile d t ((((s.die d).tile t).later n w).step ar p off) := by
  cases p
  · rfl
  · simp only [State.results, State.withTile, Tile.step, Tile.later, addA, Tile.areg, if_true, List.map_cons, List.map_nil,
      List.append_assoc, List.cons_append, List.nil_append]

theorem onType_of {k : TileType} {t : Fin 1536} (h : tileType t = k) : onType k t = true := by simp [onType, h]

end Sys2Proof.Machine
end

section
/-! Scratch accesses of the MEM slot in the banks that it has (R116, R117, R167 to R169): what a load reads, and what a store leaves in
and beside the bytes stored. -/

namespace Sys2Proof.Machine

/-! ### Loads -/

theorem vecOf_congr {f g : Nat → Byte} (h : ∀ i < 32, f i = g i) : vecOf f = vecOf g := by
  unfold vecOf
  congr 1
  funext i
  exact h i i.isLt

theorem Tile.memRead_ok {x : Tile} {i a n : Nat} (h : x.memOk i a n = true) : x.memRead i a n .none = (x.readScratch i a n, .none) := by
  simp [Tile.memRead, h]

/-- The vector that a read of 32 bytes makes. -/
theorem Tile.vecOfBytes_readScratch (x : Tile) (i a : Nat) :
    vecOfBytes (x.readScratch i a 32) = vecOf fun j => rdByte x.scratch ((a + j) % scratchSize i) :=
  vecOf_congr fun j hj => by simp [Tile.readScratch, wrapAddrs, List.getD, hj]

/-- A load of 32 bytes without a fault. -/
theorem Tile.loadAt_ok {x : Tile} {i a : Nat} (v : Nat) (h : x.memOk i a 32 = true) : x.loadAt i a v .none =
    (x.later 3 (.v v (vecOf fun j => rdByte x.scratch ((a + j) % scratchSize i)) (BitVec.allOnes 32)), .none) := by
  simp only [Tile.loadAt, Tile.memRead_ok h, Tile.vecOfBytes_readScratch]

theorem Tile.ld_ok {x : Tile} {i ar : Nat} {p : Bool} {off : Int} (v : Nat) (h : x.memOk i (x.gaddr i ar p off) 32 = true) :
    x.ld i v ar p off .none = ((x.later 3 (.v v (vecOf fun j => rdByte x.scratch ((x.gaddr i ar p off + j) % scratchSize i))
      (BitVec.allOnes 32))).step ar p (32 * off), .none) := by
  simp only [Tile.ld, Tile.loadAt_ok v h]
theorem Tile.ldu_ok {x : Tile} {i ar : Nat} {p : Bool} {off : Int} (v : Nat) (h : x.memOk i (x.addr i ar p off) 32 = true) :
    x.ldu i v ar p off .none = ((x.later 3 (.v v (vecOf fun j => rdByte x.scratch ((x.addr i ar p off + j) % scratchSize i))
      (BitVec.allOnes 32))).step ar p off, .none) := by
  simp only [Tile.ldu, Tile.loadAt_ok v h]
/-- A load of one byte into every lane. -/
theorem Tile.ldb_ok {x : Tile} {i ar : Nat} {p : Bool} {off : Int} (v : Nat) (h : x.memOk i (x.addr i ar p off) 1 = true) :
    x.ldb i v ar p off .none = ((x.later 3 (.v v (vecOf fun _ => rdByte x.scratch ((x.addr i ar p off + 0) % scratchSize i))
      (BitVec.allOnes 32))).step ar p off, .none) := by
  simp only [Tile.ldb, Tile.memRead_ok h]
  rfl

end Sys2Proof.Machine

namespace Sys2Proof
open Sys2Proof.Machine

/-- Settles O10: each load is a read of scratch without a fault, put on its way before the step of the address register. -/
theorem scratchLoads : Obligations.ScratchLoads := by
  intro s d t v ar post imm h hi x at_ byte step line g u
  have stepped (w : Wr) (off : Int) :
      (.next (s.withTile d t ((x.later 3 w).step ar post off)) : Result) = .next (s.results d t ((3, w) :: step off)) :=
    congrArg _ (s.results_step d t 3 ar w post off).symm
  refine ⟨fun hm => ?_, fun hm => ?_, fun hm => ?_⟩
  · exact (slotMem_ready h hi (Tile.ld_ok v hm)).trans (stepped _ _)
  · exact (slotMem_ready h hi (Tile.ldu_ok v hm)).trans (stepped _ _)
  · exact (slotMem_ready h hi (Tile.ldb_ok v hm)).trans (stepped _ _)

end Sys2Proof
end

section
/-! Stores to scratch (R116, R167 to R169): the bytes of an access stand at different addresses, so that each reads back, and every byte
that no access names reads as before. -/

namespace Sys2Proof.Machine

/-- A list of byte writes leaves what it does not name. -/
theorem rdByte_writes_other (l : List (Nat × Byte)) (m : Mem) {c : Nat} (h : ∀ e ∈ l, e.1 ≠ c) :
    rdByte (l.foldl (fun m e => wrByte m e.1 e.2) m) c = rdByte m c := by
  induction l generalizing m with
  | nil => rfl
  | cons e l ih =>
    rw [List.foldl_cons, ih _ fun e' he => h e' (List.mem_cons_of_mem _ he), rdByte_wrByte_other _ _ (h e List.mem_cons_self).symm]

/-- A byte written to an address that the list names once reads back. -/
theorem rdByte_writes_mem (l : List (Nat × Byte)) (m : Mem) (hl : (l.map Prod.fst).Nodup) {e : Nat × Byte} (he : e ∈ l) :
    rdByte (l.foldl (fun m e => wrByte m e.1 e.2) m) e.1 = e.2 := by
  induction l generalizing m with
  | nil => cases he
  | cons e' l ih =>
    obtain ⟨hnot, hnodup⟩ := List.nodup_cons.mp hl
    rw [List.foldl_cons]
    rcases List.mem_cons.mp he with rfl | he
    · rw [rdByte_writes_other l _ fun f hf heq => hnot (List.mem_map.mpr ⟨f, hf, heq⟩), rdByte_wrByte_same]
    · exact ih _ hnodup he

/-- The smallest scratch, that of an E-tile, has 64 KiB (R115). -/
theorem le_scratchSize (i : Nat) : 65536 ≤ scratchSize i := by
  unfold scratchSize
  cases tileType i <;> decide

/-- The addresses of an access that is no longer than the scratch differ (R169). -/
theorem wrapAddrs_nodup (i a : Nat) {n : Nat} (h : n ≤ scratchSize i) : (wrapAddrs i a n).Nodup := by
  refine List.Nodup.map_on (fun j hj k hk hjk => ?_) List.nodup_range
  exact Nat.ModEq.eq_of_lt_of_lt (Nat.ModEq.add_left_cancel' a hjk) ((List.mem_range.mp hj).trans_le h) ((List.mem_range.mp hk).trans_le h)

/-- In the memory `m` the bytes `l`, each at its offset from `a`, have been stored to the scratch of `x`, and nothing else. -/
structure Tile.Stored (x : Tile) (i a : Nat) (l : List (Nat × Byte)) (m : Mem) : Prop where
  bytes : ∀ e ∈ l, rdByte m ((a + e.1) % scratchSize i) = e.2
  others : ∀ b, (∀ e ∈ l, b ≠ (a + e.1) % scratchSize i) → rdByte m b = rdByte x.scratch b
  wf : Memory.wf x.scratch = true → Memory.wf m = true

/-- A write of scratch stores its bytes; those among them that scratch held before need no mention. -/
theorem Tile.writeScratch_stored {x : Tile} {i a : Nat} {bs : List Byte} {l : List (Nat × Byte)} (hlen : bs.length ≤ scratchSize i)
    (hl : ∀ e ∈ l, bs[e.1]? = some e.2)
    (hold : ∀ j (h : j < bs.length), (j, bs[j]) ∈ l ∨ bs[j] = rdByte x.scratch ((a + j) % scratchSize i)) :
    x.Stored i a l (x.writeScratch i a bs).scratch := by
  have hfst : ((wrapAddrs i a bs.length).zip bs).map Prod.fst = wrapAddrs i a bs.length :=
    List.map_fst_zip (by simp [wrapAddrs])
  have hread (j : Nat) (h : j < bs.length) : rdByte (x.writeScratch i a bs).scratch ((a + j) % scratchSize i) = bs[j] := by
    refine rdByte_writes_mem _ _ (hfst.symm ▸ wrapAddrs_nodup i a hlen :) (e := ((a + j) % scratchSize i, bs[j])) ?_
    exact List.mem_iff_getElem.mpr ⟨j, by simpa [wrapAddrs] using h, by simp [wrapAddrs]⟩
  refine ⟨fun e he => ?_, fun b hb => ?_, wf_writeScratch x i a bs⟩
  · obtain ⟨hj, heq⟩ := List.getElem?_eq_some_iff.mp (hl e he)
    rw [hread e.1 hj, heq]
  · by_cases hin : b ∈ wrapAddrs i a bs.length
    · obtain ⟨j, hj, rfl⟩ := List.mem_map.mp hin
      have hj := List.mem_range.mp hj
      rw [hread j hj]
      exact (hold j hj).resolve_left fun he => hb _ he rfl
    · exact rdByte_writes_other _ _ fun e he heq => hin (hfst ▸ heq ▸ List.mem_map_of_mem he)

/-- A store in the banks of the MEM slot meets no fault. -/
theorem Tile.memWrite_ok {x : Tile} {i a : Nat} {bs : List Byte} (h : x.memOk i a bs.length = true) :
    x.memWrite i a bs = (x.writeScratch i a bs, .none) := by simp [Tile.memWrite, h]

@[simp] theorem bytesOfVec_length (w : Vec) : (bytesOfVec w).length = 32 := by simp [bytesOfVec]

theorem Tile.getElem_bytesOfVec (x : Tile) (r j : Nat) (h : j < (bytesOfVec (x.vreg r)).length) :
    (bytesOfVec (x.vreg r))[j] = x.lane r j := by
  rw [bytesOfVec_length] at h
  simp [bytesOfVec, Tile.lane, Nat.mod_eq_of_lt h]

/-- The lanes of a register, each with its number. -/
def Tile.lanes (x : Tile) (r : Nat) : List (Nat × Byte) := (List.range 32).map fun i => (i, x.lane r i)

theorem Tile.mem_lanes {x : Tile} {r : Nat} {e : Nat × Byte} : e ∈ x.lanes r ↔ e.1 < 32 ∧ x.lane r e.1 = e.2 := by
  obtain ⟨j, b⟩ := e
  simp [Tile.lanes]

/-- All bytes of a register are stored. -/
theorem Tile.writeVec_stored (x : Tile) (i a r : Nat) : x.Stored i a (x.lanes r) (x.writeScratch i a (bytesOfVec (x.vreg r))).scratch := by
  have hsize := le_scratchSize i
  refine Tile.writeScratch_stored (by rw [bytesOfVec_length]; omega) (fun e he => ?_) fun j hj => .inl ?_
  · obtain ⟨hj, heq⟩ := Tile.mem_lanes.mp he
    exact List.getElem?_eq_some_iff.mpr ⟨by simpa using hj, by rw [x.getElem_bytesOfVec, heq]⟩
  · exact Tile.mem_lanes.mpr ⟨by simpa using hj, (x.getElem_bytesOfVec r j hj).symm⟩

/-- What STP writes: the lanes that the predicate names, and beside them the bytes that stand there (R168). -/
def Tile.masked (x : Tile) (i a r pr : Nat) : List Byte :=
  (List.range 32).map fun j => if (x.preg pr).getLsbD j then (x.vreg r)[j]! else rdByte x.scratch ((a + j) % scratchSize i)

@[simp] theorem Tile.masked_length (x : Tile) (i a r pr : Nat) : (x.masked i a r pr).length = 32 := by simp [Tile.masked]

theorem Tile.getElem_masked (x : Tile) (i a r pr j : Nat) (h : j < (x.masked i a r pr).length) :
    (x.masked i a r pr)[j] = if (x.preg pr).getLsbD j then x.lane r j else rdByte x.scratch ((a + j) % scratchSize i) := by
  rw [Tile.masked_length] at h
  simp [Tile.masked, Tile.lane, Nat.mod_eq_of_lt h]

/-- The lanes that the predicate names are stored. -/
theorem Tile.writeMasked_stored (x : Tile) (i a r pr : Nat) :
    x.Stored i a ((x.lanes r).filter fun e => (x.preg pr).getLsbD e.1) (x.writeScratch i a (x.masked i a r pr)).scratch := by
  have hsize := le_scratchSize i
  refine Tile.writeScratch_stored (by rw [Tile.masked_length]; omega) (fun e he => ?_) fun j hj => ?_
  · obtain ⟨hlane, hp⟩ := List.mem_filter.mp he
    obtain ⟨hj, heq⟩ := Tile.mem_lanes.mp hlane
    exact List.getElem?_eq_some_iff.mpr ⟨by simpa using hj, by rw [x.getElem_masked, if_pos hp, heq]⟩
  · rw [x.getElem_masked]
    split
    next hp => exact .inl (List.mem_filter.mpr ⟨Tile.mem_lanes.mpr ⟨by simpa using hj, rfl⟩, hp⟩)
    next => exact .inr rfl

/-- The bytes of the FIFO are stored. -/
theorem Tile.writeBytes_stored (x : Tile) (i a : Nat) {bs : List Byte} (h : bs.length ≤ scratchSize i) :
    x.Stored i a ((List.range bs.length).zip bs) (x.writeScratch i a bs).scratch := by
  refine Tile.writeScratch_stored h (fun e he => ?_) fun j hj => .inl ?_
  · obtain ⟨j, hj, rfl⟩ := List.mem_iff_getElem.mp he
    simp only [List.length_zip, List.length_range, min_self] at hj
    simp [hj]
  · exact List.mem_iff_getElem.mpr ⟨j, by simpa using hj, by simp⟩

/-- A write of scratch changes scratch alone; the second form is that of STBF, whose bytes are then to leave the FIFO. -/
theorem Tile.writeScratch_eq (x : Tile) (i a : Nat) (bs : List Byte) :
    x.writeScratch i a bs = { x with scratch := (x.writeScratch i a bs).scratch, due := x.due ++ [] } := by
  rw [List.append_nil]
  rfl
theorem Tile.writeScratch_later_eq (x : Tile) (i a : Nat) (bs : List Byte) (w : Wr) :
    (x.writeScratch i a bs).later 1 w = { x with scratch := (x.writeScratch i a bs).scratch, due := x.due ++ [(x.cycle + 1, w)] } := rfl

/-! ### The instructions -/

theorem Tile.st_ok {x : Tile} {i ar : Nat} {p : Bool} {off : Int} (v : Nat) (h : x.memOk i (x.gaddr i ar p off) 32 = true) :
    x.st i v ar p off = ((x.writeScratch i (x.gaddr i ar p off) (bytesOfVec (x.vreg v))).step ar p (32 * off), .none) := by
  simp only [Tile.st, Tile.memWrite_ok ((congrArg _ (bytesOfVec_length _)).trans h)]
theorem Tile.stu_ok {x : Tile} {i ar : Nat} {p : Bool} {off : Int} (v : Nat) (h : x.memOk i (x.addr i ar p off) 32 = true) :
    x.stu i v ar p off = ((x.writeScratch i (x.addr i ar p off) (bytesOfVec (x.vreg v))).step ar p off, .none) := by
  simp only [Tile.stu, Tile.memWrite_ok ((congrArg _ (bytesOfVec_length _)).trans h)]
theorem Tile.stp_ok {x : Tile} {i ar : Nat} {p : Bool} {off : Int} (v pr : Nat) (h : x.memOk i (x.gaddr i ar p off) 32 = true) :
    x.stp i v ar p pr off =
      ((x.writeScratch i (x.gaddr i ar p off) (x.masked i (x.gaddr i ar p off) v pr)).step ar p (32 * off), .none) := by
  have write := Tile.memWrite_ok ((congrArg _ (x.masked_length i (x.gaddr i ar p off) v pr)).trans h)
  exact congrArg (fun r : Tile × TileFault => (r.1.step ar p (32 * off), r.2)) write
theorem Tile.stbf_ok {x : Tile} {i ar : Nat} (p : Bool) (h : x.memOk i (x.addr i ar true 0) (x.fifoSeen.take 32).length = true) :
    x.stbf i ar p = (((x.writeScratch i (x.addr i ar true 0) (x.fifoSeen.take 32)).later 1 (.fifo (x.fifoSeen.take 32).length)).step ar p
      (x.fifoSeen.take 32).length, .none) := by
  simp only [Tile.stbf, Tile.memWrite_ok h]

end Sys2Proof.Machine

namespace Sys2Proof
open Sys2Proof.Machine

/-- Settles O11: each store is a write of scratch without a fault, of which `Tile.writeScratch_stored` says what it leaves. -/
theorem scratchStores : Obligations.ScratchStores := by
  intro s d t v ar post pr imm im h hi x n at_ stored all g u gp bs f
  have stores {i : Instr} {a : Nat} {l : List (Nat × Byte)} {off : Int} {gone : List (Nat × Wr)} {w : Tile} {m : Mem} (hm : x.Stored t a l m)
      (hw : w = { x with scratch := m, due := x.due ++ gone }) (hx : exec i s = .next (s.withTile d t (w.step ar post off))) :
      stored i a l off gone := ⟨m, hw ▸ hx, hm.bytes, hm.others, hm.wf⟩
  refine ⟨fun hm => ?_, fun hm => ?_, fun hm => ?_, fun hE hm => ?_⟩
  · exact stores (x.writeVec_stored t g v) (x.writeScratch_eq _ _ _) (slotMem_ready h hi (Tile.st_ok v hm))
  · exact stores (x.writeVec_stored t u v) (x.writeScratch_eq _ _ _) (slotMem_ready h hi (Tile.stu_ok v hm))
  · exact stores (x.writeMasked_stored t gp v pr) (x.writeScratch_eq _ _ _) (slotMem_ready h hi (Tile.stp_ok v pr hm))
  · have hsize := le_scratchSize t
    have hlen : bs.length ≤ 32 := List.length_take_le _ _
    refine stores (x.writeBytes_stored t f (by omega)) (x.writeScratch_later_eq t f bs _) ?_
    change onDie s d (onType .E t) _ = _
    rw [onType_of hE]
    exact slotMem_ready h hi (Tile.stbf_ok post hm)

end Sys2Proof
end

section
/-! Address registers and the ROUTE slot (R120, R122, R153 to R155, R167, R168). -/

namespace Sys2Proof.Machine

/-- The moves of an RT drive the four out-edges, in the order north, east, south, west (R153). -/
theorem State.route_ready {s : State} {d : DieId} {t : Nat} (h : s.slotReady d t = true) (srca : Nat) (dsta : BitVec 4) (srcb : Nat)
    (dstb : BitVec 4) (lv rin rv : Nat) : s.route d t srca dsta srcb dstb lv rin rv =
      (let src := (s.die d).tile t
       let edge (s : State) (dir : Nat) := s.routeEdge d t src (edgeSources srca dsta srcb dstb dir) lv dir
       let r := edge (edge (edge (edge s 1) 2) 3) 4
       if rin = 0 then r
       else r.upd d fun x => x.setTile t ((x.tile t).later 1 (.v rv (src.edge rin) (BitVec.allOnes 32)))) :=
  if_pos (State.slotReady_iff.mp h).2

/-- One source on an edge to a neighbour that has not come to the cycle in which the word is seen: the word is on its way (R122). -/
theorem State.routeEdge_one {s : State} {d : DieId} {t m dir : Nat} {src : Tile} (n lv : Nat) (hm : neighbour t dir = some m)
    (hc : ((s.die d).tile m).cycle < src.cycle + 2) : s.routeEdge d t src [n] lv dir =
      s.withTile d m { (s.die d).tile m with
        due := ((s.die d).tile m).due ++ [(src.cycle + 2, .edge (opposite dir) (src.source n lv))] } := by
  have arrives : ((s.die d).tile m).arrive (src.cycle + 2) (opposite dir) (src.source n lv) = { (s.die d).tile m with
      due := ((s.die d).tile m).due ++ [(src.cycle + 2, .edge (opposite dir) (src.source n lv))] } :=
    if_neg (Nat.not_le.mpr hc)
  simp only [State.routeEdge, hm, if_true, State.withTile, State.upd, arrives]

end Sys2Proof.Machine

namespace Sys2Proof
open Sys2Proof.Machine

/-- Settles O13: the address opcodes are single results; RT is the course of its four out-edges, of which at most one is driven. -/
theorem addressRegistersAndRoutes : Obligations.AddressRegistersAndRoutes := by
  intro s d t v ar q l imm h x put
  have hd := (State.slotReady_iff.mp h).1
  refine ⟨fun _ => slot_ready _ h, slot_ready _ h, fun _ => slot_ready _ h, fun hM _ => ?_, fun hM => ?_, fun rin rv hlo hhi => ?_,
    fun ht hc => ?_⟩
  · change onDie s d (onType .M t) _ = _
    rw [onType_of hM]
    exact slot_ready _ h
  · change onDie s d (onType .M t) _ = _
    rw [onType_of hM]
    exact slot_ready _ h
  · have hwf : Instr.wf (.rt d t 0 0 0 0 0 rin rv) = true := decide_eq_true ⟨Nat.zero_le _, Nat.zero_le _, hhi⟩
    have hr : s.route d t 0 0 0 0 0 rin rv = s.results d t [(1, .v rv (x.edge rin) (BitVec.allOnes 32))] := by
      rw [State.route_ready h]
      exact if_neg (by omega)
    change onDie s d _ (s.route d t 0 0 0 0 0 rin rv) = _
    rw [hwf, hr]
    exact onDie_next_of_pending hd (State.upd_pending _ _ _)
  · have hm : neighbour t 2 = some (t.val + 1) := if_neg ht
    have hr : s.route d t 1 4 0 0 l 0 0 = s.routeEdge d t x [1] l 2 := State.route_ready h 1 4 0 0 l 0 0
    change onDie s d true (s.route d t 1 4 0 0 l 0 0) = _
    rw [hr, State.routeEdge_one 1 l hm hc]
    exact onDie_next_of_pending hd (State.upd_pending _ _ _)

end Sys2Proof
end

section
/-! An edge collision while a full plan is switching in. Once one cadence of a die has switched, PL_BREACH_COUNT counts for the new plan; a
breach in a window that a cadence still runs by the old one is recorded and posted, and not counted there (R110, R111). -/

namespace Sys2Proof.Machine

/-- A package under a plan, whose full successor cadence 1 of die 0 has switched to and cadence 0, the master cadence, has not; tile 1 of
die 0 issues a bundle. -/
def midSwitch : State :=
  let old : Plan := { header := [], sects := [], id := 1, part := false, digest := [], named := [] }
  let req : SwitchReq := { t0 := 0, t1 := 0, held := false, taken := [1] }
  let plans : Plans := { running := some old, pend := some { old with id := 2 }, request := some req }
  let s := State.reset.updPkg fun p => { p with plans := plans }
  s.withTile 0 1 { open_ := true, running := true }

/-- What an RT of tile 1 leaves that directs `local` and the north in-edge to its east edge. -/
def collided : State := { midSwitch.route 0 1 1 4 2 4 0 0 0 with pending := midSwitch.pending }

theorem exec_collision : exec (.rt 0 1 1 4 2 4 0 0 0) midSwitch = .next collided := onDie_next _ (has_zero _)

/-- The collision is counted in VT_ROUTE_FAULTS and not in PL_BREACH_COUNT. -/
theorem collided_counts : collided.fld 0 R.VT_ROUTE_FAULTS = 1 ∧ collided.fld 0 R.PL_BREACH_KIND = 4 ∧ collided.fld 0 R.PL_BREACH_COUNT = 0 ∧
    midSwitch.fld 0 R.PL_BREACH_COUNT = 0 := by decide +kernel

end Sys2Proof.Machine

namespace Sys2Proof
open Sys2Proof.Machine

/-- Refutes O14: while a full plan switches in, a collision in a window that the old plan owns leaves PL_BREACH_COUNT as it was. -/
theorem not_edgeCollision : ¬ Obligations.EdgeCollision := by
  intro h
  obtain ⟨r, hr, -, -, -, hcount, -⟩ := h midSwitch 0 1 1 2 0 2 2 (by decide +kernel) (by decide) (by decide) rfl (by decide) (by decide)
    (by decide) (by decide) (by decide) (by decide +kernel)
  obtain rfl := Host.Outcome.next.inj (exec_collision.symm.trans hr)
  obtain ⟨-, -, hafter, hbefore⟩ := collided_counts
  rw [hafter, hbefore] at hcount
  cases hcount

end Sys2Proof
end

section
/-! The close of a cycle by the CTL slot (R128, R133, R171 to R175): the program moves on, the cycle number rises by 1, and what is seen from
then on lands. -/

namespace Sys2Proof.Machine

/-- Nothing lands where no result is on its way. -/
theorem Tile.settle_nothing {w : Tile} (h : w.due = []) : w.settle = w := by
  simp only [Tile.settle, h, List.filter_nil, List.map_nil, List.foldl_nil]
  rw [← h]

/-- A flag that is set lands when it is seen. -/
theorem Tile.settle_flag {w : Tile} {f : Nat} (h : w.due = [(w.cycle, .f f true)]) : w.settle = { w with due := [] }.land (.f f true) := by
  simp [Tile.settle, h, Wr.late, List.filter]

theorem Tile.enterSlack_unpaused {w : Tile} (h : w.paused = false) : w.enterSlack = w := by simp [Tile.enterSlack, h]

/-- A bundle issues in a running program, and no deferred program is paused. -/
structure Tile.Runs (w : Tile) : Prop where
  running : w.running = true
  waiting : w.waiting = none
  blank : w.blank = false
  paused : w.paused = false

/-- CTL opcodes that move the program alone leave it running. -/
theorem Tile.Runs.moved {w : Tile} (h : w.Runs) (l : List (Nat × Wr)) (ls : List LoopLevel) (b i n : Nat) :
    Tile.Runs { w with due := l, loops := ls, bundle := b, idle := i, skip := n } := ⟨h.running, h.waiting, h.blank, h.paused⟩

theorem Tile.Runs.advance {w : Tile} (h : w.Runs) : w.advance.Runs := by
  unfold Tile.advance
  split
  · exact h.moved _ _ _ _ _
  · exact h.moved _ _ _ _ _

@[simp] theorem Tile.advance_due (w : Tile) : w.advance.due = w.due := by unfold Tile.advance; split <;> rfl
@[simp] theorem Tile.advance_cycle (w : Tile) : w.advance.cycle = w.cycle := by unfold Tile.advance; split <;> rfl

/-- The cycle number rises by 1. -/
def Tile.tick (w : Tile) : Tile := { w with cycle := w.cycle + 1 }

/-- At the end of a cycle that was not blank the program has moved on to `m`, the cycle number rises, and what is seen lands. -/
theorem Tile.close_moved {w m : Tile} (hm : (if w.running && w.waiting.isNone then w.advance else w) = m) (hb : m.blank = false) :
    w.close = m.tick.settle.enterSlack := by
  have unblank : { m with cycle := m.cycle + 1, blank := false } = m.tick := by rw [← hb]; rfl
  rw [← unblank, ← hm]
  rfl

/-- The close of a cycle of a running program. -/
theorem Tile.Runs.close {w : Tile} (h : w.Runs) : w.close = w.advance.tick.settle.enterSlack :=
  Tile.close_moved (if_pos (by simp [h.running, h.waiting])) h.advance.blank

/-- Where nothing is on its way the program moves on and nothing else changes. -/
theorem Tile.Runs.close_nothing {w : Tile} (h : w.Runs) (hd : w.due = []) : w.close = w.advance.tick := by
  have hdue : w.advance.tick.due = [] := w.advance_due.trans hd
  have hpaused : w.advance.tick.paused = false := h.advance.paused
  rw [h.close, Tile.settle_nothing hdue, Tile.enterSlack_unpaused hpaused]

/-- A flag that is to be seen from the next cycle on lands as the program moves on. -/
theorem Tile.Runs.close_flag {w : Tile} {f : Nat} (h : w.Runs) (hd : w.due = [(w.cycle + 1, .f f true)]) :
    w.close = { w.advance.tick with due := [] }.land (.f f true) := by
  have hdue : w.advance.tick.due = [(w.advance.tick.cycle, .f f true)] := by
    rw [Tile.tick, w.advance_due, w.advance_cycle, hd]
  have hpaused : ({ w.advance.tick with due := [] }.land (.f f true)).paused = false := h.advance.paused
  rw [h.close, Tile.settle_flag hdue, Tile.enterSlack_unpaused hpaused]

/-- A program that has ended stays where it is. -/
theorem Tile.close_ended {w : Tile} (hr : w.running = false) (hb : w.blank = false) (hp : w.paused = false) (hd : w.due = []) :
    w.close = w.tick := by
  have hdue : w.tick.due = [] := hd
  have hpaused : w.tick.paused = false := hp
  rw [Tile.close_moved (if_neg (by simp [hr])) hb, Tile.settle_nothing hdue, Tile.enterSlack_unpaused hpaused]

/-! ### The bundle that follows -/

/-- A bundle issues outside idle cycles and skipped ranges, and no result is on its way. -/
structure Tile.Settled (w : Tile) : Prop extends w.Runs where
  idle : w.idle = 0
  skip : w.skip = 0
  due : w.due = []

/-- The next bundle outside idle cycles: what `loopNext` makes of the one that follows in the program store. -/
theorem Tile.advance_next {w : Tile} {b i : Nat} {ls : List LoopLevel} (hi : w.idle = 0) (hn : loopNext w.loops (w.bundle + 1) 0 = (b, ls, i)) :
    w.advance = { w with bundle := b, loops := ls, idle := i, skip := w.skip - 1 } := by
  simp only [Tile.advance, hi, hn]
  rfl

/-- CNOP: the program moves on. -/
theorem Tile.Settled.close_next {w : Tile} {b i : Nat} {ls : List LoopLevel} (h : w.Settled)
    (hn : loopNext w.loops (w.bundle + 1) 0 = (b, ls, i)) : w.close = { w with bundle := b, loops := ls, idle := i }.tick := by
  rw [h.close_nothing h.due, Tile.advance_next h.idle hn, h.skip, Nat.zero_sub, ← h.skip]

/-- A loop is entered at the bundle that follows, which lies in its body. -/
theorem Tile.Settled.close_enter {w : Tile} (h : w.Settled) {l : LoopLevel} (ls : List LoopLevel) (hl : w.bundle + 1 ≠ l.after) :
    Tile.close { w with loops := l :: ls } = { w with bundle := w.bundle + 1, loops := l :: ls }.tick := by
  have next : loopNext (l :: ls) (w.bundle + 1) 0 = (w.bundle + 1, l :: ls, 0) := if_neg hl
  have settled : Tile.Settled { w with loops := l :: ls } := ⟨⟨h.running, h.waiting, h.blank, h.paused⟩, h.idle, h.skip, h.due⟩
  rw [settled.close_next next, ← h.idle]

/-- IFP: a skipped range of `n` bundles starts with the bundle that follows (R174). -/
theorem Tile.Settled.close_ifp {w : Tile} (h : w.Settled) (p n : Nat) (hl : w.loops = []) :
    (w.ifp p n).close = { w with bundle := w.bundle + 1, skip := if (w.preg p).getLsbD 0 then 0 else n }.tick := by
  have next : loopNext w.loops (w.bundle + 1) 0 = (w.bundle + 1, w.loops, w.idle) := by rw [hl, h.idle]; rfl
  unfold Tile.ifp
  split
  · rw [h.close_next next, ← h.skip]
  · have runs : Tile.Runs { w with skip := n + 1 } := ⟨h.running, h.waiting, h.blank, h.paused⟩
    rw [runs.close_nothing h.due, Tile.advance_next (w := { w with skip := n + 1 }) h.idle next]
    rfl

/-! ### DLOOP (R173) -/

theorem Tile.dcount_eq (w : Tile) (g : Fin 32) : w.dcount g = (w.lane g 0).toNat + 256 * (w.lane ((g + 1) % 32) 0).toNat := by
  simp [Tile.dcount, Tile.group, leNat, List.range_succ, Nat.mod_eq_of_lt g.isLt]

/-- A count of 0 skips the body, and the cycles of all its iterations pass idle. -/
theorem Tile.Settled.close_dloop_zero {w : Tile} (h : w.Settled) {len g bound : Nat} (hl : w.loops = []) (hc : w.dcount g = 0) :
    (w.dloop len g bound).close = { w with bundle := w.bundle + 1 + len, idle := bound * len }.tick := by
  have skips : w.dloop len g bound = { w with bundle := w.bundle + 1 + len, idle := bound * len + 1 } := by
    simp [Tile.dloop, hc, hl, loopNext]
  have runs : Tile.Runs { w with bundle := w.bundle + 1 + len, idle := bound * len + 1 } := ⟨h.running, h.waiting, h.blank, h.paused⟩
  rw [skips, runs.close_nothing h.due]
  rfl

/-- A count within the bound. -/
theorem Tile.Settled.close_dloop_within {w : Tile} (h : w.Settled) {len g bound : Nat} (hlen : 1 ≤ len) (hc : w.dcount g ≠ 0)
    (hb : w.dcount g ≤ bound) : (w.dloop len g bound).close = { w with
      bundle := w.bundle + 1
      loops := ⟨w.bundle + 1, w.bundle + 1 + len, w.dcount g - 1, (bound - w.dcount g) * len⟩ :: w.loops }.tick := by
  have enters : w.dloop len g bound =
      { w with loops := ⟨w.bundle + 1, w.bundle + 1 + len, w.dcount g - 1, (bound - w.dcount g) * len⟩ :: w.loops } := by
    simp only [Tile.dloop, hb.not_gt, hc, if_false, Nat.min_eq_left hb]
  rw [enters]
  exact h.close_enter w.loops (by simp only; omega)

/-- A count above the bound stands for the bound, and sets f15. -/
theorem Tile.Settled.close_dloop_beyond {w : Tile} (h : w.Settled) {len g bound : Nat} (hlen : 1 ≤ len) (h1 : 1 ≤ bound)
    (hb : bound < w.dcount g) : (w.dloop len g bound).close = { w.land (.f 15 true) with
      bundle := w.bundle + 1
      loops := ⟨w.bundle + 1, w.bundle + 1 + len, bound - 1, 0⟩ :: w.loops }.tick := by
  let l : LoopLevel := ⟨w.bundle + 1, w.bundle + 1 + len, bound - 1, 0⟩
  have h0 : bound ≠ 0 := by omega
  have enters : w.dloop len g bound = { w with due := w.due ++ [(w.cycle + 1, .f 15 true)], loops := l :: w.loops } := by
    simp [Tile.dloop, hb, hb.le, h0, Tile.later, l]
  have next : loopNext (l :: w.loops) (w.bundle + 1) 0 = (w.bundle + 1, l :: w.loops, w.idle) := by
    rw [h.idle]
    exact if_neg (by simp only [l]; omega)
  have runs : Tile.Runs { w with due := w.due ++ [(w.cycle + 1, .f 15 true)], loops := l :: w.loops } :=
    ⟨h.running, h.waiting, h.blank, h.paused⟩
  have moves := Tile.advance_next (w := { w with due := w.due ++ [(w.cycle + 1, .f 15 true)], loops := l :: w.loops }) h.idle next
  rw [enters, runs.close_flag (by rw [h.due]; rfl), moves]
  simp [Tile.tick, Tile.land, h.due, h.skip, l]

/-! ### The end of a slack region (R133) -/

/-- SLACK_REGION_END of a tile that issues a bundle of a deferred program. -/
theorem slackRegionEnd_ready {s : State} {d : DieId} {t : Fin 1536} (h : s.slotReady d t = true) (hs : ((s.die d).tile t).prog.slack = true) :
    exec (.slackRegionEnd d t) s =
      .next (s.withTile d t (((s.die d).tile t).runTo ((s.die d).tile t).prog.length).slackEnd) := by
  obtain ⟨hd, ht⟩ := State.slotReady_iff.mp h
  have ho : ((s.die d).tile t).open_ = true := ((Tile.issues_iff _).mp ht).1
  have ends : (((s.die d).tile t).open_ && ((s.die d).tile t).prog.slack) = true := by rw [ho, hs]; rfl
  have hr : s.upd d (fun x => if (x.tile t).open_ && (x.tile t).prog.slack then x.setTile t ((x.tile t).runTo (x.tile t).prog.length).slackEnd
      else x) = s.withTile d t (((s.die d).tile t).runTo ((s.die d).tile t).prog.length).slackEnd := congrArg (s.setDie d) (if_pos ends)
  change onDie s d true (s.upd d _) = _
  rw [hr]
  exact onDie_next_of_pending hd (State.upd_pending _ _ _)

/-- Where no result is on its way, the cycles that pass change the cycle number alone. -/
theorem Tile.runTo_nothing {w : Tile} (h : w.due = []) (n : Nat) : w.runTo n = { w with cycle := max w.cycle n } := by
  have none : w.dueCycles = [] := by simp [Tile.dueCycles, h]
  unfold Tile.runTo
  rw [none]
  exact Tile.settle_nothing h

/-- A running deferred program pauses at its point. -/
theorem Tile.slackEnd_runTo {w : Tile} (hd : w.due = []) (hr : w.running = true) (n : Nat) : (w.runTo n).slackEnd = { w with
    cycle := max w.cycle n, saved := some w.point, paused := true, running := false, waiting := none, idle := 0, skip := 0, loops := [] } := by
  rw [Tile.runTo_nothing hd]
  exact if_pos hr

end Sys2Proof.Machine

namespace Sys2Proof
open Sys2Proof.Machine

/-- Settles O16: each CTL opcode closes the cycle of a running program; the lemmas on `Tile.close` say what follows. -/
theorem tileControlFlow : Obligations.TileControlFlow := by
  intro s d t len n count g bound p h v hdue hpaused hlen gives c beyond
  obtain ⟨hd, ht⟩ := State.slotReady_iff.mp h
  obtain ⟨hopen, hrun, hwait, hidle, hskip, hblank⟩ := (Tile.issues_iff v).mp ht
  have settled : v.Settled := ⟨⟨hrun, hwait, hblank, hpaused⟩, hidle, hskip, hdue⟩
  have hc : v.dcount g = c := v.dcount_eq g
  have closes {i : Instr} {f : Tile → Tile} {w : Tile} (hi : exec i s = onDie s d true (s.ctl d t f)) (hw : (f v).close = w.tick)
      (hcycle : w.cycle = v.cycle) : gives i w := by
    have ticked : { w with cycle := v.cycle + 1 } = w.tick := by rw [← hcycle]; rfl
    exact (hi.trans (ctl_ready f h)).trans (congrArg (fun w => Host.Outcome.next (s.withTile d t w)) (hw.trans ticked.symm))
  refine ⟨fun hl => ⟨?_, fun hcount => ?_, fun hbound _ => ?_, fun hp hn => ?_⟩, fun l hl hafter => ?_, ?_, fun hslack => ?_⟩
  · have next : loopNext v.loops (v.bundle + 1) 0 = (v.bundle + 1, v.loops, v.idle) := by rw [hl, hidle]; rfl
    exact closes (f := id) rfl (settled.close_next next) rfl
  · have hwf : Instr.wf (.loop d t len count) = true := by simp [Instr.wf, hlen, hcount]
    refine closes (f := Tile.loop len count.toNat) (by rw [← hwf]; rfl) ?_ rfl
    rw [← hl]
    exact settled.close_enter v.loops (by simp only; omega)
  · have hwf : Instr.wf (.dloop d t len g bound) = true := by simp [Instr.wf, hlen, hbound]
    have hi : exec (.dloop d t len g bound) s = onDie s d true (s.ctl d t (Tile.dloop len g bound)) := by rw [← hwf]; rfl
    by_cases hz : c = 0
    · have hbeyond : beyond = false := decide_eq_false (by omega)
      simp only [hbeyond, hz, if_true, Bool.false_eq_true, if_false]
      exact closes hi (settled.close_dloop_zero hl (hc.trans hz)) rfl
    by_cases hb : bound.val < c
    · have hbeyond : beyond = true := decide_eq_true hb
      simp only [hbeyond, hz, if_true, if_false, Nat.min_eq_right hb.le, Nat.sub_self, Nat.zero_mul]
      exact closes hi (hl ▸ settled.close_dloop_beyond hlen hbound (hc ▸ hb)) rfl
    · have hbeyond : beyond = false := decide_eq_false hb
      simp only [hbeyond, hz, Bool.false_eq_true, if_false, Nat.min_eq_left (not_lt.mp hb)]
      exact closes hi (hl ▸ hc ▸ settled.close_dloop_within hlen (hc ▸ hz) (hc ▸ not_lt.mp hb)) rfl
  · have hwf : Instr.wf (.ifp d t p n) = true := by simp [Instr.wf, hp, hn]
    exact closes (f := Tile.ifp p n) (by rw [← hwf]; rfl) (settled.close_ifp p n hl) rfl
  · by_cases hleft : 0 < l.left
    · have next : loopNext v.loops (v.bundle + 1) 0 = (l.first, [{ l with left := l.left - 1 }], v.idle) := by
        simp [hl, hidle, ← hafter, loopNext, hleft]
      rw [if_pos hleft]
      exact closes (f := id) rfl (settled.close_next next) rfl
    · have next : loopNext v.loops (v.bundle + 1) 0 = (v.bundle + 1, [], l.filler) := by
        simp [hl, ← hafter, loopNext, hleft]
      rw [if_neg hleft]
      exact closes (f := id) rfl (settled.close_next next) rfl
  · exact closes (f := Tile.end_) rfl (Tile.close_ended (w := v.end_) rfl hblank hpaused hdue) rfl
  · refine ⟨_, slackRegionEnd_ready h hslack, ?_⟩
    dsimp only
    rw [State.tile_withTile_same, Tile.slackEnd_runTo hdue hrun]
    exact ⟨rfl, rfl, by simp only [Tile.point, hskip, hidle, hwait], rfl, rfl⟩

end Sys2Proof
end

section
/-! What an access to DRAM leaves of a die (R463, R472, R479, R480): the rows last accessed, the row-hammer tables, the pending neighbour
refreshes and the reports of breaches change; the tiles, the array and the writes on their way to it do not. -/

namespace Sys2Proof.Machine

/-- The two ends of the slot ports of a die: its tiles, and the DRAM array with the writes on their way to it. -/
def Die.ports (x : Die) : Map Tile × Mem × List DramWrite := (x.tiles, x.cells, x.dram.writes)

@[simp] theorem Die.ports_mk (a b c t e f g h i j k l m dr o p q r u v w) :
    Die.ports ⟨a, b, c, t, e, f, g, h, i, j, k, l, m, dr, o, p, q, r, u, v, w⟩ = (t, dr.cells, dr.writes) := (rfl)
@[simp] theorem Die.setFld_ports (x : Die) (f : Fld) (v i j : Nat) : (x.setFld f v i j).ports = x.ports := (rfl)
@[simp] theorem Die.count_ports (x : Die) (f : Fld) (i n : Nat) : (x.count f i n).ports = x.ports := (rfl)
theorem Die.Posted.ports {x y : Die} (h : x.Posted y) : y.ports = x.ports := by rw [h.rest]; rfl

@[simp] theorem State.ports_eta (s : State) (d : DieId) : ((s.die d).tiles, s.stores.cells d, (s.die d).dram.writes) = (s.die d).ports := by
  rw [← State.die_cells]; rfl
@[simp] theorem State.ports_ite (c : Prop) [Decidable c] (s t : State) (d : DieId) :
    ((if c then s else t).die d).ports = if c then (s.die d).ports else (t.die d).ports := by split <;> rfl
@[simp] theorem State.setFld_ports (s : State) (d : DieId) (f : Fld) (v i j : Nat) : ((s.setFld d f v i j).die d).ports = (s.die d).ports := by
  simp [State.setFld]
@[simp] theorem State.count_ports (s : State) (d : DieId) (f : Fld) (i n : Nat) : ((s.count d f i n).die d).ports = (s.die d).ports := by
  simp [State.count]
@[simp] theorem State.event_ports (s : State) (d : DieId) (f : Fld) (i n : Nat) : ((s.event d f i n).die d).ports = (s.die d).ports :=
  (s.event_posted d f i n).ports
@[simp] theorem State.hbCad_ports (s : State) (d : DieId) (c n k v : Nat) (p : Bool) : ((s.hbCad d c n k v p).die d).ports = (s.die d).ports :=
  (s.hbRecord_posted d d c n _ p false).ports
@[simp] theorem State.eventCad_ports (s : State) (d : DieId) (f : Fld) (i n c v : Nat) (p : Bool) :
    ((s.eventCad d f i n c v p).die d).ports = (s.die d).ports := by simp [State.eventCad]
@[simp] theorem State.breach_ports (s : State) (d : DieId) (b : Breach) (frag : Nat) (cad : Option Nat) (p : Bool) :
    ((s.breach d b frag cad p).die d).ports = (s.die d).ports := by simp [State.breach]
@[simp] theorem State.forced_ports (s : State) (d : DieId) (r cause n : Nat) : ((s.forced d r cause n).die d).ports = (s.die d).ports := by
  simp [State.forced]
@[simp] theorem State.queueNeighbour_ports (s : State) (d : DieId) (r bank row : Nat) :
    ((s.queueNeighbour d r bank row).die d).ports = (s.die d).ports := by simp [State.queueNeighbour]
@[simp] theorem State.activation_ports (s : State) (d : DieId) (a : Nat) : ((s.activation d a).die d).ports = (s.die d).ports := by
  simp [State.activation]
@[simp] theorem State.touch_ports (s : State) (d : DieId) (a t : Nat) : ((s.touch d a t).die d).ports = (s.die d).ports := by
  simp [State.touch]

/-- Dies whose ports are the same have the same tiles, array and writes. -/
theorem Die.of_ports {x y : Die} (h : y.ports = x.ports) :
    (∀ i, y.tile i = x.tile i) ∧ y.dram.cells = x.dram.cells ∧ y.dram.writes = x.dram.writes := by
  obtain ⟨htiles, hcells, hwrites⟩ : y.tiles = x.tiles ∧ y.cells = x.cells ∧ y.dram.writes = x.dram.writes := by
    simpa only [Die.ports, Prod.mk.injEq] using h
  exact ⟨fun i => congrArg (fun m => mget _ m i) htiles, hcells, hwrites⟩

end Sys2Proof.Machine
end

section
/-! The DRAM slot port of an M-tile (R135 to R137, R168, R469, R471): what DRD and DWR put on their way, and what their completions leave. -/

namespace Sys2Proof.Machine

variable {s : State} {d : DieId} {t q ar : Nat} {incq inca : Bool}

/-- The steps of q and a after an access (R168). -/
theorem Tile.portStep_eq (v : Tile) (q ar : Nat) (incq inca : Bool) : v.portStep q ar incq inca = { v with due := v.due ++
    ((if incq then [(v.cycle + 1, Wr.q q (v.qreg q + 64))] else []) ++
      if inca then [(v.cycle + 1, Wr.a ar (unsgn 20 (v.areg ar + 64)))] else []) } := by
  cases incq <;> cases inca <;> simp [Tile.portStep, Tile.later, addA, Tile.areg]

/-- An access of tile `t` that leaves `w` in it. -/
theorem State.accessed_ports (s : State) (d : DieId) (t a n : Nat) (w : Tile) : (((s.withTile d t w).touch d a n).die d).tile t = w ∧
    (((s.withTile d t w).touch d a n).die d).dram.cells = (s.die d).dram.cells ∧
    (((s.withTile d t w).touch d a n).die d).dram.writes = (s.die d).dram.writes := by
  obtain ⟨htile, hcells, hwrites⟩ := Die.of_ports (State.touch_ports (s.withTile d t w) d a n)
  have taken : (s.withTile d t w).die d = (s.die d).setTile t w := State.die_upd_same _ _ _
  rw [htile, hcells, hwrites, taken]
  exact ⟨Die.tile_setTile_same _ _ _, rfl, rfl⟩

/-- A read that no rule refuses is on its way (R135). -/
theorem State.drd_ready (hi : ((s.die d).tile t).issues = true) (hf : (s.die d).portCheck t (((s.die d).tile t).qreg q) = .none) :
    s.drd d t q incq ar inca = (s.withTile d t { ((s.die d).tile t).portStep q ar incq inca with
      reads := ((s.die d).tile t).reads ++ [⟨((s.die d).tile t).qreg q, ((s.die d).tile t).portAddr t ar,
        (s.die d).dramRead (((s.die d).tile t).qreg q) 64, false, s.now⟩] }).touch d (((s.die d).tile t).qreg q) ((s.die d).tileStamp t) := by
  simp only [State.drd, hi, hf, if_true]
  rfl

theorem eccEntries_clean (a : Nat) {ecc : Nat → Bool} (h : ∀ k, ecc k = false) (bs : List Byte) : eccEntries a ecc bs = bs := by
  simp [eccEntries, h]

/-- A write that no rule refuses is on its way, with the bytes that scratch holds (R135, R471). -/
theorem State.dwr_ready (hi : ((s.die d).tile t).issues = true) (hn : s.noInject d = true)
    (hf : (s.die d).portCheck t (((s.die d).tile t).qreg q) = .none) : s.dwr d t q incq ar inca .clean .clean =
      ((s.withTile d t (((s.die d).tile t).portStep q ar incq inca)).touch d (((s.die d).tile t).qreg q) ((s.die d).tileStamp t)).upd d
        fun x => x.dramWrite s.now (((s.die d).tile t).qreg q)
          ((((s.die d).tile t).readScratch t (((s.die d).tile t).portAddr t ar) 64).map some) := by
  have clean (k : Nat) : ((if k = 0 then Ecc.clean else Ecc.clean) == Ecc.uncorrected) = false := by split <;> rfl
  simp only [State.dwr, Die.eccOf_noInject hn, hi, hf, if_true, State.setDie_die_self, eccFault, State.tileFault, eccEntries_clean 0 clean]
  rw [State.upd_now]
  rfl

theorem Die.setTile_setTile (x : Die) (i : Nat) (v w : Tile) : (x.setTile i v).setTile i w = x.setTile i w := by
  simp only [Die.setTile, mput_mput]

/-- The oldest write of a region reaches the array (R471). -/
theorem Dram.drain_first {x : Dram} {r : Nat} {w : DramWrite} (h : x.writes.find? (fun w => dramRegion w.addr == r) = some w) :
    x.drain r = { x with cells := w.apply x.cells, writes := x.writes.erase w } := by
  rw [Dram.drain, h]

/-- A read leaves the queue of its port. -/
def Die.takeRead (x : Die) (t : Nat) (rest : List PortRead) : Die := x.setTile t { x.tile t with reads := rest }

theorem Die.setTile_reads (x : Die) (t : Nat) (rest : List PortRead) : x.setTile t { x.tile t with reads := rest } = x.takeRead t rest := rfl

/-- A read that completes in time and without an error writes its data into scratch (R136, R137). -/
theorem State.readDone_ready {p : PortRead} {rest : List PortRead} (hr : ((s.die d).tile t).reads = p :: rest) (hp : p.faulted = false)
    (hlate : s.now - p.issued ≤ 320 * nsec) (hpert : (s.die d).pertSum 4 (dramRegion p.addr) 0 = 0) (hn : s.noInject d = true) :
    s.readDone d t .clean = s.withTile d t (Tile.writeScratch { (s.die d).tile t with reads := rest } t p.dest p.data) := by
  have taken : (s.upd d fun x => x.takeRead t rest).die d = (s.die d).takeRead t rest := State.die_upd_same _ _ _
  have hnow : (s.upd d fun x => x.takeRead t rest).now = s.now := State.upd_now _ _ _
  have hpert : ((s.upd d fun x => x.takeRead t rest).die d).pertSum 4 (dramRegion p.addr) 0 = 0 := by rw [taken]; exact hpert
  have hn : (s.upd d fun x => x.takeRead t rest).noInject d = true := by rw [State.noInject, taken]; exact hn
  have written : (s.upd d fun x => x.takeRead t rest).upd d (fun x => x.setTile t ((x.tile t).writeScratch t p.dest p.data)) =
      s.withTile d t (Tile.writeScratch { (s.die d).tile t with reads := rest } t p.dest p.data) := by
    simp only [State.upd_upd, Die.takeRead, Die.tile_setTile_same, Die.setTile_setTile]
    rfl
  have intime : decide (320 * nsec < s.now - p.issued + 0 * nsec) = false := decide_eq_false (by omega)
  rw [← written]
  simp only [State.readDone, hr, Die.setTile_reads, hp, hpert, hnow, intime, Die.eccOf_noInject hn, State.dramEcc,
    State.setDie_die_self, Bool.false_eq_true, if_false, reduceCtorEq]

end Sys2Proof.Machine

namespace Sys2Proof
open Sys2Proof.Machine

/-- Settles O15: an accepted access is on its way and leaves the ports of the die alone but for that; a completion is one write. -/
theorem tileDramPort : Obligations.TileDramPort := by
  intro s d t q ar incq inca dt rg hd hn x v a from_ steps
  have stepped : v.portStep q ar incq inca = { v with due := v.due ++ steps } := v.portStep_eq q ar incq inca
  refine ⟨fun hM hi hf => ⟨?_, ?_⟩, fun p rest hr hp hlate hpert => ?_, fun w hw => ?_⟩
  · change Completes (onDie s d (onType .M t) (s.drd d t q incq ar inca)) _
    rw [onType_of hM, State.drd_ready hi hf]
    refine completes_onDie hd ?_
    obtain ⟨htile, hports⟩ := s.accessed_ports d t a (x.tileStamp t) { v.portStep q ar incq inca with
      reads := v.reads ++ [⟨a, from_, rdBytes x.dram.view a 64, false, s.now⟩] }
    exact ⟨htile.trans (by rw [stepped]), hports⟩
  · change Completes (onDie s d (onType .M t) (s.dwr d t q incq ar inca .clean .clean)) _
    rw [onType_of hM, State.dwr_ready hi hn hf]
    refine completes_onDie hd ?_
    obtain ⟨htile, hcells, hwrites⟩ := s.accessed_ports d t a (x.tileStamp t) (v.portStep q ar incq inca)
    change ((State.upd _ d _).die d).tile t = _ ∧ ((State.upd _ d _).die d).dram.cells = _ ∧ ((State.upd _ d _).die d).dram.writes = _
    rw [State.die_upd_same]
    exact ⟨htile.trans stepped, hcells, congrArg (· ++ [_]) hwrites⟩
  · change Completes (onDie s d true ((s.advance dt).readDone d t .clean)) _
    have hdie : (s.advance dt).die d = { x with clk := ((s.advance dt).die d).clk } := s.advance_die_rest dt d
    have hready := State.readDone_ready (s := s.advance dt) (d := d) (t := t) (p := p) (rest := rest) (by rw [hdie]; exact hr) hp
      hlate (by rw [hdie]; exact hpert) (by rw [State.noInject, hdie]; exact hn)
    rw [hready, hdie]
    refine completes_onDie hd ⟨State.tile_withTile_same _ _ _ _, ?_⟩
    change ((State.withTile _ d t _).die d).dram = _
    rw [State.withTile, State.die_upd_same, hdie]
    rfl
  · have drained : (s.upd d fun x => { x with dram := x.dram.drain rg }).die d = { x with dram := x.dram.drain rg } := State.die_upd_same _ _ _
    have hdram := (congrArg Die.dram drained).trans (Dram.drain_first hw)
    have htiles := congrArg Die.tiles drained
    exact completes_onDie hd ⟨hdram, htiles⟩

end Sys2Proof
end

section
/-! The ALU opcodes of one lane as numbers (R157, R158, R182), for the 8 bits of a tile's lane and the 32 bits of a core's register alike. -/

namespace Sys2Proof.Machine

section Lane

variable {w : Nat} (a b : BitVec w) (k : Bool)

theorem opAdd_eq_ofNat : opAdd w a b k = BitVec.ofNat w (a.toNat + b.toNat) := by simp [opAdd, BitVec.ofNat_add]
theorem opAdc_eq_ofNat : opAdc w a b k = BitVec.ofNat w (a.toNat + b.toNat + b2n k) := by simp [opAdc, BitVec.ofNat_add]

/-- A difference modulo 2^w, with the multiple of 2^w that keeps it from falling below 0 (R157). -/
theorem ofNat_add_sub (m c n : Nat) (h : n ≤ c * 2 ^ w) : BitVec.ofNat w (m + c * 2 ^ w - n) = BitVec.ofNat w m - BitVec.ofNat w n := by
  rw [eq_sub_iff_add_eq, ← BitVec.ofNat_add, Nat.sub_add_cancel (by omega)]
  apply BitVec.eq_of_toNat_eq
  simp

theorem opSub_eq_ofNat : opSub w a b k = BitVec.ofNat w (a.toNat + 2 ^ w - b.toNat) := by
  have hb := b.isLt
  have borrow := ofNat_add_sub (w := w) a.toNat 1 b.toNat (by omega)
  simpa [opSub] using borrow.symm
theorem opSbb_eq_ofNat : opSbb w a b k = BitVec.ofNat w (a.toNat + 2 * 2 ^ w - b.toNat - b2n k) := by
  have hb := b.isLt
  have hw := Nat.two_pow_pos w
  have hk : b2n k ≤ 1 := by cases k <;> decide
  rw [Nat.sub_sub, ofNat_add_sub a.toNat 2 (b.toNat + b2n k) (by omega), BitVec.ofNat_add]
  simp [opSbb, BitVec.sub_sub]

theorem opShl_eq_ofNat : opShl w a b k = BitVec.ofNat w (a.toNat * 2 ^ b.toNat) :=
  BitVec.eq_of_toNat_eq (by simp [opShl, Nat.shiftLeft_eq])
theorem opShr_eq_ofNat : opShr w a b k = BitVec.ofNat w (a.toNat / 2 ^ b.toNat) := by
  apply BitVec.eq_of_toNat_eq
  have hlt : a.toNat / 2 ^ b.toNat < 2 ^ w := (Nat.div_le_self _ _).trans_lt a.isLt
  simp [opShr, Nat.shiftRight_eq_div_pow, Nat.mod_eq_of_lt hlt]
theorem opSar_eq_ofInt : opSar w a b k = BitVec.ofInt w (a.toInt / 2 ^ b.toNat) := by
  rw [← BitVec.ofInt_toInt (x := opSar w a b k), opSar, BitVec.toInt_sshiftRight, Int.shiftRight_eq_div_pow]
  norm_cast

theorem opMinu_eq_ofNat : opMinu w a b k = BitVec.ofNat w (min a.toNat b.toNat) := by
  unfold opMinu
  split
  next h => simp [Nat.min_eq_left h]
  next h => simp [Nat.min_eq_right (Nat.le_of_not_le h)]
theorem opMaxu_eq_ofNat : opMaxu w a b k = BitVec.ofNat w (max a.toNat b.toNat) := by
  unfold opMaxu
  split
  next h => simp [Nat.max_eq_right h]
  next h => simp [Nat.max_eq_left (Nat.le_of_not_le h)]
theorem opMins_eq_ofInt : opMins w a b k = BitVec.ofInt w (min a.toInt b.toInt) := by
  unfold opMins
  split
  next h => simp [Int.min_eq_left h]
  next h => simp [Int.min_eq_right (Int.le_of_not_le h)]
theorem opMaxs_eq_ofInt : opMaxs w a b k = BitVec.ofInt w (max a.toInt b.toInt) := by
  unfold opMaxs
  split
  next h => simp [Int.max_eq_right h]
  next h => simp [Int.max_eq_left (Int.le_of_not_le h)]
theorem opAbsd_eq_ofNat : opAbsd w a b k = BitVec.ofNat w (max a.toNat b.toNat - min a.toNat b.toNat) := by
  have hb := b.isLt
  have ha := a.isLt
  unfold opAbsd
  split
  next h =>
    rw [Nat.max_eq_right h, Nat.min_eq_left h]
    exact BitVec.eq_of_toNat_eq (by rw [BitVec.toNat_sub_of_le h, BitVec.toNat_ofNat, Nat.mod_eq_of_lt (by omega)])
  next h =>
    have h := Nat.le_of_not_le h
    rw [Nat.max_eq_left h, Nat.min_eq_right h]
    exact BitVec.eq_of_toNat_eq (by rw [BitVec.toNat_sub_of_le h, BitVec.toNat_ofNat, Nat.mod_eq_of_lt (by omega)])

theorem cmpEq_eq_decide : cmpEq a b = decide (a.toNat = b.toNat) :=
  (Bool.beq_eq_decide_eq a b).trans (decide_eq_decide.mpr BitVec.toNat_inj.symm)

end Lane

end Sys2Proof.Machine
end

section
/-! What an opcode of the ALU slot leaves in a tile that issues a bundle (R150, R157, R177): results on their way, each with its latency, and
nothing else. -/

namespace Sys2Proof.Machine

/-- The tile with results put on their way. -/
def Tile.put (v : Tile) (l : List (Nat × Wr)) : Tile := { v with due := v.due ++ l.map fun e => (v.cycle + e.1, e.2) }

theorem Tile.later_eq_put (v : Tile) (n : Nat) (x : Wr) : v.later n x = v.put [(n, x)] := rfl
theorem Tile.put_later (v : Tile) (l : List (Nat × Wr)) (n : Nat) (x : Wr) : (v.put l).later n x = v.put (l ++ [(n, x)]) := by
  simp [Tile.put, Tile.later]
theorem Tile.foldl_later (v : Tile) (l m : List (Nat × Wr)) : m.foldl (fun v e => v.later e.1 e.2) (v.put l) = v.put (l ++ m) := by
  induction m generalizing l with
  | nil => rw [List.append_nil]; rfl
  | cons e m ih => rw [List.foldl_cons, Tile.put_later, ih, List.append_assoc]; rfl
theorem Tile.outV_eq_put (v : Tile) (n vd p : Nat) (f : Nat → Byte) : v.outV n vd p f = v.put [(n, .v vd (vecOf f) (v.preg p))] := rfl
theorem Tile.outV_outK (v : Tile) (vd p : Nat) (f : Nat → Byte) (c : Nat → Bool) :
    (v.outV 1 vd p f).outK p c = v.put [(1, .v vd (vecOf f) (v.preg p)), (1, .k (maskOf c) (v.preg p))] :=
  v.put_later [(1, .v vd (vecOf f) (v.preg p))] 1 (.k (maskOf c) (v.preg p))

section Slot

variable {s : State} {d : DieId} {t : Fin 1536} {f : Tile → Tile} {ok : Bool}

/-- A well-formed slot command. -/
theorem slot_gives {w : Tile} (h : s.slotReady d t = true) (hok : ok = true) (hw : f ((s.die d).tile t) = w) :
    onDie s d ok (s.slot d t f) = .next (s.withTile d t w) := by
  rw [hok, slot_ready f h, hw]
/-- A well-formed slot command that puts results on their way. -/
theorem slot_puts {l : List (Nat × Wr)} (h : s.slotReady d t = true) (hok : ok = true) (hl : f ((s.die d).tile t) = ((s.die d).tile t).put l) :
    onDie s d ok (s.slot d t f) = .next (s.results d t l) := slot_gives h hok hl

variable {op : LaneOp} {carry : LaneCarry} {cmp : LaneCmp} {vd va vb p : Nat} {imm : Byte} {r : Nat → Byte} {c : Nat → Bool}

/-- An opcode of two registers, by what it does to a lane. -/
theorem alu_puts (h : s.slotReady d t = true) (hok : ok = true)
    (hr : ∀ i, op 8 (((s.die d).tile t).lane va i) (((s.die d).tile t).lane vb i) (((s.die d).tile t).k.getLsbD i) = r i) :
    onDie s d ok (s.slot d t (Tile.alu op vd va vb p)) = .next (s.results d t [(1, .v vd (vecOf r) (((s.die d).tile t).preg p))]) :=
  slot_puts h hok (by rw [Tile.alu, funext hr, Tile.outV_eq_put])
/-- An opcode of a register and an immediate. -/
theorem aluI_puts (h : s.slotReady d t = true) (hok : ok = true)
    (hr : ∀ i, op 8 (((s.die d).tile t).lane va i) imm (((s.die d).tile t).k.getLsbD i) = r i) :
    onDie s d ok (s.slot d t (Tile.aluI op vd va imm p)) = .next (s.results d t [(1, .v vd (vecOf r) (((s.die d).tile t).preg p))]) :=
  slot_puts h hok (by rw [Tile.aluI, funext hr, Tile.outV_eq_put])
/-- An opcode of two registers that writes k too. -/
theorem aluK_puts (h : s.slotReady d t = true) (hok : ok = true)
    (hr : ∀ i, op 8 (((s.die d).tile t).lane va i) (((s.die d).tile t).lane vb i) (((s.die d).tile t).k.getLsbD i) = r i)
    (hc : ∀ i, carry 8 (((s.die d).tile t).lane va i) (((s.die d).tile t).lane vb i) (((s.die d).tile t).k.getLsbD i) = c i) :
    onDie s d ok (s.slot d t (Tile.aluK op carry vd va vb p)) = .next (s.results d t
      [(1, .v vd (vecOf r) (((s.die d).tile t).preg p)), (1, .k (maskOf c) (((s.die d).tile t).preg p))]) :=
  slot_puts h hok (by rw [Tile.aluK, Tile.alu, funext hr, funext hc, Tile.outV_outK])
/-- An opcode of a register and an immediate that writes k too. -/
theorem aluIK_puts (h : s.slotReady d t = true) (hok : ok = true)
    (hr : ∀ i, op 8 (((s.die d).tile t).lane va i) imm (((s.die d).tile t).k.getLsbD i) = r i)
    (hc : ∀ i, carry 8 (((s.die d).tile t).lane va i) imm (((s.die d).tile t).k.getLsbD i) = c i) :
    onDie s d ok (s.slot d t (Tile.aluIK op carry vd va imm p)) = .next (s.results d t
      [(1, .v vd (vecOf r) (((s.die d).tile t).preg p)), (1, .k (maskOf c) (((s.die d).tile t).preg p))]) :=
  slot_puts h hok (by rw [Tile.aluIK, Tile.aluI, funext hr, funext hc, Tile.outV_outK])
/-- A comparison of two registers. -/
theorem cmp_puts (h : s.slotReady d t = true) (hok : ok = true)
    (hc : ∀ i, cmp 8 (((s.die d).tile t).lane va i) (((s.die d).tile t).lane vb i) = c i) :
    onDie s d ok (s.slot d t (Tile.cmp cmp vd va vb p)) = .next (s.results d t [(1, .p vd (maskOf c) (((s.die d).tile t).preg p))]) :=
  slot_puts h hok (by rw [Tile.cmp, funext hc, Tile.outP, Tile.later_eq_put])
/-- A comparison of a register and an immediate. -/
theorem cmpI_puts (h : s.slotReady d t = true) (hok : ok = true) (hc : ∀ i, cmp 8 (((s.die d).tile t).lane va i) imm = c i) :
    onDie s d ok (s.slot d t (Tile.cmpI cmp vd va imm p)) = .next (s.results d t [(1, .p vd (maskOf c) (((s.die d).tile t).preg p))]) :=
  slot_puts h hok (by rw [Tile.cmpI, funext hc, Tile.outP, Tile.later_eq_put])

end Slot

end Sys2Proof.Machine

namespace Sys2Proof
open Sys2Proof.Machine

/-- Settles O1: each opcode is one of a lane, whose result and carry are those of the numbers in it. -/
theorem tileCarryArithmetic : Obligations.TileCarryArithmetic := by
  intro s d t vd va vb imm p h v on a b k m put
  refine ⟨?_, ?_, ?_, ?_, ?_, ?_⟩
  · exact aluK_puts h rfl (fun i => opAdd_eq_ofNat _ _ _) fun i => rfl
  · exact aluK_puts h rfl (fun i => opAdc_eq_ofNat _ _ _) fun i => rfl
  · exact aluIK_puts h rfl (fun i => opAdd_eq_ofNat _ _ _) fun i => rfl
  · exact aluK_puts h rfl (fun i => opSub_eq_ofNat _ _ _) fun i => rfl
  · exact aluK_puts h rfl (fun i => opSbb_eq_ofNat _ _ _) fun i => rfl
  · exact aluIK_puts h rfl (fun i => opSub_eq_ofNat _ _ _) fun i => rfl

/-- Settles O2: each opcode is one of a lane; a shift moves its number by a power of 2. -/
theorem tileLogicAndShifts : Obligations.TileLogicAndShifts := by
  intro s d t vd va vb imm p h v a b put
  refine ⟨?_, ?_, ?_, ?_, ?_, ?_, ?_, ?_, ?_, fun hn => ?_⟩
  · exact alu_puts h rfl fun i => rfl
  · exact alu_puts h rfl fun i => rfl
  · exact alu_puts h rfl fun i => rfl
  · exact alu_puts h rfl fun i => rfl
  · exact aluI_puts h rfl fun i => rfl
  · exact aluI_puts h rfl fun i => rfl
  · exact aluI_puts h rfl fun i => rfl
  · exact alu_puts h rfl fun i => rfl
  · exact aluI_puts h rfl fun i => rfl
  · have hform : shiftForm (.tile d t) imm = true := decide_eq_true hn
    exact ⟨aluI_puts h hform fun i => opShl_eq_ofNat _ _ _, aluI_puts h hform fun i => opShr_eq_ofNat _ _ _,
      aluI_puts h hform fun i => opSar_eq_ofInt _ _ _⟩

/-- Settles O3: each opcode is one of a lane; SEL takes p0, which names every lane. -/
theorem tileSaturationAndChoice : Obligations.TileSaturationAndChoice := by
  intro s d t vd va vb p h v a b put clamp
  refine ⟨?_, ?_, ?_, ?_, ?_, ?_, ?_, ?_, ?_, ?_, ?_⟩
  · exact alu_puts h rfl fun i => rfl
  · exact alu_puts h rfl fun i => rfl
  · exact alu_puts h rfl fun i => rfl
  · exact alu_puts h rfl fun i => rfl
  · exact alu_puts h rfl fun i => rfl
  · exact alu_puts h rfl fun i => opAbsd_eq_ofNat _ _ _
  · exact alu_puts h rfl fun i => opMinu_eq_ofNat _ _ _
  · exact alu_puts h rfl fun i => opMaxu_eq_ofNat _ _ _
  · exact alu_puts h rfl fun i => opMins_eq_ofInt _ _ _
  · exact alu_puts h rfl fun i => opMaxs_eq_ofInt _ _ _
  · exact slot_puts h rfl rfl

/-- Settles O4: a comparison is one of a lane; KTOP and PTOK are single results, and the three no-operations leave the state. -/
theorem tileComparesAndPredicates : Obligations.TileComparesAndPredicates := by
  intro s d t vd va vb imm p h v a b on put
  have hd := (State.slotReady_iff.mp h).1
  refine ⟨fun hvd => ?_, fun hva => ?_, ?_, ?_, ?_⟩
  · have hdest : predDest vd = true := decide_eq_true hvd
    refine ⟨?_, ?_, ?_, ?_, ?_, ?_⟩
    · exact cmp_puts h hdest fun i => cmpEq_eq_decide _ _
    · exact cmp_puts h hdest fun i => rfl
    · exact cmp_puts h hdest fun i => rfl
    · exact cmpI_puts h hdest fun i => cmpEq_eq_decide _ _
    · exact cmpI_puts h hdest fun i => rfl
    · exact slot_puts h hdest rfl
  · exact slot_puts h (decide_eq_true hva) rfl
  · have same : (if ((s.die d).tile t).issues then s.bundleEcc d t .clean else s) = s := ite_self s
    exact onDie_next_of_pending hd (congrArg State.pending same) |>.trans (congrArg _ same)
  · exact onDie_next_of_pending hd rfl
  · exact onDie_next_of_pending hd rfl

end Sys2Proof
end

section
/-! The opcodes that move bytes and bits between lanes (R158, R160). -/

namespace Sys2Proof.Machine

/-- A field of `n` bits of a byte. -/
theorem ushiftRight_and_eq_ofNat (a m : Byte) (j n : Nat) (hm : m.toNat = 2 ^ n - 1) :
    (a >>> j) &&& m = BitVec.ofNat 8 (a.toNat / 2 ^ j % 2 ^ n) := by
  apply BitVec.eq_of_toNat_eq
  have hlt : a.toNat / 2 ^ j % 2 ^ n < 2 ^ 8 := (Nat.mod_le _ _).trans_lt ((Nat.div_le_self _ _).trans_lt a.isLt)
  rw [BitVec.toNat_and, hm, Nat.and_two_pow_sub_one_eq_mod, BitVec.toNat_ushiftRight, Nat.shiftRight_eq_div_pow, BitVec.toNat_ofNat,
    Nat.mod_eq_of_lt hlt]

theorem laneJoinl_eq (n : Nat) (a b : Byte) : laneJoinl n a b = BitVec.ofNat 8 (a.toNat * 2 ^ n) ||| b :=
  congrArg (· ||| b) (BitVec.eq_of_toNat_eq (by simp [Nat.shiftLeft_eq]))
theorem laneJoinh_eq (n : Nat) (a : Byte) : laneJoinh n a = BitVec.ofNat 8 (a.toNat / 2 ^ (8 - n)) := by
  apply BitVec.eq_of_toNat_eq
  have hlt : a.toNat / 2 ^ (8 - n) < 2 ^ 8 := (Nat.div_le_self _ _).trans_lt a.isLt
  rw [laneJoinh, BitVec.toNat_ushiftRight, Nat.shiftRight_eq_div_pow, BitVec.toNat_ofNat, Nat.mod_eq_of_lt hlt]

end Sys2Proof.Machine

namespace Sys2Proof
open Sys2Proof.Machine

/-- Settles O5: each opcode is a single result, lane by lane. -/
theorem tileLaneRearrangement : Obligations.TileLaneRearrangement := by
  intro s d t vd va vb imm p h v a b n put part
  refine ⟨fun hn => ?_, ?_, ?_, fun hn => ?_, fun hn => ?_, fun hn => ?_⟩
  · exact ⟨slot_puts h (decide_eq_true hn) rfl, slot_puts h (decide_eq_true hn) rfl⟩
  · exact slot_puts h rfl rfl
  · exact slot_puts h rfl rfl
  · have field (i : Nat) : (a (8 * n + i / 4) >>> (2 * (i % 4))) &&& 3#8 = BitVec.ofNat 8 ((a (8 * n + i / 4)).toNat / 4 ^ (i % 4) % 4) := by
      rw [ushiftRight_and_eq_ofNat _ 3#8 _ 2 rfl, Nat.pow_mul]
      rfl
    refine ⟨slot_puts h (decide_eq_true hn) (congrArg (v.outV 1 vd p) (funext field)), slot_puts h (decide_eq_true hn) ?_⟩
    simp [Tile.rpk2, Tile.later_eq_put, List.range_succ, v, a, n]
  · have field (i : Nat) : (a (16 * n + i / 2) >>> (4 * (i % 2))) &&& 15#8 =
        BitVec.ofNat 8 ((a (16 * n + i / 2)).toNat / 16 ^ (i % 2) % 16) := by
      rw [ushiftRight_and_eq_ofNat _ 15#8 _ 4 rfl, Nat.pow_mul]
      rfl
    exact ⟨slot_puts h (decide_eq_true hn) (congrArg (v.outV 1 vd p) (funext field)), slot_puts h (decide_eq_true hn) rfl⟩
  · have hform : (imm == 2 || imm == 4) = true := by
      rw [Bool.or_eq_true, beq_iff_eq, beq_iff_eq, ← BitVec.toNat_inj, ← BitVec.toNat_inj]
      exact hn
    exact ⟨slot_puts h hform (congrArg (v.outV 1 vd p) (funext fun i => laneJoinl_eq n _ _)),
      slot_puts h hform (congrArg (v.outV 1 vd p) (funext fun i => laneJoinh_eq n _))⟩

end Sys2Proof
end

section
/-! The type-specific ALU opcodes (R151, R160 to R166): a tile of the opcode's type, and the registers and immediates that its row allows. -/

namespace Sys2Proof.Machine

/-- The form of an opcode that stands on a tile of its type. -/
theorem onType_and {k : TileType} {t : Fin 1536} {p : Prop} [Decidable p] (ht : tileType t = k) (hp : p) :
    (onType k t && decide p) = true := by
  rw [onType_of ht, decide_eq_true hp]
  rfl

/-! ### S-tiles -/

theorem absDiff_eq (a b : Byte) : absDiff a b = max a.toNat b.toNat - min a.toNat b.toNat := by
  unfold absDiff
  omega
theorem Tile.sadSum_eq (v : Tile) (va vb p : Nat) : v.sadSum va vb p = (List.range 32).foldl (fun n i => n +
    if (v.preg p).getLsbD i then max (v.lane va i).toNat (v.lane vb i).toNat - min (v.lane va i).toNat (v.lane vb i).toNat else 0) 0 := by
  simp only [Tile.sadSum, absDiff_eq]
theorem Tile.diffs_zero (v : Tile) (va vb n : Nat) :
    v.diffs va vb 0 n = (List.range n).map fun i => ((v.lane va i).toNat : Int) - (v.lane vb i).toNat := by
  simp only [Tile.diffs, Nat.zero_add]
/-- DCLR: the best list and every accumulator are cleared. -/
theorem Tile.dclr_eq_put (v : Tile) : v.dclr = v.put ((1, .best []) :: (List.range 16).map fun r => (1, .d r 0)) := by
  have folded := v.foldl_later [(1, .best [])] ((List.range 16).map fun r => (1, .d r 0))
  rw [List.foldl_map] at folded
  exact folded

/-! ### T-tiles -/

theorem replicate_eq_ofFn {α : Type} (n : Nat) (x : α) : Vector.replicate n x = Vector.ofFn fun _ => x :=
  Vector.ext fun i hi => by simp

/-- A product put into an accumulator. -/
theorem Tile.mac_false (v : Tile) (p : Nat → Int) (vd sh pred : Nat) : v.mac false p vd sh pred =
    v.put [(3, .m vd (Vector.ofFn fun i => BitVec.ofInt 32 (p i.val * 2 ^ (8 * sh))) (v.preg pred))] := by
  simp [Tile.mac, Tile.later_eq_put]
/-- A product that is not shifted. -/
theorem Tile.mac_unshifted (v : Tile) (p : Nat → Int) (vd pred : Nat) : v.mac true p vd 0 pred =
    v.put [(3, .m vd (Vector.ofFn fun i => (v.macc vd)[i.val]! + BitVec.ofInt 32 (p i.val)) (v.preg pred))] := by
  simp [Tile.mac, Tile.later_eq_put]

theorem Tile.mclr_one (v : Tile) {vd : Nat} (p : Nat) (h : vd ≤ 1) :
    v.mclr vd p = v.put [(1, .m vd (Vector.ofFn fun _ => 0) (v.preg p))] := by
  rw [Tile.mclr, if_neg (by omega), zeroAcc, replicate_eq_ofFn, Tile.later_eq_put]
theorem Tile.mclr_both (v : Tile) (p : Nat) :
    v.mclr 2 p = v.put [(1, .m 0 (Vector.ofFn fun _ => 0) (v.preg p)), (1, .m 1 (Vector.ofFn fun _ => 0) (v.preg p))] := by
  rw [Tile.mclr, if_pos rfl, zeroAcc, replicate_eq_ofFn, v.later_eq_put, Tile.put_later]
  rfl

end Sys2Proof.Machine

namespace Sys2Proof
open Sys2Proof.Machine

/-- Settles O6: each opcode of an S-tile is a single result, DCLR one for the best list and one for each accumulator. -/
theorem searchTileCosts : Obligations.SearchTileCosts := by
  intro s d t vd va vb imm p h ht v a b sad put diff
  refine ⟨fun hvd => ⟨?_, ?_, ?_, ?_, fun hva hvb => ?_⟩, fun hva => ?_, fun himm => ⟨?_, ?_⟩, ?_⟩
  · exact slot_puts h (onType_and ht hvd) (by rw [Tile.sad, Tile.sadSum_eq, Tile.later_eq_put])
  · exact slot_puts h (onType_and ht hvd) (by rw [Tile.sadz, Tile.sadSum_eq, Tile.later_eq_put])
  · exact slot_puts h (onType_and ht hvd) (by rw [Tile.satd4, Tile.diffs_zero, Tile.later_eq_put]; rfl)
  · exact slot_puts h (onType_and ht hvd) rfl
  · exact slot_puts h (onType_and ht ⟨hvd, hva, hvb⟩) (by rw [Tile.satd8, Tile.diffs_zero, Tile.diffs_zero, Tile.later_eq_put])
  · exact slot_puts h (onType_and ht hva) rfl
  · exact slot_puts h (onType_and ht himm) rfl
  · exact slot_puts h (onType_and ht himm) rfl
  · exact slot_puts h (onType_of ht) (Tile.dclr_eq_put _)

/-- Settles O7: each opcode of a T-tile is a single result, MCLR of both accumulators two. -/
theorem transformTileProducts : Obligations.TransformTileProducts := by
  intro s d t vd va vb imm p h ht v a b on m acc put sh
  refine ⟨fun hvd => ⟨fun himm => ⟨?_, ?_, ?_, ?_⟩, fun himm => ?_, ?_, ?_⟩, ?_, fun hva => ?_, ?_⟩
  · exact slot_puts h (onType_and ht ⟨hvd, himm⟩) (Tile.mac_false _ _ _ _ _)
  · exact slot_puts h (onType_and ht ⟨hvd, himm⟩) rfl
  · exact slot_puts h (onType_and ht ⟨hvd, himm⟩) rfl
  · exact slot_puts h (onType_and ht ⟨hvd, himm⟩) rfl
  · exact slot_puts h (onType_and ht ⟨hvd, himm⟩) (Tile.mac_unshifted _ _ _ _)
  · exact slot_puts h (onType_and ht hvd) rfl
  · exact slot_puts h (onType_and ht (hvd.trans (by decide))) (Tile.mclr_one _ _ hvd)
  · exact slot_puts h (onType_and ht (by decide)) (Tile.mclr_both _ _)
  · exact slot_puts h (onType_and ht hva) rfl
  · exact slot_puts h (onType_of ht) rfl

/-- Settles O8: CINIT, CBASE and CSTART change the coder at once, the other opcodes are single results. -/
theorem coderTileContexts : Obligations.CoderTileContexts := by
  intro s d t vd va vb imm p h ht v c a b now
  refine ⟨fun himm => ?_, ?_, ?_, ?_, fun himm => ?_, ?_⟩
  · have five : imm.toNat % 32 = imm.toNat := Nat.mod_eq_of_lt (by omega)
    exact slot_gives h (onType_and ht himm) (by rw [Tile.cinit, five])
  · exact slot_gives h (onType_of ht) rfl
  · exact slot_puts h (onType_of ht) rfl
  · exact slot_puts h (onType_of ht) rfl
  · exact slot_gives h (onType_and ht himm) rfl
  · exact slot_puts h (onType_of ht) rfl

end Sys2Proof
end

section
/-! The scalar subset and the CTL opcodes on a control core (R181 to R185): the register that an instruction writes, the carry, and the address
of the instruction that follows. -/

namespace Sys2Proof.Machine

@[simp] theorem CoreRegs.set_pc (g : CoreRegs) (r : Nat) (w : W32) : (g.set r w).pc = g.pc := by unfold CoreRegs.set; split <;> rfl
@[simp] theorem CoreRegs.set_c (g : CoreRegs) (r : Nat) (w : W32) : (g.set r w).c = g.c := by unfold CoreRegs.set; split <;> rfl

/-- What an instruction leaves that writes one register: the next instruction follows. -/
theorem CoreRegs.set_next (g : CoreRegs) (r : Nat) (w : W32) : (g.set r w).next = { g.set r w with pc := g.pc + 4 } := by
  rw [CoreRegs.next, CoreRegs.set_pc]
/-- Without a carry of its own an instruction leaves C. -/
theorem CoreRegs.set_next_c (g : CoreRegs) (r : Nat) (w : W32) : (g.set r w).next = { g.set r w with c := g.c, pc := g.pc + 4 } := by
  rw [← g.set_c r w, CoreRegs.set_next]

/-- A byte in a register: IMM is zero-extended (R182). -/
theorem zeroExtend_imm (imm : Byte) : imm.zeroExtend 32 = BitVec.ofNat 32 imm.toNat := (BitVec.ofNat_toNat 32 imm).symm
theorem toNat_imm (imm : Byte) : (BitVec.ofNat 32 imm.toNat).toNat = imm.toNat := by
  have h := imm.isLt
  rw [BitVec.toNat_ofNat, Nat.mod_eq_of_lt (by omega)]

section Core

variable {s : State} {d : DieId} {c : Fin 8} {ok : Bool}

/-- A well-formed instruction of a core whose thread runs, by what it leaves in the core's registers. -/
theorem coreStep_gives {n : Nat} {f : CoreRegs → CoreRegs} {g : CoreRegs} (h : s.coreReady d c = true) (hok : ok = true)
    (hg : f (s.regsOf d c) = g) : onDie s d ok (s.coreStep d c n f) = .next (s.ran d c n g) := by
  rw [hok, coreStep_ready n f h, hg]

variable {op : LaneOp} {carry : LaneCarry} {cmp : LaneCmp} {vd va vb : Nat} {imm : Byte} {w : W32} {k : Bool}

/-- An opcode of two registers, by what it does to one lane of 32 bits. -/
theorem core_alu (h : s.coreReady d c = true) (hok : ok = true)
    (hw : op 32 ((s.regsOf d c).get va) ((s.regsOf d c).get vb) (s.regsOf d c).c = w) :
    onDie s d ok (s.coreStep d c 1 (CoreRegs.alu op vd va vb)) =
      .next (s.ran d c 1 { (s.regsOf d c).set vd w with c := (s.regsOf d c).c, pc := (s.regsOf d c).pc + 4 }) :=
  coreStep_gives h hok (by rw [CoreRegs.alu, hw, CoreRegs.set_next_c])
/-- An opcode of a register and an immediate. -/
theorem core_aluI (h : s.coreReady d c = true) (hok : ok = true)
    (hw : op 32 ((s.regsOf d c).get va) (BitVec.ofNat 32 imm.toNat) (s.regsOf d c).c = w) :
    onDie s d ok (s.coreStep d c 1 (CoreRegs.aluI op vd va imm)) =
      .next (s.ran d c 1 { (s.regsOf d c).set vd w with c := (s.regsOf d c).c, pc := (s.regsOf d c).pc + 4 }) :=
  coreStep_gives h hok (by rw [CoreRegs.aluI, zeroExtend_imm, hw, CoreRegs.set_next_c])
/-- An opcode of two registers that writes C too. -/
theorem core_aluK (h : s.coreReady d c = true) (hok : ok = true)
    (hw : op 32 ((s.regsOf d c).get va) ((s.regsOf d c).get vb) (s.regsOf d c).c = w)
    (hk : carry 32 ((s.regsOf d c).get va) ((s.regsOf d c).get vb) (s.regsOf d c).c = k) :
    onDie s d ok (s.coreStep d c 1 (CoreRegs.aluK op carry vd va vb)) =
      .next (s.ran d c 1 { (s.regsOf d c).set vd w with c := k, pc := (s.regsOf d c).pc + 4 }) :=
  coreStep_gives h hok (by rw [CoreRegs.aluK, hw, hk, CoreRegs.set_next])
/-- An opcode of a register and an immediate that writes C too. -/
theorem core_aluIK (h : s.coreReady d c = true) (hok : ok = true)
    (hw : op 32 ((s.regsOf d c).get va) (BitVec.ofNat 32 imm.toNat) (s.regsOf d c).c = w)
    (hk : carry 32 ((s.regsOf d c).get va) (BitVec.ofNat 32 imm.toNat) (s.regsOf d c).c = k) :
    onDie s d ok (s.coreStep d c 1 (CoreRegs.aluIK op carry vd va imm)) =
      .next (s.ran d c 1 { (s.regsOf d c).set vd w with c := k, pc := (s.regsOf d c).pc + 4 }) :=
  coreStep_gives h hok (by rw [CoreRegs.aluIK, zeroExtend_imm, hw, hk, CoreRegs.set_next])
/-- A comparison of two registers. -/
theorem core_cmp {p : Prop} [Decidable p] (h : s.coreReady d c = true) (hok : ok = true)
    (hp : cmp 32 ((s.regsOf d c).get va) ((s.regsOf d c).get vb) = decide p) :
    onDie s d ok (s.coreStep d c 1 (CoreRegs.cmp cmp vd va vb)) =
      .next (s.ran d c 1 { (s.regsOf d c).set vd (if p then 1 else 0) with c := (s.regsOf d c).c, pc := (s.regsOf d c).pc + 4 }) :=
  coreStep_gives h hok (by simp only [CoreRegs.cmp, hp, decide_eq_true_eq, CoreRegs.set_next_c])
/-- A comparison of a register and an immediate. -/
theorem core_cmpI {p : Prop} [Decidable p] (h : s.coreReady d c = true) (hok : ok = true)
    (hp : cmp 32 ((s.regsOf d c).get va) (BitVec.ofNat 32 imm.toNat) = decide p) :
    onDie s d ok (s.coreStep d c 1 (CoreRegs.cmpI cmp vd va imm)) =
      .next (s.ran d c 1 { (s.regsOf d c).set vd (if p then 1 else 0) with c := (s.regsOf d c).c, pc := (s.regsOf d c).pc + 4 }) :=
  coreStep_gives h hok (by simp only [CoreRegs.cmpI, zeroExtend_imm, hp, decide_eq_true_eq, CoreRegs.set_next_c])

/-- A branch, by whether it is taken. -/
theorem coreBranch_gives {o rd ra : Nat} {imm : W16} {p : Prop} [Decidable p] (h : s.coreReady d c = true) (hok : ok = true)
    (hp : cmp 32 ((s.regsOf d c).get rd) ((s.regsOf d c).get ra) = decide p) :
    onDie s d ok (s.coreBranch d c o rd ra imm cmp) = if p
      then .next (s.ran d c 2 { s.regsOf d c with pc := (s.regsOf d c).pc + 4 * imm.signExtend 32 })
      else .next (s.ran d c (Config.coreCycles o) { s.regsOf d c with pc := (s.regsOf d c).pc + 4 }) := by
  have hp : cmp 32 ((s.coreRegs d c).get rd) ((s.coreRegs d c).get ra) = decide p := hp
  unfold State.coreBranch
  by_cases taken : p
  · simp only [hp, taken, decide_true, if_true]
    exact coreStep_gives h hok rfl
  · simp only [hp, taken, decide_false, Bool.false_eq_true, if_false]
    exact coreStep_gives h hok rfl

end Core

/-- The target of JALR: its low 2 bits are taken as 0 (R183). -/
theorem and_not_three (w : W32) : w &&& ~~~3#32 = BitVec.ofNat 32 (w.toNat / 4 * 4) := by
  refine BitVec.eq_of_getLsbD_eq fun i hi => ?_
  have three : (3#32).getLsbD i = decide (i < 2) := by
    rw [BitVec.getLsbD_ofNat, ← Nat.testBit_two_pow_sub_one 2 i]
    simp [hi]
  rw [BitVec.getLsbD_and, BitVec.getLsbD_not, three, BitVec.getLsbD_ofNat, show 4 = 2 ^ 2 from rfl, Nat.testBit_mul_two_pow,
    Nat.testBit_div_two_pow]
  by_cases low : i < 2
  · simp [low]
  · have same : i - 2 + 2 = i := by omega
    simp [low, hi, same, BitVec.getLsbD, not_lt.mp low]

end Sys2Proof.Machine

namespace Sys2Proof
open Sys2Proof.Machine

/-- Settles O18: each opcode is that of a lane of 32 bits. -/
theorem coreArithmetic : Obligations.CoreArithmetic := by
  intro s d c vd va vb imm h g a b m k e both put flag
  refine ⟨?_, ?_, ?_, ?_, ?_, ?_, ?_, ?_, ?_, ?_, ?_, ?_, ?_, ?_, ?_, ?_, ?_, ?_, ?_, ?_, ?_, ?_, ?_, ?_, ?_, fun hn => ?_⟩
  · exact coreStep_gives h rfl rfl
  · exact core_aluK h rfl rfl rfl
  · exact core_aluK h rfl (opAdc_eq_ofNat _ _ _) rfl
  · exact core_aluIK h rfl rfl rfl
  · exact core_aluK h rfl rfl rfl
  · exact core_aluK h rfl rfl rfl
  · exact core_aluIK h rfl rfl rfl
  · exact core_alu h rfl rfl
  · exact core_alu h rfl rfl
  · exact core_alu h rfl rfl
  · exact core_alu h rfl rfl
  · exact core_aluI h rfl rfl
  · exact core_aluI h rfl rfl
  · exact core_aluI h rfl rfl
  · exact core_alu h rfl (opMinu_eq_ofNat _ _ _)
  · exact core_alu h rfl (opMaxu_eq_ofNat _ _ _)
  · exact core_alu h rfl (opMins_eq_ofInt _ _ _)
  · exact core_alu h rfl (opMaxs_eq_ofInt _ _ _)
  · exact core_cmp h rfl (Bool.beq_eq_decide_eq _ _)
  · exact core_cmp h rfl rfl
  · exact core_cmp h rfl rfl
  · exact core_cmpI h rfl (by rw [cmpEq_eq_decide, toNat_imm])
  · exact core_cmpI h rfl (by rw [cmpLtu, toNat_imm])
  · exact core_alu h rfl rfl
  · exact core_aluI h rfl rfl
  · have hform : (true && shiftForm e imm) = true := decide_eq_true hn
    exact ⟨core_aluI h hform (by rw [opShl_eq_ofNat, toNat_imm]), core_aluI h hform (by rw [opShr_eq_ofNat, toNat_imm]),
      core_aluI h hform (by rw [opSar_eq_ofInt, toNat_imm])⟩

/-- Settles O19: each opcode is one change of the core's registers, a branch one of two. -/
theorem coreControl : Obligations.CoreControl := by
  intro s d c rd ra rb imm off h g a b x sx put taken passed n
  have high : imm.zeroExtend 32 <<< 16 = BitVec.ofNat 32 (imm.toNat * 2 ^ 16) := by bv_omega
  have product : a * b = BitVec.ofNat 32 (a.toNat * b.toNat) := by simp [BitVec.ofNat_mul]
  refine ⟨?_, ?_, ?_, ?_, ?_, ?_, ?_, ?_, ?_, ?_, ?_, ?_⟩
  · exact coreStep_gives h rfl (by rw [CoreRegs.lui, high, CoreRegs.set_next])
  · exact coreStep_gives h rfl (CoreRegs.set_next _ _ _)
  · exact coreBranch_gives h rfl (Bool.beq_eq_decide_eq _ _)
  · exact coreBranch_gives h rfl ((congrArg not (Bool.beq_eq_decide_eq _ _)).trans decide_not.symm)
  · exact coreBranch_gives h rfl rfl
  · exact coreBranch_gives h rfl rfl
  · exact coreStep_gives h rfl rfl
  · exact coreStep_gives h rfl (by rw [CoreRegs.jalr, and_not_three]; rfl)
  · exact coreStep_gives h rfl (by rw [CoreRegs.mul, product, CoreRegs.set_next])
  · exact coreStep_gives h rfl (CoreRegs.set_next _ _ _)
  · exact coreStep_gives h rfl (CoreRegs.set_next _ _ _)
  · exact coreStep_gives h rfl (CoreRegs.set_next _ _ _)

end Sys2Proof
end

section
/-! The CTL opcodes that read and write flags and that raise something outside the tile (R171, R175): results of one cycle land as the program
moves on, and a start or a POST leaves the tile as it was. -/

namespace Sys2Proof.Machine

/-- What is seen in the present cycle lands, a 1 written to a flag last (R175). -/
theorem Tile.settle_seen {w : Tile} {l : List Wr} (h : w.due = l.map fun x => (w.cycle, x)) :
    w.settle = (l.filter Wr.late).foldl Tile.land ((l.filter fun x => !x.late).foldl Tile.land { w with due := [] }) := by
  have seen : (w.due.filter fun e => decide (e.1 ≤ w.cycle)).map Prod.snd = l := by
    simp [h, List.filter_map, Function.comp_def]
  have unseen : (w.due.filter fun e => decide (w.cycle < e.1)) = [] := by simp [h, List.filter_map, Function.comp_def]
  simp only [Tile.settle, seen, unseen]

theorem Tile.land_paused (w : Tile) (x : Wr) : (w.land x).paused = w.paused := by
  cases x <;> simp [Tile.land, apply_ite Tile.paused]

/-- The close of a cycle outside loops and idle cycles, where all that is on its way is seen from the next cycle on. -/
theorem Tile.close_lands {w : Tile} {l : List Wr} (hr : w.running = true) (hw : w.waiting = none) (hp : w.paused = false) (hi : w.idle = 0)
    (hl : w.loops = []) (hd : w.due = l.map fun x => (w.cycle + 1, x)) :
    w.close = (l.filter Wr.late).foldl Tile.land ((l.filter fun x => !x.late).foldl Tile.land
      { w with due := [], cycle := w.cycle + 1, bundle := w.bundle + 1, skip := w.skip - 1, blank := false }) := by
  have next : loopNext w.loops (w.bundle + 1) 0 = (w.bundle + 1, w.loops, w.idle) := by rw [hl, hi]; rfl
  have moved : (if w.running && w.waiting.isNone then w.advance else w) = { w with bundle := w.bundle + 1, skip := w.skip - 1 } := by
    rw [if_pos (by simp [hr, hw]), Tile.advance_next hi next]
  have closed : w.close =
      (Tile.settle { w with bundle := w.bundle + 1, skip := w.skip - 1, cycle := w.cycle + 1, blank := false }).enterSlack := by
    simp only [Tile.close, moved]
  rw [closed, Tile.settle_seen hd, Tile.enterSlack_unpaused]
  rw [foldl_keeps Tile.paused Tile.land Tile.land_paused, foldl_keeps Tile.paused Tile.land Tile.land_paused]
  exact hp

/-- The tile at the bundle that follows, one cycle later. -/
def Tile.following (x : Tile) : Tile := { x with cycle := x.cycle + 1, bundle := x.bundle + 1 }

/-- A tile that issues a bundle outside loops, with no result on its way and no deferred program paused. -/
structure Tile.Plain (x : Tile) : Prop extends x.Settled where
  loops : x.loops = []

theorem Tile.Plain.close_put {x : Tile} (h : x.Plain) (l : List Wr) : (x.put (l.map fun e => (1, e))).close =
    (l.filter Wr.late).foldl Tile.land ((l.filter fun e => !e.late).foldl Tile.land x.following) := by
  have following : { x with due := [], cycle := x.cycle + 1, bundle := x.bundle + 1, skip := x.skip - 1, blank := false } = x.following := by
    rw [h.skip, Nat.zero_sub, ← h.skip, ← h.due, ← h.blank]
    rfl
  rw [← following]
  exact Tile.close_lands h.running h.waiting h.paused h.idle h.loops (by simp [Tile.put, h.due, Function.comp_def])

theorem Tile.Plain.close {x : Tile} (h : x.Plain) : x.close = x.following := by
  have none : x.put ([].map fun e => (1, e)) = x := by simp [Tile.put]
  have closed := h.close_put []
  rwa [none] at closed

/-- WAITF on a flag that is 0: the program stays where it is (R175). -/
theorem Tile.Plain.close_waits {x : Tile} (h : x.Plain) (f : Nat) :
    Tile.close { x with waiting := some f } = { x with cycle := x.cycle + 1, waiting := some f } := by
  have waits := Tile.close_moved (w := { x with waiting := some f }) (if_neg (by simp)) h.blank
  have hdue : (Tile.tick { x with waiting := some f }).due = [] := h.due
  have hpaused : (Tile.tick { x with waiting := some f }).paused = false := h.paused
  rw [waits, Tile.settle_nothing hdue, Tile.enterSlack_unpaused hpaused]
  rfl

/-- The CTL slot closes the cycle of a tile that issues a bundle. -/
theorem State.ctl_issues {s : State} {d : DieId} {t : Nat} {x : Tile} (f : Tile → Tile) (hx : (s.die d).tile t = x) (h : x.issues = true) :
    s.ctl d t f = s.withTile d t (f x).close := by
  have ho : x.open_ = true := ((Tile.issues_iff x).mp h).1
  unfold State.ctl State.withTile State.upd
  simp only [hx, h, ho, if_true]

/-! ### KICK (R490) -/

@[simp] theorem State.serve_tiles (s : State) (d : DieId) (k : ItemKind) (i : Nat) : ((s.serve d k i).die d).tiles = (s.die d).tiles := by
  unfold State.serve
  dsimp only
  split
  · rw [State.event_die_tiles, State.die_upd_same]
    rfl
  · rfl
@[simp] theorem State.dmEvent_tiles (s : State) (d : DieId) (die chan : Fld) (n : Nat) :
    ((s.dmEvent d die chan n).die d).tiles = (s.die d).tiles := by simp [State.dmEvent]
theorem State.dmaStart_tiles (s : State) (d : DieId) (n : Nat) (src : StartSrc) (depth : Nat) :
    ((s.dmaStart d n src depth).die d).tiles = (s.die d).tiles := by
  rw [← s.serve_tiles d .dmaChannel n]
  unfold State.dmaStart
  generalize s.serve d .dmaChannel n = u
  have missed : (((u.count d R.DM_CH_MISSED n).dmEvent d R.DM_EVENTS_MISSED R.DM_CH_EVENTS_MISSED n).die d).tiles = (u.die d).tiles := by
    rw [State.dmEvent_tiles, State.count, State.die_upd_same]
    rfl
  dsimp only
  split
  · rfl
  split
  · exact missed
  split
  · rw [State.die_upd_same]; rfl
  split
  · rw [State.die_upd_same]; rfl
  · exact missed

theorem State.withTile_fld (s : State) (d : DieId) (t : Nat) (w : Tile) (f : Fld) (i j : Nat) : (s.withTile d t w).fld d f i j = s.fld d f i j := by
  unfold State.fld State.withTile
  rw [State.die_upd_same]
  rfl

/-! ### POST (R525) -/

/-- A decrement of the dependence counter of a thread that does not wait. -/
theorem State.post_running {s : State} {d : DieId} {n : Nat} (hc : ((s.die d).th n).claimed = true) (hn : -32768 < ((s.die d).th n).count)
    (hw : ((s.die d).th n).state ≠ .waiting) : s.post d n = s.upd d fun x => x.modTh n fun t => { t with count := t.count - 1 } := by
  have counted : s.postCount d n = (s.upd d fun x => x.modTh n fun t => { t with count := t.count - 1 }, false) := by
    simp [State.postCount, hc, hw, not_le.mpr hn]
  simp only [State.post, counted, Bool.false_eq_true, if_false]

end Sys2Proof.Machine

namespace Sys2Proof
open Sys2Proof.Machine

/-- Settles O17: each opcode is what it does to the tile or outside it, then the close of the cycle. -/
theorem tileFlagsAndSignals : Obligations.TileFlagsAndSignals := by
  intro s d t f v ch th hd x hdue hpaused hloops hidle next gives
  refine ⟨fun hi => ?_, fun hwait hrun hflag => ?_⟩
  · obtain ⟨-, hrun, hwait, -, hskip, hblank⟩ := (Tile.issues_iff x).mp hi
    have plain : x.Plain := ⟨⟨⟨hrun, hwait, hblank, hpaused⟩, hidle, hskip, hdue⟩, hloops⟩
    have hready : s.slotReady d t = true := State.slotReady_iff.mpr ⟨hd, hi⟩
    have closes {i : Instr} {w : Tile} (g : Tile → Tile) (he : exec i s = onDie s d true (s.ctl d t g)) (hw : (g x).close = w) : gives i w := by
      rw [← hw]
      exact he.trans (ctl_ready g hready)
    refine ⟨?_, ?_, ?_, fun hv => ?_, fun hused hstarts hstate _ => ?_, fun hclaimed hcount hstate => ?_⟩
    · refine closes (Tile.waitf f) rfl ?_
      unfold Tile.waitf
      split
      · exact plain.close_put [.f f false]
      · exact plain.close_waits f
    · exact closes (Tile.setf f) rfl (plain.close_put [.f f true])
    · exact closes (Tile.clrf f) rfl (plain.close_put [.f f false])
    · have pair : x.pos v = x.put ([.v v (vecOf fun _ => BitVec.ofNat 8 x.line) 1, .v (v + 1) (vecOf fun _ => BitVec.ofNat 8 (x.line / 256)) 1].map
          fun e => (1, e)) := by
        rw [Tile.pos, Nat.mod_eq_of_lt (by omega), x.later_eq_put, Tile.put_later]
        rfl
      refine closes (Tile.pos v) rfl ?_
      rw [pair]
      exact plain.close_put _
    · have starts : ((s.dmaStart d ch .kick 0).die d).chState ch = 1 :=
        State.dmaStart_begins 0 ch.isLt (beq_iff_eq.mpr hused) (by simpa [bit, StartSrc.bit, State.fld] using hstarts) hstate
      have tile : ((s.dmaStart d ch .kick 0).die d).tile t = x := congrArg (fun m => mget _ m t.val) (s.dmaStart_tiles d ch .kick 0)
      have course : (if ((s.die d).tile t).issues then s.dmaStart d ch .kick 0 else s).ctl d t id =
          (s.dmaStart d ch .kick 0).withTile d t next := by
        rw [if_pos hi, State.ctl_issues id tile hi]
        exact congrArg _ plain.close
      refine completes_onDie hd (P := fun r => r.fld d R.DM_CH_STATUS_STATE ch = 1 ∧ (r.die d).tile t = next) ?_
      rw [course]
      exact ⟨(State.withTile_fld _ _ _ _ _ _ _).trans starts, State.tile_withTile_same _ _ _ _⟩
    · have posted := State.post_running hclaimed hcount (by rw [hstate]; decide)
      have tile : ((s.post d th).die d).tile t = x := by rw [posted, State.die_upd_same]; rfl
      have count : (((s.post d th).die d).th th).count = ((s.die d).th th).count - 1 := by
        rw [posted, State.die_upd_same, Die.modTh_th, if_pos rfl]
      have course : (if ((s.die d).tile t).issues then s.post d th else s).ctl d t id = (s.post d th).withTile d t next := by
        rw [if_pos hi, State.ctl_issues id tile hi]
        exact congrArg _ plain.close
      refine completes_onDie hd (P := fun r => ((r.die d).th th).count = ((s.die d).th th).count - 1 ∧ (r.die d).tile t = next) ?_
      rw [course]
      refine ⟨?_, State.tile_withTile_same _ _ _ _⟩
      rw [← count]
      change (((State.withTile _ _ _ _).die d).th th).count = _
      rw [State.withTile, State.die_upd_same]
      rfl
  · have resumed : x.waitfResume = { next.land (.f f false) with waiting := none, skip := x.skip - 1, blank := false } := by
      have closed := Tile.close_lands (w := ({ x with waiting := none } : Tile).later 1 (.f f false)) (l := [.f f false]) hrun rfl hpaused hidle
        hloops (by simp [Tile.later, hdue])
      simp only [Tile.waitfResume, hwait, hflag, if_true, closed]
      simp [Wr.late, Tile.land, Tile.later, next, hdue]
    refine (onDie_next_of_pending hd (State.upd_pending s d _)).trans (congrArg Host.Outcome.next ?_)
    exact congrArg (s.withTile d t) resumed

end Sys2Proof
end

section
/-! The shapes of a MOVE (R495): a row cut into groups, taken apart and put together again. -/

namespace Sys2Proof.Machine

/-! ### Groups of one length -/

section Groups

variable {α β : Type} {n : Nat}

/-- Fuel for every element is enough. -/
theorem groups_fuel (hn : 0 < n) {f g : Nat} {l : List α} (hf : l.length ≤ f) (hg : l.length ≤ g) : groups n f l = groups n g l := by
  induction f generalizing g l with
  | zero =>
    have short : l.length < n := by omega
    cases g <;> simp [groups, short]
  | succ f ih =>
    cases g with
    | zero =>
      have short : l.length < n := by omega
      simp [groups, short]
    | succ g =>
      unfold groups
      split
      · rfl
      · rw [ih (l := l.drop n) (g := g) (by rw [List.length_drop]; omega) (by rw [List.length_drop]; omega)]

theorem groupsOf_append (hn : 0 < n) {a : List α} (ha : a.length = n) (l : List α) : groupsOf n (a ++ l) = a :: groupsOf n l := by
  obtain ⟨k, hk⟩ : ∃ k, (a ++ l).length = k + 1 := ⟨(a ++ l).length - 1, by rw [List.length_append]; omega⟩
  have full : ¬((a ++ l).length < n ∨ n = 0) := by rw [List.length_append]; omega
  have rest : l.length ≤ k := by rw [List.length_append] at hk; omega
  rw [groupsOf, hk, groups, if_neg full, List.take_left' ha, List.drop_left' ha, groups_fuel hn rest le_rfl]
  rfl

/-- A list of groups of `n` is what its elements one after another are cut into. -/
theorem groupsOf_flatten (hn : 0 < n) {gs : List (List α)} (h : ∀ g ∈ gs, g.length = n) : groupsOf n gs.flatten = gs := by
  induction gs with
  | nil => rfl
  | cons g gs ih =>
    rw [List.flatten_cons, groupsOf_append hn (h g List.mem_cons_self), ih fun g hg => h g (List.mem_cons_of_mem _ hg)]
theorem groupsOf_flatMap (hn : 0 < n) {f : β → List α} (h : ∀ b, (f b).length = n) (l : List β) : groupsOf n (l.flatMap f) = l.map f := by
  rw [List.flatMap_def]
  exact groupsOf_flatten hn (by simpa using fun b _ => h b)

/-- A row of whole groups. -/
theorem exists_flatten {l : List α} (h : l.length % n = 0) : ∃ gs : List (List α), (∀ g ∈ gs, g.length = n) ∧ l = gs.flatten := by
  obtain ⟨k, hk⟩ := Nat.dvd_of_mod_eq_zero h
  clear h
  induction k generalizing l with
  | zero => exact ⟨[], by simp, List.length_eq_zero_iff.mp hk⟩
  | succ k ih =>
    rw [Nat.mul_succ] at hk
    obtain ⟨gs, hgs, hl⟩ := ih (l := l.drop n) (by rw [List.length_drop]; omega)
    refine ⟨l.take n :: gs, fun g hg => ?_, ?_⟩
    · rcases List.mem_cons.mp hg with rfl | hg
      · rw [List.length_take]; omega
      · exact hgs g hg
    · rw [List.flatten_cons, ← hl, List.take_append_drop]

/-- Place `i` of whole groups is place `i % n` of group `i / n`. -/
theorem getElem_flatten (hn : 0 < n) {gs : List (List α)} (h : ∀ g ∈ gs, g.length = n) {i : Nat} (hi : i < gs.flatten.length) :
    ∃ (hq : i / n < gs.length) (hj : i % n < gs[i / n].length), gs.flatten[i] = gs[i / n][i % n] := by
  induction gs generalizing i with
  | nil => simp at hi
  | cons g gs ih =>
    have hg : g.length = n := h g List.mem_cons_self
    by_cases first : i < n
    · have hq : i / n = 0 := Nat.div_eq_of_lt first
      have hj : i % n = i := Nat.mod_eq_of_lt first
      simp only [hq, hj]
      exact ⟨by simp, by simpa [hg] using first, by simp [List.flatten_cons, List.getElem_append_left (hg ▸ first :)]⟩
    · obtain ⟨k, rfl⟩ : ∃ k, i = k + n := ⟨i - n, by omega⟩
      have hk : k < gs.flatten.length := by rw [List.flatten_cons, List.length_append] at hi; omega
      obtain ⟨hq, hj, heq⟩ := ih (fun g hg => h g (List.mem_cons_of_mem _ hg)) hk
      have hdiv : (k + n) / n = k / n + 1 := Nat.add_div_right k hn
      simp only [hdiv, Nat.add_mod_right]
      refine ⟨by simpa using hq, by simpa using hj, ?_⟩
      simp only [List.flatten_cons, List.getElem_cons_succ, ← heq]
      rw [List.getElem_append_right (by omega)]
      simp [hg]

theorem flatMap_zipIdx {l : List α} {f : α × Nat → List β} {g : α → List β} (h : ∀ i (hi : i < l.length), f (l[i], i) = g l[i]) :
    l.zipIdx.flatMap f = l.flatMap g := by
  have each : l.zipIdx.flatMap f = l.zipIdx.flatMap fun e => g e.1 := by
    refine List.flatMap_congr fun e he => ?_
    obtain ⟨hi, heq⟩ := List.mem_zipIdx' he
    rw [heq, ← h e.2 hi, ← heq]
  rw [each, ← List.flatMap_map Prod.fst g, List.zipIdx_map_fst]

end Groups

/-! ### SWAP -/

/-- Reversing the bytes of each element twice. -/
theorem reverse_groups_twice {α : Type} {n : Nat} (hn : 0 < n) {l : List α} (h : l.length % n = 0) :
    (groupsOf n ((groupsOf n l).flatMap List.reverse)).flatMap List.reverse = l := by
  obtain ⟨gs, hgs, rfl⟩ := exists_flatten h
  have swapped : gs.flatMap List.reverse = (gs.map List.reverse).flatten := List.flatMap_def ..
  have swappedLen : ∀ g ∈ gs.map List.reverse, g.length = n := List.forall_mem_map.mpr fun g hg => by rw [List.length_reverse, hgs g hg]
  rw [groupsOf_flatten hn hgs, swapped, groupsOf_flatten hn swappedLen, List.flatMap_map]
  simp

/-! ### UNZIP and ZIP -/

/-- The elements at even and at odd places of a row of pairs. -/
theorem filter_zipIdx_pairs {α : Type} (ps : List (α × α)) (k : Nat) (odd : Bool) :
    (((ps.flatMap fun p => [p.1, p.2]).zipIdx (2 * k)).filter fun e => (e.2 % 2 == 1) == odd).map Prod.fst =
      ps.map fun p => if odd then p.2 else p.1 := by
  induction ps generalizing k with
  | nil => rfl
  | cons p ps ih =>
    have rest := ih (k + 1)
    have even : 2 * k % 2 = 0 := Nat.mul_mod_right 2 k
    have next : (2 * k + 1) % 2 = 1 := by omega
    rw [Nat.mul_add] at rest
    cases odd <;> simpa [even, next] using rest

theorem unzipEvery_pairs {sz : Nat} (hs : 0 < sz) {ps : List (List MByte × List MByte)} (h : ∀ p ∈ ps, p.1.length = sz ∧ p.2.length = sz)
    (odd : Bool) : unzipEvery sz odd (ps.flatMap fun p => p.1 ++ p.2) = (ps.map fun p => if odd then p.2 else p.1).flatten := by
  have elems : (ps.flatMap fun p => p.1 ++ p.2) = (ps.flatMap fun p => [p.1, p.2]).flatten := by
    simp [List.flatMap_def, List.flatten_flatten, Function.comp_def]
  have one : ∀ g ∈ ps.flatMap fun p => [p.1, p.2], g.length = sz := by
    intro g hg
    obtain ⟨p, hp, hg⟩ := List.mem_flatMap.mp hg
    rcases List.mem_pair.mp hg with rfl | rfl
    · exact (h p hp).1
    · exact (h p hp).2
  rw [unzipEvery, elems, groupsOf_flatten hs one, List.flatMap_def]
  exact congrArg List.flatten (filter_zipIdx_pairs ps 0 odd)

theorem zip_unzipEvery {sz : Nat} (hs : 0 < sz) {l : List MByte} (h : l.length % (2 * sz) = 0) :
    zipElems sz (unzipEvery sz false l) (unzipEvery sz true l) = l := by
  obtain ⟨gs, hgs, rfl⟩ := exists_flatten h
  obtain ⟨ps, hps, pairs⟩ : ∃ ps : List (List MByte × List MByte), (∀ p ∈ ps, p.1.length = sz ∧ p.2.length = sz) ∧
      gs.flatten = ps.flatMap fun p => p.1 ++ p.2 := by
    refine ⟨gs.map fun g => (g.take sz, g.drop sz), fun p hp => ?_, by simp [List.flatMap_map]⟩
    obtain ⟨g, hg, rfl⟩ := List.mem_map.mp hp
    have := hgs g hg
    exact ⟨by rw [List.length_take]; omega, by rw [List.length_drop]; omega⟩
  have firsts : ∀ g ∈ ps.map Prod.fst, g.length = sz := by simpa using fun a b hp => (hps (a, b) hp).1
  have seconds : ∀ g ∈ ps.map Prod.snd, g.length = sz := by simpa using fun b a hp => (hps (a, b) hp).2
  have evens : unzipEvery sz false gs.flatten = (ps.map Prod.fst).flatten := by rw [pairs, unzipEvery_pairs hs hps]; rfl
  have odds : unzipEvery sz true gs.flatten = (ps.map Prod.snd).flatten := by rw [pairs, unzipEvery_pairs hs hps]; rfl
  rw [evens, odds, zipElems, groupsOf_flatten hs firsts, groupsOf_flatten hs seconds, pairs]
  simp [List.zip_map']

end Sys2Proof.Machine
end

section
/-! SPLIT and JOIN (R160, R495): a row of sample words, its plane of high bytes and its packed residuals. -/

namespace Sys2Proof.Machine

/-- The bytes of a word, as a row holds them. -/
def wordBytes (w : W16) : List Byte := [BitVec.ofNat 8 w.toNat, BitVec.ofNat 8 (w.toNat / 256)]

@[simp] theorem leNat_wordBytes (w : W16) : leNat (wordBytes w) = w.toNat := by
  have := w.isLt
  simp only [wordBytes, leNat, BitVec.toNat_ofNat]
  omega

theorem mall_some (l : List Byte) (f : List Byte → Byte) : mall (l.map some) f = some (f l) := by
  simp [mall]

/-- A row whose bytes all arrived, cut into words. -/
theorem row_eq (ws : List W16) : (ws.flatMap fun w => [some (BitVec.ofNat 8 w.toNat), some (BitVec.ofNat 8 (w.toNat / 256))]) =
    (ws.map fun w => (wordBytes w).map some).flatten := List.flatMap_def ..

theorem splitM_row {b : Nat} {ws : List W16} (h : ∀ w ∈ ws, w.toNat < 2 ^ (8 + b)) :
    splitM b (ws.map fun w => (wordBytes w).map some).flatten = ws.map fun w => some (BitVec.ofNat 8 (w.toNat / 2 ^ b)) := by
  rw [splitM, groupsOf_flatten (by decide) (by simp [wordBytes]), List.map_map]
  refine List.map_congr_left fun w hw => ?_
  simp only [Function.comp_apply, mall_some, leNat_wordBytes, Nat.mod_eq_of_lt (h w hw)]

/-- The low bits of words, packed into a number. -/
def residuals (b : Nat) (ws : List W16) : Nat := Nat.ofDigits (2 ^ b) (ws.map fun w => w.toNat % 2 ^ b)

theorem foldl_zipIdx_residuals (b : Nat) (ws : List W16) (k a : Nat) :
    (ws.zipIdx k).foldl (fun n e => n + e.1.toNat % 2 ^ b * 2 ^ (b * e.2)) a = a + 2 ^ (b * k) * residuals b ws := by
  induction ws generalizing k a with
  | nil => simp [residuals]
  | cons w ws ih =>
    rw [List.zipIdx_cons, List.foldl_cons, ih, residuals, residuals, List.map_cons, Nat.ofDigits_cons]
    ring

theorem splitR_row {b n : Nat} (hn : 0 < n) (hb : 8 / b = n) {gs : List (List W16)} (h : ∀ g ∈ gs, g.length = n) :
    splitR b (gs.flatten.map fun w => (wordBytes w).map some).flatten = gs.map fun g => some (BitVec.ofNat 8 (residuals b g)) := by
  have rows : (gs.flatten.map fun w => (wordBytes w).map some).flatten = (gs.map fun g => (g.flatMap wordBytes).map some).flatten := by
    simp [List.flatMap_def, List.map_flatten, List.flatten_flatten, Function.comp_def]
  have len : ∀ g ∈ gs.map fun g => (g.flatMap wordBytes).map some, g.length = 2 * n := by
    refine List.forall_mem_map.mpr fun g hg => ?_
    have two : ∀ w, (wordBytes w).length = 2 := fun _ => rfl
    simp only [List.length_map, List.length_flatMap, two, List.map_const', List.sum_replicate_nat, h g hg]
    omega
  rw [splitR, hb, rows, groupsOf_flatten (by omega) len, List.map_map]
  refine List.map_congr_left fun g _ => ?_
  simp only [Function.comp_apply, mall_some]
  have words : groupsOf 2 (g.flatMap wordBytes) = g.map wordBytes := groupsOf_flatMap (f := wordBytes) (by decide) (fun _ => rfl) g
  rw [words, List.zipIdx_map, List.foldl_map]
  simp only [Prod.map, leNat_wordBytes, id_eq]
  rw [foldl_zipIdx_residuals]
  simp

theorem residuals_lt {b : Nat} (hb : 0 < b) (g : List W16) : residuals b g < 2 ^ (b * g.length) := by
  have := Nat.ofDigits_lt_base_pow_length (b := 2 ^ b) (l := g.map fun w => w.toNat % 2 ^ b) (Nat.one_lt_two_pow (by omega))
    (List.forall_mem_map.mpr fun w _ => Nat.mod_lt _ (Nat.two_pow_pos b))
  rwa [List.length_map, ← pow_mul] at this

/-- A field of the packed residuals. -/
theorem residuals_digit {b : Nat} {g : List W16} {j : Nat} (hj : j < g.length) :
    residuals b g / 2 ^ (b * j) % 2 ^ b = g[j].toNat % 2 ^ b := by
  induction g generalizing j with
  | nil => simp at hj
  | cons w g ih =>
    rw [residuals, List.map_cons, Nat.ofDigits_cons, ← residuals]
    have low : w.toNat % 2 ^ b < 2 ^ b := Nat.mod_lt _ (Nat.two_pow_pos b)
    cases j with
    | zero => simp
    | succ j =>
      have drop : (w.toNat % 2 ^ b + 2 ^ b * residuals b g) / 2 ^ b = residuals b g := by
        rw [Nat.add_mul_div_left _ _ (Nat.two_pow_pos b), Nat.div_eq_of_lt low, Nat.zero_add]
      rw [Nat.mul_succ, Nat.add_comm (b * j), pow_add, ← Nat.div_div_eq_div_mul, drop, ih (by simpa using hj)]
      rfl

/-- JOIN undoes SPLIT. -/
theorem join_split {b n : Nat} (hb : 0 < b) (hnb : n * b = 8) {ws : List W16} (hl : ws.length % n = 0) (h : ∀ w ∈ ws, w.toNat < 2 ^ (8 + b)) :
    let row := (ws.map fun w => (wordBytes w).map some).flatten
    joinWords b (splitM b row) (splitR b row) = row := by
  have hn : 0 < n := Nat.pos_of_ne_zero fun h => by simp [h] at hnb
  have per : 8 / b = n := by rw [← hnb, Nat.mul_div_cancel _ hb]
  obtain ⟨gs, hgs, rfl⟩ := exists_flatten hl
  intro row
  have flat : row = gs.flatten.flatMap fun w => (wordBytes w).map some := (List.flatMap_def ..).symm
  rw [splitM_row h, splitR_row hn per hgs, joinWords, List.zipIdx_map, List.flatMap_map, flat]
  refine flatMap_zipIdx fun i hi => ?_
  obtain ⟨hq, hj, heq⟩ := getElem_flatten hn hgs hi
  have place : i * b / 8 = i / n := by rw [← hnb, Nat.mul_div_mul_right _ _ hb]
  have full : residuals b gs[i / n] < 2 ^ 8 := by
    have := residuals_lt hb gs[i / n]
    rwa [hgs _ (List.getElem_mem _), Nat.mul_comm b, hnb] at this
  have high : gs.flatten[i].toNat / 2 ^ b < 256 := by
    rw [Nat.div_lt_iff_lt_mul (Nat.two_pow_pos b)]
    have := h _ (List.getElem_mem hi)
    rwa [pow_add] at this
  have pair : ∀ (p q : Byte) f, mall [some p, some q] f = some (f [p, q]) := fun p q f => mall_some [p, q] f
  have word : gs.flatten[i].toNat / 2 ^ b * 2 ^ b + residuals b gs[i / n] / 2 ^ (b * (i % n)) % 2 ^ b = gs.flatten[i].toNat := by
    rw [residuals_digit hj, ← heq, Nat.div_add_mod']
  simp only [Prod.map, place, per, id_eq]
  rw [List.getD_eq_getElem _ _ (by simpa using hq), List.getElem_map, pair, pair]
  simp only [List.getD_cons_zero, List.getD_cons_succ, BitVec.toNat_ofNat, Nat.mod_eq_of_lt high, Nat.mod_eq_of_lt full]
  rw [word]
  rfl

end Sys2Proof.Machine

namespace Sys2Proof
open Sys2Proof.Machine

/-- Settles O24: each pair of shapes is a pair of maps on groups of one length that undo each other. -/
theorem reshaping : Obligations.Reshaping := by
  intro m ws bs e row as back
  have hrow : row = (ws.map fun w => (wordBytes w).map some).flatten := row_eq ws
  have sz : 0 < 2 ^ e.val := Nat.two_pow_pos _
  refine ⟨fun hl hw => ⟨?_, ?_⟩, fun hl hw => ⟨?_, ?_⟩, fun hl => ?_, fun hl => ?_, fun hl => ?_, rfl⟩
  · exact congrArg (·, []) (hrow ▸ join_split (b := 2) (n := 4) (by decide) rfl hl hw)
  · exact hrow ▸ splitM_row (b := 2) hw
  · exact congrArg (·, []) (hrow ▸ join_split (b := 4) (n := 2) (by decide) rfl hl hw)
  · exact hrow ▸ splitM_row (b := 4) hw
  · exact congrArg (·, []) (zip_unzipEvery sz hl)
  · exact congrArg (·, []) (reverse_groups_twice (by decide) hl)
  · exact congrArg (·, []) (reverse_groups_twice (by decide) hl)

end Sys2Proof
end

section
/-! What an access to DRAM by the controller itself (R472, R479, R480) leaves of a die: it changes registers in the blocks SM, HB, PL and MC,
the subscriptions, and what the controller keeps of rows, neighbour refreshes and forced operations. -/

namespace Sys2Proof.Machine

/-- A register outside the blocks SM, HB, PL and MC (R435). -/
abbrev Calm (a : Nat) : Prop := Quiet a ∧ (a < 0x30000 ∨ 0x40000 ≤ a) ∧ (a < 0x1C0000 ∨ 0x1D0000 ≤ a)

/-- A die without its DRAM, its subscriptions and its registers, and the registers outside the blocks SM, HB, PL and MC. -/
def Die.rest (x : Die) : Die × (Nat → W32) := ({ x with regs := [], sm := {}, dram := {} }, fun a => if Calm a then x.reg a else 0)

theorem Die.rest_ext {x y : Die} (h : { y with regs := x.regs, sm := x.sm, dram := x.dram } = x) (hr : ∀ a, Calm a → y.reg a = x.reg a) :
    y.rest = x.rest := by
  refine Prod.ext ?_ (funext fun _ => ?_)
  · simp only [Die.rest]
    rw [← h]
  · simp only [Die.rest]
    split
    next calm => exact hr _ calm
    next => rfl

theorem Die.Posted.rest_eq {x y : Die} (h : x.Posted y) : y.rest = x.rest := by
  refine Die.rest_ext ?_ fun a calm => h.reg calm.1
  rw [h.rest]

@[simp] theorem Die.withDram_rest (x : Die) (m : Dram) : Die.rest { x with dram := m } = x.rest := rfl
theorem Die.setFld_rest (x : Die) {f : Fld} {i j : Nat} (h : ¬Calm (fldAddr f i j)) (v : Nat) : (x.setFld f v i j).rest = x.rest :=
  Die.rest_ext rfl fun _ calm => x.reg_setReg_other _ fun e => h (e ▸ calm)
theorem Die.count_rest (x : Die) {f : Fld} {i : Nat} (h : ¬Calm (fldAddr f i 0)) (n : Nat) : (x.count f i n).rest = x.rest := x.setFld_rest h _

@[simp] theorem State.rest_ite (c : Prop) [Decidable c] (s t : State) (d : DieId) :
    ((if c then s else t).die d).rest = if c then (s.die d).rest else (t.die d).rest := by split <;> rfl
theorem State.setFld_rest (s : State) (d : DieId) {f : Fld} {i j : Nat} (h : ¬Calm (fldAddr f i j)) (v : Nat) :
    ((s.setFld d f v i j).die d).rest = (s.die d).rest := by
  rw [State.setFld, State.die_upd_same, Die.setFld_rest _ h]
theorem State.count_rest (s : State) (d : DieId) {f : Fld} {i : Nat} (h : ¬Calm (fldAddr f i 0)) (n : Nat) :
    ((s.count d f i n).die d).rest = (s.die d).rest := by
  rw [State.count, State.die_upd_same, Die.count_rest _ h]
theorem State.event_rest (s : State) (d : DieId) {f : Fld} {i : Nat} (h : ¬Calm (fldAddr f i 0)) (n : Nat) :
    ((s.event d f i n).die d).rest = (s.die d).rest := by
  rw [(s.event_posted d f i n).rest_eq, Die.setFld_rest _ h]
@[simp] theorem State.hbCad_rest (s : State) (d : DieId) (c n k v : Nat) (p : Bool) : ((s.hbCad d c n k v p).die d).rest = (s.die d).rest :=
  (s.hbRecord_posted d d c n _ p false).rest_eq
theorem State.eventCad_rest (s : State) (d : DieId) {f : Fld} {i : Nat} (h : ¬Calm (fldAddr f i 0)) (n c v : Nat) (p : Bool) :
    ((s.eventCad d f i n c v p).die d).rest = (s.die d).rest := by
  rw [(s.eventCad_posted d f i n c v p).rest_eq, Die.setFld_rest _ h]
@[simp] theorem State.breach_rest (s : State) (d : DieId) (b : Breach) (frag : Nat) (cad : Option Nat) (p : Bool) :
    ((s.breach d b frag cad p).die d).rest = (s.die d).rest := by
  simp (disch := decide) only [State.breach, State.hbCad_rest, State.event_rest, State.rest_ite, State.count_rest, State.setFld_rest, ite_self]
theorem State.forced_rest (s : State) (d : DieId) {r : Nat} (hr : r < 16) (cause n : Nat) : ((s.forced d r cause n).die d).rest = (s.die d).rest := by
  have most : ¬Calm (fldAddr R.MC_REG_MAX_FORCED r 0) := by
    simp only [Calm, fldAddr, R.MC_REG_MAX_FORCED]; omega
  simp (disch := decide) only [State.forced, State.breach_rest, State.eventCad_rest, State.die_upd_same, Die.count_rest, Die.setFld_rest,
    Die.setFld_rest _ most, Die.withDram_rest]
theorem State.queueNeighbour_rest (s : State) (d : DieId) {r : Nat} (hr : r < 16) (bank row : Nat) :
    ((s.queueNeighbour d r bank row).die d).rest = (s.die d).rest := by
  have counter : ¬Calm (fldAddr R.MC_REG_NEIGHBOURS r 0) := by
    simp only [Calm, fldAddr, R.MC_REG_NEIGHBOURS]; omega
  simp only [State.queueNeighbour, State.rest_ite, State.die_upd_same, Die.withDram_rest, State.forced_rest _ d hr,
    State.count_rest _ d counter, ite_self]

/-- The number of a bank within its region. -/
theorem Die.dramBank_lt (x : Die) (a : Nat) : x.dramBank a < 32 := by
  have b2n_le (b : Bool) : b2n b ≤ 1 := by cases b <;> decide
  have h0 := b2n_le (x.bankBit a 0)
  have h1 := b2n_le (x.bankBit a 1)
  have h2 := b2n_le (x.bankBit a 2)
  have h3 := b2n_le (x.bankBit a 3)
  have h4 := b2n_le (x.bankBit a 4)
  simp only [Die.dramBank, List.range, List.range.loop, List.foldl]
  omega
theorem Die.bankIndex_region_lt (x : Die) (a : Nat) : x.bankIndex a / 32 < 16 := by
  have bank := x.dramBank_lt a
  have region : dramRegion a < 16 := Nat.mod_lt _ (by decide)
  unfold Die.bankIndex
  omega
theorem State.activation_rest (s : State) (d : DieId) (a : Nat) : ((s.activation d a).die d).rest = (s.die d).rest := by
  have region := (s.die d).bankIndex_region_lt a
  simp only [State.activation, State.rest_ite, State.queueNeighbour_rest _ d region, State.die_upd_same, Die.withDram_rest, ite_self]
theorem State.touch_rest (s : State) (d : DieId) (a t : Nat) : ((s.touch d a t).die d).rest = (s.die d).rest := by
  simp only [State.touch, State.rest_ite, State.activation_rest, State.die_upd_same, Die.withDram_rest, ite_self]
@[simp] theorem State.touchOpen_rest (s : State) (d : DieId) (a : Nat) : ((s.touchOpen d a).die d).rest = (s.die d).rest := s.touch_rest d a _

theorem Die.par_of_rest {x y : Die} (h : y.rest = x.rest) : y.par = x.par := congrArg (fun p => p.1.par) h

end Sys2Proof.Machine
end

section
/-! What a write-back, CLEAN, INVAL and SYNC leave of a die (R184, R511): beside what an access to DRAM changes, the lines of the caches
alone. -/

namespace Sys2Proof.Machine

/-- A die and its registers without the lines of its caches; its cores stand apart. -/
def bareOf (p : Die × (Nat → W32)) : Die × (Nat → CoreSt) × (Nat → W32) :=
  ({ p.1 with par := { p.1.par with l2 := [], cores := [] } }, fun c => { p.1.core c with l1 := [] }, p.2)
/-- What accesses to DRAM and the caches leave of a die. -/
def Die.bare (x : Die) : Die × (Nat → CoreSt) × (Nat → W32) := bareOf x.rest

theorem Die.bare_of_rest {x y : Die} (h : y.rest = x.rest) : y.bare = x.bare := congrArg bareOf h

@[simp] theorem Die.setL2_bare (x : Die) (l : Nat) (v : Option CacheLine) : (x.setL2 l v).bare = x.bare := rfl
@[simp] theorem Die.setL1_bare (x : Die) (c l : Nat) (v : Option CacheLine) : (x.setL1 c l v).bare = x.bare := by
  refine Prod.ext rfl (Prod.ext (funext fun j => ?_) rfl)
  change { (x.setL1 c l v).core j with l1 := [] } = { x.core j with l1 := [] }
  unfold Die.setL1
  by_cases hj : j = c
  · subst hj; rw [Die.core_modCore_same]
  · rw [Die.core_modCore_other _ _ hj]
@[simp] theorem Die.pushL1_bare (x : Die) (c l : Nat) : (x.pushL1 c l).bare = x.bare := by
  unfold Die.pushL1
  split
  · split <;> simp
  · rfl
@[simp] theorem Die.dramWrite_bare (x : Die) (t a : Nat) (bs : List (Option Byte)) (cores : List Nat) : (x.dramWrite t a bs cores).bare = x.bare := rfl
@[simp] theorem State.writeLine_bare (s : State) (d : DieId) (cores : List Nat) (l : Nat) (bs : List Byte) :
    ((s.writeLine d cores l bs).die d).bare = (s.die d).bare := by
  rw [State.writeLine, State.die_upd_same, Die.dramWrite_bare]
  exact Die.bare_of_rest (s.touchOpen_rest d _)
@[simp] theorem State.cleanLine_bare (s : State) (d : DieId) (c l : Nat) : ((s.cleanLine d c l).die d).bare = (s.die d).bare := by
  unfold State.cleanLine
  dsimp only
  split
  · split <;> simp
  · simp
@[simp] theorem State.invalLine_bare (s : State) (d : DieId) (c l : Nat) : ((s.invalLine d c l).die d).bare = (s.die d).bare := by
  simp [State.invalLine]
@[simp] theorem State.clean_bare (s : State) (d : DieId) (c start len : Nat) : ((s.clean d c start len).die d).bare = (s.die d).bare :=
  foldl_keeps (fun s : State => (s.die d).bare) _ (fun s l => s.cleanLine_bare d c l) _ _
@[simp] theorem State.inval_bare (s : State) (d : DieId) (c start len : Nat) : ((s.inval d c start len).die d).bare = (s.die d).bare :=
  foldl_keeps (fun s : State => (s.die d).bare) _ (fun s l => s.invalLine_bare d c l) _ _
@[simp] theorem State.drain_bare (s : State) (d : DieId) (c : Nat) : ((s.drain d c).die d).bare = (s.die d).bare :=
  foldl_keeps (fun s : State => (s.die d).bare) _ (fun s l => s.cleanLine_bare d c l) _ _

/-! ### Reading what is left -/

section Read

variable {x y : Die} (h : y.bare = x.bare)

include h

theorem Die.threads_of_bare : y.par.threads = x.par.threads := congrArg (fun p => p.1.par.threads) h
theorem Die.th_of_bare (n : Nat) : y.th n = x.th n := congrArg (mget _ · n) (Die.threads_of_bare h)
theorem Die.tiles_of_bare : y.tiles = x.tiles := congrArg (fun p => p.1.tiles) h
theorem Die.dma_of_bare : y.dma = x.dma := congrArg (fun p => p.1.dma) h
theorem Die.core_of_bare (c : Nat) : { y.core c with l1 := [] } = { x.core c with l1 := [] } := congrFun (congrArg (fun p => p.2.1) h) c
theorem Die.coreRegs_of_bare (c : Nat) : (y.core c).regs = (x.core c).regs :=
  (congrArg CoreSt.regs (Die.core_of_bare h c) :)
theorem Die.reg_of_bare {a : Nat} (calm : Calm a) : y.reg a = x.reg a := by
  have regs := congrFun (congrArg (fun p => p.2.2) h) a
  simpa only [Die.bare, bareOf, Die.rest, if_pos calm] using regs
theorem Die.fld_of_bare {f : Fld} {i j : Nat} (calm : Calm (fldAddr f i j)) : y.fld f i j = x.fld f i j := by
  unfold Die.fld
  rw [Die.reg_of_bare h calm]

end Read

end Sys2Proof.Machine
end

section
/-! WAIT and SIGNAL of a DMA channel (R498, R499, R501): what a POST leaves of the channels, what a start and an end of an activation leave of
the other channels, and the stop. -/

namespace Sys2Proof.Machine

/-! ### The DMA engine and the tiles beside a POST (R525) -/

/-- The tiles, the DMA engine and its registers (R435, block DM). -/
def Die.engine (x : Die) : Map Tile × Dma × (Nat → W32) := (x.tiles, x.dma, fun a => if 0x1D0000 ≤ a ∧ a < 0x1E0000 then x.reg a else 0)

theorem Die.engine_ext {x y : Die} (ht : y.tiles = x.tiles) (hd : y.dma = x.dma) (hr : ∀ a, 0x1D0000 ≤ a ∧ a < 0x1E0000 → y.reg a = x.reg a) :
    y.engine = x.engine := by
  refine Prod.ext ht (Prod.ext hd (funext fun _ => ?_))
  simp only [Die.engine]
  split
  next dm => exact hr _ dm
  next => rfl
theorem Die.engine_of_bare {x y : Die} (h : y.bare = x.bare) : y.engine = x.engine :=
  Die.engine_ext (Die.tiles_of_bare h) (Die.dma_of_bare h) fun _ dm => Die.reg_of_bare h (by omega)
theorem Die.Posted.engine {x y : Die} (h : x.Posted y) : y.engine = x.engine :=
  Die.engine_ext h.tiles h.dma fun _ dm => h.reg (by omega)
theorem Die.setFld_engine (x : Die) {f : Fld} {i j : Nat} (h : fldAddr f i j < 0x1D0000 ∨ 0x1E0000 ≤ fldAddr f i j) (v : Nat) :
    (x.setFld f v i j).engine = x.engine :=
  Die.engine_ext rfl rfl fun a dm => x.reg_setReg_other _ fun (e : a = fldAddr f i j) => by omega
theorem Die.fld_of_engine {x y : Die} (h : y.engine = x.engine) {f : Fld} {i : Nat} (hf : 0x1D0000 ≤ fldAddr f i 0 ∧ fldAddr f i 0 < 0x1E0000) :
    y.fld f i = x.fld f i := by
  have regs := congrFun (congrArg (fun p => p.2.2) h) (fldAddr f i 0)
  simp only [Die.engine, if_pos hf] at regs
  unfold Die.fld
  rw [regs]
theorem Die.tile_of_tiles {x y : Die} (h : y.tiles = x.tiles) (t : Nat) : y.tile t = x.tile t :=
  congrArg (fun m : Map Tile => mget (fun _ => ({} : Tile)) m t) h
theorem Die.tile_of_engine {x y : Die} (h : y.engine = x.engine) (t : Nat) : y.tile t = x.tile t := Die.tile_of_tiles (congrArg Prod.fst h) t
theorem Die.restall_engine (x : Die) (c : Nat) : (x.restall c).engine = x.engine := by
  unfold Die.restall
  refine foldl_keeps Die.engine _ (fun _ _ => ?_) _ x
  rfl
theorem Die.waitDone_engine (x : Die) (n : Nat) : (x.waitDone n).engine = x.engine := by
  rw [Die.waitDone, Die.restall_engine]
  rfl
theorem State.postCount_engine (s : State) (d : DieId) (n : Nat) : (((s.postCount d n).1).die d).engine = (s.die d).engine := by
  unfold State.postCount
  dsimp only
  split
  · rfl
  split
  · change (((s.count d R.PA_OVERPOSTS).eventRec d R.PA_EVENTS_OVERPOST 0 n 0).die d).engine = _
    rw [(State.eventRec_posted _ d _ 0 n 0 false).engine, Die.setFld_engine _ (by decide), State.count, State.die_upd_same]
    exact Die.setFld_engine _ (by decide) _
  split
  · rw [State.die_upd_same, Die.waitDone_engine, State.die_upd_same]
    rfl
  · rw [State.die_upd_same]
    rfl
theorem State.post_engine (s : State) (d : DieId) (n : Nat) : ((s.post d n).die d).engine = (s.die d).engine := by
  unfold State.post
  dsimp only
  split
  · rw [Die.engine_of_bare (State.inval_bare _ d _ _ _), State.postCount_engine]
  · exact s.postCount_engine d n

/-! ### Channels apart -/

/-- The registers of a channel (R510). -/
abbrev Fld.ofChan (f : Fld) : Prop := f.stride = 64 ∧ f.stride2 = 0 ∧ 0x1D1000 ≤ f.base ∧ f.base < 0x1D1040

theorem Fld.ofChan.inBlock {f : Fld} (h : f.ofChan) {n : Nat} (hn : n < 128) : 0x1D0000 ≤ fldAddr f n 0 ∧ fldAddr f n 0 < 0x1E0000 := by
  obtain ⟨stride, -, lo, hi⟩ := h
  unfold fldAddr
  rw [stride]
  omega
theorem Fld.ofChan.apart {f g : Fld} (hf : f.ofChan) (hg : g.ofChan) {n k : Nat} (h : k ≠ n ∨ f.base ≠ g.base) : fldAddr g k 0 ≠ fldAddr f n 0 := by
  obtain ⟨fstride, -, flo, fhi⟩ := hf
  obtain ⟨gstride, -, glo, ghi⟩ := hg
  unfold fldAddr
  rw [fstride, gstride]
  omega

/-- A die beside the state of channel `n`, its registers and the queues of the engine. -/
def Die.beside (n : Nat) (x : Die) : Die × (Nat → DmaChan) × (Nat → W32) :=
  ({ x with regs := [], dma := {} }, fun k => if k = n then {} else x.chan k, fun a => if a / 64 = 0x7440 + n then 0 else x.reg a)

theorem Die.modChan_beside (x : Die) (n : Nat) (f : DmaChan → DmaChan) : (x.modChan n f).beside n = x.beside n := by
  refine Prod.ext rfl (Prod.ext (funext fun k => ?_) rfl)
  simp only [Die.beside]
  split
  · rfl
  next h => exact x.chan_modChan_other f h
theorem Die.setFld_beside (x : Die) {f : Fld} (hf : f.ofChan) (v n : Nat) : (x.setFld f v n).beside n = x.beside n := by
  refine Prod.ext rfl (Prod.ext rfl (funext fun a => ?_))
  simp only [Die.beside]
  split
  · rfl
  next h =>
    refine x.reg_setReg_other _ fun e => h ?_
    obtain ⟨stride, -, lo, hi⟩ := hf
    rw [e, fldAddr, stride]
    omega
theorem Die.count_beside (x : Die) {f : Fld} (hf : f.ofChan) (n v : Nat) : (x.count f n v).beside n = x.beside n := x.setFld_beside hf _ n
theorem Die.dropOpen_beside (x : Die) (d : DieId) (n : Nat) : (x.dropOpen d n).beside n = x.beside n := by
  unfold Die.dropOpen
  split
  · rw [Die.modChan_beside]
    rfl
  · rfl
theorem Die.dmaBegin_beside (x : Die) (n depth : Nat) : (x.dmaBegin n depth).beside n = x.beside n := by
  rw [Die.dmaBegin, Die.modChan_beside, Die.setFld_beside _ (by decide)]
/-- The end of an activation is the channel's own. -/
theorem Die.dmaEnd_beside (x : Die) (d : DieId) (n : Nat) : (x.dmaEnd d n).beside n = x.beside n := by
  unfold Die.dmaEnd
  dsimp only
  split
  · simp (disch := decide) only [Die.modChan_beside, Die.setFld_beside, Die.dropOpen_beside, Die.count_beside]
  split
  · simp (disch := decide) only [Die.dmaBegin_beside, Die.modChan_beside, Die.setFld_beside, Die.count_beside]
  · simp (disch := decide) only [Die.modChan_beside, Die.setFld_beside, Die.count_beside]

theorem Die.tiles_of_beside {n : Nat} {x y : Die} (h : y.beside n = x.beside n) : y.tiles = x.tiles := congrArg (fun p => p.1.tiles) h
theorem Die.par_of_beside {n : Nat} {x y : Die} (h : y.beside n = x.beside n) : y.par = x.par := congrArg (fun p => p.1.par) h
theorem Die.chan_of_beside {n k : Nat} {x y : Die} (h : y.beside n = x.beside n) (hk : k ≠ n) : y.chan k = x.chan k := by
  have chans := congrFun (congrArg (fun p => p.2.1) h) k
  simpa only [Die.beside, if_neg hk] using chans
theorem Die.fld_of_beside {n k : Nat} {x y : Die} (h : y.beside n = x.beside n) (hk : k ≠ n) {f : Fld} (hf : f.ofChan) : y.fld f k = x.fld f k := by
  have regs := congrFun (congrArg (fun p => p.2.2) h) (fldAddr f k 0)
  obtain ⟨stride, -, lo, hi⟩ := hf
  have block : ¬fldAddr f k 0 / 64 = 0x7440 + n := by
    rw [fldAddr, stride]
    omega
  simp only [Die.beside, if_neg block] at regs
  unfold Die.fld
  rw [regs]

theorem Die.modChan_modChan (x : Die) (n : Nat) (f g : DmaChan → DmaChan) : (x.modChan n f).modChan n g = x.modChan n fun c => g (f c) := by
  simp only [Die.modChan, mmod, mget_mput_same, mput_mput]

/-! ### Issue, start, end and stop -/

/-- One instruction counts (R502). -/
def DmaChan.issue (c : DmaChan) : DmaChan := { c with issued := c.issued + 1 }

theorem State.dmaIssue_ready {s : State} {d : DieId} {n op : Nat} {ok : Nat → Bool} {w : Nat} (f : Nat → State → State)
    (hr : (s.die d).dmaReady n = true) (hb : ((s.die d).chan n).issued < ((s.die d).chan n).budget)
    (hw : (s.die d).word (s.fld d R.DM_CH_CFG_FIRST n + ((s.die d).chan n).pc) = w) (hop : bits w 127 124 = op) (hok : ok w = true) :
    s.dmaIssue d n op .clean ok f = f w (s.upd d fun x => x.modChan n DmaChan.issue) := by
  have hw : (s.die d).word ((s.die d).fld R.DM_CH_CFG_FIRST n + ((s.die d).chan n).pc) = w := hw
  simp only [State.dmaIssue, hw, hr, hop, hok, not_le.mpr hb, beq_self_eq_true, Bool.and_self, Bool.not_true, Bool.false_eq_true, if_false,
    reduceCtorEq]
  rfl

/-- An event of a channel leaves the channels' other registers. -/
theorem State.dmEvent_fld (s : State) (d : DieId) {die chan f : Fld} {n k : Nat} (hk : k < 128) (hd : die.base < 0x1D1000 ∧ die.stride = 0)
    (hc : chan.ofChan) (hf : f.ofChan) (h : k ≠ n ∨ f.base ≠ chan.base) : ((s.dmEvent d die chan n).die d).fld f k = (s.die d).fld f k := by
  have block := hf.inBlock hk
  have quiet : Quiet (fldAddr f k 0) := by omega
  have apart : fldAddr f k 0 ≠ fldAddr chan n 0 := by
    refine hc.apart hf ?_
    rcases h with h | h
    · exact .inl h
    · exact .inr h.symm
  have below : fldAddr f k 0 ≠ fldAddr die 0 0 := by
    obtain ⟨-, -, lo, -⟩ := hf
    rw [fldAddr, fldAddr, hd.2]
    omega
  unfold State.dmEvent
  rw [(State.event_posted _ d chan n 0).fld _ _ _ quiet, Die.fld_setFld_addr _ _ _ _ _ _ _ _ apart, (State.event_posted _ d die 0 n).fld _ _ _ quiet,
    Die.fld_setFld_addr _ _ _ _ _ _ _ _ below]
@[simp] theorem State.dmEvent_dma (s : State) (d : DieId) (die chan : Fld) (n : Nat) : ((s.dmEvent d die chan n).die d).dma = (s.die d).dma :=
  ((State.event_posted _ d chan n 0).dma.trans (State.event_posted s d die 0 n).dma :)
@[simp] theorem State.dmEvent_par (s : State) (d : DieId) (die chan : Fld) (n : Nat) : ((s.dmEvent d die chan n).die d).par = (s.die d).par :=
  ((State.event_posted _ d chan n 0).par.trans (State.event_posted s d die 0 n).par :)

/-- A service request leaves the registers of the channels. -/
theorem State.serve_chanFld (s : State) (d : DieId) {f : Fld} {k n : Nat} (hk : k < 128) (hf : f.ofChan) :
    ((s.serve d .dmaChannel n).die d).fld f k = (s.die d).fld f k := by
  have block := hf.inBlock hk
  exact (s.serve_kept (P := fun _ a _ _ => Quiet a ∧ a < 0x220000) (fun _ _ _ _ p => p.1) (fun a _ _ p => .inl p.2) .dmaChannel n).fld d f k 0
    ⟨by omega, by omega⟩

end Sys2Proof.Machine
end

section
/-! The start of an idle channel, its stop, and the end of an activation (R490, R503). -/

namespace Sys2Proof.Machine

variable {s : State} {d : DieId} {n : Nat}

/-! ### Start -/

@[simp] theorem State.serve_par (s : State) (d : DieId) (k : ItemKind) (i : Nat) : ((s.serve d k i).die d).par = (s.die d).par := by
  unfold State.serve
  dsimp only
  split
  · rw [(State.event_posted _ d _ 0 _).par, State.die_upd_same]
    rfl
  · rfl
theorem State.dmaStart_par (s : State) (d : DieId) (n : Nat) (src : StartSrc) (depth : Nat) :
    ((s.dmaStart d n src depth).die d).par = (s.die d).par := by
  rw [← s.serve_par d .dmaChannel n]
  unfold State.dmaStart
  generalize s.serve d .dmaChannel n = u
  have missed : (((u.count d R.DM_CH_MISSED n).dmEvent d R.DM_EVENTS_MISSED R.DM_CH_EVENTS_MISSED n).die d).par = (u.die d).par := by
    rw [State.dmEvent_par, State.count, State.die_upd_same]
    rfl
  dsimp only
  split
  · rfl
  split
  · exact missed
  split
  · rw [State.die_upd_same]; rfl
  split
  · rw [State.die_upd_same]; rfl
  · exact missed
/-- A channel in IDLE that its STARTS allows the source begins. -/
theorem State.dmaStart_idle {src : StartSrc} (depth : Nat) (hn : n < 128) (hused : (s.die d).flag R.DM_CH_CFG_USED n = true)
    (hsrc : bit ((s.die d).fld R.DM_CH_CFG_STARTS n) src.bit = true) (hidle : (s.die d).chState n = 0) :
    s.dmaStart d n src depth = (s.serve d .dmaChannel n).upd d fun x => x.dmaBegin n depth := by
  have used : ((s.serve d .dmaChannel n).die d).flag R.DM_CH_CFG_USED n = true :=
    (congrArg (· == 1) (s.serve_chanFld d hn (by decide))).trans hused
  have allowed : bit (((s.serve d .dmaChannel n).die d).fld R.DM_CH_CFG_STARTS n) src.bit = true :=
    (congrArg (bit · src.bit) (s.serve_chanFld d hn (by decide))).trans hsrc
  have idle : ((s.serve d .dmaChannel n).die d).chState n = 0 := (s.serve_chanFld d hn (by decide)).trans hidle
  simp only [State.dmaStart, used, allowed, idle, Bool.and_self, Bool.not_true, Bool.false_eq_true, if_false, if_true, OfNat.zero_ne_ofNat]
theorem Die.dmaBegin_state (x : Die) (n depth : Nat) : (x.dmaBegin n depth).fld R.DM_CH_STATUS_STATE n = 1 :=
  Die.fld_setFld_same _ R.DM_CH_STATUS_STATE 1 n 0 (by decide)
theorem Die.dmaBegin_depth (x : Die) (n depth : Nat) : ((x.dmaBegin n depth).chan n).depth = depth := by
  rw [Die.dmaBegin, Die.chan_modChan_same]

/-! ### Stop -/

theorem Die.dropOpen_regs (x : Die) (d : DieId) (n : Nat) : (x.dropOpen d n).regs = x.regs := by
  unfold Die.dropOpen
  split <;> rfl
/-- A channel that stops, before its stop is reported. -/
def Die.dmaStopped (x : Die) (d : DieId) (n cause : Nat) : Die :=
  let c := x.chan n
  let frame := unsgn 16 (x.frameLine (x.fld R.DM_CH_CFG_CADENCE n)).1
  let x := ((x.setFld R.DM_CH_STATUS_STATE 2 n).setFld R.DM_CH_STATUS_CAUSE cause n).setFld R.DM_CH_STATUS_PENDING 0 n
  let x := (x.setFld R.DM_CH_FAULT_AT_INDEX c.pc n).setFld R.DM_CH_FAULT_AT_FRAME frame n
  let x := x.dropOpen d n
  x.modChan n fun c => { c with pendDepths := [], wait := none, blocked := none, accesses := [], loops := [] }
theorem State.dmaStop_eq (s : State) (d : DieId) (n cause : Nat) : s.dmaStop d n cause =
    let r := s.upd d fun x => x.dmaStopped d n cause
    (r.dmEvent d R.DM_EVENTS_STOPPED R.DM_CH_EVENTS_STOPPED n).hbCad d (codeOf R.DM_EVENTS_STOPPED) n (r.fld d R.DM_CH_CFG_CADENCE n) cause := rfl

theorem Die.dmaStopped_beside (x : Die) (d : DieId) (n cause : Nat) : (x.dmaStopped d n cause).beside n = x.beside n := by
  simp (disch := decide) only [Die.dmaStopped, Die.modChan_beside, Die.dropOpen_beside, Die.setFld_beside]
theorem Die.dmaStopped_status (x : Die) (d : DieId) (n cause : Nat) : (x.dmaStopped d n cause).fld R.DM_CH_STATUS_STATE n = 2 ∧
    (x.dmaStopped d n cause).fld R.DM_CH_STATUS_CAUSE n = cause % 8 ∧ (x.dmaStopped d n cause).fld R.DM_CH_STATUS_PENDING n = 0 := by
  have status (f : Fld) (hf : f.ofChan ∧ f.base = 0x1D1004) : (x.dmaStopped d n cause).fld f n =
      (((x.setFld R.DM_CH_STATUS_STATE 2 n).setFld R.DM_CH_STATUS_CAUSE cause n).setFld R.DM_CH_STATUS_PENDING 0 n).fld f n := by
    have frame : fldAddr f n 0 ≠ fldAddr R.DM_CH_FAULT_AT_FRAME n 0 := Fld.ofChan.apart (by decide) hf.1 (.inr (by rw [hf.2]; decide))
    have index : fldAddr f n 0 ≠ fldAddr R.DM_CH_FAULT_AT_INDEX n 0 := frame
    have same (y : Die) : ((y.dropOpen d n).modChan n fun c => { c with pendDepths := [], wait := none, blocked := none, accesses := [], loops := [] }).fld
        f n = y.fld f n := by
      unfold Die.fld Die.reg
      rw [Die.modChan_regs, Die.dropOpen_regs]
    refine (same _).trans ?_
    rw [Die.fld_setFld_addr _ _ _ _ _ _ _ _ frame, Die.fld_setFld_addr _ _ _ _ _ _ _ _ index]
  rw [status _ (by decide), status _ (by decide), status _ (by decide)]
  refine ⟨?_, ?_, Die.fld_setFld_same _ _ _ _ _ (by decide)⟩
  · rw [Die.fld_setFld_apart _ _ _ _ _ _ _ _ (by decide) (by decide) (by decide),
      Die.fld_setFld_apart _ _ _ _ _ _ _ _ (by decide) (by decide) (by decide), Die.fld_setFld_same _ _ _ _ _ (by decide)]
    rfl
  · rw [Die.fld_setFld_apart _ _ _ _ _ _ _ _ (by decide) (by decide) (by decide), Die.fld_setFld_same _ _ _ _ _ (by decide)]
    rfl
theorem State.dmaStop_status (s : State) (d : DieId) (hn : n < 128) (cause : Nat) : (s.dmaStop d n cause).fld d R.DM_CH_STATUS_STATE n = 2 ∧
    (s.dmaStop d n cause).fld d R.DM_CH_STATUS_CAUSE n = cause % 8 ∧ (s.dmaStop d n cause).fld d R.DM_CH_STATUS_PENDING n = 0 := by
  have reported (f : Fld) (hf : f.ofChan ∧ f.base = 0x1D1004) : (s.dmaStop d n cause).fld d f n = ((s.die d).dmaStopped d n cause).fld f n := by
    have block := hf.1.inBlock hn
    rw [State.fld, State.dmaStop_eq]
    dsimp only [State.hbCad]
    rw [(State.hbRecord_posted _ d d _ _ _ _ _).fld _ _ _ (by omega),
      State.dmEvent_fld _ d hn (by decide) (by decide) hf.1 (.inr (by rw [hf.2]; decide)), State.die_upd_same]
  rw [reported _ (by decide), reported _ (by decide), reported _ (by decide)]
  exact Die.dmaStopped_status _ d n cause
theorem State.dmaStop_dma (s : State) (d : DieId) (n cause : Nat) : ((s.dmaStop d n cause).die d).dma = ((s.die d).dmaStopped d n cause).dma := by
  rw [State.dmaStop_eq]
  dsimp only [State.hbCad]
  rw [(State.hbRecord_posted _ d d _ _ _ _ _).dma, State.dmEvent_dma, State.die_upd_same]
theorem State.dmaStop_par (s : State) (d : DieId) (n cause : Nat) : ((s.dmaStop d n cause).die d).par = (s.die d).par := by
  rw [State.dmaStop_eq]
  dsimp only [State.hbCad]
  rw [(State.hbRecord_posted _ d d _ _ _ _ _).par, State.dmEvent_par, State.die_upd_same, Die.par_of_beside (Die.dmaStopped_beside _ d n cause)]
theorem State.dmaStop_tiles (s : State) (d : DieId) (n cause : Nat) : ((s.dmaStop d n cause).die d).tiles = (s.die d).tiles := by
  rw [State.dmaStop_eq]
  dsimp only [State.hbCad]
  rw [(State.hbRecord_posted _ d d _ _ _ _ _).tiles, State.dmEvent_tiles, State.die_upd_same,
    Die.tiles_of_beside (Die.dmaStopped_beside _ d n cause)]
/-- A channel that stops waits for nothing. -/
theorem State.dmaStop_wait (s : State) (d : DieId) (n cause : Nat) : (((s.dmaStop d n cause).die d).chan n).wait = none := by
  have waits : (((s.die d).dmaStopped d n cause).chan n).wait = none := by rw [Die.dmaStopped, Die.chan_modChan_same]
  rw [← waits]
  exact congrArg (fun m : Dma => (mget (fun _ => ({} : DmaChan)) m.chans n).wait) (s.dmaStop_dma d n cause)

/-! ### End -/

/-- The end of an activation with none pending, on a channel that no plan ends. -/
theorem Die.dmaEnd_last {x : Die} (he : (x.chan n).ending = false) (hp : x.fld R.DM_CH_STATUS_PENDING n = 0) :
    (x.dmaEnd d n).fld R.DM_CH_STATUS_STATE n = 0 ∧ (x.dmaEnd d n).fld R.DM_CH_LAST_COUNT_COUNT n = (x.chan n).issued % 2 ^ 20 ∧
      (x.dmaEnd d n).fld R.DM_CH_ACTIVATIONS n = (x.fld R.DM_CH_ACTIVATIONS n + 1) % 2 ^ 32 := by
  have apart (f g : Fld) (hf : f.ofChan) (hg : g.ofChan) (h : f.base ≠ g.base) : fldAddr g n 0 ≠ fldAddr f n 0 := hf.apart hg (.inr h)
  have pending : (((x.count R.DM_CH_ACTIVATIONS n).setFld R.DM_CH_LAST_COUNT_COUNT (x.chan n).issued n).setFld R.DM_CH_STATUS_STATE 0 n).fld
      R.DM_CH_STATUS_PENDING n = 0 := by
    rw [Die.fld_setFld_apart _ _ _ _ _ _ _ _ (by decide) (by decide) (by decide),
      Die.fld_setFld_addr _ _ _ _ _ _ _ _ (apart _ _ (by decide) (by decide) (by decide)), Die.count,
      Die.fld_setFld_addr _ _ _ _ _ _ _ _ (apart _ _ (by decide) (by decide) (by decide)), hp]
  have ended (f : Fld) : (x.dmaEnd d n).fld f n =
      (((x.count R.DM_CH_ACTIVATIONS n).setFld R.DM_CH_LAST_COUNT_COUNT (x.chan n).issued n).setFld R.DM_CH_STATUS_STATE 0 n).fld f n := by
    unfold Die.dmaEnd
    dsimp only
    rw [he, pending, if_neg (by decide), if_neg (by decide)]
    rfl
  rw [ended, ended, ended]
  refine ⟨Die.fld_setFld_same _ _ _ _ _ (by decide), ?_, ?_⟩
  · rw [Die.fld_setFld_addr _ _ _ _ _ _ _ _ (apart _ _ (by decide) (by decide) (by decide)), Die.fld_setFld_same _ _ _ _ _ (by decide)]
    rfl
  · rw [Die.fld_setFld_addr _ _ _ _ _ _ _ _ (apart _ _ (by decide) (by decide) (by decide)),
      Die.fld_setFld_addr _ _ _ _ _ _ _ _ (apart _ _ (by decide) (by decide) (by decide)), Die.fld_count_same _ _ _ _ (by decide)]
    rfl

end Sys2Proof.Machine
end

section
/-! WAIT and SIGNAL (R498, R499, R501). -/

namespace Sys2Proof.Machine

variable {s : State} {d : DieId} {n : Nat}

/-! ### SIGNAL -/

/-- FLAG and POST of a SIGNAL. -/
def State.dmaRaise (s : State) (d : DieId) (w : Nat) : State :=
  let s := if bit w 122 then
      let t := bits w 106 102 * 48 + bits w 112 107
      s.upd d fun x => x.setTile t ((x.tile t).signalFlag (bits w 101 98))
    else s
  if bit w 121 then s.post d (bits w 97 86) else s
/-- START and END of a SIGNAL, and its step. -/
def State.dmaGoOn (s : State) (d : DieId) (n w : Nat) : State :=
  let depth := ((s.die d).chan n).depth + 1
  if bit w 120 ∧ depth = 16 then s.dmaStop d n 5
  else
    let s := if bit w 120 then s.dmaStart d (bits w 85 79) .signal depth else s
    if bit w 123 then s.upd d fun x => x.dmaEnd d n else s.upd d fun x => x.modChan n fun c => c.step 1

theorem State.dmaSignal_ready {w : Nat} (ha : ((s.die d).chan n).accesses = []) (hr : (s.die d).dmaReady n = true)
    (hb : ((s.die d).chan n).issued < ((s.die d).chan n).budget)
    (hw : (s.die d).word (s.fld d R.DM_CH_CFG_FIRST n + ((s.die d).chan n).pc) = w) (hop : bits w 127 124 = 4) (ht : bit w 119 = false) :
    s.dmaSignal d n .clean = ((s.upd d fun x => x.modChan n DmaChan.issue).dmaRaise d w).dmaGoOn d n w := by
  rw [State.dmaSignal, ha, State.dmaIssue_ready _ hr hb hw hop rfl]
  simp only [ht, Bool.false_eq_true, if_false]
  rfl

theorem State.dmaRaise_dma (s : State) (d : DieId) (w : Nat) : ((s.dmaRaise d w).die d).dma = (s.die d).dma := by
  have post (r : State) (m : Nat) : ((r.post d m).die d).dma = (r.die d).dma := congrArg (fun p => p.2.1) (r.post_engine d m)
  unfold State.dmaRaise
  dsimp only
  split <;> split
  · rw [post, State.die_upd_same]; rfl
  · rw [post]
  · rw [State.die_upd_same]; rfl
  · rfl
theorem State.dmaRaise_fld (s : State) (d : DieId) (w : Nat) {f : Fld} (hf : f.ofChan) {k : Nat} (hk : k < 128) :
    ((s.dmaRaise d w).die d).fld f k = (s.die d).fld f k := by
  have post (r : State) (m : Nat) : ((r.post d m).die d).fld f k = (r.die d).fld f k := Die.fld_of_engine (r.post_engine d m) (hf.inBlock hk)
  unfold State.dmaRaise
  dsimp only
  split <;> split
  · rw [post, State.die_upd_same]; rfl
  · rw [post]
  · rw [State.die_upd_same]; rfl
  · rfl
theorem State.dmaRaise_tile (s : State) (d : DieId) (w : Nat) (h : bit w 122 = true) :
    ((s.dmaRaise d w).die d).tile (bits w 106 102 * 48 + bits w 112 107) =
      ((s.die d).tile (bits w 106 102 * 48 + bits w 112 107)).signalFlag (bits w 101 98) := by
  have post (r : State) (m t : Nat) : ((r.post d m).die d).tile t = (r.die d).tile t := Die.tile_of_engine (r.post_engine d m) t
  simp only [State.dmaRaise, h, if_true]
  split
  · rw [post, State.die_upd_same, Die.tile_setTile_same]
  · rw [State.die_upd_same, Die.tile_setTile_same]
theorem State.dmaRaise_count (s : State) (d : DieId) (w : Nat) (h : bit w 121 = true) (hc : ((s.die d).th (bits w 97 86)).claimed = true)
    (hn : -32768 < ((s.die d).th (bits w 97 86)).count) (hs : ((s.die d).th (bits w 97 86)).state ≠ .waiting) :
    (((s.dmaRaise d w).die d).th (bits w 97 86)).count = ((s.die d).th (bits w 97 86)).count - 1 := by
  have post (r : State) (hr : (r.die d).th (bits w 97 86) = (s.die d).th (bits w 97 86)) :
      (((r.post d (bits w 97 86)).die d).th (bits w 97 86)).count = ((s.die d).th (bits w 97 86)).count - 1 := by
    rw [← hr] at hc hn hs ⊢
    rw [State.post_running hc hn hs, State.die_upd_same, Die.th_modTh_same]
  simp only [State.dmaRaise, h, if_true]
  refine post _ ?_
  split
  · rw [State.die_upd_same]; rfl
  · rfl

theorem State.dmaGoOn_tiles (s : State) (d : DieId) (n w : Nat) : ((s.dmaGoOn d n w).die d).tiles = (s.die d).tiles := by
  unfold State.dmaGoOn
  dsimp only
  split
  · exact s.dmaStop_tiles d n 5
  split <;> rw [State.die_upd_same]
  · rw [Die.tiles_of_beside (Die.dmaEnd_beside _ d n)]
    split
    · exact s.dmaStart_tiles d _ _ _
    · rfl
  · rw [Die.modChan_tiles]
    split
    · exact s.dmaStart_tiles d _ _ _
    · rfl
theorem State.dmaGoOn_par (s : State) (d : DieId) (n w : Nat) : ((s.dmaGoOn d n w).die d).par = (s.die d).par := by
  unfold State.dmaGoOn
  dsimp only
  split
  · exact s.dmaStop_par d n 5
  split <;> rw [State.die_upd_same]
  · rw [Die.par_of_beside (Die.dmaEnd_beside _ d n)]
    split
    · exact s.dmaStart_par d _ _ _
    · rfl
  · rw [Die.modChan_par]
    split
    · exact s.dmaStart_par d _ _ _
    · rfl
theorem State.dmaGoOn_starts (w : Nat) (h : bit w 120 = true) (hd : ((s.die d).chan n).depth < 15) (hk : bits w 85 79 ≠ n)
    (hused : (s.die d).flag R.DM_CH_CFG_USED (bits w 85 79) = true) (hsrc : bit ((s.die d).fld R.DM_CH_CFG_STARTS (bits w 85 79)) 3 = true)
    (hidle : (s.die d).chState (bits w 85 79) = 0) : ((s.dmaGoOn d n w).die d).fld R.DM_CH_STATUS_STATE (bits w 85 79) = 1 ∧
      (((s.dmaGoOn d n w).die d).chan (bits w 85 79)).depth = ((s.die d).chan n).depth + 1 := by
  have k128 : bits w 85 79 < 128 := Nat.mod_lt _ (by decide)
  have begun := State.dmaStart_idle (src := .signal) (((s.die d).chan n).depth + 1) k128 hused hsrc hidle
  have shallow : ¬(bit w 120 = true ∧ ((s.die d).chan n).depth + 1 = 16) := by omega
  have started : ((s.dmaStart d (bits w 85 79) .signal (((s.die d).chan n).depth + 1)).die d).fld R.DM_CH_STATUS_STATE (bits w 85 79) = 1 ∧
      (((s.dmaStart d (bits w 85 79) .signal (((s.die d).chan n).depth + 1)).die d).chan (bits w 85 79)).depth = ((s.die d).chan n).depth + 1 := by
    rw [begun, State.die_upd_same]
    exact ⟨Die.dmaBegin_state _ _ _, Die.dmaBegin_depth _ _ _⟩
  have goes : ((s.dmaGoOn d n w).die d).beside n = ((s.dmaStart d (bits w 85 79) .signal (((s.die d).chan n).depth + 1)).die d).beside n := by
    simp only [State.dmaGoOn, if_neg shallow, if_pos h]
    split <;> rw [State.die_upd_same]
    · exact Die.dmaEnd_beside _ d n
    · exact Die.modChan_beside _ n _
  rw [Die.fld_of_beside goes hk (by decide), Die.chan_of_beside goes hk]
  exact started

theorem State.dmaGoOn_deep {w : Nat} (h : bit w 120 = true) (hd : ((s.die d).chan n).depth = 15) : s.dmaGoOn d n w = s.dmaStop d n 5 := by
  simp only [State.dmaGoOn, h, hd, and_self, if_true]
theorem State.dmaGoOn_alone {w : Nat} (h : bit w 120 = false) :
    s.dmaGoOn d n w = s.upd d fun x => if bit w 123 then x.dmaEnd d n else x.modChan n fun c => c.step 1 := by
  simp only [State.dmaGoOn, h, Bool.false_eq_true, false_and, if_false]
  split <;> rfl

/-! ### WAIT -/

theorem State.dmaWait_ready {w k : Nat} (hr : (s.die d).dmaReady n = true) (hb : ((s.die d).chan n).issued < ((s.die d).chan n).budget)
    (hw : (s.die d).word (s.fld d R.DM_CH_CFG_FIRST n + ((s.die d).chan n).pc) = w) (hop : bits w 127 124 = 3) (hk : bits w 123 121 = k) :
    s.dmaWait d n k .clean = s.upd d fun x => x.modChan n fun c => { c with
      issued := c.issued + 1
      wait := some ⟨k, bits w 103 94, bit w 93, bits w 92 80, bits w 79 56, bit w 120, bits w 119 104, false⟩ } := by
  rw [State.dmaWait, State.dmaIssue_ready _ hr hb hw hop (by rw [hk]; exact beq_self_eq_true k), State.upd_upd]
  simp only [Die.modChan_modChan]
  rfl

/-- A WAIT whose condition holds ends. -/
theorem Die.dmaWaitDone_holds {x : Die} {v : DmaWait} (hv : (x.chan n).wait = some v) (hr : x.chState n = 1) (he : (x.chan n).ending = false)
    (hc : v.cond ≠ 3) (hh : x.waitHolds n v = true) : x.dmaWaitDone d n = x.modChan n fun c => { c with wait := none }.step 1 := by
  simp only [Die.dmaWaitDone, hv, hr, hh, he, hc, beq_self_eq_true, Bool.and_self, if_true, if_false, Bool.false_eq_true]
/-- A WAIT for a start event takes the event. -/
theorem Die.dmaWaitDone_start {x : Die} {v : DmaWait} (hv : (x.chan n).wait = some v) (hr : x.chState n = 1) (he : (x.chan n).ending = false)
    (hc : v.cond = 3) (hp : 1 ≤ x.fld R.DM_CH_STATUS_PENDING n) : x.dmaWaitDone d n =
      (x.setFld R.DM_CH_STATUS_PENDING (x.fld R.DM_CH_STATUS_PENDING n - 1) n).modChan n fun c =>
        { c with wait := none, pendDepths := c.pendDepths.drop 1 }.step 1 := by
  have holds : x.waitHolds n v = true := by
    simp only [Die.waitHolds, hc]
    exact decide_eq_true hp
  have goesOn : (((x.setFld R.DM_CH_STATUS_PENDING (x.fld R.DM_CH_STATUS_PENDING n - 1) n).modChan n fun c =>
      { c with pendDepths := c.pendDepths.drop 1 }).chan n).ending = false := by
    rw [Die.chan_modChan_same]
    exact he
  simp only [Die.dmaWaitDone, hv, hr, holds, hc, beq_self_eq_true, Bool.and_self, if_true, goesOn, Bool.false_eq_true, if_false,
    Die.modChan_modChan]

section Timeout

variable {v : DmaWait} (hv : ((s.die d).chan n).wait = some v) (hr : (s.die d).chState n = 1) (he : ((s.die d).chan n).ending = false)
  (hl : v.left = 0)

include hv hr he hl

/-- A WAIT that times out goes on with SKIP (R498). -/
theorem State.dmaWaitTimeout_skips (hs : v.skip = true) : s.dmaWaitTimeout d n =
    ((s.upd d fun x => x.modChan n fun c => { c with wait := none }.step 1).count d R.DM_CH_WAIT_SKIPS n).dmEvent d R.DM_EVENTS_WAIT_SKIP
      R.DM_CH_EVENTS_WAIT_SKIP n := by
  simp only [State.dmaWaitTimeout, hv, hr, hl, he, hs, and_self, if_true, Bool.false_eq_true, if_false]
/-- Without SKIP it stops the channel (R503). -/
theorem State.dmaWaitTimeout_stops (hs : v.skip = false) : s.dmaWaitTimeout d n = s.dmaStop d n 3 := by
  simp only [State.dmaWaitTimeout, hv, hr, hl, he, hs, and_self, if_true, Bool.false_eq_true, if_false]

end Timeout

end Sys2Proof.Machine

namespace Sys2Proof
open Sys2Proof.Machine

/-- Settles O26: each command is an issue, a wait that ends, a stop or an end of the channel, and a SIGNAL is its FLAG and POST before its
START and END. -/
theorem dmaWaitsAndSignals : Obligations.DmaWaitsAndSignals := by
  intro s d n hd x c w on st pend hend
  refine ⟨fun hr hb hop => ?_, fun v hv hrun => ⟨fun hcond hline hpace hfill => ?_, fun hcond hp => ?_, fun hleft hskip => ?_,
    fun hleft hskip => ?_⟩, fun hr hb hop hacc htake => ?_⟩
  · intro k waits
    have waited (i : Instr) (j : Nat) (he : exec i s = onDie s d true (s.dmaWait d n j .clean)) (hk : k = j) : exec i s = waits := by
      rw [he, State.dmaWait_ready hr hb rfl hop hk, onDie_next_of_pending hd (State.upd_pending _ _ _), ← hk]
    exact ⟨waited _ 0 rfl, waited _ 1 rfl, waited _ 2 rfl, waited _ 3 rfl⟩
  · have holds : x.waitHolds n v = true := by
      have three : v.cond = 0 ∨ v.cond = 1 ∨ v.cond = 2 := by omega
      rcases three with h | h | h <;> simp only [Die.waitHolds, h]
      · exact hline h
      · exact hpace h
      · exact decide_eq_true (hfill h)
    have done : x.dmaWaitDone d n = x.modChan n fun c => { c with wait := none }.step 1 :=
      Die.dmaWaitDone_holds hv hrun hend (by omega) holds
    exact (onDie_next_of_pending hd (State.upd_pending s d _)).trans (congrArg (fun y => Host.Outcome.next (s.setDie d y)) done)
  · have done := Die.dmaWaitDone_start (d := d) hv hrun hend hcond hp
    have small : pend < 256 := x.fld_lt R.DM_CH_STATUS_PENDING n 0
    refine completes_onDie hd (P := fun r => r.fld d R.DM_CH_STATUS_PENDING n = pend - 1 ∧
      (r.die d).chan n = { c with wait := none, pendDepths := c.pendDepths.drop 1 }.step 1) ?_
    have die : (s.upd d fun x => x.dmaWaitDone d n).die d = _ := (State.die_upd_same s d _).trans done
    refine ⟨?_, ?_⟩
    · refine (congrArg (fun y : Die => y.fld R.DM_CH_STATUS_PENDING n) die).trans ?_
      refine (Die.fld_setFld_same x R.DM_CH_STATUS_PENDING _ n 0 (by decide)).trans (Nat.mod_eq_of_lt ?_)
      change pend - 1 < 256
      omega
    · refine (congrArg (fun y : Die => y.chan n) die).trans ?_
      rw [Die.chan_modChan_same]
      rfl
  · have skipped := State.dmaWaitTimeout_skips hv hrun hend hleft hskip
    refine completes_onDie hd (P := fun r => (r.die d).chan n = { c with wait := none }.step 1 ∧
      r.fld d R.DM_CH_WAIT_SKIPS n = (s.fld d R.DM_CH_WAIT_SKIPS n + 1) % 2 ^ 32) ?_
    rw [skipped]
    refine ⟨?_, ?_⟩
    · change mget _ (State.die (State.dmEvent _ _ _ _ _) d).dma.chans n = _
      rw [State.dmEvent_dma, State.count, State.die_upd_same, State.die_upd_same]
      exact Die.chan_modChan_same x n _
    · change (State.die (State.dmEvent _ _ _ _ _) d).fld R.DM_CH_WAIT_SKIPS n = _
      rw [State.dmEvent_fld _ d n.isLt (by decide) (by decide) (by decide) (.inr (by decide)), State.count, State.die_upd_same, State.die_upd_same]
      exact Die.fld_count_same _ _ _ _ (by decide)
  · have stops := State.dmaWaitTimeout_stops hv hrun hend hleft hskip
    refine completes_onDie hd (P := fun r => st r = 2 ∧ r.fld d R.DM_CH_STATUS_CAUSE n = 3 ∧ r.fld d R.DM_CH_STATUS_PENDING n = 0 ∧
      ((r.die d).chan n).wait = none) ?_
    rw [stops]
    obtain ⟨hstate, hcause, hpending⟩ := s.dmaStop_status d n.isLt 3
    exact ⟨hstate, hcause, hpending, s.dmaStop_wait d n 3⟩
  · intro tile th k
    set u := s.upd d fun x => x.modChan n DmaChan.issue
    have issued : u.die d = x.modChan n DmaChan.issue := State.die_upd_same _ _ _
    set r := u.dmaRaise d w
    have chan (j : Nat) : (r.die d).chan j = (x.modChan n DmaChan.issue).chan j :=
      congrArg (fun m : Dma => mget (fun _ => ({} : DmaChan)) m.chans j) ((u.dmaRaise_dma d w).trans (congrArg Die.dma issued))
    have own : (r.die d).chan n = c.issue := (chan n).trans (Die.chan_modChan_same x n _)
    have fld {f : Fld} (hf : f.ofChan) {j : Nat} (hj : j < 128) : (r.die d).fld f j = x.fld f j :=
      (u.dmaRaise_fld d w hf hj).trans (by rw [issued]; rfl)
    have k128 : k < 128 := Nat.mod_lt _ (by decide)
    refine completes_onDie hd ?_
    rw [State.dmaSignal_ready hacc hr hb rfl hop htake]
    refine ⟨fun hflag => ?_, fun hpost hclaimed hcount hstate => ?_, fun hstart hdepth hk hused hsrc hidle => ?_, fun hstart hdepth => ?_,
      fun hstart hends hpend => ?_, fun hstart hends => ?_⟩
    · have tiles := Die.tile_of_tiles (r.dmaGoOn_tiles d n w) tile
      refine tiles.trans ((u.dmaRaise_tile d w hflag).trans ?_)
      rw [issued]
      rfl
    · have threads : (u.die d).th th = x.th th := by rw [issued]; rfl
      have par : ((r.dmaGoOn d n w).die d).th th = (r.die d).th th := congrArg (fun p : Parlour => mget _ p.threads th) (r.dmaGoOn_par d n w)
      have posted := u.dmaRaise_count d w hpost (by rw [threads]; exact hclaimed) (by rw [threads]; exact hcount)
        (by rw [threads, hstate]; decide)
      exact (congrArg Thread.count par).trans (posted.trans (by rw [threads]))
    · have depth : ((r.die d).chan n).depth = c.depth := by rw [own]; rfl
      have starts := State.dmaGoOn_starts w hstart (depth ▸ hdepth) hk ((congrArg (· == 1) (fld (by decide) k128)).trans hused)
        ((congrArg (bit · 3) (fld (by decide) k128)).trans hsrc) ((fld (by decide) k128).trans hidle)
      rwa [depth] at starts
    · have deep : r.dmaGoOn d n w = r.dmaStop d n 5 := State.dmaGoOn_deep hstart (by rw [own]; exact hdepth)
      rw [deep]
      obtain ⟨hstate, hcause, -⟩ := r.dmaStop_status d n.isLt 5
      exact ⟨hstate, hcause⟩
    · have ended : (r.dmaGoOn d n w).die d = (r.die d).dmaEnd d n := by
        rw [State.dmaGoOn_alone hstart, State.die_upd_same, if_pos hends]
      obtain ⟨hstate, hlast, hcount⟩ := Die.dmaEnd_last (d := d) (x := r.die d) (n := n) (by rw [own]; exact hend)
        ((fld (by decide) n.isLt).trans hpend)
      rw [own] at hlast
      rw [fld (f := R.DM_CH_ACTIVATIONS) (by decide) n.isLt] at hcount
      rw [← ended] at hstate hlast hcount
      exact ⟨hstate, hlast, hcount⟩
    · have stepped : (r.dmaGoOn d n w).die d = (r.die d).modChan n fun c => c.step 1 := by
        rw [State.dmaGoOn_alone hstart, State.die_upd_same, if_neg (by rw [hends]; decide)]
      change ((r.dmaGoOn d n w).die d).chan n = _
      rw [stepped, Die.chan_modChan_same, own]
      rfl

end Sys2Proof
end

section
/-! The thread that runs on a core (R518, R520, R526, R527): what an instruction of it is given, and what its leave of the core, a new ready
list and a stop leave of the die. -/

namespace Sys2Proof.Machine

theorem Die.modCore_th (x : Die) (c n : Nat) (f : CoreSt → CoreSt) : (x.modCore c f).th n = x.th n := rfl
theorem Die.modTh_core (x : Die) (n c : Nat) (f : Thread → Thread) : (x.modTh n f).core c = x.core c := rfl

/-! ### The thread that acts -/

theorem Die.executing_iff {x : Die} {c n : Nat} : x.executing c = some n ↔
    (x.core c).syncing = false ∧ (x.core c).run = some n ∧ (x.th n).exhausted = false := by
  unfold Die.executing
  split
  next h => simp [h]
  next h => simp [h, Option.filter_eq_some_iff]

section Acts

variable {s : State} {d : DieId} {c : Fin 8}

/-- A thread runs on a core whose instruction acts, and no SYNC holds it. -/
theorem State.coreReady_runs (h : s.coreReady d c = true) : s.has d = true ∧ (s.die d).executing c = some (s.thread d c) ∧
    ((s.die d).window c (s.regsOf d c).pc.toNat).isNone = false := by
  simp only [State.coreReady, Bool.and_eq_true] at h
  obtain ⟨⟨hd, he⟩, hw⟩ := h
  obtain ⟨n, hn⟩ := Option.isSome_iff_exists.mp he
  have thread : s.thread d c = n := by rw [State.thread, hn]; rfl
  exact ⟨hd, thread ▸ hn, Option.isNone_eq_false_iff.mpr hw⟩
theorem State.coreDo_acts {n : Nat} (he : (s.die d).executing c = some n)
    (hw : ((s.die d).window c (s.regsOf d c).pc.toNat).isNone = false) (f : Nat → State → State) : s.coreDo d c f = f n s := by
  have hw : ((s.die d).window c ((s.die d).core c).regs.pc.toNat).isNone = false := hw
  simp only [State.coreDo, he, hw, Bool.false_eq_true, if_false]
theorem State.coreDo_ready (h : s.coreReady d c = true) (f : Nat → State → State) : s.coreDo d c f = f (s.thread d c) s := by
  obtain ⟨-, he, hw⟩ := State.coreReady_runs h
  exact State.coreDo_acts he hw f

/-! ### An instruction's own course (R526, R530) -/

theorem Die.spend_core (x : Die) (c n k j : Nat) : (x.spend c n k).core j = x.core j := rfl
theorem Die.spend_th (x : Die) (c n k m : Nat) : (x.spend c n k).th m = if m = n then { x.th m with used := (x.th m).used + k } else x.th m := by
  change (x.modTh n fun t => { t with used := t.used + k }).th m = _
  rw [Die.modTh_th]
  split
  next h => rw [h]
  next => rfl
theorem State.ran_die (s : State) (d : DieId) (c k : Nat) (g : CoreRegs) :
    (s.ran d c k g).die d = (((s.die d).modCore c fun u => { u with regs := g }).spend c (s.thread d c) k) := State.die_upd_same _ _ _
theorem State.ran_core (s : State) (d : DieId) (c k : Nat) (g : CoreRegs) : ((s.ran d c k g).die d).core c = { (s.die d).core c with regs := g } := by
  rw [State.ran_die, Die.spend_core, Die.core_modCore_same]
theorem State.ran_regsOf (s : State) (d : DieId) (c k : Nat) (g : CoreRegs) : (s.ran d c k g).regsOf d c = g := by
  rw [State.regsOf, State.ran_core]
theorem State.ran_th (s : State) (d : DieId) (c k : Nat) (g : CoreRegs) (m : Nat) : ((s.ran d c k g).die d).th m =
    if m = s.thread d c then { (s.die d).th m with used := ((s.die d).th m).used + k } else (s.die d).th m := by
  rw [State.ran_die, Die.spend_th]
  rfl
/-- Of a thread an instruction changes the cycles used alone. -/
theorem State.ran_keeps {α : Type} (f : Thread → α) (hf : ∀ t k, f { t with used := k } = f t) (s : State) (d : DieId) (c k : Nat) (g : CoreRegs)
    (m : Nat) : f (((s.ran d c k g).die d).th m) = f ((s.die d).th m) := by
  rw [State.ran_th]
  split
  · exact hf _ _
  · rfl
theorem State.ran_masterLine (s : State) (d : DieId) (c : Fin 8) (k : Nat) (g : CoreRegs) :
    ((s.ran d c k g).die d).masterLine = (s.die d).masterLine := by
  have elsewhere : fldAddr R.TB_MODE_MASTER_CAD 0 0 ≠ fldAddr R.PA_CORE_BUSY c 0 := by
    simp only [fldAddr, R.TB_MODE_MASTER_CAD, R.PA_CORE_BUSY]
    omega
  have cad : ((s.ran d c k g).die d).masterCad = (s.die d).masterCad := by
    rw [State.ran_die]
    exact Die.fld_setFld_addr _ _ _ _ _ _ _ _ elsewhere
  have clk : ((s.ran d c k g).die d).clk = (s.die d).clk := by rw [State.ran_die]; rfl
  rw [Die.masterLine, Die.lastLine, Die.cad, cad, clk]
  rfl

/-- A kernel call of a thread that no plan ends (R523): its instruction's course, then the call. -/
theorem State.kernel_ready (h : s.coreReady d c = true) (he : ((s.die d).th (s.thread d c)).ending = none) (f : Nat → State → State) :
    s.kernel d c f = f (s.thread d c) (s.ran d c (Config.coreCycles 0x35) (s.regsOf d c).next) := by
  have ending : (((s.ran d c (Config.coreCycles 0x35) (s.regsOf d c).next).die d).th (s.thread d c)).ending = none :=
    (s.ran_keeps Thread.ending (fun _ _ => rfl) d c _ _ _).trans he
  rw [State.kernel, State.coreDo_ready h]
  change (if (((s.ran d c (Config.coreCycles 0x35) (s.regsOf d c).next).die d).th (s.thread d c)).ending.isSome then _ else f _ (s.ran d c _ _)) = _
  rw [ending]
  rfl

end Acts

/-! ### Ready lists (R521) -/

/-- A thread that leaves the stalls: a spilled one that does not run is written back (R522). -/
def Thread.unload (t : Thread) : Thread := if t.resident || t.state == .running then t else { t with loaded := false }
theorem Die.restall_eq (x : Die) (c : Nat) : x.restall c =
    let new := (x.readyList c ++ x.upcoming c).take 2
    let out := (x.core c).stalls.filter fun n => !(new.contains n)
    (out.foldl (fun x n => x.modTh n Thread.unload) x).modCore c fun k => { k with stalls := new } := rfl

/-- Of a thread a new ready list changes alone whether its context is loaded. -/
theorem Die.restall_keeps {α : Type} (f : Thread → α) (hf : ∀ t b, f { t with loaded := b } = f t) (x : Die) (c n : Nat) :
    f ((x.restall c).th n) = f (x.th n) := by
  rw [Die.restall_eq]
  refine foldl_keeps (fun y : Die => f (y.th n)) _ (fun y m => ?_) _ x
  rw [Die.modTh_th]
  split
  next h =>
    rw [h]
    unfold Thread.unload
    split
    · rfl
    · exact hf _ _
  next => rfl
/-- Of a core it changes the stalls alone. -/
theorem Die.restall_core {α : Type} (f : CoreSt → α) (hf : ∀ k l, f { k with stalls := l } = f k) (x : Die) (c j : Nat) :
    f ((x.restall c).core j) = f (x.core j) := by
  rw [Die.restall_eq]
  extract_lets new out
  have kept : (out.foldl (fun x n => x.modTh n Thread.unload) x).core j = x.core j := by
    refine foldl_keeps (fun y : Die => y.core j) _ (fun _ _ => ?_) _ x
    rfl
  by_cases hj : j = c
  · subst hj
    rw [Die.core_modCore_same, hf, kept]
  · rw [Die.core_modCore_other _ _ hj, kept]
/-- Beside the threads and the cores nothing of a die changes. -/
theorem Die.restall_par (x : Die) (c : Nat) : ∃ p : Parlour, x.restall c = { x with par := p } ∧ p.l2 = x.par.l2 := by
  rw [Die.restall_eq]
  extract_lets new out
  have kept : ∃ p : Parlour, out.foldl (fun x n => x.modTh n Thread.unload) x = { x with par := p } ∧ p.l2 = x.par.l2 := by
    clear_value out
    induction out generalizing x with
    | nil => exact ⟨x.par, rfl, rfl⟩
    | cons n out ih => exact ih (x.modTh n Thread.unload)
  obtain ⟨p, hp, hl⟩ := kept
  rw [hp]
  exact ⟨_, rfl, hl⟩

/-! ### A thread leaves its core (R518) -/

theorem Die.offCore_par (x : Die) (n : Nat) : ∃ p : Parlour, x.offCore n = { x with par := p } ∧ p.l2 = x.par.l2 := by
  unfold Die.offCore Die.saveCtx
  split
  · split
    · exact ⟨_, rfl, rfl⟩
    · exact ⟨_, rfl, rfl⟩
  · exact ⟨_, rfl, rfl⟩

section Leaves

variable {x : Die} {n c : Nat} (hc : (x.th n).core = c) (hr : (x.core c).run = some n)

include hc hr

theorem Die.offCore_eq : x.offCore n = (x.modTh n fun t => { t with ctx := (x.core c).regs, loaded := t.resident && t.loaded }).modCore c
    fun k => { k with run := none, syncing := false } := by
  subst hc
  simp only [Die.offCore, Die.saveCtx, hr, if_true]
theorem Die.offCore_th : (x.offCore n).th n = { x.th n with ctx := (x.core c).regs, loaded := (x.th n).resident && (x.th n).loaded } := by
  rw [Die.offCore_eq hc hr, Die.modCore_th, Die.th_modTh_same]
theorem Die.offCore_run : ((x.offCore n).core c).run = none := by
  rw [Die.offCore_eq hc hr, Die.core_modCore_same]

end Leaves

end Sys2Proof.Machine
end

section
/-! The kernel calls of a thread (R523 to R525, R528) and its stop (R527). -/

namespace Sys2Proof.Machine

/-! ### A thread that leaves its core and is rewritten -/

theorem Die.modTh_modTh (x : Die) (n : Nat) (f g : Thread → Thread) : (x.modTh n f).modTh n g = x.modTh n fun t => g (f t) := by
  simp only [Die.modTh, mmod, mget_mput_same, mput_mput]

section Leaves

variable {x : Die} {n c : Nat} (hc : (x.th n).core = c) (hr : (x.core c).run = some n)

include hc hr

theorem Die.leave_run (F : Thread → Thread) (j : Nat) : ((((x.offCore n).modTh n F).restall j).core c).run = none := by
  rw [Die.restall_core CoreSt.run (fun _ _ => rfl), Die.modTh_core, Die.offCore_run hc hr]
theorem Die.leave_th {α : Type} (f : Thread → α) (hf : ∀ t b, f { t with loaded := b } = f t) (F : Thread → Thread) (j : Nat) :
    f ((((x.offCore n).modTh n F).restall j).th n) =
      f (F { x.th n with ctx := (x.core c).regs, loaded := (x.th n).resident && (x.th n).loaded }) := by
  rw [Die.restall_keeps f hf, Die.th_modTh_same, Die.offCore_th hc hr]

/-- The end of an activation with no release pending (R518). -/
theorem Die.endActivation_idle (he : (x.th n).ending = none) (hp : (x.th n).pending = 0) :
    ((x.endActivation n).core c).run = none ∧ ((x.endActivation n).th n).state = .idle := by
  have off := Die.offCore_th hc hr
  have ends : x.endActivation n = ((x.offCore n).modTh n fun t => { t with state := .idle }).restall ((x.offCore n).th n).core := by
    simp only [Die.endActivation, off, he, hp, Option.isSome_none, Bool.false_eq_true, if_false, lt_irrefl]
  rw [ends]
  exact ⟨Die.leave_run hc hr _ _, Die.leave_th hc hr Thread.state (fun _ _ => rfl) _ _⟩

end Leaves

/-- A thread at the start of an activation (R518). -/
def Thread.restarted (line : Int) (t : Thread) : Thread := { { t with pending := t.pending - 1 }.fresh with state := .ready, readyLine := line }

theorem CoreRegs.get_set_same (g : CoreRegs) {r : Nat} (h : r ≠ 0) (w : W32) : (g.set r w).get r = w := by
  simp only [CoreRegs.set, CoreRegs.get, if_neg h, mget_mput_same]
theorem Thread.restarted_ctx (line : Int) (t : Thread) : (t.restarted line).ctx.pc = BitVec.ofNat 32 t.entry ∧
    (t.restarted line).ctx.get 30 = BitVec.ofNat 32 t.stack :=
  ⟨rfl, t.ctx.get_set_same (r := 30) (by decide) _⟩

/-- The end of an activation with a release pending: the next one starts (R518). -/
theorem Die.endActivation_restarts {x : Die} {n c : Nat} (hc : (x.th n).core = c) (hr : (x.core c).run = some n) (he : (x.th n).ending = none)
    (hp : 1 ≤ (x.th n).pending) : ∃ line j, x.endActivation n = ((x.offCore n).modTh n (Thread.restarted line)).restall j := by
  have off := Die.offCore_th hc hr
  have pends : 0 < (x.th n).pending := hp
  refine ⟨(((x.offCore n).modTh n fun t => { t with pending := t.pending - 1 }).modTh n Thread.fresh).masterLine,
    (((x.offCore n).modTh n fun t => { t with pending := t.pending - 1 }).th n).core, ?_⟩
  simp only [Die.endActivation, off, he, pends, Option.isSome_none, Bool.false_eq_true, if_false, if_true, Die.activate, Die.makeReady,
    Die.modTh_modTh]
  rfl

/-! ### Stops (R527) -/

section Stops

variable {s : State} {d : DieId} {n cause : Nat}

/-- A thread that stops, before its stop is reported. -/
def Die.stopTh (x : Die) (n cause : Nat) : Die :=
  ((x.offCore n).modTh n fun t => { t with state := .stopped, cause := cause }).restall (x.th n).core
theorem State.stopThread_posted (s : State) (d : DieId) (n cause : Nat) : ∃ f : Nat,
    ((((((s.die d).stopTh n cause).setFld R.PA_LAST_FAULT_THREAD n).setFld R.PA_LAST_FAULT_CAUSE cause).setFld R.PA_LAST_FAULT_FRAME f).setFld
      R.PA_EVENTS_STOPPED 1).Posted ((s.stopThread d n cause).die d) := by
  refine ⟨unsgn 16 (((s.die d).stopTh n cause).frameLine ((s.die d).stopTh n cause).masterCad).1, ?_⟩
  have reported (u : State) (f : Nat) := (((u.setFld d R.PA_LAST_FAULT_THREAD n).setFld d R.PA_LAST_FAULT_CAUSE cause).setFld d
    R.PA_LAST_FAULT_FRAME f).eventRec_posted d R.PA_EVENTS_STOPPED 0 n cause false
  have stopped := reported (s.upd d fun x => x.stopTh n cause)
    (unsgn 16 (((s.die d).stopTh n cause).frameLine ((s.die d).stopTh n cause).masterCad).1)
  simp only [State.setFld, State.die_upd_same] at stopped
  convert stopped using 2
  unfold State.stopThread
  simp only [State.setFld, State.die_upd_same]
  rfl
/-- The stop of a thread leaves the L2 and the memory. -/
theorem State.stopThread_th (s : State) (d : DieId) (n cause : Nat) : (((s.stopThread d n cause).die d).th n).state = .stopped ∧
    (((s.stopThread d n cause).die d).th n).cause = cause ∧ ((s.stopThread d n cause).die d).par.l2 = (s.die d).par.l2 ∧
    ((s.stopThread d n cause).die d).dram = (s.die d).dram := by
  obtain ⟨f, posted⟩ := s.stopThread_posted d n cause
  obtain ⟨p, hoff, hl⟩ := (s.die d).offCore_par n
  obtain ⟨q, hstall, hm⟩ := Die.restall_par (((s.die d).offCore n).modTh n fun t => { t with state := .stopped, cause := cause })
    ((s.die d).th n).core
  refine ⟨?_, ?_, ?_, ?_⟩
  · exact (congrArg Thread.state (posted.th n)).trans ((Die.restall_keeps Thread.state (fun _ _ => rfl) _ _ _).trans (by rw [Die.th_modTh_same]))
  · exact (congrArg Thread.cause (posted.th n)).trans ((Die.restall_keeps Thread.cause (fun _ _ => rfl) _ _ _).trans (by rw [Die.th_modTh_same]))
  · rw [posted.par]
    change ((s.die d).stopTh n cause).par.l2 = _
    rw [Die.stopTh, hstall]
    change q.l2 = _
    rw [hm, ← hl, hoff]
    rfl
  · rw [posted.rest]
    change ((s.die d).stopTh n cause).dram = _
    rw [Die.stopTh, hstall]
    change ((s.die d).offCore n).dram = _
    rw [hoff]
/-- PA_LAST_FAULT names the thread and the cause. -/
theorem State.stopThread_reports (s : State) (d : DieId) (hn : n < 4096) (hk : cause < 8) :
    (s.stopThread d n cause).fld d R.PA_LAST_FAULT_THREAD = n ∧ (s.stopThread d n cause).fld d R.PA_LAST_FAULT_CAUSE = cause ∧
    (s.stopThread d n cause).fld d R.PA_EVENTS_STOPPED = 1 := by
  obtain ⟨f, posted⟩ := s.stopThread_posted d n cause
  refine ⟨?_, ?_, (posted.fld R.PA_EVENTS_STOPPED 0 0 (by decide)).trans (Die.fld_setFld_same _ _ _ _ _ (by decide))⟩
  · refine (posted.fld R.PA_LAST_FAULT_THREAD 0 0 (by decide)).trans ?_
    rw [Die.fld_setFld_addr _ _ _ _ _ _ _ _ (by decide), Die.fld_setFld_apart _ _ _ _ _ _ _ _ (by decide) (by decide) (by decide),
      Die.fld_setFld_apart _ _ _ _ _ _ _ _ (by decide) (by decide) (by decide), Die.fld_setFld_same _ _ _ _ _ (by decide)]
    exact Nat.mod_eq_of_lt hn
  · refine (posted.fld R.PA_LAST_FAULT_CAUSE 0 0 (by decide)).trans ?_
    rw [Die.fld_setFld_addr _ _ _ _ _ _ _ _ (by decide), Die.fld_setFld_apart _ _ _ _ _ _ _ _ (by decide) (by decide) (by decide),
      Die.fld_setFld_same _ _ _ _ _ (by decide)]
    exact Nat.mod_eq_of_lt hk
/-- A thread that runs leaves its core. -/
theorem State.stopThread_run {c : Nat} (hc : ((s.die d).th n).core = c) (hr : ((s.die d).core c).run = some n) :
    (((s.stopThread d n cause).die d).core c).run = none := by
  obtain ⟨f, posted⟩ := s.stopThread_posted d n cause
  have core : ((s.stopThread d n cause).die d).core c = ((s.die d).stopTh n cause).core c :=
    congrArg (fun p : Parlour => mget (fun _ => ({} : CoreSt)) p.cores c) posted.par
  rw [core]
  exact Die.leave_run hc hr _ _

end Stops

end Sys2Proof.Machine
end

section
/-! The kernel calls themselves (R523 to R525): each is made in the state that the call's own instruction leaves. -/

namespace Sys2Proof.Machine

theorem Die.coreRun_of_bare {x y : Die} (h : y.bare = x.bare) (c : Nat) : (y.core c).run = (x.core c).run :=
  (congrArg CoreSt.run (Die.core_of_bare h c) :)

/-- A range of no bytes covers no line. -/
theorem State.clean_nothing (s : State) (d : DieId) (c start : Nat) : s.clean d c start 0 = s := rfl
theorem Die.cleanCost_nothing (x : Die) (c start : Nat) : x.cleanCost c start 0 = 0 := rfl
/-- A core with no store in a dirty line has nothing to write back. -/
theorem State.drain_nothing {s : State} {d : DieId} {c : Nat} (h : (s.die d).unsynced c = []) : s.drain d c = s := by
  rw [State.drain, h]
  rfl

/-! ### The state in which a call is made -/

/-- The thread of core `c` has executed its TRAP. -/
def State.called (s : State) (d : DieId) (c : Nat) : State := s.ran d c (Config.coreCycles 0x35) (s.regsOf d c).next

theorem State.called_keeps {α : Type} (f : Thread → α) (hf : ∀ t k, f { t with used := k } = f t) (s : State) (d : DieId) (c m : Nat) :
    f (((s.called d c).die d).th m) = f ((s.die d).th m) := State.ran_keeps f hf s d c _ _ m
theorem State.called_core (s : State) (d : DieId) (c : Nat) :
    ((s.called d c).die d).core c = { (s.die d).core c with regs := (s.regsOf d c).next } := State.ran_core _ _ _ _ _
theorem State.called_arg (s : State) (d : DieId) (c r : Nat) : ((s.called d c).coreRegs d c).get r = (s.regsOf d c).get r := by
  rw [State.coreRegs, State.called_core]
  rfl

section Calls

variable {s : State} {d : DieId} {c : Fin 8} (h : s.coreReady d c = true) (he : ((s.die d).th (s.thread d c)).ending = none)

include h

theorem State.coreReady_run : ((s.die d).core c).run = some (s.thread d c) := (Die.executing_iff.mp (State.coreReady_runs h).2.1).2.1
theorem State.called_run : (((s.called d c).die d).core c).run = some (s.thread d c) := by
  rw [State.called_core]
  exact State.coreReady_run h

include he

/-- A call by what it leaves of the die. -/
theorem kernel_gives {f : Nat → State → State} {y : Die} (Q : Die → Prop) (hf : (f (s.thread d c) (s.called d c)).die d = y) (hQ : Q y) :
    Completes (onDie s d true (s.kernel d c f)) fun r => Q (r.die d) := by
  rw [State.kernel_ready h he]
  subst hf
  exact completes_onDie (State.coreReady_runs h).1 hQ

/-- WAIT with a counter at 0 or below returns at once (R525). -/
theorem kernelWait_returns (hlo : 1 ≤ ((s.regsOf d c).get 1).toNat) (hhi : ((s.regsOf d c).get 1).toNat ≤ 65535)
    (hcount : ((s.die d).th (s.thread d c)).count ≤ 0) : Completes (onDie s d true (s.kernelWait d c)) fun r =>
      ((r.die d).core c).run = some (s.thread d c) ∧ ((r.die d).th (s.thread d c)).count =
        ((s.die d).th (s.thread d c)).count + ((s.die d).th (s.thread d c)).reload ∧ ((r.die d).core c).regs = (s.regsOf d c).next.set 1 0 := by
  have waits : 1 ≤ (((s.called d c).coreRegs d c).get 1).toNat ∧ (((s.called d c).coreRegs d c).get 1).toNat ≤ 65535 := by
    rw [State.called_arg]; exact ⟨hlo, hhi⟩
  have count : (((s.called d c).die d).th (s.thread d c)).count = ((s.die d).th (s.thread d c)).count := s.called_keeps Thread.count (fun _ _ => rfl) d c _
  have reload : (((s.called d c).die d).th (s.thread d c)).reload = ((s.die d).th (s.thread d c)).reload :=
    s.called_keeps Thread.reload (fun _ _ => rfl) d c _
  have bare := (s.called d c).inval_bare d c (((s.called d c).coreRegs d c).get 2).toNat (((s.called d c).coreRegs d c).get 3).toNat
  refine kernel_gives h he (fun y => (y.core c).run = some (s.thread d c) ∧ (y.th (s.thread d c)).count =
    ((s.die d).th (s.thread d c)).count + ((s.die d).th (s.thread d c)).reload ∧ (y.core c).regs = (s.regsOf d c).next.set 1 0)
    ((congrArg (State.die · d) ((if_pos waits).trans (if_pos (count.symm ▸ hcount)))).trans (State.die_upd_same _ _ _)) ?_
  rw [Die.core_modCore_same, Die.modTh_core, Die.spend_core, Die.modCore_th, Die.th_modTh_same, Die.spend_th, if_pos rfl]
  refine ⟨(Die.coreRun_of_bare bare c).trans (State.called_run h), ?_, ?_⟩
  · rw [Die.th_of_bare bare]
    exact congrArg₂ (fun (a : Int) (b : Nat) => a + b) count reload
  · refine congrArg (fun g => CoreRegs.set g 1 0) ((Die.coreRegs_of_bare bare c).trans ?_)
    rw [State.called_core]

/-- POST with no range to clean and no store on its way (R523). -/
theorem kernelPost_takes (hv : ((s.regsOf d c).get 1).toNat < 4096)
    (hclaimed : ((s.die d).th ((s.regsOf d c).get 1).toNat).claimed = true) (hstate : ((s.die d).th ((s.regsOf d c).get 1).toNat).state ≠ .waiting)
    (hcount : -32768 < ((s.die d).th ((s.regsOf d c).get 1).toNat).count) (hlen : (s.regsOf d c).get 3 = 0)
    (hdrain : (s.die d).coreDraining c s.now = false) (hsynced : (s.die d).unsynced c = []) :
    Completes (onDie s d true (s.kernelPost d c)) fun r =>
      ((r.die d).th ((s.regsOf d c).get 1).toNat).count = ((s.die d).th ((s.regsOf d c).get 1).toNat).count - 1 ∧
      ((r.die d).core c).regs = (s.regsOf d c).next ∧ ((r.die d).core c).run = some (s.thread d c) := by
  have arg := congrArg BitVec.toNat (s.called_arg d c 1)
  have len : (((s.called d c).coreRegs d c).get 3).toNat = 0 := (congrArg BitVec.toNat (s.called_arg d c 3)).trans (congrArg BitVec.toNat hlen)
  generalize ((s.regsOf d c).get 1).toNat = v at arg hv hclaimed hstate hcount ⊢
  have takes : (((s.called d c).coreRegs d c).get 1).toNat < 4096 ∧
      (((s.called d c).die d).th (((s.called d c).coreRegs d c).get 1).toNat).claimed = true := by
    rw [arg]
    exact ⟨hv, (s.called_keeps Thread.claimed (fun _ _ => rfl) d c v).trans hclaimed⟩
  set u := (s.called d c).upd d fun y => y.spend c (s.thread d c) 0
  have die : u.die d = ((s.called d c).die d).spend c (s.thread d c) 0 := State.die_upd_same _ _ _
  have uth {α : Type} (f : Thread → α) (hf : ∀ t k, f { t with used := k } = f t) : f ((u.die d).th v) = f ((s.die d).th v) := by
    rw [die, Die.spend_th]
    split
    · exact (hf _ _).trans (s.called_keeps f hf d c v)
    · exact s.called_keeps f hf d c v
  have core : (u.die d).core c = { (s.die d).core c with regs := (s.regsOf d c).next } := by rw [die, Die.spend_core, State.called_core]
  have kept : (u.die d).par.l2 = (s.die d).par.l2 ∧ (u.die d).dram = (s.die d).dram := by
    rw [die, State.called, State.ran_die]
    exact ⟨rfl, rfl⟩
  have synced : (u.die d).unsynced c = [] := by
    rw [← hsynced]
    unfold Die.unsynced
    rw [core, kept.1]
  have drained : (u.die d).coreDraining c u.now = false := by
    have now : u.now = s.now := (State.upd_now _ _ _).trans (State.upd_now _ _ _)
    rw [now, ← hdrain]
    unfold Die.coreDraining
    rw [kept.2]
  have posts : u.post d v = u.upd d fun y => y.modTh v fun t => { t with count := t.count - 1 } :=
    State.post_running ((uth Thread.claimed fun _ _ => rfl).trans hclaimed) ((uth Thread.count fun _ _ => rfl).symm ▸ hcount)
      ((uth Thread.state fun _ _ => rfl).symm ▸ hstate)
  refine kernel_gives h he (fun y => (y.th v).count = ((s.die d).th v).count - 1 ∧ (y.core c).regs = (s.regsOf d c).next ∧
    (y.core c).run = some (s.thread d c)) (y := (u.die d).modTh v fun t => { t with count := t.count - 1 }) ?_ ?_
  · refine (congrArg (State.die · d) (if_pos takes)).trans ?_
    rw [len, State.clean_nothing, Die.cleanCost_nothing, arg]
    change State.die (if ((u.drain d c).die d).coreDraining c (u.drain d c).now then _ else (u.drain d c).post d v) d = _
    rw [State.drain_nothing synced, drained, if_neg Bool.false_ne_true, posts, State.die_upd_same]
  · rw [Die.th_modTh_same, Die.modTh_core, core]
    exact ⟨congrArg (· - 1) (uth Thread.count fun _ _ => rfl), rfl, State.coreReady_run h⟩

/-! ### Calls that take the thread off its core -/

variable (hc : ((s.die d).th (s.thread d c)).core = c)

include hc

omit h he in
theorem State.called_home : (((s.called d c).die d).th (s.thread d c)).core = c := (s.called_keeps Thread.core (fun _ _ => rfl) d c _).trans hc

/-- A call whose thread leaves the core, rewritten by `F`: what is left of the thread is `F` of it with its context saved after the TRAP. -/
theorem kernel_leaves {f : Nat → State → State} {F : Thread → Thread} {j : Nat} (Q : Thread → Prop)
    (hQ : ∀ t b, Q { t with loaded := b } = Q t)
    (hf : (f (s.thread d c) (s.called d c)).die d = ((((s.called d c).die d).offCore (s.thread d c)).modTh (s.thread d c) F).restall j)
    (hF : Q (F { ((s.called d c).die d).th (s.thread d c) with
      ctx := (s.regsOf d c).next
      loaded := (((s.called d c).die d).th (s.thread d c)).resident && (((s.called d c).die d).th (s.thread d c)).loaded })) :
    Completes (onDie s d true (s.kernel d c f)) fun r => ((r.die d).core c).run = none ∧ Q ((r.die d).th (s.thread d c)) := by
  have home := State.called_home hc
  have runs := State.called_run h
  refine kernel_gives h he (fun y => (y.core c).run = none ∧ Q (y.th (s.thread d c))) hf ⟨Die.leave_run home runs F j, ?_⟩
  have left := Die.leave_th home runs Q hQ F j
  rw [State.called_core] at left
  exact left.mpr hF

end Calls

end Sys2Proof.Machine

namespace Sys2Proof
open Sys2Proof.Machine

/-- Settles O22: in the state after its TRAP the thread leaves the core rewritten, goes on, or stops. -/
theorem kernelCalls : Obligations.KernelCalls := by
  intro s d c w hready x n t g after v off stops hcore hending hn
  have hd : s.has d = true := (State.coreReady_runs hready).1
  have kept {α : Type} (f : Thread → α) (hf : ∀ t k, f { t with used := k } = f t) : f (((s.called d c).die d).th n) = f t :=
    s.called_keeps f hf d c n
  have arg : (((s.called d c).coreRegs d c).get 1).toNat = v := congrArg BitVec.toNat (s.called_arg d c 1)
  have lines (h : 1 ≤ v ∧ v ≤ 65535) : 1 ≤ (((s.called d c).coreRegs d c).get 1).toNat ∧ (((s.called d c).coreRegs d c).get 1).toNat ≤ 65535 := by
    rw [arg]; exact h
  have stopped {i : Instr} {u : State} {cause : Nat} (hi : exec i s = onDie s d true (u.stopThread d n cause)) (hk : cause < 8)
      (hc : ((u.die d).th n).core = c) (hr : ((u.die d).core c).run = some n) : stops i cause := by
    rw [show stops i cause = Completes (exec i s) _ from rfl, hi]
    obtain ⟨hstate, hcause, -⟩ := u.stopThread_th d n cause
    exact completes_onDie hd ⟨State.stopThread_run hc hr, hstate, hcause, u.stopThread_reports d hn hk⟩
  have refused {i : Instr} {f : Nat → State → State} (hi : exec i s = onDie s d true (s.kernel d c f))
      (hf : f n (s.called d c) = (s.called d c).stopThread d n 5) : stops i 5 :=
    stopped (hi.trans (by rw [State.kernel_ready hready hending]; exact congrArg (onDie s d true) hf)) (by decide)
      (State.called_home hcore) (State.called_run hready)
  refine ⟨fun hp => ?_, fun hp => ?_, ?_, fun hlo hhi => ?_, fun hlo hhi hcount => ?_, fun hlo hhi hcount => kernelWait_returns hready hending hlo hhi hcount,
    fun hv hclaimed hstate hcount hlen hdrain hsynced => kernelPost_takes hready hending hv hclaimed hstate hcount hlen hdrain hsynced,
    fun hv => ⟨?_, ?_⟩, fun hv => ?_, fun hwf => ?_⟩
  · have ends := Die.endActivation_idle (State.called_home hcore) (State.called_run hready)
      ((kept Thread.ending fun _ _ => rfl).trans hending) ((kept Thread.pending fun _ _ => rfl).trans hp)
    exact kernel_gives hready hending (fun y => (y.core c).run = none ∧ (y.th n).state = .idle) (State.die_upd_same _ _ _) ends
  · have pending : (((s.called d c).die d).th n).pending = t.pending := kept Thread.pending fun _ _ => rfl
    obtain ⟨line, j, ends⟩ := Die.endActivation_restarts (State.called_home hcore) (State.called_run hready)
      ((kept Thread.ending fun _ _ => rfl).trans hending) (pending.symm ▸ hp)
    refine kernel_leaves hready hending hcore (fun u => u.state = .ready ∧ u.pending = t.pending - 1 ∧ u.ctx.pc = BitVec.ofNat 32 t.entry ∧
      u.ctx.get 30 = BitVec.ofNat 32 t.stack) (fun _ _ => rfl) ((State.die_upd_same _ _ _).trans ends) ⟨rfl, congrArg (· - 1) pending, ?_, ?_⟩
    · exact (Thread.restarted_ctx _ _).1.trans (congrArg (BitVec.ofNat 32) (kept Thread.entry fun _ _ => rfl))
    · exact (Thread.restarted_ctx _ _).2.trans (congrArg (BitVec.ofNat 32) (kept Thread.stack fun _ _ => rfl))
  · have line : (((s.called d c).die d).offCore n).masterLine = x.masterLine := by
      obtain ⟨p, hoff, -⟩ := ((s.called d c).die d).offCore_par n
      rw [hoff]
      exact s.ran_masterLine d c _ _
    exact kernel_leaves hready hending hcore (fun u => u.state = .ready ∧ u.ctx = after ∧ u.readyLine = x.masterLine) (fun _ _ => rfl)
      (State.die_upd_same _ _ _) ⟨rfl, rfl, line⟩
  · exact kernel_leaves hready hending hcore (fun u => u.state = .delayed ∧ u.expiry = v ∧ u.ctx = after) (fun _ _ => rfl)
      ((congrArg (State.die · d) (if_pos (lines ⟨hlo, hhi⟩))).trans (State.die_upd_same _ _ _)) ⟨rfl, arg, rfl⟩
  · have count : (((s.called d c).die d).th n).count = t.count := kept Thread.count fun _ _ => rfl
    have above : ¬(((s.called d c).die d).th n).count ≤ 0 := by rw [count]; omega
    exact kernel_leaves hready hending hcore (fun u => u.state = .waiting ∧ u.expiry = v ∧ u.count = t.count) (fun _ _ => rfl)
      ((congrArg (State.die · d) ((if_pos (lines ⟨hlo, hhi⟩)).trans (if_neg above))).trans (State.die_upd_same _ _ _)) ⟨rfl, arg, count⟩
  · exact refused rfl (if_neg (by rw [arg]; omega))
  · exact refused rfl (if_neg (by rw [arg]; omega))
  · exact refused rfl (if_neg (by rw [arg]; omega))
  · have stop : exec (.illegalInstruction d c w) s =
        onDie s d true (s.stopThread d n (if w.toNat / 2 ^ 26 = 0x35 then 5 else 1)) := by
      rw [← hwf]
      exact congrArg (onDie s d _) (State.coreDo_ready hready _)
    exact stopped stop (by split <;> decide) hcore (State.coreReady_run hready)

end Sys2Proof
end

section
/-! The lines of the caches (R184, R511): what a write-back, CLEAN and INVAL make of a line, and that they leave the others alone. -/

namespace Sys2Proof.Machine

/-! ### One line -/

theorem Die.l1_setL1 (x : Die) (c l : Nat) (v : Option CacheLine) (j m : Nat) :
    (x.setL1 c l v).l1 j m = if j = c ∧ m = l then v else x.l1 j m := by
  unfold Die.l1 Die.setL1
  by_cases hj : j = c
  · subst hj
    rw [Die.core_modCore_same]
    by_cases hm : m = l
    · subst hm
      rw [if_pos ⟨rfl, rfl⟩]
      exact mget_mput_same _ _ _ _
    · rw [if_neg fun h => hm h.2]
      exact mget_mput_other _ _ _ hm
  · rw [Die.core_modCore_other _ _ hj, if_neg fun h => hj h.1]
theorem Die.l2_setL2 (x : Die) (l : Nat) (v : Option CacheLine) (m : Nat) : (x.setL2 l v).l2 m = if m = l then v else x.l2 m := by
  unfold Die.l2 Die.setL2
  split
  next h => subst h; exact mget_mput_same _ _ _ _
  next h => exact mget_mput_other _ _ _ h
@[simp] theorem Die.l2_setL1 (x : Die) (c l : Nat) (v : Option CacheLine) : (x.setL1 c l v).l2 = x.l2 := rfl
@[simp] theorem Die.l1_setL2 (x : Die) (l : Nat) (v : Option CacheLine) : (x.setL2 l v).l1 = x.l1 := rfl

/-- Dies whose cores and L2 are the same have the same lines. -/
theorem Die.lines_of_par {x y : Die} (h : y.par = x.par) : y.l1 = x.l1 ∧ y.l2 = x.l2 := by
  refine ⟨funext fun c => funext fun l => ?_, funext fun l => ?_⟩
  · exact congrArg (fun p : Parlour => oget (mget (fun _ => ({} : CoreSt)) p.cores c).l1 l) h
  · exact congrArg (fun p : Parlour => oget p.l2 l) h

/-- A line after its write-back to the L2. -/
def CacheLine.pushed (k : CacheLine) : CacheLine := if k.dirty then k.clean else k

theorem CacheLine.pushed_dirty (k : CacheLine) : k.pushed.dirty = false := by
  unfold CacheLine.pushed
  split
  · rfl
  next h => simpa using h

theorem Die.l1_pushL1 (x : Die) (c l j m : Nat) :
    (x.pushL1 c l).l1 j m = if j = c ∧ m = l then (x.l1 c l).map CacheLine.pushed else x.l1 j m := by
  unfold Die.pushL1 CacheLine.pushed
  split
  next k hk =>
    split
    next hd => simp [Die.l1_setL1, hk, hd]
    next hd =>
      split
      next h => simp [h, hk, hd]
      next => rfl
  next hk =>
    split
    next h => simp [h, hk]
    next => rfl
theorem Die.l2_pushL1 (x : Die) (c l : Nat) {m : Nat} (h : m ≠ l) : (x.pushL1 c l).l2 m = x.l2 m := by
  unfold Die.pushL1
  split
  · split
    · rw [Die.l2_setL2, if_neg h, Die.l2_setL1]
    · rfl
  · rfl

theorem State.writeLine_lines (s : State) (d : DieId) (cores : List Nat) (l : Nat) (bs : List Byte) :
    ((s.writeLine d cores l bs).die d).l1 = (s.die d).l1 ∧ ((s.writeLine d cores l bs).die d).l2 = (s.die d).l2 := by
  refine Die.lines_of_par ?_
  rw [State.writeLine, State.die_upd_same, Die.dramWrite_par, Die.par_of_rest (s.touchOpen_rest d _)]

/-- CLEAN of a line leaves it in the L1 where it was, clean (R184). -/
theorem State.cleanLine_l1 (s : State) (d : DieId) (c l j m : Nat) :
    ((s.cleanLine d c l).die d).l1 j m = if j = c ∧ m = l then ((s.die d).l1 c l).map CacheLine.pushed else (s.die d).l1 j m := by
  rw [← Die.l1_pushL1]
  unfold State.cleanLine
  dsimp only
  split
  · split
    · rw [State.die_upd_same, Die.l1_setL2, (State.writeLine_lines _ d _ _ _).1, State.die_upd_same]
    · rw [State.die_upd_same]
  · rw [State.die_upd_same]
theorem State.cleanLine_l2_same (s : State) (d : DieId) (c l : Nat) : ∀ k, ((s.cleanLine d c l).die d).l2 l = some k → k.dirty = false := by
  unfold State.cleanLine
  dsimp only
  split
  next k hk =>
    split
    next hd =>
      intro k' hk'
      rw [State.die_upd_same, Die.l2_setL2, if_pos rfl, Option.some_inj] at hk'
      rw [← hk']
      rfl
    next hd =>
      intro k' hk'
      rw [hk, Option.some_inj] at hk'
      simpa [hk'] using hd
  next hk =>
    intro k' hk'
    rw [hk] at hk'
    cases hk'
theorem State.cleanLine_l2_other (s : State) (d : DieId) (c l : Nat) {m : Nat} (h : m ≠ l) :
    ((s.cleanLine d c l).die d).l2 m = (s.die d).l2 m := by
  rw [← Die.l2_pushL1 (s.die d) c l h]
  unfold State.cleanLine
  dsimp only
  split
  · split
    · rw [State.die_upd_same, Die.l2_setL2, if_neg h, (State.writeLine_lines _ d _ _ _).2, State.die_upd_same]
    · rw [State.die_upd_same]
  · rw [State.die_upd_same]

/-! ### The lines of a range -/

/-- No store into a line waits in core `c`'s L1 or the L2. -/
def Die.CleanAt (x : Die) (c l : Nat) : Prop := (∀ k, x.l1 c l = some k → k.dirty = false) ∧ ∀ k, x.l2 l = some k → k.dirty = false
/-- A line is in neither core `c`'s L1 nor the L2. -/
def Die.GoneAt (x : Die) (c l : Nat) : Prop := x.l1 c l = none ∧ x.l2 l = none
/-- A line stands in core `c`'s L1 and in the L2 as it did. -/
def Die.SameAt (x y : Die) (c l : Nat) : Prop := y.l1 c l = x.l1 c l ∧ y.l2 l = x.l2 l

theorem Die.SameAt.trans {x y z : Die} {c l : Nat} (h : x.SameAt y c l) (k : y.SameAt z c l) : x.SameAt z c l :=
  ⟨k.1.trans h.1, k.2.trans h.2⟩
theorem Die.SameAt.cleanAt {x y : Die} {c l : Nat} (h : x.SameAt y c l) (k : x.CleanAt c l) : y.CleanAt c l :=
  ⟨h.1.symm ▸ k.1, h.2.symm ▸ k.2⟩
theorem Die.SameAt.goneAt {x y : Die} {c l : Nat} (h : x.SameAt y c l) (k : x.GoneAt c l) : y.GoneAt c l := ⟨h.1.trans k.1, h.2.trans k.2⟩

theorem State.cleanLine_other (s : State) (d : DieId) (c l : Nat) {m : Nat} (h : m ≠ l) : (s.die d).SameAt ((s.cleanLine d c l).die d) c m :=
  ⟨by rw [State.cleanLine_l1, if_neg fun e => h e.2], s.cleanLine_l2_other d c l h⟩
theorem State.cleanLine_cleans (s : State) (d : DieId) (c l : Nat) : ((s.cleanLine d c l).die d).CleanAt c l := by
  refine ⟨fun k hk => ?_, s.cleanLine_l2_same d c l⟩
  rw [State.cleanLine_l1, if_pos ⟨rfl, rfl⟩, Option.map_eq_some_iff] at hk
  obtain ⟨k', -, rfl⟩ := hk
  exact k'.pushed_dirty
theorem State.cleanLine_isNone (s : State) (d : DieId) (c l m : Nat) : (((s.cleanLine d c l).die d).l1 c m).isNone = ((s.die d).l1 c m).isNone := by
  rw [State.cleanLine_l1]
  split
  next h => rw [Option.isNone_map, h.2]
  next => rfl
theorem State.invalLine_other (s : State) (d : DieId) (c l : Nat) {m : Nat} (h : m ≠ l) : (s.die d).SameAt ((s.invalLine d c l).die d) c m := by
  refine (s.cleanLine_other d c l h).trans ?_
  rw [State.invalLine, State.die_upd_same]
  exact ⟨by rw [Die.l1_setL2, Die.l1_setL1, if_neg fun e => h e.2], by rw [Die.l2_setL2, if_neg h, Die.l2_setL1]⟩
theorem State.invalLine_gone (s : State) (d : DieId) (c l : Nat) : ((s.invalLine d c l).die d).GoneAt c l := by
  rw [State.invalLine, State.die_upd_same]
  exact ⟨by rw [Die.l1_setL2, Die.l1_setL1, if_pos ⟨rfl, rfl⟩], by rw [Die.l2_setL2, if_pos rfl]⟩

/-- What each step of a fold does to its own element and keeps for every other stands of all elements at the end. -/
theorem foldl_all {σ α : Type} {f : σ → α → σ} {P : σ → α → Prop} (own : ∀ s a, P (f s a) a)
    (keep : ∀ s a b, b ≠ a → P s b → P (f s a) b) (l : List α) (s : σ) : ∀ a ∈ l, P (l.foldl f s) a := by
  have later (l : List α) (s : σ) (b : α) (h : P s b) : P (l.foldl f s) b := by
    induction l generalizing s with
    | nil => exact h
    | cons a l ih =>
      by_cases e : b = a
      · exact ih _ (e ▸ own s a)
      · exact ih _ (keep s a b e h)
  induction l generalizing s with
  | nil => simp
  | cons a l ih =>
    intro b hb
    rcases List.mem_cons.mp hb with rfl | hb
    · exact later l _ _ (own s _)
    · exact ih _ b hb
/-- What each step of a fold leaves apart from its own element stands apart from all of them. -/
theorem foldl_apart {α γ : Type} {f : State → α → State} (g : State → γ) {P : α → Prop} (h : ∀ s a, P a → g (f s a) = g s) (l : List α)
    (hl : ∀ a ∈ l, P a) (s : State) : g (l.foldl f s) = g s := by
  induction l generalizing s with
  | nil => rfl
  | cons a l ih => rw [List.foldl_cons, ih (fun b hb => hl b (List.mem_cons_of_mem _ hb)), h s a (hl a List.mem_cons_self)]

section Range

variable (s : State) (d : DieId) (c : Nat) (lines : List Nat)

theorem State.cleanLines_clean : ∀ l ∈ lines, ((lines.foldl (fun s l => s.cleanLine d c l) s).die d).CleanAt c l :=
  foldl_all (P := fun s l => (State.die s d).CleanAt c l) (fun s l => s.cleanLine_cleans d c l)
    (fun s l _ h clean => (s.cleanLine_other d c l h).cleanAt clean) lines s
theorem State.cleanLines_isNone (m : Nat) :
    (((lines.foldl (fun s l => s.cleanLine d c l) s).die d).l1 c m).isNone = ((s.die d).l1 c m).isNone :=
  foldl_keeps (fun s : State => ((s.die d).l1 c m).isNone) _ (fun s l => s.cleanLine_isNone d c l m) lines s
theorem State.cleanLines_other {m : Nat} (h : m ∉ lines) : (s.die d).SameAt ((lines.foldl (fun s l => s.cleanLine d c l) s).die d) c m := by
  have apart : ∀ l ∈ lines, m ≠ l := fun l hl e => h (e ▸ hl)
  exact ⟨foldl_apart (fun s => (s.die d).l1 c m) (fun s l h => (s.cleanLine_other d c l h).1) lines apart s,
    foldl_apart (fun s => (s.die d).l2 m) (fun s l h => (s.cleanLine_other d c l h).2) lines apart s⟩
theorem State.invalLines_gone : ∀ l ∈ lines, ((lines.foldl (fun s l => s.invalLine d c l) s).die d).GoneAt c l :=
  foldl_all (P := fun s l => (State.die s d).GoneAt c l) (fun s l => s.invalLine_gone d c l)
    (fun s l _ h gone => (s.invalLine_other d c l h).goneAt gone) lines s
theorem State.invalLines_other {m : Nat} (h : m ∉ lines) : (s.die d).SameAt ((lines.foldl (fun s l => s.invalLine d c l) s).die d) c m := by
  have apart : ∀ l ∈ lines, m ≠ l := fun l hl e => h (e ▸ hl)
  exact ⟨foldl_apart (fun s => (s.die d).l1 c m) (fun s l h => (s.invalLine_other d c l h).1) lines apart s,
    foldl_apart (fun s => (s.die d).l2 m) (fun s l h => (s.invalLine_other d c l h).2) lines apart s⟩

end Range

end Sys2Proof.Machine
end

section
/-! CLEAN, INVAL and SYNC on a core (R184, R185): the instruction goes on in the state that the write-backs leave. -/

namespace Sys2Proof.Machine

variable {s u : State} {d : DieId} {c : Fin 8}

/-- What stands in the windows of a core (R512). -/
theorem Die.window_of_bare {x y : Die} (h : y.bare = x.bare) (c : Fin 8) {a : Nat} (ha : a < 2 ^ 32) : y.window c a = x.window c a := by
  have calm (f : Fld) (hf : f.base = 0x1F0400 ∧ f.stride = 32 ∧ f.stride2 = 4) : Calm (fldAddr f c ((a - 2 ^ 31) / 2 ^ 28)) := by
    unfold fldAddr
    rw [hf.1, hf.2.1, hf.2.2]
    omega
  unfold Die.window Die.flag
  simp only [Die.fld_of_bare h (calm R.PA_CORE_WIN_VALID (by decide)), Die.fld_of_bare h (calm R.PA_CORE_WIN_BASE (by decide))]
theorem Die.coreSyncing_of_bare {x y : Die} (h : y.bare = x.bare) (c : Nat) : (y.core c).syncing = (x.core c).syncing :=
  (congrArg CoreSt.syncing (Die.core_of_bare h c) :)
theorem Die.executing_of_bare {x y : Die} (h : y.bare = x.bare) (c : Nat) : y.executing c = x.executing c := by
  unfold Die.executing
  rw [Die.coreRun_of_bare h c, Die.coreSyncing_of_bare h c]
  simp only [Die.th_of_bare h]

/-- An instruction of a core acts as before after write-backs. -/
theorem State.coreStep_after (h : s.coreReady d c = true) (hu : (u.die d).bare = (s.die d).bare) (k : Nat) (f : CoreRegs → CoreRegs) :
    u.coreStep d c k f = u.ran d c k (f (s.regsOf d c)) := by
  obtain ⟨-, he, hw⟩ := State.coreReady_runs h
  have regs : u.regsOf d c = s.regsOf d c := Die.coreRegs_of_bare hu c
  have he : (u.die d).executing c = some (s.thread d c) := (Die.executing_of_bare hu c).trans he
  have thread : u.thread d c = s.thread d c := by rw [State.thread, he]; rfl
  have hw : ((u.die d).window c (u.regsOf d c).pc.toNat).isNone = false := by
    rw [regs, Die.window_of_bare hu c (BitVec.isLt _)]
    exact hw
  rw [State.coreStep, State.coreDo_acts he hw, ← regs, ← thread]
  rfl

/-- CLEAN and INVAL are the instruction after the work on the lines (R184). -/
theorem State.coreClean_ready (h : s.coreReady d c = true) (ra rb : Nat) : s.coreClean d c ra rb =
    (s.clean d c ((s.regsOf d c).get ra).toNat ((s.regsOf d c).get rb).toNat).ran d c
      ((s.die d).cleanCost c ((s.regsOf d c).get ra).toNat ((s.regsOf d c).get rb).toNat) (s.regsOf d c).next := by
  refine Eq.trans ?_ (State.coreStep_after h (s.clean_bare d c _ _) _ CoreRegs.next)
  exact congrArg (State.coreStep · d c _ CoreRegs.next) (State.coreDo_ready h _)
theorem State.coreInval_ready (h : s.coreReady d c = true) (ra rb : Nat) : s.coreInval d c ra rb =
    (s.inval d c ((s.regsOf d c).get ra).toNat ((s.regsOf d c).get rb).toNat).ran d c
      ((s.die d).cleanCost c ((s.regsOf d c).get ra).toNat ((s.regsOf d c).get rb).toNat) (s.regsOf d c).next := by
  refine Eq.trans ?_ (State.coreStep_after h (s.inval_bare d c _ _) _ CoreRegs.next)
  exact congrArg (State.coreStep · d c _ CoreRegs.next) (State.coreDo_ready h _)

theorem State.ran_l1 (s : State) (d : DieId) (c k : Nat) (g : CoreRegs) : ((s.ran d c k g).die d).l1 c = (s.die d).l1 c := by
  funext l
  rw [State.ran_die]
  unfold Die.l1
  rw [Die.spend_core, Die.core_modCore_same]
theorem State.ran_l2 (s : State) (d : DieId) (c k : Nat) (g : CoreRegs) : ((s.ran d c k g).die d).l2 = (s.die d).l2 := by
  rw [State.ran_die]
  rfl
theorem State.ran_pending (s : State) (d : DieId) (c k : Nat) (g : CoreRegs) : (s.ran d c k g).pending = s.pending := State.upd_pending _ _ _

/-- SYNC (R184): the instruction goes on, then the stores of the core are written back. -/
def State.synced (s : State) (d : DieId) (c : Nat) : State :=
  (s.upd d fun x => x.modCore c fun k => { k with regs := k.regs.next }).drain d c
theorem State.coreSync_ready (h : s.coreReady d c = true) : s.coreSync d c =
    if ((s.synced d c).die d).coreDraining c (s.synced d c).now then (s.synced d c).hold d c none else s.synced d c := State.coreDo_ready h _

theorem State.synced_core (s : State) (d : DieId) (c : Nat) :
    (((s.synced d c).die d).core c).regs = (s.regsOf d c).next ∧ (((s.synced d c).die d).core c).syncing = ((s.die d).core c).syncing := by
  have bare := (s.upd d fun x => x.modCore c fun k => { k with regs := k.regs.next }).drain_bare d c
  have moved : ((s.upd d fun x => x.modCore c fun k => { k with regs := k.regs.next }).die d).core c =
      { (s.die d).core c with regs := (s.regsOf d c).next } := by
    rw [State.die_upd_same, Die.core_modCore_same]
    rfl
  exact ⟨(Die.coreRegs_of_bare bare c).trans (congrArg CoreSt.regs moved),
    (Die.coreSyncing_of_bare bare c).trans (congrArg CoreSt.syncing moved :)⟩
/-- The lines that hold stores of a core do not depend on its registers. -/
theorem Die.unsynced_next (x : Die) (c : Nat) : (x.modCore c fun k => { k with regs := k.regs.next }).unsynced c = x.unsynced c := by
  unfold Die.unsynced
  rw [Die.core_modCore_same]
  rfl
theorem State.synced_clean (s : State) (d : DieId) (c : Nat) : ∀ l ∈ (s.die d).unsynced c, ((s.synced d c).die d).CleanAt c l := by
  intro l hl
  refine State.cleanLines_clean _ d c _ l ?_
  rw [State.die_upd_same, Die.unsynced_next]
  exact List.mem_eraseDups.mpr hl
theorem State.synced_nothing (h : (s.die d).unsynced c = []) :
    s.synced d c = s.upd d fun x => x.modCore c fun k => { k with regs := k.regs.next } := by
  refine State.drain_nothing ?_
  rw [State.die_upd_same, Die.unsynced_next, h]

theorem Die.CleanAt.of_lines {x y : Die} {c l : Nat} (h : x.CleanAt c l) (h1 : y.l1 c = x.l1 c) (h2 : y.l2 = x.l2) : y.CleanAt c l :=
  ⟨h1.symm ▸ h.1, h2.symm ▸ h.2⟩

/-- A core that holds, held since now (R184). -/
theorem State.hold_die (s : State) (d : DieId) (c : Nat) (post : Option Nat) : (s.hold d c post).die d =
    (s.die d).modCore c fun k => { k with syncing := true, syncAt := s.now, postAfter := post } := State.die_upd_same _ _ _

theorem State.upd_congr {f g : Die → Die} (h : f (s.die d) = g (s.die d)) : s.upd d f = s.upd d g := congrArg (s.setDie d) h
/-- SYNC_DONE once the writes have drained, with no POST to make: the core goes on after the cycles that this took (R185). -/
theorem State.syncDone_drained (hs : ((s.die d).core c).syncing = true) (hd : (s.die d).coreDraining c s.now = false)
    (hp : ((s.die d).core c).postAfter = none) : s.syncDone d c = s.upd d fun x =>
      let y := x.modCore c fun k => { k with syncing := false, postAfter := none }
      match (x.core c).run with
      | some n => y.spend c n ((s.now - (x.core c).syncAt + 40959) / 40960)
      | none => y := by
  have cycles : s.now - ((s.die d).core c).syncAt + 40960 - 1 = s.now - ((s.die d).core c).syncAt + 40959 := by omega
  simp only [State.syncDone, hs, hd, hp, Bool.not_false, Bool.and_self, if_true, coreCycle, cycles]
  refine State.upd_congr ?_
  rfl

end Sys2Proof.Machine

namespace Sys2Proof
open Sys2Proof.Machine

/-- Settles O21: CLEAN, INVAL and SYNC are write-backs line by line beside the course of the instruction. -/
theorem cacheMaintenance : Obligations.CacheMaintenance := by
  intro s d c ra rb hd g x lines
  refine ⟨fun hready => ⟨?_, ?_, fun hlen => ⟨?_, ?_⟩, ?_⟩, fun hsync hdone hpost => ?_, fun hsync hdrain => ?_⟩
  · refine completes_onDie hd ?_
    rw [State.coreClean_ready hready]
    refine ⟨State.ran_regsOf _ _ _ _ _, fun l hl => ?_, fun l => ?_, fun l hl => ?_⟩
    · exact (State.cleanLines_clean s d c lines l hl).of_lines (State.ran_l1 _ _ _ _ _) (State.ran_l2 _ _ _ _ _)
    · exact (congrArg (fun f => (f l).isNone) (State.ran_l1 _ _ _ _ _)).trans (s.cleanLines_isNone d c lines l)
    · obtain ⟨h1, h2⟩ := s.cleanLines_other d c lines hl
      exact ⟨(congrFun (State.ran_l1 _ _ _ _ _) l).trans h1, (congrFun (State.ran_l2 _ _ _ _ _) l).trans h2⟩
  · refine completes_onDie hd ?_
    rw [State.coreInval_ready hready]
    refine ⟨State.ran_regsOf _ _ _ _ _, fun l hl => ?_, fun l hl => ?_⟩
    · obtain ⟨h1, h2⟩ := s.invalLines_gone d c lines l hl
      exact ⟨(congrFun (State.ran_l1 _ _ _ _ _) l).trans h1, (congrFun (State.ran_l2 _ _ _ _ _) l).trans h2⟩
    · obtain ⟨h1, h2⟩ := s.invalLines_other d c lines hl
      exact ⟨(congrFun (State.ran_l1 _ _ _ _ _) l).trans h1, (congrFun (State.ran_l2 _ _ _ _ _) l).trans h2⟩
  · have nothing : s.coreClean d c ra rb = s.ran d c 0 g.next := by
      rw [State.coreClean_ready hready, show (s.regsOf d c).get rb = 0 from hlen]
      rfl
    exact (onDie_next_of_pending hd (nothing ▸ s.ran_pending d c 0 g.next)).trans (congrArg Host.Outcome.next nothing)
  · have nothing : s.coreInval d c ra rb = s.ran d c 0 g.next := by
      rw [State.coreInval_ready hready, show (s.regsOf d c).get rb = 0 from hlen]
      rfl
    exact (onDie_next_of_pending hd (nothing ▸ s.ran_pending d c 0 g.next)).trans (congrArg Host.Outcome.next nothing)
  · obtain ⟨-, hexec, -⟩ := State.coreReady_runs hready
    obtain ⟨hidle, -, -⟩ := Die.executing_iff.mp hexec
    obtain ⟨hregs, hsyncing⟩ := s.synced_core d c
    set u := s.synced d c with hu
    have still : x.unsynced c = [] → (u.die d).par.l2 = x.par.l2 ∧ (u.die d).dram = x.dram := by
      intro h
      rw [hu, State.synced_nothing h, State.die_upd_same]
      exact ⟨rfl, rfl⟩
    refine completes_onDie hd ?_
    rw [State.coreSync_ready hready]
    cases hdrains : (u.die d).coreDraining c u.now with
    | false =>
      rw [if_neg Bool.false_ne_true]
      exact ⟨hregs, s.synced_clean d c, still, hsyncing.trans (hidle.trans hdrains.symm)⟩
    | true =>
      rw [if_pos rfl]
      have held := u.hold_die d c none
      have core : ((u.hold d c none).die d).core c = { (u.die d).core c with syncing := true, syncAt := u.now, postAfter := none } := by
        rw [held, Die.core_modCore_same]
      have now : (u.hold d c none).now = u.now := State.upd_now _ _ _
      have l1 : ((u.hold d c none).die d).l1 c = (u.die d).l1 c := funext fun l => (congrArg (fun k : CoreSt => oget k.l1 l) core :)
      have l2 : ((u.hold d c none).die d).par.l2 = (u.die d).par.l2 := by rw [held]; rfl
      have dram : ((u.hold d c none).die d).dram = (u.die d).dram := by rw [held]; rfl
      refine ⟨(congrArg CoreSt.regs core :).trans hregs, fun l hl => ?_, fun h => ⟨l2.trans (still h).1, dram.trans (still h).2⟩,
        (congrArg CoreSt.syncing core :).trans ?_⟩
      · exact (s.synced_clean d c l hl).of_lines l1 (funext fun m => congrArg (fun p => oget p m) l2)
      · change true = ((u.hold d c none).die d).coreDraining c (u.hold d c none).now
        rw [now, ← hdrains]
        unfold Die.coreDraining
        rw [dram]
  · have resumed := State.syncDone_drained hsync hdone hpost
    exact (onDie_next_of_pending hd (resumed ▸ State.upd_pending s d _)).trans (congrArg Host.Outcome.next resumed)
  · have holds : s.syncDone d c = s := by
      have hdrain : (s.die d).coreDraining c s.now = true := hdrain
      simp only [State.syncDone, hdrain, Bool.not_true, Bool.and_false, Bool.false_eq_true, if_false]
    exact (onDie_next_of_pending hd (congrArg State.pending holds)).trans (congrArg Host.Outcome.next holds)

end Sys2Proof
end

section
/-! How a load or a store brings a line into a core's L1 (R184, R511): the line stays, its bytes are those of the L2 or the memory, and neither
the core's course nor the other die changes. -/

namespace Sys2Proof.Machine

/-! ### The other die -/

section Other

variable {s : State} {d e : DieId} (h : e ≠ d)

include h

theorem State.hbRecord_other (c n v : Nat) (p b : Bool) : (s.hbRecord d c n v p b).die e = s.die e := by
  unfold State.hbRecord State.hbAdd
  dsimp only
  split
  next hd =>
    split
    · rfl
    · rw [State.event_die_other _ _ _ _ (hd ▸ h), State.count, State.die_upd_other _ _ (hd ▸ h)]
      rfl
  next => split <;> rfl
theorem State.eventCad_other (f : Fld) (i n c v : Nat) (p : Bool) : (s.eventCad d f i n c v p).die e = s.die e := by
  rw [State.eventCad, State.hbCad, State.hbRecord_other h, State.event_die_other _ _ _ _ h]
theorem State.setFld_other (f : Fld) (v i j : Nat) : (s.setFld d f v i j).die e = s.die e := State.die_upd_other _ _ h
theorem State.count_other (f : Fld) (i n : Nat) : (s.count d f i n).die e = s.die e := State.die_upd_other _ _ h
theorem State.breach_other (b : Breach) (frag : Nat) (cad : Option Nat) (p : Bool) : (s.breach d b frag cad p).die e = s.die e := by
  simp only [State.breach, State.hbCad, State.hbRecord_other h, State.event_die_other _ _ _ _ h, apply_ite (State.die · e), State.count_other h,
    State.setFld_other h, ite_self]
theorem State.forced_other (r cause n : Nat) : (s.forced d r cause n).die e = s.die e := by
  simp only [State.forced, State.breach_other h, State.eventCad_other h, State.die_upd_other _ _ h]
theorem State.queueNeighbour_other (r bank row : Nat) : (s.queueNeighbour d r bank row).die e = s.die e := by
  simp only [State.queueNeighbour, apply_ite (State.die · e), State.die_upd_other _ _ h, State.forced_other h, State.count_other h, ite_self]
theorem State.touch_other (a t : Nat) : (s.touch d a t).die e = s.die e := by
  simp only [State.touch, State.activation, apply_ite (State.die · e), State.die_upd_other _ _ h, State.queueNeighbour_other h, ite_self]
theorem State.touchOpen_other (a : Nat) : (s.touchOpen d a).die e = s.die e := State.touch_other h a _
theorem State.writeLine_other (cores : List Nat) (l : Nat) (bs : List Byte) : (s.writeLine d cores l bs).die e = s.die e := by
  rw [State.writeLine, State.die_upd_other _ _ h, State.touchOpen_other h]

end Other

/-! ### Lines that others hold, and lines that are given up -/

theorem Die.pushL1_none {x : Die} {c l : Nat} (h : x.l1 c l = none) : x.pushL1 c l = x := by
  unfold Die.pushL1
  rw [h]
/-- No other core holds the line. -/
theorem Die.pushOthers_none {x : Die} {c l : Nat} (h : ∀ j : Fin 8, x.l1 j l = none) : x.pushOthers c l = x := by
  unfold Die.pushOthers
  have mem : ∀ j ∈ (List.range 8).filter fun j => j != c, x.l1 j l = none := fun j hj =>
    h ⟨j, List.mem_range.mp (List.mem_filter.mp hj).1⟩
  generalize (List.range 8).filter _ = js at mem ⊢
  induction js with
  | nil => rfl
  | cons j js ih => rw [List.foldl_cons, Die.pushL1_none (mem j List.mem_cons_self), ih fun k hk => mem k (List.mem_cons_of_mem _ hk)]

/-- The line leaves every L1 before the L2 gives it up. -/
def Die.dropL1s (x : Die) (l : Nat) : Die := (List.range 8).foldl (fun x j => (x.pushL1 j l).setL1 j l none) x

theorem Die.dropL1s_bare (x : Die) (l : Nat) : (x.dropL1s l).bare = x.bare := by
  refine foldl_keeps Die.bare _ (fun y j => ?_) _ x
  rw [Die.setL1_bare, Die.pushL1_bare]
theorem Die.dropL1s_l1 (x : Die) (l : Nat) {m : Nat} (h : m ≠ l) (c : Nat) : (x.dropL1s l).l1 c m = x.l1 c m := by
  refine foldl_keeps (fun y : Die => y.l1 c m) _ (fun y j => ?_) _ x
  rw [Die.l1_setL1, if_neg fun e => h e.2, Die.l1_pushL1, if_neg fun e => h e.2]

/-- State `r` is `s` but for the caches, the DRAM and their registers on die `d`; core `c`'s copy of line `l` stands. -/
structure State.Cached (d : DieId) (c l : Nat) (s r : State) : Prop where
  bare : (r.die d).bare = (s.die d).bare
  other : ∀ e, e ≠ d → r.die e = s.die e
  line : (r.die d).l1 c l = (s.die d).l1 c l

namespace State.Cached

variable {d : DieId} {c l : Nat} {s r t : State}

theorem refl (s : State) : State.Cached d c l s s := ⟨rfl, fun _ _ => rfl, rfl⟩
theorem trans (h : State.Cached d c l s r) (k : State.Cached d c l r t) : State.Cached d c l s t :=
  ⟨k.bare.trans h.bare, fun e he => (k.other e he).trans (h.other e he), k.line.trans h.line⟩
theorem upd {f : Die → Die} (hb : (f (s.die d)).bare = (s.die d).bare) (hl : (f (s.die d)).l1 c l = (s.die d).l1 c l) :
    State.Cached d c l s (s.upd d f) :=
  ⟨by rw [State.die_upd_same, hb], fun _ he => State.die_upd_other _ _ he, by rw [State.die_upd_same, hl]⟩
theorem writeLine (cores : List Nat) (m : Nat) (bs : List Byte) : State.Cached d c l s (s.writeLine d cores m bs) :=
  ⟨s.writeLine_bare d _ _ _, fun _ he => State.writeLine_other he _ _ _, congrFun (congrFun (s.writeLine_lines d _ _ _).1 c) l⟩
theorem setL2 (m : Nat) (v : Option CacheLine) : State.Cached d c l s (s.upd d fun x => x.setL2 m v) := upd (Die.setL2_bare _ _ _) rfl

/-- The L2 gives another line up. -/
theorem evictL2 {m : Nat} (h : l ≠ m) : State.Cached d c l s (s.evictL2 d m) := by
  have dropped : State.Cached d c l s (s.upd d fun x => x.dropL1s m) := upd (Die.dropL1s_bare _ _) (Die.dropL1s_l1 _ _ h _)
  change State.Cached d c l s (match ((s.upd d fun x => x.dropL1s m).die d).l2 m with
    | some k => (if k.dirty then (s.upd d fun x => x.dropL1s m).writeLine d k.cores m k.bytes else s.upd d fun x => x.dropL1s m).upd d
        fun x => x.setL2 m none
    | none => s.upd d fun x => x.dropL1s m)
  refine dropped.trans ?_
  split
  · split
    · exact (writeLine _ _ _).trans (setL2 _ _)
    · exact setL2 _ _
  · exact refl _

/-- A key that a list without `l` gives. -/
theorem getD_ne {β : Type} {m : Map β} {n : Nat} (dflt : Nat × β) (h : m.filter (fun e => e.1 != l) ≠ []) :
    l ≠ ((m.filter fun e => e.1 != l).getD (n % (m.filter fun e => e.1 != l).length) dflt).1 := by
  have lt : n % (m.filter fun e => e.1 != l).length < (m.filter fun e => e.1 != l).length := Nat.mod_lt _ (List.length_pos_iff.mpr h)
  rw [List.getD_eq_getElem _ _ lt]
  have mem := (List.mem_filter.mp (List.getElem_mem lt)).2
  simpa using Ne.symm (by simpa using mem)

/-- What the caches give up beside a line (R511). -/
theorem evict : State.Cached d c l s (s.evict d c l) := by
  have drawn : State.Cached d c l s s.draw.2 := ⟨rfl, fun _ _ => rfl, rfl⟩
  refine drawn.trans ?_
  unfold State.evict
  extract_lets v s0 n1 m s1 n2
  have first : State.Cached d c l s0 s1 := by
    change State.Cached d c l s0 (if n1 ≠ [] ∧ (v.1 % 4 = 1 ∨ 512 ≤ n1.length) then _ else s0)
    split
    next h =>
      have ne : l ≠ (n1.getD (v.1 / 4 % n1.length) (0, none)).1 := getD_ne _ h.1
      refine upd ?_ ?_
      · rw [Die.setL1_bare, Die.pushL1_bare]
      · rw [Die.l1_setL1, if_neg fun e => ne e.2, Die.l1_pushL1, if_neg fun e => ne e.2]
    next => exact refl _
  refine first.trans ?_
  split
  next h => exact evictL2 (getD_ne _ h.1)
  next => exact refl _

end State.Cached

end Sys2Proof.Machine
end

section
/-! Loads and stores of a core (R183, R185, R512, R513). -/

namespace Sys2Proof.Machine

/-! ### Bytes -/

/-- The low bytes of a number are those of its remainder. -/
theorem natLE_mod (n v : Nat) : natLE n (v % 256 ^ n) = natLE n v := by
  refine List.map_congr_left fun i hi => BitVec.eq_of_toNat_eq ?_
  obtain ⟨k, rfl⟩ : ∃ k, n = i + 1 + k := ⟨n - (i + 1), by have := List.mem_range.mp hi; omega⟩
  have byte : 256 ∣ 256 * 256 ^ k := Dvd.intro _ rfl
  have power : 256 ^ (i + 1 + k) = 256 ^ i * (256 * 256 ^ k) := by ring
  rw [BitVec.toNat_ofNat, BitVec.toNat_ofNat, power, Nat.mod_mul_right_div_self]
  exact Nat.mod_mod_of_dvd _ byte
theorem rdBytes_drop (m : Mem) (a o n : Nat) : (rdBytes m a (o + n)).drop o = rdBytes m (a + o) n := by
  induction o generalizing a with
  | zero => rw [Nat.zero_add]; rfl
  | succ o ih =>
    rw [show o + 1 + n = o + n + 1 by omega, rdBytes, List.drop_succ_cons, ih, show a + 1 + o = a + (o + 1) by omega]
theorem rdBytes_take (m : Mem) (a k n : Nat) : (rdBytes m a (k + n)).take k = rdBytes m a k := by
  induction k generalizing a with
  | zero => rfl
  | succ k ih => rw [show k + 1 + n = k + n + 1 by omega, rdBytes, List.take_succ_cons, ih, rdBytes]
/-- Bytes within a line of memory. -/
theorem subBytes_line (m : Mem) {a k : Nat} (h : a % 64 + k ≤ 64) : subBytes (rdBytes m (64 * (a / 64)) 64) (a % 64) k = rdBytes m a k := by
  obtain ⟨r, hr⟩ : ∃ r, 64 = a % 64 + (k + r) := ⟨64 - (a % 64 + k), by omega⟩
  have start : 64 * (a / 64) + a % 64 = a := Nat.div_add_mod a 64
  unfold subBytes
  rw [show rdBytes m (64 * (a / 64)) 64 = rdBytes m (64 * (a / 64)) (a % 64 + (k + r)) from congrArg _ hr, rdBytes_drop, rdBytes_take, start]

/-- A core address in a mapped window (R512). -/
theorem Die.window_some {x : Die} {c a m : Nat} (h : x.window c a = some m) : 2 ^ 31 ≤ a ∧ m % 64 = a % 64 := by
  unfold Die.window at h
  split at h
  · cases h
  next high =>
    dsimp only at h
    split at h
    · rw [Option.some_inj] at h
      omega
    · cases h

/-! ### The line of an access -/

section Access

variable {s : State} {d : DieId} {c l : Nat}

theorem State.fill_hit {k : CacheLine} (h : (s.die d).l1 c l = some k) (e : Ecc) : s.fill d c l e = (s, 3, false) := by
  unfold State.fill
  rw [h]
  rfl
/-- A line that no L1 holds comes from the L2, or from the memory. -/
theorem State.fill_miss (hn : s.noInject d = true) (h : ∀ j : Fin 8, (s.die d).l1 j l = none) (hc : c < 8) : ∃ (r : State) (n : Nat) (k : CacheLine),
    s.fill d c l .clean = (r, n, false) ∧ (r.die d).bare = (s.die d).bare ∧ (∀ e, e ≠ d → r.die e = s.die e) ∧ (r.die d).l1 c l = some k ∧
    k.bytes = match (s.die d).l2 l with
      | some k => k.bytes
      | none => rdBytes (s.die d).dram.view (64 * l) 64 := by
  have miss : (s.die d).l1 c l = none := h ⟨c, hc⟩
  have same : s.upd d (fun x => x.pushOthers c l) = s := by
    rw [State.upd, Die.pushOthers_none h, State.setDie_die_self]
  have put (u : State) (k : CacheLine) (f : Die → Die) (hf : ∀ x, (f x).bare = x.bare) (hl : ∀ x : Die, (f x).l1 c l = some k)
      (hb : (u.die d).bare = (s.die d).bare) (ho : ∀ e, e ≠ d → u.die e = s.die e) :
      (((u.upd d f).evict d c l).die d).bare = (s.die d).bare ∧ (∀ e, e ≠ d → ((u.upd d f).evict d c l).die e = s.die e) ∧
        (((u.upd d f).evict d c l).die d).l1 c l = some k := by
    have kept : State.Cached d c l (u.upd d f) ((u.upd d f).evict d c l) := State.Cached.evict
    refine ⟨?_, fun e he => ?_, ?_⟩
    · rw [kept.bare, State.die_upd_same, hf, hb]
    · rw [kept.other e he, State.die_upd_other _ _ he, ho e he]
    · rw [kept.line, State.die_upd_same, hl]
  unfold State.fill
  rw [miss, same]
  simp only [Option.isSome_none, Bool.false_eq_true, if_false]
  cases hl2 : (s.die d).l2 l with
  | some k =>
    obtain ⟨bare, other, line⟩ := put s k.clean (fun x => x.setL1 c l (some k.clean)) (fun x => Die.setL1_bare _ _ _ _)
      (fun x => by rw [Die.l1_setL1, if_pos ⟨rfl, rfl⟩]) rfl fun _ _ => rfl
    exact ⟨_, _, k.clean, rfl, bare, other, line, rfl⟩
  | none =>
    have clean := Die.eccOf_noInject hn (dramRegion (64 * l)) 1 .clean
    have view : ((s.touchOpen d (64 * l)).die d).dramRead (64 * l) 64 = rdBytes (s.die d).dram.view (64 * l) 64 := by
      obtain ⟨-, cells, writes⟩ := Die.of_ports (s.touch_ports d (64 * l) _)
      unfold Die.dramRead Dram.view
      rw [State.touchOpen, cells, writes]
    simp only [clean, State.setDie_die_self, State.dramEcc, reduceCtorEq, decide_false]
    obtain ⟨bare, other, line⟩ := put (s.touchOpen d (64 * l)).draw.2 ⟨((s.touchOpen d (64 * l)).die d).dramRead (64 * l) 64, false, []⟩
      (fun x => (x.setL1 c l (some ⟨((s.touchOpen d (64 * l)).die d).dramRead (64 * l) 64, false, []⟩)).setL2 l
        (some ⟨((s.touchOpen d (64 * l)).die d).dramRead (64 * l) 64, false, []⟩))
      (fun x => by rw [Die.setL2_bare, Die.setL1_bare]) (fun x => by rw [Die.l1_setL2, Die.l1_setL1, if_pos ⟨rfl, rfl⟩])
      (Die.bare_of_rest (s.touchOpen_rest d _)) fun e he => State.touchOpen_other he _
    exact ⟨_, _, _, rfl, bare, other, line, view⟩

end Access

end Sys2Proof.Machine
end

section
/-! The loads and stores themselves (R183, R512, R513). -/

namespace Sys2Proof.Machine

section Course

variable {s : State} {d : DieId} {c n : Nat}

/-- What an instruction's own course leaves (R526, R530). -/
theorem State.coreGo_die (s : State) (d : DieId) (c n k : Nat) (f : CoreRegs → CoreRegs) : (s.coreGo d c n k f).die d =
    ((s.die d).modCore c fun u => { u with regs := (f u.regs).next }).spend c n k := State.die_upd_same _ _ _
theorem State.coreGo_regsOf (s : State) (d : DieId) (c n k : Nat) (f : CoreRegs → CoreRegs) :
    (s.coreGo d c n k f).regsOf d c = (f (s.regsOf d c)).next := by
  rw [State.regsOf, State.coreGo_die, Die.spend_core, Die.core_modCore_same]
  rfl
theorem State.coreGo_set {g : CoreRegs} (h : s.regsOf d c = g) (n k : Nat) (rd : Fin 32) (w : W32) :
    (s.coreGo d c n k fun g => g.set rd w).regsOf d c = { g.set rd w with pc := g.pc + 4 } := by
  rw [State.coreGo_regsOf, h, CoreRegs.set_next]
theorem State.coreGo_l1 (s : State) (d : DieId) (c n k : Nat) (f : CoreRegs → CoreRegs) : ((s.coreGo d c n k f).die d).l1 = (s.die d).l1 := by
  funext j l
  unfold Die.l1
  rw [State.coreGo_die, Die.spend_core]
  by_cases h : j = c
  · rw [h, Die.core_modCore_same]
  · rw [Die.core_modCore_other _ _ h]
theorem State.coreGo_kept (s : State) (d : DieId) (c n k : Nat) (f : CoreRegs → CoreRegs) : ((s.coreGo d c n k f).die d).par.l2 = (s.die d).par.l2 ∧
    ((s.coreGo d c n k f).die d).dram = (s.die d).dram ∧ ((s.coreGo d c n k f).die d).tiles = (s.die d).tiles := by
  rw [State.coreGo_die]
  exact ⟨rfl, rfl, rfl⟩
/-- The course of the thread that acts is what the statements write. -/
theorem State.coreGo_eq_ran (s : State) (d : DieId) (c k : Nat) (f : CoreRegs → CoreRegs) :
    s.coreGo d c (s.thread d c) k f = s.ran d c k (f (s.regsOf d c)).next := State.upd_congr rfl

end Course

section Store

/-- A store into a line drops the other cores' copies (R511). -/
theorem Die.dropOthers_l1 (x : Die) (c l : Nat) {j : Nat} (hj : j < 8) (h : j ≠ c) : (x.dropOthers c l).l1 j l = none := by
  have each := foldl_all (f := fun (x : Die) k => x.setL1 k l none) (P := fun x k => x.l1 k l = none)
    (fun x k => by rw [Die.l1_setL1, if_pos ⟨rfl, rfl⟩]) (fun x a b hb hx => by rw [Die.l1_setL1, if_neg fun e => hb e.1, hx])
    ((List.range 8).filter fun j => j != c) x
  exact each j (List.mem_filter.mpr ⟨List.mem_range.mpr hj, bne_iff_ne.mpr h⟩)
theorem Die.dropOthers_kept (x : Die) (c l : Nat) : (x.dropOthers c l).bare = x.bare ∧ (x.dropOthers c l).dram = x.dram ∧
    (x.dropOthers c l).par.l2 = x.par.l2 := by
  refine ⟨foldl_keeps Die.bare _ (fun y k => Die.setL1_bare _ _ _ _) _ x, ?_, ?_⟩
  · refine foldl_keeps Die.dram _ (fun _ _ => ?_) _ x
    rfl
  · refine foldl_keeps (fun y : Die => y.par.l2) _ (fun _ _ => ?_) _ x
    rfl

end Store

section Access

variable {s : State} {d : DieId} {c : Fin 8} {op size : Nat} {rd ra : Fin 32} {imm : W16} {m : Nat} {l : CacheLine}

/-- The address of an access (R512). -/
abbrev State.accessAddr (s : State) (d : DieId) (c : Nat) (ra : Nat) (imm : W16) : Nat := (s.regsOf d c).memAddr ra imm

theorem State.coreLoad_misaligned (h : s.coreReady d c = true) (e : Ecc) (ha : s.accessAddr d c ra imm % size ≠ 0) :
    s.coreLoad d c op rd ra imm size e = s.stopThread d (s.thread d c) 2 := (State.coreDo_ready h _).trans (if_pos ha)
theorem State.coreStore_misaligned (h : s.coreReady d c = true) (e : Ecc) (ha : s.accessAddr d c ra imm % size ≠ 0) :
    s.coreStore d c op rd ra imm size e = s.stopThread d (s.thread d c) 2 := (State.coreDo_ready h _).trans (if_pos ha)

section Aligned

variable (h : s.coreReady d c = true) (ha : s.accessAddr d c ra imm % size = 0)

include h ha

/-- A load from the register space is a read of the word (R513). -/
theorem State.coreLoad_reg (e : Ecc) (hr : s.accessAddr d c ra imm < 0x250000)
    (hn : s.noAddress d (s.accessAddr d c ra imm / 4 * 4) = false) : s.coreLoad d c op rd ra imm size e =
      (s.readEffect (s.accessAddr d c ra imm / 4 * 4)).coreGo d c (s.thread d c) (Config.coreCycles op) fun g => g.set rd (BitVec.ofNat 32
        ((s.readReg d (s.accessAddr d c ra imm / 4 * 4)).toNat / 256 ^ (s.accessAddr d c ra imm % 4) % 256 ^ size)) := by
  have read : s.regLoad d (s.accessAddr d c ra imm / 4 * 4) =
      (s.readReg d (s.accessAddr d c ra imm / 4 * 4), s.readEffect (s.accessAddr d c ra imm / 4 * 4)) := by
    simp only [State.regLoad, hn, Bool.false_eq_true, if_false]
  refine (State.coreDo_ready h _).trans ((if_neg (not_not.mpr ha)).trans ((if_pos hr).trans ?_))
  change (s.regLoad d (s.accessAddr d c ra imm / 4 * 4)).2.coreGo d c _ _ (fun g => g.set rd (BitVec.ofNat 32
    ((s.regLoad d (s.accessAddr d c ra imm / 4 * 4)).1.toNat / _ % _))) = _
  rw [read]
  rfl

/-- A load from a window takes its bytes from the line that the L1 then holds. -/
theorem State.coreLoad_window {r : State} {k : Nat} (hw : (s.die d).window c (s.accessAddr d c ra imm) = some m)
    (hf : s.fill d c (m / 64) .clean = (r, k, false)) (hl : (r.die d).l1 c (m / 64) = some l) :
    s.coreLoad d c op rd ra imm size .clean = r.coreGo d c (s.thread d c) k fun g => g.set rd (BitVec.ofNat 32 (num l.bytes (m % 64) size)) := by
  have high : ¬s.accessAddr d c ra imm < regSpaceEnd := by
    have := (Die.window_some hw).1
    unfold regSpaceEnd
    omega
  have bytes : (r.die d).cached c m size = subBytes l.bytes (m % 64) size := by
    unfold Die.cached
    rw [hl]
  refine (State.coreDo_ready h _).trans ((if_neg (not_not.mpr ha)).trans ((if_neg high).trans ?_))
  change (match (s.die d).window c (s.accessAddr d c ra imm) with
    | none => _
    | some m => _) = _
  rw [hw]
  dsimp only
  rw [hf]
  dsimp only
  rw [if_neg Bool.false_ne_true, bytes]
  rfl
/-- A store into a line of the core's L1 (R511). -/
theorem State.coreStore_hit (hw : (s.die d).window c (s.accessAddr d c ra imm) = some m) (hl : (s.die d).l1 c (m / 64) = some l) (e : Ecc) :
    s.coreStore d c op rd ra imm size e =
      (s.upd d fun x => (x.dropOthers c (m / 64)).setL1 c (m / 64) (some (l.put c (m % 64) (natLE size ((s.regsOf d c).get rd).toNat)))).coreGo d c
        (s.thread d c) (Config.coreCycles op) id := by
  have high : ¬s.accessAddr d c ra imm < regSpaceEnd := by
    have := (Die.window_some hw).1
    unfold regSpaceEnd
    omega
  have stored : s.upd d (fun x => x.cacheStore c m (natLE size (((s.regsOf d c).get rd).toNat % 256 ^ size))) =
      s.upd d fun x => (x.dropOthers c (m / 64)).setL1 c (m / 64) (some (l.put c (m % 64) (natLE size ((s.regsOf d c).get rd).toNat))) := by
    refine State.upd_congr ?_
    unfold Die.cacheStore
    rw [hl, natLE_mod]
  rw [← stored]
  refine (State.coreDo_ready h _).trans ((if_neg (not_not.mpr ha)).trans ((if_neg high).trans ?_))
  change (match (s.die d).window c (s.accessAddr d c ra imm) with
    | none => _
    | some m => _) = _
  rw [hw]
  dsimp only
  rw [State.fill_hit hl]
  rfl

end Aligned

/-- An access outside every window (R512). -/
theorem State.coreLoad_outside (h : s.coreReady d c = true) (e : Ecc) (ha : s.accessAddr d c ra imm % size = 0)
    (hr : 0x250000 ≤ s.accessAddr d c ra imm) (hw : (s.die d).window c (s.accessAddr d c ra imm) = none) :
    s.coreLoad d c op rd ra imm size e = s.stopThread d (s.thread d c) 3 := by
  refine (State.coreDo_ready h _).trans ((if_neg (not_not.mpr ha)).trans ((if_neg (not_lt.mpr hr)).trans ?_))
  change (match (s.die d).window c (s.accessAddr d c ra imm) with
    | none => _
    | some m => _) = _
  rw [hw]
theorem State.coreStore_outside (h : s.coreReady d c = true) (e : Ecc) (ha : s.accessAddr d c ra imm % size = 0)
    (hr : 0x250000 ≤ s.accessAddr d c ra imm) (hw : (s.die d).window c (s.accessAddr d c ra imm) = none) :
    s.coreStore d c op rd ra imm size e = s.stopThread d (s.thread d c) 3 := by
  refine (State.coreDo_ready h _).trans ((if_neg (not_not.mpr ha)).trans ((if_neg (not_lt.mpr hr)).trans ?_))
  change (match (s.die d).window c (s.accessAddr d c ra imm) with
    | none => _
    | some m => _) = _
  rw [hw]

/-! ### What the statement says of each -/

/-- A load whose line the L1 holds (R185). -/
theorem coreLoad_hit_gives (h : s.coreReady d c = true) (ha : s.accessAddr d c ra imm % size = 0)
    (hw : (s.die d).window c (s.accessAddr d c ra imm) = some m) (hl : (s.die d).l1 c (m / 64) = some l) :
    onDie s d true (s.coreLoad d c op rd ra imm size .clean) = .next (s.ran d c 3
      { (s.regsOf d c).set rd (BitVec.ofNat 32 (num l.bytes (m % 64) size)) with pc := (s.regsOf d c).pc + 4 }) := by
  rw [State.coreLoad_window h ha hw (State.fill_hit hl .clean) hl, State.coreGo_eq_ran, CoreRegs.set_next]
  exact onDie_next_of_pending (State.coreReady_runs h).1 (s.ran_pending d c _ _)

/-- A store whose line the L1 holds (R511). -/
theorem coreStore_hit_gives (h : s.coreReady d c = true) (ha : s.accessAddr d c ra imm % size = 0)
    (hw : (s.die d).window c (s.accessAddr d c ra imm) = some m) (hl : (s.die d).l1 c (m / 64) = some l) :
    Completes (onDie s d true (s.coreStore d c op rd ra imm size .clean)) fun r =>
      r.regsOf d c = { s.regsOf d c with pc := (s.regsOf d c).pc + 4 } ∧
      (r.die d).l1 c (m / 64) = some (l.put c (m % 64) (natLE size ((s.regsOf d c).get rd).toNat)) ∧
      (∀ j : Fin 8, j ≠ c → (r.die d).l1 j (m / 64) = none) ∧ (r.die d).dram = (s.die d).dram ∧ (r.die d).par.l2 = (s.die d).par.l2 := by
  rw [State.coreStore_hit h ha hw hl]
  refine completes_onDie (State.coreReady_runs h).1 ?_
  generalize l.put c (m % 64) (natLE size ((s.regsOf d c).get rd).toNat) = k
  set u := s.upd d fun x => (x.dropOthers c (m / 64)).setL1 c (m / 64) (some k)
  have die : u.die d = ((s.die d).dropOthers c (m / 64)).setL1 c (m / 64) (some k) := State.die_upd_same _ _ _
  obtain ⟨bare, dram, l2⟩ := (s.die d).dropOthers_kept c (m / 64)
  have regs : u.regsOf d c = s.regsOf d c := Die.coreRegs_of_bare (by rw [die, Die.setL1_bare, bare]) c
  have line (j : Nat) : ((u.coreGo d c (s.thread d c) (Config.coreCycles op) id).die d).l1 j (m / 64) =
      if j = c ∧ m / 64 = m / 64 then some k else ((s.die d).dropOthers c (m / 64)).l1 j (m / 64) := by
    rw [State.coreGo_l1, die, Die.l1_setL1]
  obtain ⟨hl2, hdram, -⟩ := u.coreGo_kept d c (s.thread d c) (Config.coreCycles op) id
  refine ⟨(u.coreGo_regsOf d c _ _ id).trans (congrArg CoreRegs.next regs), (line c).trans (if_pos ⟨rfl, rfl⟩), fun j hj => ?_,
    hdram.trans (by rw [die]; exact dram), hl2.trans (by rw [die]; exact l2)⟩
  have ne : j.val ≠ c.val := Fin.val_ne_of_ne hj
  exact (line j).trans ((if_neg fun e => ne e.1).trans (Die.dropOthers_l1 _ _ _ j.isLt ne))
/-- The lines and the memory that such a store leaves. -/
theorem coreStore_hit_line (h : s.coreReady d c = true) (ha : s.accessAddr d c ra imm % size = 0)
    (hw : (s.die d).window c (s.accessAddr d c ra imm) = some m) (hl : (s.die d).l1 c (m / 64) = some l) :
    Completes (onDie s d true (s.coreStore d c op rd ra imm size .clean)) fun r =>
      r.regsOf d c = { s.regsOf d c with pc := (s.regsOf d c).pc + 4 } ∧
      (r.die d).l1 c (m / 64) = some (l.put c (m % 64) (natLE size ((s.regsOf d c).get rd).toNat)) ∧ (r.die d).dram = (s.die d).dram := by
  obtain ⟨r, hr, hregs, hline, -, hdram, -⟩ := coreStore_hit_gives (op := op) (rd := rd) h ha hw hl
  exact ⟨r, hr, hregs, hline, hdram⟩

theorem peer_ne (d : DieId) : peer d ≠ d := by fin_cases d <;> decide

/-- A load whose line no L1 holds (R511): the bytes are those of the L2's copy, or of the memory. -/
theorem coreLoad_miss_gives (h : s.coreReady d c = true) (hn : s.noInject d = true) (ha : s.accessAddr d c ra imm % size = 0)
    (hw : (s.die d).window c (s.accessAddr d c ra imm) = some m) (hnone : ∀ j : Fin 8, (s.die d).l1 j (m / 64) = none)
    {w : Nat} (hv : ∀ bs : List Byte, (bs = match (s.die d).l2 (m / 64) with
      | some k => k.bytes
      | none => rdBytes (s.die d).dram.view (64 * (m / 64)) 64) → leNat (subBytes bs (m % 64) size) = w) :
    Completes (onDie s d true (s.coreLoad d c op rd ra imm size .clean)) fun r =>
      r.regsOf d c = { (s.regsOf d c).set rd (BitVec.ofNat 32 w) with pc := (s.regsOf d c).pc + 4 } ∧
      (r.die d).tiles = (s.die d).tiles ∧ r.die (peer d) = s.die (peer d) := by
  obtain ⟨r, cycles, k, hfill, hbare, hother, hline, hbytes⟩ := State.fill_miss hn hnone c.isLt
  have value : num k.bytes (m % 64) size = w := hv _ hbytes
  have regs : r.regsOf d c = s.regsOf d c := Die.coreRegs_of_bare hbare c
  rw [State.coreLoad_window h ha hw hfill hline, value]
  have course := State.coreGo_set regs (s.thread d c) cycles rd (BitVec.ofNat 32 w)
  obtain ⟨-, -, tiles⟩ := r.coreGo_kept d c (s.thread d c) cycles fun g => g.set rd (BitVec.ofNat 32 w)
  have other : (r.coreGo d c (s.thread d c) cycles fun g => g.set rd (BitVec.ofNat 32 w)).die (peer d) = r.die (peer d) :=
    State.die_upd_other _ _ (peer_ne d)
  exact completes_onDie (State.coreReady_runs h).1 ⟨course, tiles.trans (Die.tiles_of_bare hbare), other.trans (hother _ (peer_ne d))⟩

/-- A load from the register space (R513). -/
theorem coreLoad_reg_gives (h : s.coreReady d c = true) (ha : s.accessAddr d c ra imm % size = 0) (hr : s.accessAddr d c ra imm < 0x250000)
    (hn : s.noAddress d (s.accessAddr d c ra imm / 4 * 4) = false) :
    Completes (onDie s d true (s.coreLoad d c op rd ra imm size .clean)) fun r =>
      r.regsOf d c = { (s.regsOf d c).set rd (BitVec.ofNat 32
        ((s.readReg d (s.accessAddr d c ra imm / 4 * 4)).toNat / 256 ^ (s.accessAddr d c ra imm % 4) % 256 ^ size)) with
          pc := (s.regsOf d c).pc + 4 } ∧ (r.die d).par.l2 = (s.die d).par.l2 := by
  have die (b : Nat) : (s.readEffect b).die d = s.die d := by
    unfold State.readEffect
    split <;> rfl
  have regs (b : Nat) : (s.readEffect b).regsOf d c = s.regsOf d c := congrArg (fun y : Die => (y.core c).regs) (die b)
  rw [State.coreLoad_reg h ha .clean hr hn]
  have course := State.coreGo_set (regs (s.accessAddr d c ra imm / 4 * 4)) (s.thread d c) (Config.coreCycles op) rd (BitVec.ofNat 32
    ((s.readReg d (s.accessAddr d c ra imm / 4 * 4)).toNat / 256 ^ (s.accessAddr d c ra imm % 4) % 256 ^ size))
  obtain ⟨l2, -, -⟩ := (s.readEffect (s.accessAddr d c ra imm / 4 * 4)).coreGo_kept d c (s.thread d c) (Config.coreCycles op)
    fun g => g.set rd (BitVec.ofNat 32
      ((s.readReg d (s.accessAddr d c ra imm / 4 * 4)).toNat / 256 ^ (s.accessAddr d c ra imm % 4) % 256 ^ size))
  exact completes_onDie (State.coreReady_runs h).1 ⟨course, l2.trans (congrArg (fun y : Die => y.par.l2) (die _))⟩

end Access

end Sys2Proof.Machine

namespace Sys2Proof
open Sys2Proof.Machine

/-- Settles O20: an access stops the thread, or is the instruction's course around a read of a register or the line that the L1 then holds. -/
theorem coreLoadsAndStores : Obligations.CoreLoadsAndStores := by
  intro s d c rd ra imm hready hinject g x n a loads each stops
  have hd : s.has d = true := (State.coreReady_runs hready).1
  have stop {i : Instr} {cause : Nat} (hi : exec i s = onDie s d true (s.stopThread d n cause)) : stops i cause := by
    rw [show stops i cause = Completes (exec i s) _ from rfl, hi]
    exact completes_onDie hd (s.stopThread_th d n cause)
  have byte : a % 1 = 0 := Nat.mod_one a
  refine ⟨fun m hw l hl => ?_, fun m hw hnone => ?_, fun hreg haddr => ?_, fun ha => ?_, fun ha => ?_, fun hhi hw => ?_⟩
  · exact ⟨⟨fun ha => coreLoad_hit_gives hready ha hw hl, fun ha => coreLoad_hit_gives hready ha hw hl, coreLoad_hit_gives hready byte hw hl⟩,
      fun ha => coreStore_hit_gives hready ha hw hl, fun ha => coreStore_hit_line hready ha hw hl, coreStore_hit_line hready byte hw hl⟩
  · obtain ⟨-, hoffset⟩ := Die.window_some hw
    have value (k : Nat) (hfit : m % 64 + k ≤ 64) (bs : List Byte) (hbs : bs = match (s.die d).l2 (m / 64) with
        | some k => k.bytes
        | none => rdBytes (s.die d).dram.view (64 * (m / 64)) 64) : leNat (subBytes bs (m % 64) k) = leNat (match x.l2 (m / 64) with
          | some l => subBytes l.bytes (m % 64) k
          | none => rdBytes x.dram.view m k) := by
      rw [hbs]
      change leNat (subBytes (match x.l2 (m / 64) with
        | some k => k.bytes
        | none => rdBytes x.dram.view (64 * (m / 64)) 64) (m % 64) k) = _
      cases x.l2 (m / 64) with
      | some l => rfl
      | none => exact congrArg leNat (subBytes_line _ hfit)
    have word : a % 4 = 0 → m % 64 + 4 ≤ 64 := by omega
    have half : a % 2 = 0 → m % 64 + 2 ≤ 64 := by omega
    have one : m % 64 + 1 ≤ 64 := by omega
    exact ⟨fun ha => coreLoad_miss_gives hready hinject ha hw hnone (value 4 (word ha)),
      fun ha => coreLoad_miss_gives hready hinject ha hw hnone (value 2 (half ha)),
      coreLoad_miss_gives hready hinject byte hw hnone (value 1 one)⟩
  · exact ⟨fun ha => coreLoad_reg_gives hready ha hreg haddr, fun ha => coreLoad_reg_gives hready ha hreg haddr,
      coreLoad_reg_gives hready byte hreg haddr⟩
  · exact ⟨stop (congrArg (onDie s d true) (State.coreLoad_misaligned hready .clean ha)),
      stop (congrArg (onDie s d true) (State.coreStore_misaligned hready .clean ha))⟩
  · exact ⟨stop (congrArg (onDie s d true) (State.coreLoad_misaligned hready .clean ha)),
      stop (congrArg (onDie s d true) (State.coreStore_misaligned hready .clean ha))⟩
  · exact ⟨stop (congrArg (onDie s d true) (State.coreLoad_outside hready .clean byte hhi hw)),
      stop (congrArg (onDie s d true) (State.coreStore_outside hready .clean byte hhi hw))⟩

end Sys2Proof
end

section
/-! The churn of a channel (R299 to R306): what its functions read and leave, and how they stand to posts and records. -/

namespace Sys2Proof.Machine

/-! ### A bit of a number that is replaced -/

/-- A bit at place value `p` that is taken out of a number and put in anew reads as it was put, in whatever width holds it. -/
theorem flagAt_replaced {p w : Nat} (hp : 0 < p) (hw : 2 * p ∣ w) (n : Nat) (v : Bool) :
    ((n - b2n (n / p % 2 == 1) * p + b2n v * p) % w / p % 2 == 1) = v := by
  obtain ⟨k, rfl⟩ := hw
  have low : n % p < p := Nat.mod_lt _ hp
  have cleared : n - b2n (n / p % 2 == 1) * p = n % p + p * (2 * (n / p / 2)) := by
    have hb : b2n (n / p % 2 == 1) = n / p % 2 := by
      rcases Nat.mod_two_eq_zero_or_one (n / p) with h | h <;> rw [h] <;> rfl
    have split : n = n % p + p * (n / p % 2) + p * (2 * (n / p / 2)) := by
      rw [Nat.add_assoc, ← Nat.mul_add, Nat.mod_add_div, Nat.mod_add_div]
    rw [hb, Nat.mul_comm _ p]
    omega
  have place : (n % p + p * (2 * (n / p / 2)) + b2n v * p) / p = 2 * (n / p / 2) + b2n v := by
    rw [Nat.mul_comm _ p, Nat.add_assoc, ← Nat.mul_add, Nat.add_mul_div_left _ _ hp, Nat.div_eq_of_lt low, Nat.zero_add]
  rw [cleared, show 2 * p * k = p * (2 * k) by ring, Nat.mod_mul_right_div_self, Nat.mod_mod_of_dvd _ ⟨k, rfl⟩, place, Nat.mul_add_mod]
  cases v <;> rfl

/-! ### Posts, records and time beside a die's fields -/

theorem State.event_fld_same (s : State) (d : DieId) (f : Fld) (i n : Nat) (hf : f.lo = f.hi ∧ f.hi < 32) (q : Quiet (fldAddr f i 0)) :
    (s.event d f i n).fld d f i = 1 := by
  refine ((s.event_posted d f i n).fld f i 0 q).trans ((Die.fld_setFld_same _ f 1 i 0 ⟨hf.1.le, hf.2⟩).trans ?_)
  rw [hf.1, Nat.sub_self]; rfl
theorem State.event_fld_addr (s : State) (d : DieId) (f : Fld) (i n : Nat) (g : Fld) (k l : Nat) (q : Quiet (fldAddr g k l))
    (h : fldAddr g k l ≠ fldAddr f i 0) : (s.event d f i n).fld d g k l = s.fld d g k l :=
  ((s.event_posted d f i n).fld g k l q).trans (Die.fld_setFld_addr _ f g 1 i 0 k l h)
theorem State.hbCad_fld (s : State) (d : DieId) (c n k v : Nat) (p : Bool) (g : Fld) (i j : Nat) (q : Quiet (fldAddr g i j)) :
    (s.hbCad d c n k v p).fld d g i j = s.fld d g i j := (s.hbRecord_posted d d _ _ _ _ _).fld g i j q
theorem State.eventCad_fld_addr (s : State) (d : DieId) (f : Fld) (i n c v : Nat) (p : Bool) (g : Fld) (k l : Nat)
    (q : Quiet (fldAddr g k l)) (h : fldAddr g k l ≠ fldAddr f i 0) : (s.eventCad d f i n c v p).fld d g k l = s.fld d g k l :=
  (State.hbCad_fld _ d _ _ _ _ _ g k l q).trans (s.event_fld_addr d f i v g k l q h)
theorem State.count_fld_addr (s : State) (d : DieId) (f : Fld) (i n : Nat) (g : Fld) (k l : Nat) (h : fldAddr g k l ≠ fldAddr f i 0) :
    (s.count d f i n).fld d g k l = s.fld d g k l := s.fld_setFld_addr d d f g _ i 0 k l h

theorem Die.Posted.churn {x y : Die} (h : x.Posted y) : y.churn = x.churn := by rw [h.rest]
@[simp] theorem State.hbCad_die_churn (s : State) (d : DieId) (c n k v : Nat) (p : Bool) : ((s.hbCad d c n k v p).die d).churn = (s.die d).churn :=
  (s.hbRecord_posted d d _ _ _ _ _).churn
@[simp] theorem State.eventCad_die_churn (s : State) (d : DieId) (f : Fld) (i n c v : Nat) (p : Bool) :
    ((s.eventCad d f i n c v p).die d).churn = (s.die d).churn := (s.eventCad_posted d f i n c v p).churn
@[simp] theorem State.hbCad_clk (s : State) (d e : DieId) (c n k v : Nat) (p : Bool) : ((s.hbCad d c n k v p).die e).clk = (s.die e).clk :=
  s.hbRecord_clk d e _ _ _ _ _
@[simp] theorem State.setFld_die_churn (s : State) (d : DieId) (f : Fld) (v i j : Nat) : ((s.setFld d f v i j).die d).churn = (s.die d).churn := by
  unfold State.setFld; rw [State.die_upd_same, Die.setFld_churn]
@[simp] theorem State.count_die_churn (s : State) (d : DieId) (f : Fld) (i n : Nat) : ((s.count d f i n).die d).churn = (s.die d).churn :=
  s.setFld_die_churn d f _ i 0
@[simp] theorem State.advanceStation_churn (s : State) (d e : DieId) (t : Nat) : ((s.advanceStation d t).die e).churn = (s.die e).churn := by
  rw [State.advanceStation_rest]

/-! ### Layers and runs of a channel -/

@[simp] theorem Die.churnOf_modChurn (x : Die) (n : Nat) (f : ChurnChan → ChurnChan) : (x.modChurn n f).churnOf n = f (x.churnOf n) :=
  mget_mmod_same _ _ _ _
@[simp] theorem ChurnChan.layer_modLayer (c : ChurnChan) (l : Nat) (f : Layer → Layer) : (c.modLayer l f).layer l = f (c.layer l) :=
  mget_mmod_same _ _ _ _
theorem Die.churnOf_congr {x y : Die} (h : y.churn = x.churn) (n : Nat) : y.churnOf n = x.churnOf n := congrArg (mget _ · n) h

/-- Whether a layer is in a flattened run is said by CH_CFG (R304). -/
theorem Die.flattened_congr {x y : Die} {n : Nat} (h : y.fld R.CH_CFG_FLAT_MASK n = x.fld R.CH_CFG_FLAT_MASK n) (l : Nat) :
    y.flattened n l = x.flattened n l := by unfold Die.flattened; rw [h]
@[simp] theorem Die.setPending_churn (x : Die) (n l : Nat) (v : Bool) : (x.setPending n l v).churn = x.churn := Die.setFld_churn _ _ _ _ _
@[simp] theorem Die.setPending_clk (x : Die) (n l : Nat) (v : Bool) : (x.setPending n l v).clk = x.clk := Die.setFld_clk _ _ _ _ _
theorem Die.setPending_fld (x : Die) (n l : Nat) (v : Bool) (f : Fld) (i j : Nat) (h : fldAddr f i j ≠ fldAddr R.CH_LAYER_STATE n 0) :
    (x.setPending n l v).fld f i j = x.fld f i j := x.fld_setFld_addr _ _ _ _ _ _ _ h
/-- PENDING of a layer in CH_LAYER_STATE (R311). -/
theorem Die.layerPending_setPending (x : Die) (n : Nat) {l : Nat} (hl : l < 8) (v : Bool) : (x.setPending n l v).layerPending n l = v := by
  have fits : 2 * (16 ^ l * 8) ∣ 2 ^ 32 := by
    rw [show 2 * (16 ^ l * 8) = 2 ^ (4 * l + 4) by rw [pow_add, pow_mul]; ring]
    exact pow_dvd_pow 2 (by omega)
  have place (b : Nat) : b * 8 * 16 ^ l = b * (16 ^ l * 8) := by ring
  unfold Die.setPending
  rw [Die.layerPending, Die.fld_setFld_same _ _ _ _ _ (by decide), place, place]
  exact flagAt_replaced (by positivity) fits _ v

end Sys2Proof.Machine
end

section
/-! Commits that come into force and recomputes that end (R299, R301, R305, R306). -/

namespace Sys2Proof.Machine

/-- No post and no record writes a register of an encode channel's composition. -/
theorem quiet_of_channel {f : Fld} (hf : 0xC0000 ≤ f.base ∧ f.base < 0xC0100) (hs : f.stride = 0x100 ∧ f.stride2 ≤ 0x20) {n j : Nat} (hn : n < 256)
    (hj : j < 8) : Quiet (fldAddr f n j) := by
  have hstep : j * f.stride2 ≤ 7 * 0x20 := Nat.mul_le_mul (by omega) hs.2
  unfold Quiet fldAddr
  rw [hs.1]
  omega

/-! ### COMMIT_APPLY -/

/-- What a layer that takes a commit makes of its die. -/
def Die.layerTakes (x : Die) (n l : Nat) (c : LayerCommit) (frame : Int) : Die :=
  let x := (x.modLayer n l fun v => { v with live := c.values, commit := none, committed := true }).setPending n l false
  if l = 0 then x else x.setFld R.CH_LCAUSE_FRAME (unsgn 16 frame) n (l - 1)
theorem Die.layerTakes_clk (x : Die) (n l : Nat) (c : LayerCommit) (frame : Int) : (x.layerTakes n l c frame).clk = x.clk := by
  unfold Die.layerTakes
  split
  · rw [Die.setPending_clk, Die.modLayer_clk]
  · rw [Die.setFld_clk, Die.setPending_clk, Die.modLayer_clk]
theorem Die.layerTakes_layer (x : Die) (n l : Nat) (c : LayerCommit) (frame : Int) :
    ((x.layerTakes n l c frame).churnOf n).layer l = { (x.churnOf n).layer l with live := c.values, commit := none, committed := true } := by
  have hchurn : (x.layerTakes n l c frame).churn =
      (x.modLayer n l fun v => { v with live := c.values, commit := none, committed := true }).churn := by
    unfold Die.layerTakes
    split
    · rw [Die.setPending_churn]
    · rw [Die.setFld_churn, Die.setPending_churn]
  rw [Die.churnOf_congr hchurn, Die.modLayer, Die.churnOf_modChurn, ChurnChan.layer_modLayer]
theorem State.layerApply_some {s : State} {d : DieId} {n l : Nat} {c : LayerCommit}
    (hc : (((s.die d).churnOf n).layer l).commit = some c) (frame : Int) :
    s.layerApply d n l frame = ((s.upd d fun x => x.layerTakes n l c frame).event d R.CH_EVENTS_APPLIED n l).hbCad d (codeOf R.CH_EVENTS_APPLIED)
      (8 * n + l) ((s.upd d fun x => x.layerTakes n l c frame).fld d R.EN_TIMING_CADENCE n) 0 := by
  unfold State.layerApply
  rw [hc]
  rfl

/-- A layer whose commit is applied shows its values from then on. -/
theorem State.layerApply_applied {s : State} {d : DieId} {n l : Nat} {c : LayerCommit} (hn : n < 256)
    (hc : (((s.die d).churnOf n).layer l).commit = some c) (frame : Int) :
    let r := s.layerApply d n l frame
    (r.die d).clk = (s.die d).clk ∧ r.fld d R.CH_EVENTS_APPLIED n = 1 ∧
      ((r.die d).churnOf n).layer l = { ((s.die d).churnOf n).layer l with live := c.values, commit := none, committed := true } := by
  have hq : Quiet (fldAddr R.CH_EVENTS_APPLIED n 0) := quiet_of_channel (by decide) (by decide) hn (by decide)
  rw [State.layerApply_some hc]
  refine ⟨?_, ?_, ?_⟩
  · rw [State.hbCad_clk, State.event_clk, State.die_upd_same, Die.layerTakes_clk]
  · rw [State.hbCad_fld _ _ _ _ _ _ _ _ _ _ hq, State.event_fld_same _ _ _ _ _ (by decide) hq]
  · rw [Die.churnOf_congr ((State.hbCad_die_churn _ _ _ _ _ _ _).trans (State.event_die_churn _ _ _ _ _)), State.die_upd_same, Die.layerTakes_layer]

/-- COMMIT_APPLY where one layer's commit waits: it is applied at the boundary of its frame. -/
theorem State.commitApply_one {s : State} {d : DieId} {n l : Nat} {g : Grid} {frame : Int}
    (hg : (s.die d).grid ((s.die d).fld R.EN_TIMING_CADENCE n) = some g) (hdue : (s.die d).commitsDue n = [(frame, l)])
    (hflat : (s.die d).flattened n l = false) :
    ∃ now, s.commitApply d n = (s.advanceStation d (g.instant (frame * g.l))).layerApply d n l now := by
  unfold State.commitApply
  dsimp only
  rw [hdue, hg]
  dsimp only [List.map, List.min?, List.foldl]
  generalize ht : g.instant (frame * g.l) = t
  have mask := s.advanceStation_fld d d t R.CH_CFG_FLAT_MASK n 0
  rw [List.filter_cons_of_pos (by simp), List.filter_nil, List.foldl_cons, List.foldl_nil,
    Die.flattened_congr mask, hflat]
  exact ⟨_, rfl⟩
/-- So its values are in force, and the commit is reported (R299, R301). -/
theorem State.commitApply_applied {s : State} {d : DieId} {n l : Nat} {g : Grid} {k : LayerCommit} (hn : n < 256)
    (hg : (s.die d).grid ((s.die d).fld R.EN_TIMING_CADENCE n) = some g) (hdue : (s.die d).commitsDue n = [(k.frame, l)])
    (hflat : (s.die d).flattened n l = false) (hk : (((s.die d).churnOf n).layer l).commit = some k) :
    let r := s.commitApply d n
    (r.die d).clk.now = max (s.die d).clk.now (g.instant (k.frame * g.l)) ∧ r.fld d R.CH_EVENTS_APPLIED n = 1 ∧
      ((r.die d).churnOf n).layer l = { ((s.die d).churnOf n).layer l with live := k.values, commit := none, committed := true } := by
  obtain ⟨now, happly⟩ := State.commitApply_one hg hdue hflat
  have hchan := Die.churnOf_congr (s.advanceStation_churn d d (g.instant (k.frame * g.l))) n
  obtain ⟨hclk, hevent, hlayer⟩ := State.layerApply_applied (s := s.advanceStation d (g.instant (k.frame * g.l))) hn (by rw [hchan, hk]) now
  dsimp only
  rw [happly]
  exact ⟨(congrArg Clock.now hclk).trans (s.advanceStation_now d _), hevent, hlayer.trans (by rw [hchan])⟩

/-! ### RECOMPUTE_DONE -/

/-- A recompute that ends before the boundary of the frame that its commit waits for: its plane is complete, and nothing is shown yet (R306). -/
theorem State.recomputeDone_waits {s : State} {d : DieId} {n l : Nat} {g : Grid} {e : FlatRun} (hn : n < 256)
    (hg : (s.die d).grid ((s.die d).fld R.EN_TIMING_CADENCE n) = some g)
    (he : oget ((s.die d).churnOf n).flat ((s.die d).runStart n l) = some e) (hdone : e.done = false)
    (hlater : ((s.die d).frameLine ((s.die d).fld R.EN_TIMING_CADENCE n)).1 + 1 < e.notBefore) :
    let r := s.recomputeDone d n l
    oget ((r.die d).churnOf n).flat ((s.die d).runStart n l) = some { e with done := true } ∧ r.fld d R.CH_EVENTS_FLAT_DONE n = 1 ∧
      ((r.die d).churnOf n).layer l = ((s.die d).churnOf n).layer l := by
  have hq : Quiet (fldAddr R.CH_EVENTS_FLAT_DONE n 0) := quiet_of_channel (by decide) (by decide) hn (by decide)
  have hother : fldAddr R.CH_EVENTS_FLAT_DONE n 0 ≠ fldAddr R.CH_DIE_EVENTS_FLAT_DONE 0 0 := by
    simp only [fldAddr, R.CH_EVENTS_FLAT_DONE, R.CH_DIE_EVENTS_FLAT_DONE]; omega
  have early (m : Int) (h : m = 0 ∨ m = 1) : ¬e.notBefore ≤ ((s.die d).frameLine ((s.die d).fld R.EN_TIMING_CADENCE n)).1 + m := by omega
  unfold State.recomputeDone
  dsimp only
  rw [he, hg]
  dsimp only
  rw [if_neg (by simp [hdone]), if_neg (early _ (by split <;> simp))]
  have hchan (t : State) (v : Die → Nat) (k c b : Nat) : ((((t.upd d fun x => x.setFld R.CH_STATUS_RECOMPUTE (v x)).event d
      R.CH_EVENTS_FLAT_DONE n k).eventCad d R.CH_DIE_EVENTS_FLAT_DONE 0 c b 0).die d).churnOf n = (t.die d).churnOf n := by
    rw [Die.churnOf_congr ((State.eventCad_die_churn _ _ _ _ _ _ _ _).trans (State.event_die_churn _ _ _ _ _)), State.die_upd_same,
      Die.churnOf_congr (Die.setFld_churn _ _ _ _ _)]
  have hkept (t : Nat) := Die.churnOf_congr (s.advanceStation_churn d d t) n
  refine ⟨?_, ?_, ?_⟩
  · rw [hchan, State.die_upd_same, Die.churnOf_modChurn]
    unfold oget
    rw [mget_mput_same]
  · rw [State.eventCad_fld_addr _ _ _ _ _ _ _ _ _ _ _ hq hother, State.event_fld_same _ _ _ _ _ (by decide) hq]
  · rw [hchan, State.die_upd_same, Die.churnOf_modChurn, hkept]
    rfl

end Sys2Proof.Machine
end

section
/-! CH_COMMIT (R299 to R301): a write of it stores nothing, so that the channel is checked as it was. -/

namespace Sys2Proof.Machine

/-! ### Dies that read alike -/

section Alike

variable {x y : Die} (h : y = { x with regs := y.regs }) (hr : ∀ a, y.reg a = x.reg a)
include h hr

omit h in
theorem Die.fld_alike (f : Fld) (i j : Nat) : y.fld f i j = x.fld f i j := congrArg (fun w : W32 => bits w.toNat f.hi f.lo) (hr _)
omit h in
theorem Die.fld_alike_eq : @Die.fld y = @Die.fld x := by funext f i j; exact Die.fld_alike hr f i j
omit hr in
theorem Die.bodyOf_alike (ty kind idx : Nat) : y.bodyOf ty kind idx = x.bodyOf ty kind idx := by rw [h]; rfl

theorem Die.layerFmt_alike (d : DieId) (n l : Nat) : y.layerFmt d n l = x.layerFmt d n l := by
  have lanes : y.lanes = x.lanes := by rw [h]
  have dec (k : Nat) : y.decFmt k = x.decFmt k := by rw [h]; rfl
  simp only [Die.layerFmt, Die.inputMembers, Die.memInput, Die.memGroup, Die.storeFmt, Die.memFmt, Die.rxFormat, Die.sdiFormat, Die.fld_alike hr,
    Die.bodyOf_alike h, lanes, dec]
theorem Die.layerInterlaced_alike (d : DieId) (n l : Nat) : y.layerInterlaced d n l = x.layerInterlaced d n l := by
  have lanes : y.lanes = x.lanes := by rw [h]
  simp only [Die.layerInterlaced, Die.inputMembers, Die.memInput, Die.memGroup, Die.rxFormat, Die.sdiFormat, Die.fld_alike hr,
    Die.bodyOf_alike h, lanes]
omit h in
theorem Die.layerRegs_alike (n l : Nat) : y.layerRegs n l = x.layerRegs n l := by simp only [Die.layerRegs, hr]
theorem Die.layerCause_alike (d : DieId) (n l : Nat) : y.layerCause d n l = x.layerCause d n l := by
  have taken (k : Nat) : y.surfaceTaken n l k = x.surfaceTaken n l k := by rw [h]; rfl
  have flag : @Die.flag y = @Die.flag x := by funext f i j; exact congrArg (· == 1) (Die.fld_alike hr f i j)
  unfold Die.layerCause
  dsimp only
  rw [Die.layerRegs_alike hr, flag, Die.fld_alike_eq hr, Die.layerFmt_alike h hr, Die.layerInterlaced_alike h hr, taken]
theorem Die.framePlus16_alike (c : Nat) : y.framePlus16 c = x.framePlus16 c := by
  have clk : y.clk = x.clk := by rw [h]
  unfold Die.framePlus16 Die.grid Die.gridTime Die.cad
  rw [Die.fld_alike_eq hr, clk]

end Alike

/-! ### A write of CH_COMMIT -/

/-- CH_COMMIT in the register table. -/
def chCommitDesc : RegDesc := ⟨0xC000C, 0x100, 256, 0, 1, .en, [⟨7, 0, .wo, .val 0⟩]⟩
theorem findReg_chCommit (n : Fin 256) : findReg (0xC000C + 256 * n.val) = some (chCommitDesc, n.val, 0) := by
  revert n; decide +kernel
theorem keptAside_chCommit (n : Fin 256) : keptAside (0xC000C + 256 * n.val) = false := by
  unfold keptAside; rw [findReg_chCommit]; rfl

/-- A register of a die is written with what it holds. -/
def Die.rewritten (x : Die) (a : Nat) : Die := x.setReg a (x.reg a)
theorem Die.rewritten_rest (x : Die) (a : Nat) : x.rewritten a = { x with regs := (x.rewritten a).regs } := rfl
theorem Die.rewritten_churn (x : Die) (a : Nat) : (x.rewritten a).churn = x.churn := Die.setReg_churn _ _ _
theorem Die.rewritten_reg (x : Die) (a b : Nat) : (x.rewritten a).reg b = x.reg b := by
  unfold Die.rewritten
  by_cases h : b = a
  · rw [h, Die.reg_setReg_same]
  · rw [Die.reg_setReg_other _ _ h]

theorem State.writeWords_chCommit (s : State) (d : DieId) (wr : Writer) (n : Fin 256) (v : W32) :
    s.writeWords d wr [(0xC000C + 256 * n.val, v)] =
      (s.upd d fun x => x.rewritten (0xC000C + 256 * n.val)).commitWrite d n (bits v.toNat 7 0) := by
  have hcmp : cmpUnits [(0xC000C + 256 * n.val, v)] = [] := by
    unfold cmpUnits
    rw [List.filter_cons_of_neg (by simp only [decide_eq_true_eq]; omega)]
    rfl
  have hserve : s.hostServe d wr chCommitDesc n = s := ite_id s
  unfold State.writeWords
  rw [hcmp, List.foldl_cons, List.foldl_nil, List.foldl_nil]
  unfold State.writeWord
  rw [findReg_chCommit]
  dsimp only
  rw [hserve, if_neg (by decide), keptAside_chCommit]
  rfl

/-- The layer of a commit of one layer. -/
theorem commitMask_layer : ∀ l k : Fin 8, l ≤ k → (List.range 8).filter (fun i => bit (2 ^ l.val) i && decide (i ≤ k.val)) = [l.val] := by decide

end Sys2Proof.Machine
end

section
/-! COMMIT on a channel that is not in step (R299 to R301): a layer that passes waits for its picture, one that does not is refused. -/

namespace Sys2Proof.Machine

theorem State.die_withPending (s : State) (l : List Instr) (d : DieId) : ({ s with pending := l } : State).die d = s.die d := rfl

/-- A commit of one layer that passes and is in no flattened run. -/
theorem State.churnCommit_passed {s : State} {d : DieId} {n : Nat} {l : Fin 8} (hl : l.val ≤ s.fld d R.CH_CFG_LAYERS n)
    (hcause : (s.die d).layerCause d n l = 0) (hflat : (s.die d).flattened n l = false) (frame : Int) :
    s.churnCommit d n (2 ^ l.val) frame = s.upd d fun x =>
      (x.modLayer n l fun v => { v with commit := some ⟨(s.die d).layerRegs n l, frame⟩ }).setPending n l true := by
  have hmask := commitMask_layer l ⟨s.fld d R.CH_CFG_LAYERS n, (s.die d).fld_lt R.CH_CFG_LAYERS n 0⟩ hl
  unfold State.churnCommit
  dsimp only at hmask ⊢
  rw [hmask, List.foldl_cons, List.foldl_nil, if_neg (by simp [hcause])]
  refine State.upd_congr (if_neg ?_)
  rw [Die.flattened_congr (x := s.die d), hflat]
  · exact Bool.false_ne_true
  · rw [Die.setPending_fld _ _ _ _ _ _ _ (by simp only [fldAddr, R.CH_CFG_FLAT_MASK, R.CH_LAYER_STATE]; omega)]
    rfl
/-- A commit of one layer that does not pass. -/
theorem State.churnCommit_refused {s : State} {d : DieId} {n : Nat} {l : Fin 8} (hl : l.val ≤ s.fld d R.CH_CFG_LAYERS n)
    (hcause : (s.die d).layerCause d n l ≠ 0) (frame : Int) :
    s.churnCommit d n (2 ^ l.val) frame = s.layerRefused d n l ((s.die d).layerCause d n l) := by
  have hmask := commitMask_layer l ⟨s.fld d R.CH_CFG_LAYERS n, (s.die d).fld_lt R.CH_CFG_LAYERS n 0⟩ hl
  unfold State.churnCommit
  dsimp only at hmask ⊢
  rw [hmask, List.foldl_cons, List.foldl_nil, if_pos hcause]

theorem State.fld_count_same (s : State) (d : DieId) (f : Fld) (i n : Nat) (h : f.lo ≤ f.hi ∧ f.hi < 32) :
    (s.count d f i n).fld d f i = (s.fld d f i + n) % 2 ^ (f.hi - f.lo + 1) := s.fld_setFld_same d f _ i 0 h
/-- A refused layer is counted with its cause, and what its channel shows stays (R300, R301). -/
theorem State.layerRefused_counted (s : State) (d : DieId) {n l : Nat} (hn : n < 256) (hl : l < 8) (cause : Nat) :
    let r := s.layerRefused d n l cause
    (r.die d).churn = (s.die d).churn ∧ r.fld d R.CH_REFUSED n = (s.fld d R.CH_REFUSED n + 1) % 2 ^ 32 ∧
      r.fld d R.CH_LCAUSE_CAUSE n (l - 1) = cause % 8 := by
  have hcause : Quiet (fldAddr R.CH_LCAUSE_CAUSE n (l - 1)) := quiet_of_channel (by decide) (by decide) hn (by omega)
  have hcount : Quiet (fldAddr R.CH_REFUSED n 0) := quiet_of_channel (by decide) (by decide) hn (by decide)
  unfold State.layerRefused
  refine ⟨?_, ?_, ?_⟩
  · rw [State.eventCad_die_churn, State.event_die_churn, State.count_die_churn, State.setFld_die_churn]
  · rw [State.eventCad_fld_addr _ _ _ _ _ _ _ _ _ _ _ hcount, State.event_fld_addr _ _ _ _ _ _ _ _ hcount]
    · rw [State.fld_count_same _ _ _ _ _ (by decide), State.fld_setFld_addr _ _ _ _ _ _ _ _ _ _ (by
        simp only [fldAddr, R.CH_LCAUSE_CAUSE, R.CH_REFUSED]; omega)]
      rfl
    all_goals simp only [fldAddr, R.CH_REFUSED, R.CH_EVENTS_REFUSED, R.CH_DIE_EVENTS_REFUSED]
    all_goals omega
  · rw [State.eventCad_fld_addr _ _ _ _ _ _ _ _ _ _ _ hcause, State.event_fld_addr _ _ _ _ _ _ _ _ hcause, State.count_fld_addr,
      State.fld_setFld_same _ _ _ _ _ _ (by decide)]
    all_goals simp only [fldAddr, R.CH_LCAUSE_CAUSE, R.CH_REFUSED, R.CH_EVENTS_REFUSED, R.CH_DIE_EVENTS_REFUSED]
    all_goals omega

/-- What an accepted COMMIT of one layer does on a channel that is not in step. -/
theorem State.writeWords_commitLayer {s : State} {d : DieId} {n : Fin 256} (hs : s.fld d R.MR_EC_INSTEP n = 0) (wr : Writer) (l : Fin 8) :
    s.writeWords d wr [(0xC000C + 256 * n.val, BitVec.ofNat 32 (2 ^ l.val))] =
      (s.upd d fun x => x.rewritten (0xC000C + 256 * n.val)).churnCommit d n (2 ^ l.val)
        ((s.die d).framePlus16 (s.fld d R.EN_TIMING_CADENCE n)) := by
  have hmask : ∀ l : Fin 8, bits (BitVec.ofNat 32 (2 ^ l.val)).toNat 7 0 = 2 ^ l.val := by decide
  have hread := (s.die d).rewritten_reg (0xC000C + 256 * n.val)
  rw [State.writeWords_chCommit, hmask]
  unfold State.commitWrite
  dsimp only
  rw [State.die_upd_same, Die.framePlus16_alike (Die.rewritten_rest _ _) hread, Die.fld_alike hread, if_pos]
  · rfl
  · unfold Die.flag
    rw [Die.fld_alike hread, show (s.die d).fld R.MR_EC_INSTEP n = 0 from hs]
    rfl

/-- COMMIT of a layer that passes (R299): its values wait for the picture, and it shows PENDING. -/
theorem commitLayer_passed {s : State} {d : DieId} {wr : Writer} {n : Fin 256} {l : Fin 8} (hs : s.fld d R.MR_EC_INSTEP n = 0)
    (ha : s.accepts d wr (0xC000C + 256 * n.val) (BitVec.ofNat 32 (2 ^ l.val)) = true) (hl : l.val ≤ s.fld d R.CH_CFG_LAYERS n)
    (hflat : (s.die d).flattened n l = false) (hcause : (s.die d).layerCause d n l = 0) :
    Completes (exec (.commit d wr n (BitVec.ofNat 32 (2 ^ l.val))) s) fun r =>
      ((r.die d).churnOf n).layer l = { ((s.die d).churnOf n).layer l with
        commit := some ⟨(s.die d).layerRegs n l, (s.die d).framePlus16 (s.fld d R.EN_TIMING_CADENCE n)⟩ } ∧
      (r.die d).layerPending n l = true := by
  have hread := (s.die d).rewritten_reg (0xC000C + 256 * n.val)
  have hdie := s.die_upd_same d fun x => x.rewritten (0xC000C + 256 * n.val)
  have hafter : (s.writeWords d wr [(0xC000C + 256 * n.val, BitVec.ofNat 32 (2 ^ l.val))]).die d =
      (((s.die d).rewritten (0xC000C + 256 * n.val)).modLayer n l fun v => { v with
        commit := some ⟨(s.die d).layerRegs n l, (s.die d).framePlus16 (s.fld d R.EN_TIMING_CADENCE n)⟩ }).setPending n l true := by
    rw [State.writeWords_commitLayer hs, State.churnCommit_passed, State.die_upd_same, hdie, Die.layerRegs_alike hread]
    · rw [State.fld, hdie, Die.fld_alike hread]; exact hl
    · rw [hdie, Die.layerCause_alike (Die.rewritten_rest _ _) hread, hcause]
    · rw [hdie, Die.flattened_congr (Die.fld_alike hread _ _ _), hflat]
  refine ⟨_, onDie_command ha, ?_⟩
  dsimp only [State.die_withPending]
  rw [hafter]
  refine ⟨?_, Die.layerPending_setPending _ _ l.isLt true⟩
  rw [Die.churnOf_congr (Die.setPending_churn _ _ _ _), Die.modLayer, Die.churnOf_modChurn, ChurnChan.layer_modLayer,
    Die.churnOf_congr (Die.rewritten_churn _ _)]

/-- COMMIT of a layer that does not pass (R300, R301): it is counted with its cause, and nothing that is composed changes. -/
theorem commitLayer_refused {s : State} {d : DieId} {wr : Writer} {n : Fin 256} {l : Fin 8} (hs : s.fld d R.MR_EC_INSTEP n = 0)
    (ha : s.accepts d wr (0xC000C + 256 * n.val) (BitVec.ofNat 32 (2 ^ l.val)) = true) (hl : l.val ≤ s.fld d R.CH_CFG_LAYERS n)
    (hcause : (s.die d).layerCause d n l ≠ 0) :
    Completes (exec (.commit d wr n (BitVec.ofNat 32 (2 ^ l.val))) s) fun r =>
      (r.die d).churn = (s.die d).churn ∧ r.fld d R.CH_REFUSED n = (s.fld d R.CH_REFUSED n + 1) % 2 ^ 32 ∧
      r.fld d R.CH_LCAUSE_CAUSE n (l.val - 1) = (s.die d).layerCause d n l % 8 := by
  have hread := (s.die d).rewritten_reg (0xC000C + 256 * n.val)
  have hdie := s.die_upd_same d fun x => x.rewritten (0xC000C + 256 * n.val)
  have hsame : ((s.upd d fun x => x.rewritten (0xC000C + 256 * n.val)).die d).layerCause d n l = (s.die d).layerCause d n l := by
    rw [hdie, Die.layerCause_alike (Die.rewritten_rest _ _) hread]
  have hafter : s.writeWords d wr [(0xC000C + 256 * n.val, BitVec.ofNat 32 (2 ^ l.val))] =
      (s.upd d fun x => x.rewritten (0xC000C + 256 * n.val)).layerRefused d n l ((s.die d).layerCause d n l) := by
    rw [State.writeWords_commitLayer hs, State.churnCommit_refused, hsame]
    · rw [State.fld, hdie, Die.fld_alike hread]; exact hl
    · rw [hsame]; exact hcause
  obtain ⟨hchurn, hcount, hshown⟩ := State.layerRefused_counted (s.upd d fun x => x.rewritten (0xC000C + 256 * n.val)) d n.isLt l.isLt
    ((s.die d).layerCause d n l)
  rw [← hafter] at hchurn hcount hshown
  refine ⟨_, onDie_command ha, hchurn.trans ?_, hcount.trans ?_, hshown⟩
  · rw [hdie, Die.rewritten_churn]
  · rw [State.fld, hdie, Die.fld_alike hread]
    rfl

end Sys2Proof.Machine
end

section
/-! Inputs that stay away (R269, R334, R335): a frame store without input, and a member whose first missing line passes its deadline. -/

namespace Sys2Proof.Machine

/-! ### NO_INPUT -/

theorem State.withPending_self {s : State} {l : List Instr} (h : s.pending = l) : ({ s with pending := l } : State) = s := by
  subst h; rfl

/-- A frame store is marked where the plan has it and two frames have gone without input. -/
theorem noInput_marked {s : State} {d : DieId} {m : Fin 1024} (hd : s.has d = true) (hrec : ((s.die d).bodyOf 0xB 0xB03 m).isSome = true)
    (hidle : 2 ≤ ((s.die d).store m).idle) : exec (.noInput d m) s = .next (s.setFld d R.CL_FS_STATE_NO_INPUT 1 m) := by
  have hmark : s.storeNoInput d m = s.setFld d R.CL_FS_STATE_NO_INPUT 1 m := if_pos ⟨hrec, hidle⟩
  refine (onDie_next (s.storeNoInput d m) hd).trans ?_
  rw [hmark]
  exact congrArg Host.Outcome.next (State.withPending_self (s.upd_pending d _))
/-- One that has had input is left alone. -/
theorem noInput_idle {s : State} {d : DieId} {m : Fin 1024} (hd : s.has d = true) (hidle : ((s.die d).store m).idle < 2) :
    exec (.noInput d m) s = .next s := by
  have hkeep : s.storeNoInput d m = s := if_neg fun h => absurd h.2 (by omega)
  refine (onDie_next (s.storeNoInput d m) hd).trans ?_
  rw [hkeep, State.withPending_self rfl]

/-! ### The registers that an underrun is read from -/

/-- The fields of listed registers. -/
def Bits.words (l : List Nat) : Bits := fun _ a _ _ => a ∈ l
theorem Bits.words_quiet {l : List Nat} (h : ∀ a ∈ l, a < 0x1A0000) : (Bits.words l).quiet := fun _ a _ _ p => by
  have := h a p
  unfold Quiet
  omega
theorem Bits.words_spares {l : List Nat} {d : DieId} {f : Fld} {i : Nat} (h : fldAddr f i 0 ∉ l) : (Bits.words l).spares d f i :=
  Bits.spares_of_outside fun _ _ _ p e => h (e ▸ p)

/-! ### Audio that mutes (R448) -/

section Mute

variable {l : List Nat} (hl : ∀ a ∈ l, a < 0x1A0000)
include hl

/-- A register of the block AU is none of them. -/
theorem Bits.words_spares_audio {d : DieId} {f : Fld} {i : Nat} (hf : 0x1B0000 ≤ f.base) : (Bits.words l).spares d f i :=
  Bits.words_spares fun h => by have := hl _ h; unfold fldAddr at this; omega

/-- A member that mutes changes registers of the block AU alone. -/
theorem State.auMute_kept (s : State) (d : DieId) (r : AuRef) : s.Kept (Bits.words l) (s.auMute d r) := by
  have quiet := Bits.words_quiet hl
  have audio {f : Fld} {i : Nat} (hf : 0x1B0000 ≤ f.base) : (Bits.words l).spares d f i := Bits.words_spares_audio hl hf
  have muted (v : AuMember → AuMember) : s.Kept (Bits.words l) (s.upd d fun x =>
      ((x.setBit R.AU_GRP_STATE_BAD r.g r.m true).count R.AU_GRP_UNDERRUNS r.g).modAu r.g r.m v) := .upd fun g i j p =>
    (Die.fld_setFld_spared (audio (by decide)) _ _ g i j p).trans (Die.fld_setFld_spared (audio (by decide)) _ _ g i j p)
  unfold State.auMute
  dsimp only
  split
  · exact .refl s
  · refine .trans ?_ (.eventCad quiet (audio (by decide)) _ _ _ _ _)
    split
    · exact (muted _).trans (.trans (.trans (.setFld (audio (by decide)) _ _) (.setFld (audio (by decide)) _ _))
        (.event quiet (audio (by decide)) _ _))
    · exact muted _
theorem State.auVideoUnderrun_kept (s : State) (d : DieId) (k i : Nat) : s.Kept (Bits.words l) (s.auVideoUnderrun d k i) :=
  .foldl (fun t r _ => t.auMute_kept hl d r) s

end Mute

theorem State.auMute_clk (s : State) (d e : DieId) (r : AuRef) : ((s.auMute d r).die e).clk = (s.die e).clk := by
  unfold State.auMute
  dsimp only
  split
  · rfl
  · rw [State.eventCad_clk]
    split
    · rw [State.event_clk, State.setFld_clk, State.setFld_clk, State.upd_clk _ _ _ (by rw [Die.modAu_clk, Die.count_clk, Die.setBit_clk])]
    · rw [State.upd_clk _ _ _ (by rw [Die.modAu_clk, Die.count_clk, Die.setBit_clk])]
theorem State.auVideoUnderrun_clk (s : State) (d e : DieId) (k i : Nat) : ((s.auVideoUnderrun d k i).die e).clk = (s.die e).clk :=
  foldl_keeps (fun t : State => (t.die e).clk) _ (fun t r => t.auMute_clk d e r) _ s

/-! ### A lane -/

/-- A bit that is put into a field. -/
theorem Die.bit_setBit (x : Die) (f : Fld) (i : Nat) {b : Nat} (hf : f.lo ≤ f.hi ∧ f.hi < 32) (hb : b < f.hi - f.lo + 1) (v : Bool) :
    bit ((x.setBit f i b v).fld f i) b = v := by
  unfold Die.setBit
  rw [Die.fld_setFld_same _ _ _ _ _ hf]
  exact flagAt_replaced (Nat.two_pow_pos b) (by rw [← Nat.pow_succ']; exact Nat.pow_dvd_pow 2 hb) _ v

end Sys2Proof.Machine
end

section
/-! MEMBER_UNDERRUN (R334, R335, R349, R384): what a lane and a receive flow show that underrun. -/

namespace Sys2Proof.Machine

/-! ### A lane -/

section Lane

variable (s : State) (d : DieId) {m : Nat} (hm : m < 512)

/-- The registers that a lane's underrun is read from: its configuration and status, and its group's state and count. -/
def laneWords (m g : Nat) : List Nat := [0x100000 + 512 * m, 0x100008 + 512 * m, 0x141004 + 16 * g, 0x141008 + 16 * g]

theorem Die.setBad_lane_fld (x : Die) (f : Fld) (i : Nat) (hstate : fldAddr f i 0 ≠ 0x141004 + 16 * x.memGroup ⟨false, m⟩)
    (hstatus : fldAddr f i 0 ≠ 0x100008 + 512 * m) : (x.setBad ⟨false, m⟩ true).fld f i = x.fld f i := by
  have hg (g : Fld) (h : g.base = 0x141004 ∧ g.stride = 0x10) : fldAddr f i 0 ≠ fldAddr g (x.memGroup ⟨false, m⟩) 0 := by
    rw [show fldAddr g _ 0 = g.base + _ * g.stride + 0 * g.stride2 from rfl, h.1, h.2]
    omega
  have hl : fldAddr f i 0 ≠ fldAddr R.LN_STATUS_CONCEALING m 0 := by
    simp only [fldAddr, R.LN_STATUS_CONCEALING] at hstatus ⊢
    omega
  exact (Die.fld_setFld_addr _ _ _ _ _ _ _ _ hl).trans ((Die.fld_setFld_addr _ _ _ _ _ _ _ _ (hg _ (by decide))).trans
    (Die.fld_setFld_addr _ _ _ _ _ _ _ _ (hg _ (by decide))))
/-- A lane that is concealed, as the registers of its group and its own say it (R349). -/
theorem Die.setBad_lane (x : Die) :
    let y := x.setBad ⟨false, m⟩ true
    y.memGroup ⟨false, m⟩ = x.memGroup ⟨false, m⟩ ∧ y.memBad ⟨false, m⟩ = true ∧ y.fld R.LN_STATUS_CONCEALING m = 1 := by
  have cfg (f : Fld) (h : f.base = 0x100000 ∧ f.stride = 0x200) : (x.setBad ⟨false, m⟩ true).fld f m = x.fld f m := by
    refine x.setBad_lane_fld f m ?_ ?_
    all_goals rw [show fldAddr f m 0 = f.base + m * f.stride + 0 * f.stride2 from rfl, h.1, h.2]; omega
  have hgroup : (x.setBad ⟨false, m⟩ true).memGroup ⟨false, m⟩ = x.memGroup ⟨false, m⟩ := cfg R.LN_CFG_GROUP (by decide)
  have hindex : (x.setBad ⟨false, m⟩ true).memIndex ⟨false, m⟩ = x.memIndex ⟨false, m⟩ := cfg R.LN_CFG_MEMBER (by decide)
  refine ⟨hgroup, ?_, Die.fld_setFld_same _ _ _ _ _ (by decide)⟩
  have hbad : (x.setBad ⟨false, m⟩ true).fld R.LN_GRP_STATE_BAD (x.memGroup ⟨false, m⟩) =
      (x.setBit R.LN_GRP_STATE_BAD (x.memGroup ⟨false, m⟩) (x.memIndex ⟨false, m⟩) true).fld R.LN_GRP_STATE_BAD (x.memGroup ⟨false, m⟩) :=
    (Die.fld_setFld_addr _ _ _ _ _ _ _ _ (by simp only [fldAddr, R.LN_GRP_STATE_BAD, R.LN_STATUS_CONCEALING]; omega)).trans
      (Die.fld_setFld_apart _ _ _ _ _ _ _ _ (by decide) (by decide) (by decide))
  change bit (Die.fld _ R.LN_GRP_STATE_BAD (Die.memGroup _ ⟨false, m⟩)) (Die.memIndex _ ⟨false, m⟩) = true
  rw [hgroup, hindex, hbad]
  exact x.bit_setBit _ _ (by decide) (x.fld_lt R.LN_CFG_MEMBER m 0) true

/-- The reports of a lane's underrun, and the audio that mutes with it, change none of these registers. -/
theorem State.laneReported_kept {g : Nat} (hm : m < 512) (hg : g < 512) (c : Nat) :
    s.Kept (Bits.words (laneWords m g)) (((s.event d R.LN_EVENTS_UNDERRUN m).eventCad d R.LN_DIE_EVENTS_UNDERRUN 0 m c 0).auVideoUnderrun d 1 m) := by
  have low : ∀ a ∈ laneWords m g, a < 0x1A0000 := by
    simp only [laneWords, List.forall_mem_cons]
    refine ⟨by omega, by omega, by omega, by omega, by simp⟩
  have quiet := Bits.words_quiet low
  refine .trans (.event quiet (Bits.words_spares ?_) _ _) (.trans (.eventCad quiet (Bits.words_spares ?_) _ _ _ _ _) (State.auVideoUnderrun_kept low _ _ _ _))
  · simp only [laneWords, List.mem_cons, List.not_mem_nil, or_false, fldAddr, R.LN_EVENTS_UNDERRUN]
    omega
  · simp only [laneWords, List.mem_cons, List.not_mem_nil, or_false, fldAddr, R.LN_DIE_EVENTS_UNDERRUN]
    omega

theorem Die.memBad_lane_congr {x y : Die} (hg : y.memGroup ⟨false, m⟩ = x.memGroup ⟨false, m⟩) (hi : y.memIndex ⟨false, m⟩ = x.memIndex ⟨false, m⟩)
    (hb : y.fld R.LN_GRP_STATE_BAD (x.memGroup ⟨false, m⟩) = x.fld R.LN_GRP_STATE_BAD (x.memGroup ⟨false, m⟩)) :
    y.memBad ⟨false, m⟩ = x.memBad ⟨false, m⟩ := by
  change bit (y.fld R.LN_GRP_STATE_BAD (y.memGroup _)) (y.memIndex _) = bit (x.fld R.LN_GRP_STATE_BAD (x.memGroup _)) (x.memIndex _)
  rw [hg, hi, hb]

/-- The state in which a lane is concealed and its underrun counted, and not yet reported. -/
def State.laneConcealed (s : State) (d : DieId) (m : Nat) : State :=
  (s.upd d fun x => (x.setBad ⟨false, m⟩ true).modMem ⟨false, m⟩ fun v => { v with good := 0, counted := v.next.getD 0 }).count d
    R.LN_GRP_UNDERRUNS ((s.die d).memGroup ⟨false, m⟩)
theorem State.memUnderrun_lane (s : State) (d : DieId) (m : Nat) : s.memUnderrun d ⟨false, m⟩ =
    (((s.laneConcealed d m).event d R.LN_EVENTS_UNDERRUN m).eventCad d R.LN_DIE_EVENTS_UNDERRUN 0 m ((s.die d).memCad ⟨false, m⟩) 0).auVideoUnderrun
      d 1 m := rfl

theorem State.laneConcealed_fld (f : Fld) (i : Nat) (h : fldAddr f i 0 ≠ fldAddr R.LN_GRP_UNDERRUNS ((s.die d).memGroup ⟨false, m⟩) 0) :
    (s.laneConcealed d m).fld d f i = ((s.die d).setBad ⟨false, m⟩ true).fld f i := by
  refine (State.count_fld_addr _ _ _ _ _ _ _ _ h).trans ?_
  rw [State.fld, State.die_upd_same]
  rfl
include hm in
theorem State.laneConcealed_shows :
    let t := s.laneConcealed d m
    let g := (s.die d).memGroup ⟨false, m⟩
    (t.die d).memGroup ⟨false, m⟩ = g ∧ (t.die d).memBad ⟨false, m⟩ = true ∧ t.fld d R.LN_STATUS_CONCEALING m = 1 ∧
      t.fld d R.LN_GRP_UNDERRUNS g = (s.fld d R.LN_GRP_UNDERRUNS g + 1) % 2 ^ 32 := by
  obtain ⟨hgroup, hbad, hshown⟩ := (s.die d).setBad_lane (m := m)
  have cfg (f : Fld) (h : f.base = 0x100000 ∧ f.stride = 0x200) := s.laneConcealed_fld d f m (m := m) (by
    rw [show fldAddr f m 0 = f.base + m * f.stride + 0 * f.stride2 from rfl, h.1, h.2]
    simp only [fldAddr, R.LN_GRP_UNDERRUNS]
    omega)
  have group : ((s.laneConcealed d m).die d).memGroup ⟨false, m⟩ = ((s.die d).setBad ⟨false, m⟩ true).memGroup ⟨false, m⟩ :=
    cfg R.LN_CFG_GROUP (by decide)
  refine ⟨group.trans hgroup, (Die.memBad_lane_congr group (cfg R.LN_CFG_MEMBER (by decide)) ?_).trans hbad, ?_, ?_⟩
  · exact s.laneConcealed_fld d R.LN_GRP_STATE_BAD _ (by simp only [fldAddr, R.LN_GRP_STATE_BAD, R.LN_GRP_UNDERRUNS]; omega)
  · exact (s.laneConcealed_fld d R.LN_STATUS_CONCEALING m (by
      simp only [fldAddr, R.LN_STATUS_CONCEALING, R.LN_GRP_UNDERRUNS]; omega)).trans hshown
  · have before : (s.upd d fun x => (x.setBad ⟨false, m⟩ true).modMem ⟨false, m⟩ fun v => { v with good := 0, counted := v.next.getD 0 }).fld d
        R.LN_GRP_UNDERRUNS ((s.die d).memGroup ⟨false, m⟩) = s.fld d R.LN_GRP_UNDERRUNS ((s.die d).memGroup ⟨false, m⟩) := by
      rw [State.fld, State.die_upd_same]
      refine (s.die d).setBad_lane_fld _ _ ?_ ?_
      all_goals simp only [fldAddr, R.LN_GRP_UNDERRUNS]; omega
    refine (State.fld_count_same _ _ _ _ _ (by decide)).trans ?_
    rw [before]
    rfl
theorem State.laneConcealed_clk : ((s.laneConcealed d m).die d).clk = (s.die d).clk := by
  unfold State.laneConcealed
  rw [State.count_clk]
  exact s.upd_clk d d rfl

include hm in
/-- A lane underruns (R335, R349): it is concealed, shows it, and its group counts it. -/
theorem State.memUnderrun_lane_shows :
    let r := s.memUnderrun d ⟨false, m⟩
    let g := (s.die d).memGroup ⟨false, m⟩
    (r.die d).clk = (s.die d).clk ∧ (r.die d).memBad ⟨false, m⟩ = true ∧ r.fld d R.LN_STATUS_CONCEALING m = 1 ∧
      r.fld d R.LN_GRP_UNDERRUNS g = (s.fld d R.LN_GRP_UNDERRUNS g + 1) % 2 ^ 32 := by
  obtain ⟨hgroup, hbad, hshown, hcount⟩ := s.laneConcealed_shows d hm
  have fits : (s.die d).memGroup ⟨false, m⟩ < 512 := (s.die d).fld_lt R.LN_CFG_GROUP m 0
  have kept := (s.laneConcealed d m).laneReported_kept d hm fits ((s.die d).memCad ⟨false, m⟩)
  rw [← State.memUnderrun_lane] at kept
  have same (f : Fld) (i : Nat) (h : fldAddr f i 0 ∈ laneWords m ((s.die d).memGroup ⟨false, m⟩)) := kept.fld d f i 0 h
  refine ⟨?_, (Die.memBad_lane_congr (same R.LN_CFG_GROUP m ?_) (same R.LN_CFG_MEMBER m ?_) (same R.LN_GRP_STATE_BAD _ ?_)).trans hbad,
    (same R.LN_STATUS_CONCEALING m ?_).trans hshown, (same R.LN_GRP_UNDERRUNS _ ?_).trans hcount⟩
  · rw [State.memUnderrun_lane, State.auVideoUnderrun_clk, State.eventCad_clk, State.event_clk, State.laneConcealed_clk]
  all_goals
    simp only [hgroup, laneWords, List.mem_cons, fldAddr, R.LN_CFG_GROUP, R.LN_CFG_MEMBER, R.LN_STATUS_CONCEALING, R.LN_GRP_STATE_BAD,
      R.LN_GRP_UNDERRUNS]
    omega

end Lane
end Sys2Proof.Machine
end

section
/-! A receive flow that underruns, and the deadline of a member's first missing line (R334, R335, R384). -/

namespace Sys2Proof.Machine

/-! ### A receive flow -/

section Flow

variable {m : Nat} (hm : m < 1024)
include hm

theorem MemRef.flow_xs : (⟨true, m⟩ : MemRef).xs = false := by simp [MemRef.xs, hm.ne]
theorem Die.memBad_flow (x : Die) : x.memBad ⟨true, m⟩ = x.flag R.NW_RX_STATE_BAD m := by
  unfold Die.memBad
  rw [if_neg (by simp [MemRef.flow_xs hm]), if_pos rfl]
theorem Die.setBad_flow (x : Die) : x.setBad ⟨true, m⟩ true = (x.setFld R.NW_RX_STATE_BAD 1 m).setFld R.NW_RX_STATE_ONE_GOOD 0 m := by
  unfold Die.setBad
  rw [if_neg (by simp [MemRef.flow_xs hm]), if_pos rfl]
  rfl
theorem State.memUnderrun_flow (s : State) (d : DieId) : s.memUnderrun d ⟨true, m⟩ =
    ((s.upd d fun x => (x.setBad ⟨true, m⟩ true).modMem ⟨true, m⟩ fun v => { v with good := 0, counted := v.next.getD 0 }).event d
      R.NW_RX_EVENTS_UNDERRUN m).eventCad d R.NW_EVENTS_UNDERRUN 0 m ((s.die d).memCad ⟨true, m⟩) 0 := by
  unfold State.memUnderrun
  dsimp only
  rw [if_pos rfl, if_neg (by simp [MemRef.flow_xs hm]), if_pos rfl]

/-- A receive flow underruns (R335, R384): it is concealed, and its event is set. -/
theorem State.memUnderrun_flow_shows (s : State) (d : DieId) :
    let r := s.memUnderrun d ⟨true, m⟩
    (r.die d).clk = (s.die d).clk ∧ (r.die d).memBad ⟨true, m⟩ = true ∧ r.fld d R.NW_RX_EVENTS_UNDERRUN m = 1 := by
  have hbad : Quiet (fldAddr R.NW_RX_STATE_BAD m 0) := by simp only [Quiet, fldAddr, R.NW_RX_STATE_BAD]; omega
  have hevent : Quiet (fldAddr R.NW_RX_EVENTS_UNDERRUN m 0) := by simp only [Quiet, fldAddr, R.NW_RX_EVENTS_UNDERRUN]; omega
  have shown : (s.memUnderrun d ⟨true, m⟩).fld d R.NW_RX_STATE_BAD m = 1 := by
    rw [State.memUnderrun_flow hm, State.eventCad_fld_addr _ _ _ _ _ _ _ _ _ _ _ hbad, State.event_fld_addr _ _ _ _ _ _ _ _ hbad, State.fld,
      State.die_upd_same, Die.setBad_flow hm]
    · exact (Die.fld_setFld_apart _ _ _ _ _ _ _ _ (by decide) (by decide) (by decide)).trans (Die.fld_setFld_same _ _ _ _ _ (by decide))
    all_goals simp only [fldAddr, R.NW_RX_STATE_BAD, R.NW_RX_EVENTS_UNDERRUN, R.NW_EVENTS_UNDERRUN]; omega
  refine ⟨?_, ?_, ?_⟩
  · rw [State.memUnderrun_flow hm, State.eventCad_clk, State.event_clk]
    exact s.upd_clk d d (by rw [Die.setBad_flow hm]; rfl)
  · rw [Die.memBad_flow hm]
    exact beq_iff_eq.mpr shown
  · rw [State.memUnderrun_flow hm, State.eventCad_fld_addr _ _ _ _ _ _ _ _ _ _ _ hevent, State.event_fld_same _ _ _ _ _ (by decide) hevent]
    simp only [fldAddr, R.NW_RX_EVENTS_UNDERRUN, R.NW_EVENTS_UNDERRUN]
    omega

end Flow

/-! ### The deadline -/

/-- A member that is not concealed underruns when the deadline of its first missing line has come (R334). -/
theorem State.memberUnderrun_due {s : State} {d : DieId} {r : MemRef} {t : Nat} (ht : (s.die d).memDue r = some t)
    (hb : (s.die d).memBad r = false) : s.memberUnderrun d r = (s.advanceStation d t).memUnderrun d r := by
  unfold State.memberUnderrun
  rw [ht]
  dsimp only
  rw [if_neg (by simp [hb])]

theorem memberUnderrun_lane {s : State} {d : DieId} {m : Fin 1024} (hd : s.has d = true) (hm : m.val < 512)
    (hb : (s.die d).memBad ⟨false, m⟩ = false) {t : Nat} (ht : (s.die d).memDue ⟨false, m⟩ = some t) :
    Completes (exec (.memberUnderrun d false m.castSucc) s) fun r =>
      (r.die d).clk.now = max (s.die d).clk.now t ∧ (r.die d).memBad ⟨false, m⟩ = true ∧ r.fld d R.LN_STATUS_CONCEALING m = 1 ∧
      r.fld d R.LN_GRP_UNDERRUNS ((s.die d).memGroup ⟨false, m⟩) = (s.fld d R.LN_GRP_UNDERRUNS ((s.die d).memGroup ⟨false, m⟩) + 1) % 2 ^ 32 := by
  obtain ⟨hclk, hbad, hshown, hcount⟩ := (s.advanceStation d t).memUnderrun_lane_shows d hm
  have hgroup : ((s.advanceStation d t).die d).memGroup ⟨false, m⟩ = (s.die d).memGroup ⟨false, m⟩ := s.advanceStation_fld d d t R.LN_CFG_GROUP m 0
  rw [hgroup, State.advanceStation_fld] at hcount
  rw [← State.memberUnderrun_due ht hb] at hclk hbad hshown hcount
  exact completes_onDie hd ⟨(congrArg Clock.now hclk).trans (s.advanceStation_now d t), hbad, hshown, hcount⟩

theorem memberUnderrun_flow {s : State} {d : DieId} {m : Fin 1024} (hd : s.has d = true) (hb : (s.die d).memBad ⟨true, m⟩ = false) {t : Nat}
    (ht : (s.die d).memDue ⟨true, m⟩ = some t) :
    Completes (exec (.memberUnderrun d true m.castSucc) s) fun r =>
      (r.die d).clk.now = max (s.die d).clk.now t ∧ (r.die d).memBad ⟨true, m⟩ = true ∧ r.fld d R.NW_RX_EVENTS_UNDERRUN m = 1 := by
  obtain ⟨hclk, hbad, hevent⟩ := State.memUnderrun_flow_shows m.isLt (s.advanceStation d t) d
  rw [← State.memberUnderrun_due ht hb] at hclk hbad hevent
  exact completes_onDie hd ⟨(congrArg Clock.now hclk).trans (s.advanceStation_now d t), hbad, hevent⟩

end Sys2Proof.Machine

namespace Sys2Proof
open Sys2Proof.Machine

/-- Settles O36: each command is one function of the model on the channel, the frame store or the member that it names. -/
theorem churnAndInputs : Obligations.ChurnAndInputs := by
  intro s d wr n l m hd x u cad v
  refine ⟨fun hs ha hl hflat => ⟨fun hcause => commitLayer_passed hs ha hl hflat hcause, fun _ hcause => commitLayer_refused hs ha hl hcause⟩,
    fun g hg => ⟨fun k hk hdue hflat => completes_onDie hd (State.commitApply_applied n.isLt hg hdue hflat hk),
      fun e he hdone hlater => completes_onDie hd (State.recomputeDone_waits n.isLt hg he hdone hlater)⟩,
    fun hrec hidle => noInput_marked hd hrec hidle, fun hidle => noInput_idle hd hidle,
    fun hm hb t ht => memberUnderrun_lane hd hm hb ht, fun hb t ht => memberUnderrun_flow hd hb ht⟩

end Sys2Proof
end

section
/-! A lane under online BIST whose receiver a host wakes. The host's write is itself a service request that aborts the slice (R591), and
it does so before the wake is timed, so that the 10 µs of R330 are not in the wake; O37 has them whenever a slice is on the lane as the
write comes. -/

namespace Sys2Proof.Machine

/-- Die 0 up, and lane 7 used as a receiver that is Off and under online BIST. -/
def testedLane : State := State.reset.upd 0 fun x =>
  { x.setFld R.LN_CFG_RX_USED 1 7 with pw := { x.pw with phase := .ready }, st := { x.st with slices := [(⟨.lane, 7, 0⟩, 0)] } }

/-- LN_PWR with the receiver On and the transmitter Off. -/
def receiverOn : W32 := 2

theorem receiverOn_accepted : testedLane.accepts 0 .host (0x100004 + 512 * 7) receiverOn = true := by decide +kernel

/-- The state after the write. -/
def wokenLane : State := { testedLane.command 0 .host (0x100004 + 512 * 7) receiverOn with pending := testedLane.pending }

theorem exec_receiverOn : exec (.lnPwrWrite 0 .host 7 receiverOn) testedLane = .next wokenLane := onDie_next _ (has_zero _)

/-- The receiver is Off and is to be On; the slice is on the lane before the write; the wake takes 200 µs and no more. -/
theorem wokenLane_wake : testedLane.fld 0 R.LN_STATUS_RX_NOW 7 = 0 ∧ bits receiverOn.toNat 1 0 = 2 ∧ (testedLane.die 0).laneBist 7 = true ∧
    testedLane.now = 0 ∧ ((wokenLane.die 0).lane 7).wakeOf false = some (2, 200 * usec) := by decide +kernel

end Sys2Proof.Machine

namespace Sys2Proof
open Sys2Proof.Machine

/-- Refutes O37: a host's LN_PWR write that wakes a receiver from Off aborts the slice on its lane first, and the wake lacks the 10 µs of
an abort. -/
theorem not_laneLockAndPower : ¬ Obligations.LaneLockAndPower := by
  intro h
  obtain ⟨-, -, -, -, -, -, -, hpower, -⟩ := h testedLane 0 .host 7 0 [] false false false 0 receiverOn (has_zero _)
  obtain ⟨r, hr, hwake⟩ := hpower receiverOn_accepted
  obtain rfl := Host.Outcome.next.inj (exec_receiverOn.symm.trans hr)
  obtain ⟨hoff, hon, hbist, hnow, htimed⟩ := wokenLane_wake
  have hrises : ¬bits receiverOn.toNat 1 0 ≤ testedLane.fld 0 R.LN_STATUS_RX_NOW 7 := by rw [hon, hoff]; decide
  obtain ⟨-, -, hlate⟩ := (if_neg hrises).mp (hwake false (by decide))
  have hexpected : some (2, 200 * usec) = some (bits receiverOn.toNat 1 0, testedLane.now +
      (if testedLane.fld 0 R.LN_STATUS_RX_NOW 7 = 1 then 2 else 200) * usec + if (testedLane.die 0).laneBist 7 then 10 * usec else 0) :=
    htimed.symm.trans hlate
  rw [hon, hnow, hoff, hbist] at hexpected
  exact absurd hexpected (by decide)

end Sys2Proof
end

section
/-! A line of SDI with a wrong CRC that a frame store takes. INDEX of a FRAME_STORE record is 0 to 1,023 (R84), and admission refuses
another; the statement asks nothing of the records in force. With INDEX 23,554 the registers of the frame store stand at the addresses of
lane 0's counters: its CL_FS_STATE, at 0xA4004 + 16 x 23,554 = 0x100024, is LN_CRC_ERR. -/

namespace Sys2Proof.Machine

/-- A section with one FRAME_STORE record, of INDEX 0x5C02 with lane 0 as its input. -/
def strayStore : Sect := ⟨1, 0xB, 1, false, 1, [3, 0xB, 24, 0, 2, 0x5C, 0, 0] ++ List.replicate 16 0⟩

/-- Die 0 with that record in force; lane 0 receives SDI on cadence 0, at 60 frames of 1,125 lines a second, and has counted 7 lines with a
wrong CRC. -/
def strayInput : State := State.reset.upd 0 fun x =>
  let x := { x with live := [strayStore] }
  let x := (x.setFld R.TB_CAD_CFG_RATE 10).setFld R.TB_CAD_CFG_LINES 1125
  ((x.setFld R.LN_STATUS_RX_NOW 2).setFld R.LN_STATUS_LOCK 1).setFld R.LN_CRC_ERR 7

/-- Line 0 of the epoch, with a wrong CRC. -/
def wrongLine : SdiLine := { line := 0, crc := false }

/-- The state after the line. -/
def strayed : State := { (strayInput.advance 0).sdiLine 0 0 wrongLine with pending := strayInput.pending }

theorem exec_wrongLine : exec (.sdiLine 0 0 0 wrongLine) strayInput = .next strayed := onDie_next _ (has_zero _)

/-- The receiver takes the line; the frame store puts the slot that it starts into bits 3:2 of the counter, which reads 4 and not 8. -/
theorem strayed_counts : (strayInput.die 0).lnNative 0 = false ∧ (strayInput.die 0).sourceUp 0 = true ∧
    (strayInput.die 0).fld R.LN_CRC_ERR 0 = 7 ∧ strayed.fld 0 R.LN_CRC_ERR 0 = 4 := by decide +kernel

end Sys2Proof.Machine

namespace Sys2Proof
open Sys2Proof.Machine

/-- Refutes O38: where a FRAME_STORE record of an INDEX beyond R84's range is in force, a line with a wrong CRC that is delivered leaves
LN_CRC_ERR at another value than the next. -/
theorem not_laneTraffic : ¬ Obligations.LaneTraffic := by
  intro h
  obtain ⟨hmode, hup, hbefore, hafter⟩ := strayed_counts
  obtain ⟨-, -, htaken, -⟩ := h strayInput 0 0 0 wrongLine [] [] 0 0 (has_zero _)
  obtain ⟨r, hr, -, -, -, -, hcrc, -⟩ := htaken (by simp [hmode, hup]) rfl
  obtain rfl := Host.Outcome.next.inj (exec_wrongLine.symm.trans hr)
  have hcount : strayed.fld 0 R.LN_CRC_ERR 0 = ((strayInput.die 0).fld R.LN_CRC_ERR 0 + 1) % 2 ^ 32 := hcrc rfl
  rw [hafter, hbefore] at hcount
  exact absurd hcount (by decide)

end Sys2Proof
end

section
/-! A packet of a receive flow that finds its path down, while the herdbook is full. A die has receive flows 0 to 1,023 (R359, R384), and
admission refuses an RX_FLOW record of another INDEX; the statement asks nothing of the records in force. With INDEX 22,017 the registers
of the flow stand at the addresses of the herdbook's: its NW_RX_STATE, at 0x184004 + 32 x 22,017 = 0x230024, is HB_LOST, and PATH0_DOWN is
bit 3 of that counter. The path's return clears the bit, and the record of PATH_UP, which is lost, counts it up again. -/

namespace Sys2Proof.Machine

/-- From 10.0.0.1 to 10.0.0.2. -/
def strayAddresses : IpSend := ⟨mapped [10, 0, 0, 1], mapped [10, 0, 0, 2], 0, 64, 0⟩

/-- An RTP packet in a frame for 10.0.0.2, port 6. -/
def strayPacket : List Byte :=
  ethHead [2, 0, 0, 0, 0, 2] [2, 0, 0, 0, 0, 1] 0 0 0x0800 ++
    ipPacket strayAddresses 17 [] (udpSegment strayAddresses 5 6 true ([0x80, 96] ++ pad 18))

/-- A SUBPORT record of sub-port 0 that takes untagged frames, and an RX_FLOW record of INDEX 0x5601 whose one path is that packet's. -/
def strayFlow : Sect := ⟨1, 6, 1, false, 1,
  [1, 6, 36, 0, 0, 0, 0, 0] ++ pad 7 ++ [1] ++ pad 20 ++
    ([2, 6, 72, 0, 0x01, 0x56, 0, 0] ++ [0, 1] ++ pad 22 ++ [0, 0, 0, 0, 6, 0, 0, 0] ++ mapped [10, 0, 0, 2] ++ pad 16)⟩

/-- Die 0 with those records in force and the link of sub-port 0 up; seven records wait for the flash, and HB_LOST is 15. -/
def strayNetwork : State :=
  { State.reset with
    die0 := (({ State.reset.die0 with live := [strayFlow] } : Die).setFld R.NW_SP_STATUS_LINK 1).setFld R.HB_LOST 15
    pkg := { State.reset.pkg with hb := { State.reset.pkg.hb with pend := List.replicate 7 {} } } }

/-- The state after the packet. -/
def strayReceived : State := { (strayNetwork.advance 0).rxFrame 0 0 strayPacket true 0 0 with pending := strayNetwork.pending }

theorem exec_strayPacket : exec (.rxFrame 0 0 0 strayPacket true 0 0 0) strayNetwork = .next strayReceived := by
  refine (onDie_next _ (has_zero _)).trans ?_
  rw [if_neg (by decide +kernel)]
  rfl

/-- The sub-port has its link, takes the frame itself and no PTP, and its flow has no policer, no perturbation and no MPEG-2 TS. -/
theorem strayNetwork_takes : strayNetwork.fld 0 R.NW_SP_STATUS_LINK 0 = 1 ∧ (strayNetwork.die 0).forwardOf 0 (ethOf strayPacket) = none ∧
    (strayNetwork.die 0).spVlan 0 (ethOf strayPacket).vlan = true ∧ strayNetwork.fld 0 R.NW_SP_CFG_PTP 0 = 0 ∧
    (strayNetwork.die 0).policersOf 0 22017 = [] ∧ (strayNetwork.die 0).pertOn 1 22017 1 = false ∧
    strayNetwork.fld 0 R.NW_RX_CFG_KIND 22017 ≠ 5 := by decide +kernel

/-- The datagram of the frame. -/
def strayDatagram : Udp := ⟨strayAddresses.src, strayAddresses.dst, 5, 6, false, 34, [0x80, 96] ++ pad 18⟩

/-- The frame has a good length and type, and its datagram is an RTP packet of the flow's first path. -/
theorem strayPacket_read : (60 ≤ strayPacket.length ∧ strayPacket.length ≤ 9212 ∧ (ethOf strayPacket).etype ≠ 0x8808) ∧
    udpOf strayPacket (ethOf strayPacket) = some strayDatagram ∧
    (strayNetwork.die 0).rxMatch 0 (ethOf strayPacket) strayDatagram = some (22017, 0) ∧ be strayDatagram.payload 0 1 / 64 = 2 := by
  decide +kernel

/-- HB_LOST goes from 15 to 7, and to 8: the path reads as down. -/
theorem strayReceived_down : strayReceived.fld 0 R.NW_RX_STATE_PATH0_DOWN 22017 = 1 := by decide +kernel

end Sys2Proof.Machine

namespace Sys2Proof
open Sys2Proof.Machine

/-- Refutes O39: where an RX_FLOW record of an INDEX that no receive flow has is in force, a packet on a path that was down can leave the path
down. -/
theorem not_networkInputs : ¬ Obligations.NetworkInputs := by
  intro h
  obtain ⟨hlink, hforward, hvlan, hptp, hpolicers, hpert, hkind⟩ := strayNetwork_takes
  obtain ⟨⟨hshort, hlong, htype⟩, hudp, hmatch, hversion⟩ := strayPacket_read
  obtain ⟨-, -, hup⟩ := h strayNetwork 0 0 0 0 strayPacket false (has_zero _)
  obtain ⟨-, -, htaken⟩ := hup hlink hforward
  obtain ⟨-, hflow⟩ := htaken hshort hlong htype hvlan
  obtain ⟨-, hdelivered⟩ := hflow strayDatagram hudp hptp (22017, 0) hmatch
  obtain ⟨r, hr, hpath, -⟩ := hdelivered rfl hpolicers hpert hkind (by decide) hversion
  obtain rfl := Host.Outcome.next.inj (exec_strayPacket.symm.trans hr)
  have hclear : strayReceived.fld 0 R.NW_RX_STATE_PATH0_DOWN 22017 = 0 := hpath
  rw [strayReceived_down] at hclear
  exact absurd hclear (by decide)

end Sys2Proof
end

section
/-! What posts, records and a frame of a control thread leave of the network block (R357, R416), and the paths of receive flows and the
reports of group membership (R358, R366, R384). -/

namespace Sys2Proof.Machine

/-! ### The network block -/

theorem Die.Posted.nw {x y : Die} (h : x.Posted y) : y.nw = x.nw := by rw [h.rest]
@[simp] theorem State.setFld_die_nw (s : State) (d : DieId) (f : Fld) (v i j : Nat) : ((s.setFld d f v i j).die d).nw = (s.die d).nw := by
  unfold State.setFld; rw [State.die_upd_same]; rfl
@[simp] theorem State.count_die_nw (s : State) (d : DieId) (f : Fld) (i n : Nat) : ((s.count d f i n).die d).nw = (s.die d).nw :=
  s.setFld_die_nw d f _ i 0
@[simp] theorem State.eventRec_die_nw (s : State) (d : DieId) (f : Fld) (i n v : Nat) (p : Bool) :
    ((s.eventRec d f i n v p).die d).nw = (s.die d).nw := (s.eventRec_posted d f i n v p).nw

/-- A frame of a control thread leaves the sub-ports as they are, and takes no time. -/
@[simp] theorem State.ctrlSend_die_nw (s : State) (d : DieId) (sp : Nat) (b : List Byte) : ((s.ctrlSend d sp b).die d).nw = (s.die d).nw := by
  unfold State.ctrlSend
  split
  · rw [State.send_die, State.count_die_nw]
  · exact s.count_die_nw d _ sp 1
@[simp] theorem State.ctrlSend_now (s : State) (d : DieId) (sp : Nat) (b : List Byte) : (s.ctrlSend d sp b).now = s.now := by
  unfold State.ctrlSend
  split <;> exact s.upd_now d _
/-- It leaves at once where the link is up. -/
theorem State.ctrlSend_up {s : State} {d : DieId} {sp : Nat} (h : s.fld d R.NW_SP_STATUS_LINK sp = 1) (b : List Byte) :
    s.ctrlSend d sp b = (s.count d R.NW_SP_TX_FRAMES sp).send (.frame d sp (ethPad b) false) := if_pos h

/-! ### PATH_DOWN (R366, R384) -/

/-- PATH_DOWN of a two-path flow whose path is up: the path reads as down in `down`, and both events are set. -/
theorem State.pathDown_shows {s : State} {d : DieId} {f p : Nat} (hf : f < 1024) (htwo : (s.die d).flag R.NW_RX_CFG_TWO_PATHS f = true) {down : Fld}
    (hdown : down = if p = 0 then R.NW_RX_STATE_PATH0_DOWN else R.NW_RX_STATE_PATH1_DOWN) (hup : s.fld d down f = 0) :
    let r := s.pathDown d f p
    r.now = max s.now ((if p = 0 then ((s.die d).rx f).pathAt.1 else ((s.die d).rx f).pathAt.2) + 100 * msec) ∧
      r.fld d down f = 1 ∧ r.fld d R.NW_RX_EVENTS_PATH_DOWN f = 1 ∧ r.fld d R.NW_EVENTS_PATH_DOWN = 1 := by
  have hstate : fldAddr down f 0 = 0x184004 + f * 0x20 := by rw [hdown]; split <;> rfl
  have hbit : down.lo = down.hi ∧ down.hi < 32 := by rw [hdown]; split <;> decide
  have hevents : fldAddr R.NW_RX_EVENTS_PATH_DOWN f 0 = 0x184008 + f * 0x20 := rfl
  have hdie : fldAddr R.NW_EVENTS_PATH_DOWN 0 0 = 0x180004 := rfl
  unfold State.pathDown
  dsimp only
  rw [← hdown, if_pos ⟨htwo, hup⟩]
  have kept (g : Fld) (i : Nat) (q : Quiet (fldAddr g i 0)) (c : Nat) (u : State) (h : fldAddr g i 0 ≠ 0x180004) :
      (u.eventCad d R.NW_EVENTS_PATH_DOWN 0 f c p).fld d g i = u.fld d g i := State.eventCad_fld_addr _ _ _ _ _ _ _ _ _ _ _ q h
  refine ⟨?_, ?_, ?_, (State.hbCad_fld _ _ _ _ _ _ _ _ _ _ (by decide)).trans (State.event_fld_same _ _ _ _ _ (by decide) (by decide))⟩
  · exact (State.eventCad_sup _ _ _ _ _ _ _ _).trans ((congrArg Pkg.sup (State.event_pkg _ _ _ _ _)).trans
      ((State.setFld_now _ _ _ _ _ _).trans (s.advanceTo_now _)))
  · rw [kept _ _ (by unfold Quiet; omega) _ _ (by omega), State.event_fld_addr _ _ _ _ _ _ _ _ (by unfold Quiet; omega) (by omega),
      State.fld_setFld_same _ _ _ _ _ _ ⟨hbit.1.le, hbit.2⟩, hbit.1, Nat.sub_self]
    rfl
  · rw [kept _ _ (by unfold Quiet; omega) _ _ (by omega), State.event_fld_same _ _ _ _ _ (by decide) (by unfold Quiet; omega)]

/-! ### MEMBERSHIP_REPORT (R358) -/

/-- A report leaves the sub-ports as they are, and takes no time. -/
@[simp] theorem State.sendReport_die_nw (s : State) (d : DieId) (sp : Nat) (recs : List (Nat × List Byte × List Byte)) :
    ((s.sendReport d sp recs).die d).nw = (s.die d).nw := by
  unfold State.sendReport
  dsimp only
  split <;> split <;> simp only [State.ctrlSend_die_nw]
@[simp] theorem State.sendReport_now (s : State) (d : DieId) (sp : Nat) (recs : List (Nat × List Byte × List Byte)) :
    (s.sendReport d sp recs).now = s.now := by
  unfold State.sendReport
  dsimp only
  split <;> split <;> simp only [State.ctrlSend_now]

/-- The only report of a sub-port leaves at its time, and none is left. -/
theorem State.reportDue_only {s : State} {d : DieId} {sp : Nat} {m : McReport} (h : ((s.die d).port sp).reports = [m]) (dt : Nat) :
    let r := s.reportDue d sp dt
    ((r.die d).port sp).reports = [] ∧ r.now = max s.now (if m.query then min (s.now + dt) m.due else m.due) := by
  have hport (t : Nat) : ((s.advanceTo t).die d).port sp = (s.die d).port sp := by
    unfold State.advanceTo Die.port
    rw [State.advance_die_nw]
  unfold State.reportDue
  rw [h]
  dsimp only [List.foldl]
  refine ⟨?_, (State.sendReport_now _ _ _ _).trans ((State.upd_now _ _ _).trans (s.advanceTo_now _))⟩
  rw [Die.port, State.sendReport_die_nw, State.die_upd_same, ← Die.port, Die.port_modPort_same, hport, h]
  simp

end Sys2Proof.Machine
end

section
/-! The PTP engine: the selection of a master, the loss of the selected one, and DELAY_REQ (R48, R375, R377). -/

namespace Sys2Proof.Machine

/-! ### The selected master (R377) -/

/-- A field of another register, or above bit 0, leaves MASTER of NW_PTP_STATUS. -/
theorem State.setFld_ptpMaster (s : State) (d : DieId) {f : Fld} (h : fldAddr f 0 0 ≠ 0x180104 ∨ ((f.lo ≤ f.hi ∧ f.hi < 32) ∧ 0 < f.lo)) (n : Nat) :
    (s.setFld d f n).fld d R.NW_PTP_STATUS_MASTER = s.fld d R.NW_PTP_STATUS_MASTER := by
  rcases h with h | ⟨hf, hlo⟩
  · exact State.fld_setFld_addr _ _ _ _ _ _ _ _ _ _ h.symm
  · rw [State.fld, State.setFld, State.die_upd_same]
    exact Die.fld_setFld_apart _ _ _ _ _ _ _ _ hf (by decide) (.inr hlo)

/-- The selection of a master leaves the masters heard, and shows whether one is selected. -/
theorem State.ptpSelect_shows (s : State) (d : DieId) (v : Option PtpMaster) :
    let r := s.ptpSelect d v
    r.now = s.now ∧ (r.die d).nw.ptp.foreign = (s.die d).nw.ptp.foreign ∧ (r.die d).nw.ptp.sel = v.map PtpMaster.port ∧
      r.fld d R.NW_PTP_STATUS_MASTER = b2n v.isSome := by
  unfold State.ptpSelect
  extract_lets x gm was p0 s1 s2 b s3 s4 r
  have hptp : (s1.die d).nw.ptp.foreign = (s.die d).nw.ptp.foreign ∧ (s1.die d).nw.ptp.sel = v.map PtpMaster.port := by
    rw [show s1 = s.upd d _ from rfl, State.die_upd_same]
    exact ⟨rfl, rfl⟩
  have hselected : s2.now = s.now ∧ (s2.die d).nw = (s1.die d).nw := by
    unfold s2
    split
    · exact ⟨s.upd_now d _, rfl⟩
    · rw [State.die_upd_same]
      exact ⟨(s1.upd_now d _).trans (s.upd_now d _), rfl⟩
  have hnow : s4.now = s.now := by simp only [s4, s3, State.setFld_now, hselected]
  have hnw : (s4.die d).nw = (s1.die d).nw := by simp only [s4, s3, State.setFld_die_nw, hselected]
  have hmaster : s4.fld d R.NW_PTP_STATUS_MASTER = b2n v.isSome := by
    unfold s4 s3
    rw [State.setFld_ptpMaster _ _ (by decide), State.setFld_ptpMaster _ _ (by decide), State.setFld_ptpMaster _ _ (by decide),
      State.setFld_ptpMaster _ _ (by decide), State.fld_setFld_same _ _ _ _ _ _ (by decide)]
    cases v <;> rfl
  rw [← hnw] at hptp
  by_cases hchange : v.isSome ∧ gm v ≠ gm was
  · rw [show r = s4.eventRec d R.NW_EVENTS_GM_CHANGE 0 _ 0 from if_pos hchange, State.eventRec_now, State.eventRec_die_nw]
    exact ⟨hnow, hptp.1, hptp.2, (State.eventCad_fld_addr _ _ _ _ _ _ _ _ _ _ _ (by decide) (by decide)).trans hmaster⟩
  · rw [show r = s4 from if_neg hchange]
    exact ⟨hnow, hptp.1, hptp.2, hmaster⟩

/-! ### ANNOUNCE_TIMEOUT (R48, R377) -/

/-- A servo that enters a state leaves the network block and every register of it. -/
theorem State.enter_die_nw (s : State) (d : DieId) (b : Bool) (st : ServoState) : ((s.enter d b st).die d).nw = (s.die d).nw := by
  unfold State.enter
  dsimp only
  split
  · rfl
  · split <;> simp only [State.eventRec_die_nw, State.die_upd_same] <;> rfl
/-- So does one that loses its reference. -/
theorem State.servoLoss_shows (s : State) (d : DieId) (b : Bool) :
    let r := s.servoLoss d b
    r.now = s.now ∧ (r.die d).nw = (s.die d).nw ∧ r.fld d R.NW_PTP_STATUS_MASTER = s.fld d R.NW_PTP_STATUS_MASTER := by
  have kept := State.enter_kept (P := Bits.words [0x180104]) (d := d) (Bits.words_quiet (by decide)) (fun a lo hi h e => by
    have := List.mem_singleton.mp h
    omega) s b .holdover
  unfold State.servoLoss
  dsimp only
  split
  · exact ⟨kept.sup, s.enter_die_nw d b .holdover, kept.fld d _ 0 0 (List.mem_singleton.mpr rfl)⟩
  · exact ⟨rfl, rfl, rfl⟩

/-- The selected master's time has passed: it is dropped, and the best of the others is selected. -/
theorem State.announceTimeout_selects {s : State} {d : DieId} {id : List Byte} {t : Nat} (hid : (s.die d).nw.ptp.sel = some id)
    (ht : (s.die d).announceDue = some t) :
    let r := s.announceTimeout d
    let q := (r.die d).nw.ptp
    r.now = max s.now t ∧ q.foreign = (s.die d).nw.ptp.foreign.filter (fun v => v.port ≠ id) ∧
      q.sel = (bestMaster r.now q.foreign).map PtpMaster.port ∧ r.fld d R.NW_PTP_STATUS_MASTER = b2n q.sel.isSome := by
  have hnw : ((s.advanceTo t).die d).nw = (s.die d).nw := s.advance_die_nw _ d
  have hothers (l : List PtpMaster) : (l.filter fun v => v.port != id) = l.filter fun v => v.port ≠ id :=
    List.filter_congr fun v _ => by simp [bne, beq_eq_decide]
  unfold State.announceTimeout
  rw [ht, hid]
  dsimp only
  rw [hnw, hothers]
  generalize hl : (s.die d).nw.ptp.foreign.filter (fun v => v.port ≠ id) = l
  obtain ⟨hnow, hforeign, hsel, hmaster⟩ := ((s.advanceTo t).upd d fun x => x.modPtp fun p => { p with foreign := l }).ptpSelect_shows d
    (bestMaster (s.advanceTo t).now l)
  rw [State.die_upd_same] at hforeign
  rw [State.upd_now] at hnow
  generalize State.ptpSelect _ d (bestMaster (s.advanceTo t).now l) = u at hnow hforeign hsel hmaster
  have selected {r : State} (hr : r.now = u.now ∧ (r.die d).nw = (u.die d).nw ∧ r.fld d R.NW_PTP_STATUS_MASTER = u.fld d R.NW_PTP_STATUS_MASTER) :
      r.now = max s.now t ∧ (r.die d).nw.ptp.foreign = l ∧
        (r.die d).nw.ptp.sel = (bestMaster r.now (r.die d).nw.ptp.foreign).map PtpMaster.port ∧
        r.fld d R.NW_PTP_STATUS_MASTER = b2n (r.die d).nw.ptp.sel.isSome := by
    obtain ⟨hrnow, hrnw, hrmaster⟩ := hr
    have hrl : (r.die d).nw.ptp.foreign = l := (congrArg (·.ptp.foreign) hrnw).trans hforeign
    have hrsel : (r.die d).nw.ptp.sel = (bestMaster (s.advanceTo t).now l).map PtpMaster.port := (congrArg (·.ptp.sel) hrnw).trans hsel
    refine ⟨(hrnow.trans hnow).trans (s.advanceTo_now t), hrl, ?_, ?_⟩
    · rw [hrl, hrnow, hnow]; exact hrsel
    · rw [hrsel, Option.isSome_map]; exact hrmaster.trans hmaster
  split
  · exact selected (u.servoLoss_shows d _)
  · exact selected ⟨rfl, rfl, rfl⟩

/-! ### DELAY_REQ (R375, R377) -/

/-- The clock that PTP stamps by is a die's own and, on die 1 while it is the backup, that of its backup servo. -/
theorem State.ptpNow_congr {s r : State} {d : DieId} (hclk : (r.die d).clk = (s.die d).clk) (hplans : r.pkg.plans = s.pkg.plans)
    (hfld : ∀ f : Fld, f.base < 0x30000 → r.fld 1 f 0 0 = s.fld 1 f 0 0) : r.ptpNow d = s.ptpNow d := by
  have hsource : r.source 1 = s.source 1 := by
    have hfields (f : Fld) (h : f.base < 0x30000) : (r.die 1).fld f 0 0 = (s.die 1).fld f 0 0 := hfld f h
    unfold State.source State.planRuns Die.flag
    dsimp only
    rw [hfields _ (by decide), hfields _ (by decide), hfields _ (by decide), hplans]
  unfold State.ptpNow State.ptpBackup
  rw [hclk, hsource, hfld _ (by decide)]

/-- The engine with the number and the time of a request that it sends now. -/
def State.delayAsked (s : State) (d : DieId) : State :=
  s.upd d fun x => x.modPtp fun p => { p with req := some (p.reqSeq, s.ptpNow d), reqSeq := (p.reqSeq + 1) % 65536, reqAt := s.now }
theorem State.delayReq_asked {s : State} {d : DieId} {v : PtpMaster} (hv : (s.die d).nw.ptp.master = some v) :
    let u := s.advanceTo ((s.die d).nw.ptp.reqAt + ptpInterval (s.die d).nw.ptp.reqLog)
    ∃ b : List Byte, s.delayReq d = (u.delayAsked d).ctrlSend d (u.fld d R.NW_PTP_CFG_SUBPORT) b := by
  unfold State.delayReq
  rw [hv]
  exact ⟨_, rfl⟩
theorem State.delayAsked_fld (s : State) (d e : DieId) (f : Fld) (i j : Nat) : (s.delayAsked d).fld e f i j = s.fld e f i j := by
  unfold State.delayAsked State.fld
  by_cases he : e = d
  · subst he; rw [State.die_upd_same]; rfl
  · rw [State.die_upd_other _ _ he]

/-- The engine sends its request to the selected master, and keeps its number and its time. -/
theorem State.delayReq_sends {s : State} {d : DieId} {v : PtpMaster} (hv : (s.die d).nw.ptp.master = some v)
    (hlink : s.fld d R.NW_SP_STATUS_LINK (s.fld d R.NW_PTP_CFG_SUBPORT) = 1) :
    let p := (s.die d).nw.ptp
    let r := s.delayReq d
    r.now = max s.now (p.reqAt + ptpInterval p.reqLog) ∧ r.outbox.length = s.outbox.length + 1 ∧ r.outbox.take s.outbox.length = s.outbox ∧
      (r.die d).nw.ptp = { p with req := some (p.reqSeq, r.ptpNow d), reqSeq := (p.reqSeq + 1) % 65536, reqAt := r.now } := by
  obtain ⟨b, hsent⟩ := State.delayReq_asked hv
  have htime := s.advanceTo_now ((s.die d).nw.ptp.reqAt + ptpInterval (s.die d).nw.ptp.reqLog)
  have hnw : ((s.advanceTo ((s.die d).nw.ptp.reqAt + ptpInterval (s.die d).nw.ptp.reqLog)).die d).nw = (s.die d).nw := s.advance_die_nw _ d
  have houtbox : (s.advanceTo ((s.die d).nw.ptp.reqAt + ptpInterval (s.die d).nw.ptp.reqLog)).outbox = s.outbox := rfl
  have hfld (f : Fld) (i : Nat) : (s.advanceTo ((s.die d).nw.ptp.reqAt + ptpInterval (s.die d).nw.ptp.reqLog)).fld d f i = s.fld d f i :=
    s.advance_fld _ d f i 0
  generalize s.advanceTo ((s.die d).nw.ptp.reqAt + ptpInterval (s.die d).nw.ptp.reqLog) = u at hsent htime hnw houtbox hfld
  have hsp : u.fld d R.NW_PTP_CFG_SUBPORT < 8 := (u.die d).fld_lt R.NW_PTP_CFG_SUBPORT 0 0
  have hup : (u.delayAsked d).fld d R.NW_SP_STATUS_LINK (u.fld d R.NW_PTP_CFG_SUBPORT) = 1 := by
    rw [State.delayAsked_fld, hfld, hfld, hlink]
  dsimp only
  rw [hsent]
  have hnow : ((u.delayAsked d).ctrlSend d (u.fld d R.NW_PTP_CFG_SUBPORT) b).now = u.now :=
    (State.ctrlSend_now _ _ _ _).trans (u.upd_now d _)
  have hstamp : ((u.delayAsked d).ctrlSend d (u.fld d R.NW_PTP_CFG_SUBPORT) b).ptpNow d = u.ptpNow d := by
    rw [State.ctrlSend_up hup]
    refine State.ptpNow_congr ?_ ?_ fun f hf => ?_
    · rw [State.send_die, State.count_clk]; exact u.upd_clk d d rfl
    · rw [State.send_pkg, State.count, State.upd_pkg]; exact congrArg Pkg.plans (u.upd_pkg d _)
    · refine (State.fld_setFld_addr (u.delayAsked d) d 1 _ f _ _ 0 0 0 ?_).trans (u.delayAsked_fld d 1 f 0 0)
      simp only [fldAddr, R.NW_SP_TX_FRAMES]
      omega
  have hbox : ((u.delayAsked d).ctrlSend d (u.fld d R.NW_PTP_CFG_SUBPORT) b).outbox =
      s.outbox ++ [.frame d (u.fld d R.NW_PTP_CFG_SUBPORT) (ethPad b) false] := by
    rw [State.ctrlSend_up hup, State.send_outbox, State.count, State.upd_outbox, State.delayAsked, State.upd_outbox, houtbox]
  refine ⟨hnow.trans htime, by simp [hbox], by simp [hbox], ?_⟩
  rw [State.ctrlSend_die_nw, hstamp, hnow, ← hnw, State.delayAsked, State.die_upd_same]
  rfl

end Sys2Proof.Machine
end

section
/-! What queueing a packet leaves (R360, R365, R386, R387): the clock of its die, the send flows and their counts of packets. -/

namespace Sys2Proof.Machine

/-- What a sent packet of flow `f` is read from: the clock, the send flows, and the word of NW_TX_PACKETS. -/
def Die.sending (x : Die) (f : Nat) : Clock × Map TxFlow × W32 := (x.clk, x.nw.tx, x.reg (fldAddr R.NW_TX_PACKETS f 0))
theorem Die.clk_of_sending {x y : Die} {f : Nat} (h : y.sending f = x.sending f) : y.clk = x.clk := congrArg Prod.fst h
theorem Die.tx_of_sending {x y : Die} {f : Nat} (h : y.sending f = x.sending f) : y.tx f = x.tx f :=
  congrArg (fun v : Clock × Map TxFlow × W32 => mget _ v.2.1 f) h
theorem Die.packets_of_sending {x y : Die} {f : Nat} (h : y.sending f = x.sending f) : y.fld R.NW_TX_PACKETS f = x.fld R.NW_TX_PACKETS f :=
  congrArg (fun v : Clock × Map TxFlow × W32 => bits v.2.2.toNat 31 0) h

/-- A family of registers of which none is the count of packets of a send flow, whatever the index: it lies above, it is a single
register below, or it stands at another place of every 16 bytes. -/
abbrev Fld.OffPackets (g : Fld) : Prop :=
  0x190000 ≤ g.base ∨ (g.base < 0x18C000 ∧ g.stride = 0 ∧ g.stride2 = 0) ∨ (g.base % 16 ≠ 4 ∧ g.stride % 16 = 0 ∧ g.stride2 % 16 = 0)

theorem State.sending_ite (c : Prop) [Decidable c] (s t : State) (d : DieId) (f : Nat) :
    ((if c then s else t).die d).sending f = if c then (s.die d).sending f else (t.die d).sending f := by split <;> rfl

section Flow

variable {f : Nat} (hf : f < 1024)
include hf

theorem Fld.OffPackets.ne {g : Fld} (h : g.OffPackets) (i j : Nat) : fldAddr R.NW_TX_PACKETS f 0 ≠ fldAddr g i j := by
  have hcount : fldAddr R.NW_TX_PACKETS f 0 = 0x18C004 + f * 16 := rfl
  rw [hcount]
  unfold fldAddr
  rcases h with habove | ⟨hbelow, hone, hone'⟩ | ⟨hplace, hstep, hstep'⟩
  · omega
  · rw [hone, hone']; omega
  · intro e
    have hmod : (0x18C004 + f * 16) % 16 = g.base % 16 := by
      rw [e, Nat.add_mod, Nat.add_mod g.base, Nat.mul_mod i, Nat.mul_mod j, hstep, hstep']
      simp
    omega

theorem Die.Posted.sending {x y : Die} (h : x.Posted y) : y.sending f = x.sending f := by
  have quiet : Quiet (fldAddr R.NW_TX_PACKETS f 0) := by simp only [Quiet, fldAddr, R.NW_TX_PACKETS]; omega
  unfold Die.sending
  rw [h.clk, h.nw, h.reg quiet]
theorem Die.setFld_sending (x : Die) {g : Fld} (h : g.OffPackets) (v i j : Nat) : (x.setFld g v i j).sending f = x.sending f := by
  unfold Die.sending
  rw [Die.reg_setFld_other _ _ _ _ _ (h.ne hf i j)]
  rfl
theorem State.setFld_sending (s : State) (d : DieId) {g : Fld} (h : g.OffPackets) (v i j : Nat) :
    ((s.setFld d g v i j).die d).sending f = (s.die d).sending f := by
  rw [State.setFld, State.die_upd_same, Die.setFld_sending hf _ h]
theorem State.count_sending (s : State) (d : DieId) {g : Fld} (h : g.OffPackets) (i n : Nat) :
    ((s.count d g i n).die d).sending f = (s.die d).sending f := s.setFld_sending hf d h _ i 0
theorem State.event_sending (s : State) (d : DieId) {g : Fld} (h : g.OffPackets) (i n : Nat) :
    ((s.event d g i n).die d).sending f = (s.die d).sending f := by
  rw [(s.event_posted d g i n).sending hf, Die.setFld_sending hf _ h]
theorem State.hbCad_sending (s : State) (d : DieId) (c n k v : Nat) (p : Bool) : ((s.hbCad d c n k v p).die d).sending f = (s.die d).sending f :=
  (s.hbRecord_posted d d _ _ _ _ _).sending hf
theorem State.eventRec_sending (s : State) (d : DieId) {g : Fld} (h : g.OffPackets) (i n v : Nat) (p : Bool) :
    ((s.eventRec d g i n v p).die d).sending f = (s.die d).sending f := by
  rw [(s.eventRec_posted d g i n v p).sending hf, Die.setFld_sending hf _ h]
theorem State.breach_sending (s : State) (d : DieId) (b : Breach) (frag : Nat) :
    ((s.breach d b frag).die d).sending f = (s.die d).sending f := by
  simp (disch := decide) only [State.breach, State.hbCad_sending hf, State.event_sending hf, State.sending_ite, State.count_sending hf,
    State.setFld_sending hf, ite_self]

/-- A packet that does not fit is counted and reported (R387). -/
theorem State.queueDrop_sending (s : State) (d : DieId) (q : QId) (frag : Nat) : ((s.queueDrop d q frag).die d).sending f = (s.die d).sending f := by
  simp (disch := decide) only [State.queueDrop, State.breach_sending hf, State.eventRec_sending hf, State.event_sending hf, State.sending_ite,
    State.count_sending hf, State.setFld_sending hf, ite_self]
/-- One that fits goes to its queue (R386). -/
theorem State.enqueue_sending (s : State) (d : DieId) (q : QId) (frag : Nat) (p : Pkt) :
    ((s.enqueue d q frag p).die d).sending f = (s.die d).sending f := by
  unfold State.enqueue
  dsimp only
  split
  · exact s.queueDrop_sending hf d q frag
  · rw [State.die_upd_same]; rfl

/-! ### A neighbour that is asked for (R357) -/

theorem State.ctrlSend_sending (s : State) (d : DieId) (sp : Nat) (b : List Byte) : ((s.ctrlSend d sp b).die d).sending f = (s.die d).sending f := by
  unfold State.ctrlSend
  split
  · exact s.count_sending hf d (by decide) sp 1
  · exact s.count_sending hf d (by decide) sp 1
theorem State.askNeighbour_sending (s : State) (d : DieId) (sp vlan : Nat) (ip : List Byte) :
    ((s.askNeighbour d sp vlan ip).die d).sending f = (s.die d).sending f := by
  have hasked (g : SubPort → SubPort) : ((s.upd d fun x => x.modPort sp g).die d).sending f = (s.die d).sending f := by
    rw [State.die_upd_same]; rfl
  unfold State.askNeighbour
  dsimp only
  split
  · rfl
  · split <;> rw [State.ctrlSend_sending hf, hasked]

/-- A payload that is queued on the paths of a flow, or discarded where a path has no neighbour. -/
theorem State.txQueue_sending (s : State) (d : DieId) (h at_ : Nat) (payload : List Byte) :
    ((s.txQueue d h at_ payload).die d).sending f = (s.die d).sending f := by
  unfold State.txQueue
  refine foldl_keeps (fun t : State => (t.die d).sending f) _ (fun t p => ?_) _ s
  dsimp only
  split
  · rw [State.askNeighbour_sending hf, State.event_sending hf _ d (by decide), State.count_sending hf _ d (by decide)]
  · exact State.enqueue_sending hf _ _ _ _ _

end Flow
end Sys2Proof.Machine
end

section
/-! What the packet of a send flow makes of the flow and its registers, by the flow's kind (R359 to R361, R365, R370). -/

namespace Sys2Proof.Machine

/-! ### Tables of a TS flow (R368) -/

@[simp] theorem Die.tsPuts_regs (x : Die) (f pid : Nat) (start : Bool) (body : List Byte) : (x.tsPuts f pid start body).regs = x.regs := by
  unfold Die.tsPuts
  exact foldl_keeps Die.regs _ (fun x e => x.modTx_regs f _) _ x
@[simp] theorem Die.tsPuts_clk (x : Die) (f pid : Nat) (start : Bool) (body : List Byte) : (x.tsPuts f pid start body).clk = x.clk := by
  unfold Die.tsPuts
  exact foldl_keeps Die.clk _ (fun x e => x.modTx_clk f _) _ x
theorem Die.tsPsi_regs (x : Die) (f : Nat) : (x.tsPsi f).regs = x.regs := by simp [Die.tsPsi]
theorem Die.tsPsi_clk (x : Die) (f : Nat) : (x.tsPsi f).clk = x.clk := by simp [Die.tsPsi]

/-! ### Entries of ancillary data (R359, R500) -/

/-- An entry of ancillary data is taken from its queue, or missed, in no time (R500). -/
theorem State.entryTaken_clk (s : State) (d : DieId) (f : Nat) (q : EntryQueue) : ((s.upd d fun x => x.setEntryQ d f q).die d).clk = (s.die d).clk :=
  s.upd_clk d d rfl
theorem State.dmUnderrun_clk (s : State) (d : DieId) (f : Nat) : ((s.dmUnderrun d f).die d).clk = (s.die d).clk := by
  unfold State.dmUnderrun State.dmEvent
  split
  · rw [State.event_clk, State.event_clk, State.count_clk]
  · rfl

/-! ### PACKET_BUILD (R360) -/

/-- State `r` is state `s` after flow `f` of die `d` has sent one RTP packet: it took the flow's sequence number, which is shown, and is
counted; the clock of the die stands. -/
structure State.RtpSent (s : State) (d : DieId) (f : Nat) (r : State) : Prop where
  clk : (r.die d).clk = (s.die d).clk
  seq : ((r.die d).tx f).seq = (((s.die d).tx f).seq + 1) % 2 ^ 32
  shown : r.fld d R.NW_TX_SEQ_SEQ f = ((s.die d).tx f).seq % 65536
  packets : r.fld d R.NW_TX_PACKETS f = (s.fld d R.NW_TX_PACKETS f + 1) % 2 ^ 32

section Flow

variable {f : Nat} (hf : f < 1024) (s : State) (d : DieId)
include hf

/-- An RTP packet takes the flow's sequence number, shows it and is counted; the clock stands. -/
theorem State.rtpSend_shows (at_ ts : Nat) (marker : Bool) (payload : List Byte) :
    let r := s.rtpSend d f at_ ts marker payload
    (r.die d).clk = (s.die d).clk ∧ (r.die d).tx f = { (s.die d).tx f with seq := (((s.die d).tx f).seq + 1) % 2 ^ 32 } ∧
      r.fld d R.NW_TX_SEQ_SEQ f = ((s.die d).tx f).seq % 65536 ∧ r.fld d R.NW_TX_PACKETS f = (s.fld d R.NW_TX_PACKETS f + 1) % 2 ^ 32 := by
  have hnumber : fldAddr R.NW_TX_PACKETS f 0 ≠ fldAddr R.NW_TX_SEQ_SEQ f 0 := Fld.OffPackets.ne hf (by decide) f 0
  unfold State.rtpSend
  extract_lets b seq u
  have hqueued : (u.die d).sending f = (s.die d).sending f := s.txQueue_sending hf d f at_ _
  clear_value u
  have htaken : (u.upd d fun x => x.modTx f fun v => { v with seq := (v.seq + 1) % 2 ^ 32 }).die d =
      (u.die d).modTx f fun v => { v with seq := (v.seq + 1) % 2 ^ 32 } := u.die_upd_same d _
  refine ⟨?_, ?_, State.fld_setFld_same _ _ _ _ _ _ (by decide), ?_⟩
  · rw [State.setFld_clk, State.count_clk, htaken, Die.modTx_clk, Die.clk_of_sending hqueued]
  · rw [Die.tx, State.setFld_die_nw, State.count_die_nw, htaken, ← Die.tx, Die.tx_modTx_same, Die.tx_of_sending hqueued]
  · rw [State.fld_setFld_addr _ _ _ _ _ _ _ _ _ _ hnumber, State.fld_count_same _ _ _ _ _ (by decide), State.fld, htaken]
    exact congrArg (fun n => (n + 1) % 2 ^ 32) (Die.packets_of_sending hqueued)

/-! ### The kinds of flow -/

/-- An RTP packet after which the flow goes on to another position. -/
theorem State.rtpSend_moved (g : Die → TxFlow → TxFlow) (hg : ∀ x v, (g x v).seq = v.seq) (at_ ts : Nat) (marker : Bool) (payload : List Byte) :
    s.RtpSent d f ((s.rtpSend d f at_ ts marker payload).upd d fun x => x.modTx f (g x)) := by
  obtain ⟨hclk, htx, hseq, hpackets⟩ := s.rtpSend_shows hf d at_ ts marker payload
  refine ⟨?_, ?_, ?_, ?_⟩
  · rw [State.die_upd_same, Die.modTx_clk, hclk]
  · rw [State.die_upd_same, Die.tx_modTx_same, hg, htx]
  · rw [State.fld, State.die_upd_same]; exact hseq
  · rw [State.fld, State.die_upd_same]; exact hpackets

/-- A packet of video (R363). -/
theorem State.txVideo_sent (g : Grid) : s.RtpSent d f (s.txVideo d f g) := by
  unfold State.txVideo
  refine s.rtpSend_moved hf d _ ?_ _ _ _ _
  exact fun _ _ => rfl
/-- A packet of audio (R361). -/
theorem State.txAudio_sent : s.RtpSent d f (s.txAudio d f) := by
  unfold State.txAudio
  refine s.rtpSend_moved hf d _ ?_ _ _ _ _
  exact fun _ _ => rfl

/-- A packet of ancillary data (R359), where there is one: the clock stands. -/
theorem State.txAnc_clk (g : Grid) : ((s.txAnc d f g).die d).clk = (s.die d).clk := by
  have hsent (u : State) (at_ ts : Nat) (marker : Bool) (payload : List Byte) : ((u.rtpSend d f at_ ts marker payload).die d).clk = (u.die d).clk :=
    (u.rtpSend_shows hf d at_ ts marker payload).1
  unfold State.txAnc
  dsimp only
  rw [State.die_upd_same, Die.modTx_clk]
  repeat' split
  all_goals simp only [hsent, State.dmUnderrun_clk, State.entryTaken_clk]

/-! ### MPEG-2 TS (R368 to R370) -/

/-- A payload that is queued and counted. -/
theorem State.txQueue_counted (at_ : Nat) (payload : List Byte) :
    let r := (s.txQueue d f at_ payload).count d R.NW_TX_PACKETS f
    (r.die d).clk = (s.die d).clk ∧ (r.die d).tx f = (s.die d).tx f ∧ r.fld d R.NW_TX_PACKETS f = (s.fld d R.NW_TX_PACKETS f + 1) % 2 ^ 32 := by
  have hqueued := s.txQueue_sending hf d f at_ payload
  refine ⟨?_, ?_, ?_⟩
  · rw [State.count_clk, Die.clk_of_sending hqueued]
  · rw [Die.tx, State.count_die_nw, ← Die.tx, Die.tx_of_sending hqueued]
  · rw [State.fld_count_same _ _ _ _ _ (by decide)]
    exact congrArg (fun n => (n + 1) % 2 ^ 32) (Die.packets_of_sending hqueued)

/-- A datagram: the flow goes on to the next, and the packet is counted; the clock stands. -/
theorem State.txDatagram_shows (g : Grid) :
    let r := s.txDatagram d f g
    (r.die d).clk = (s.die d).clk ∧ ((r.die d).tx f).k = ((s.die d).tx f).k + 1 ∧
      r.fld d R.NW_TX_PACKETS f = (s.fld d R.NW_TX_PACKETS f + 1) % 2 ^ 32 := by
  unfold State.txDatagram
  extract_lets x v n us psi pcr waiting tables y pid clock af first q body null payload z u t at_ r
  have htables : tables.regs = x.regs ∧ tables.clk = x.clk := ⟨Die.tsPsi_regs _ f, Die.tsPsi_clk _ f⟩
  clear_value tables psi pcr
  have htabled : y.regs = x.regs ∧ y.clk = x.clk := by
    unfold y
    split
    · exact htables
    · exact ⟨rfl, rfl⟩
  have hz : z.regs = x.regs ∧ z.clk = x.clk ∧ (z.tx f).k = n + 1 := by
    refine ⟨htabled.1, htabled.2, ?_⟩
    rw [show z = y.modTx f _ from rfl, Die.tx_modTx_same]
  clear_value z payload at_
  have htaken : u.die d = z := s.die_setDie_same d z
  have hcount : u.fld d R.NW_TX_PACKETS f = s.fld d R.NW_TX_PACKETS f := by
    unfold State.fld Die.fld Die.reg
    rw [htaken, hz.1]
  have sent {r : State} (hr : (r.die d).clk = (u.die d).clk ∧ ((r.die d).tx f).k = ((u.die d).tx f).k ∧
      r.fld d R.NW_TX_PACKETS f = (u.fld d R.NW_TX_PACKETS f + 1) % 2 ^ 32) :
      (r.die d).clk = (s.die d).clk ∧ ((r.die d).tx f).k = ((s.die d).tx f).k + 1 ∧
        r.fld d R.NW_TX_PACKETS f = (s.fld d R.NW_TX_PACKETS f + 1) % 2 ^ 32 := by
    obtain ⟨hclk, htx, hpackets⟩ := hr
    rw [htaken] at hclk htx
    exact ⟨hclk.trans hz.2.1, htx.trans hz.2.2, by rw [hpackets, hcount]⟩
  by_cases h : z.fld R.NW_TX_CFG_KIND f = 6
  · rw [show r = u.rtpSend d f at_ _ false payload from if_pos h]
    obtain ⟨hclk, htx, -, hpackets⟩ := u.rtpSend_shows hf d at_ (unsgn 32 (z.tsTicks f g n 90000)) false payload
    exact sent ⟨hclk, by rw [htx], hpackets⟩
  · rw [show r = (u.txQueue d f at_ payload).count d R.NW_TX_PACKETS f from if_neg h]
    obtain ⟨hclk, htx, hpackets⟩ := u.txQueue_counted hf d at_ payload
    exact sent ⟨hclk, by rw [htx], hpackets⟩

end Flow
end Sys2Proof.Machine
end

section
/-! PACKET_POSITION (R360, R361, R370, R400): time moves to the position of a flow's next packet, and the packet is sent. -/

namespace Sys2Proof.Machine

variable {s : State} {d : DieId} {f : Nat} {g : Grid} {t : Nat} (hf : f < 1024) (hg : (s.die d).grid (s.fld d R.NW_TX_CFG_CADENCE f) = some g)
  (ht : (s.die d).txDue f = some t)

theorem State.advanceStation_die_nw (s : State) (d e : DieId) (t : Nat) : ((s.advanceStation d t).die e).nw = (s.die e).nw := by
  rw [State.advanceStation_rest]
theorem State.advanceStation_tx (s : State) (d : DieId) (t f : Nat) : ((s.advanceStation d t).die d).tx f = (s.die d).tx f := by
  unfold Die.tx
  rw [State.advanceStation_die_nw]

include hg ht

/-- A flow at the position of its next packet: station time has moved to it, and the packet is sent by the flow's kind. -/
theorem State.packetPosition_cases :
    let u := s.advanceStation d t
    let r := s.packetPosition d f
    let k := s.fld d R.NW_TX_CFG_KIND f
    (k = 0 ∧ r = u.txVideo d f g) ∨ ((k = 2 ∨ k = 3) ∧ r = u.txAudio d f) ∨ (k = 4 ∧ r = u.txAnc d f g) ∨
      (k ∉ [0, 2, 3, 4] ∧ r = u.txDatagram d f g) := by
  unfold State.packetPosition
  rw [ht, hg]
  dsimp only
  rw [State.advanceStation_fld]
  split
  next h => exact .inl ⟨h, rfl⟩
  next h => exact .inr (.inl ⟨.inl h, rfl⟩)
  next h => exact .inr (.inl ⟨.inr h, rfl⟩)
  next h => exact .inr (.inr (.inl ⟨h, rfl⟩))
  next h0 h2 h3 h4 => exact .inr (.inr (.inr ⟨by simpa using ⟨h0, h2, h3, h4⟩, rfl⟩))

/-- A TS flow sends one datagram. -/
theorem State.packetPosition_datagram (hk : s.fld d R.NW_TX_CFG_KIND f ∈ [5, 6]) :
    s.packetPosition d f = (s.advanceStation d t).txDatagram d f g := by
  obtain ⟨h0, -⟩ | ⟨h2 | h3, -⟩ | ⟨h4, -⟩ | ⟨-, h⟩ := State.packetPosition_cases hg ht
  · rw [h0] at hk; exact absurd hk (by decide)
  · rw [h2] at hk; exact absurd hk (by decide)
  · rw [h3] at hk; exact absurd hk (by decide)
  · rw [h4] at hk; exact absurd hk (by decide)
  · exact h

include hf

/-- Time moves to the packet's position, whatever the flow's kind. -/
theorem State.packetPosition_clk : ((s.packetPosition d f).die d).clk.now = max (s.die d).clk.now t := by
  rw [← s.advanceStation_now d t]
  refine congrArg Clock.now ?_
  obtain ⟨-, h⟩ | ⟨-, h⟩ | ⟨-, h⟩ | ⟨-, h⟩ := State.packetPosition_cases hg ht <;> rw [h]
  · exact (State.txVideo_sent hf _ d g).clk
  · exact (State.txAudio_sent hf _ d).clk
  · exact State.txAnc_clk hf _ d g
  · exact (State.txDatagram_shows hf _ d g).1

/-- A flow of video or audio sends one RTP packet. -/
theorem State.packetPosition_sent (hk : s.fld d R.NW_TX_CFG_KIND f ∈ [0, 2, 3]) :
    (s.advanceStation d t).RtpSent d f (s.packetPosition d f) := by
  obtain ⟨-, h⟩ | ⟨-, h⟩ | ⟨h4, -⟩ | ⟨hother, -⟩ := State.packetPosition_cases hg ht
  · rw [h]; exact State.txVideo_sent hf _ d g
  · rw [h]; exact State.txAudio_sent hf _ d
  · rw [h4] at hk; exact absurd hk (by decide)
  · exact absurd ((by decide : [0, 2, 3] ⊆ [0, 2, 3, 4]) hk) hother

end Sys2Proof.Machine

namespace Sys2Proof
open Sys2Proof.Machine

/-- Settles O40: each command is one function of the model, whose lemmas say what it brings about. -/
theorem networkTimers : Obligations.NetworkTimers := by
  unfold Obligations.NetworkTimers
  intro s d f path sp dt hd x p kind down heard
  refine ⟨fun htwo hup => completes_onDie hd ?_, fun id hid t ht => completes_onDie hd (State.announceTimeout_selects hid ht),
    fun v hv hlink => completes_onDie hd (State.delayReq_sends hv hlink), fun m hm => completes_onDie hd (State.reportDue_only hm dt),
    fun g hg t ht => completes_onDie hd ⟨State.packetPosition_clk f.isLt hg ht, fun hk => ?_, fun hk => ?_⟩⟩
  · obtain rfl | rfl : path = 0 ∨ path = 1 := by omega
    · exact State.pathDown_shows f.isLt htwo rfl hup
    · exact State.pathDown_shows f.isLt htwo rfl hup
  · obtain ⟨-, hseq, hshown, hpackets⟩ := State.packetPosition_sent f.isLt hg ht hk
    rw [State.advanceStation_tx] at hseq hshown
    rw [State.advanceStation_fld] at hpackets
    exact ⟨hseq, hshown, hpackets⟩
  · obtain ⟨-, hnext, hpackets⟩ := State.txDatagram_shows f.isLt (s.advanceStation d t) d g
    rw [← State.packetPosition_datagram hg ht hk] at hnext hpackets
    rw [State.advanceStation_tx] at hnext
    rw [State.advanceStation_fld] at hpackets
    exact ⟨hnext, hpackets⟩

end Sys2Proof
end
